-- ==== Sys2Proof/Word.lean ====
section
/-! DEFINITION. The word types, byte strings in little-endian order (R2), and keyed tables held as plain lists. -/

namespace Sys2Proof

/-- 00_scope: a byte is 8 bits. -/
abbrev Byte := BitVec 8
/-- 00_scope: a word is 32 bits. -/
abbrev Word := BitVec 32
/-- 00_scope: a doubleword is 64 bits. -/
abbrev DWord := BitVec 64
/-- A byte string, lowest address first. -/
abbrev Bytes := List Byte

/-- The number a byte string spells, lowest byte first (R2). -/
def leNat : Bytes → Nat
  | [] => 0
  | b :: bs => b.toNat + 256 * leNat bs

/-- The `n` low bytes of a number, lowest byte first (R2). -/
def natLE : Nat → Nat → Bytes
  | 0, _ => []
  | n + 1, v => BitVec.ofNat 8 v :: natLE n (v / 256)

/-- The bits `hi` down to `lo` of a number. -/
def fld (v hi lo : Nat) : Nat := v / 2 ^ lo % 2 ^ (hi + 1 - lo)

/-- One bit of a number. -/
def bitAt (v i : Nat) : Bool := v.testBit i

/-- A flag as a bit. -/
def b2n (b : Bool) : Nat := if b then 1 else 0

/-- A keyed table as plain data: the entries in rising key order. -/
abbrev Tab (α : Type) := List (Nat × α)

/-- The entry of a key. -/
def Tab.get? {α : Type} : Tab α → Nat → Option α
  | [], _ => none
  | (j, v) :: t, k => if j = k then some v else Tab.get? t k

/-- Put an entry, keeping the keys rising. -/
def Tab.set {α : Type} : Tab α → Nat → α → Tab α
  | [], k, v => [(k, v)]
  | (j, w) :: t, k, v =>
    if k < j then (k, v) :: (j, w) :: t
    else if j = k then (k, v) :: t
    else (j, w) :: Tab.set t k v

/-- Take every entry of a key away. -/
def Tab.erase {α : Type} : Tab α → Nat → Tab α
  | [], _ => []
  | (j, w) :: t, k => if j = k then Tab.erase t k else (j, w) :: Tab.erase t k

/-- The entry of a key, or a default. -/
def Tab.getD {α : Type} (t : Tab α) (k : Nat) (d : α) : α := (Tab.get? t k).getD d

/-- Change the entry of a key where there is one. -/
def Tab.modify {α : Type} (t : Tab α) (k : Nat) (f : α → α) : Tab α :=
  match Tab.get? t k with
  | some v => Tab.set t k (f v)
  | none => t

/-- Is there an entry? -/
def Tab.has {α : Type} (t : Tab α) (k : Nat) : Bool := (Tab.get? t k).isSome

/-- The keys of a table. -/
def Tab.keys {α : Type} (t : Tab α) : List Nat := t.map Prod.fst

/-- The keys rise strictly. -/
def Tab.sorted {α : Type} : Tab α → Bool
  | [] => true
  | [_] => true
  | (j, _) :: (k, w) :: t => decide (j < k) && Tab.sorted ((k, w) :: t)

/-- Addressed memory: (address, byte) pairs, addresses rising, no byte 0 listed; an unlisted byte reads 0. -/
abbrev Mem := List Host.Cell

/-- Read one byte. -/
def Mem.read (m : Mem) (a : Nat) : Byte := Tab.getD (α := Byte) m a 0

/-- Write one byte; writing 0 removes the entry. -/
def Mem.write (m : Mem) (a : Nat) (b : Byte) : Mem :=
  if b = 0 then Tab.erase (α := Byte) m a else Tab.set (α := Byte) m a b

/-- Read `n` bytes from an address up. -/
def Mem.readN (m : Mem) (a : Nat) : Nat → Bytes
  | 0 => []
  | n + 1 => Mem.read m a :: Mem.readN m (a + 1) n

/-- Write a byte string from an address up. -/
def Mem.writeN (m : Mem) (a : Nat) : Bytes → Mem
  | [] => m
  | b :: bs => Mem.writeN (Mem.write m a b) (a + 1) bs

/-- The canonical form: addresses rise and no byte 0 is listed. -/
def Mem.wf (m : Mem) : Bool := Tab.sorted (α := Byte) m && m.all (fun c => decide (c.2 ≠ 0))

/-- The little-endian value of `n` bytes at an address. -/
def Mem.leRead (m : Mem) (a n : Nat) : Nat := leNat (Mem.readN m a n)

/-- The words of a byte string, four bytes each. -/
def wordsOf : Bytes → List Word
  | a :: b :: c :: d :: t => BitVec.ofNat 32 (leNat [a, b, c, d]) :: wordsOf t
  | _ => []

/-- The bytes of a list of words. -/
def bytesOf : List Word → Bytes
  | [] => []
  | w :: ws => natLE 4 w.toNat ++ bytesOf ws

/-- Word `i` of a list as a number; a word that is not there reads 0. -/
def wAt (ws : List Word) (i : Nat) : Nat := (ws.getD i 0).toNat

/-- The doubleword in words `i` and `i + 1`, the low word first (R559). -/
def dAt (ws : List Word) (i : Nat) : Nat := wAt ws i + 2 ^ 32 * wAt ws (i + 1)

/-- The count from 0 up to `n`, excluding `n`. -/
def upto (n : Nat) : List Nat := List.range n

/-- The smallest multiple of `g` at or above `v`. -/
def alignUp (v g : Nat) : Nat := (v + g - 1) / g * g

end Sys2Proof
end

