-- ==== Sys2Proof/Syntax.lean ====
section
/-! DEFINITION. The commands of the block, one constructor per row of spec/opcode_table.json, and the operand records they carry. -/

namespace Sys2Proof

/-- The status codes of R576. -/
inductive Status where
  | ok | state | key | fenced | versionConflict | poison | deadline | filterShortfall | tablePaused
  | outcomeUnknown | corrupt | functionReset | nack | notSupported | quota | paused
  deriving DecidableEq, Repr

/-- The numeric value of a status (R576). -/
def Status.code : Status → Nat
  | .ok => 0 | .state => 1 | .key => 2 | .fenced => 3 | .versionConflict => 4 | .poison => 5
  | .deadline => 6 | .filterShortfall => 7 | .tablePaused => 8 | .outcomeUnknown => 9 | .corrupt => 10
  | .functionReset => 11 | .nack => 12 | .notSupported => 13 | .quota => 14 | .paused => 15

/-- The header of an LMF REQ packet as it arrives (R661); `limit` 0 stands for a version 2 requester's absent LIMIT (R654),
`ptrHi` is bits [71:70] of the pointer (R40), `sealOk` says whether the seal of an ENC payload opens (R666). -/
structure LmfReq where
  port : Nat
  dstEid : Nat
  srcEid : Nat
  srcInc : Nat
  tag : Nat
  gen : Nat
  level : Nat
  retry : Nat
  ctx : Nat
  key : Nat
  offset : Nat
  len : Nat
  ptrHi : Nat
  lseq : Nat
  limit : Nat
  enc : Bool
  sealOk : Bool
  deriving DecidableEq, Repr

/-- Where a command of the catalogue comes from: a function's channel (R596), an LMF BCI request (R557), the native LMF
form of the same request (R199 and the summary table of 05), or a management session (R790). -/
inductive BciSrc where
  | fn (port fn : Nat)
  | lmfBci (q : LmfReq)
  | lmf (q : LmfReq)
  | mgmt (mport : Nat)
  deriving DecidableEq, Repr

/-- A request of the command interface: its source and its words, the header first (R553). -/
structure BciReq where
  src : BciSrc
  words : List Word
  deriving DecidableEq, Repr

/-- A log entry that travels with a mirror update (R255, R737), with the home's fabric time (R249). -/
structure LogNote where
  eid : Nat
  ctx : Nat
  lseq : Nat
  st : Status
  value : Nat
  resp : Nat := value
  time : Nat
  deriving DecidableEq, Repr

/-- What a home journals at its mirror partner (R193, R295, R748, 19 "The journal"). -/
inductive JournalNote where
  | region (base size attr creator version : Nat)
  | copyDone
  | grant (eid ctx : Nat) (any : Bool) (rights : Nat)
  | shadow (page eid ctx : Nat)
  | shadowEnd (page eid ctx : Nat)
  | version (v : Nat) (pages : List Nat)
  | excl (agent : Nat)
  | object (name state owner ownerInc target targetInc entry : Nat)
  deriving DecidableEq, Repr

/-- One tier page of a handle: the published version, a writer's shadow page, or a superseded version held by a pin (R112). -/
inductive PageRef where
  | pub (handle : Nat)
  | shadow (handle eid ctx : Nat)
  | old (handle version : Nat)
  deriving DecidableEq, Repr

/-- The sources of R179, or none of them. -/
inductive RecoverySource where
  | none | t0 | tl | parity | partner
  deriving DecidableEq, Repr

/-- What a scrub read finds (R719, R720). -/
inductive ScrubFound where
  | clean | corrected | uncorrectable
  deriving DecidableEq, Repr

/-- How a known-answer test ends (R762, R763). -/
inductive KatResult where
  | pass | fail | yielded
  deriving DecidableEq, Repr

/-- The parts of R724. -/
inductive Part where
  | pseudoChannel | dimm | drive
  deriving DecidableEq, Repr

/-- The power domains of R688. -/
inductive Domain where
  | aon | core (n : Nat) | talus (die : Nat) | trv (n : Nat) | mor (n : Nat) | mem (die : Nat) | fab (die : Nat) | bc (die : Nat)
  deriving DecidableEq, Repr

/-- The register spaces: a function's window (R590), a port's component registers (R624), the management space. -/
inductive RegSpace where
  | fn (port fn : Nat)
  | bar2 (port : Nat)
  | mgmt
  deriving DecidableEq, Repr

/-- The far ends of an SPDM exchange (R775), and the fabric manager as the session this controller opens (R780). -/
inductive Peer where
  | doe (port : Nat) | mctp | mgmt (mport : Nat) | lmf (eid inc : Nat) | fm (eid : Nat)
  deriving DecidableEq, Repr

/-- What a requester offers in NEGOTIATE_ALGORITHMS (R776). -/
structure SpdmAlgorithms where
  sig4096 : Bool
  sha512 : Bool
  secp384 : Bool
  aesGcm : Bool
  deriving DecidableEq, Repr

/-- What a frame of the management Ethernet carries (R687). -/
inductive MgmtService where
  | management | telemetry | ptp | other
  deriving DecidableEq, Repr

/-- One result of a shard walk: item, attributes, distance bits, shard (R486). -/
structure Hit where
  item : Nat
  attr : Nat
  dist : BitVec 32
  shard : Nat
  deriving DecidableEq, Repr

/-- What a shard's walk returns: its results, the distances it computed and the nodes it skipped (R486, R504). -/
structure WalkReturns where
  hits : List Hit
  evals : Nat
  skips : Nat
  deriving DecidableEq, Repr

/-- Which images of the boot store verify at a boot (R771, R772). -/
structure BootImages where
  aonA : Bool
  aonB : Bool
  slot0 : Bool
  slot1 : Bool
  deriving DecidableEq, Repr

/-- A slot's header (R347) and the core that performs it. -/
structure SlotHdr where
  core : Nat
  slot : Nat
  pred : Nat
  pneg : Bool
  deriving DecidableEq, Repr

/-- Operand format S (R385). -/
structure SFmt where
  rd : Nat
  ra : Nat
  rb : Nat
  rc : Nat
  type : Nat
  sub : Nat
  imm : DWord
  deriving DecidableEq, Repr

/-- Operand format V (R385). -/
structure VFmt where
  vd : Nat
  va : Nat
  vb : Nat
  vc : Nat
  pd : Nat
  type : Nat
  type2 : Nat
  sub : Nat
  xs : Nat
  deriving DecidableEq, Repr

/-- Operand format L (R385); `type` is the element type of the mnemonic's suffix, for which the format has no field. -/
structure LFmt where
  vd : Nat
  ra : Nat
  rb : Nat
  rc : Nat
  re : Nat
  sub : Nat
  type : Nat
  imm : DWord
  deriving DecidableEq, Repr

/-- Operand format M (R385). -/
structure MFmt where
  acc : Nat
  md : Nat
  ma : Nat
  mb : Nat
  ra : Nat
  rb : Nat
  sub : Nat
  deriving DecidableEq, Repr

/-- Operand format C (R385). -/
structure CFmt where
  ra : Nat
  rb : Nat
  rc : Nat
  sub : Nat
  imm : DWord
  deriving DecidableEq, Repr


/-- The commands of the block: one constructor for each row of spec/opcode_table.json. -/
inductive Instr where
  /-- CXL_MEM_READ (R628): A CXL.mem read through a host window is performed as a read by the window's context, checked under R62 when it is used. -/
  | cxlMemRead (port hpa : Nat)
  /-- CXL_MEM_WRITE (R628): A CXL.mem write through a host window is performed as a write by the window's context; in a publish-mode region it is a shadowed write. -/
  | cxlMemWrite (port hpa : Nat) (data : Bytes) (poison : Bool)
  /-- LMF_LOAD (R189): An LMF load is checked and translated at the home, then served from the reader's shadow page or from the published version. -/
  | lmfLoad (q : LmfReq)
  /-- LMF_STORE (R188): An LMF store is applied at the home to the issuer's shadow page, or directly in a private-mode region. -/
  | lmfStore (q : LmfReq) (data : Bytes)
  /-- COUNTED_WRITE (R229): A remote write that names a counter is applied as a direct update; BYTES and PKTS advance once its data is visible. -/
  | countedWrite (q : LmfReq) (ckey : Nat) (data : Bytes)
  /-- RD_SHARED (R291): The home handles a read for a shared copy of a coherent line under the transition table. -/
  | rdShared (q : LmfReq) (agent : Nat)
  /-- RD_OWN (R291): The home handles a read for an exclusive copy with data. -/
  | rdOwn (q : LmfReq) (agent : Nat)
  /-- UPGRADE (R292): The home handles an S-to-M upgrade, as an RD_OWN when the requester is not a recorded sharer. -/
  | upgrade (q : LmfReq) (agent : Nat)
  /-- INV_OWN (R291): The home handles a request for an exclusive copy without data. -/
  | invOwn (q : LmfReq) (agent : Nat)
  /-- WB_DIRTY (R291): The home takes an agent's write-back of an M line and answers with CMP. -/
  | wbDirty (q : LmfReq) (agent : Nat) (data : Bytes) (poison : Bool)
  /-- EVICT_CLEAN (R291): The home takes an agent's drop of an E or S copy and answers with CMP. -/
  | evictClean (q : LmfReq) (agent : Nat)
  /-- RD_UNC (R291): The home handles a non-caching read of a coherent line. -/
  | rdUnc (q : LmfReq)
  /-- WR_UNC (R291): The home handles a non-caching write of a coherent line. -/
  | wrUnc (q : LmfReq) (data : Bytes) (mask : BitVec 64)
  /-- ACK_INV (R291): The home takes a sharer's acknowledgement of SNP_INV. -/
  | ackInv (q : LmfReq) (agent : Nat)
  /-- RSP_FWD (R291): The home takes an owner's answer to a forwarding snoop. -/
  | rspFwd (q : LmfReq) (agent : Nat) (dirty poison : Bool) (data : Bytes)
  /-- RSP_FLUSH (R291): The home takes an owner's answer to SNP_FLUSH and performs the pending access. -/
  | rspFlush (q : LmfReq) (agent : Nat) (dirty poison : Bool) (data : Bytes)
  /-- RSP_NOT_HELD (R289): The home takes an agent's report that it no longer holds the line. -/
  | rspNotHeld (q : LmfReq) (agent : Nat)
  /-- RECALL_DONE (R317): The takeover partner takes an agent's answer to REGION_RECALL. -/
  | recallDone (q : LmfReq) (agent : Nat)
  /-- PUBLISH (R199): A PUBLISH is accepted from BCI or the LMF and is ordered against the region's other publishes by arrival. -/
  | publish (r : BciReq)
  /-- PUBLISH_SWITCH (R196): When its turn comes, and once the mirror partner holds the pages, the publish switches its pages at one instant and takes a version. -/
  | publishSwitch (id : Nat)
  /-- PUBLISH_IF (R210): A conditional publish compares its expected range version and either proceeds as PUBLISH or fails with ST_VERSION_CONFLICT. -/
  | publishIf (r : BciReq)
  /-- DISCARD (R209): The caller's shadow pages in the range are freed, after any earlier publish of the caller over them. -/
  | discard (r : BciReq)
  /-- VERSION_QUERY (R212): Returns the region version and the range version as they stood at one instant. -/
  | versionQuery (r : BciReq)
  /-- VERSION_PIN (R216): Records the published version of each page in the range and returns a pin ID. -/
  | versionPin (r : BciReq)
  /-- VERSION_UNPIN (R222): Ends a pin of the calling context. -/
  | versionUnpin (r : BciReq)
  /-- READ_AT (R220): Reads a byte range of a pinned version, in the completion or into a destination region. -/
  | readAt (r : BciReq)
  /-- COUNTER_ALLOC (R226): Binds a new remote write counter to a region and to the allocating context. -/
  | counterAlloc (r : BciReq)
  /-- COUNTER_FREE (R235): Frees a counter and ends every wait on it with ST_KEY. -/
  | counterFree (r : BciReq)
  /-- COUNTER_RESET (R234): Sets BYTES and PKTS of a counter to zero at one instant. -/
  | counterReset (r : BciReq)
  /-- COUNTER_READ (R227): Returns BYTES and PKTS of a counter. -/
  | counterRead (r : BciReq)
  /-- WAIT_COUNT (R232): Starts a wait on a counter until the selected count reaches its target. -/
  | waitCount (r : BciReq)
  /-- WAIT_COUNT_WAKE (R232): A counter wait's condition holds, and the wait completes with the counts. -/
  | waitCountWake (id : Nat)
  /-- ATOMIC (R239): An atomic from BCI or the LMF is performed at the home in the per-block total order, and its result is logged. -/
  | atomic (r : BciReq)
  /-- ATOMIC_STATUS (R251): Reports the outcome of an LSEQ from the result log, writing a tombstone where the operation was not performed. -/
  | atomicStatus (r : BciReq)
  /-- MEMOP (R257): A memory-side operation descriptor is read, checked and queued at the home. -/
  | memop (r : BciReq)
  /-- MEMOP_END (R268): A memory-side operation ends, and its completion record is written. -/
  | memopEnd (id : Nat)
  /-- CLEAR_POISON (R310): Writes zeros to every poisoned line in the range and clears its mark. -/
  | clearPoison (r : BciReq)
  /-- MIRROR_UPDATE (R737): The mirror partner applies a forwarded update, together with its log entry, as one step. -/
  | mirrorUpdate (q : LmfReq) (data : Bytes) (log : Option LogNote) (note : Option JournalNote)
  /-- FAULT_RING_SET (R87): The owning host names the fault ring; both ring indices are set to 0. -/
  | faultRingSet (r : BciReq)
  /-- FAULT_RESOLVE (R90): FAULT_RESOLVE with REPLAY retranslates every access attached to the record. -/
  | faultResolve (r : BciReq)
  /-- FAULT_RESOLVE_ABORT (R92): FAULT_RESOLVE with ABORT completes every attached access with the given status. -/
  | faultResolveAbort (r : BciReq)
  /-- CREATE (R67): Creates a region and issues its key. -/
  | create (r : BciReq)
  /-- DESTROY (R67): Moves a region to DRAINING and advances its key generation. -/
  | destroy (r : BciReq)
  /-- REGION_SET (R59): Changes a changeable region attribute. -/
  | regionSet (r : BciReq)
  /-- GRANT (R66): Adds rights to an issuer's grant on a region. -/
  | grant (r : BciReq)
  /-- REVOKE (R66): Removes rights from a grant, completing once the accesses that passed under it have ended. -/
  | revoke (r : BciReq)
  /-- MAP (R72): Installs, transfers or re-marks translation leaves over a range. -/
  | map (r : BciReq)
  /-- UNMAP (R78): Makes translation entries absent and frees their pages. -/
  | unmap (r : BciReq)
  /-- CONVERT (R49): Converts between host view and device view using the caller's windows. -/
  | convert (r : BciReq)
  /-- CTX_CREATE (R574): Creates a context and optionally binds it to a function. -/
  | ctxCreate (r : BciReq)
  /-- CTX_SET (R568): Changes a context's ordering mode, shadow limit or floor. -/
  | ctxSet (r : BciReq)
  /-- CTX_RESET (R574): Moves a context to RESETTING, discarding its queued work, shadow pages and pins. -/
  | ctxReset (r : BciReq)
  /-- CTX_DESTROY (R574): Moves a context to DESTROYING and frees its counters. -/
  | ctxDestroy (r : BciReq)
  /-- TIER_SET (R130): Sets Strata's heat and promotion parameters. -/
  | tierSet (r : BciReq)
  /-- TIER_DRAIN (R143): Starts a drain of T0, of a TL extent or of T1 as a long operation. -/
  | tierDrain (r : BciReq)
  /-- TIER_DRAIN_CANCEL (R143): Stops a running drain, and the pages already moved stay where they are. -/
  | tierDrainCancel (r : BciReq)
  /-- EXPERT_SET (R433): Registers or replaces an expert descriptor. -/
  | expertSet (r : BciReq)
  /-- EXPERT_CLEAR (R434): Removes an expert descriptor and ends the entries queued for it. -/
  | expertClear (r : BciReq)
  /-- LANE_ADD (R436): Creates a lane, allocates its slot counters and writes their keys. -/
  | laneAdd (r : BciReq)
  /-- LANE_REMOVE (R442): Removes a lane once its dispatched micro-batches have ended. -/
  | laneRemove (r : BciReq)
  /-- EXPERT_POLICY_SET (R449): Sets DL_MARGIN. -/
  | expertPolicySet (r : BciReq)
  /-- SSD_ENTER (R462): Enters single-stream decode mode for one context, waking every domain. -/
  | ssdEnter (r : BciReq)
  /-- SSD_EXIT (R463): Ends single-stream decode mode and restores the tier policies that it held. -/
  | ssdExit (r : BciReq)
  /-- MICRO_BATCH_DISPATCH (R450): A core is free and experts are ready, so a micro-batch is formed and its kernel queued. -/
  | microBatchDispatch (core : Nat)
  /-- TRAILER_WRITE (R456): Once every result row is counted, the trailer is written as a counted write naming DONE_CTR. -/
  | trailerWrite (id : Nat)
  /-- INDEX_CREATE (R465): Reads and checks an index descriptor and registers its shards. -/
  | indexCreate (r : BciReq)
  /-- INDEX_DESTROY (R505): Removes an index, ending its pending updates and queued queries. -/
  | indexDestroy (r : BciReq)
  /-- TRV_QUERY (R479): A query descriptor is read, checked and queued. -/
  | trvQuery (r : BciReq)
  /-- QUERY_START (R492): A query starts at the index home, takes the applied epoch and routes its beam. -/
  | queryStart (id : Nat)
  /-- SHARD_WALK (R481): A shard home walks its graph greedily and scans the side list for one query. -/
  | shardWalk (id shard : Nat)
  /-- SHARD_WALK_END (R486): A shard's returns reach the index home; after the last shard the returns are merged and filtered. -/
  | shardWalkEnd (id shard : Nat) (st : Status) (ret : WalkReturns)
  /-- PAYLOAD_FETCH_END (R490): Every payload copy requested for FETCH is filled, and the result block is written. -/
  | payloadFetchEnd (id : Nat)
  /-- TRV_INSERT (R491): Takes an index epoch for an insert and routes it to a shard. -/
  | trvInsert (r : BciReq)
  /-- TRV_DELETE (R491): Takes an index epoch for a delete of an item in a shard. -/
  | trvDelete (r : BciReq)
  /-- SIDE_LIST_APPEND (R492): An update's record is appended to its shard's side list, advancing the applied epoch and completing the updates it covers. -/
  | sideListAppend (id : Nat)
  /-- TRV_MERGE (R496): Starts folding a shard's side list into its graph as a long operation. -/
  | trvMerge (r : BciReq)
  /-- TRV_MERGE_CANCEL (R502): Stops a MERGE at a record boundary. -/
  | trvMergeCancel (r : BciReq)
  /-- MERGE_RECORD (R497): MERGE folds one side-list record, linking an insert or marking a delete. -/
  | mergeRecord (index shard : Nat)
  /-- EMB_TABLE_CREATE (R506): Registers an embedding table from its descriptor. -/
  | embTableCreate (r : BciReq)
  /-- EMB_TABLE_DESTROY (R536): Removes an embedding table, ending its queued batches. -/
  | embTableDestroy (r : BciReq)
  /-- MOR_BATCH (R515): A gather or scatter batch descriptor is read, checked and queued. -/
  | morBatch (r : BciReq)
  /-- BATCH_START (R517): A free Moraine unit starts a queued batch, checking TGEN. -/
  | batchStart (mu id : Nat)
  /-- BATCH_END (R522): A batch's last row write is counted, and its completion block is issued. -/
  | batchEnd (mu : Nat)
  /-- EMB_SWAP (R537): Checks a new table descriptor and pauses the table for a swap. -/
  | embSwap (r : BciReq)
  /-- ROPE_SET (R276): Sets the rope-team member list, team ID and home timeout. -/
  | ropeSet (r : BciReq)
  /-- ROPE_AGENT_ADD (R879): Adds an agent to the team's agent table. -/
  | ropeAgentAdd (r : BciReq)
  /-- ROPE_AGENT_REMOVE (R275): Removes an agent that holds no line. -/
  | ropeAgentRemove (r : BciReq)
  /-- FENCE (R735): Fences an endpoint incarnation at this home. -/
  | fence (r : BciReq)
  /-- HELLO (R563): Opens a BCI session on a channel and negotiates its version. -/
  | hello (r : BciReq)
  /-- OP_STATUS (R583): Returns the state and progress of a long operation. -/
  | opStatus (r : BciReq)
  /-- CONFIG_SET (R572): Sets FAULT_HOLD, SUSPEND_AFTER or TXN_TIMEOUT. -/
  | configSet (r : BciReq)
  /-- CONFIG_GET (R572): Returns a configuration parameter. -/
  | configGet (r : BciReq)
  /-- NOTICE_RING_SET (R579): Sets the issuer's notice ring. -/
  | noticeRingSet (r : BciReq)
  /-- FW_STAGE (R585): Reads and verifies a firmware image into the slot that is not running. -/
  | fwStage (r : BciReq)
  /-- FW_ACTIVATE (R586): Activates a VERIFIED slot through the standby and a switchover. -/
  | fwActivate (r : BciReq)
  /-- FW_INFO (R568): Returns the versions and states of the firmware slots. -/
  | fwInfo (r : BciReq)
  /-- GO (R596): A write of 1 to GO captures the message registers as the command's arrival and wakes basecamp. -/
  | go (port fn : Nat)
  /-- MBX_MSG_WRITE (R597): A write to a message register is taken while GO is 0, and discarded with MSG_LOST while GO is 1. -/
  | mbxMsgWrite (port fn : Nat) (n : Nat) (w : Word)
  /-- WAKE (R603): A doorbell word of KIND WAKE is captured and taken, with no effect beyond waking basecamp. -/
  | wake (port fn : Nat) (w : Word)
  /-- CQ_TAIL (R610): A doorbell word of KIND CQ_TAIL is captured and checked, advancing TAIL, or is rejected. -/
  | cqTail (port fn : Nat) (w : Word)
  /-- CQ_ENTRY_TAKE (R611): Firmware reads a compute-queue entry and its descriptor, queues it or rejects it, and advances HEAD. -/
  | cqEntryTake (port : Nat)
  /-- CQ_ENABLE (R608): A write of EN = 1 to CQ_CTRL is buffered with PENDING set. -/
  | cqEnable (port : Nat)
  /-- CQ_DISABLE (R612): A write of EN = 0 to CQ_CTRL is buffered with PENDING set. -/
  | cqDisable (port : Nat)
  /-- ERRLOG_READ (R723): Copies error records from the store. -/
  | errlogRead (r : BciReq)
  /-- HEALTH_READ (R767): Copies a unit's health record. -/
  | healthRead (r : BciReq)
  /-- REL_SET (R759): Sets a reliability parameter. -/
  | relSet (r : BciReq)
  /-- REL_GET (R759): Returns a reliability parameter. -/
  | relGet (r : BciReq)
  /-- QUARANTINE (R764): Quarantines a unit by command. -/
  | quarantine (r : BciReq)
  /-- QUARANTINE_RELEASE (R766): Runs a KAT and, if it passes, releases a quarantined unit. -/
  | quarantineRelease (r : BciReq)
  /-- SPARE_SET (R758): Makes a DIMM or drive a spare, or clears it. -/
  | spareSet (r : BciReq)
  /-- REBUILD_START (R729): Starts a rebuild that was waiting for a spare. -/
  | rebuildStart (r : BciReq)
  /-- TAKEOVER (R748): Accepts a takeover of a fenced home's mirrored regions. -/
  | takeover (r : BciReq)
  /-- JOURNAL_CLAIM (R756): Claims an ownership object. -/
  | journalClaim (r : BciReq)
  /-- JOURNAL_OFFER (R756): Offers an owned object to a target. -/
  | journalOffer (r : BciReq)
  /-- JOURNAL_ACCEPT (R756): Accepts an offer, taking ownership. -/
  | journalAccept (r : BciReq)
  /-- JOURNAL_RELEASE (R756): Releases an owned object. -/
  | journalRelease (r : BciReq)
  /-- JOURNAL_QUERY (R757): Returns the committed state of an ownership object. -/
  | journalQuery (r : BciReq)
  /-- JOURNAL_ASSIGN (R756): Assigns an orphaned object to an incarnation. -/
  | journalAssign (r : BciReq)
  /-- CNT_READ (R827): Copies live or snapshot counters. -/
  | cntRead (r : BciReq)
  /-- CNT_MODE (R794): Sets an event counter to LEVEL or EDGE. -/
  | cntMode (r : BciReq)
  /-- CNT_RESET (R828): Zeroes a range of counters. -/
  | cntReset (r : BciReq)
  /-- CNT_SNAPSHOT (R803): Copies every counter into the snapshot bank at one AON edge. -/
  | cntSnapshot (r : BciReq)
  /-- CNT_FREEZE (R804): Stops every counter and bandwidth window at one AON edge. -/
  | cntFreeze (r : BciReq)
  /-- CNT_UNFREEZE (R804): Restarts every counter and bandwidth window at one AON edge. -/
  | cntUnfreeze (r : BciReq)
  /-- CNT_CTX_SET (R797): Points a context counter at a context-attributable event. -/
  | cntCtxSet (r : BciReq)
  /-- BW_READ (R807): Copies the ports' bandwidth window records. -/
  | bwRead (r : BciReq)
  /-- CRN_READ (R827): Copies a unit's cairn ring. -/
  | crnRead (r : BciReq)
  /-- TRC_SET (R825): Sets the trace destinations, types and units. -/
  | trcSet (r : BciReq)
  /-- PARTNER_READ (R684): Copies partner records from the history. -/
  | partnerRead (r : BciReq)
  /-- KERNEL_DISPATCH (R372): A queued kernel is dispatched to a free core, which keeps or zeroes its tile store. -/
  | kernelDispatch (core : Nat)
  /-- BUNDLE_DISPATCH (R352): The front end decodes and dispatches one bundle's slots to the engine queues. -/
  | bundleDispatch (core : Nat)
  /-- KERNEL_DRAIN_END (R375): Every access of an ending kernel is performed, and its completion record is written. -/
  | kernelDrainEnd (core : Nat)
  /-- DMA_TRANSFER_END (R408): A DMA transfer's last transaction completes. -/
  | dmaTransferEnd (core id : Nat)
  /-- BELAY_REL_STORE (R328): Once the engine's earlier accesses are performed at scope, the release stores its value. -/
  | belayRelStore (core id : Nat)
  /-- BELAY_ACQ_SATISFIED (R329): An acquire's condition holds and the home answers; later accesses of the engine proceed. -/
  | belayAcqSatisfied (core id : Nat)
  /-- WAITCNT_WAKE (R422): The counter condition holds; WAITCNT completes and acts as a team-scope acquire. -/
  | waitcntWake (core : Nat)
  /-- NOP (R348): No operation. -/
  | nop (h : SlotHdr)
  /-- ADD (R393): Scalar add. -/
  | add (h : SlotHdr) (f : SFmt)
  /-- SUB (R393): Scalar subtract. -/
  | sub (h : SlotHdr) (f : SFmt)
  /-- ADDI (R393): Scalar add of an immediate. -/
  | addi (h : SlotHdr) (f : SFmt)
  /-- LI (R393): Loads an immediate. -/
  | li (h : SlotHdr) (f : SFmt)
  /-- MUL (R393): Low 64 bits of a product. -/
  | mul (h : SlotHdr) (f : SFmt)
  /-- MULH (R393): High 64 bits of a signed product. -/
  | mulh (h : SlotHdr) (f : SFmt)
  /-- MULHU (R393): High 64 bits of an unsigned product. -/
  | mulhu (h : SlotHdr) (f : SFmt)
  /-- DIV (R393): Signed divide. -/
  | div (h : SlotHdr) (f : SFmt)
  /-- DIVU (R393): Unsigned divide. -/
  | divu (h : SlotHdr) (f : SFmt)
  /-- REM (R393): Signed remainder. -/
  | rem (h : SlotHdr) (f : SFmt)
  /-- AND (R393): Scalar bitwise AND. -/
  | and (h : SlotHdr) (f : SFmt)
  /-- OR (R393): Scalar bitwise OR. -/
  | or (h : SlotHdr) (f : SFmt)
  /-- XOR (R393): Scalar bitwise XOR. -/
  | xor (h : SlotHdr) (f : SFmt)
  /-- SHL (R393): Shift left. -/
  | shl (h : SlotHdr) (f : SFmt)
  /-- SHR (R393): Logical shift right. -/
  | shr (h : SlotHdr) (f : SFmt)
  /-- SRA (R393): Arithmetic shift right. -/
  | sra (h : SlotHdr) (f : SFmt)
  /-- SLT (R393): Signed set-less-than. -/
  | slt (h : SlotHdr) (f : SFmt)
  /-- SLTU (R393): Unsigned set-less-than. -/
  | sltu (h : SlotHdr) (f : SFmt)
  /-- PCMP (R393): Sets a predicate from a scalar compare. -/
  | pcmp (h : SlotHdr) (f : SFmt)
  /-- PSET (R393): Sets a predicate prefix. -/
  | pset (h : SlotHdr) (f : SFmt)
  /-- FADD (R393): Scalar FP32 add. -/
  | fadd (h : SlotHdr) (f : SFmt)
  /-- FMUL (R393): Scalar FP32 multiply. -/
  | fmul (h : SlotHdr) (f : SFmt)
  /-- FFMA (R393): Scalar FP32 fused multiply-add. -/
  | ffma (h : SlotHdr) (f : SFmt)
  /-- FCVT (R366): Scalar type conversion. -/
  | fcvt (h : SlotHdr) (f : SFmt)
  /-- LD (R389): Scalar load from memory or the tile store. -/
  | ld (h : SlotHdr) (f : SFmt)
  /-- ST (R389): Scalar store to memory or the tile store. -/
  | st (h : SlotHdr) (f : SFmt)
  /-- AMO (R394): Atomic at a memory address, issued by a kernel. -/
  | amo (h : SlotHdr) (f : SFmt)
  /-- SMOVS (R391): Reads a status register. -/
  | smovs (h : SlotHdr) (f : SFmt)
  /-- SMOVT (R392): Writes a writable status register. -/
  | smovt (h : SlotHdr) (f : SFmt)
  /-- MSET (R395): Writes a tile descriptor. -/
  | mset (h : SlotHdr) (f : SFmt)
  /-- MGET (R393): Reads half of a tile descriptor. -/
  | mget (h : SlotHdr) (f : SFmt)
  /-- PCVT_H2D (R396): Converts a host-view address to a memory pair. -/
  | pcvtH2d (h : SlotHdr) (f : SFmt)
  /-- PCVT_D2H (R396): Converts a memory address to host view. -/
  | pcvtD2h (h : SlotHdr) (f : SFmt)
  /-- VADD (R400): Vector add. -/
  | vadd (h : SlotHdr) (f : VFmt)
  /-- VSUB (R400): Vector subtract. -/
  | vsub (h : SlotHdr) (f : VFmt)
  /-- VMUL (R400): Vector multiply. -/
  | vmul (h : SlotHdr) (f : VFmt)
  /-- VFMA (R400): Vector fused multiply-add. -/
  | vfma (h : SlotHdr) (f : VFmt)
  /-- VMIN (R400): Vector minimum. -/
  | vmin (h : SlotHdr) (f : VFmt)
  /-- VMAX (R400): Vector maximum. -/
  | vmax (h : SlotHdr) (f : VFmt)
  /-- VABS (R400): Vector absolute value. -/
  | vabs (h : SlotHdr) (f : VFmt)
  /-- VNEG (R400): Vector negate. -/
  | vneg (h : SlotHdr) (f : VFmt)
  /-- VAND (R400): Vector bitwise AND. -/
  | vand (h : SlotHdr) (f : VFmt)
  /-- VOR (R400): Vector bitwise OR. -/
  | vor (h : SlotHdr) (f : VFmt)
  /-- VXOR (R400): Vector bitwise XOR. -/
  | vxor (h : SlotHdr) (f : VFmt)
  /-- VSHL (R400): Vector shift left. -/
  | vshl (h : SlotHdr) (f : VFmt)
  /-- VSHR (R400): Vector shift right. -/
  | vshr (h : SlotHdr) (f : VFmt)
  /-- VCMP (R400): Vector compare into a predicate. -/
  | vcmp (h : SlotHdr) (f : VFmt)
  /-- VSEL (R400): Vector select by predicate. -/
  | vsel (h : SlotHdr) (f : VFmt)
  /-- VBCAST (R400): Broadcasts a scalar to every element. -/
  | vbcast (h : SlotHdr) (f : VFmt)
  /-- VCVT (R402): Vector type conversion, including MX formats. -/
  | vcvt (h : SlotHdr) (f : VFmt)
  /-- VEXP2 (R401): Vector base-2 exponential. -/
  | vexp2 (h : SlotHdr) (f : VFmt)
  /-- VRCP (R401): Vector reciprocal. -/
  | vrcp (h : SlotHdr) (f : VFmt)
  /-- VRSQRT (R401): Vector reciprocal square root. -/
  | vrsqrt (h : SlotHdr) (f : VFmt)
  /-- VRED (R404): Vector tree reduction. -/
  | vred (h : SlotHdr) (f : VFmt)
  /-- VLD (R405): Vector load of 4 KiB. -/
  | vld (h : SlotHdr) (f : LFmt)
  /-- VST (R405): Vector store of 4 KiB. -/
  | vst (h : SlotHdr) (f : LFmt)
  /-- DMA_COPY (R408): Starts a DMA transfer. -/
  | dmaCopy (h : SlotHdr) (f : LFmt)
  /-- DMA_RW (R405): Starts a counted remote write. -/
  | dmaRw (h : SlotHdr) (f : LFmt)
  /-- MMA (R410): Matrix multiply-accumulate, with spare-column sampling. -/
  | mma (h : SlotHdr) (f : MFmt)
  /-- MMV (R413): Matrix-vector multiply for M from 1 to 8. -/
  | mmv (h : SlotHdr) (f : MFmt)
  /-- MLOAD (R416): Loads a tile from memory, directly or through the coded-input path. -/
  | mload (h : SlotHdr) (f : MFmt)
  /-- MDRAIN (R410): Drains an accumulator into the tile store. -/
  | mdrain (h : SlotHdr) (f : MFmt)
  /-- MCLR (R410): Clears an accumulator. -/
  | mclr (h : SlotHdr) (f : MFmt)
  /-- BR (R419): Relative branch. -/
  | br (h : SlotHdr) (f : CFmt)
  /-- BRX (R420): Indirect branch. -/
  | brx (h : SlotHdr) (f : CFmt)
  /-- WAITCNT (R421): Starts a kernel wait on a counter. -/
  | waitcnt (h : SlotHdr) (f : CFmt)
  /-- HALT (R419): Ends dispatch; the kernel enters DRAINING. -/
  | halt (h : SlotHdr) (f : CFmt)
  /-- BELAY_REL (R425): Issues a scoped release. -/
  | belayRel (h : SlotHdr) (f : SFmt)
  /-- BELAY_ACQ (R426): Issues a scoped acquire on a belay word. -/
  | belayAcq (h : SlotHdr) (f : SFmt)
  /-- BELAY_ACCESS (R426): A belay store, or an acquire request, from another controller's engine arrives at the word's home; the store is performed in the R243 order, and the acquire is held or answered at once under R427. -/
  | belayAccess (q : LmfReq) (store : Bool) (value : DWord)
  /-- FW_STAGE_END (R585): Staging of a firmware image ends: the image verifies and its slot becomes VERIFIED, or the slot stays EMPTY with ST_CORRUPT. -/
  | fwStageEnd (id : Nat)
  /-- SHARD_REGISTER (R470): A shard home takes the registration of a shard of an index created at another controller, within its limit of 4,096 shards. -/
  | shardRegister (q : LmfReq) (index shard : Nat) (words : List Word)
  /-- MIRROR_PARTNER_READ (R179): The mirror partner receives a home's request for its copy of a version and returns the page decoded for recovery. -/
  | mirrorPartnerRead (q : LmfReq) (version : Nat)
  /-- FAULT_RECORD_WRITE (R88): A fault record that waited for ring space, or for a ring to be set, is written and the FAULT vector is sent. -/
  | faultRecordWrite (seq : Nat)
  /-- FAULT_HOLD_EXPIRY (R95): An access held on a fault or on recovery for the fault hold time completes with ST_PAUSED and has no effect. -/
  | faultHoldExpiry (id : Nat)
  /-- LMF_COMPLETION (R673): A completion arrives for a transaction of the controller; one that carries an old GEN is discarded and counted. -/
  | lmfCompletion (tag gen : Nat) (st : Status) (data : Bytes) (sealOk : Bool)
  /-- NACK (R299): A NACK of a non-caching request of a member starts a backoff before the request is resent. -/
  | nack (id : Nat) (draw : Nat)
  /-- BACKOFF_EXPIRY (R299): At the end of the backoff drawn after a NACK, the member resends the request with its RETRY count. -/
  | backoffExpiry (id : Nat)
  /-- TRANSACTION_TIMEOUT (R673): LIMIT passes without a completion; the transaction ends, GEN advances, and the transaction is reissued or reported ST_OUTCOME_UNKNOWN. -/
  | transactionTimeout (tag : Nat)
  /-- HOME_TIMEOUT (R307): A line's home timer expires in a transient state; the line is poisoned and records are written. -/
  | homeTimeout (idx line : Nat)
  /-- RESERVATION_EXPIRY (R303): The head of a reservation queue is removed 60 µs after the line became stable without its request. -/
  | reservationExpiry (idx line : Nat)
  /-- FENCE_SWEEP (R313): The home sweeps its directory one set per engine cycle, applying a fence to the lines the sweep reaches. -/
  | fenceSweep
  /-- MIRROR_RECEIPT (R737): The home receives the partner's receipt and completes the mirrored write, update or publish. -/
  | mirrorReceipt (id : Nat) (st : Status)
  /-- REGION_DRAIN_END (R67): The last reference to a DRAINING region is released, and the region becomes FREE. -/
  | regionDrainEnd (idx : Nat)
  /-- CTX_RESET_END (R574): The last in-flight operation of a resetting or destroying context ends, and the context becomes ACTIVE or FREE. -/
  | ctxResetEnd (ctx : Nat)
  /-- PAGE_MOVE_SWITCH (R138): A page move's copy completes, and the page's location record changes at one instant. -/
  | pageMoveSwitch (p : PageRef)
  /-- SOURCE_RETIRE (R138): The last read of a moved page's source ends, and the source is freed. -/
  | sourceRetire (p : PageRef)
  /-- T1_LOW_SPACE_MOVE (R128): T1 free space falls below 2%, and Strata starts moving the oldest backing copies to T2. -/
  | t1LowSpaceMove
  /-- HEAT_SWEEP (R119): Strata's periodic visit zeroes heat counters whose stamp is 8 or more periods old. -/
  | heatSweep
  /-- STRIPE_RECLAIM (R106): In the background, the controller reclaims the T2 space of superseded pages. -/
  | stripeReclaim (p : PageRef)
  /-- LEND_OFFER (R133): A lender offers an HBM extent; once accepted by policy, the extent becomes ACTIVE. -/
  | lendOffer (eid inc ext sizeGiB lkey : Nat)
  /-- LEND_RECALL (R133): A lender recalls an extent, which enters RECALLING. -/
  | lendRecall (eid inc ext graceUs : Nat)
  /-- LEND_GRACE_EXPIRY (R133): The last copy is invalidated or the grace time ends; the extent becomes GONE. -/
  | lendGraceExpiry (ext : Nat)
  /-- PAGE_GROUP_ENCODE (R155): A page group whose 50 µs window closes is histogrammed, a table is chosen, and its images are coded. -/
  | pageGroupEncode (pages : List PageRef)
  /-- SLOT_DECODE (R174): A decoder ends the checks and decode of one slot, delivering the sub-stream or ST_CORRUPT; `media` is what the medium gives, the
  header and the slot, behind the seal block for a TL copy (none: what was written). -/
  | slotDecode (p : PageRef) (slot : Nat) (media : Option Bytes)
  /-- PAGE_RECOVERY (R179): Recovery of a page that is poisoned pending recovery ends, and the accesses waiting on it are served or poisoned;
  `data` is the partner's copy, or the image that parity gives. -/
  | pageRecovery (p : PageRef) (src : RecoverySource) (data : Bytes)
  /-- SCRUB (R720): A periodic scrub read checks, and where needed rewrites, a location of T0, T1 or T2. -/
  | scrub (p : PageRef) (line : Nat) (found : ScrubFound)
  /-- MAX_WAIT_EXPIRY (R448): An expert's oldest entry reaches MAX_WAIT, or its earliest deadline nears, and the expert becomes ready. -/
  | maxWaitExpiry (expert : Nat)
  /-- MICRO_BATCH_END (R455): A micro-batch's kernel ends, and its entries take their statuses and result rows. -/
  | microBatchEnd (id : Nat) (st : Status)
  /-- RECORD_RETIRE (R500): A linked record retires once every query that started before its linking has ended. -/
  | recordRetire (index shard n : Nat)
  /-- SLOT_RECLAIM (R501): MERGE reclaims a deleted node's slot once no query that could see it is in flight. -/
  | slotReclaim (index shard n : Nat)
  /-- WATCHDOG_EXPIRY (R547): The active basecamp set misses its watchdog for 10 ms, which starts a switchover. -/
  | watchdogExpiry
  /-- SWITCHOVER_END (R548): The standby becomes the active instance and finishes the commands that were in progress. -/
  | switchoverEnd
  /-- STANDBY_SYNC (R551): The restarted former active set synchronises its state and becomes the warm standby. -/
  | standbySync
  /-- DEADLINE_EXPIRY (R578): A deadline passes; a notice record is written and, with DL_ABORT, the work ends with ST_DEADLINE. -/
  | deadlineExpiry (id : Nat)
  /-- CQ_EN_APPLY (R608): At the boundary, EN is applied; enabling latches the ring registers and zeroes HEAD and TAIL. -/
  | cqEnApply (port : Nat)
  /-- REGISTER_WRITE (R5): A write to a register field that has no row of its own acts under its access type. -/
  | registerWrite (sp : RegSpace) (off : Nat) (w : Word)
  /-- READ_CLEAR (R6): A read of an RC field returns its value and clears it, keeping an event set in the same cycle. -/
  | readClear (sp : RegSpace) (off : Nat) (newEvent : Word)
  /-- CRN_SEL_WRITE (R814): A write to CRN_SEL captures the selected cairn entry and WRITES at one AON edge. -/
  | crnSelWrite (w : Word)
  /-- QUARANTINE_EFFECT (R764): A quarantine takes effect when its unit is next idle, and a QUARANTINE record is written. -/
  | quarantineEffect (hw : Nat)
  /-- PART_FAILED (R724): A pseudo-channel, DIMM or drive is declared failed, and its rebuild starts. -/
  | partFailed (part : Part) (loc : Nat)
  /-- REBUILD_END (R729): A rebuild ends, or ends with ST_CORRUPT when the spare fails. -/
  | rebuildEnd (id : Nat) (spareFailed : Bool)
  /-- TAKEOVER_WAIT_END (R748): The lease wait ends, and the takeover runs its adopt, replay, recall and unmirror steps. -/
  | takeoverWaitEnd (id : Nat)
  /-- KAT (R762): An idle unit whose KAT_PERIOD has passed runs its known-answer test. -/
  | kat (hw : Nat) (res : KatResult)
  /-- HEALTH_UPDATE (R767): Each 10 s of ON time, the unit health records are updated. -/
  | healthUpdate (hw tempC volt : Nat)
  /-- HEARTBEAT_SEND (R732): Every HB_PERIOD the controller sends HEARTBEAT to its partners, team and fabric manager. -/
  | heartbeatSend
  /-- HEARTBEAT (R739): A HEARTBEAT arrives, extending a lease and clearing SUSPECT. -/
  | heartbeat (eid inc ftime : Nat)
  /-- SUSPECT (R733): No HEARTBEAT has arrived for HB_MISS periods; the endpoint is marked SUSPECT. -/
  | suspect (eid : Nat)
  /-- LEASE_EXPIRY (R740): A home's lease ends, and it holds every access to the regions mirrored to that partner. -/
  | leaseExpiry (eid : Nat)
  /-- DIE_LOSS (R23): Loss of a die or of the die-to-die link sends the package to fail-stop. -/
  | dieLoss
  /-- BW_WINDOW_END (R807): A bandwidth window closes, its record is kept, and a pending BW_WIN is applied. -/
  | bwWindowEnd (bport rx tx : Nat) (partialDown : Bool)
  /-- POWER_WINDOW (R701): At each 1 ms window, the mean power is checked and one capping step is applied or reversed. -/
  | powerWindow (meanW : Nat) (tjE tjW : Int)
  /-- GATE_TIMEOUT (R690): A domain idle for GATE_AFTER enters GATED. -/
  | gateTimeout (d : Domain)
  /-- OFF_TIMEOUT (R690): An engine domain idle for OFF_AFTER, with OFF_EN set, enters OFF. -/
  | offTimeout (d : Domain)
  /-- DOMAIN_WAKE (R692): A wake event starts the wake of a GATED or OFF domain, or abandons an entry under way. -/
  | domainWake (d : Domain)
  /-- DOMAIN_ON (R693): A waking domain accepts work again and each of its units records a CLOCK_GAP. -/
  | domainOn (d : Domain)
  /-- STRETCH_EPISODE_END (R717): A clock-stretch episode ends, and it is recorded as a gap or only counted. -/
  | stretchEpisodeEnd (hw start stop : Nat)
  /-- BIVOUAC_ENTRY (R696): After BIVOUAC_AFTER of quiet, the package enters bivouac. -/
  | bivouacEntry
  /-- BIVOUAC_EXIT (R698): A wake event for MEM, FAB or BC ends bivouac. -/
  | bivouacExit
  /-- TIME_SYNC_SEND (R712): Each 1 ms, each port that is up sends a TIME_SYNC request. -/
  | timeSyncSend (lport : Nat)
  /-- TIME_SYNC (R711): A partner's TIME_SYNC request arrives and is answered. -/
  | timeSync (lport seq t1 arrival : Nat)
  /-- TIME_SYNC_RESPONSE (R713): A TIME_SYNC response arrives; offset and delay are computed and the rate adjusted. -/
  | timeSyncResponse (lport steps seq t1 t2 t3 t4 err root : Nat)
  /-- HOLDOVER_ENTRY (R706): After 10 ms without a valid exchange, the time unit enters HOLDOVER. -/
  | holdoverEntry
  /-- PTP_FALLBACK (R715): After 10 ms without an in-band exchange, the time source changes to PTP. -/
  | ptpFallback
  /-- ANNOUNCE (R714): A PTP Announce message is handled by the slave clock. -/
  | announce (mport domain : Nat) (steps : Nat)
  /-- SYNC (R714): A PTP Sync message is timestamped and handled. -/
  | sync (mport domain seq origin arrival : Nat) (twoStep : Bool)
  /-- FOLLOW_UP (R714): A PTP Follow_Up message is handled. -/
  | followUp (mport domain seq origin : Nat)
  /-- DELAY_RESP (R714): A PTP Delay_Resp message completes a delay measurement. -/
  | delayResp (mport domain seq received : Nat)
  /-- FINISH_RSP (R780): The secured session with the fabric manager comes up, and the controller asks to join. -/
  | finishRsp (peer : Peer)
  /-- GET_VERSION (R775): SPDM GET_VERSION is answered. -/
  | getVersion (peer : Peer)
  /-- GET_CAPABILITIES (R775): SPDM GET_CAPABILITIES is answered. -/
  | getCapabilities (peer : Peer)
  /-- NEGOTIATE_ALGORITHMS (R776): SPDM algorithms are negotiated. -/
  | negotiateAlgorithms (peer : Peer) (offer : SpdmAlgorithms)
  /-- GET_DIGESTS (R777): Returns the certificate chain digests. -/
  | getDigests (peer : Peer)
  /-- GET_CERTIFICATE (R777): Returns a certificate chain. -/
  | getCertificate (peer : Peer) (slot : Nat)
  /-- CHALLENGE (R777): Answers with CHALLENGE_AUTH signed by the alias key. -/
  | challenge (peer : Peer) (slot : Nat)
  /-- GET_MEASUREMENTS (R778): Returns the signed measurement blocks. -/
  | getMeasurements (peer : Peer) (index nonce : Nat)
  /-- KEY_EXCHANGE (R777): Answers an ECDHE key exchange with KEY_EXCHANGE_RSP. -/
  | keyExchange (peer : Peer) (share : Nat)
  /-- FINISH (R779): Completes a secured session, requiring mutual authentication to the trust anchor where R779 says so. -/
  | finish (peer : Peer) (mutualAuth anchorOk : Bool)
  /-- SESSION_END (R787): A secured session ends; fabric-manager messages are discarded until a new session is up. -/
  | sessionEnd (peer : Peer)
  /-- LINK_ADV (R649): LINK_ADV is exchanged, the version chosen, credits set and the link brought up. -/
  | linkAdv (lport eid inc verMask width role : Nat)
  /-- LINK_STEP_TIMEOUT (R649): A bring-up step misses its limit, and the attempt fails with LINK_FAIL. -/
  | linkStepTimeout (lport : Nat)
  /-- LINK_RETRY_TIMER (R650): 1 s after a failed attempt, the port starts a new bring-up attempt. -/
  | linkRetryTimer (lport : Nat)
  /-- FLIT_REPLAY (R671): A CRC failure or a missing sequence number is reported, and the port resends flits from its replay buffer. -/
  | flitReplay (lport seq : Nat)
  /-- FLIT_ACK_TIMEOUT (R672): A flit unacknowledged for TXN_TIMEOUT ÷ 16 takes the link down and discards the replay buffer. -/
  | flitAckTimeout (lport : Nat)
  /-- LINK_DOWN (R680): An LMF link goes down; a partner record is written, no incarnation changes, and bring-up restarts. -/
  | linkDown (lport : Nat)
  /-- JOIN (R679): A JOIN updates the incarnation table, ends any older incarnation as a fence, and releases held requests. -/
  | join (fm eid inc ver role lport : Nat) (sealed : Bool)
  /-- LEAVE (R679): A LEAVE ends an incarnation as a fence would. -/
  | leave (fm eid inc : Nat) (sealed : Bool)
  /-- OWNER_SET (R634): The fabric manager moves the owning-host role to a port's PF. -/
  | ownerSet (fm port : Nat) (sealed : Bool)
  /-- MGMT_FRAME (R687): A management Ethernet frame is served, or discarded and counted. -/
  | mgmtFrame (mport : Nat) (svc : MgmtService)
  /-- HOST_LINK_UP (R644): A host link comes up, and its host receives a new incarnation. -/
  | hostLinkUp (port : Nat) (pcie : Bool)
  /-- HOST_LINK_LOSS (R643): Loss of a host link acts as a conventional reset of the port. -/
  | hostLinkLoss (port : Nat)
  /-- FLR (R639): A Function Level Reset resets a function's window and its bound context. -/
  | flr (port fn : Nat)
  /-- VF_ENABLE (R633): Setting VF Enable enables VFs and gives them channels. -/
  | vfEnable (port count : Nat)
  /-- VF_DISABLE (R638): Clearing VF Enable resets every VF of the port. -/
  | vfDisable (port : Nat)
  /-- HDM_COMMIT (R626): An HDM decoder commit binds a host window or is refused. -/
  | hdmCommit (port dec hpaBase size ways : Nat)
  /-- HDM_UNCOMMIT (R627): Uncommitting a decoder unbinds its window. -/
  | hdmUncommit (port dec : Nat)
  /-- HPT_PERST (R848): Assertion of HPT_PERST_N is a conventional reset of the host port. -/
  | hptPerst (port : Nat)
  /-- DRIVE_PRESENCE_CHANGE (R848): A DRV_PRSNT_N change stable for 100 ms is taken as an insertion or a removal. -/
  | drivePresenceChange (slot : Nat) (present : Bool)
  /-- DRIVE_ADMISSION (R103): An inserted drive is identified and admitted to T2, or refused. -/
  | driveAdmission (slot capacity : Nat) (formatOk : Bool)
  /-- ASYNC_EVENT (R724): A drive's Asynchronous Event is taken, possibly declaring the drive failed. -/
  | asyncEvent (slot : Nat) (failure : Bool)
  /-- DIMM_TEMP (R101): A DIMM's reported temperature crosses 85 °C, and its refresh rate doubles or returns to normal. -/
  | dimmTemp (ch dimm : Nat) (hot : Bool)
  /-- PKG_RST_RELEASE (R843): Release of PKG_RST_N starts the AON ROM and the rail sequence. -/
  | pkgRstRelease (img : BootImages)
  /-- PKG_RST_ASSERT (R845): PKG_RST_N falls; ports and engines stop and rails are released in reverse order. -/
  | pkgRstAssert
  /-- RAIL_PG (R843): A rail's RAIL_PG asserts, and the next RAIL_EN is asserted or boot continues. -/
  | railPg (rail : Nat) (img : BootImages)
  /-- RAIL_PG_TIMEOUT (R844): A RAIL_PG misses its 20 ms limit; rails are released and RAIL_FAULT is raised. -/
  | railPgTimeout (rail die : Nat)
  /-- RAIL_FAULT (R840): A rail outside total tolerance for 250 samples, or one sample below 85%, causes fail-stop. -/
  | railFault (rail die : Nat) (below85 : Bool)
  /-- AON_SUPPLY_LOSS (R841): VDD_AON or VDD_IO below 85% resets the package at once. -/
  | aonSupplyLoss
  /-- REFCLK_LOSS (R850): REFCLK_E or REFCLK_W absent for 1 µs causes fail-stop. -/
  | refclkLoss (die : Nat)
  /-- HPT_REFCLK_LOSS (R850): Loss of a host reference clock takes down that port's link. -/
  | hptRefclkLoss (port : Nat)
  /-- THERMTRIP (R854): Tj reaches 115 °C; fail-stop and THERMTRIP_N are asserted. -/
  | thermtrip
  /-- TRST (R859): TRST_N places the TAP controller in Test-Logic-Reset. -/
  | trst
  /-- IDCODE (R856): TAP IDCODE returns 0x0A72_11CB. -/
  | idcode
  /-- SAMPLE_PRELOAD (R858): TAP SAMPLE/PRELOAD samples the boundary register without disturbing service. -/
  | samplePreload (cells : Nat)
  /-- EXTEST (R858): TAP EXTEST drives the boundary cells while PKG_RST_N is low. -/
  | extest (cells : Nat)
  /-- CLAMP (R858): TAP CLAMP, effective only while PKG_RST_N is low. -/
  | clamp
  /-- HIGHZ (R858): TAP HIGHZ, effective only while PKG_RST_N is low. -/
  | highz
  /-- EXTEST_PULSE (R858): TAP EXTEST_PULSE of IEEE 1149.6, effective only while PKG_RST_N is low. -/
  | extestPulse
  /-- EXTEST_TRAIN (R858): TAP EXTEST_TRAIN of IEEE 1149.6, effective only while PKG_RST_N is low. -/
  | extestTrain
  /-- BYPASS (R856): TAP BYPASS; every unlisted code acts as BYPASS. -/
  | bypass (code : Nat)
  /-- SETDASA (R860): An I3C virtual target takes a dynamic address from its static address. -/
  | setdasa (target addr : Nat)
  /-- ENTDAA (R860): An I3C virtual target takes a dynamic address by ENTDAA. -/
  | entdaa (target addr : Nat)
  /-- REG_READ (R861): An I3C read of a management register under its access type. -/
  | regRead (off : Nat)
  /-- REG_WRITE (R862): An I3C write of a management register, which prevails over a same-cycle session write. -/
  | regWrite (off : Nat) (w : Word)
  /-- STORE_WRITE (R863): Writes 256 bytes to a boot-store partition, or is refused. -/
  | storeWrite (addr : Nat) (data : Bytes)
  /-- STORE_READ (R861): Reads 256 bytes of the boot store. -/
  | storeRead (addr : Nat)
  /-- STORE_STATUS (R861): Returns the boot-store write status. -/
  | storeStatus
  /-- CLOCKS_STABLE (R374): A waking core's clocks are stable, and it enters PREPARING. -/
  | clocksStable (core : Nat)
  /-- PREPARE_DONE (R373): Registers are set and the tile store kept or zeroed; the kernel enters RUNNING. -/
  | prepareDone (core : Nat)
  /-- KERNEL_SUSPEND (R380): A kernel stalled for SUSPEND_AFTER, while another context waits for a core, starts saving. -/
  | kernelSuspend (core : Nat)
  /-- SAVE_DONE (R381): A kernel's state is saved; the kernel is SUSPENDED and the core IDLE. -/
  | saveDone (core : Nat)
  /-- RESTORE_DONE (R382): A resumed kernel's state is restored, and the faulting access is replayed. -/
  | restoreDone (core : Nat)
  /-- ACQUIRE_RETRY (R427): 1 µs after an overflow answer, the engine sends its acquire request again. -/
  | acquireRetry (core id : Nat)
  /-- BASECAMP_ECC_ERROR (R547): An uncorrectable ECC error in the active basecamp set's cores, caches or firmware state starts a switchover, or fail-stop when no standby is ready. -/
  | basecampEccError
  /-- DRIVE_LINK_LOSS (R724): The PCIe link to a T2 drive is lost, and the drive is declared failed. -/
  | driveLinkLoss (slot : Nat)
  /-- POWER_ON (R843): VDD_AON and VDD_IO ramp up with PKG_RST_N low; the AON domain starts, fabric time counts from 0 in UNSYNC, and counters, rings and the boot state start empty. -/
  | powerOn
  /-- STORE_WRITE_END (R861): A boot-store flash write finishes, and STORE_STATUS leaves busy for idle or failed. -/
  | storeWriteEnd (ok : Bool)
  /-- KEY_EXCHANGE_RSP (R779): As SPDM requester, the controller receives KEY_EXCHANGE_RSP, verifies it against the responder's chain and the trust anchor, and answers a mutual-authentication request. -/
  | keyExchangeRsp (peer : Peer) (chainOk sigOk mutualAuth : Bool)
  /-- DELAY_REQ (R714): The PTP slave sends a Delay_Req of the end-to-end delay mechanism and stamps its departure. -/
  | delayReq (mport domain seq departure : Nat)
  /-- TRANSPORT_KEY_RETIRE (R786): After a REVOKE's completion and TXN_TIMEOUT after the last key delivery, the home destroys the old transport key and opens payloads only under the new one. -/
  | transportKeyRetire (idx : Nat)
  /-- FLIT_CRC_FAILURE (R671): An arriving LMF flit fails its CRC or shows a missing sequence number, and the port reports it so the sender replays. -/
  | flitCrcFailure (lport seq : Nat)
  /-- MEMORY_DEVICE_MAILBOX (R621): A command on the CXL memory device mailbox is executed, or returns Unsupported. -/
  | memoryDeviceMailbox (port opcode : Nat) (payload : Bytes)
  /-- DOE_REQUEST (R623): A DOE Discovery or CDAT request is answered, CDAT reporting one DSMAS entry per committed HDM decoder. -/
  | doeRequest (port kind : Nat)
  deriving DecidableEq, Repr

end Sys2Proof
end

