-- ==== Sys2Proof/Config.lean ====
section
/-! DEFINITION. What an implementation fixes, and the values the spec leaves open: each is an opaque constant or function without a body, so nothing can be proved of a value of it. -/

namespace Sys2Proof.Config

/-- A fresh free value, numbered by the state's counter. -/
opaque freeNat : Nat → Nat
/-- A free bit. -/
opaque freeBit : Nat → Bool
/-- The fixed hash that assigns a line to a directory set (R280). -/
opaque dirSet : Nat → Nat
/-- The code lengths of the table built for a page group: for LANES 1, 2 or 4 and the histograms of the group, the lengths of each lane (R155). -/
opaque buildTable : Nat → List Nat → List (List Nat)
/-- AES-256-XTS of one data unit under a key number and a tweak (R167, R168): for each length, a permutation of the byte strings of that
length. -/
opaque xtsPerm : Nat → Nat → (n : Nat) → Equiv.Perm (List.Vector Byte n)
/-- AES-256-GCM's cipher under a key number and an IV (R172), likewise. -/
opaque gcmPerm : Nat → Nat → (n : Nat) → Equiv.Perm (List.Vector Byte n)
/-- The 16-byte tag of AES-256-GCM, as a number: for a key, an IV, the additional authenticated data and the sealed bytes (R172). -/
opaque gcmTag : Nat → Nat → Bytes → Bytes → BitVec 128
/-- The fixed test secret that the key engines of a DEBUG part use in place of the root secret (R768). -/
opaque testSecret : Nat
/-- The persistent key's number, derived from the secret at each boot (R781). -/
opaque persistKey : Nat → Nat
/-- The sealing under the persistent key of what is kept in controller-private T2 space (R164, R781). -/
opaque persistSeal : Nat → Bytes → Bytes
/-- A signature by a key over a message (R777). -/
opaque sign : Nat → List Nat → Nat
/-- A key wrapped under the session key of a peer (R782, R784): the session key and the key. -/
opaque wrapKey : Nat → Nat → Nat
/-- Which of the ports that reach a destination takes a transaction (R668): its TAG and the time. -/
opaque portPick : Nat → Nat → Nat
/-- Which of the units of a kind in service runs a piece of work (R869): a moment and the number of the work. -/
opaque workUnit : Nat → Nat → Nat
/-- A digest of a message (R776, R778). -/
opaque digest : List Nat → Nat
/-- A certificate chain as bytes (R777): for the secret its identity key is derived from, whether its device identity certificate is a test certificate
that names the part as DEBUG (R768), and 0 for the chain of slot 0, or one more than the alias key that slot 1 ends at. -/
opaque certChain : Nat → Bool → Nat → Bytes
/-- 2 to the power of an FP32 operand (R401), for finite operands. -/
opaque exp2 : BitVec 32 → BitVec 32
/-- Which of the two neighbouring FP32 values a result within one unit in the last place takes (R401). -/
opaque faithfulUp : Nat → BitVec 32 → Bool
/-- The element type that the encoding of VLD and VST gives, for which format L has no field (R385, R405). -/
opaque lType : BitVec 128 → Nat
/-- The HBM, DIMM and drive location of a page copy (R869). -/
opaque location : Nat → Nat
/-- Where the controller keeps a translation table, in 256 B units (R70): for a region's table key, a level and the first page it covers. -/
opaque tableAt : Nat → Nat → Nat → BitVec 40
/-- The hardware unit that takes a piece of work (R869). -/
opaque unitOf : Nat → Nat
/-- Which two elements REDUCE_ALL (R265), or the pooling of terms (13), combines next: at a moment, for a step and the first or second of the two. -/
opaque combinePick : Nat → Nat → Bool → Nat
/-- Whether a NaN result of two NaN operands has the first one's sign (R263; IEEE 754 states no sign). -/
opaque nanFirst : Nat → Nat → Bool
/-- The occurrences of a bag whose offsets do not rise from 0 to N (R515), at a moment. -/
opaque bagContents : Nat → Nat → List Nat
/-- An element of an INT4 row whose largest magnitude is not a finite number (R531 states none), at a moment. -/
opaque int4Element : Nat → Nat → Nat
/-- An expert's activation function on an FP32 value, by ACT code, where R429 names the function and no rule its rounding (R429, R435). -/
opaque expertAct : Nat → Nat → BitVec 32
/-- The tile store that a kernel of the built-in expert library leaves (R435). -/
opaque libraryTile : Nat → Bytes
/-- Do the hash of an image's signing key and the image's signature verify against the fuses (R771)? -/
opaque signatureOk : Bytes → Bool
/-- Does the image of a FW_VER support a BCI session version (R587): FW_VER, MAJOR, MINOR? -/
opaque imageSession : Nat → Nat → Nat → Bool
/-- The content of a CEL, an event record list or an Identify answer of the CXL memory device mailbox (R621, CXL 3.1). -/
opaque cxlMailbox : Nat → Bytes → Bytes
/-- The load signature (words 8 and 9 of an error record, R722) at a moment. -/
opaque loadSignature : Nat → Nat
/-- Boundary cells sampled by the test access port (R857). -/
opaque boundaryCells : Nat → Nat
/-- The boundary cells whose lands a rail supplies, as a mask (R857; the part's BSDL file gives their order). -/
opaque railCells : Nat → Nat
/-- Does a result that is tiny before rounding and not after it raise underflow (R365 leaves IEEE 754's choice open)? -/
opaque underflowBefore : Bool
/-- Does a fused multiply-add of zero, infinity and a quiet NaN raise invalid (IEEE 754's choice)? -/
opaque fmaInvalid : Bool
/-- An integer vector result outside its element type (R400 states none): for the opcode, the type and the operands. -/
opaque vectorInt : Nat → Nat → Int → Int → Int → Nat
/-- An unsigned condition of VCMP on floating-point elements (R400 gives no meaning): for the type, the condition and the operands. -/
opaque vcmpFloatUnsigned : Nat → Nat → Nat → Nat → Bool
/-- Element 0 of a VRED with some elements of its operand disabled (R353 and R404 do not say what they contribute): for the type, the
operation, the operand and the enabled bytes. -/
opaque vredMasked : Nat → Nat → BitVec 32768 → BitVec 4096 → Nat
/-- Which of the columns sampled by an MMA or MMV disagrees with the spare columns' recomputation, if one does (R760). -/
opaque arrayFault : Nat → Option Nat

end Sys2Proof.Config
end

