-- ==== Sys2Proof/Machine/State.lean ====
section
/-! DEFINITION. The state of the controller as plain data: every register, buffer, record, mode and pin the spec names, the messages sent, and the queue of waiting commands; and the machine after boot. -/

namespace Sys2Proof.Machine

/-- Why a step can stop: no command of the spec stops the block, so there is no fault (log 28). Safe. -/
inductive Fault
  deriving DecidableEq, Repr

/-- Why a command has no meaning. `notModelled` stands for a row the dispatch table rejects by name. Safe. -/
inductive Refusal where
  | notModelled (mnemonic : String)
  deriving DecidableEq, Repr

/-- The NVM commands the controller issues to a T2 drive, and no others (R104). -/
inductive NvmeOp where
  | read | write | flush | deallocate
  | identify | getLogPage | getFeatures | setFeatures | createSq | createCq | deleteSq | deleteCq | asyncEvent | formatNvm
  deriving DecidableEq, Repr

/-- What the package sends to the outside, as one message each. -/
inductive Out where
  /-- A completion in class RSP to a requester (R662): endpoint, TAG, GEN, status, data. -/
  | cpl (eid tag gen : Nat) (st : Status) (data : Bytes)
  /-- A coherence message of R284 to an endpoint: opcode, the request's TAG and GEN (0 for a snoop), key, offset, flag, data. -/
  | coh (eid op tag gen key off flag : Nat) (data : Bytes)
  /-- A REQ packet the controller sends (R661): the port it leaves on (R668), endpoint, SRC_INC (R681), operation code, TAG, GEN, LEVEL, RETRY,
  context, key, offset, LSEQ, CKEY, LIMIT, data. -/
  | req (port eid inc op tag gen level retry ctx key off lseq ckey limit : Nat) (data : Bytes)
  /-- A link-level message of an LMF port (R671): port, 0 a report of a missing flit or 1 a flit sent again, its sequence number. -/
  | flit (port kind seq : Nat)
  /-- An EVT message of R683: endpoint, opcode, fields. -/
  | evt (eid op : Nat) (fields : List Nat)
  /-- An update forwarded to a mirror partner (R737). -/
  | mirror (eid id key off : Nat) (data : Bytes) (log : Option LogNote)
  /-- A journal entry sent to a mirror partner (R193, R753). -/
  | journal (eid key : Nat) (note : JournalNote)
  /-- An MSI-X message (R618): port, function, vector, address, data. -/
  | msix (port fn vec addr data : Nat)
  /-- The answer to a CXL.mem read (R629): port, data, data-poison indicator. -/
  | cxlData (port : Nat) (data : Bytes) (poison : Bool)
  /-- The completion of a CXL.mem write to its host (R629). -/
  | cxlDone (port : Nat)
  /-- The event that tells an LMF issuer of a notice record (R579): endpoint, context, SEQ of the record. -/
  | notice (eid ctx seq : Nat)
  /-- The value a register read returns. -/
  | regData (w : Word)
  /-- The answer to a DOE or mailbox request: port, fields, bytes. -/
  | doe (port : Nat) (fields : List Nat) (data : Bytes)
  /-- A private read of the I3C sideband (R861). -/
  | i3c (data : Bytes)
  /-- A refused I3C transfer (R861, R864). -/
  | i3cNack
  /-- An in-band interrupt with its data byte (R860). -/
  | ibi (b : Nat)
  /-- An SPDM message to a peer: code and fields (R775 to R779). -/
  | spdm (peer : Peer) (code : Nat) (fields : List Nat)
  /-- The controller asks the fabric manager of an endpoint to let it join (R681, R708). -/
  | askJoin (eid : Nat)
  /-- A region's transport key for an endpoint's key engine, wrapped under the session keys (R784, R786): endpoint, region key, wrapped key. -/
  | transportKey (eid key wrapped : Nat)
  /-- A datagram of a management port: telemetry, trace export, PTP, session data. -/
  | mgmt (mport kind : Nat) (fields : List Nat)
  /-- Bits the test access port shifts out (R856). -/
  | tdo (bits : Nat)
  /-- An NVM command to a T2 drive (R104): slot, the queue pair (0 the admin queue), operation, its two operands: the first LBA and the
  LBAs of an I/O command, the identifier and the value of an admin one. -/
  | nvme (slot queue : Nat) (op : NvmeOp) (a b : Nat)
  deriving DecidableEq, Repr

/-- The rights of a grant (02, Grants). -/
structure Rights where
  r : Bool
  w : Bool
  a : Bool
  p : Bool
  e : Bool
  deriving DecidableEq, Repr

/-- A grant of a region's list (R66). -/
structure Grant where
  eid : Nat
  ctx : Nat
  any : Bool
  rights : Rights
  deriving DecidableEq, Repr

/-- Consistency modes (R59). -/
inductive Mode where
  | publish | coherent | priv
  deriving DecidableEq, Repr

/-- PLACE of the tier policy (R115). -/
inductive Place where
  | auto | pinT0 | t0Only | pinT1 | stream
  deriving DecidableEq, Repr

/-- The tier policy field (R115). -/
structure Policy where
  place : Place
  lent : Bool
  deriving DecidableEq, Repr

/-- A translation entry for one 64 KiB page (R70, R71); a leaf says where its range starts and how many pages it covers. -/
inductive Entry where
  | zero
  | fault
  | leaf (handle : Nat) (ro : Bool) (start count : Nat)
  deriving DecidableEq, Repr

/-- A region that is not FREE (R59, R67); `tkeyOld` is the replaced transport key with the time of the last delivery of the new one (R786). -/
structure Region where
  gen : Nat
  draining : Bool
  base : Nat
  size : Nat
  mode : Mode
  policy : Policy
  talus : Bool
  encrypt : Bool
  mirror : Nat
  mirrorDone : Bool
  absentFault : Bool
  absent0 : Bool
  creator : Nat
  version : Nat
  grants : List Grant
  entries : Tab Entry
  excl : List Nat
  table : Option Nat
  tkey : Nat
  tkeyOld : Option (Nat × Nat)
  dkey : Nat
  deriving DecidableEq, Repr

/-- Tiers that hold a backing copy (R107). -/
inductive Backing where
  | none | t1 | t2
  deriving DecidableEq, Repr

/-- The T0 copy of a tier page (R109). -/
inductive T0Copy where
  | none | clean | dirty
  deriving DecidableEq, Repr

/-- The kinds of page move (03, Moving a page). -/
inductive MoveKind where
  | fill | writeBack | drop | toT1 | toT2 | tlFill (ext : Nat) | toBacking | toT0Only
  deriving DecidableEq, Repr

/-- One slot of a Talus image (R147): MODE, LEN, SOFF, stored bytes, SCRC. -/
structure Slot where
  mode : Nat
  len : Nat
  soff : Nat
  body : Bytes
  crc : Nat
  deriving DecidableEq, Repr

/-- A Talus image (R146, R147): its header fields and its slots; `tweak` is the XTS tweak of its slot 0 (R168). -/
structure Image where
  tableId : Nat
  tv : Bool
  enc : Bool
  keyclass : Bool
  pageLen : Nat
  tweak : Nat
  slots : List Slot
  deriving DecidableEq, Repr

/-- A TL copy as it lies in a lent extent (R171, R172): its place there, the seal counter, the table it names, the header in the clear, and
each slot's sealed bytes with their tag. -/
structure Sealed where
  place : Nat
  ctr : Nat
  tableId : Option Nat
  hdr : Bytes
  slots : List (Bytes × BitVec 128)
  deriving DecidableEq, Repr

/-- A move in COPYING, or past its SWITCH in RETIRING (R138); `image` is the image being written, and after the SWITCH the
source's image; `evict` marks the write-back of a victim, whose T0 page is freed then (R124). -/
structure Move where
  kind : MoveKind
  retiring : Bool
  image : Option Image := none
  evict : Bool := false
  deriving DecidableEq, Repr

/-- One tier page: its bytes, poison marks, placement, heat and images; `due` says that a T0 drain has still to write it back (R143). -/
structure TierPage where
  bytes : Mem
  poison : List Nat
  recovering : Bool
  backing : Backing
  t0 : T0Copy
  tl : Option Nat
  heat : Nat
  stamp : Nat
  touch : Nat
  charge : Nat
  move : Option Move
  image : Option Image
  tlCopy : Option Sealed := none
  due : Bool := false
  deriving DecidableEq, Repr

/-- A shadow page (R190, R191, R169). -/
structure Shadow where
  eid : Nat
  ctx : Nat
  base : Nat
  widx : Nat
  page : TierPage
  deriving DecidableEq, Repr

/-- A page handle: one logical tier page with its versions and the references on it (02, Translation). -/
structure Handle where
  rid : Nat
  pageNo : Nat
  mapped : Bool
  ver : Nat
  pub : TierPage
  shadows : List Shadow
  olds : List (Nat × TierPage)
  refs : List Nat
  deriving DecidableEq, Repr

/-- An unresolved fault record (R86); `written` once it stands in the ring. -/
structure FaultRec where
  seq : Nat
  rid : Nat
  page : Nat
  kind : Nat
  access : Nat
  runTime : Bool
  hw : Nat
  key : Nat
  off : Nat
  eid : Nat
  ctx : Nat
  time : Nat
  written : Bool
  /-- The units whose work stalls on the record, each with the context (R94, R811). -/
  units : List (Nat × Nat) := []
  deriving DecidableEq, Repr

/-- Why an access or a command is held. -/
inductive HoldWhy where
  /-- On an unresolved fault (R95, R631, R872). -/
  | fault (seq : Nat)
  /-- On a page poisoned pending recovery (R181, R630). -/
  | recovery (p : PageRef)
  /-- For a JOIN of a newer incarnation (R678). -/
  | newer (eid inc : Nat)
  /-- Without a lease from the mirror partner (R740). -/
  | lease (eid : Nat)
  /-- For agents to answer REGION_RECALL (R318). -/
  | recall (rid : Nat)
  /-- For a takeover's step 1 (R749). -/
  | takeover (eid : Nat)
  /-- While the bound context is RESETTING (R641). -/
  | resetting (ctx : Nat)
  /-- During a switchover (R549). -/
  | switchover
  /-- For an earlier publish of the caller over the range (R209). -/
  | publish (id : Nat)
  /-- For a coherent line's agents to answer (R246, R291). -/
  | line (rid ln : Nat)
  /-- For the backoff after a NACK of the home's own request for a coherent line, up to a time (R299, R300). -/
  | nacked (rid ln until' : Nat)
  /-- For a free T0 page (R124, R126, R129). -/
  | room
  /-- For the mirror partner to hold a journal entry (R295). -/
  | journal (id : Nat)
  /-- For a place in a host port's write hold buffer (R630). -/
  | buffer (port : Nat)
  /-- For an earlier request of the same channel (R595). -/
  | channel (n : Nat)
  deriving DecidableEq, Repr

/-- A held access or command; `id` numbers it by its arrival, and stays where it is held again; `retry` counts the NACKs of its line (R300), and
`got` holds the bytes that the lines before it returned (R873). -/
structure Held where
  id : Nat
  cmd : Instr
  why : HoldWhy
  since : Nat
  limit : Nat
  eid : Nat
  ctx : Nat
  retry : Nat := 0
  got : Bytes := []
  deriving DecidableEq, Repr

/-- A command whose hold has ended and that is performed again: when it was first held (none: it begins anew), its arrival number, its
issuer, what it was held on, its NACKs and the bytes it has. -/
structure Again where
  cmd : Instr
  since : Option Nat
  id : Nat := 0
  eid : Nat := 0
  ctx : Nat := 0
  why : HoldWhy := .switchover
  retry : Nat := 0
  got : Bytes := []
  deriving DecidableEq, Repr

/-- A ring in memory: its binding and its two indices. -/
structure Ring where
  key : Nat
  off : Nat
  log2 : Nat
  deriving DecidableEq, Repr

/-- A remote write counter (R227), bound to the region of an index and a generation (R226, R228). -/
structure Counter where
  gen : Nat
  rid : Nat
  rgen : Nat
  eid : Nat
  ctx : Nat
  bytes : Nat
  pkts : Nat
  deriving DecidableEq, Repr

/-- Who waits on a counter (R232). -/
inductive Waiter where
  | bci (r : BciReq)
  | core (n : Nat)
  deriving DecidableEq, Repr

/-- A wait on a counter. -/
structure Wait where
  id : Nat
  ckey : Nat
  sel : Nat
  tBytes : Nat
  tPkts : Nat
  who : Waiter
  eid : Nat
  ctx : Nat
  deriving DecidableEq, Repr

/-- A pin (R216); for each page its number, the pinned page version, and one more than its handle (0 where none was allocated); `ended` once
it has ended while a queued operation still reads through it (R260). -/
structure Pin where
  eid : Nat
  ctx : Nat
  rid : Nat
  off : Nat
  len : Nat
  version : Nat
  pages : List (Nat × Nat × Nat)
  ended : Bool := false
  deriving DecidableEq, Repr

/-- An entry of a result log (R249, R251): `value` is what ATOMIC_STATUS reports (R256), `resp` what a repeated request is answered with
(R250, R755). -/
structure LogEntry where
  lseq : Nat
  tomb : Bool
  st : Status
  value : Nat
  resp : Nat := value
  time : Nat
  deriving DecidableEq, Repr

/-- A publish in progress at the home (R199, R206); `sent` holds the bytes of its pages as the mirror partner has them (R38). -/
structure PubCmd where
  id : Nat
  r : BciReq
  eid : Nat
  ctx : Nat
  rid : Nat
  off : Nat
  len : Nat
  lseq : Nat
  expected : Option Nat
  mirrorSent : Bool
  mirrorDone : Bool
  sent : List (Nat × Mem) := []
  deriving DecidableEq, Repr

/-- The pages a descriptor translated when it was queued (R79, R80): region, page number, and one more than the handle (0 where
no page was allocated). -/
abbrev Caps := List (Nat × Nat × Nat)

/-- A queued memory-side operation (R257). -/
structure MemOp where
  id : Nat
  words : List Word
  eid : Nat
  ctx : Nat
  admin : Bool
  cmplKey : Nat
  cmplOff : Nat
  pages : Caps
  result : Option (List Word)
  /-- The unit that has started it (R869). -/
  unit : Option Nat := none
  deriving DecidableEq, Repr

/-- A waiting memory acquire at the word's home (R427). -/
structure Acquire where
  eid : Nat
  tag : Nat
  gen : Nat
  rid : Nat
  key : Nat
  off : Nat
  target : DWord
  limit : Nat
  deriving DecidableEq, Repr

/-- Engine work whose end waits for forwarded updates (R737). -/
inductive WorkRef where
  | memop (id : Nat) | batch (id : Nat) | core (n : Nat)
  deriving DecidableEq, Repr

/-- A forwarded update that awaits the partner's receipt (R737): the completion to send then, the publish it serves, and the agent whose
exclusive-holder bit it carries (R295). -/
structure MirrorWait where
  id : Nat
  partner : Nat
  rid : Nat
  after : List Out
  bci : Option BciReq
  st : Status
  resp : List Word
  pubId : Option Nat
  op : Option Nat
  work : Option WorkRef
  excl : Option Nat := none
  deriving DecidableEq, Repr

/-- A REVOKE that waits for accesses or snoops (R66, R315). -/
structure RevokeWait where
  id : Nat
  r : BciReq
  rid : Nat
  eid : Nat
  ctx : Nat
  any : Bool
  rights : Rights
  asked : Bool
  deriving DecidableEq, Repr

/-- The home. Fault rings are keyed by the port of the owning host that set them (R87, R89). Regions are keyed by index, and adopted ones (R749) by EID × 65,536 + index; `copies` are the mirror copies held for others; `zeroCaps` are
the references on pages that had no handle yet: region, page number, holder (R79, R216). -/
structure Home where
  regions : Tab Region
  copies : Tab Region
  gens : Tab Nat
  zeroCaps : List (Nat × Nat × Nat)
  pages : Tab Handle
  nextHandle : Nat
  lost : List (Nat × Nat × Nat × Nat)
  faults : List FaultRec
  faultSeq : Nat
  faultRings : Tab Ring
  held : List Held
  counters : Tab Counter
  ctrGens : Tab Nat
  waits : List Wait
  pins : Tab Pin
  nextPin : Nat
  logs : Tab (List LogEntry)
  writers : Tab (Nat × Nat)
  pubs : List PubCmd
  memops : List MemOp
  acquires : List Acquire
  mirrors : List MirrorWait
  revokes : List RevokeWait
  deriving DecidableEq, Repr

/-- States of a lent extent (R133). -/
inductive ExtState where
  | active | recalling | lost | gone
  deriving DecidableEq, Repr

/-- A lent extent. -/
structure Extent where
  eid : Nat
  inc : Nat
  gib : Nat
  lkey : Nat
  st : ExtState
  graceEnd : Nat
  sealNext : Nat
  key : Nat
  deriving DecidableEq, Repr

/-- States of a table store entry that is not FREE (R161). -/
structure TalusTable where
  current : Bool
  rid : Nat
  lanes : Nat
  lens : List (List Nat)
  refs : Nat
  deriving DecidableEq, Repr

/-- A T2 drive slot (R103, R724); `queues` are its I/O queue pairs and `busy` its commands outstanding (R105). -/
structure Drive where
  admitted : Bool
  inc : Nat
  spare : Bool
  failed : Bool
  capacity : Nat
  queues : Nat := 0
  busy : Nat := 0
  deriving DecidableEq, Repr

/-- A T1 DIMM (R100, R101). -/
structure Dimm where
  spare : Bool
  failed : Bool
  hot : Bool
  deriving DecidableEq, Repr

/-- Strata, the Talus table store and the tier parts. T1 has `dimmsPer` DIMMs of `dimmGiB` GiB on each of its 16 channels (R97); `tableT2` is the
sealed copy of the table store in T2 (R164); `t2Written` the bytes of T2 that hold images, superseded ones included until they are reclaimed,
`stripeFill` the bytes packed into the open stripe and `stripes` the stripes written (R106). -/
structure Strata where
  halfLife : Nat
  nextHalfLife : Option (Nat × Nat)
  promoteT0 : Nat
  promoteT1 : Nat
  incPort : Nat
  incEngine : Nat
  minAge : Nat
  dimmsPer : Nat
  dimmGiB : Nat
  t1Pages : Nat
  t2Pages : Nat
  t2Written : Nat
  stripeFill : Nat
  stripes : Nat
  extents : Tab Extent
  tables : Tab TalusTable
  tableT2 : Tab Bytes
  storedFallback : Nat
  drives : Tab Drive
  present : List Nat
  dimms : Tab Dimm
  reclaimed : Nat
  deriving DecidableEq, Repr

/-- An agent of the team (R271). -/
structure Agent where
  eid : Nat
  inc : Nat
  deriving DecidableEq, Repr

/-- Directory states (R282). -/
inductive LineState where
  | i | s | e | m | fwdWait | invWait | evictWait
  deriving DecidableEq, Repr

/-- The request a transient state serves (R282). -/
inductive LineReq where
  | none
  | shared (agent : Nat) (q : LmfReq)
  | own (agent : Nat) (q : LmfReq)
  | upgrade (agent : Nat) (q : LmfReq)
  | invOwn (agent : Nat) (q : LmfReq)
  | rdUnc (q : LmfReq)
  | wrUnc (q : LmfReq) (data : Bytes) (mask : BitVec 64)
  | access (cmd : Instr)
  | revoke (id : Nat)
  deriving DecidableEq, Repr

/-- A directory entry with its reservation queue (R282, R301). -/
structure Line where
  st : LineState
  owner : Nat
  sharers : List Nat
  awaited : List Nat
  req : LineReq
  snoop : Nat
  wbSeen : Bool
  armed : Nat
  granted : Nat
  resv : List Nat
  resvSince : Nat
  deriving DecidableEq, Repr

/-- The rope team at this member (R270, R282, R313, R317). -/
structure Rope where
  team : Nat
  members : List Nat
  agents : Tab Agent
  timeoutUs : Nat
  lines : Tab Line
  fencedAgents : List Agent
  sweepLeft : Nat
  late : Nat
  strayWb : Nat
  recalls : Tab (List Nat)
  recallDone : Tab (List Nat)
  grantCount : Nat
  deriving DecidableEq, Repr

/-- The core states of R374. -/
inductive CoreState where
  | off | gated | waking | idle | preparing | running | stalled | saving | restoring | draining | quarantined
  deriving DecidableEq, Repr

/-- The register files of R356 other than the accumulators; an unlisted register holds zero. -/
structure RegFile where
  x : Tab (BitVec 64)
  v : Tab (BitVec 32768)
  p : Tab (BitVec 4096)
  m : Tab (BitVec 128)
  deriving DecidableEq, Repr

/-- A slot in an engine's queue (R350 to R352): its bundle's code offset, the bundle's number in dispatch order, and the values its
registers, SR_FRM and SR_FLAGS had before later results replaced them. -/
structure QSlot where
  cmd : Instr
  regs : RegFile
  frm : Option (BitVec 2)
  flags : Option (BitVec 5)
  bundle : Nat
  seq : Nat
  deriving DecidableEq, Repr

/-- The kernel on a core (R369, R374). -/
structure KernelRun where
  id : Nat
  words : List Word
  port : Option Nat
  pages : Caps
  tsKept : Bool
  lineMode : Bool
  pos : Nat
  seq : Nat
  start : Nat
  started : Bool
  suspends : Nat
  st : Status
  exc : Nat
  engine : Nat
  bundle : Nat
  stalledOn : Nat
  stalledAt : Nat
  deriving DecidableEq, Repr

/-- A DMA transfer in progress (R407, R408): where its bytes come from and go to, the counter a counted write names, the bytes
read so far, and whether its writes have been sent. -/
structure Transfer where
  id : Nat
  bundle : Nat
  srcTile : Bool
  srcEid : Nat
  srcKey : Nat
  src : Nat
  dstTile : Bool
  dstEid : Nat
  dstKey : Nat
  dst : Nat
  len : Nat
  ckey : Option Nat
  buf : Mem
  pos : Nat
  sent : Bool
  pages : Caps := []
  deriving DecidableEq, Repr

/-- A belay access in progress (R328, R329). -/
structure Belay where
  id : Nat
  bundle : Nat
  acq : Bool
  engine : Nat
  scope : Nat
  tile : Bool
  addr : Nat
  eid : Nat
  key : Nat
  value : DWord
  retryAt : Nat
  satisfied : Bool
  deriving DecidableEq, Repr

/-- A saved kernel (R381); `held` are its stalled accesses (R92, R382). -/
structure Saved where
  kernel : KernelRun
  regs : RegFile
  acc : Tab (BitVec 32)
  tile : Mem
  flags : BitVec 5
  frm : BitVec 2
  queues : Tab (List QSlot)
  parts : Tab (Nat × Mem)
  transfers : List Transfer
  belays : List Belay
  wait : Option Wait
  colPtr : Nat
  resolved : Bool
  key : Nat
  held : List Held := []
  deriving DecidableEq, Repr

/-- A Slaica core; `parts` holds, for an engine, how many transactions of the access at the front of its queue have completed and the
bytes they returned. -/
structure Core where
  st : CoreState
  regs : RegFile
  acc : Tab (BitVec 32)
  tile : Mem
  flags : BitVec 5
  frm : BitVec 2
  kernel : Option KernelRun
  lastCtx : Nat
  lastAff : Nat
  lastOk : Bool
  queues : Tab (List QSlot)
  transfers : List Transfer
  belays : List Belay
  parts : Tab (Nat × Mem)
  waitId : Option Nat
  saved : List Saved
  colPtr : Nat
  colMiss : Tab Nat
  colRepl : List Nat
  deriving DecidableEq, Repr

/-- A kernel that waits for a core (R372). -/
structure KernelQ where
  id : Nat
  words : List Word
  port : Option Nat
  pages : Caps
  deriving DecidableEq, Repr

/-- A lane (R436). -/
structure Lane where
  key : Nat
  rid : Nat
  slots : Nat
  slotBytes : Nat
  eid : Nat
  sctx : Nat
  ctx : Nat
  ckeys : List Nat
  nextSeq : List Nat
  busy : List Bool
  removing : Option BciReq
  deriving DecidableEq, Repr

/-- How far an expert entry has come (R447 to R455). -/
inductive EntState where
  | queued | copied (batch : Nat) | done (st : Status)
  deriving DecidableEq, Repr

/-- An entry of a token batch message (R444). -/
structure ExpEntry where
  expert : Nat
  row : Nat
  gate : Nat
  arrived : Nat
  st : EntState
  noted : Bool
  input : Bytes := []
  out : List (BitVec 32)
  deriving DecidableEq, Repr

/-- An accepted message (R443). -/
structure ExpMsg where
  id : Nat
  lane : Nat
  slot : Nat
  eid : Nat
  sctx : Nat
  ctx : Nat
  words : List Word
  entries : List ExpEntry
  reject : Option Status
  released : Bool
  dead : Bool
  first : Nat
  dIn : Nat
  rowsDone : List Nat
  trailerSent : Bool
  deriving DecidableEq, Repr

/-- Where a micro-batch is: on its core, waiting for the fault its weights met when it was queued (R79, R94), or ready for a core after it. -/
inductive BatchAt where
  | core | fault | ready
  deriving DecidableEq, Repr

/-- A dispatched micro-batch (R450); `fail` is the status its run ended with where it met an access that could not be performed. -/
structure MicroBatch where
  id : Nat
  expert : Nat
  desc : List Word
  core : Nat
  members : List (Nat × Nat)
  pages : Caps
  fail : Option Status := none
  place : BatchAt := .core
  deriving DecidableEq, Repr

/-- Expert execution (11). -/
structure Expert where
  descs : Tab (List Word)
  lanes : Tab Lane
  msgs : List ExpMsg
  batches : List MicroBatch
  ready : List Nat
  dlMargin : Nat
  ssd : Option Nat
  ssdHeld : Tab Policy
  deriving DecidableEq, Repr

/-- An update that has taken an epoch and is not yet applied (R491, R492). -/
structure TrvUpdate where
  id : Nat
  r : BciReq
  index : Nat
  shard : Nat
  epoch : Nat
  ins : Bool
  item : Nat
  attr : Nat
  vec : Bytes
  lseq : Nat
  eid : Nat
  ctx : Nat
  appended : Bool
  written : Bool := false
  deriving DecidableEq, Repr

/-- An index (R465). -/
structure Index where
  words : List Word
  epoch : Nat
  applied : Nat
  destroying : Bool
  waits : Option (Nat × BciReq × List Nat) := none
  deriving DecidableEq, Repr

/-- A registered shard (R467, R470): the running MERGE and its side list. -/
structure Shard where
  index : Nat
  shard : Nat
  home : Nat
  rid : Nat
  key : Nat
  base : Nat
  cap : Nat
  count : Nat
  entry : Nat
  slCap : Nat
  head : Nat
  tail : Nat
  merge : Option Nat
  mergeTo : Nat
  freeSlots : List (Nat × List Nat)
  linkTimes : Tab Nat
  ictx : Nat
  desc : List Word
  deriving DecidableEq, Repr

/-- The reads of index memory that a walk or a routing has made, each an offset and its bytes (R90), and those fetched ahead of it (R484). -/
structure Reads where
  done : List (Nat × Bytes)
  ahead : List (Nat × Nat)
  deriving DecidableEq, Repr

/-- A query (R478); `reads` holds, for a shard whose walk is held, what it has read, and under 4,096 what the routing has read. -/
structure Query where
  id : Nat
  words : List Word
  eid : Nat
  ctx : Nat
  started : Bool
  epoch : Nat
  startTime : Nat
  startNo : Nat
  vec : Bytes
  beam : List Nat
  left : List Nat
  back : Tab (Status × List Hit)
  widened : Bool
  hits : List Hit
  evals : Nat
  fails : Nat
  skips : Nat
  filtered : Nat
  tries : List Nat
  final : Option Status
  sent : Bool
  pages : Caps
  reads : Tab Reads := []
  /-- The engine that runs it (R869). -/
  unit : Nat := 0
  deriving DecidableEq, Repr

/-- Traverse (12). -/
structure Traverse where
  indexes : Tab Index
  shards : Tab Shard
  queries : List Query
  updates : List TrvUpdate
  startCount : Nat
  deriving DecidableEq, Repr

/-- An embedding table (R506, R539). -/
structure EmbTable where
  words : List Word
  tgen : Nat
  paused : Bool
  next : List Word
  swapOp : Nat
  drain : List Nat
  drained : Nat
  deriving DecidableEq, Repr

/-- A stored row that a scatter adds to: the remainder flag and the row number, its class and offset, and its contributions. -/
structure RowAdd where
  key : Bool × Nat
  cls : Nat
  off : Nat
  adds : List (List Nat)
  deriving DecidableEq, Repr

/-- What is left of a batch that runs: its fetches, output rows to write, or rows to add to (R519, R527). -/
inductive BatchWork where
  | fetch
  | rows (rs : List (Nat × Bytes))
  | adds (ts : List RowAdd)
  deriving DecidableEq, Repr

/-- A gather or scatter batch (R513): the unit it runs on, the descriptor and generation of its table, the log of its issuer (R534),
its outcome with the counts of R523, and whether its rows and its completion block have been sent; its input block with the moment it was
read, what it has read of the table, what is left to do, and the status its work has so far (R90). -/
structure Batch where
  id : Nat
  words : List Word
  eid : Nat
  ctx : Nat
  log : Nat
  running : Option Nat
  start : Nat
  table : List Word
  tgen : Nat
  pages : Caps
  final : Option Status
  counts : List Nat
  blockSent : Bool
  input : Option (Nat × Bytes) := none
  reads : Reads := { done := [], ahead := [] }
  work : BatchWork := .fetch
  st : Status := .ok
  fail : Option Status := none
  /-- The unit that ran it last (R869). -/
  unit : Nat := 0
  deriving DecidableEq, Repr

/-- Moraine (13). -/
structure Moraine where
  tables : Tab EmbTable
  batches : List Batch
  deriving DecidableEq, Repr

/-- Context states (R574). -/
inductive CtxState where
  | active | resetting | destroying
  deriving DecidableEq, Repr

/-- A context counter (R797). -/
structure CtxCounter where
  event : Nat
  en : Bool
  ros : Bool
  value : Nat
  wrap : Bool
  deriving DecidableEq, Repr

/-- A context that is not FREE (R574). -/
structure Context where
  st : CtxState
  lineMode : Bool
  shadowLimit : Nat
  floor : Nat
  bind : Option (Nat × Nat)
  ctrs : Tab CtxCounter
  key : Nat
  deriving DecidableEq, Repr

/-- An issuer's notice ring (R579 to R581). -/
structure NoticeRing where
  ring : Option Ring
  prod : Nat
  cons : Nat
  seq : Nat
  dropped : Nat
  count : Nat
  deriving DecidableEq, Repr

/-- Who holds a channel (R592). -/
inductive ChanOwner where
  | core (n : Nat) | fn (port fn : Nat) | lmf (eid : Nat)
  deriving DecidableEq, Repr

/-- A mailbox channel (R555, R556, R562): its owner, the command in progress, and whether GO has captured that command and firmware has not
yet taken it. -/
structure Channel where
  owner : ChanOwner
  session : Option (Nat × Nat)
  lastSeq : Option Nat
  lastOp : Nat
  lastResp : List Word
  busy : Option (List Word)
  handed : Bool
  wasOwner : Bool
  deriving DecidableEq, Repr

/-- What a long operation does (R568, class L). -/
inductive OpKind where
  | mirror (rid : Nat) | toT0Only (rid : Nat) | fromT0Only (rid : Nat) | drainT0 | drainTL (ext : Nat) | drainT1
  | merge (index shard : Nat) | swap (table : Nat) | stage (slot : Nat) | activate (slot : Nat)
  | rebuild (part : Part) (loc : Nat) | takeover (eid : Nat)
  deriving DecidableEq, Repr

/-- The record of a long operation (R583). -/
structure LongOp where
  id : Nat
  kind : OpKind
  st : Nat
  status : Status
  bp : Nat
  hw : Nat
  pos : Nat
  total : Nat
  start : Nat
  fin : Nat
  admin : Bool
  issuer : Option (Nat × Nat)
  deriving DecidableEq, Repr

/-- A firmware slot (R585, R770); `st` is 0 EMPTY, 1 VERIFIED, 2 RUNNING. -/
structure FwSlot where
  st : Nat
  fwVer : Nat
  svn : Nat
  keySlot : Nat
  commitSvn : Bool
  deriving DecidableEq, Repr

/-- Work whose deadline has not passed (R577). -/
structure Deadline where
  id : Nat
  at' : Nat
  abort : Bool
  src : Nat
  obj : Nat
  eid : Nat
  ctx : Nat
  deriving DecidableEq, Repr

/-- The phase of a switchover or an activation (R548, R586). -/
inductive FwPhase where
  | steady | switching | syncing
  deriving DecidableEq, Repr

/-- Firmware (14); `staging` holds the image of a running FW_STAGE. -/
structure Bci where
  westActive : Bool
  standby : Bool
  phase : FwPhase
  channels : Tab Channel
  contexts : Tab Context
  faultHold : Nat
  suspendAfter : Nat
  txnTimeout : Nat
  rings : Tab NoticeRing
  ops : List LongOp
  nextOp : Nat
  slots : Tab FwSlot
  staging : Tab Bytes
  runSlot : Nat
  activating : Option Nat
  deadlines : List Deadline
  deriving DecidableEq, Repr

/-- An entry of an MSI-X table (R619). -/
structure MsixEntry where
  addrLo : Word
  addrHi : Word
  data : Word
  masked : Bool
  deriving DecidableEq, Repr

/-- A function's register window (R590). -/
structure Window where
  msg : Tab Word
  go : Bool
  chan : Option Nat
  msgLost : Bool
  nochan : Bool
  dbl : Word
  dblOwner : Bool
  full : Bool
  overrun : Bool
  reject : Bool
  lastStatus : Nat
  seq : Nat
  en : Bool
  enPend : Option Bool
  cqKey : Nat
  cqLo : Nat
  cqHi : Nat
  cqSize : Nat
  lKey : Nat
  lOff : Nat
  lLog2 : Nat
  head : Nat
  tail : Nat
  errStatus : Nat
  errIndex : Nat
  errMore : Bool
  faultProd : Nat
  faultCons : Nat
  vecs : Tab MsixEntry
  pba : Nat
  deriving DecidableEq, Repr

/-- What a host window binds at its commit (R45, R625). -/
structure HostWindow where
  key : Nat
  rid : Nat
  dev : Nat
  ctx : Nat
  fn : Nat
  deriving DecidableEq, Repr

/-- An HDM decoder with its binding registers (R624). -/
structure Decoder where
  committed : Bool
  errNC : Bool
  hpa : Nat
  size : Nat
  ways : Nat
  keyReg : Nat
  devLo : Nat
  devHi : Nat
  fnReg : Nat
  status : Nat
  win : Option HostWindow
  deriving DecidableEq, Repr

/-- A window that was unbound, for the accesses the port had accepted before (R627): when, its decoder, and its range. -/
structure Unbound where
  at' : Nat
  dec : Nat
  hpa : Nat
  size : Nat
  win : HostWindow
  deriving DecidableEq, Repr

/-- A host port. -/
structure HostPort where
  up : Bool
  pcie : Bool
  inc : Nat
  vfs : Nat
  decs : Tab Decoder
  unbound : List Unbound
  refclk : Bool
  deriving DecidableEq, Repr

/-- The host side (15, 16). -/
structure Hosts where
  fns : Tab Window
  ports : Tab HostPort
  owner : Nat
  ownerFenced : Bool
  deriving DecidableEq, Repr

/-- Where an LMF link stands (R649, R650). -/
inductive LinkState where
  | down | step (n : Nat) | up | retry
  deriving DecidableEq, Repr

/-- An LMF port; `replay` holds the sequence numbers of flits that were sent again and not acknowledged, `rxNext` the one awaited after a
report (R671). -/
structure LPort where
  st : LinkState
  width : Nat
  ver : Nat
  eid : Nat
  inc : Nat
  role : Nat
  replay : List Nat
  retryAt : Nat
  rxNext : Nat
  deriving DecidableEq, Repr

/-- An entry of the incarnation table (R677). -/
structure IncEntry where
  inc : Nat
  ver : Nat
  joined : Bool
  fenced : Option Nat
  deriving DecidableEq, Repr

/-- Who waits for one of the controller's own transactions (R667, R674). -/
inductive TxnUse where
  | dma (core transfer : Nat) | kernel (core : Nat) (cmd : Instr) | expertRow (msg : Nat) | trailer (msg : Nat)
  | query (id : Nat) | walk (id shard : Nat) | batchRow (id : Nat) | tlRead (p : PageRef) (ext : Nat) | tlWrite (p : PageRef) (ext : Nat)
  | bciSend (op : Nat)
  | mirror (id : Nat) | belay (core id : Nat) | append (id : Nat) | register (id shard : Nat) | fold (index shard : Nat)
  deriving DecidableEq, Repr

/-- A transaction in flight. -/
structure Txn where
  what : TxnUse
  eid : Nat
  ctx : Nat
  key : Nat
  off : Nat
  lseq : Nat
  ckey : Nat
  op : Nat
  data : Bytes
  idem : Bool
  tries : Nat
  retry : Nat
  limit : Nat
  deriving DecidableEq, Repr

/-- A TAG's generation and transaction (R667). -/
structure TagEntry where
  gen : Nat
  live : Option Txn
  deriving DecidableEq, Repr

/-- A partner record (R684). -/
structure PartnerRec where
  seq : Nat
  event : Nat
  kind : Nat
  loc : Nat
  width : Nat
  ver : Nat
  eid : Nat
  inc : Nat
  time : Nat
  deriving DecidableEq, Repr

/-- The LMF side (17). -/
structure Lmf where
  eid : Nat
  inc : Nat
  joined : Bool
  fmEid : Nat
  ports : Tab LPort
  incs : Tab IncEntry
  tags : Tab TagEntry
  lseqs : Tab Nat
  backoffs : Tab (Txn × Nat)
  history : List PartnerRec
  partnerSeq : Nat
  routes : Tab (List Nat)
  lateCpl : Nat
  lateReq : Nat
  evtDrop : Nat
  sealFail : Nat
  frameDrop : Nat
  deriving DecidableEq, Repr

/-- Domain states (R689) with the entry and wake under way (R692, R693). -/
inductive DomState where
  | on | entering (off : Bool) | gated | off | waking
  deriving DecidableEq, Repr

/-- A domain with the moment and the cause its clock stopped (R718); the cause is 0 while the clock runs. -/
structure DomEntry where
  dom : Domain
  st : DomState
  stop : Nat
  cause : Nat
  deriving DecidableEq, Repr

/-- Power (18): PWR_IDLE, the cap, the steps applied in each stage of R701 for the cap and for temperature (R852), bivouac, the mean power of
the last window in W, and the stretch episodes that were only counted (R717). -/
structure Power where
  doms : List DomEntry
  gateAfter : Nat
  offAfter : Nat
  offEn : Bool
  bivEn : Bool
  bivAfter : Nat
  cap : Nat
  capPend : Option Nat
  capApplied : Nat
  steps : Tab Nat
  heatSteps : Tab Nat
  bivouac : Bool
  power : Nat
  stretches : Nat
  deriving DecidableEq, Repr

/-- The states of the time unit (R706). -/
inductive TimeState where
  | unsync | locking | locked | holdover
  deriving DecidableEq, Repr

/-- Fabric time (18): the count in ns with its fraction in units of 2⁻³² ns (R705); `rate` is in units of 0.01 ppm, `heldAt` is when HOLDOVER
began, `adv` the STEPS each LMF port's partner advertises, `asked` the SEQ and T1 of each port's last request, `ptpSteps` those of the PTP master,
`sync` the SEQ and arrival of the last Sync with `origin`, its departure, and `delay` the SEQ and departure of the last Delay_Req. -/
structure TimeUnit where
  now : Nat
  frac : Nat
  st : TimeState
  stepped : Bool
  everStepped : Bool
  everLocked : Bool
  errBound : Nat
  rate : Int
  good : Nat
  lastGood : Nat
  source : Nat
  usePtp : Bool
  ptpPort : Nat
  ptpDomain : Nat
  heldAt : Nat
  adv : Tab Nat
  asked : Tab (Nat × Nat)
  ptpSteps : Nat
  root : Nat
  sync : Option (Nat × Nat)
  origin : Option Nat
  delay : Option (Nat × Nat)
  deriving DecidableEq, Repr

/-- An error record (R722); words 8 and 9 are the load signature. -/
structure ErrorRec where
  seq : Nat
  cls : Nat
  layer : Nat
  st : Status
  hw : Nat
  loc : Nat
  ctx : Nat
  key : Nat
  off : Nat
  eid : Nat
  sig : Nat
  count : Nat
  aux : Nat
  agents : Nat
  time : Nat
  deriving DecidableEq, Repr

/-- The detector's and the lease's record of an endpoint (R733, R739); `sentAt` is one more than the time of the last HEARTBEAT sent to it,
or 0. -/
structure HbEntry where
  last : Nat
  suspect : Bool
  leaseEnd : Nat
  sentAt : Nat
  deriving DecidableEq, Repr

/-- A bin of a health record (R767). -/
structure HealthBin where
  onMs : Nat
  ce : Nat
  ue : Nat
  mis : Nat
  kat : Nat
  vmin : Nat
  vmax : Nat
  deriving DecidableEq, Repr

/-- A unit's health, known-answer test and quarantine (R762 to R767). -/
structure UnitRec where
  quarantined : Bool
  asked : Bool
  repairs : Nat
  bins : Tab HealthBin
  onSince : Nat
  lastKat : Nat
  errTimes : List Nat
  deriving DecidableEq, Repr

/-- States of an ownership object (R756). -/
inductive ObjState where
  | owned | offered | orphaned
  deriving DecidableEq, Repr

/-- An ownership object. -/
structure JObject where
  rid : Nat
  name : Nat
  st : ObjState
  eid : Nat
  inc : Nat
  toEid : Nat
  toInc : Nat
  entry : Nat
  deriving DecidableEq, Repr

/-- A takeover (R748). -/
structure Takeover where
  id : Nat
  eid : Nat
  inc : Nat
  ctx : Nat
  waitEnd : Nat
  adopted : Bool
  deriving DecidableEq, Repr

/-- A declared failure and its rebuild (R724, R729); `into` is the spare DIMM or drive slot it is rebuilt into. -/
structure Rebuild where
  op : Nat
  part : Part
  loc : Nat
  running : Bool
  into : Option Nat
  deriving DecidableEq, Repr

/-- Reliability (19). -/
structure Rel where
  errors : List ErrorRec
  errSeq : Nat
  params : Tab Nat
  hb : Tab HbEntry
  units : Tab UnitRec
  failCause : Option Nat
  failRecord : Option ErrorRec
  takeovers : List Takeover
  adopted : List Nat
  objects : List JObject
  entry : Nat
  rebuilds : List Rebuild
  pcFailed : List Nat
  deriving DecidableEq, Repr

/-- An SPDM responder's or requester's progress with a peer (R775 to R780). -/
structure SpdmPeer where
  peer : Peer
  version : Bool
  caps : Bool
  algs : Bool
  keyed : Bool
  session : Bool
  key : Nat
  deriving DecidableEq, Repr

/-- Security state (20); `measured` holds the measurements that each boot stage recorded of the next, by block (R772, R778). -/
structure Sec where
  debug : Bool
  rootSecret : Nat
  bootFail : Bool
  svnMin : Nat
  revoked : Nat
  fmSession : Bool
  joinAsked : Bool
  anchor : Nat
  aliasKey : Nat
  atRest : Nat
  bootKey : Nat
  peers : List SpdmPeer
  secured : List (Nat × Nat)
  measured : Tab Nat
  deriving DecidableEq, Repr

/-- An event counter (R793 to R801). -/
structure EvCounter where
  value : Nat
  wrap : Bool
  edge : Bool
  busy : Bool
  deriving DecidableEq, Repr

/-- A bandwidth window record (R809). -/
structure BwRec where
  port : Nat
  frozen : Bool
  part : Bool
  len : Nat
  start : Nat
  rx : Nat
  tx : Nat
  deriving DecidableEq, Repr

/-- A cairn entry (R810). -/
structure Cairn where
  time : Nat
  code : Nat
  ctx : Nat
  payload : Nat
  deriving DecidableEq, Repr

/-- A destination's loss state for one stream (R819). -/
structure TraceLoss where
  first : Nat
  count : Nat
  deriving DecidableEq, Repr

/-- Trace (R815 to R825); streams are keyed 0 east, 1 west; `queue` holds the records that the trace unit has still to write to the ring, oldest first:
the stream and SEQ of each (stream × 2³² + SEQ) with its words. -/
structure Trace where
  dest : Nat
  ring : Option Ring
  eid : Nat
  ctx : Nat
  types : Nat
  mask : Nat
  prod : Nat
  cons : Nat
  drops : Nat
  seqs : Tab Nat
  loss : Tab TraceLoss
  xloss : Tab TraceLoss
  queue : List (Nat × List Word)
  session : Option Nat
  deriving DecidableEq, Repr

/-- The snapshot bank (R803). -/
structure SnapBank where
  seq : Nat
  time : Nat
  events : Tab EvCounter
  ctxs : Tab (Tab CtxCounter)
  deriving DecidableEq, Repr

/-- Counters, cairn rings and trace (21); `winStart` holds the start and the length of each port's open bandwidth window, `frozeAt` one more
than the time of the last freeze. -/
structure Obs where
  events : Tab EvCounter
  frozen : Bool
  snap : SnapBank
  bwWin : Nat
  bwPend : Option Nat
  windows : Tab (List BwRec)
  winStart : Tab (Nat × Nat)
  frozeAt : Nat
  cairns : Tab (List Cairn)
  writes : Tab Nat
  crnSel : Nat
  crnWrites : Nat
  crnData : List Word
  trace : Trace
  mgmtSeq : Nat
  deriving DecidableEq, Repr

/-- TAP instructions (R856). -/
inductive TapInstr where
  | idcode | sample | extest | clamp | highz | extestPulse | extestTrain | bypass
  deriving DecidableEq, Repr

/-- The package: reset, rails, temperature, test access, sideband and boot store (23); `bootAt` is when step 6 of R843 was reached, `sideband` holds
once step 3 has been reached (R860), and `storeBusy` is the write under way (R861). -/
structure Package where
  aonUp : Bool
  rstN : Bool
  booted : Bool
  railEn : Nat
  railPg : Nat
  railHalt : Bool
  faultRail : Nat
  faultKind : Nat
  faultDie : Nat
  thermtrip : Bool
  tjE : Int
  tjW : Int
  tjPeak : Int
  tap : TapInstr
  cells : Nat
  dynAddr : Tab Nat
  sideband : Bool
  store : Mem
  storeStatus : Nat
  storeBusy : Option (Nat × Bytes)
  bootAt : Nat
  deriving DecidableEq, Repr

/-- The state of the controller. -/
structure State where
  home : Home
  strata : Strata
  rope : Rope
  cores : Tab Core
  kernels : List KernelQ
  expert : Expert
  trav : Traverse
  mor : Moraine
  bci : Bci
  host : Hosts
  lmf : Lmf
  pow : Power
  time : TimeUnit
  rel : Rel
  sec : Sec
  obs : Obs
  pkg : Package
  out : List Out
  resume : List Again
  replay : Option Again
  freeCtr : Nat
  nextId : Nat
  pending : List Instr
  deriving DecidableEq, Repr

/-- Registers of a core before its first kernel (DESIGN CHOICE, log 8). -/
def RegFile.zero : RegFile := { x := [], v := [], p := [], m := [] }

/-- A core after boot (DESIGN CHOICE, logs 5 and 8). -/
def Core.reset : Core :=
  { st := .idle, regs := RegFile.zero, acc := [], tile := [], flags := 0, frm := 0, kernel := none, lastCtx := 0, lastAff := 0,
    lastOk := false, queues := [], transfers := [], belays := [], parts := [], waitId := none, saved := [],
    colPtr := 0, colMiss := [], colRepl := [] }

/-- A channel that has just been given to its owner (R593). -/
def Channel.fresh (o : ChanOwner) : Channel :=
  { owner := o, session := none, lastSeq := none, lastOp := 0, lastResp := [], busy := none, handed := false, wasOwner := false }

/-- A register window at power-on (the register tables of 15; MSI-X entries masked: PRESUMED, log 10). -/
def Window.reset (c : Option Nat) : Window :=
  { msg := [], go := false, chan := c, msgLost := false, nochan := false, dbl := 0, dblOwner := false, full := false, overrun := false,
    reject := false, lastStatus := 0, seq := 0, en := false, enPend := none, cqKey := 0, cqLo := 0, cqHi := 0, cqSize := 0,
    lKey := 0, lOff := 0, lLog2 := 0, head := 0, tail := 0, errStatus := 0, errIndex := 0, errMore := false,
    faultProd := 0, faultCons := 0, vecs := [], pba := 0 }

/-- A host port whose link has not come up (DESIGN CHOICE, log 5: incarnation 0). -/
def HostPort.reset : HostPort := { up := false, pcie := false, inc := 0, vfs := 0, decs := [], unbound := [], refclk := true }

/-- An LMF port whose link is down. -/
def LPort.reset : LPort :=
  { st := .down, width := 0, ver := 0, eid := 0, inc := 0, role := 0, replay := [], retryAt := 0, rxNext := 0 }

/-- A decoder that has not been committed (R624). -/
def Decoder.reset : Decoder :=
  { committed := false, errNC := false, hpa := 0, size := 0, ways := 0, keyReg := 0, devLo := 0, devHi := 0, fnReg := 0,
    status := 0, win := none }

/-- The key of a function in tables: port × 256 + function. -/
def fnKey (port fn : Nat) : Nat := port * 256 + fn

/-- The domains of R688, each ON after boot (DESIGN CHOICE, log 5). -/
def domainsOn : List DomEntry :=
  [Domain.aon, .core 0, .core 1, .core 2, .core 3, .talus 0, .talus 1, .trv 0, .trv 1, .trv 2, .trv 3, .mor 0, .mor 1, .mor 2,
   .mor 3, .mem 0, .mem 1, .fab 0, .fab 1, .bc 0, .bc 1].map (fun d => { dom := d, st := .on, stop := 0, cause := 0 })

/-- The home with every region FREE (R747). -/
def Home.reset : Home :=
  { regions := [], copies := [], gens := [], zeroCaps := [], pages := [], nextHandle := 0, lost := [], faults := [], faultSeq := 0,
    faultRings := [], held := [], counters := [], ctrGens := [], waits := [], pins := [], nextPin := 1, logs := [],
    writers := [], pubs := [], memops := [], acquires := [], mirrors := [], revokes := [] }

/-- Strata with its default parameters (R130) and the smallest T1 of R97 (DESIGN CHOICE, log 7). -/
def Strata.reset : Strata :=
  { halfLife := 1000, nextHalfLife := none, promoteT0 := 64, promoteT1 := 16, incPort := 1, incEngine := 1, minAge := 50,
    dimmsPer := 1, dimmGiB := 32, t1Pages := 8388608, t2Pages := 0, t2Written := 0, stripeFill := 0, stripes := 0, extents := [],
    tables := [], tableT2 := [], storedFallback := 0, drives := [],
    present := [], dimms := [], reclaimed := 0 }

/-- No rope team; the default home timeout of R306. -/
def Rope.reset : Rope :=
  { team := 0, members := [], agents := [], timeoutUs := 1000, lines := [], fencedAgents := [], sweepLeft := 0, late := 0,
    strayWb := 0, recalls := [], recallDone := [], grantCount := 0 }

/-- Firmware after boot: the east set active (R544), the defaults of R572, channels 0 to 11 (R592), slot 0 running
(DESIGN CHOICE, log 9). -/
def Bci.reset : Bci :=
  { westActive := false, standby := true, phase := .steady,
    channels := [(0, Channel.fresh (.core 0)), (1, Channel.fresh (.core 1)), (2, Channel.fresh (.core 2)),
      (3, Channel.fresh (.core 3)), (4, Channel.fresh (.core 4)), (5, Channel.fresh (.core 5)), (6, Channel.fresh (.core 6)),
      (7, Channel.fresh (.core 7)), (8, Channel.fresh (.fn 0 0)), (9, Channel.fresh (.fn 1 0)), (10, Channel.fresh (.fn 2 0)),
      (11, Channel.fresh (.fn 3 0))],
    contexts := [], faultHold := 1000000, suspendAfter := 20000, txnTimeout := 4000000, rings := [], ops := [], nextOp := 1,
    slots := [(0, { st := 2, fwVer := 0, svn := 0, keySlot := 0, commitSvn := false })], staging := [], runSlot := 0,
    activating := none, deadlines := [] }

/-- The windows of the four physical functions, with channels 8 to 11 (R592). -/
def Hosts.reset : Hosts :=
  { fns := [(0, Window.reset (some 8)), (256, Window.reset (some 9)), (512, Window.reset (some 10)), (768, Window.reset (some 11))],
    ports := [], owner := 0, ownerFenced := false }

/-- The LMF side before any link is up and before the join (R708). -/
def Lmf.reset : Lmf :=
  { eid := 0, inc := 0, joined := false, fmEid := 0, ports := [], incs := [], tags := [], lseqs := [], backoffs := [], history := [], partnerSeq := 0,
    routes := [], lateCpl := 0, lateReq := 0, evtDrop := 0, sealFail := 0, frameDrop := 0 }

/-- Power: PWR_IDLE, PWR_CAP and PWR_STATUS at their reset values (18). -/
def Power.reset : Power :=
  { doms := domainsOn, gateAfter := 3, offAfter := 4, offEn := true, bivEn := false, bivAfter := 7, cap := 52, capPend := none,
    capApplied := 52, steps := [], heatSteps := [], bivouac := false, power := 0, stretches := 0 }

/-- The time unit at power-on (R706, TIME_CFG, TIME_STATUS). -/
def TimeUnit.reset : TimeUnit :=
  { now := 0, frac := 0, st := .unsync, stepped := false, everStepped := false, everLocked := false, errBound := 131056, rate := 0, good := 0,
    lastGood := 0, source := 0, usePtp := false, ptpPort := 0, ptpDomain := 0, heldAt := 0, adv := [], asked := [], ptpSteps := 255,
    root := 0, sync := none, origin := none, delay := none }

/-- Reliability with the default parameters of R759. -/
def Rel.reset : Rel :=
  { errors := [], errSeq := 0,
    params := [(1, 1000), (2, 5), (3, 10000), (4, 10000), (5, 1000), (6, 25), (7, 3), (8, 3600000), (9, 10000), (10, 2)],
    hb := [], units := [], failCause := none, failRecord := none, takeovers := [], adopted := [], objects := [], entry := 0,
    rebuilds := [], pcFailed := [] }

/-- Security after boot on a PRODUCTION part (DESIGN CHOICE, log 9). -/
def Sec.reset : Sec :=
  { debug := false, rootSecret := 0, bootFail := false, svnMin := 0, revoked := 0, fmSession := false, joinAsked := false, anchor := 0, aliasKey := 0,
    atRest := 0, bootKey := 0, peers := [], secured := [], measured := [] }

/-- Trace off (R825). -/
def Trace.reset : Trace :=
  { dest := 0, ring := none, eid := 0, ctx := 0, types := 0, mask := 0, prod := 0, cons := 0, drops := 0, seqs := [], loss := [],
    xloss := [], queue := [], session := none }

/-- Counters at zero in LEVEL mode, rings empty (R794, R795, R813). -/
def Obs.reset : Obs :=
  { events := [], frozen := false, snap := { seq := 0, time := 0, events := [], ctxs := [] }, bwWin := 1000, bwPend := none,
    windows := [], winStart := [], frozeAt := 0, cairns := [], writes := [], crnSel := 0, crnWrites := 0,
    crnData := [0, 0, 0, 0], trace := Trace.reset, mgmtSeq := 0 }

/-- The package with its rails up and boot done (DESIGN CHOICE, log 9). -/
def Package.reset : Package :=
  { aonUp := true, rstN := true, booted := true, railEn := 255, railPg := 255, railHalt := false, faultRail := 0, faultKind := 0,
    faultDie := 0, thermtrip := false, tjE := 25, tjW := 25, tjPeak := 25, tap := .idcode, cells := 0,
    dynAddr := [], sideband := true, store := [], storeStatus := 0, storeBusy := none, bootAt := 0 }

/-- The machine right after boot. -/
def State.reset : State :=
  { home := Home.reset, strata := Strata.reset, rope := Rope.reset, cores := [], kernels := [],
    expert := { descs := [], lanes := [], msgs := [], batches := [], ready := [], dlMargin := 20000, ssd := none, ssdHeld := [] },
    trav := { indexes := [], shards := [], queries := [], updates := [], startCount := 0 },
    mor := { tables := [], batches := [] }, bci := Bci.reset, host := Hosts.reset, lmf := Lmf.reset, pow := Power.reset,
    time := TimeUnit.reset, rel := Rel.reset, sec := Sec.reset, obs := Obs.reset, pkg := Package.reset, out := [], resume := [],
    replay := none, freeCtr := 0, nextId := 1, pending := [] }

end Sys2Proof.Machine
end

