-- ==== Sys2Proof/Machine/Operands.lean ====
section
/-! DEFINITION. The operand forms: fields of a BCI request (R553, R559), keys and ranges, the registers a slot reads (R353, R356), and the messages and identifiers a step hands out. -/

namespace Sys2Proof

/-- Word 0 of a request (R553). -/
def BciReq.header (r : BciReq) : Nat := wAt r.words 0
/-- OPCODE. -/
def BciReq.opcode (r : BciReq) : Nat := fld r.header 8 0
/-- LEN: operand words that follow. -/
def BciReq.len (r : BciReq) : Nat := fld r.header 12 9
/-- DL: the last two operand words are DEADLINE. -/
def BciReq.dl (r : BciReq) : Bool := bitAt r.header 13
/-- DL_ABORT. -/
def BciReq.dlAbort (r : BciReq) : Bool := bitAt r.header 14
/-- SEQ. -/
def BciReq.seq (r : BciReq) : Nat := fld r.header 19 16
/-- TAG. -/
def BciReq.tag (r : BciReq) : Nat := fld r.header 31 20
/-- Operand word `i`, counted from 1. -/
def BciReq.w (r : BciReq) (i : Nat) : Nat := wAt r.words i
/-- The doubleword in operand words `i` and `i + 1`. -/
def BciReq.d (r : BciReq) (i : Nat) : Nat := dAt r.words i
/-- DEADLINE: the last two of LEN operand words (R577). -/
def BciReq.deadline (r : BciReq) : Nat := r.d (r.len - 1)

/-- A 128-bit operand from word `i`. -/
def BciReq.q (r : BciReq) (i : Nat) : Nat := r.d i + 2 ^ 64 * r.d (i + 2)

end Sys2Proof

namespace Sys2Proof.Machine

/-- What every meaning answers. -/
abbrev Result := Host.Outcome State Fault Refusal

/-- The issuer of an access: source EID and context (R52); `admin` marks the owning host's admin rights (R561), which need
no grant. -/
structure Issuer where
  eid : Nat
  ctx : Nat
  admin : Bool
  deriving DecidableEq, Repr

/-- The time of a step. -/
def State.now (s : State) : Nat := s.time.now

/-- When the command that is performed again was first held; none for a command that arrives. -/
def State.replayOf (s : State) : Option Nat := s.replay.bind Again.since

/-- The arrival number of the command being performed: its own where it was held, else the next. -/
def State.arrivalNo (s : State) : Nat :=
  match s.replay with
  | some a => if a.since.isSome && decide (a.id ≠ 0) then a.id else s.nextId
  | none => s.nextId

/-- Send a message. -/
def State.emit (s : State) (o : Out) : State := { s with out := o :: s.out }

/-- The state after an identifier has been taken; the identifier is `s.nextId`. -/
def State.bump (s : State) : State := { s with nextId := s.nextId + 1 }

/-- The secret the key engines use (R768): the fused root secret, or the fixed test secret on a DEBUG part. -/
def State.secret (s : State) : Nat := if s.sec.debug then Config.testSecret else s.sec.rootSecret

/-- The persistent key (R781). -/
def State.persistKey (s : State) : Nat := Config.persistKey s.secret

/-- The free value of this moment (log 4). -/
def State.freeVal (s : State) : Nat := Config.freeNat s.freeCtr

/-- The state after a free value has been taken. -/
def State.freed (s : State) : State := { s with freeCtr := s.freeCtr + 1 }

/-- The key index of a region or counter key (R55, R225). -/
def keyIdx (k : Nat) : Nat := k % 65536

/-- The generation of a key (R55, R225). -/
def keyGen (k : Nat) : Nat := k / 65536 % 65536

/-- A key from an index and a generation (R55). -/
def mkKey (idx gen : Nat) : Nat := gen * 65536 + idx

/-- The generation after one: 0 is never issued (R58, R225). -/
def nextGen (g : Nat) : Nat := if g = 65535 then 1 else g + 1

/-- The two words of a doubleword, low word first (R559). -/
def two (v : Nat) : List Word := [BitVec.ofNat 32 v, BitVec.ofNat 32 (v / 2 ^ 32)]

/-- One word. -/
def one (v : Nat) : List Word := [BitVec.ofNat 32 v]

/-- Do `n` bytes from `off` stay within one 4 KiB block of local offset (R663)? -/
def inBlock (off n : Nat) : Bool := decide (off % 4096 + n ≤ 4096)

/-- The 64 KiB pages a range touches, as page numbers. -/
def pagesOf (off n : Nat) : List Nat := if n = 0 then [] else (upto ((off + n - 1) / 65536 + 1 - off / 65536)).map (· + off / 65536)

/-- The 64 B lines a range touches, as line numbers of the local offset. -/
def linesOf (off n : Nat) : List Nat := if n = 0 then [] else (upto ((off + n - 1) / 64 + 1 - off / 64)).map (· + off / 64)

/-- Cut a range at page boundaries: pairs of offset and length, one for each page touched. -/
def pieces (off n : Nat) : List (Nat × Nat) :=
  (pagesOf off n).map (fun p =>
    let a := max off (p * 65536)
    let b := min (off + n) (p * 65536 + 65536)
    (a, b - a))

/-- Cut a range at line boundaries: pairs of offset and length, one for each line touched (R873). -/
def lineCuts (off n : Nat) : List (Nat × Nat) :=
  (linesOf off n).map (fun l =>
    let a := max off (l * 64)
    let b := min (off + n) (l * 64 + 64)
    (a, b - a))

/-- Cut a range at boundaries of 4 KiB, which one LMF transaction does not cross (R663): pairs of offset and length. -/
def blocks (off n : Nat) : List (Nat × Nat) :=
  if n = 0 then []
  else (upto ((off + n - 1) / 4096 + 1 - off / 4096)).map (fun k =>
    let a := max off ((off / 4096 + k) * 4096)
    let b := min (off + n) ((off / 4096 + k + 1) * 4096)
    (a, b - a))

/-- Register X `n`; X0 reads zero (R353). -/
def RegFile.xr (f : RegFile) (n : Nat) : BitVec 64 := if n % 32 = 0 then 0 else Tab.getD f.x (n % 32) 0
/-- Write X `n`; a write to X0 is discarded (R353). -/
def RegFile.xw (f : RegFile) (n : Nat) (v : BitVec 64) : RegFile := if n % 32 = 0 then f else { f with x := Tab.set f.x (n % 32) v }
/-- Register V `n`. -/
def RegFile.vr (f : RegFile) (n : Nat) : BitVec 32768 := Tab.getD f.v (n % 64) 0
/-- Write V `n`. -/
def RegFile.vw (f : RegFile) (n : Nat) (v : BitVec 32768) : RegFile := { f with v := Tab.set f.v (n % 64) v }
/-- Predicate P `n`; P0 reads all ones (R353). -/
def RegFile.pr (f : RegFile) (n : Nat) : BitVec 4096 := if n % 16 = 0 then BitVec.allOnes 4096 else Tab.getD f.p (n % 16) 0
/-- Write P `n`; a write to P0 is discarded (R353). -/
def RegFile.pw (f : RegFile) (n : Nat) (v : BitVec 4096) : RegFile := if n % 16 = 0 then f else { f with p := Tab.set f.p (n % 16) v }
/-- Tile descriptor M `n`. -/
def RegFile.mr (f : RegFile) (n : Nat) : BitVec 128 := Tab.getD f.m (n % 16) 0
/-- Write M `n`. -/
def RegFile.mw (f : RegFile) (n : Nat) (v : BitVec 128) : RegFile := { f with m := Tab.set f.m (n % 16) v }

/-- A core's entry. -/
def State.core (s : State) (n : Nat) : Core := Tab.getD s.cores n Core.reset
/-- Replace a core's entry. -/
def State.setCore (s : State) (n : Nat) (c : Core) : State := { s with cores := Tab.set s.cores n c }

/-- A function's window; a function that has none yet has the window at power-on. -/
def State.fnWin (s : State) (port fn : Nat) : Window := Tab.getD s.host.fns (fnKey port fn) (Window.reset none)
/-- Replace a function's window. -/
def State.setFnWin (s : State) (port fn : Nat) (w : Window) : State :=
  { s with host := { s.host with fns := Tab.set s.host.fns (fnKey port fn) w } }

/-- A host port. -/
def State.hport (s : State) (p : Nat) : HostPort := Tab.getD s.host.ports p HostPort.reset
/-- Replace a host port. -/
def State.setHport (s : State) (p : Nat) (h : HostPort) : State := { s with host := { s.host with ports := Tab.set s.host.ports p h } }

/-- Is a function there: a PF, or a VF that is enabled (R632)? -/
def State.fnEnabled (s : State) (p f : Nat) : Bool := decide (f = 0) || decide (f ≤ (s.hport p).vfs)

/-- An LMF port. -/
def State.lport (s : State) (p : Nat) : LPort := Tab.getD s.lmf.ports p LPort.reset
/-- Replace an LMF port. -/
def State.setLport (s : State) (p : Nat) (l : LPort) : State := { s with lmf := { s.lmf with ports := Tab.set s.lmf.ports p l } }

/-- The context bound to a function (R561, R632). -/
def State.boundCtx (s : State) (port fn : Nat) : Option Nat :=
  (s.bci.contexts.find? (fun e => decide (e.2.bind = some (port, fn)))).map Prod.fst

/-- The function a context is bound to (R632). -/
def State.boundFn (s : State) (ctx : Nat) : Option (Nat × Nat) := (Tab.get? s.bci.contexts ctx).bind Context.bind

/-- Is the context in a state? -/
def State.ctxIs (s : State) (ctx : Nat) (st : CtxState) : Bool :=
  match Tab.get? s.bci.contexts ctx with
  | some c => decide (c.st = st)
  | none => false

/-- ERR_BOUND in ns: in HOLDOVER it grows by 2 ns for each ms (R706). -/
def State.errNow (s : State) : Nat :=
  match s.time.st with
  | .holdover => s.time.errBound + (s.time.now - s.time.heldAt) / 1000000 * 2
  | _ => s.time.errBound

/-- Does the package run: booted and not in fail-stop (R746, R845)? -/
def State.runs (s : State) : Bool := s.rel.failCause.isNone && s.pkg.booted

/-- A meaning that a stopped package does not perform (R746, R845). -/
def whenUp (s : State) (f : State → Result) : Result := if s.runs then f s else .next s

end Sys2Proof.Machine
end

