-- ==== Sys2Proof/Machine/Talus.lean ====
section
/-! DEFINITION. The Talus codec (04): tables and canonical codes, the coding and decoding of a sub-stream, images with their checks, and the encryption of slots. -/

namespace Sys2Proof.Machine

/-- One step of CRC-64 with the polynomial of R147, most significant bit first (DEDUCED, log 15). -/
def crcBit (c : BitVec 64) : BitVec 64 := if c.msb then (c <<< 1) ^^^ 0x42F0E1EBA9EA3693 else c <<< 1

/-- CRC-64 of one more byte. -/
def crcByte (c : BitVec 64) (b : Byte) : BitVec 64 :=
  let c := c ^^^ (b.setWidth 64 <<< 56)
  crcBit (crcBit (crcBit (crcBit (crcBit (crcBit (crcBit (crcBit c)))))))

/-- CRC-64 of a byte string (R147). -/
def crc64 (bs : Bytes) : Nat := ((bs.foldl crcByte (BitVec.allOnes 64)) ^^^ BitVec.allOnes 64).toNat

/-- One step of CRC-32C in the order of bits in which the Castagnoli code is used (DEDUCED, log 15). -/
def crcBit32 (c : BitVec 32) : BitVec 32 := if c.getLsbD 0 then (c >>> 1) ^^^ 0x82F63B78 else c >>> 1

/-- CRC-32C of one more byte. -/
def crcByte32 (c : BitVec 32) (b : Byte) : BitVec 32 :=
  let c := c ^^^ b.setWidth 32
  crcBit32 (crcBit32 (crcBit32 (crcBit32 (crcBit32 (crcBit32 (crcBit32 (crcBit32 c)))))))

/-- CRC-32C of a byte string (R147). -/
def crc32c (bs : Bytes) : Nat := ((bs.foldl crcByte32 (BitVec.allOnes 32)) ^^^ BitVec.allOnes 32).toNat

/-- Encrypt one data unit (R167). -/
def xts (key tweak : Nat) (bs : Bytes) : Bytes := (Config.xtsPerm key tweak bs.length ⟨bs, rfl⟩).toList

/-- Decrypt one data unit. -/
def xtsInv (key tweak : Nat) (bs : Bytes) : Bytes := ((Config.xtsPerm key tweak bs.length).symm ⟨bs, rfl⟩).toList

/-- Seal one slot with GCM's cipher (R172). -/
def gcm (key iv : Nat) (bs : Bytes) : Bytes := (Config.gcmPerm key iv bs.length ⟨bs, rfl⟩).toList

/-- The inverse of `gcm`. -/
def gcmInv (key iv : Nat) (bs : Bytes) : Bytes := ((Config.gcmPerm key iv bs.length).symm ⟨bs, rfl⟩).toList

/-- Are these the lengths of a complete prefix code over byte values (R152)? -/
def lensOk (ls : List Nat) : Bool :=
  decide (ls.length = 256) && ls.all (fun l => decide (1 ≤ l) && decide (l ≤ 15)) && decide ((ls.map (fun l => 2 ^ (15 - l))).sum = 32768)

/-- Byte counts plus one of each lane, lane after lane (R155). -/
def histogram (lanes : Nat) (bs : Bytes) : List Nat :=
  (upto lanes).flatMap (fun j => (upto 256).map (fun v =>
    1 + ((upto bs.length).filter (fun k => decide (k % lanes = j) && decide ((bs.getD k 0).toNat = v))).length))

/-- The code lengths built for a histogram: the controller's own where they make a table of R152, else eight bits each. -/
def builtLens (lanes : Nat) (h : List Nat) : List (List Nat) :=
  let t := Config.buildTable lanes h
  if t.length = lanes ∧ t.all lensOk = true then t else List.replicate lanes (List.replicate 256 8)

/-- The estimated coded size in bits: count times length over the symbols (R155). -/
def estimate (lens : List (List Nat)) (h : List Nat) : Nat := (List.zipWith (· * ·) h lens.flatten).sum

/-- The canonical code of a symbol (R153): symbols ordered by length and then value take consecutive values. -/
def codeOf (ls : List Nat) (v : Nat) : Nat :=
  let l := ls.getD v 0
  ((upto 256).map (fun t =>
    let m := ls.getD t 0
    if m < l ∨ (m = l ∧ t < v) then 2 ^ (l - m) else 0)).sum

/-- The bits of a code, most significant first (R154). -/
def codeBits (ls : List Nat) (v : Nat) : List Bool :=
  let l := ls.getD v 0
  (upto l).map (fun i => (codeOf ls v).testBit (l - 1 - i))

/-- Pack bits from bit 0 of byte 0 upward (R154). -/
def packBools : Nat → List Bool → Bytes
  | 0, _ => []
  | n + 1, bs => BitVec.ofNat 8 ((List.zipWith (fun b i => if b then 2 ^ i else 0) (bs.take 8) (upto 8)).sum) :: packBools n (bs.drop 8)

/-- The bits of a byte string, bit 0 of byte 0 first. -/
def bitsOf (bs : Bytes) : List Bool := bs.flatMap (fun b => (upto 8).map (fun i => b.toNat.testBit i))

/-- The coded bits of a sub-stream: byte k under the code of lane k mod LANES. -/
def codedBits (lens : List (List Nat)) (bs : Bytes) : List Bool :=
  (upto bs.length).flatMap (fun k => codeBits (lens.getD (k % max 1 lens.length) []) (bs.getD k 0).toNat)

/-- The symbol whose code the bits begin with, and what is left. -/
def takeSym (ls : List Nat) (bits : List Bool) : Option (Nat × List Bool) :=
  match (upto 256).find? (fun v => decide (codeBits ls v ≠ []) && (codeBits ls v).isPrefixOf bits) with
  | some v => some (v, bits.drop (ls.getD v 0))
  | none => none

/-- Decode `n` symbols from lane `k` on (R176). -/
def decodeSyms (lens : List (List Nat)) : Nat → Nat → List Bool → Option (Bytes × Nat)
  | 0, _, bits => some ([], bits.length)
  | n + 1, k, bits =>
    match takeSym (lens.getD (k % max 1 lens.length) []) bits with
    | none => none
    | some (v, rest) => match decodeSyms lens n (k + 1) rest with | some (out, left) => some (BitVec.ofNat 8 v :: out, left) | none => none

/-- Decode an entropy-mode slot with the length check of R150 and R176. -/
def decodeEntropy (lens : List (List Nat)) (len : Nat) (body : Bytes) : Option Bytes :=
  match decodeSyms lens 4096 0 (bitsOf body) with
  | none => none
  | some (out, left) => if 64 * (len - 1) < (body.length * 8 - left + 7) / 8 then some out else none

/-- Code one sub-stream (R158, R159): zero mode, entropy mode, or stored mode; whether it fell back to stored mode. -/
def codeSlot (lens : Option (List (List Nat))) (bs : Bytes) : Slot × Bool :=
  if bs.all (fun b => decide (b = 0)) then ({ mode := 2, len := 0, soff := 0, body := [], crc := 0 }, false)
  else
    match lens with
    | none => ({ mode := 1, len := 64, soff := 0, body := bs, crc := 0 }, false)
    | some t =>
      let bits := codedBits t bs
      let c := (bits.length + 7) / 8
      if 4032 < c then ({ mode := 1, len := 64, soff := 0, body := bs, crc := 0 }, true)
      else
        let len := (c + 63) / 64
        ({ mode := 0, len := len, soff := 0, body := packBools (len * 64) bits, crc := 0 }, false)

/-- The XTS tweak of slot `i` under the tweak of its page (R168). -/
def slotTweak (tweak i : Nat) : Nat := tweak + i

/-- The tweak of a page, slot 0 (R168). -/
def pageTweak (page version : Nat) (shadow : Option Nat) : Nat :=
  page % 2 ^ 36 * 2 ^ 4 + version % 2 ^ 64 * 2 ^ 40 + (match shadow with | some w => 2 ^ 104 + w % 2 ^ 22 * 2 ^ 105 | none => 0)

/-- Encrypt a slot and give it its SCRC (R147, R166, R167). -/
def sealSlot (key tweak i : Nat) (enc : Bool) (s : Slot) : Slot :=
  if s.mode = 2 then s
  else
    let body := if enc then xts key (slotTweak tweak i) s.body else s.body
    { s with body := body, crc := crc64 body }

/-- Seal every slot of an image. -/
def sealSlots (key tweak : Nat) (enc : Bool) : Nat → List Slot → List Slot
  | _, [] => []
  | i, s :: t => sealSlot key tweak i enc s :: sealSlots key tweak enc (i + 1) t

/-- Give each slot its start: the first after the header, each other where the one before ends (R148). -/
def placeSlots : Nat → List Slot → List Slot
  | _, [] => []
  | n, s :: t => { s with soff := n } :: placeSlots (n + s.len) t

/-- The length of an image in 64 B units (R147, R148). -/
def slotUnits (slots : List Slot) : Nat := 4 + (slots.map Slot.len).sum

/-- The image of a page (R146 to R149, R158, R159), and the slots that fell back to stored mode. -/
def codeImage (table : Option (Nat × List (List Nat))) (key tweak : Nat) (enc atRest : Bool) (bytes : Bytes) : Image × Nat :=
  let raw := (upto 16).map (fun i => codeSlot (table.map Prod.snd) ((bytes.drop (4096 * i)).take 4096))
  let tv := raw.any (fun q => decide (q.1.mode = 0))
  let slots := placeSlots 4 (raw.map Prod.fst)
  ({ tableId := if tv then (match table with | some t => t.1 | none => 0) else 0, tv := tv, enc := enc, keyclass := atRest,
     pageLen := slotUnits slots, tweak := tweak, slots := sealSlots key tweak enc 0 slots }, (raw.filter (fun q => q.2)).length)

/-- A slot of a page of zeros (R149). -/
def Slot.zero : Slot := { mode := 2, len := 0, soff := 4, body := [], crc := 0 }

/-- The image of a page of zeros: a header and sixteen zero-mode slots (R146, R148). -/
def Image.zero (enc keyclass : Bool) (tweak : Nat) : Image :=
  { tableId := 0, tv := false, enc := enc, keyclass := keyclass, pageLen := 4, tweak := tweak, slots := List.replicate 16 Slot.zero }

/-- The 256-byte header of an image (R147), but for HDR_CRC. -/
def Image.headerBody (im : Image) : Bytes :=
  natLE 4 (1 + 256 * (im.tableId % 4096) + 1048576 * b2n im.tv) ++ natLE 4 (im.pageLen % 2048 + 2048 * b2n im.enc + 4096 * b2n im.keyclass)
    ++ im.slots.flatMap (fun s => natLE 4 (s.mode % 4 + 4 * (s.len % 128) + 65536 * (s.soff % 65536)))
    ++ im.slots.flatMap (fun s => natLE 8 s.crc) ++ List.replicate 52 0

/-- The header of an image with its CRC-32C over bytes 0 to 251 (R147). -/
def Image.header (im : Image) : Bytes := im.headerBody ++ natLE 4 (crc32c im.headerBody)

/-- An image as it lies in its tier: the header, and the slots from byte 256 on with no gaps (R146). -/
def Image.bytes (im : Image) : Bytes := im.header ++ im.slots.flatMap Slot.body

/-- The length of an image in 64 B units. -/
def Image.units (im : Image) : Nat := slotUnits im.slots

/-- A 32-bit word of a header. -/
def hdrWord (h : Bytes) (k : Nat) : Nat := leNat ((h.drop k).take 4)

/-- MODE, LEN and SOFF of slot `i` of a header. -/
def hdrSlot (h : Bytes) (i : Nat) : Nat × Nat × Nat := let w := hdrWord h (8 + 4 * i); (w % 4, fld w 8 2, fld w 31 16)

/-- SCRC of slot `i` of a header. -/
def hdrCrc (h : Bytes) (i : Nat) : Nat := leNat ((h.drop (72 + 8 * i)).take 8)

/-- TV of a header, and its TABLE_ID. -/
def hdrTable (h : Bytes) : Bool × Nat := (bitAt (hdrWord h 0) 20, fld (hdrWord h 0) 19 8)

/-- Do the slot fields of a header satisfy R148? -/
def hdrSlotsOk (h : Bytes) : Bool :=
  decide ((hdrSlot h 0).2.2 = 4)
  && (upto 15).all (fun i => decide ((hdrSlot h (i + 1)).2.2 = (hdrSlot h i).2.2 + (hdrSlot h i).2.1))
  && decide (fld (hdrWord h 4) 10 0 = (hdrSlot h 15).2.2 + (hdrSlot h 15).2.1)
  && (upto 16).all (fun i => let s := hdrSlot h i
      match s.1 with
      | 0 => decide (1 ≤ s.2.1) && decide (s.2.1 ≤ 63)
      | 1 => decide (s.2.1 = 64)
      | 2 => decide (s.2.1 = 0)
      | _ => false)

/-- The header checks of R175, over the header as the medium gives it; `live` says which tables are not FREE. -/
def headerOk (h : Bytes) (live : Nat → Bool) : Bool :=
  decide (h.length = 256) && decide (hdrWord h 252 = crc32c (h.take 252)) && decide (hdrWord h 0 % 256 = 1)
  && decide (fld (hdrWord h 0) 31 21 = 0) && decide (fld (hdrWord h 4) 31 13 = 0) && (upto 16).all (fun i => decide (fld (hdrWord h (8 + 4 * i)) 15 9 = 0))
  && ((h.drop 200).take 52).all (fun b => decide (b = 0)) && hdrSlotsOk h
  && ((hdrTable h).1 || (upto 16).all (fun i => decide ((hdrSlot h i).1 ≠ 0))) && (!(hdrTable h).1 || live (hdrTable h).2)

/-- Read slot `i` through the checks of R174 as the medium gives it, a header of 256 bytes and then the slot: SCRC, header, decryption,
decoding and length. `key` gives the key of a KEYCLASS, `lens` the code lengths of a table. -/
def readSlot (i tweak : Nat) (media : Bytes) (key : Bool → Nat) (live : Nat → Bool) (lens : Nat → List (List Nat)) : Option Bytes :=
  let h := media.take 256
  let s := hdrSlot h i
  let body := (media.drop 256).take (64 * s.2.1)
  if crc64 body ≠ hdrCrc h i ∨ headerOk h live = false ∨ body.length ≠ 64 * s.2.1 then none
  else if s.1 = 2 then some (List.replicate 4096 0)
  else
    let plain := if bitAt (hdrWord h 4) 11 then xtsInv (key (bitAt (hdrWord h 4) 12)) (slotTweak tweak i) body else body
    if s.1 = 1 then some plain else decodeEntropy (lens (hdrTable h).2) s.2.1 plain

/-- Slot `i` as the medium holds it: the header and the slot (R150: a read of one line fetches only these). -/
def Image.media (im : Image) (i : Nat) : Bytes := im.header ++ (match im.slots[i]? with | some s => s.body | none => [])

/-- Read every slot of an image given as bytes; none where one fails a check (R179). -/
def readImage (bytes : Bytes) (tweak : Nat) (key : Bool → Nat) (live : Nat → Bool) (lens : Nat → List (List Nat)) : Option Bytes :=
  let h := bytes.take 256
  (upto 16).foldl (fun (acc : Option Bytes) i =>
    match acc, readSlot i tweak (h ++ bytes.drop (64 * (hdrSlot h i).2.2)) key live lens with
    | some a, some b => some (a ++ b)
    | _, _ => none) (some [])

/-- Give every slot new bytes, its start and its length kept, and the SCRC of what is stored now. -/
def mapSlots (f : Nat → Bytes → Bytes) : Nat → List Slot → List Slot
  | _, [] => []
  | i, s :: t => (if s.mode = 2 then s else { s with body := f i s.body, crc := crc64 (f i s.body) }) :: mapSlots f (i + 1) t

/-- Encrypt an image's slots anew, without coding them again (R170): from the key and tweak it has to those given. -/
def Image.rekey (im : Image) (old : Nat) (enc keyclass : Bool) (new tweak : Nat) : Image :=
  if im.enc = false ∧ enc = false then { im with tweak := tweak }
  else
    let f (i : Nat) (b : Bytes) : Bytes :=
      let plain := if im.enc then xtsInv old (slotTweak im.tweak i) b else b
      if enc then xts new (slotTweak tweak i) plain else plain
    { im with enc := enc, keyclass := keyclass, tweak := tweak, slots := mapSlots f 0 im.slots }

/-- A backing move to T2 of an image with ENC = 0 (R170). -/
def Image.toT2 (im : Image) (atRest : Nat) : Image := if im.enc then im else im.rekey 0 true true atRest im.tweak

/-- A backing move to T1 of an image with KEYCLASS = 1 (R170). -/
def Image.toT1 (im : Image) (atRest : Nat) : Image := if im.keyclass then im.rekey atRest false false 0 im.tweak else im

/-! ### TL copies -/

/-- The IV of slot `i` (R172). -/
def sealIv (ctr i : Nat) : Nat := ctr % 2 ^ 64 + 2 ^ 64 * i

/-- Seal the slots of an image in its T1 form, each non-empty one with its tag (R172). -/
def sealTl (key ctr : Nat) (hdr : Bytes) : Nat → List Slot → List (Bytes × BitVec 128)
  | _, [] => []
  | i, s :: t =>
    (if s.mode = 2 then ([], 0)
     else
       let c := gcm key (sealIv ctr i) s.body
       (c, Config.gcmTag key (sealIv ctr i) hdr c)) :: sealTl key ctr hdr (i + 1) t

/-- A TL copy of an image in its T1 form, at a place of its extent, under the extent's key and counter (R171, R172). -/
def Sealed.of (im : Image) (place key ctr : Nat) : Sealed :=
  { place := place, ctr := ctr, tableId := if im.tv then some im.tableId else none, hdr := im.header, slots := sealTl key ctr im.header 0 im.slots }

/-- The seal block: the counter in bytes 0 to 7, the tag of slot i from byte 16 + 16 i (R171). -/
def Sealed.block (c : Sealed) : Bytes :=
  natLE 8 c.ctr ++ List.replicate 8 0 ++ c.slots.flatMap (fun s => natLE 16 s.2.toNat) ++ List.replicate 48 0

/-- A TL copy as it is written to the lender (R165, R171): the seal block, the header in the clear and the sealed slots. -/
def Sealed.bytes (c : Sealed) : Bytes := c.block ++ c.hdr ++ c.slots.flatMap Prod.fst

/-- Slot `i` of a TL copy as the lender holds it: the seal block, the header and the slot. -/
def Sealed.media (c : Sealed) (i : Nat) : Bytes := c.block ++ c.hdr ++ (match c.slots[i]? with | some s => s.1 | none => [])

/-- Does the GCM tag of slot `i` verify over what the lender gives (R174)? -/
def sealGood (key i : Nat) (media : Bytes) : Bool :=
  let blk := media.take 320
  let ctr := leNat (blk.take 8)
  let h := (media.drop 320).take 256
  let s := hdrSlot h i
  decide (s.1 = 2) || decide (Config.gcmTag key (sealIv ctr i) h ((media.drop 576).take (64 * s.2.1)) = BitVec.ofNat 128 (leNat ((blk.drop (16 + 16 * i)).take 16)))

/-- Read slot `i` of a TL copy (R174): the tag in place of the SCRC, then the image's checks. -/
def readSealed (key i tweak : Nat) (media : Bytes) (keys : Bool → Nat) (live : Nat → Bool) (lens : Nat → List (List Nat)) : Option Bytes :=
  if sealGood key i media then readSlot i tweak ((media.drop 320).take 256 ++ gcmInv key (sealIv (leNat (media.take 8)) i) (media.drop 576)) keys live lens
  else none

/-! ### Tables -/

/-- A table as bytes (R151): ID, LANES and the code lengths, two to a byte. -/
def tableBytes (id : Nat) (lens : List (List Nat)) : Bytes :=
  natLE 4 (id % 4096 + 4096 * (match lens.length with | 1 => 0 | 2 => 1 | _ => 2)) ++ List.replicate 12 0
    ++ lens.flatMap (fun ls => (upto 128).map (fun k => BitVec.ofNat 8 (ls.getD (2 * k) 0 + 16 * ls.getD (2 * k + 1) 0)))

end Sys2Proof.Machine
end

