-- ==== Sys2Proof/Machine/Trace.lean ====
section
/-! DEFINITION. What a hardware unit leaves behind of its work (21): event and context counters, cairn entries and the trace records of a die's stream;
the choice of the unit that runs a piece of work (01, 19), and the wake of its domain (18). -/

namespace Sys2Proof.Machine

/-! ### Event and context counters (R793 to R799) -/

/-- Occurrences added to a count of 48 bits, and whether it passes its end (R801). -/
def countTo (value n : Nat) : Nat × Bool := ((value + n) % 281474976710656, decide (281474976710656 ≤ value + n))

/-- An event counter takes `n` occurrences; in EDGE mode they are one episode (R794). -/
def EvCounter.take (c : EvCounter) (n : Nat) : EvCounter :=
  let x := countTo c.value (if c.edge then min 1 n else n)
  { c with value := x.1, wrap := c.wrap || x.2 }

/-- A context counter that points at the event takes them in the event's mode (R797). -/
def CtxCounter.take (q : CtxCounter) (e n : Nat) : CtxCounter :=
  if q.en ∧ q.event = e then
    let x := countTo q.value n
    { q with value := x.1, wrap := q.wrap || x.2 }
  else q

/-- Count `n` on an event of a unit (R793, R794); the context's own counters that name it count too (R797). Nothing counts while counters are
frozen (R804). -/
def State.event (s : State) (hw idx n : Nat) (ctx : Option Nat) : State :=
  let e := hw * 8 + idx
  let c := Tab.getD s.obs.events e { value := 0, wrap := false, edge := false, busy := false }
  let own (x : Nat) : Tab Context := Tab.modify s.bci.contexts x (fun k =>
    { k with ctrs := k.ctrs.map (fun q => (q.1, q.2.take e (if c.edge then min 1 n else n))) })
  { s with
    obs.events := if s.obs.frozen || decide (n = 0) then s.obs.events else Tab.set s.obs.events e (c.take n)
    bci.contexts := match ctx with
      | none => s.bci.contexts
      | some x => if s.obs.frozen then s.bci.contexts else own x }

/-- A start of work of a context on a unit zeroes its counters with RESET_ON_START (R799). -/
def State.startCounters (s : State) (hw ctx : Nat) : State :=
  { s with bci.contexts := Tab.modify s.bci.contexts ctx (fun k =>
      { k with ctrs := k.ctrs.map (fun q => if q.2.ros ∧ q.2.event / 8 = hw then (q.1, { q.2 with value := 0, wrap := false }) else q) }) }

/-! ### The records of a stream (R815 to R825) -/

/-- A LOSS record of a stream (R819). -/
def lossWords (die seq now : Nat) (l : TraceLoss) : List Word :=
  [BitVec.ofNat 32 (3 + 1024 * die), BitVec.ofNat 32 seq] ++ two now ++ [BitVec.ofNat 32 l.first, BitVec.ofNat 32 l.count, 0, 0]

/-- A destination's gap with one more record of a stream dropped (R819). -/
def lossMore (t : Tab TraceLoss) (die seq : Nat) : Tab TraceLoss :=
  Tab.set t die (match Tab.get? t die with
    | some l => { l with count := min 4294967295 (l.count + 1) }
    | none => { first := seq, count := 1 })

/-- A record that the T1 ring loses (R819, TRC_DROPS). -/
def Trace.drop (t : Trace) (die seq : Nat) : Trace := { t with loss := lossMore t.loss die seq, drops := min 4294967295 (t.drops + 1) }

/-- The bytes of a stream's records that wait for the ring. -/
def Trace.waiting (t : Trace) (die : Nat) : Nat := ((t.queue.filter (fun e => decide (e.1 / 4294967296 = die))).map (fun e => e.2.length * 4)).sum

/-- Send a record to the export session, after the LOSS record that ends a gap, or drop it while the session is down (R819, R823, R824). -/
def Trace.send (t : Trace) (up : Bool) (die seq now : Nat) (ws : List Word) : Trace × List Out :=
  match t.session with
  | none => ({ t with xloss := lossMore t.xloss die seq }, [])
  | some m =>
    if up then
      ({ t with xloss := Tab.erase t.xloss die }, .mgmt m 2 (ws.map BitVec.toNat) ::
        match Tab.get? t.xloss die with
        | some l => [.mgmt m 2 ((lossWords die seq now l).map BitVec.toNat)]
        | none => [])
    else ({ t with xloss := lossMore t.xloss die seq }, [])

/-- A record of a type is generated on a die's stream, if trace is on and its type enabled and its unit selected (R815 to R817): the trace after it, and what
export sends. The ring's part waits until the trace unit writes it (DESIGN CHOICE, log 22: as time passes, and before a TRC_SET takes effect);
in bivouac it waits in the AON buffer of 64 KiB per stream (R822). -/
def Trace.record (t : Trace) (selected up bivouac : Bool) (now die typ slots time : Nat) (body : List Word) : Trace × List Out :=
  if decide (t.dest = 0) || !bitAt t.types typ || !selected then (t, [])
  else
    let seq := Tab.getD t.seqs die 0
    let ws := ([BitVec.ofNat 32 (typ + 256 * (slots - 1) + 1024 * die), BitVec.ofNat 32 seq] ++ two time ++ body ++ List.replicate 32 0).take (8 * slots)
    let t1 : Trace := { t with seqs := Tab.set t.seqs die ((seq + 1) % 4294967296) }
    let t2 : Trace :=
      if bitAt t.dest 0 then
        if bivouac && decide (65536 < t.waiting die + slots * 32) then t1.drop die seq
        else { t1 with queue := t.queue ++ [(die * 4294967296 + seq, ws)] }
      else t1
    if bitAt t.dest 1 then t2.send up die seq now ws else (t2, [])

/-- Is the management session that takes the export up (R823)? -/
def State.exportUp (s : State) : Bool :=
  match s.obs.trace.session with
  | some m => s.sec.peers.any (fun e => decide (e.peer = .mgmt m) && e.session)
  | none => false

/-- Generate a trace record of a type on a die's stream, where the unit it is about is selected (R815 to R825). -/
def State.traceFor (s : State) (selected : Bool) (die typ slots time : Nat) (body : List Word) : State :=
  let x := s.obs.trace.record selected s.exportUp s.pow.bivouac s.now die typ slots time body
  { s with obs.trace := x.1, out := x.2 ++ s.out }

/-- Generate a trace record that no unit has to be selected for. -/
def State.traceGen (s : State) (die typ slots time : Nat) (body : List Word) : State := s.traceFor true die typ slots time body

/-! ### Cairn rings (R810 to R813) -/

/-- A cairn entry of a unit with its time (R810, R811), with the EVENT record of a selected unit (R816, R817); none after fail-stop
(R813). -/
def State.cairnAt (s : State) (hw code ctx payload time : Nat) : State :=
  if s.rel.failCause.isSome then s
  else
    State.traceFor
      { s with
        obs.cairns := Tab.set s.obs.cairns hw ((({ time := time, code := code, ctx := ctx, payload := payload } : Cairn) :: Tab.getD s.obs.cairns hw []).take 64)
        obs.writes := Tab.set s.obs.writes hw (Tab.getD s.obs.writes hw 0 + 1) }
      (bitAt s.obs.trace.mask hw) (hw / 256) 1 1 time [BitVec.ofNat 32 hw, BitVec.ofNat 32 (code + 65536 * ctx), BitVec.ofNat 32 payload]

/-- A cairn entry of this moment. -/
def State.cairn (s : State) (hw code ctx payload : Nat) : State := s.cairnAt hw code ctx payload s.now

/-- A unit records the gap in its clock: two cairn entries and a trace record of a selected unit (R718, R816, R817). -/
def State.clockGap (s : State) (hw cause start stop : Nat) : State :=
  State.traceFor ((s.cairnAt hw 1 0 cause start).cairnAt hw 2 0 cause stop) (bitAt s.obs.trace.mask hw) (hw / 256) 2 2 s.now
    ([BitVec.ofNat 32 (hw + 512 * cause)] ++ two start ++ two stop)

/-! ### Units and their work -/

/-- A unit without history. -/
def UnitRec.fresh : UnitRec := { quarantined := false, asked := false, repairs := 0, bins := [], onSince := 0, lastKat := 0, errTimes := [] }

/-- A unit's record. -/
def State.unit (s : State) (hw : Nat) : UnitRec := Tab.getD s.rel.units hw UnitRec.fresh

/-- Is every unit of a kind, `n` offsets from `lo` on each die, quarantined (R765)? -/
def State.noneInService (s : State) (lo n : Nat) : Bool :=
  (upto n).all (fun k => (s.unit (lo + k)).quarantined && (s.unit (256 + lo + k)).quarantined)

/-- A unit of a kind that a command does not name: the controller's choice, which may differ from one access to the next (R869). -/
def anyUnit (k : Nat) : Nat := Config.unitOf k % 512

/-- A unit of a kind of which each die has `n`, from offset `lo` on (R791, R869). -/
def unitAmong (lo n k : Nat) : Nat := Config.unitOf k % (2 * n) / n * 256 + lo + Config.unitOf k % n

/-- The unit that runs a piece of work of a number: one of its kind in service (R765, R869). -/
def State.pickUnit (s : State) (lo n id : Nat) : Nat :=
  let us := ((upto n).map (lo + ·) ++ (upto n).map (256 + lo + ·)).filter (fun hw => !(s.unit hw).quarantined)
  us.getD (Config.workUnit s.now id % us.length) lo

/-- The unit of an engine of a Slaica core (R791); control and the front end's own work belong to the front end. -/
def coreUnit (core engine : Nat) : Nat := core / 2 * 256 + core % 2 * 4 + (if engine < 4 then engine else 0)

/-- The unit of an LMF port (R791). -/
def lmfUnit (p : Nat) : Nat := p / 16 * 256 + 78 + p % 16

/-- The directory slice of a line: its die by the set it falls in (R280), and one of the die's four (DESIGN CHOICE, log 22). -/
def dirUnit (ln : Nat) : Nat := let set := Config.dirSet (ln * 64) % 8388608; set / 4194304 * 256 + 0x4A + set % 4

/-- The unit of the link of a drive slot: three links on each die, two slots on each (01, R791). -/
def driveUnit (slot : Nat) : Nat := slot / 6 * 256 + 0x42 + slot % 6 / 2

/-- The unit that serves a part of a layer, by its LOC (R722, R791): the HBM3E stack of a pseudo-channel, the channel of a DIMM, or a drive's link. -/
def layerUnit (layer loc : Nat) : Nat :=
  match layer with
  | 1 => loc % 8 / 4 * 256 + 0x32 + loc % 4
  | 2 => loc % 16 / 8 * 256 + 0x3A + loc % 8
  | _ => driveUnit loc

/-- An event of Strata, on the die that handles it (R796, R869). -/
def State.strataEvent (s : State) (idx n : Nat) : State := s.event (s.pickUnit 0x45 1 s.freeCtr) idx n none

/-- Which event of its unit an error of a class is (R796): corrected and uncorrectable errors of memory parts and most other units, corrected SRAM errors of
Slaica engines and Talus groups, and ends with ST_CORRUPT of these. -/
def errorEvent (hw cls : Nat) : Option Nat :=
  let o := hw % 256
  if o < 8 then (if cls = 1 then some 7 else none)
  else if o < 0x30 then (if cls = 1 then some 7 else if cls = 4 then some 5 else none)
  else if o = 0x45 ∨ 0x46 ≤ o ∧ o < 0x60 ∨ o = 0x62 then none
  else if cls = 1 then some 3 else if 2 ≤ cls ∧ cls ≤ 4 then some 4 else none

/-- Count an error of a class on its unit. -/
def State.errorCount (s : State) (hw cls : Nat) : State := s.event hw ((errorEvent hw cls).getD 0) (b2n (errorEvent hw cls).isSome) none

/-- What a wake event does to a domain (R692, R693): the wake starts, or an entry under way is abandoned; one whose clock still runs stays ON. -/
def DomEntry.woken (e : DomEntry) : DomEntry :=
  match e.st with
  | .on => e
  | .waking => e
  | .entering _ => { e with st := if e.cause = 0 then .on else .waking }
  | .gated => { e with st := .waking }
  | .off => { e with st := .waking }

/-- A wake event for each domain of a kind. -/
def State.wakeWhere (s : State) (f : Domain → Bool) : State :=
  { s with pow.doms := s.pow.doms.map (fun (e : DomEntry) => if f e.dom then e.woken else e) }

/-- A wake event for a domain. -/
def State.wakeDomain (s : State) (d : Domain) : State := s.wakeWhere (fun x => decide (x = d))

/-- Is a unit in an engine domain that its work wakes (R688, R692)? A core's wakes with the dispatch. -/
def workWakes (hw : Nat) (d : Domain) : Bool :=
  match d with
  | .talus x => decide (hw / 256 = x ∧ 8 ≤ hw % 256 ∧ hw % 256 < 0x32)
  | .trv n => decide (hw = n / 2 * 256 + 0x46 + n % 2)
  | .mor n => decide (hw = n / 2 * 256 + 0x48 + n % 2)
  | _ => false

/-- The context whose own counters count work of an issuer: one of this controller's (R797). -/
def State.ownCtx (s : State) (eid ctx : Nat) : Option Nat := if eid = s.lmf.eid then some ctx else none

/-- A unit starts a piece of work of an issuer (R692, R799, R811): OBJ names the work as R580 gives for its kind. -/
def State.workStart (s : State) (hw eid ctx obj : Nat) : State :=
  let s := s.wakeWhere (workWakes hw)
  (if eid = s.lmf.eid then s.startCounters hw ctx else s).cairn hw 0x10 ctx obj

/-- A core starts a kernel or a micro-batch: its engines' counters start anew, and the front end records the start (R799, R811). -/
def State.coreStart (s : State) (core ctx obj : Nat) : State :=
  ((upto 4).foldl (fun (s : State) e => s.startCounters (coreUnit core e) ctx) s).workStart (coreUnit core 0) s.lmf.eid ctx obj

/-- A unit ends a piece of work with a status, and an exception code for a kernel (R811). -/
def State.workEnd (s : State) (hw ctx : Nat) (st : Status) (exc : Nat) : State := s.cairn hw 0x11 ctx (st.code + 65536 * exc)

/-- The work that stalled on a fault record goes on (R811). -/
def State.workResume (s : State) (f : FaultRec) : State := f.units.foldl (fun (s : State) e => s.cairn e.1 0x13 e.2 f.seq) s

end Sys2Proof.Machine
end

