-- ==== Sys2Proof/Machine/Ops.lean ====
section
/-! DEFINITION. The home's shared operations: checks of keys and grants (02), pages and their versions (02, 05), heat and placement (03), reads, shadowed writes and direct updates (05). -/

namespace Sys2Proof.Machine

/-- A held command as it is performed again; one that waited for a place in a write hold buffer begins anew. -/
def Held.again (h : Held) : Again :=
  { cmd := h.cmd, since := (match h.why with | .buffer _ => none | _ => some h.since), id := h.id, eid := h.eid, ctx := h.ctx, why := h.why,
    retry := h.retry, got := h.got }

/-- End holds: the commands run again, in the order they were held. -/
def State.release (s : State) (f : HoldWhy → Bool) : State :=
  { s with
    resume := s.resume ++ (s.home.held.filter (fun h => f h.why)).map Held.again
    home.held := s.home.held.filter (fun (h : Held) => !f h.why) }

/-- No right. -/
def Rights.none : Rights := { r := false, w := false, a := false, p := false, e := false }
/-- The rights of 02, one each. -/
def needR : Rights := { Rights.none with r := true }
/-- The W right. -/
def needW : Rights := { Rights.none with w := true }
/-- The A right. -/
def needA : Rights := { Rights.none with a := true }
/-- The P right. -/
def needP : Rights := { Rights.none with p := true }
/-- The E right. -/
def needE : Rights := { Rights.none with e := true }

/-- Both sets of rights. -/
def Rights.or (a b : Rights) : Rights :=
  { r := a.r || b.r, w := a.w || b.w, a := a.a || b.a, p := a.p || b.p, e := a.e || b.e }

/-- Does `h` hold every right of `n`? -/
def Rights.covers (h n : Rights) : Bool := (h.r || !n.r) && (h.w || !n.w) && (h.a || !n.a) && (h.p || !n.p) && (h.e || !n.e)

/-- The rights as a journalled grant carries them: R, W, A, P, E in bits 0 to 4. -/
def Rights.bits (h : Rights) : Nat := b2n h.r + 2 * b2n h.w + 4 * b2n h.a + 8 * b2n h.p + 16 * b2n h.e

/-- Is there any right left? -/
def Rights.some? (h : Rights) : Bool := h.r || h.w || h.a || h.p || h.e

/-- The rights a region's grant list gives an issuer (R62, R66). -/
def Region.rightsOf (r : Region) (eid ctx : Nat) : Rights :=
  r.grants.foldl (fun acc g => if g.eid = eid ∧ (g.any = true ∨ g.ctx = ctx) then acc.or g.rights else acc) Rights.none

/-- A region by its table key. -/
def State.region? (s : State) (rid : Nat) : Option Region := Tab.get? s.home.regions rid

/-- Replace a region. -/
def State.setRegion (s : State) (rid : Nat) (r : Region) : State := { s with home := { s.home with regions := Tab.set s.home.regions rid r } }

/-- Is this one of the controller's own EIDs (R43, R749)? EIDs 0 and 0x3FFFF are no endpoint's (R41). -/
def State.isOwn (s : State) (eid : Nat) : Bool := decide (eid = s.lmf.eid) || s.rel.adopted.contains eid

/-- The table key of a region key at a home EID: its own index, or an adopted EID's table kept apart (R749). -/
def State.ridOf (s : State) (eid key : Nat) : Nat := if eid = s.lmf.eid then keyIdx key else eid * 65536 + keyIdx key

/-- The key that names a region now. -/
def State.keyOf (s : State) (rid : Nat) : Nat :=
  match s.region? rid with
  | some r => mkKey (rid % 65536) r.gen
  | none => 0

/-- The ACTIVE region a key names at a home, with a matching generation (R62, R56). -/
def State.live (s : State) (eid key : Nat) : Option (Nat × Region) :=
  match s.region? (s.ridOf eid key) with
  | some r => if r.gen = keyGen key ∧ keyGen key ≠ 0 ∧ r.draining = false then some (s.ridOf eid key, r) else none
  | none => none

/-- Does a range lie inside a region? -/
def Region.inside (r : Region) (off n : Nat) : Bool := decide (r.base ≤ off) && decide (off + n ≤ r.base + r.size)

/-- Is the issuer's grant effective: on an encrypted region only with a secured session (R784)? -/
def State.sealed (s : State) (r : Region) (eid : Nat) : Bool :=
  !r.encrypt || decide (eid = s.lmf.eid) || s.sec.secured.any (fun e => decide (e.1 = eid))

/-- R62: the region an access reaches, if the key names an ACTIVE region, the range lies in it and the issuer holds every
right it needs. -/
def State.permit (s : State) (home key off n : Nat) (need : Rights) (i : Issuer) : Option (Nat × Region) :=
  match s.live home key with
  | some (rid, r) =>
    if r.inside off n && (i.admin || ((r.rightsOf i.eid i.ctx).covers need && s.sealed r i.eid)) then some (rid, r) else none
  | none => none

/-- The translation entry of a page (R70): an entry never made is absent of the kind of CREATE (R59). -/
def Region.entry (r : Region) (p : Nat) : Entry := Tab.getD r.entries p (if r.absent0 then .fault else .zero)

/-- The page handle an entry gives a page (R71). -/
def Entry.handle? (e : Entry) (p : Nat) : Option Nat :=
  match e with
  | .leaf h _ st _ => some (h + (p - st))
  | _ => none

/-- Is the entry a read-only leaf (R75)? -/
def Entry.isRo : Entry → Bool
  | .leaf _ ro _ _ => ro
  | _ => false

/-- The handle of a page of a region. -/
def Region.handleOf (r : Region) (p : Nat) : Option Nat := (r.entry p).handle? p

/-- The tier page a reference names. -/
def State.page? (s : State) (ref : PageRef) : Option TierPage :=
  match ref with
  | .pub h => (Tab.get? s.home.pages h).map Handle.pub
  | .shadow h e c =>
    match Tab.get? s.home.pages h with
    | some hd => (hd.shadows.find? (fun w => decide (w.eid = e ∧ w.ctx = c))).map Shadow.page
    | none => none
  | .old h v =>
    match Tab.get? s.home.pages h with
    | some hd => (hd.olds.find? (fun o => decide (o.1 = v))).map Prod.snd
    | none => none

/-- The handle of a reference. -/
def refHandle : PageRef → Nat
  | .pub h => h
  | .shadow h _ _ => h
  | .old h _ => h

/-- Change the tier page a reference names. -/
def Handle.modify (hd : Handle) (ref : PageRef) (f : TierPage → TierPage) : Handle :=
  match ref with
  | .pub _ => { hd with pub := f hd.pub }
  | .shadow _ e c => { hd with shadows := hd.shadows.map (fun w => if w.eid = e ∧ w.ctx = c then { w with page := f w.page } else w) }
  | .old _ v => { hd with olds := hd.olds.map (fun o => if o.1 = v then (o.1, f o.2) else o) }

/-- Replace the handle table. -/
def State.setPages (s : State) (t : Tab Handle) : State := { s with home := { s.home with pages := t } }

/-- Change the tier page a reference names in the state. -/
def State.modPage (s : State) (ref : PageRef) (f : TierPage → TierPage) : State :=
  s.setPages (Tab.modify s.home.pages (refHandle ref) (fun hd => hd.modify ref f))

/-- Every tier page with its reference (R112). -/
def State.allPages (s : State) : List (PageRef × TierPage) :=
  s.home.pages.flatMap (fun e =>
    (PageRef.pub e.1, e.2.pub) :: (e.2.shadows.map (fun w => (PageRef.shadow e.1 w.eid w.ctx, w.page))
      ++ e.2.olds.map (fun o => (PageRef.old e.1 o.1, o.2))))

/-- The region of a handle. -/
def State.regionOfRef (s : State) (ref : PageRef) : Option Region :=
  match Tab.get? s.home.pages (refHandle ref) with
  | some hd => s.region? hd.rid
  | none => none

/-- The tier policy a page is placed by: a PIN_T0 region's shadow pages and old versions are placed as AUTO (R121). -/
def State.placeOf (s : State) (ref : PageRef) : Place :=
  match s.regionOfRef ref with
  | some r =>
    match r.policy.place, ref with
    | .pinT0, .pub _ => .pinT0
    | .pinT0, _ => .auto
    | p, _ => p
  | none => .auto

/-- The half-life in force in ns: a change waits for a boundary of the new H (R131). -/
def State.halfLifeNs (s : State) : Nat :=
  match s.strata.nextHalfLife with
  | some (h, t) => if t ≤ s.now then h * 1000000 else s.strata.halfLife * 1000000
  | none => s.strata.halfLife * 1000000

/-- The heat period number (R119). -/
def State.period (s : State) : Nat := s.now / max 1 s.halfLifeNs

/-- Decay a counter to a period (R119). -/
def TierPage.decay (p : TierPage) (period : Nat) : TierPage :=
  { p with heat := p.heat / 2 ^ min 8 ((period % 65536 + 65536 - p.stamp) % 65536), stamp := period % 65536 }

/-- Count an access: decay, then add the increment for each 4 KiB block, and note the touch in µs (R119, R120, R132). -/
def TierPage.touched (p : TierPage) (period inc events now : Nat) : TierPage :=
  let d := p.decay period
  { d with heat := min 255 (d.heat + inc * events), touch := now / 1000 }

/-- T0 pages in use. -/
def State.t0Used (s : State) : Nat := (s.allPages.filter (fun e => decide (e.2.t0 ≠ .none))).length

/-- The T0 page pool in tier pages (R98). -/
def t0Pool : Nat := 4456448

/-- Pages with their backing copy in T1. -/
def State.t1Used (s : State) : Nat := (s.allPages.filter (fun e => decide (e.2.backing = .t1))).length

/-- Pages with their backing copy in T2. -/
def State.t2Used (s : State) : Nat := (s.allPages.filter (fun e => decide (e.2.backing = .t2))).length

/-- The bytes reserved for a dirty T0 copy: an image with every slot stored (R160). -/
def dirtyBytes : Nat := 65792

/-- The bytes a page takes in its backing tier (R114, R160): the reservation while its T0 copy is dirty, else its image's size. -/
def TierPage.footprint (p : TierPage) : Nat :=
  if p.t0 = .dirty then dirtyBytes else match p.image with | some im => 64 * im.units | none => dirtyBytes

/-- The bytes of T1 that the source of a move still holds until it is retired (R138). -/
def TierPage.t1Source (p : TierPage) : Nat :=
  match p.move with
  | some m =>
    (match m.retiring, m.kind, m.image with
     | true, .toT2, some im => 64 * im.units
     | true, .writeBack, some im => if p.backing = .t1 then 64 * im.units else 0
     | _, _, _ => 0)
  | none => 0

/-- The bytes of T1 in use or reserved, with the page map of 16 bytes for each tier page (R114, log 7). -/
def State.t1Bytes (s : State) : Nat :=
  ((s.allPages.map (fun e => (if e.2.backing = .t1 then e.2.footprint else 0) + e.2.t1Source + 16))).sum

/-- The bytes of T2 that hold the images of pages. -/
def State.t2Live (s : State) : Nat :=
  ((s.allPages.map (fun e => if e.2.backing = .t2 then (match e.2.image with | some im => 64 * im.units | none => dirtyBytes) else 0))).sum

/-- The bytes of T2 in use or reserved: what has been written and not reclaimed (R106), and the reservations of dirty T0 copies (R160). -/
def State.t2Bytes (s : State) : Nat :=
  max s.strata.t2Written s.t2Live
    + dirtyBytes * (s.allPages.filter (fun e => decide (e.2.backing = .t2) && decide (e.2.t0 = .dirty))).length

/-- The capacity of T1 in bytes. -/
def State.t1Cap (s : State) : Nat := s.strata.t1Pages * 65536

/-- The capacity of T2 in bytes. -/
def State.t2Cap (s : State) : Nat := s.strata.t2Pages * 65536

/-- The free bytes of T1. -/
def State.t1Free (s : State) : Nat := s.t1Cap - s.t1Bytes

/-- The tier pages that may still be allocated in T1: each takes a reservation and 16 bytes of page map (R114). -/
def State.t1Room (s : State) : Nat := s.t1Free / (dirtyBytes + 16)

/-- The tier pages that may still be allocated in T2. -/
def State.t2Room (s : State) : Nat := (s.t2Cap - s.t2Bytes) / dirtyBytes

/-- The floor of a context (R122). -/
def State.floorOf (s : State) (ctx : Nat) : Nat :=
  match Tab.get? s.bci.contexts ctx with
  | some c => c.floor
  | none => 0

/-- T0 copies charged to a context that its floor counts: those of AUTO, PIN_T1 and STREAM pages (R122). -/
def State.floorUse (s : State) (ctx : Nat) : Nat :=
  (s.allPages.filter (fun e => decide (e.2.t0 ≠ .none) && decide (e.2.charge = ctx) &&
    (match s.placeOf e.1 with | .pinT0 => false | .t0Only => false | _ => true))).length

/-- May Strata take this T0 copy as a victim (R123 step 1)? -/
def State.evictable (s : State) (e : PageRef × TierPage) : Bool :=
  decide (e.2.t0 ≠ .none) && decide (e.2.backing ≠ .none) &&
  (match s.placeOf e.1 with | .pinT0 => false | .t0Only => false | _ => true) &&
  (match e.2.move with | some m => (match m.kind with | .fill => false | .toT0Only => false | _ => true) | none => true) &&
  decide (s.floorOf e.2.charge < s.floorUse e.2.charge)

/-- The order of R123: oldest last touch, then clean before dirty, then the lower handle. -/
def victimBefore (a b : PageRef × TierPage) : Bool :=
  if a.2.touch ≠ b.2.touch then decide (a.2.touch < b.2.touch)
  else if a.2.t0 ≠ b.2.t0 then decide (a.2.t0 = .clean)
  else decide (refHandle a.1 < refHandle b.1)

/-- The T0 victim of R123. -/
def State.victim (s : State) : Option (PageRef × TierPage) :=
  (s.allPages.filter s.evictable).foldl
    (fun best e => match best with | none => some e | some b => if victimBefore e b then some e else some b) none

/-- The bytes of a place for a TL copy: an image with every slot stored, and its seal block (R171). -/
def tlPlace : Nat := 66112

/-- An ACTIVE lent extent with room for one more TL copy (R133, R171); of several, the first by number (DESIGN CHOICE, log 16). -/
def State.lentExtent (s : State) : Option Nat :=
  (s.strata.extents.find? (fun e => decide (e.2.st = .active) &&
    decide (((s.allPages.filter (fun p => decide (p.2.tl = some e.1))).length + 1) * tlPlace ≤ e.2.gib * 1073741824))).map Prod.fst

/-- TL copies are placed for AUTO and PIN_T1 pages only (R832 N15). -/
def Place.lentOk : Place → Bool
  | .auto => true
  | .pinT1 => true
  | _ => false

/-! ### Images -/

/-- The lowest key from `n` up that a list of keys, rising, does not hold. -/
def lowestFree : List Nat → Nat → Nat
  | [], n => n
  | k :: t, n => if k = n then lowestFree t (n + 1) else if k < n then lowestFree t n else n

/-- Is a drain of T1 running (R145)? -/
def State.drainingT1 (s : State) : Bool := s.bci.ops.any (fun o => decide (o.kind = .drainT1) && decide (o.st = 0))

/-- The version, and the writer index of a shadow page, that the tweak of a page's image carries (R168, N2). -/
def State.tweakOf (s : State) (ref : PageRef) : Nat :=
  match Tab.get? s.home.pages (refHandle ref), s.regionOfRef ref with
  | some hd, some r =>
    let v (n : Nat) : Nat := if r.mode = .publish then n else 0
    match ref with
    | .pub _ => pageTweak hd.pageNo (v hd.ver) none
    | .shadow _ e c =>
      (match hd.shadows.find? (fun w => decide (w.eid = e ∧ w.ctx = c)) with
       | some w => pageTweak hd.pageNo (v w.base) (some w.widx)
       | none => pageTweak hd.pageNo 0 none)
    | .old _ n => pageTweak hd.pageNo (v n) none
  | _, _ => 0

/-- The CURRENT table of a region, with its code lengths. -/
def State.tableOf (s : State) (r : Region) : Option (Nat × List (List Nat)) :=
  match r.table with
  | some id => (Tab.get? s.strata.tables id).map (fun t => (id, t.lens))
  | none => none

/-- Images that name a table (R162): in T1 or T2, being written or retired, and in TL. -/
def State.tableRefs (s : State) (id : Nat) : Nat :=
  let names (im : Option Image) : Bool := match im with | some im => im.tv && decide (im.tableId = id) | none => false
  (s.allPages.filter (fun e => names e.2.image)).length
    + (s.allPages.filter (fun e => match e.2.move with | some m => names m.image | none => false)).length
    + (s.allPages.filter (fun e => match e.2.tlCopy with | some c => e.2.tl.isSome && decide (c.tableId = some id) | none => false)).length

/-- Count the references of each table again, and free the HELD ones that have none (R161 to R163); with it goes its sealed copy. -/
def State.sweepTables (s : State) : State :=
  let counted := s.strata.tables.map (fun (e : Nat × TalusTable) => (e.1, { e.2 with refs := s.tableRefs e.1 }))
  let kept := counted.filter (fun (e : Nat × TalusTable) => e.2.current || decide (e.2.refs ≠ 0))
  { s with strata.tables := kept, strata.tableT2 := s.strata.tableT2.filter (fun e => Tab.has kept e.1) }

/-- Choose the table for a page group (R155 to R157): the region's current one, or a new one that is installed; none codes
every slot in stored or zero mode. Of two LANES values with equal estimates the smaller is taken, and a new table takes the lowest FREE ID
(DESIGN CHOICE, log 29). A group of a region that is DRAINING installs no CURRENT table (R161). -/
def State.chooseTable (s : State) (rid : Nat) (r : Region) (bytes : Bytes) : State × Option (Nat × List (List Nat)) :=
  if !r.talus then (s, none)
  else
    let cand (n : Nat) : List (List Nat) × Nat :=
      let h := histogram n bytes
      let t := builtLens n h
      (t, estimate t h)
    let best := [cand 2, cand 4].foldl (fun b c => if c.2 < b.2 then c else b) (cand 1)
    let cur := s.tableOf r
    let keep : Bool := match cur with
      | some t => decide (estimate t.2 (histogram (max 1 t.2.length) bytes) * 32 ≤ best.2 * 33)
      | none => false
    if keep then (s, cur)
    else
      let id := lowestFree (Tab.keys s.strata.tables) 0
      if 4096 ≤ id then (s, cur)
      else
        let held := s.strata.tables.map (fun (e : Nat × TalusTable) => if e.2.rid = rid then (e.1, { e.2 with current := false }) else e)
        let t : TalusTable := { current := !r.draining, rid := rid, lanes := best.1.length, lens := best.1, refs := 0 }
        (State.event { s with
            strata.tables := Tab.set held id t
            strata.tableT2 := if s.strata.t2Pages = 0 then s.strata.tableT2 else Tab.set s.strata.tableT2 id (Config.persistSeal s.persistKey (tableBytes id best.1))
            home.regions := Tab.set s.home.regions rid { r with table := if r.draining then none else some id } } (s.pickUnit 0x30 1 id) 1 1 none, some (id, best.1))

/-- The image of a page for a backing tier (R166), and the slots that fell back to stored mode. -/
def State.imageFor (s : State) (r : Region) (ref : PageRef) (b : Backing) (table : Option (Nat × List (List Nat))) (p : TierPage) : Image × Nat :=
  let atRest := decide (b = .t2) && !r.encrypt
  codeImage table (if r.encrypt then r.dkey else s.sec.atRest) (s.tweakOf ref) (r.encrypt || decide (b = .t2)) atRest (Mem.readN p.bytes 0 65536)

/-! ### T2 stripes and NVM commands (R104 to R106) -/

/-- The drives of the erasure group (R97, R102). -/
def State.group (s : State) : List (Nat × Drive) := s.strata.drives.filter (fun e => e.2.admitted && !e.2.spare)

/-- The most T2 commands outstanding across all drives, and the most on one: 8 queue pairs of depth 256 (R105). -/
def nvmeLimit : Nat := 16384
/-- The commands of one drive's 8 queue pairs, each of which holds one less than its depth. -/
def driveLimit : Nat := 2040

/-- T2 commands outstanding across all drives. -/
def State.nvmeBusy (s : State) : Nat := (s.strata.drives.map (fun e => e.2.busy)).sum

/-- The queue pair a drive's next I/O command goes to: the next of those it has. -/
def Drive.queue (d : Drive) : Nat := d.busy % max 1 d.queues + 1

/-- Issue one I/O command to a drive (R104, R105); where the limits leave no place, the commands outstanding complete first (DESIGN CHOICE,
log 36). A drive without a queue pair takes none. -/
def State.nvmeIo (s : State) (slot : Nat) (op : NvmeOp) (lba n : Nat) : State :=
  match Tab.get? s.strata.drives slot with
  | none => s
  | some d0 =>
    if d0.queues = 0 then s
    else
      let full := decide (nvmeLimit ≤ s.nvmeBusy) || decide (driveLimit ≤ d0.busy)
      let ds : Tab Drive := if full then s.strata.drives.map (fun e => (e.1, { e.2 with busy := 0 })) else s.strata.drives
      let d := if full then { d0 with busy := 0 } else d0
      let s := s.event (driveUnit slot) (if op = .write then 2 else 1) (if op = .write ∨ op = .read then n * 4096 else 0) none
      ({ s with strata.drives := Tab.set ds slot { d with busy := d.busy + 1 } }).emit (.nvme slot d.queue op lba n)

/-- Issue one I/O command to each member of the group that serves. -/
def State.nvmeAll (s : State) (op : NvmeOp) (lba n : Nat) : State :=
  (s.group.filter (fun e => !e.2.failed)).foldl (fun (s : State) e => s.nvmeIo e.1 op lba n) s

/-- The data bytes of a stripe: N − 2 strips of 128 KiB (R106). -/
def State.stripeBytes (s : State) : Nat := (s.group.length - 2) * 131072

/-- Write whole stripes while the open one is full: a strip of 32 blocks on every member (R106). -/
def State.stripesOut (s : State) : Nat → State
  | 0 => s
  | n + 1 =>
    if s.stripeBytes ≠ 0 ∧ s.stripeBytes ≤ s.strata.stripeFill then
      (State.nvmeAll { s with strata.stripeFill := s.strata.stripeFill - s.stripeBytes, strata.stripes := s.strata.stripes + 1 } .write
        (32 * s.strata.stripes) 32).stripesOut n
    else s

/-- An image is written to T2: packed at 64-byte granularity into the open stripe (R106, R160). -/
def State.t2Put (s : State) (im : Image) : State :=
  State.stripesOut { s with strata.t2Written := max s.strata.t2Written s.t2Live + 64 * im.units, strata.stripeFill := s.strata.stripeFill + 64 * im.units } 1

/-- A read of an image in T2: the header's and the slot's blocks, from the drive that holds them (R160, R869). -/
def State.t2Get (s : State) (ref : PageRef) : State :=
  match s.group.filter (fun e => !e.2.failed) with
  | [] => s
  | d :: ds =>
    let g := d :: ds
    let slot := (g.getD (Config.location (refHandle ref * 4 + 3) % g.length) d).1
    s.nvmeIo slot .read (Config.location (refHandle ref * 4)) 2

/-- Bytes of a page's T0 copy or T1 image that its memory controller reads (event 1) or writes (event 2), at the part that holds them (R796, R869). -/
def State.memEvent (s : State) (layer idx n : Nat) (ref : PageRef) : State :=
  s.event (layerUnit layer (Config.location ((refHandle ref * 4 + layer) * 18446744073709551616 + s.freeCtr))) idx n none

/-- An encoder group codes a page's image: what it leaves of its work (R796, R811). Its OBJ is 0 (DESIGN CHOICE, log 22: R580 gives page coding none). -/
def State.encoderRan (s : State) (ref : PageRef) (p : TierPage) (im : Image) : State :=
  let hw := s.pickUnit 0x28 8 (refHandle ref)
  let n (mode : Nat) : Nat := (im.slots.filter (fun x => decide (x.mode = mode))).length
  let s := ((s.cairn hw 0x10 p.charge 0).event hw 1 16 (some p.charge)).event hw 2 (64 * im.units) (some p.charge)
  ((s.event hw 3 (n 1) (some p.charge)).event hw 4 (n 2) none).workEnd hw p.charge .ok 0

/-- Code a page group of one region (R155 to R159), each page for the tier `b` gives it, and put its image where `place` says; the encoder's
counters take the slots (R796). -/
def State.encodeGroup (s : State) (rid : Nat) (refs : List PageRef) (b : TierPage → Backing) (place : Image → TierPage → TierPage) : State :=
  match s.region? rid with
  | none => s
  | some r =>
    let bytes := refs.flatMap (fun ref => match s.page? ref with | some p => Mem.readN p.bytes 0 65536 | none => [])
    let (s, table) := s.chooseTable rid r bytes
    State.sweepTables (refs.foldl (fun (s : State) ref =>
      match s.page? ref with
      | none => s
      | some p =>
        let (im, n) := s.imageFor r ref (b p) table p
        let s := ({ s with strata.storedFallback := s.strata.storedFallback + n }).modPage ref (place im)
        let s := if b p = .t2 then s.t2Put im else s.memEvent 2 2 (64 * im.units) ref
        s.encoderRan ref p im) s)

/-- Where a write-back of a page goes: a T1-backed page's goes to T2 while T1 drains (R145). -/
def State.backTo (s : State) (p : TierPage) : Backing := if p.backing = .t1 ∧ s.drainingT1 = true then .t2 else p.backing

/-- The backing copy takes a new image at a SWITCH, or in the step of one; the old image is what is left to retire (R138). -/
def TierPage.written (p : TierPage) (b : Backing) (im : Image) : TierPage :=
  { p with
    image := some im, backing := b, t0 := .clean, due := false
    move := match p.move with
      | some m => if m.kind = .writeBack then some { kind := .writeBack, retiring := true, image := p.image } else some m
      | none => some { kind := .writeBack, retiring := true, image := p.image } }

/-- Write a dirty T0 copy back within one step (R124): the whole move, up to its source's retirement. -/
def State.writeBackNow (s : State) (ref : PageRef) : State :=
  match s.page? ref, Tab.get? s.home.pages (refHandle ref) with
  | some _, some hd => (s.encodeGroup hd.rid [ref] s.backTo (fun im q => q.written (s.backTo q) im)).strataEvent 2 1
  | _, _ => s

/-- The TL fill that a clean victim which is warm may start (R134). -/
def State.tlMove (s : State) (e : PageRef × TierPage) : Option Move :=
  match s.regionOfRef e.1, s.lentExtent with
  | some r, some x =>
    if r.policy.lent && decide (e.2.t0 = .clean) && decide (s.strata.promoteT1 ≤ (e.2.decay s.period).heat) && e.2.tl.isNone
        && r.policy.place.lentOk then
      some { kind := .tlFill x, retiring := false } else none
  | _, _ => none

/-- Remove a victim's T0 copy: a clean one is dropped at once, a dirty one is written back first (R124); a clean victim that is warm
may start a TL fill (R134). -/
def State.evict (s : State) (e : PageRef × TierPage) : State :=
  ((if e.2.t0 = .dirty then s.writeBackNow e.1 else s).modPage e.1 (fun p => { p with
    t0 := .none, move := match p.move with | some m => some m | none => s.tlMove e })).strataEvent 1 1

/-- Make room for one T0 copy: a free page of the pool, or the victim of R123 (R126, R129). -/
def State.roomT0 (s : State) : State :=
  if s.t0Used < t0Pool then s else match s.victim with | some v => s.evict v | none => s

/-- Drop clean victims until `n` T0 pages have been freed; does a dirty victim come first, whose write-back an access has to wait for (R124)? -/
def State.dirtyFirst (s : State) : Nat → Bool
  | 0 => false
  | n + 1 => match s.victim with | some v => decide (v.2.t0 = .dirty) || (s.evict v).dirtyFirst n | none => false

/-- Must an access that needs `n` more T0 copies wait for the write-back of a victim (R124, R126, R129)? -/
def State.roomWait (s : State) (n : Nat) : Bool := s.dirtyFirst (s.t0Used + n - t0Pool)

/-- Begin the write-back of the victim an access waits for (R124); one whose last move's source is not yet retired waits for that. -/
def State.startEvict (s : State) : State :=
  match s.victim with
  | some v =>
    s.modPage v.1 (fun p =>
      match p.move with
      | some m => if m.retiring || m.evict then p else { p with move := some { kind := .writeBack, retiring := false, evict := true } }
      | none => { p with move := some { kind := .writeBack, retiring := false, evict := true } })
  | none => s

/-- Fill a T0 copy of a page that has none, as a write requires (R111): a fill under way reaches its SWITCH. -/
def State.fillT0 (s : State) (ref : PageRef) : State :=
  match s.page? ref with
  | some p =>
    if p.t0 = .none then
      ((if p.backing = .t2 ∧ p.tl = none then s.roomT0.t2Get ref else s.roomT0).modPage ref (fun p => { p with
        t0 := .clean
        move := match p.move with | some m => if m.kind = .fill then some { m with retiring := true } else some m | none => none })).strataEvent 6 1
    else s
  | none => s

/-- Is T1 below its low watermark, 4% of its capacity (R127)? -/
def State.t1BelowLow (s : State) : Bool := decide (s.t1Free * 100 < s.t1Cap * 4)

/-- The move that an access's heat starts: promotion to T0 (R125), T2 to T1 (R127), or a TL fill (R134). -/
def State.promotion (s : State) (ref : PageRef) (p : TierPage) : Option Move :=
  let place := s.placeOf ref
  let lent := match s.regionOfRef ref with | some r => r.policy.lent | none => false
  let room := decide (s.t0Used < t0Pool) ||
    (match s.victim with | some v => decide (v.2.touch * 1000 + s.strata.minAge * 1000000 ≤ s.now) | none => false)
  if p.move.isSome then p.move
  else if decide (p.t0 = .none) && decide (s.strata.promoteT0 ≤ p.heat) && decide (place ≠ .stream) && room then
    some { kind := .fill, retiring := false }
  else if decide (p.backing = .t2) && decide (s.strata.promoteT1 ≤ p.heat) && !s.t1BelowLow && !s.drainingT1 then
    some { kind := .toT1, retiring := false }
  else if decide (p.backing = .t2) && decide (s.strata.promoteT1 ≤ p.heat) && s.t1BelowLow && lent && p.tl.isNone && place.lentOk then
    match s.lentExtent with
    | some x => some { kind := .tlFill x, retiring := false }
    | none => none
  else none

/-- Count an access to a page and start the move its heat calls for. -/
def State.touch (s : State) (port : Bool) (ref : PageRef) (off n : Nat) : State :=
  let events := if n = 0 then 0 else (off + n - 1) / 4096 + 1 - off / 4096
  let s1 := s.modPage ref (fun p => p.touched s.period (if port then s.strata.incPort else s.strata.incEngine) events s.now)
  match s1.page? ref with
  | some p => s1.modPage ref (fun q => { q with move := s1.promotion ref p })
  | none => s1

/-- Pages that R121 counts: floors, PIN_T0 and T0_ONLY regions whole, shadow pages and pinned pages of T0_ONLY regions. -/
def State.r121 (s : State) : Nat :=
  (s.bci.contexts.map (fun c => c.2.floor)).sum
  + (s.home.regions.map (fun e => match e.2.policy.place with | .pinT0 => e.2.size / 65536 | .t0Only => e.2.size / 65536 | _ => 0)).sum
  + (s.home.pages.map (fun e => match s.region? e.2.rid with
      | some r => if r.policy.place = .t0Only then e.2.shadows.length else 0
      | none => 0)).sum
  + (s.home.pins.map (fun e => match s.region? e.2.rid with
      | some r => if r.policy.place = .t0Only then e.2.pages.length else 0
      | none => 0)).sum

/-- The limit of R121. -/
def r121Limit : Nat := 3899392

/-- The page handles there are: TARGET of a leaf has 40 bits (R70). -/
def maxHandles : Nat := 1099511627776

/-- Is there space to allocate `n` more tier pages in a region (R114, R121)? While T1 drains no new backing copy is placed in it (R143), but for a
PIN_T1 region, which has no other tier (DESIGN CHOICE, log 29). -/
def State.space (s : State) (r : Region) (n : Nat) (shadow : Bool) : Bool :=
  decide (s.home.nextHandle + n ≤ maxHandles) &&
  match r.policy.place with
  | .t0Only => if shadow then decide (s.r121 + n ≤ r121Limit) else true
  | .pinT1 => decide (n ≤ s.t1Room)
  | _ => decide (n ≤ (if s.drainingT1 then 0 else s.t1Room) + s.t2Room)

/-- The backing tier of a new page (R107): T1 while it has room, then T2; T1 again where both are full (DESIGN CHOICE, log 29). While T1 drains a
new copy goes to T2 (R143); a PIN_T1 region's goes to T1 all the same (DESIGN CHOICE, log 29). -/
def State.newBacking (s : State) (r : Region) : Backing :=
  match r.policy.place with
  | .t0Only => .none
  | .pinT1 => .t1
  | _ => if s.drainingT1 then .t2 else if 0 < s.t1Room then .t1 else if 0 < s.t2Room then .t2 else .t1

/-- The image of a page of zeros in a backing tier of a region (R146, R166). -/
def Region.zeroImage (r : Region) (b : Backing) (tweak : Nat) : Option Image :=
  match b with
  | .none => none
  | _ => some (Image.zero (r.encrypt || decide (b = .t2)) (decide (b = .t2) && !r.encrypt) tweak)

/-- A zero-filled tier page: in T1 or T2 as an image, or in T0 only; a PIN_T0 region's is filled (R115). -/
def TierPage.zero (b : Backing) (im : Option Image) (pin : Bool) (charge touch : Nat) : TierPage :=
  { bytes := [], poison := [], recovering := false, backing := b, t0 := if b = .none then .dirty else .none, tl := none, heat := 0,
    stamp := 0, touch := touch, charge := charge, move := if pin && decide (b ≠ .none) then some { kind := .fill, retiring := false } else none, image := im }

/-- A zero-filled page of a region: the tier page a first write or MAP allocates (R73, R113). -/
def State.zeroPage (s : State) (r : Region) (p : Nat) : TierPage :=
  let b := s.newBacking r
  TierPage.zero b (r.zeroImage b (pageTweak p 0 none)) (decide (r.policy.place = .pinT0)) r.creator (s.now / 1000)

/-- The holders that refer to a page without a handle. -/
def State.zeroHolders (s : State) (rid p : Nat) : List Nat :=
  (s.home.zeroCaps.filter (fun e => decide (e.1 = rid) && decide (e.2.1 = p))).map (fun e => e.2.2)

/-- A page without a handle leaves its region's table while holders refer to it: they keep a page of zeros of their own (R80, R81, R217). -/
def State.parkZero (s : State) (rid p : Nat) : State :=
  match s.region? rid, s.zeroHolders rid p with
  | some r, x :: xs =>
    { s with
      home.nextHandle := s.home.nextHandle + 1
      home.zeroCaps := s.home.zeroCaps.filter (fun (e : Nat × Nat × Nat) => !(decide (e.1 = rid) && decide (e.2.1 = p)))
      home.pages := Tab.set s.home.pages s.home.nextHandle
        { rid := rid, pageNo := p, mapped := false, ver := 0, pub := s.zeroPage r p, shadows := [], olds := [], refs := x :: xs } }
  | _, _ => s

/-- Allocate a zero-filled page and make the entry a valid L3 leaf (R73). -/
def State.allocate (s : State) (rid p : Nat) (r : Region) : State :=
  let s := if r.policy.place = .t0Only then s.roomT0 else s
  let h := s.home.nextHandle
  let hd : Handle := { rid := rid, pageNo := p, mapped := true, ver := 0, pub := s.zeroPage r p, shadows := [], olds := [], refs := s.zeroHolders rid p }
  { s with
    home.nextHandle := h + 1
    home.zeroCaps := s.home.zeroCaps.filter (fun (e : Nat × Nat × Nat) => !(decide (e.1 = rid) && decide (e.2.1 = p)))
    home.pages := Tab.set s.home.pages h hd
    home.regions := Tab.set s.home.regions rid { r with entries := Tab.set r.entries p (.leaf h false p 1) } }

/-- Allocate where the page is demand-zero and has no page yet. -/
def State.ensurePage (s : State) (rid p : Nat) : State :=
  match s.region? rid with
  | some r => if (r.handleOf p).isNone then s.allocate rid p r else s
  | none => s

/-- The shadow page of an issuer on a handle. -/
def Handle.shadowOf (hd : Handle) (eid ctx : Nat) : Option Shadow := hd.shadows.find? (fun w => decide (w.eid = eid ∧ w.ctx = ctx))

/-- The handle's entry. -/
def State.handle? (s : State) (h : Nat) : Option Handle := Tab.get? s.home.pages h

/-- Shadow pages of an issuer at this home, in every region or in one (R192). -/
def State.shadowsOf (s : State) (eid ctx : Nat) (rid : Option Nat) : Nat :=
  ((s.home.pages.filter (fun e => (match rid with | some x => decide (e.2.rid = x) | none => true))).map
    (fun e => (e.2.shadows.filter (fun w => decide (w.eid = eid ∧ w.ctx = ctx))).length)).sum

/-- The writer index of an issuer, if it has one (R169). -/
def State.writerOf (s : State) (eid ctx : Nat) : Option Nat :=
  (s.home.writers.find? (fun e => decide (e.2 = (eid, ctx)))).map Prod.fst

/-- A writer's shadow limit: its own context's, or the region creator's for another endpoint (R192). -/
def State.shadowLimitOf (s : State) (r : Region) (i : Issuer) : Nat :=
  match Tab.get? s.bci.contexts (if i.eid = s.lmf.eid then i.ctx else r.creator) with
  | some c => c.shadowLimit
  | none => 0

/-- May the issuer create `n` more shadow pages in the region (R192, R169, R114, R121)? -/
def State.shadowRoom (s : State) (rid : Nat) (r : Region) (i : Issuer) (n : Nat) : Bool :=
  let lim := s.shadowLimitOf r i
  let have_ := s.shadowsOf i.eid i.ctx (if i.eid = s.lmf.eid then none else some rid)
  (decide (lim = 0) || decide (have_ + n ≤ lim)) && ((s.writerOf i.eid i.ctx).isSome || decide (s.home.writers.length < 4194303))
    && s.space r n true

/-- A journal entry is committed: it takes the next ENTRY number (R753). -/
def State.commit (s : State) : State := { s with rel.entry := (s.rel.entry + 1) % 18446744073709551616 }

/-- The image of a new shadow page in its backing tier: the published version's image, encrypted anew under the shadow page's tweak
(R166, R168, R191); while the published T0 copy is dirty it is as far behind as that image. -/
def State.shadowImage (s : State) (r : Region) (hd : Handle) (b : Backing) (tweak : Nat) : Option Image :=
  match b, hd.pub.image with
  | .none, _ => none
  | b, none => r.zeroImage b tweak
  | b, some im =>
    some (im.rekey (if im.keyclass then s.sec.atRest else r.dkey) (r.encrypt || decide (b = .t2)) (decide (b = .t2) && !r.encrypt)
      (if r.encrypt then r.dkey else s.sec.atRest) tweak)

/-- Create the issuer's shadow page of a page: a copy of the published version (R190, R191), with a writer index (R169), the lowest that is free
(DESIGN CHOICE, log 29), and journalled at the mirror partner (R193). -/
def State.makeShadow (s : State) (rid p : Nat) (i : Issuer) : State :=
  let s := s.ensurePage rid p
  match s.region? rid with
  | none => s
  | some r =>
    match r.handleOf p with
    | none => s
    | some h =>
      match s.handle? h with
      | none => s
      | some hd =>
        if (hd.shadowOf i.eid i.ctx).isSome then s
        else
          let w := match s.writerOf i.eid i.ctx with | some w => w | none => lowestFree (Tab.keys s.home.writers) 1
          let charge := if i.eid = s.lmf.eid then i.ctx else r.creator
          let b := s.newBacking r
          let t0 : T0Copy := if b = .none ∨ hd.pub.t0 = .dirty then .dirty else .none
          let page : TierPage :=
            { hd.pub with
              backing := b, t0 := t0, tl := none, tlCopy := none, due := false, heat := 0, stamp := 0, touch := s.now / 1000, charge := charge,
              move := none, image := s.shadowImage r hd b (pageTweak hd.pageNo hd.ver (some w)), recovering := false }
          let s := if t0 = .dirty then s.roomT0 else s
          let sh : Shadow := { eid := i.eid, ctx := i.ctx, base := hd.ver, widx := w, page := page }
          let s :=
            { s with
              home.writers := Tab.set s.home.writers w (i.eid, i.ctx)
              home.pages := Tab.set s.home.pages h { hd with shadows := hd.shadows ++ [sh] } }
          let s := s.commit
          if r.mirror ≠ 0 then s.emit (.journal r.mirror (s.keyOf rid) (.shadow p i.eid i.ctx)) else s

/-- Take the shadow pages of an issuer away from one page; the writer index goes with the last one (R193, R169). -/
def State.dropShadow (s : State) (h eid ctx : Nat) : State :=
  let s := s.setPages (Tab.modify s.home.pages h (fun hd => { hd with shadows := hd.shadows.filter (fun w => decide (¬ (w.eid = eid ∧ w.ctx = ctx))) }))
  State.sweepTables (if s.shadowsOf eid ctx none = 0 then
    { s with home := { s.home with writers := s.home.writers.filter (fun e => decide (e.2 ≠ (eid, ctx))) } }
  else s)

/-- Writer indices of issuers without a shadow page left are free again (R169). -/
def State.trimWriters (s : State) : State :=
  { s with home.writers := s.home.writers.filter (fun (e : Nat × (Nat × Nat)) => decide (s.shadowsOf e.2.1 e.2.2 none ≠ 0)) }

/-- Release a handle's pages where it is unmapped and nothing refers to it (R78). -/
def State.collect (s : State) (h : Nat) : State :=
  match s.handle? h with
  | some hd => if hd.mapped = false ∧ hd.refs = [] then (s.setPages (Tab.erase s.home.pages h)).trimWriters.sweepTables else s
  | none => s

/-- Give a handle one more reference (R79). -/
def State.hold (s : State) (h holder : Nat) : State := s.setPages (Tab.modify s.home.pages h (fun hd => { hd with refs := holder :: hd.refs }))

/-- Take a holder's references on a handle away. -/
def State.unhold (s : State) (h holder : Nat) : State :=
  State.collect (s.setPages (Tab.modify s.home.pages h (fun hd => { hd with refs := hd.refs.filter (fun x => decide (x ≠ holder)) }))) h

/-- Note that a holder refers to a page that has no handle yet (R79, R216). -/
def State.holdZero (s : State) (rid p holder : Nat) : State := { s with home.zeroCaps := s.home.zeroCaps ++ [(rid, p, holder)] }

/-- Translate pages, each a region and a page number, with a reference on each (R79). -/
def State.capturePages (s : State) (holder : Nat) (ps : List (Nat × Nat)) : State × Caps :=
  let caps := ps.map (fun q => (q.1, q.2, match s.region? q.1 with | some r => (match r.handleOf q.2 with | some h => h + 1 | none => 0) | none => 0))
  (caps.foldl (fun s c => if c.2.2 = 0 then s.holdZero c.1 c.2.1 holder else s.hold (c.2.2 - 1) holder) s, caps)

/-- Translate the ranges a descriptor names when it is queued (R79); a range is a region, an offset and a length. -/
def State.capture (s : State) (holder : Nat) (ranges : List (Nat × Nat × Nat)) : State × Caps :=
  s.capturePages holder (ranges.flatMap (fun g => (pagesOf g.2.1 g.2.2).map (fun p => (g.1, p))))

/-- The handle a holder's captured page has: the one it had, or the one the page got since (R73, R74, R80). -/
def State.capHandle (s : State) (holder : Nat) (c : Nat × Nat × Nat) : Option Nat :=
  if c.2.2 = 0 then (s.home.pages.find? (fun e => decide (e.2.rid = c.1) && decide (e.2.pageNo = c.2.1) && e.2.refs.contains holder)).map Prod.fst
  else some (c.2.2 - 1)

/-- Give a descriptor's references back (R79). -/
def State.uncapture (s : State) (holder : Nat) (caps : Caps) : State :=
  caps.foldl (fun s c => match s.capHandle holder c with | some h => s.unhold h holder | none => s)
    { s with home.zeroCaps := s.home.zeroCaps.filter (fun (e : Nat × Nat × Nat) => decide (e.2.2 ≠ holder)) }

/-- Translate a descriptor whole again (R90). -/
def State.recapture (s : State) (holder : Nat) (caps : Caps) : State × Caps :=
  (s.uncapture holder caps).capturePages holder (caps.map (fun c => (c.1, c.2.1)))

/-- The captured pages whose entry has changed since, with the entry that stands (R80, R81). -/
def State.remapped (s : State) (holder : Nat) (caps : Caps) : List (Nat × Nat × Entry) :=
  caps.filterMap (fun c =>
    match s.region? c.1, s.capHandle holder c with
    | some r, some h => if r.handleOf c.2.1 ≠ some h then some (c.1, c.2.1, r.entry c.2.1) else none
    | _, _ => none)

/-- See the pages as they were translated at queue time: a later MAP or UNMAP does not change what the descriptor reads or
writes (R80). -/
def State.overlay (s : State) (holder : Nat) (caps : Caps) : State :=
  caps.foldl (fun s c =>
    match s.region? c.1, s.capHandle holder c with
    | some r, some h =>
      if r.handleOf c.2.1 ≠ some h then s.setRegion c.1 { r with entries := Tab.set r.entries c.2.1 (.leaf h false c.2.1 1) } else s
    | _, _ => s) s

/-- The region that a descriptor's captured range lies in, by its key and offset: it stays named though it is DRAINING now (R80, R82). -/
def capsRegion (caps : Caps) (key off : Nat) : Option Nat :=
  (caps.find? (fun c => decide (c.1 % 65536 = keyIdx key) && decide (c.2.1 = off / 65536))).map Prod.fst

/-- Put the entries back that stood before an overlay. -/
def State.restore (s : State) (old : List (Nat × Nat × Entry)) : State :=
  old.foldl (fun s e =>
    match s.region? e.1 with
    | some r => s.setRegion e.1 { r with entries := Tab.set r.entries e.2.1 e.2.2 }
    | none => s) s

/-- How an access sees a region: as an issuer (R189), as the published version, or through a pin (R217). -/
inductive View where
  | own (i : Issuer)
  | pub
  | pin (id : Nat)
  deriving DecidableEq, Repr

/-- The holder number of a pin's references on page handles. -/
def pinHolder (id : Nat) : Nat := 1099511627776 + id

/-- The tier page a view shows for a page of a region; none where no page is allocated. -/
def State.viewRef (s : State) (r : Region) (p : Nat) (v : View) : Option PageRef :=
  match v with
  | .pub => (r.handleOf p).map PageRef.pub
  | .own i =>
    match r.handleOf p with
    | none => none
    | some h =>
      match s.handle? h with
      | none => none
      | some hd => if r.mode = .publish ∧ (hd.shadowOf i.eid i.ctx).isSome then some (.shadow h i.eid i.ctx) else some (.pub h)
  | .pin id =>
    match Tab.get? s.home.pins id with
    | none => none
    | some pin =>
      match pin.pages.find? (fun e => decide (e.1 = p)) with
      | none => none
      | some (_, v, h1) =>
        match s.capHandle (pinHolder id) (pin.rid, p, h1) with
        | none => none
        | some h =>
          match s.handle? h with
          | none => none
          | some hd => if (hd.olds.any (fun o => decide (o.1 = v))) = true then some (.old h v) else if hd.ver = v then some (.pub h) else none

/-- What an access meets on its way. -/
inductive Met where
  | clear
  | fault (kind page : Nat)
  | recovering (p : PageRef)
  | line (rid ln : Nat)
  | room
  | stop (st : Status)
  deriving DecidableEq, Repr

/-- The first thing met that is not clear. -/
def Met.first : List Met → Met
  | [] => .clear
  | .clear :: t => Met.first t
  | m :: _ => m

/-- Is a line of a page poisoned within a range of the page? -/
def TierPage.poisonIn (p : TierPage) (off n : Nat) : Bool :=
  p.poison.any (fun l => decide (l * 64 < off + n) && decide (off < l * 64 + 64))

/-- Is a poisoned line covered only in part by a write (R875)? -/
def TierPage.partPoison (p : TierPage) (off n : Nat) : Bool :=
  p.poison.any (fun l => decide (l * 64 < off + n) && decide (off < l * 64 + 64) && !(decide (off ≤ l * 64) && decide (l * 64 + 64 ≤ off + n)))

/-- Has the issuer lost a shadow page of this page to a takeover (R194)? -/
def State.lostHere (s : State) (rid p : Nat) (i : Issuer) : Bool := s.home.lost.contains (rid, p, i.eid, i.ctx)

/-- The key of a line in the directory: the region's table key and the line number of its local offset. -/
def lineKey (rid ln : Nat) : Nat := rid * 18446744073709551616 + ln

/-- The directory entry of a line (R281: none is state I). -/
def State.line? (s : State) (rid ln : Nat) : Option Line := Tab.get? s.rope.lines (lineKey rid ln)

/-- Must a line's holders answer before the home may read (or write) its own copy (R246, R291), or is the line reserved for another requester
(R302)? -/
def State.lineBusy (s : State) (rid ln : Nat) (write : Bool) : Bool :=
  match s.line? rid ln with
  | none => false
  | some l =>
    let reserved := decide (l.resv ≠ []) && decide (l.resv.head? ≠ some s.lmf.eid)
    match l.st with | .i => reserved | .s => write || reserved | _ => true

/-- Does a pin hold a page it found allocated? Such a page is read whatever its entry is now (R217); one the pin found at a fault entry is met
as by any reader (R75). -/
def State.pinHolds (s : State) (r : Region) (p : Nat) (v : View) : Bool :=
  match v with
  | .pin _ => (s.viewRef r p v).isSome
  | _ => false

/-- What a read of one piece meets (R75, R181, R182, R194). -/
def State.meetRead1 (s : State) (rid : Nat) (r : Region) (v : View) (off n : Nat) : Met :=
  let p := off / 65536
  let lost : Bool := match v with | .own i => s.lostHere rid p i | _ => false
  if r.entry p = .fault ∧ s.pinHolds r p v = false then .fault 1 p
  else if lost then .stop .poison
  else match s.viewRef r p v with
    | none => .clear
    | some ref =>
      match s.page? ref with
      | none => .clear
      | some pg => if pg.recovering then .recovering ref else if pg.poisonIn (off % 65536) n then .stop .poison else .clear

/-- What a read of a range meets; in a coherent region a line that an agent may hold dirty stops it first. -/
def State.meetRead (s : State) (rid : Nat) (r : Region) (v : View) (off n : Nat) : Met :=
  match Met.first ((pieces off n).map (fun q => s.meetRead1 rid r v q.1 q.2)) with
  | .clear =>
    if r.mode = .coherent then
      match (linesOf off n).find? (fun l => s.lineBusy rid l false) with
      | some l => .line rid l
      | none => .clear
    else .clear
  | m => m

/-- The bytes of a range as a view shows them; a page that is not allocated reads zeros (R73). -/
def State.readRange (s : State) (r : Region) (v : View) (off n : Nat) : Bytes :=
  (pieces off n).flatMap (fun q =>
    match s.viewRef r (q.1 / 65536) v with
    | none => List.replicate q.2 0
    | some ref =>
      match s.page? ref with
      | some pg => Mem.readN pg.bytes (q.1 % 65536) q.2
      | none => List.replicate q.2 0)

/-- Count a read in the heat of the pages it touches (R120). -/
def State.touchRange (s : State) (port : Bool) (rid : Nat) (v : View) (off n : Nat) : State :=
  (pieces off n).foldl (fun s q =>
    match s.region? rid with
    | none => s
    | some r =>
      match s.viewRef r (q.1 / 65536) v with
      | some ref => s.touch port ref (q.1 % 65536) q.2
      | none => s) s

/-- A TL copy is invalid (R109). -/
def TierPage.dropTl (p : TierPage) : TierPage := { p with tl := none, tlCopy := none }

/-- What a write does to a move of its page (R138): a write-back in COPYING is abandoned, a drop and a TL fill end, and a backing copy that
T0_ONLY pages get is coded again. -/
def Move.met (m : Move) : Option Move :=
  if m.retiring then some m
  else match m.kind with
    | .toT1 => some m
    | .toT2 => some m
    | .toT0Only => some m
    | .toBacking => some { m with image := none }
    | .fill => some { m with retiring := true }
    | _ => none

/-- Apply bytes to one copy: full lines lose their poison mark (R875), the T0 copy becomes dirty, a TL copy is invalidated
(R109), and a move in COPYING ends or goes on as R138 gives. -/
def TierPage.put (p : TierPage) (off : Nat) (data : Bytes) : TierPage :=
  { p.dropTl with
    bytes := Mem.writeN p.bytes off data
    poison := p.poison.filter (fun l => !(decide (off ≤ l * 64) && decide (l * 64 + 64 ≤ off + data.length)))
    t0 := .dirty
    move := p.move.bind Move.met }

/-- Is the write-back of an evicted page abandoned by a write to it (R140)? -/
def TierPage.evicting (p : TierPage) : Bool := match p.move with | some m => m.evict && !m.retiring | none => false

/-- Write bytes into the copy a reference names, with the T0 copy that R111 requires; accesses that wait for the T0 page of an abandoned write-back
begin anew, with a new victim (R140). -/
def State.putRef (s : State) (ref : PageRef) (off : Nat) (data : Bytes) : State :=
  let gone : Bool := match s.page? ref with | some p => p.evicting | none => false
  let s := ((s.fillT0 ref).modPage ref (fun p => p.put off data)).memEvent 1 2 data.length ref
  if gone then (s.strataEvent 5 1).release (fun w => decide (w = .room)) else s

/-- The copies a direct update changes: the published version and each shadow page of the page (R223). -/
def State.directRefs (s : State) (h : Nat) : List PageRef :=
  match s.handle? h with
  | some hd => .pub h :: hd.shadows.map (fun w => .shadow h w.eid w.ctx)
  | none => []

/-- Apply a direct update to each copy from that copy's own bytes; a copy other than the published one whose line is
poisoned stays as it is unless the line is written whole (R223, R247). -/
def State.directMap (s : State) (rid p off n : Nat) (f : Bytes → Bytes) : State :=
  let s := s.ensurePage rid p
  match s.region? rid with
  | none => s
  | some r =>
    match r.handleOf p with
    | none => s
    | some h =>
      (s.directRefs h).foldl (fun s ref =>
        match s.page? ref with
        | none => s
        | some pg => if pg.partPoison off n then s else s.putRef ref off (f (Mem.readN pg.bytes off n))) s

/-- How a write goes: as the issuer's (a shadowed write in a publish-mode region, R187) or as a direct update. -/
inductive Way where
  | shadowed (i : Issuer)
  | direct
  deriving DecidableEq, Repr

/-- What a write of one piece meets. -/
def State.meetWrite1 (s : State) (rid : Nat) (r : Region) (w : Way) (off n : Nat) : Met :=
  let p := off / 65536
  let lost : Bool := match w with | .shadowed i => decide (r.mode = .publish) && s.lostHere rid p i | .direct => false
  let target : Option PageRef := match w with | .shadowed i => s.viewRef r p (.own i) | .direct => (r.handleOf p).map PageRef.pub
  let others : List PageRef := match w, r.handleOf p with | .direct, some h => s.directRefs h | _, _ => []
  if r.entry p = .fault then .fault 1 p
  else if (r.entry p).isRo then .fault 2 p
  else if lost then .stop .poison
  else match target with
    | none => .clear
    | some ref =>
      match s.page? ref with
      | none => .clear
      | some pg =>
        if pg.recovering then .recovering ref
        else match others.find? (fun q => match s.page? q with | some x => x.recovering | none => false) with
          | some q => .recovering q
          | none => if pg.partPoison (off % 65536) n then .stop .poison else .clear

/-- The shadow pages a shadowed write has to create. -/
def State.newShadows (s : State) (r : Region) (i : Issuer) (off n : Nat) : Nat :=
  ((pagesOf off n).filter (fun p => match s.viewRef r p (.own i) with | some (.shadow _ _ _) => false | _ => true)).length

/-- The pages of a range that a write has to allocate (R73). -/
def State.newPages (r : Region) (off n : Nat) : Nat := ((pagesOf off n).filter (fun p => (r.handleOf p).isNone)).length

/-- The T0 copies a write of a range has to fill (R111): those of its pages that have none, with the page or shadow page it creates. -/
def State.newT0 (s : State) (r : Region) (w : Way) (off n : Nat) : Nat :=
  ((pagesOf off n).map (fun p =>
    match w, r.mode with
    | .shadowed i, .publish =>
      (match s.viewRef r p (.own i) with
       | some (.shadow h e c) => (match s.page? (.shadow h e c) with | some q => if q.t0 = .none then 1 else 0 | none => 0)
       | _ => 1)
    | _, _ =>
      match r.handleOf p with
      | none => 1
      | some h => ((s.directRefs h).filter (fun q => match s.page? q with | some x => decide (x.t0 = .none) | none => false)).length)).sum

/-- What a write of a range that is clear so far still needs: tier pages (R114, R192) and T0 pages (R111, R126). -/
def State.meetSpace (s : State) (rid : Nat) (r : Region) (w : Way) (off n : Nat) : Met :=
  let fresh := State.newPages r off n
  let quota : Bool :=
    match w, r.mode with
    | .shadowed i, .publish =>
      let k := s.newShadows r i off n
      decide (k ≠ 0) && (!s.shadowRoom rid r i k || !s.space r (k + fresh) true)
    | _, _ => decide (fresh ≠ 0) && !s.space r fresh false
  if quota then .stop .quota else if s.roomWait (s.newT0 r w off n) then .room else .clear

/-- What a write of a range meets (R75, R111, R114, R181, R192, R194, R875). -/
def State.meetWrite (s : State) (rid : Nat) (r : Region) (w : Way) (off n : Nat) : Met :=
  match Met.first ((pieces off n).map (fun q => s.meetWrite1 rid r w q.1 q.2)) with
  | .clear =>
    match r.mode with
    | .coherent =>
      (match (linesOf off n).find? (fun l => s.lineBusy rid l true) with
       | some l => .line rid l
       | none => s.meetSpace rid r w off n)
    | _ => s.meetSpace rid r w off n
  | m => m

/-- Write one piece. -/
def State.write1 (s : State) (rid : Nat) (w : Way) (off : Nat) (data : Bytes) : State :=
  let p := off / 65536
  match s.region? rid with
  | none => s
  | some r =>
    match w, r.mode with
    | .direct, .publish => s.directMap rid p (off % 65536) data.length (fun _ => data)
    | .shadowed i, .publish =>
      let s := s.makeShadow rid p i
      match s.region? rid with
      | none => s
      | some r => match r.handleOf p with | some h => s.putRef (.shadow h i.eid i.ctx) (off % 65536) data | none => s
    | _, _ =>
      let s := s.ensurePage rid p
      match s.region? rid with
      | none => s
      | some r => match r.handleOf p with | some h => s.putRef (.pub h) (off % 65536) data | none => s

/-- Write bytes piece by piece. -/
def State.writePieces (s : State) (rid : Nat) (w : Way) (data : Bytes) (off0 : Nat) : List (Nat × Nat) → State
  | [] => s
  | (o, n) :: t => State.writePieces (s.write1 rid w o ((data.drop (o - off0)).take n)) rid w data off0 t

/-- Write a range that meets nothing. -/
def State.writeRange (s : State) (rid : Nat) (w : Way) (off : Nat) (data : Bytes) : State :=
  s.writePieces rid w data off (pieces off data.length)

/-- Poison the line at an offset in the copy a write goes to. -/
def State.poisonLine (s : State) (rid : Nat) (w : Way) (off : Nat) : State :=
  let p := off / 65536
  let s := match w, (s.region? rid).map Region.mode with
    | .shadowed i, some .publish => s.makeShadow rid p i
    | _, _ => s.ensurePage rid p
  match s.region? rid with
  | none => s
  | some r =>
    let ref := match w with | .shadowed i => s.viewRef r p (.own i) | .direct => (r.handleOf p).map PageRef.pub
    match ref with
    | none => s
    | some ref =>
      (s.fillT0 ref).modPage ref (fun q =>
        { q.dropTl with
          t0 := .dirty, move := q.move.bind Move.met,
          poison := if q.poison.contains (off % 65536 / 64) then q.poison else (off % 65536 / 64) :: q.poison })

/-- Clear the poison mark of a line and write zeros (R310, R311): into every copy where the published version's line is poisoned, as R223 gives, and
else into the copies whose own line is (DEDUCED, log 29: lines that are not poisoned are unchanged). -/
def State.clearLine (s : State) (rid off : Nat) : State :=
  match s.region? rid with
  | none => s
  | some r =>
    match r.handleOf (off / 65536) with
    | none => s
    | some h =>
      let bad (ref : PageRef) : Bool := match s.page? ref with | some pg => pg.poison.contains (off % 65536 / 64) | none => false
      let all := bad (.pub h)
      (s.directRefs h).foldl (fun s ref =>
        if all || bad ref then s.putRef ref (off % 65536 / 64 * 64) (List.replicate 64 0) else s) s

/-- The T0 copy of a page that a recovery or a poison mark touches: poison every line (R180). -/
def State.poisonPage (s : State) (ref : PageRef) : State :=
  s.modPage ref (fun p => { p with poison := upto 1024, recovering := false })

/-- The version numbers of a range: the highest page version (R198). -/
def State.rangeVersion (s : State) (r : Region) (off n : Nat) : Nat :=
  (pagesOf off n).foldl (fun m p =>
    match r.handleOf p with
    | some h => match s.handle? h with | some hd => max m hd.ver | none => m
    | none => m) 0

/-- Does a pin hold a version of a handle's page (R216)? -/
def State.pinsVersion (s : State) (hd : Handle) (v : Nat) : Bool :=
  s.home.pins.any (fun e => hd.refs.contains (pinHolder e.1) && e.2.pages.any (fun q => decide (q.1 = hd.pageNo) && decide (q.2.1 = v)))

/-- Does a pin hold the published version of a handle's page? -/
def State.pinned (s : State) (hd : Handle) : Bool := s.pinsVersion hd hd.ver

/-- Switch one page to a writer's shadow page at a version (R196): the former published version stays while a pin holds it, with its move (R142).
A copy that was sealed while it was the shadow page keeps the tweak it was sealed with until it is next written (DESIGN CHOICE, log 29). A PIN_T0
region's new version is filled where it has no T0 copy (R115). -/
def State.switchPage (s : State) (h eid ctx v : Nat) : State :=
  match s.handle? h with
  | none => s
  | some hd =>
    match hd.shadowOf eid ctx with
    | none => s
    | some w =>
      let charge := match s.region? hd.rid with | some r => r.creator | none => w.page.charge
      let pin : Bool := match s.region? hd.rid with | some r => decide (r.policy.place = .pinT0) | none => false
      let move : Option Move := if pin && w.page.move.isNone && decide (w.page.t0 = .none) then some { kind := .fill, retiring := false } else w.page.move
      let olds := if s.pinned hd then (hd.ver, hd.pub) :: hd.olds else hd.olds
      (s.setPages (Tab.set s.home.pages h { hd with pub := { w.page with charge := charge, move := move }, ver := v, olds := olds })).dropShadow h eid ctx

/-- Old versions of a handle that no pin holds any longer are freed (R222). -/
def State.trimOlds (s : State) : State :=
  State.sweepTables (s.setPages (s.home.pages.map (fun e => (e.1, { e.2 with olds := e.2.olds.filter (fun o => s.pinsVersion e.2 o.1) }))))

end Sys2Proof.Machine
end

