-- ==== Sys2Proof/Machine/Record.lean ====
section
/-! DEFINITION. What the controller records: interrupts (15), cairn rings, trace and event counters (21), error records (19), partner records (17), notice and fault rings (02, 14), fail-stop (19). -/

namespace Sys2Proof.Machine

/-- An MSI-X entry at power-on (PRESUMED, log 10). -/
def MsixEntry.reset : MsixEntry := { addrLo := 0, addrHi := 0, data := 0, masked := true }

/-- Send a vector of a function; a masked one sets its pending bit (R618, R619). -/
def State.vector (s : State) (port fn v : Nat) : State :=
  let w := s.fnWin port fn
  let e := Tab.getD w.vecs v MsixEntry.reset
  if e.masked then s.setFnWin port fn { w with pba := w.pba ||| 2 ^ v }
  else s.emit (.msix port fn v (e.addrLo.toNat + 2 ^ 32 * e.addrHi.toNat) e.data.toNat)

/-- An RS field of a function's register space changed (R605). -/
def State.rsFn (s : State) (port fn : Nat) : State :=
  let w := s.fnWin port fn
  s.setFnWin port fn { w with seq := (w.seq + 1) % 256 }

/-- An RS field of the management register space changed (R605). -/
def State.rsMgmt (s : State) : State := { s with obs.mgmtSeq := (s.obs.mgmtSeq + 1) % 256 }

/-- Does a controller write meet something that stops it (R871)? A page in recovery counts as a poisoned line, and so does a
coherent line that an agent holds (DESIGN CHOICE, log 11). -/
def State.directMet (s : State) (rid : Nat) (r : Region) (off n : Nat) : Bool :=
  match s.meetWrite rid r .direct off n with
  | .clear => false
  | .room => false
  | _ => true

/-- Write a record as a direct update into a region, or answer none (R871). A T0 page it needs is taken in the same step (log 16). -/
def State.recordIn (s : State) (rid off : Nat) (data : Bytes) : Option State :=
  match s.region? rid with
  | none => none
  | some r => if r.inside off data.length && !s.directMet rid r off data.length then some (s.writeRange rid .direct off data) else none

/-- Write a record as a direct update into the region a ring's key names, or answer none (R871). -/
def State.recordAt (s : State) (key off : Nat) (data : Bytes) : Option State :=
  match s.live s.lmf.eid key with
  | none => none
  | some (rid, _) => s.recordIn rid off data

/-- Write a record into the range a descriptor captured when it was queued (R79, R82), or into the region its key names. -/
def State.recordHeld (s : State) (caps : Caps) (key off : Nat) (data : Bytes) : Option State :=
  match capsRegion caps key off with
  | some rid => s.recordIn rid off data
  | none => s.recordAt key off data

/-- The slots of the trace ring in use. -/
def Trace.used (t : Trace) : Nat := (t.prod + 16777216 - t.cons) % 16777216

/-- Write a record of `k` slots into the trace ring from PROD on, wrapping at its end (R820, R821). -/
def State.traceSlots (s : State) (g : Ring) (slots : Nat) : List Word → Nat → Option State
  | _, 0 => some s
  | ws, k + 1 =>
    let t := s.obs.trace
    match s.recordAt g.key (g.off + 32 * (t.prod % slots)) (bytesOf (ws.take 8)) with
    | none => none
    | some s' => ({ s' with obs.trace := { s'.obs.trace with prod := (t.prod + 1) % 16777216 } }).traceSlots g slots (ws.drop 8) k

/-- Drop a record from the T1 ring (R819, TRC_DROPS). -/
def State.traceDrop (s : State) (die seq : Nat) : State := { s with obs.trace := s.obs.trace.drop die seq }

/-- Write a record of `k` slots to the T1 ring, or drop it; a LOSS record goes before the first record after a gap (R819,
R821). A record whose write fails is dropped (log 11). -/
def State.traceRing (s : State) (die seq : Nat) (ws : List Word) (k : Nat) : State :=
  match s.obs.trace.ring with
  | none => s
  | some g =>
    let slots := 2 ^ g.log2
    let s1 :=
      match Tab.get? s.obs.trace.loss die with
      | none => s
      | some l =>
        if s.obs.trace.used + 1 < slots then
          match s.traceSlots g slots (lossWords die seq s.now l) 1 with
          | some s' => State.rsMgmt { s' with obs.trace := { s'.obs.trace with loss := Tab.erase s'.obs.trace.loss die } }
          | none => s
        else s
    if (Tab.get? s1.obs.trace.loss die).isSome then s1.traceDrop die seq
    else if s1.obs.trace.used + k < slots then
      match s1.traceSlots g slots ws k with
      | some s' => s'.rsMgmt
      | none => s1.traceDrop die seq
    else s1.traceDrop die seq

/-- The trace unit writes the records that wait to the ring, in the order in which they were generated (R818, R822). -/
def State.traceFlush (s : State) : State :=
  s.obs.trace.queue.foldl (fun (s : State) e => s.traceRing (e.1 / 4294967296) (e.1 % 4294967296) e.2 (e.2.length / 8))
    { s with obs.trace := { s.obs.trace with queue := [] } }

/-! ### Domains that stop and start (R688 to R693, R718) -/

/-- The hardware units of a domain (R688, R791); units that R688 names under no domain count as AON's (log 24). -/
def domUnits (d : Domain) : List Nat :=
  let span (base lo n : Nat) : List Nat := (upto n).map (fun k => base + lo + k)
  match d with
  | .aon => []
  | .core n => span (n / 2 * 256) (n % 2 * 4) 4 ++ span (n / 2 * 256) (0x6C + n % 2 * 32) 32
  | .talus x => span (x * 256) 0x08 42
  | .trv n => [n / 2 * 256 + 0x46 + n % 2]
  | .mor n => [n / 2 * 256 + 0x48 + n % 2]
  | .mem x => span (x * 256) 0x32 20 ++ span (x * 256) 0x4A 4
  | .fab x => span (x * 256) 0x4E 19 ++ span (x * 256) 0xAC 84
  | .bc x => span (x * 256) 0x66 4

/-- A domain's entry. -/
def State.domain (s : State) (d : Domain) : DomEntry :=
  (s.pow.doms.find? (fun e => decide (e.dom = d))).getD { dom := d, st := .on, stop := 0, cause := 0 }

/-- Replace a domain's entry. -/
def State.setDomain (s : State) (e : DomEntry) : State :=
  { s with pow.doms := s.pow.doms.map (fun (x : DomEntry) => if x.dom = e.dom then e else x) }

/-- A domain is ON again; each of its units records the gap (R718). -/
def State.domainUp (s : State) (d : Domain) : State :=
  let e := s.domain d
  let s := if e.cause = 0 then s else (domUnits d).foldl (fun (s : State) hw => s.clockGap hw e.cause e.stop s.now) s
  s.setDomain { dom := d, st := .on, stop := 0, cause := 0 }

/-- The domains that bivouac powers off (R697). -/
def bivouacDomains : List Domain := [.mem 0, .mem 1, .fab 0, .fab 1, .bc 0, .bc 1]

/-- Bivouac ends: its domains wake (R698). -/
def State.bivouacEnd (s : State) : State := bivouacDomains.foldl State.wakeDomain { s with pow.bivouac := false }

/-- An access, a command or a packet that arrives ends bivouac, and wakes the MEM and FAB domains that sleep (R692, R698). -/
def State.stir (s : State) : State :=
  if s.pow.bivouac then s.bivouacEnd else [Domain.mem 0, .mem 1, .fab 0, .fab 1].foldl State.wakeDomain s

/-- A GO or doorbell write wakes the active basecamp set (R598, R600). -/
def State.wakeBasecamp (s : State) : State := s.stir.wakeDomain (.bc (b2n s.bci.westActive))

/-- The 16 words of an error record (R722). -/
def ErrorRec.words (e : ErrorRec) : List Word :=
  [BitVec.ofNat 32 e.seq, BitVec.ofNat 32 (e.cls + 16 * e.layer + 65536 * e.st.code), BitVec.ofNat 32 (e.hw + 512 * e.loc),
   BitVec.ofNat 32 e.ctx, BitVec.ofNat 32 e.key] ++ two e.off ++ [BitVec.ofNat 32 e.eid] ++ two (Config.loadSignature e.sig)
   ++ [BitVec.ofNat 32 e.count, BitVec.ofNat 32 e.aux] ++ two e.agents ++ two e.time

/-- What an error record says besides its number, time and signature. -/
structure ErrorNote where
  cls : Nat
  layer : Nat
  st : Status
  hw : Nat
  loc : Nat
  ctx : Nat
  key : Nat
  off : Nat
  eid : Nat
  aux : Nat
  agents : Nat
  deriving DecidableEq, Repr

/-- A note with nothing but its class, outcome and unit. -/
def ErrorNote.of (cls : Nat) (st : Status) (hw : Nat) : ErrorNote :=
  { cls := cls, layer := 0, st := st, hw := hw, loc := 0, ctx := 0, key := 0, off := 0, eid := 0, aux := 0, agents := 0 }

/-- A bin without history. -/
def HealthBin.fresh : HealthBin := { onMs := 0, ce := 0, ue := 0, mis := 0, kat := 0, vmin := 0, vmax := 0 }

/-- Replace a unit's record. -/
def State.setUnit (s : State) (hw : Nat) (u : UnitRec) : State := { s with rel.units := Tab.set s.rel.units hw u }

/-- The temperature bin (R767). -/
def binOf (t : Int) : Nat := if t < 45 then 0 else if 105 ≤ t then 7 else ((t - 45) / 10).toNat + 1

/-- The temperature of a unit's die in °C. -/
def State.tempOf (s : State) (hw : Nat) : Int := if hw < 256 then s.pkg.tjE else s.pkg.tjW

/-- A reliability parameter (R759). -/
def State.param (s : State) (p : Nat) : Nat := Tab.getD s.rel.params p 0

/-- Count an error in its unit's health record (R767): corrected, uncorrectable, mismatches, failed known-answer tests. -/
def State.healthCount (s : State) (hw cls : Nat) : State :=
  let u := s.unit hw
  let b := binOf (s.tempOf hw)
  let x := Tab.getD u.bins b HealthBin.fresh
  let y : HealthBin := match cls with
    | 1 => { x with ce := x.ce + 1 }
    | 2 => { x with ue := x.ue + 1 }
    | 3 => { x with ue := x.ue + 1 }
    | 4 => { x with ue := x.ue + 1 }
    | 5 => { x with mis := x.mis + 1 }
    | 6 => { x with kat := x.kat + 1 }
    | _ => x
  if 1 ≤ cls ∧ cls ≤ 6 then s.setUnit hw { u with bins := Tab.set u.bins b y } else s

/-- Firmware asks for a unit's quarantine once it has Q_COUNT records of the classes of R764 within Q_WINDOW. -/
def State.quarantineWatch (s : State) (hw cls : Nat) : State :=
  if 3 ≤ cls ∧ cls ≤ 6 then
    let u := s.unit hw
    let ts := s.now :: u.errTimes.filter (fun t => decide (s.now ≤ t + s.param 8 * 1000000))
    s.setUnit hw { u with errTimes := ts, asked := u.asked || (!u.quarantined && decide (s.param 7 ≤ ts.length)) }
  else s

/-- Write an error record (R721 to R723): merged into a record of the same UNIT, CLASS and LOC that began within 1 ms, else
stored, put in the unit's cairn ring, in the trace and sent as telemetry. -/
def State.error (s : State) (n : ErrorNote) : State :=
  let s := (s.healthCount n.hw n.cls).errorCount n.hw n.cls
  if s.rel.errors.any (fun e => decide (e.hw = n.hw ∧ e.cls = n.cls ∧ e.loc = n.loc ∧ s.now ≤ e.time + 1000000)) then
    { s with rel.errors := s.rel.errors.map (fun e =>
        if e.hw = n.hw ∧ e.cls = n.cls ∧ e.loc = n.loc ∧ s.now ≤ e.time + 1000000 then { e with count := e.count + 1 } else e) }
  else
    let s := s.quarantineWatch n.hw n.cls
    let e : ErrorRec :=
      { seq := s.rel.errSeq, cls := n.cls, layer := n.layer, st := n.st, hw := n.hw, loc := n.loc, ctx := n.ctx, key := n.key, off := n.off,
        eid := n.eid, sig := s.freeCtr, count := 1, aux := n.aux, agents := n.agents, time := s.now }
    let s :=
      { s with
        freeCtr := s.freeCtr + 1
        rel.errors := (e :: s.rel.errors).take 16384
        rel.errSeq := (s.rel.errSeq + 1) % 4294967296 }
    let s := s.cairn n.hw 32 n.ctx e.seq
    let s := s.traceGen (n.hw / 256) 5 3 s.now e.words
    s.emit (.mgmt 0 1 (e.words.map BitVec.toNat))

/-- A record that could not be written: CLASS ACCESS, naming the region (R871). -/
def State.lostRecord (s : State) (key off ctx : Nat) : State :=
  s.error { ErrorNote.of 12 .poison (anyUnit s.freeCtr) with key := key, off := off, ctx := ctx }

/-- The key of an issuer in tables. -/
def issuerKey (eid ctx : Nat) : Nat := eid * 4096 + ctx

/-- A notice ring that was never set. -/
def NoticeRing.empty : NoticeRing := { ring := none, prod := 0, cons := 0, seq := 0, dropped := 0, count := 0 }

/-- The function bound to an issuer of this controller, whose NOTICE_PROD shows the issuer's ring (R605). -/
def State.rsNotice (s : State) (eid ctx : Nat) : State :=
  if eid = s.lmf.eid then (match s.boundFn ctx with | some (p, f) => s.rsFn p f | none => s) else s

/-- Write a notice record to an issuer's ring, or only count it (R579 to R581, R614). -/
def State.notice (s : State) (eid ctx kind : Nat) (aborted : Bool) (st : Status) (src obj deadline : Nat) : State :=
  let k := issuerKey eid ctx
  let g := Tab.getD s.bci.rings k NoticeRing.empty
  match g.ring with
  | none => { s with bci.rings := Tab.set s.bci.rings k { g with count := g.count + 1 } }
  | some ring =>
    if (g.prod + 16777216 - g.cons) % 16777216 = 2 ^ ring.log2 then
      { s with bci.rings := Tab.set s.bci.rings k { g with dropped := min 65535 (g.dropped + 1) } }
    else
      let ws : List Word := [BitVec.ofNat 32 g.seq, BitVec.ofNat 32 (kind + 16 * b2n aborted + 65536 * st.code),
        BitVec.ofNat 32 (ctx + 4096 * src + 65536 * g.dropped), BitVec.ofNat 32 obj] ++ two deadline ++ two s.now
      match s.recordAt ring.key (ring.off + 32 * (g.prod % 2 ^ ring.log2)) (bytesOf ws) with
      | none => (({ s with bci.rings := Tab.set s.bci.rings k { g with ring := none, count := g.count + 1 } }).rsNotice eid ctx).lostRecord ring.key ring.off ctx
      | some s =>
        let g' : NoticeRing := { g with prod := (g.prod + 1) % 16777216, seq := (g.seq + 1) % 4294967296, dropped := 0, count := g.count + 1 }
        let s := { s with bci.rings := Tab.set s.bci.rings k g' }
        if eid = s.lmf.eid then
          match s.boundFn ctx with
          | some (p, f) => (s.rsFn p f).vector p f 1
          | none => s
        else s.emit (.notice eid ctx g.seq)

/-- The notice of work whose admin issuer may have no context (R876): then it is only counted. -/
def State.noticeTo (s : State) (who : Option (Nat × Nat)) (kind : Nat) (aborted : Bool) (st : Status) (src obj deadline : Nat) : State :=
  match who with
  | some (eid, ctx) => s.notice eid ctx kind aborted st src obj deadline
  | none => s

/-- The words of a fault record (R86). -/
def FaultRec.words (f : FaultRec) : List Word :=
  [BitVec.ofNat 32 f.seq, BitVec.ofNat 32 (f.ctx + 4096 * f.kind + 65536 * f.access + 1048576 * b2n f.runTime + 8388608 * f.hw), BitVec.ofNat 32 f.key]
   ++ two (f.off % 2 ^ 52) ++ [BitVec.ofNat 32 f.eid] ++ two f.time

/-- Is there a fault ring with space (R87, R614)? -/
def State.faultRoom (s : State) : Bool :=
  match Tab.get? s.home.faultRings s.host.owner with
  | none => false
  | some g =>
    let w := s.fnWin s.host.owner 0
    (s.live s.lmf.eid g.key).isSome && decide ((w.faultProd + 16777216 - w.faultCons) % 16777216 ≠ 8192)

/-- Write one fault record into the ring and signal it (R87, R614); a write that fails loses the binding (R871). -/
def State.faultWrite (s : State) (f : FaultRec) : State :=
  match Tab.get? s.home.faultRings s.host.owner with
  | none => s
  | some g =>
    let o := s.host.owner
    let w := s.fnWin o 0
    match s.recordAt g.key (g.off + 32 * (w.faultProd % 8192)) (bytesOf f.words) with
    | none => (({ s with home.faultRings := Tab.erase s.home.faultRings o }).rsFn o 0).lostRecord g.key g.off 0
    | some s =>
      let s := { s with home.faults := s.home.faults.map (fun (q : FaultRec) => if q.seq = f.seq then { q with written := true } else q) }
      let w := s.fnWin o 0
      ((s.setFnWin o 0 { w with faultProd := (w.faultProd + 1) % 16777216 }).rsFn o 0).vector o 0 3

/-- Write every unresolved record that is not in the ring, in SEQ order, while there is room (R87, R88). -/
def State.faultFlushN (s : State) : Nat → State
  | 0 => s
  | n + 1 =>
    if s.faultRoom then
      match s.home.faults.find? (fun f => !f.written) with
      | some f => (s.faultWrite f).faultFlushN n
      | none => s
    else s

/-- `faultFlushN` over all records. -/
def State.faultFlush (s : State) : State := s.faultFlushN s.home.faults.length

/-- The unit of a host port. -/
def hostUnit (p : Nat) : Nat := p / 2 * 256 + 94 + p % 2
/-- The unit of the port that a partner record names (R684). -/
def partnerUnit (kind loc : Nat) : Nat := match kind with | 1 => lmfUnit loc | 2 => hostUnit loc | _ => driveUnit loc

/-- Write a partner record (R684): history of 1,024, the trace of the port's die, the port's cairn entry for an event of a link (R811), and
PARTNER_NOTE to the fabric manager. -/
def State.partner (s : State) (event kind loc width ver eid inc : Nat) : State :=
  let p : PartnerRec :=
    { seq := s.lmf.partnerSeq, event := event, kind := kind, loc := loc, width := width, ver := ver, eid := eid, inc := inc, time := s.now }
  let ws : List Word := [BitVec.ofNat 32 p.seq, BitVec.ofNat 32 (event + 16 * kind + 256 * loc + 65536 * width + 262144 * ver), BitVec.ofNat 32 eid,
    BitVec.ofNat 32 inc] ++ two s.now ++ [0, 0]
  let s :=
    { s with
      lmf.history := (p :: s.lmf.history).take 1024
      lmf.partnerSeq := (s.lmf.partnerSeq + 1) % 4294967296 }
  let hw := partnerUnit kind loc
  let s := s.traceGen (hw / 256) 4 2 s.now ws
  let s := if 5 ≤ event ∧ event ≤ 7 then s else s.cairn hw 0x30 0 event
  if s.lmf.joined then s.emit (.evt s.lmf.fmEid 10 (ws.map BitVec.toNat)) else s

/-- The port ingress unit of a host port's die (R792). -/
def ingressUnit (p : Nat) : Nat := p / 2 * 256 + 255
/-- Enter fail-stop on a cause row of R745 (R746): the record is held in AON, every unit's ring takes its last entry, links go
to electrical idle, nothing else is sent or written. -/
def State.failStop (s : State) (row : Nat) : State :=
  if s.rel.failCause.isSome then s
  else
    let r : ErrorRec :=
      { seq := s.rel.errSeq, cls := 11, layer := 0, st := .state, hw := anyUnit s.freeCtr, loc := 0, ctx := 0, key := 0, off := 0, eid := 0,
        sig := s.freeCtr, count := 1, aux := 0, agents := 0, time := s.now }
    let e : Cairn := { time := s.now, code := 240, ctx := 0, payload := row }
    { s with
      out := .ibi 1 :: s.out
      freeCtr := s.freeCtr + 1
      obs.cairns := (upto 512).map (fun u => (u, (e :: Tab.getD s.obs.cairns u []).take 64))
      obs.writes := (upto 512).map (fun u => (u, Tab.getD s.obs.writes u 0 + 1))
      rel.failRecord := some r
      rel.failCause := some row
      lmf.ports := s.lmf.ports.map (fun e => (e.1, { e.2 with st := .down, replay := [] }))
      host.ports := s.host.ports.map (fun e => (e.1, { e.2 with up := false })) }

/-- FAIL_STOP_N is asserted at every fail-stop and stays asserted until PKG_RST_N falls (R847). -/
def State.failStopPin (s : State) : Bool := s.rel.failCause.isSome

end Sys2Proof.Machine
end

