-- ==== Sys2Proof/Machine/Work.lean ====
section
/-! DEFINITION. The work of the engines as the rest of the machine sees it: which core and engine a slot belongs to (08, 09), and how a kernel stops (R374, R377, R378). -/

namespace Sys2Proof.Machine

/-- The slot header of an instruction of a Slaica core. -/
def hdrOf (c : Instr) : Option SlotHdr :=
  match c with
  | .nop h => some h
  | .add h _ => some h
  | .sub h _ => some h
  | .addi h _ => some h
  | .li h _ => some h
  | .mul h _ => some h
  | .mulh h _ => some h
  | .mulhu h _ => some h
  | .div h _ => some h
  | .divu h _ => some h
  | .rem h _ => some h
  | .and h _ => some h
  | .or h _ => some h
  | .xor h _ => some h
  | .shl h _ => some h
  | .shr h _ => some h
  | .sra h _ => some h
  | .slt h _ => some h
  | .sltu h _ => some h
  | .pcmp h _ => some h
  | .pset h _ => some h
  | .fadd h _ => some h
  | .fmul h _ => some h
  | .ffma h _ => some h
  | .fcvt h _ => some h
  | .ld h _ => some h
  | .st h _ => some h
  | .amo h _ => some h
  | .smovs h _ => some h
  | .smovt h _ => some h
  | .mset h _ => some h
  | .mget h _ => some h
  | .pcvtH2d h _ => some h
  | .pcvtD2h h _ => some h
  | .vadd h _ => some h
  | .vsub h _ => some h
  | .vmul h _ => some h
  | .vfma h _ => some h
  | .vmin h _ => some h
  | .vmax h _ => some h
  | .vabs h _ => some h
  | .vneg h _ => some h
  | .vand h _ => some h
  | .vor h _ => some h
  | .vxor h _ => some h
  | .vshl h _ => some h
  | .vshr h _ => some h
  | .vcmp h _ => some h
  | .vsel h _ => some h
  | .vbcast h _ => some h
  | .vcvt h _ => some h
  | .vexp2 h _ => some h
  | .vrcp h _ => some h
  | .vrsqrt h _ => some h
  | .vred h _ => some h
  | .vld h _ => some h
  | .vst h _ => some h
  | .dmaCopy h _ => some h
  | .dmaRw h _ => some h
  | .mma h _ => some h
  | .mmv h _ => some h
  | .mload h _ => some h
  | .mdrain h _ => some h
  | .mclr h _ => some h
  | .br h _ => some h
  | .brx h _ => some h
  | .waitcnt h _ => some h
  | .halt h _ => some h
  | .belayRel h _ => some h
  | .belayAcq h _ => some h
  | _ => none

/-- The engine of a slot (R320, R346): 0 scalar, 1 vector, 2 matrix, 3 DMA, 4 control. -/
def engineOf (c : Instr) : Nat :=
  match c with
  | .vld _ _ => 1
  | .vst _ _ => 1
  | c =>
    match hdrOf c with
    | some h => if h.slot < 2 then 0 else if h.slot < 4 then 1 else if h.slot = 4 then 2 else if h.slot < 7 then 3 else 4
    | none => 4

/-- The core of a slot's access, or of a transfer, a belay or a fetch of a kernel. -/
def coreOf (c : Instr) : Option Nat :=
  match c with
  | .dmaTransferEnd n _ => some n
  | .belayRelStore n _ => some n
  | .belayAcqSatisfied n _ => some n
  | .bundleDispatch n => some n
  | c => (hdrOf c).map SlotHdr.core

/-- The context of a kernel descriptor (R369). -/
def kernelCtx (words : List Word) : Nat := fld (wAt words 1) 11 0

/-- The engine and the bundle of an access of a core: a slot's, a transfer's, a belay's, or the front end's (5). -/
def Core.accessOf (c : Core) (cmd : Instr) : Nat × Nat :=
  match cmd with
  | .dmaTransferEnd _ id => (3, match c.transfers.find? (fun t => decide (t.id = id)) with | some t => t.bundle | none => 0)
  | .belayRelStore _ id => (match c.belays.find? (fun b => decide (b.id = id)) with | some b => (b.engine, b.bundle) | none => (4, 0))
  | .belayAcqSatisfied _ id => (match c.belays.find? (fun b => decide (b.id = id)) with | some b => (b.engine, b.bundle) | none => (4, 0))
  | .bundleDispatch _ => (5, match c.kernel with | some k => k.pos | none => 0)
  | cmd =>
    let e := engineOf cmd
    (e, match Tab.getD c.queues e [] with
      | q :: _ => q.bundle
      | [] => match c.kernel with | some k => k.pos | none => 0)

/-- The bundle of the slot at the front of an engine's queue. -/
def Core.frontBundle (c : Core) (engine : Nat) : Nat :=
  match Tab.getD c.queues engine [] with
  | q :: _ => q.bundle
  | [] => match c.kernel with | some k => k.pos | none => 0

/-- The number of the bundle an engine stands at: that of the slot at the front of its queue. -/
def Core.frontSeq (c : Core) (engine : Nat) : Nat :=
  match Tab.getD c.queues engine [] with
  | q :: _ => q.seq
  | [] => match c.kernel with | some k => k.seq | none => 0

/-- End a kernel (R374, R377 to R379): its status and exception are fixed by what came first; the engine that raised the exception
performs nothing more, and the others stop at the boundary of its bundle. A reset, a fence or a deadline stops every engine, and
each acquire and counter wait ends (R339). A kernel that is not yet running ends as soon as it runs. -/
def State.kernelStop (s : State) (n exc : Nat) (st : Status) (engine bundle : Nat) : State :=
  let c := s.core n
  match c.kernel with
  | none => s
  | some k =>
    let all := decide (9 ≤ exc ∧ exc ≤ 11)
    let cut := c.frontSeq engine
    let first := decide (k.exc = 0 ∧ k.st = .ok)
    let k' : KernelRun := if first then { k with st := st, exc := exc, engine := engine, bundle := bundle } else k
    let s := s.event (coreUnit n engine) 6 (b2n (first && decide (exc ≠ 0))) (some (kernelCtx k.words))
    let queues : Tab (List QSlot) :=
      if all then [] else c.queues.map (fun e => (e.1, if e.1 = engine then [] else e.2.filter (fun q => decide (q.seq ≤ cut))))
    let c' : Core :=
      { c with
        kernel := some k'
        queues := queues
        belays := if all then c.belays.filter (fun (b : Belay) => !b.acq) else c.belays
        waitId := if all then none else c.waitId
        st := match c.st with
          | .running => .draining
          | .stalled => .draining
          | .saving => .draining
          | x => x }
    let s := s.setCore n c'
    if all then
      { s with
        home.waits := s.home.waits.filter (fun (w : Wait) => decide (w.who ≠ .core n))
        home.held := s.home.held.filter (fun (h : Held) => match coreOf h.cmd with | some x => decide (x ≠ n) | none => true) }
    else s

/-- An access of a core's slot, transfer, belay or front end has failed: the transfer or belay is over, and the kernel stops (R377,
R378, R409). -/
def State.accessFail (s : State) (cmd : Instr) (exc : Nat) (st : Status) : State :=
  match coreOf cmd with
  | none => s
  | some n =>
    let c := s.core n
    let at' := c.accessOf cmd
    let c := match cmd with
      | .dmaTransferEnd _ id => { c with transfers := c.transfers.filter (fun (t : Transfer) => decide (t.id ≠ id)) }
      | .belayRelStore _ id => { c with belays := c.belays.filter (fun (b : Belay) => decide (b.id ≠ id)) }
      | .belayAcqSatisfied _ id => { c with belays := c.belays.filter (fun (b : Belay) => decide (b.id ≠ id)) }
      | _ => c
    let s' := match cmd with
      | .dmaTransferEnd _ id => (match (s.core n).transfers.find? (fun (t : Transfer) => decide (t.id = id)) with | some t => s.uncapture id t.pages | none => s)
      | _ => s
    (s'.setCore n c).kernelStop n exc st at'.1 at'.2

/-- The words of a kernel completion record (R376). -/
def kernelRecord (k : KernelRun) (flags : BitVec 5) (now : Nat) : List Word :=
  [BitVec.ofNat 32 (k.st.code + 65536 * k.exc + 16777216 * b2n k.tsKept), BitVec.ofNat 32 (flags.toNat + (if k.exc = 0 then 0 else 256 * k.engine)),
   BitVec.ofNat 32 k.bundle, BitVec.ofNat 32 k.suspends] ++ two k.start ++ two now

/-- A kernel has ended: its completion record is written as a direct update and signalled, and its pages are given back (R375,
R376, R79, R871). -/
def State.kernelFinish (s : State) (k : KernelRun) (flags : BitVec 5) : State :=
  let key := wAt k.words 26
  let off := dAt k.words 27
  let old := s.remapped k.id k.pages
  let s := s.overlay k.id k.pages
  let s := match s.recordHeld k.pages key off (bytesOf (kernelRecord k flags s.now)) with
    | some t => t
    | none => s.lostRecord key off (kernelCtx k.words)
  let s := (s.restore old).uncapture k.id k.pages
  let s := { s with bci.deadlines := s.bci.deadlines.filter (fun (d : Deadline) => decide (d.id ≠ k.id)) }
  match k.port with
  | some p => s.vector p 0 2
  | none => s

/-- End a suspended kernel without resuming it: its saved state is freed and its record written (R92, R379). -/
def State.endSaved (s : State) (n : Nat) (v : Saved) (exc : Nat) (st : Status) : State :=
  let c := s.core n
  let s := s.setCore n { c with saved := c.saved.filter (fun (x : Saved) => decide (x.kernel.id ≠ v.kernel.id)) }
  let s := v.transfers.foldl (fun (s : State) t => s.uncapture t.id t.pages) s
  let k : KernelRun := if v.kernel.exc = 0 ∧ v.kernel.st = .ok then { v.kernel with st := st, exc := exc } else v.kernel
  (s.workEnd (coreUnit n 0) (kernelCtx k.words) k.st k.exc).kernelFinish k v.flags

/-- An IDLE core takes back a suspended kernel whose fault has been resolved, before any new dispatch (R374). -/
def State.restoreNext (s : State) (n : Nat) : State :=
  let c := s.core n
  if c.st = .idle ∧ c.kernel = none ∧ c.saved.any (fun v => v.resolved) = true then s.setCore n { c with st := .restoring } else s

/-- A kernel as it is before it runs. -/
def KernelQ.run (k : KernelQ) : KernelRun :=
  { id := k.id, words := k.words, port := k.port, pages := k.pages, tsKept := false, lineMode := false, pos := wAt k.words 6, seq := 0, start := 0,
    started := false, suspends := 0, st := .ok, exc := 0, engine := 0, bundle := 0, stalledOn := 0, stalledAt := 0 }

/-- A kernel that is still queued ends (R96, R374): its record is written. -/
def State.endQueued (s : State) (k : KernelQ) (exc : Nat) (st : Status) : State :=
  State.kernelFinish { s with kernels := s.kernels.filter (fun (x : KernelQ) => decide (x.id ≠ k.id)) } { k.run with exc := exc, st := st } 0

/-- The first page of a queued kernel's code that was absent when it was queued (R79) and still stands at a fault entry or has its fault
unresolved (R94). -/
def State.codeAbsent (s : State) (k : KernelQ) : Option (Nat × Nat) :=
  let rid := s.ridOf s.lmf.eid (wAt k.words 2)
  match s.region? rid with
  | none => none
  | some rg => (k.pages.find? (fun c => decide (c.1 = rid) && decide (c.2.2 = 0) &&
      (decide (rg.entry c.2.1 = .fault) || s.home.faults.any (fun f => decide (f.rid = rid ∧ f.page = c.2.1 ∧ f.kind = 1))))).map (fun c => (rid, c.2.1))

/-- The completion record of a memory-side operation (R268). -/
def recordWords (st : Status) (equal : Bool) (result : Nat) : List Word := [BitVec.ofNat 32 (st.code + 65536 * b2n equal), 0] ++ two result

/-- Does a queued memory-side operation read through a pin (R260)? -/
def State.pinUsed (s : State) (id : Nat) : Bool := s.home.memops.any (fun m => decide (fld (wAt m.words 0) 7 0 ≠ 1) && decide (wAt m.words 11 = id))

/-- Take a pin away: its references go, and with them the versions nothing else holds (R222). -/
def State.erasePin (s : State) (id : Nat) : State :=
  match Tab.get? s.home.pins id with
  | none => s
  | some pin => (State.uncapture { s with home.pins := Tab.erase s.home.pins id } (pinHolder id) (pin.pages.map (fun (e : Nat × Nat × Nat) => (pin.rid, e.1, e.2.2)))).trimOlds

/-- End a pin (R222): no READ_AT finds it any longer; where a queued operation reads through it, its pages stay until that ends (R82, R260). -/
def State.endPin (s : State) (id : Nat) : State :=
  if s.pinUsed id then { s with home.pins := Tab.modify s.home.pins id (fun (p : Pin) => { p with ended := true }) } else s.erasePin id

/-- The pins that have ended and that nothing reads through any longer. -/
def State.sweepPins (s : State) : State :=
  (s.home.pins.filter (fun e => e.2.ended && !s.pinUsed e.1)).foldl (fun (s : State) e => s.erasePin e.1) s

/-- End a memory-side operation: its completion record is written, or lost (R268, R871), and its pages are given back (R79). -/
def State.memopFinish (s : State) (id : Nat) (ws : List Word) : State :=
  match s.home.memops.find? (fun m => decide (m.id = id)) with
  | none => s
  | some m =>
    let old := s.remapped id m.pages
    let s := s.overlay id m.pages
    let s := match s.recordHeld m.pages m.cmplKey m.cmplOff (bytesOf ws) with
      | some t => t
      | none => s.lostRecord m.cmplKey m.cmplOff m.ctx
    let s := (s.restore old).uncapture id m.pages
    let s := match m.unit with | some hw => s.cairn hw 0x11 m.ctx ((ws.headD 0).toNat % 65536) | none => s
    State.sweepPins { s with
      home.memops := s.home.memops.filter (fun (x : MemOp) => decide (x.id ≠ id))
      home.held := s.home.held.filter (fun (h : Held) => decide (h.cmd ≠ Instr.memopEnd id))
      bci.deadlines := s.bci.deadlines.filter (fun (d : Deadline) => decide (d.id ≠ id)) }

/-- The work of a query, batch or micro-batch whose access has ended with a status ends with it: its command is performed once more and finds the
status (R92, R96). -/
def State.endWork (s : State) (c : Instr) (st : Status) : State :=
  let again (s : State) : State := { s with resume := s.resume ++ [{ cmd := c, since := none }] }
  let query (id : Nat) : State :=
    again { s with trav.queries := s.trav.queries.map (fun (q : Query) => if q.id = id ∧ q.final = none then { q with final := some st } else q) }
  match c with
  | .queryStart id => query id
  | .shardWalk id _ => query id
  | .batchStart _ id => again { s with mor.batches := s.mor.batches.map (fun (b : Batch) => if b.id = id ∧ b.final = none then { b with fail := some st } else b) }
  | .microBatchEnd id _ => again { s with expert.batches := s.expert.batches.map (fun (b : MicroBatch) => if b.id = id then { b with fail := some st } else b) }
  | _ => s

/-- The kernels of a context that are on a core. -/
def State.coresOf (s : State) (f : KernelRun → Bool) : List Nat :=
  (upto 4).filter (fun n => match (s.core n).kernel with | some k => f k | none => false)

end Sys2Proof.Machine
end

