-- ==== Sys2Proof/Machine/Hold.lean ====
section
/-! DEFINITION. Arrival, holding and completion: the checks of an LMF request on arrival (02, 17), faults and what is held on them (02), the result log (06), updates forwarded to a mirror partner (19), the framing of BCI requests and their responses (14, 15). -/

namespace Sys2Proof.Machine

/-- The LMF request a command carries. -/
def reqOf (c : Instr) : Option LmfReq :=
  match c with
  | .lmfLoad q => some q
  | .lmfStore q _ => some q
  | .countedWrite q _ _ => some q
  | .rdShared q _ => some q
  | .rdOwn q _ => some q
  | .upgrade q _ => some q
  | .invOwn q _ => some q
  | .wbDirty q _ _ _ => some q
  | .evictClean q _ => some q
  | .rdUnc q => some q
  | .wrUnc q _ _ => some q
  | .ackInv q _ => some q
  | .rspFwd q _ _ _ _ => some q
  | .rspFlush q _ _ _ _ => some q
  | .rspNotHeld q _ => some q
  | .recallDone q _ => some q
  | .mirrorUpdate q _ _ _ => some q
  | .belayAccess q _ _ => some q
  | .shardRegister q _ _ _ => some q
  | .mirrorPartnerRead q _ => some q
  | _ => none

/-- The BCI request a command carries. -/
def bciOf (c : Instr) : Option BciReq :=
  match c with
  | .publish r => some r
  | .publishIf r => some r
  | .discard r => some r
  | .versionQuery r => some r
  | .versionPin r => some r
  | .versionUnpin r => some r
  | .readAt r => some r
  | .counterAlloc r => some r
  | .counterFree r => some r
  | .counterReset r => some r
  | .counterRead r => some r
  | .waitCount r => some r
  | .atomic r => some r
  | .atomicStatus r => some r
  | .memop r => some r
  | .clearPoison r => some r
  | .faultRingSet r => some r
  | .faultResolve r => some r
  | .faultResolveAbort r => some r
  | .create r => some r
  | .destroy r => some r
  | .regionSet r => some r
  | .grant r => some r
  | .revoke r => some r
  | .map r => some r
  | .unmap r => some r
  | .convert r => some r
  | .ctxCreate r => some r
  | .ctxSet r => some r
  | .ctxReset r => some r
  | .ctxDestroy r => some r
  | .tierSet r => some r
  | .tierDrain r => some r
  | .tierDrainCancel r => some r
  | .expertSet r => some r
  | .expertClear r => some r
  | .laneAdd r => some r
  | .laneRemove r => some r
  | .expertPolicySet r => some r
  | .ssdEnter r => some r
  | .ssdExit r => some r
  | .indexCreate r => some r
  | .indexDestroy r => some r
  | .trvQuery r => some r
  | .trvInsert r => some r
  | .trvDelete r => some r
  | .trvMerge r => some r
  | .trvMergeCancel r => some r
  | .embTableCreate r => some r
  | .embTableDestroy r => some r
  | .morBatch r => some r
  | .embSwap r => some r
  | .ropeSet r => some r
  | .ropeAgentAdd r => some r
  | .ropeAgentRemove r => some r
  | .fence r => some r
  | .hello r => some r
  | .opStatus r => some r
  | .configSet r => some r
  | .configGet r => some r
  | .noticeRingSet r => some r
  | .fwStage r => some r
  | .fwActivate r => some r
  | .fwInfo r => some r
  | .errlogRead r => some r
  | .healthRead r => some r
  | .relSet r => some r
  | .relGet r => some r
  | .quarantine r => some r
  | .quarantineRelease r => some r
  | .spareSet r => some r
  | .rebuildStart r => some r
  | .takeover r => some r
  | .journalClaim r => some r
  | .journalOffer r => some r
  | .journalAccept r => some r
  | .journalRelease r => some r
  | .journalQuery r => some r
  | .journalAssign r => some r
  | .cntRead r => some r
  | .cntMode r => some r
  | .cntReset r => some r
  | .cntSnapshot r => some r
  | .cntFreeze r => some r
  | .cntUnfreeze r => some r
  | .cntCtxSet r => some r
  | .bwRead r => some r
  | .crnRead r => some r
  | .trcSet r => some r
  | .partnerRead r => some r
  | _ => none

/-- The LMF packet a BCI request came in. -/
def srcReq : BciSrc → Option LmfReq
  | .lmfBci q => some q
  | .lmf q => some q
  | _ => none

/-- Send a completion in class RSP on the request's port (R662): the packet has a header of 32 bytes (R796). -/
def State.complete (s : State) (q : LmfReq) (st : Status) (data : Bytes) : State :=
  (s.event (lmfUnit q.port) 1 (32 + data.length) none).emit (.cpl q.srcEid q.tag q.gen st data)

/-- The result log of an issuer at a home EID, kept apart for an adopted one (R249, R752). -/
def State.logKey (s : State) (home eid ctx : Nat) : Nat := ((if home = s.lmf.eid then 0 else home) * 262144 + eid) * 4096 + ctx

/-- The entries of a log, newest first. -/
def State.logOf (s : State) (k : Nat) : List LogEntry := Tab.getD s.home.logs k []

/-- The entry of an LSEQ. -/
def State.logFind (s : State) (k lseq : Nat) : Option LogEntry := (s.logOf k).find? (fun e => decide (e.lseq = lseq))

/-- Write an entry; a full log loses the entry written earliest (R249). -/
def State.logPut (s : State) (k : Nat) (e : LogEntry) : State :=
  { s with home.logs := Tab.set s.home.logs k ((e :: (s.logOf k).filter (fun (x : LogEntry) => decide (x.lseq ≠ e.lseq))).take 16384) }

/-- Log the completion of an operation (R249). -/
def State.logDone (s : State) (k lseq : Nat) (st : Status) (value : Nat) : State :=
  s.logPut k { lseq := lseq, tomb := false, st := st, value := value, time := s.now }

/-- The log entry of this moment as it travels to a mirror partner (R255). -/
def State.noteOf (s : State) (eid ctx lseq : Nat) (st : Status) (value : Nat) : LogNote :=
  { eid := eid, ctx := ctx, lseq := lseq, st := st, value := value, time := s.now }

/-- Does `a` precede `b` in the order of LSEQ (R878)? -/
def lseqBefore (a b : Nat) : Bool :=
  let d := (b + 4294967296 - a % 4294967296) % 4294967296
  decide (1 ≤ d) && decide (d ≤ 2147483647)

/-- The highest LSEQ of a log (R878). -/
def logHead (es : List LogEntry) : Nat :=
  match es with
  | [] => 0
  | e :: t => t.foldl (fun m x => if lseqBefore m x.lseq then x.lseq else m) e.lseq

/-- Log an atomic or counted write that an engine of this controller performs at this home (R242, R248, R249): it takes the LSEQ after the highest
of its context's log here (DESIGN CHOICE, log 18). The note is what a mirror partner gets (R255). -/
def State.selfLog (s : State) (home ctx : Nat) (st : Status) (value : Nat) : State × LogNote :=
  let k := s.logKey home s.lmf.eid ctx
  let lseq := (logHead (s.logOf k) + 1) % 4294967296
  (s.logDone k lseq st value, s.noteOf s.lmf.eid ctx lseq st value)

/-- The words a logged result is answered with. -/
def loggedWords (st : Status) (value n : Nat) : List Word :=
  match st with
  | .ok => (two value ++ two (value / 2 ^ 64)).take n
  | .versionConflict => (two value ++ two (value / 2 ^ 64)).take n
  | _ => []

/-- The LIMIT of a request; a version 2 requester's is its arrival plus half of TXN_TIMEOUT (R654). -/
def State.limitOf (s : State) (q : LmfReq) : Nat := if q.limit = 0 then s.replayOf.getD s.now + s.bci.txnTimeout / 2 else q.limit

/-- When a held LMF request has to be completed with ST_PAUSED: the fault hold time from its first fault, and 10 µs before
LIMIT (R95, R670). -/
def State.holdEnd (s : State) (q : LmfReq) : Nat := min (s.replayOf.getD s.now + s.bci.faultHold) (s.limitOf q - 10000)

/-- When a held host-port access or BCI command has been held for the fault hold time (R631, R872). -/
def State.holdEndPlain (s : State) : Nat := s.replayOf.getD s.now + s.bci.faultHold

/-- The number of a hold: the command's arrival number, or the next one where that is in use. -/
def State.holdNo (s : State) : Nat := if s.home.held.any (fun h => decide (h.id = s.arrivalNo)) then s.nextId else s.arrivalNo

/-- The bytes that lines performed before have returned to the command being performed (R873). -/
def State.gotSoFar (s : State) : Bytes := match s.replay with | some a => a.got | none => []

/-- The NACKs the command being performed has had. -/
def State.nacksSoFar (s : State) : Nat := match s.replay with | some a => a.retry | none => 0

/-- Hold a command (R95): `limit` 0 holds it without a time limit. -/
def State.holdCmd (s : State) (cmd : Instr) (why : HoldWhy) (limit eid ctx : Nat) : State :=
  { s with
    home.held := s.home.held ++ [({ id := s.holdNo, cmd := cmd, why := why, since := s.replayOf.getD s.now, limit := limit, eid := eid, ctx := ctx, retry := s.nacksSoFar, got := s.gotSoFar } : Held)]
    nextId := s.nextId + 1 }

/-- Agents' endpoint. -/
def State.agentEid (s : State) (a : Nat) : Nat := match Tab.get? s.rope.agents a with | some g => g.eid | none => 0

/-- Send a coherence message to an agent (R284); snoops count at the line's directory slice (R796). -/
def State.toAgent (s : State) (a op rid ln flag : Nat) (data : Bytes) : State :=
  (s.event (dirUnit ln) 6 (if op < 52 then 1 else 0) none).emit (.coh (s.agentEid a) op 0 0 (s.keyOf rid) (ln * 64) flag data)

/-- Replace a line's entry. -/
def State.setLine (s : State) (rid ln : Nat) (l : Line) : State := { s with rope.lines := Tab.set s.rope.lines (lineKey rid ln) l }

/-- Free a line's entry (R281); a reservation queue it holds stays with a stable entry in I (R302). -/
def State.freeLine (s : State) (rid ln : Nat) : State :=
  match s.line? rid ln with
  | some l =>
    if l.resv = [] then { s with rope.lines := Tab.erase s.rope.lines (lineKey rid ln) }
    else s.setLine rid ln { l with st := .i, owner := 0, sharers := [], awaited := [], req := .none, snoop := 0, wbSeen := false, armed := 0, resvSince := s.now }
  | none => s

/-- Ask a line's holders for it on behalf of an access of the home or a member (R246, R272, R291): sharers are invalidated, an
owner flushes. -/
def State.askLine (s : State) (rid ln : Nat) (req : LineReq) : State :=
  match s.line? rid ln with
  | none => s
  | some l =>
    match l.st with
    | .s =>
      let s := s.setLine rid ln { l with st := .invWait, awaited := l.sharers, req := req, snoop := 50, wbSeen := false, armed := s.now }
      l.sharers.foldl (fun s a => s.toAgent a 50 rid ln 0 []) s
    | .e =>
      (s.setLine rid ln { l with st := .fwdWait, awaited := [l.owner], req := req, snoop := 51, wbSeen := false, armed := s.now }).toAgent l.owner 51 rid ln 0 []
    | .m =>
      (s.setLine rid ln { l with st := .fwdWait, awaited := [l.owner], req := req, snoop := 51, wbSeen := false, armed := s.now }).toAgent l.owner 51 rid ln 0 []
    | _ => s

/-- Is a line's state one in which it serves no request? -/
def LineState.stable : LineState → Bool
  | .i => true
  | .s => true
  | .e => true
  | .m => true
  | _ => false

/-- Drop an entry that says nothing. -/
def State.tidyLine (s : State) (rid ln : Nat) : State :=
  match s.line? rid ln with
  | some l => if l.st = .i ∧ l.resv = [] then { s with rope.lines := Tab.erase s.rope.lines (lineKey rid ln) } else s
  | none => s

/-- A request of an endpoint is performed: as the head of the line's queue it leaves it (R303). -/
def State.served (s : State) (rid ln eid : Nat) : State :=
  match s.line? rid ln with
  | some l => if l.resv.head? = some eid then s.setLine rid ln { l with resv := l.resv.tail, resvSince := s.now } else s
  | none => s

/-- An endpoint's NACKed request with RETRY of 8 or more joins the line's reservation queue, unless it is in it, the queue is full or no queue is
free (R301, R304). -/
def State.reserve (s : State) (rid ln eid retry : Nat) : State :=
  let l := (s.line? rid ln).getD { st := .i, owner := 0, sharers := [], awaited := [], req := .none, snoop := 0, wbSeen := false, armed := 0, granted := 0, resv := [], resvSince := 0 }
  let queues := (s.rope.lines.filter (fun e => decide (e.2.resv ≠ []))).length
  if 8 ≤ retry ∧ eid ∉ l.resv ∧ l.resv.length < 4 ∧ (l.resv ≠ [] ∨ queues < 4096) then
    (s.setLine rid ln { l with resv := l.resv ++ [eid], resvSince := if l.resv = [] then s.now else l.resvSince }).event (dirUnit ln) 2 1 none
  else s

/-- Does the home NACK its own request for a line: in a transient state, or reserved for another requester (R291, R302)? -/
def State.lineNacks (s : State) (rid ln : Nat) : Bool :=
  match s.line? rid ln with
  | none => false
  | some l => !l.st.stable || (decide (l.resv ≠ []) && decide (l.resv.head? ≠ some s.lmf.eid))

/-- Give the lines that answered for a command back to the home's copy, so that the command finds them in I. -/
def State.claim (s : State) (cmd : Instr) : State :=
  (s.rope.lines.filter (fun e => decide (e.2.req = .access cmd) && decide (e.2.awaited = []))).foldl
    (fun s e => s.freeLine (e.1 / 18446744073709551616) (e.1 % 18446744073709551616)) s

/-- A command that is performed again finds the lines that answered for it in I, and leaves the queue of the line it waited for, where that is now
its turn (R303). -/
def State.takeUp (s : State) (a : Again) : State :=
  let s := s.claim a.cmd
  match a.why with
  | .nacked rid ln _ => if s.lineNacks rid ln then s else (s.served rid ln s.lmf.eid).tidyLine rid ln
  | _ => s

/-- A command that waited for lines has ended without taking them: those that answered for it are free, and those still to answer serve nothing
(R281). -/
def State.forsake (s : State) (cmd : Instr) : State :=
  State.claim { s with rope.lines := s.rope.lines.map (fun (e : Nat × Line) =>
    if e.2.req = .access cmd ∧ e.2.awaited ≠ [] then (e.1, { e.2 with req := .none }) else e) } cmd

/-- Raise a fault on a page or attach to the record that stands (R85); a new record needs a place in the ring where `needRoom`
says so (R88). -/
def State.faultOn (s : State) (rid kind page access : Nat) (runTime : Bool) (hw off : Nat) (i : Issuer) (needRoom : Bool) : Option (State × Nat) :=
  match s.home.faults.find? (fun f => decide (f.rid = rid ∧ f.page = page ∧ f.kind = kind)) with
  | some f => some (s, f.seq)
  | none =>
    if needRoom && !s.faultRoom then none
    else
      let f : FaultRec :=
        { seq := s.home.faultSeq, rid := rid, page := page, kind := kind, access := access, runTime := runTime, hw := hw, key := s.keyOf rid,
          off := max off (page * 65536), eid := i.eid, ctx := i.ctx, time := s.now, written := false }
      some (({ s with home.faults := s.home.faults ++ [f], home.faultSeq := (s.home.faultSeq + 1) % 4294967296 }).faultFlush, f.seq)

/-- An access that ends with ST_QUOTA counts at Strata (R114, R796). -/
def State.quotaMet (s : State) (st : Status) : State := if st = .quota then s.strataEvent 7 1 else s

/-- How an access that met something is held. -/
structure HoldAs where
  cmd : Instr
  i : Issuer
  access : Nat
  runTime : Bool
  hw : Nat
  limit : Nat
  needRoom : Bool
  /-- Is it an engine's or a memory-side unit's work? -/
  work : Bool := false
  deriving DecidableEq, Repr

/-- A unit's work stalls on a fault record (R94, R811). -/
def State.stalled (s : State) (work : Bool) (hw ctx seq : Nat) : State :=
  if work then
    State.cairn { s with home.faults := s.home.faults.map (fun (f : FaultRec) => if f.seq = seq then { f with units := f.units ++ [(hw, ctx)] } else f) }
      hw 0x12 ctx seq
  else s

/-- The home NACKs a request of its own for a line: it is sent again after a time drawn from [b, 2b], with RETRY counted (R299 to R301). -/
def State.nackOwn (s : State) (rid ln : Nat) (a : HoldAs) : State :=
  let n := s.nacksSoFar
  let b := min (100 * 2 ^ n) 25600
  let until' := s.now + b + s.freeVal % (b + 1)
  let s := ((s.reserve rid ln s.lmf.eid (min n 15)).event (dirUnit ln) 1 1 none).freed
  let s := s.holdCmd a.cmd (.nacked rid ln until') 0 a.i.eid a.i.ctx
  { s with home.held := s.home.held.map (fun (h : Held) => if h.cmd = a.cmd ∧ h.why = .nacked rid ln until' then { h with retry := n + 1 } else h) }

/-- Drop clean victims until one is dirty, and begin its write-back (R124). -/
def State.startRoomN (s : State) : Nat → State
  | 0 => s
  | n + 1 =>
    match s.victim with
    | some v => if v.2.t0 = .clean then (s.evict v).startRoomN n else s.startEvict
    | none => s

/-- Begin what an access waits for that found no T0 page (R124). -/
def State.startRoom (s : State) : State := s.startRoomN s.t0Used

/-- Hold an access on what it met, or answer the status it completes with at once (R85, R88, R95, R181, R872). -/
def State.holdOn (s : State) (a : HoldAs) (rid off : Nat) (m : Met) : State × Option Status :=
  match m with
  | .clear => (s, none)
  | .stop st => (s.quotaMet st, some st)
  | .fault kind page =>
    match s.faultOn rid kind page a.access a.runTime a.hw off a.i a.needRoom with
    | some (s, seq) => ((s.stalled a.work a.hw a.i.ctx seq).holdCmd a.cmd (.fault seq) a.limit a.i.eid a.i.ctx, none)
    | none => (s, some .paused)
  | .recovering p => (s.holdCmd a.cmd (.recovery p) a.limit a.i.eid a.i.ctx, none)
  | .line r ln =>
    if s.lineNacks r ln then (s.nackOwn r ln a, none)
    else ((s.askLine r ln (.access a.cmd)).holdCmd a.cmd (.line r ln) 0 a.i.eid a.i.ctx, none)
  | .room => (s.startRoom.holdCmd a.cmd .room 0 a.i.eid a.i.ctx, none)

/-! ### Transactions of the controller -/

/-- The operations of the controller's own requests: the numbers stand for the operations of R661's OPCODE, whose values the spec
does not give. -/
def opLoad : Nat := 1
/-- A store. -/
def opStore : Nat := 2
/-- A counted write. -/
def opCounted : Nat := 3
/-- An atomic; its operands travel as data. -/
def opAtomic : Nat := 4
/-- A belay store. -/
def opBelay : Nat := 5
/-- An acquire request. -/
def opAcquire : Nat := 6
/-- RD_UNC (R284). -/
def opRdUnc : Nat := 0x28
/-- WR_UNC (R284): the 64 B of the line travel with the byte mask after them. -/
def opWrUnc : Nat := 0x29

/-- Does a request of the controller write? -/
def opWrites (op : Nat) : Bool := decide (op = opStore ∨ op = opCounted ∨ op = opBelay ∨ op = opWrUnc)

/-- The packet of a transaction (R661), which carries the controller's own incarnation (R681). -/
def Txn.packet (t : Txn) (port inc tag gen level : Nat) : Out :=
  .req port t.eid inc t.op tag gen level (min t.retry 15) t.ctx t.key t.off t.lseq t.ckey t.limit t.data

/-- The ports that are up and reach an endpoint (R668): those the route table lists for it, those attached to it, and, where the table lists none, those
attached to a switch (DESIGN CHOICE, log 23). -/
def State.portsTo (s : State) (eid : Nat) : List Nat :=
  let listed := Tab.getD s.lmf.routes eid []
  (s.lmf.ports.filter (fun e => decide (e.2.st = .up) && (listed.contains e.1 || decide (e.2.eid = eid) || (listed.isEmpty && decide (e.2.role = 3))))).map Prod.fst

/-- The level of a transaction of an operation (R657); coherence requests are P2, and reads of a TL copy, which the table does not name, P1. -/
def State.levelOf (s : State) (what : TxnUse) (op ctx n : Nat) : Nat :=
  if s.expert.ssd = some ctx then 3
  else if op = opRdUnc ∨ op = opWrUnc then 2
  else match what with
    | .tlWrite _ _ => 0
    | .mirror _ => 0
    | .kernel _ _ => if n ≤ 64 then 2 else 1
    | .belay _ _ => 2
    | _ => 1

/-- How many bytes a transaction asks for or brings. -/
def Txn.len (t : Txn) : Nat := if t.op = opLoad ∨ t.op = opRdUnc then leNat t.data else t.data.length

/-- Give a transaction a free TAG and send it, wholly on one port that reaches its destination (R668); where none does, nothing leaves and it ends at its
LIMIT (R673). One that finds every TAG in use waits among the backoffs, at time 0, until one is free (R667). -/
def State.issueTxn (s : State) (x : Txn) : State :=
  let tag := lowestFree ((s.lmf.tags.filter (fun e => e.2.live.isSome)).map Prod.fst) 0
  if 131072 ≤ tag then { s with lmf.backoffs := Tab.set s.lmf.backoffs s.nextId (x, 0), nextId := s.nextId + 1 }
  else
    let t : Txn := { x with limit := s.now + s.bci.txnTimeout }
    let gen := (Tab.getD s.lmf.tags tag { gen := 0, live := none }).gen
    let s := { s with lmf.tags := Tab.set s.lmf.tags tag { gen := gen, live := some t } }
    let ports := s.portsTo t.eid
    match ports[Config.portPick tag s.now % ports.length]? with
    | some port => (s.event (lmfUnit port) 1 (64 + t.data.length) none).emit (t.packet port s.lmf.inc tag gen (s.levelOf t.what t.op t.ctx t.len))
    | none => s

/-- A TAG may be free again: the transaction that has waited longest for one is sent (R667). -/
def State.tagFreed (s : State) : State :=
  match s.lmf.backoffs.find? (fun (e : Nat × Txn × Nat) => decide (e.2.2 = 0)) with
  | some (n, x, _) => State.issueTxn { s with lmf.backoffs := Tab.erase s.lmf.backoffs n } x
  | none => s

/-- Send a request under a TAG (R661, R667, R669); counted writes and atomics take the next LSEQ of their home and context (R248). -/
def State.sendTxn (s : State) (what : TxnUse) (ctx eid op key off ckey : Nat) (data : Bytes) (idem : Bool) : State :=
  let logged := decide (op = opCounted ∨ op = opAtomic)
  let who := eid * 4096 + ctx
  let lseq := if logged then (Tab.getD s.lmf.lseqs who 0 + 1) % 4294967296 else 0
  State.issueTxn { s with lmf.lseqs := if logged then Tab.set s.lmf.lseqs who lseq else s.lmf.lseqs }
    { what := what, eid := eid, ctx := ctx, key := key, off := off, lseq := lseq, ckey := ckey, op := op, data := data, idem := idem,
      tries := 0, retry := 0, limit := 0 }

/-- The transactions of a range at another controller, as pairs of offset and length: one for each block of 4 KiB (R663), or, at another member of
the rope team, one for each line (R272, R873). -/
def State.farCuts (s : State) (eid off n : Nat) : List (Nat × Nat) := if s.rope.members.contains eid then lineCuts off n else blocks off n

/-- Send a read of one of the `farCuts`: RD_UNC at another member of the rope team (R272, R300), for the member cannot know the mode of the region
there (DESIGN CHOICE, log 21); elsewhere a load. -/
def State.sendRead (s : State) (what : TxnUse) (ctx eid key off n : Nat) : State :=
  s.sendTxn what ctx eid (if s.rope.members.contains eid then opRdUnc else opLoad) key off 0 (natLE 4 n) true

/-- Send a write of one of the `farCuts`: WR_UNC of the line with its byte mask, or a store. -/
def State.sendWrite (s : State) (what : TxnUse) (ctx eid key off : Nat) (data : Bytes) : State :=
  if s.rope.members.contains eid then
    let k := off % 64
    let line := (List.replicate k (0 : Byte) ++ data ++ List.replicate (64 - k - data.length) 0).take 64
    s.sendTxn what ctx eid opWrUnc key (off - k) 0 (line ++ natLE 8 (2 ^ k * (2 ^ data.length - 1))) true
  else s.sendTxn what ctx eid opStore key off 0 data true

/-- Send the transactions of a range at a lender, one for each block of 4 KiB: reads, or writes of the bytes given. -/
def State.sendLender (s : State) (what : TxnUse) (e : Extent) (off n : Nat) (data : Option Bytes) : State :=
  (blocks off n).foldl (fun (s : State) q =>
    match data with
    | none => s.sendTxn what 0 e.eid opLoad e.lkey q.1 0 (natLE 4 q.2) true
    | some d => s.sendTxn what 0 e.eid opStore e.lkey q.1 0 ((d.drop (q.1 - off)).take q.2) true) s

/-- A read that a TL copy serves fetches the seal block, the header and the slots it needs from the lender (R110, R136, R150, R171): the reader's bytes
are the same either way. -/
def State.fetchTL (s : State) (ref : PageRef) (off n : Nat) : State :=
  match s.page? ref with
  | none => s
  | some p =>
    match p.t0, p.tl, p.tlCopy with
    | .none, some x, some c =>
      match Tab.get? s.strata.extents x with
      | some e =>
        if e.st = .active ∨ e.st = .recalling then
          (blocks off n).foldl (fun (s : State) q =>
            let h := hdrSlot c.hdr (q.1 / 4096)
            s.sendLender (.tlRead ref x) e (c.place * tlPlace + 320 + 64 * h.2.2) (64 * h.2.1) none)
            (s.sendLender (.tlRead ref x) e (c.place * tlPlace) 576 none)
        else s
      | none => s
    | _, _, _ => s

/-- A read that a backing copy in T2 serves fetches the blocks it needs from the drives (R104, R150). -/
def State.fetchT2 (s : State) (ref : PageRef) : State :=
  match s.page? ref with
  | some p => if p.t0 = .none ∧ p.tl = none ∧ p.backing = .t2 then s.t2Get ref else s
  | none => s

/-- Count the bytes of a read at the controller that serves it: of the T0 copy, or of a T1 image (R110, R796). -/
def State.readEvent (s : State) (ref : PageRef) (n : Nat) : State :=
  match s.page? ref with
  | some p => if p.t0 = .none then (if p.tl = none ∧ p.backing = .t1 then s.memEvent 2 1 n ref else s) else s.memEvent 1 1 n ref
  | none => s

/-- A read of a range: the fetches from TL and T2, then heat and touch (R110, R120). -/
def State.readDone (s : State) (port : Bool) (rid : Nat) (v : View) (off n : Nat) : State :=
  let s := (pieces off n).foldl (fun s q =>
    match s.region? rid with
    | none => s
    | some r => match s.viewRef r (q.1 / 65536) v with | some ref => ((s.fetchTL ref (q.1 % 65536) q.2).fetchT2 ref).readEvent ref q.2 | none => s) s
  s.touchRange port rid v off n

/-! ### BCI -/

/-- The channel an owner holds. -/
def State.channelOf (s : State) (o : ChanOwner) : Option Nat := (s.bci.channels.find? (fun e => decide (e.2.owner = o))).map Prod.fst

/-- A channel. -/
def State.channel (s : State) (n : Nat) : Channel := Tab.getD s.bci.channels n (Channel.fresh (.core n))

/-- Replace a channel. -/
def State.setChannel (s : State) (n : Nat) (c : Channel) : State := { s with bci.channels := Tab.set s.bci.channels n c }

/-- Is this function the owning host's physical function (R30)? -/
def State.isOwnerFn (s : State) (port fn : Nat) : Bool := decide (port = s.host.owner) && decide (fn = 0)

/-- The response header (R554). -/
def respHeader (st : Status) (n tag : Nat) : Word := BitVec.ofNat 32 (st.code + 65536 * n + 1048576 * tag)

/-- Write response words into the message registers from MBX_MSG0 on (R555). The registers beyond LEN, which R555 calls unpredictable, keep the
request's words (DESIGN CHOICE, log 25). -/
def putMsgs : Tab Word → Nat → List Word → Tab Word
  | t, _, [] => t
  | t, k, w :: ws => putMsgs (Tab.set t k w) (k + 1) ws

/-- Write a response into a function's message registers, clear GO and send EMPTY (R555, R599). -/
def State.respondFn (s : State) (p f : Nat) (ws : List Word) : State :=
  let w := s.fnWin p f
  (s.setFnWin p f { w with msg := putMsgs w.msg 0 ws, go := false }).vector p f 0

/-- Keep a channel's response for a repeated request (R556), free the channel, and let an equal request that waits see it
(R595). -/
def State.channelDone (s : State) (c : Nat) (r : BciReq) (ws : List Word) : State :=
  let ch := s.channel c
  (s.setChannel c { ch with busy := none, wasOwner := false, lastSeq := some r.seq, lastOp := r.opcode, lastResp := ws }).release
    (fun w => decide (w = .channel c))

/-- Complete a BCI command with a status and response words (R554 to R557); a command that a reset has ended writes none (R620). -/
def State.respond (s : State) (r : BciReq) (st : Status) (resp : List Word) : State :=
  let ws := respHeader st resp.length r.tag :: resp
  match r.src with
  | .fn p f =>
    match (s.fnWin p f).chan with
    | some c => if (s.channel c).busy = some r.words then (s.channelDone c r ws).respondFn p f ws else s
    | none => s
  | .lmfBci q =>
    let s := match s.channelOf (.lmf q.srcEid) with
      | some c => if (s.channel c).busy = some r.words then s.channelDone c r ws else s
      | none => s
    s.complete q st (bytesOf ws)
  | .lmf q => s.complete q st (bytesOf resp)
  | .mgmt m => s.emit (.mgmt m 3 (ws.map BitVec.toNat))

/-! ### Mirroring -/

/-- How an operation is answered. -/
inductive Answer where
  | none
  | lmf (q : LmfReq) (data : Bytes)
  | coh (q : LmfReq) (op flag : Nat)
  | bci (r : BciReq) (resp : List Word)
  | host (port : Nat)
  deriving DecidableEq, Repr

/-- Give the answer now. -/
def State.giveAnswer (s : State) (st : Status) : Answer → State
  | .none => s
  | .lmf q data => s.complete q st data
  | .coh q op flag => s.emit (.coh q.srcEid op q.tag q.gen q.key q.offset flag [])
  | .bci r resp => s.respond r st resp
  | .host p => s.emit (.cxlDone p)

/-- The messages of an answer that is only sent, not written to a channel. -/
def Answer.outs (st : Status) : Answer → List Out
  | .lmf q data => [.cpl q.srcEid q.tag q.gen st data]
  | .coh q op flag => [.coh q.srcEid op q.tag q.gen q.key q.offset flag []]
  | .host p => [.cxlDone p]
  | _ => []

/-- Answer an operation that changed bytes of a region: at once where the region is not mirrored, else once the partner holds
the update and its log entry (R737, R255, R294). -/
def State.answerAfter (s : State) (rid off : Nat) (data : Bytes) (log : Option LogNote) (st : Status) (a : Answer) : State :=
  match s.region? rid with
  | none => s.giveAnswer st a
  | some r =>
    if r.mirror = 0 then s.giveAnswer st a
    else
      let id := s.nextId
      let w : MirrorWait :=
        { id := id, partner := r.mirror, rid := rid, after := a.outs st, bci := (match a with | .bci q _ => some q | _ => none), st := st,
          resp := (match a with | .bci _ ws => ws | _ => []), pubId := none, op := none, work := none }
      ({ s with nextId := id + 1, home.mirrors := s.home.mirrors ++ [w] }).emit (.mirror r.mirror id (s.keyOf rid) off data log)

/-- Forward bytes that engine work wrote to a mirrored region outside publish mode; the work does not end before the partner
holds them (R737, N3). -/
def State.forward (s : State) (rid off : Nat) (data : Bytes) (work : WorkRef) (log : Option LogNote := none) : State :=
  match s.region? rid with
  | none => s
  | some r =>
    if r.mirror = 0 then s
    else
      let id := s.nextId
      let w : MirrorWait :=
        { id := id, partner := r.mirror, rid := rid, after := [], bci := none, st := .ok, resp := [], pubId := none, op := none, work := some work }
      ({ s with nextId := id + 1, home.mirrors := s.home.mirrors ++ [w] }).emit (.mirror r.mirror id (s.keyOf rid) off data log)

/-- Does engine work wait for a mirror partner? -/
def State.mirroring (s : State) (work : WorkRef) : Bool := s.home.mirrors.any (fun w => decide (w.work = some work))

/-! ### Requests that end without being performed -/

/-- The LSEQ of a logged request (R248, R495, R755). -/
def lseqOf (c : Instr) : Option Nat :=
  match c with
  | .atomic r => some (r.w 5)
  | .publish r => some (r.w 6)
  | .publishIf r => some (r.w 6)
  | .journalClaim r => some (r.w 4)
  | .journalOffer r => some (r.w 6)
  | .journalAccept r => some (r.w 6)
  | .journalRelease r => some (r.w 4)
  | .trvInsert r => some (r.w 9)
  | .trvDelete r => some (r.w 5)
  | .countedWrite q _ _ => some q.lseq
  | _ => none

/-- The response words a logged result gives a repeated request of a kind (R250, R568). -/
def logWords (c : Instr) : Nat :=
  match c with
  | .atomic _ => 4
  | .trvInsert _ => 3
  | .countedWrite _ _ _ => 0
  | _ => 2

/-- The home EID a command is addressed to. -/
def State.homeOf (s : State) (c : Instr) : Nat :=
  match bciOf c with
  | some r => (match srcReq r.src with | some q => q.dstEid | none => s.lmf.eid)
  | none => (match reqOf c with | some q => q.dstEid | none => s.lmf.eid)

/-- The region whose mirror partner holds a logged request's entry too (R255). -/
def State.logHome (s : State) (c : Instr) : Option Nat :=
  match c with
  | .atomic r => (s.live (s.homeOf c) (r.w 1)).map Prod.fst
  | .publish r => (s.live (s.homeOf c) (r.w 1)).map Prod.fst
  | .publishIf r => (s.live (s.homeOf c) (r.w 1)).map Prod.fst
  | .countedWrite q _ _ => (s.live q.dstEid q.key).map Prod.fst
  | _ => none

/-- An answer with the result a log entry holds (R250). -/
def Answer.again (e : LogEntry) (n : Nat) : Answer → Answer
  | .lmf q _ => .lmf q (bytesOf (loggedWords e.st e.resp n))
  | .bci r _ => .bci r (loggedWords e.st e.resp n)
  | a => a

/-- End a request without performing it. A logged one gets its entry in the same step, whatever the status (R249, R255), or, where its LSEQ stands
in the log, the result that stands there (R250, R252). -/
def State.turnAway (s : State) (c : Instr) (eid ctx : Nat) (st : Status) (a : Answer) : State :=
  match lseqOf c with
  | none => s.giveAnswer st a
  | some l =>
    let k := s.logKey (s.homeOf c) eid ctx
    match s.logFind k l with
    | some e => if e.tomb then s.giveAnswer .state a else s.giveAnswer e.st (a.again e (logWords c))
    | none =>
      let s := s.logDone k l st 0
      match s.logHome c with
      | some rid => s.answerAfter rid 0 [] (some (s.noteOf eid ctx l st 0)) st a
      | none => s.giveAnswer st a

/-- How an LMF request that ends on arrival is answered: a command that holds its channel gives it back. -/
def State.lmfAnswer (s : State) (cmd : Instr) (q : LmfReq) : Answer :=
  match bciOf cmd with
  | some r =>
    match s.channelOf (.lmf q.srcEid) with
    | some c => if (s.channel c).busy = some r.words then .bci r [] else .lmf q []
    | none => .lmf q []
  | none => .lmf q []

/-- End an LMF request on its arrival (R249). -/
def State.turnLmf (s : State) (cmd : Instr) (q : LmfReq) (st : Status) : State := s.turnAway cmd q.srcEid q.ctx st (s.lmfAnswer cmd q)

/-- The request as the home takes it: on a link with no switch, its source is the endpoint that the partner advertised (R52, R661). -/
def State.sourced (s : State) (q : LmfReq) : LmfReq :=
  if s.replayOf.isNone && decide ((s.lport q.port).st = .up) && decide ((s.lport q.port).role ≠ 3) then { q with srcEid := (s.lport q.port).eid } else q

/-- How the table judges a source incarnation (R53, R678). -/
inductive Judged where
  | current | older | fenced | newer
  deriving DecidableEq, Repr

/-- Judge a source incarnation: an endpoint the table has never seen joined counts as newer, and waits for its JOIN. -/
def State.judge (s : State) (eid inc : Nat) : Judged :=
  match Tab.get? s.lmf.incs eid with
  | none => .newer
  | some e =>
    if inc < e.inc then .older
    else if (match e.fenced with | some n => decide (inc ≤ n) | none => false) then .fenced
    else if e.inc < inc then .newer
    else if e.joined then .current else .newer

/-- The version used toward an endpoint (R652). -/
def State.verOf (s : State) (eid : Nat) : Nat := match Tab.get? s.lmf.incs eid with | some e => e.ver | none => 3

/-- Is the EID that of a takeover accepted and not yet adopted (R749)? -/
def State.takingOver (s : State) (eid : Nat) : Option Takeover := s.rel.takeovers.find? (fun t => decide (t.eid = eid) && !t.adopted)

/-- A request's packet reaches its port: it wakes the controller (R692, R698), and its header of 64 bytes, its payload and a seal tag of 16 count (R661, R664,
R796). A command that runs again arrived before. -/
def State.arrived (s : State) (q : LmfReq) (payload : Bool) : State :=
  if s.replayOf.isSome then s else s.stir.event (lmfUnit q.port) 0 (64 + if payload then q.len + 16 * b2n q.enc else 0) none

/-- The checks of an LMF request on arrival, in the order: joined (R708), LIMIT (R670), pointer (R42), EID (R41, R43),
takeover (R749), incarnation (R53, R678, R735), version (R653), payload seal (R666). `.error` is the state of a request that ends
or is held here; only the refusals for its incarnation are not logged (R249). `v3` says that the request is a capability of version 3, `payload`
that it carries data. -/
def State.arrive (s : State) (cmd : Instr) (q : LmfReq) (v3 payload : Bool) : Except State State :=
  let s := s.arrived q payload
  let enc := match s.live q.dstEid q.key with | some (_, r) => r.encrypt | none => false
  if !s.lmf.joined then .error (s.turnLmf cmd q .paused)
  else if s.limitOf q ≤ s.now + 10000 then
    if s.replayOf.isSome then .error (s.turnLmf cmd q .paused)
    else .error (({ s with lmf.lateReq := s.lmf.lateReq + 1 }).event (lmfUnit q.port) 7 1 none)
  else if q.ptrHi ≠ 0 then .error (s.turnLmf cmd q .notSupported)
  else if (s.takingOver q.dstEid).isSome then .error (s.holdCmd cmd (.takeover q.dstEid) (s.holdEnd q) q.srcEid q.ctx)
  else if q.dstEid = 0 ∨ q.dstEid = 262143 ∨ s.isOwn q.dstEid = false then .error (s.turnLmf cmd q .key)
  else match s.judge q.srcEid q.srcInc with
    | .older => .error (s.giveAnswer .key (s.lmfAnswer cmd q))
    | .fenced => .error (s.giveAnswer .fenced (s.lmfAnswer cmd q))
    | .newer => .error (s.holdCmd cmd (.newer q.srcEid q.srcInc) (s.holdEnd q) q.srcEid q.ctx)
    | .current =>
      if s.verOf q.srcEid < 3 ∧ (v3 = true ∨ enc = true) then .error (s.turnLmf cmd q .notSupported)
      else if payload && ((q.enc && !q.sealOk) || (enc && !q.enc)) then
        .error ((({ s with lmf.sealFail := s.lmf.sealFail + 1 }).event (lmfUnit q.port) 7 1 none).turnLmf cmd q .key)
      else .ok s

/-- The issuer of an LMF request (R52). -/
def LmfIssuer (q : LmfReq) : Issuer := { eid := q.srcEid, ctx := q.ctx, admin := false }

/-- Why a region is not served now: no lease from its mirror partner (R740), or agents still to answer a recall (R318). -/
def State.gate (s : State) (rid : Nat) (r : Region) : Option HoldWhy :=
  if decide (r.mirror ≠ 0) && (match Tab.get? s.rel.hb r.mirror with | some h => decide (h.leaseEnd ≤ s.now) | none => true) then some (.lease r.mirror)
  else match Tab.get? s.rope.recalls rid with
    | some (_ :: _) => some (.recall rid)
    | _ => none

/-- Serve an access to a region: the checks of R62, then the lease and the recall, then the access itself. -/
def State.serve (s : State) (cmd : Instr) (q : LmfReq) (need : Rights) (body : Nat → Region → State → Result) : Result :=
  if q.len > 4096 ∨ inBlock q.offset q.len = false then .next (s.complete q .notSupported [])
  else match s.permit q.dstEid q.key q.offset q.len need (LmfIssuer q) with
    | none => .next (s.complete q .key [])
    | some (rid, r) =>
      match s.gate rid r with
      | some why => .next (s.holdCmd cmd why (s.holdEnd q) q.srcEid q.ctx)
      | none => body rid r s

/-- How an LMF access is held: a port access at run time, UNIT 0x1FF (R86). -/
def lmfHold (s : State) (cmd : Instr) (q : LmfReq) (access : Nat) : HoldAs :=
  { cmd := cmd, i := LmfIssuer q, access := access, runTime := true, hw := 511, limit := s.holdEnd q, needRoom := true }

/-- Hold an LMF access on what it met, or complete it. -/
def State.lmfMet (s : State) (cmd : Instr) (q : LmfReq) (access rid : Nat) (m : Met) : State :=
  match s.holdOn (lmfHold s cmd q access) rid q.offset m with
  | (s, some st) => s.complete q st []
  | (s, none) => s

/-- A row of the command catalogue (R568): opcode, operand words, the minor version of BCI 3 it came with (none for 2.0), class
O, class P, class D, and the reserved bits of its operands. -/
structure BciRow where
  op : Nat
  n : Nat
  minor : Option Nat
  owner : Bool
  priv : Bool
  dl : Bool
  v3 : Bool
  resv : BciReq → Bool

/-- A row of class F that came with BCI 2.0 and has no reserved bits. -/
def BciRow.f (op n : Nat) : BciRow :=
  { op := op, n := n, minor := none, owner := false, priv := false, dl := false, v3 := false, resv := fun _ => false }

/-- A row of class O that came with BCI 2.0. -/
def BciRow.o (op n : Nat) : BciRow := { BciRow.f op n with owner := true }

/-- Bits above `n` of operand word `i` are reserved (R559). -/
def above (r : BciReq) (i n : Nat) : Bool := decide (2 ^ n ≤ r.w i)

/-- Bits [63:52] of the offset in words `i` and `i + 1` are reserved (R559). -/
def offResv (r : BciReq) (i : Nat) : Bool := decide (2 ^ 52 ≤ r.d i)

/-- Is the session version at least the command's (R565)? -/
def sinceOk (sess : Nat × Nat) (minor : Option Nat) : Bool :=
  match minor with
  | none => true
  | some m => decide (sess.1 = 3) && decide (m ≤ sess.2)

/-- Is a request malformed (R4, R553, R558)? -/
def malformed (row : BciRow) (r : BciReq) : Bool :=
  decide (r.opcode ≠ row.op) || bitAt r.header 15 || (r.dl && !row.dl) || decide (r.len ≠ row.n + (if r.dl then 2 else 0)) || row.resv r

/-- Does a request come from the fabric manager, inside its session (R790)? -/
def State.fromManager (s : State) (q : LmfReq) : Bool := s.sec.fmSession && decide (q.srcEid = s.lmf.fmEid)

/-- The checks of a request on an open channel, and its issuer (R558, R561, R562, R565, R575); the status of a rejection
otherwise. -/
def State.bciAdmit (s : State) (row : BciRow) (r : BciReq) (sess : Option (Nat × Nat)) (wasOwner : Bool) : Except Status Issuer :=
  match sess with
  | none => .error .state
  | some v =>
    if !sinceOk v row.minor || malformed row r then .error .notSupported
    else match r.src with
      | .fn p f =>
        if row.owner && !wasOwner then .error .state
        else if row.priv && !wasOwner then .error .key
        else match s.boundCtx p f with
          | none =>
            if row.owner || row.priv || decide (row.op = 1) || (decide (row.op = 2) && s.isOwnerFn p f) then .ok { eid := s.lmf.eid, ctx := 0, admin := true }
            else .error .state
          | some c =>
            if row.owner || row.priv || decide (row.op = 1) || (decide (row.op = 2) && s.isOwnerFn p f) then .ok { eid := s.lmf.eid, ctx := c, admin := true }
            else if s.ctxIs c .active then .ok { eid := s.lmf.eid, ctx := c, admin := false } else .error .state
      | .lmfBci q => if row.owner then .error .state else if row.priv && !s.fromManager q then .error .key else .ok (LmfIssuer q)
      | .lmf q => if row.owner then .error .state else if row.priv then .error .key else .ok (LmfIssuer q)
      | .mgmt _ => if row.owner then .error .state else .ok { eid := s.lmf.eid, ctx := 0, admin := true }

/-- Reject a request of the catalogue: answered, and logged where it carries an LSEQ and an issuer (R249). -/
def State.refuseBci (s : State) (cmd : Instr) (row : BciRow) (r : BciReq) (st : Status) : State :=
  if r.opcode = row.op ∧ row.n ≤ r.len then
    match r.src with
    | .fn p f => (match s.boundCtx p f with | some c => s.turnAway cmd s.lmf.eid c st (.bci r []) | none => s.respond r st [])
    | .lmfBci q => s.turnAway cmd q.srcEid q.ctx st (.bci r [])
    | _ => s.respond r st []
  else s.respond r st []

/-- Is the far end of an exchange in a secured session (R779)? -/
def State.inSession (s : State) (p : Peer) : Bool := s.sec.peers.any (fun e => decide (e.peer = p) && e.session)

/-- Deliver a region's transport key to an endpoint's key engine, wrapped under the keys of its session (R782, R784). -/
def State.giveKey (s : State) (eid rid : Nat) : State :=
  match s.region? rid, s.sec.peers.find? (fun e => e.session && (match e.peer with | .lmf n _ => decide (n = eid) | _ => false)) with
  | some r, some e => if r.encrypt then s.emit (.transportKey eid (s.keyOf rid) (Config.wrapKey e.key r.tkey)) else s
  | _, _ => s

/-- Deliver it to every grantee and to the mirror partner (R786, N11). -/
def State.giveKeyAll (s : State) (rid : Nat) : State :=
  match s.region? rid with
  | some r => ((r.grants.map Grant.eid ++ [r.mirror]).dedup.filter (fun n => decide (n ≠ s.lmf.eid))).foldl (fun s n => s.giveKey n rid) s
  | none => s

/-- Register the deadline of work with an identifier (R577), once. -/
def State.addDeadline (s : State) (id at' : Nat) (abort : Bool) (src obj : Nat) (i : Issuer) : State :=
  { s with bci.deadlines := s.bci.deadlines.filter (fun (d : Deadline) => decide (d.id ≠ id))
      ++ [{ id := id, at' := at', abort := abort, src := src, obj := obj, eid := i.eid, ctx := i.ctx }] }

/-- Take a deadline away. -/
def State.dropDeadline (s : State) (id : Nat) : State :=
  { s with bci.deadlines := s.bci.deadlines.filter (fun (d : Deadline) => decide (d.id ≠ id)) }

/-- SRC of a notice record for a request (R580): a BCI command, or an LMF request. -/
def noticeSrc (r : BciReq) : Nat := match r.src with | .lmf _ => 7 | _ => 0

/-- OBJ of a notice record for a request (R580): the TAG, or the LSEQ of an LMF request. -/
def noticeObj (cmd : Instr) (r : BciReq) : Nat := match r.src with | .lmf q => (lseqOf cmd).getD q.lseq | _ => r.tag

/-- Register a command's deadline, if it carries one that has not passed, under its arrival number (R577, R578). -/
def State.dueBci (s : State) (cmd : Instr) (r : BciReq) (i : Issuer) (id : Nat) : State :=
  if r.dl && decide (s.now < r.deadline) then s.addDeadline id r.deadline r.dlAbort (noticeSrc r) (noticeObj cmd r) i else s

/-- Hold a command of the catalogue with its deadline (R577). -/
def State.holdBci (s : State) (cmd : Instr) (r : BciReq) (i : Issuer) (why : HoldWhy) (limit : Nat) : State :=
  (s.holdCmd cmd why limit i.eid i.ctx).dueBci cmd r i s.holdNo

/-- Serve a request whose channel has been found: a repeat gets the stored response (R556); a rejection is answered and logged (R249); the
command runs. -/
def State.onChannel (s : State) (cmd : Instr) (c : Nat) (row : BciRow) (r : BciReq) (body : Issuer → State → Result) : Result :=
  let ch := s.channel c
  if ch.lastSeq = some r.seq ∧ ch.lastOp = r.opcode ∧ s.replayOf.isNone then
    match r.src with
    | .fn p f => .next ((s.setChannel c { ch with busy := none, wasOwner := false }).respondFn p f ch.lastResp)
    | .lmfBci q => .next ((s.setChannel c { ch with busy := none, wasOwner := false }).complete q .ok (bytesOf ch.lastResp))
    | _ => .next s
  else match s.bciAdmit row r (if row.op = 1 then some (3, 4) else ch.session) ch.wasOwner with
    | .error st => .next (s.refuseBci cmd row r st)
    | .ok i => body i s

/-- The commands that the LMF also carries as requests of their own (05, 06, 11 to 13, R661): PUBLISH to READ_AT, ATOMIC,
ATOMIC_STATUS, MEMOP, TRV_QUERY, TRV_INSERT, TRV_DELETE, MOR_BATCH. -/
def nativeOps : List Nat := [64, 65, 66, 67, 68, 69, 70, 80, 81, 82, 130, 131, 132, 146]

/-- A command of the catalogue, from its arrival on (R555 to R565, R594 to R597): over a function's channel, in an LMF BCI
request, in the native LMF form, or over a management session (R790). During a switchover it is held (R549). A request over a
function's channel that firmware has not yet been handed by GO arrives now: its words are written and GO is set in this step. `mk` is the row's
command; the body gets the request with its source as R52 gives it. -/
def bciServe (mk : BciReq → Instr) (row : BciRow) (r : BciReq) (s : State) (body : BciReq → Issuer → State → Result) : Result :=
  whenUp s fun s =>
    match r.src with
    | .fn p f =>
      let cmd := mk r
      let i : Issuer := { eid := s.lmf.eid, ctx := (s.boundCtx p f).getD 0, admin := false }
      if !s.fnEnabled p f then .next s
      else match (s.fnWin p f).chan with
      | none =>
        let w := s.fnWin p f
        .next ((s.setFnWin p f { w with nochan := true }).vector p f 4)
      | some c =>
        let ch := s.channel c
        match ch.busy with
        | none =>
          if s.replayOf.isSome then .next s
          else
            let w := s.fnWin p f
            let s := (s.setFnWin p f { w with msg := putMsgs [] 0 (r.words.take 16), go := true }).setChannel c
              { ch with busy := some r.words, handed := false, wasOwner := s.isOwnerFn p f }
            let s := s.wakeBasecamp
            if s.bci.phase = .switching then .next (s.holdBci cmd r i .switchover 0)
            else s.onChannel cmd c row r (body r)
        | some ws =>
          if ws = r.words ∧ (s.replayOf.isSome = true ∨ ch.handed = true) then
            let s := s.setChannel c { ch with handed := false }
            if s.bci.phase = .switching then .next (s.holdBci cmd r i .switchover 0)
            else s.onChannel cmd c row r (body r)
          else
            let w := s.fnWin p f
            .next ((s.setFnWin p f { w with msgLost := true }).vector p f 4)
    | .lmfBci q =>
      let q := s.sourced q
      let r : BciReq := { r with src := .lmfBci q }
      let cmd := mk r
      match s.arrive cmd q row.v3 true with
      | .error s => .next s
      | .ok s =>
        match s.channelOf (.lmf q.srcEid) with
        | none => .next (s.turnLmf cmd q .quota)
        | some c =>
          let ch := s.channel c
          let go (s : State) : Result :=
            if s.bci.phase = .switching then .next (s.holdBci cmd r (LmfIssuer q) .switchover (s.holdEnd q))
            else s.onChannel cmd c row r (body r)
          match ch.busy with
          | none => go (s.setChannel c { ch with busy := some r.words, wasOwner := false })
          | some ws =>
            if s.replayOf.isSome ∧ ws = r.words then go s
            else if fld (wAt ws 0) 19 16 = r.seq ∧ fld (wAt ws 0) 8 0 = r.opcode then
              .next (s.holdCmd cmd (.channel c) (s.holdEnd q) q.srcEid q.ctx)
            else .next (s.turnLmf cmd q .state)
    | .lmf q =>
      let q := s.sourced q
      let r : BciReq := { r with src := .lmf q }
      let cmd := mk r
      match s.arrive cmd q row.v3 true with
      | .error s => .next s
      | .ok s =>
        if s.bci.phase = .switching then .next (s.holdBci cmd r (LmfIssuer q) .switchover (s.holdEnd q))
        else if row.owner then .next (s.turnLmf cmd q .state)
        else if row.priv then .next (s.turnLmf cmd q .key)
        else if row.resv r || !nativeOps.contains row.op then .next (s.turnLmf cmd q .notSupported)
        else body r (LmfIssuer q) s
    | .mgmt m =>
      if s.inSession (.mgmt m) && (row.priv || row.op = 288 || row.op = 290 || row.op = 293) then
        if malformed row r then .next (s.respond r .notSupported [])
        else body r { eid := s.lmf.eid, ctx := 0, admin := true } s
      else .next s

/-- When a command held for firmware has been held long enough (R872, R95). -/
def State.bciHoldEnd (s : State) (r : BciReq) : Nat := match srcReq r.src with | some q => s.holdEnd q | none => s.holdEndPlain

/-- Hold a command on what it met (R872), with its deadline; or answer the status it completes with at once. -/
def State.bciMet (s : State) (cmd : Instr) (r : BciReq) (i : Issuer) (access rid off : Nat) (m : Met) : State × Option Status :=
  let id := s.holdNo
  match s.holdOn { cmd := cmd, i := i, access := access, runTime := true, hw := 511, limit := s.bciHoldEnd r, needRoom := true } rid off m with
  | (s, none) => (s.dueBci cmd r i id, none)
  | (s, some st) => (s, some st)

/-- `bciMet` where a status answers the request without response words. -/
def State.bciStop (s : State) (cmd : Instr) (r : BciReq) (i : Issuer) (access rid off : Nat) (m : Met) : State :=
  match s.bciMet cmd r i access rid off m with
  | (s, none) => s
  | (s, some st) => s.respond r st []

/-- Has a command's deadline passed on arrival, or while it was held (R578)? Then a notice record is written, once. -/
def State.lateNotice (s : State) (cmd : Instr) (r : BciReq) (i : Issuer) : State :=
  if r.dl && decide (r.deadline ≤ s.now) then
    if s.replayOf.isNone then s.notice i.eid i.ctx 1 r.dlAbort .deadline (noticeSrc r) (noticeObj cmd r) r.deadline
    else if s.bci.deadlines.any (fun d => decide (d.id = s.arrivalNo)) then
      (s.dropDeadline s.arrivalNo).notice i.eid i.ctx 1 r.dlAbort .deadline (noticeSrc r) (noticeObj cmd r) r.deadline
    else s
  else s

/-- Does a command end because its deadline has passed (R578)? -/
def State.lateAbort (s : State) (r : BciReq) : Bool := r.dl && r.dlAbort && decide (r.deadline ≤ s.now)

/-! ### Long operations -/

/-- To whom a long operation or a deadline of a command is attributed (R876): the admin issuer's is the context bound to the
owning host's physical function, or none. -/
def State.attributed (s : State) (i : Issuer) : Option (Nat × Nat) :=
  if i.admin then (s.boundCtx s.host.owner 0).map (fun c => (s.lmf.eid, c)) else some (i.eid, i.ctx)

/-- UNIT of a long operation's position (R583, R584, R724). -/
def opUnit : OpKind → Nat
  | .mirror _ => 2
  | .toT0Only _ => 2
  | .fromT0Only _ => 2
  | .drainT0 => 2
  | .drainTL _ => 6
  | .drainT1 => 2
  | .merge _ _ => 3
  | .swap _ => 4
  | .stage _ => 1
  | .activate _ => 5
  | .rebuild .drive _ => 1
  | .rebuild _ _ => 2
  | .takeover _ => 5

/-- Start a long operation: the OP_ID is `s.bci.nextOp` (R582). -/
def State.startOp (s : State) (kind : OpKind) (total : Nat) (who : Option (Nat × Nat)) : State :=
  let o : LongOp :=
    { id := s.bci.nextOp, kind := kind, st := 0, status := .ok, bp := 0, hw := opUnit kind, pos := 0, total := total, start := s.now, fin := 0,
      admin := true, issuer := who }
  { s with bci.ops := s.bci.ops ++ [o], bci.nextOp := (s.bci.nextOp + 1) % 4294967296 }

/-- The last 64 ended operations of each issuer are kept (R584). -/
def trimOps (ops : List LongOp) : List LongOp :=
  ops.filter (fun o => decide (o.st = 0) || decide ((ops.filter (fun p => decide (p.st ≠ 0) && decide (p.issuer = o.issuer) &&
    (decide (o.fin < p.fin) || (decide (p.fin = o.fin) && decide (o.id < p.id))))).length < 64))

/-- End a long operation: STATE 1 done or 2 cancelled, its final status, and a notice record of KIND 2 (R582, R583). -/
def State.endOp (s : State) (id state : Nat) (st : Status) : State :=
  match s.bci.ops.find? (fun o => decide (o.id = id)) with
  | none => s
  | some o =>
    if o.st ≠ 0 then s
    else
      let s := { s with bci.ops := s.bci.ops.map (fun (p : LongOp) => if p.id = id then
        { p with st := state, status := st, fin := s.now, bp := (if state = 1 ∧ st = Status.ok then 10000 else p.bp),
                 pos := if state = 1 ∧ st = Status.ok then p.total else p.pos } else p) }
      let s := { s with bci.ops := trimOps s.bci.ops }
      s.noticeTo o.issuer 2 false st 1 id 0

/-- Report progress: never less than before, and 10,000 only at the end (R16, R17). -/
def State.opProgress (s : State) (id pos : Nat) : State :=
  { s with bci.ops := s.bci.ops.map (fun (p : LongOp) => if p.id = id ∧ p.st = 0 then
      { p with pos := pos, bp := max p.bp (min 9999 (if p.total = 0 then 0 else pos * 10000 / p.total)) } else p) }

/-- The long operation of a kind that runs. -/
def State.opOf (s : State) (k : OpKind) : Option LongOp := s.bci.ops.find? (fun o => decide (o.kind = k) && decide (o.st = 0))

/-! ### Ending what is held -/

/-- The LOC of a host port error record (R722). -/
def hostLoc (port fn dec : Nat) : Nat := port + 4 * fn + 1024 * dec

/-- The error record of a CXL.mem access that does not end with ST_OK (R629). -/
def State.cxlError (s : State) (port fn dec ctx : Nat) (st : Status) (key off : Nat) : State :=
  s.error { ErrorNote.of 12 st (ingressUnit port) with layer := 7, loc := hostLoc port fn dec, ctx := ctx, key := key, off := off }

/-- The committed decoder an HPA falls in. -/
def State.decoderAt (s : State) (port hpa : Nat) : Option (Nat × Decoder) :=
  ((s.hport port).decs.find? (fun e => e.2.committed && decide (e.2.hpa ≤ hpa) && decide (hpa < e.2.hpa + e.2.size)))

/-- The window an access accepted earlier was made through, where it has been unbound since (R627). -/
def State.oldWindow (s : State) (port hpa : Nat) : Option Unbound :=
  match s.replayOf with
  | some t => (s.hport port).unbound.find? (fun u => decide (t ≤ u.at') && decide (u.hpa ≤ hpa) && decide (hpa < u.hpa + u.size))
  | none => none

/-- The window of an HPA: decoder, window and device-view offset (R48). -/
def State.windowAt (s : State) (port hpa : Nat) : Option (Nat × HostWindow × Nat) :=
  match s.oldWindow port hpa with
  | some u => some (u.dec, u.win, hpa - u.hpa + u.win.dev)
  | none =>
    match s.decoderAt port hpa with
    | some (n, d) => match d.win with | some w => some (n, w, hpa - d.hpa + w.dev) | none => none
    | none => none

/-- Unbind every window a test picks (R627); the oldest of a port's last unbound windows are forgotten after the hold time. -/
def State.unbind (s : State) (f : Nat → HostWindow → Bool) : State :=
  { s with host.ports := s.host.ports.map (fun (e : Nat × HostPort) =>
      let gone := e.2.decs.filterMap (fun d => match d.2.win with
        | some w => if f e.1 w then some ({ at' := s.now, dec := d.1, hpa := d.2.hpa, size := d.2.size, win := w } : Unbound) else none
        | none => none)
      (e.1, { e.2 with
        decs := e.2.decs.map (fun d => match d.2.win with | some w => if f e.1 w then (d.1, { d.2 with win := none }) else d | none => d)
        unbound := gone ++ e.2.unbound })) }

/-- Answer a CXL.mem read that fails (R629): 64 zero bytes with the indicator, and an error record. -/
def State.cxlReadFail (s : State) (port hpa : Nat) (st : Status) : State :=
  let s := match s.windowAt port hpa with
    | some (n, w, off) => s.cxlError port w.fn n w.ctx st w.key off
    | none => s.cxlError port 0 ((s.decoderAt port hpa).map Prod.fst |>.getD 0) 0 st 0 0
  s.emit (.cxlData port (List.replicate 64 0) true)

/-- Discard a CXL.mem write (R629): an error record. -/
def State.cxlDiscard (s : State) (port hpa : Nat) (st : Status) : State :=
  match s.windowAt port hpa with
  | some (n, w, off) => s.cxlError port w.fn n w.ctx st w.key off
  | none => s.cxlError port 0 ((s.decoderAt port hpa).map Prod.fst |>.getD 0) 0 st 0 0

/-- Record the rejection of a compute-queue entry in CQ_ERR and advance HEAD (R611). -/
def State.cqReject (s : State) (port : Nat) (st : Status) : State :=
  let w := s.fnWin port 0
  let w := { w with errMore := w.errMore || decide (w.errStatus ≠ 0), errStatus := st.code, errIndex := w.head % 32768, head := (w.head + 1) % 16777216 }
  ((s.setFnWin port 0 w).rsFn port 0).vector port 0 4

/-- The publish that waits for its switch under an identifier. -/
def State.pub? (s : State) (id : Nat) : Option PubCmd := s.home.pubs.find? (fun p => decide (p.id = id))

/-- End a publish: logged, answered, out of the order, and a DISCARD that waited for it runs (R206 to R209). -/
def State.endPub (s : State) (p : PubCmd) (st : Status) (resp : List Word) (value : Nat) : State :=
  let s := s.logDone (s.logKey (match srcReq p.r.src with | some q => q.dstEid | none => s.lmf.eid) p.eid p.ctx) p.lseq st value
  let s :=
    { s with
      home.pubs := s.home.pubs.filter (fun (x : PubCmd) => decide (x.id ≠ p.id))
      home.held := s.home.held.filter (fun (h : Held) => decide (h.cmd ≠ Instr.publishSwitch p.id))
      bci.deadlines := s.bci.deadlines.filter (fun (d : Deadline) => decide (d.id ≠ p.id)) }
  (s.answerAfter p.rid p.off [] (some (s.noteOf p.eid p.ctx p.lseq st value)) st (.bci p.r resp)).release (fun w => decide (w = HoldWhy.publish p.id))

/-- The exception that a status an access ends with raises (R378). -/
def excOf (st : Status) : Nat :=
  match st with
  | .poison => 7
  | .deadline => 9
  | .functionReset => 10
  | .fenced => 11
  | _ => 6

/-- An atomic or counted write of a kernel at this home that ends without being performed is logged with its status (R249). -/
def State.selfLogged (s : State) (c : Instr) (ctx : Nat) (st : Status) : State :=
  match c with
  | .amo _ _ => (s.selfLog s.lmf.eid ctx st 0).1
  | .dmaTransferEnd n id =>
    match (s.core n).transfers.find? (fun (t : Transfer) => decide (t.id = id)) with
    | some t => if t.ckey.isSome ∧ t.len ≤ t.pos then (s.selfLog s.lmf.eid ctx st 0).1 else s
    | none => s
  | _ => s

/-- End a held command with a status: it has no effect, its completion goes out, and a logged one is logged (R95, R96, R249, R255). -/
def State.endCmd (s : State) (c : Instr) (eid ctx : Nat) (st : Status) : State :=
  match c with
  | .cxlMemRead p h => s.cxlReadFail p h (if st = Status.paused then Status.key else st)
  | .cxlMemWrite p h _ _ => s.cxlDiscard p h st
  | .cqEntryTake p => s.cqReject p st
  | .memopEnd id => s.memopFinish id (recordWords st false 0)
  | .publishSwitch id => (match s.pub? id with | some p => s.endPub p st [] 0 | none => s)
  | c =>
    match bciOf c with
    | some r => s.turnAway c eid ctx st (.bci r [])
    | none =>
      match reqOf c with
      | some q => s.turnAway c eid ctx st (.lmf q [])
      | none =>
        ((s.selfLogged c ctx st).endWork c st).accessFail c (excOf st) st

/-- End a hold with a status. -/
def State.endHeld (s : State) (h : Held) (st : Status) : State :=
  let s := ({ s with home.held := s.home.held.filter (fun (x : Held) => decide (x.id ≠ h.id)) }).dropDeadline h.id
  let s := match h.why with | .line _ _ => s.forsake h.cmd | _ => s
  s.endCmd h.cmd h.eid h.ctx st

/-- End every hold a test picks. -/
def State.endHolds (s : State) (f : Held → Bool) (st : Status) : State := (s.home.held.filter f).foldl (fun s h => s.endHeld h st) s

/-- End one hold: its command runs again. -/
def State.releaseOne (s : State) (h : Held) : State :=
  { s with
    resume := s.resume ++ [h.again]
    home.held := s.home.held.filter (fun (x : Held) => decide (x.id ≠ h.id)) }

/-- A place in a write hold buffer has become free (R630). -/
def State.bufferFree (s : State) : State := s.release (fun w => match w with | .buffer _ => true | _ => false)

end Sys2Proof.Machine
end

