-- ==== Sys2Proof/Machine/Access.lean ====
section
/-! DEFINITION. Loads and stores: CXL.mem through host windows (16), LMF loads and stores (02, 05), and the fault records and holds of 02. -/

namespace Sys2Proof.Machine

/-- The issuer of a host window (R45, R625). -/
def State.windowIssuer (s : State) (w : HostWindow) : Issuer := { eid := s.lmf.eid, ctx := w.ctx, admin := false }

/-- How a host-port access is held: its record waits for a place in the ring (R88, R631). -/
def cxlHold (s : State) (cmd : Instr) (i : Issuer) (access : Nat) : HoldAs :=
  { cmd := cmd, i := i, access := access, runTime := true, hw := 511, limit := s.holdEndPlain, needRoom := false }

/-- Hold a CXL.mem access on what it met; a page in recovery holds it without limit (R630). -/
def State.cxlHoldOn (s : State) (cmd : Instr) (i : Issuer) (access rid off : Nat) (m : Met) : State × Option Status :=
  let a := cxlHold s cmd i access
  s.holdOn (match m with | .recovering _ => { a with limit := 0 } | _ => a) rid off m

/-- CXL_MEM_READ (R628 to R631, R641): a 64 B read through a bound window. -/
def execCxlMemRead (port hpa : Nat) (s : State) : Result :=
  whenUp s fun s =>
    let cmd := Instr.cxlMemRead port hpa
    let s := s.stir
    match s.windowAt port hpa with
    | none => .next (s.cxlReadFail port hpa .key)
    | some (n, w, off) =>
      let i := s.windowIssuer w
      let line := off - off % 64
      if s.ctxIs w.ctx .resetting then .next (s.holdCmd cmd (.resetting w.ctx) 0 i.eid i.ctx)
      else match s.permit s.lmf.eid w.key line 64 needR i with
        | none => .next (s.cxlReadFail port hpa .key)
        | some (rid, r) =>
          match s.gate rid r with
          | some why => .next (s.holdCmd cmd why s.holdEndPlain i.eid i.ctx)
          | none =>
            match s.meetRead rid r (.own i) line 64 with
            | .clear =>
              let data := s.readRange r (.own i) line 64
              .next (((s.readDone true rid (.own i) line 64).event (hostUnit port) 1 64 none).emit (.cxlData port data false))
            | .stop st =>
              let data := if s.lostHere rid (line / 65536) i then List.replicate 64 0 else s.readRange r (.own i) line 64
              .next (((s.readDone true rid (.own i) line 64).cxlError port w.fn n w.ctx st w.key line).emit (.cxlData port data true))
            | m => .next (s.cxlHoldOn cmd i 0 rid line m).1

/-- Held writes of a port (R630). -/
def State.writesHeld (s : State) (port : Nat) : Nat :=
  (s.home.held.filter (fun h => match h.cmd, h.why with
    | .cxlMemWrite _ _ _ _, .buffer _ => false
    | .cxlMemWrite p _ _ _, _ => decide (p = port)
    | _, _ => false)).length

/-- The completion of a write to its host: at once, or already sent when the write was held (R630, R631). -/
def State.cxlAck (s : State) (port : Nat) : State := if s.replayOf.isSome then s else s.emit (.cxlDone port)

/-- Does a write that the port accepted earlier for the same line still wait to be performed again (R631)? -/
def State.lineQueued (s : State) (port hpa : Nat) : Bool :=
  s.replayOf.isNone && s.resume.any (fun a => match a.cmd with
    | .cxlMemWrite p h _ _ => decide (p = port) && decide (h / 64 = hpa / 64)
    | _ => false)

/-- CXL_MEM_WRITE (R628 to R631, R641): a write of up to one 64 B line through a bound window. Behind an earlier write to its line that is to be
performed again it takes its turn (R631). -/
def execCxlMemWrite (port hpa : Nat) (data : Bytes) (poison : Bool) (s : State) : Result :=
  whenUp s fun s =>
    let cmd := Instr.cxlMemWrite port hpa data poison
    let s := s.stir
    let data := data.take (64 - hpa % 64)
    if s.lineQueued port hpa then
      .next ((({ s with nextId := s.nextId + 1, resume := s.resume ++ [{ cmd := cmd, since := some s.now, id := s.nextId, eid := s.lmf.eid }] } : State)).cxlAck port)
    else match s.windowAt port hpa with
    | none => .next ((s.cxlAck port).cxlDiscard port hpa .key)
    | some (n, w, off) =>
      let i := s.windowIssuer w
      let buffer (s : State) (why : HoldWhy) (lim : Nat) : Result :=
        if 256 ≤ s.writesHeld port then .next (s.holdCmd cmd (.buffer port) 0 i.eid i.ctx)
        else .next ((s.cxlAck port).holdCmd cmd why lim i.eid i.ctx)
      if s.ctxIs w.ctx .resetting then buffer s (.resetting w.ctx) 0
      else match s.permit s.lmf.eid w.key off data.length needW i with
        | none => .next ((s.cxlAck port).cxlDiscard port hpa .key)
        | some (rid, r) =>
          match s.gate rid r with
          | some why => buffer s why s.holdEndPlain
          | none =>
            let m := if poison then (match s.meetWrite rid r (.shadowed i) (off - off % 64) 64 with | .stop .poison => .clear | x => x)
              else s.meetWrite rid r (.shadowed i) off data.length
            match m with
            | .clear =>
              if poison then
                let s := (s.poisonLine rid (.shadowed i) off).touchRange true rid (.own i) off data.length
                .next ((s.cxlAck port).cxlError port w.fn n w.ctx .poison w.key off)
              else
                let s := s.writeRange rid (.shadowed i) off data
                let s := (s.touchRange true rid (.own i) off data.length).event (hostUnit port) 0 data.length none
                if r.mode = .publish then .next (s.cxlAck port)
                else .next (s.answerAfter rid off data none .ok (if s.replayOf.isSome then .none else .host port))
            | .stop st => .next (((s.quotaMet st).cxlAck port).cxlDiscard port hpa st)
            | m =>
              if 256 ≤ s.writesHeld port then .next (s.holdCmd cmd (.buffer port) 0 i.eid i.ctx)
              else .next ((s.cxlAck port).cxlHoldOn cmd i 1 rid off m).1

/-- The bytes of the leading lines of a range, in ascending order, whose access meets nothing (R873). -/
def clearLead (off n : Nat) (met : Nat → Nat → Met) : Nat :=
  (((lineCuts off n).takeWhile (fun q => decide (met q.1 q.2 = .clear))).map Prod.snd).sum

/-- The command being performed has the bytes of the lines performed so far (R873). -/
def State.withGot (s : State) (cmd : Instr) (got : Bytes) : State :=
  { s with replay := some (match s.replay with
    | some a => { a with got := got, retry := 0 }
    | none => { cmd := cmd, since := none, got := got }) }

/-- After what was done with `withGot`, the command being performed is again the one it was. -/
def State.ungot (t s : State) : State := { t with replay := s.replay }

/-- LMF_LOAD (R189, R62, R95, R110): checked at the home and served from the reader's shadow page or the published version. In a coherent region
the lines are read one by one (R873). -/
def execLmfLoad (q0 : LmfReq) (s : State) : Result :=
  whenUp s fun s =>
    let q := s.sourced q0
    let cmd := Instr.lmfLoad q
    match s.arrive cmd q false false with
    | .error s => .next s
    | .ok s =>
      s.serve cmd q needR fun rid r s =>
        let v := View.own (LmfIssuer q)
        match s.meetRead rid r v q.offset q.len with
        | .clear =>
          let data := s.gotSoFar ++ s.readRange r v q.offset q.len
          .next ((s.readDone true rid v q.offset q.len).complete q .ok data)
        | m =>
          if r.mode = .coherent then
            let k := clearLead q.offset q.len (s.meetRead rid r v)
            let rest : LmfReq := { q with offset := q.offset + k, len := q.len - k }
            let m := s.meetRead rid r v rest.offset rest.len
            let t := if k = 0 then s else
              (s.readDone true rid v q.offset k).withGot (.lmfLoad rest) (s.gotSoFar ++ s.readRange r v q.offset k)
            .next ((t.lmfMet (.lmfLoad rest) rest 0 rid m).ungot s)
          else .next (s.lmfMet cmd q 0 rid m)

/-- LMF_STORE (R188, R190, R875, R737): applied to the issuer's shadow page, or directly outside a publish-mode region. In a coherent region the lines
are written one by one (R873). -/
def execLmfStore (q0 : LmfReq) (data : Bytes) (s : State) : Result :=
  whenUp s fun s =>
    let q := s.sourced q0
    let cmd := Instr.lmfStore q data
    let data := data.take q.len
    match s.arrive cmd q false true with
    | .error s => .next s
    | .ok s =>
      s.serve cmd q needW fun rid r s =>
        let i := LmfIssuer q
        match s.meetWrite rid r (.shadowed i) q.offset data.length with
        | .clear =>
          let s := s.writeRange rid (.shadowed i) q.offset data
          let s := s.touchRange true rid (.own i) q.offset data.length
          if r.mode = .publish then .next (s.complete q .ok [])
          else .next (s.answerAfter rid q.offset data none .ok (.lmf q []))
        | m =>
          if r.mode = .coherent then
            let k := clearLead q.offset data.length (s.meetWrite rid r (.shadowed i))
            let rest : LmfReq := { q with offset := q.offset + k, len := q.len - k }
            let m := s.meetWrite rid r (.shadowed i) rest.offset (data.length - k)
            let t := if k = 0 then s else
              (((s.writeRange rid (.shadowed i) q.offset (data.take k)).touchRange true rid (.own i) q.offset k).answerAfter
                rid q.offset (data.take k) none .ok .none).withGot (.lmfStore rest (data.drop k)) []
            .next ((t.lmfMet (.lmfStore rest (data.drop k)) rest 1 rid m).ungot s)
          else .next (s.lmfMet cmd q 1 rid m)

/-- FAULT_RECORD_WRITE (R87, R88, R614): the ring has space, and the oldest record not in it is written. -/
def execFaultRecordWrite (seq : Nat) (s : State) : Result :=
  whenUp s fun s =>
    match s.home.faults.find? (fun f => !f.written) with
    | some f => if f.seq = seq ∧ s.faultRoom = true then .next (s.faultWrite f) else .next s
    | none => .next s

/-- FAULT_HOLD_EXPIRY (R95, R181, R631, R670, R678, R740, R749, R872): a held access has been held for its limit. -/
def execFaultHoldExpiry (id : Nat) (s : State) : Result :=
  whenUp s fun s =>
    match s.home.held.find? (fun h => decide (h.id = id)) with
    | some h => if h.limit ≠ 0 ∧ h.limit ≤ s.now then .next (s.endHeld h .paused).bufferFree else .next s
    | none => .next s

end Sys2Proof.Machine
end

