-- ==== Sys2Proof/Machine/Coherence.lean ====
section
/-! DEFINITION. The rope-team protocol at the home (07): requests, responses, the transition table of R291, NACK and reservation, home timeout, fence sweep, REVOKE of coherent lines. -/

namespace Sys2Proof.Machine

/-- The bytes of a line in the home copy. -/
def State.lineData (s : State) (rid ln : Nat) : Bytes :=
  match s.region? rid with
  | some r => s.readRange r .pub (ln * 64) 64
  | none => List.replicate 64 0

/-- Is the line poisoned in the home copy (R309)? -/
def State.linePoisoned (s : State) (rid ln : Nat) : Bool :=
  match s.region? rid with
  | some r =>
    match s.viewRef r (ln / 1024) .pub with
    | some ref => (match s.page? ref with | some p => p.poison.contains (ln % 1024) | none => false)
    | none => false
  | none => false

/-- Write the home copy of a line. -/
def State.lineWrite (s : State) (rid ln : Nat) (data : Bytes) : State := s.writeRange rid .direct (ln * 64) ((data ++ List.replicate 64 0).take 64)

/-- Set the line's poison mark. -/
def State.lineToxic (s : State) (rid ln : Nat) : State := (s.poisonLine rid .direct (ln * 64)).event (dirUnit ln) 5 1 none

/-- Clear the mark and keep the bytes (R309: an INV_OWN grant). -/
def State.lineClean (s : State) (rid ln : Nat) : State := if s.linePoisoned rid ln then s.lineWrite rid ln (s.lineData rid ln) else s

/-- Data returned by an owner: written when dirty, poisoned when flagged (R290). -/
def State.lineReturn (s : State) (rid ln : Nat) (dirty poison : Bool) (data : Bytes) : State :=
  let s := if dirty then s.lineWrite rid ln data else s
  if poison then s.lineToxic rid ln else s

/-- A line in state I with nothing waiting. -/
def Line.idle : Line :=
  { st := .i, owner := 0, sharers := [], awaited := [], req := .none, snoop := 0, wbSeen := false, armed := 0, granted := 0, resv := [], resvSince := 0 }

/-- The entry of a line, or state I (R281). -/
def State.lineD (s : State) (rid ln : Nat) : Line := (s.line? rid ln).getD Line.idle

/-- Answer a coherence request (R284). -/
def State.cohReply (s : State) (q : LmfReq) (op flag : Nat) (data : Bytes) : State := s.emit (.coh q.srcEid op q.tag q.gen q.key q.offset flag data)

/-- NACK a request (R298): with RETRY of 8 or more the requester joins the line's queue, but never the line's owner (R301, R304,
R305). -/
def State.nack (s : State) (rid ln : Nat) (q : LmfReq) (owner : Bool) (reserved : Bool) : State :=
  let s := if owner then s else s.reserve rid ln q.srcEid q.retry
  (s.event (dirUnit ln) 1 1 none).cohReply q 70 (b2n reserved) []

/-- Grant a line to an agent: recorded, and for E or M in the region's exclusive-holder set; a mirrored region has recorded the bit at the partner
before (R295). -/
def State.grantLine (s : State) (rid ln agent : Nat) (st : LineState) : State :=
  let l := s.lineD rid ln
  let s := s.setLine rid ln
    { l with
      st := st, owner := (if st = .s then 0 else agent), sharers := if st = .s then (if agent ∈ l.sharers then l.sharers else l.sharers ++ [agent]) else [], awaited := [],
      req := .none, snoop := 0, wbSeen := false, armed := 0, granted := s.rope.grantCount, resvSince := s.now }
  let s := { s with rope.grantCount := s.rope.grantCount + 1 }
  match s.region? rid with
  | some r =>
    if st = .s ∨ agent ∈ r.excl then s
    else
      (s.setRegion rid { r with excl := r.excl ++ [agent] }).commit
  | none => s

/-- Merge a masked write into a line. -/
def mergeMask (old new : Bytes) (mask : BitVec 64) : Bytes :=
  (upto 64).map (fun k => if mask.getLsbD k then new.getD k 0 else old.getD k 0)

/-- Perform a WR_UNC on the home copy and complete it, after the mirror partner where there is one (R294). -/
def State.doWrUnc (s : State) (rid ln : Nat) (q : LmfReq) (data : Bytes) (mask : BitVec 64) : State :=
  let new := mergeMask (s.lineData rid ln) data mask
  let s := s.lineWrite rid ln new
  (s.touchRange true rid .pub (ln * 64) 64).answerAfter rid (ln * 64) new none .ok (.coh q 69 0)

/-- Perform an RD_UNC from the home copy. -/
def State.doRdUnc (s : State) (rid : Nat) (q : LmfReq) : State :=
  match s.region? rid with
  | some r => (s.readDone true rid .pub q.offset q.len).cohReply q 68 0 (s.readRange r .pub q.offset q.len)
  | none => s

/-- Grant a line with its data (R284): DATA_S, DATA_E or DATA_M; the read counts in heat and is fetched from TL or T2 (R110, R120). -/
def State.grantData (s : State) (rid ln agent : Nat) (st : LineState) (q : LmfReq) : State :=
  (((s.grantLine rid ln agent st).served rid ln q.srcEid).readDone true rid .pub (ln * 64) 64).cohReply q
    (match st with | .s => 64 | .e => 65 | _ => 66) 0 (s.lineData rid ln)

/-- Does a line lie under an RO leaf (R874)? -/
def State.lineRo (s : State) (rid ln : Nat) : Bool := match s.region? rid with | some r => (r.entry (ln / 1024)).isRo | none => false

/-- Waiting accesses of the home may try the line again. -/
def State.lineStable (s : State) (rid ln : Nat) : State := s.release (fun w => decide (w = .line rid ln))

/-- Serve the request a transient state held, now that the line is the home's, as in state I (R291, R293, R309, R874). -/
def State.servePending (s : State) (rid ln : Nat) : State :=
  let l := s.lineD rid ln
  let bad := s.linePoisoned rid ln
  let toxic (q : LmfReq) : State := ((s.freeLine rid ln).served rid ln q.srcEid).cohReply q 71 0 []
  match l.req with
  | .none => (s.freeLine rid ln).lineStable rid ln
  | .shared a q => (if bad then toxic q else (s.freeLine rid ln).grantData rid ln a (if s.lineRo rid ln then .s else .e) q).lineStable rid ln
  | .own a q => (if bad then toxic q else (s.freeLine rid ln).grantData rid ln a .m q).lineStable rid ln
  | .upgrade a q =>
    (if bad then toxic q
     else if l.st = .invWait then (((s.freeLine rid ln).grantLine rid ln a .m).served rid ln q.srcEid).cohReply q 67 0 []
     else (s.freeLine rid ln).grantData rid ln a .m q).lineStable rid ln
  | .invOwn a q => (((((s.freeLine rid ln).lineClean rid ln).grantLine rid ln a .m).served rid ln q.srcEid).cohReply q 67 0 []).lineStable rid ln
  | .rdUnc q => (if bad then toxic q else ((s.freeLine rid ln).served rid ln q.srcEid).doRdUnc rid q).lineStable rid ln
  | .wrUnc q data mask =>
    let s1 := (s.freeLine rid ln).served rid ln q.srcEid
    (if s1.linePoisoned rid ln && decide (mask ≠ BitVec.allOnes 64) then s1.cohReply q 69 5 [] else s1.doWrUnc rid ln q data mask).lineStable rid ln
  | .access _ => (s.setLine rid ln { l with awaited := [], armed := 0 }).lineStable rid ln
  | .revoke _ => (s.freeLine rid ln).lineStable rid ln

/-- The agents whose incarnation has been fenced (R313). -/
def State.fencedIdx (s : State) : List Nat :=
  (s.rope.agents.filter (fun e => decide (e.2 ∈ s.rope.fencedAgents))).map Prod.fst

/-- The requester of the request that a transient state serves gets POISON (R307, R312). A held access completes with ST_POISON,
and an engine's runs again and meets the poisoned line. -/
def State.poisonPending (s : State) (rid ln : Nat) (req : LineReq) : State :=
  match req with
  | .none => s
  | .revoke _ => s
  | .shared _ q => s.cohReply q 71 0 []
  | .own _ q => s.cohReply q 71 0 []
  | .upgrade _ q => s.cohReply q 71 0 []
  | .invOwn _ q => s.cohReply q 71 0 []
  | .rdUnc q => s.cohReply q 71 0 []
  | .wrUnc q _ _ => s.cohReply q 71 0 []
  | .access c =>
    if (bciOf c).isSome || (reqOf c).isSome then s.endHolds (fun h => decide (h.cmd = c) && decide (h.why = .line rid ln)) .poison else s

/-- Apply a fence to one line (R312). -/
def State.settleLine (s : State) (rid ln : Nat) : State :=
  match s.line? rid ln with
  | none => s
  | some l =>
    let f := s.fencedIdx
    let gone := s.rope.fencedAgents.map Agent.eid
    let l := { l with resv := l.resv.filter (fun e => decide (e ∉ gone)) }
    match l.st with
    | .i => (s.setLine rid ln l).tidyLine rid ln
    | .s =>
      let sh := l.sharers.filter (fun a => decide (a ∉ f))
      if sh = [] then (s.setLine rid ln { l with sharers := [] }).freeLine rid ln else s.setLine rid ln { l with sharers := sh }
    | .e => if l.owner ∈ f then (((s.setLine rid ln l).lineToxic rid ln).freeLine rid ln).lineStable rid ln else s.setLine rid ln l
    | .m => if l.owner ∈ f then (((s.setLine rid ln l).lineToxic rid ln).freeLine rid ln).lineStable rid ln else s.setLine rid ln l
    | _ =>
      if l.snoop = 50 then
        let aw := l.awaited.filter (fun a => decide (a ∉ f))
        let s := s.setLine rid ln { l with awaited := aw, sharers := l.sharers.filter (fun a => decide (a ∉ f)) }
        if aw = [] ∧ l.awaited ≠ [] then s.servePending rid ln else s
      else if l.awaited.any (fun a => decide (a ∈ f)) then
        ((((s.setLine rid ln l).lineToxic rid ln).poisonPending rid ln l.req).freeLine rid ln).lineStable rid ln
      else s.setLine rid ln l

/-- The entries of the directory: lines not in state I. -/
def State.entries (s : State) : List (Nat × Line) := s.rope.lines.filter (fun e => decide (e.2.st ≠ .i))

/-- The die and set of a line: 4,194,304 sets on each of the two dies, by the hash of its local offset (R280). -/
def dirSetOf (ln : Nat) : Nat := Config.dirSet (ln * 64) % 8388608

/-- The entries of the set a line falls in; a directory with fewer than 16 entries has no full set (R280). -/
def State.setFull (s : State) (ln : Nat) : Option (List (Nat × Line)) :=
  if s.entries.length < 16 then none
  else
    let es := s.entries.filter (fun e => decide (dirSetOf (e.1 % 18446744073709551616) = dirSetOf ln))
    if es.length < 16 then none else some es

/-- The rank of a state as a victim: S, then E, then M (R296). -/
def victimRank : LineState → Nat
  | .s => 0
  | .e => 1
  | _ => 2

/-- The victim among a set's stable entries: by state, then least recently granted, then the lowest (R296). -/
def setVictim (es : List (Nat × Line)) : Option (Nat × Line) :=
  (es.filter (fun e => match e.2.st with | .s => true | .e => true | .m => true | _ => false)).foldl
    (fun best e => match best with
      | none => some e
      | some b => if victimRank e.2.st < victimRank b.2.st ∨ (victimRank e.2.st = victimRank b.2.st ∧ e.2.granted < b.2.granted) then some e else some b)
    none

/-- Start the eviction of an entry, counted at its slice (R796): SNP_INV to the sharers, SNP_FLUSH to the owner (R291). -/
def State.evictLine (s : State) (rid ln : Nat) (l : Line) : State :=
  let s := s.event (dirUnit ln) 3 1 none
  match l.st with
  | .s =>
    let s := s.setLine rid ln { l with st := .evictWait, awaited := l.sharers, req := .none, snoop := 50, wbSeen := false, armed := s.now }
    l.sharers.foldl (fun s a => s.toAgent a 50 rid ln 0 []) s
  | _ =>
    (s.setLine rid ln { l with st := .evictWait, awaited := [l.owner], req := .none, snoop := 51, wbSeen := false, armed := s.now }).toAgent l.owner 51 rid ln 0 []

/-- Send SNP_INV to sharers other than one, and wait for them on behalf of a request; with none to wait for it is served. -/
def State.invalidate (s : State) (rid ln : Nat) (l : Line) (but : Option Nat) (req : LineReq) : State :=
  let aw := l.sharers.filter (fun a => decide (some a ≠ but))
  let s := s.setLine rid ln { l with st := .invWait, awaited := aw, req := req, snoop := 50, wbSeen := false, armed := s.now }
  let s := aw.foldl (fun s a => s.toAgent a 50 rid ln 0 []) s
  if aw = [] then s.servePending rid ln else s

/-- Snoop the owner on behalf of a request (R291); a forwarding snoop names the requester. -/
def State.snoopOwner (s : State) (rid ln : Nat) (l : Line) (op requester : Nat) (req : LineReq) : State :=
  (s.setLine rid ln { l with st := .fwdWait, awaited := [l.owner], req := req, snoop := op, wbSeen := false, armed := s.now }).toAgent l.owner op rid ln requester []

/-- The kinds of request of R284 that the table of R291 treats alike. -/
inductive CohKind where
  | rdShared | rdOwn | upgrade | invOwn | rdUnc | wrUnc (data : Bytes) (mask : BitVec 64)
  deriving DecidableEq, Repr

/-- The pending request a kind leaves. -/
def CohKind.pend (k : CohKind) (a : Nat) (q : LmfReq) : LineReq :=
  match k with
  | .rdShared => .shared a q
  | .rdOwn => .own a q
  | .upgrade => .upgrade a q
  | .invOwn => .invOwn a q
  | .rdUnc => .rdUnc q
  | .wrUnc d m => .wrUnc q d m

/-- R309: does the kind get POISON from a poisoned line, or ST_POISON for a partial write, or go through the table? -/
def CohKind.poisonReply (k : CohKind) : Option (Nat × Nat) :=
  match k with
  | .invOwn => none
  | .wrUnc _ m => if m = BitVec.allOnes 64 then none else some (69, 5)
  | _ => some (71, 0)

/-- Handle a request by the transition table (R291 to R297, R302, R309). `agent` is the requester's index where it is one. -/
def State.cohRequest (s : State) (rid ln : Nat) (ro : Bool) (k : CohKind) (a : Nat) (isAgent : Bool) (q : LmfReq) : State :=
  let s := (s.settleLine rid ln).event (dirUnit ln) 0 1 none
  let l := s.lineD rid ln
  let owner := isAgent && decide (l.owner = a) && (match l.st with | .e => true | .m => true | _ => false)
  let clearing : Bool := match l.req with
    | .invOwn _ _ => true
    | .wrUnc _ _ m => decide (m = BitVec.allOnes 64)
    | .access _ => true
    | _ => false
  match (if s.linePoisoned rid ln && !clearing then k.poisonReply else none) with
  | some (op, flag) => ((s.served rid ln q.srcEid).tidyLine rid ln).cohReply q op flag []
  | none =>
    let stable := match l.st with | .i => true | .s => true | .e => true | .m => true | _ => false
    if stable && decide (l.resv ≠ []) && decide (l.resv.head? ≠ some q.srcEid) && !owner then s.nack rid ln q owner true
    else if !stable then s.nack rid ln q owner false
    else
      let sharer := isAgent && decide (a ∈ l.sharers)
      let k := match k, l.st with
        | .upgrade, .i => CohKind.rdOwn
        | .upgrade, .s => if sharer then CohKind.upgrade else CohKind.rdOwn
        | k, _ => k
      match l.st with
      | .s =>
        match k with
        | .rdShared => s.grantData rid ln a .s q
        | .rdUnc => (s.served rid ln q.srcEid).doRdUnc rid q
        | .wrUnc d m => s.invalidate rid ln l none (.wrUnc q d m)
        | k => s.invalidate rid ln l (some a) (k.pend a q)
      | .i =>
        match k with
        | .rdUnc => ((s.served rid ln q.srcEid).tidyLine rid ln).doRdUnc rid q
        | .wrUnc d m => ((s.served rid ln q.srcEid).tidyLine rid ln).doWrUnc rid ln q d m
        | k =>
          match s.setFull ln with
          | some es =>
            match setVictim es with
            | some v => (s.evictLine (v.1 / 18446744073709551616) (v.1 % 18446744073709551616) v.2).nack rid ln q false false
            | none => s.nack rid ln q false false
          | none =>
            match k with
            | .rdShared => s.grantData rid ln a (if ro then .s else .e) q
            | .invOwn => (((s.lineClean rid ln).grantLine rid ln a .m).served rid ln q.srcEid).cohReply q 67 0 []
            | _ => s.grantData rid ln a .m q
      | _ =>
        match k with
        | .rdUnc => s.snoopOwner rid ln l 51 0 (.rdUnc q)
        | .wrUnc d m => s.snoopOwner rid ln l 51 0 (.wrUnc q d m)
        | .rdShared => if owner then s.nack rid ln q true false else s.snoopOwner rid ln l 48 a (.shared a q)
        | k => if owner then s.nack rid ln q true false else s.snoopOwner rid ln l 49 a (k.pend a q)

/-- Is the requester the agent it says it is, with the incarnation of the table (R274)? -/
def State.agentOk (s : State) (agent : Nat) (q : LmfReq) : Bool := decide (Tab.get? s.rope.agents agent = some { eid := q.srcEid, inc := q.srcInc })

/-- May a caching request end in a grant of E or M (R291)? -/
def CohKind.mayOwn (k : CohKind) (l : Line) (ro : Bool) : Bool :=
  match k with
  | .rdShared => !ro && decide (l.st ≠ .s)
  | .rdOwn => true
  | .upgrade => true
  | .invOwn => true
  | _ => false

/-- Record an agent's exclusive-holder bit at the mirror partner, and hold its request until the partner has it (R295). -/
def State.journalExcl (s : State) (rid : Nat) (r : Region) (agent : Nat) (cmd : Instr) (q : LmfReq) : State :=
  match s.home.mirrors.find? (fun w => decide (w.rid = rid) && decide (w.excl = some agent)) with
  | some w => s.holdCmd cmd (.journal w.id) (s.limitOf q - 10000) q.srcEid q.ctx
  | none =>
    let w : MirrorWait :=
      { id := s.nextId, partner := r.mirror, rid := rid, after := [], bci := none, st := .ok, resp := [], pubId := none,
        op := none, work := none, excl := some agent }
    let s := ({ s with nextId := s.nextId + 1, home.mirrors := s.home.mirrors ++ [w] } : State).commit
    (s.emit (.journal r.mirror (s.keyOf rid) (.excl agent))).holdCmd cmd (.journal w.id) (s.limitOf q - 10000) q.srcEid q.ctx

/-- Handle an agent's caching request by the table, once a mirrored region's partner has the agent's bit (R295). -/
def State.cohOwn (s : State) (cmd : Instr) (rid ln : Nat) (ro : Bool) (k : CohKind) (agent : Nat) (q : LmfReq) : State :=
  match s.region? rid with
  | none => s
  | some r =>
    if r.mirror ≠ 0 ∧ agent ∉ r.excl ∧ k.mayOwn (s.lineD rid ln) ro = true ∧ s.linePoisoned rid ln = false then s.journalExcl rid r agent cmd q
    else s.cohRequest rid ln ro k agent true q

/-- A caching request from its arrival to the table (R274, R285, R874): agent, R62, mode, then fault, recovery, table. -/
def cohServe (mk : LmfReq → Instr) (q : LmfReq) (agent : Nat) (need : Rights) (payload writes : Bool) (s : State)
    (body : LmfReq → Nat → Nat → Bool → State → State) : Result :=
  whenUp s fun s =>
    let q := s.sourced q
    let cmd := mk q
    match s.arrive cmd q true payload with
    | .error s => .next s
    | .ok s =>
      if !s.agentOk agent q then .next (s.complete q .key [])
      else match s.permit q.dstEid q.key (q.offset / 64 * 64) 64 need (LmfIssuer q) with
        | none => .next (s.complete q .key [])
        | some (rid, r) =>
          if r.mode ≠ .coherent then .next (s.complete q .notSupported [])
          else match s.gate rid r with
            | some why => .next (s.holdCmd cmd why (s.holdEnd q) q.srcEid q.ctx)
            | none =>
              let p := q.offset / 65536
              let ro := (r.entry p).isRo
              if r.entry p = .fault then .next (s.lmfMet cmd q (b2n writes) rid (.fault 1 p))
              else if ro && writes then .next (s.lmfMet cmd q 1 rid (.fault 2 p))
              else match s.viewRef r p .pub with
                | some ref =>
                  if (match s.page? ref with | some pg => pg.recovering | none => false) then .next (s.lmfMet cmd q (b2n writes) rid (.recovering ref))
                  else .next (body q rid (q.offset / 64) ro s)
                | none => .next (body q rid (q.offset / 64) ro s)

/-- RD_SHARED (R291). -/
def execRdShared (q : LmfReq) (agent : Nat) (s : State) : Result :=
  cohServe (fun q => .rdShared q agent) q agent needR false false s fun q rid ln ro s => s.cohOwn (.rdShared q agent) rid ln ro .rdShared agent q

/-- RD_OWN (R291). -/
def execRdOwn (q : LmfReq) (agent : Nat) (s : State) : Result :=
  cohServe (fun q => .rdOwn q agent) q agent needW false true s fun q rid ln ro s => s.cohOwn (.rdOwn q agent) rid ln ro .rdOwn agent q

/-- UPGRADE (R291, R292). -/
def execUpgrade (q : LmfReq) (agent : Nat) (s : State) : Result :=
  cohServe (fun q => .upgrade q agent) q agent needW false true s fun q rid ln ro s => s.cohOwn (.upgrade q agent) rid ln ro .upgrade agent q

/-- INV_OWN (R291, R309). -/
def execInvOwn (q : LmfReq) (agent : Nat) (s : State) : Result :=
  cohServe (fun q => .invOwn q agent) q agent needW false true s fun q rid ln ro s => s.cohOwn (.invOwn q agent) rid ln ro .invOwn agent q

/-- A write-back or a clean eviction of a line by an agent (R291, R308). -/
def State.cohDrop (s : State) (rid ln agent : Nat) (q : LmfReq) (wb poison : Bool) (data : Bytes) : State :=
  let s := s.settleLine rid ln
  let l := s.lineD rid ln
  let ans (s : State) : State :=
    if wb then (s.touchRange true rid .pub (ln * 64) 64).answerAfter rid (ln * 64) data none .ok (.coh q 69 0) else s.cohReply q 69 0 []
  let owner : Bool := match l.st with | .e => decide (l.owner = agent) | .m => decide (l.owner = agent) | _ => false
  let recalled (s : State) : State :=
    match Tab.get? s.rope.recallDone rid with
    | some ls => if wb then { s with rope.recallDone := Tab.set s.rope.recallDone rid (ln :: ls) } else s
    | none => s
  let stray (s : State) : State :=
    if (Tab.get? s.rope.recalls rid).isSome && wb then recalled (ans (s.lineReturn rid ln true poison data))
    else (if wb then { s with rope.strayWb := s.rope.strayWb + 1 } else s).cohReply q 69 0 []
  if l.st.stable && decide (l.resv ≠ []) && decide (l.resv.head? ≠ some q.srcEid) && !owner then s.nack rid ln q false true
  else match l.st with
  | .i => stray s
  | .s =>
    if agent ∈ l.sharers ∧ wb = false then
      let sh := l.sharers.filter (fun a => decide (a ≠ agent))
      (if sh = [] then (s.setLine rid ln { l with sharers := [] }).freeLine rid ln else s.setLine rid ln { l with sharers := sh }).cohReply q 69 0 []
    else stray s
  | .e => if l.owner = agent then ans (((s.lineReturn rid ln wb poison data).freeLine rid ln).lineStable rid ln) else stray s
  | .m => if l.owner = agent then ans (((s.lineReturn rid ln wb poison data).freeLine rid ln).lineStable rid ln) else stray s
  | .invWait => if agent ∈ l.sharers then s.nack rid ln q false false else stray s
  | _ =>
    if l.snoop ≠ 50 ∧ l.owner = agent then
      let s := ans (s.lineReturn rid ln wb poison data)
      let s := s.setLine rid ln { s.lineD rid ln with wbSeen := true }
      if l.awaited = [] then s.servePending rid ln else s
    else if agent ∈ l.sharers then s.nack rid ln q false false else stray s

/-- WB_DIRTY (R291, R314). -/
def execWbDirty (q : LmfReq) (agent : Nat) (data : Bytes) (poison : Bool) (s : State) : Result :=
  cohServe (fun q => .wbDirty q agent data poison) q agent needW true false s fun q rid ln _ s => s.cohDrop rid ln agent q true poison data

/-- EVICT_CLEAN (R288, R291). -/
def execEvictClean (q : LmfReq) (agent : Nat) (s : State) : Result :=
  cohServe (fun q => .evictClean q agent) q agent needW false false s fun q rid ln _ s => s.cohDrop rid ln agent q false false []

/-- Does an endpoint hold an index in the agent table? -/
def State.agentIdx (s : State) (eid : Nat) : Option Nat := (s.rope.agents.find? (fun e => decide (e.2.eid = eid))).map Prod.fst

/-- RD_UNC (R272, R291): on a coherent line by the table, elsewhere as a load. -/
def execRdUnc (q0 : LmfReq) (s : State) : Result :=
  whenUp s fun s =>
    let q := s.sourced q0
    let cmd := Instr.rdUnc q
    match s.arrive cmd q true false with
    | .error s => .next s
    | .ok s =>
      if q.len = 0 ∨ q.offset % 64 + q.len > 64 then .next (s.complete q .notSupported [])
      else s.serve cmd q needR fun rid r s =>
        if r.mode = .coherent then
          match s.meetRead1 rid r .pub q.offset q.len with
          | .fault k p => .next (s.lmfMet cmd q 0 rid (.fault k p))
          | .recovering p => .next (s.lmfMet cmd q 0 rid (.recovering p))
          | _ => .next (s.cohRequest rid (q.offset / 64) false .rdUnc ((s.agentIdx q.srcEid).getD 0) (s.agentIdx q.srcEid).isSome q)
        else
          let v := View.own (LmfIssuer q)
          match s.meetRead rid r v q.offset q.len with
          | .clear => .next ((s.readDone true rid v q.offset q.len).cohReply q 68 0 (s.readRange r v q.offset q.len))
          | .stop .poison => .next (s.cohReply q 71 0 [])
          | m => .next (s.lmfMet cmd q 0 rid m)

/-- WR_UNC (R272, R291, R309): on a coherent line by the table, elsewhere as a store of the masked bytes. -/
def execWrUnc (q0 : LmfReq) (data : Bytes) (mask : BitVec 64) (s : State) : Result :=
  whenUp s fun s =>
    let q := s.sourced q0
    let cmd := Instr.wrUnc q data mask
    match s.arrive cmd q true true with
    | .error s => .next s
    | .ok s =>
      s.serve cmd { q with offset := q.offset / 64 * 64, len := 64 } needW fun rid r s =>
        let ln := q.offset / 64
        if r.mode = .coherent then
          match s.meetWrite1 rid r .direct (ln * 64) 64 with
          | .fault k p => .next (s.lmfMet cmd q 1 rid (.fault k p))
          | .recovering p => .next (s.lmfMet cmd q 1 rid (.recovering p))
          | .stop .quota => .next ((s.quotaMet .quota).complete q .quota [])
          | _ => .next (s.cohRequest rid ln false (.wrUnc data mask) ((s.agentIdx q.srcEid).getD 0) (s.agentIdx q.srcEid).isSome q)
        else
          let i := LmfIssuer q
          let m := match s.meetWrite rid r (.shadowed i) (ln * 64) 64 with
            | .clear => if mask ≠ BitVec.allOnes 64 then
                (match s.viewRef r (ln / 1024) (.own i) with
                 | some ref => (match s.page? ref with
                    | some pg => if pg.poison.contains (ln % 1024) then Met.stop .poison else .clear
                    | none => .clear)
                 | none => .clear) else .clear
            | m => m
          match m with
          | .clear =>
            let new := mergeMask (s.readRange r (.own i) (ln * 64) 64) data mask
            let s := (s.writeRange rid (.shadowed i) (ln * 64) new).touchRange true rid (.own i) (ln * 64) 64
            if r.mode = .publish then .next (s.cohReply q 69 0 []) else .next (s.answerAfter rid (ln * 64) new none .ok (.coh q 69 0))
          | .stop st => .next ((s.quotaMet st).cohReply q 69 st.code [])
          | m => .next (s.lmfMet cmd q 1 rid m)

/-- A REVOKE or DESTROY waits for lines: try what waits (R66, R315). -/
def State.keyInCmd (s : State) (c : Instr) : Nat :=
  match c with
  | .cxlMemRead p h => (match s.windowAt p h with | some (_, w, _) => w.key | none => 0)
  | .cxlMemWrite p h _ _ => (match s.windowAt p h with | some (_, w, _) => w.key | none => 0)
  | c => match bciOf c with
    | some r => r.w 1
    | none => match reqOf c with | some q => q.key | none => 0

/-- Is a hold that of an access that has passed R62? -/
def passedCheck : HoldWhy → Bool
  | .fault _ => true
  | .recovery _ => true
  | .lease _ => true
  | .recall _ => true
  | .line _ _ => true
  | .nacked _ _ _ => true
  | .journal _ => true
  | .room => true
  | .publish _ => true
  | .resetting _ => true
  | _ => false

/-- The request that a line in a transient state serves. -/
def LineReq.lmf? : LineReq → Option LmfReq
  | .shared _ q => some q
  | .own _ q => some q
  | .upgrade _ q => some q
  | .invOwn _ q => some q
  | .rdUnc q => some q
  | .wrUnc q _ _ => some q
  | _ => Option.none

/-- Whose update a mirror wait completes: its endpoint, where the answer says it. -/
def MirrorWait.issuedBy (w : MirrorWait) (eid : Nat) (self : Nat) : Bool :=
  w.after.any (fun o => match o with
    | .cpl e _ _ _ _ => decide (e = eid)
    | .coh e _ _ _ _ _ _ _ => decide (e = eid)
    | .cxlDone _ => decide (eid = self)
    | _ => false)
  || (match w.bci with | some r => (match srcReq r.src with | some q => decide (q.srcEid = eid) | none => decide (eid = self)) | none => false)
  || (w.work.isSome && decide (eid = self))

/-- Accesses to a region, by the issuers a grant covers, that passed the check of R62 and have not completed (R66): held ones, those to be performed
again, those a transient line serves, and those whose update the mirror partner has still to take. -/
def State.grantBusy (s : State) (w : RevokeWait) : Bool :=
  s.home.held.any (fun h => passedCheck h.why && decide (h.eid = w.eid) && (w.any || decide (h.ctx = w.ctx))
    && decide (s.ridOf (s.homeOf h.cmd) (s.keyInCmd h.cmd) = w.rid))
  || s.resume.any (fun a => passedCheck a.why && decide (a.eid = w.eid) && (w.any || decide (a.ctx = w.ctx))
    && decide (s.ridOf (s.homeOf a.cmd) (s.keyInCmd a.cmd) = w.rid))
  || s.rope.lines.any (fun e => decide (e.1 / 18446744073709551616 = w.rid) && (match e.2.req.lmf? with
    | some q => decide (q.srcEid = w.eid) && (w.any || decide (q.ctx = w.ctx))
    | none => false))
  || s.home.mirrors.any (fun m => decide (m.rid = w.rid) && m.issuedBy w.eid s.lmf.eid)

/-- Take rights away from a grant list: a grant left with none is removed (R66). -/
def revokeFrom (gs : List Grant) (eid ctx : Nat) (any : Bool) (x : Rights) : List Grant :=
  (gs.map (fun g => if g.eid = eid ∧ g.any = any ∧ (any = true ∨ g.ctx = ctx) then
      { g with rights := { r := g.rights.r && !x.r, w := g.rights.w && !x.w, a := g.rights.a && !x.a, p := g.rights.p && !x.p, e := g.rights.e && !x.e } }
    else g)).filter (fun g => g.rights.some?)

/-- Ask back every stable line of a region that an endpoint's agent holds, on behalf of a REVOKE (R315). -/
def State.revokeLines (s : State) (w : RevokeWait) : State :=
  match s.agentIdx w.eid with
  | none => s
  | some a =>
    (s.rope.lines.filter (fun e => decide (e.1 / 18446744073709551616 = w.rid))).foldl (fun s e =>
      let ln := e.1 % 18446744073709551616
      match e.2.st with
      | .s => if a ∈ e.2.sharers then s.askLine w.rid ln (.revoke w.id) else s
      | .e => if e.2.owner = a then s.askLine w.rid ln (.revoke w.id) else s
      | .m => if e.2.owner = a then s.askLine w.rid ln (.revoke w.id) else s
      | _ => s) s

/-- Does the endpoint's agent still hold a line of the region, or is one still awaited? -/
def State.revokeOpen (s : State) (w : RevokeWait) : Bool :=
  s.rope.lines.any (fun e => decide (e.1 / 18446744073709551616 = w.rid) &&
    (decide (e.2.req = .revoke w.id) || (match s.agentIdx w.eid with
      | some a => (match e.2.st with | .e => decide (e.2.owner = a) | .m => decide (e.2.owner = a) | .i => false | _ => decide (a ∈ e.2.sharers) || decide (a ∈ e.2.awaited))
      | none => false)))

/-- Carry a REVOKE on: it takes effect once the accesses before it have completed, takes coherent lines back, replaces the
transport key of an encrypted region (R786), and completes (R66, R315). -/
def State.revokeStep (s : State) (w : RevokeWait) : State :=
  match s.region? w.rid with
  | none => ({ s with home.revokes := s.home.revokes.filter (fun (x : RevokeWait) => decide (x.id ≠ w.id)) }).respond w.r .key []
  | some r =>
    if !w.asked && s.grantBusy w then s
    else
      let s := if w.asked then s else
        let r' := { r with grants := revokeFrom r.grants w.eid w.ctx w.any w.rights }
        let r' := if r.encrypt then { r' with tkeyOld := some (r.tkey, s.now), tkey := s.nextId } else r'
        State.giveKeyAll { (s.setRegion w.rid r').commit with
          nextId := s.nextId + 1
          home.revokes := s.home.revokes.map (fun (x : RevokeWait) => if x.id = w.id then { x with asked := true } else x) } w.rid
      let s := if w.asked || decide (r.mirror = 0) then s else
        s.emit (.journal r.mirror (s.keyOf w.rid) (.grant w.eid w.ctx w.any (match s.region? w.rid with
          | some r => (match r.grants.find? (fun g => decide (g.eid = w.eid) && decide (g.any = w.any) && (w.any || decide (g.ctx = w.ctx))) with
              | some g => g.rights.bits | none => 0)
          | none => 0)))
      let s := if r.mode = .coherent then s.revokeLines w else s
      if r.mode = .coherent && s.revokeOpen w then s
      else ({ s with home.revokes := s.home.revokes.filter (fun (x : RevokeWait) => decide (x.id ≠ w.id)) }).respond w.r .ok []

/-- Carry on every REVOKE that waits. -/
def State.settle (s : State) : State := s.home.revokes.foldl (fun s w => s.revokeStep w) s

/-- The state in which a command is performed again: its lines are the home's where they have answered (R246, R303). -/
def State.again (s : State) (a : Again) (more : List Again) : State := State.takeUp { s with resume := more, replay := some a } a

/-- What follows a resumed command in the same step: its deadline goes unless it waits again, and the REVOKEs that waited for it go on. -/
def State.resumed (s : State) (a : Again) : State :=
  let s := if a.id = 0 ∨ s.home.held.any (fun h => decide (h.id = a.id)) = true ∨ s.home.pubs.any (fun p => decide (p.id = a.id)) = true then s else s.dropDeadline a.id
  { s.settle with replay := none }

/-- A snoop response from its arrival (R289, R308, R314): of a fenced incarnation it is answered with ST_FENCED and discarded;
one that no line awaits is discarded and counted. -/
def snoopServe (q : LmfReq) (agent : Nat) (s : State) (body : Nat → Nat → Line → State → State) : Result :=
  whenUp s fun s =>
    let q := s.sourced q
    match s.judge q.srcEid q.srcInc with
    | .fenced => .next (s.complete q .fenced [])
    | .current =>
      let rid := s.ridOf q.dstEid q.key
      let ln := q.offset / 64
      let s := s.settleLine rid ln
      let l := s.lineD rid ln
      if s.agentOk agent q && decide (agent ∈ l.awaited) then .next (body rid ln l s).settle
      else .next (({ s with rope.late := s.rope.late + 1 }).event (dirUnit ln) 7 1 none)
    | _ => .next (({ s with rope.late := s.rope.late + 1 }).event (dirUnit (q.offset / 64)) 7 1 none)

/-- ACK_INV (R289, R291): one sharer fewer is awaited; the last one serves the pending request. -/
def execAckInv (q : LmfReq) (agent : Nat) (s : State) : Result :=
  snoopServe q agent s fun rid ln l s =>
    if l.snoop ≠ 50 then s
    else
      let aw := l.awaited.filter (fun a => decide (a ≠ agent))
      let s := s.setLine rid ln { l with awaited := aw, sharers := l.sharers.filter (fun a => decide (a ≠ agent)) }
      if aw = [] then s.servePending rid ln else s

/-- RSP_FWD (R291): the owner has sent the data to the requester. -/
def execRspFwd (q : LmfReq) (agent : Nat) (dirty poison : Bool) (data : Bytes) (s : State) : Result :=
  snoopServe q agent s fun rid ln l s =>
    if l.snoop = 48 then
      match l.req with
      | .shared a r =>
        let s := s.lineReturn rid ln dirty poison data
        let s := s.setLine rid ln { l with st := .s, sharers := [agent], owner := 0, awaited := [], req := .none, snoop := 0, armed := 0, resvSince := s.now }
        let s := if dirty then s.touchRange true rid .pub (ln * 64) 64 else s
        ((s.grantLine rid ln a .s).served rid ln r.srcEid).lineStable rid ln
      | _ => s
    else if l.snoop = 49 then
      let grant (a : Nat) (r : LmfReq) (clean : Bool) : State :=
        let s := if poison then s.lineToxic rid ln else s
        let s := if clean then s.lineClean rid ln else s
        ((s.grantLine rid ln a .m).served rid ln r.srcEid).lineStable rid ln
      match l.req with
      | .own a r => grant a r false
      | .upgrade a r => grant a r false
      | .invOwn a r => grant a r true
      | _ => s
    else s

/-- RSP_FLUSH (R291): the owner has returned the line. -/
def execRspFlush (q : LmfReq) (agent : Nat) (dirty poison : Bool) (data : Bytes) (s : State) : Result :=
  snoopServe q agent s fun rid ln l s =>
    if l.snoop = 51 then ((s.lineReturn rid ln dirty poison data).setLine rid ln { l with awaited := [] }).servePending rid ln else s

/-- RSP_NOT_HELD (R289, R291): the owner had already dropped the line; the request is served once that message is here too. -/
def execRspNotHeld (q : LmfReq) (agent : Nat) (s : State) : Result :=
  snoopServe q agent s fun rid ln l s =>
    if l.snoop = 50 then s
    else
      let s := s.setLine rid ln { l with awaited := [] }
      if l.wbSeen then s.servePending rid ln else s

/-- Give every agent's answer to a recall its effect: with none left the region is served (R318). -/
def State.recallAnswered (s : State) (rid agent : Nat) : State :=
  match Tab.get? s.rope.recalls rid with
  | none => s
  | some as =>
    let left := as.filter (fun a => decide (a ≠ agent))
    if left = [] then
      ({ s with rope.recalls := Tab.erase s.rope.recalls rid, rope.recallDone := Tab.erase s.rope.recallDone rid }).release (fun w => decide (w = HoldWhy.recall rid))
    else { s with rope.recalls := Tab.set s.rope.recalls rid left }

/-- RECALL_DONE (R317, R318). -/
def execRecallDone (q : LmfReq) (agent : Nat) (s : State) : Result :=
  whenUp s fun s =>
    let q := s.sourced q
    match s.judge q.srcEid q.srcInc with
    | .fenced => .next (s.complete q .fenced [])
    | .current => if s.agentOk agent q then .next (s.recallAnswered (s.ridOf q.dstEid q.key) agent) else .next { s with rope.late := s.rope.late + 1 }
    | _ => .next { s with rope.late := s.rope.late + 1 }

/-- The bit of each agent in AGENTS (R722). -/
def agentMask (as : List Nat) : Nat := (as.map (fun a => 2 ^ a)).sum

/-- HOME_TIMEOUT (R306, R307, R316): a line's timer has run out in a transient state. -/
def execHomeTimeout (idx line : Nat) (s : State) : Result :=
  whenUp s fun s =>
    let l := s.lineD idx line
    let transient := match l.st with | .fwdWait => true | .invWait => true | .evictWait => true | _ => false
    if transient && decide (l.awaited ≠ [] ∨ l.wbSeen = false ∧ l.armed ≠ 0) && decide (l.armed + s.rope.timeoutUs * 1000 ≤ s.now) then
      let draining := match s.region? idx with | some r => r.draining | none => true
      if draining then .next (s.freeLine idx line).settle
      else
        let s1 := ((s.lineToxic idx line).freeLine idx line).event (dirUnit line) 4 1 none
        let s2 := (s1.poisonPending idx line l.req).lineStable idx line
        let s3 := s2.error
          { ErrorNote.of 3 .poison (anyUnit s.freeCtr) with key := s.keyOf idx, off := line * 64, agents := agentMask l.awaited }
        .next (l.awaited.foldl (fun s a =>
          s.error { ErrorNote.of 8 .poison (anyUnit s.freeCtr) with key := s.keyOf idx, off := line * 64, eid := s.agentEid a }) s3).settle
    else .next s

/-- RESERVATION_EXPIRY (R303): 60 µs have passed since the line became stable without the head's request. -/
def execReservationExpiry (idx line : Nat) (s : State) : Result :=
  whenUp s fun s =>
    match s.line? idx line with
    | none => .next s
    | some l =>
      let stable := match l.st with | .i => true | .s => true | .e => true | .m => true | _ => false
      if stable && decide (l.resv ≠ []) && decide (l.resvSince + 60000 ≤ s.now) then
        .next ((s.setLine idx line { l with resv := l.resv.tail, resvSince := s.now }).tidyLine idx line)
      else .next s

/-- FENCE_SWEEP (R313): the sweep reaches every line of the directory. -/
def execFenceSweep (s : State) : Result :=
  whenUp s fun s =>
    let t := s.rope.lines.foldl (fun (s : State) e => s.settleLine (e.1 / 18446744073709551616) (e.1 % 18446744073709551616)) s
    .next ({ t with rope.sweepLeft := 0 }).settle

/-- A transaction of this member was NACKed: it is sent again after a backoff drawn from [b, 2b] (R299, R300). -/
def State.backOff (s : State) (x : Txn) (draw : Nat) : State :=
  let n := x.retry + 1
  let b := min (100 * 2 ^ (n - 1)) 25600
  { s with lmf.backoffs := Tab.set s.lmf.backoffs s.nextId ({ x with retry := n }, s.now + b + draw % (b + 1)), nextId := s.nextId + 1 }

/-- NACK (R299, R300): a request of this member, sent under a TAG, was not performed; a backoff drawn from [b, 2b] starts. -/
def execNack (id draw : Nat) (s : State) : Result :=
  whenUp s fun s =>
    match Tab.get? s.lmf.tags id with
    | none => .next s
    | some t =>
      match t.live with
      | none => .next s
      | some x => .next (State.backOff { s with lmf.tags := Tab.set s.lmf.tags id { t with live := none } } x draw).tagFreed

/-- BACKOFF_EXPIRY (R299, R300): the member sends the request again, with RETRY = min(n, 15): to another member, or to itself. -/
def execBackoffExpiry (id : Nat) (s : State) : Result :=
  whenUp s fun s =>
    match Tab.get? s.lmf.backoffs id with
    | none =>
      match s.home.held.find? (fun h => decide (h.id = id)) with
      | some h => (match h.why with | .nacked _ _ t => if t ≤ s.now then .next (s.releaseOne h) else .next s | _ => .next s)
      | none => .next s
    | some (x, ready) =>
      if ready ≤ s.now then .next (State.issueTxn { s with lmf.backoffs := Tab.erase s.lmf.backoffs id } x) else .next s

end Sys2Proof.Machine
end

