-- ==== Sys2Proof/Machine/Flags.lean ====
section
/-! DEFINITION. Number formats, rounding and the sticky flags (R363 to R368): exact arithmetic on values ± m × 2^e, narrowed once. -/

namespace Sys2Proof.Machine

/-- The sticky flags of an operation (R365). -/
structure FFlags where
  nv : Bool
  of' : Bool
  uf : Bool
  nx : Bool
  dz : Bool
  deriving DecidableEq, Repr

/-- No flag. -/
def FFlags.none : FFlags := { nv := false, of' := false, uf := false, nx := false, dz := false }
/-- The invalid flag alone. -/
def FFlags.invalid : FFlags := { FFlags.none with nv := true }
/-- Both sets of flags. -/
def FFlags.or (a b : FFlags) : FFlags := { nv := a.nv || b.nv, of' := a.of' || b.of', uf := a.uf || b.uf, nx := a.nx || b.nx, dz := a.dz || b.dz }
/-- NV, OF, UF, NX and DZ in bits 4 to 0 (R376). -/
def FFlags.bits (a : FFlags) : BitVec 5 := BitVec.ofNat 5 (16 * b2n a.nv + 8 * b2n a.of' + 4 * b2n a.uf + 2 * b2n a.nx + b2n a.dz)

/-- A floating-point datum: a NaN (signaling or quiet), an infinity, or ± m × 2^e exactly. -/
inductive FVal where
  | nan (signaling : Bool)
  | inf (neg : Bool)
  | fin (neg : Bool) (m : Nat) (e : Int)
  deriving DecidableEq, Repr

/-- What the codes above the largest finite value mean: IEEE infinity and NaN, the one NaN code of E4M3, or nothing (MX
elements). -/
inductive FTop where
  | ieee | e4m3 | none
  deriving DecidableEq, Repr

/-- A floating-point format (R363): exponent bits, mantissa bits, bias, top codes. -/
structure FFmt where
  eb : Nat
  mb : Nat
  bias : Nat
  top : FTop
  deriving DecidableEq, Repr

/-- FP32. -/
def fp32 : FFmt := { eb := 8, mb := 23, bias := 127, top := .ieee }
/-- BF16. -/
def bf16 : FFmt := { eb := 8, mb := 7, bias := 127, top := .ieee }
/-- FP8 E4M3. -/
def e4m3 : FFmt := { eb := 4, mb := 3, bias := 7, top := .e4m3 }
/-- FP8 E5M2. -/
def e5m2 : FFmt := { eb := 5, mb := 2, bias := 15, top := .ieee }
/-- MXFP4 elements. -/
def e2m1 : FFmt := { eb := 2, mb := 1, bias := 1, top := .none }
/-- MXFP6 E2M3 elements. -/
def e2m3 : FFmt := { eb := 2, mb := 3, bias := 1, top := .none }
/-- MXFP6 E3M2 elements. -/
def e3m2 : FFmt := { eb := 3, mb := 2, bias := 3, top := .none }

/-- The width of a format in bits. -/
def FFmt.width (f : FFmt) : Nat := 1 + f.eb + f.mb

/-- The largest finite magnitude code. -/
def FFmt.maxCode (f : FFmt) : Nat :=
  match f.top with
  | .ieee => (2 ^ f.eb - 1) * 2 ^ f.mb - 1
  | .e4m3 => 2 ^ (f.eb + f.mb) - 2
  | .none => 2 ^ (f.eb + f.mb) - 1

/-- The exponent of one unit of the last place of a subnormal. -/
def FFmt.emin (f : FFmt) : Int := 1 - (f.bias : Int) - (f.mb : Int)

/-- The value a finite magnitude code stands for. -/
def FFmt.magnitude (f : FFmt) (neg : Bool) (code : Nat) : FVal :=
  let x := code / 2 ^ f.mb
  let m := code % 2 ^ f.mb
  if x = 0 then .fin neg m f.emin else .fin neg (2 ^ f.mb + m) (f.emin + (x : Int) - 1)

/-- Decode the bits of a format (R363). -/
def FFmt.decode (f : FFmt) (bits : Nat) : FVal :=
  let neg := bits.testBit (f.eb + f.mb)
  let code := bits % 2 ^ (f.eb + f.mb)
  if code ≤ f.maxCode then f.magnitude neg code
  else match f.top with
    | .ieee => if code = f.maxCode + 1 then .inf neg else .nan (!(code.testBit (f.mb - 1)))
    | _ => .nan false

/-- The default NaN of a format (R365). -/
def FFmt.nanBits (f : FFmt) : Nat :=
  match f.top with
  | .ieee => f.maxCode + 1 + 2 ^ (f.mb - 1)
  | _ => f.maxCode + 1

/-- The sign bit of a format. -/
def FFmt.sign (f : FFmt) (neg : Bool) : Nat := if neg then 2 ^ (f.eb + f.mb) else 0

/-- Rounding of SR_FRM (R366): to nearest with ties to even, or toward zero. -/
inductive Rnd where
  | rne | rtz
  deriving DecidableEq, Repr

/-- The floor of the base-2 logarithm of num ÷ den, for positive numbers. -/
def ratLog2 (num den : Nat) : Int :=
  let a : Int := (Nat.log2 num : Int) - (Nat.log2 den : Int)
  let fits : Bool := if 0 ≤ a then decide (den * 2 ^ a.toNat ≤ num) else decide (den ≤ num * 2 ^ (-a).toNat)
  if fits then a else a - 1

/-- num ÷ den × 2^k as a fraction of naturals. -/
def scaled (num den : Nat) (k : Int) : Nat × Nat := if 0 ≤ k then (num * 2 ^ k.toNat, den) else (num, den * 2 ^ (-k).toNat)

/-- Round ± num ÷ den × 2^e once to a format (R366): the bits and the flags. A zero keeps its sign. -/
def FFmt.roundRat (f : FFmt) (r : Rnd) (neg : Bool) (num den : Nat) (e : Int) : Nat × FFlags :=
  if num = 0 ∨ den = 0 then (f.sign neg, FFlags.none)
  else
    let l := ratLog2 num den + e
    let u := max (l - (f.mb : Int)) f.emin
    let (n, d) := scaled num den (e - u)
    let q := n / d
    let rem := n % d
    let up : Bool := match r with | .rtz => false | .rne => decide (d < 2 * rem) || (decide (2 * rem = d) && decide (q % 2 = 1))
    let code := (u - f.emin).toNat * 2 ^ f.mb + q + b2n up
    let inexact := decide (rem ≠ 0)
    let tinyBefore := decide (l < f.emin + (f.mb : Int))
    let tinyAfter := decide (code < 2 ^ f.mb)
    let tiny := tinyAfter || (tinyBefore && Config.underflowBefore)
    if code ≤ f.maxCode then
      (f.sign neg + code, { FFlags.none with nx := inexact, uf := inexact && tiny })
    else
      let ofl : FFlags := { FFlags.none with of' := true, nx := true }
      match f.top, r with
      | .ieee, .rne => (f.sign neg + f.maxCode + 1, ofl)
      | _, _ => (f.sign neg + f.maxCode, ofl)

/-- Narrow a datum to a format: a NaN becomes the default NaN; for E4M3 an infinity or a NaN gives its NaN code (R366). The
sign of a NaN is that of the operand, where there is one. -/
def FFmt.round (f : FFmt) (r : Rnd) (v : FVal) : Nat × FFlags :=
  match v with
  | .nan sig => (f.nanBits, { FFlags.none with nv := sig })
  | .inf neg =>
    match f.top with
    | .ieee => (f.sign neg + f.maxCode + 1, FFlags.none)
    | .e4m3 => (f.sign neg + f.nanBits, FFlags.none)
    | .none => (f.sign neg + f.maxCode, FFlags.none)
  | .fin neg m e => f.roundRat r neg m 1 e

/-! ### Exact operations -/

/-- The sign of a datum. -/
def FVal.neg? : FVal → Bool
  | .nan _ => false
  | .inf n => n
  | .fin n _ _ => n

/-- Is it a NaN? -/
def FVal.isNan : FVal → Bool
  | .nan _ => true
  | _ => false

/-- Is it a signaling NaN? -/
def FVal.isSnan : FVal → Bool
  | .nan s => s
  | _ => false

/-- The signed numerator at an exponent. -/
def FVal.int (neg : Bool) (m : Nat) : Int := if neg then -(m : Int) else (m : Int)

/-- Exact sum; a zero sum of opposite signs is +0 under both roundings. -/
def FVal.add (a b : FVal) : FVal × FFlags :=
  match a, b with
  | .nan s, .nan t => (.nan false, { FFlags.none with nv := s || t })
  | .nan s, _ => (.nan false, { FFlags.none with nv := s })
  | _, .nan t => (.nan false, { FFlags.none with nv := t })
  | .inf x, .inf y => if x = y then (.inf x, FFlags.none) else (.nan false, FFlags.invalid)
  | .inf x, _ => (.inf x, FFlags.none)
  | _, .inf y => (.inf y, FFlags.none)
  | .fin n m e, .fin k p g =>
    let u := min e g
    let v := FVal.int n (m * 2 ^ (e - u).toNat) + FVal.int k (p * 2 ^ (g - u).toNat)
    (.fin (if v = 0 then n && k else decide (v < 0)) v.natAbs u, FFlags.none)

/-- Change the sign. -/
def FVal.flip : FVal → FVal
  | .nan s => .nan s
  | .inf n => .inf (!n)
  | .fin n m e => .fin (!n) m e

/-- Exact product. -/
def FVal.mul (a b : FVal) : FVal × FFlags :=
  match a, b with
  | .nan s, .nan t => (.nan false, { FFlags.none with nv := s || t })
  | .nan s, _ => (.nan false, { FFlags.none with nv := s })
  | _, .nan t => (.nan false, { FFlags.none with nv := t })
  | .inf x, .inf y => (.inf (x != y), FFlags.none)
  | .inf x, .fin k p _ => if p = 0 then (.nan false, FFlags.invalid) else (.inf (x != k), FFlags.none)
  | .fin n m _, .inf y => if m = 0 then (.nan false, FFlags.invalid) else (.inf (n != y), FFlags.none)
  | .fin n m e, .fin k p g => (.fin (n != k) (m * p) (e + g), FFlags.none)

/-- Exact a × b + c. -/
def FVal.fma (a b c : FVal) : FVal × FFlags :=
  let (p, f) := a.mul b
  if c.isNan && !a.isNan && !b.isNan then (.nan false, { FFlags.none with nv := c.isSnan || (f.nv && Config.fmaInvalid) })
  else
    let (s, g) := p.add c
    (s, f.or { g with nv := g.nv || c.isSnan })

/-- Order of two data that are not NaN: −1, 0 or 1; −0 equals +0. -/
def FVal.order (a b : FVal) : Int :=
  match a, b with
  | .inf x, .inf y => if x = y then 0 else if x then -1 else 1
  | .inf x, _ => if x then -1 else 1
  | _, .inf y => if y then 1 else -1
  | .fin n m e, .fin k p g =>
    let u := min e g
    let v := FVal.int n (m * 2 ^ (e - u).toNat) - FVal.int k (p * 2 ^ (g - u).toNat)
    if v = 0 then 0 else if v < 0 then -1 else 1
  | _, _ => 0

/-- IEEE 754-2019 minimum: a NaN gives NaN and −0 is less than +0 (R263). -/
def FVal.minimum (a b : FVal) : FVal × FFlags :=
  if a.isNan || b.isNan then (.nan false, { FFlags.none with nv := a.isSnan || b.isSnan })
  else
    let o := a.order b
    if o < 0 then (a, FFlags.none) else if 0 < o then (b, FFlags.none) else if a.neg? then (a, FFlags.none) else (b, FFlags.none)

/-- IEEE 754-2019 maximum. -/
def FVal.maximum (a b : FVal) : FVal × FFlags :=
  if a.isNan || b.isNan then (.nan false, { FFlags.none with nv := a.isSnan || b.isSnan })
  else
    let o := a.order b
    if o < 0 then (b, FFlags.none) else if 0 < o then (a, FFlags.none) else if a.neg? then (b, FFlags.none) else (a, FFlags.none)

/-- Round an exact result and join the flags. -/
def FFmt.finish (f : FFmt) (r : Rnd) (x : FVal × FFlags) : Nat × FFlags :=
  let (b, g) := f.round r x.1
  (b, g.or x.2)

/-- An operation within 1 unit in the last place (R401): one of the two neighbours of ± (the value between `lo` and `lo + 1`
units of 2^u), or the value itself where it is one. -/
def FFmt.faithful (f : FFmt) (neg : Bool) (lo : Nat) (u : Int) (exact : Bool) (op : Nat) (x : BitVec 32) : Nat × FFlags :=
  if exact then f.roundRat .rne neg lo 1 u
  else
    let q := lo + b2n (Config.faithfulUp op x)
    let (b, g) := f.roundRat .rne neg q 1 u
    (b, { g with nx := true })

/-- 1 ÷ x in FP32 (R401). -/
def rcp32 (x : BitVec 32) : Nat × FFlags :=
  match fp32.decode x.toNat with
  | .nan s => (fp32.nanBits, { FFlags.none with nv := s })
  | .inf n => (fp32.sign n, FFlags.none)
  | .fin n m e =>
    if m = 0 then (fp32.sign n + fp32.maxCode + 1, { FFlags.none with dz := true })
    else
      let l := ratLog2 1 m - e
      let u := max (l - 23) fp32.emin
      let (a, d) := scaled 1 m (-e - u)
      fp32.faithful n (a / d) u (decide (a % d = 0)) 0x115 x

/-- 1 ÷ √x in FP32 (R401). -/
def rsqrt32 (x : BitVec 32) : Nat × FFlags :=
  match fp32.decode x.toNat with
  | .nan s => (fp32.nanBits, { FFlags.none with nv := s })
  | .inf n => if n then (fp32.nanBits, FFlags.invalid) else (0, FFlags.none)
  | .fin n m e =>
    if m = 0 then (fp32.sign n + fp32.maxCode + 1, { FFlags.none with dz := true })
    else if n then (fp32.nanBits, FFlags.invalid)
    else
      let l : Int := (ratLog2 1 m - e) / 2
      let u := max (l - 23) fp32.emin
      let (a, d) := scaled 1 m (-e - 2 * u)
      let q := Nat.sqrt (a / d)
      fp32.faithful false q u (decide (q * q * d = a)) 0x116 x

/-- 2^x in FP32 (R401): exact for an integer operand. -/
def exp2of (x : BitVec 32) : Nat × FFlags :=
  match fp32.decode x.toNat with
  | .nan s => (fp32.nanBits, { FFlags.none with nv := s })
  | .inf n => (if n then 0 else fp32.maxCode + 1, FFlags.none)
  | .fin n m e =>
    let (a, d) := scaled m 1 e
    if 512 * d ≤ a then (if n then fp32.roundRat .rne false 1 1 (-512) else fp32.roundRat .rne false 1 1 512)
    else if a % d = 0 then
      let k : Int := FVal.int n (a / d)
      fp32.roundRat .rne false 1 1 k
    else ((Config.exp2 x).toNat, { FFlags.none with nx := true, uf := n && decide (126 * d < a), of' := !n && decide (128 * d ≤ a) })

/-! ### Element types -/

/-- The width of an element type in bytes, for types of whole bytes (R363). -/
def elemBytes (t : Nat) : Nat :=
  match t with
  | 0 => 1 | 1 => 2 | 2 => 4 | 3 => 8 | 4 => 1 | 5 => 2 | 6 => 4 | 7 => 8 | 8 => 4 | 9 => 2 | 10 => 1 | 11 => 1 | _ => 1

/-- The floating-point format of a type code. -/
def fmtOf (t : Nat) : Option FFmt :=
  match t with
  | 8 => some fp32 | 9 => some bf16 | 10 => some e4m3 | 11 => some e5m2 | 12 => some e2m1 | 13 => some e2m3 | 14 => some e3m2 | _ => none

/-- Is the type an MX type? -/
def isMx (t : Nat) : Bool := decide (12 ≤ t ∧ t ≤ 14)

/-- Is the type an integer type? -/
def isInt (t : Nat) : Bool := decide (t < 8)

/-- Is an integer type signed? -/
def isSigned (t : Nat) : Bool := decide (4 ≤ t ∧ t < 8)

/-- The integer an element holds. -/
def elemInt (t bits : Nat) : Int :=
  let w := 8 * elemBytes t
  if isSigned t then (BitVec.ofNat w bits).toInt else ((bits % 2 ^ w : Nat) : Int)

/-- The least value of an integer type. -/
def intMin (t : Nat) : Int := if isSigned t then -(2 ^ (8 * elemBytes t - 1) : Int) else 0

/-- The greatest value of an integer type. -/
def intMax (t : Nat) : Int := if isSigned t then 2 ^ (8 * elemBytes t - 1) - 1 else 2 ^ (8 * elemBytes t) - 1

/-- The bits of an integer, wrapped to a type's width. -/
def intBits (t : Nat) (v : Int) : Nat := (BitVec.ofInt (8 * elemBytes t) v).toNat

/-- Convert a datum to an integer type (R366): rounded, then saturated; a NaN gives 0 and sets NV. -/
def toIntType (t : Nat) (r : Rnd) (v : FVal) : Nat × FFlags :=
  match v with
  | .nan _ => (0, FFlags.invalid)
  | .inf n => (intBits t (if n then intMin t else intMax t), FFlags.invalid)
  | .fin n m e =>
    let (a, d) := scaled m 1 e
    let q := a / d
    let rem := a % d
    let up : Bool := match r with | .rtz => false | .rne => decide (d < 2 * rem) || (decide (2 * rem = d) && decide (q % 2 = 1))
    let k := FVal.int n (q + b2n up)
    if k < intMin t then (intBits t (intMin t), FFlags.invalid)
    else if intMax t < k then (intBits t (intMax t), FFlags.invalid)
    else (intBits t k, { FFlags.none with nx := decide (rem ≠ 0) })

/-- The datum an element holds: an integer exactly, or a float. -/
def elemVal (t bits : Nat) : FVal :=
  match fmtOf t with
  | some f => f.decode bits
  | none => let k := elemInt t bits; .fin (decide (k < 0)) k.natAbs 0

/-- The sign bit of a NaN operand, which E4M3 keeps (R366). -/
def nanSign (t t2 bits : Nat) : Nat :=
  match fmtOf t, t2 with
  | some f, 10 => if (f.decode bits).isNan && bits.testBit (f.eb + f.mb) then 0x80 else 0
  | _, _ => 0

/-- Convert one element between types of whole bytes (R366). -/
def convElem (t t2 : Nat) (r : Rnd) (bits : Nat) : Nat × FFlags :=
  match fmtOf t2 with
  | some f => let (b, g) := f.round r (elemVal t bits); (b + nanSign t t2 bits, g)
  | none => toIntType t2 r (elemVal t bits)

/-- The scale of an MX block (R368) for the elements of a block, and its element bits. -/
def mxBlock (f : FFmt) (vs : List FVal) : Nat × List Nat × FFlags :=
  if vs.any FVal.isNan then (255, vs.map (fun _ => 0), { FFlags.none with nv := vs.any FVal.isSnan })
  else
    let emax : Int := if f.eb = 3 then 4 else 2
    let logs : List Int := vs.filterMap (fun v => match v with | .fin _ m e => if m = 0 then none else some ((Nat.log2 m : Int) + e) | .inf _ => some 1000 | .nan _ => none)
    match logs with
    | [] => (0, vs.map (fun v => f.sign v.neg?), FFlags.none)
    | l :: ls =>
      let top := ls.foldl max l
      let x := max (-127) (min 127 (top - emax))
      let es := vs.map (fun v => match v with
        | .fin n m e => f.roundRat .rne n m 1 (e - x)
        | .inf n => (f.sign n + f.maxCode, FFlags.none)
        | .nan _ => (0, FFlags.none))
      ((x + 127).toNat, es.map Prod.fst, es.foldl (fun g e => g.or e.2) FFlags.none)

/-- The value of an MX element under a scale byte (R363). -/
def mxVal (f : FFmt) (scale bits : Nat) : FVal :=
  if scale = 255 then .nan false
  else match f.decode bits with
    | .fin n m e => .fin n m (e + (scale : Int) - 127)
    | v => v

/-- Groups of `n` of a list. -/
def chunksOf {α : Type} (n : Nat) : Nat → List α → List (List α)
  | 0, _ => []
  | k + 1, xs => if xs.isEmpty then [] else xs.take n :: chunksOf n k (xs.drop n)

/-- Bits of elements packed from the low end up. -/
def packBits (w : Nat) : List Nat → Nat
  | [] => 0
  | b :: bs => b % 2 ^ w + 2 ^ w * packBits w bs

/-- A row converted to an MX type (R358, R368): the packed elements, then one scale byte for each 32. -/
def mxRow (f : FFmt) (vs : List FVal) : Bytes × FFlags :=
  let bs := (chunksOf 32 vs.length vs).map (mxBlock f)
  let codes := bs.flatMap (fun b => b.2.1)
  (natLE ((vs.length * f.width + 7) / 8) (packBits f.width codes) ++ bs.map (fun b => BitVec.ofNat 8 b.1), bs.foldl (fun g b => g.or b.2.2) FFlags.none)

/-- The values of a row of `n` elements of an MX type. -/
def mxVals (f : FFmt) (n : Nat) (row : Bytes) : List FVal :=
  let body := (n * f.width + 7) / 8
  let packed := leNat (row.take body)
  (upto n).map (fun i => mxVal f ((row.getD (body + i / 32) 0).toNat) (packed / 2 ^ (f.width * i) % 2 ^ f.width))

/-- The row length of a tile in bytes (R358). -/
def rowBytes (t cols : Nat) : Nat :=
  if isMx t then (cols * (match fmtOf t with | some f => f.width | none => 8) + 7) / 8 + cols / 32 else cols * elemBytes t

/-- The values of a row of `n` elements of a type, as tiles and matrices store rows (R358, R432). -/
def tileVals (t n : Nat) (row : Bytes) : List FVal :=
  match isMx t, fmtOf t with
  | true, some f => mxVals f n row
  | _, _ => (chunksOf (elemBytes t) n row).map (fun e => elemVal t (leNat e))

/-- Values of FP32 bits converted to a type: what a tile row of that type then holds (R366, R368). -/
def tileConv (t : Nat) (xs : List Nat) : List FVal :=
  match isMx t, fmtOf t with
  | true, some f => mxVals f xs.length (mxRow f (xs.map (elemVal 8))).1
  | _, _ => xs.map (fun x => elemVal t (convElem 8 t .rne x).1)

/-! ### Atomics -/

/-- The old value of a target and what an atomic leaves there (R239, R241), on numbers of `w` bytes. -/
def atomicResult (op w m a b : Nat) : Nat :=
  let n := 8 * w
  let sm := (BitVec.ofNat n m).toInt
  let sa := (BitVec.ofNat n a).toInt
  match op with
  | 2 => a % 2 ^ n
  | 3 => if m = a % 2 ^ n then b % 2 ^ n else m
  | 4 => (m + a) % 2 ^ n
  | 5 => (fp32.finish .rne ((fp32.decode m).add (fp32.decode (a % 2 ^ n)))).1
  | 6 => if sm ≤ sa then m else a % 2 ^ n
  | 7 => if sm ≤ sa then a % 2 ^ n else m
  | 8 => min m (a % 2 ^ n)
  | 9 => max m (a % 2 ^ n)
  | 10 => m &&& (a % 2 ^ n)
  | 11 => m ||| (a % 2 ^ n)
  | 12 => m ^^^ (a % 2 ^ n)
  | _ => m

/-- Is a width listed for an opcode, and the target aligned (R239, R240)? -/
def atomicOk (op w off : Nat) : Bool :=
  (match op with
   | 1 => decide (w = 4 ∨ w = 8 ∨ w = 16)
   | 2 => decide (w = 4 ∨ w = 8 ∨ w = 16)
   | 3 => decide (w = 4 ∨ w = 8 ∨ w = 16)
   | 5 => decide (w = 4)
   | 4 => decide (w = 4 ∨ w = 8)
   | 6 => decide (w = 4 ∨ w = 8)
   | 7 => decide (w = 4 ∨ w = 8)
   | 8 => decide (w = 4 ∨ w = 8)
   | 9 => decide (w = 4 ∨ w = 8)
   | 10 => decide (w = 4 ∨ w = 8)
   | 11 => decide (w = 4 ∨ w = 8)
   | 12 => decide (w = 4 ∨ w = 8)
   | _ => false) && decide (off % w = 0)

/-- The bytes an atomic leaves in a copy, from that copy's own bytes (R223). -/
def atomicBytes (op w a b : Nat) (old : Bytes) : Bytes := natLE w (atomicResult op w (leNat old) a b)

end Sys2Proof.Machine
end

