-- ==== Sys2Proof/Machine/Publish.lean ====
section
/-! DEFINITION. Publish consistency (05): PUBLISH and its switch, DISCARD, versions, pins and READ_AT, remote write counters and the waits on them. -/

namespace Sys2Proof.Machine

/-- The home EID a request of the catalogue is addressed to. -/
def State.reqHome (s : State) (r : BciReq) : Nat := match srcReq r.src with | some q => q.dstEid | none => s.lmf.eid

/-- R62 for a command that names a region, then the lease of its mirror partner (R740): the command runs, is answered, or is
held. -/
def State.onRegion (s : State) (cmd : Instr) (r : BciReq) (i : Issuer) (key off n : Nat) (need : Rights) (fail : State → Status → State)
    (body : Nat → Region → State → Result) : Result :=
  match s.permit (s.reqHome r) key off n need i with
  | none => .next (fail s .key)
  | some (rid, rg) =>
    match s.gate rid rg with
    | some why => .next (s.holdBci cmd r i why (s.bciHoldEnd r))
    | none => body rid rg s

/-- An answer without words. -/
def State.refuse (r : BciReq) (s : State) (st : Status) : State := s.respond r st []

/-- The log of the issuer of a request. -/
def State.issuerLog (s : State) (r : BciReq) (i : Issuer) : Nat := s.logKey (s.reqHome r) i.eid i.ctx

/-- Complete a logged request on the region its first word names: the entry is written in the same step (R249), and at the
mirror partner before the completion (R255). -/
def State.respondLog (s : State) (r : BciReq) (i : Issuer) (lseq : Nat) (st : Status) (resp : List Word) (value : Nat) : State :=
  let s := s.logDone (s.issuerLog r i) lseq st value
  match s.live (s.reqHome r) (r.w 1) with
  | some (rid, _) => s.answerAfter rid 0 [] (some (s.noteOf i.eid i.ctx lseq st value)) st (.bci r resp)
  | none => s.respond r st resp

/-- A request whose LSEQ stands in the log is not performed again (R250); one behind a tombstone completes with ST_STATE (R252). -/
def State.once (s : State) (r : BciReq) (i : Issuer) (lseq n : Nat) (body : State → Result) : Result :=
  match s.logFind (s.issuerLog r i) lseq with
  | some e => if e.tomb then .next (s.respond r .state []) else .next (s.respond r e.st (loggedWords e.st e.resp n))
  | none => body s

/-- Whole pages of a publish-mode region (R203, R204): alignment first, then R62, then the mode. -/
def State.onPages (s : State) (cmd : Instr) (r : BciReq) (i : Issuer) (need : Rights) (fail : State → Status → State)
    (body : Nat → Region → State → Result) : Result :=
  if r.d 2 % 65536 ≠ 0 ∨ r.d 4 % 65536 ≠ 0 then .next (fail s .notSupported)
  else s.onRegion cmd r i (r.w 1) (r.d 2) (r.d 4) need fail fun rid rg s =>
    if rg.mode = .publish then body rid rg s else .next (fail s .notSupported)

/-- Put a publish into the order of arrival (R199). -/
def insertPub (p : PubCmd) : List PubCmd → List PubCmd
  | [] => [p]
  | x :: t => if p.id < x.id then p :: x :: t else x :: insertPub p t

/-- Accept a PUBLISH or PUBLISH_IF: checked, and placed in the order of the region's publishes (R199 to R206, R248 to R252). -/
def publishAccept (cmd : Instr) (r : BciReq) (expected : Option Nat) (i : Issuer) (s : State) : Result :=
  let lseq := r.w 6
  let fail (s : State) (st : Status) : State := s.respondLog r i lseq st [] 0
  s.once r i lseq 2 fun s =>
    s.onPages cmd r i needP fail fun rid rg s =>
      if rg.version = 18446744073709551615 then .next (fail s .quota)
      else
        let s := s.lateNotice cmd r i
        if s.lateAbort r then .next (fail s .deadline)
        else
          let id := s.arrivalNo
          let p : PubCmd :=
            { id := id, r := r, eid := i.eid, ctx := i.ctx, rid := rid, off := r.d 2, len := r.d 4, lseq := lseq, expected := expected,
              mirrorSent := false, mirrorDone := false }
          .next (({ s with nextId := s.nextId + 1, home.pubs := insertPub p s.home.pubs } : State).dueBci cmd r i id)

/-- PUBLISH's row of the catalogue. -/
def rowPublish : BciRow := { BciRow.f 64 6 with dl := true, resv := fun r => offResv r 2 }

/-- PUBLISH (R199, R200, R203 to R206, R208). -/
def execPublish (r : BciReq) (s : State) : Result :=
  bciServe .publish rowPublish r s fun r i s => publishAccept (.publish r) r none i s

/-- PUBLISH_IF (R210). -/
def execPublishIf (r : BciReq) (s : State) : Result :=
  bciServe .publishIf { BciRow.f 65 8 with minor := some 0, dl := true, v3 := true, resv := fun r => offResv r 2 } r s fun r i s =>
    publishAccept (.publishIf r) r (some (r.d 7)) i s

/-- What the switch of a publish meets: a lost shadow page (R194), a fault entry, or a shadow page poisoned pending recovery
(R872). -/
def State.meetPublish (s : State) (p : PubCmd) (rg : Region) : Met :=
  Met.first ((pagesOf p.off p.len).map (fun n =>
    if s.lostHere p.rid n { eid := p.eid, ctx := p.ctx, admin := false } then Met.stop .poison
    else if rg.entry n = .fault then .fault 1 n
    else match s.viewRef rg n (.own { eid := p.eid, ctx := p.ctx, admin := false }) with
      | some (.shadow h e c) => (match s.page? (.shadow h e c) with | some pg => if pg.recovering then .recovering (.shadow h e c) else .clear | none => .clear)
      | _ => .clear))

/-- The pages of a range with the shadow page of an issuer: page number and handle. -/
def State.shadowPages (s : State) (rg : Region) (off n eid ctx : Nat) : List (Nat × Nat) :=
  (pagesOf off n).filterMap (fun p =>
    match rg.handleOf p with
    | some h => (match s.handle? h with | some hd => if (hd.shadowOf eid ctx).isSome then some (p, h) else none | none => none)
    | none => none)

/-- The bytes of an issuer's shadow page on a handle. -/
def State.shadowBytes (s : State) (h eid ctx : Nat) : Mem := match s.page? (.shadow h eid ctx) with | some pg => pg.bytes | none => []

/-- Send pages a publish will switch to the mirror partner (R38, N3); each is staged there as the publisher's. -/
def State.sendPages (s : State) (p : PubCmd) (rg : Region) (ps : List (Nat × Nat)) : State :=
  let w : MirrorWait := { id := s.nextId, partner := rg.mirror, rid := p.rid, after := [], bci := none, st := .ok, resp := [], pubId := some p.id, op := none, work := none }
  let now := ps.map (fun e => (e.1, s.shadowBytes e.2 p.eid p.ctx))
  let s :=
    { s with
      nextId := s.nextId + 1
      home.mirrors := s.home.mirrors ++ [w]
      home.pubs := s.home.pubs.map (fun (x : PubCmd) => if x.id = p.id then
        { x with mirrorSent := true, mirrorDone := false, sent := now ++ x.sent.filter (fun e => !ps.any (fun q => decide (q.1 = e.1))) } else x) }
  ps.foldl (fun s e =>
    (s.emit (.journal rg.mirror (s.keyOf p.rid) (.shadow e.1 p.eid p.ctx))).emit
      (.mirror rg.mirror w.id (s.keyOf p.rid) (e.1 * 65536) (Mem.readN (s.shadowBytes e.2 p.eid p.ctx) 0 65536) none)) s

/-- The pages of a publish that the mirror partner does not hold as they are now: never sent, or written since (R38, R202). -/
def State.unsent (s : State) (p : PubCmd) (ps : List (Nat × Nat)) : List (Nat × Nat) :=
  ps.filter (fun e => decide (¬ (e.1, s.shadowBytes e.2 p.eid p.ctx) ∈ p.sent))

/-- Does an earlier PUBLISH on the region, or an earlier DISCARD of the caller over one of its pages, still wait to be placed (R199, R209)? -/
def State.behindEarlier (s : State) (p : PubCmd) : Bool :=
  let laps (off n : Nat) : Bool := (pagesOf p.off p.len).any (fun x => decide (x ∈ pagesOf off n))
  let waits (c : Instr) (id eid ctx : Nat) : Bool :=
    decide (id ≠ 0) && decide (id < p.id) && (match c with
      | .publish r => decide (s.ridOf (s.homeOf c) (r.w 1) = p.rid)
      | .publishIf r => decide (s.ridOf (s.homeOf c) (r.w 1) = p.rid)
      | .discard r => decide (s.ridOf (s.homeOf c) (r.w 1) = p.rid) && decide (eid = p.eid) && decide (ctx = p.ctx) && laps (r.d 2) (r.d 4)
      | _ => false)
  s.home.held.any (fun h => waits h.cmd h.id h.eid h.ctx) || s.resume.any (fun a => waits a.cmd a.id a.eid a.ctx)

/-- PUBLISH_SWITCH (R196 to R199, R201, R202, R209 to R211, R38): the turn of a publish has come. A conditional one compares
first; the pages go to the mirror partner before the switch, again where they were written since, and the version and the log entry after it. Without
the partner's lease, or during a recall, the publish is held (R740, R318, R872). -/
def execPublishSwitch (id : Nat) (s : State) : Result :=
  whenUp s fun s =>
    match s.pub? id with
    | none => .next s
    | some p =>
      let turn := decide ((s.home.pubs.find? (fun x => decide (x.rid = p.rid))).map PubCmd.id = some id)
      let held := s.home.held.any (fun h => decide (h.cmd = Instr.publishSwitch id))
      if !turn || held || s.behindEarlier p then .next s
      else match s.region? p.rid with
        | none => .next (s.endPub p .key [] 0)
        | some rg =>
          let late : Bool := match srcReq p.r.src with | some q => decide (q.limit ≠ 0 ∧ q.limit ≤ s.now + 10000) | none => false
          if rg.version = 18446744073709551615 then .next (s.endPub p .quota [] 0)
          else if late then .next (s.endPub p .paused [] 0)
          else match s.gate p.rid rg with
          | some why => .next (s.holdCmd (.publishSwitch id) why (s.bciHoldEnd p.r) p.eid p.ctx)
          | none =>
            let i : Issuer := { eid := p.eid, ctx := p.ctx, admin := false }
            match s.meetPublish p rg with
            | .clear =>
              let now := s.rangeVersion rg p.off p.len
              let ps := s.shadowPages rg p.off p.len p.eid p.ctx
              if p.expected.isSome ∧ p.expected ≠ some now then .next (s.endPub p .versionConflict (two now) now)
              else if rg.mirror ≠ 0 ∧ p.mirrorSent = true ∧ p.mirrorDone = false then .next s
              else if rg.mirror ≠ 0 ∧ s.unsent p ps ≠ [] then .next (s.sendPages p rg (s.unsent p ps))
              else
                let v := rg.version + 1
                let s := s.setRegion p.rid { rg with version := v }
                let s := ps.foldl (fun s e => s.switchPage e.2 p.eid p.ctx v) s
                let s := if rg.mirror = 0 then s else s.emit (.journal rg.mirror (s.keyOf p.rid) (.version v (ps.map Prod.fst)))
                .next (s.endPub p .ok (two v) v)
            | m =>
              match s.holdOn { cmd := .publishSwitch id, i := i, access := 5, runTime := true, hw := 511, limit := s.bciHoldEnd p.r, needRoom := true } p.rid p.off m with
              | (s, some st) => .next (s.endPub p st [] 0)
              | (s, none) => .next s

/-- Free an issuer's shadow pages of a range, with the lost marks of R194; a mirrored home tells its partner. -/
def State.discardPages (s : State) (rid : Nat) (rg : Region) (off n eid ctx : Nat) : State :=
  let ps := s.shadowPages rg off n eid ctx
  let s := ps.foldl (fun s e =>
    let s := s.dropShadow e.2 eid ctx
    if rg.mirror = 0 then s else s.emit (.journal rg.mirror (s.keyOf rid) (.shadowEnd e.1 eid ctx))) s
  { s with home.lost := s.home.lost.filter (fun e => !(decide (e.1 = rid) && decide (e.2.1 ∈ pagesOf off n) && decide (e.2.2 = (eid, ctx)))) }

/-- DISCARD (R203, R204, R209): behind an earlier publish of the caller over one of its pages it waits. -/
def execDiscard (r : BciReq) (s : State) : Result :=
  bciServe .discard { BciRow.f 66 5 with resv := fun r => offResv r 2 } r s fun r i s =>
    s.onPages (.discard r) r i needW (State.refuse r) fun rid rg s =>
      match s.home.pubs.find? (fun p => decide (p.rid = rid ∧ p.eid = i.eid ∧ p.ctx = i.ctx) && decide (p.id < s.arrivalNo) &&
          (pagesOf p.off p.len).any (fun n => decide (n ∈ pagesOf (r.d 2) (r.d 4)))) with
      | some p => .next (s.holdCmd (.discard r) (.publish p.id) (match srcReq r.src with | some q => s.limitOf q - 10000 | none => 0) i.eid i.ctx)
      | none =>
        let n := (s.shadowPages rg (r.d 2) (r.d 4) i.eid i.ctx).length
        .next ((s.discardPages rid rg (r.d 2) (r.d 4) i.eid i.ctx).respond r .ok (one n))

/-- VERSION_QUERY (R198, R204, R212). -/
def execVersionQuery (r : BciReq) (s : State) : Result :=
  bciServe .versionQuery { BciRow.f 67 5 with resv := fun r => offResv r 2 } r s fun r i s =>
    s.onRegion (.versionQuery r) r i (r.w 1) (r.d 2) (r.d 4) needR (State.refuse r) fun _ rg s =>
      .next (s.respond r .ok (two rg.version ++ two (s.rangeVersion rg (r.d 2) (r.d 4))))

/-- VERSION_PIN (R203, R204, R216, R221, N4). -/
def execVersionPin (r : BciReq) (s : State) : Result :=
  bciServe .versionPin { BciRow.f 68 5 with minor := some 1, v3 := true, resv := fun r => offResv r 2 } r s fun r i s =>
    s.onPages (.versionPin r) r i needR (State.refuse r) fun rid rg s =>
      let ps := pagesOf (r.d 2) (r.d 4)
      let mine := (s.home.pins.filter (fun e => decide (e.2.eid = i.eid ∧ e.2.ctx = i.ctx ∧ e.2.ended = false))).length
      if 64 ≤ mine ∨ 16384 ≤ (s.home.pins.filter (fun e => !e.2.ended)).length then .next (s.respond r .quota [])
      else if rg.policy.place = .t0Only ∧ r121Limit < s.r121 + ps.length then .next (s.respond r .quota [])
      else
        let id := s.home.nextPin
        let pin : Pin :=
          { eid := i.eid, ctx := i.ctx, rid := rid, off := r.d 2, len := r.d 4, version := rg.version,
            pages := ps.map (fun p => (p, (match rg.handleOf p with | some h => (match s.handle? h with | some hd => hd.ver | none => 0) | none => 0),
              (match rg.handleOf p with | some h => h + 1 | none => 0))) }
        let s := { s with home.pins := Tab.set s.home.pins id pin, home.nextPin := id % 4294967295 + 1 }
        let s := ps.foldl (fun s p => match rg.handleOf p with | some h => s.hold h (pinHolder id) | none => s.holdZero rid p (pinHolder id)) s
        .next (s.respond r .ok (one id ++ two rg.version))

/-- The pin of a request, for the context that made it (R219, R222). -/
def State.pinOf (s : State) (id : Nat) (i : Issuer) : Option Pin :=
  match Tab.get? s.home.pins id with
  | some p => if p.eid = i.eid ∧ p.ctx = i.ctx ∧ p.ended = false then some p else none
  | none => none

/-- VERSION_UNPIN (R219, R222). -/
def execVersionUnpin (r : BciReq) (s : State) : Result :=
  bciServe .versionUnpin { BciRow.f 69 1 with minor := some 1, v3 := true } r s fun r i s =>
    match s.pinOf (r.w 1) i with
    | none => .next (s.respond r .key [])
    | some _ => .next ((s.endPin (r.w 1)).respond r .ok [])

/-- Copy a pinned range into a region piece by piece, until a piece meets something (R220, R872): what stands then, and the
region, offset and thing met. -/
def State.copyPinned (s : State) (id srcRid off dst dstOff : Nat) (i : Issuer) : List (Nat × Nat) → State × Option (Nat × Nat × Nat × Met)
  | [] => (s, none)
  | (o, n) :: t =>
    match s.region? srcRid, s.region? dst with
    | some a, some b =>
      let so := off + (o - dstOff)
      match s.meetRead srcRid a (.pin id) so n with
      | .clear =>
        match s.meetWrite dst b (.shadowed i) o n with
        | .clear =>
          let data := s.readRange a (.pin id) so n
          (((s.readDone false srcRid (.pin id) so n).writeRange dst (.shadowed i) o data).touchRange false dst (.own i) o n).copyPinned id srcRid off dst dstOff i t
        | m => (s, some (dst, o, 1, m))
      | m => (s, some (srcRid, so, 0, m))
    | _, _ => (s, none)

/-- READ_AT (R217 to R220, R203, R204): the LMF form returns up to 4,096 bytes, the BCI form copies up to 16 MiB into a
region. -/
def execReadAt (r : BciReq) (s : State) : Result :=
  bciServe .readAt { BciRow.f 70 7 with minor := some 1, dl := true, v3 := true, resv := fun r => offResv r 2 || (match r.src with | .lmf _ => false | _ => offResv r 6) } r s fun r i s =>
    let id := r.w 1
    match s.pinOf id i with
    | none => .next (s.respond r .key [])
    | some pin =>
      let off := r.d 2
      let n := r.w 4
      if off < pin.off ∨ pin.off + pin.len < off + n then .next (s.respond r .key [])
      else match r.src with
        | .lmf q =>
          if 4096 < n ∨ inBlock off n = false then .next (s.respond r .notSupported [])
          else match s.region? pin.rid with
            | none => .next (s.respond r .key [])
            | some rg =>
              match s.gate pin.rid rg with
              | some why => .next (s.holdBci (.readAt r) r i why (s.bciHoldEnd r))
              | none =>
                match s.meetRead pin.rid rg (.pin id) off n with
                | .clear => .next ((s.readDone true pin.rid (.pin id) off n).complete q .ok (s.readRange rg (.pin id) off n))
                | m => .next (s.bciStop (.readAt r) r i 0 pin.rid off m)
        | _ =>
          if 16777216 < n then .next (s.respond r .notSupported [])
          else s.onRegion (.readAt r) r i (r.w 5) (r.d 6) n needW (State.refuse r) fun dst _ s =>
            let s := s.lateNotice (.readAt r) r i
            if s.lateAbort r then .next (s.respond r .deadline [])
            else match s.copyPinned id pin.rid off dst (r.d 6) i (pieces (r.d 6) n) with
              | (s, some (rid, o, acc, m)) => .next (s.bciStop (.readAt r) r i acc rid o m)
              | (s, none) =>
                match s.region? dst with
                | some rg =>
                  if rg.mode = .publish then .next (s.respond r .ok [])
                  else .next (s.answerAfter dst (r.d 6) (s.readRange rg (.own i) (r.d 6) n) none .ok (.bci r []))
                | none => .next (s.respond r .ok [])

/-! ### Counters -/

/-- A counter by its key, current and bound to the context (R225, R233). -/
def State.counterOf (s : State) (ckey : Nat) (i : Issuer) : Option Counter :=
  match Tab.get? s.home.counters (keyIdx ckey) with
  | some c => if c.gen = keyGen ckey ∧ c.eid = i.eid ∧ c.ctx = i.ctx then some c else none
  | none => none

/-- Give a counter to a region and a context (R225, R226); the lowest free index. -/
def State.newCounter (s : State) (rid eid ctx : Nat) : State × Nat :=
  let rgen := match s.region? rid with | some r => r.gen | none => 0
  let idx := lowestFree (Tab.keys s.home.counters) 0
  let gen := Tab.getD s.home.ctrGens idx 1
  ({ s with home.counters := Tab.set s.home.counters idx { gen := gen, rid := rid, rgen := rgen, eid := eid, ctx := ctx, bytes := 0, pkts := 0 } }, mkKey idx gen)

/-- COUNTER_ALLOC (R226, R573). -/
def execCounterAlloc (r : BciReq) (s : State) : Result :=
  bciServe .counterAlloc (BciRow.f 72 1) r s fun r i s =>
    match s.live (s.reqHome r) (r.w 1) with
    | none => .next (s.respond r .key [])
    | some (rid, _) =>
      if 65536 ≤ s.home.counters.length then .next (s.respond r .quota [])
      else
        let (s, k) := s.newCounter rid i.eid i.ctx
        .next (s.respond r .ok (one k))

/-- End a wait with a status and the counts (R232, R235): a command is answered, a kernel raises ACCESS (R421). -/
def State.endWait (s : State) (w : Wait) (st : Status) (resp : List Word) : State :=
  let s :=
    { s with
      home.waits := s.home.waits.filter (fun (x : Wait) => decide (x.id ≠ w.id))
      bci.deadlines := s.bci.deadlines.filter (fun (d : Deadline) => decide (d.id ≠ w.id)) }
  match w.who with
  | .bci r => s.respond r st resp
  | .core n =>
    let c := s.core n
    (s.setCore n { c with waitId := none }).kernelStop n 6 st 4 (match c.kernel with | some k => k.pos - 128 | none => 0)

/-- Free a counter (R225, R235). -/
def State.freeCounter (s : State) (idx : Nat) : State :=
  match Tab.get? s.home.counters idx with
  | none => s
  | some c =>
    let s := (s.home.waits.filter (fun w => decide (w.ckey = mkKey idx c.gen))).foldl (fun s w => s.endWait w .key []) s
    { s with home.counters := Tab.erase s.home.counters idx, home.ctrGens := Tab.set s.home.ctrGens idx (nextGen c.gen) }

/-- COUNTER_FREE (R225, R233, R235). -/
def execCounterFree (r : BciReq) (s : State) : Result :=
  bciServe .counterFree (BciRow.f 73 1) r s fun r i s =>
    match s.counterOf (r.w 1) i with
    | none => .next (s.respond r .key [])
    | some _ => .next ((s.freeCounter (keyIdx (r.w 1))).respond r .ok [])

/-- COUNTER_RESET (R233, R234). -/
def execCounterReset (r : BciReq) (s : State) : Result :=
  bciServe .counterReset (BciRow.f 74 1) r s fun r i s =>
    match s.counterOf (r.w 1) i with
    | none => .next (s.respond r .key [])
    | some c => .next (({ s with home.counters := Tab.set s.home.counters (keyIdx (r.w 1)) { c with bytes := 0, pkts := 0 } }).respond r .ok [])

/-- BYTES and PKTS as response words (R568). -/
def Counter.words (c : Counter) : List Word := two c.bytes ++ one c.pkts

/-- COUNTER_READ (R227, R233). -/
def execCounterRead (r : BciReq) (s : State) : Result :=
  bciServe .counterRead (BciRow.f 75 1) r s fun r i s =>
    match s.counterOf (r.w 1) i with
    | none => .next (s.respond r .key [])
    | some c => .next (s.respond r .ok c.words)

/-- Is a count minus a target, as a signed number of the count's width, zero or more (R232)? -/
def countGe (count target width : Nat) : Bool := decide ((count + 2 ^ width - target % 2 ^ width) % 2 ^ width < 2 ^ (width - 1))

/-- Does a wait's condition hold (R232)? -/
def Wait.holds (w : Wait) (c : Counter) : Bool :=
  (decide (w.sel = 1) || countGe c.bytes w.tBytes 64) && (decide (w.sel = 0) || countGe c.pkts w.tPkts 32)

/-- Add a counted write to its counter (R229, R230). -/
def State.countWrite (s : State) (ckey n : Nat) : State :=
  { s with home.counters := Tab.modify s.home.counters (keyIdx ckey) (fun c =>
      { c with bytes := (c.bytes + n) % 18446744073709551616, pkts := (c.pkts + 1) % 4294967296 }) }

/-- WAIT_COUNT (R232, R233, R577, R578): a wait whose condition holds already completes at once. -/
def execWaitCount (r : BciReq) (s : State) : Result :=
  bciServe .waitCount { BciRow.f 76 5 with dl := true, resv := fun r => decide (2 < r.w 5) } r s fun r i s =>
    match s.counterOf (r.w 1) i with
    | none => .next (s.respond r .key [])
    | some c =>
      let id := s.nextId
      let w : Wait := { id := id, ckey := r.w 1, sel := r.w 5, tBytes := r.d 2, tPkts := r.w 4, who := .bci r, eid := i.eid, ctx := i.ctx }
      let s := s.lateNotice (.waitCount r) r i
      if s.lateAbort r then .next (s.respond r .deadline [])
      else if w.holds c then .next (s.respond r .ok c.words)
      else
        let s := { s with nextId := id + 1, home.waits := s.home.waits ++ [w] }
        .next (s.dueBci (.waitCount r) r i id)

/-- WAIT_COUNT_WAKE (R232): a wait of a command whose condition holds completes with the counts. -/
def execWaitCountWake (id : Nat) (s : State) : Result :=
  whenUp s fun s =>
    match s.home.waits.find? (fun w => decide (w.id = id)) with
    | none => .next s
    | some w =>
      match w.who, Tab.get? s.home.counters (keyIdx w.ckey) with
      | .bci _, some c => if w.holds c then .next (s.endWait w .ok c.words) else .next s
      | _, _ => .next s

end Sys2Proof.Machine
end

