-- ==== Sys2Proof/Machine/Atomics.lean ====
section
/-! DEFINITION. Atomics, the result log and CLEAR_POISON (06, 07), and the two sides of a mirrored update (19). -/

namespace Sys2Proof.Machine

/-- Perform an atomic on a page's copies (R223, R243, R244); the caller has found that nothing stops it. LOAD changes no byte,
but allocates a demand-zero page (R247) and fills the T0 copy it is performed at (R111, R142). -/
def State.doAtomic (s : State) (port : Bool) (rid off op w a b : Nat) : State :=
  let s := s.ensurePage rid (off / 65536)
  let s := if op = 1 then
      (match (s.region? rid).bind (fun r => r.handleOf (off / 65536)) with | some h => s.fillT0 (.pub h) | none => s)
    else s.directMap rid (off / 65536) (off % 65536) w (atomicBytes op w a b)
  s.touchRange port rid .pub off w

/-- The published bytes a region holds at an offset. -/
def State.pubBytes (s : State) (rid off n : Nat) : Bytes :=
  match s.region? rid with
  | some r => s.readRange r .pub off n
  | none => List.replicate n 0

/-- Must an LMF atomic on a coherent line be NACKed, and with the RESERVED flag: a line in a transient state, or one whose reservation queue puts
another requester first (R246, R298, R302)? -/
def State.atomicNack (s : State) (rid ln : Nat) (q : LmfReq) : Option Bool :=
  match s.line? rid ln with
  | none => none
  | some l =>
    if !l.st.stable then some false
    else if l.resv ≠ [] ∧ l.resv.head? ≠ some q.srcEid then some true
    else none

/-- NACK an LMF atomic (R284, R298): it may join the line's queue, but never the line's owner (R301, R305). No log entry is written (R249). -/
def State.nackAtomic (s : State) (rid ln : Nat) (q : LmfReq) (reserved : Bool) : State :=
  let l := s.lineD rid ln
  let owner : Bool := match l.st, s.agentIdx q.srcEid with
    | .s, _ => false
    | .i, _ => false
    | _, some a => decide (l.owner = a)
    | _, none => false
  s.nack rid ln q owner reserved

/-- Complete a logged operation on a region: the entry with the completion, and both at the mirror partner first (R249, R255). -/
def State.finishLogged (s : State) (r : BciReq) (i : Issuer) (lseq rid off : Nat) (data : Bytes) (st : Status) (resp : List Word) (value : Nat) : State :=
  (s.logDone (s.issuerLog r i) lseq st value).answerAfter rid off data (some (s.noteOf i.eid i.ctx lseq st value)) st
    (.bci r resp)

/-- ATOMIC (R239 to R250, R223): over BCI or the LMF, logged under its LSEQ. Only an LMF atomic is NACKed; firmware's own access retries in
hardware (R300). A head of the line's queue leaves it when its request is accepted (DEDUCED, log 21). -/
def execAtomic (r : BciReq) (s : State) : Result :=
  bciServe .atomic { BciRow.f 80 13 with dl := true, resv := fun r => offResv r 2 || above r 4 13 } r s fun r i s =>
    let cmd := Instr.atomic r
    let lseq := r.w 5
    let op := fld (r.w 4) 7 0
    let w := fld (r.w 4) 12 8
    let off := r.d 2
    let fail (s : State) (st : Status) : State := s.respondLog r i lseq st [] 0
    s.once r i lseq 4 fun s =>
      if !atomicOk op w off then .next (fail s .notSupported)
      else s.onRegion cmd r i (r.w 1) off w needA fail fun rid rg s =>
        let ln := off / 64
        let native : Option LmfReq := match r.src with | .lmf q => if rg.mode = .coherent then some q else none | _ => none
        let nack : Option Bool := native.bind (s.atomicNack rid ln)
        match nack, native with
        | some reserved, some q => .next (s.nackAtomic rid ln q reserved)
        | _, _ =>
          let s := s.lateNotice cmd r i
          if s.lateAbort r then .next (fail s .deadline)
          else
            let s := match native with | some q => (s.served rid ln q.srcEid).tidyLine rid ln | none => s
            match s.meetWrite rid rg .direct off w with
            | .clear =>
              let old := leNat (s.pubBytes rid off w)
              let s := s.doAtomic true rid off op w (r.q 6) (r.q 10)
              .next (s.finishLogged r i lseq rid off (if op = 1 then [] else s.pubBytes rid off w) .ok (two old ++ two (old / 2 ^ 64)) old)
            | m =>
              match s.bciMet cmd r i 2 rid off m with
              | (s, some st) => .next (s.finishLogged r i lseq rid off [] st [] 0)
              | (s, none) => .next s

/-- The lowest LSEQ of a log (R878). -/
def logTail (es : List LogEntry) : Nat :=
  match es with
  | [] => 0
  | e :: t => t.foldl (fun m x => if lseqBefore x.lseq m then x.lseq else m) e.lseq

/-- The words of R256. -/
def statusWords (lseq outcome : Nat) (st : Status) (head value time : Nat) : List Word :=
  [BitVec.ofNat 32 lseq, BitVec.ofNat 32 (outcome + 65536 * st.code), BitVec.ofNat 32 head] ++ two value ++ two (value / 2 ^ 64) ++ two time

/-- ATOMIC_STATUS (R251, R252, R256, R878). -/
def execAtomicStatus (r : BciReq) (s : State) : Result :=
  bciServe .atomicStatus { BciRow.f 81 1 with minor := some 0 } r s fun r i s =>
    let k := s.issuerLog r i
    let lseq := r.w 1
    let es := s.logOf k
    match s.logFind k lseq with
    | some e =>
      if e.tomb then .next (s.respond r .ok (statusWords lseq 1 .ok (logHead es) 0 0))
      else .next (s.respond r .ok (statusWords lseq 0 e.st (logHead es) e.value e.time))
    | none =>
      if 16384 ≤ es.length ∧ lseqBefore lseq (logTail es) = true then .next (s.respond r .ok (statusWords lseq 2 .ok (logHead es) 0 0))
      else
        let s := s.logPut k { lseq := lseq, tomb := true, st := .ok, value := 0, time := s.now }
        .next (s.respond r .ok (statusWords lseq 1 .ok (logHead (s.logOf k)) 0 0))

/-- The poisoned lines of a range in any copy that a direct update reaches: local line numbers (R310, R311). -/
def State.poisonedLines (s : State) (rg : Region) (off n : Nat) : List Nat :=
  (linesOf off n).filter (fun l =>
    match rg.handleOf (l / 1024) with
    | some h => (s.directRefs h).any (fun ref => match s.page? ref with | some pg => pg.poison.contains (l % 1024) | none => false)
    | none => false)

/-- What CLEAR_POISON meets at a poisoned line: a page being recovered, a read-only leaf, or a line that agents hold. -/
def State.meetClear (s : State) (rid : Nat) (rg : Region) (l : Nat) : Met :=
  if (rg.entry (l / 1024)).isRo then .fault 2 (l / 1024)
  else match rg.handleOf (l / 1024) with
    | none => .clear
    | some h =>
      match (s.directRefs h).find? (fun ref => match s.page? ref with | some pg => pg.recovering | none => false) with
      | some ref => .recovering ref
      | none => if rg.mode = .coherent ∧ s.lineBusy rid l true = true then .line rid l else .clear

/-- CLEAR_POISON (R310, R311). -/
def execClearPoison (r : BciReq) (s : State) : Result :=
  bciServe .clearPoison { BciRow.f 83 5 with minor := some 0, resv := fun r => offResv r 2 } r s fun r i s =>
    let cmd := Instr.clearPoison r
    let off := r.d 2
    let n := r.d 4
    if off % 64 ≠ 0 ∨ n % 64 ≠ 0 then .next (s.respond r .notSupported [])
    else s.onRegion cmd r i (r.w 1) off n needW (State.refuse r) fun rid rg s =>
      let ls := s.poisonedLines rg off n
      match Met.first (ls.map (s.meetClear rid rg)) with
      | .clear =>
        let s := ls.foldl (fun s l => s.clearLine rid (l * 64)) s
        let s := if rg.mirror = 0 then s else ls.foldl (fun s l => s.emit (.mirror rg.mirror s.nextId (s.keyOf rid) (l * 64) (List.replicate 64 0) none)) s
        .next (if ls = [] then s.respond r .ok [] else s.answerAfter rid off [] none .ok (.bci r []))
      | m => .next (s.bciStop cmd r i 1 rid off m)

/-! ### The mirror partner -/

/-- The tier policy of its field; none for a reserved value (R115). -/
def policyOf (v : Nat) : Option Policy :=
  let p : Option Place := match v % 8 with
    | 0 => some .auto | 1 => some .pinT0 | 2 => some .t0Only | 3 => some .pinT1 | 4 => some .stream | _ => none
  if 16 ≤ v then none else p.map (fun p => { place := p, lent := bitAt v 3 })

/-- Do something to a copy held for another home as if it were a region served here, placed as AUTO with LENT 0 (N13); afterwards it is
a copy again. -/
def State.onCopy (s : State) (rid : Nat) (f : State → State) : State :=
  match Tab.get? s.home.copies rid with
  | none => s
  | some c =>
    let s := f (s.setRegion rid { c with mirror := 0, policy := { place := .auto, lent := false } })
    match s.region? rid with
    | none => s
    | some r =>
      { s with
        home.copies := Tab.set s.home.copies rid { r with mirror := c.mirror, policy := c.policy }
        home.regions := Tab.erase s.home.regions rid }

/-- A copy as the home's first note describes it (R569, R748). -/
def copyOf (gen base size attr creator version : Nat) : Region :=
  { gen := gen, draining := false, base := base, size := size,
    mode := (match fld attr 1 0 with | 1 => .coherent | 2 => .priv | _ => .publish),
    policy := (policyOf (fld attr 9 2)).getD { place := .auto, lent := false }, talus := bitAt attr 10, encrypt := bitAt attr 11, mirror := 0, mirrorDone := false,
    absentFault := bitAt attr 12, absent0 := bitAt attr 12, creator := creator, version := version, grants := [], entries := [], excl := [],
    table := none, tkey := 0, tkeyOld := none, dkey := 0 }

/-- The rights a journalled grant carries: R, W, A, P, E in bits 0 to 4. -/
def rightsOfBits (b : Nat) : Rights := { r := bitAt b 0, w := bitAt b 1, a := bitAt b 2, p := bitAt b 3, e := bitAt b 4 }

/-- The object state of its number (R757). -/
def objStateOf (n : Nat) : ObjState := match n with | 2 => .offered | 3 => .orphaned | _ => .owned

/-- Apply a journal note at the partner (R193, R295, R748, R753). -/
def State.applyNote (s : State) (home rid gen : Nat) (data : Bytes) (log : Option LogNote) (note : JournalNote) : State :=
  match note with
  | .region b n attr c v =>
    if n = 0 then
      { s with home.copies := Tab.erase s.home.copies rid, rel.objects := s.rel.objects.filter (fun (o : JObject) => decide (o.rid ≠ rid)) }
    else
    { s with home.copies := Tab.set s.home.copies rid { copyOf gen b n attr c v with mirror := home, tkey := s.nextId, dkey := s.nextId + 1 }, nextId := s.nextId + 2 }
  | .copyDone => { s with home.copies := Tab.modify s.home.copies rid (fun c => { c with mirrorDone := true }) }
  | .grant e c any rb =>
    { s with home.copies := Tab.modify s.home.copies rid (fun k =>
        { k with grants := (k.grants.filter (fun g => !(decide (g.eid = e) && decide (g.any = any) && (any || decide (g.ctx = c)))))
            ++ (if rb = 0 then [] else [{ eid := e, ctx := c, any := any, rights := rightsOfBits rb }]) }) }
  | .shadow p e c =>
    s.onCopy rid (fun s =>
      let s := s.makeShadow rid p { eid := e, ctx := c, admin := false }
      match (s.region? rid).bind (fun r => r.handleOf p) with
      | some h => if data = [] then s else s.putRef (.shadow h e c) 0 data
      | none => s)
  | .shadowEnd p e c =>
    s.onCopy rid (fun s => match (s.region? rid).bind (fun r => r.handleOf p) with | some h => s.dropShadow h e c | none => s)
  | .version v ps =>
    s.onCopy rid (fun s =>
      let s := match log with
        | some g => ps.foldl (fun (s : State) p => match (s.region? rid).bind (fun r => r.handleOf p) with | some h => s.switchPage h g.eid g.ctx v | none => s) s
        | none => s
      match s.region? rid with
      | some r => s.setRegion rid { r with version := v }
      | none => s)
  | .excl a => { s with home.copies := Tab.modify s.home.copies rid (fun c => { c with excl := if a ∈ c.excl then c.excl else c.excl ++ [a] }) }
  | .object name st oe oi te ti entry =>
    let o : JObject := { rid := rid, name := name, st := objStateOf st, eid := oe, inc := oi, toEid := te, toInc := ti, entry := entry }
    let rest := s.rel.objects.filter (fun x => !(decide (x.rid = rid) && decide (x.name = name)))
    { s with rel.objects := if st = 0 then rest else rest ++ [o] }

/-- MIRROR_UPDATE (R737, R255, R741, R193): the partner applies an update, its log entry and its journal note as one step. -/
def execMirrorUpdate (q0 : LmfReq) (data : Bytes) (log : Option LogNote) (note : Option JournalNote) (s : State) : Result :=
  whenUp s fun s =>
    let q := s.sourced q0
    let cmd := Instr.mirrorUpdate q data log note
    match s.arrive cmd { q with key := 0, enc := false } false false with
    | .error s => .next s
    | .ok s =>
      let rid := q.srcEid * 65536 + keyIdx q.key
      let sealedCopy : Bool := match Tab.get? s.home.copies rid with | some c => c.encrypt | none => false
      if (q.enc && !q.sealOk) || (sealedCopy && !data.isEmpty && !q.enc) then
        .next ((({ s with lmf.sealFail := s.lmf.sealFail + 1 }).event (lmfUnit q.port) 7 1 none).complete q .key [])
      else
        let s := match note with
          | some n => s.applyNote q.srcEid rid (keyGen q.key) data log n
          | none => if data.isEmpty then s else s.onCopy rid (fun s => s.writeRange rid .direct q.offset data)
        let s := match log with
          | some g => s.logPut (s.logKey q.srcEid g.eid g.ctx) { lseq := g.lseq, tomb := false, st := g.st, value := g.value, resp := g.resp, time := g.time }
          | none => s
        .next (s.complete q .ok [])

/-- What is left of a mirrored operation once its partner holds it, or the region is no longer mirrored. -/
def State.mirrorDone (s : State) (w : MirrorWait) : State :=
  let s := { s with home.mirrors := s.home.mirrors.filter (fun (x : MirrorWait) => decide (x.id ≠ w.id)) }
  let s := w.after.foldl State.emit s
  let s := match w.bci with | some r => s.respond r w.st w.resp | none => s
  let s := match w.pubId with
    | some id => { s with home.pubs := s.home.pubs.map (fun (p : PubCmd) => if p.id = id then { p with mirrorDone := true } else p) }
    | none => s
  let s := match w.excl, s.region? w.rid with
    | some a, some r => (s.setRegion w.rid { r with excl := if a ∈ r.excl then r.excl else r.excl ++ [a] }).release (fun x => decide (x = .journal w.id))
    | some _, none => s.release (fun x => decide (x = .journal w.id))
    | none, _ => s
  match w.op with
  | some op =>
    match s.region? w.rid with
    | some r => ((s.setRegion w.rid { r with mirrorDone := true }).emit (.journal w.partner (s.keyOf w.rid) .copyDone)).endOp op 1 .ok
    | none => s
  | none => s

/-- MIRROR_RECEIPT (R737, R742, R38): the partner holds the update; one that answers ST_FENCED sends the home to fail-stop. -/
def execMirrorReceipt (id : Nat) (st : Status) (s : State) : Result :=
  whenUp s fun s =>
    match s.home.mirrors.find? (fun w => decide (w.id = id)) with
    | none => .next s
    | some w =>
      match st with
      | .fenced => .next (s.failStop 6)
      | .ok => .next (s.mirrorDone w)
      | _ => .next s

/-- MIRROR_PARTNER_READ (R179): the partner returns its copy of a version, decoded; a version or page it does not hold, or holds
damaged, is no source. -/
def execMirrorPartnerRead (q0 : LmfReq) (version : Nat) (s : State) : Result :=
  whenUp s fun s =>
    let q := s.sourced q0
    match s.arrive (.mirrorPartnerRead q version) { q with key := 0 } false false with
    | .error s => .next s
    | .ok s =>
      match Tab.get? s.home.copies (q.srcEid * 65536 + keyIdx q.key) with
      | none => .next (s.complete q .key [])
      | some c =>
        if c.gen ≠ keyGen q.key ∨ c.inside q.offset q.len = false then .next (s.complete q .key [])
        else match (c.handleOf (q.offset / 65536)).bind s.handle? with
          | none => if version = 0 then .next (s.complete q .ok (List.replicate q.len 0)) else .next (s.complete q .state [])
          | some hd =>
            if hd.ver ≠ version then .next (s.complete q .state [])
            else if hd.pub.recovering || hd.pub.poisonIn (q.offset % 65536) q.len then .next (s.complete q .poison [])
            else .next (s.complete q .ok (Mem.readN hd.pub.bytes (q.offset % 65536) q.len))

end Sys2Proof.Machine
end

