-- ==== Sys2Proof/Machine/MemOps.lean ====
section
/-! DEFINITION. Memory-side operations (06): the descriptor and its checks, and the five operations. -/

namespace Sys2Proof.Machine

/-- OPCODE of a descriptor (R257). -/
def moOp (ws : List Word) : Nat := fld (wAt ws 0) 7 0
/-- TYPE. -/
def moType (ws : List Word) : Nat := fld (wAt ws 0) 11 8
/-- OP. -/
def moRed (ws : List Word) : Nat := fld (wAt ws 0) 15 12
/-- LENGTH. -/
def moLen (ws : List Word) : Nat := wAt ws 10
/-- Is the destination used (R877)? -/
def moDst (ws : List Word) : Bool := decide (moOp ws = 1 ∨ moOp ws = 2 ∨ moOp ws = 4)
/-- Is the source used? -/
def moSrc (ws : List Word) : Bool := decide (2 ≤ moOp ws)
/-- Is the second source used? COMPARE uses it unless its key is the null key. -/
def moSrc2 (ws : List Word) : Bool := decide (moOp ws = 4) || (decide (moOp ws = 3) && decide (wAt ws 7 ≠ 0))

/-- Is a descriptor malformed (R257, R258, R877)? Only the fields that its opcode uses are judged. -/
def moMalformed (ws : List Word) : Bool :=
  let op := moOp ws
  let t := moType ws
  let w := elemBytes t
  let usesRed := decide (op = 4 ∨ op = 5)
  let badOff (u : Bool) (i : Nat) : Bool := u && (decide (2 ^ 52 ≤ dAt ws i) || decide (dAt ws i % w ≠ 0))
  decide (op = 0 ∨ 5 < op) || decide (11 < t) || decide (2 ^ 17 ≤ wAt ws 0) || (usesRed && decide (5 < moRed ws))
    || (usesRed && decide (3 ≤ moRed ws ∧ 8 ≤ t)) || badOff (moDst ws) 2 || badOff (moSrc ws) 5 || badOff (moSrc2 ws) 8
    || decide (moLen ws = 0) || decide (moLen ws % w ≠ 0)

/-- The pin a descriptor reads under. -/
def moPin (ws : List Word) : Nat := if moSrc ws then wAt ws 11 else 0

/-- How the sources are read (R260). -/
def moView (ws : List Word) (i : Issuer) : View := if moPin ws = 0 then .own i else .pin (moPin ws)

/-- Does a pin of the issuer cover a source range (R260)? -/
def State.pinCovers (s : State) (pin : Nat) (i : Issuer) (rid off n : Nat) : Bool :=
  match s.pinOf pin i with
  | some p => decide (p.rid = rid) && decide (p.off ≤ off) && decide (off + n ≤ p.off + p.len)
  | none => false

/-- The ranges of a descriptor after the checks of R259, R260 and R62: the region and offset of the destination, the source and
the second source, where it uses them. -/
def State.moCheck (s : State) (home : Nat) (ws : List Word) (i : Issuer) : Option (Option (Nat × Nat) × Option (Nat × Nat) × Option (Nat × Nat)) :=
  let n := moLen ws
  let get (use : Bool) (ki oi : Nat) (need : Rights) (pinned : Bool) : Option (Option (Nat × Nat)) :=
    if use then
      match s.permit home (wAt ws ki) (dAt ws oi) n need i with
      | some (rid, _) => if pinned && decide (moPin ws ≠ 0) && !s.pinCovers (moPin ws) i rid (dAt ws oi) n then none else some (some (rid, dAt ws oi))
      | none => none
    else some none
  match get (moDst ws) 1 2 needW false, get (moSrc ws) 4 5 needR true, get (moSrc2 ws) 7 8 needR true with
  | some d, some a, some b => some (d, a, b)
  | _, _, _ => none

/-- Do absent or read-only pages stop the descriptor at queue time (R79)? The first such fault; a page that the descriptor's pin holds is not met
(R217, R260). -/
def State.moFault (s : State) (v : View) (d a b : Option (Nat × Nat)) (n : Nat) : Option (Nat × Nat × Nat × Nat × Nat) :=
  let scan (g : Option (Nat × Nat)) (write : Bool) : List (Nat × Nat × Nat × Nat × Nat) :=
    match g with
    | none => []
    | some (rid, off) =>
      match s.region? rid with
      | none => []
      | some r => (pagesOf off n).filterMap (fun p =>
          if r.entry p = .fault ∧ (write || !s.pinHolds r p v) = true then some (rid, off, 1, p, if write then 4 else 3)
          else if write && (r.entry p).isRo then some (rid, off, 2, p, 4) else none)
  (scan d true ++ scan a false ++ scan b false).head?

/-- Raise the fault that a queued descriptor meets on a range it names (R79, R84, R91). -/
def State.moRaise (s : State) (id : Nat) (i : Issuer) (g : Nat × Nat × Nat × Nat × Nat) : State :=
  (s.holdOn { cmd := .memopEnd id, i := i, access := g.2.2.2.2, runTime := false, hw := unitAmong 0x36 4 s.freeCtr, limit := 0, needRoom := false } g.1 g.2.1
    (.fault g.2.2.1 g.2.2.2.1)).1

/-- Queue a descriptor that has been read (R257 to R260, R79, R82). -/
def State.moQueue (s : State) (r : BciReq) (ws : List Word) (cmplKey cmplOff : Nat) (i : Issuer) : Result :=
  let home := s.reqHome r
  if moMalformed ws then .next (s.respond r .notSupported [])
  else match s.moCheck home ws i, s.permit home cmplKey cmplOff 16 needW i with
    | some (d, a, b), some (crid, _) =>
      let id := s.nextId
      let n := moLen ws
      let ranges := (d.toList ++ a.toList ++ b.toList).map (fun g => (g.1, g.2, n)) ++ [(crid, cmplOff, 16)]
      let (s, caps) := s.capture id ranges
      let m : MemOp := { id := id, words := ws, eid := i.eid, ctx := i.ctx, admin := i.admin, cmplKey := cmplKey, cmplOff := cmplOff, pages := caps, result := none }
      let s := { s with nextId := id + 1, home.memops := s.home.memops ++ [m] }
      let s := if dAt ws 14 = 0 then s else s.addDeadline id (dAt ws 14) (bitAt (wAt ws 0) 16) 6 (cmplOff % 4294967296) i
      let s := match s.moFault (moView ws i) d a b n with
        | some g => s.moRaise id i g
        | none => s
      .next (s.respond r .ok [])
    | _, _ => .next (s.respond r .key [])

/-- MEMOP (R257 to R260, R82, R872): over BCI the descriptor is read from memory, in the LMF form it travels in the request. -/
def execMemop (r : BciReq) (s : State) : Result :=
  bciServe .memop { BciRow.f 82 6 with owner := (match r.src with | .lmf _ => false | _ => true), resv := fun r => (match r.src with | .lmf _ => false | _ => offResv r 2 || offResv r 5) }
    r s fun r i s =>
      match r.src with
      | .lmf _ => s.moQueue r ((r.words.drop 1).take 16) (r.w 17) (r.d 18) i
      | _ =>
        s.onRegion (.memop r) r i (r.w 1) (r.d 2) 64 needR (State.refuse r) fun rid rg s =>
          match s.meetRead rid rg (.own i) (r.d 2) 64 with
          | .clear => (s.readDone false rid (.own i) (r.d 2) 64).moQueue r (wordsOf (s.readRange rg (.own i) (r.d 2) 64)) (r.w 4) (r.d 5) i
          | m => .next (s.bciStop (.memop r) r i 3 rid (r.d 2) m)

/-- The elements of a byte string, `w` bytes each. -/
def elems (w : Nat) (bs : Bytes) : List Nat := (chunksOf w bs.length bs).map leNat

/-- The bytes of elements. -/
def elemsBytes (w : Nat) (xs : List Nat) : Bytes := xs.flatMap (natLE w)

/-- One element of REDUCE (R263): an exact result rounded once, or an integer that wraps. A NaN operand gives its sign to an E4M3 result; which of two
does is free (log 4). -/
def reduceElem (t op a b : Nat) : Nat :=
  match fmtOf t with
  | some f =>
    let x := f.decode a
    let y := f.decode b
    let sign := if x.isNan && (!y.isNan || Config.nanFirst a b) then nanSign t t a else if y.isNan then nanSign t t b else 0
    (f.finish .rne (match op with | 0 => x.add y | 1 => x.minimum y | _ => x.maximum y)).1 + sign
  | none =>
    let x := elemInt t a
    let y := elemInt t b
    match op with
    | 0 => intBits t (x + y)
    | 1 => if x ≤ y then a else b
    | 2 => if x ≤ y then b else a
    | 3 => a &&& b
    | 4 => a ||| b
    | _ => a ^^^ b

/-- Combine elements two by two until one is left, in an order that nothing fixes (R265): at moment `k` any two may be next. -/
def combineN (f : Nat → Nat → Nat) (k : Nat) : Nat → List Nat → List Nat
  | 0, xs => xs
  | n + 1, xs =>
    if xs.length ≤ 1 then xs
    else
      let i := Config.combinePick k n true % xs.length
      let ys := xs.eraseIdx i
      let j := Config.combinePick k n false % ys.length
      combineN f k n (ys.set j (f (xs.getD i 0) (ys.getD j 0)))

/-- All elements combined to one. -/
def combineAll (f : Nat → Nat → Nat) (k : Nat) (xs : List Nat) : Nat := (combineN f k xs.length xs).headD 0

/-- REDUCE_ALL (R264, R265): floating-point types in FP32, integers at their width; the result as 64 bits (R268). -/
def reduceAll (k t op : Nat) (xs : List Nat) : Nat :=
  match fmtOf t with
  | some f => combineAll (reduceElem 8 op) k (xs.map (fun x => (fp32.round .rne (f.decode x)).1))
  | none => (BitVec.ofInt 64 (elemInt t (combineAll (reduceElem t op) k xs))).toNat

/-- The offset of the first element that differs (R266). -/
def firstDiff (w : Nat) : List Nat → List Nat → Nat → Option Nat
  | a :: as, b :: bs, k => if a = b then firstDiff w as bs (k + w) else some k
  | _, _, _ => none

/-- The bytes an operation writes, and its completion record, from what it reads at a moment. -/
def moCompute (k : Nat) (ws : List Word) (a b : Bytes) : Bytes × List Word :=
  let t := moType ws
  let w := elemBytes t
  let n := moLen ws / w
  let pat := dAt ws 12 % 2 ^ (8 * w)
  match moOp ws with
  | 1 => (elemsBytes w (List.replicate n pat), recordWords .ok false 0)
  | 2 => (a, recordWords .ok false 0)
  | 3 =>
    match firstDiff w (elems w a) (if moSrc2 ws then elems w b else List.replicate n pat) 0 with
    | none => ([], recordWords .ok true 18446744073709551615)
    | some d => ([], recordWords .ok false d)
  | 4 => (elemsBytes w (List.zipWith (reduceElem t (moRed ws)) (elems w a) (elems w b)), recordWords .ok false 0)
  | _ => ([], recordWords .ok false (reduceAll k t (moRed ws) (elems w a)))

/-- Does earlier work of the same context hold this operation back (R94)? A context has one queue for each kind of engine work (DESIGN CHOICE,
log 29). -/
def State.moBehind (s : State) (m : MemOp) : Bool :=
  s.home.memops.any (fun x => decide (x.id < m.id) && decide (x.eid = m.eid) && decide (x.ctx = m.ctx)
    && s.home.held.any (fun h => decide (h.cmd = Instr.memopEnd x.id)))

/-- MEMOP_END (R260 to R268, R737): the operation is performed on the pages it translated, and its completion record is
written once a mirror partner holds what it wrote. One that was held on a fault is translated whole again (R90). -/
def execMemopEnd (id : Nat) (s : State) : Result :=
  whenUp s fun s =>
    match s.home.memops.find? (fun m => decide (m.id = id)) with
    | none => .next s
    | some m =>
      match m.result with
      | some ws => if s.mirroring (.memop id) then .next s else .next (s.memopFinish id ws)
      | none =>
        if s.home.held.any (fun h => decide (h.cmd = Instr.memopEnd id)) || s.moBehind m || s.noneInService 0x36 4 then .next s
        else
          let i : Issuer := { eid := m.eid, ctx := m.ctx, admin := m.admin }
          let ws := m.words
          let n := moLen ws
          let (s, caps) : State × Caps := match s.replay.map Again.why with
            | some (.fault _) => s.recapture id m.pages
            | _ => (s, m.pages)
          let hw := m.unit.getD (s.pickUnit 0x36 4 id)
          let s := if m.unit.isSome then s else (s.workStart hw m.eid m.ctx (m.cmplOff % 4294967296)).event hw 1 1 none
          let m := { m with pages := caps, unit := some hw }
          let s := { s with home.memops := s.home.memops.map (fun (x : MemOp) => if x.id = id then m else x) }
          let old := s.remapped id m.pages
          let s := s.overlay id m.pages
          let rd (use : Bool) (k : Nat) (o : Nat) : Option (Nat × Region × Nat) :=
            if use then (match m.pages.find? (fun c => decide (c.1 % 65536 = keyIdx (wAt ws k)) && decide (c.2.1 = dAt ws o / 65536)) with
              | some c => (s.region? c.1).map (fun r => (c.1, r, dAt ws o))
              | none => none) else none
          let dst := rd (moDst ws) 1 2
          let a := rd (moSrc ws) 4 5
          let b := rd (moSrc2 ws) 7 8
          let v := moView ws i
          let rm (g : Option (Nat × Region × Nat)) : Met × Nat × Nat :=
            match g with | some (rid, r, off) => (s.meetRead rid r v off n, rid, off) | none => (.clear, 0, 0)
          let wm : Met × Nat × Nat := match dst with | some (rid, r, off) => (s.meetWrite rid r (.shadowed i) off n, rid, off) | none => (.clear, 0, 0)
          let stop : Option (Met × Nat × Nat × Nat) :=
            match rm a, rm b, wm with
            | (.clear, _, _), (.clear, _, _), (.clear, _, _) => none
            | (.clear, _, _), (.clear, _, _), (x, rid, off) => some (x, rid, off, 4)
            | (.clear, _, _), (x, rid, off), _ => some (x, rid, off, 3)
            | (x, rid, off), _, _ => some (x, rid, off, 3)
          match stop with
          | some (x, rid, off, acc) =>
            match s.holdOn { cmd := .memopEnd id, i := i, access := acc, runTime := false, hw := hw, limit := 0, needRoom := false, work := true } rid off x with
            | (s, some st) => .next ((s.restore old).memopFinish id (recordWords st false 0))
            | (s, none) => .next (s.restore old)
          | none =>
            let bytes (g : Option (Nat × Region × Nat)) : Bytes := match g with | some (_, r, off) => s.readRange r v off n | none => []
            let (out, rec) := moCompute s.freeCtr ws (bytes a) (bytes b)
            let s := s.freed
            let s := match a with | some (rid, _, off) => s.readDone false rid v off n | none => s
            let s := match b with | some (rid, _, off) => s.readDone false rid v off n | none => s
            match dst with
            | none => .next ((s.restore old).memopFinish id rec)
            | some (rid, r, off) =>
              let s := (s.writeRange rid (.shadowed i) off out).touchRange false rid (.own i) off n
              let s := if r.mode = .publish then s else s.forward rid off out (.memop id)
              let s := s.restore old
              if s.mirroring (.memop id) then
                .next { s with home.memops := s.home.memops.map (fun (x : MemOp) => if x.id = id then { x with result := some rec } else x) }
              else .next (s.memopFinish id rec)

end Sys2Proof.Machine
end

