-- ==== Sys2Proof/Machine/Regions.lean ====
section
/-! DEFINITION. Regions, grants and translation tables (02): CREATE, DESTROY, REGION_SET, GRANT, REVOKE, MAP, UNMAP, CONVERT, and the fault ring with the resolution of faults. -/

namespace Sys2Proof.Machine

/-- The field of a tier policy (R115). -/
def Policy.bits (p : Policy) : Nat :=
  (match p.place with | .auto => 0 | .pinT0 => 1 | .t0Only => 2 | .pinT1 => 3 | .stream => 4) + 8 * b2n p.lent

/-- The consistency mode of its field (R569). -/
def modeOf (v : Nat) : Option Mode := match v % 4 with | 0 => some .publish | 1 => some .coherent | 2 => some .priv | _ => none

/-- The ATTR word of a region (R569). -/
def Region.attr (r : Region) : Nat :=
  (match r.mode with | .publish => 0 | .coherent => 1 | .priv => 2) + 4 * r.policy.bits + 1024 * b2n r.talus + 2048 * b2n r.encrypt
    + 4096 * b2n r.absentFault

/-- The ACTIVE region at this home that a class O command names: its key is checked without a grant (R561, R573). -/
def State.named (s : State) (r : BciReq) (key : Nat) (body : Nat → Region → Result) : Result :=
  match s.live (s.reqHome r) key with
  | some (rid, rg) => body rid rg
  | none => .next (s.respond r .key [])

/-- Does this context exist at the controller and is it ACTIVE (R575)? -/
def State.ctxOk (s : State) (ctx : Nat) : Bool := s.ctxIs ctx .active

/-- Is the home a member of a rope team (R61, R270)? -/
def State.inTeam (s : State) (eid : Nat) : Bool := s.rope.members.contains eid

/-- Tell a new mirror partner of a region: its attributes and grants, the exclusive holders, the shadow pages that stand (R193) and the ownership
objects (R59, R748, R753). -/
def State.introduce (s : State) (rid : Nat) (r : Region) : State :=
  let k := s.keyOf rid
  let s := s.emit (.journal r.mirror k (.region r.base r.size r.attr r.creator r.version))
  let s := r.grants.foldl (fun (s : State) g => s.emit (.journal r.mirror k (.grant g.eid g.ctx g.any g.rights.bits))) s
  let s := r.excl.foldl (fun (s : State) a => s.emit (.journal r.mirror k (.excl a))) s
  let s := (s.home.pages.filter (fun e => decide (e.2.rid = rid) && e.2.mapped)).foldl (fun (s : State) e =>
    e.2.shadows.foldl (fun (s : State) w => s.emit (.journal r.mirror k (.shadow e.2.pageNo w.eid w.ctx))) s) s
  (s.rel.objects.filter (fun o => decide (o.rid = rid))).foldl (fun (s : State) o =>
    s.emit (.journal r.mirror k (.object o.name (match o.st with | .owned => 1 | .offered => 2 | .orphaned => 3) o.eid o.inc o.toEid o.toInc o.entry))) s

/-- May a region of this mode have this mirror partner: an encrypted region needs a secured session with it (N11) and a partner of version 3 (R653), a
coherent-mode region a partner in the same team (R277)? -/
def State.mirrorOk (s : State) (m : Mode) (encrypt : Bool) (partner : Nat) : Bool :=
  decide (partner = 0) || ((!encrypt || (s.sec.secured.any (fun e => decide (e.1 = partner)) && decide (3 ≤ s.verOf partner))) && (decide (m ≠ .coherent) || s.inTeam partner))

/-- The next free key index of this home (R57). -/
def State.freeIndex (s : State) : Nat := lowestFree (Tab.keys s.home.regions) 0

/-- The attributes CREATE gives (R59, R63, R569). -/
def newRegion (s : State) (gen base size attr mirror creator : Nat) (m : Mode) (p : Policy) : Region :=
  { gen := gen, draining := false, base := base, size := size, mode := m, policy := p, talus := bitAt attr 10, encrypt := bitAt attr 11,
    mirror := mirror, mirrorDone := decide (mirror ≠ 0), absentFault := bitAt attr 12, absent0 := bitAt attr 12, creator := creator, version := 0,
    grants := if m = .priv then
      [{ eid := s.lmf.eid, ctx := creator, any := false, rights := { r := true, w := true, a := true, p := true, e := true } }] else [],
    entries := [], excl := [], table := none, tkey := s.nextId, tkeyOld := none, dkey := s.nextId + 1 }

/-- CREATE (R57 to R61, R63, R67, R121, R195, R277, R575, R865, N11). -/
def execCreate (r : BciReq) (s : State) : Result :=
  bciServe .create { BciRow.o 32 7 with resv := fun r => above r 6 18 || above r 7 12 } r s fun r _ s =>
    let base := r.d 1
    let size := r.d 3
    let attr := r.w 5
    match modeOf attr, policyOf (fld attr 9 2) with
    | some m, some p =>
      if base % 65536 ≠ 0 ∨ size % 65536 ≠ 0 ∨ size = 0 ∨ 2 ^ 52 < base + size ∨ 8192 ≤ attr then .next (s.respond r .notSupported [])
      else if s.ctxOk (r.w 7) = false then .next (s.respond r .state [])
      else if s.home.regions.any (fun e => decide (e.1 < 65536) && decide (e.2.base < base + size) && decide (base < e.2.base + e.2.size)) then
        .next (s.respond r .state [])
      else if (decide (m = .coherent) && !s.inTeam s.lmf.eid) || !s.mirrorOk m (bitAt attr 11) (r.w 6) then .next (s.respond r .notSupported [])
      else
        let idx := s.freeIndex
        let gen := Tab.getD s.home.gens idx 1
        let rg := newRegion s gen base size attr (r.w 6) (r.w 7) m p
        let t := { (s.setRegion idx rg).commit with nextId := s.nextId + 2 }
        if 65536 ≤ idx then .next (s.respond r .quota [])
        else if (match p.place with | .pinT0 => true | .t0Only => true | _ => false) && decide (r121Limit < t.r121) then .next (s.respond r .quota [])
        else
          let t := if rg.mirror = 0 then t else ((t.giveKey rg.mirror idx).introduce idx rg).emit (.journal rg.mirror (mkKey idx gen) .copyDone)
          .next (t.respond r .ok (one (mkKey idx gen)))
    | _, _ => .next (s.respond r .notSupported [])

/-! ### Talus tables in the store -/

/-- A region's CURRENT table becomes HELD (R161). -/
def State.holdTable (s : State) (rid : Nat) : State :=
  State.sweepTables { s with
    strata.tables := s.strata.tables.map (fun (e : Nat × TalusTable) => if e.2.rid = rid then (e.1, { e.2 with current := false }) else e)
    home.regions := Tab.modify s.home.regions rid (fun r => { r with table := none }) }

/-! ### DESTROY and the end of draining -/

/-- The region a held command names. -/
def State.ridOfCmd (s : State) (c : Instr) : Nat := s.ridOf (s.homeOf c) (s.keyInCmd c)

/-- SNP_INV to every holder of a region's lines; a request that a transient line serves completes with ST_KEY (R316). -/
def State.destroyLines (s : State) (rid : Nat) : State :=
  (s.rope.lines.filter (fun e => decide (e.1 / 18446744073709551616 = rid))).foldl (fun (s : State) e =>
    let ln := e.1 % 18446744073709551616
    let l := e.2
    let s := match l.req with
      | .shared _ q => s.complete q .key []
      | .own _ q => s.complete q .key []
      | .upgrade _ q => s.complete q .key []
      | .invOwn _ q => s.complete q .key []
      | .rdUnc q => s.complete q .key []
      | .wrUnc q _ _ => s.complete q .key []
      | _ => s
    let ask (s : State) (hs : List Nat) : State :=
      let s := s.setLine rid ln { l with st := .evictWait, awaited := hs, req := .none, snoop := 50, wbSeen := false, armed := s.now, resv := [] }
      hs.foldl (fun (s : State) a => s.toAgent a 50 rid ln 0 []) s
    match l.st with
    | .i => { s with rope.lines := Tab.erase s.rope.lines e.1 }
    | .s => ask s l.sharers
    | .e => ask s [l.owner]
    | .m => ask s [l.owner]
    | _ =>
      let rest := if l.snoop = 50 then l.sharers.filter (fun a => decide (a ∉ l.awaited)) else []
      let s := s.setLine rid ln { l with st := .evictWait, awaited := l.awaited ++ rest, req := .none, resv := [] }
      rest.foldl (fun (s : State) a => s.toAgent a 50 rid ln 0 []) s) s

/-- Rings in a region lose their binding when it leaves ACTIVE (R87, R579); the indices that the owning host's and the bound functions' registers
show of them change with it (R605). -/
def State.unbindRings (s : State) (rid : Nat) : State :=
  let gone (g : Ring) : Bool := decide (s.ridOf s.lmf.eid g.key = rid)
  let faults := s.home.faultRings.filter (fun e => gone e.2)
  let notices := s.bci.rings.filter (fun e => match e.2.ring with | some g => gone g | none => false)
  let s := { s with
    home.faultRings := s.home.faultRings.filter (fun (e : Nat × Ring) => !gone e.2)
    bci.rings := s.bci.rings.map (fun (e : Nat × NoticeRing) =>
      (e.1, { e.2 with ring := match e.2.ring with | some g => if gone g then none else some g | none => none })) }
  let s := faults.foldl (fun (s : State) e => s.rsFn e.1 0) s
  notices.foldl (fun (s : State) e => s.rsNotice (e.1 / 4096) (e.1 % 4096)) s

/-- End the long operations of a region (log 14). -/
def State.endRegionOps (s : State) (rid : Nat) (st : Status) : State :=
  (s.bci.ops.filter (fun o => decide (o.st = 0) && (decide (o.kind = .mirror rid) || decide (o.kind = .toT0Only rid) || decide (o.kind = .fromT0Only rid)))).foldl
    (fun (s : State) o => s.endOp o.id 2 st) s

/-- Suspended kernels that wait on a fault record end with a status (R90, R92, R96, R374). -/
def State.abortSaved (s : State) (seq exc : Nat) (st : Status) : State :=
  s.cores.foldl (fun (s : State) e =>
    (e.2.saved.filter (fun (v : Saved) => v.held.any (fun h => decide (h.why = .fault seq)))).foldl (fun (s : State) v => s.endSaved e.1 v exc st) s) s

/-- DESTROY (R58, R67, R96, R222, R316, R627, R161): DRAINING, with the generation advanced. -/
def execDestroy (r : BciReq) (s : State) : Result :=
  bciServe .destroy (BciRow.o 33 1) r s fun r _ s =>
    s.named r (r.w 1) fun rid rg =>
      let s := State.commit { s with rel.objects := s.rel.objects.filter (fun (o : JObject) => decide (o.rid ≠ rid)) }
      let s := if rg.mirror = 0 then s else s.emit (.journal rg.mirror (r.w 1) (.region rg.base 0 rg.attr rg.creator rg.version))
      let s := if rg.mode = .coherent then s.destroyLines rid else s
      let seqs := (s.home.faults.filter (fun f => decide (f.rid = rid))).map FaultRec.seq
      let s := s.endHolds (fun h => (passedCheck h.why && decide (s.ridOfCmd h.cmd = rid))
        || (match h.why with | .fault q => decide (q ∈ seqs) | _ => false)) .key
      let s := (s.kernels.filter (fun k => match s.codeAbsent k with | some x => decide (x.1 = rid) | none => false)).foldl (fun (s : State) k => s.endQueued k 6 .key) s
      let s := seqs.foldl (fun (s : State) q => s.abortSaved q 6 .key) s
      let s := { s with home.faults := s.home.faults.filter (fun (f : FaultRec) => decide (f.rid ≠ rid)) }
      let s := (s.home.pins.filter (fun e => decide (e.2.rid = rid))).foldl (fun (s : State) e => s.endPin e.1) s
      let s := s.unbind (fun _ w => decide (w.rid = rid))
      let s := (s.unbindRings rid).endRegionOps rid .key
      let s := { s with
        home.gens := if rid < 65536 then Tab.set s.home.gens rid (nextGen rg.gen) else s.home.gens
        home.regions := Tab.modify s.home.regions rid (fun q => { q with draining := true }) }
      .next ((((s.holdTable rid).respond r .ok []).settle).bufferFree)

/-- Do these captured pages name the region? -/
def Caps.names (c : Caps) (rid : Nat) : Bool := c.any (fun e => decide (e.1 = rid))

/-- Is a reference to a region held: by a descriptor, a pin, an access in flight, or a line still to be answered for (R67,
R316)? -/
def State.referenced (s : State) (rid : Nat) : Bool :=
  s.home.pages.any (fun e => decide (e.2.rid = rid) && decide (e.2.refs ≠ []))
  || s.home.zeroCaps.any (fun e => decide (e.1 = rid))
  || s.home.pins.any (fun e => decide (e.2.rid = rid))
  || s.home.pubs.any (fun p => decide (p.rid = rid))
  || s.home.mirrors.any (fun w => decide (w.rid = rid))
  || s.home.held.any (fun h => passedCheck h.why && decide (s.ridOfCmd h.cmd = rid))
  || s.resume.any (fun e => decide (s.ridOfCmd e.cmd = rid))
  || s.rope.lines.any (fun e => decide (e.1 / 18446744073709551616 = rid))
  || s.home.memops.any (fun m => Caps.names m.pages rid)
  || s.kernels.any (fun k => Caps.names k.pages rid)
  || s.cores.any (fun c => (match c.2.kernel with | some k => Caps.names k.pages rid | none => false)
      || c.2.saved.any (fun v => Caps.names v.kernel.pages rid))
  || s.mor.batches.any (fun b => Caps.names b.pages rid)
  || s.trav.queries.any (fun q => Caps.names q.pages rid)
  || s.expert.batches.any (fun b => Caps.names b.pages rid)

/-- REGION_DRAIN_END (R67): the last reference is released; pages, versions and grants are freed, and the index is available. -/
def execRegionDrainEnd (idx : Nat) (s : State) : Result :=
  whenUp s fun s =>
    match s.region? idx with
    | none => .next s
    | some rg =>
      if rg.draining = false ∨ s.referenced idx = true then .next s
      else .next (State.sweepTables (State.trimWriters { s with
        home.pages := s.home.pages.filter (fun (e : Nat × Handle) => decide (e.2.rid ≠ idx))
        home.lost := s.home.lost.filter (fun e => decide (e.1 ≠ idx))
        home.regions := Tab.erase s.home.regions idx
        home.revokes := s.home.revokes.filter (fun (w : RevokeWait) => decide (w.rid ≠ idx))
        expert.ssdHeld := Tab.erase s.expert.ssdHeld idx
        rel.objects := s.rel.objects.filter (fun (o : JObject) => decide (o.rid ≠ idx)) }))

/-! ### REGION_SET -/

/-- Change every tier page: published versions, shadow pages and old versions (R112). -/
def State.mapRefs (s : State) (f : PageRef → TierPage → TierPage) : State :=
  s.setPages (s.home.pages.map (fun e => (e.1, { e.2 with
    pub := f (.pub e.1) e.2.pub
    shadows := e.2.shadows.map (fun w => { w with page := f (.shadow e.1 w.eid w.ctx) w.page })
    olds := e.2.olds.map (fun o => (o.1, f (.old e.1 o.1) o.2)) })))

/-- Is a page one of a region's? -/
def State.refIn (s : State) (rid : Nat) (ref : PageRef) : Bool := match s.handle? (refHandle ref) with | some hd => decide (hd.rid = rid) | none => false

/-- The tier pages of a region. -/
def State.regionPages (s : State) (rid : Nat) : List (PageRef × TierPage) := s.allPages.filter (fun e => s.refIn rid e.1)

/-- Start a move of a page that is in none. -/
def TierPage.start (p : TierPage) (k : MoveKind) : TierPage := if p.move = none then { p with move := some { kind := k, retiring := false } } else p

/-- The move a page is due: by its region's policy (R115 to R117, R870), or by a drain that runs (R143). -/
def State.wanted (s : State) (ref : PageRef) (p : TierPage) : Option MoveKind :=
  match s.regionOfRef ref with
  | none => none
  | some r =>
    match r.policy.place, p.backing with
    | .t0Only, .none => none
    | .t0Only, _ => some .toT0Only
    | _, .none => some .toBacking
    | .pinT1, .t2 => some .toT1
    | pl, b =>
      if decide (s.placeOf ref = .pinT0) && decide (p.t0 = .none) then some .fill
      else if decide (b = .t1) && decide (pl ≠ .pinT1) && s.drainingT1 then some .toT2
      else if p.due && decide (p.t0 = .dirty) then some .writeBack
      else none

/-- Start the moves that pages are due and that are in none; a page in recovery waits (R870). -/
def State.kick (s : State) : State :=
  s.mapRefs (fun ref p => if p.recovering then p else match s.wanted ref p with | some k => p.start k | none => p)

/-- Does a move in COPYING go on under a tier policy (R115 to R118)? One past its SWITCH always does. -/
def Move.abides (m : Move) (pl : Place) : Bool :=
  m.retiring || (match m.kind, pl with
    | .toT0Only, .t0Only => true
    | .toT0Only, _ => false
    | _, .t0Only => false
    | .toT2, .pinT1 => false
    | .fill, .stream => false
    | .tlFill _, pl => pl.lentOk
    | _, _ => true)

/-- Apply a tier policy to a region's pages: TL copies it does not allow are invalidated, moves it ends are abandoned, and those it needs start
(R116 to R118, R870). -/
def State.applyPolicy (s : State) (rid : Nat) (new : Policy) : State :=
  let lent := new.lent && new.place.lentOk
  let s := { s with home.regions := Tab.modify s.home.regions rid (fun r => { r with policy := new }) }
  (s.mapRefs (fun ref p =>
    if s.refIn rid ref then
      { (if lent then p else p.dropTl) with
        move := p.move.filter (fun m => m.abides new.place && (lent || m.retiring || (match m.kind with | .tlFill _ => false | _ => true))) }
    else p)).kick

/-- Is the region's policy held by single-stream decode mode (R462)? -/
def State.policyHeld (s : State) (rid : Nat) : Bool := Tab.has s.expert.ssdHeld rid

/-- CTX of an expert descriptor (R429). -/
def dsCtx (d : List Word) : Nat := fld (wAt d 1) 27 16

/-- The weight regions that single-stream decode mode pins (R462): one that is T0_ONLY stays so (N16). -/
def State.ssdRegions (s : State) (ctx : Nat) : List Nat :=
  ((s.expert.descs.filterMap (fun e => if dsCtx e.2 = ctx then (s.live s.lmf.eid (wAt e.2 2)).map Prod.fst else none)).filter
    (fun rid => match s.region? rid with | some r => decide (r.policy.place ≠ .t0Only) | none => false)).dedup

/-- Hold at PIN_T0 the policies of the regions the mode needs, and give the others back (R462, R463). -/
def State.ssdSync (s : State) : State :=
  let want := match s.expert.ssd with | some c => s.ssdRegions c | none => []
  let gone := s.expert.ssdHeld.filter (fun e => decide (e.1 ∉ want))
  let s := gone.foldl (fun (s : State) e => State.applyPolicy { s with expert.ssdHeld := Tab.erase s.expert.ssdHeld e.1 } e.1 e.2) s
  want.foldl (fun (s : State) rid =>
    if Tab.has s.expert.ssdHeld rid then s
    else match s.region? rid with
      | some r => State.applyPolicy { s with expert.ssdHeld := Tab.set s.expert.ssdHeld rid r.policy } rid { r.policy with place := .pinT0 }
      | none => s) s

/-- A change of tier policy on an ACTIVE region (R115 to R118, R121, R870, N16). -/
def regionSetPolicy (r : BciReq) (rid : Nat) (rg : Region) (new : Policy) (i : Issuer) (s : State) : Result :=
  if s.policyHeld rid then .next (({ s with expert.ssdHeld := Tab.set s.expert.ssdHeld rid new }).respond r .ok (one 0))
  else
    let t := (s.applyPolicy rid new).ssdSync
    let pages := s.regionPages rid
    let pins := match new.place with | .pinT0 => true | .t0Only => true | _ => false
    let away := decide (rg.policy.place = .t0Only) && decide (new.place ≠ .t0Only)
    let into := decide (rg.policy.place ≠ .t0Only) && decide (new.place = .t0Only)
    let bare := (pages.filter (fun e => decide (e.2.backing = .none))).length
    if pins && decide (s.r121 < t.r121) && decide (r121Limit < t.r121) then .next (s.respond r .quota [])
    else if away && !s.space { rg with policy := new } bare false then .next (s.respond r .quota [])
    else if into || away then
      let t := t.endRegionOps rid .ok
      let id := t.bci.nextOp
      let t := t.startOp (if into then .toT0Only rid else .fromT0Only rid) pages.length (t.attributed i)
      let t := if (t.regionPages rid).all (fun e => decide (e.2.backing = .none) == into) then t.endOp id 1 .ok else t
      .next (t.respond r .ok (one id))
    else .next (t.respond r .ok (one 0))

/-- Give up what waits for a mirror partner of a region: the operations complete without it (R743). -/
def State.unmirror (s : State) (rid : Nat) : State :=
  let s := { s with home.regions := Tab.modify s.home.regions rid (fun r => { r with mirror := 0, mirrorDone := false }) }
  let ws := s.home.mirrors.filter (fun w => decide (w.rid = rid))
  let s := ws.foldl (fun (s : State) w => State.mirrorDone s { w with op := none }) s
  let s := (s.bci.ops.filter (fun o => decide (o.st = 0) && decide (o.kind = .mirror rid))).foldl (fun (s : State) o => s.endOp o.id 2 .ok) s
  s.release (fun w => match w with | .lease _ => true | _ => false)

/-- Start the first mirror copy of a region to a partner: its description and every page's published bytes (R59, R16). -/
def State.startMirror (s : State) (rid partner : Nat) (i : Issuer) : State × Nat :=
  let s :=
    { s with
      home.regions := Tab.modify s.home.regions rid (fun r => { r with mirror := partner, mirrorDone := false })
      home.pubs := s.home.pubs.map (fun (p : PubCmd) => if p.rid = rid then { p with mirrorSent := false, mirrorDone := false, sent := [] } else p) }
  match s.region? rid with
  | none => (s, 0)
  | some rg =>
    let s := (s.giveKey partner rid).introduce rid rg
    let hs := s.home.pages.filter (fun e => decide (e.2.rid = rid) && e.2.mapped)
    let op := s.bci.nextOp
    let s := s.startOp (.mirror rid) hs.length (s.attributed i)
    let w : MirrorWait :=
      { id := s.nextId, partner := partner, rid := rid, after := [], bci := none, st := .ok, resp := [], pubId := none, op := some op, work := none }
    let s := { s with nextId := s.nextId + 1, home.mirrors := s.home.mirrors ++ [w] }
    let k := s.keyOf rid
    (hs.foldl (fun (s : State) e => s.emit (.mirror partner w.id k (e.2.pageNo * 65536) (Mem.readN e.2.pub.bytes 0 65536) none)) s, op)

/-- REGION_SET (R59, R115 to R118, R161, R277, R870, N11, N16). -/
def execRegionSet (r : BciReq) (s : State) : Result :=
  bciServe .regionSet { BciRow.o 34 3 with resv := fun r => decide (r.w 2 = 0) || decide (4 < r.w 2) || (decide (r.w 2 = 1) && (policyOf (r.w 3)).isNone)
      || (decide (r.w 2 = 3) && above r 3 18) || (decide (r.w 2 = 2 ∨ r.w 2 = 4) && decide (1 < r.w 3)) } r s fun r i s =>
    s.named r (r.w 1) fun rid rg =>
      let v := r.w 3
      match r.w 2 with
      | 1 =>
        match policyOf v with
        | some p => regionSetPolicy r rid rg p i s
        | none => .next (s.respond r .notSupported [])
      | 2 =>
        let s := s.setRegion rid { rg with talus := decide (v = 1) }
        .next ((if v = 1 then s else s.holdTable rid).respond r .ok (one 0))
      | 3 =>
        if !s.mirrorOk rg.mode rg.encrypt v then .next (s.respond r .notSupported [])
        else if v = rg.mirror then .next (s.respond r .ok (one 0))
        else
          let s := if rg.mirror = 0 then s else (s.emit (.journal rg.mirror (s.keyOf rid) (.region rg.base 0 rg.attr rg.creator rg.version))).unmirror rid
          if v = 0 then .next (s.respond r .ok (one 0))
          else
            let (s, op) := s.startMirror rid v i
            .next (s.respond r .ok (one op))
      | _ => .next ((s.setRegion rid { rg with absentFault := decide (v = 1) }).respond r .ok (one 0))

/-! ### Grants -/

/-- The rights of word 3 of GRANT and REVOKE (R568). -/
def grantRights (w : Nat) : Rights := { r := bitAt w 13, w := bitAt w 14, a := bitAt w 15, p := bitAt w 16, e := bitAt w 17 }

/-- GRANT or REVOKE names a context of this controller that is not ACTIVE (R575). -/
def State.grantCtxBad (s : State) (r : BciReq) : Bool :=
  decide (r.w 2 = s.lmf.eid) && !bitAt (r.w 3) 12 && !s.ctxOk (fld (r.w 3) 11 0)

/-- Add rights to a grant of the same form, or a new grant (R66). -/
def grantTo (gs : List Grant) (eid ctx : Nat) (any : Bool) (x : Rights) : List Grant :=
  if gs.any (fun g => decide (g.eid = eid) && decide (g.any = any) && (any || decide (g.ctx = ctx))) then
    gs.map (fun g => if g.eid = eid ∧ g.any = any ∧ (any = true ∨ g.ctx = ctx) then { g with rights := g.rights.or x } else g)
  else if x.some? then gs ++ [{ eid := eid, ctx := if any then 0 else ctx, any := any, rights := x }]
  else gs

/-- Grants of the home (R65). -/
def State.grantCount (s : State) : Nat := (s.home.regions.map (fun e => e.2.grants.length)).sum

/-- GRANT (R63 to R66, R575, R784). -/
def execGrant (r : BciReq) (s : State) : Result :=
  bciServe .grant { BciRow.o 35 3 with resv := fun r => above r 2 18 || above r 3 18 } r s fun r _ s =>
    s.named r (r.w 1) fun rid rg =>
      let eid := r.w 2
      let any := bitAt (r.w 3) 12
      if rg.mode = .priv then .next (s.respond r .notSupported [])
      else if s.grantCtxBad r then .next (s.respond r .state [])
      else if rg.mode = .coherent ∧ s.inTeam eid = false ∧ (s.agentIdx eid).isNone = true then .next (s.respond r .notSupported [])
      else if s.sealed rg eid = false then .next (s.respond r .notSupported [])
      else
        let gs := grantTo rg.grants eid (fld (r.w 3) 11 0) any (grantRights (r.w 3))
        if 1048576 < s.grantCount + (gs.length - rg.grants.length) then .next (s.respond r .quota [])
        else
          let s := (s.setRegion rid { rg with grants := gs }).commit.giveKey eid rid
          let now := (gs.find? (fun g => decide (g.eid = eid) && decide (g.any = any) && (any || decide (g.ctx = fld (r.w 3) 11 0)))).map (fun g => g.rights.bits)
          let s := if rg.mirror = 0 then s else s.emit (.journal rg.mirror (r.w 1) (.grant eid (fld (r.w 3) 11 0) any (now.getD 0)))
          .next (s.respond r .ok [])

/-- REVOKE (R63, R66, R315, R575, R786): it waits for the accesses that passed under the grant. -/
def execRevoke (r : BciReq) (s : State) : Result :=
  bciServe .revoke { BciRow.o 36 3 with resv := fun r => above r 2 18 || above r 3 18 } r s fun r _ s =>
    s.named r (r.w 1) fun rid rg =>
      let eid := r.w 2
      let ctx := fld (r.w 3) 11 0
      let any := bitAt (r.w 3) 12
      if rg.mode = .priv then .next (s.respond r .notSupported [])
      else if s.grantCtxBad r then .next (s.respond r .state [])
      else if rg.grants.any (fun g => decide (g.eid = eid) && decide (g.any = any) && (any || decide (g.ctx = ctx))) then
        let w : RevokeWait := { id := s.nextId, r := r, rid := rid, eid := eid, ctx := ctx, any := any, rights := grantRights (r.w 3), asked := false }
        .next (State.revokeStep { s with nextId := s.nextId + 1, home.revokes := s.home.revokes ++ [w] } w)
      else .next (s.respond r .ok [])

/-! ### MAP and UNMAP -/

/-- A translation entry as its 64 bits (R70). -/
def entryWord (v : Bool) (kind : Nat) (ro : Bool) (target : BitVec 40) : BitVec 64 :=
  BitVec.ofNat 64 (b2n v + 2 * kind + 8 * b2n ro + 256 * target.toNat)

/-- The pages an entry of a level covers. -/
def levelPages (level : Nat) : Nat := match level with | 1 => 16384 | 2 => 32 | _ => 1

/-- The level of the root of a region's table. -/
def Region.rootLevel (r : Region) : Nat := if r.size ≤ 2097152 then 3 else if r.size ≤ 1073741824 then 2 else 1

/-- The entry of a level for a page of a region (R70, R71): a leaf, a pointer to the next table, or an absent entry of its kind; none where the region's
table has no entry of that level there. -/
def Region.tableEntry (r : Region) (rid level p : Nat) : Option (BitVec 64) :=
  let n := levelPages level
  let first := r.base / 65536 + (p - r.base / 65536) / n * n
  if level < r.rootLevel ∨ 3 < level then none
  else match r.entry p with
    | .leaf h ro st c =>
      if c = n then some (entryWord true 1 ro (BitVec.ofNat 40 (h + (p - st) / n * n)))
      else if c < n then some (entryWord true 0 false (Config.tableAt rid (level + 1) first))
      else none
    | e =>
      if n = 1 ∨ r.entries.all (fun x => decide (x.1 < first ∨ first + n ≤ x.1)) = true then some (entryWord false (if e = .fault then 1 else 0) false 0)
      else some (entryWord true 0 false (Config.tableAt rid (level + 1) first))

/-- Cut the leaves that a range of pages meets only in part into whole smaller leaves (R71). -/
def Region.cut (r : Region) (p n : Nat) : Region :=
  { r with entries := r.entries.map (fun e =>
      match e.2 with
      | .leaf h ro st c =>
        if c = 1 ∨ (p ≤ st ∧ st + c ≤ p + n) ∨ st + c ≤ p ∨ p + n ≤ st then e
        else
          let b := st + (e.1 - st) / 32 * 32
          if c = 16384 ∧ (b + 32 ≤ p ∨ p + n ≤ b) then (e.1, .leaf (h + (b - st)) ro b 32) else (e.1, .leaf (h + (e.1 - st)) ro e.1 1)
      | _ => e) }

/-- Take the pages of a range out of a region's table: each entry becomes absent of the region's policy; the handles that stood
there are answered (R78). What refers to a demand-zero page of the range keeps a page of zeros (R80, R81). -/
def State.takeOut (s : State) (rid p n : Nat) : State × List (Nat × Nat) :=
  let s := (upto n).foldl (fun (s : State) k => match (s.region? rid).map (fun r => r.entry (p + k)) with | some Entry.zero => s.parkZero rid (p + k) | _ => s) s
  match s.region? rid with
  | none => (s, [])
  | some rg =>
    let rg := rg.cut p n
    let hs := (upto n).filterMap (fun k => (rg.handleOf (p + k)).map (fun h => (p + k, h)))
    let absent : Entry := if rg.absentFault then .fault else .zero
    (s.setRegion rid { rg with entries := (upto n).foldl (fun (t : Tab Entry) k => Tab.set t (p + k) absent) rg.entries }, hs)

/-- Free handles that are no longer mapped (R78); a mirrored home tells its partner of the shadow pages that go (R193). -/
def State.freeHandles (s : State) (rid : Nat) (hs : List (Nat × Nat)) : State :=
  hs.foldl (fun (s : State) e =>
    let s := match s.region? rid, s.handle? e.2 with
      | some rg, some hd => if rg.mirror = 0 then s else hd.shadows.foldl (fun (s : State) (w : Shadow) => s.emit (.journal rg.mirror (s.keyOf rid) (.shadowEnd e.1 w.eid w.ctx))) s
      | _, _ => s
    (s.setPages (Tab.modify s.home.pages e.2 (fun hd => { hd with mapped := false }))).collect e.2) s

/-- A page's placement under a region's policy where it comes from another region: charged to the creator (R113), with a backing
copy or without one (R107), and its image encrypted as the region's images are (R166, R168). Its TL copy does not come with it (DESIGN CHOICE, log 29). -/
def State.conform (s : State) (src rg : Region) (pageNo : Nat) (p : TierPage) : TierPage :=
  let b : Backing := match rg.policy.place with
    | .t0Only => .none
    | .pinT1 => .t1
    | _ => if p.backing = .none then s.newBacking rg else p.backing
  let tweak := pageTweak pageNo 0 none
  let im : Option Image := match b, p.image with
    | .none, _ => none
    | b, none => rg.zeroImage b tweak
    | b, some im =>
      some (im.rekey (if im.keyclass then s.sec.atRest else src.dkey) (rg.encrypt || decide (b = .t2)) (decide (b = .t2) && !rg.encrypt)
        (if rg.encrypt then rg.dkey else s.sec.atRest) tweak)
  { p.dropTl with
    charge := rg.creator, move := none, due := false, backing := b, image := im, t0 := if b = .none ∨ p.backing = .none then .dirty else p.t0 }

/-- Put one page of a leaf of `c` pages, whose first page is `st` and first handle `h0`, into a region's table: the page given, or
a zero-filled one. What referred to the page while its entry was of the fault kind refers to this one. -/
def State.putPage (s : State) (rid h0 st c : Nat) (ro : Bool) (p : Nat) (page : Option (Region × TierPage)) : State :=
  match s.region? rid with
  | none => s
  | some rg =>
    let h := h0 + (p - st)
    let s := if rg.policy.place = .t0Only then s.roomT0 else s
    let pg := match page with
      | some (src, q) => s.conform src rg p q
      | none => s.zeroPage rg p
    let pg := if rg.policy.place = .pinT0 ∧ pg.t0 = .none then pg.start .fill else pg
    let refs := match s.handle? h with | some q => q.refs | none => []
    let hd : Handle := { rid := rid, pageNo := p, mapped := true, ver := 0, pub := pg, shadows := [], olds := [], refs := refs ++ s.zeroHolders rid p }
    { s with
      home.zeroCaps := s.home.zeroCaps.filter (fun (e : Nat × Nat × Nat) => !(decide (e.1 = rid) && decide (e.2.1 = p)))
      home.pages := Tab.set s.home.pages h hd
      home.nextHandle := max s.home.nextHandle (h + 1)
      home.regions := Tab.set s.home.regions rid { rg with entries := Tab.set rg.entries p (.leaf h0 ro st c) } }

/-- Give handles new numbers in the pages of a descriptor. -/
def renumCaps (f : Nat → Nat) (c : Caps) : Caps := c.map (fun e => (e.1, e.2.1, if e.2.2 = 0 then 0 else f (e.2.2 - 1) + 1))

/-- A page transferred under a large leaf takes the handle the leaf gives it (R71): every reference to it follows. -/
def State.renumber (s : State) (f : Nat → Nat) : State :=
  { s with
    home.memops := s.home.memops.map (fun (m : MemOp) => { m with pages := renumCaps f m.pages })
    kernels := s.kernels.map (fun (k : KernelQ) => { k with pages := renumCaps f k.pages })
    mor.batches := s.mor.batches.map (fun (b : Batch) => { b with pages := renumCaps f b.pages })
    trav.queries := s.trav.queries.map (fun (q : Query) => { q with pages := renumCaps f q.pages })
    expert.batches := s.expert.batches.map (fun (b : MicroBatch) => { b with pages := renumCaps f b.pages })
    cores := s.cores.map (fun (e : Nat × Core) => (e.1, { e.2 with
      kernel := e.2.kernel.map (fun k => { k with pages := renumCaps f k.pages })
      saved := e.2.saved.map (fun v => { v with kernel := { v.kernel with pages := renumCaps f v.kernel.pages } }) }))
    home.held := s.home.held.map (fun (h : Held) => match h.why with
      | .recovery (.pub n) => { h with why := .recovery (.pub (f n)) }
      | _ => h) }

/-- Pages of a granule (R568). -/
def granulePages (g : Nat) : Nat := match g with | 1 => 32 | 2 => 16384 | _ => 1

/-- The pages that MAP installs: each page number of the range with what comes there: nothing (a zero-filled page) or a handle
taken from the source. -/
def State.install (s : State) (rid p n c : Nat) (ro : Bool) (src : Nat → Option Nat) : State :=
  (upto (n / c)).foldl (fun (s : State) b =>
    let st := p + b * c
    let own : Option Nat := if c = 1 then src st else none
    let h0 := match own with | some h => h | none => alignUp s.home.nextHandle c
    let f := fun h => match (upto c).find? (fun k => decide (src (st + k) = some h)) with | some k => h0 + k | none => h
    let s := if c = 1 then s else s.renumber f
    (upto c).foldl (fun (s : State) k =>
      match src (st + k) with
      | none => s.putPage rid h0 st c ro (st + k) none
      | some h =>
        let page : Option (Region × TierPage) := match s.handle? h, s.regionOfRef (.pub h) with | some hd, some src => some (src, hd.pub) | _, _ => none
        let refs := match s.handle? h with | some hd => hd.refs | none => []
        let s := if h = h0 + k then s else s.setPages (Tab.erase s.home.pages h)
        let s := s.putPage rid h0 st c ro (st + k) page
        s.setPages (Tab.modify s.home.pages (h0 + k) (fun hd => { hd with refs := refs ++ hd.refs.filter (fun x => decide (x ∉ refs)) }))) s) s

/-- A MAP with KEEP = 1: RO of each leaf in the range (R868). -/
def mapKeep (r : BciReq) (rid p n : Nat) (rg : Region) (s : State) : Result :=
  let first := match rg.entry p with | .leaf _ _ st _ => decide (st = p) | _ => false
  let last := match rg.entry (p + n - 1) with | .leaf _ _ st c => decide (st + c = p + n) | _ => false
  let all := (upto n).all (fun k => (rg.handleOf (p + k)).isSome)
  if first && last && all then
    let ro := bitAt (r.w 6) 2
    .next ((s.setRegion rid { rg with entries := rg.entries.map (fun e => if p ≤ e.1 ∧ e.1 < p + n then
      (match e.2 with | .leaf h _ st c => (e.1, Entry.leaf h ro st c) | x => (e.1, x)) else e) }).respond r .ok [])
  else .next (s.respond r .state [])

/-- MAP (R71, R72, R76, R78, R114, R570, R866 to R868). -/
def execMap (r : BciReq) (s : State) : Result :=
  bciServe .map { BciRow.o 37 9 with resv := fun r => offResv r 2 || above r 6 5 || (bitAt (r.w 6) 3 && offResv r 8) } r s fun r _ s =>
    let off := r.d 2
    let len := r.d 4
    let g := fld (r.w 6) 1 0
    let ro := bitAt (r.w 6) 2
    let src := bitAt (r.w 6) 3
    let keep := bitAt (r.w 6) 4
    if off % 65536 ≠ 0 ∨ len % 65536 ≠ 0 ∨ len = 0 ∨ (keep = false ∧ g = 3) ∨ (keep = true ∧ src = true) ∨ (src = true ∧ r.d 8 % 65536 ≠ 0) then
      .next (s.respond r .notSupported [])
    else s.named r (r.w 1) fun rid rg =>
      let p := off / 65536
      let n := len / 65536
      let c := granulePages g
      if rg.inside off len = false then .next (s.respond r .key [])
      else if keep then mapKeep r rid p n rg s
      else if (off - rg.base) % (c * 65536) ≠ 0 ∨ len % (c * 65536) ≠ 0 then .next (s.respond r .notSupported [])
      else if src = false then
        if s.space rg n false = false then .next (s.respond r .quota [])
        else
          let (s, old) := s.takeOut rid p n
          .next (((s.freeHandles rid old).install rid p n c ro (fun _ => none)).respond r .ok [])
      else s.named r (r.w 7) fun srid srg =>
        let q := r.d 8 / 65536
        if srg.mode ≠ .priv then .next (s.respond r .notSupported [])
        else if srg.inside (r.d 8) len = false then .next (s.respond r .key [])
        else if (upto n).any (fun k => decide (srg.entry (q + k) = .fault)) then .next (s.respond r .state [])
        else
          let zeros := ((upto n).filter (fun k => (srg.handleOf (q + k)).isNone)).length
          if s.space rg zeros false = false then .next (s.respond r .quota [])
          else
            let (s, taken) := s.takeOut srid q n
            let (s, old) := s.takeOut rid p n
            let s := s.freeHandles rid old
            .next ((s.install rid p n c ro (fun x => (taken.find? (fun e => decide (e.1 + p = x + q))).map Prod.snd)).respond r .ok [])

/-- UNMAP (R76, R78, R866). -/
def execUnmap (r : BciReq) (s : State) : Result :=
  bciServe .unmap { BciRow.o 38 5 with resv := fun r => offResv r 2 } r s fun r _ s =>
    let off := r.d 2
    let len := r.d 4
    if off % 65536 ≠ 0 ∨ len % 65536 ≠ 0 ∨ len = 0 then .next (s.respond r .notSupported [])
    else s.named r (r.w 1) fun rid rg =>
      if rg.inside off len = false then .next (s.respond r .key [])
      else
        let (s, old) := s.takeOut rid (off / 65536) (len / 65536)
        .next ((s.freeHandles rid old).respond r .ok [])

/-- The bound windows of a function, or those of them that are bound to one context (R397): HPA base, size and window. -/
def State.windowsOf (s : State) (port fn : Nat) (ctx : Option Nat) : List (Nat × Nat × HostWindow) :=
  (s.hport port).decs.filterMap (fun d => match d.2.win with
    | some w => if w.fn = fn ∧ d.2.committed = true ∧ (ctx = none ∨ ctx = some w.ctx) then some (d.2.hpa, d.2.size, w) else none
    | none => none)

/-- Host view to device view through a function's windows (R48, R49): local offset and key. -/
def State.h2d (s : State) (port fn : Nat) (ctx : Option Nat) (hpa : Nat) : Option (Nat × Nat) :=
  ((s.windowsOf port fn ctx).find? (fun w => decide (w.1 ≤ hpa) && decide (hpa < w.1 + w.2.1))).map (fun w => (hpa - w.1 + w.2.2.dev, w.2.2.key))

/-- Device view to host view, by the window with the lowest HPA_BASE (R49, R50). -/
def State.d2h (s : State) (port fn : Nat) (ctx : Option Nat) (off : Nat) : Option Nat :=
  (((s.windowsOf port fn ctx).filter (fun w => decide (w.2.2.dev ≤ off) && decide (off < w.2.2.dev + w.2.1))).foldl
    (fun (b : Option (Nat × Nat × HostWindow)) w => match b with | none => some w | some x => if w.1 < x.1 then some w else some x) none).map
    (fun w => w.1 + off - w.2.2.dev)

/-- CONVERT (R44, R48 to R50). -/
def execConvert (r : BciReq) (s : State) : Result :=
  bciServe .convert { BciRow.f 39 (if r.w 1 = 1 then 4 else 3) with resv := fun r => decide (1 < r.w 1) || (decide (r.w 1 = 1) && above r 4 6) } r s fun r _ s =>
    match r.src with
    | .fn p f =>
      if r.w 1 = 0 then
        match s.h2d p f none (r.d 2) with
        | some (off, key) =>
          let ptr := s.lmf.eid * 2 ^ 52 + off
          .next (s.respond r .ok (two ptr ++ one (ptr / 2 ^ 64) ++ one key))
        | none => .next (s.respond r .key [])
      else
        let ptr := r.d 2 + 2 ^ 64 * r.w 4
        if ptr / 2 ^ 52 ≠ s.lmf.eid then .next (s.respond r .key [])
        else match s.d2h p f none (ptr % 2 ^ 52) with
          | some h => .next (s.respond r .ok (two h))
          | none => .next (s.respond r .key [])
    | _ => .next (s.respond r .key [])

/-! ### The fault ring -/

/-- FAULT_RING_SET (R87, R615): both indices become 0, and every unresolved record is written. -/
def execFaultRingSet (r : BciReq) (s : State) : Result :=
  bciServe .faultRingSet { BciRow.o 40 3 with resv := fun r => offResv r 2 } r s fun r _ s =>
    s.named r (r.w 1) fun _ rg =>
      if rg.inside (r.d 2) 262144 = false then .next (s.respond r .key [])
      else
        let o := s.host.owner
        let s := s.setFnWin o 0 { s.fnWin o 0 with faultProd := 0, faultCons := 0 }
        let s := { s.rsFn o 0 with
          home.faultRings := Tab.set s.home.faultRings o { key := r.w 1, off := r.d 2, log2 := 13 }
          home.faults := s.home.faults.map (fun (f : FaultRec) => { f with written := false }) }
        .next (s.faultFlush.respond r .ok [])

/-- Suspended kernels whose fault has been resolved: they may resume, or they end with a status (R90, R92, R374, R381). -/
def State.resolveSaved (s : State) (seq : Nat) (abort : Option Status) : State :=
  match abort with
  | none =>
    let s :=
      { s with cores := s.cores.map (fun (e : Nat × Core) => (e.1, { e.2 with saved := e.2.saved.map (fun v =>
          if v.held.any (fun h => decide (h.why = .fault seq)) then { v with resolved := true } else v) })) }
    (upto 4).foldl State.restoreNext s
  | some st => s.abortSaved seq 12 st

end Sys2Proof.Machine
end

