-- ==== Sys2Proof/Machine/Tiers.lean ====
section
/-! DEFINITION. Strata (03) and the storage stack (04): TIER_SET, drains, page moves, the lent tier, page groups, slot decode, recovery and scrub. -/

namespace Sys2Proof.Machine

/-- TIER_SET (R130, R131): every field in its range, or no change. -/
def execTierSet (r : BciReq) (s : State) : Result :=
  bciServe .tierSet { BciRow.o 48 3 with minor := some 0 } r s fun r _ s =>
    let h := r.w 1
    let p0 := fld (r.w 2) 7 0
    let p1 := fld (r.w 2) 15 8
    let ip := fld (r.w 2) 19 16
    let ie := fld (r.w 2) 23 20
    if h < 10 ∨ 1000000 < h ∨ p0 = 0 ∨ p1 = 0 ∨ ip = 0 ∨ ie = 0 ∨ fld (r.w 2) 31 24 ≠ 0 ∨ fld (r.w 3) 31 16 ≠ 0 then
      .next (s.respond r .notSupported [])
    else
      let cur := s.halfLifeNs / 1000000
      let ns := h * 1000000
      let t := { s.strata with
        halfLife := cur, nextHalfLife := if h = cur then none else some (h, (s.now / ns + 1) * ns),
        promoteT0 := p0, promoteT1 := p1, incPort := ip, incEngine := ie, minAge := fld (r.w 3) 15 0 }
      .next (({ s with strata := t }).respond r .ok [])

/-! ### The lent tier -/

/-- Pages with a TL copy in an extent. -/
def State.tlCopies (s : State) (ext : Nat) : Nat := (s.allPages.filter (fun e => decide (e.2.tl = some ext))).length

/-- Change every tier page. -/
def State.mapPages (s : State) (f : TierPage → TierPage) : State := s.mapRefs (fun _ => f)

/-- Invalidate the TL copies of an extent and abandon the fills to it (R133, R142). -/
def State.dropTl (s : State) (ext : Nat) : State :=
  s.mapPages (fun p => { (if p.tl = some ext then p.dropTl else p) with
    move := p.move.filter (fun m => m.retiring || decide (m.kind ≠ .tlFill ext)) })

/-- Is a read in flight to an extent? -/
def State.tlReading (s : State) (ext : Nat) : Bool :=
  s.lmf.tags.any (fun e => match e.2.live with | some t => (match t.what with | .tlRead _ x => decide (x = ext) | _ => false) | none => false)

/-- Set an extent's state. -/
def State.setExtent (s : State) (ext : Nat) (f : Extent → Extent) : State :=
  { s with strata.extents := Tab.modify s.strata.extents ext f }

/-- An extent is GONE: its key is destroyed, and a drain of it ends (R133, R143, R172). -/
def State.extentGone (s : State) (ext : Nat) : State :=
  let s := s.setExtent ext (fun e => { e with st := .gone, key := 0 })
  match s.opOf (.drainTL ext) with
  | some o => s.endOp o.id 1 .ok
  | none => s

/-- A LOST extent is GONE once no read is in flight to it (R133). -/
def State.settleExtent (s : State) (ext : Nat) : State :=
  match Tab.get? s.strata.extents ext with
  | some e => if e.st = .lost ∧ s.tlReading ext = false then s.extentGone ext else s
  | none => s

/-- An extent is lost: link loss, a new incarnation or a fence of the lender, or a TL read error (R133, R137, R172). -/
def State.loseExtent (s : State) (ext : Nat) : State :=
  match Tab.get? s.strata.extents ext with
  | some e =>
    if e.st = .active ∨ e.st = .recalling then ((s.dropTl ext).setExtent ext (fun e => { e with st := .lost, key := 0 })).settleExtent ext
    else s
  | none => s

/-- Every extent of a lender is lost. -/
def State.loseLender (s : State) (eid : Nat) : State :=
  (s.strata.extents.filter (fun e => decide (e.2.eid = eid))).foldl (fun (s : State) e => s.loseExtent e.1) s

/-- LEND_OFFER (R133, R172, R173): accepted as the owning host's policy (DESIGN CHOICE, log 16), the extent becomes ACTIVE. -/
def execLendOffer (eid inc ext sizeGiB lkey : Nat) (s : State) : Result :=
  whenUp s fun s =>
    let open_ : Bool := match Tab.get? s.strata.extents ext with
      | some e => decide (e.st = .gone)
      | none => true
    if decide (s.judge eid inc = .current) && decide (3 ≤ s.verOf eid) && open_ && decide (sizeGiB ≠ 0) then
      let e : Extent := { eid := eid, inc := inc, gib := sizeGiB, lkey := lkey, st := .active, graceEnd := 0, sealNext := 0, key := s.nextId }
      .next { s with
        strata.extents := Tab.set s.strata.extents ext e
        nextId := s.nextId + 1 }
    else .next s

/-- LEND_RECALL (R133): no new copy is placed, and those that stand are invalidated. -/
def execLendRecall (eid inc ext graceUs : Nat) (s : State) : Result :=
  whenUp s fun s =>
    match Tab.get? s.strata.extents ext with
    | none => .next s
    | some e =>
      if e.eid = eid ∧ e.inc = inc ∧ e.st = .active ∧ 1000 ≤ graceUs ∧ graceUs ≤ 10000000 then
        .next ((s.setExtent ext (fun e => { e with st := .recalling, graceEnd := s.now + graceUs * 1000 })).dropTl ext)
      else .next s

/-- LEND_GRACE_EXPIRY (R133, R143, R172): the last copy is invalidated or the grace time ends; LEND_RELEASED goes to the lender. -/
def execLendGraceExpiry (ext : Nat) (s : State) : Result :=
  whenUp s fun s =>
    match Tab.get? s.strata.extents ext with
    | none => .next s
    | some e =>
      if e.st = .recalling ∧ (s.tlCopies ext = 0 ∨ e.graceEnd ≤ s.now) then
        .next (((s.dropTl ext).emit (.evt e.eid 7 [ext])).extentGone ext)
      else .next (s.settleExtent ext)

/-! ### Drains -/

/-- Pages of a region whose backing copy is in T0 only, or in a backing tier. -/
def State.backed (s : State) (rid : Nat) (inT0 : Bool) : Nat := ((s.regionPages rid).filter (fun e => decide (e.2.backing = .none) == inT0)).length

/-- What is left of a long operation of placement, in its unit, and whether it is complete; none for another kind (R117, R143, R870). -/
def State.opLeft (s : State) : OpKind → Option (Nat × Bool)
  | .toT0Only rid => some (s.backed rid false, decide (s.backed rid false = 0))
  | .fromT0Only rid => some (s.backed rid true, decide (s.backed rid true = 0))
  | .drainT0 => let n := (s.allPages.filter (fun e => e.2.due)).length; some (n, decide (n = 0))
  | .drainT1 => some (s.t1Used, decide (s.t1Used = 0))
  | .drainTL x => some (s.tlCopies x, false)
  | _ => none

/-- Start the moves that are due, report the progress of drains and conversions, and end those that have nothing left (R16, R143, R870). -/
def State.tierOps (s : State) : State :=
  let s := s.kick
  (s.bci.ops.filter (fun o => decide (o.st = 0))).foldl (fun (s : State) o =>
    match s.opLeft o.kind with
    | some (n, done) =>
      let s := s.opProgress o.id (o.total - n)
      if done then s.endOp o.id 1 .ok else s
    | none => s) s

/-- Is there a page of a PIN_T1 region (R144)? -/
def State.hasPinT1 (s : State) : Bool :=
  s.home.pages.any (fun e => match s.region? e.2.rid with | some r => decide (r.policy.place = .pinT1) | none => false)

/-- The drain a target names (R143). -/
def drainKind (r : BciReq) : OpKind := match r.w 1 with | 0 => .drainT0 | 1 => .drainTL (r.w 2) | _ => .drainT1

/-- Begin a drain (R143): the pages it moves are marked, or its extent's copies invalidated. The extent has 10 s of grace, the longest LEND_RECALL
gives (DESIGN CHOICE, log 29). Promotions to T1 under way are abandoned (R145). -/
def State.beginDrain (s : State) (k : OpKind) : State :=
  match k with
  | .drainT0 => s.mapPages (fun p => { p with due := decide (p.t0 = .dirty ∧ p.backing ≠ .none) })
  | .drainTL x => (s.setExtent x (fun e => { e with st := .recalling, graceEnd := s.now + 10000000000 })).dropTl x
  | _ => s.mapPages (fun p => { p with move := p.move.filter (fun m => m.retiring || decide (m.kind ≠ .toT1)) })

/-- What a drain has to do, in its unit. -/
def State.drainTotal (s : State) (k : OpKind) : Nat :=
  match k with
  | .drainT0 => (s.allPages.filter (fun e => decide (e.2.t0 = .dirty ∧ e.2.backing ≠ .none))).length
  | .drainTL x => s.tlCopies x
  | _ => s.t1Used

/-- Does T2 lack the free space to receive T1 (R144)? -/
def State.t2Lacks (s : State) : Bool :=
  decide (s.t2Cap - s.t2Bytes < (s.allPages.map (fun e => if e.2.backing = .t1 then e.2.footprint else 0)).sum)

/-- TIER_DRAIN (R143 to R145, R582). An extent that is not ACTIVE, or not lent, is answered with ST_STATE (log 16). -/
def execTierDrain (r : BciReq) (s : State) : Result :=
  bciServe .tierDrain { BciRow.o 49 2 with minor := some 0, resv := fun r => decide (2 < r.w 1) } r s fun r i s =>
    let k := drainKind r
    let bad : Option Status :=
      if (s.opOf k).isSome then some .state
      else match k with
        | .drainT1 => if s.hasPinT1 || decide (s.strata.t2Pages = 0) then some .state else if s.t2Lacks then some .quota else none
        | .drainTL x => (match Tab.get? s.strata.extents x with | some e => if e.st = .active then none else some .state | none => some .state)
        | _ => none
    match bad with
    | some st => .next (s.respond r st [])
    | none =>
      let id := s.bci.nextOp
      let s := (s.startOp k (s.drainTotal k) (s.attributed i)).beginDrain k
      .next ((s.respond r .ok (one id)).tierOps)

/-- TIER_DRAIN_CANCEL (R143, R575): moves not yet switched are abandoned; the write-back of a victim is the eviction's, and goes on. -/
def execTierDrainCancel (r : BciReq) (s : State) : Result :=
  bciServe .tierDrainCancel { BciRow.o 50 2 with minor := some 0, resv := fun r => decide (2 < r.w 1) } r s fun r _ s =>
    match s.opOf (drainKind r) with
    | none => .next (s.respond r .state [])
    | some o =>
      let stop (m : Move) : Bool := match drainKind r with
        | .drainT0 => decide (m.kind = .writeBack) && !m.evict
        | .drainT1 => decide (m.kind = .toT2)
        | _ => false
      let t0 := decide (drainKind r = .drainT0)
      let s := s.strataEvent 5 (s.allPages.filter (fun e => match e.2.move with | some m => !m.retiring && stop m | none => false)).length
      let s := s.mapPages (fun p => { p with due := p.due && !t0, move := p.move.filter (fun m => m.retiring || !stop m) })
      .next ((s.endOp o.id 2 .ok).respond r .ok [])

/-! ### Page moves -/

/-- The SWITCH of a move whose copy is complete (R138): the page after it, and the image left to retire. -/
def TierPage.switched (p : TierPage) (m : Move) (im : Option Image) : TierPage := { p with move := some { kind := m.kind, retiring := true, image := im } }

/-- A move is abandoned. -/
def TierPage.abandoned (p : TierPage) : TierPage := { p with move := none }

/-- An image in the form a backing tier holds it in (R170). -/
def State.formFor (s : State) (b : Backing) (im : Image) : Image := match b with | .t2 => im.toT2 s.sec.atRest | _ => im.toT1 s.sec.atRest

/-- A T0 page for the end of a fill: a free one, the victim's, or, where the victim is dirty, none until its write-back has ended (R123, R124,
R126). -/
def State.withT0 (s : State) (f : State → State) : State := if s.roomWait 1 then s.startRoom else f s.roomT0

/-- The lowest place of an extent that holds no copy (R171; DESIGN CHOICE, log 29). -/
def State.freePlace (s : State) (ext : Nat) : Nat :=
  lowestFree ((s.allPages.filterMap (fun e => if e.2.tl = some ext then e.2.tlCopy.map Sealed.place else none)).mergeSort (fun a b => decide (a ≤ b))) 0

/-- Complete a TL fill: the image in its T1 form is sealed under the extent's key and next counter and written to the lender (R134, R135, R165,
R171 to R173). -/
def State.sealInto (s : State) (p : PageRef) (m : Move) (ext : Nat) (e : Extent) (im : Image) : State :=
  let c := Sealed.of (s.formFor .t1 im) (s.freePlace ext) e.key e.sealNext
  let s := s.modPage p (fun q => TierPage.switched { q with tl := some ext, tlCopy := some c } m none)
  let s := s.setExtent ext (fun e => { e with sealNext := e.sealNext + 1 })
  (s.strataEvent 4 1).sendLender (.tlWrite p ext) e (c.place * tlPlace) c.bytes.length (some c.bytes)

/-- The SWITCH of a page's move (R111, R117, R126, R134, R138, R141, R143, R145, R170, R173, R870). -/
def State.switchMove (s : State) (p : PageRef) (q : TierPage) (m : Move) : State :=
  match m.kind with
  | .fill =>
    s.withT0 (fun s => ((s.fetchT2 p).modPage p (fun q => TierPage.switched { q with t0 := if q.t0 = .none then .clean else q.t0 } m none)).strataEvent 0 1)
  | .writeBack =>
    (match m.image with
     | none => s
     | some im =>
       let b := s.backTo q
       let s := s.modPage p (fun q => TierPage.switched { q with t0 := if m.evict then .none else .clean, image := some (s.formFor b im), backing := b, due := false } m q.image)
       let s := s.strataEvent 2 1
       if m.evict then (s.strataEvent 1 1).release (fun w => decide (w = .room)) else s)
  | .toBacking =>
    (match m.image, s.regionOfRef p with
     | some im, some rg =>
       let b := s.newBacking rg
       (s.modPage p (fun q => TierPage.switched { q with t0 := .clean, image := some (s.formFor b im), backing := b } m none)).strataEvent 3 1
     | _, _ => s)
  | .drop => s.modPage p (fun q => TierPage.switched { q with t0 := if q.t0 = .clean then .none else q.t0 } m none)
  | .toT1 =>
    if s.drainingT1 && decide (s.placeOf p ≠ .pinT1) then (s.modPage p TierPage.abandoned).strataEvent 5 1
    else if 0 < s.t1Room then
      (((s.t2Get p).memEvent 2 2 q.footprint p).modPage p (fun q => TierPage.switched { q with backing := .t1, image := q.image.map (s.formFor .t1) } m q.image)).strataEvent 3 1
    else s
  | .toT2 =>
    if 0 < s.t2Room then
      let s := match q.image with | some im => s.t2Put im | none => s
      ((s.memEvent 2 1 q.footprint p).modPage p (fun q => TierPage.switched { q with backing := .t2, image := q.image.map (s.formFor .t2) } m q.image)).strataEvent 3 1
    else s
  | .toT0Only =>
    let go (s : State) : State := s.modPage p (fun q => TierPage.switched { q.dropTl with t0 := .dirty, backing := .none, image := none, due := false } m q.image)
    if q.t0 = .none then s.withT0 (fun s => go (s.fetchT2 p)) else go s
  | .tlFill x =>
    (match Tab.get? s.strata.extents x, q.image with
     | some e, some im => if e.st = .active ∧ q.t0 ≠ .dirty then (s.fetchT2 p).sealInto p m x e im else (s.modPage p TierPage.abandoned).strataEvent 5 1
     | _, _ => (s.modPage p TierPage.abandoned).strataEvent 5 1)

/-- PAGE_MOVE_SWITCH (R138): the location record changes at one instant. A write-back, or a backing copy after T0_ONLY, switches once its page group
has been coded. -/
def execPageMoveSwitch (p : PageRef) (s : State) : Result :=
  whenUp s fun s =>
    match s.page? p with
    | none => .next s.tierOps
    | some q =>
      match q.move with
      | none => .next s.tierOps
      | some m => if m.retiring || q.recovering then .next s.tierOps else .next (s.switchMove p q m).sweepTables.tierOps

/-- SOURCE_RETIRE (R138, R161, R163): the last read of the source has ended, and the source is freed. -/
def execSourceRetire (p : PageRef) (s : State) : Result :=
  whenUp s fun s =>
    match s.page? p with
    | none => .next s
    | some q =>
      match q.move with
      | some m => if m.retiring then .next ((s.modPage p TierPage.abandoned).sweepTables.tierOps) else .next s
      | none => .next s

/-- The older of two pages by last touch; of two touched at the same time, the one with the lower handle (DESIGN CHOICE, log 29). -/
def olderPage (a b : PageRef × TierPage) : Bool :=
  if a.2.touch ≠ b.2.touch then decide (a.2.touch < b.2.touch) else decide (refHandle a.1 < refHandle b.1)

/-- The oldest T1 page that may move to T2 (R128). -/
def State.oldestT1 (s : State) : Option (PageRef × TierPage) :=
  (s.allPages.filter (fun e => decide (e.2.backing = .t1) && decide (e.2.move = none) && (match s.placeOf e.1 with | .auto => true | .stream => true | _ => false))).foldl
    (fun b e => match b with | none => some e | some x => if olderPage e x then some e else some x) none

/-- The free bytes of T1 once the moves to T2 under way have ended. -/
def State.t1Coming (s : State) : Nat :=
  s.t1Free + (s.allPages.map (fun e => match e.2.move with | some m => if m.kind = .toT2 ∧ e.2.backing = .t1 then e.2.footprint else 0 | none => 0)).sum

/-- Start moves of the oldest pages to T2 until 4% of T1 will be free. -/
def State.lowSpace (s : State) : Nat → State
  | 0 => s
  | n + 1 =>
    if s.t1Coming * 100 < s.t1Cap * 4 then
      (match s.oldestT1 with
       | some e => (s.modPage e.1 (fun p => p.start .toT2)).lowSpace n
       | none => s)
    else s

/-- T1_LOW_SPACE_MOVE (R128): below 2% of free space, moves to T2 start until 4% will be free. -/
def execT1LowSpaceMove (s : State) : Result :=
  whenUp s fun s => if s.t1Free * 100 < s.t1Cap * 2 ∧ s.strata.t2Pages ≠ 0 then .next (s.lowSpace s.t1Used) else .next s

/-- HEAT_SWEEP (R119, R120): a counter whose stamp is eight or more periods old becomes zero. -/
def execHeatSweep (s : State) : Result :=
  whenUp s fun s =>
    .next (s.mapPages (fun p => if 8 ≤ (s.period % 65536 + 65536 - p.stamp) % 65536 then { p with heat := 0, stamp := s.period % 65536 } else p))

/-- STRIPE_RECLAIM (R104, R106): the T2 space of a superseded page, one that no longer has a backing copy there, is reclaimed, and deallocated on the
drives. -/
def execStripeReclaim (p : PageRef) (s : State) : Result :=
  whenUp s fun s =>
    let live : Bool := match s.page? p with
      | some q => decide (q.backing = .t2) || (match q.move with | some m => decide (m.kind = .toT1) && m.retiring | none => false)
      | none => false
    if live || decide (s.strata.t2Pages = 0) then .next s
    else .next (State.nvmeAll { s with strata.reclaimed := s.strata.reclaimed + 1, strata.t2Written := s.t2Live } .deallocate
      (Config.location (refHandle p * 4 + 3)) 32)

/-! ### Talus -/

/-- PAGE_GROUP_ENCODE (R155 to R159): 1 to 16 pages of one region that wait for a write to a backing tier are coded. -/
def execPageGroupEncode (pages : List PageRef) (s : State) : Result :=
  whenUp s fun s =>
    let waits (p : PageRef) : Bool := match s.page? p with
      | some q => (match q.move with | some m => !m.retiring && m.image.isNone && decide (m.kind = .writeBack ∨ m.kind = .toBacking) && !q.recovering | none => false)
      | none => false
    match pages with
    | [] => .next s
    | p :: _ =>
      match Tab.get? s.home.pages (refHandle p) with
      | none => .next s
      | some hd =>
        let same := pages.all (fun x => waits x && (match Tab.get? s.home.pages (refHandle x) with | some h => decide (h.rid = hd.rid) | none => false))
        if !same || decide (16 < pages.length) || s.noneInService 0x28 8 then .next s
        else
          let b (q : TierPage) : Backing := if q.backing = .none then (match s.region? hd.rid with | some rg => s.newBacking rg | none => .t1) else s.backTo q
          .next (s.encodeGroup hd.rid pages b (fun im q => { q with move := q.move.map (fun m => { m with image := some im }) }))

/-- The offset of a page reference in its region, and the region's key. -/
def State.whereIs (s : State) (p : PageRef) : Nat × Nat :=
  match Tab.get? s.home.pages (refHandle p) with
  | some hd => (s.keyOf hd.rid, hd.pageNo * 65536)
  | none => (0, 0)

/-- LAYER of a backing copy (R722). -/
def backLayer (p : TierPage) : Nat := match p.backing with | .t2 => 3 | _ => 2

/-- A DIMM without history. -/
def Dimm.fresh : Dimm := { spare := false, failed := false, hot := false }
/-- A DIMM: channel + 16 × its number on the channel (R722). -/
def State.dimm (s : State) (n : Nat) : Dimm := Tab.getD s.strata.dimms n Dimm.fresh

/-- The DIMMs that hold data, those that a running rebuild copies from among them (R100, R726). -/
def State.dimmsUp (s : State) : List Nat :=
  (upto (16 * s.strata.dimmsPer)).filter (fun d => !(s.dimm d).spare && (!(s.dimm d).failed || s.rel.rebuilds.any (fun b =>
    decide (b.part = .dimm) && decide (b.loc = d) && b.running)))

/-- The pseudo-channels that serve, those that a running rebuild copies from among them (R99, R725): stack + 8 × its number there (R722). -/
def State.pcsUp (s : State) : List Nat :=
  (upto 256).filter (fun c => !s.rel.pcFailed.contains c || s.rel.rebuilds.any (fun b => decide (b.part = .pseudoChannel) && decide (b.loc = c) && b.running))

/-- A number for a tier page. -/
def refCode (p : PageRef) : Nat :=
  match p with
  | .pub h => 3 * h
  | .shadow h e c => 3 * ((h * 262144 + e) * 4096 + c) + 1
  | .old h v => 3 * (h * 18446744073709551616 + v) + 2

/-- The parts of a layer that serve. -/
def State.partsUp (s : State) (layer : Nat) : List Nat :=
  match layer with
  | 1 => s.pcsUp
  | 2 => s.dimmsUp
  | 3 => s.group.map Prod.fst
  | _ => []

/-- The one of some parts that holds a page's copy in a layer: the controller's choice, which may change from one access to the next (R869). -/
def State.copyAmong (s : State) (layer : Nat) (xs : List Nat) (p : PageRef) : Nat :=
  xs.getD (Config.location ((refCode p * 4 + layer) * 18446744073709551616 + s.freeCtr) % max 1 xs.length) 0

/-- LOC of a page's copy in a layer (R722). -/
def State.copyAt (s : State) (layer : Nat) (p : PageRef) : Nat := s.copyAmong layer (s.partsUp layer) p

/-- An error record of a page (R722): of the part that holds it, or of the decoder group whose checks it failed (R178). -/
def State.pageError (s : State) (p : PageRef) (cls layer : Nat) (st : Status) (off : Nat) : State :=
  let w := s.whereIs p
  let loc := s.copyAt layer p
  s.error { ErrorNote.of cls st (if cls = 4 then unitAmong 8 32 s.freeCtr else layerUnit layer loc) with layer := layer, loc := loc, key := w.1, off := w.2 + off }

/-- A backing image failed its checks (R178, R142): a record, the page is poisoned pending recovery, and its move is abandoned. -/
def State.corrupt (s : State) (p : PageRef) (layer off : Nat) : State :=
  let room : Bool := match s.page? p with | some q => q.evicting | none => false
  let gone : Bool := match s.page? p with | some q => (match q.move with | some m => !m.retiring | none => false) | none => false
  let s := ((s.pageError p 4 layer .corrupt off).strataEvent 5 (b2n gone)).modPage p (fun q => { q with recovering := true, move := q.move.filter (fun m => m.retiring) })
  if room then s.release (fun w => decide (w = .room)) else s

/-- The key of a KEYCLASS for a page (R147, R166). -/
def State.classKey (s : State) (p : PageRef) (atRest : Bool) : Nat :=
  if atRest then s.sec.atRest else match s.regionOfRef p with | some r => r.dkey | none => 0

/-- Is a table not FREE? -/
def State.tableLive (s : State) (id : Nat) : Bool := Tab.has s.strata.tables id

/-- The code lengths of a table. -/
def State.tableLens (s : State) (id : Nat) : List (List Nat) := match Tab.get? s.strata.tables id with | some t => t.lens | none => []

/-- The extent and the seal of a page's TL copy. -/
def State.tlOf (s : State) (q : TierPage) : Option (Extent × Sealed) :=
  match q.tl, q.tlCopy with
  | some x, some c => (Tab.get? s.strata.extents x).map (fun e => (e, c))
  | _, _ => none

/-- SLOT_DECODE (R174 to R178, R135, R136): the checks of one slot as the medium gives it: for a TL copy the seal block, then the header and the
slot; `media` is none where the medium gives what was written. A TL copy that fails is invalidated, and the read is served from the backing
copy. -/
def execSlotDecode (p : PageRef) (slot : Nat) (media : Option Bytes) (s : State) : Result :=
  whenUp s fun s =>
    match s.page? p with
    | none => .next s
    | some q =>
      match q.image with
      | none => .next s
      | some im =>
        if s.noneInService 8 32 ∨ 16 ≤ slot then .next s
        else
          let good : Bool := match (if q.t0 = .none then s.tlOf q else none) with
            | some (e, c) => (readSealed e.key slot im.tweak (media.getD (c.media slot)) (s.classKey p) s.tableLive s.tableLens).isSome
            | none => (readSlot slot im.tweak (media.getD (im.media slot)) (s.classKey p) s.tableLive s.tableLens).isSome
          let hw := s.pickUnit 8 32 (refHandle p * 16 + slot)
          let s := (((s.cairn hw 0x10 q.charge 0).event hw 1 1 (some q.charge)).event hw 2 4096 (some q.charge)).workEnd hw q.charge (if good then .ok else .corrupt) 0
          if good then .next s
          else if q.t0 = .none ∧ q.tl.isSome = true then .next ((s.modPage p TierPage.dropTl).sweepTables)
          else .next (s.corrupt p (backLayer q) (slot * 4096))

/-- Does every slot of a page's TL copy pass the checks of R174, as the lender gives it? -/
def State.tlGood (s : State) (p : PageRef) (q : TierPage) : Bool :=
  match s.tlOf q, q.image with
  | some (e, c), some im => (upto 16).all (fun i => (readSealed e.key i im.tweak (c.media i) (s.classKey p) s.tableLive s.tableLens).isSome)
  | _, _ => false

/-- Is a source of R179 the first that yields a good image? Parity yields the image that `data` gives, or the one that was written; that it yields none is
known only once it has been tried. -/
def State.sourceOk (s : State) (p : PageRef) (q : TierPage) (src : RecoverySource) (data : Bytes) : Bool :=
  let clean := decide (q.t0 = .clean)
  let tl := s.tlGood p q
  match src with
  | .none => !clean && !tl
  | .t0 => clean
  | .tl => !clean && tl
  | .parity =>
    !clean && !tl && decide (q.backing = .t2) && decide ((s.group.filter (fun e => e.2.failed)).length ≤ 2)
      && (match q.image with
          | some im => (readImage (if data = [] then im.bytes else data) im.tweak (s.classKey p) s.tableLive s.tableLens).isSome
          | none => false)
  | .partner => !clean && !tl && (match s.regionOfRef p with | some r => decide (r.mirror ≠ 0) | none => false) && decide (data.length = 65536)

/-- A new image after recovery (R179). -/
def State.reimage (s : State) (p : PageRef) : State :=
  match s.page? p, Tab.get? s.home.pages (refHandle p) with
  | some q, some hd => if q.backing = .none then s else s.encodeGroup hd.rid [p] TierPage.backing (fun im q => { q with image := some im })
  | _, _ => s

/-- What waits on a page whose recovery has failed: a held host-port write is performed again, and clears the poison of a line it covers whole or is
discarded (R630); everything else completes with ST_POISON (R182). -/
def State.recoveryFailed (s : State) (p : PageRef) : State :=
  let isWrite (h : Held) : Bool := match h.cmd with | .cxlMemWrite _ _ _ _ => true | _ => false
  let s := s.endHolds (fun h => decide (h.why = .recovery p) && !isWrite h) .poison
  s.release (fun w => decide (w = .recovery p))

/-- PAGE_RECOVERY (R179 to R182, R870): the page is restored and what waits is served, or every line is poisoned and what waits
completes with ST_POISON. -/
def execPageRecovery (p : PageRef) (src : RecoverySource) (data : Bytes) (s : State) : Result :=
  whenUp s fun s =>
    match s.page? p with
    | none => .next s
    | some q =>
      if q.recovering = false ∨ s.sourceOk p q src data = false then .next s
      else if src = .none then .next ((((s.pageError p 3 (backLayer q) .poison 0).poisonPage p).recoveryFailed p).bufferFree).tierOps
      else
        let s := s.modPage p (fun q => { q with
          recovering := false
          bytes := if src = .partner then Mem.writeN [] 0 data else q.bytes })
        let s := (s.reimage p).pageError p 2 (backLayer q) .ok 0
        .next (((s.release (fun w => decide (w = .recovery p))).bufferFree).tierOps)

/-- SCRUB (R719, R720): a periodic read of a location of T0, T1 or T2. -/
def execScrub (p : PageRef) (line : Nat) (found : ScrubFound) (s : State) : Result :=
  whenUp s fun s =>
    match s.page? p with
    | none => .next s
    | some q =>
      let layer := if q.t0 = .none then backLayer q else 1
      let s := s.memEvent layer 6 64 p
      match found with
      | .clean => .next s
      | .corrected => .next (s.pageError p 1 layer .ok (line * 64))
      | .uncorrectable =>
        if q.recovering then .next s
        else if q.t0 = .none then .next (s.corrupt p layer (line * 64))
        else if q.t0 = .clean then .next ((s.pageError p 2 1 .ok (line * 64)).modPage p (fun q => { q with t0 := .none })).kick
        else if (match s.regionOfRef p with | some r => decide (r.mirror ≠ 0) | none => false) then
          .next (s.modPage p (fun q => { q with recovering := true }))
        else .next ((s.pageError p 3 1 .poison (line * 64)).modPage p (fun q =>
          { q with poison := if q.poison.contains line then q.poison else line :: q.poison }))

end Sys2Proof.Machine
end

