-- ==== Sys2Proof/Machine/Slaica.lean ====
section
/-! DEFINITION. The Slaica core's front (09, 10): decoding of bundles, the registers a slot reads and writes, the interlock and predication of a slot, exceptions, and the memory and tile-store operands. -/

namespace Sys2Proof.Machine

/-! ### Decoding (R346 to R349, R384 to R386) -/

/-- Format S of a slot (R385). -/
def sOf (w : Nat) : SFmt :=
  { rd := fld w 24 20, ra := fld w 29 25, rb := fld w 34 30, rc := fld w 39 35, type := fld w 43 40, sub := fld w 47 44, imm := BitVec.ofNat 64 (fld w 127 64) }
/-- Format V. -/
def vOf (w : Nat) : VFmt :=
  { vd := fld w 25 20, va := fld w 31 26, vb := fld w 37 32, vc := fld w 43 38, pd := fld w 47 44, type := fld w 51 48, type2 := fld w 55 52,
    sub := fld w 59 56, xs := fld w 64 60 }
/-- Format L; it has no field for an element type (UNVERIFIED, log 17). -/
def lOf (w : Nat) : LFmt :=
  { vd := fld w 25 20, ra := fld w 30 26, rb := fld w 35 31, rc := fld w 40 36, re := fld w 45 41, sub := fld w 49 46,
    type := Config.lType (BitVec.ofNat 128 w) % 12, imm := BitVec.ofNat 64 (fld w 127 64) }
/-- Format M. -/
def mOf (w : Nat) : MFmt :=
  { acc := fld w 21 20, md := fld w 27 24, ma := fld w 31 28, mb := fld w 35 32, ra := fld w 40 36, rb := fld w 45 41, sub := fld w 49 46 }
/-- Format C. -/
def cOf (w : Nat) : CFmt :=
  { ra := fld w 24 20, rb := fld w 29 25, rc := fld w 34 30, sub := fld w 37 35, imm := BitVec.ofNat 64 (fld w 127 64) }

/-- Every listed field is zero. -/
def zeros (l : List Nat) : Bool := l.all (fun v => decide (v = 0))

/-- A scalar instruction, if its reserved and unused fields are zero and its TYPE is accepted (R386). -/
def decodeS (h : SlotHdr) (op w : Nat) : Option Instr :=
  let f := sOf w
  let ok (b : Bool) (i : Instr) : Option Instr := if b && decide (fld w 63 48 = 0) then some i else none
  let alu := zeros [f.rc, f.type, f.sub, f.imm.toNat]
  let imm := f.imm.toNat
  match op with
  | 0x001 => ok alu (.add h f)
  | 0x002 => ok alu (.sub h f)
  | 0x003 => ok (zeros [f.rb, f.rc, f.type, f.sub]) (.addi h f)
  | 0x004 => ok (zeros [f.ra, f.rb, f.rc, f.type, f.sub]) (.li h f)
  | 0x005 => ok alu (.mul h f)
  | 0x006 => ok alu (.mulh h f)
  | 0x007 => ok alu (.mulhu h f)
  | 0x008 => ok alu (.div h f)
  | 0x009 => ok alu (.divu h f)
  | 0x00A => ok alu (.rem h f)
  | 0x00B => ok alu (.and h f)
  | 0x00C => ok alu (.or h f)
  | 0x00D => ok alu (.xor h f)
  | 0x00E => ok alu (.shl h f)
  | 0x00F => ok alu (.shr h f)
  | 0x010 => ok alu (.sra h f)
  | 0x011 => ok alu (.slt h f)
  | 0x012 => ok alu (.sltu h f)
  | 0x013 => ok (zeros [f.rd / 16, f.rc, f.type, imm]) (.pcmp h f)
  | 0x014 => ok (zeros [f.rd / 16, f.rb, f.rc, f.sub, imm] && decide (f.type < 12)) (.pset h f)
  | 0x018 => ok (zeros [f.rc, f.sub, imm] && decide (f.type = 8)) (.fadd h f)
  | 0x019 => ok (zeros [f.rc, f.sub, imm] && decide (f.type = 8)) (.fmul h f)
  | 0x01A => ok (zeros [f.sub, imm] && decide (f.type = 8)) (.ffma h f)
  | 0x01B => ok (zeros [f.rb, f.rc, imm] && decide (f.type ≤ 8)) (.fcvt h f)
  | 0x020 => ok (zeros [f.rb, f.rc] && decide (f.type ≤ 8)) (.ld h f)
  | 0x021 => ok (zeros [f.rd, f.rc] && decide (f.type ≤ 8)) (.st h f)
  | 0x022 => ok (zeros [f.type, imm / 256]) (.amo h f)
  | 0x028 => ok (zeros [f.ra, f.rb, f.rc, f.type, f.sub, imm / 256]) (.smovs h f)
  | 0x029 => ok (zeros [f.rd, f.rb, f.rc, f.type, f.sub, imm / 256]) (.smovt h f)
  | 0x02A => ok (zeros [f.rd / 16, f.rc, f.type, f.sub, imm]) (.mset h f)
  | 0x02B => ok (zeros [f.ra / 16, f.rb, f.rc, f.type, imm]) (.mget h f)
  | 0x02C => ok (zeros [f.rb, f.rc / 16, f.type, imm / 1024]) (if f.sub = 1 then .pcvtD2h h f else .pcvtH2d h f)
  | _ => none

/-- BELAY in a slot of its engine (R321, R423). -/
def decodeBelay (h : SlotHdr) (op w : Nat) : Option Instr :=
  let f := sOf w
  if zeros [f.rd, f.rc, f.type, fld w 63 48] then (if op = 0x7F0 then some (.belayRel h f) else if op = 0x7F1 then some (.belayAcq h f) else none) else none

/-- A vector instruction (R400). -/
def decodeV (h : SlotHdr) (op w : Nat) : Option Instr :=
  let f := vOf w
  let ok (b : Bool) (i : Instr) : Option Instr := if b && decide (fld w 127 65 = 0) then some i else none
  let bin := zeros [f.vc, f.pd, f.type2, f.sub, f.xs]
  let un := zeros [f.vb, f.vc, f.pd, f.type2, f.sub, f.xs]
  let arith := decide (f.type < 12)
  match op with
  | 0x100 => ok (bin && arith) (.vadd h f)
  | 0x101 => ok (bin && arith) (.vsub h f)
  | 0x102 => ok (bin && arith) (.vmul h f)
  | 0x103 => ok (zeros [f.pd, f.type2, f.sub, f.xs] && arith) (.vfma h f)
  | 0x104 => ok (bin && arith) (.vmin h f)
  | 0x105 => ok (bin && arith) (.vmax h f)
  | 0x106 => ok (un && arith) (.vabs h f)
  | 0x107 => ok (un && arith) (.vneg h f)
  | 0x108 => ok (bin && isInt f.type) (.vand h f)
  | 0x109 => ok (bin && isInt f.type) (.vor h f)
  | 0x10A => ok (bin && isInt f.type) (.vxor h f)
  | 0x10B => ok (bin && isInt f.type) (.vshl h f)
  | 0x10C => ok (zeros [f.vc, f.pd, f.type2, f.xs] && isInt f.type) (.vshr h f)
  | 0x110 => ok (zeros [f.vd, f.vc, f.type2, f.xs] && arith) (.vcmp h f)
  | 0x111 => ok (zeros [f.vc, f.type2, f.sub, f.xs] && arith) (.vsel h f)
  | 0x112 => ok (zeros [f.va, f.vb, f.vc, f.pd, f.type2, f.sub] && arith) (.vbcast h f)
  | 0x113 => ok (zeros [f.vb, f.vc, f.pd, f.xs] && decide (f.type ≠ 15 ∧ f.type2 ≠ 15)) (.vcvt h f)
  | 0x114 => ok (un && decide (f.type = 8 ∨ f.type = 9)) (.vexp2 h f)
  | 0x115 => ok (un && decide (f.type = 8 ∨ f.type = 9)) (.vrcp h f)
  | 0x116 => ok (un && decide (f.type = 8 ∨ f.type = 9)) (.vrsqrt h f)
  | 0x117 => ok (zeros [f.vb, f.vc, f.pd, f.type2, f.xs] && decide (f.type ≤ 9)) (.vred h f)
  | _ => none

/-- A load/store-DMA instruction (R405). -/
def decodeL (h : SlotHdr) (op w : Nat) : Option Instr :=
  let f := lOf w
  let ok (b : Bool) (i : Instr) : Option Instr := if b && decide (fld w 63 50 = 0) then some i else none
  match op with
  | 0x300 => ok (zeros [f.rb, f.rc, f.re]) (.vld h f)
  | 0x301 => ok (zeros [f.rb, f.rc, f.re]) (.vst h f)
  | 0x310 => ok (zeros [f.vd, f.re]) (.dmaCopy h f)
  | 0x311 => ok (zeros [f.vd]) (.dmaRw h f)
  | _ => none

/-- A matrix instruction (R410). -/
def decodeM (h : SlotHdr) (op w : Nat) : Option Instr :=
  let f := mOf w
  let ok (b : Bool) (i : Instr) : Option Instr := if b && decide (fld w 127 50 = 0) && decide (fld w 23 22 = 0) then some i else none
  match op with
  | 0x200 => ok (zeros [f.md, f.ra, f.rb]) (.mma h f)
  | 0x201 => ok (zeros [f.md, f.ra, f.rb]) (.mmv h f)
  | 0x202 => ok (zeros [f.acc, f.ma, f.mb]) (.mload h f)
  | 0x203 => ok (zeros [f.ma, f.mb, f.ra, f.rb, f.sub]) (.mdrain h f)
  | 0x204 => ok (zeros [f.md, f.ma, f.mb, f.ra, f.rb, f.sub]) (.mclr h f)
  | _ => none

/-- A control instruction (R419). -/
def decodeC (h : SlotHdr) (op w : Nat) : Option Instr :=
  let f := cOf w
  let ok (b : Bool) (i : Instr) : Option Instr := if b && decide (fld w 63 38 = 0) then some i else none
  match op with
  | 0x401 => ok (zeros [f.ra, f.rb, f.rc, f.sub]) (.br h f)
  | 0x402 => ok (zeros [f.rb, f.rc, f.sub, f.imm.toNat]) (.brx h f)
  | 0x410 => ok (zeros [f.imm.toNat]) (.waitcnt h f)
  | 0x420 => ok (zeros [f.ra, f.rb, f.rc, f.sub, f.imm.toNat]) (.halt h f)
  | _ => none

/-- The header of slot `n` of a core's bundle (R347). -/
def slotHdr (core n w : Nat) : SlotHdr := { core := core, slot := n, pred := fld w 15 12, pneg := bitAt w 16 }

/-- Decode slot `n` from its 128 bits; none is ILLEGAL_OP (R346, R349, R384). NOP's operand bits are ignored (R348). -/
def decodeSlot (core n w : Nat) : Option Instr :=
  let h := slotHdr core n w
  let op := fld w 11 0
  if op = 0 then some (.nop h)
  else if op = 0x7F0 ∨ op = 0x7F1 then (if n < 7 then decodeBelay h op w else none)
  else if n < 2 then decodeS h op w
  else if n < 4 then decodeV h op w
  else if n = 4 then decodeM h op w
  else if n < 7 then decodeL h op w
  else decodeC h op w

/-! ### Registers a slot reads and writes (R349 to R351) -/

/-- The registers of R356. -/
inductive Reg where
  | x (n : Nat) | v (n : Nat) | p (n : Nat) | m (n : Nat) | acc (n : Nat)
  deriving DecidableEq, Repr

/-- X0 and P0 take no writes (R353, R356). -/
def Reg.real : Reg → Bool
  | .x 0 => false
  | .p 0 => false
  | _ => true

/-- A memory pair. -/
def pairRegs (k : Nat) : List Reg := [.x k, .x (k + 1)]

/-- Registers written. -/
def writesOf (c : Instr) : List Reg :=
  (match c with
   | .pcmp _ f => [Reg.p f.rd]
   | .pset _ f => [.p f.rd]
   | .st _ _ => []
   | .smovt _ _ => []
   | .mset _ f => [.m f.rd]
   | .amo _ f => if f.sub = 2 then pairRegs f.rd else [.x f.rd]
   | .pcvtH2d _ f => [.x f.rd, .x (f.rd + 1), .p f.rc]
   | .pcvtD2h _ f => [.x f.rd, .p f.rc]
   | .belayRel _ _ => []
   | .belayAcq _ _ => []
   | .add _ f => [.x f.rd] | .sub _ f => [.x f.rd] | .addi _ f => [.x f.rd] | .li _ f => [.x f.rd] | .mul _ f => [.x f.rd]
   | .mulh _ f => [.x f.rd] | .mulhu _ f => [.x f.rd] | .div _ f => [.x f.rd] | .divu _ f => [.x f.rd] | .rem _ f => [.x f.rd]
   | .and _ f => [.x f.rd] | .or _ f => [.x f.rd] | .xor _ f => [.x f.rd] | .shl _ f => [.x f.rd] | .shr _ f => [.x f.rd]
   | .sra _ f => [.x f.rd] | .slt _ f => [.x f.rd] | .sltu _ f => [.x f.rd] | .fadd _ f => [.x f.rd] | .fmul _ f => [.x f.rd]
   | .ffma _ f => [.x f.rd] | .fcvt _ f => [.x f.rd] | .ld _ f => [.x f.rd] | .smovs _ f => [.x f.rd] | .mget _ f => [.x f.rd]
   | .vcmp _ f => [.p f.pd]
   | .vadd _ f => [.v f.vd] | .vsub _ f => [.v f.vd] | .vmul _ f => [.v f.vd] | .vfma _ f => [.v f.vd] | .vmin _ f => [.v f.vd]
   | .vmax _ f => [.v f.vd] | .vabs _ f => [.v f.vd] | .vneg _ f => [.v f.vd] | .vand _ f => [.v f.vd] | .vor _ f => [.v f.vd]
   | .vxor _ f => [.v f.vd] | .vshl _ f => [.v f.vd] | .vshr _ f => [.v f.vd] | .vsel _ f => [.v f.vd] | .vbcast _ f => [.v f.vd]
   | .vcvt _ f => [.v f.vd] | .vexp2 _ f => [.v f.vd] | .vrcp _ f => [.v f.vd] | .vrsqrt _ f => [.v f.vd] | .vred _ f => [.v f.vd]
   | .vld _ f => [.v f.vd]
   | .mma _ f => [.acc f.acc] | .mmv _ f => [.acc f.acc] | .mclr _ f => [.acc f.acc]
   | _ => []).filter Reg.real

/-- Registers of format S read as plain scalars. -/
def readS (f : SFmt) : List Reg := [.x f.ra, .x f.rb, .x f.rc]

/-- Registers read: operands, the predicate, and a destination that keeps some of its elements. -/
def readsOf (c : Instr) : List Reg :=
  ((match hdrOf c with | some h => [Reg.p h.pred] | none => []) ++
  (match c with
   | .ld _ f => pairRegs f.ra
   | .st _ f => .x f.rb :: pairRegs f.ra
   | .amo _ f => pairRegs f.ra ++ pairRegs f.rb ++ pairRegs f.rc
   | .mget _ f => [.m f.ra]
   | .pcvtD2h _ f => pairRegs f.ra
   | .belayRel _ f => .x f.rb :: pairRegs f.ra
   | .belayAcq _ f => .x f.rb :: pairRegs f.ra
   | .vcmp _ f => [.v f.va, .v f.vb, .p f.pd]
   | .vsel _ f => [.v f.va, .v f.vb, .v f.vd, .p f.pd]
   | .vbcast _ f => [.x f.xs, .v f.vd]
   | .vld _ f => .v f.vd :: pairRegs f.ra
   | .vst _ f => .v f.vd :: pairRegs f.ra
   | .dmaCopy _ f => .x f.rc :: (pairRegs f.ra ++ pairRegs f.rb)
   | .dmaRw _ f => .x f.rc :: .x f.re :: (pairRegs f.ra ++ pairRegs f.rb)
   | .mma _ f => [.m f.ma, .m f.mb, .acc f.acc]
   | .mmv _ f => [.m f.ma, .m f.mb, .acc f.acc]
   | .mload _ f => .m f.md :: .x f.rb :: pairRegs f.ra
   | .mdrain _ f => [.m f.md, .acc f.acc]
   | .brx _ f => [.x f.ra]
   | .waitcnt _ f => [.x f.ra, .x f.rb, .x f.rc]
   | .add _ f => readS f | .sub _ f => readS f | .addi _ f => readS f | .mul _ f => readS f | .mulh _ f => readS f | .mulhu _ f => readS f
   | .div _ f => readS f | .divu _ f => readS f | .rem _ f => readS f | .and _ f => readS f | .or _ f => readS f | .xor _ f => readS f
   | .shl _ f => readS f | .shr _ f => readS f | .sra _ f => readS f | .slt _ f => readS f | .sltu _ f => readS f | .pcmp _ f => readS f
   | .pset _ f => readS f | .fadd _ f => readS f | .fmul _ f => readS f | .ffma _ f => readS f | .fcvt _ f => readS f
   | .smovt _ f => readS f | .mset _ f => readS f | .pcvtH2d _ f => readS f
   | .vadd _ f => [.v f.va, .v f.vb, .v f.vd] | .vsub _ f => [.v f.va, .v f.vb, .v f.vd] | .vmul _ f => [.v f.va, .v f.vb, .v f.vd]
   | .vfma _ f => [.v f.va, .v f.vb, .v f.vc, .v f.vd] | .vmin _ f => [.v f.va, .v f.vb, .v f.vd] | .vmax _ f => [.v f.va, .v f.vb, .v f.vd]
   | .vabs _ f => [.v f.va, .v f.vd] | .vneg _ f => [.v f.va, .v f.vd] | .vand _ f => [.v f.va, .v f.vb, .v f.vd]
   | .vor _ f => [.v f.va, .v f.vb, .v f.vd] | .vxor _ f => [.v f.va, .v f.vb, .v f.vd] | .vshl _ f => [.v f.va, .v f.vb, .v f.vd]
   | .vshr _ f => [.v f.va, .v f.vb, .v f.vd] | .vcvt _ f => [.v f.va, .v f.vd] | .vexp2 _ f => [.v f.va, .v f.vd]
   | .vrcp _ f => [.v f.va, .v f.vd] | .vrsqrt _ f => [.v f.va, .v f.vd] | .vred _ f => [.v f.va, .v f.vd]
   | _ => [])).filter Reg.real

/-- Do two lists of registers share one? -/
def meets (a b : List Reg) : Bool := a.any (fun r => decide (r ∈ b))

/-- The values a slot reads: those it was left before later results replaced them, else the register files as they stand. -/
def mergeRegs (own cur : RegFile) : RegFile :=
  { x := own.x.foldl (fun (t : Tab (BitVec 64)) e => Tab.set t e.1 e.2) cur.x
    v := own.v.foldl (fun (t : Tab (BitVec 32768)) e => Tab.set t e.1 e.2) cur.v
    p := own.p.foldl (fun (t : Tab (BitVec 4096)) e => Tab.set t e.1 e.2) cur.p
    m := own.m.foldl (fun (t : Tab (BitVec 128)) e => Tab.set t e.1 e.2) cur.m }

/-- Leave a waiting slot the present value of a register it reads. -/
def leave (cur own : RegFile) (r : Reg) : RegFile :=
  match r with
  | .x n => if Tab.has own.x n then own else { own with x := Tab.set own.x n (cur.xr n) }
  | .v n => if Tab.has own.v n then own else { own with v := Tab.set own.v n (cur.vr n) }
  | .p n => if Tab.has own.p n then own else { own with p := Tab.set own.p n (cur.pr n) }
  | .m n => if Tab.has own.m n then own else { own with m := Tab.set own.m n (cur.mr n) }
  | .acc _ => own

/-- The slots waiting in a core's queues. -/
def Core.waiting (c : Core) : List QSlot := c.queues.flatMap Prod.snd

/-- Does a slot round by SR_FRM (R366, R393)? The matrix engine rounds RNE. -/
def readsFrm (c : Instr) : Bool :=
  match c with
  | .fadd _ _ => true | .fmul _ _ => true | .ffma _ _ => true | .fcvt _ _ => true
  | .vadd _ f => !isInt f.type | .vsub _ f => !isInt f.type | .vmul _ f => !isInt f.type | .vfma _ f => !isInt f.type
  | .vcvt _ _ => true | .vexp2 _ _ => true | .vrcp _ _ => true | .vrsqrt _ _ => true | .vred _ f => !isInt f.type
  | _ => false

/-- May a slot raise sticky flags (R365)? -/
def sticks (c : Instr) : Bool :=
  match c with
  | .vmin _ f => !isInt f.type | .vmax _ f => !isInt f.type | .vcmp _ f => !isInt f.type
  | .mma _ _ => true | .mmv _ _ => true | .mdrain _ _ => true
  | c => readsFrm c

/-- A status register that SMOVT writes, or that SMOVS reads. -/
def srWritten (c : Instr) : Option Nat := match c with | .smovt _ f => some (f.imm.toNat % 256) | _ => none
/-- The status register that SMOVS reads. -/
def srRead (c : Instr) : Option Nat := match c with | .smovs _ f => some (f.imm.toNat % 256) | _ => none

/-- Must `q` wait for the earlier slot `t` because of SR_FLAGS or SR_FRM (R351, R392)? -/
def srWaits (t q : Instr) : Bool :=
  (sticks t && (decide (srRead q = some 5) || decide (srWritten q = some 5))) || (decide (srWritten t = some 5) && sticks q)
    || (decide (srWritten t = some 6) && readsFrm q)

/-- Does a slot wait for a register that an earlier bundle's slot has still to write (R351)? -/
def Core.interlocked (c : Core) (q : QSlot) : Bool :=
  c.waiting.any (fun t => decide (t.seq < q.seq) &&
    (meets (writesOf t.cmd) (readsOf q.cmd) || meets (writesOf t.cmd) (writesOf q.cmd) || srWaits t.cmd q.cmd))

/-- Slots that read a register the front slot is about to write keep its present value (R350). -/
def Core.save (c : Core) (q : QSlot) : Core :=
  let ws := writesOf q.cmd
  { c with queues := c.queues.map (fun e => (e.1, e.2.map (fun t =>
      if t.seq ≤ q.seq then
        { t with
          regs := ((readsOf t.cmd).filter (fun r => decide (r ∈ ws))).foldl (leave c.regs) t.regs
          frm := if srWritten q.cmd = some 6 ∧ t.frm = none then some c.frm else t.frm
          flags := if sticks q.cmd = true ∧ srRead t.cmd = some 5 ∧ t.flags = none then some c.flags else t.flags }
      else t))) }

/-- Take the front slot out of an engine's queue. -/
def Core.pop (c : Core) (engine : Nat) : Core := { c with queues := Tab.modify c.queues engine List.tail, parts := Tab.erase c.parts engine }

/-- Is an acquire of the engine still waiting (R329)? -/
def Core.acquiring (c : Core) (engine : Nat) : Bool := c.belays.any (fun b => b.acq && decide (b.engine = engine))

/-- The queue slot a command stands for: the front of its engine's queue, free of interlocks and acquires (R323, R329, R351). A core that saves its kernel
performs only what has begun (R381). -/
def State.slotOf (s : State) (cmd : Instr) : Option (SlotHdr × Core × KernelRun × QSlot) :=
  match hdrOf cmd with
  | none => none
  | some h =>
    let c := s.core h.core
    let e := engineOf cmd
    match c.kernel, Tab.getD c.queues e [] with
    | some k, q :: _ =>
      let live : Bool := match c.st with
        | .running => true
        | .stalled => true
        | .draining => true
        | .saving => Tab.has c.parts e || decide (s.replay.map Again.cmd = some cmd)
        | _ => false
      if decide (q.cmd = cmd) && live && !c.interlocked q && !c.acquiring e then some (h, c, k, q) else none
    | _, _ => none

/-- Is a slot that waits on a hold or a transaction to be left alone? A replayed one runs. -/
def State.slotBusy (s : State) (cmd : Instr) : Bool :=
  s.home.held.any (fun h => decide (h.cmd = cmd)) ||
    s.lmf.tags.any (fun e => match e.2.live with | some t => (match t.what with | .kernel _ c => decide (c = cmd) | _ => false) | none => false) ||
    s.lmf.backoffs.any (fun e => match e.2.1.what with | .kernel _ c => decide (c = cmd) | _ => false)

/-- A core that is STALLED runs again once none of its slots is held on a fault (R374). -/
def State.unstall (s : State) (n : Nat) : State :=
  let c := s.core n
  let held := s.home.held.any (fun h => (match coreOf h.cmd with | some x => decide (x = n) | none => false) && (match h.why with | .fault _ => true | _ => false))
  if decide (c.st = .stalled) && !held then
    s.setCore n { c with st := .running, kernel := c.kernel.map (fun k => { k with stalledOn := 0 }) }
  else s

/-- Is the slot performed: bit 0 of its predicate, inverted if PNEG is 1 (R353)? -/
def performed (h : SlotHdr) (r : RegFile) : Bool := xor ((r.pr h.pred).getLsbD 0) h.pneg

/-- Perform the slot at the front of its engine's queue: `body` gets the kernel, the registers the slot sees and the core with the
slot taken out and later readers served; it answers the state. A slot that predication disables does nothing (R353, R354). -/
def slotRun (cmd : Instr) (s : State) (body : SlotHdr → KernelRun → RegFile → QSlot → State → State) : Result :=
  whenUp s fun s =>
    match s.slotOf cmd with
    | none => .next s
    | some (h, c, k, q) =>
      if s.slotBusy cmd then .next s
      else
        let r := mergeRegs q.regs c.regs
        let e := engineOf cmd
        let done (s : State) : State := (s.setCore h.core ((s.core h.core).pop e)).unstall h.core
        let vector := match cmd with | .vld _ _ => true | .vst _ _ => true | _ => decide (h.slot = 2 ∨ h.slot = 3)
        let belay := match cmd with | .belayRel _ _ => true | .belayAcq _ _ => true | _ => false
        if (!vector || belay) && !performed h r then .next (done s)
        else .next (body h k r q (s.setCore h.core (c.save q)))

/-- The slot is done: it leaves its queue. -/
def State.slotDone (s : State) (cmd : Instr) (h : SlotHdr) : State := (s.setCore h.core ((s.core h.core).pop (engineOf cmd))).unstall h.core

/-- The slot raises an exception (R377, R378). -/
def State.slotRaise (s : State) (cmd : Instr) (h : SlotHdr) (q : QSlot) (exc : Nat) (st : Status) : State :=
  s.kernelStop h.core exc st (engineOf cmd) q.bundle

/-- ILLEGAL_OP. -/
def State.illegal (s : State) (cmd : Instr) (h : SlotHdr) (q : QSlot) : State := s.slotRaise cmd h q 2 .notSupported

/-- Change the register files of a core. -/
def State.modRegs (s : State) (n : Nat) (f : RegFile → RegFile) : State :=
  let c := s.core n
  s.setCore n { c with regs := f c.regs }

/-- Raise sticky flags (R365); a slot of a later bundle that waits to read SR_FLAGS sees them too. -/
def State.stick (s : State) (n seq : Nat) (f : FFlags) : State :=
  let c := s.core n
  s.setCore n { c with
    flags := c.flags ||| f.bits
    queues := c.queues.map (fun e => (e.1, e.2.map (fun (t : QSlot) => if seq < t.seq then { t with flags := t.flags.map (· ||| f.bits) } else t))) }

/-- The rounding of SR_FRM as a slot sees it (R366, R392). -/
def rndOf (v : BitVec 2) : Rnd := if v = 1 then .rtz else .rne

/-! ### Operands in memory and in the tile store -/

/-- A memory operand: EID, key, address (R387, R388); none is ILLEGAL_OP. -/
def memPair (r : RegFile) (k : Nat) (imm : DWord) : Option (Nat × Nat × Nat) :=
  let a := (r.xr k).toNat
  let b := (r.xr (k + 1)).toNat
  let sum : Int := (a : Int) + imm.toInt
  if k % 2 = 1 ∨ 2 ^ 52 ≤ a ∨ fld b 31 18 ≠ 0 then none
  else if sum < 0 ∨ 2 ^ 52 ≤ sum then none
  else some (fld b 17 0, fld b 63 32, sum.toNat)

/-- Bytes of the tile store the kernel may use (R360). -/
def tsUsed (words : List Word) : Nat := fld (wAt words 7) 10 0 * 65536

/-- A tile-store address RA + IMM. -/
def tileAddr (r : RegFile) (k : Nat) (imm : DWord) : Nat := (r.xr k + imm).toNat

/-- Does an access stay below TS_USED × 64 KiB (R360)? -/
def tileOk (k : KernelRun) (a n : Nat) : Bool := decide (a + n ≤ tsUsed k.words)

/-- The issuer of a kernel's accesses (R389). -/
def State.kernelIssuer (s : State) (k : KernelRun) : Issuer := { eid := s.lmf.eid, ctx := kernelCtx k.words, admin := false }

/-- How a kernel reads a range of a region: through its pin where the pin covers the range, else as its context (R217, R389). -/
def State.kernelView (s : State) (k : KernelRun) (rid off n : Nat) : View :=
  let id := wAt k.words 29
  match Tab.get? s.home.pins id with
  | some p => if id ≠ 0 ∧ p.rid = rid ∧ p.off ≤ off ∧ off + n ≤ p.off + p.len then .pin id else .own (s.kernelIssuer k)
  | none => .own (s.kernelIssuer k)

/-- Hold a slot on what its access met, or raise the exception of its status (R88, R94, R181, R374, R378). -/
def State.slotMet (s : State) (cmd : Instr) (h : SlotHdr) (k : KernelRun) (q : QSlot) (access rid off : Nat) (m : Met) : State :=
  match s.holdOn { cmd := cmd, i := s.kernelIssuer k, access := access, runTime := true, hw := coreUnit h.core (engineOf cmd), limit := 0, needRoom := false, work := true } rid off m with
  | (s, some st) => s.slotRaise cmd h q (excOf st) st
  | (s, none) =>
    match m with
    | .fault kind page =>
      let seq := match s.home.faults.find? (fun f => decide (f.rid = rid ∧ f.page = page ∧ f.kind = kind)) with | some f => f.seq | none => 0
      let c := s.core h.core
      s.setCore h.core { c with
        st := if c.st = .running then .stalled else c.st
        kernel := c.kernel.map (fun k => { k with stalledOn := seq + 1, stalledAt := s.now }) }
    | _ => s

/-- An access of a slot to memory of this controller: the check of R62 at use (R83, R389), the lease, then what it meets. `log` is done where the
access ends with a status (R249). -/
def State.slotAccess (s : State) (cmd : Instr) (h : SlotHdr) (k : KernelRun) (q : QSlot) (eid key off n : Nat) (need : Rights) (access : Nat)
    (log : Status → State → State) (meet : Nat → Region → State → Met) (body : Nat → Region → State → State) : State :=
  match s.permit eid key off n need (s.kernelIssuer k) with
  | none => (log .key s).slotRaise cmd h q 6 .key
  | some (rid, rg) =>
    match s.gate rid rg with
    | some why => s.holdCmd cmd why 0 s.lmf.eid (kernelCtx k.words)
    | none =>
      match meet rid rg s with
      | .clear => body rid rg s
      | .stop st => (log st (s.quotaMet st)).slotRaise cmd h q (excOf st) st
      | m => s.slotMet cmd h k q access rid off m

/-- Send a slot's access to another controller; the slot waits for the completion (R389, R667). -/
def State.slotRemote (s : State) (cmd : Instr) (h : SlotHdr) (k : KernelRun) (eid op key off : Nat) (data : Bytes) (idem : Bool) : State :=
  s.sendTxn (.kernel h.core cmd) (kernelCtx k.words) eid op key off 0 data idem

/-- What a kernel's local read by an engine gives, counted in heat (R120) and in the engine's bytes (R796). -/
def State.slotRead (s : State) (hw : Nat) (k : KernelRun) (rid : Nat) (rg : Region) (off n : Nat) : State × Bytes :=
  let v := s.kernelView k rid off n
  ((s.readDone false rid v off n).event hw 3 n (some (kernelCtx k.words)), s.readRange rg v off n)

/-- A kernel's local write by an engine, counted in its bytes (R796): as its context, shadowed in publish mode (R187); elsewhere forwarded to a mirror partner (R737). -/
def State.slotWrite (s : State) (hw n : Nat) (k : KernelRun) (rid : Nat) (rg : Region) (off : Nat) (data : Bytes) : State :=
  let i := s.kernelIssuer k
  let s := ((s.writeRange rid (.shadowed i) off data).touchRange false rid (.own i) off data.length).event hw 4 data.length (some i.ctx)
  if rg.mode = .publish then s else s.forward rid off data (.core n)

/-- Where the access at the front of an engine's queue stands: the parts performed, and the bytes they returned at their offsets. -/
def State.slotParts (s : State) (n : Nat) (cmd : Instr) : Nat × Mem := Tab.getD (s.core n).parts (engineOf cmd) (0, [])

/-- Note where it stands. -/
def State.setParts (s : State) (n : Nat) (cmd : Instr) (p : Nat × Mem) : State :=
  let c := s.core n
  s.setCore n { c with parts := Tab.set c.parts (engineOf cmd) p }

/-- What one part of a kernel's access at this home meets: a read as the kernel sees the range, or a write as its context. `anyway` reads a poisoned
line too (R417). -/
def State.partMet (s : State) (k : KernelRun) (rid : Nat) (rg : Region) (write anyway : Bool) (x : Nat × Nat) : Met :=
  if write then s.meetWrite rid rg (.shadowed (s.kernelIssuer k)) x.1 x.2
  else match s.meetRead rid rg (s.kernelView k rid x.1 x.2) x.1 x.2 with
    | .stop .poison => if anyway then .clear else .stop .poison
    | m => m

/-- Perform parts of an access at this home in ascending order until one is stopped: the parts performed, the bytes read, and what stopped it. -/
def State.partsRun (hw n : Nat) (k : KernelRun) (rid : Nat) (data : Option (Nat → Nat → Bytes)) (anyway : Bool) :
    List (Nat × Nat) → Nat × Mem → State → State × (Nat × Mem) × Option (Nat × Met)
  | [], p, s => (s, p, none)
  | x :: t, p, s =>
    match s.region? rid with
    | none => (s, p, some (x.1, .stop .key))
    | some rg =>
      match s.partMet k rid rg data.isSome anyway x with
      | .clear =>
        match data with
        | none =>
          let (s, bs) := s.slotRead hw k rid rg x.1 x.2
          partsRun hw n k rid data anyway t (p.1 + 1, Mem.writeN p.2 x.1 bs) s
        | some f => partsRun hw n k rid data anyway t (p.1 + 1, p.2) (s.slotWrite hw n k rid rg x.1 (f x.1 x.2))
      | m => (s, p, some (x.1, m))

/-- An access of several ranges of one region at this home: the check of R62 for every range at use (R83, R389), and the lease. In a coherent region
the lines are performed one by one, and those performed are not repeated (R873); elsewhere nothing is performed while a range is stopped. `body` gets
the region and the bytes read. -/
def State.slotOwn (s : State) (cmd : Instr) (h : SlotHdr) (k : KernelRun) (q : QSlot) (eid key : Nat) (rs : List (Nat × Nat))
    (data : Option (Nat → Nat → Bytes)) (anyway : Bool) (body : Nat → Mem → State → State) : State :=
  match rs with
  | [] => body 0 [] s
  | (o, n) :: _ =>
    let access := if data.isSome then 4 else 3
    match s.permit eid key o n (if data.isSome then needW else needR) (s.kernelIssuer k) with
    | none => s.slotRaise cmd h q 6 .key
    | some (rid, rg) =>
      if !rs.all (fun x => rg.inside x.1 x.2) then s.slotRaise cmd h q 6 .key
      else match s.gate rid rg with
        | some why => s.holdCmd cmd why 0 s.lmf.eid (kernelCtx k.words)
        | none =>
          let coh := decide (rg.mode = .coherent)
          let cuts := if coh then rs.flatMap (fun x => lineCuts x.1 x.2) else rs
          let p := s.slotParts h.core cmd
          match (if coh then none else cuts.find? (fun x => decide (s.partMet k rid rg data.isSome anyway x ≠ .clear))) with
          | some x => s.slotMet cmd h k q access rid x.1 (s.partMet k rid rg data.isSome anyway x)
          | none =>
            match State.partsRun (coreUnit h.core (engineOf cmd)) h.core k rid data anyway (cuts.drop p.1) p s with
            | (s, p, none) => body rid p.2 s
            | (s, p, some (x, m)) => (s.setParts h.core cmd p).slotMet cmd h k q access rid x m

/-- An access of several ranges at another controller, one transaction after another (R389, R663, R272). `body` gets the bytes read, at the offsets
they were read from. -/
def State.slotFar (s : State) (cmd : Instr) (h : SlotHdr) (k : KernelRun) (eid key : Nat) (rs : List (Nat × Nat)) (data : Option (Nat → Nat → Bytes))
    (body : Mem → State → State) : State :=
  let p := s.slotParts h.core cmd
  match (rs.flatMap (fun x => s.farCuts eid x.1 x.2))[p.1]? with
  | none => body p.2 s
  | some (o, len) =>
    match data with
    | none => s.sendRead (.kernel h.core cmd) (kernelCtx k.words) eid key o len
    | some f => s.sendWrite (.kernel h.core cmd) (kernelCtx k.words) eid key o (f o len)

/-- An access of several ranges of one region: each range with the bytes it writes, none for a read. -/
def State.slotMove (s : State) (cmd : Instr) (h : SlotHdr) (k : KernelRun) (q : QSlot) (eid key : Nat) (rs : List (Nat × Nat))
    (data : Option (Nat → Nat → Bytes)) (anyway : Bool) (body : Nat → Mem → State → State) : State :=
  if s.isOwn eid then s.slotOwn cmd h k q eid key rs data anyway body
  else s.slotFar cmd h k eid key rs data (fun m s => body 0 m (s.event (coreUnit h.core (engineOf cmd)) (if data.isSome then 4 else 3) (rs.map Prod.snd).sum (some (kernelCtx k.words))))

/-- A transaction of the slot at the front of an engine's queue has completed (R389, R378): one that ends with ST_PAUSED is sent again;
one that fails raises ACCESS; the bytes of one that succeeds are kept until the slot goes on. -/
def State.slotReply (s : State) (cmd : Instr) (t : Txn) (st : Status) (data : Bytes) : State :=
  match s.slotOf cmd with
  | none => s
  | some (h, _, _, q) =>
    match st with
    | .ok =>
      let p := s.slotParts h.core cmd
      s.setParts h.core cmd (p.1 + 1, if opWrites t.op then p.2 else Mem.writeN p.2 t.off data)
    | .paused => s
    | st => s.slotRaise cmd h q (excOf st) st

/-- Write bytes into a core's tile store. -/
def State.tileWrite (s : State) (n a : Nat) (data : Bytes) : State :=
  let c := s.core n
  s.setCore n { c with tile := Mem.writeN c.tile a data }

/-- Read bytes of a core's tile store. -/
def State.tileRead (s : State) (n a len : Nat) : Bytes := Mem.readN (s.core n).tile a len

end Sys2Proof.Machine
end

