-- ==== Sys2Proof/Machine/Matrix.lean ====
section
/-! DEFINITION. The matrix instructions of the Slaica core (R357 to R360, R367, R410 to R418). -/

namespace Sys2Proof.Machine

/-- A legal tile (R357, R358): tile-store address of row 0, rows, elements per row, bytes between row starts, element type, row length. -/
structure Tile where
  base : Nat
  rows : Nat
  cols : Nat
  step : Nat
  type : Nat
  len : Nat
  deriving DecidableEq, Repr

/-- Read a descriptor; none is illegal (R358). -/
def tileOf (m : BitVec 128) : Option Tile :=
  let v := m.toNat
  let rows := fld v 41 32 + 1
  let cols := fld v 57 48 + 1
  let step := fld v 79 64 * 64
  let t := fld v 83 80
  let len := rowBytes t cols
  if t = 15 ∨ step < len ∨ (isMx t = true ∧ cols % 32 ≠ 0) then none
  else some { base := fld v 19 0 * 64, rows := rows, cols := cols, step := step, type := t, len := len }

/-- The first byte above a tile. -/
def Tile.top (t : Tile) : Nat := t.base + (t.rows - 1) * t.step + t.len

/-- Does a tile stay below TS_USED × 64 KiB (R360)? -/
def Tile.fits (t : Tile) (k : KernelRun) : Bool := decide (t.top ≤ tsUsed k.words)

/-- The values of a row of a tile. -/
def Tile.row (t : Tile) (tile : Mem) (i : Nat) : List FVal := tileVals t.type t.cols (Mem.readN tile (t.base + i * t.step) t.len)

/-- The rate class of a type (R411); 0 is none. -/
def rateClass (t : Nat) : Nat := match t with | 9 => 1 | 10 => 2 | 11 => 2 | 4 => 3 | 12 => 4 | 13 => 4 | 14 => 4 | _ => 0

/-- The exact sum of products of one group, with the flags of the products (R367). -/
def groupSum : List (FVal × FVal) → FVal × FFlags
  | [] => (.fin false 0 0, FFlags.none)
  | [p] => p.1.mul p.2
  | p :: t =>
    let (v, g) := p.1.mul p.2
    let (w, k) := groupSum t
    let (x, j) := v.add w
    (x, (g.or k).or j)

/-- One output element (R367): each group of 32 is rounded once to FP32 and added in ascending order, each addition rounded. -/
def dot (xs ys : List FVal) (start : Nat) : Nat × FFlags :=
  (chunksOf 32 xs.length (xs.zip ys)).foldl (fun acc g =>
    let (b, f) := fp32.finish .rne (groupSum g)
    let (c, k) := fp32.finish .rne ((fp32.decode acc.1).add (fp32.decode b))
    (c, (acc.2.or f).or k)) (start, FFlags.none)

/-- The place of an accumulator element in a core's table. -/
def accKey (acc i j : Nat) : Nat := acc * 65536 + i * 256 + j

/-- The core of a core's units asks for quarantine (R761). -/
def State.askCore (s : State) (n : Nat) : State :=
  let hw := coreUnit n 2
  s.setUnit hw { s.unit hw with asked := true }

/-- The array's result disagrees with the recomputation of a column (R760, R761): a record, and a repair, or quarantine for a third
column that reaches the limit. -/
def State.miscompute (s : State) (n col : Nat) : State :=
  let hw := coreUnit n 2
  let s := s.error { ErrorNote.of 5 .corrupt hw with layer := 8, loc := col, ctx := (match (s.core n).kernel with | some k => kernelCtx k.words | none => 0) }
  let c := s.core n
  let k := Tab.getD c.colMiss col 0 + 1
  if k < s.param 10 then s.setCore n { c with colMiss := Tab.set c.colMiss col k }
  else if c.colRepl.length < 2 then
    let s := s.setCore n { c with colMiss := Tab.erase c.colMiss col, colRepl := c.colRepl ++ [col] }
    s.setUnit hw { s.unit hw with repairs := (s.unit hw).repairs + 1 }
  else (s.setCore n { c with colMiss := Tab.set c.colMiss col k }).askCore n

/-- MMA and MMV once their descriptors are checked (R367, R410 to R413); the spare columns' sample pointer moves on (R760). -/
def matrixMul (cmd : Instr) (maxRows : Nat) (f : MFmt) (s : State) : Result :=
  slotRun cmd s fun h k r q s =>
    match tileOf (r.mr f.ma), tileOf (r.mr f.mb) with
    | some a, some b =>
      if 1 < f.sub ∨ maxRows < a.rows ∨ 256 < b.rows ∨ a.cols ≠ b.cols ∨ rateClass a.type = 0 ∨ rateClass a.type ≠ rateClass b.type then s.illegal cmd h q
      else if a.fits k = false ∨ b.fits k = false then s.slotRaise cmd h q 3 .notSupported
      else
        let c := s.core h.core
        let ws := (upto b.rows).map (b.row c.tile)
        let (acc, g) := (upto a.rows).foldl (fun (st : Tab (BitVec 32) × FFlags) i =>
          let xs := a.row c.tile i
          (ws.zip (upto b.rows)).foldl (fun (st : Tab (BitVec 32) × FFlags) w =>
            let key := accKey f.acc i w.2
            let (v, fl) := dot xs w.1 (if f.sub = 1 then 0 else (Tab.getD st.1 key 0).toNat)
            (Tab.set st.1 key (BitVec.ofNat 32 v), st.2.or fl)) st) (c.acc, FFlags.none)
        let t := (({ s with freeCtr := s.freeCtr + 1 }).setCore h.core { c with acc := acc, colPtr := (c.colPtr + 4) % 256 }).stick h.core q.seq g
        match Config.arrayFault s.freeCtr with
        | some j =>
          if j < 4 - c.colRepl.length then (t.miscompute h.core ((c.colPtr + j) % 256)).slotRaise cmd h q 13 .corrupt else t.slotDone cmd h
        | none => t.slotDone cmd h
    | _, _ => s.illegal cmd h q

/-- MMA. -/
def execMma (h : SlotHdr) (f : MFmt) (s : State) : Result := matrixMul (.mma h f) 256 f s
/-- MMV: M from 1 to 8. -/
def execMmv (h : SlotHdr) (f : MFmt) (s : State) : Result := matrixMul (.mmv h f) 8 f s

/-- Land rows of bytes in a tile: the row's place in memory with its number and bytes. -/
def landRows (tile : Mem) (t : Tile) (rows : List (Nat × Bytes)) : Mem := rows.foldl (fun m x => Mem.writeN m (t.base + x.1 * t.step) x.2) tile

/-- MLOAD (R390, R410, R416 to R418): each row of the tile from memory, directly or through the coded-input path, which delivers the same
bytes (R185). A poisoned line raises POISON, and the other lines land. -/
def execMload (h : SlotHdr) (f : MFmt) (s : State) : Result :=
  let cmd := Instr.mload h f
  slotRun cmd s fun h k r q s =>
    match tileOf (r.mr f.md), memPair r f.ra 0 with
    | some t, some (eid, key, a) =>
      let ats : List (Nat × Int) := (upto t.rows).map (fun (i : Nat) => (i, Int.ofNat a + Int.ofNat i * (r.xr f.rb).toInt))
      if 1 < f.sub ∨ ats.any (fun x => decide (x.2 < 0 ∨ 2 ^ 52 ≤ x.2)) = true ∨ (f.sub = 1 ∧ (a % 4096 ≠ 0 ∨ (r.xr f.rb).toNat ≠ t.len)) then s.illegal cmd h q
      else if ats.any (fun x => decide (x.2.toNat % elemBytes t.type ≠ 0)) then s.slotRaise cmd h q 4 .notSupported
      else if t.fits k = false then s.slotRaise cmd h q 3 .notSupported
      else
        let rs := ats.map (fun x => (x.2.toNat, t.len))
        s.slotMove cmd h k q eid key rs none true fun rid got s =>
          let bad (x : Nat × Nat) : Bool :=
            match s.isOwn eid, s.region? rid with
            | true, some rg => decide (s.partMet k rid rg false false x ≠ .clear)
            | _, _ => false
          let cuts := ats.flatMap (fun x => (lineCuts x.2.toNat t.len).map (fun l => (t.base + x.1 * t.step + (l.1 - x.2.toNat), l)))
          let s := (cuts.filter (fun x => !bad x.2)).foldl (fun (s : State) x => s.tileWrite h.core x.1 (Mem.readN got x.2.1 x.2.2)) s
          if cuts.any (fun x => bad x.2) then s.slotRaise cmd h q 7 .poison else s.slotDone cmd h
    | _, _ => s.illegal cmd h q

/-- MDRAIN (R366, R368, R410, R411): an accumulator's elements converted to the tile's type, RNE. -/
def execMdrain (h : SlotHdr) (f : MFmt) (s : State) : Result :=
  let cmd := Instr.mdrain h f
  slotRun cmd s fun h k r q s =>
    match tileOf (r.mr f.md) with
    | none => s.illegal cmd h q
    | some t =>
      if 256 < t.rows ∨ 256 < t.cols then s.illegal cmd h q
      else if t.fits k = false then s.slotRaise cmd h q 3 .notSupported
      else
        let c := s.core h.core
        let out (i : Nat) : Bytes × FFlags :=
          let vs := (upto t.cols).map (fun j => (Tab.getD c.acc (accKey f.acc i j) 0).toNat)
          match isMx t.type, fmtOf t.type with
          | true, some x => mxRow x (vs.map (elemVal 8))
          | _, _ =>
            let es := vs.map (convElem 8 t.type .rne)
            (es.flatMap (fun e => natLE (elemBytes t.type) e.1), es.foldl (fun a e => a.or e.2) FFlags.none)
        let rows := (upto t.rows).map (fun i => (i, out i))
        let g := rows.foldl (fun a x => a.or x.2.2) FFlags.none
        ((s.setCore h.core { c with tile := landRows c.tile t (rows.map (fun x => (x.1, x.2.1))) }).stick h.core q.seq g).slotDone cmd h

/-- MCLR (R410). -/
def execMclr (h : SlotHdr) (f : MFmt) (s : State) : Result :=
  let cmd := Instr.mclr h f
  slotRun cmd s fun h _ _ _ s =>
    let c := s.core h.core
    (s.setCore h.core { c with acc := c.acc.filter (fun (e : Nat × BitVec 32) => decide (e.1 / 65536 ≠ f.acc)) }).slotDone cmd h

end Sys2Proof.Machine
end

