-- ==== Sys2Proof/Machine/Experts.lean ====
section
/-! DEFINITION. Expert execution (11): counted writes and lanes, token batch messages, descriptors, micro-batches, result rows and trailers, single-stream decode mode. -/

namespace Sys2Proof.Machine

/-! ### Token batch messages (R443 to R447) -/

/-- COMBINE. -/
def hdCombine (w : List Word) : Bool := bitAt (wAt w 0) 21
/-- DL_ABORT. -/
def hdAbort (w : List Word) : Bool := bitAt (wAt w 0) 22
/-- IN_TYPE. -/
def hdIn (w : List Word) : Nat := fld (wAt w 0) 26 23
/-- OUT_TYPE. -/
def hdOut (w : List Word) : Nat := fld (wAt w 0) 30 27
/-- N_ROWS. -/
def hdRows (w : List Word) : Nat := fld (wAt w 3) 12 0
/-- N_ENT. -/
def hdEnts (w : List Word) : Nat := fld (wAt w 3) 26 13
/-- RES_EID. -/
def hdEid (w : List Word) : Nat := fld (wAt w 8) 17 0
/-- DEADLINE, or a time no clock reaches where there is none. -/
def hdDeadline (w : List Word) : Nat := if dAt w 12 = 0 then 2 ^ 64 else dAt w 12

/-- The stride of rows of `d` elements of a type (R445). -/
def rowStride (d t : Nat) : Nat := alignUp (d * elemBytes t) 64

/-- The header's own rules (R443), for a slot of `slotBytes` bytes. -/
def msgHeaderOk (w : List Word) (slotBytes : Nat) : Bool :=
  let f := wAt w 0
  decide (fld f 7 0 = 1) && decide (fld f 20 8 = 0) && decide (8 ≤ hdIn w ∧ hdIn w ≤ 9) && decide (8 ≤ hdOut w ∧ hdOut w ≤ 9) && !bitAt f 31
    && decide (1 ≤ hdRows w ∧ hdRows w ≤ 4096) && decide (1 ≤ hdEnts w ∧ hdEnts w ≤ 8192) && decide (fld (wAt w 3) 31 27 = 0)
    && decide (wAt w 4 % 4096 = 0) && decide (64 + 8 * hdEnts w ≤ wAt w 4) && decide (dAt w 6 % 64 = 0) && decide (dAt w 6 < 2 ^ 52)
    && decide (fld (wAt w 8) 31 18 = 0) && decide (wAt w 11 = 0) && decide (dAt w 14 = 0) && decide (wAt w 2 ≤ slotBytes)
    && decide (wAt w 4 < wAt w 2)

/-- Result rows of a message (R456, R457). -/
def ExpMsg.nRes (m : ExpMsg) : Nat := if m.reject.isSome then 0 else if hdCombine m.words then hdRows m.words else hdEnts m.words

/-- A descriptor. -/
def State.expertOf (s : State) (e : Nat) : Option (List Word) := Tab.get? s.expert.descs e

/-- D_IN. -/
def dsIn (d : List Word) : Nat := fld (wAt d 9) 15 0
/-- D_FF. -/
def dsFf (d : List Word) : Nat := fld (wAt d 9) 31 16
/-- MAX_BATCH. -/
def dsMax (d : List Word) : Nat := fld (wAt d 12) 8 0

/-- Queued entries of the controller (R446). -/
def State.queuedEntries (s : State) : Nat := (s.expert.msgs.map (fun m => (m.entries.filter (fun e => decide (e.st = .queued))).length)).sum

/-- Change a message. -/
def State.modMsg (s : State) (id : Nat) (f : ExpMsg → ExpMsg) : State :=
  { s with expert.msgs := s.expert.msgs.map (fun (m : ExpMsg) => if m.id = id then f m else m) }

/-- A message. -/
def State.msg? (s : State) (id : Nat) : Option ExpMsg := s.expert.msgs.find? (fun m => decide (m.id = id))

/-- Is every entry of a message ended? -/
def ExpMsg.ended (m : ExpMsg) : Bool := m.entries.all (fun e => match e.st with | .done _ => true | _ => false)

/-- Report the entries of a message that its deadline has passed (R451, R452): one notice record each, once; with DL_ABORT a queued
one ends with ST_DEADLINE. -/
def State.entryDeadlines (s : State) (id : Nat) : State :=
  match s.msg? id with
  | none => s
  | some m =>
    if s.now < hdDeadline m.words then s
    else
      let late := m.entries.filter (fun e => !e.noted && (match e.st with | .done _ => false | _ => true))
      let s := late.foldl (fun (s : State) e =>
        s.notice m.eid m.sctx 1 (hdAbort m.words && decide (e.st = .queued)) .deadline 5 (wAt m.words 1) (dAt m.words 12)) s
      s.modMsg id (fun m => { m with entries := m.entries.map (fun (e : ExpEntry) =>
        match e.st with
        | .done _ => e
        | .queued => { e with noted := true, st := if hdAbort m.words then .done .deadline else .queued }
        | .copied _ => { e with noted := true }) })

/-- Release the slot of a message once every entry has been copied or has ended: its counter is reset first (R453). -/
def State.expRelease (s : State) (id : Nat) : State :=
  match s.msg? id with
  | none => s
  | some m =>
    let waits (e : ExpEntry) : Bool :=
      match e.st with
      | .queued => true
      | .copied b => s.expert.batches.any (fun x => decide (x.id = b) && decide (x.place ≠ .core))
      | .done _ => false
    if m.released || m.entries.any waits then s
    else
      let s := s.modMsg id (fun m => { m with released := true })
      match Tab.get? s.expert.lanes m.lane with
      | none => s
      | some l =>
        let ck := l.ckeys.getD m.slot 0
        { s with
          home.counters := Tab.modify s.home.counters (keyIdx ck) (fun c => { c with bytes := 0, pkts := 0 })
          expert.lanes := Tab.set s.expert.lanes m.lane { l with busy := l.busy.set m.slot false } }

/-- Forget the messages that write no trailer, once none of their entries is queued or on a core. -/
def State.expSweep (s : State) : State :=
  { s with expert.msgs := s.expert.msgs.filter (fun (m : ExpMsg) => !(m.dead && m.ended)) }

/-- The entries of a message, from its entry table (R444). -/
def parseEntries (ws : List Word) (n now : Nat) : List ExpEntry :=
  (upto n).map (fun i =>
    let lo := wAt ws (2 * i)
    { expert := fld lo 15 0, row := fld lo 27 16, gate := wAt ws (2 * i + 1), arrived := now, st := .queued, noted := false, out := [] })

/-- Are the entries' reserved bits zero and their rows below N_ROWS (R444)? -/
def entriesOk (ws : List Word) (n rows : Nat) : Bool :=
  (upto n).all (fun i => decide (fld (wAt ws (2 * i)) 31 28 = 0) && decide (fld (wAt ws (2 * i)) 27 16 < rows))

/-- Put a message into its lane, with the status of its rejection if it has one (R446), and advance the slot's expected number. -/
def State.addMessage (s : State) (li : Nat) (l : Lane) (slot : Nat) (w : List Word) (es : List ExpEntry) (dIn : Nat) (reject : Option Status) : State :=
  let id := s.nextId
  let m : ExpMsg :=
    { id := id, lane := li, slot := slot, eid := l.eid, sctx := l.sctx, ctx := l.ctx, words := w, entries := es, reject := reject, released := false,
      dead := false, first := 0, dIn := dIn, rowsDone := [], trailerSent := false }
  let next := (l.nextSeq.getD slot 0 + l.slots) % 4294967296
  let s :=
    { s with
      nextId := id + 1
      expert.msgs := s.expert.msgs ++ [m]
      expert.lanes := Tab.set s.expert.lanes li { l with busy := l.busy.set slot true, nextSeq := l.nextSeq.set slot next } }
  let s :=
    if reject = none ∧ dAt w 12 ≠ 0 ∧ s.now < dAt w 12 then s.addDeadline id (dAt w 12) (hdAbort w) 5 (wAt w 1) { eid := l.eid, ctx := l.sctx, admin := false }
    else s
  (s.entryDeadlines id).expRelease id

/-- Take a complete message (R445 to R447). -/
def State.takeMessage (s : State) (li : Nat) (l : Lane) (rg : Region) (slot : Nat) (w : List Word) : State :=
  let off := rg.base + slot * l.slotBytes
  let n := hdEnts w
  if !msgHeaderOk w l.slotBytes then s.addMessage li l slot w [] 0 (some .notSupported)
  else
    let ews := wordsOf (s.readRange rg .pub (off + 64) (8 * n))
    let es := parseEntries ews n s.now
    let named := (es.filterMap (fun e => s.expertOf e.expert)).head?
    let inStride := (wAt w 2 - wAt w 4) / hdRows w
    let d := match named with | some ds => dsIn ds | none => inStride / elemBytes (hdIn w)
    if !entriesOk ews n (hdRows w) || (named.isSome && decide (wAt w 2 ≠ wAt w 4 + hdRows w * rowStride d (hdIn w))) then
      s.addMessage li l slot w [] 0 (some .notSupported)
    else if 1048576 < s.queuedEntries + n then s.addMessage li l slot w [] d (some .quota)
    else
      let es := es.map (fun (e : ExpEntry) =>
        match s.expertOf e.expert with
        | none => { e with st := .done .key }
        | some ds => if dsIn ds = d then e else { e with st := .done .notSupported })
      s.addMessage li l slot w es d none

/-- Look at a slot after its counter has advanced (R440, R441). -/
def State.slotCheck (s : State) (li : Nat) (l : Lane) (slot : Nat) : State :=
  match s.region? l.rid, Tab.get? s.home.counters (keyIdx (l.ckeys.getD slot 0)) with
  | some rg, some c =>
    let raw := s.readRange rg .pub (rg.base + slot * l.slotBytes) 64
    let w := wordsOf raw
    let want := l.nextSeq.getD slot 0
    if raw.all (fun b => decide (b = 0)) then s
    else if wAt w 1 = want then
      if wAt w 2 < c.bytes then s.addMessage li l slot w [] 0 (some .notSupported)
      else if wAt w 2 = c.bytes then s.takeMessage li l rg slot w
      else s
    else if wAt w 1 = (want + 4294967296 - l.slots) % 4294967296 then s
    else s.addMessage li l slot w [] 0 (some .notSupported)
  | _, _ => s

/-- A counted write has advanced a counter: the lane slot it belongs to is looked at (R440, R441). -/
def State.laneCheck (s : State) (ckey : Nat) : State :=
  match s.expert.lanes.find? (fun e => e.2.ckeys.contains ckey) with
  | none => s
  | some (li, l) =>
    let slot := l.ckeys.idxOf ckey
    if l.busy.getD slot true || l.removing.isSome then s else s.slotCheck li l slot

/-! ### Counted writes -/

/-- Is a counter key current and bound to the region (R228)? A later region of the same index is another region. -/
def State.counterFor (s : State) (ckey rid : Nat) : Bool :=
  match Tab.get? s.home.counters (keyIdx ckey), s.region? rid with
  | some c, some r => decide (c.gen = keyGen ckey) && decide (c.rid = rid) && decide (c.rgen = r.gen)
  | _, _ => false

/-- Apply a counted write that nothing stops: the bytes as a direct update, then the count, then the lane it may complete (R223, R229,
R440). -/
def State.putCounted (s : State) (port : Bool) (rid off ckey : Nat) (data : Bytes) : State :=
  (((s.writeRange rid .direct off data).touchRange port rid .pub off data.length).countWrite ckey data.length).laneCheck ckey

/-- COUNTED_WRITE (R223, R228 to R230, R236, R249, R250): logged under its LSEQ; a repeat is not performed again. -/
def execCountedWrite (q0 : LmfReq) (ckey : Nat) (data : Bytes) (s : State) : Result :=
  whenUp s fun s =>
    let q := s.sourced q0
    let cmd := Instr.countedWrite q ckey data
    let data := data.take q.len
    match s.arrive cmd q false true with
    | .error s => .next s
    | .ok s =>
      match s.logFind (s.logKey q.dstEid q.srcEid q.ctx) q.lseq with
      | some e => .next (s.complete q (if e.tomb then .state else e.st) [])
      | none =>
        if q.len > 4096 ∨ inBlock q.offset q.len = false then .next (s.turnLmf cmd q .notSupported)
        else match s.permit q.dstEid q.key q.offset q.len needW (LmfIssuer q) with
          | none => .next (s.turnLmf cmd q .key)
          | some (rid, r) =>
            if !s.counterFor ckey rid then .next (s.turnLmf cmd q .key)
            else match s.gate rid r with
              | some why => .next (s.holdCmd cmd why (s.holdEnd q) q.srcEid q.ctx)
              | none =>
                match s.meetWrite rid r .direct q.offset data.length with
                | .clear =>
                  let s := s.putCounted true rid q.offset ckey data
                  .next ((s.logDone (s.logKey q.dstEid q.srcEid q.ctx) q.lseq .ok 0).answerAfter rid q.offset data
                    (some (s.noteOf q.srcEid q.ctx q.lseq .ok 0)) .ok (.lmf q []))
                | m =>
                  match s.holdOn (lmfHold s cmd q 1) rid q.offset m with
                  | (s, some st) => .next (s.turnLmf cmd q st)
                  | (s, none) => .next s

/-- A counted write of the controller to a region of its own, under a context: done and logged (R236, R249), or what it met; `.clear` stands for a region
that is not served now. -/
def State.countedIn (s : State) (ctx eid rid : Nat) (r : Region) (off ckey : Nat) (data : Bytes) (work : WorkRef) : Except (Nat × Met) State :=
  if !s.counterFor ckey rid then .error (0, .stop .key)
  else if (s.gate rid r).isSome then .error (rid, .clear)
  else match s.meetWrite rid r .direct off data.length with
    | .clear =>
      let (s, note) := (s.putCounted false rid off ckey data).selfLog eid ctx .ok 0
      .ok (s.forward rid off data work (some note))
    | m => .error (rid, m)

/-- `countedIn` under R62 at its use (R228, R455, R489). -/
def State.ownCounted (s : State) (i : Issuer) (eid key off ckey : Nat) (data : Bytes) (work : WorkRef) : Except (Nat × Met) State :=
  match s.permit eid key off data.length needW i with
  | none => .error (0, .stop .key)
  | some (rid, r) => s.countedIn i.ctx eid rid r off ckey data work

/-- Hold an event of an engine on what its access met (R85 to R87, R94, R181), once: it runs again when what it met has been resolved.
`access` is 0 for an operand read, 1 for an operand write. -/
def State.noteMet (s : State) (cmd : Instr) (i : Issuer) (hw access rid off : Nat) (m : Met) (work : Bool := false) : State :=
  if s.home.held.any (fun h => decide (h.cmd = cmd)) then s
  else (s.holdOn { cmd := cmd, i := i, access := access + 3, runTime := true, hw := hw, limit := 0, needRoom := false, work := work } rid off m).1

/-- `noteMet` for a range that a queued descriptor names (R79, R86: PHASE 0, an operand read). -/
def State.noteQueued (s : State) (cmd : Instr) (i : Issuer) (hw rid off : Nat) (m : Met) : State :=
  if s.home.held.any (fun h => decide (h.cmd = cmd)) then s
  else (s.holdOn { cmd := cmd, i := i, access := 3, runTime := false, hw := hw, limit := 0, needRoom := false } rid off m).1

/-- The first page of a range that stands at an absent entry of the fault kind. -/
def State.absentIn (s : State) (rid off n : Nat) : Option Nat :=
  match s.region? rid with
  | some r => (pagesOf off n).find? (fun p => decide (r.entry p = .fault))
  | none => none

/-- Translate a range when its descriptor is queued (R79, R84): an absent page raises its fault, and the descriptor's work waits for it. -/
def State.queueFault (s : State) (cmd : Instr) (i : Issuer) (hw rid off n : Nat) : State :=
  match s.absentIn rid off n with
  | some p => s.noteQueued cmd i hw rid off (.fault 1 p)
  | none => s

/-! ### Descriptors -/

/-- The bytes of a matrix of `rows` by `cols` elements as R432 stores it. -/
def matrixBytes (t rows cols : Nat) : Nat :=
  let full := alignUp (256 * rowBytes t 1024) 4096 * (cols / 1024)
  let rest := if cols % 1024 = 0 then 0 else alignUp (256 * rowBytes t (cols % 1024)) 4096
  rows / 256 * (full + rest)

/-- Does the expert have an up matrix (R429)? -/
def dsGated (d : List Word) : Bool := decide (4 ≤ fld (wAt d 0) 11 8)

/-- The matrices of an expert: offset and length (R432). -/
def dsMatrices (d : List Word) : List (Nat × Nat) :=
  let t := fld (wAt d 0) 15 12
  let a := matrixBytes t (dsFf d) (dsIn d)
  (dAt d 3, a) :: ((if dsGated d then [(dAt d 5, a)] else []) ++ [(dAt d 7, matrixBytes t (dsIn d) (dsFf d))])

/-- The rules of R429, R430 and R432 on a descriptor's fields. -/
def descriptorOk (d : List Word) : Bool :=
  let f := wAt d 0
  let w := fld f 15 12
  decide (fld f 7 0 = 1) && decide (1 ≤ fld f 11 8 ∧ fld f 11 8 ≤ 5) && decide (9 ≤ w ∧ w ≤ 14) && decide (rateClass (fld f 19 16) = rateClass w)
    && decide (fld f 31 20 = 0) && decide (fld (wAt d 1) 15 0 ≤ 0x3FFF) && decide (fld (wAt d 1) 31 28 = 0)
    && [3, 5, 7].all (fun i => decide (dAt d i < 2 ^ 52) && decide (dAt d i % 4096 = 0))
    && decide (dsGated d = decide (dAt d 5 ≠ 0))
    && decide (dsIn d % 256 = 0 ∧ 256 ≤ dsIn d ∧ dsIn d ≤ 16384) && decide (dsFf d % 256 = 0 ∧ 256 ≤ dsFf d ∧ dsFf d ≤ 32768)
    && decide (1 ≤ dsMax d ∧ dsMax d ≤ 256) && decide (fld (wAt d 12) 15 9 = 0) && (d.drop 13).all (fun x => decide (x = 0))

/-- The issuer of an expert's kernel (R435). -/
def State.expertIssuer (s : State) (d : List Word) : Issuer := { eid := s.lmf.eid, ctx := dsCtx d, admin := false }

/-- The weight region of a descriptor, if CTX holds E on it and every matrix lies in it (R431). -/
def State.weightsOf (s : State) (d : List Word) : Option (Nat × Region) :=
  match s.permit s.lmf.eid (wAt d 2) (dAt d 3) 0 needE (s.expertIssuer d) with
  | some (rid, rg) => if (dsMatrices d).all (fun x => rg.inside x.1 x.2) then some (rid, rg) else none
  | none => none

/-- EXPERT_SET (R429 to R433, R575, R872). -/
def execExpertSet (r : BciReq) (s : State) : Result :=
  bciServe .expertSet { BciRow.o 0x70 3 with minor := some 2, resv := fun r => offResv r 2 } r s fun r i s =>
    s.onRegion (.expertSet r) r i (r.w 1) (r.d 2) 128 needR (State.refuse r) fun rid rg s =>
      match s.meetRead rid rg (.own i) (r.d 2) 128 with
      | .clear =>
        let d := wordsOf (s.readRange rg (.own i) (r.d 2) 128)
        let s := s.readDone false rid (.own i) (r.d 2) 128
        if !descriptorOk d then .next (s.respond r .notSupported [])
        else if !s.ctxOk (dsCtx d) then .next (s.respond r .state [])
        else if (s.weightsOf d).isNone then .next (s.respond r .key [])
        else
          let t := State.ssdSync { s with expert.descs := Tab.set s.expert.descs (fld (wAt d 1) 15 0) d }
          if r121Limit < t.r121 ∧ s.r121 < t.r121 then .next (s.respond r .quota []) else .next (t.respond r .ok [])
      | m => .next (s.bciStop (.expertSet r) r i 0 rid (r.d 2) m)

/-- End queued entries with a status (R434, R442, R460). -/
def State.endEntries (s : State) (pick : ExpMsg → ExpEntry → Bool) (st : Status) : State :=
  let s := { s with expert.msgs := s.expert.msgs.map (fun (m : ExpMsg) => { m with entries := m.entries.map (fun (e : ExpEntry) =>
    if e.st = EntState.queued ∧ pick m e = true then { e with st := .done st } else e) }) }
  (s.expert.msgs.map ExpMsg.id).foldl State.expRelease s

/-- EXPERT_CLEAR (R434). -/
def execExpertClear (r : BciReq) (s : State) : Result :=
  bciServe .expertClear { BciRow.o 0x71 1 with minor := some 2, resv := fun r => above r 1 16 } r s fun r _ s =>
    if (s.expertOf (r.w 1)).isNone then .next (s.respond r .key [])
    else
      let s := { s with expert.descs := Tab.erase s.expert.descs (r.w 1), expert.ready := s.expert.ready.filter (fun e => decide (e ≠ r.w 1)) }
      .next ((s.endEntries (fun _ e => decide (e.expert = r.w 1)) .key).ssdSync.respond r .ok [])

/-! ### Lanes -/

/-- Allocate `n` counters to a lane (R436). -/
def State.laneCounters (s : State) (rid ctx : Nat) : Nat → State × List Nat
  | 0 => (s, [])
  | n + 1 =>
    let (s, k) := s.newCounter rid s.lmf.eid ctx
    let (s, ks) := s.laneCounters rid ctx n
    (s, k :: ks)

/-- LANE_ADD (R436 to R439, R872). -/
def execLaneAdd (r : BciReq) (s : State) : Result :=
  bciServe .laneAdd { BciRow.o 0x72 7 with
      minor := some 2, resv := fun r => bitAt (r.w 2) 7 || above r 2 19 || above r 3 18 || decide (fld (r.w 4) 15 12 ≠ 0) || above r 4 28 || offResv r 6 }
    r s fun r i s =>
    let slots := fld (r.w 2) 6 0
    let units := fld (r.w 2) 18 8
    let ctx := fld (r.w 4) 27 16
    s.named r (r.w 1) fun rid rg =>
      if slots = 0 ∨ 64 < slots ∨ units = 0 ∨ 1024 < units ∨ slots * (units * 65536) ≠ rg.size then .next (s.respond r .notSupported [])
      else if !s.ctxOk ctx || s.expert.lanes.any (fun e => decide (e.2.rid = rid)) then .next (s.respond r .state [])
      else if 4096 ≤ s.expert.lanes.length ∨ 65536 < s.home.counters.length + slots then .next (s.respond r .quota [])
      else s.onRegion (.laneAdd r) r i (r.w 5) (r.d 6) (4 * slots) needW (State.refuse r) fun out og s =>
        match s.meetWrite out og .direct (r.d 6) (4 * slots) with
        | .clear =>
          let (s, ks) := s.laneCounters rid ctx slots
          let li := lowestFree (Tab.keys s.expert.lanes) 0
          let l : Lane :=
            { key := r.w 1, rid := rid, slots := slots, slotBytes := units * 65536, eid := r.w 3, sctx := fld (r.w 4) 11 0, ctx := ctx, ckeys := ks,
              nextSeq := upto slots, busy := List.replicate slots false, removing := none }
          let s := { s with expert.lanes := Tab.set s.expert.lanes li l }
          let data := ks.flatMap (natLE 4)
          .next ((s.writeRange out .direct (r.d 6) data).answerAfter out (r.d 6) data none .ok (.bci r (one li)))
        | m => .next (s.bciStop (.laneAdd r) r i 1 out (r.d 6) m)

/-- Does a dispatched micro-batch hold an entry of the lane? -/
def State.laneBusy (s : State) (li : Nat) : Bool :=
  s.expert.msgs.any (fun m => decide (m.lane = li) && m.entries.any (fun e => match e.st with | .copied _ => true | _ => false))

/-- Complete the LANE_REMOVEs whose last micro-batch has ended (R442). -/
def State.laneGone (s : State) : State :=
  s.expert.lanes.foldl (fun (s : State) e =>
    match e.2.removing with
    | some r => if s.laneBusy e.1 then s else State.respond { s with expert.lanes := Tab.erase s.expert.lanes e.1 } r .ok []
    | none => s) s

/-- LANE_REMOVE (R442, R235). -/
def execLaneRemove (r : BciReq) (s : State) : Result :=
  bciServe .laneRemove { BciRow.o 0x73 1 with minor := some 2, resv := fun r => above r 1 12 } r s fun r _ s =>
    match Tab.get? s.expert.lanes (r.w 1) with
    | none => .next (s.respond r .key [])
    | some l =>
      if l.removing.isSome then .next (s.respond r .state [])
      else
        let s := s.endEntries (fun m _ => decide (m.lane = r.w 1)) .key
        let s := l.ckeys.foldl (fun (s : State) k => s.freeCounter (keyIdx k)) s
        .next (State.laneGone { s with expert.lanes := Tab.modify s.expert.lanes (r.w 1) (fun x => { x with removing := some r }) })

/-- EXPERT_POLICY_SET (R449): DL_MARGIN from 0 to 10 ms. -/
def execExpertPolicySet (r : BciReq) (s : State) : Result :=
  bciServe .expertPolicySet { BciRow.o 0x74 1 with minor := some 2 } r s fun r _ s =>
    if 10000000 < r.w 1 then .next (s.respond r .notSupported [])
    else .next (State.respond { s with expert.dlMargin := r.w 1 } r .ok [])

/-! ### Single-stream decode mode -/

/-- SSD_ENTER (R461, R462, R694): every domain that is not ON is woken, and the command completes when all are ON. -/
def execSsdEnter (r : BciReq) (s : State) : Result :=
  bciServe .ssdEnter { BciRow.o 0x75 1 with minor := some 3, resv := fun r => above r 1 12 } r s fun r _ s =>
    if s.expert.ssd.isSome || !s.ctxOk (r.w 1) then .next (s.respond r .state [])
    else
      let t := State.ssdSync { s with expert.ssd := some (r.w 1) }
      if r121Limit < t.r121 ∧ s.r121 < t.r121 then .next (s.respond r .quota [])
      else
        let t := (t.pow.doms.map DomEntry.dom).foldl State.domainUp t.stir
        let t :=
          { t with
            cores := t.cores.map (fun (e : Nat × Core) => (e.1, { e.2 with st := match e.2.st with | .gated => .idle | .off => .idle | .waking => .preparing | x => x })) }
        .next (t.respond r .ok [])

/-- End the mode (R463). -/
def State.ssdEnd (s : State) : State := State.ssdSync { s with expert.ssd := none }

/-- SSD_EXIT (R463). -/
def execSsdExit (r : BciReq) (s : State) : Result :=
  bciServe .ssdExit { BciRow.o 0x76 0 with minor := some 3 } r s fun r _ s =>
    if s.expert.ssd.isNone then .next (s.respond r .state []) else .next (s.ssdEnd.respond r .ok [])

/-! ### Micro-batches -/

/-- A queued entry: its deadline, its arrival, its message, its number in the message. -/
structure Queued where
  deadline : Nat
  arrived : Nat
  msg : Nat
  idx : Nat
  deriving DecidableEq, Repr

/-- The queue of an expert, in arrival order (R450). -/
def State.expertQueue (s : State) (e : Nat) : List Queued :=
  s.expert.msgs.flatMap (fun m => (m.entries.zipIdx).filterMap (fun p =>
    if p.1.expert = e ∧ p.1.st = EntState.queued then some { deadline := hdDeadline m.words, arrived := p.1.arrived, msg := m.id, idx := p.2 } else none))

/-- The order in which a micro-batch takes entries: by deadline, then by arrival (R450). -/
def byDeadline (q : List Queued) : List Queued := q.insertionSort (fun a b => a.deadline ≤ b.deadline)

/-- Multiply-accumulates of a full micro-batch (R449). -/
def dsMacs (d : List Word) : Nat := dsMax d * (dsIn d * dsFf d * (if dsGated d then 3 else 2))

/-- MACs of a core per cycle (R355). -/
def macRate (t : Nat) : Nat := match rateClass t with | 1 => 65536 | 4 => 262144 | _ => 131072

/-- The captured or present page references of an expert's weights. -/
def State.weightPages (s : State) (d : List Word) (rg : Region) : List TierPage :=
  (dsMatrices d).flatMap (fun x => (pagesOf x.1 x.2).filterMap (fun p => (s.viewRef rg p (.own (s.expertIssuer d))).bind s.page?))

/-- The run estimate in ns, rounded down (R449). -/
def State.runEstimate (s : State) (d : List Word) : Nat :=
  let compute := dsMacs d * 10 / (macRate (fld (wAt d 0) 15 12) * 16)
  let size := ((dsMatrices d).map Prod.snd).sum
  let read := match s.live s.lmf.eid (wAt d 2) with
    | some (_, rg) =>
      let ps := s.weightPages d rg
      let cold := ps.filter (fun p => decide (p.t0 = .none))
      let coded := (ps.map (fun p => match p.image with | some im => im.units * 64 | none => 65536)).sum
      if ps.length < 2 * cold.length then coded * 10 / 4096 else size * 100 / 492000
    | none => 0
  5000 + max compute read

/-- Does an expert's queue make it ready by its oldest entry or its earliest deadline (R448)? -/
def State.expertDue (s : State) (e : Nat) (d : List Word) : Bool :=
  let q := s.expertQueue e
  q.any (fun x => decide (x.arrived + fld (wAt d 12) 31 16 * 1000 ≤ s.now)) ||
    q.any (fun x => decide (x.deadline < 2 ^ 64) && decide (x.deadline ≤ s.now + s.runEstimate d + s.expert.dlMargin))

/-- Is an expert ready (R448)? -/
def State.expertReady (s : State) (e : Nat) (d : List Word) : Bool :=
  let q := s.expertQueue e
  !q.isEmpty && (s.expert.ready.contains e || decide (dsMax d ≤ q.length) || decide (s.expert.ssd = some (dsCtx d)))

/-- MAX_WAIT_EXPIRY (R448): the oldest entry has waited MAX_WAIT, or the earliest deadline nears. -/
def execMaxWaitExpiry (expert : Nat) (s : State) : Result :=
  whenUp s fun s =>
    match s.expertOf expert with
    | none => .next s
    | some d =>
      if s.expertDue expert d && !s.expert.ready.contains expert then .next { s with expert.ready := s.expert.ready ++ [expert] } else .next s

/-- What an expert's weights meet now, and where (R94, R181): region, offset, and what is met. -/
def State.meetWeights (s : State) (d : List Word) : Nat × Nat × Met :=
  let rid := s.ridOf s.lmf.eid (wAt d 2)
  match s.region? rid with
  | none => (0, 0, .clear)
  | some rg =>
    let met (x : Nat × Nat) : Met := s.meetRead rid rg (.own (s.expertIssuer d)) x.1 x.2
    match (dsMatrices d).find? (fun x => decide (met x ≠ .clear)) with
    | some x => (rid, x.1, met x)
    | none => (rid, 0, .clear)

/-- Does a stalled or suspended kernel of the context, or a micro-batch whose weights met a fault, hold its later work back (R94)? -/
def State.ctxStalled (s : State) (ctx : Nat) : Bool :=
  s.cores.any (fun c => decide (c.2.st = .stalled) && (match c.2.kernel with | some k => decide (kernelCtx k.words = ctx) | none => false)
    || c.2.saved.any (fun v => decide (kernelCtx v.kernel.words = ctx)))
  || s.expert.batches.any (fun b => decide (dsCtx b.desc = ctx) && decide (b.place = .fault))

/-- Does a micro-batch run on the core, or is about to? -/
def State.coreBatch (s : State) (n : Nat) : Bool := s.expert.batches.any (fun b => decide (b.core = n) && decide (b.place = .core))

/-- May a core take a kernel now (R372, R374, R764)? -/
def State.coreFree (s : State) (n : Nat) : Bool :=
  let c := s.core n
  decide (n < 4) && c.kernel.isNone && !c.saved.any (fun v => v.resolved) && !s.coreBatch n && !(upto 4).any (fun e => (s.unit (coreUnit n e)).asked) &&
    (match c.st with | .idle => true | .gated => true | .off => true | _ => false)

/-- Is another free core preferred, its last kernel being of the same context and affinity (R372)? -/
def State.betterCore (s : State) (n ctx aff : Nat) : Bool :=
  let like (k : Nat) : Bool := decide ((s.core k).lastCtx = ctx) && decide ((s.core k).lastAff = aff)
  !like n && (upto 4).any (fun k => s.coreFree k && like k)

/-- Give a core work: an IDLE core prepares, one that is GATED or OFF wakes first (R374). -/
def State.startCore (s : State) (n : Nat) : State :=
  let c := s.core n
  match c.st with
  | .idle => (s.setCore n { c with st := .preparing }).wakeDomain (.core n)
  | _ =>
    (s.setCore n { c with st := .waking }).wakeDomain (.core n)

/-- Ready experts, with what R450 orders them by: earliest deadline, oldest entry, EXPERT_ID. -/
def State.readyExperts (s : State) : List (Nat × List Word × Nat × Nat) :=
  s.expert.descs.filterMap (fun e =>
    let q := s.expertQueue e.1
    if s.expertReady e.1 e.2 && !s.ctxStalled (dsCtx e.2) && (match s.expert.ssd with | some c => decide (dsCtx e.2 = c) | none => true) then
      some (e.1, e.2, (q.map Queued.deadline).foldl min (2 ^ 64), (q.map Queued.arrived).foldl min (2 ^ 64))
    else none)

/-- The expert R450 chooses. -/
def chooseExpert (l : List (Nat × List Word × Nat × Nat)) : Option (Nat × List Word) :=
  (l.foldl (fun (best : Option (Nat × List Word × Nat × Nat)) x =>
    match best with
    | none => some x
    | some b => if x.2.2.1 < b.2.2.1 ∨ (x.2.2.1 = b.2.2.1 ∧ x.2.2.2 < b.2.2.2) then some x else some b) none).map (fun x => (x.1, x.2.1))

/-- Change entries of messages: each is named by its message and number. -/
def State.modEntries (s : State) (ids : List (Nat × Nat)) (f : Nat → ExpEntry → ExpEntry) : State :=
  { s with expert.msgs := s.expert.msgs.map (fun (m : ExpMsg) =>
      { m with entries := (m.entries.zipIdx).map (fun p => if (m.id, p.2) ∈ ids then f m.id p.1 else p.1) }) }

/-- The activation row of an entry, as the slot holds it (R445). -/
def State.activation (s : State) (m : ExpMsg) (row : Nat) : Bytes :=
  match Tab.get? s.expert.lanes m.lane with
  | none => []
  | some l =>
    match s.region? l.rid with
    | none => []
    | some rg => s.readRange rg .pub (rg.base + m.slot * l.slotBytes + wAt m.words 4 + row * rowStride m.dIn (hdIn m.words)) (m.dIn * elemBytes (hdIn m.words))

/-- The FP32 product of two FP32 values. -/
def mul32 (a b : Nat) : Nat := (fp32.finish .rne ((fp32.decode a).mul (fp32.decode b))).1

/-- An expert's activation function (R429): ReLU keeps a positive value and gives zero for a negative one. What GELU and SiLU round to, and ReLU of a NaN, no
rule states. -/
def expertAct (act x : Nat) : Nat :=
  if act = 1 ∧ (fp32.decode x).isNan = false then (if x.testBit 31 then 0 else x) else (Config.expertAct act x).toNat

/-- Row `j` of a matrix at `off` of `cols` columns, block by block (R432). -/
def State.weightRow (s : State) (rg : Region) (i : Issuer) (t off cols j : Nat) : List FVal :=
  let full := alignUp (256 * rowBytes t 1024) 4096
  let start := off + j / 256 * matrixBytes t 256 cols
  (upto ((cols + 1023) / 1024)).flatMap (fun c =>
    let n := min 1024 (cols - c * 1024)
    tileVals t n (s.readRange rg (.own i) (start + c * full + j % 256 * rowBytes t n) (rowBytes t n)))

/-- A matrix of `rows` rows times a vector, in FP32 (R367). -/
def State.weightMul (s : State) (rg : Region) (i : Issuer) (t off rows : Nat) (x : List FVal) : List Nat :=
  (upto rows).map (fun j => (dot (s.weightRow rg i t off x.length j) x 0).1)

/-- The built-in library's output for one activation row, times a gate weight, in FP32 (R429, R435): the activations are scaled and converted to ATYPE, the
hidden vector is converted to ATYPE, and OUT_SCALE comes before the gate. -/
def State.expertOut (s : State) (rg : Region) (i : Issuer) (d : List Word) (inType : Nat) (input : Bytes) (gate : Nat) : List (BitVec 32) :=
  let act := fld (wAt d 0) 11 8
  let w := fld (wAt d 0) 15 12
  let a := fld (wAt d 0) 19 16
  let xs := (chunksOf (elemBytes inType) (dsIn d) input).map (fun e => mul32 (wAt d 10) (convElem inType 8 .rne (leNat e)).1)
  let x := tileConv a xs
  let g := (s.weightMul rg i w (dAt d 3) (dsFf d) x).map (expertAct (match act with | 4 => 3 | 5 => 2 | k => k))
  let h := if dsGated d then List.zipWith mul32 g (s.weightMul rg i w (dAt d 5) (dsFf d) x) else g
  (s.weightMul rg i w (dAt d 7) (dsIn d) (tileConv a h)).map (fun y => BitVec.ofNat 32 (mul32 gate (mul32 (wAt d 11) y)))

/-- The outputs of a micro-batch's entries, from the weights as they were captured (R435). -/
def State.batchOuts (s : State) (b : MicroBatch) : State :=
  match s.region? (s.ridOf s.lmf.eid (wAt b.desc 2)) with
  | none => s
  | some rg => s.modEntries b.members (fun m e =>
      match s.msg? m with
      | none => e
      | some q => { e with out := s.expertOut rg (s.expertIssuer b.desc) b.desc (hdIn q.words) e.input e.gate })

/-- The first page of an expert's weights that stands at an absent entry of the fault kind: where the first byte of it that is read lies, and the page. -/
def State.weightsAbsent (s : State) (d : List Word) (rid : Nat) : Option (Nat × Nat) :=
  (dsMatrices d).findSome? (fun x => (s.absentIn rid x.1 x.2).map (fun p => (x.1, p)))

/-- OBJ of a micro-batch: the message SEQ of its first entry (R580). -/
def State.batchObj (s : State) (b : MicroBatch) : Nat :=
  match b.members with
  | x :: _ => (match s.msg? x.1 with | some m => wAt m.words 1 | none => 0)
  | [] => 0

/-- Give a core a micro-batch. -/
def State.batchOn (s : State) (core : Nat) (b : MicroBatch) : State :=
  let c := s.core core
  (({ s with expert.batches := s.expert.batches.map (fun (x : MicroBatch) => if x.id = b.id then { x with core := core, place := .core } else x) }.coreStart core
    (dsCtx b.desc) (s.batchObj b)).setCore core
    { c with lastCtx := dsCtx b.desc, lastAff := b.expert, lastOk := false }).startCore core

/-- Put a micro-batch to work: on its core, or, where its weights stand at an absent page of the fault kind, waiting for that fault without a core
(R79, R84, R94). -/
def State.batchQueued (s : State) (core : Nat) (b : MicroBatch) (rid : Nat) : State :=
  match s.weightsAbsent b.desc rid with
  | none => s.batchOn core b
  | some (off, p) =>
    State.noteQueued { s with expert.batches := s.expert.batches.map (fun (x : MicroBatch) => if x.id = b.id then { x with place := .fault } else x) }
      (.microBatchEnd b.id .ok) (s.expertIssuer b.desc) (coreUnit core 2) rid off (.fault 1 p)

/-- MICRO_BATCH_DISPATCH (R435, R448 to R453, R462, R82): a micro-batch whose fault has been resolved, else the ready expert of R450, gets the core. Its
weights are checked and translated, and its rows are copied, so slots may be released. -/
def execMicroBatchDispatch (core : Nat) (s : State) : Result :=
  whenUp s fun s =>
    let s := (s.expert.msgs.map ExpMsg.id).foldl State.entryDeadlines s
    let s := (s.expert.msgs.map ExpMsg.id).foldl State.expRelease s
    if !s.coreFree core || decide (s.bci.phase = .switching) then .next s
    else match s.expert.batches.find? (fun b => decide (b.place = .ready) && (match s.expert.ssd with | some c => decide (dsCtx b.desc = c) | none => true)) with
    | some b => .next ((s.expert.msgs.map ExpMsg.id).foldl State.expRelease (s.batchOn core b))
    | none =>
      match chooseExpert s.readyExperts with
      | none => .next s
      | some (e, d) =>
        if s.betterCore core (dsCtx d) e then .next s
        else
          let ms := ((byDeadline (s.expertQueue e)).take (dsMax d)).map (fun q => (q.msg, q.idx))
          match s.weightsOf d with
          | none =>
            let s := s.modEntries ms (fun _ x => { x with st := .done .key })
            .next ((s.expert.msgs.map ExpMsg.id).foldl State.expRelease s)
          | some (rid, _) =>
            let id := s.nextId
            let (s, caps) := s.capture id ((dsMatrices d).map (fun x => (rid, x.1, x.2)))
            let outs (m : Nat) (x : ExpEntry) : ExpEntry :=
              match s.msg? m with
              | none => x
              | some q => { x with st := .copied id, input := s.activation q x.row }
            let s' := s.modEntries ms outs
            let b : MicroBatch := { id := id, expert := e, desc := d, core := core, members := ms, pages := caps }
            let s' :=
              { s' with
                nextId := id + 1
                expert.batches := s'.expert.batches ++ [b]
                expert.msgs := s'.expert.msgs.map (fun (m : ExpMsg) => if m.first = 0 ∧ ms.any (fun x => decide (x.1 = m.id)) = true then { m with first := s.now } else m) }
            let s' := { s' with expert.ready := s'.expert.ready.filter (fun x => decide (x ≠ e) || s'.expertDue e d) }
            .next ((s'.expert.msgs.map ExpMsg.id).foldl State.expRelease (s'.batchQueued core b rid))

/-! ### Result rows and trailers -/

/-- The failed entry that gives a result row its status (R457). -/
def rowStatus (es : List ExpEntry) : Status :=
  match es.find? (fun e => decide (e.st ≠ EntState.done Status.ok)) with
  | some e => (match e.st with | .done st => st | _ => Status.ok)
  | none => .ok

/-- The entries of a result row. -/
def ExpMsg.rowEntries (m : ExpMsg) (r : Nat) : List ExpEntry :=
  if hdCombine m.words then m.entries.filter (fun e => decide (e.row = r)) else (m.entries[r]?).toList

/-- The FP32 sum of a row in ascending entry order (R455). -/
def sumRows (d : Nat) : List (List (BitVec 32)) → List (BitVec 32)
  | [] => List.replicate d 0
  | x :: t => t.foldl (fun acc y => List.zipWith (fun (a b : BitVec 32) => BitVec.ofNat 32 (fp32.finish .rne ((fp32.decode a.toNat).add (fp32.decode b.toNat))).1) acc y) x

/-- The bytes of a result row: rounded once to OUT_TYPE (R445, R455). -/
def ExpMsg.rowBytes (m : ExpMsg) (r : Nat) : Bytes :=
  let t := hdOut m.words
  let xs := sumRows m.dIn ((m.rowEntries r).map ExpEntry.out)
  let xs := (xs ++ List.replicate m.dIn (0 : BitVec 32)).take m.dIn
  let raw := xs.flatMap (fun x => natLE (elemBytes t) (convElem 8 t .rne x.toNat).1)
  raw ++ List.replicate (rowStride m.dIn t - raw.length) 0

/-- A write to a result buffer has failed: nothing more of the message is written, and a record names the lane and SEQ (R459, R460); one of this
home is logged (R249). -/
def State.resultFail (s : State) (id : Nat) (st : Status) : State :=
  match s.msg? id with
  | none => s
  | some m =>
    if m.dead then s
    else
      let s := s.modMsg id (fun m => { m with dead := true })
      let s := if s.isOwn (hdEid m.words) then (s.selfLog (hdEid m.words) m.ctx st 0).1 else s
      (s.error { ErrorNote.of 12 st (anyUnit s.freeCtr) with
        loc := m.lane, ctx := m.ctx, key := wAt m.words 5, off := dAt m.words 6, eid := hdEid m.words, aux := wAt m.words 1 }).expSweep

/-- Is there a TAG for each of `n` transactions? -/
def State.tagRoom (s : State) (n : Nat) : Bool := decide ((s.lmf.tags.filter (fun e => e.2.live.isSome)).length + n ≤ 131072)

/-- Write bytes of a message's result as counted writes under the serving CTX, in pieces of up to 4 KiB (R455, R456, R663). -/
def State.resultWrite (s : State) (m : ExpMsg) (what : TxnUse) (ckey off : Nat) (data : Bytes) : Except (Nat × Met) State :=
  let i : Issuer := { eid := s.lmf.eid, ctx := m.ctx, admin := false }
  let eid := hdEid m.words
  let key := wAt m.words 5
  let chunks := blocks off data.length
  if s.isOwn eid then
    chunks.foldl (fun (acc : Except (Nat × Met) State) c =>
      match acc with
      | .error e => .error e
      | .ok s => s.ownCounted i eid key c.1 ckey ((data.drop (c.1 - off)).take c.2) (.batch m.id)) (.ok s)
  else if s.tagRoom chunks.length then
    .ok (chunks.foldl (fun (s : State) c => s.sendTxn what m.ctx eid opCounted key c.1 ckey ((data.drop (c.1 - off)).take c.2) false) s)
  else .error (0, .clear)

/-- Write one result row that is ready and not yet written (R455, R458). -/
def State.expRow (s : State) (id r : Nat) : State :=
  match s.msg? id with
  | none => s
  | some m =>
    let es := m.rowEntries r
    if m.dead || m.rowsDone.contains r || es.any (fun e => match e.st with | .done _ => false | _ => true) then s
    else
      let mark (s : State) : State := s.modMsg id (fun m => { m with rowsDone := r :: m.rowsDone })
      if rowStatus es ≠ .ok then mark s
      else
        let off := dAt m.words 6 + r * rowStride m.dIn (hdOut m.words)
        match s.resultWrite m (.expertRow id) (wAt m.words 9) off (m.rowBytes r) with
        | .ok s => mark s
        | .error (_, .stop .paused) => s
        | .error (_, .stop st) => s.resultFail id st
        | .error (rid, x) => s.noteMet (.trailerWrite id) { eid := s.lmf.eid, ctx := m.ctx, admin := false } (anyUnit s.freeCtr) 1 rid off x

/-- Write every result row of a message that is ready. -/
def State.expRows (s : State) (id : Nat) : State :=
  match s.msg? id with
  | none => s
  | some m => if m.reject.isSome then s else (upto m.nRes).foldl (fun (s : State) r => s.expRow id r) s

/-- Is a transaction of a kind in flight or in backoff? -/
def State.txnLive (s : State) (f : TxnUse → Bool) : Bool :=
  s.lmf.tags.any (fun e => match e.2.live with | some t => f t.what | none => false) || s.lmf.backoffs.any (fun e => f e.2.1.what)

/-- The core of a micro-batch that is over is free, and its tile store holds what the library left. -/
def State.batchOff (s : State) (b : MicroBatch) (st : Status) : State :=
  if b.place ≠ .core then s
  else
    let c := s.core b.core
    let tile := if st = Status.ok then Mem.writeN [] 0 ((Config.libraryTile s.freeCtr).take 67108864) else c.tile
    { s.setCore b.core { c with st := .idle, lastOk := decide (st = .ok), tile := tile } with freeCtr := s.freeCtr + 1 }

/-- A micro-batch is over: its entries take its status and result rows, and its core is free (R435, R452, R455). -/
def State.batchOver (s : State) (b : MicroBatch) (st : Status) : State :=
  let s := s.uncapture b.id b.pages
  let s := if b.place = .core then s.workEnd (coreUnit b.core 0) (dsCtx b.desc) st 0 else s
  let mids := (b.members.map Prod.fst).dedup
  let s := mids.foldl State.entryDeadlines s
  let s := s.modEntries b.members (fun _ e => { e with st := .done st })
  let s := s.batchOff b st
  let s := { s with expert.batches := s.expert.batches.filter (fun (x : MicroBatch) => decide (x.id ≠ b.id))
                    home.held := s.home.held.filter (fun (h : Held) => match h.cmd with | .microBatchEnd id _ => decide (id ≠ b.id) | _ => true) }
  let s := mids.foldl State.expRelease s
  (mids.foldl State.expRows s).expSweep.laneGone.restoreNext b.core

/-- The fault a micro-batch waited for has been resolved with REPLAY: it is translated whole again, and is ready for a core, or waits for the next
fault (R79, R90). -/
def State.batchResolved (s : State) (b : MicroBatch) : State :=
  let rid := s.ridOf s.lmf.eid (wAt b.desc 2)
  let (s, caps) := s.recapture b.id b.pages
  let put (p : BatchAt) (s : State) : State :=
    { s with expert.batches := s.expert.batches.map (fun (x : MicroBatch) => if x.id = b.id then { x with pages := caps, place := p } else x) }
  match s.weightsAbsent b.desc rid with
  | none => put .ready s
  | some (off, p) => (put .fault s).noteQueued (.microBatchEnd b.id .ok) (s.expertIssuer b.desc) (coreUnit b.core 2) rid off (.fault 1 p)

/-- MICRO_BATCH_END (R94, R181, R435, R452, R455, R460): the kernel has ended; a recovery on its weight pages holds it, and poison in them gives every
entry ST_POISON. -/
def execMicroBatchEnd (id : Nat) (st : Status) (s : State) : Result :=
  whenUp s fun s =>
    match s.expert.batches.find? (fun b => decide (b.id = id)) with
    | none => .next s
    | some b =>
      match b.fail with
      | some x => .next (s.batchOver b x)
      | none =>
      if b.place = .fault then (if s.replayOf.isSome then .next (s.batchResolved b) else .next s)
      else if b.place = .ready ∨ (s.core b.core).st ≠ .running ∨ s.home.held.any (fun h => match h.cmd with | .microBatchEnd x _ => decide (x = id) | _ => false) = true then .next s
      else
        let i := s.expertIssuer b.desc
        let old := s.remapped b.id b.pages
        let o := s.overlay b.id b.pages
        let (rid, off, met) := o.meetWeights b.desc
        let fin (st : Status) : Result :=
          let o := (dsMatrices b.desc).foldl (fun (s : State) x => s.readDone false rid (.own i) x.1 x.2) o
          .next (((if st = .ok then o.batchOuts b else o).restore old).batchOver b st)
        match met with
        | .clear => fin st
        | .stop x => fin (if st = Status.ok then x else st)
        | m => .next ((o.noteMet (.microBatchEnd id st) i (coreUnit b.core 2) 0 rid off m true).restore old)

/-- The trailer of a message (R456, R457). -/
def trailerBytes (m : ExpMsg) (now : Nat) : Bytes :=
  let rs := (upto m.nRes).map (fun r => rowStatus (m.rowEntries r))
  let ok := (rs.filter (fun x => decide (x = Status.ok))).length
  let st := match m.reject with
    | some x => x
    | none => (match rs.find? (fun x => decide (x ≠ Status.ok)) with | some x => x | none => Status.ok)
  let head : List Word := [BitVec.ofNat 32 (wAt m.words 1), BitVec.ofNat 32 st.code, BitVec.ofNat 32 ok, BitVec.ofNat 32 (rs.length - ok)]
    ++ two m.first ++ two now ++ [BitVec.ofNat 32 m.lane] ++ List.replicate 7 0
  let body := rs.flatMap (fun x => natLE 2 x.code)
  bytesOf head ++ body ++ List.replicate (alignUp body.length 64 - body.length) 0

/-- A message is over. -/
def State.dropMsg (s : State) (id : Nat) : State :=
  { (s.dropDeadline id) with expert.msgs := s.expert.msgs.filter (fun (m : ExpMsg) => decide (m.id ≠ id)) }

/-- TRAILER_WRITE (R453, R456, R457, R459): every entry has ended, every row is counted and the slot is released. -/
def execTrailerWrite (id : Nat) (s : State) : Result :=
  whenUp s fun s =>
    let s := s.expRows id
    match s.msg? id with
    | none => .next s
    | some m =>
      let waits := m.dead || m.trailerSent || !m.ended || !m.released || decide (m.rowsDone.length < m.nRes)
        || s.txnLive (fun w => decide (w = .expertRow id)) || s.mirroring (.batch id)
      if waits then .next s
      else
        let off := dAt m.words 6 + m.nRes * rowStride m.dIn (hdOut m.words)
        match State.resultWrite s m (.trailer id) (wAt m.words 10) off (trailerBytes m s.now) with
        | .ok s =>
          if s.isOwn (hdEid m.words) then .next (s.dropMsg id)
          else .next (s.modMsg id (fun m => { m with trailerSent := true }))
        | .error (_, .stop .paused) => .next s
        | .error (_, .stop st) => .next ((s.resultFail id st).dropMsg id)
        | .error (rid, x) => .next (s.noteMet (.trailerWrite id) { eid := s.lmf.eid, ctx := m.ctx, admin := false } (anyUnit s.freeCtr) 1 rid off x)

/-- A fence of a sender's incarnation drops its queued entries, and their messages write no trailer (R460). -/
def State.expFence (s : State) (eid : Nat) : State :=
  let s := s.endEntries (fun m _ => decide (m.eid = eid)) .fenced
  State.expSweep { s with expert.msgs := s.expert.msgs.map (fun (m : ExpMsg) => if m.eid = eid then { m with dead := true } else m) }

/-- A reset of a context ends the entries of the lanes it serves, and the mode if it is the mode's (R460, R463). -/
def State.expReset (s : State) (ctx : Nat) : State :=
  let s := s.endEntries (fun m _ => decide (m.ctx = ctx)) .functionReset
  if s.expert.ssd = some ctx then s.ssdEnd else s

end Sys2Proof.Machine
end

