-- ==== Sys2Proof/Machine/Vector.lean ====
section
/-! DEFINITION. The vector instructions of the Slaica core (R353, R354, R363 to R368, R400 to R404). -/

namespace Sys2Proof.Machine

/-- `n` fields of `w` bits of a number, lowest first. -/
def splitBits (w : Nat) : Nat → Nat → List Nat
  | 0, _ => []
  | n + 1, v => v % 2 ^ w :: splitBits w n (v / 2 ^ w)

/-- The elements of a vector register, `w` bytes each. -/
def vElems (w : Nat) (v : BitVec 32768) : List Nat := splitBits (8 * w) (4096 / w) v.toNat

/-- A vector register from its elements. -/
def vPack (w : Nat) (es : List Nat) : BitVec 32768 := BitVec.ofNat 32768 (packBits (8 * w) es)

/-- Which elements predication enables: bit b of the predicate for the element at byte offset b, inverted if PNEG is 1 (R353, R354). -/
def enabled (h : SlotHdr) (r : RegFile) (w : Nat) : List Bool := (splitBits w (4096 / w) (r.pr h.pred).toNat).map (fun b => xor (bitAt b 0) h.pneg)

/-- Put the results of the enabled elements over the old ones. -/
def mergeLanes (on : List Bool) (old new : List Nat) : List Nat := List.zipWith (fun b p => if b then p.2 else p.1) on (old.zip new)

/-- The flags of the enabled elements. -/
def laneFlags (on : List Bool) (gs : List FFlags) : FFlags := (on.zip gs).foldl (fun a p => if p.1 then a.or p.2 else a) FFlags.none

/-- A vector instruction that gives VD one result per element of a width, each with its flags. -/
def vecOp (cmd : Instr) (w vd : Nat) (s : State) (val : RegFile → Rnd → List (Nat × FFlags)) : Result :=
  slotRun cmd s fun h _ r q s =>
    let on := enabled h r w
    let es := val r (rndOf (q.frm.getD (s.core h.core).frm))
    let v := vPack w (mergeLanes on (vElems w (r.vr vd)) (es.map Prod.fst))
    ((s.modRegs h.core (fun g => g.vw vd v)).stick h.core q.seq (laneFlags on (es.map Prod.snd))).slotDone cmd h

/-- An integer result: that value where the type holds it, else a value the spec does not state (log 4). -/
def vInt (op t : Nat) (v a b c : Int) : Nat := if intMin t ≤ v ∧ v ≤ intMax t then intBits t v else Config.vectorInt op t a b c % 2 ^ (8 * elemBytes t)

/-- One element of a two-operand arithmetic instruction (R400): `fi` on integers, `ff` on exact data, rounded once. -/
def arith2 (op t : Nat) (fi : Int → Int → Int) (ff : FVal → FVal → FVal × FFlags) (r : Rnd) (a b : Nat) : Nat × FFlags :=
  match fmtOf t with
  | some f => f.finish r (ff (f.decode a) (f.decode b))
  | none => (vInt op t (fi (elemInt t a) (elemInt t b)) (elemInt t a) (elemInt t b) 0, FFlags.none)

/-- A two-operand arithmetic instruction. -/
def vecArith (cmd : Instr) (op : Nat) (f : VFmt) (s : State) (fi : Int → Int → Int) (ff : FVal → FVal → FVal × FFlags) : Result :=
  let w := elemBytes f.type
  vecOp cmd w f.vd s fun r m => List.zipWith (arith2 op f.type fi ff m) (vElems w (r.vr f.va)) (vElems w (r.vr f.vb))

/-- VADD (R400). -/
def execVadd (h : SlotHdr) (f : VFmt) (s : State) : Result := vecArith (.vadd h f) 0x100 f s (· + ·) FVal.add
/-- VSUB. -/
def execVsub (h : SlotHdr) (f : VFmt) (s : State) : Result := vecArith (.vsub h f) 0x101 f s (· - ·) (fun a b => a.add b.flip)
/-- VMUL. -/
def execVmul (h : SlotHdr) (f : VFmt) (s : State) : Result := vecArith (.vmul h f) 0x102 f s (· * ·) FVal.mul
/-- VMIN: integer order, or the IEEE 754-2019 minimum (R263). -/
def execVmin (h : SlotHdr) (f : VFmt) (s : State) : Result := vecArith (.vmin h f) 0x104 f s min FVal.minimum
/-- VMAX. -/
def execVmax (h : SlotHdr) (f : VFmt) (s : State) : Result := vecArith (.vmax h f) 0x105 f s max FVal.maximum

/-- One element of VFMA. -/
def fmaElem (t : Nat) (m : Rnd) (a b c : Nat) : Nat × FFlags :=
  match fmtOf t with
  | some f => f.finish m ((f.decode a).fma (f.decode b) (f.decode c))
  | none => (vInt 0x103 t (elemInt t a * elemInt t b + elemInt t c) (elemInt t a) (elemInt t b) (elemInt t c), FFlags.none)

/-- VFMA: one rounding for floats. -/
def execVfma (h : SlotHdr) (f : VFmt) (s : State) : Result :=
  let w := elemBytes f.type
  vecOp (.vfma h f) w f.vd s fun r m =>
    List.zipWith (fun a p => fmaElem f.type m a p.1 p.2) (vElems w (r.vr f.va)) ((vElems w (r.vr f.vb)).zip (vElems w (r.vr f.vc)))

/-- An element by element instruction on VA that sets no flag. -/
def vecMap (cmd : Instr) (f : VFmt) (s : State) (g : Nat → Nat) : Result :=
  let w := elemBytes f.type
  vecOp cmd w f.vd s fun r _ => (vElems w (r.vr f.va)).map (fun a => (g a, FFlags.none))

/-- VABS: the sign bit of a float is cleared. -/
def execVabs (h : SlotHdr) (f : VFmt) (s : State) : Result :=
  vecMap (.vabs h f) f s fun a =>
    match fmtOf f.type with
    | some k => a % 2 ^ (k.eb + k.mb)
    | none => vInt 0x106 f.type (elemInt f.type a).natAbs (elemInt f.type a) 0 0

/-- VNEG: the sign bit of a float is inverted. -/
def execVneg (h : SlotHdr) (f : VFmt) (s : State) : Result :=
  vecMap (.vneg h f) f s fun a =>
    match fmtOf f.type with
    | some k => a ^^^ 2 ^ (k.eb + k.mb)
    | none => vInt 0x107 f.type (-(elemInt f.type a)) (elemInt f.type a) 0 0

/-- A bitwise or shift instruction on the bits of two elements. -/
def vecBits (cmd : Instr) (f : VFmt) (s : State) (g : Nat → Nat → Nat) : Result :=
  let w := elemBytes f.type
  vecOp cmd w f.vd s fun r _ => List.zipWith (fun a b => (g a b, FFlags.none)) (vElems w (r.vr f.va)) (vElems w (r.vr f.vb))

/-- VAND. -/
def execVand (h : SlotHdr) (f : VFmt) (s : State) : Result := vecBits (.vand h f) f s (· &&& ·)
/-- VOR. -/
def execVor (h : SlotHdr) (f : VFmt) (s : State) : Result := vecBits (.vor h f) f s (· ||| ·)
/-- VXOR. -/
def execVxor (h : SlotHdr) (f : VFmt) (s : State) : Result := vecBits (.vxor h f) f s (· ^^^ ·)

/-- VSHL: by the low bits of VB. -/
def execVshl (h : SlotHdr) (f : VFmt) (s : State) : Result :=
  let n := 8 * elemBytes f.type
  vecBits (.vshl h f) f s fun a b => a * 2 ^ (b % n) % 2 ^ n

/-- VSHR: SUB[0] = 1 shifts arithmetically; a larger SUB raises ILLEGAL_OP. -/
def execVshr (h : SlotHdr) (f : VFmt) (s : State) : Result :=
  let cmd := Instr.vshr h f
  let n := 8 * elemBytes f.type
  if 1 < f.sub then slotRun cmd s fun h _ _ q s => s.illegal cmd h q
  else vecBits cmd f s fun a b => if f.sub = 1 then ((BitVec.ofNat n a).sshiftRight (b % n)).toNat else a / 2 ^ (b % n)

/-- A condition of VCMP on two elements (R400): 2 and 3 compare integers as signed, 4 and 5 as unsigned, as in PCMP (DEDUCED, log 18);
6 holds for floats of which one is a NaN. -/
def vcond (t sub a b : Nat) : Bool × FFlags :=
  match fmtOf t with
  | some f =>
    let x := f.decode a
    let y := f.decode b
    let un := x.isNan || y.isNan
    let quiet : FFlags := { FFlags.none with nv := x.isSnan || y.isSnan }
    let loud : FFlags := { FFlags.none with nv := un }
    match sub with
    | 0 => (!un && decide (x.order y = 0), quiet)
    | 1 => (un || decide (x.order y ≠ 0), quiet)
    | 2 => (!un && decide (x.order y < 0), loud)
    | 3 => (!un && decide (0 ≤ x.order y), loud)
    | 6 => (un, quiet)
    | n => (Config.vcmpFloatUnsigned t n a b, FFlags.none)
  | none =>
    let n := 8 * elemBytes t
    let x := (BitVec.ofNat n a).toInt
    let y := (BitVec.ofNat n b).toInt
    (match sub with
     | 0 => decide (a = b)
     | 1 => decide (a ≠ b)
     | 2 => decide (x < y)
     | 3 => decide (y ≤ x)
     | 4 => decide (a < b)
     | 5 => decide (b ≤ a)
     | _ => false, FFlags.none)

/-- VCMP: the predicate bits of each enabled element; a condition above 6 raises ILLEGAL_OP. -/
def execVcmp (h : SlotHdr) (f : VFmt) (s : State) : Result :=
  let cmd := Instr.vcmp h f
  slotRun cmd s fun h _ r q s =>
    let w := elemBytes f.type
    if 6 < f.sub then s.illegal cmd h q
    else
      let on := enabled h r w
      let es := List.zipWith (vcond f.type f.sub) (vElems w (r.vr f.va)) (vElems w (r.vr f.vb))
      let bits := mergeLanes on (splitBits w (4096 / w) (r.pr f.pd).toNat) (es.map (fun e => if e.1 then 2 ^ w - 1 else 0))
      ((s.modRegs h.core (fun g => g.pw f.pd (BitVec.ofNat 4096 (packBits w bits)))).stick h.core q.seq (laneFlags on (es.map Prod.snd))).slotDone cmd h

/-- VSEL: by the predicate bit at each element's byte offset. -/
def execVsel (h : SlotHdr) (f : VFmt) (s : State) : Result :=
  let w := elemBytes f.type
  vecOp (.vsel h f) w f.vd s fun r _ =>
    List.zipWith (fun p e => (if bitAt p 0 then e.1 else e.2, FFlags.none)) (splitBits w (4096 / w) (r.pr f.pd).toNat)
      ((vElems w (r.vr f.va)).zip (vElems w (r.vr f.vb)))

/-- VBCAST: the low bits of a scalar in every element. -/
def execVbcast (h : SlotHdr) (f : VFmt) (s : State) : Result :=
  let w := elemBytes f.type
  vecOp (.vbcast h f) w f.vd s fun r _ => List.replicate (4096 / w) ((r.xr f.xs).toNat % 2 ^ (8 * w), FFlags.none)

/-- Replace `n` elements of `w` bytes from element `at'` on, those enabled at their own byte offset. -/
def putPart (on : List Bool) (old : List Nat) (at' : Nat) (new : List Nat) : List Nat :=
  let n := new.length
  old.take at' ++ mergeLanes ((on.drop at').take n) ((old.drop at').take n) new ++ old.drop (at' + n)

/-- VCVT between types of whole bytes (R366, R402): n elements, from the part of VA or to the part of VD that SUB selects; a part that
does not exist raises ILLEGAL_OP (DEDUCED, log 18). An element is enabled by its place in VD (DEDUCED, log 18). -/
def vcvtPlain (cmd : Instr) (f : VFmt) (s : State) : Result :=
  slotRun cmd s fun h _ r q s =>
    let ws := elemBytes f.type
    let wd := elemBytes f.type2
    let n := 4096 / max ws wd
    let parts := max ws wd / min ws wd
    if parts ≤ f.sub then s.illegal cmd h q
    else
      let m := rndOf (q.frm.getD (s.core h.core).frm)
      let from' := if ws < wd then f.sub * n else 0
      let to' := if wd < ws then f.sub * n else 0
      let es := (((vElems ws (r.vr f.va)).drop from').take n).map (convElem f.type f.type2 m)
      let on := enabled h r wd
      let v := vPack wd (putPart on (vElems wd (r.vr f.vd)) to' (es.map Prod.fst))
      ((s.modRegs h.core (fun g => g.vw f.vd v)).stick h.core q.seq (laneFlags ((on.drop to').take n) (es.map Prod.snd))).slotDone cmd h

/-- VCVT to an MX type (R368, R402, R403): 1,024 FP32 or BF16 elements, written as a row of 1,024 elements to the low bytes of VD; SUB
selects the half of a BF16 operand (DEDUCED, log 18). -/
def vcvtToMx (cmd : Instr) (f : VFmt) (x : FFmt) (s : State) : Result :=
  slotRun cmd s fun h _ r q s =>
    let ws := elemBytes f.type
    if h.pred ≠ 0 ∨ h.pneg = true ∨ ¬ (f.type = 8 ∨ f.type = 9) ∨ 4 / ws ≤ f.sub then s.illegal cmd h q
    else
      let vs := (((vElems ws (r.vr f.va)).drop (f.sub * 1024)).take 1024).map (elemVal f.type)
      let (row, g) := mxRow x vs
      let v := vPack 1 (row.map BitVec.toNat ++ (vElems 1 (r.vr f.vd)).drop row.length)
      ((s.modRegs h.core (fun g => g.vw f.vd v)).stick h.core q.seq g).slotDone cmd h

/-- VCVT from an MX type (R402, R403): 1,024 elements to FP32, or to the half of VD that SUB selects in BF16. -/
def vcvtFromMx (cmd : Instr) (f : VFmt) (x : FFmt) (s : State) : Result :=
  slotRun cmd s fun h _ r q s =>
    let wd := elemBytes f.type2
    match fmtOf f.type2 with
    | some y =>
      if h.pred ≠ 0 ∨ h.pneg = true ∨ ¬ (f.type2 = 8 ∨ f.type2 = 9) ∨ 4 / wd ≤ f.sub then s.illegal cmd h q
      else
        let row := natLE 4096 (r.vr f.va).toNat
        let es := (mxVals x 1024 row).map (y.round (rndOf (q.frm.getD (s.core h.core).frm)))
        let v := vPack wd (putPart (enabled h r wd) (vElems wd (r.vr f.vd)) (f.sub * 1024) (es.map Prod.fst))
        ((s.modRegs h.core (fun g => g.vw f.vd v)).stick h.core q.seq (es.foldl (fun a e => a.or e.2) FFlags.none)).slotDone cmd h
    | none => s.illegal cmd h q

/-- VCVT (R366, R368, R402, R403). -/
def execVcvt (h : SlotHdr) (f : VFmt) (s : State) : Result :=
  let cmd := Instr.vcvt h f
  match isMx f.type, isMx f.type2, fmtOf f.type, fmtOf f.type2 with
  | false, true, _, some x => vcvtToMx cmd f x s
  | true, false, some x, _ => vcvtFromMx cmd f x s
  | true, true, _, _ => slotRun cmd s fun h _ _ q s => s.illegal cmd h q
  | _, _, _, _ => vcvtPlain cmd f s

/-- A function computed in FP32, its result rounded to BF16 for BF16 elements (R401). -/
def vecFn (cmd : Instr) (f : VFmt) (s : State) (g : BitVec 32 → Nat × FFlags) : Result :=
  let w := elemBytes f.type
  vecOp cmd w f.vd s fun r m =>
    (vElems w (r.vr f.va)).map (fun a =>
      if f.type = 8 then g (BitVec.ofNat 32 a)
      else
        let (b, fl) := g (BitVec.ofNat 32 (a * 65536))
        let (c, fr) := bf16.round m (fp32.decode b)
        (c, fl.or fr))

/-- VEXP2. -/
def execVexp2 (h : SlotHdr) (f : VFmt) (s : State) : Result := vecFn (.vexp2 h f) f s exp2of
/-- VRCP. -/
def execVrcp (h : SlotHdr) (f : VFmt) (s : State) : Result := vecFn (.vrcp h f) f s rcp32
/-- VRSQRT. -/
def execVrsqrt (h : SlotHdr) (f : VFmt) (s : State) : Result := vecFn (.vrsqrt h f) f s rsqrt32

/-- One level of the tree of R404: element 2i with element 2i + 1. -/
def treeLevel (g : Nat → Nat → Nat × FFlags) : List Nat → List (Nat × FFlags)
  | a :: b :: t => g a b :: treeLevel g t
  | [a] => [(a, FFlags.none)]
  | [] => []

/-- The balanced tree over a list of 2^k elements. -/
def treeReduce (g : Nat → Nat → Nat × FFlags) : Nat → List Nat → FFlags → Nat × FFlags
  | 0, xs, fl => (xs.headD 0, fl)
  | k + 1, xs, fl =>
    let l := treeLevel g xs
    treeReduce g k (l.map Prod.fst) (l.foldl (fun a e => a.or e.2) fl)

/-- VRED (R404): SUM, MIN or MAX; a larger SUB raises ILLEGAL_OP. With an element of the operand disabled its result is free (log 4). -/
def execVred (h : SlotHdr) (f : VFmt) (s : State) : Result :=
  let cmd := Instr.vred h f
  let w := elemBytes f.type
  if 2 < f.sub then slotRun cmd s fun h _ _ q s => s.illegal cmd h q
  else vecOp cmd w f.vd s fun r m =>
    let g (a b : Nat) : Nat × FFlags :=
      match f.sub with
      | 0 => arith2 0x117 f.type (· + ·) FVal.add m a b
      | 1 => arith2 0x117 f.type min FVal.minimum m a b
      | _ => arith2 0x117 f.type max FVal.maximum m a b
    let e := if (enabled h r w).all id then treeReduce g 12 (vElems w (r.vr f.va)) FFlags.none
      else (Config.vredMasked f.type f.sub (r.vr f.va) (r.pr h.pred ^^^ (if h.pneg then BitVec.allOnes 4096 else 0)), FFlags.none)
    e :: List.replicate (4096 / w - 1) (0, FFlags.none)

end Sys2Proof.Machine
end

