-- ==== Sys2Proof/Machine/Streams.lean ====
section
/-! DEFINITION. Vector loads and stores, DMA transfers, BELAY and the control instructions of the Slaica core (08, 10). -/

namespace Sys2Proof.Machine

/-! ### Vector loads and stores (R353, R354, R387, R405) -/

/-- The byte ranges of a vector register that predication enables, as offset and length, adjacent elements joined. -/
def runsOf (w : Nat) (on : List Bool) : Nat → List (Nat × Nat)
  | b =>
    match on with
    | [] => []
    | false :: t => runsOf w t (b + w)
    | true :: t =>
      match runsOf w t (b + w) with
      | (o, n) :: rest => if o = b + w then (b, n + w) :: rest else (b, w) :: (o, n) :: rest
      | [] => [(b, w)]

/-- A vector register with its enabled bytes taken from what was read at offsets from 0. -/
def fillRuns (rs : List (Nat × Nat)) (old : BitVec 32768) (got : Mem) : BitVec 32768 :=
  let m := Mem.writeN [] 0 (natLE 4096 old.toNat)
  let m := rs.foldl (fun m x => Mem.writeN m x.1 (Mem.readN got x.1 x.2)) m
  BitVec.ofNat 32768 (Mem.leRead m 0 4096)

/-- The bytes read for the runs of an access at a base, moved to register offsets. -/
def rebase (rs : List (Nat × Nat)) (base : Nat) (got : Mem) : Mem := rs.foldl (fun (m : Mem) x => Mem.writeN m x.1 (Mem.readN got (base + x.1) x.2)) []

/-- VLD (R353, R354, R387 to R389, R405). -/
def execVld (h : SlotHdr) (f : LFmt) (s : State) : Result :=
  let cmd := Instr.vld h f
  slotRun cmd s fun h k r q s =>
    let w := elemBytes f.type
    let rs := runsOf w (enabled h r w) 0
    let put (got : Mem) (s : State) : State := (s.modRegs h.core (fun g => g.vw f.vd (fillRuns rs (r.vr f.vd) got))).slotDone cmd h
    if 1 < f.sub then s.illegal cmd h q
    else if f.sub = 1 then
      let a := tileAddr r f.ra f.imm
      if rs = [] then s.slotDone cmd h
      else if rs.all (fun x => tileOk k (a + x.1) x.2) then put (rebase rs a (s.core h.core).tile) s
      else s.slotRaise cmd h q 3 .notSupported
    else match memPair r f.ra f.imm with
      | none => s.illegal cmd h q
      | some (eid, key, a) =>
        if rs = [] then s.slotDone cmd h
        else if a % w ≠ 0 then s.slotRaise cmd h q 4 .notSupported
        else
          let at' := rs.map (fun x => (a + x.1, x.2))
          s.slotMove cmd h k q eid key at' none false fun _ got s => put (rebase rs a got) s

/-- VST (R353, R354, R387 to R389, R405). -/
def execVst (h : SlotHdr) (f : LFmt) (s : State) : Result :=
  let cmd := Instr.vst h f
  slotRun cmd s fun h k r q s =>
    let w := elemBytes f.type
    let rs := runsOf w (enabled h r w) 0
    let all := Mem.writeN [] 0 (natLE 4096 (r.vr f.vd).toNat)
    if 1 < f.sub then s.illegal cmd h q
    else if f.sub = 1 then
      let a := tileAddr r f.ra f.imm
      if rs.all (fun x => tileOk k (a + x.1) x.2) then
        (rs.foldl (fun (s : State) x => s.tileWrite h.core (a + x.1) (Mem.readN all x.1 x.2)) s).slotDone cmd h
      else s.slotRaise cmd h q 3 .notSupported
    else match memPair r f.ra f.imm with
      | none => s.illegal cmd h q
      | some (eid, key, a) =>
        if rs = [] then s.slotDone cmd h
        else if a % w ≠ 0 then s.slotRaise cmd h q 4 .notSupported
        else
          let at' := rs.map (fun x => (a + x.1, x.2))
          s.slotMove cmd h k q eid key at' (some fun o n => Mem.readN all (o - a) n) false fun _ _ s => s.slotDone cmd h

/-! ### DMA (R405 to R409) -/

/-- A transfer of a core. -/
def Core.transfer? (c : Core) (id : Nat) : Option Transfer := c.transfers.find? (fun t => decide (t.id = id))

/-- Change a transfer. -/
def State.modTransfer (s : State) (n id : Nat) (f : Transfer → Transfer) : State :=
  let c := s.core n
  s.setCore n { c with transfers := c.transfers.map (fun (t : Transfer) => if t.id = id then f t else t) }

/-- The side of memory that a transfer moves bytes from or to now: its EID, key, and offset of the first byte. -/
def Transfer.side (t : Transfer) : Nat × Nat × Nat := if t.sent then (t.dstEid, t.dstKey, t.dst) else (t.srcEid, t.srcKey, t.src)

/-- Is that side the tile store? -/
def Transfer.inTile (t : Transfer) : Bool := if t.sent then t.dstTile else t.srcTile

/-- The ranges a transfer reads and writes: where, from which byte on, and whether it writes. -/
def Transfer.spans (t : Transfer) : List ((Bool × Nat × Nat) × Nat × Bool) :=
  [((t.srcTile, t.srcEid, keyIdx t.srcKey), t.src, false), ((t.dstTile, t.dstEid, keyIdx t.dstKey), t.dst, true)]

/-- Do two transfers touch a byte that one of them writes? -/
def Transfer.meets (a b : Transfer) : Bool :=
  a.spans.any (fun x => b.spans.any (fun y => decide (x.1 = y.1) && (x.2.2 || y.2.2) && decide (x.2.1 < y.2.1 + b.len) && decide (y.2.1 < x.2.1 + a.len)))

/-- Does an earlier transfer of the core that touches the same bytes go first (R324, R675)? -/
def Core.dmaBehind (c : Core) (t : Transfer) : Bool := c.transfers.any (fun x => decide (x.id < t.id) && x.meets t)

/-- Does a transfer read from, or now write to, another controller? -/
def State.dmaFar (s : State) (t : Transfer) : Bool := !t.inTile && !s.isOwn t.side.1

/-- The transactions that are left of a transfer's present side at another controller (R408): a counted write takes one for each block of 4 KiB. -/
def State.dmaLeft (s : State) (t : Transfer) : List (Nat × Nat) :=
  let off := t.side.2.2 + t.pos
  if t.sent && t.ckey.isSome then blocks off (t.len - t.pos) else s.farCuts t.side.1 off (t.len - t.pos)

/-- Send the next transaction of a transfer to or from another controller (R408). -/
def State.dmaSend (s : State) (n : Nat) (ctx : Nat) (t : Transfer) : State :=
  match s.dmaLeft t with
  | [] => s
  | (o, l) :: _ =>
    let data := Mem.readN t.buf t.pos l
    if !t.sent then s.sendRead (.dma n t.id) ctx t.srcEid t.srcKey o l
    else match t.ckey with
      | some k => s.sendTxn (.dma n t.id) ctx t.dstEid opCounted t.dstKey o k data false
      | none => s.sendWrite (.dma n t.id) ctx t.dstEid t.dstKey o data

/-- Hold a transfer's or a belay's access on what it met, or raise the exception of its status (R88, R94, R181, R374, R378). -/
def State.coreMet (s : State) (cmd : Instr) (n engine : Nat) (k : KernelRun) (access rid off : Nat) (m : Met) (runTime : Bool := true) : State :=
  match s.holdOn { cmd := cmd, i := s.kernelIssuer k, access := access, runTime := runTime, hw := coreUnit n engine, limit := 0, needRoom := false, work := runTime } rid off m with
  | (s, some st) => (s.selfLogged cmd (kernelCtx k.words) st).accessFail cmd (excOf st) st
  | (s, none) =>
    match m with
    | .fault kind page =>
      let seq := match s.home.faults.find? (fun f => decide (f.rid = rid ∧ f.page = page ∧ f.kind = kind)) with | some f => f.seq | none => 0
      let c := s.core n
      s.setCore n { c with
        st := if c.st = .running then .stalled else c.st
        kernel := c.kernel.map (fun k => { k with stalledOn := seq + 1, stalledAt := s.now }) }
    | _ => s

/-- The ranges of a transfer at this controller, each with the rights it needs: region, offset, and whether it is written. -/
def State.dmaRanges (s : State) (i : Issuer) (t : Transfer) : List (Option (Nat × Nat × Bool)) :=
  (if t.srcTile || !s.isOwn t.srcEid then [] else [(s.permit t.srcEid t.srcKey t.src t.len needR i).map (fun x => (x.1, t.src, false))])
    ++ (if t.dstTile || !s.isOwn t.dstEid then [] else [(s.permit t.dstEid t.dstKey t.dst t.len needW i).map (fun x => (x.1, t.dst, true))])

/-- Start a transfer: `ckey` for a counted write (R405 to R407). Its ranges at this controller are checked and translated now (R79, R82), and an absent
page of one stalls it (R94). -/
def dmaStart (cmd : Instr) (f : LFmt) (rw : Bool) (s : State) : Result :=
  slotRun cmd s fun h k r q s =>
    let c := s.core h.core
    let len := (r.xr f.rc).toNat
    let srcTile := bitAt f.sub 0
    let dstTile := bitAt f.sub 1
    let src : Option (Nat × Nat × Nat) := if srcTile then some (0, 0, (r.xr f.rb).toNat) else memPair r f.rb 0
    let dst : Option (Nat × Nat × Nat) := if dstTile then some (0, 0, tileAddr r f.ra f.imm) else memPair r f.ra f.imm
    if 3 < f.sub ∨ (rw = true ∧ dstTile = true) ∨ len = 0 ∨ 4294967295 < len then s.illegal cmd h q
    else match src, dst with
      | some a, some b =>
        if (srcTile && !tileOk k a.2.2 len) || (dstTile && !tileOk k b.2.2 len) then s.slotRaise cmd h q 3 .notSupported
        else if 64 ≤ c.transfers.length then s
        else
          let t : Transfer :=
            { id := s.nextId, bundle := q.bundle, srcTile := srcTile, srcEid := a.1, srcKey := a.2.1, src := a.2.2, dstTile := dstTile,
              dstEid := b.1, dstKey := b.2.1, dst := b.2.2, len := len, ckey := if rw then some ((r.xr f.re).toNat % 4294967296) else none,
              buf := [], pos := 0, sent := false }
          let rs := s.dmaRanges (s.kernelIssuer k) t
          if rs.any Option.isNone then
            (if rw ∧ s.isOwn b.1 = true then (s.selfLog b.1 (kernelCtx k.words) .key 0).1 else s).slotRaise cmd h q 6 .key
          else
            let rs := rs.filterMap id
            let (s, caps) := State.capture { s with nextId := s.nextId + 1 } t.id (rs.map (fun x => (x.1, x.2.1, len)))
            let t := { t with pages := caps }
            let s := s.setCore h.core { c with transfers := c.transfers ++ [t] }
            let s := match rs.findSome? (fun x => (s.absentIn x.1 x.2.1 len).map (fun p => (x, p))) with
              | some (x, p) => s.coreMet (.dmaTransferEnd h.core t.id) h.core 3 k (if x.2.2 then 4 else 3) x.1 x.2.1 (.fault 1 p) false
              | none => if s.dmaFar t && !c.dmaBehind t then s.dmaSend h.core (kernelCtx k.words) t else s
            s.slotDone cmd h
      | _, _ => s.illegal cmd h q

/-- DMA.COPY (R405 to R407). -/
def execDmaCopy (h : SlotHdr) (f : LFmt) (s : State) : Result := dmaStart (.dmaCopy h f) f false s

/-- DMA.RW (R228, R405 to R407). -/
def execDmaRw (h : SlotHdr) (f : LFmt) (s : State) : Result := dmaStart (.dmaRw h f) f true s

/-- An access of a belay to memory of this controller: R62 at use, the lease, then what it meets. -/
def State.coreAccess (s : State) (cmd : Instr) (n engine : Nat) (k : KernelRun) (eid key off len : Nat) (need : Rights) (access : Nat)
    (meet : Nat → Region → State → Met) (body : Nat → Region → State → State) : State :=
  match s.permit eid key off len need (s.kernelIssuer k) with
  | none => s.accessFail cmd 6 .key
  | some (rid, rg) =>
    match s.gate rid rg with
    | some why => s.holdCmd cmd why 0 s.lmf.eid (kernelCtx k.words)
    | none =>
      match meet rid rg s with
      | .clear => (body rid rg s).unstall n
      | m => s.coreMet cmd n engine k access rid off m

/-- A transfer is over, and gives its pages back (R79). -/
def State.dmaOver (s : State) (n id : Nat) : State :=
  let c := s.core n
  let s := s.setCore n { c with transfers := c.transfers.filter (fun (t : Transfer) => decide (t.id ≠ id)) }
  match c.transfer? id with
  | some t => s.uncapture id t.pages
  | none => s

/-- Perform one transaction of a transfer at this controller: a read, a write, or a counted write (R229, R230, R408). -/
def State.dmaPart (s : State) (n : Nat) (k : KernelRun) (rid : Nat) (rg : Region) (t : Transfer) (x : Nat × Nat) : State :=
  let data := Mem.readN t.buf t.pos x.2
  if !t.sent then
    let (s, bs) := s.slotRead (coreUnit n 3) k rid rg x.1 x.2
    s.modTransfer n t.id (fun t => { t with buf := Mem.writeN t.buf t.pos bs, pos := t.pos + x.2 })
  else
    let s := match t.ckey with
      | none => s.slotWrite (coreUnit n 3) n k rid rg x.1 data
      | some ck =>
        let (s, note) := ((s.putCounted false rid x.1 ck data).event (coreUnit n 3) 4 data.length (some (kernelCtx k.words))).selfLog t.dstEid (kernelCtx k.words) .ok 0
        s.forward rid x.1 data (.core n) (some note)
    s.modTransfer n t.id (fun t => { t with pos := t.pos + x.2 })

/-- What one transaction of a transfer at this controller meets. -/
def State.dmaMet (s : State) (k : KernelRun) (rid : Nat) (rg : Region) (t : Transfer) (x : Nat × Nat) : Met :=
  match t.sent, t.ckey with
  | true, some ck => if s.counterFor ck rid then s.meetWrite rid rg .direct x.1 x.2 else .stop .key
  | w, _ => s.partMet k rid rg w false x

/-- Perform the transactions of a transfer's present side at this controller until one is stopped. -/
def State.dmaRun (n id : Nat) (k : KernelRun) (rid : Nat) : List (Nat × Nat) → State → State × Option (Nat × Met)
  | [], s => (s, none)
  | x :: rest, s =>
    match (s.core n).transfer? id, s.region? rid with
    | some t, some rg =>
      match s.dmaMet k rid rg t x with
      | .clear => dmaRun n id k rid rest (s.dmaPart n k rid rg t x)
      | m => (s, some (x.1, m))
    | _, _ => (s, some (x.1, .stop .key))

/-- Carry a transfer's present side on at this controller: on the pages it translated when it was queued (R80, R81), each line of a coherent region by
itself (R873). Bytes already moved stay moved (R409). -/
def State.dmaOwn (s : State) (cmd : Instr) (n : Nat) (k : KernelRun) (t : Transfer) : State :=
  let (_, key, base) := t.side
  match capsRegion t.pages key (base + t.pos) with
  | none => s.accessFail cmd 6 .key
  | some rid =>
    match s.region? rid with
    | none => s.accessFail cmd 6 .key
    | some rg =>
      match s.gate rid rg with
      | some why => s.holdCmd cmd why 0 s.lmf.eid (kernelCtx k.words)
      | none =>
        let old := s.remapped t.id t.pages
        let s := s.overlay t.id t.pages
        let off := base + t.pos
        let cuts := if rg.mode = .coherent ∧ ¬(t.sent = true ∧ t.ckey.isSome = true) then lineCuts off (t.len - t.pos) else blocks off (t.len - t.pos)
        match State.dmaRun n t.id k rid cuts s with
        | (s, none) => (s.restore old).unstall n
        | (s, some (o, m)) => (s.restore old).coreMet cmd n 3 k (if t.sent then 4 else 3) rid o m

/-- DMA_TRANSFER_END (R389, R405, R408): what is left of a transfer is carried on: its bytes are read, then written, and it ends when the last of its
writes has been performed. A transfer whose page was absent is translated whole again (R90). -/
def execDmaTransferEnd (core id : Nat) (s : State) : Result :=
  whenUp s fun s =>
    let cmd := Instr.dmaTransferEnd core id
    match (s.core core).transfer? id, (s.core core).kernel with
    | some t, some k =>
      if s.home.held.any (fun h => decide (h.cmd = cmd)) || s.txnLive (fun w => decide (w = .dma core id)) || (s.core core).dmaBehind t then .next s
      else
        let (s, t) : State × Transfer := match s.replay.map Again.why with
          | some (.fault _) =>
            let (s, caps) := s.recapture id t.pages
            (s.modTransfer core id (fun t => { t with pages := caps }), { t with pages := caps })
          | _ => (s, t)
        if t.pos < t.len then
          if t.inTile then
            if t.sent then .next ((s.tileWrite core t.dst (Mem.readN t.buf 0 t.len)).dmaOver core id)
            else .next ((s.modTransfer core id (fun t => { t with buf := Mem.writeN [] 0 (s.tileRead core t.src t.len), pos := t.len })).unstall core)
          else if s.dmaFar t then .next ((s.dmaSend core (kernelCtx k.words) t).unstall core)
          else .next (s.dmaOwn cmd core k t)
        else if t.sent then .next (s.dmaOver core id)
        else
          let t' := { t with sent := true, pos := 0 }
          let s := s.modTransfer core id (fun _ => t')
          .next (if s.dmaFar t' then s.dmaSend core (kernelCtx k.words) t' else s)
    | _, _ => .next s

/-- A transaction of a transfer has completed (R408, R409). -/
def State.dmaReply (s : State) (n id : Nat) (st : Status) (data : Bytes) : State :=
  match (s.core n).transfer? id, (s.core n).kernel with
  | some t, some k =>
    match st with
    | .ok =>
      let l := match s.dmaLeft t with | (_, l) :: _ => l | [] => 0
      let t' : Transfer := { t with buf := if t.sent then t.buf else Mem.writeN t.buf t.pos data, pos := t.pos + l }
      ((s.event (coreUnit n 3) (if t.sent then 4 else 3) l (some (kernelCtx k.words))).modTransfer n id (fun _ => t')).dmaSend n (kernelCtx k.words) t'
    | .paused => s.dmaSend n (kernelCtx k.words) t
    | st => s.accessFail (.dmaTransferEnd n id) (excOf st) st
  | _, _ => s

/-! ### BELAY (R326 to R335, R339, R423 to R427) -/

/-- The belay of an identifier. -/
def Core.belay? (c : Core) (id : Nat) : Option Belay := c.belays.find? (fun b => decide (b.id = id))

/-- Take a belay away. -/
def State.belayOver (s : State) (n id : Nat) : State :=
  let c := s.core n
  s.setCore n { c with belays := c.belays.filter (fun (b : Belay) => decide (b.id ≠ id)) }

/-- Change a belay. -/
def State.modBelay (s : State) (n id : Nat) (f : Belay → Belay) : State :=
  let c := s.core n
  s.setCore n { c with belays := c.belays.map (fun (b : Belay) => if b.id = id then f b else b) }

/-- Does a belay word satisfy a target: (w − t) as a signed number is zero or more (R329)? -/
def belayOk (w t : DWord) : Bool := !(w - t).msb

/-- The acquires of this controller's own engines that wait at this home. -/
def State.ownAcquires (s : State) : Nat :=
  (s.cores.map (fun c => (c.2.belays.filter (fun b => b.acq && !b.tile && decide (b.retryAt = 0) && s.isOwn b.eid)).length)).sum

/-- Do the memory acquires that wait at this home number 1,024 already (R427)? -/
def State.acquiresFull (s : State) : Bool := decide (1024 ≤ s.home.acquires.length + s.ownAcquires)

/-- Issue a BELAY from its slot (R321, R323, R423 to R426): an acquire on a word of another controller sends its request. -/
def belayIssue (cmd : Instr) (f : SFmt) (acq : Bool) (s : State) : Result :=
  slotRun cmd s fun h k r q s =>
    let tile := bitAt f.sub 3
    let place : Option (Nat × Nat × Nat) := if tile then some (0, 0, tileAddr r f.ra f.imm) else memPair r f.ra f.imm
    match place with
    | none => s.illegal cmd h q
    | some (eid, key, a) =>
      if 4 < f.sub % 8 then s.illegal cmd h q
      else if a % 8 ≠ 0 then s.slotRaise cmd h q 4 .notSupported
      else if tile && !tileOk k a 8 then s.slotRaise cmd h q 3 .notSupported
      else
        let far := !tile && !s.isOwn eid
        let b : Belay :=
          { id := s.nextId, bundle := q.bundle, acq := acq, engine := engineOf cmd, scope := f.sub % 8, tile := tile, addr := a, eid := eid, key := key,
            value := r.xr f.rb, retryAt := if acq && !tile && !far && s.acquiresFull then s.now + 1000 else 0, satisfied := false }
        let c := s.core h.core
        let s := { s.setCore h.core { c with belays := c.belays ++ [b] } with nextId := s.nextId + 1 }
        let s := if acq && far then s.sendTxn (.belay h.core b.id) (kernelCtx k.words) eid opAcquire key a 0 (natLE 8 b.value.toNat) true else s
        s.slotDone cmd h

/-- BELAY.REL (R328, R423 to R425). -/
def execBelayRel (h : SlotHdr) (f : SFmt) (s : State) : Result := belayIssue (.belayRel h f) f false s

/-- BELAY.ACQ (R329, R423, R424, R426). -/
def execBelayAcq (h : SlotHdr) (f : SFmt) (s : State) : Result := belayIssue (.belayAcq h f) f true s

/-- The scopes of R329 in the order in which they nest: engine, core, die, device, team; the codes 0 to 4 of SUB (R423). -/
inductive Scope where
  | engine | core | die | device | team
  deriving DecidableEq, Repr

/-- The scope of its code. -/
def scopeOf (code : Nat) : Scope :=
  match code with
  | 0 => .engine
  | 1 => .core
  | 2 => .die
  | 3 => .device
  | _ => .team

/-- An engine of a core of a controller: EID, core, engine. -/
structure EngineId where
  eid : Nat
  core : Nat
  engine : Nat
  deriving DecidableEq, Repr

/-- Is it one of the four engines of the four cores of a controller (R320)? -/
def EngineId.real (e : EngineId) : Bool := decide (e.core < 4) && decide (e.engine < 4)

/-- Does a scope contain an engine, for an issuing engine of this controller (R329, R330)? Outside a rope team, team scope holds what device scope holds
(R334). -/
def State.scopeHas (s : State) (sc : Scope) (e x : EngineId) : Bool :=
  x.real &&
  match sc with
  | .engine => decide (x = e)
  | .core => decide (x.eid = e.eid) && decide (x.core = e.core)
  | .die => decide (x.eid = e.eid) && decide (x.core / 2 = e.core / 2)
  | .device => decide (x.eid = e.eid)
  | .team => decide (x.eid = e.eid) || (s.inTeam e.eid && s.inTeam x.eid)

/-- Has a release's scope performed a transfer of its engine (R329)? Engine scope orders it in the engine's own queue; core scope needs its bytes in the
tile store or passed on, die and device scope what it writes to this controller performed, and team scope all of it completed. -/
def State.scopeDone (s : State) (sc : Scope) (t : Transfer) : Bool :=
  match sc with
  | .engine => true
  | .core => t.sent && !t.dstTile
  | .team => false
  | _ => t.sent && !t.dstTile && !s.isOwn t.dstEid

/-- Have the accesses of the engine that precede a release been performed at its scope (R328)? The DMA engine's are its transfers; the other engines end an
access before they go on. At die scope and wider, writes that a mirror partner has still to hold are not performed (R737). -/
def State.relReady (s : State) (n : Nat) (b : Belay) : Bool :=
  let c := s.core n
  let sc := scopeOf b.scope
  (decide (b.engine ≠ 3) || c.transfers.all (fun t => decide (b.id < t.id) || s.scopeDone sc t))
    && c.belays.all (fun x => x.acq || decide (x.engine ≠ b.engine) || decide (b.id ≤ x.id) || decide (sc = .engine) || (x.satisfied && decide (sc ≠ .team)))
    && (decide (sc = .engine) || decide (sc = .core) || !s.mirroring (.core n))

/-- BELAY_REL_STORE (R326 to R328): the release stores its value, in the tile store, at this home as a direct update, or at another
home. -/
def execBelayRelStore (core id : Nat) (s : State) : Result :=
  whenUp s fun s =>
    let cmd := Instr.belayRelStore core id
    let c := s.core core
    match c.belay? id, c.kernel with
    | some b, some k =>
      if b.acq || b.satisfied || !s.relReady core b || s.home.held.any (fun h => decide (h.cmd = cmd)) then .next s
      else
        let data := natLE 8 b.value.toNat
        if b.tile then .next ((s.tileWrite core b.addr data).belayOver core id)
        else if s.isOwn b.eid then
          .next (s.coreAccess cmd core b.engine k b.eid b.key b.addr 8 needW 4 (fun rid rg s => s.meetWrite rid rg .direct b.addr 8) fun rid _ s =>
            (((s.writeRange rid .direct b.addr data).touchRange false rid .pub b.addr 8).forward rid b.addr data (.core core)).belayOver core id)
        else
          .next ((s.modBelay core id (fun b => { b with satisfied := true })).sendTxn (.belay core id) (kernelCtx k.words) b.eid opBelay b.key b.addr 0 data true)
    | _, _ => .next s

/-- BELAY_ACQ_SATISFIED (R326, R329, R331, R339): the word satisfies the acquire, and the engine's later accesses proceed. A poisoned word
raises POISON, and a fault stalls. -/
def execBelayAcqSatisfied (core id : Nat) (s : State) : Result :=
  whenUp s fun s =>
    let cmd := Instr.belayAcqSatisfied core id
    let c := s.core core
    match c.belay? id, c.kernel with
    | some b, some k =>
      if !b.acq || s.home.held.any (fun h => decide (h.cmd = cmd)) then .next s
      else if b.tile then
        if belayOk (BitVec.ofNat 64 (Mem.leRead c.tile b.addr 8)) b.value then .next (s.belayOver core id) else .next s
      else if s.isOwn b.eid then
        if b.retryAt ≠ 0 then .next s
        else .next (s.coreAccess cmd core b.engine k b.eid b.key b.addr 8 needR 3 (fun rid rg s => s.meetRead rid rg .pub b.addr 8) fun rid rg s =>
          if belayOk (BitVec.ofNat 64 (leNat (s.readRange rg .pub b.addr 8))) b.value then
            (s.readDone false rid .pub b.addr 8).belayOver core id
          else s)
      else if b.satisfied then .next (s.belayOver core id)
      else .next s
    | _, _ => .next s

/-- A belay's request at another home has completed (R328, R427): a store is done; an acquire's word satisfies it, or the engine asks again
after 1 µs. -/
def State.belayReply (s : State) (n id : Nat) (st : Status) (data : Bytes) : State :=
  match (s.core n).belay? id, (s.core n).kernel with
  | some b, some k =>
    match st with
    | .ok =>
      if !b.acq then s.belayOver n id
      else if belayOk (BitVec.ofNat 64 (leNat data)) b.value then s.modBelay n id (fun b => { b with satisfied := true })
      else s.modBelay n id (fun b => { b with retryAt := s.now + 1000 })
    | .paused =>
      if b.acq then s.modBelay n id (fun b => { b with retryAt := s.now + 1000 })
      else s.sendTxn (.belay n id) (kernelCtx k.words) b.eid opBelay b.key b.addr 0 (natLE 8 b.value.toNat) true
    | st => s.accessFail (if b.acq then .belayAcqSatisfied n id else .belayRelStore n id) (excOf st) st
  | _, _ => s

/-- ACQUIRE_RETRY (R427): 1 µs after an overflow answer the engine sends its acquire again. -/
def execAcquireRetry (core id : Nat) (s : State) : Result :=
  whenUp s fun s =>
    match (s.core core).belay? id, (s.core core).kernel with
    | some b, some k =>
      if !b.acq || decide (b.retryAt = 0) || decide (s.now < b.retryAt) then .next s
      else if s.isOwn b.eid then
        .next (s.modBelay core id (fun b => { b with retryAt := if s.acquiresFull then s.now + 1000 else 0 }))
      else
        .next ((s.modBelay core id (fun b => { b with retryAt := 0 })).sendTxn (.belay core id) (kernelCtx k.words) b.eid opAcquire b.key b.addr 0
          (natLE 8 b.value.toNat) true)
    | _, _ => .next s

/-- BELAY_ACCESS (R326, R327, R339, R427): a belay store or an acquire of another controller's engine at the word's home. -/
def execBelayAccess (q0 : LmfReq) (store : Bool) (value : DWord) (s : State) : Result :=
  whenUp s fun s =>
    let q := s.sourced q0
    let cmd := Instr.belayAccess q store value
    match s.arrive cmd q false store with
    | .error s => .next s
    | .ok s =>
      if q.offset % 8 ≠ 0 then .next (s.complete q .notSupported [])
      else if store then
        s.serve cmd { q with len := 8 } needW fun rid rg s =>
          match s.meetWrite rid rg .direct q.offset 8 with
          | .clear =>
            let data := natLE 8 value.toNat
            .next (((s.writeRange rid .direct q.offset data).touchRange true rid .pub q.offset 8).answerAfter rid q.offset data none .ok (.lmf q []))
          | m => .next (s.lmfMet cmd q 1 rid m)
      else
        s.serve cmd { q with len := 8 } needR fun rid rg s =>
          match s.meetRead rid rg .pub q.offset 8 with
          | .clear =>
            let w := s.readRange rg .pub q.offset 8
            let s := s.readDone true rid .pub q.offset 8
            if belayOk (BitVec.ofNat 64 (leNat w)) value || s.acquiresFull then .next (s.complete q .ok w)
            else
              let a : Acquire :=
                { eid := q.srcEid, tag := q.tag, gen := q.gen, rid := rid, key := q.key, off := q.offset, target := value, limit := s.limitOf q }
              .next { s with home.acquires := s.home.acquires ++ [a] }
          | m => .next (s.lmfMet cmd q 0 rid m)

/-- Answer the waiting acquires of other controllers whose words satisfy them (R329, R426); one whose LIMIT nears is answered with the
word's value, as one that overflows is (DESIGN CHOICE, log 2). -/
def State.acquireSweep (s : State) : State :=
  s.home.acquires.foldl (fun (s : State) a =>
    let out (st : Status) (w : Bytes) : State :=
      State.emit { s with home.acquires := s.home.acquires.filter (fun (x : Acquire) => decide (x ≠ a)) } (.cpl a.eid a.tag a.gen st w)
    match s.region? a.rid with
    | none => out .key []
    | some rg =>
      if rg.draining then out .key []
      else match s.meetRead a.rid rg .pub a.off 8 with
        | .clear =>
          let w := s.readRange rg .pub a.off 8
          if belayOk (BitVec.ofNat 64 (leNat w)) a.target || decide (a.limit ≤ s.now + 10000) then out .ok w else s
        | .stop st => out st []
        | _ => s) s

/-- Has work reached a core whose domain was entering GATED or OFF (R693)? -/
def State.coreStirred (s : State) (d : Domain) : Bool :=
  match d with
  | .core n => (match (s.core n).st with | .idle => false | .gated => false | _ => true)
  | _ => false

/-- A domain whose entry is under way has stopped (R689, R690), unless work came first: an OFF core has lost its tile store and registers
(R688, R372). -/
def State.domainDown (s : State) (e : DomEntry) : State :=
  match e.st with
  | .entering off =>
    if s.coreStirred e.dom then s.wakeDomain e.dom
    else
    let s := s.setDomain { e with
      st := if off then .off else .gated
      stop := if e.cause = 0 then s.now else e.stop
      cause := if off then 2 else 1 }
    (match e.dom with
     | .core n =>
       let c := s.core n
       if off then s.setCore n { c with st := .off, tile := [], regs := RegFile.zero, acc := [], lastOk := false } else s.setCore n { c with st := .gated }
     | _ => s)
  | _ => s

/-- Fabric time after one AON cycle of 40 ns at the rate in force (R705), in ns and units of 2⁻³² ns. -/
def TimeUnit.advance (t : TimeUnit) : TimeUnit :=
  let step : Int := 40 * 4294967296 + 40 * 4294967296 * t.rate / 100000000
  let total := t.frac + step.toNat
  { t with now := (t.now + total / 4294967296) % 18446744073709551616, frac := total % 4294967296 }

/-- Time passes by one AON cycle: entries into GATED and OFF complete, waiting acquires are looked at, and, but in bivouac (R822), trace records go to
their ring (DESIGN CHOICE, log 2). -/
def State.tick (s : State) : State :=
  let s := if s.runs then s.pow.doms.foldl State.domainDown s.acquireSweep else s
  let s := if s.runs && !s.pow.bivouac then s.traceFlush else s
  if s.pkg.aonUp then { s with time := s.time.advance } else s

/-! ### Control (R352, R419 to R422) -/

/-- Go on at a code offset (R420). -/
def branchTo (cmd : Instr) (h : SlotHdr) (k : KernelRun) (q : QSlot) (target : Int) (s : State) : State :=
  if target % 128 ≠ 0 then s.illegal cmd h q
  else if target < 0 ∨ (wAt k.words 5 : Int) ≤ target then s.slotRaise cmd h q 5 .key
  else
    let c := s.core h.core
    (s.setCore h.core { c with kernel := c.kernel.map (fun k => { k with pos := target.toNat }) }).slotDone cmd h

/-- BR (R419, R420). -/
def execBr (h : SlotHdr) (f : CFmt) (s : State) : Result :=
  let cmd := Instr.br h f
  slotRun cmd s fun h k _ q s => branchTo cmd h k q ((q.bundle : Int) + f.imm.toInt) s

/-- BRX (R419, R420). -/
def execBrx (h : SlotHdr) (f : CFmt) (s : State) : Result :=
  let cmd := Instr.brx h f
  slotRun cmd s fun h k r q s => branchTo cmd h k q ((r.xr f.ra).toNat : Int) s

/-- WAITCNT (R232, R419, R421, R422). -/
def execWaitcnt (h : SlotHdr) (f : CFmt) (s : State) : Result :=
  let cmd := Instr.waitcnt h f
  slotRun cmd s fun h k r q s =>
    let ck := (r.xr f.ra).toNat % 4294967296
    if 2 < f.sub then s.illegal cmd h q
    else match s.counterOf ck (s.kernelIssuer k) with
      | none => s.slotRaise cmd h q 6 .key
      | some ctr =>
        let w : Wait :=
          { id := s.nextId, ckey := ck, sel := f.sub, tBytes := (r.xr f.rb).toNat, tPkts := (r.xr f.rc).toNat, who := .core h.core, eid := s.lmf.eid,
            ctx := kernelCtx k.words }
        if w.holds ctr then s.slotDone cmd h
        else
          let c := s.core h.core
          State.slotDone { s.setCore h.core { c with waitId := some w.id } with nextId := s.nextId + 1, home.waits := s.home.waits ++ [w] } cmd h

/-- WAITCNT_WAKE (R338, R422): the condition holds, and the front end goes on. -/
def execWaitcntWake (core : Nat) (s : State) : Result :=
  whenUp s fun s =>
    let c := s.core core
    match c.waitId with
    | none => .next s
    | some id =>
      match s.home.waits.find? (fun w => decide (w.id = id)) with
      | none => .next s
      | some w =>
        match Tab.get? s.home.counters (keyIdx w.ckey) with
        | some ctr =>
          if w.holds ctr then
            .next { s.setCore core { c with waitId := none } with home.waits := s.home.waits.filter (fun (x : Wait) => decide (x.id ≠ id)) }
          else .next s
        | none => .next s

/-- HALT (R374, R419): no later bundle is dispatched, and the kernel drains. -/
def execHalt (h : SlotHdr) (f : CFmt) (s : State) : Result :=
  let cmd := Instr.halt h f
  slotRun cmd s fun h _ _ q s =>
    let c := s.core h.core
    if c.st = .stalled then s
    else (s.setCore h.core { c with
        st := .draining
        kernel := c.kernel.map (fun k => if k.exc = 0 ∧ k.st = Status.ok then { k with bundle := q.bundle } else k) }).slotDone cmd h

end Sys2Proof.Machine
end

