-- ==== Sys2Proof/Machine/Kernels.lean ====
section
/-! DEFINITION. Kernels on the Slaica cores (09): dispatch, preparation, the bundles of the front end, the end of a kernel, suspension and resumption. -/

namespace Sys2Proof.Machine

/-- AFFINITY of a descriptor (R369). -/
def kernelAff (ws : List Word) : Nat := fld (wAt ws 7) 31 16

/-- May a queued kernel start: the first of its context, none of whose work is held back (R94, R373), in the mode's context (R462)? -/
def State.kernelMayStart (s : State) (k : KernelQ) : Bool :=
  let ctx := kernelCtx k.words
  decide ((s.kernels.find? (fun x => decide (kernelCtx x.words = ctx))).map KernelQ.id = some k.id) && !s.ctxStalled ctx && (s.codeAbsent k).isNone
    && (match s.expert.ssd with | some c => decide (c = ctx) | none => true)

/-- KERNEL_DISPATCH (R372, R374, R462): the queued kernel that may start goes to a free core, the one of its last context and affinity
first. -/
def execKernelDispatch (core : Nat) (s : State) : Result :=
  whenUp s fun s =>
    if !s.coreFree core || decide (s.bci.phase = .switching) then .next s
    else match s.kernels.find? s.kernelMayStart with
      | none => .next s
      | some k =>
        if s.betterCore core (kernelCtx k.words) (kernelAff k.words) then .next s
        else
          let c := s.core core
          let s := { s with kernels := s.kernels.filter (fun (x : KernelQ) => decide (x.id ≠ k.id)) }
          .next ((s.setCore core { c with kernel := some k.run }).startCore core)

/-- CLOCKS_STABLE (R374): the clocks of a waking core are stable. -/
def execClocksStable (core : Nat) (s : State) : Result :=
  whenUp s fun s =>
    let c := s.core core
    if c.st = .waking then
      .next ((s.setCore core { c with st := .preparing }).domainUp (.core core))
    else .next s

/-- The registers at the start of a kernel (R373). -/
def startRegs (ws : List Word) (kept : Bool) : RegFile :=
  let f := (upto 8).foldl (fun (f : RegFile) i => f.xw (i + 1) (BitVec.ofNat 64 (dAt ws (8 + 2 * i)))) RegFile.zero
  f.xw 9 (if kept then 1 else 0)

/-- PREPARE_DONE (R344, R372, R373, R383, R799, R811): the kernel starts: registers set, the tile store kept or zeroed. A kernel that something has ended meanwhile
drains. -/
def execPrepareDone (core : Nat) (s : State) : Result :=
  whenUp s fun s =>
    let c := s.core core
    if c.st ≠ .preparing then .next s
    else match c.kernel with
      | none => if s.coreBatch core then .next (s.setCore core { c with st := .running }) else .next (s.setCore core { c with st := .idle })
      | some k =>
        let ctx := kernelCtx k.words
        let kept := bitAt (wAt k.words 0) 8 && c.lastOk && decide (c.lastCtx = ctx) && decide (c.lastAff = kernelAff k.words) && c.saved.isEmpty
        let line := match Tab.get? s.bci.contexts ctx with | some x => x.lineMode | none => false
        .next ((s.coreStart core ctx (wAt k.words 27)).setCore core { c with
          st := if k.exc = 0 then .running else .draining
          regs := startRegs k.words kept
          acc := []
          tile := if kept then c.tile else []
          flags := 0
          frm := BitVec.ofNat 2 (fld (wAt k.words 0) 11 10)
          queues := [], transfers := [], belays := [], parts := [], waitId := none
          kernel := some { k with tsKept := kept, lineMode := line } })

/-- Do the queues of 32 entries take all of a bundle's slots (R352)? -/
def bundleFits (c : Core) (is : List Instr) : Bool :=
  (upto 5).all (fun e => decide ((Tab.getD c.queues e []).length + (is.filter (fun i => decide (engineOf i = e))).length ≤ 32))

/-- Do two slots of a bundle write one register (R349)? -/
def doubleWrite : List Instr → Bool
  | [] => false
  | i :: t => t.any (fun j => meets (writesOf i) (writesOf j)) || doubleWrite t

/-- The slots of a bundle as 128-bit numbers. -/
def slotWords (bs : Bytes) : List Nat := (upto 8).map (fun i => leNat ((bs.drop (16 * i)).take 16))

/-- Decode a bundle (R346 to R349): an exception, or its slots in order. -/
def decodeBundle (core : Nat) (bs : Bytes) : Except Nat (List Instr) :=
  let ws := slotWords bs
  let is := (ws.zipIdx).map (fun p => decodeSlot core p.2 p.1)
  let good := is.filterMap id
  if ws.any (fun w => decide (fld w 19 17 ≠ 0)) || doubleWrite good then .error 1
  else if is.any Option.isNone then .error 2
  else .ok good

/-- BUNDLE_DISPATCH (R346 to R352, R359, R371, R374, R377): the front end fetches the next bundle from the translated code and places its
slots in the engines' queues; they count as the engines' instructions (R796; DESIGN CHOICE, log 22: at their dispatch, a control slot as the front end's). -/
def execBundleDispatch (core : Nat) (s : State) : Result :=
  whenUp s fun s =>
    let cmd := Instr.bundleDispatch core
    let c := s.core core
    match c.kernel with
    | none => .next s
    | some k =>
      if c.st ≠ .running ∨ Tab.getD c.queues 4 [] ≠ [] ∨ c.waitId.isSome = true ∨ s.home.held.any (fun h => decide (h.cmd = cmd)) = true then .next s
      else if wAt k.words 5 ≤ k.pos then .next (s.kernelStop core 5 .key 5 k.pos)
      else
        let rid := s.ridOf s.lmf.eid (wAt k.words 2)
        let off := dAt k.words 3 + k.pos
        let old := s.remapped k.id k.pages
        let s := s.overlay k.id k.pages
        match s.region? rid with
        | none => .next (s.accessFail cmd 6 .key)
        | some rg =>
          let v := s.kernelView k rid off 128
          match s.meetRead rid rg v off 128 with
          | .clear =>
            let bs := s.readRange rg v off 128
            let s := (s.readDone false rid v off 128).restore old
            match decodeBundle core bs with
            | .error e => .next (s.kernelStop core e .notSupported 5 k.pos)
            | .ok is =>
              if !bundleFits c is then .next s
              else
                let push (t : Tab (List QSlot)) (i : Instr) : Tab (List QSlot) :=
                  Tab.set t (engineOf i) (Tab.getD t (engineOf i) [] ++ [{ cmd := i, regs := RegFile.zero, frm := none, flags := none, bundle := k.pos, seq := k.seq + 1 }])
                let s := (upto 4).foldl (fun (s : State) e =>
                  s.event (coreUnit core e) 1 (is.filter (fun i => decide (engineOf i = e ∨ e = 0 ∧ engineOf i = 4))).length (some (kernelCtx k.words))) s
                .next (s.setCore core { c with
                  queues := is.foldl push c.queues
                  kernel := some { k with pos := k.pos + 128, seq := k.seq + 1, started := true, start := if k.started then k.start else s.now } })
          | m => .next ((s.coreMet cmd core 0 k 3 rid off m).restore old)

/-- Is anything of a core's kernel still under way: slots, transfers, belays, transactions, holds, updates at a mirror partner (R375)? -/
def State.coreBusy (s : State) (n : Nat) : Bool :=
  let c := s.core n
  c.queues.any (fun e => decide (e.2 ≠ [])) || decide (c.transfers ≠ []) || decide (c.belays ≠ [])
    || s.txnLive (fun w => match w with | .dma x _ => decide (x = n) | .kernel x _ => decide (x = n) | .belay x _ => decide (x = n) | _ => false)
    || s.home.held.any (fun h => match coreOf h.cmd with | some x => decide (x = n) | none => false) || s.mirroring (.core n)

/-- KERNEL_DRAIN_END (R374 to R376): every access of an ending kernel has been performed. -/
def execKernelDrainEnd (core : Nat) (s : State) : Result :=
  whenUp s fun s =>
    let c := s.core core
    match c.kernel with
    | none => .next s
    | some k =>
      if c.st ≠ .draining ∨ s.coreBusy core = true then .next s
      else
        let s := (s.workEnd (coreUnit core 0) (kernelCtx k.words) k.st k.exc).kernelFinish k c.flags
        let c := s.core core
        .next ((s.setCore core { c with
          st := .idle, kernel := none, queues := [], parts := [], waitId := none, lastCtx := kernelCtx k.words, lastAff := kernelAff k.words,
          lastOk := decide (k.st = .ok) }).restoreNext core)

/-! ### Suspension (R380 to R383) -/

/-- KERNEL_SUSPEND (R380, R462). -/
def execKernelSuspend (core : Nat) (s : State) : Result :=
  whenUp s fun s =>
    let c := s.core core
    match c.kernel with
    | none => .next s
    | some k =>
      let other := s.kernels.any (fun x => decide (kernelCtx x.words ≠ kernelCtx k.words) && s.kernelMayStart x)
        || s.readyExperts.any (fun x => decide (dsCtx x.2.1 ≠ kernelCtx k.words))
        || s.expert.batches.any (fun b => decide (b.place = .ready) && decide (dsCtx b.desc ≠ kernelCtx k.words))
      if decide (c.st = .stalled) && decide (k.stalledAt + s.bci.suspendAfter ≤ s.now) && other && !(upto 4).any s.coreFree && s.expert.ssd.isNone then
        .next (s.setCore core { c with st := .saving })
      else .next s

/-- Is a command of a core held on a fault? -/
def State.faultHeld (s : State) (c : Instr) : Bool := s.home.held.any (fun h => decide (h.cmd = c) && (match h.why with | .fault _ => true | _ => false))

/-- Has a core an access under way that is not stalled on a fault: part done, held for another reason, or released and not yet performed (R381)? -/
def State.begun (s : State) (core : Nat) : Bool :=
  let c := s.core core
  let mine (i : Instr) : Bool := match coreOf i with | some x => decide (x = core) | none => false
  c.parts.any (fun e => match Tab.getD c.queues e.1 [] with | q :: _ => !s.faultHeld q.cmd | [] => false)
    || s.home.held.any (fun h => mine h.cmd && (match h.why with | .fault _ => false | _ => true)) || s.resume.any (fun a => mine a.cmd)

/-- SAVE_DONE (R375, R381, R382): every access but the stalled ones has completed, and the kernel is SUSPENDED. -/
def execSaveDone (core : Nat) (s : State) : Result :=
  whenUp s fun s =>
    let c := s.core core
    match c.kernel with
    | none => .next s
    | some k =>
      let busy := c.transfers.any (fun t => !s.faultHeld (.dmaTransferEnd core t.id)) || c.belays.any (fun b => !b.acq && !s.faultHeld (.belayRelStore core b.id))
        || s.txnLive (fun w => match w with | .dma x _ => decide (x = core) | .kernel x _ => decide (x = core) | _ => false) || s.mirroring (.core core)
        || s.begun core
      if c.st ≠ .saving ∨ busy = true then .next s
      else
        let mine (h : Held) : Bool := match coreOf h.cmd with | some x => decide (x = core) | none => false
        let held := s.home.held.filter mine
        let open_ := s.home.faults.any (fun f => held.any (fun h => decide (h.why = .fault f.seq)))
        let v : Saved :=
          { kernel := { k with suspends := k.suspends + 1 }, regs := c.regs, acc := c.acc,
            tile := c.tile.filter (fun (e : Host.Cell) => decide (e.1 < tsUsed k.words)), flags := c.flags, frm := c.frm, queues := c.queues, parts := c.parts,
            transfers := c.transfers, belays := c.belays, wait := c.waitId.bind (fun id => s.home.waits.find? (fun w => decide (w.id = id))),
            colPtr := c.colPtr, resolved := !open_, key := s.nextId, held := held }
        let s :=
          { s with
            nextId := s.nextId + 1
            home.held := s.home.held.filter (fun (h : Held) => !mine h)
            home.waits := s.home.waits.filter (fun (w : Wait) => decide (w.who ≠ Waiter.core core)) }
        .next ((s.setCore core { c with
          st := .idle, kernel := none, regs := RegFile.zero, acc := [], tile := [], flags := 0, queues := [], transfers := [], belays := [], parts := [],
          waitId := none, lastOk := false, saved := c.saved ++ [v] }).restoreNext core)

/-- RESTORE_DONE (R374, R382): the state is restored, and the faulting access is replayed; acquires ask their homes again. An access whose own fault is
still unresolved stays stalled on it. -/
def execRestoreDone (core : Nat) (s : State) : Result :=
  whenUp s fun s =>
    let c := s.core core
    match c.saved.find? (fun v => v.resolved) with
    | none => .next s
    | some v =>
      if c.st ≠ .restoring then .next s
      else
        let k := v.kernel
        let stays (h : Held) : Bool := s.home.faults.any (fun f => decide (h.why = .fault f.seq))
        let s :=
          { s with
            home.waits := s.home.waits ++ v.wait.toList
            home.held := s.home.held ++ v.held.filter stays
            resume := s.resume ++ (v.held.filter (fun h => !stays h)).map Held.again }
        let s := s.setCore core { c with
          st := if v.held.any stays then .stalled else .running, kernel := some { k with stalledOn := 0, stalledAt := s.now }, regs := v.regs, acc := v.acc, tile := v.tile, flags := v.flags, frm := v.frm,
          queues := v.queues, parts := v.parts, transfers := v.transfers, colPtr := v.colPtr, waitId := v.wait.map Wait.id,
          belays := v.belays.map (fun (b : Belay) => if b.acq && !b.tile && !b.satisfied && !s.isOwn b.eid then { b with retryAt := max 1 s.now } else b)
          saved := c.saved.filter (fun (x : Saved) => decide (x.kernel.id ≠ k.id)) }
        match v.wait with
        | some w =>
          if (s.counterOf w.ckey { eid := w.eid, ctx := w.ctx, admin := false }).isNone then .next (s.endWait w .key []) else .next s
        | none => .next s

end Sys2Proof.Machine
end

