-- ==== Sys2Proof/Machine/Traverse.lean ====
section
/-! DEFINITION. Traverse vector search (12): indexes and shards, distances, routing and walks, queries and their result blocks, updates and epochs, MERGE. -/

namespace Sys2Proof.Machine

/-! ### Geometry (R465 to R469) -/

/-- ETYPE. -/
def ixType (ws : List Word) : Nat := fld (wAt ws 0) 10 8
/-- METRIC. -/
def ixMetric (ws : List Word) : Nat := fld (wAt ws 0) 12 11
/-- DIM. -/
def ixDim (ws : List Word) : Nat := fld (wAt ws 1) 12 0
/-- DEGREE. -/
def ixDegree (ws : List Word) : Nat := fld (wAt ws 1) 20 13
/-- MERGE_L. -/
def ixMergeL (ws : List Word) : Nat := fld (wAt ws 1) 31 21
/-- N_SHARDS. -/
def ixShards (ws : List Word) : Nat := fld (wAt ws 2) 12 0
/-- DEPTH. -/
def ixDepth (ws : List Word) : Nat := fld (wAt ws 2) 15 13
/-- AUTO_MERGE. -/
def ixAuto (ws : List Word) : Nat := fld (wAt ws 2) 22 16
/-- ICTX. -/
def ixCtx (ws : List Word) : Nat := fld (wAt ws 3) 11 0

/-- The type code of R363 for a non-binary ETYPE. -/
def ixCode (ws : List Word) : Nat := match ixType ws with | 0 => 8 | 1 => 9 | 2 => 10 | 3 => 11 | _ => 4

/-- Bytes of the elements of a vector. -/
def vecBytes (ws : List Word) : Nat := if ixType ws = 5 then ixDim ws / 8 else ixDim ws * elemBytes (ixCode ws)

/-- VSLOT (R468). -/
def vslot (ws : List Word) : Nat := alignUp (vecBytes ws + (if ixMetric ws = 2 then 4 else 0)) 64

/-- The adjacency stride (R468). -/
def adjStride (ws : List Word) : Nat := alignUp (4 + 4 * ixDegree ws) 64

/-- Bytes of a side-list record. -/
def sideStride (ws : List Word) : Nat := 64 + vslot ws

/-- Offset of META entry `n`. -/
def Shard.metaAt (h : Shard) (n : Nat) : Nat := h.base + 32 * n
/-- Offset of ADJ entry `n`. -/
def Shard.adjAt (h : Shard) (n : Nat) : Nat := h.base + alignUp (32 * h.cap) 65536 + adjStride h.desc * n
/-- Offset of VEC entry `n`. -/
def Shard.vecAt (h : Shard) (n : Nat) : Nat := h.base + alignUp (32 * h.cap) 65536 + alignUp (adjStride h.desc * h.cap) 65536 + vslot h.desc * n
/-- Offset of side-list record `n`, counted since INDEX_CREATE. -/
def Shard.sideAt (h : Shard) (n : Nat) : Nat :=
  h.base + alignUp (32 * h.cap) 65536 + alignUp (adjStride h.desc * h.cap) 65536 + alignUp (vslot h.desc * h.cap) 65536 + sideStride h.desc * (n % h.slCap)
/-- Bytes of a shard area. -/
def Shard.area (h : Shard) : Nat :=
  alignUp (32 * h.cap) 65536 + alignUp (adjStride h.desc * h.cap) 65536 + alignUp (vslot h.desc * h.cap) 65536 + alignUp (sideStride h.desc * h.slCap) 65536

/-- The table key of a shard: the index's home, its number, the shard. -/
def shKey (home index shard : Nat) : Nat := (home * 256 + index) * 4096 + shard

/-- An index of this home. -/
def State.index? (s : State) (n : Nat) : Option Index := Tab.get? s.trav.indexes n
/-- A shard of an index of this home. -/
def State.shard? (s : State) (index shard : Nat) : Option Shard := Tab.get? s.trav.shards (shKey s.lmf.eid index shard)
/-- Replace a shard of an index of this home. -/
def State.setShard (s : State) (index shard : Nat) (h : Shard) : State :=
  { s with trav.shards := Tab.set s.trav.shards (shKey s.lmf.eid index shard) h }
/-- The issuer of the controller's own accesses to an index (R473). -/
def State.ixIssuer (s : State) (ctx : Nat) : Issuer := { eid := s.lmf.eid, ctx := ctx, admin := false }

/-! ### Distances (R474 to R476) -/

/-- The sum of exact products: groups of 64 rounded once, added in ascending order (R475). -/
def dot64 (ps : List (FVal × FVal)) : Nat :=
  match (chunksOf 64 ps.length ps).map (fun g => (fp32.finish .rne (groupSum g)).1) with
  | [] => 0
  | x :: t => t.foldl (fun acc b => (fp32.finish .rne ((fp32.decode acc).add (fp32.decode b))).1) x

/-- The elements of a vector slot as exact values. -/
def vecVals (ws : List Word) (bs : Bytes) : List FVal :=
  (chunksOf (elemBytes (ixCode ws)) (ixDim ws) (bs.take (vecBytes ws))).map (fun c => elemVal (ixCode ws) (leNat c))

/-- Bits set in a byte string. -/
def popCount (bs : Bytes) : Nat := (bs.map (fun b => ((upto 8).filter (fun i => b.getLsbD i)).length)).sum

/-- An FP32 number with its sign turned. -/
def neg32 (a : Nat) : Nat := (BitVec.ofNat 32 a ^^^ 0x80000000).toNat

/-- A count as FP32. -/
def count32 (n : Nat) : Nat := (fp32.finish .rne (.fin false n 0, FFlags.none)).1

/-- The FP32 inverse norm kept after the elements of a slot. -/
def invNorm (ws : List Word) (bs : Bytes) : Nat := leNat ((bs.drop (vecBytes ws)).take 4)

/-- A vector slot from its elements' bytes: for cosine with the inverse norm (R468, R474). -/
def slotBytesOf (ws : List Word) (bs : Bytes) : Bytes :=
  let e := bs.take (vecBytes ws)
  let xs := vecVals ws e
  let n := if ixMetric ws = 2 then natLE 4 (rsqrt32 (BitVec.ofNat 32 (dot64 (xs.zip xs)))).1 else []
  let raw := e ++ n
  raw ++ List.replicate (vslot ws - raw.length) 0

/-- The distance of two vector slots (R474). -/
def distance (ws : List Word) (a b : Bytes) : BitVec 32 :=
  BitVec.ofNat 32 (
    if ixType ws = 5 then
      let x := a.take (vecBytes ws)
      let y := b.take (vecBytes ws)
      if ixMetric ws = 0 then count32 (popCount (List.zipWith (· ^^^ ·) x y)) else neg32 (count32 (popCount (List.zipWith (· &&& ·) x y)))
    else
      let x := vecVals ws a
      let y := vecVals ws b
      match ixMetric ws with
      | 0 => dot64 ((List.zipWith (fun p q => (FVal.add p q.flip).1) x y).map (fun d => (d, d)))
      | 1 => neg32 (dot64 (x.zip y))
      | _ => mul32 (mul32 (neg32 (dot64 (x.zip y))) (invNorm ws a)) (invNorm ws b))

/-- The place of a distance in an ordered list: NaN after every number (R476). -/
def dkey (d : BitVec 32) : Int :=
  if (fp32.decode d.toNat).isNan then 2 ^ 33 else if d.msb then -((d.toNat % 2 ^ 31 : Nat) : Int) else (d.toNat : Int)

/-- Put an entry into a list ordered by distance and then by a number. -/
def putSorted {α : Type} (lt : α → α → Bool) (x : α) : List α → List α
  | [] => [x]
  | y :: t => if lt x y then x :: y :: t else y :: putSorted lt x t

/-! ### Reads of index memory -/

/-- How work reads index memory: the bytes, or what the read met. -/
abbrev Reader := Nat → Nat → Except Met Bytes

/-- Work that reads index memory: it notes its reads, and ends with a result or with what a read at an offset met. -/
abbrev Rd (α : Type) := ExceptT (Nat × Met) (StateM Reads) α

/-- Nothing has been read yet. -/
def Reads.none : Reads := { done := [], ahead := [] }

/-- The ranges read, each once. -/
def Reads.all (r : Reads) : List (Nat × Nat) := (r.done.map (fun x => (x.1, x.2.length)) ++ r.ahead).dedup

/-- Do the work, knowing what it has read before. -/
def runRd {α : Type} (x : Rd α) (r : Reads) : Except (Nat × Met) α × Reads := x.run.run r

/-- Read a range; one that has been read before is not read again (R90). -/
def fetch (rd : Reader) (off n : Nat) : Rd Bytes := do
  let r ← get
  match r.done.find? (fun x => decide (x.1 = off ∧ x.2.length = n)) with
  | some x => pure x.2
  | none =>
    match rd off n with
    | .error m => throw (off, m)
    | .ok bs =>
      set { r with done := (off, bs) :: r.done }
      pure bs

/-- Fetch a range ahead (R484): what the read meets changes nothing. -/
def fetchAhead (rd : Reader) (off n : Nat) : Rd Unit := do
  let r ← get
  match rd off n with
  | .ok _ => set { r with ahead := if r.all.contains (off, n) then r.ahead else (off, n) :: r.ahead }
  | .error _ => pure ()

/-- Work whose poisoned reads make a node or record absent, where the query skips poison (R478, R504). -/
def orAbsent {α : Type} (skip : Bool) (x : Rd α) : Rd (Option α) :=
  tryCatch (do
    let a ← x
    pure (some a)) fun e => if skip && decide (e.2 = .stop .poison) then pure none else throw e

/-- Reads of a region as a view shows it, each checked at its use (R83) for a right of an issuer. -/
def State.usedReader (s : State) (eid key : Nat) (need : Rights) (i : Issuer) (v : View) : Reader := fun off n =>
  match s.permit eid key off n need i with
  | none => .error (.stop .key)
  | some (rid, rg) => match s.meetRead rid rg v off n with | .clear => .ok (s.readRange rg v off n) | m => .error m

/-- Count the reads that work has made since `was` (R120), and those that its prefetch has made (R484). -/
def State.readsDone (s : State) (rid : Nat) (v : View) (was r : Reads) : State :=
  (r.all.filter (fun x => !was.all.contains x)).foldl (fun (s : State) x => s.readDone false rid v x.1 x.2) s

/-- Why a region is not served now (R318, R740). -/
def State.gateOf (s : State) (rid : Nat) : Option HoldWhy := (s.region? rid).bind (s.gate rid)

/-- Work on a region of this controller's: it waits while the region is not served, and goes on with its result or with what stopped it. -/
def State.reading {α : Type} (s : State) (rid : Nat) (v : View) (was : Reads) (wait : HoldWhy → State) (work : Rd α)
    (bad : Reads → Nat → Met → State → Result) (good : Reads → α → State → Result) : Result :=
  match s.gateOf rid with
  | some why => .next (wait why)
  | none =>
    match runRd work was with
    | (.ok a, r) => good r a (s.readsDone rid v was r)
    | (.error e, r) => bad r e.1 e.2 (s.readsDone rid v was r)

/-- Work on index memory under ICTX (R473). -/
def State.onIndex {α : Type} (s : State) (i : Issuer) (eid key : Nat) (was : Reads) (wait : HoldWhy → State) (work : Reader → Rd α)
    (bad : Reads → Nat → Met → State → Result) (good : Reads → α → State → Result) : Result :=
  s.reading (s.ridOf eid key) (.own i) was wait (work (s.usedReader eid key needE i (.own i))) bad good

/-! ### Walks (R481 to R485) -/

/-- A queue member of a walk. -/
structure WalkNode where
  node : Nat
  dist : BitVec 32
  done : Bool
  deriving DecidableEq, Repr

/-- The state of a walk. No node is evaluated twice: the table of R483 changes no result, and EVALS counts each node once (DESIGN CHOICE, log 19). -/
structure Walk where
  queue : List WalkNode
  visited : List Nat
  evals : Nat
  skips : Nat
  expanded : Nat
  deriving DecidableEq, Repr

/-- The order of R476 inside a walk. -/
def nodeBefore (a b : WalkNode) : Bool := decide (dkey a.dist < dkey b.dist) || (decide (dkey a.dist = dkey b.dist) && decide (a.node < b.node))

/-- The neighbours an ADJ entry names (R468). -/
def adjOf (h : Shard) (bs : Bytes) : List Nat :=
  (upto (min (ixDegree h.desc) ((bs.getD 0 0).toNat))).map (fun i => leNat ((bs.drop (4 + 4 * i)).take 4) % 2 ^ 28)

/-- The neighbours of a node. -/
def neighbours (h : Shard) (rd : Reader) (n : Nat) : Rd (List Nat) := do
  let bs ← fetch rd (h.adjAt n) (adjStride h.desc)
  pure (adjOf h bs)

/-- A node's distance to the query. Where the query skips poison, a node with a poisoned entry is absent (R478), so that all three entries are read. -/
def evalNode (h : Shard) (rd : Reader) (skip : Bool) (vec : Bytes) (n : Nat) : Rd (Option (BitVec 32)) :=
  orAbsent skip do
    if skip then
      let _ ← fetch rd (h.metaAt n) 32
      let _ ← fetch rd (h.adjAt n) (adjStride h.desc)
    let v ← fetch rd (h.vecAt n) (vslot h.desc)
    pure (distance h.desc vec v)

/-- Visit the nodes of a list that have not been visited. -/
def visitAll (h : Shard) (rd : Reader) (skip : Bool) (vec : Bytes) (l : Nat) : List Nat → Walk → Rd Walk
  | [], w => pure w
  | n :: t, w =>
    if w.visited.contains n then visitAll h rd skip vec l t w
    else do
      match ← evalNode h rd skip vec n with
      | none => visitAll h rd skip vec l t { w with visited := n :: w.visited, skips := w.skips + 1 }
      | some d =>
        visitAll h rd skip vec l t { w with visited := n :: w.visited, evals := w.evals + 1, queue := (putSorted nodeBefore { node := n, dist := d, done := false } w.queue).take l }

/-- Fetch a node's ADJ entry and its neighbours' VEC entries ahead of the walk (R484). -/
def prefetchNode (h : Shard) (rd : Reader) (n : Nat) : Rd Unit := do
  fetchAhead rd (h.adjAt n) (adjStride h.desc)
  match rd (h.adjAt n) (adjStride h.desc) with
  | .ok bs => (adjOf h bs).forM (fun k => fetchAhead rd (h.vecAt k) (vslot h.desc))
  | .error _ => pure ()

/-- Expand until no queue member is unexpanded (R481), with the `p` best unexpanded nodes prefetched after each expansion (R484). -/
def walkLoop (h : Shard) (rd : Reader) (skip : Bool) (p : Nat) (vec : Bytes) (l : Nat) : Nat → Walk → Rd Walk
  | 0, w => pure w
  | fuel + 1, w =>
    match w.queue.find? (fun x => !x.done) with
    | none => pure w
    | some c => do
      let ns ← neighbours h rd c.node
      let w ← visitAll h rd skip vec l ns { w with expanded := w.expanded + 1, queue := w.queue.map (fun (x : WalkNode) => if x.node = c.node then { x with done := true } else x) }
      ((w.queue.filter (fun x => !x.done)).take p).forM (fun x => prefetchNode h rd x.node)
      walkLoop h rd skip p vec l fuel w

/-- The walk of a shard from its entry node (R481). -/
def walkShard (h : Shard) (rd : Reader) (skip : Bool) (p : Nat) (vec : Bytes) (l : Nat) : Rd Walk := do
  let w : Walk := { queue := [], visited := [], evals := 0, skips := 0, expanded := 0 }
  if h.count = 0 then pure w
  else
    let w ← visitAll h rd skip vec l [h.entry] w
    walkLoop h rd skip p vec l (h.cap + 1) w

/-- A side-list record (R468). -/
structure SideRec where
  op : Nat
  linked : Bool
  item : Nat
  attr : Nat
  epoch : Nat
  node : Nat
  vec : Bytes
  deriving DecidableEq, Repr

/-- Read a side-list record. -/
def readSide (h : Shard) (rd : Reader) (n : Nat) : Rd SideRec := do
  let bs ← fetch rd (h.sideAt n) (sideStride h.desc)
  let d (k : Nat) : Nat := leNat ((bs.drop k).take 8)
  pure { op := d 0 % 4, linked := decide (d 0 / 4 % 4 = 1), item := d 8, attr := d 16, epoch := d 24, node := leNat ((bs.drop 32).take 4), vec := bs.drop 64 }

/-- The bytes of a side-list record. -/
def SideRec.bytes (r : SideRec) (ws : List Word) : Bytes :=
  natLE 8 (r.op + (if r.linked then 4 else 0)) ++ natLE 8 r.item ++ natLE 8 r.attr ++ natLE 8 r.epoch ++ natLE 4 r.node ++ List.replicate 28 0
    ++ (r.vec ++ List.replicate (vslot ws) 0).take (vslot ws)

/-- Read the records of a side list that are not retired, skipping poisoned ones where asked (R485, R504): the records, and how many were
skipped. -/
def readSides (h : Shard) (rd : Reader) (skip : Bool) : List Nat → Rd (List SideRec × Nat)
  | [] => pure ([], 0)
  | n :: t => do
    let r ← orAbsent skip (readSide h rd n)
    let (rs, k) ← readSides h rd skip t
    match r with
    | some r => pure (r :: rs, k)
    | none => pure (rs, k + 1)

/-- The numbers of the records that are not retired. -/
def Shard.records (h : Shard) : List Nat := (upto (h.tail - h.head)).map (· + h.head)

/-- Is an insert with an epoch visible at a search epoch, given the epochs of the deletes of its item (R494)? -/
def visibleAt (i e : Nat) (dels : List Nat) : Bool := decide (i ≤ e) && dels.all (fun d => !(decide (i < d) && decide (d ≤ e)))

/-- The epochs of the deletes of an item in a side list. -/
def deletesOf (rs : List SideRec) (item : Nat) : List Nat := (rs.filter (fun r => decide (r.op = 2 ∧ r.item = item))).map SideRec.epoch

/-- A node's META entry: item, insert epoch, delete epoch, attributes. -/
def readMeta (h : Shard) (rd : Reader) (n : Nat) : Rd (Nat × Nat × Nat × Nat) := do
  let bs ← fetch rd (h.metaAt n) 32
  let d (k : Nat) : Nat := leNat ((bs.drop k).take 8)
  pure (d 0, d 8, d 16, d 24)

/-- The visible members of a walk's queue (R482). -/
def visibleHits (h : Shard) (rd : Reader) (e : Nat) (rs : List SideRec) : List WalkNode → Rd (List Hit)
  | [] => pure []
  | x :: t => do
    let (item, ins, del, attr) ← readMeta h rd x.node
    let hs ← visibleHits h rd e rs t
    pure (if visibleAt ins e (del :: deletesOf rs item) then { item := item, attr := attr, dist := x.dist, shard := h.shard } :: hs else hs)

/-- A shard's returns: hits, distances computed, nodes and records skipped, and nodes expanded (R481 to R485). -/
def shardReturns (h : Shard) (rd : Reader) (skip : Bool) (p : Nat) (vec : Bytes) (l e : Nat) : Rd (List Hit × Nat × Nat × Nat) := do
  let w ← walkShard h rd skip p vec l
  let (rs, k) ← readSides h rd skip h.records
  let hs ← visibleHits h rd e rs w.queue
  let side := (rs.filter (fun r => decide (r.op = 1) && visibleAt r.epoch e (deletesOf rs r.item))).map
    (fun r => ({ item := r.item, attr := r.attr, dist := distance h.desc vec r.vec, shard := h.shard } : Hit))
  pure (hs ++ side, w.evals + side.length, w.skips + k, w.expanded)

/-! ### Routing (R469, R480) -/

/-- A child of a tree node: its distance, its place, and the OFFSET of its pointer. -/
structure Child where
  dist : BitVec 32
  place : Nat
  off : Nat
  deriving DecidableEq, Repr

/-- The order of R480. -/
def childBefore (a b : Child) : Bool := decide (dkey a.dist < dkey b.dist) || (decide (dkey a.dist = dkey b.dist) && decide (a.place < b.place))

/-- The children of the nodes of a beam. -/
def childrenOf (ws : List Word) (rd : Reader) (vec : Bytes) : List Nat → Nat → Rd (List Child)
  | [], _ => pure []
  | off :: t, k => do
    let hd ← fetch rd off 64
    let n := min 64 ((hd.getD 0 0).toNat)
    let bs ← fetch rd (off + 64) (16 * n + n * vslot ws)
    let rest ← childrenOf ws rd vec t (k + n)
    pure ((upto n).map (fun i =>
      { dist := distance ws vec ((bs.drop (16 * n + i * vslot ws)).take (vslot ws)), place := k + i, off := leNat ((bs.drop (16 * i)).take 16) % 2 ^ 52 }) ++ rest)

/-- Route through the levels of a tree, keeping the best `n` children at each (R480). -/
def routeLevels (ws : List Word) (rd : Reader) (vec : Bytes) (n : Nat) : Nat → List Nat → Rd (List Nat)
  | 0, beam => pure beam
  | d + 1, beam => do
    let cs ← childrenOf ws rd vec beam 0
    routeLevels ws rd vec n d (((cs.insertionSort (fun a b => childBefore a b || !childBefore b a)).take n).map Child.off)

/-- The shards of an index that a vector is routed to. -/
def routeVec (ws : List Word) (vec : Bytes) (n : Nat) (rd : Reader) : Rd (List Nat) := do
  let ss ← routeLevels ws rd vec n (ixDepth ws) [dAt ws 5]
  pure (ss.dedup.filter (fun x => decide (x < ixShards ws)))

/-! ### Indexes (R465 to R473) -/

/-- The field rules of an index descriptor (R465, R466). -/
def indexOk (ws : List Word) : Bool :=
  decide (fld (wAt ws 0) 7 0 = 1) && decide (ixType ws ≤ 5) && decide (ixMetric ws ≤ 2) && decide (fld (wAt ws 0) 31 13 = 0)
    && decide (8 ≤ ixDim ws ∧ ixDim ws ≤ 4096) && decide (ixDim ws % (if ixType ws = 5 then 64 else 8) = 0)
    && decide (1 ≤ ixDegree ws ∧ ixDegree ws ≤ 128) && decide (ixDegree ws ≤ ixMergeL ws ∧ ixMergeL ws ≤ 1024)
    && decide (1 ≤ ixShards ws ∧ ixShards ws ≤ 4096) && decide (1 ≤ ixDepth ws ∧ ixDepth ws ≤ 4) && decide (ixAuto ws ≤ 100)
    && decide (fld (wAt ws 2) 31 23 = 0) && decide (wAt ws 3 < 4096) && decide (dAt ws 5 < 2 ^ 52 ∧ dAt ws 5 % 64 = 0)
    && decide (dAt ws 8 < 2 ^ 52 ∧ dAt ws 8 % 64 = 0) && (ws.drop 10).all (fun w => decide (w = 0)) && !(decide (ixType ws = 5) && decide (ixMetric ws = 2))

/-- The field rules of a shard descriptor (R467). -/
def shardOk (d : List Word) : Bool :=
  decide (wAt d 0 < 2 ^ 18) && decide (dAt d 2 < 2 ^ 52 ∧ dAt d 2 % 65536 = 0) && decide (1 ≤ wAt d 4 ∧ wAt d 4 ≤ 2 ^ 28) && decide (wAt d 5 ≤ wAt d 4)
    && decide (wAt d 5 = 0 ∨ wAt d 6 < wAt d 5) && decide (64 ≤ wAt d 7 ∧ wAt d 7 ≤ 1048576) && (d.drop 8).all (fun w => decide (w = 0))

/-- A shard as its descriptor gives it. -/
def shardOf (ix : List Word) (index n rid : Nat) (d : List Word) : Shard :=
  { index := index, shard := n, home := wAt d 0, rid := rid, key := wAt d 1, base := dAt d 2, cap := wAt d 4, count := wAt d 5, entry := wAt d 6,
    slCap := wAt d 7, head := 0, tail := 0, merge := none, mergeTo := 0, freeSlots := [], linkTimes := [], ictx := ixCtx ix, desc := ix }

/-- E and W (R470). -/
def needEW : Rights := needE.or needW

/-- Does a shard of this controller fit its region, which is not coherent (R470)? `.ok false` is ST_NOT_SUPPORTED, `.error` ST_KEY. -/
def State.shardFits (s : State) (eid : Nat) (h : Shard) (i : Issuer) : Option Bool :=
  match s.permit eid h.key h.base 0 needEW i with
  | none => (match s.live eid h.key with | some (_, rg) => if rg.inside h.base h.area then none else some false | none => none)
  | some (_, rg) => some (rg.inside h.base h.area && decide (rg.mode ≠ .coherent))

/-- The requests that register a shard at its home, and that fold a record there; the operations' numbers are the model's own. -/
def opRegister : Nat := 9
/-- See `opRegister`. -/
def opFold : Nat := 10

/-- INDEX_CREATE (R465 to R473, R575, R872): it completes once the homes of its shards at other controllers have registered them. -/
def execIndexCreate (r : BciReq) (s : State) : Result :=
  bciServe .indexCreate { BciRow.o 0x80 3 with minor := some 0, resv := fun r => offResv r 2 } r s fun r i s =>
    let cmd := Instr.indexCreate r
    s.onRegion cmd r i (r.w 1) (r.d 2) 128 needR (State.refuse r) fun rid rg s =>
      match s.meetRead rid rg (.own i) (r.d 2) 128 with
      | .clear =>
        let ws := wordsOf (s.readRange rg (.own i) (r.d 2) 128)
        let s := s.readDone false rid (.own i) (r.d 2) 128
        let me := s.ixIssuer (ixCtx ws)
        if !indexOk ws then .next (s.respond r .notSupported [])
        else if !s.ctxOk (ixCtx ws) then .next (s.respond r .state [])
        else match s.permit s.lmf.eid (wAt ws 4) (dAt ws 5) 64 needEW me, s.permit s.lmf.eid (wAt ws 7) (dAt ws 8) (64 * ixShards ws) needEW me with
          | some (_, tree), some (trid, table) =>
            if tree.mode = .coherent ∨ table.mode = .coherent then .next (s.respond r .notSupported [])
            else match s.meetRead trid table (.own me) (dAt ws 8) (64 * ixShards ws) with
              | .clear =>
                let tb := s.readRange table (.own me) (dAt ws 8) (64 * ixShards ws)
                let s := s.readDone false trid (.own me) (dAt ws 8) (64 * ixShards ws)
                let ds := (upto (ixShards ws)).map (fun n => wordsOf ((tb.drop (64 * n)).take 64))
                let n := lowestFree (Tab.keys s.trav.indexes) 0
                let hs := (ds.zipIdx).map (fun p => shardOf ws n p.2 (s.ridOf (wAt p.1 0) (wAt p.1 1)) p.1)
                let fits := (hs.filter (fun h => s.isOwn h.home)).map (fun h => s.shardFits h.home h me)
                if !ds.all shardOk || fits.contains (some false) then .next (s.respond r .notSupported [])
                else if fits.contains none then .next (s.respond r .key [])
                else if 256 ≤ n ∨ 4096 < s.trav.shards.length + hs.length then .next (s.respond r .quota [])
                else
                  let far := hs.filter (fun h => !s.isOwn h.home)
                  let ix : Index :=
                    { words := ws, epoch := 0, applied := 0, destroying := false, waits := if far = [] then none else some (s.nextId, r, far.map Shard.shard) }
                  let s := { s with trav.indexes := Tab.set s.trav.indexes n ix }
                  let t := hs.foldl (fun (s : State) h => s.setShard n h.shard h) s
                  if far = [] then .next (t.respond r .ok (one n))
                  else .next (far.foldl (fun (t : State) h =>
                    t.sendTxn (.register s.nextId h.shard) me.ctx h.home opRegister h.key h.base 0 (bytesOf (ws ++ ds.getD h.shard [])) true) { t with nextId := s.nextId + 1 })
              | m => .next (s.bciStop cmd r i 0 trid (dAt ws 8) m)
          | _, _ => .next (s.respond r .key [])
      | m => .next (s.bciStop cmd r i 0 rid (r.d 2) m)

/-- A shard's home has answered its registration (R470): after the last the index is made, and one that is refused makes none. -/
def State.registered (s : State) (id shard : Nat) (st : Status) : State :=
  match s.trav.indexes.find? (fun e => match e.2.waits with | some w => decide (w.1 = id) | none => false) with
  | none => s
  | some (n, ix) =>
    match ix.waits with
    | none => s
    | some (_, r, l) =>
      if st ≠ .ok then
        State.respond { s with
          trav.indexes := Tab.erase s.trav.indexes n
          trav.shards := s.trav.shards.filter (fun (h : Nat × Shard) => decide (h.1 / 4096 ≠ s.lmf.eid * 256 + n)) } r st []
      else
        let l := l.filter (fun x => decide (x ≠ shard))
        let s := { s with trav.indexes := Tab.set s.trav.indexes n { ix with waits := if l = [] then none else some (id, r, l) } }
        if l = [] then s.respond r .ok (one n) else s

/-- SHARD_REGISTER (R470, R473): a shard home takes a shard of another controller's index, within its limit; the words are the index
descriptor and then the shard descriptor (DESIGN CHOICE, log 19). -/
def execShardRegister (q : LmfReq) (index shard : Nat) (words : List Word) (s : State) : Result :=
  whenUp s fun s =>
    let q := s.sourced q
    match s.arrive (.shardRegister q index shard words) { q with key := 0 } true true with
    | .error s => .next s
    | .ok s =>
      let ws := words.take 32
      let d := (words.drop 32).take 16
      let h := shardOf ws index shard (s.ridOf q.dstEid (wAt d 1)) d
      if !indexOk ws || !shardOk d then .next (s.complete q .notSupported [])
      else match s.shardFits q.dstEid h (LmfIssuer q) with
        | none => .next (s.complete q .key [])
        | some false => .next (s.complete q .notSupported [])
        | some true =>
          let k := shKey q.srcEid index shard
          if 4096 ≤ s.trav.shards.length ∧ Tab.has s.trav.shards k = false then .next (s.complete q .quota [])
          else .next (State.complete { s with trav.shards := Tab.set s.trav.shards k h } q .ok [])

/-- An index that is being destroyed is gone once its last running query has ended (R505). -/
def State.trvSweep (s : State) : State :=
  let gone := s.trav.indexes.filter (fun e => e.2.destroying && !s.trav.queries.any (fun q => decide (fld (wAt q.words 2) 7 0 = e.1)))
  gone.foldl (fun (s : State) e =>
    { s with
      trav.indexes := Tab.erase s.trav.indexes e.1
      trav.shards := s.trav.shards.filter (fun h => decide (h.1 / 4096 ≠ s.lmf.eid * 256 + e.1)) }) s

/-! ### Queries (R478 to R490) -/

/-- INDEX of a query. -/
def Query.ix (q : Query) : Nat := fld (wAt q.words 2) 7 0
/-- K. -/
def Query.k (q : Query) : Nat := fld (wAt q.words 3) 10 0
/-- The queue length of the run: L, or the widened one (R488). -/
def Query.l (q : Query) : Nat :=
  let l := fld (wAt q.words 3) 21 11
  if q.widened then min 1024 (l * 2 ^ fld (wAt q.words 0) 14 13) else l
/-- SKIP_POISON. -/
def Query.skip (q : Query) : Bool := bitAt (wAt q.words 0) 9
/-- PARTIAL_OK. -/
def Query.partialOk (q : Query) : Bool := bitAt (wAt q.words 0) 10
/-- FETCH. -/
def Query.fetch (q : Query) : Bool := bitAt (wAt q.words 0) 11
/-- PREFETCH (R484). -/
def Query.prefetch (q : Query) : Nat := fld (wAt q.words 0) 18 15
/-- The issuer of a query. -/
def Query.issuer (q : Query) : Issuer := { eid := q.eid, ctx := q.ctx, admin := false }

/-- The field rules of a query descriptor (R478). -/
def queryOk (ws : List Word) : Bool :=
  let f := wAt ws 0
  decide (fld f 7 0 = 1) && decide (fld f 18 15 ≤ 8) && decide (fld f 31 19 = 0) && decide (wAt ws 1 < 4096) && decide (wAt ws 2 < 256)
    && decide (1 ≤ fld (wAt ws 3) 10 0 ∧ fld (wAt ws 3) 10 0 ≤ 1024) && decide (fld (wAt ws 3) 10 0 ≤ fld (wAt ws 3) 21 11 ∧ fld (wAt ws 3) 21 11 ≤ 1024)
    && decide (fld (wAt ws 3) 31 28 = 0) && [5, 8].all (fun i => decide (dAt ws i < 2 ^ 52) && decide (dAt ws i % 64 = 0)) && decide (wAt ws 10 < 2 ^ 18) && decide (dAt ws 17 < 2 ^ 52)
    && (!bitAt f 11 || (decide (dAt ws 17 % 65536 = 0) && decide (0 < wAt ws 19 ∧ wAt ws 19 % 65536 = 0 ∧ wAt ws 19 ≤ 67108864)))
    && (ws.drop 22).all (fun w => decide (w = 0))

/-- Bytes of a query's vector as it stands in memory (R478, R479). -/
def queryVecBytes (ix ws : List Word) : Nat := if bitAt (wAt ws 0) 12 then 4 * ixDim ix else vecBytes ix

/-- Check and queue a query (R479, R504): the state, or the status of its rejection. -/
def State.queryAccept (s : State) (ws : List Word) (i : Issuer) : Except Status State :=
  let ws := (ws ++ List.replicate 32 0).take 32
  if !queryOk ws then .error .notSupported
  else match s.index? (fld (wAt ws 2) 7 0) with
    | none => .error .key
    | some ix =>
      let n := queryVecBytes ix.words ws
      if ix.destroying || ix.waits.isSome then .error .key
      else if bitAt (wAt ws 0) 12 = false ∧ ixType ix.words = 5 then .error .notSupported
      else match s.permit s.lmf.eid (wAt ix.words 4) (dAt ix.words 5) 64 needE i, s.permit s.lmf.eid (wAt ws 4) (dAt ws 5) n needR i with
        | some _, some (rid, _) =>
          if bitAt (wAt ws 0) 11 && (s.permit s.lmf.eid (wAt ws 16) (dAt ws 17) 0 needE i).isNone then .error .key
          else
            let id := s.nextId
            let (s, caps) := s.capture id [(rid, dAt ws 5, n)]
            let q : Query :=
              { id := id, words := ws, eid := i.eid, ctx := i.ctx, started := false, epoch := 0, startTime := 0, startNo := 0, vec := [], beam := [], left := [],
                back := [], widened := false, hits := [], evals := 0, fails := 0, skips := 0, filtered := 0, tries := [], final := none, sent := false, pages := caps }
            let s := { s with nextId := id + 1, trav.queries := s.trav.queries ++ [q] }
            let s := s.queueFault (.queryStart id) i (unitAmong 0x46 2 s.freeCtr) rid (dAt ws 5) n
            .ok (if dAt ws 20 = 0 then s else s.addDeadline id (dAt ws 20) (bitAt (wAt ws 0) 8) 3 (dAt ws 8 % 4294967296) i)
        | _, _ => .error .key

/-- TRV_QUERY (R473, R478, R479): over BCI the descriptor is read from memory, in the LMF form it travels in the request. -/
def execTrvQuery (r : BciReq) (s : State) : Result :=
  bciServe .trvQuery { BciRow.f 0x82 3 with minor := some 0, resv := fun r => (match r.src with | .lmf _ => false | _ => offResv r 2) } r s fun r i s =>
    let go (s : State) (ws : List Word) : Result :=
      match s.queryAccept ws i with
      | .ok s => .next (s.respond r .ok [])
      | .error st => .next (s.respond r st [])
    match r.src with
    | .lmf _ =>
      if wAt r.words 2 ≠ i.ctx then .next (s.respond r .notSupported []) else go s ((r.words.drop 1).take 22)
    | _ =>
      s.onRegion (.trvQuery r) r i (r.w 1) (r.d 2) 128 needR (State.refuse r) fun rid rg s =>
        match s.meetRead rid rg (.own i) (r.d 2) 128 with
        | .clear => go (s.readDone false rid (.own i) (r.d 2) 128) (wordsOf (s.readRange rg (.own i) (r.d 2) 128))
        | m => .next (s.bciStop (.trvQuery r) r i 0 rid (r.d 2) m)

/-- A query. -/
def State.query? (s : State) (id : Nat) : Option Query := s.trav.queries.find? (fun q => decide (q.id = id))

/-- Change a query. -/
def State.modQuery (s : State) (id : Nat) (f : Query → Query) : State :=
  { s with trav.queries := s.trav.queries.map (fun (q : Query) => if q.id = id then f q else q) }

/-- Is a command an event of a query? -/
def ofQuery (id : Nat) : Instr → Bool
  | .queryStart n => decide (n = id)
  | .shardWalk n _ => decide (n = id)
  | .payloadFetchEnd n => decide (n = id)
  | _ => false

/-- Is the command held already? -/
def State.isHeld (s : State) (cmd : Instr) : Bool := s.home.held.any (fun h => decide (h.cmd = cmd))

/-- A query is over, with its own status or, where it has none, with `st` (R811): its pages are given back, its holds and its deadline go. -/
def State.queryDrop (s : State) (id : Nat) (st : Status := .ok) : State :=
  match s.query? id with
  | none => s
  | some q =>
    let s := (s.home.held.filter (fun h => ofQuery id h.cmd)).foldl (fun (s : State) h => s.forsake h.cmd) s
    let s := (s.uncapture id q.pages).dropDeadline id
    let s := if q.started then s.workEnd q.unit q.ctx (q.final.getD st) 0 else s
    State.trvSweep { s with
      trav.queries := s.trav.queries.filter (fun (x : Query) => decide (x.id ≠ id))
      home.held := s.home.held.filter (fun (h : Held) => !ofQuery id h.cmd) }

/-- The result block (R489). -/
def resultBlock (q : Query) (st : Status) (now : Nat) : Bytes :=
  let hs := if st = Status.ok ∨ st = Status.filterShortfall then q.hits.take q.k else []
  let head : List Word := [BitVec.ofNat 32 (st.code + 65536 * b2n q.widened), BitVec.ofNat 32 hs.length] ++ two q.epoch
    ++ [BitVec.ofNat 32 (min q.evals 4294967295), BitVec.ofNat 32 (q.fails + 65536 * min q.skips 65535), BitVec.ofNat 32 q.filtered, 0] ++ two q.startTime ++ two now
    ++ List.replicate 4 0
  bytesOf (head ++ hs.flatMap (fun h => two h.item ++ [h.dist, BitVec.ofNat 32 h.shard]))

/-- How an access of a Traverse engine is held (R86, R94), on one of the engines (R869). -/
def State.travHold (s : State) (cmd : Instr) (i : Issuer) (access : Nat) (runTime : Bool) : HoldAs :=
  { cmd := cmd, i := i, access := access, runTime := runTime, hw := unitAmong 0x46 2 s.freeCtr, limit := 0, needRoom := false }

/-- How an access of a query's engine is held; it stalls once the query has started (R94, R811). -/
def Query.hold (q : Query) (cmd : Instr) (i : Issuer) (access : Nat) (runTime : Bool) : HoldAs :=
  { cmd := cmd, i := i, access := access, runTime := runTime, hw := q.unit, limit := 0, needRoom := false, work := runTime }

/-- Write a query's result block at this controller under the querying context (R83, R489), or hold the write on what it meets. A counted block is one
counted write; one that fails is lost. -/
def State.blockOwn (s : State) (q : Query) (eid key off ctr : Nat) (data : Bytes) : State :=
  let i := q.issuer
  let cmd := Instr.payloadFetchEnd q.id
  if ctr = 0 then
    match s.permit eid key off data.length needW i with
    | none => s.queryDrop q.id
    | some (rid, rg) =>
      match s.gate rid rg with
      | some why => s.holdCmd cmd why 0 i.eid i.ctx
      | none =>
        match s.meetWrite rid rg (.shadowed i) off data.length with
        | .clear =>
          let s := (s.writeRange rid (.shadowed i) off data).touchRange false rid (.own i) off data.length
          (if rg.mode = .publish then s else s.forward rid off data (.batch q.id)).queryDrop q.id
        | m =>
          match s.holdOn (q.hold cmd i 4 true) rid off m with
          | (s, some _) => s.queryDrop q.id
          | (s, none) => s
  else
    match s.ownCounted i eid key off ctr data (.batch q.id) with
    | .ok s => s.queryDrop q.id
    | .error (rid, .clear) =>
      (match s.gateOf rid with
       | some why => s.holdCmd cmd why 0 i.eid i.ctx
       | none => s)
    | .error (rid, m) =>
      match s.holdOn (q.hold cmd i 4 true) rid off m with
      | (s, some st) => (s.selfLog eid i.ctx st 0).1.queryDrop q.id
      | (s, none) => s

/-- Write a query's result block (R489); a write that waits is made again by PAYLOAD_FETCH_END. At another controller a plain block goes out as writes,
and a counted one as counted writes of up to 4 KiB (DESIGN CHOICE, log 19). -/
def State.queryWrite (s : State) (id : Nat) : State :=
  match s.query? id with
  | none => s
  | some q =>
    match q.final with
    | none => s
    | some st =>
      let data := resultBlock q st s.now
      let eid := fld (wAt q.words 10) 17 0
      let key := wAt q.words 7
      let off := dAt q.words 8
      let ctr := wAt q.words 11
      if s.isHeld (.payloadFetchEnd id) then s
      else if s.isOwn eid then s.blockOwn q eid key off ctr data
      else
        let cuts := if ctr = 0 then s.farCuts eid off data.length else blocks off data.length
        if q.sent || !s.tagRoom cuts.length then s
        else
          let s := cuts.foldl (fun (s : State) c =>
            let part := (data.drop (c.1 - off)).take c.2
            if ctr = 0 then s.sendWrite (.query id) q.ctx eid key c.1 part else s.sendTxn (.query id) q.ctx eid opCounted key c.1 ctr part false) s
          s.modQuery id (fun q => { q with sent := true })

/-- The write of a query's result block ends with a status without being performed: a counted one is logged with it (R249). -/
def State.blockLost (s : State) (id : Nat) (st : Status) : State :=
  match s.query? id with
  | some q => (if s.isOwn (fld (wAt q.words 10) 17 0) ∧ wAt q.words 11 ≠ 0 then (s.selfLog (fld (wAt q.words 10) 17 0) q.ctx st 0).1 else s).queryDrop id
  | none => s

/-- End a query with a status: its result block is written (R489). -/
def State.queryEnd (s : State) (id : Nat) (st : Status) : State := (s.modQuery id (fun q => { q with final := some st })).queryWrite id

/-- Does earlier work of the query's context hold it back (R94, R504)? Each kind of work of a context is a queue of its own: a query waits for an
earlier query that is held, not for a kernel, a batch or a memory-side operation (DESIGN CHOICE, log 29). -/
def State.queryBehind (s : State) (q : Query) : Bool :=
  s.trav.queries.any (fun x => decide (x.id < q.id) && decide (x.eid = q.eid ∧ x.ctx = q.ctx) && s.home.held.any (fun h => ofQuery x.id h.cmd))

/-- The walk request a shard's home gets; the operation's number is the model's own, as those of `opLoad` on are. -/
def opWalk : Nat := 7

/-- The elements of a query's vector in the index's type (R479): an FP32 vector is converted. -/
def queryElems (ix ws : List Word) (raw : Bytes) : Bytes :=
  if bitAt (wAt ws 0) 12 then
    (if ixType ix = 5 then packBools (vecBytes ix) ((chunksOf 4 (ixDim ix) raw).map (fun c => decide (leNat c % 2 ^ 31 ≠ 0)))
     else (chunksOf 4 (ixDim ix) raw).flatMap (fun c => natLE (elemBytes (ixCode ix)) (convElem 8 (ixCode ix) .rne (leNat c)).1))
  else raw

/-- A query starts on one of the engines (R479, R492, R799, R811, R869): it takes the applied epoch, and its vector is read once, on the pages its descriptor captured (R79, R80); or it is held
on what the read met. A query whose vector's page was absent is translated whole again (R90). -/
def State.queryRead (s : State) (q : Query) (ix : Index) : Except State State :=
  let cmd := Instr.queryStart q.id
  let i := q.issuer
  let off := dAt q.words 5
  let n := queryVecBytes ix.words q.words
  let (s, caps) : State × Caps := match s.replay.map Again.why with
    | some (.fault _) => s.recapture q.id q.pages
    | _ => (s, q.pages)
  let s := s.modQuery q.id (fun q => { q with pages := caps })
  match capsRegion caps (wAt q.words 4) off with
  | none => .error (s.queryEnd q.id .key)
  | some rid =>
    match s.gateOf rid with
    | some why => .error (s.holdCmd cmd why 0 i.eid i.ctx)
    | none =>
      let old := s.remapped q.id caps
      let o := s.overlay q.id caps
      match (match o.region? rid with
        | none => Except.error (Met.stop .key)
        | some rg => (match o.meetRead rid rg (.own i) off n with | .clear => .ok (o.readRange rg (.own i) off n) | m => .error m)) with
      | .error m =>
        (match o.holdOn (s.travHold cmd i 3 false) rid off m with
         | (t, some st) => .error ((t.restore old).queryEnd q.id st)
         | (t, none) => .error (t.restore old))
      | .ok raw =>
        let s := (o.readDone false rid (.own i) off n).restore old
        let hw := s.pickUnit 0x46 2 q.id
        let s := (s.workStart hw q.eid q.ctx (wAt q.words 8)).event hw 1 1 (s.ownCtx q.eid q.ctx)
        .ok { s.modQuery q.id (fun q =>
            { q with unit := hw, started := true, epoch := ix.applied, startTime := s.now, startNo := s.trav.startCount, vec := slotBytesOf ix.words (queryElems ix.words q.words raw) }) with
          trav.startCount := s.trav.startCount + 1 }

/-- Send the walks of a query's shards at other controllers (R480). -/
def State.sendWalks (s : State) (q : Query) (ctx : Nat) (beam : List Nat) : State :=
  beam.foldl (fun (s : State) n =>
    match s.shard? q.ix n with
    | some h => if s.isOwn h.home then s else s.sendTxn (.walk q.id n) ctx h.home opWalk h.key h.base 0 q.vec true
    | none => s) s

/-- Route a query that has started (R480), under ICTX; it is held on what a read of the tree meets, and goes on there. -/
def State.queryRoute (s : State) (q : Query) (ix : Index) : Result :=
  let cmd := Instr.queryStart q.id
  let i := s.ixIssuer (ixCtx ix.words)
  s.onIndex i s.lmf.eid (wAt ix.words 4) (Tab.getD q.reads 4096 Reads.none) (fun why => s.holdCmd cmd why 0 i.eid i.ctx)
    (routeVec ix.words q.vec (fld (wAt q.words 3) 27 22 + 1))
    (fun r o m s =>
      match s.holdOn (q.hold cmd i 3 true) (s.ridOf s.lmf.eid (wAt ix.words 4)) o m with
      | (s, some st) => .next (s.queryEnd q.id st)
      | (s, none) => .next (s.modQuery q.id (fun q => { q with reads := Tab.set q.reads 4096 r })))
    (fun _ beam s =>
      let s := s.modQuery q.id (fun q => { q with beam := beam, left := beam, reads := Tab.erase q.reads 4096 })
      .next (if beam = [] then s.queryEnd q.id .ok else s.sendWalks q (ixCtx ix.words) beam))

/-- QUERY_START (R479, R480, R488, R492): the query takes the applied epoch, its vector is read once, and its shards are chosen. -/
def execQueryStart (id : Nat) (s : State) : Result :=
  whenUp s fun s =>
    match s.query? id with
    | none => .next s
    | some q =>
      match s.index? q.ix with
      | none => .next (s.queryEnd id .key)
      | some ix =>
        if q.final.isSome then .next (if s.replay.isSome then s.queryWrite id else s)
        else if s.noneInService 0x46 2 || decide (q.beam ≠ []) || s.queryBehind q || s.isHeld (.queryStart id) then .next s
        else match (if q.started then .ok s else s.queryRead q ix : Except State State) with
          | .error s => .next s
          | .ok s =>
            match s.query? id with
            | none => .next s
            | some q => s.queryRoute q ix

/-- SHARD_WALK (R481 to R485, R499, R504): the walk of one shard of this controller, under ICTX. One that is held on what a read met goes on there
(R90). -/
def execShardWalk (id shard : Nat) (s : State) : Result :=
  whenUp s fun s =>
    let cmd := Instr.shardWalk id shard
    match s.query? id with
    | none => .next s
    | some q =>
      match s.shard? q.ix shard with
      | none => .next s
      | some h =>
        if q.final.isSome then .next (if s.replay.isSome then s.queryWrite id else s)
        else if s.noneInService 0x46 2 || !q.left.contains shard || Tab.has q.back shard || !s.isOwn h.home || s.queryBehind q || s.isHeld cmd then .next s
        else
          let i := s.ixIssuer h.ictx
          s.onIndex i h.home h.key (Tab.getD q.reads shard Reads.none) (fun why => s.holdCmd cmd why 0 i.eid i.ctx)
            (fun rd => shardReturns h rd q.skip q.prefetch q.vec q.l q.epoch)
            (fun r o m s =>
              match s.holdOn (q.hold cmd i 3 true) (s.ridOf h.home h.key) o m with
              | (s, some st) => .next (s.modQuery id (fun q => { q with back := Tab.set q.back shard (st, []), reads := Tab.erase q.reads shard }))
              | (s, none) => .next (s.modQuery id (fun q => { q with reads := Tab.set q.reads shard r })))
            (fun r x s =>
              let own := s.ownCtx q.eid q.ctx
              let s := ((s.event q.unit 2 x.2.1 own).event q.unit 3 x.2.2.2 own).event q.unit 4 r.ahead.length none
              .next (s.modQuery id (fun q => { q with
                back := Tab.set q.back shard (Status.ok, x.1), evals := q.evals + x.2.1, skips := q.skips + x.2.2.1, reads := Tab.erase q.reads shard })))

/-- The order of a result: distance, then ITEM (R476). -/
def hitBefore (a b : Hit) : Bool := decide (dkey a.dist < dkey b.dist) || (decide (dkey a.dist = dkey b.dist) && decide (a.item < b.item))

/-- Keep one entry for each ITEM: the better distance, and the lower shard on a tie (R486). -/
def mergeHits (hs : List Hit) : List Hit :=
  hs.foldl (fun acc h =>
    match acc.find? (fun x => decide (x.item = h.item)) with
    | none => h :: acc
    | some x =>
      if dkey h.dist < dkey x.dist ∨ (dkey h.dist = dkey x.dist ∧ h.shard < x.shard) then h :: acc.filter (fun y => decide (y.item ≠ h.item)) else acc) []

/-- The pages of the payloads of a query's results that are to get a T0 copy and have none (R490). The payload region is checked at its use (R83); a
page of a STREAM region, one without a page handle and one outside the region get none. -/
def State.payloadLacks (s : State) (q : Query) : List PageRef :=
  match if q.fetch then s.permit s.lmf.eid (wAt q.words 16) (dAt q.words 17) 0 needE q.issuer else none with
  | none => []
  | some (_, rg) =>
    (q.hits.flatMap (fun h => pagesOf (dAt q.words 17 + h.item * wAt q.words 19) (wAt q.words 19))).dedup.filterMap (fun p =>
      match (rg.handleOf p).map PageRef.pub with
      | none => none
      | some ref => (match s.page? ref with
        | some pg => if decide (pg.t0 = .none) && decide (s.placeOf ref ≠ .stream) then some ref else none
        | none => none))

/-- Start the fills of the payload pages that lack a T0 copy (R490, R126). -/
def State.payloadFill (s : State) (q : Query) : State :=
  (s.payloadLacks q).foldl (fun (s : State) ref => s.modPage ref (fun pg => if pg.move = none then pg.start .fill else pg)) s

/-- The returns of every shard are in: merge, filter, widen once, or finish (R486 to R488). -/
def State.queryMerge (s : State) (q : Query) : State :=
  let all := (mergeHits q.hits).insertionSort (fun a b => hitBefore a b || !hitBefore b a)
  let mask := dAt q.words 12
  let keep := all.filter (fun h => decide (h.attr &&& mask = dAt q.words 14))
  let removed := all.length - keep.length
  let short := decide (0 < removed) && decide (keep.length < q.k)
  let wide := { q with widened := true }
  if short && !q.widened && decide (fld (wAt q.words 0) 14 13 ≠ 0) && decide (q.l < wide.l) then
    let s := s.modQuery q.id (fun q => { q with widened := true, left := q.beam, back := [], hits := [], fails := 0, skips := 0, filtered := 0 })
    s.sendWalks q (match s.index? q.ix with | some ix => ixCtx ix.words | none => 0) q.beam
  else
    let st : Status := if short then .filterShortfall else .ok
    let s := s.event q.unit 5 (b2n short) (s.ownCtx q.eid q.ctx)
    let s := s.modQuery q.id (fun q => { q with hits := keep.take q.k, filtered := removed })
    if q.fetch then
      (s.modQuery q.id (fun q => { q with final := some st })).payloadFill { q with hits := keep.take q.k }
    else s.queryEnd q.id st

/-- SHARD_WALK_END (R486, R504): a shard's returns reach the index home; after the last they are merged. Those of another controller
come with the command, with the distances it computed and the nodes it skipped. -/
def execShardWalkEnd (id shard : Nat) (st : Status) (ret : WalkReturns) (s : State) : Result :=
  whenUp s fun s =>
    match s.query? id with
    | none => .next s
    | some q =>
      let mine : Bool := match s.shard? q.ix shard with | some h => s.isOwn h.home | none => false
      let got := Tab.get? q.back shard
      if !q.left.contains shard || q.final.isSome || (mine && got.isNone) then .next s
      else
        let (ev, sk) := if got.isSome then (0, 0) else (ret.evals, ret.skips)
        let (st, hits) := got.getD (st, ret.hits)
        if st ≠ Status.ok ∧ q.partialOk = false then .next (s.queryEnd id st)
        else
          let q' := { q with
            left := q.left.filter (fun n => decide (n ≠ shard)), back := Tab.erase q.back shard, hits := if st = Status.ok then q.hits ++ hits else q.hits
            evals := q.evals + ev, skips := q.skips + sk, fails := if st = Status.ok then q.fails else q.fails + 1 }
          let s := s.modQuery id (fun _ => q')
          .next (if q'.left = [] then s.queryMerge q' else s)

/-- PAYLOAD_FETCH_END (R490): every copy is filled, and the result block is written; a fill that was given up is started again. -/
def execPayloadFetchEnd (id : Nat) (s : State) : Result :=
  whenUp s fun s =>
    match s.query? id with
    | none => .next s
    | some q =>
      if q.final.isNone then .next s
      else .next (if s.payloadLacks q = [] then s.queryWrite id else s.payloadFill q)

/-! ### Updates (R491 to R495, R505) -/

/-- An answer to an update: logged under its LSEQ (R495), with the value zero (R256) and the words that a repeated request is answered with (R250); on an
index whose tree region is mirrored the partner holds the entry first (R255). -/
def State.trvAnswer (s : State) (r : BciReq) (i : Issuer) (index lseq : Nat) (st : Status) (resp : List Word) (value : Nat) : State :=
  let s := s.logPut (s.issuerLog r i) { lseq := lseq, tomb := false, st := st, value := 0, resp := value, time := s.now }
  match s.index? index with
  | some ix => s.answerAfter (s.ridOf s.lmf.eid (wAt ix.words 4)) 0 [] (some { s.noteOf i.eid i.ctx lseq st 0 with resp := value }) st (.bci r resp)
  | none => s.respond r st resp

/-- Updates of a shard that are not yet appended. -/
def State.waitingUpdates (s : State) (index shard : Nat) : List TrvUpdate :=
  s.trav.updates.filter (fun u => decide (u.index = index ∧ u.shard = shard) && !u.appended)

/-- Take the next index epoch for an update (R491). -/
def State.trvTake (s : State) (r : BciReq) (i : Issuer) (index : Nat) (ix : Index) (shard item attr lseq : Nat) (ins : Bool) (vec : Bytes) : Result :=
  let full : Bool := match s.shard? index shard with
    | some h => decide (h.slCap ≤ h.tail - h.head + (s.waitingUpdates index shard).length)
    | none => false
  if full then .next (s.trvAnswer r i index lseq .quota [] 0)
  else
    let u : TrvUpdate :=
      { id := s.nextId, r := r, index := index, shard := shard, epoch := ix.epoch + 1, ins := ins, item := item, attr := attr, vec := vec, lseq := lseq, eid := i.eid,
        ctx := i.ctx, appended := false }
    .next { s with
      nextId := s.nextId + 1
      trav.updates := s.trav.updates ++ [u]
      trav.indexes := Tab.set s.trav.indexes index { ix with epoch := ix.epoch + 1 } }

/-- TRV_INSERT (R473, R491, R495): the vector is read once, and a read of the tree that is held goes on with it (R90). -/
def execTrvInsert (r : BciReq) (s : State) : Result :=
  bciServe .trvInsert { BciRow.f 0x83 9 with minor := some 0, resv := fun r => above r 1 8 || offResv r 7 } r s fun r i s =>
    let cmd := Instr.trvInsert r
    let lseq := r.w 9
    let fail (s : State) (st : Status) : State := s.trvAnswer r i (r.w 1) lseq st [] 0
    s.once r i lseq 3 fun s =>
      match s.index? (r.w 1) with
      | none => .next (fail s .key)
      | some ix =>
        if ix.destroying || ix.waits.isSome || (s.permit s.lmf.eid (wAt ix.words 4) (dAt ix.words 5) 64 needW i).isNone then .next (fail s .key)
        else s.onRegion cmd r i (r.w 6) (r.d 7) (vecBytes ix.words) needR fail fun rid rg s =>
          let n := vecBytes ix.words
          let route (s : State) (vec : Bytes) : Result :=
            let me := s.ixIssuer (ixCtx ix.words)
            s.onIndex me s.lmf.eid (wAt ix.words 4) Reads.none (fun why => ((s.withGot cmd vec).holdBci cmd r i why (s.bciHoldEnd r)).ungot s) (routeVec ix.words vec 1)
              (fun _ o m s =>
                match (s.withGot cmd vec).bciMet cmd r i 0 (s.ridOf s.lmf.eid (wAt ix.words 4)) o m with
                | (t, some st) => .next (fail (t.ungot s) st)
                | (t, none) => .next (t.ungot s))
              (fun _ beam s =>
                match beam with
                | n :: _ => s.trvTake r i (r.w 1) ix n (r.d 2) (r.d 4) lseq true vec
                | [] => .next (fail s .notSupported))
          if s.gotSoFar ≠ [] then route s s.gotSoFar
          else match s.meetRead rid rg (.own i) (r.d 7) n with
          | .clear => route (s.readDone false rid (.own i) (r.d 7) n) (slotBytesOf ix.words (s.readRange rg (.own i) (r.d 7) n))
          | m =>
            match s.bciMet cmd r i 0 rid (r.d 7) m with
            | (s, some st) => .next (fail s st)
            | (s, none) => .next s

/-- TRV_DELETE (R473, R491, R495). -/
def execTrvDelete (r : BciReq) (s : State) : Result :=
  bciServe .trvDelete { BciRow.f 0x84 5 with minor := some 0, resv := fun r => above r 1 8 || above r 4 12 } r s fun r i s =>
    let lseq := r.w 5
    let fail (s : State) (st : Status) : State := s.trvAnswer r i (r.w 1) lseq st [] 0
    s.once r i lseq 2 fun s =>
      match s.index? (r.w 1) with
      | none => .next (fail s .key)
      | some ix =>
        if ix.destroying || ix.waits.isSome || (s.permit s.lmf.eid (wAt ix.words 4) (dAt ix.words 5) 64 needW i).isNone then .next (fail s .key)
        else if ixShards ix.words ≤ r.w 4 then .next (fail s .notSupported)
        else s.trvTake r i (r.w 1) ix (r.w 4) (r.d 2) 0 lseq false []

/-- The applied epoch (R492). -/
def State.appliedEpoch (s : State) (index : Nat) (ix : Index) : Nat :=
  (s.trav.updates.filter (fun u => decide (u.index = index) && !u.appended)).foldl (fun m u => min m (u.epoch - 1)) ix.epoch

/-- Start a MERGE of a shard as a long operation (R496). -/
def State.mergeStart (s : State) (index shard : Nat) (ix : Index) (h : Shard) (who : Option (Nat × Nat)) : State :=
  let op := s.bci.nextOp
  (s.startOp (.merge index shard) (h.tail - h.head - h.linkTimes.length) who).setShard index shard { h with merge := some op, mergeTo := ix.applied }

/-- Complete the updates that the applied epoch has reached (R493). -/
def State.trvComplete (s : State) (index : Nat) : State :=
  match s.index? index with
  | none => s
  | some ix =>
    let a := s.appliedEpoch index ix
    let s := { s with trav.indexes := Tab.set s.trav.indexes index { ix with applied := a } }
    let done := s.trav.updates.filter (fun u => decide (u.index = index) && u.appended && decide (u.epoch ≤ a))
    let s := { s with trav.updates := s.trav.updates.filter (fun (u : TrvUpdate) => !(decide (u.index = index) && u.appended && decide (u.epoch ≤ a))) }
    done.foldl (fun (s : State) u =>
      let i : Issuer := { eid := u.eid, ctx := u.ctx, admin := false }
      s.trvAnswer u.r i index u.lseq .ok (two u.epoch ++ (if u.ins then one u.shard else [])) (u.epoch + (if u.ins then 2 ^ 64 * u.shard else 0))) s

/-- Start the MERGE that AUTO_MERGE calls for (R503). -/
def State.autoMerge (s : State) (index shard : Nat) : State :=
  match s.index? index, s.shard? index shard with
  | some ix, some h =>
    if ixAuto ix.words ≠ 0 ∧ h.merge = none ∧ ixAuto ix.words * h.slCap ≤ (h.tail - h.head) * 100 then
      s.mergeStart index shard ix h (some (s.lmf.eid, h.ictx))
    else s
  | _, _ => s

/-- Direct writes of the controller to index memory under ICTX (R472, R473), each checked at its use (R83): all of them, or what the first that is stopped
meets. -/
def State.putAll (s : State) (h : Shard) (work : WorkRef) (ws : List (Nat × Bytes)) : Except (Nat × Met) State :=
  let i := s.ixIssuer h.ictx
  let met (w : Nat × Bytes) : Met := match s.permit h.home h.key w.1 w.2.length needW i with
    | none => .stop .key
    | some (rid, rg) => s.meetWrite rid rg .direct w.1 w.2.length
  match ws.find? (fun w => decide (met w ≠ .clear)) with
  | some w => .error (w.1, met w)
  | none =>
    let rid := s.ridOf h.home h.key
    .ok (ws.foldl (fun (s : State) w => ((s.writeRange rid .direct w.1 w.2).touchRange false rid .pub w.1 w.2.length).forward rid w.1 w.2 work) s)

/-- An update whose record cannot be appended ends with a status (R92, R495). -/
def State.updateFail (s : State) (u : TrvUpdate) (st : Status) : State :=
  let s := { s with trav.updates := s.trav.updates.filter (fun (x : TrvUpdate) => decide (x.id ≠ u.id)) }
  (s.trvAnswer u.r { eid := u.eid, ctx := u.ctx, admin := false } u.index u.lseq st [] 0).trvComplete u.index

/-- The request that brings a record to a shard's home; the operation's number is the model's own. -/
def opAppend : Nat := 8

/-- The record of an update (R468). -/
def TrvUpdate.record (u : TrvUpdate) (h : Shard) : Bytes :=
  let bs := ({ op := if u.ins then 1 else 2, linked := false, item := u.item, attr := u.attr, epoch := u.epoch, node := 0, vec := u.vec } : SideRec).bytes h.desc
  if u.ins then bs else bs.take 64

/-- Change an update. -/
def State.modUpdate (s : State) (id : Nat) (f : TrvUpdate → TrvUpdate) : State :=
  { s with trav.updates := s.trav.updates.map (fun (x : TrvUpdate) => if x.id = id then f x else x) }

/-- An update's record stands in its side list (R492): the epochs it completes are answered, and AUTO_MERGE looks at the list. -/
def State.appendOver (s : State) (u : TrvUpdate) (h : Shard) : State :=
  let s := (s.setShard u.index u.shard { h with tail := h.tail + 1 }).modUpdate u.id (fun u => { u with appended := true })
  (s.trvComplete u.index).autoMerge u.index u.shard

/-- SIDE_LIST_APPEND (R491 to R493, R503): the record of the shard's lowest waiting epoch is appended. In a mirrored region it stands once the partner
holds it (R737), and at another controller once that has taken it. -/
def execSideListAppend (id : Nat) (s : State) : Result :=
  whenUp s fun s =>
    let cmd := Instr.sideListAppend id
    match s.trav.updates.find? (fun u => decide (u.id = id)) with
    | none => .next s
    | some u =>
      match s.shard? u.index u.shard with
      | none => .next s
      | some h =>
        let first := ((s.waitingUpdates u.index u.shard).map TrvUpdate.epoch).foldl min u.epoch
        let i := s.ixIssuer h.ictx
        if u.appended || decide (first ≠ u.epoch) || s.isHeld cmd then .next s
        else if u.written then
          if s.mirroring (.batch id) || s.txnLive (fun w => decide (w = .append id)) then .next s else .next (s.appendOver u h)
        else if s.isOwn h.home then
          match s.gateOf (s.ridOf h.home h.key) with
          | some why => .next (s.holdCmd cmd why 0 i.eid i.ctx)
          | none =>
            match s.putAll h (.batch id) [(h.sideAt h.tail, u.record h)] with
            | .ok s => .next (if s.mirroring (.batch id) then s.modUpdate id (fun u => { u with written := true }) else s.appendOver u h)
            | .error (o, m) =>
              match s.holdOn (s.travHold cmd i 4 true) (s.ridOf h.home h.key) o m with
              | (s, some st) => .next (s.updateFail u st)
              | (s, none) => .next s
        else .next ((s.modUpdate id (fun u => { u with written := true })).sendTxn (.append id) h.ictx h.home opAppend h.key (h.sideAt h.tail) 0 (u.record h) true)

/-! ### MERGE (R496 to R502) -/

/-- TRV_MERGE (R496). -/
def execTrvMerge (r : BciReq) (s : State) : Result :=
  bciServe .trvMerge { BciRow.o 0x85 2 with minor := some 0, resv := fun r => above r 1 8 || above r 2 12 } r s fun r i s =>
    match s.index? (r.w 1), s.shard? (r.w 1) (r.w 2) with
    | some ix, some h =>
      if ix.destroying || ix.waits.isSome then .next (s.respond r .key [])
      else if h.merge.isSome then .next (s.respond r .state [])
      else
        let op := s.bci.nextOp
        .next ((s.mergeStart (r.w 1) (r.w 2) ix h (s.attributed i)).respond r .ok (one op))
    | _, _ => .next (s.respond r .key [])

/-- Stop a MERGE (R502). -/
def State.mergeStop (s : State) (index shard state : Nat) (st : Status) : State :=
  match s.shard? index shard with
  | none => s
  | some h =>
    match h.merge with
    | none => s
    | some op => (s.setShard index shard { h with merge := none }).endOp op state st

/-- TRV_MERGE_CANCEL (R502, R575). -/
def execTrvMergeCancel (r : BciReq) (s : State) : Result :=
  bciServe .trvMergeCancel { BciRow.o 0x86 2 with minor := some 4, resv := fun r => above r 1 8 || above r 2 12 } r s fun r _ s =>
    match s.shard? (r.w 1) (r.w 2) with
    | none => .next (s.respond r .key [])
    | some h => if h.merge.isNone then .next (s.respond r .state []) else .next ((s.mergeStop (r.w 1) (r.w 2) 2 .ok).respond r .ok [])

/-- Choose neighbours in order of distance: one is kept unless a neighbour already kept is closer to it than the node is (R497). -/
def pickNeighbours (h : Shard) (rd : Reader) (degree : Nat) : List (Nat × BitVec 32) → List (Nat × Bytes) → Rd (List Nat)
  | [], kept => pure (kept.map Prod.fst)
  | (n, d) :: t, kept =>
    if degree ≤ kept.length then pure (kept.map Prod.fst)
    else do
      let v ← fetch rd (h.vecAt n) (vslot h.desc)
      if kept.any (fun k => decide (dkey (distance h.desc v k.2) < dkey d)) then pickNeighbours h rd degree t kept
      else pickNeighbours h rd degree t (kept ++ [(n, v)])

/-- An ADJ entry (R468). -/
def adjBytes (h : Shard) (ns : List Nat) : Bytes :=
  ((natLE 1 ns.length ++ [0, 0, 0] ++ ns.flatMap (natLE 4)) ++ List.replicate (adjStride h.desc) 0).take (adjStride h.desc)

/-- Distances from a vector to nodes, in order (R476). -/
def rankNodes (h : Shard) (rd : Reader) (v : Bytes) : List Nat → Rd (List (Nat × BitVec 32))
  | [] => pure []
  | n :: t => do
    let rs ← rankNodes h rd v t
    let w ← fetch rd (h.vecAt n) (vslot h.desc)
    pure (putSorted (fun a b => decide (dkey a.2 < dkey b.2) || (decide (dkey a.2 = dkey b.2) && decide (a.1 < b.1))) (n, distance h.desc v w) rs)

/-- The new ADJ entries of the kept neighbours of a node: the node is added, and a full list is pruned by the same rule (R497). -/
def linkBack (h : Shard) (rd : Reader) (slot : Nat) (vec : Bytes) : List Nat → Rd (List (Nat × Bytes))
  | [] => pure []
  | k :: t => do
    let ws ← linkBack h rd slot vec t
    let ns ← neighbours h rd k
    if ns.contains slot then pure ws
    else if ns.length < ixDegree h.desc then pure ((h.adjAt k, adjBytes h (ns ++ [slot])) :: ws)
    else
      let v ← fetch rd (h.vecAt k) (vslot h.desc)
      let old ← rankNodes h rd v ns
      let ranked := putSorted (fun a b => decide (dkey a.2 < dkey b.2) || (decide (dkey a.2 = dkey b.2) && decide (a.1 < b.1))) (slot, distance h.desc v vec) old
      let new : Reader := fun o n => if o = h.vecAt slot then .ok (vec.take n) else rd o n
      let ks ← pickNeighbours h new (ixDegree h.desc) ranked []
      pure ((h.adjAt k, adjBytes h ks) :: ws)

/-- A META entry. -/
def metaBytes (item ins del attr : Nat) : Bytes := natLE 8 item ++ natLE 8 ins ++ natLE 8 del ++ natLE 8 attr

/-- The writes that fold an insert into the graph at a slot, in their order (R497, R499). -/
def foldInsert (h : Shard) (n slot : Nat) (r : SideRec) (rd : Reader) : Rd (List (Nat × Bytes)) := do
  let w ← walkShard h rd false 0 r.vec (ixMergeL h.desc)
  let ks ← pickNeighbours h rd (ixDegree h.desc) (w.queue.map (fun x => (x.node, x.dist))) []
  let back ← linkBack h rd slot r.vec ks
  pure ([(h.metaAt slot, metaBytes r.item r.epoch (2 ^ 64 - 1) r.attr), (h.vecAt slot, r.vec.take (vslot h.desc)), (h.adjAt slot, adjBytes h ks)] ++ back
    ++ [(h.sideAt n, ({ r with linked := true, node := slot }).bytes h.desc)])

/-- The writes that fold a delete: DEL_EPOCH of each live older node of the item (R498). -/
def foldDelete (h : Shard) (n : Nat) (r : SideRec) (rd : Reader) : List Nat → Rd (List (Nat × Bytes))
  | [] => pure [(h.sideAt n, (({ r with linked := true }).bytes h.desc).take 64)]
  | k :: t => do
    let ws ← foldDelete h n r rd t
    let (item, ins, del, attr) ← readMeta h rd k
    pure (if item = r.item ∧ del = 2 ^ 64 - 1 ∧ ins < r.epoch then (h.metaAt k, metaBytes item ins r.epoch attr) :: ws else ws)

/-- The queries whose walk of a shard of this controller is in progress. -/
def State.walking (s : State) (index shard : Nat) : List Nat :=
  (s.trav.queries.filter (fun q => decide (q.ix = index) && q.left.contains shard && Tab.has q.reads shard)).map Query.id

/-- The node slots an insert may take, in the order of preference: reclaimed ones whose walks of R501 have ended, then the next that was never used. -/
def State.usable (s : State) (h : Shard) : List Nat :=
  let busy := s.walking h.index h.shard
  (h.freeSlots.filter (fun x => x.2.all (fun id => !busy.contains id))).map Prod.fst ++ (if h.count < h.cap then [h.count] else [])

/-- What folding a record does to a shard (R497, R498): the writes, with the slot an insert takes; none where MERGE has reached its end. -/
def foldRecord (h : Shard) (slot : Option Nat) (n : Nat) (rd : Reader) : Rd (Option (SideRec × List (Nat × Bytes))) := do
  let r ← readSide h rd n
  if h.mergeTo < r.epoch then pure none
  else if r.op = 1 then
    match slot with
    | none => pure (some (r, []))
    | some slot =>
      let ws ← foldInsert h n slot r rd
      pure (some (r, ws))
  else
    let ws ← foldDelete h n r rd (upto h.count)
    pure (some (r, ws))

/-- The next record of a shard's side list is folded (R496, R500): it is linked now, and the MERGE's position moves on. -/
def State.folded (s : State) (index shard op : Nat) (h : Shard) : State :=
  let s := s.setShard index shard { h with linkTimes := Tab.set h.linkTimes (h.head + h.linkTimes.length) s.trav.startCount }
  s.opProgress op (match s.bci.ops.find? (fun o => decide (o.id = op)) with | some o => o.pos + 1 | none => 0)

/-- A shard's home at another controller has folded the record it was asked to fold, or could not (R473, R496, R502). -/
def State.foldReply (s : State) (index shard : Nat) (st : Status) : State :=
  match s.shard? index shard with
  | none => s
  | some h =>
    match h.merge with
    | none => s
    | some op => if st = .ok then s.folded index shard op h else s.mergeStop index shard 1 st

/-- MERGE_RECORD (R496 to R499, R502): the next record of the side list is folded. With none left up to the epoch at its start, the MERGE is
done. An insert waits for a reclaimed slot that a walk still keeps from use (R501), and without a free one stops the MERGE. -/
def execMergeRecord (index shard : Nat) (s : State) : Result :=
  whenUp s fun s =>
    let cmd := Instr.mergeRecord index shard
    match s.shard? index shard with
    | none => .next s
    | some h =>
      match h.merge with
      | none => .next s
      | some op =>
        let n := h.head + h.linkTimes.length
        let i := s.ixIssuer h.ictx
        let note (s : State) (o : Nat) (m : Met) (access : Nat) : Result :=
          match s.holdOn (s.travHold cmd i access true) (s.ridOf h.home h.key) o m with
          | (s, some st) => .next (s.mergeStop index shard 1 st)
          | (s, none) => .next s
        if s.isHeld cmd then .next s
        else if h.tail ≤ n then .next (s.mergeStop index shard 1 .ok)
        else if !s.isOwn h.home then
          .next (if s.txnLive (fun w => decide (w = .fold index shard)) then s
            else s.sendTxn (.fold index shard) h.ictx h.home opFold h.key (h.sideAt n) 0 (natLE 8 h.mergeTo) true)
        else
          let slot := (s.usable h).head?
          s.onIndex i h.home h.key Reads.none (fun why => s.holdCmd cmd why 0 i.eid i.ctx) (foldRecord h slot n) (fun _ o m s => note s o m 3) fun _ x s =>
            match x with
            | none => .next (s.mergeStop index shard 1 .ok)
            | some (r, ws) =>
              if r.op = 1 ∧ slot = none then
                if h.freeSlots = [] then .next (s.mergeStop index shard 1 .quota) else .next s
              else
                match s.putAll h (.batch 0) ws with
                | .error (o, m) => note s o m 4
                | .ok s =>
                  let s := s.event (s.pickUnit 0x46 2 op) 6 1 none
                  .next (s.folded index shard op (match r.op, slot with
                    | 1, some slot => { h with
                        freeSlots := h.freeSlots.filter (fun x => decide (x.1 ≠ slot))
                        count := max h.count (slot + 1)
                        entry := if h.count = 0 then slot else h.entry }
                    | _, _ => h))

/-- RECORD_RETIRE (R500): the oldest record is linked, and every query that started before it was linked has ended. -/
def execRecordRetire (index shard n : Nat) (s : State) : Result :=
  whenUp s fun s =>
    match s.shard? index shard with
    | none => .next s
    | some h =>
      match Tab.get? h.linkTimes n with
      | none => .next s
      | some t =>
        if n = h.head ∧ s.trav.queries.any (fun q => decide (q.ix = index) && q.started && decide (q.startNo < t)) = false then
          .next (s.setShard index shard { h with head := h.head + 1, linkTimes := Tab.erase h.linkTimes n })
        else .next s

/-- The new ADJ entries that take the edges to a slot away, using the deleted node's neighbours (R501). -/
def unlinkEdges (h : Shard) (rd : Reader) (slot : Nat) (around : List Nat) : List Nat → Rd (List (Nat × Bytes))
  | [] => pure []
  | k :: t => do
    let ws ← unlinkEdges h rd slot around t
    let ns ← neighbours h rd k
    if !ns.contains slot then pure ws
    else
      let v ← fetch rd (h.vecAt k) (vslot h.desc)
      let ranked ← rankNodes h rd v ((ns ++ around).dedup.filter (fun x => decide (x ≠ slot ∧ x ≠ k)))
      let ks ← pickNeighbours h rd (ixDegree h.desc) ranked []
      pure ((h.adjAt k, adjBytes h ks) :: ws)

/-- What reclaiming a slot does to a shard (R501): the writes, and the epoch of the node's delete; no writes for a live node. -/
def reclaimSlot (h : Shard) (n : Nat) (rd : Reader) : Rd (Nat × List (Nat × Bytes)) := do
  let (_, _, del, _) ← readMeta h rd n
  if del = 2 ^ 64 - 1 then pure (del, [])
  else
    let around ← neighbours h rd n
    let ws ← unlinkEdges h rd n around ((upto h.count).filter (fun k => decide (k ≠ n) && !(h.freeSlots.map Prod.fst).contains k))
    pure (del, ws)

/-- SLOT_RECLAIM (R501): a deleted node that no query in flight could see gives its slot back; the entry node stays (DESIGN CHOICE,
log 19). -/
def execSlotReclaim (index shard n : Nat) (s : State) : Result :=
  whenUp s fun s =>
    let cmd := Instr.slotReclaim index shard n
    match s.shard? index shard with
    | none => .next s
    | some h =>
      let i := s.ixIssuer h.ictx
      let note (s : State) (o : Nat) (m : Met) (access : Nat) : Result :=
        match s.holdOn (s.travHold cmd i access true) (s.ridOf h.home h.key) o m with
        | (s, some st) => .next (s.mergeStop index shard 1 st)
        | (s, none) => .next s
      if h.merge.isNone || decide (h.count ≤ n) || (h.freeSlots.map Prod.fst).contains n || decide (n = h.entry) || !s.isOwn h.home || s.isHeld cmd then .next s
      else
        s.onIndex i h.home h.key Reads.none (fun why => s.holdCmd cmd why 0 i.eid i.ctx) (reclaimSlot h n) (fun _ o m s => note s o m 3) fun _ x s =>
          if x.1 = 2 ^ 64 - 1 ∨ s.trav.queries.any (fun q => decide (q.ix = index) && q.started && decide (q.epoch < x.1)) = true then .next s
          else match s.putAll h (.batch 0) x.2 with
            | .error (o, m) => note s o m 4
            | .ok s => .next (s.setShard index shard { h with freeSlots := h.freeSlots ++ [(n, s.walking index shard)] })

/-- INDEX_DESTROY (R504, R505). -/
def execIndexDestroy (r : BciReq) (s : State) : Result :=
  bciServe .indexDestroy { BciRow.o 0x81 1 with minor := some 0, resv := fun r => above r 1 8 } r s fun r _ s =>
    match s.index? (r.w 1) with
    | none => .next (s.respond r .key [])
    | some ix =>
      if ix.destroying || ix.waits.isSome then .next (s.respond r .key [])
      else
        let s := { s with trav.indexes := Tab.set s.trav.indexes (r.w 1) { ix with destroying := true } }
        let s := (upto (ixShards ix.words)).foldl (fun (s : State) n => s.mergeStop (r.w 1) n 2 .ok) s
        let us := s.trav.updates.filter (fun u => decide (u.index = r.w 1))
        let s := { s with trav.updates := s.trav.updates.filter (fun (u : TrvUpdate) => decide (u.index ≠ r.w 1)) }
        let s := us.foldl (fun (s : State) u => s.trvAnswer u.r { eid := u.eid, ctx := u.ctx, admin := false } u.index u.lseq .key [] 0) s
        let qs := s.trav.queries.filter (fun q => decide (q.ix = r.w 1) && !q.started && q.final.isNone)
        let s := qs.foldl (fun (s : State) q => s.queryEnd q.id .key) s
        .next (s.trvSweep.respond r .ok [])

end Sys2Proof.Machine
end

