-- ==== Sys2Proof/Machine/Moraine.lean ====
section
/-! DEFINITION. Moraine embedding gather, pooling and update (13): tables and their rows, batches, pooling and scatter-add, the completion block, table swaps. -/

namespace Sys2Proof.Machine

/-! ### Tables (R506 to R512) -/

/-- HMODE. -/
def etMode (ws : List Word) : Nat := fld (wAt ws 0) 9 8
/-- COMPOSE: sum. -/
def etSum (ws : List Word) : Bool := bitAt (wAt ws 0) 10
/-- DIRV. -/
def etDirv (ws : List Word) : Bool := bitAt (wAt ws 0) 11
/-- UCLASS. -/
def etUclass (ws : List Word) : Nat := fld (wAt ws 0) 13 12
/-- R_CLASS. -/
def etRclass (ws : List Word) : Nat := fld (wAt ws 0) 15 14
/-- DIM. -/
def etDim (ws : List Word) : Nat := fld (wAt ws 1) 12 0
/-- N_IDX. -/
def etIdx (ws : List Word) : Nat := dAt ws 2
/-- N_ROWS. -/
def etRows (ws : List Word) : Nat := wAt ws 4
/-- R_ROWS. -/
def etRrows (ws : List Word) : Nat := fld (wAt ws 5) 24 0
/-- TCTX. -/
def etCtx (ws : List Word) : Nat := fld (wAt ws 8) 11 0
/-- DATA_KEY. -/
def etKey (ws : List Word) : Nat := wAt ws 9
/-- DIR_OFF. -/
def etDir (ws : List Word) : Nat := dAt ws 10
/-- Offset of the array of a class. -/
def etOff (ws : List Word) (c : Nat) : Nat := dAt ws (12 + 3 * c)
/-- Slots in the array of a class. -/
def etCap (ws : List Word) (c : Nat) : Nat := wAt ws (14 + 3 * c)
/-- R_OFF. -/
def etRoff (ws : List Word) : Nat := dAt ws 24

/-- Bytes of a row of a class (R509). -/
def etRowBytes (c dim : Nat) : Nat := match c with | 0 => 4 * dim | 1 => 2 * dim | 2 => dim | _ => 4 + dim / 2

/-- The stride of a class (R509). -/
def etStride (c dim : Nat) : Nat := alignUp (etRowBytes c dim) 16

/-- The ranges a table uses in its region (R507): the directory, the class arrays and the remainder array. -/
def etRanges (ws : List Word) : List (Nat × Nat) :=
  (if etDirv ws then [(etDir ws, 4 * etRows ws)] else [])
    ++ ((upto 4).filter (fun c => decide (etCap ws c ≠ 0))).map (fun c => (etOff ws c, etCap ws c * etStride c (etDim ws)))
    ++ (if etMode ws = 2 then [(etRoff ws, etRrows ws * etStride (etRclass ws) (etDim ws))] else [])

/-- The field rules of R506 and R507. -/
def tableOk (ws : List Word) : Bool :=
  decide (fld (wAt ws 0) 7 0 = 1) && decide (etMode ws ≠ 3) && decide (fld (wAt ws 0) 31 16 = 0)
    && decide (8 ≤ etDim ws ∧ etDim ws ≤ 4096 ∧ etDim ws % 8 = 0) && decide (fld (wAt ws 1) 31 13 = 0) && decide (1 ≤ etIdx ws) && decide (1 ≤ etRows ws)
    && decide (fld (wAt ws 5) 31 25 = 0) && (if etMode ws = 2 then decide (1 ≤ etRrows ws ∧ etRrows ws ≤ 16777216) else decide (etRrows ws = 0))
    && (decide (etMode ws ≠ 1) || decide (dAt ws 6 % 2 = 1)) && decide (wAt ws 8 < 4096)
    && [10, 12, 15, 18, 21, 24].all (fun i => decide (dAt ws i < 2 ^ 52) && decide (dAt ws i % 64 = 0))
    && [14, 17, 20, 23].all (fun i => decide (wAt ws i < 2 ^ 28)) && (ws.drop 26).all (fun w => decide (w = 0))
    && (decide (etMode ws ≠ 0) || decide (etIdx ws ≤ etRows ws)) && (decide (etMode ws ≠ 2) || decide (etIdx ws ≤ etRows ws * etRrows ws))

/-- The region a key of this controller names, with the rights an issuer needs on it. -/
def State.withRight (s : State) (key : Nat) (need : Rights) (i : Issuer) : Option (Nat × Region) :=
  match s.live s.lmf.eid key with
  | some (_, rg) => s.permit s.lmf.eid key rg.base 0 need i
  | none => none

/-- The issuer of the controller's own accesses to a table (R506, R510). -/
def State.etIssuer (s : State) (ws : List Word) : Issuer := { eid := s.lmf.eid, ctx := etCtx ws, admin := false }

/-- The checks of R507 on a descriptor, with R575 for TCTX: the status of a rejection, or none. -/
def State.tableCheck (s : State) (ws : List Word) : Option Status :=
  if !tableOk ws then some .notSupported
  else if !s.ctxOk (etCtx ws) then some .state
  else match s.live s.lmf.eid (etKey ws) with
    | none => some .key
    | some (_, rg) =>
      if rg.mode = .coherent ∨ (etRanges ws).all (fun x => rg.inside x.1 x.2) = false then some .notSupported
      else if (s.withRight (etKey ws) (needR.or needEW) (s.etIssuer ws)).isNone then some .key
      else none

/-- EMB_TABLE_CREATE (R506, R507, R575, R872). -/
def execEmbTableCreate (r : BciReq) (s : State) : Result :=
  bciServe .embTableCreate { BciRow.o 0x90 3 with minor := some 0, resv := fun r => offResv r 2 } r s fun r i s =>
    s.onRegion (.embTableCreate r) r i (r.w 1) (r.d 2) 128 needR (State.refuse r) fun rid rg s =>
      match s.meetRead rid rg (.own i) (r.d 2) 128 with
      | .clear =>
        let ws := wordsOf (s.readRange rg (.own i) (r.d 2) 128)
        let s := s.readDone false rid (.own i) (r.d 2) 128
        match s.tableCheck ws with
        | some st => .next (s.respond r st [])
        | none =>
          let n := lowestFree (Tab.keys s.mor.tables) 0
          if 1024 ≤ n then .next (s.respond r .quota [])
          else
            let t : EmbTable := { words := ws, tgen := 1, paused := false, next := [], swapOp := 0, drain := [], drained := 0 }
            .next (State.respond { s with mor.tables := Tab.set s.mor.tables n t } r .ok (one n))
      | m => .next (s.bciStop (.embTableCreate r) r i 0 rid (r.d 2) m)

/-- Where a stored row lies: its class and offset, or none where it is out of range (R508, R510, R512). `rem` names the remainder
table. -/
def rowPlace (ws : List Word) (rd : Reader) (rem : Bool) (n : Nat) : Rd (Option (Nat × Nat)) := do
  let at' (c slot : Nat) : Option (Nat × Nat) := if etCap ws c ≤ slot then none else some (c, etOff ws c + slot * etStride c (etDim ws))
  if rem then pure (some (etRclass ws, etRoff ws + n * etStride (etRclass ws) (etDim ws)))
  else if etDirv ws then
    let bs ← fetch rd (etDir ws + 4 * n) 4
    pure (at' (fld (leNat bs) 31 30) (fld (leNat bs) 27 0))
  else pure (at' (etUclass ws) n)

/-- The type code of a class that stores its elements as they are. -/
def classType (c : Nat) : Nat := match c with | 0 => 8 | 1 => 9 | _ => 10

/-- FP32 sum, rounded RNE. -/
def add32 (a b : Nat) : Nat := (fp32.finish .rne ((fp32.decode a).add (fp32.decode b))).1

/-- The elements of an INT4 row as signed numbers (R509). -/
def int4Of (dim : Nat) (bs : Bytes) : List Int :=
  (upto dim).map (fun e =>
    let q := ((bs.getD (4 + e / 2) 0).toNat / 16 ^ (e % 2)) % 16
    if q < 8 then (q : Int) else (q : Int) - 16)

/-- The elements of a stored row as FP32 bits (R509). -/
def rowVals (c dim : Nat) (bs : Bytes) : List Nat :=
  if c = 3 then
    let sc := leNat (bs.take 4)
    (int4Of dim bs).map (fun q => (fp32.finish .rne ((fp32.decode sc).mul (.fin (decide (q < 0)) q.natAbs 0))).1)
  else
    let w := elemBytes (classType c)
    (chunksOf w dim bs).map (fun x => (convElem (classType c) 8 .rne (leNat x)).1)

/-- The magnitude of a number, or none where it is infinite or not a number. -/
def magOf : FVal → Option (Nat × Int)
  | .fin _ m e => some (m, e)
  | _ => none

/-- Is the first of two finite magnitudes the smaller? -/
def magLess (a b : Nat × Int) : Bool :=
  let e := min a.2 b.2
  decide (a.1 * 2 ^ (a.2 - e).toNat < b.1 * 2 ^ (b.2 - e).toNat)

/-- x ÷ scale, rounded RNE and clamped to -7 to 7, as a nibble (R531). -/
def int4Quot (x scale : FVal) : Nat :=
  match x, scale with
  | .fin neg m e, .fin _ ms es =>
    if ms = 0 then 0
    else
      let (n, d) := scaled m ms (e - es)
      let q := n / d
      let r := n % d
      let k := min 7 (q + b2n (decide (d < 2 * r) || (decide (2 * r = d) && decide (q % 2 = 1))))
      if neg ∧ k ≠ 0 then 16 - k else k
  | _, _ => 0

/-- Encode an INT4 row (R531): the scale is the largest magnitude over 7. A row with an element that is no finite number is a free
value. -/
def int4Row (xs : List Nat) (free : Nat) : Bytes :=
  let vs := xs.map fp32.decode
  let (sc, qs) : Nat × List Nat :=
    if vs.all (fun v => (magOf v).isSome) then
      let a := (vs.filterMap magOf).foldl (fun (m : Nat × Int) x => if magLess m x then x else m) (0, 0)
      let sc := (fp32.roundRat .rne false a.1 7 a.2).1
      (sc, vs.map (fun v => int4Quot v (fp32.decode sc)))
    else (Config.int4Element free 0 % 2 ^ 32, (upto xs.length).map (fun e => Config.int4Element free (e + 1) % 16))
  natLE 4 sc ++ natLE (xs.length / 2) (packBits 4 qs)

/-- Apply contributions to a stored unit in an order that nothing fixes (R265, R529): at each step the next one is summed with another of the same batch,
or added to what is stored; `app` gets the step's number. -/
def applyAll {α : Type} (app : Nat → α → List Nat → α) (k : Nat) : Nat → α → List (List Nat) → α
  | 0, x, _ => x
  | n + 1, x, cs =>
    match cs with
    | [] => x
    | _ =>
      let i := Config.combinePick k n true % cs.length
      let c := cs.getD i []
      let rest := cs.eraseIdx i
      let j := Config.combinePick k n false % cs.length
      if j < rest.length then applyAll app k n x (rest.set j (List.zipWith add32 c (rest.getD j []))) else applyAll app k n (app n x c) rest

/-- The stored elements of a class after an add in FP32 (R530). -/
def unitAdd (c : Nat) (bs : Bytes) (d : List Nat) : Bytes :=
  let w := elemBytes (classType c)
  (List.zipWith (fun x y => natLE w (convElem 8 (classType c) .rne (add32 (convElem (classType c) 8 .rne (leNat x)).1 y)).1) (chunksOf w d.length bs) d).flatten

/-- The stored bytes of a unit of a row after a scatter-add at moment `k` (R530, R531): `adds` holds the contributions to its elements. -/
def rowAdd (c dim k : Nat) (adds : List (List Nat)) (bs : Bytes) : Bytes :=
  if c = 3 then applyAll (fun n bs d => int4Row (List.zipWith add32 (rowVals 3 dim bs) d) (k + n)) k adds.length bs adds
  else applyAll (fun _ bs d => unitAdd c bs d) k adds.length bs adds

/-! ### Batches (R513 to R526) -/

/-- OP: scatter. -/
def mbScatter (ws : List Word) : Bool := bitAt (wAt ws 0) 8
/-- The type code of OUT_TYPE. -/
def mbType (ws : List Word) : Nat := if bitAt (wAt ws 0) 9 then 9 else 8
/-- WV. -/
def mbWeights (ws : List Word) : Bool := bitAt (wAt ws 0) 10
/-- SKIP_POISON. -/
def mbSkip (ws : List Word) : Bool := bitAt (wAt ws 0) 13
/-- TABLE. -/
def mbTable (ws : List Word) : Nat := fld (wAt ws 1) 9 0
/-- N_BAGS. -/
def mbBags (ws : List Word) : Nat := fld (wAt ws 3) 16 0
/-- N. -/
def mbN (ws : List Word) : Nat := fld (wAt ws 4) 24 0

/-- Offsets of BAG, W and G in the input block, and its length (R514). -/
def mbParts (ws : List Word) (dim : Nat) : Nat × Nat × Nat × Nat :=
  let bag := alignUp (8 * mbN ws) 64
  let w := bag + alignUp (4 * (mbBags ws + 1)) 64
  let g := w + (if mbWeights ws then alignUp (4 * mbN ws) 64 else 0)
  (bag, w, g, g + (if mbScatter ws then mbBags ws * alignUp (4 * dim) 64 else 0))

/-- The output stride (R521). -/
def mbStride (ws : List Word) (dim : Nat) : Nat := alignUp (dim * elemBytes (mbType ws)) 64

/-- The field rules of R513. -/
def batchOk (ws : List Word) : Bool :=
  decide (fld (wAt ws 0) 7 0 = 1) && decide (fld (wAt ws 0) 31 14 = 0) && decide (wAt ws 1 < 1024) && decide (wAt ws 2 < 65536)
    && decide (1 ≤ wAt ws 3 ∧ wAt ws 3 ≤ 65536) && decide (1 ≤ wAt ws 4 ∧ wAt ws 4 ≤ 16777216) && decide (wAt ws 5 < 4096)
    && [7, 10].all (fun i => decide (dAt ws i < 2 ^ 52) && decide (dAt ws i % 64 = 0)) && decide (wAt ws 12 < 2 ^ 18)
    && (mbScatter ws || (decide (wAt ws 16 = 0) && decide (wAt ws 17 = 0))) && (ws.drop 18).all (fun w => decide (w = 0))

/-- The hardware unit of a Moraine unit (R791). -/
def morUnit (mu : Nat) : Nat := mu / 2 * 256 + 0x48 + mu % 2

/-- A batch. -/
def State.batch? (s : State) (id : Nat) : Option Batch := s.mor.batches.find? (fun b => decide (b.id = id))

/-- Change a batch. -/
def State.modBatch (s : State) (id : Nat) (f : Batch → Batch) : State :=
  { s with mor.batches := s.mor.batches.map (fun (b : Batch) => if b.id = id then f b else b) }

/-- OUT_EID. -/
def mbOutEid (ws : List Word) : Nat := fld (wAt ws 12) 17 0

/-- Offset of the completion block in the output, after the rows of a gather (R521). -/
def mbBlock (ws : List Word) (dim : Nat) : Nat := if mbScatter ws then 0 else mbBags ws * mbStride ws dim

/-- The output at this controller that a batch's issuer may write when the batch is queued, as a range (R79, R82, R521). -/
def State.outRange (s : State) (ws : List Word) (dim : Nat) (i : Issuer) : Option (Nat × Nat × Nat) :=
  if s.isOwn (mbOutEid ws) then
    (s.permit (mbOutEid ws) (wAt ws 9) (dAt ws 10) (mbBlock ws dim + 64) needW i).map (fun x => (x.1, dAt ws 10, mbBlock ws dim + 64))
  else none

/-- Raise the fault of a batch whose input or output has an absent page when it is queued (R79, R84). -/
def State.batchFault (s : State) (id : Nat) (i : Issuer) (input : Nat × Nat × Nat) (out : Option (Nat × Nat × Nat)) : State :=
  let held (access rid off p : Nat) : State :=
    (s.holdOn { cmd := .batchStart 0 id, i := i, access := access, runTime := false, hw := unitAmong 0x48 2 s.freeCtr, limit := 0, needRoom := false } rid off (.fault 1 p)).1
  match s.absentIn input.1 input.2.1 input.2.2, out.bind (fun x => (s.absentIn x.1 x.2.1 x.2.2).map (fun p => (x, p))) with
  | some p, _ => held 3 input.1 input.2.1 p
  | none, some (x, p) => held 4 x.1 x.2.1 p
  | none, none => s

/-- Check and queue a batch (R515, R540, R534): the state, or the status of its rejection and whether that is to be logged. A repeat of a scatter that is
queued or has been logged is not queued again (R250, R252). The pages of its input and output are translated now (R79); an output that the issuer may not
write now takes no row (R82, DEDUCED, log 20). -/
def State.batchAccept (s : State) (ws : List Word) (i : Issuer) (log : Nat) : Except (State × Status × Bool) State :=
  let ws := (ws ++ List.replicate 32 0).take 32
  let lseq := wAt ws 17
  let logged := mbScatter ws
  let fail (st : Status) : Except (State × Status × Bool) State := .error (s, st, logged)
  let go : Except (State × Status × Bool) State :=
    if !batchOk ws then fail .notSupported
    else match Tab.get? s.mor.tables (mbTable ws) with
      | none => fail .key
      | some t =>
        let dim := etDim t.words
        let n := (mbParts ws dim).2.2.2
        match s.withRight (etKey t.words) (if logged then needW else needE) i, s.permit s.lmf.eid (wAt ws 6) (dAt ws 7) n needR i with
        | some _, some (rid, _) =>
          if t.paused && bitAt (wAt ws 0) 12 then .error (s.event (unitAmong 0x48 2 s.freeCtr) 6 1 (s.ownCtx i.eid i.ctx), .tablePaused, logged)
          else
            let id := s.nextId
            let out := s.outRange ws dim i
            let (s, caps) := s.capture id ((rid, dAt ws 7, n) :: out.toList)
            let b : Batch :=
              { id := id, words := ws, eid := i.eid, ctx := i.ctx, log := log, running := none, start := 0, table := t.words, tgen := t.tgen, pages := caps, final := none,
                counts := [0, 0, 0, 0], blockSent := false }
            let s := { s with nextId := id + 1, mor.batches := s.mor.batches ++ [b] }
            let s := s.batchFault id i (rid, dAt ws 7, n) out
            .ok (if dAt ws 14 = 0 then s else s.addDeadline id (dAt ws 14) (bitAt (wAt ws 0) 11) 4 (dAt ws 10 % 4294967296) i)
        | _, _ => fail .key
  if !logged then go
  else match s.logFind log lseq with
    | some e => .error (s, if e.tomb then .state else e.st, false)
    | none => if s.mor.batches.any (fun b => decide (b.log = log) && mbScatter b.words && decide (wAt b.words 17 = lseq)) then .ok s else go

/-- The region of the table a batch descriptor names. -/
def State.tableRegion (s : State) (ws : List Word) : Option Nat :=
  ((Tab.get? s.mor.tables (mbTable ws)).bind (fun t => s.live s.lmf.eid (etKey t.words))).map Prod.fst

/-- A rejected scatter is logged (R249, R534), at the mirror partner of its table before its answer (R255). -/
def State.batchRefuse (s : State) (ws : List Word) (i : Issuer) (log : Nat) (st : Status) (a : Answer) : State :=
  let s := s.logDone log (wAt ws 17) st 0
  match s.tableRegion ws with
  | some rid => s.answerAfter rid 0 [] (some (s.noteOf i.eid i.ctx (wAt ws 17) st 0)) st a
  | none => s.giveAnswer st a

/-- MOR_BATCH (R513 to R515, R534, R540): over BCI the descriptor is read from memory, in the LMF form it travels in the request. -/
def execMorBatch (r : BciReq) (s : State) : Result :=
  bciServe .morBatch { BciRow.f 0x92 3 with minor := some 0, resv := fun r => (match r.src with | .lmf _ => false | _ => offResv r 2) } r s fun r i s =>
    let go (s : State) (ws : List Word) : Result :=
      match s.batchAccept ws i (s.issuerLog r i) with
      | .ok s => .next (s.respond r .ok [])
      | .error (s, st, false) => .next (s.respond r st [])
      | .error (s, st, true) => .next (s.batchRefuse ws i (s.issuerLog r i) st (.bci r []))
    match r.src with
    | .lmf _ =>
      if wAt r.words 6 ≠ i.ctx then .next (s.respond r .notSupported []) else go s ((r.words.drop 1).take 18)
    | _ =>
      s.onRegion (.morBatch r) r i (r.w 1) (r.d 2) 128 needR (State.refuse r) fun rid rg s =>
        match s.meetRead rid rg (.own i) (r.d 2) 128 with
        | .clear => go (s.readDone false rid (.own i) (r.d 2) 128) (wordsOf (s.readRange rg (.own i) (r.d 2) 128))
        | m => .next (s.bciStop (.morBatch r) r i 0 rid (r.d 2) m)

/-- Install the new descriptor of a swap once the last batch of R539 has ended (R541). -/
def State.swapDone (s : State) (n : Nat) (t : EmbTable) : State :=
  let t' : EmbTable := { words := t.next, tgen := nextGen t.tgen, paused := false, next := [], swapOp := 0, drain := [], drained := 0 }
  State.endOp { s with mor.tables := Tab.set s.mor.tables n t' } t.swapOp 1 .ok

/-- A batch has ended: the swap that waits for it goes on (R541, R542). -/
def State.swapSweep (s : State) (id : Nat) : State :=
  s.mor.tables.foldl (fun (s : State) e =>
    if e.2.drain.contains id then
      let t := { e.2 with drain := e.2.drain.filter (fun x => decide (x ≠ id)), drained := e.2.drained + 1 }
      let s := State.opProgress { s with mor.tables := Tab.set s.mor.tables e.1 t } t.swapOp t.drained
      if t.drain = [] then s.swapDone e.1 t else s
    else s) s

/-- A batch is over, with its own status or, where it has none, with `st` (R811): its pages are given back, its holds and its deadline go, its unit is
free. -/
def State.batchDrop (s : State) (id : Nat) (st : Status := .ok) : State :=
  match s.batch? id with
  | none => s
  | some b =>
    let mine (h : Held) : Bool := match h.cmd with | .batchStart _ n => decide (n = id) | _ => false
    let s := (s.home.held.filter mine).foldl (fun (s : State) h => s.forsake h.cmd) s
    let s := (s.uncapture id b.pages).dropDeadline id
    let s := if b.start = 0 then s else s.workEnd b.unit b.ctx (b.final.getD st) 0
    State.swapSweep { s with
      mor.batches := s.mor.batches.filter (fun (x : Batch) => decide (x.id ≠ id))
      home.held := s.home.held.filter (fun (h : Held) => !mine h) } id

/-- The issuer of a batch's input and output. -/
def Batch.issuer (b : Batch) : Issuer := { eid := b.eid, ctx := b.ctx, admin := false }

/-- OUT_EID. -/
def Batch.outEid (b : Batch) : Nat := mbOutEid b.words

/-- Write bytes of a batch's output at this controller (R522), on the pages translated when it was queued (R80, R82): done, or what the write met in which
region; `.clear` stands for a region that is not served now. -/
def State.outOwn (s : State) (b : Batch) (off : Nat) (data : Bytes) : Except (Nat × Met) State :=
  let ctr := wAt b.words 13
  let old := s.remapped b.id b.pages
  let o := s.overlay b.id b.pages
  match (capsRegion b.pages (wAt b.words 9) off).bind (fun rid => (o.region? rid).map (fun rg => (rid, rg))) with
  | none => .error (0, .stop .key)
  | some (rid, rg) =>
    if ctr = 0 then
      if (o.gate rid rg).isSome then .error (rid, .clear)
      else match o.meetWrite rid rg (.shadowed b.issuer) off data.length with
        | .clear =>
          let t := (o.writeRange rid (.shadowed b.issuer) off data).touchRange false rid (.own b.issuer) off data.length
          .ok ((if rg.mode = .publish then t else t.forward rid off data (.batch b.id)).restore old)
        | m => .error (rid, m)
    else
      match (blocks off data.length).foldl (fun (acc : Except (Nat × Met) State) c =>
        match acc with
        | .error e => .error e
        | .ok s => (match s.region? rid with
          | some rg => s.countedIn b.ctx b.outEid rid rg c.1 ctr ((data.drop (c.1 - off)).take c.2) (.batch b.id)
          | none => .error (0, .stop .key))) (.ok o) with
      | .ok t => .ok (t.restore old)
      | .error e => .error e

/-- The transactions of bytes of a batch's output at another endpoint (R522, R663). -/
def State.outCuts (s : State) (b : Batch) (off n : Nat) : List (Nat × Nat) := if wAt b.words 13 = 0 then s.farCuts b.outEid off n else blocks off n

/-- Send bytes of a batch's output to another endpoint (R522). -/
def State.outSend (s : State) (b : Batch) (off : Nat) (data : Bytes) : State :=
  let ctr := wAt b.words 13
  (s.outCuts b off data.length).foldl (fun (s : State) c =>
    let part := (data.drop (c.1 - off)).take c.2
    if ctr = 0 then s.sendWrite (.batchRow b.id) b.ctx b.outEid (wAt b.words 9) c.1 part
    else s.sendTxn (.batchRow b.id) b.ctx b.outEid opCounted (wAt b.words 9) c.1 ctr part false) s

/-- An output write at this controller that fails: a counted one is logged with its status (R249). -/
def State.outFailed (s : State) (b : Batch) (st : Status) : State := if wAt b.words 13 = 0 then s else (s.selfLog b.outEid b.ctx st 0).1

/-- A batch waits on what an access of its own met (R94, R181, R318, R740): it leaves its unit, which other work may use (R39), and is performed again
there. -/
def State.batchStall (s : State) (b : Batch) (i : Issuer) (access rid off : Nat) (m : Met) : State :=
  let cmd := Instr.batchStart (b.running.getD 0) b.id
  let s := s.modBatch b.id (fun b => { b with running := none })
  match m with
  | .clear => (match s.gateOf rid with
    | some why => s.holdCmd cmd why 0 i.eid i.ctx
    | none => s)
  | m => (s.holdOn { cmd := cmd, i := i, access := access, runTime := true, hw := b.unit, limit := 0, needRoom := false, work := true } rid off m).1

/-- The completion block (R523). -/
def blockBytes (b : Batch) (st : Status) (now : Nat) : Bytes :=
  bytesOf ([BitVec.ofNat 32 st.code, BitVec.ofNat 32 b.tgen] ++ (b.counts.map (BitVec.ofNat 32)) ++ two b.start ++ two now ++ List.replicate 6 0)

/-- Issue the completion block of a batch whose outcome stands, once its rows are counted (R522, R523). -/
def State.batchBlock (s : State) (id : Nat) : State :=
  match s.batch? id with
  | none => s
  | some b =>
    match b.final with
    | none => s
    | some st =>
      if b.blockSent || s.txnLive (fun w => decide (w = .batchRow id)) || s.mirroring (.batch id) then s
      else
        let off := dAt b.words 10 + mbBlock b.words (etDim b.table)
        let data := blockBytes b st s.now
        if s.isOwn b.outEid then
          match s.outOwn b off data with
          | .ok s => s.batchDrop id
          | .error (_, .stop st) => (s.outFailed b st).batchDrop id
          | .error (rid, m) => s.batchStall b b.issuer 4 rid off m
        else if s.tagRoom 2 then (s.outSend b off data).modBatch id (fun b => { b with blockSent := true })
        else s

/-- Fix the outcome of a batch (R249, R255, R534): a scatter is logged, at the mirror partner of its table first; then its block is
issued. -/
def State.batchFinish (s : State) (id : Nat) (st : Status) (counts : List Nat) : State :=
  match s.batch? id with
  | none => s
  | some b =>
    let lseq := wAt b.words 17
    let s := s.modBatch id (fun b => { b with final := some st, counts := counts })
    let s :=
      if mbScatter b.words then
        let s := s.logDone b.log lseq st 0
        match s.live s.lmf.eid (etKey b.table) with
        | some (rid, _) => s.forward rid 0 [] (.batch id) (some (s.noteOf b.eid b.ctx lseq st 0))
        | none => s
      else s
    s.batchBlock id

/-- Does earlier work of the batch's context go first (R94, R517)? A batch that waits on a paused table holds back none of another
table (R539, R540). -/
def State.batchBehind (s : State) (b : Batch) : Bool :=
  s.mor.batches.any (fun x => decide (x.id < b.id) && decide (x.eid = b.eid ∧ x.ctx = b.ctx) &&
    !(x.running.isNone && (match Tab.get? s.mor.tables (mbTable x.words) with | some t => t.paused && !t.drain.contains x.id && decide (mbTable x.words ≠ mbTable b.words) | none => false)))

/-- Is a batch held on a fault or a recovery? -/
def State.batchHeld (s : State) (id : Nat) : Bool := s.home.held.any (fun h => match h.cmd with | .batchStart _ n => decide (n = id) | _ => false)

/-- BATCH_START (R516, R517, R539 to R541, R799): the unit is free, and the batch's turn has come. A batch that stalled goes on where it
stood; one whose input or output page was absent is translated whole again (R90). -/
def execBatchStart (mu id : Nat) (s : State) : Result :=
  whenUp s fun s =>
    match s.batch? id with
    | none => .next s
    | some b =>
      let u := s.unit (morUnit mu)
      let busy := s.mor.batches.any (fun x => decide (x.running = some mu))
      if s.batchHeld id then .next s
      else if b.final.isSome then .next (s.batchBlock id)
      else match b.fail with
      | some st => .next (s.batchFinish id st b.counts)
      | none =>
        let s := match b.input, s.replay.map Again.why with
          | none, some (.fault _) =>
            let (s, caps) := s.recapture id b.pages
            s.modBatch id (fun b => { b with pages := caps })
          | _, _ => s
        if 4 ≤ mu ∨ b.running.isSome = true ∨ busy = true ∨ u.quarantined = true ∨ u.asked = true ∨ s.batchBehind b = true then .next s
        else if b.start ≠ 0 then .next (s.modBatch id (fun b => { b with running := some mu, unit := morUnit mu }))
        else match Tab.get? s.mor.tables (mbTable b.words) with
          | none => .next (s.batchFinish id .key [0, 0, 0, 0])
          | some t =>
            if t.paused ∧ t.drain.contains id = false then .next s
            else
              let s := ((s.workStart (morUnit mu) b.eid b.ctx (wAt b.words 10)).event (morUnit mu) 1 1 (s.ownCtx b.eid b.ctx)).modBatch id (fun b =>
                { b with running := some mu, unit := morUnit mu, start := s.now, table := t.words, tgen := t.tgen })
              if wAt b.words 2 ≠ 0 ∧ wAt b.words 2 ≠ t.tgen then .next (s.batchFinish id .state [0, 0, 0, 0]) else .next s

/-! ### Running a batch (R511, R519 to R535) -/

/-- The input of a batch (R514): indices, bag offsets, weights, gradient rows. -/
structure MorInput where
  idx : List Nat
  bags : List (List Nat)
  weights : List Nat
  grads : List (List Nat)
  deriving DecidableEq, Repr

/-- Cut the input block into its parts; the contents of bags whose offsets do not rise from 0 to N are free (R515). -/
def inputOf (ws : List Word) (dim free : Nat) (bs : Bytes) : MorInput :=
  let (bag, w, g, _) := mbParts ws dim
  let n := mbN ws
  let nb := mbBags ws
  let at' (o k m : Nat) : List Nat := (chunksOf k m (bs.drop o)).map leNat
  let offs := at' bag 4 (nb + 1)
  let good := decide (offs.getD 0 0 = 0) && decide (offs.getD nb 0 = n) && (upto nb).all (fun b => decide (offs.getD b 0 ≤ offs.getD (b + 1) 0))
  let row := alignUp (4 * dim) 64
  { idx := at' 0 8 n
    bags := (upto nb).map (fun b =>
      if good then (upto (offs.getD (b + 1) 0 - offs.getD b 0)).map (· + offs.getD b 0) else (Config.bagContents free b).filter (fun j => decide (j < n)))
    weights := if mbWeights ws then at' w 4 n else List.replicate n 0x3F800000
    grads := if mbScatter ws then (upto nb).map (fun b => at' (g + b * row) 4 dim) else [] }

/-- The stored rows an index selects (R511): pairs of the remainder flag and the row number; none where it is out of range. -/
def rowsOf (tw : List Word) (i : Nat) : Option (List (Bool × Nat)) :=
  if etIdx tw ≤ i then none
  else match etMode tw with
    | 0 => some [(false, i)]
    | 1 => some [(false, (i * dAt tw 6) % 2 ^ 64 / 2 ^ 32 % etRows tw)]
    | _ => some [(false, i / etRrows tw), (true, i % etRrows tw)]

/-- What reading an occurrence's rows gives: the rows with their place and FP32 elements, out of range, or poison. -/
inductive Fetched where
  | rows (rs : List ((Bool × Nat) × Nat × Nat × List Nat))
  | oob
  | poison (bad : List (Bool × Nat)) (good : List ((Bool × Nat) × Nat × Nat × List Nat))
  deriving DecidableEq, Repr

/-- Read the rows of an occurrence; anything but poison that the read meets stops it. -/
def fetchRows (tw : List Word) (rd : Reader) : List (Bool × Nat) → Rd Fetched
  | [] => pure (.rows [])
  | k :: t => do
    let row ← orAbsent true do
      match ← rowPlace tw rd k.1 k.2 with
      | none => pure none
      | some (c, off) =>
        let bs ← fetch rd off (etRowBytes c (etDim tw))
        pure (some (k, c, off, rowVals c (etDim tw) bs))
    let rest ← fetchRows tw rd t
    pure (match row, rest with
      | some none, _ => .oob
      | _, .oob => .oob
      | none, .rows gs => .poison [k] gs
      | none, .poison ps gs => .poison (k :: ps) gs
      | some (some x), .rows gs => .rows (x :: gs)
      | some (some x), .poison ps gs => .poison ps (x :: gs))

/-- Read the rows of every occurrence; a row read once is not read again (R524). -/
def fetchAll (tw : List Word) (rd : Reader) : List Nat → Rd (List Fetched)
  | [] => pure []
  | i :: t => do
    let f ← match rowsOf tw i with
      | none => pure .oob
      | some ks => fetchRows tw rd ks
    let fs ← fetchAll tw rd t
    pure (f :: fs)

/-- The stored rows of a fetch. -/
def Fetched.keys : Fetched → List (Bool × Nat)
  | .rows rs => rs.map Prod.fst
  | .oob => []
  | .poison bs gs => bs ++ gs.map Prod.fst

/-- DISTINCT and REFETCH of a batch (R524, R525). -/
def dedupCounts (fs : List Fetched) : Nat × Nat :=
  let step (acc : List (Bool × Nat) × Nat) (f : Fetched) : List (Bool × Nat) × Nat :=
    let new := f.keys.foldl (fun (a : List (Bool × Nat) × Bool) k =>
      if a.1.contains k then a else if a.1.length < 65536 then (k :: a.1, a.2) else (a.1, true)) (acc.1, false)
    (new.1, acc.2 + b2n new.2)
  let r := fs.foldl step ([], 0)
  (r.1.length, r.2)

/-- The logical row of fetched rows (R511): one row, or two combined in FP32. -/
def logicalRow (tw : List Word) (rs : List ((Bool × Nat) × Nat × Nat × List Nat)) : List Nat :=
  match rs with
  | [a] => a.2.2.2
  | [a, b] => List.zipWith (if etSum tw then add32 else mul32) a.2.2.2 b.2.2.2
  | _ => []

/-- Element `e` of a pooled row at moment `k`: the products, in the order the unit adds them (R519, R526). -/
def poolElem (k : Nat) (terms : List (Nat × List Nat)) (e : Nat) : Nat := combineAll add32 k (terms.map (fun t => mul32 t.1 (t.2.getD e 0)))

/-- The output rows of a gather (R519, R526, R535); each element is summed at a moment of its own from `k` on. -/
def gatherRows (k : Nat) (ws tw : List Word) (inp : MorInput) (fs : List Fetched) : List Bytes :=
  inp.bags.zipIdx.map (fun p =>
    let terms := p.1.filterMap (fun j => match fs.getD j .oob with | .rows rs => some (inp.weights.getD j 0, logicalRow tw rs) | _ => none)
    (upto (etDim tw)).flatMap (fun e =>
      natLE (elemBytes (mbType ws)) (if terms = [] then 0 else (convElem 8 (mbType ws) .rne (poolElem (k + p.2 * etDim tw + e) terms e)).1)))

/-- Put a contribution into the list of targets. -/
def addTarget (ts : List RowAdd) (key : Bool × Nat) (cls off : Nat) (v : List Nat) : List RowAdd :=
  if ts.any (fun t => decide (t.key = key)) then ts.map (fun (t : RowAdd) => if t.key = key then { t with adds := t.adds ++ [v] } else t)
  else ts ++ [{ key := key, cls := cls, off := off, adds := [v] }]

/-- The contributions of one occurrence (R527, R528): a poisoned row takes none, and under COMPOSE product neither does the row that would be
scaled by it. -/
def contribute (tw : List Word) (u : List Nat) (ts : List RowAdd) (f : Fetched) : List RowAdd :=
  match f with
  | .oob => ts
  | .rows [a] => addTarget ts a.1 a.2.1 a.2.2.1 u
  | .rows [a, b] =>
    let other (x : List Nat) : List Nat := if etSum tw then u else List.zipWith mul32 u x
    addTarget (addTarget ts a.1 a.2.1 a.2.2.1 (other b.2.2.2)) b.1 b.2.1 b.2.2.1 (other a.2.2.2)
  | .rows _ => ts
  | .poison _ gs => if etSum tw then gs.foldl (fun ts a => addTarget ts a.1 a.2.1 a.2.2.1 u) ts else ts

/-- The targets of a scatter (R527, R528). -/
def scatterTargets (ws tw : List Word) (inp : MorInput) (fs : List Fetched) : List RowAdd :=
  (inp.bags.zip inp.grads).foldl (fun ts p =>
    p.1.foldl (fun ts j => contribute tw (p.2.map (fun g => mul32 (mul32 (wAt ws 16) (inp.weights.getD j 0)) g)) ts (fs.getD j .oob)) ts) []

/-- Add a target's contributions to its row at the home, in each copy from that copy's own bytes (R223, R529 to R532): each aligned 64 bytes of the row by
itself, an INT4 row as a whole. An INT4 row that crosses a page boundary is computed from the published bytes (DESIGN CHOICE, log 20). -/
def State.scatterRow (s : State) (rid id dim : Nat) (t : RowAdd) : State :=
  let n := etRowBytes t.cls dim
  let k := s.freeCtr
  let s := { s with freeCtr := k + (dim + 1) * (t.adds.length + 1) }
  let put (s : State) (x : Nat × Nat) (f : Bytes → Bytes) : State := s.directMap rid (x.1 / 65536) (x.1 % 65536) x.2 f
  let s :=
    if t.cls = 3 then
      if (t.off % 65536) + n ≤ 65536 then put s (t.off, n) (rowAdd 3 dim k t.adds)
      else s.writeRange rid .direct t.off (rowAdd 3 dim k t.adds (s.pubBytes rid t.off n))
    else
      let w := elemBytes (classType t.cls)
      (lineCuts t.off n).foldl (fun (s : State) x =>
        let e := (x.1 - t.off) / w
        put s x (rowAdd t.cls dim (k + e * (t.adds.length + 1)) (t.adds.map (fun a => (a.drop e).take (x.2 / w))))) s
  (s.touchRange false rid .pub t.off n).forward rid t.off (s.pubBytes rid t.off n) (.batch id)

/-- A batch reads its input block (R514), once, on the pages translated when it was queued; or it waits on what the read met, or ends. -/
def State.batchInput (s : State) (b : Batch) : Except State State :=
  match b.input with
  | some _ => .ok s
  | none =>
    let off := dAt b.words 7
    let n := (mbParts b.words (etDim b.table)).2.2.2
    let old := s.remapped b.id b.pages
    let o := s.overlay b.id b.pages
    match (capsRegion b.pages (wAt b.words 6) off).bind (fun rid => (o.region? rid).map (fun rg => (rid, rg))) with
    | none => .error (s.batchFinish b.id .key [0, 0, 0, 0])
    | some (rid, rg) =>
      if (o.gate rid rg).isSome then .error (s.batchStall b b.issuer 3 rid off .clear)
      else match o.meetRead rid rg (.own b.issuer) off n with
        | .clear =>
          let s := (o.readDone false rid (.own b.issuer) off n).restore old
          .ok { s.modBatch b.id (fun b => { b with input := some (s.freeCtr, o.readRange rg (.own b.issuer) off n) }) with freeCtr := s.freeCtr + 1 }
        | .stop st => .error (s.batchFinish b.id st [0, 0, 0, 0])
        | m => .error ((o.batchStall b b.issuer 3 rid off m).restore old)

/-- What a batch does with the rows it has fetched (R519, R525, R527, R533, R535): the counts of R523, the rows or targets that are left, its status, and how
many moments the free orders take. -/
def batchPlan (k : Nat) (ws tw : List Word) (inp : MorInput) (fs : List Fetched) : List Nat × BatchWork × Status × Nat :=
  let dim := etDim tw
  let occ := inp.bags.flatten
  let (distinct, refetch) := dedupCounts fs
  let oob := (occ.filter (fun j => decide (fs.getD j .oob = .oob))).length
  let isBad (f : Fetched) : Bool := match f with | .poison _ _ => true | _ => false
  if mbScatter ws then
    let rows := (fs.flatMap (fun f => match f with | .poison ps _ => ps | _ => [])).dedup
    ([distinct, refetch, oob, rows.length], .adds (scatterTargets ws tw inp fs), if rows = [] then .ok else .poison, 0)
  else if fs.any isBad && !mbSkip ws then ([distinct, refetch, oob, 0], .rows [], .poison, 0)
  else
    ([distinct, refetch, oob, (occ.filter (fun j => isBad (fs.getD j .oob))).length],
      .rows ((gatherRows k ws tw inp fs).zipIdx.map (fun x => (dAt ws 10 + x.2 * mbStride ws dim, x.1))), .ok, inp.bags.length * dim)

/-- A batch fetches its rows under TCTX (R510, R511, R524), each checked at its use; a gather sees what TCTX sees, a scatter the published version. A fetch
that waits goes on where it stood (R90). -/
def State.batchFetch (s : State) (b : Batch) (mu : Nat) : Except State State :=
  match b.work, b.input with
  | .fetch, some (k, bs) =>
    let me := s.etIssuer b.table
    let key := etKey b.table
    let rid := s.ridOf s.lmf.eid key
    let v : View := if mbScatter b.words then .pub else .own me
    let inp := inputOf b.words (etDim b.table) k bs
    if (s.gateOf rid).isSome then .error (s.batchStall b me 3 rid 0 .clear)
    else match runRd (fetchAll b.table (s.usedReader s.lmf.eid key needR me v) inp.idx) b.reads with
      | (.ok fs, r) =>
        let s := s.readsDone rid v b.reads r
        let (counts, work, st, n) := batchPlan s.freeCtr b.words b.table inp fs
        let s := { s.modBatch b.id (fun b => { b with counts := counts, work := work, st := st, reads := Reads.none }) with freeCtr := s.freeCtr + n }
        let s := (s.event (morUnit mu) 2 fs.length (s.ownCtx b.eid b.ctx)).event (morUnit mu) 3 (counts.getD 0 0) (s.ownCtx b.eid b.ctx)
        .ok (s.event (morUnit mu) 4 (counts.getD 1 0) (s.ownCtx b.eid b.ctx))
      | (.error (_, .stop st), r) => .error ((s.readsDone rid v b.reads r).batchFinish b.id st [0, 0, 0, 0])
      | (.error (o, m), r) => .error (((s.readsDone rid v b.reads r).modBatch b.id (fun b => { b with reads := r })).batchStall b me 3 rid o m)
  | _, _ => .ok s

/-- Write the output rows of a gather at this controller: how many are done, and what the next one met. -/
def State.rowsOwn (s : State) (b : Batch) : List (Nat × Bytes) → State × List (Nat × Bytes) × Option (Nat × Nat × Met)
  | [] => (s, [], none)
  | x :: t => match s.outOwn b x.1 x.2 with
    | .ok s => s.rowsOwn b t
    | .error (rid, m) => (s, x :: t, some (rid, x.1, m))

/-- Add to the rows of a scatter (R527 to R533), each checked at its use: what is left, what the next one met, how many rows took their adds and how many
stay poisoned. -/
def State.rowsAdd (s : State) (b : Batch) (me : Issuer) : List RowAdd → Nat → Nat → State × List RowAdd × Option (Nat × Met) × Nat × Nat
  | [], done, bad => (s, [], none, done, bad)
  | x :: t, done, bad =>
    let dim := etDim b.table
    match s.permit s.lmf.eid (etKey b.table) x.off (etRowBytes x.cls dim) needW me with
    | none => (s, x :: t, some (x.off, .stop .key), done, bad)
    | some (rid, rg) =>
      match s.meetWrite rid rg .direct x.off (etRowBytes x.cls dim) with
      | .clear => (s.scatterRow rid b.id dim x).rowsAdd b me t (done + 1) bad
      | .stop .poison => s.rowsAdd b me t done (bad + 1)
      | m => (s, x :: t, some (x.off, m), done, bad)

/-- A batch writes its output rows, or adds to its table's rows, up to what stops it; the last of them done, its outcome stands. -/
def State.batchWrite (s : State) (b : Batch) (mu : Nat) : State :=
  match b.work with
  | .fetch => s
  | .adds ts =>
    let me := s.etIssuer b.table
    let rid := s.ridOf s.lmf.eid (etKey b.table)
    if (s.gateOf rid).isSome then s.batchStall b me 4 rid 0 .clear
    else
      let (s, left, met, done, bad) := s.rowsAdd b me ts 0 0
      let counts := b.counts.set 3 (b.counts.getD 3 0 + bad)
      let st := if bad = 0 then b.st else .poison
      let s := (s.event (morUnit mu) 5 done (s.ownCtx b.eid b.ctx)).modBatch b.id (fun b => { b with work := .adds left, counts := counts, st := st })
      match met with
      | none => s.batchFinish b.id st counts
      | some (_, .stop st) => s.batchFinish b.id st counts
      | some (o, m) => s.batchStall b me 4 rid o m
  | .rows rs =>
    if s.isOwn b.outEid then
      let (s, left, met) := s.rowsOwn b rs
      let s := s.modBatch b.id (fun b => { b with work := .rows left })
      match met with
      | none => s.batchFinish b.id b.st b.counts
      | some (_, _, .stop st) => (s.outFailed b st).batchFinish b.id st b.counts
      | some (rid, o, m) => s.batchStall b b.issuer 4 rid o m
    else if !s.tagRoom (rs.map (fun x => (s.outCuts b x.1 x.2.length).length)).sum then s
    else (rs.foldl (fun (s : State) x => s.outSend b x.1 x.2) s).batchFinish b.id b.st b.counts

/-- BATCH_END (R518 to R535): the unit runs its batch; once the last row write is counted, the completion block is issued. -/
def execBatchEnd (mu : Nat) (s : State) : Result :=
  whenUp s fun s =>
    match s.mor.batches.find? (fun b => decide (b.running = some mu)) with
    | none => .next s
    | some b =>
      if b.final.isSome then .next (s.batchBlock b.id)
      else match s.batchInput b with
        | .error s => .next s
        | .ok s =>
          match s.batch? b.id with
          | none => .next s
          | some b =>
            match s.batchFetch b mu with
            | .error s => .next s
            | .ok s =>
              match s.batch? b.id with
              | none => .next s
              | some b => .next (s.batchWrite b mu)

/-- An output write of a batch has failed: its status is the batch's, unless one stands. -/
def State.batchOutFail (s : State) (id : Nat) (st : Status) : State :=
  s.modBatch id (fun b => { b with final := match b.final with | some .ok => some st | x => x, st := if b.st = .ok then st else b.st })

/-- EMB_TABLE_DESTROY (R536): queued batches end with ST_KEY; a swap of the table ends with it. -/
def execEmbTableDestroy (r : BciReq) (s : State) : Result :=
  bciServe .embTableDestroy { BciRow.o 0x91 1 with minor := some 0, resv := fun r => above r 1 10 } r s fun r _ s =>
    match Tab.get? s.mor.tables (r.w 1) with
    | none => .next (s.respond r .key [])
    | some t =>
      let s := { s with mor.tables := Tab.erase s.mor.tables (r.w 1) }
      let s := if t.paused then s.endOp t.swapOp 2 .key else s
      let qs := s.mor.batches.filter (fun b => decide (mbTable b.words = r.w 1) && decide (b.start = 0) && b.final.isNone)
      .next ((qs.foldl (fun (s : State) b => s.batchFinish b.id .key [0, 0, 0, 0]) s).respond r .ok [])

/-- EMB_SWAP (R537 to R543, R575, R872). -/
def execEmbSwap (r : BciReq) (s : State) : Result :=
  bciServe .embSwap { BciRow.o 0x93 4 with minor := some 4, resv := fun r => above r 1 10 || offResv r 3 } r s fun r i s =>
    s.onRegion (.embSwap r) r i (r.w 2) (r.d 3) 128 needR (State.refuse r) fun rid rg s =>
      match s.meetRead rid rg (.own i) (r.d 3) 128 with
      | .clear =>
        let ws := wordsOf (s.readRange rg (.own i) (r.d 3) 128)
        let s := s.readDone false rid (.own i) (r.d 3) 128
        match s.tableCheck ws with
        | some st => .next (s.respond r st [])
        | none =>
          match Tab.get? s.mor.tables (r.w 1) with
          | none => .next (s.respond r .key [])
          | some t =>
            if t.paused then .next (s.respond r .state [])
            else
              let op := s.bci.nextOp
              let drain := (s.mor.batches.filter (fun b => decide (mbTable b.words = r.w 1))).map Batch.id
              let t : EmbTable := { t with paused := true, next := ws, swapOp := op, drain := drain, drained := 0 }
              let s := s.startOp (.swap (r.w 1)) drain.length (s.attributed i)
              let s := { s with mor.tables := Tab.set s.mor.tables (r.w 1) t }
              let s := if drain = [] then s.swapDone (r.w 1) t else s
              .next (s.respond r .ok (one op))
      | m => .next (s.bciStop (.embSwap r) r i 0 rid (r.d 3) m)

end Sys2Proof.Machine
end

