-- ==== Sys2Proof/Machine/Contexts.lean ====
section
/-! DEFINITION. Contexts and sessions (14): fault resolution (02), the ends of an issuer's work, the context commands, HELLO, long-operation status, configuration, notice rings and deadlines; switchover and firmware update. -/

namespace Sys2Proof.Machine

/-! ### FAULT_RESOLVE (R90 to R93) -/

/-- End work of an engine that is held on an aborted fault: its descriptor, or the piece of it that made the access, ends with the
status (R92). -/
def State.endAborted (s : State) (h : Held) (st : Status) : State :=
  let s := { s with home.held := s.home.held.filter (fun (x : Held) => decide (x.id ≠ h.id)) }
  match h.cmd with
  | .queryStart id => s.queryEnd id st
  | .shardWalk id _ => s.queryEnd id st
  | .payloadFetchEnd id => s.blockLost id st
  | .trailerWrite id => s.resultFail id st
  | .microBatchEnd id _ => (match s.expert.batches.find? (fun b => decide (b.id = id)) with | some b => s.batchOver b st | none => s)
  | .sideListAppend id => (match s.trav.updates.find? (fun u => decide (u.id = id)) with | some u => s.updateFail u st | none => s)
  | .mergeRecord index shard => s.mergeStop index shard 1 st
  | .batchStart _ id =>
    (match s.batch? id with
     | some b => if b.final.isSome then (s.outFailed b st).batchDrop id else s.batchFinish id st b.counts
     | none => s)
  | c => if (coreOf c).isSome then s.accessFail c 12 st else s.endHeld h st

/-- Raise the fault of a queued kernel's code (R79, R84): its context's later kernels wait (R94). -/
def State.codeFault (s : State) (k : KernelQ) : State :=
  match s.codeAbsent k with
  | none => s
  | some (rid, p) =>
    match s.faultOn rid 1 p 3 false (coreUnit (anyUnit s.freeCtr % 4) 0) (dAt k.words 3) { eid := s.lmf.eid, ctx := kernelCtx k.words, admin := false } false with
    | some (s, _) => s
    | none => s

/-- The ranges a kernel descriptor names (R369): its code and its completion record. -/
def State.kernelRanges (s : State) (ws : List Word) : List (Nat × Nat × Nat) :=
  [(s.ridOf s.lmf.eid (wAt ws 2), dAt ws 3, wAt ws 5), (s.ridOf s.lmf.eid (wAt ws 26), dAt ws 27, 32)]

/-- A queue-time fault of a kernel has been resolved: the whole descriptor is translated again (R90, R91), or it ends (R92). -/
def State.codeResolved (s : State) (k : KernelQ) (abort : Option Status) : State :=
  match abort with
  | some st => s.endQueued k 12 st
  | none =>
    let (s, caps) := (s.uncapture k.id k.pages).capture k.id (s.kernelRanges k.words)
    let k' : KernelQ := { k with pages := caps }
    State.codeFault { s with kernels := s.kernels.map (fun (x : KernelQ) => if x.id = k.id then k' else x) } k'

/-- FAULT_RESOLVE of a record: REPLAY runs every attached access again (R90, R91), ABORT ends it (R92, R93). -/
def faultResolveBody (r : BciReq) (s : State) : Result :=
  let seq := r.w 1
  let st := fld (r.w 2) 31 16
  let abort := bitAt (r.w 2) 0
  if abort && decide (st ≠ 2 ∧ st ≠ 14) then .next (s.respond r .notSupported [])
  else match s.home.faults.find? (fun f => decide (f.seq = seq)) with
    | none => .next (s.respond r .state [])
    | some f =>
      let waiting := s.kernels.filter (fun k => decide (s.codeAbsent k = some (f.rid, f.page)))
      let s := { s with home.faults := s.home.faults.filter (fun (f : FaultRec) => decide (f.seq ≠ seq)) }
      let stt : Status := if st = 2 then .key else .quota
      let s := if abort then s else s.workResume f
      let s := if abort then (s.home.held.filter (fun h => decide (h.why = .fault seq))).foldl (fun (s : State) h => s.endAborted h stt) s
        else s.release (fun w => decide (w = .fault seq))
      let s := s.resolveSaved seq (if abort then some stt else none)
      let s := waiting.foldl (fun (s : State) k => s.codeResolved k (if abort then some stt else none)) s
      .next ((((s.faultFlush).respond r .ok []).bufferFree).settle)

/-- The row of FAULT_RESOLVE. -/
def rowFaultResolve : BciRow := { BciRow.o 41 2 with resv := fun r => decide (fld (r.w 2) 15 1 ≠ 0) }

/-- FAULT_RESOLVE (R90, R91, R93). -/
def execFaultResolve (r : BciReq) (s : State) : Result := bciServe .faultResolve rowFaultResolve r s fun r _ s => faultResolveBody r s

/-- FAULT_RESOLVE with ABORT (R92, R93). -/
def execFaultResolveAbort (r : BciReq) (s : State) : Result :=
  bciServe .faultResolveAbort rowFaultResolve r s fun r _ s => faultResolveBody r s

/-! ### Ending the work of an issuer -/

/-- Discard the shadow pages of issuers, with the lost marks of R194; mirrored homes tell their partners (R193). -/
def State.dropShadows (s : State) (who : Nat → Nat → Bool) : State :=
  let s := s.home.pages.foldl (fun (s : State) e =>
    (e.2.shadows.filter (fun w => who w.eid w.ctx)).foldl (fun (s : State) w =>
      let s := s.dropShadow e.1 w.eid w.ctx
      match s.region? e.2.rid with
      | some rg => if rg.mirror = 0 then s else s.emit (.journal rg.mirror (s.keyOf e.2.rid) (.shadowEnd e.2.pageNo w.eid w.ctx))
      | none => s) s) s
  { s with home.lost := s.home.lost.filter (fun (e : Nat × Nat × Nat × Nat) => !who e.2.2.1 e.2.2.2) }

/-- Retire the fault records that no access is attached to any longer (R96). -/
def State.retireFaults (s : State) : State :=
  { s with home.faults := s.home.faults.filter (fun (f : FaultRec) =>
      s.home.held.any (fun h => decide (h.why = .fault f.seq)) || s.cores.any (fun c => c.2.saved.any (fun v => v.held.any (fun h => decide (h.why = .fault f.seq))))
        || s.kernels.any (fun k => decide (s.codeAbsent k = some (f.rid, f.page)))) }

/-- The issuer of a command that is to be performed again. -/
def State.againIssuer (s : State) (a : Again) : Nat × Nat :=
  match (bciOf a.cmd).map BciReq.src with
  | some (.fn p f) => (s.lmf.eid, (s.boundCtx p f).getD a.ctx)
  | some src => (match srcReq src with | some q => (q.srcEid, q.ctx) | none => (a.eid, a.ctx))
  | none => (a.eid, a.ctx)

/-- End commands whose hold has ended and that have not been performed again yet (R96, R207). -/
def State.endAgains (s : State) (f : Again → Bool) (st : Status) : State :=
  (s.resume.filter f).foldl (fun (s : State) a => (s.endCmd a.cmd (s.againIssuer a).1 (s.againIssuer a).2 st).dropDeadline a.id)
    { s with resume := s.resume.filter (fun (a : Again) => !f a) }

/-- End a batch whose issuer has ended: a scatter that has no outcome yet is logged (R249, R534), and no block is written. -/
def State.batchLost (s : State) (b : Batch) (st : Status) : State :=
  let s :=
    if mbScatter b.words && b.final.isNone then
      let s := s.logDone b.log (wAt b.words 17) st 0
      match s.tableRegion b.words with
      | some rid => s.forward rid 0 [] (.batch b.id) (some (s.noteOf b.eid b.ctx (wAt b.words 17) st 0))
      | none => s
    else s
  s.batchDrop b.id st

/-- End the commands, queries, batches, operations, pins, waits and shadow pages of issuers with a status (R96, R193, R206, R222, R232, R267,
R504, R536, R574): a query and a batch write no result. -/
def State.endIssuer (s : State) (who : Nat → Nat → Bool) (st : Status) : State :=
  let s := s.endHolds (fun h => who h.eid h.ctx && (match h.why with | .resetting _ => false | _ => true)) st
  let s := s.endAgains (fun a => who (s.againIssuer a).1 (s.againIssuer a).2 && decide ((s.againIssuer a) ≠ (0, 0))) st
  let s := (s.home.pubs.filter (fun p => who p.eid p.ctx)).foldl (fun (s : State) p => s.endPub p st [] 0) s
  let s := (s.home.waits.filter (fun w => who w.eid w.ctx && (match w.who with | .bci _ => true | .core _ => false))).foldl (fun (s : State) w => s.endWait w st []) s
  let s := (s.home.memops.filter (fun m => who m.eid m.ctx)).foldl (fun (s : State) m => s.memopFinish m.id (recordWords st false 0)) s
  let s := (s.home.pins.filter (fun e => who e.2.eid e.2.ctx)).foldl (fun (s : State) e => s.endPin e.1) s
  let s := (s.trav.queries.filter (fun q => who q.eid q.ctx)).foldl (fun (s : State) q => s.queryDrop q.id st) s
  let s := (s.trav.updates.filter (fun u => who u.eid u.ctx && !u.appended)).foldl (fun (s : State) u => s.updateFail u st) s
  let s := (s.mor.batches.filter (fun b => who b.eid b.ctx)).foldl (fun (s : State) b => s.batchLost b st) s
  let s := { s with home.acquires := s.home.acquires.filter (fun (a : Acquire) => !(decide (a.eid ≠ s.lmf.eid) && who a.eid 4096)) }
  ((s.dropShadows who).retireFaults.bufferFree).settle

/-- End the engine work of a context of this controller (R94, R96, R379, R435, R502, R536). -/
def State.endEngines (s : State) (ctx exc : Nat) (st : Status) : State :=
  let s := (s.coresOf (fun k => decide (kernelCtx k.words = ctx))).foldl (fun (s : State) n => s.kernelStop n exc st 0 0) s
  let s := s.cores.foldl (fun (s : State) e =>
    (e.2.saved.filter (fun v => decide (kernelCtx v.kernel.words = ctx))).foldl (fun (s : State) v => s.endSaved e.1 v exc st) s) s
  let s := (s.kernels.filter (fun k => decide (kernelCtx k.words = ctx))).foldl (fun (s : State) k => s.endQueued k exc st) s
  let s := (s.expert.batches.filter (fun b => decide (dsCtx b.desc = ctx))).foldl (fun (s : State) b => s.batchOver b st) s
  let s := s.expReset ctx
  let s := (s.trav.shards.filter (fun h => decide (h.2.ictx = ctx) && h.2.merge.isSome)).foldl (fun (s : State) h => s.mergeStop h.2.index h.2.shard 1 st) s
  (s.mor.batches.filter (fun b => decide (etCtx b.table = ctx) && b.final.isNone)).foldl (fun (s : State) b => s.batchFinish b.id st b.counts) s

/-- Waits on the counters of a context end (R574). -/
def State.endCounterWaits (s : State) (ctx : Nat) (st : Status) : State :=
  (s.home.waits.filter (fun w => match Tab.get? s.home.counters (keyIdx w.ckey) with
    | some c => decide (c.eid = s.lmf.eid ∧ c.ctx = ctx)
    | none => false)).foldl (fun (s : State) w => s.endWait w st []) s

/-- An ACTIVE context leaves ACTIVE by a reset or a destroy (R574, R627, R781). -/
def State.ctxLeave (s : State) (ctx : Nat) (destroy : Bool) : State :=
  if !s.ctxIs ctx .active then s
  else
    let s := { s with
      nextId := s.nextId + 1
      bci.contexts := Tab.modify s.bci.contexts ctx (fun c => { c with st := if destroy then .destroying else .resetting, key := s.nextId }) }
    let s := s.endEngines ctx 10 .functionReset
    let s := s.endIssuer (fun e c => decide (e = s.lmf.eid ∧ c = ctx)) .functionReset
    let s := s.endCounterWaits ctx .functionReset
    if destroy then
      let cs := (s.home.counters.filter (fun e => decide (e.2.eid = s.lmf.eid ∧ e.2.ctx = ctx))).map Prod.fst
      (cs.foldl (fun (s : State) n => s.freeCounter n) s).unbind (fun _ w => decide (w.ctx = ctx))
    else s

/-- Is an operation of a context still in flight? -/
def State.ctxBusy (s : State) (ctx : Nat) : Bool :=
  (s.coresOf (fun k => decide (kernelCtx k.words = ctx))) ≠ [] || s.lmf.tags.any (fun e => match e.2.live with
    | some t => decide (t.ctx = ctx) && (match t.what with | .dma _ _ => true | .kernel _ _ => true | .belay _ _ => true | .batchRow _ => true | _ => false)
    | none => false)

/-- CTX_RESET_END (R574, R641): the last in-flight operation has ended, and the accesses held through the context's windows are
performed. -/
def execCtxResetEnd (ctx : Nat) (s : State) : Result :=
  whenUp s fun s =>
    if s.ctxBusy ctx then .next s
    else match Tab.get? s.bci.contexts ctx with
      | none => .next s
      | some c =>
        match c.st with
        | .active => .next s
        | .resetting =>
          .next (State.release { s with bci.contexts := Tab.set s.bci.contexts ctx { c with st := .active } } (fun w => decide (w = .resetting ctx)))
        | .destroying =>
          let s := { s with bci.contexts := Tab.erase s.bci.contexts ctx }
          let s := match c.bind with | some (p, f) => s.rsFn p f | none => s
          .next (s.release (fun w => decide (w = .resetting ctx)))

/-! ### Context commands (R568, R574, R575, R632) -/

/-- The session version of a request's channel. -/
def State.sessionOf (s : State) (r : BciReq) : Nat × Nat :=
  let c := match r.src with
    | .fn p f => (s.fnWin p f).chan
    | .lmfBci q => s.channelOf (.lmf q.srcEid)
    | _ => none
  match c with
  | some n => ((s.channel n).session).getD (3, 4)
  | none => (3, 4)

/-- CTX_CREATE (R122, R192, R566, R574, R575, R632). -/
def execCtxCreate (r : BciReq) (s : State) : Result :=
  bciServe .ctxCreate { BciRow.o 0x10 4 with resv := fun r => above r 1 14 || above r 2 10 } r s fun r _ s =>
    let ctx := fld (r.w 1) 11 0
    let old := decide ((s.sessionOf r).1 = 2)
    let p := fld (r.w 2) 1 0
    let f := fld (r.w 2) 9 2
    if old && bitAt (r.w 1) 12 then .next (s.respond r .notSupported [])
    else if Tab.has s.bci.contexts ctx || (bitAt (r.w 1) 13 && ((s.boundCtx p f).isSome || !s.fnEnabled p f)) then .next (s.respond r .state [])
    else
      let c : Context :=
        { st := .active, lineMode := old || bitAt (r.w 1) 12, shadowLimit := r.w 3, floor := r.w 4, bind := if bitAt (r.w 1) 13 then some (p, f) else none, ctrs := [],
          key := s.nextId }
      let t := { s with nextId := s.nextId + 1, bci.contexts := Tab.set s.bci.contexts ctx c }
      if r121Limit < t.r121 ∧ s.r121 < t.r121 then .next (s.respond r .quota [])
      else .next (((if bitAt (r.w 1) 13 then t.rsFn p f else t)).respond r .ok [])

/-- CTX_SET (R122, R192, R344, R575). -/
def execCtxSet (r : BciReq) (s : State) : Result :=
  bciServe .ctxSet { BciRow.o 0x11 3 with resv := fun r => above r 1 12 } r s fun r _ s =>
    if !s.ctxIs (r.w 1) .active then .next (s.respond r .state [])
    else
      let put (f : Context → Context) : State := { s with bci.contexts := Tab.modify s.bci.contexts (r.w 1) f }
      match r.w 2 with
      | 1 => if 1 < r.w 3 then .next (s.respond r .notSupported []) else .next ((put (fun c => { c with lineMode := decide (r.w 3 = 1) })).respond r .ok [])
      | 2 => .next ((put (fun c => { c with shadowLimit := r.w 3 })).respond r .ok [])
      | 3 =>
        let t := put (fun c => { c with floor := r.w 3 })
        if r121Limit < t.r121 ∧ s.r121 < t.r121 then .next (s.respond r .quota []) else .next (t.respond r .ok [])
      | _ => .next (s.respond r .notSupported [])

/-- CTX_RESET (R574, R575). -/
def execCtxReset (r : BciReq) (s : State) : Result :=
  bciServe .ctxReset { BciRow.o 0x12 1 with resv := fun r => above r 1 12 } r s fun r _ s =>
    if !s.ctxIs (r.w 1) .active then .next (s.respond r .state []) else .next ((s.ctxLeave (r.w 1) false).respond r .ok [])

/-- Did the context create a region that is not FREE, or is it named by a lane, an expert, an index, a table or single-stream decode mode
(R575)? -/
def State.ctxNamed (s : State) (ctx : Nat) : Bool :=
  s.home.regions.any (fun e => decide (e.2.creator = ctx)) || s.expert.lanes.any (fun e => decide (e.2.ctx = ctx))
    || s.expert.descs.any (fun e => decide (dsCtx e.2 = ctx)) || s.trav.indexes.any (fun e => decide (ixCtx e.2.words = ctx))
    || s.mor.tables.any (fun e => decide (etCtx e.2.words = ctx) || (e.2.paused && decide (etCtx e.2.next = ctx))) || decide (s.expert.ssd = some ctx)

/-- CTX_DESTROY (R574, R575, R627). -/
def execCtxDestroy (r : BciReq) (s : State) : Result :=
  bciServe .ctxDestroy { BciRow.o 0x13 1 with resv := fun r => above r 1 12 } r s fun r _ s =>
    if !s.ctxIs (r.w 1) .active || s.ctxNamed (r.w 1) then .next (s.respond r .state []) else .next ((s.ctxLeave (r.w 1) true).respond r .ok [])

/-! ### Sessions and configuration -/

/-- The channel of a request. -/
def State.reqChannel (s : State) (r : BciReq) : Option Nat :=
  match r.src with
  | .fn p f => (s.fnWin p f).chan
  | .lmfBci q => s.channelOf (.lmf q.srcEid)
  | _ => none

/-- HELLO (R562 to R567, R551). -/
def execHello (r : BciReq) (s : State) : Result :=
  bciServe .hello { BciRow.f 1 1 with resv := fun r => above r 1 16 } r s fun r _ s =>
    let major := fld (r.w 1) 7 0
    let minor := fld (r.w 1) 15 8
    match s.reqChannel r with
    | none => .next (s.respond r .notSupported [])
    | some n =>
      if major ≠ 2 ∧ major ≠ 3 then .next (s.respond r .notSupported [])
      else
        let v := (major, if major = 3 then min minor 4 else min minor 5)
        let owner : Bool := match r.src with | .fn p f => s.isOwnerFn p f | _ => false
        let s := s.setChannel n { s.channel n with session := some v }
        let s := match r.src with | .fn p f => s.rsFn p f | _ => s
        let fw := match Tab.get? s.bci.slots s.bci.runSlot with | some x => x.fwVer | none => 0
        .next (s.respond r .ok [BitVec.ofNat 32 (v.1 + 256 * v.2), BitVec.ofNat 32 fw, BitVec.ofNat 32 s.lmf.eid,
          BitVec.ofNat 32 (n + 65536 * b2n owner + 131072 * b2n s.bci.standby)])

/-- The words of OP_STATUS (R583). -/
def LongOp.words (o : LongOp) : List Word :=
  [BitVec.ofNat 32 o.id, BitVec.ofNat 32 (o.st + 65536 * o.status.code), BitVec.ofNat 32 (o.bp + 65536 * o.hw)] ++ two o.pos ++ two o.total ++ two o.start ++ two o.fin

/-- OP_STATUS (R583, R584, R876). -/
def execOpStatus (r : BciReq) (s : State) : Result :=
  bciServe .opStatus { BciRow.f 2 1 with minor := some 0 } r s fun r i s =>
    let owner : Bool := match r.src with | .fn p f => s.isOwnerFn p f | _ => false
    match s.bci.ops.find? (fun o => decide (o.id = r.w 1)) with
    | none => .next (s.respond r .key [])
    | some o => if owner || decide (o.issuer = some (i.eid, i.ctx)) then .next (s.respond r .ok o.words) else .next (s.respond r .key [])

/-- CONFIG_SET (R572). -/
def execConfigSet (r : BciReq) (s : State) : Result :=
  bciServe .configSet { BciRow.o 3 3 with minor := some 0 } r s fun r _ s =>
    let v := r.d 2
    match r.w 1 with
    | 1 =>
      if v < 10000 ∨ s.bci.txnTimeout / 2 < v then .next (s.respond r .notSupported [])
      else .next (State.respond { s with bci.faultHold := v } r .ok [])
    | 2 => if v < 2000 ∨ 10000000 < v then .next (s.respond r .notSupported []) else .next (State.respond { s with bci.suspendAfter := v } r .ok [])
    | 3 =>
      if v < 100000 ∨ 1000000000 < v then .next (s.respond r .notSupported [])
      else if v < 2 * s.bci.faultHold then .next (s.respond r .state [])
      else .next (State.respond { s with bci.txnTimeout := v } r .ok [])
    | _ => .next (s.respond r .notSupported [])

/-- CONFIG_GET (R572). -/
def execConfigGet (r : BciReq) (s : State) : Result :=
  bciServe .configGet { BciRow.o 4 1 with minor := some 0 } r s fun r _ s =>
    match r.w 1 with
    | 1 => .next (s.respond r .ok (two s.bci.faultHold))
    | 2 => .next (s.respond r .ok (two s.bci.suspendAfter))
    | 3 => .next (s.respond r .ok (two s.bci.txnTimeout))
    | _ => .next (s.respond r .notSupported [])

/-- NOTICE_RING_SET (R579, R615). -/
def execNoticeRingSet (r : BciReq) (s : State) : Result :=
  bciServe .noticeRingSet { BciRow.f 5 4 with minor := some 0, resv := fun r => offResv r 2 } r s fun r i s =>
    if r.w 4 < 6 ∨ 16 < r.w 4 then .next (s.respond r .notSupported [])
    else match s.permit s.lmf.eid (r.w 1) (r.d 2) (32 * 2 ^ r.w 4) needW i with
      | none => .next (s.respond r .key [])
      | some _ =>
        let k := issuerKey i.eid i.ctx
        let g := Tab.getD s.bci.rings k NoticeRing.empty
        let g : NoticeRing :=
          { g with ring := some { key := r.w 1, off := r.d 2, log2 := r.w 4 }, prod := 0, cons := 0, seq := 0, dropped := 0 }
        let s := { s with bci.rings := Tab.set s.bci.rings k g }
        let s := match r.src with | .fn p f => s.rsFn p f | _ => s
        .next (s.respond r .ok [])

/-! ### Deadlines (R577 to R579) -/

/-- End the work that has an identifier with ST_DEADLINE (R205, R232, R267, R379, R504, R536, R578). -/
def State.endLate (s : State) (id : Nat) : State :=
  let s := (s.home.held.filter (fun h => decide (h.id = id))).foldl (fun (s : State) h => s.endHeld h .deadline) s
  let s := s.endAgains (fun a => decide (a.id = id)) .deadline
  let s := match s.pub? id with | some p => s.endPub p .deadline [] 0 | none => s
  let s := (s.home.waits.filter (fun w => decide (w.id = id))).foldl (fun (s : State) w => s.endWait w .deadline []) s
  let s := s.memopFinish id (recordWords .deadline false 0)
  let s := match s.query? id with | some q => if q.final.isNone then s.queryEnd id .deadline else s | none => s
  let s := match s.batch? id with | some b => if b.final.isNone then s.batchFinish id .deadline b.counts else s | none => s
  let s := (s.kernels.filter (fun k => decide (k.id = id))).foldl (fun (s : State) k => s.endQueued k 9 .deadline) s
  let s := (s.coresOf (fun k => decide (k.id = id))).foldl (fun (s : State) n => s.kernelStop n 9 .deadline 0 0) s
  s.cores.foldl (fun (s : State) e => (e.2.saved.filter (fun v => decide (v.kernel.id = id))).foldl (fun (s : State) v => s.endSaved e.1 v 9 .deadline) s) s

/-- DEADLINE_EXPIRY (R451, R578): a deadline has passed; one notice record, and the end of the work where it asks for it. -/
def execDeadlineExpiry (id : Nat) (s : State) : Result :=
  whenUp s fun s =>
    match s.bci.deadlines.find? (fun d => decide (d.id = id)) with
    | none => .next s
    | some d =>
      if s.now < d.at' then .next s
      else
        let s := s.dropDeadline id
        if (s.msg? id).isSome then .next ((s.entryDeadlines id).expRelease id)
        else
          let s := s.notice d.eid d.ctx 1 d.abort .deadline d.src d.obj d.at'
          .next (if d.abort then (s.endLate id).bufferFree.settle else s)

/-! ### The fast doorbell (R600 to R603, R610) -/

/-- The status a doorbell word is taken with (R603, R610, R34): a host that has been fenced submits no new work. -/
def State.wordStatus (s : State) (w : Window) : Status :=
  let t := fld w.dbl.toNat 31 8
  match fld w.dbl.toNat 3 0 with
  | 0 => .ok
  | 1 =>
    if !w.dblOwner || !w.en || s.host.ownerFenced then .state
    else
      let ahead := (t + 16777216 - w.head) % 16777216
      if ahead ≤ 2 ^ w.lLog2 ∧ (w.tail + 16777216 - w.head) % 16777216 ≤ ahead then .ok else .notSupported
  | _ => .notSupported

/-- Firmware takes the waiting word of a function: it acts on it or rejects it, clears FULL and sends EMPTY (R602, R603, R618). -/
def State.takeWord (s : State) (p f : Nat) : State :=
  let w := s.fnWin p f
  if w.full = false then s
  else
    let st := s.wordStatus w
    let tail := decide (fld w.dbl.toNat 3 0 = 1)
    let w' : Window :=
      { w with
        full := false
        reject := w.reject || decide (st ≠ .ok)
        lastStatus := st.code
        tail := if tail && decide (st = .ok) then fld w.dbl.toNat 31 8 else w.tail }
    let s := s.setFnWin p f w'
    let s := if tail && decide (st = .ok) then s.rsFn p f else s
    (if st = .ok then s else s.vector p f 4).vector p f 0

/-- Take every waiting word. -/
def State.takeWords (s : State) : State := (Tab.keys s.host.fns).foldl (fun (s : State) k => s.takeWord (k / 256) (k % 256)) s

/-! ### Switchover (R547 to R552) -/

/-- An event of R547 in the active set: the standby takes over, or with none ready the package fails (R552). -/
def State.setFails (s : State) : State :=
  if s.bci.standby then { s with bci.phase := .switching, bci.standby := false } else s.failStop 2

/-- WATCHDOG_EXPIRY (R547, R552). -/
def execWatchdogExpiry (s : State) : Result := whenUp s fun s => .next s.setFails

/-- BASECAMP_ECC_ERROR (R547, R552, R719): an uncorrectable error record, and the switchover. -/
def execBasecampEccError (s : State) : Result :=
  whenUp s fun s =>
    let hw := (if s.bci.westActive then 256 else 0) + 0x66
    .next ((s.error (ErrorNote.of 2 .corrupt hw)).setFails)

/-- A recorded measurement (R772). -/
def State.measured (s : State) (n : Nat) : Nat := Tab.getD s.sec.measured n 0

/-- SWITCHOVER_END (R548, R586): the standby is the active instance, commands that waited run, and the former set restarts. -/
def execSwitchoverEnd (s : State) : Result :=
  whenUp s fun s =>
    if s.bci.phase ≠ .switching then .next s
    else
      let s := { s with bci.phase := .syncing, bci.westActive := !s.bci.westActive }
      let s := match s.bci.activating with
        | none => s
        | some n =>
          let was := s.bci.runSlot
          let s := { s with
            sec.measured := Tab.set (Tab.set s.sec.measured 3 (s.measured 4)) 4 (s.measured 3)
            bci.runSlot := n
            bci.slots := Tab.modify (Tab.modify s.bci.slots was (fun x => { x with st := 1 })) n (fun x => { x with st := 2 }) }
          match s.opOf (.activate n) with | some o => s.opProgress o.id 3 | none => s
      .next ((s.release (fun w => decide (w = .switchover))).takeWords.rsMgmt)

/-- The third step of an activation: the switchover starts (R586). -/
def State.activateSwitch (s : State) (n : Nat) : State :=
  let s := { s with bci.phase := .switching }
  match s.opOf (.activate n) with | some o => s.opProgress o.id 2 | none => s

/-- The end of an activation (R586, R774, R777): the new image runs with its standby. -/
def State.activateDone (s : State) (n : Nat) : State :=
  let s := { s with bci.phase := .steady, bci.standby := true, bci.activating := none, nextId := s.nextId + 1, sec.aliasKey := s.nextId }
  let s := match Tab.get? s.bci.slots n with
    | some x => if x.commitSvn then { s with sec.svnMin := max s.sec.svnMin x.svn } else s
    | none => s
  match s.opOf (.activate n) with | some o => s.endOp o.id 1 .ok | none => s

/-- STANDBY_SYNC (R551, R586, R588): a standby set's state is synchronised. Before the switchover of an activation it is the standby with the
new image, which may have failed to load; after a switchover it is the former active set. -/
def execStandbySync (s : State) : Result :=
  whenUp s fun s =>
    if s.bci.phase ≠ .syncing then .next s
    else match s.bci.activating with
      | none => .next { s with bci.phase := .steady, bci.standby := true }
      | some n =>
        if s.bci.runSlot = n then .next ((s.activateDone n).rsMgmt)
        else if Config.freeBit s.freeCtr then
          let s := { s with freeCtr := s.freeCtr + 1, bci.phase := .steady, bci.standby := true, bci.activating := none }
          .next (match s.opOf (.activate n) with | some o => s.endOp o.id 1 .corrupt | none => s)
        else .next (State.activateSwitch { s with freeCtr := s.freeCtr + 1 } n)

/-! ### Firmware update (R585 to R589, R770, R771) -/

/-- The slot a firmware image gives, if it verifies (R770, R771). -/
def State.verifyImage (s : State) (bs : Bytes) : Option FwSlot :=
  let le (k n : Nat) : Nat := leNat ((bs.drop k).take n)
  let zero (k n : Nat) : Bool := ((bs.drop k).take n).all (fun b => decide (b = 0))
  let slot := le 9 1
  if decide (1536 ≤ bs.length) && decide (le 0 4 = 0x4C594657) && decide (le 8 1 < 64) && decide (slot < 4) && decide (le 10 1 < 2) && zero 11 5 && zero 540 484
      && decide (bs.length = 1536 + le 16 8) && !bitAt s.sec.revoked slot && decide (s.sec.svnMin ≤ le 8 1) && Config.signatureOk bs then
    some { st := 1, fwVer := le 4 4, svn := le 8 1, keySlot := slot, commitSvn := decide (le 10 1 = 1) }
  else none

/-- The address of a firmware slot in the boot store (R863). -/
def slotAddr (n : Nat) : Nat := if n = 0 then 0x01000000 else 0x11000000

/-- The measurement of the image in a slot (R772, R778): a digest of its header, body and signature (R770) as the boot store holds them. -/
def State.imageDigest (s : State) (n : Nat) : Nat :=
  let len := min 268435456 (1536 + Mem.leRead s.pkg.store (slotAddr n + 16) 8)
  Config.digest ((Mem.readN s.pkg.store (slotAddr n) len).map BitVec.toNat)

/-- The slot that does not run. -/
def State.otherSlot (s : State) : Nat := 1 - s.bci.runSlot

/-- FW_STAGE (R575, R582, R585, R872): the image is read, and a long operation verifies it. -/
def execFwStage (r : BciReq) (s : State) : Result :=
  bciServe .fwStage { BciRow.o 0xA0 4 with minor := some 0, resv := fun r => offResv r 2 } r s fun r i s =>
    if s.bci.activating.isSome then .next (s.respond r .state [])
    else if 268435456 < r.w 4 then .next (s.respond r .notSupported [])
    else s.onRegion (.fwStage r) r i (r.w 1) (r.d 2) (r.w 4) needR (State.refuse r) fun rid rg s =>
      match s.meetRead rid rg (.own i) (r.d 2) (r.w 4) with
      | .clear =>
        let image := s.readRange rg (.own i) (r.d 2) (r.w 4)
        let op := s.bci.nextOp
        let s := (s.readDone false rid (.own i) (r.d 2) (r.w 4)).startOp (.stage s.otherSlot) (r.w 4) (s.attributed i)
        .next (State.respond { s with bci.staging := Tab.set s.bci.staging op image } r .ok (one op))
      | m => .next (s.bciStop (.fwStage r) r i 0 rid (r.d 2) m)

/-- FW_STAGE_END (R585): the image verifies and is written to the slot that does not run, or the slot stays EMPTY. -/
def execFwStageEnd (id : Nat) (s : State) : Result :=
  whenUp s fun s =>
    match Tab.get? s.bci.staging id with
    | none => .next s
    | some bs =>
      let n := s.otherSlot
      let s := { s with bci.staging := Tab.erase s.bci.staging id }
      match s.verifyImage bs with
      | some x => .next (State.endOp { s with bci.slots := Tab.set s.bci.slots n x, pkg.store := Mem.writeN s.pkg.store (slotAddr n) bs } id 1 .ok)
      | none => .next (State.endOp { s with bci.slots := Tab.erase s.bci.slots n } id 1 .corrupt)

/-- The open sessions' versions. -/
def State.openSessions (s : State) : List (Nat × Nat) := s.bci.channels.filterMap (fun e => e.2.session)

/-- FW_ACTIVATE (R575, R586, R587). -/
def execFwActivate (r : BciReq) (s : State) : Result :=
  bciServe .fwActivate { BciRow.o 0xA1 1 with minor := some 0, resv := fun r => above r 1 1 } r s fun r i s =>
    let n := r.w 1
    let verified : Bool := match Tab.get? s.bci.slots n with | some x => decide (x.st = 1) | none => false
    if s.bci.activating.isSome || !verified || !s.bci.standby then .next (s.respond r .state [])
    else
      let fw := match Tab.get? s.bci.slots n with | some x => x.fwVer | none => 0
      if s.openSessions.any (fun v => !Config.imageSession fw v.1 v.2) then .next (s.respond r .notSupported [])
      else
        let op := s.bci.nextOp
        let s := s.startOp (.activate n) 4 (s.attributed i)
        let s := { s with sec.measured := Tab.set s.sec.measured 4 (s.imageDigest n) }
        .next (State.respond { s with bci.activating := some n, bci.standby := false, bci.phase := .syncing } r .ok (one op))

/-- FW_INFO (R568): the versions and states of the slots. -/
def execFwInfo (r : BciReq) (s : State) : Result :=
  bciServe .fwInfo { BciRow.o 0xA2 0 with minor := some 0 } r s fun r _ s =>
    let one' (n : Nat) : List Word := match Tab.get? s.bci.slots n with | some x => [BitVec.ofNat 32 x.fwVer, BitVec.ofNat 32 x.st] | none => [0, 0]
    .next (s.respond r .ok (one' 0 ++ one' 1 ++ one s.bci.runSlot))

end Sys2Proof.Machine
end

