-- ==== Sys2Proof/Machine/Fences.lean ====
section
/-! DEFINITION. Rope teams (07), fences (19), and the incarnations of LMF endpoints (17): ROPE_SET, ROPE_AGENT_ADD, ROPE_AGENT_REMOVE, FENCE, and the end of an incarnation. -/

namespace Sys2Proof.Machine

/-! ### The rope team (R269 to R276, R879) -/

/-- Is this controller a member of a team? -/
def State.isMember (s : State) : Bool := decide (s.rope.members ≠ [])

/-- Is this controller home to a coherent-mode region (R276)? -/
def State.hasCoherent (s : State) : Bool := s.home.regions.any (fun e => decide (e.2.mode = .coherent))

/-- The EIDs of a member list (R758, ROPE_SET). -/
def eidsOf (bs : Bytes) : List Nat := (chunksOf 4 bs.length bs).map leNat

/-- Apply a ROPE_SET (R270, R276): leaving a team takes its agents along (DESIGN CHOICE, log 21). -/
def State.ropeApply (s : State) (team us : Nat) (ms : List Nat) : State :=
  let stays := s.isMember && decide (team = s.rope.team) && ms.contains s.lmf.eid
  let s := if stays then s else { s with rope.agents := [], rope.fencedAgents := [], rope.team := 0, rope.members := [] }
  if ms.contains s.lmf.eid then { s with rope.team := team, rope.members := ms, rope.timeoutUs := us } else { s with rope.timeoutUs := us }

/-- ROPE_SET (R270, R276, R306, R872): the member list is read from memory. -/
def execRopeSet (r : BciReq) (s : State) : Result :=
  bciServe .ropeSet { BciRow.o 0x60 6 with minor := some 0, v3 := true, resv := fun r => above r 1 16 || offResv r 5 } r s fun r i s =>
    let n := r.w 2
    if n = 0 ∨ 16 < n ∨ r.w 3 < 10 ∨ 1000000 < r.w 3 then .next (s.respond r .notSupported [])
    else s.onRegion (.ropeSet r) r i (r.w 4) (r.d 5) (4 * n) needR (State.refuse r) fun rid rg s =>
      match s.meetRead rid rg (.own i) (r.d 5) (4 * n) with
      | .clear =>
        let ms := eidsOf (s.readRange rg (.own i) (r.d 5) (4 * n))
        let s := s.readDone false rid (.own i) (r.d 5) (4 * n)
        let leaves := s.isMember && (!ms.contains s.lmf.eid || decide (r.w 1 ≠ s.rope.team))
        if ms.any (fun e => decide (262144 ≤ e)) then .next (s.respond r .notSupported [])
        else if leaves && s.hasCoherent then .next (s.respond r .state [])
        else .next ((s.ropeApply (r.w 1) (r.w 3) ms).respond r .ok [])
      | m => .next (s.bciStop (.ropeSet r) r i 0 rid (r.d 5) m)

/-- ROPE_AGENT_ADD (R271, R653, R879). -/
def execRopeAgentAdd (r : BciReq) (s : State) : Result :=
  bciServe .ropeAgentAdd { BciRow.o 0x61 3 with minor := some 0, v3 := true, resv := fun r => above r 1 6 || above r 2 18 } r s fun r _ s =>
    if s.verOf (r.w 2) < 3 then .next (s.respond r .notSupported [])
    else if !s.isMember || Tab.has s.rope.agents (r.w 1) || (s.agentIdx (r.w 2)).isSome then .next (s.respond r .state [])
    else .next (State.respond { s with rope.agents := Tab.set s.rope.agents (r.w 1) { eid := r.w 2, inc := r.w 3 } } r .ok [])

/-- Does the directory record an agent as holding a line (R275)? -/
def State.agentHolds (s : State) (a : Nat) : Bool :=
  s.entries.any (fun e => match e.2.st with
    | .e => decide (e.2.owner = a)
    | .m => decide (e.2.owner = a)
    | .s => decide (a ∈ e.2.sharers)
    | _ => decide (a ∈ e.2.sharers) || decide (a ∈ e.2.awaited))

/-- ROPE_AGENT_REMOVE (R275); an index without an agent is removed already (DESIGN CHOICE, log 21). -/
def execRopeAgentRemove (r : BciReq) (s : State) : Result :=
  bciServe .ropeAgentRemove { BciRow.o 0x62 1 with minor := some 0, v3 := true, resv := fun r => above r 1 6 } r s fun r _ s =>
    match Tab.get? s.rope.agents (r.w 1) with
    | none => .next (s.respond r .ok [])
    | some a =>
      if s.agentHolds (r.w 1) then .next (s.respond r .state [])
      else
        .next (State.respond { s with
          rope.agents := Tab.erase s.rope.agents (r.w 1)
          rope.fencedAgents := s.rope.fencedAgents.filter (fun (x : Agent) => decide (x ≠ a)) } r .ok [])

/-! ### The end of an incarnation (R679, R735) -/

/-- Change an ownership object: the change is committed under the next ENTRY number, at a mirror partner too (R753). -/
def State.putObject (s : State) (o : JObject) (gone : Bool) : State :=
  let s := s.commit
  let o : JObject := { o with entry := s.rel.entry }
  let rest := s.rel.objects.filter (fun x => !(decide (x.rid = o.rid) && decide (x.name = o.name)))
  let s := { s with rel.objects := if gone then rest else rest ++ [o] }
  match s.region? o.rid with
  | none => s
  | some r =>
    if r.mirror = 0 then s
    else s.emit (.journal r.mirror (s.keyOf o.rid)
      (.object o.name (if gone then 0 else match o.st with | .owned => 1 | .offered => 2 | .orphaned => 3) o.eid o.inc o.toEid o.toInc o.entry))

/-- What the end of an incarnation does to the ownership objects of this home (R756). -/
def State.fenceObjects (s : State) (eid inc : Nat) : State :=
  (s.rel.objects.filter (fun o => (s.region? o.rid).isSome)).foldl (fun (s : State) o =>
    if decide (o.eid = eid) && decide (o.inc ≤ inc) && decide (o.st ≠ .orphaned) then s.putObject { o with st := .orphaned, toEid := 0, toInc := 0 } false
    else if decide (o.st = .offered) && decide (o.toEid = eid) && decide (o.toInc ≤ inc) then s.putObject { o with st := .owned, toEid := 0, toInc := 0 } false
    else s) s

/-- Turn mirroring off toward an endpoint (R743): a MIRROR record for each region. -/
def State.loseMirror (s : State) (eid : Nat) : State :=
  (s.home.regions.filter (fun e => decide (e.2.mirror = eid))).foldl (fun (s : State) e =>
    (s.unmirror e.1).error { ErrorNote.of 13 .ok (anyUnit s.freeCtr) with key := s.keyOf e.1, eid := eid }) s

/-- Poison every line of a region that no agent wrote back during the recall (R319). -/
def State.poisonRecalled (s : State) (rid : Nat) : State :=
  match s.region? rid with
  | none => s
  | some r =>
    let back := Tab.getD s.rope.recallDone rid []
    ((linesOf r.base r.size).filter (fun l => decide (l ∉ back))).foldl (fun (s : State) l => s.lineToxic rid l) s

/-- An agent that is fenced will not answer a recall (R318, R319). -/
def State.fenceRecalls (s : State) (a : Nat) : State :=
  (s.rope.recalls.filter (fun e => decide (a ∈ e.2))).foldl (fun (s : State) e =>
    let t : State := match s.region? e.1 with | some r => if a ∈ r.excl then s.poisonRecalled e.1 else s | none => s
    t.recallAnswered e.1 a) s

/-- Requests of an endpoint that a line's transient state serves or that wait at the home complete with ST_FENCED (R735). -/
def State.fenceWaiting (s : State) (eid : Nat) : State :=
  let s := s.rope.lines.foldl (fun (s : State) e =>
    let gone (q : LmfReq) : State :=
      if q.srcEid = eid then State.complete { s with rope.lines := Tab.set s.rope.lines e.1 { e.2 with req := .none } } q .fenced [] else s
    match e.2.req with
    | .rdUnc q => gone q
    | .wrUnc q _ _ => gone q
    | _ => s) s
  (s.home.acquires.filter (fun a => decide (a.eid = eid))).foldl (fun (s : State) a => s.emit (.cpl a.eid a.tag a.gen .fenced [])) s

/-- An incarnation ends at this home (R34, R53, R193, R207, R222, R254, R312, R314, R379, R460, R463, R679, R735, R743, R756, R787). A fence of
this controller's own EID is one of the owning host and of the contexts that issue under that EID (DEDUCED, log 21). -/
def State.endIncarnation (s : State) (eid inc : Nat) : State :=
  let entry := Tab.getD s.lmf.incs eid { inc := inc, ver := 3, joined := false, fenced := none }
  if inc < entry.inc then s
  else
    let s :=
      if eid = s.lmf.eid then { s with host.ownerFenced := true }
      else { s with lmf.incs := Tab.set s.lmf.incs eid { entry with fenced := some (match entry.fenced with | some n => max n inc | none => inc) } }
    let keep := s.home.held.filter (fun h => match h.why with | .newer e i => decide (e = eid) && decide (inc < i) | _ => false)
    let s := { s with home.held := s.home.held.filter (fun (h : Held) => match h.why with | .newer e i => !(decide (e = eid) && decide (inc < i)) | _ => true) }
    let s := s.fenceWaiting eid
    let s :=
      if eid = s.lmf.eid then
        let s := s.bci.contexts.foldl (fun (s : State) c => s.endEngines c.1 11 .fenced) s
        if s.expert.ssd.isSome then s.ssdEnd else s
      else s
    let s := s.endIssuer (fun e _ => decide (e = eid)) .fenced
    let s := { s with home.held := s.home.held ++ keep }
    let s := s.expFence eid
    let ags := s.rope.agents.filter (fun a => decide (a.2.eid = eid) && decide (a.2.inc ≤ inc))
    let s := { s with
      rope.fencedAgents := s.rope.fencedAgents ++ ags.map Prod.snd
      rope.sweepLeft := if ags = [] then s.rope.sweepLeft else 4194304 }
    let s := ags.foldl (fun (s : State) a => s.fenceRecalls a.1) s
    let s := ((s.loseLender eid).loseMirror eid).fenceObjects eid inc
    let s := { s with
      sec.secured := s.sec.secured.filter (fun (x : Nat × Nat) => !(decide (x.1 = eid) && decide (x.2 ≤ inc)))
      sec.peers := s.sec.peers.filter (fun (x : SpdmPeer) => match x.peer with | .lmf e i => !(decide (e = eid) && decide (i ≤ inc)) | _ => true) }
    s.settle

/-- FENCE (R734 to R736). -/
def execFence (r : BciReq) (s : State) : Result :=
  bciServe .fence { BciRow.o 0x63 2 with minor := some 0, resv := fun r => above r 1 18 } r s fun r _ s =>
    .next ((s.endIncarnation (r.w 1) (r.w 2)).respond r .ok [])

end Sys2Proof.Machine
end

