-- ==== Sys2Proof/Machine/Reliability.lean ====
section
/-! DEFINITION. Reliability, spares and recovery (19): the error store and health records, parameters, known-answer tests and quarantine, spares and rebuilds, heartbeats and leases, loss of a die, takeover, and the journal. -/

namespace Sys2Proof.Machine

/-! ### Copies that firmware writes for a command -/

/-- Write bytes to the range a command names and answer it (R62, R187, R872): `after` is what the command changes besides. -/
def State.copyOut (s : State) (cmd : Instr) (r : BciReq) (i : Issuer) (key off : Nat) (data : Bytes) (resp : List Word) (after : State → State) : Result :=
  s.onRegion cmd r i key off data.length needW (State.refuse r) fun rid rg s =>
    match s.meetWrite rid rg (.shadowed i) off data.length with
    | .clear =>
      let s := after ((s.writeRange rid (.shadowed i) off data).touchRange false rid (.own i) off data.length)
      if rg.mode = .publish then .next (s.respond r .ok resp) else .next (s.answerAfter rid off data none .ok (.bci r resp))
    | m => .next (s.bciStop cmd r i 1 rid off m)

/-! ### Error records and health -/

/-- The number `b − a` counted modulo 2³². -/
def seqDist (a b : Nat) : Nat := (b + 4294967296 - a) % 4294967296

/-- The records of a store, oldest first, from a sequence number on, at most `n`; the next sequence number; and how many from that number on have
been replaced (R723, R758). -/
def fromSeq {α : Type} (seq : α → Nat) (store : List α) (next first n : Nat) : List α × Nat × Nat :=
  let held := store.reverse
  match held with
  | [] => ([], next, 0)
  | o :: _ =>
    let behind := seqDist (seq o) next
    let ahead := seqDist first next
    let got := (held.filter (fun x => decide (seqDist (seq x) next ≤ ahead))).take n
    match got.getLast? with
    | some l => (got, (seq l + 1) % 4294967296, if ahead ≤ 2147483648 then ahead - behind else 0)
    | none => ([], next, 0)

/-- ERRLOG_READ (R723, R758). -/
def execErrlogRead (r : BciReq) (s : State) : Result :=
  bciServe .errlogRead { BciRow.o 0x100 5 with minor := some 0, resv := fun r => offResv r 4 } r s fun r i s =>
    if r.w 2 = 0 ∨ 1024 < r.w 2 then .next (s.respond r .notSupported [])
    else
      let (es, next, gone) := fromSeq ErrorRec.seq s.rel.errors s.rel.errSeq (r.w 1) (r.w 2)
      s.copyOut (.errlogRead r) r i (r.w 3) (r.d 4) (es.flatMap (fun e => bytesOf e.words))
        [BitVec.ofNat 32 es.length, BitVec.ofNat 32 next, BitVec.ofNat 32 gone] id

/-- A bin of a health record (R767). -/
def HealthBin.bytes (b : HealthBin) : Bytes :=
  natLE 8 b.onMs ++ natLE 4 b.ce ++ natLE 4 b.ue ++ natLE 4 b.mis ++ natLE 4 b.kat ++ natLE 2 b.vmin ++ natLE 2 b.vmax ++ natLE 4 0

/-- A unit's health record (R767). -/
def UnitRec.bytes (u : UnitRec) (hw : Nat) : Bytes :=
  natLE 2 hw ++ natLE 1 (b2n u.quarantined) ++ natLE 1 u.repairs ++ List.replicate 12 0
    ++ (upto 8).flatMap (fun b => (Tab.getD u.bins b HealthBin.fresh).bytes)

/-- HEALTH_READ (R767). -/
def execHealthRead (r : BciReq) (s : State) : Result :=
  bciServe .healthRead { BciRow.o 0x101 4 with minor := some 0, resv := fun r => above r 1 9 || offResv r 3 } r s fun r i s =>
    s.copyOut (.healthRead r) r i (r.w 2) (r.d 3) ((s.unit (r.w 1)).bytes (r.w 1)) [] id

/-- HEALTH_UPDATE (R767): each 10 s of ON time the record takes its time, temperature and voltage. -/
def execHealthUpdate (hw tempC volt : Nat) (s : State) : Result :=
  whenUp s fun s =>
    let u := s.unit hw
    if 512 ≤ hw ∨ s.now < u.onSince + 10000000000 then .next s
    else
      let k := binOf (tempC : Int)
      let b := Tab.getD u.bins k HealthBin.fresh
      let b : HealthBin :=
        { b with onMs := b.onMs + 10000, vmin := if b.onMs = 0 then volt else min b.vmin volt, vmax := if b.onMs = 0 then volt else max b.vmax volt }
      .next (s.setUnit hw { u with bins := Tab.set u.bins k b, onSince := s.now })

/-! ### Parameters (R759) -/

/-- The range of a parameter (R759). -/
def relRange (p : Nat) : Option (Nat × Nat) :=
  match p with
  | 1 => some (100, 100000)
  | 2 => some (2, 64)
  | 3 => some (0, 1000000)
  | 4 => some (1, 4294967295)
  | 5 => some (1, 4294967295)
  | 6 => some (5, 100)
  | 7 => some (1, 255)
  | 8 => some (1, 86400000)
  | 9 => some (100, 3600000)
  | 10 => some (1, 255)
  | _ => none

/-- REL_SET (R759). -/
def execRelSet (r : BciReq) (s : State) : Result :=
  bciServe .relSet { BciRow.o 0x102 3 with minor := some 0 } r s fun r _ s =>
    let v := r.d 2
    match relRange (r.w 1) with
    | none => .next (s.respond r .notSupported [])
    | some (lo, hi) =>
      if v < lo ∨ hi < v then .next (s.respond r .notSupported [])
      else if (r.w 1 = 3 ∧ v < 2 * s.param 1) ∨ (r.w 1 = 1 ∧ s.param 3 < 2 * v) then .next (s.respond r .state [])
      else .next (State.respond { s with rel.params := Tab.set s.rel.params (r.w 1) v } r .ok [])

/-- REL_GET (R759). -/
def execRelGet (r : BciReq) (s : State) : Result :=
  bciServe .relGet { BciRow.o 0x103 1 with minor := some 0 } r s fun r _ s =>
    match relRange (r.w 1) with
    | none => .next (s.respond r .notSupported [])
    | some _ => .next (s.respond r .ok (two (s.param (r.w 1))))

/-! ### Known-answer tests and quarantine (R762 to R766) -/

/-- Does the unit run a known-answer test (R762)? -/
def hasKat (hw : Nat) : Bool :=
  let o := hw % 256
  decide (o < 0x30) || (decide (0x36 ≤ o) && decide (o ≤ 0x39)) || (decide (0x46 ≤ o) && decide (o ≤ 0x49))

/-- The core of an engine's unit (R791). -/
def unitCore (hw : Nat) : Option Nat := if hw % 256 < 8 then some (hw / 256 * 2 + hw % 256 / 4) else none

/-- Is a unit idle? -/
def State.unitIdle (s : State) (hw : Nat) : Bool :=
  let o := hw % 256
  match unitCore hw with
  | some n => decide ((s.core n).st = .idle)
  | none =>
    if 0x46 ≤ o ∧ o ≤ 0x47 then !s.trav.queries.any (fun q => q.started && q.final.isNone)
    else if 0x48 ≤ o ∧ o ≤ 0x49 then !s.mor.batches.any (fun b => match b.running with | some mu => decide (morUnit mu = hw) | none => false)
    else if 0x36 ≤ o ∧ o ≤ 0x39 then s.home.memops.isEmpty
    else true

/-- KAT (R762, R763): the test of an idle unit; one that gave way to work is discarded. -/
def execKat (hw : Nat) (res : KatResult) (s : State) : Result :=
  whenUp s fun s =>
    let u := s.unit hw
    if 512 ≤ hw ∨ hasKat hw = false ∨ u.quarantined = true ∨ s.unitIdle hw = false ∨ s.now < u.lastKat + s.param 9 * 1000000 then .next s
    else match res with
      | .yielded => .next s
      | .pass => .next ((s.setUnit hw { u with lastKat := s.now }).cairn hw 0x22 0 0)
      | .fail => .next (((s.setUnit hw { u with lastKat := s.now }).cairn hw 0x22 0 1).error { ErrorNote.of 6 .corrupt hw with layer := 8 })

/-- QUARANTINE (R764). -/
def execQuarantine (r : BciReq) (s : State) : Result :=
  bciServe .quarantine { BciRow.o 0x104 2 with minor := some 0, resv := fun r => above r 1 9 || decide (r.w 2 ≠ 0) } r s fun r _ s =>
    let u := s.unit (r.w 1)
    .next ((s.setUnit (r.w 1) { u with asked := u.asked || !u.quarantined }).respond r .ok [])

/-- A unit is in service again (R374, R766). -/
def State.releaseUnit (s : State) (hw : Nat) : State :=
  let u := s.unit hw
  let s := s.setUnit hw { u with quarantined := false, asked := false, errTimes := [] }
  let s := if u.quarantined then s.cairn hw 0x21 0 1 else s
  match unitCore hw with
  | some n =>
    if (s.core n).st = .quarantined ∧ (upto 4).all (fun e => !(s.unit (coreUnit n e)).quarantined) = true then
      s.setCore n { s.core n with st := .idle, tile := [], lastOk := false }
    else s
  | none => s

/-- QUARANTINE with the release action (R766): a known-answer test first, whose result is a free value. -/
def execQuarantineRelease (r : BciReq) (s : State) : Result :=
  bciServe .quarantineRelease { BciRow.o 0x104 2 with minor := some 0, resv := fun r => above r 1 9 || decide (r.w 2 ≠ 1) } r s fun r _ s =>
    let hw := r.w 1
    if hasKat hw && Config.freeBit s.freeCtr then
      let s := { s with freeCtr := s.freeCtr + 1 }
      let s := ((s.setUnit hw { s.unit hw with lastKat := s.now }).cairn hw 0x22 0 1).error { ErrorNote.of 6 .corrupt hw with layer := 8 }
      .next (s.respond r .corrupt [])
    else
      let s := if hasKat hw then State.cairn { s with freeCtr := s.freeCtr + 1 } hw 0x22 0 0 else s
      .next ((s.releaseUnit hw).respond r .ok [])

/-- QUARANTINE_EFFECT (R764, R374): the unit is idle and takes no more work. -/
def execQuarantineEffect (hw : Nat) (s : State) : Result :=
  whenUp s fun s =>
    let u := s.unit hw
    if 512 ≤ hw ∨ u.asked = false ∨ s.unitIdle hw = false then .next s
    else
      let s := s.setUnit hw { u with asked := false, quarantined := true }
      let s := match unitCore hw with | some n => s.setCore n { s.core n with st := .quarantined } | none => s
      .next ((s.cairn hw 0x21 0 0).error { ErrorNote.of 10 .ok hw with layer := 8 })

/-! ### Parts, spares and rebuilds (R724 to R731) -/

/-- An empty drive slot. -/
def Drive.fresh : Drive := { admitted := false, inc := 0, spare := false, failed := false, capacity := 0 }
/-- A drive slot. -/
def State.drive (s : State) (n : Nat) : Drive := Tab.getD s.strata.drives n Drive.fresh

/-- The running rebuild, or the one that waits, of a part (R724). -/
def State.rebuildOf (s : State) (p : Part) (loc : Nat) : Option Rebuild := s.rel.rebuilds.find? (fun b => decide (b.part = p) && decide (b.loc = loc))

/-- T1 capacity in tier pages: every DIMM that serves (R97, R100, R727). -/
def State.sizeT1 (s : State) : State := { s with strata.t1Pages := s.dimmsUp.length * s.strata.dimmGiB * 16384 }

/-- The T2 pages of a group of drives: N − 2 of N members, 6 to 12 of them (R97). -/
def groupPages (g : List (Nat × Drive)) : Nat :=
  match g with
  | [] => 0
  | e :: t => if 6 ≤ g.length ∧ g.length ≤ 12 then (g.length - 2) * (t.foldl (fun m x => min m x.2.capacity) e.2.capacity) / 65536 else 0

/-- T2 capacity. -/
def State.sizeT2 (s : State) : State := { s with strata.t2Pages := groupPages s.group }

/-- LAYER and UNIT of a part (R722, R791). -/
def partUnit (p : Part) (loc : Nat) : Nat × Nat :=
  let layer := match p with | .pseudoChannel => 1 | .dimm => 2 | .drive => 3
  (layer, layerUnit layer loc)

/-- The PART_FAILED record (R724, R729). -/
def State.partRecord (s : State) (p : Part) (loc op : Nat) : State :=
  s.error { ErrorNote.of 7 .ok (partUnit p loc).2 with layer := (partUnit p loc).1, loc := loc, aux := op }

/-- The pages with a copy on a part of a layer, which is one of those that have served; every image in T2 lies in stripes over the whole group (R106). -/
def State.pagesAt (s : State) (layer loc : Nat) : List (PageRef × TierPage) :=
  let xs := loc :: (s.partsUp layer).filter (fun x => decide (x ≠ loc))
  s.allPages.filter (fun e =>
    match layer with
    | 1 => decide (e.2.t0 ≠ .none) && decide (s.copyAmong 1 xs e.1 = loc)
    | 2 => decide (e.2.backing = .t1) && decide (s.copyAmong 2 xs e.1 = loc)
    | _ => decide (e.2.backing = .t2))

/-- Pages whose image is gone: poisoned pending recovery, or written anew from their T0 copy, which no TL copy equals from then on (R109, R178, R727,
R728). -/
def State.imagesLost (s : State) (ps : List (PageRef × TierPage)) : State :=
  ps.foldl (fun (s : State) e => s.modPage e.1 (fun q => if q.t0 = .none then { q with recovering := true } else { q.dropTl with t0 := .dirty })) s

/-- Is the space that T1 and T2 have smaller than what is in use or reserved (R114, R727)? -/
def State.overfull (s : State) : Bool := decide (s.t1Cap + s.t2Cap < s.t1Bytes + s.t2Bytes)

/-- What follows where no spare is left (R727, R728). -/
def State.noSpare (s : State) (p : Part) (loc : Nat) : State :=
  match p with
  | .pseudoChannel => s
  | .dimm =>
    let s := (s.imagesLost (s.pagesAt 2 loc)).sizeT1
    if s.overfull then s.failStop 5 else s
  | .drive => if 2 < (s.group.filter (fun e => e.2.failed)).length then s.imagesLost (s.pagesAt 3 0) else s

/-- A spare that is ready (R100, R102). -/
def State.spareFor (s : State) (p : Part) : Option Nat :=
  let busy (n : Nat) : Bool := s.rel.rebuilds.any (fun b => decide (b.part = p) && decide (b.into = some n))
  match p with
  | .pseudoChannel => none
  | .dimm => (s.strata.dimms.find? (fun e => e.2.spare && !e.2.failed && !busy e.1)).map Prod.fst
  | .drive => (s.strata.drives.find? (fun e => e.2.admitted && e.2.spare && !e.2.failed && !busy e.1)).map Prod.fst

/-- Start the rebuild of a part (R725, R726, R729), with its extent in its position unit (R724): on a pseudo-channel, clean T0 copies are dropped. -/
def State.startRebuild (s : State) (p : Part) (loc : Nat) (into : Option Nat) : State :=
  let op := s.bci.nextOp
  let ps := match p with | .pseudoChannel => s.pagesAt 1 loc | .dimm => s.pagesAt 2 loc | .drive => []
  let b : Rebuild := { op := op, part := p, loc := loc, running := true, into := into }
  let s := s.startOp (.rebuild p loc) (match p with | .drive => (s.drive loc).capacity | _ => ps.length)
    (s.attributed { eid := s.lmf.eid, ctx := 0, admin := true })
  let s := { s with rel.rebuilds := s.rel.rebuilds.filter (fun (x : Rebuild) => !(decide (x.part = p) && decide (x.loc = loc))) ++ [b] }
  match p with
  | .pseudoChannel => ps.foldl (fun (s : State) e =>
      s.modPage e.1 (fun q => if q.t0 = .clean ∧ q.backing ≠ .none then { q with t0 := .none } else q)) s
  | .dimm => s.sizeT1
  | .drive => s

/-- A rebuild that waits for a spare. -/
def State.waitRebuild (s : State) (p : Part) (loc : Nat) : State :=
  { s with rel.rebuilds := s.rel.rebuilds.filter (fun (x : Rebuild) => !(decide (x.part = p) && decide (x.loc = loc)))
      ++ [{ op := 0, part := p, loc := loc, running := false, into := none }] }

/-- Declare a part failed (R724): its record, and its rebuild where there is a spare. -/
def State.declareFailed (s : State) (p : Part) (loc : Nat) : State :=
  match p with
  | .pseudoChannel =>
    if s.rel.pcFailed.any (fun x => decide (x % 8 = loc % 8)) then (s.partRecord p loc 0).failStop 4
    else
      let op := s.bci.nextOp
      (State.startRebuild { s with rel.pcFailed := loc :: s.rel.pcFailed } p loc none).partRecord p loc op
  | .dimm =>
    let d := s.dimm loc
    let s := { s with strata.dimms := Tab.set s.strata.dimms loc { d with failed := true, spare := false } }
    if d.spare then (s.partRecord p loc 0).sizeT1
    else match s.spareFor .dimm with
      | some n => let op := s.bci.nextOp; (s.startRebuild p loc (some n)).partRecord p loc op
      | none => ((s.waitRebuild p loc).partRecord p loc 0).noSpare p loc
  | .drive =>
    let d := s.drive loc
    let s := { s with strata.drives := Tab.set s.strata.drives loc { d with failed := true, spare := false, admitted := !d.spare, queues := 0, busy := 0 } }
    if d.spare then s.partRecord p loc 0
    else match s.spareFor .drive with
      | some n => let op := s.bci.nextOp; (s.startRebuild p loc (some n)).partRecord p loc op
      | none => ((s.waitRebuild p loc).partRecord p loc 0).noSpare p loc

/-- Is a part there, and in service? -/
def State.partUp (s : State) (p : Part) (loc : Nat) : Bool :=
  match p with
  | .pseudoChannel => decide (loc < 256)
  | .dimm => decide (loc < 16 * s.strata.dimmsPer) && !(s.dimm loc).failed
  | .drive => decide (loc < 12) && (s.drive loc).admitted && !(s.drive loc).failed

/-- PART_FAILED (R724 to R728): a pseudo-channel, DIMM or drive is declared failed. -/
def execPartFailed (part : Part) (loc : Nat) (s : State) : Result :=
  whenUp s fun s => if s.partUp part loc then .next (s.declareFailed part loc) else .next s

/-- SPARE_SET (R100, R102, R758): one spare of each kind at most, and one that holds data is none (DESIGN CHOICE, log 22). -/
def execSpareSet (r : BciReq) (s : State) : Result :=
  bciServe .spareSet { BciRow.o 0x105 3 with minor := some 0, resv := fun r => above r 3 1 } r s fun r _ s =>
    let on := decide (r.w 3 = 1)
    let n := r.w 2
    match r.w 1 with
    | 1 =>
      let t := State.sizeT1 { s with strata.dimms := Tab.set s.strata.dimms n { s.dimm n with spare := on } }
      if 16 * s.strata.dimmsPer ≤ n then .next (s.respond r .notSupported [])
      else if on && ((s.dimm n).failed || s.strata.dimms.any (fun e => e.2.spare && decide (e.1 ≠ n))
          || t.overfull) then .next (s.respond r .state [])
      else if !on && s.rel.rebuilds.any (fun b => decide (b.part = .dimm) && decide (b.into = some n)) then .next (s.respond r .state [])
      else .next (t.respond r .ok [])
    | 2 =>
      let t := State.sizeT2 { s with strata.drives := Tab.set s.strata.drives n { s.drive n with spare := on } }
      if 12 ≤ n then .next (s.respond r .notSupported [])
      else if !(s.drive n).admitted || (s.drive n).failed then .next (s.respond r .state [])
      else if on && (s.strata.drives.any (fun e => e.2.spare && decide (e.1 ≠ n)) || decide (t.t2Cap < t.t2Bytes)) then .next (s.respond r .state [])
      else if !on && s.rel.rebuilds.any (fun b => decide (b.part = .drive) && decide (b.into = some n)) then .next (s.respond r .state [])
      else .next (t.respond r .ok [])
    | _ => .next (s.respond r .notSupported [])

/-- The part of KIND (R758). -/
def partOf (k : Nat) : Option Part := match k with | 0 => some .pseudoChannel | 1 => some .dimm | 2 => some .drive | _ => none

/-- REBUILD_START (R729, R758): a rebuild that waited for a spare starts. -/
def execRebuildStart (r : BciReq) (s : State) : Result :=
  bciServe .rebuildStart { BciRow.o 0x106 2 with minor := some 0, resv := fun r => above r 2 16 } r s fun r _ s =>
    match partOf (r.w 1) with
    | none => .next (s.respond r .notSupported [])
    | some p =>
      match s.rebuildOf p (r.w 2), s.spareFor p with
      | some b, some n => if b.running then .next (s.respond r .state []) else .next ((s.startRebuild p (r.w 2) (some n)).respond r .ok (one s.bci.nextOp))
      | _, _ => .next (s.respond r .state [])

/-- REBUILD_END (R726, R729, R731): the spare takes the part's place, or has failed too. -/
def execRebuildEnd (id : Nat) (spareFailed : Bool) (s : State) : Result :=
  whenUp s fun s =>
    match s.rel.rebuilds.find? (fun b => decide (b.op = id) && b.running) with
    | none => .next s
    | some b =>
      if spareFailed then
        let s := s.endOp id 1 .corrupt
        let s := match b.part, b.into with
          | .dimm, some n => { s with strata.dimms := Tab.set s.strata.dimms n { s.dimm n with failed := true, spare := false } }
          | .drive, some n => { s with strata.drives := Tab.set s.strata.drives n { s.drive n with failed := true, spare := false, admitted := decide (n = b.loc) } }
          | _, _ => s
        let s := match b.into with | some n => s.partRecord b.part n 0 | none => s
        .next ((s.waitRebuild b.part b.loc).noSpare b.part b.loc)
      else
        let bytes : Nat := match s.bci.ops.find? (fun o => decide (o.id = id)) with | some o => o.total * (if b.part = .drive then 1 else 65536) | none => 0
        let s := State.event { s with rel.rebuilds := s.rel.rebuilds.filter (fun (x : Rebuild) => decide (x.op ≠ id)) } (partUnit b.part b.loc).2 7 bytes none
        let s := match b.part, b.into with
          | .dimm, some n => State.sizeT1 { s with strata.dimms := Tab.set s.strata.dimms n { s.dimm n with spare := false } }
          | .drive, some n =>
            if n = b.loc then { s with strata.drives := Tab.set s.strata.drives n { s.drive n with failed := false } }
            else
              State.sizeT2 { s with
                strata.drives := Tab.set (Tab.set s.strata.drives n { s.drive n with spare := false }) b.loc { s.drive b.loc with admitted := false } }
          | _, _ => s
        .next (s.endOp id 1 .ok)

/-! ### Heartbeats and leases (R732 to R744) -/

/-- An endpoint the detector has not heard of. -/
def HbEntry.fresh : HbEntry := { last := 0, suspect := false, leaseEnd := 0, sentAt := 0 }
/-- The detector's record of an endpoint. -/
def State.hbOf (s : State) (eid : Nat) : HbEntry := Tab.getD s.rel.hb eid HbEntry.fresh
/-- Replace it. -/
def State.setHb (s : State) (eid : Nat) (h : HbEntry) : State := { s with rel.hb := Tab.set s.rel.hb eid h }

/-- The endpoints the controller sends HEARTBEAT to (R732, R741): mirror partners, homes whose partner it is, its team, the fabric manager;
none whose incarnation is fenced. -/
def State.hbTargets (s : State) : List Nat :=
  ((s.home.regions.map (fun e => e.2.mirror) ++ s.home.copies.map (fun e => e.2.mirror) ++ s.rope.members ++ [s.lmf.fmEid]).dedup).filter (fun e =>
    decide (e ≠ 0) && decide (e ≠ s.lmf.eid) && (match Tab.get? s.lmf.incs e with
      | some x => (match x.fenced with | some n => decide (n < x.inc) | none => true)
      | none => true))

/-- The endpoints whose HEARTBEAT the controller expects (R732, R733). -/
def State.hbWatched (s : State) : List Nat := (s.hbTargets ++ s.rope.agents.map (fun e => e.2.eid)).dedup

/-- HEARTBEAT_SEND (R732, R741): once each HB_PERIOD; the time of the last is kept under the controller's own EID. -/
def execHeartbeatSend (s : State) : Result :=
  whenUp s fun s =>
    let h := s.hbOf s.lmf.eid
    if !s.lmf.joined || (decide (h.sentAt ≠ 0) && decide (s.now + 1 < h.sentAt + s.param 1 * 1000)) then .next s
    else
      let s := s.hbTargets.foldl (fun (s : State) e => (s.setHb e { s.hbOf e with sentAt := s.now + 1 }).emit (.evt e 8 [s.lmf.inc, s.now, b2n (decide (5000 < s.errNow))])) s
      .next (s.setHb s.lmf.eid { s.hbOf s.lmf.eid with sentAt := s.now + 1 })

/-- HEARTBEAT (R733, R739): a lease from a mirror partner, and the end of SUSPECT; one of another incarnation than the current counts for
nothing. -/
def execHeartbeat (eid inc ftime : Nat) (s : State) : Result :=
  whenUp s fun s =>
    match s.judge eid inc with
    | .current =>
      let h := s.hbOf eid
      let partner := s.home.regions.any (fun e => decide (e.2.mirror = eid))
      let s := s.setHb eid { h with last := s.now, suspect := false, leaseEnd := if partner then max h.leaseEnd (ftime + s.param 3 * 1000) else h.leaseEnd }
      let s := if h.suspect then s.error { ErrorNote.of 9 .ok (anyUnit s.freeCtr) with eid := eid } else s
      .next (s.release (fun w => decide (w = .lease eid)))
    | _ => .next s

/-- SUSPECT (R733): no HEARTBEAT has arrived for HB_MISS periods. -/
def execSuspect (eid : Nat) (s : State) : Result :=
  whenUp s fun s =>
    let h := s.hbOf eid
    if h.suspect || !(s.hbWatched).contains eid || decide (s.now < h.last + s.param 2 * s.param 1 * 1000) then .next s
    else .next ((s.setHb eid { h with suspect := true }).error { ErrorNote.of 8 .ok (anyUnit s.freeCtr) with eid := eid })

/-- LEASE_EXPIRY (R739, R740): from here on the regions mirrored to the endpoint are held. -/
def execLeaseExpiry (eid : Nat) (s : State) : Result :=
  whenUp s fun s =>
    let h := s.hbOf eid
    if decide (h.leaseEnd = 0) || decide (s.now < h.leaseEnd) then .next s else .next (s.setHb eid { h with leaseEnd := 0 })

/-- DIE_LOSS (R23, R745). -/
def execDieLoss (s : State) : Result := whenUp s fun s => .next (s.failStop 1)

/-! ### Takeover (R748 to R752) -/

/-- TAKEOVER (R748, R575). -/
def execTakeover (r : BciReq) (s : State) : Result :=
  bciServe .takeover { BciRow.o 0x107 3 with minor := some 0, resv := fun r => above r 1 18 || above r 3 12 } r s fun r i s =>
    let fenced : Bool := match Tab.get? s.lmf.incs (r.w 1) with | some e => (match e.fenced with | some n => decide (r.w 2 ≤ n) | none => false) | none => false
    if !fenced || !s.ctxOk (r.w 3) then .next (s.respond r .state [])
    else
      let op := s.bci.nextOp
      let sent := (s.hbOf (r.w 1)).sentAt
      let t : Takeover :=
        { id := op, eid := r.w 1, inc := r.w 2, ctx := r.w 3, adopted := false,
          waitEnd := if sent = 0 then s.now else sent - 1 + s.param 3 * 1000 + 10000 }
      let s := s.startOp (.takeover (r.w 1)) 4 (s.attributed i)
      .next (State.respond { s with rel.takeovers := s.rel.takeovers ++ [t] } r .ok (one op))

/-- Step 1: a complete copy becomes a region of the adopted EID's table (R744, R748, R749). -/
def State.adopt (s : State) (rid : Nat) (c : Region) (ctx : Nat) : State :=
  { s with
    home.copies := Tab.erase s.home.copies rid
    home.regions := Tab.set s.home.regions rid { c with mirror := 0, mirrorDone := false, creator := ctx, policy := { place := .auto, lent := false } } }

/-- Step 2: every journalled shadow page of a region is lost (R194). -/
def State.loseShadows (s : State) (rid : Nat) : State :=
  (s.home.pages.filter (fun e => decide (e.2.rid = rid))).foldl (fun (s : State) e =>
    e.2.shadows.foldl (fun (s : State) w =>
      let s := s.dropShadow e.1 w.eid w.ctx
      { s with home.lost := s.home.lost ++ [(rid, e.2.pageNo, w.eid, w.ctx)] }) s) s

/-- Step 3: recall a coherent-mode region from every agent (R317 to R319). -/
def State.recallRegion (s : State) (rid : Nat) : State :=
  match s.region? rid with
  | none => s
  | some r =>
    if r.mode ≠ .coherent then s
    else
      let gone := s.fencedIdx
      let all := (s.rope.agents.map Prod.fst).filter (fun a => decide (a ∉ gone))
      let s := if gone.any (fun a => decide (a ∈ r.excl)) then s.poisonRecalled rid else s
      let s := { s with rope.recallDone := Tab.set s.rope.recallDone rid [] }
      if all = [] then { s with rope.recallDone := Tab.erase s.rope.recallDone rid }
      else all.foldl (fun (s : State) a => s.toAgent a 52 rid 0 0 []) { s with rope.recalls := Tab.set s.rope.recalls rid all }

/-- Step 4: the region is served unmirrored under its tier policy, charged to a context (R113, R748, R751, N13). -/
def State.settleAdopted (s : State) (rid ctx home : Nat) (p : Policy) : State :=
  let record (s : State) : State := s.error { ErrorNote.of 13 .ok (anyUnit s.freeCtr) with key := s.keyOf rid, ctx := ctx, eid := home }
  let s := s.mapRefs (fun ref q => if s.refIn rid ref then { q with charge := ctx } else q)
  let t := s.applyPolicy rid p
  let exceeds := decide (r121Limit < t.r121) && decide (s.r121 < t.r121)
  let s := if exceeds then record (s.applyPolicy rid { place := .auto, lent := p.lent }) else t
  record s

/-- TAKEOVER_WAIT_END (R748 to R751): the last lease has run out, and the takeover runs its steps. -/
def execTakeoverWaitEnd (id : Nat) (s : State) : Result :=
  whenUp s fun s =>
    match s.rel.takeovers.find? (fun t => decide (t.id = id) && !t.adopted) with
    | none => .next s
    | some t =>
      if s.now < t.waitEnd then .next s
      else
        let cs := s.home.copies.filter (fun e => decide (e.2.mirror = t.eid) && e.2.mirrorDone)
        let lost := s.home.copies.filter (fun e => decide (e.2.mirror = t.eid) && !e.2.mirrorDone)
        let s := { s with
          rel.takeovers := s.rel.takeovers.map (fun (x : Takeover) => if x.id = id then { x with adopted := true } else x)
          rel.adopted := if s.rel.adopted.contains t.eid then s.rel.adopted else s.rel.adopted ++ [t.eid] }
        let s := cs.foldl (fun (s : State) e => s.adopt e.1 e.2 t.ctx) s
        let s := lost.foldl (fun (s : State) e => { s with home.copies := Tab.erase s.home.copies e.1 }) s
        let s := cs.foldl (fun (s : State) e => s.loseShadows e.1) s
        let s := cs.foldl (fun (s : State) e => s.recallRegion e.1) s
        let s := cs.foldl (fun (s : State) e => s.settleAdopted e.1 t.ctx t.eid e.2.policy) s
        let s := s.opProgress id 4
        .next ((s.endOp id 1 .ok).release (fun w => decide (w = .takeover t.eid)))

/-! ### The journal (R753 to R757) -/

/-- The endpoint incarnation that issues a journal command: only LMF BCI requests carry one (R755). -/
def journalIssuer (r : BciReq) : Option LmfReq := match r.src with | .lmfBci q => some q | _ => none

/-- An ownership object of a region. -/
def State.object? (s : State) (rid name : Nat) : Option JObject := s.rel.objects.find? (fun o => decide (o.rid = rid) && decide (o.name = name))

/-- The region a journal command names, with a right on it (R62, R740, R755). -/
def State.onKey (s : State) (cmd : Instr) (r : BciReq) (i : Issuer) (need : Rights) (fail : State → Status → State) (body : Nat → Region → State → Result) : Result :=
  match s.live (s.reqHome r) (r.w 1) with
  | none => .next (fail s .key)
  | some (rid, rg) =>
    if !(rg.rightsOf i.eid i.ctx).covers need || !s.sealed rg i.eid then .next (fail s .key)
    else match s.gate rid rg with
      | some why => .next (s.holdBci cmd r i why (s.bciHoldEnd r))
      | none => body rid rg s

/-- A logged journal command (R755): what it makes of the object, or the status it fails with; the response is the ENTRY of its commit, which a repeated
command is answered with again (R250), while the log's value is zero (R256). -/
def journalStep (cmd : Instr) (r : BciReq) (lseq : Nat) (i : Issuer) (s : State) (f : State → Nat → Nat → Nat → Option JObject → Except Status (JObject × Bool)) : Result :=
  match journalIssuer r with
  | none => .next (s.respond r .notSupported [])
  | some q =>
    let fail (s : State) (st : Status) : State := s.respondLog r i lseq st [] 0
    s.once r i lseq 2 fun s =>
      s.onKey cmd r i needW fail fun rid _ s =>
        match f s rid q.srcEid q.srcInc (s.object? rid (r.d 2)) with
        | .error st => .next (fail s st)
        | .ok (o, gone) =>
          let s := s.putObject o gone
          let s := s.logPut (s.issuerLog r i) { lseq := lseq, tomb := false, st := .ok, value := 0, resp := s.rel.entry, time := s.now }
          .next (s.answerAfter rid 0 [] (some { s.noteOf i.eid i.ctx lseq .ok 0 with resp := s.rel.entry }) .ok (.bci r (two s.rel.entry)))

/-- JOURNAL_CLAIM (R754 to R756). -/
def execJournalClaim (r : BciReq) (s : State) : Result :=
  bciServe .journalClaim { BciRow.f 0x108 4 with minor := some 1 } r s fun r i s =>
    journalStep (.journalClaim r) r (r.w 4) i s fun s rid eid inc o =>
      if o.isSome then .error .state
      else if 262144 ≤ (s.rel.objects.filter (fun o => (s.region? o.rid).isSome)).length then .error .quota
      else .ok ({ rid := rid, name := r.d 2, st := .owned, eid := eid, inc := inc, toEid := 0, toInc := 0, entry := 0 }, false)

/-- JOURNAL_OFFER (R756). -/
def execJournalOffer (r : BciReq) (s : State) : Result :=
  bciServe .journalOffer { BciRow.f 0x109 6 with minor := some 1, resv := fun r => above r 4 18 } r s fun r i s =>
    journalStep (.journalOffer r) r (r.w 6) i s fun _ _ eid inc o =>
      match o with
      | none => .error .state
      | some o =>
        if o.st = .orphaned ∨ o.eid ≠ eid ∨ o.inc ≠ inc then .error .state
        else if r.w 4 = 0 then (if o.st = .offered then .ok ({ o with st := .owned, toEid := 0, toInc := 0 }, false) else .error .state)
        else .ok ({ o with st := .offered, toEid := r.w 4, toInc := r.w 5 }, false)

/-- JOURNAL_ACCEPT (R756). -/
def execJournalAccept (r : BciReq) (s : State) : Result :=
  bciServe .journalAccept { BciRow.f 0x10A 6 with minor := some 1 } r s fun r i s =>
    journalStep (.journalAccept r) r (r.w 6) i s fun _ _ eid inc o =>
      match o with
      | none => .error .state
      | some o =>
        if o.st ≠ .offered ∨ o.toEid ≠ eid ∨ o.toInc ≠ inc ∨ o.entry ≠ r.d 4 then .error .state
        else .ok ({ o with st := .owned, eid := eid, inc := inc, toEid := 0, toInc := 0 }, false)

/-- JOURNAL_RELEASE (R756). -/
def execJournalRelease (r : BciReq) (s : State) : Result :=
  bciServe .journalRelease { BciRow.f 0x10B 4 with minor := some 1 } r s fun r i s =>
    journalStep (.journalRelease r) r (r.w 4) i s fun _ _ eid inc o =>
      match o with
      | none => .error .state
      | some o => if o.st ≠ .owned ∨ o.eid ≠ eid ∨ o.inc ≠ inc then .error .state else .ok (o, true)

/-- JOURNAL_QUERY (R755, R757). -/
def execJournalQuery (r : BciReq) (s : State) : Result :=
  bciServe .journalQuery { BciRow.f 0x10C 3 with minor := some 1 } r s fun r i s =>
    s.onKey (.journalQuery r) r i needR (State.refuse r) fun rid _ s =>
      match s.object? rid (r.d 2) with
      | none => .next (s.respond r .ok ([0, 0, 0, 0, 0, 0, 0]))
      | some o =>
        .next (s.respond r .ok ([BitVec.ofNat 32 (match o.st with | .owned => 1 | .offered => 2 | .orphaned => 3), BitVec.ofNat 32 o.eid, BitVec.ofNat 32 o.inc,
          BitVec.ofNat 32 o.toEid, BitVec.ofNat 32 o.toInc] ++ two o.entry))

/-- JOURNAL_ASSIGN (R756). -/
def execJournalAssign (r : BciReq) (s : State) : Result :=
  bciServe .journalAssign { BciRow.o 0x10D 5 with minor := some 1, resv := fun r => above r 4 18 } r s fun r _ s =>
    s.named r (r.w 1) fun rid _ =>
      match s.object? rid (r.d 2) with
      | some o =>
        if o.st = .orphaned then
          let s := s.putObject { o with st := .owned, eid := r.w 4, inc := r.w 5, toEid := 0, toInc := 0 } false
          .next (s.answerAfter rid 0 [] none .ok (.bci r (two s.rel.entry)))
        else .next (s.respond r .state [])
      | none => .next (s.respond r .state [])

end Sys2Proof.Machine
end

