-- ==== Sys2Proof/Machine/Observe.lean ====
section
/-! DEFINITION. Counters, bandwidth windows, cairn rings, trace and partner history (21). -/

namespace Sys2Proof.Machine

/-- Is the caller privileged (R790): the owning host's physical function, a management session, or the fabric manager's? -/
def State.privileged (s : State) (r : BciReq) : Bool :=
  match r.src with
  | .fn p f => (match (s.fnWin p f).chan with | some c => (s.channel c).wasOwner | none => false)
  | .mgmt _ => true
  | .lmfBci q => s.fromManager q
  | .lmf _ => false

/-- A row of class P of this chapter. -/
def BciRow.p (op n : Nat) : BciRow := { BciRow.f op n with priv := true, minor := some 0 }

/-- A counter that has never counted (R794). -/
def EvCounter.fresh : EvCounter := { value := 0, wrap := false, edge := false, busy := false }
/-- A context counter that was never set (R798). -/
def CtxCounter.fresh : CtxCounter := { event := 0, en := false, ros := false, value := 0, wrap := false }

/-- The 8 bytes of a counter (R827). -/
def counterBytes (value : Nat) (wrap frozen : Bool) : Bytes := natLE 8 (value + 281474976710656 * b2n wrap + 562949953421312 * b2n frozen)

/-- A context's counters. -/
def State.ctxCtrs (s : State) (ctx : Nat) : Tab CtxCounter := match Tab.get? s.bci.contexts ctx with | some c => c.ctrs | none => []

/-- The context a request's counters belong to, where it has one (R828). -/
def State.counterCtx (s : State) (r : BciReq) (i : Issuer) : Option Nat :=
  match r.src with
  | .fn p f => s.boundCtx p f
  | .mgmt _ => none
  | _ => if i.eid = s.lmf.eid then some i.ctx else none

/-- Clear WRAP bits of a range of a table. -/
def clearWrap (t : Tab EvCounter) (first n : Nat) : Tab EvCounter := t.map (fun e => if first ≤ e.1 ∧ e.1 < first + n then (e.1, { e.2 with wrap := false }) else e)
/-- The same for context counters. -/
def clearWrapCtx (t : Tab CtxCounter) (first n : Nat) : Tab CtxCounter := t.map (fun e => if first ≤ e.1 ∧ e.1 < first + n then (e.1, { e.2 with wrap := false }) else e)

/-- CNT_READ (R790, R801, R802, R827, R828). -/
def execCntRead (r : BciReq) (s : State) : Result :=
  bciServe .cntRead { BciRow.f 0x120 6 with minor := some 0, resv := fun r => above r 1 3 || offResv r 5 } r s fun r i s =>
    let src := fld (r.w 1) 1 0
    let clear := bitAt (r.w 1) 2
    let first := r.w 2
    let n := r.w 3
    let resp := one s.obs.snap.seq ++ two s.obs.snap.time
    if src < 2 ∧ s.privileged r = false then .next (s.respond r .key [])
    else if n = 0 ∨ 4096 < n ∨ (if src < 2 then 4096 else 32) < first + n then .next (s.respond r .notSupported [])
    else if src < 2 then
      let t := if src = 0 then s.obs.events else s.obs.snap.events
      let data := (upto n).flatMap (fun k => let c := Tab.getD t (first + k) EvCounter.fresh; counterBytes c.value c.wrap s.obs.frozen)
      s.copyOut (.cntRead r) r i (r.w 4) (r.d 5) data resp (fun s =>
        if !clear then s
        else if src = 0 then { s with obs.events := clearWrap s.obs.events first n }
        else { s with obs.snap.events := clearWrap s.obs.snap.events first n })
    else match s.counterCtx r i with
      | none => .next (s.respond r .state [])
      | some c =>
        let t := if src = 2 then s.ctxCtrs c else Tab.getD s.obs.snap.ctxs c []
        let data := (upto n).flatMap (fun k => let c := Tab.getD t (first + k) CtxCounter.fresh; counterBytes c.value c.wrap s.obs.frozen)
        s.copyOut (.cntRead r) r i (r.w 4) (r.d 5) data resp (fun s =>
          if !clear then s
          else if src = 2 then { s with bci.contexts := Tab.modify s.bci.contexts c (fun x => { x with ctrs := clearWrapCtx x.ctrs first n }) }
          else { s with obs.snap.ctxs := Tab.modify s.obs.snap.ctxs c (fun x => clearWrapCtx x first n) })

/-- CNT_MODE (R794). -/
def execCntMode (r : BciReq) (s : State) : Result :=
  bciServe .cntMode { BciRow.p 0x121 2 with resv := fun r => above r 1 12 || above r 2 1 } r s fun r _ s =>
    let c := Tab.getD s.obs.events (r.w 1) EvCounter.fresh
    .next (State.respond { s with obs.events := Tab.set s.obs.events (r.w 1) { c with edge := decide (r.w 2 = 1) } } r .ok [])

/-- CNT_RESET (R790, R801, R828). -/
def execCntReset (r : BciReq) (s : State) : Result :=
  bciServe .cntReset { BciRow.f 0x122 3 with minor := some 0, resv := fun r => decide (r.w 1 ≠ 0 ∧ r.w 1 ≠ 2) } r s fun r i s =>
    let first := r.w 2
    let n := r.w 3
    if r.w 1 = 0 ∧ s.privileged r = false then .next (s.respond r .key [])
    else if (if r.w 1 = 0 then 4096 else 32) < first + n then .next (s.respond r .notSupported [])
    else if r.w 1 = 0 then
      .next (State.respond { s with obs.events := s.obs.events.map (fun (e : Nat × EvCounter) =>
        if first ≤ e.1 ∧ e.1 < first + n then (e.1, { e.2 with value := 0, wrap := false }) else e) } r .ok [])
    else match s.counterCtx r i with
      | none => .next (s.respond r .state [])
      | some c =>
        .next (State.respond { s with bci.contexts := Tab.modify s.bci.contexts c (fun x => { x with ctrs := x.ctrs.map (fun e =>
          if first ≤ e.1 ∧ e.1 < first + n then (e.1, { e.2 with value := 0, wrap := false }) else e) }) } r .ok [])

/-- A counter event of both dies' counter units: cairn entry and trace record (R811, R816, R817). -/
def State.counterEvent (s : State) (code : Nat) : State :=
  let s := (((s.cairn 0x6B 0x40 0 code).cairn 0x16B 0x40 0 code).event 0x6B 1 1 none).event 0x16B 1 1 none
  let body : List Word := [BitVec.ofNat 32 code, BitVec.ofNat 32 s.obs.snap.seq]
  (s.traceGen 0 6 1 s.now body).traceGen 1 6 1 s.now body

/-- CNT_SNAPSHOT (R803, R805). -/
def execCntSnapshot (r : BciReq) (s : State) : Result :=
  bciServe .cntSnapshot (BciRow.p 0x123 0) r s fun r _ s =>
    let b : SnapBank :=
      { seq := (s.obs.snap.seq + 1) % 4294967296, time := s.now, events := s.obs.events, ctxs := s.bci.contexts.map (fun e => (e.1, e.2.ctrs)) }
    .next ((State.counterEvent { s with obs.snap := b } 3).respond r .ok (one b.seq ++ two b.time))

/-- CNT_FREEZE (R804 to R806). -/
def execCntFreeze (r : BciReq) (s : State) : Result :=
  bciServe .cntFreeze { BciRow.p 0x124 1 with resv := fun r => decide (r.w 1 ≠ 0) } r s fun r _ s =>
    let s := { s with obs.frozeAt := if s.obs.frozen then s.obs.frozeAt else s.now + 1, obs.frozen := true }
    .next ((s.counterEvent 1).respond r .ok (two s.now))

/-- CNT_FREEZE with the unfreeze action (R804). -/
def execCntUnfreeze (r : BciReq) (s : State) : Result :=
  bciServe .cntUnfreeze { BciRow.p 0x124 1 with resv := fun r => decide (r.w 1 ≠ 1) } r s fun r _ s =>
    .next ((State.counterEvent { s with obs.frozen := false } 2).respond r .ok (two s.now))

/-- Is an event context-attributable (R796)? -/
def attributable (e : Nat) : Bool :=
  let o := e / 8 % 256
  let k := e % 8
  if o < 8 then decide (k < 7)
  else if o < 0x30 then decide (1 ≤ k ∧ k < 4)
  else if 0x46 ≤ o ∧ o ≤ 0x47 then decide (k ≠ 0 ∧ k ≠ 4 ∧ k ≠ 6)
  else if 0x48 ≤ o ∧ o ≤ 0x49 then decide (k ≠ 0)
  else false

/-- CNT_CTX_SET (R575, R797, R828): the counter keeps its value; a context that is not ACTIVE takes none (R575). -/
def execCntCtxSet (r : BciReq) (s : State) : Result :=
  bciServe .cntCtxSet { BciRow.f 0x125 2 with
      minor := some 0, resv := fun r => above r 1 5 || decide (fld (r.w 2) 15 14 ≠ 0 ∨ fld (r.w 2) 30 28 ≠ 0) || (!bitAt (r.w 2) 31 && decide (fld (r.w 2) 27 16 ≠ 0)) } r s fun r i s =>
    let names := bitAt (r.w 2) 31
    let ctx := if names then some (fld (r.w 2) 27 16) else s.counterCtx r i
    if names && !s.privileged r then .next (s.respond r .key [])
    else if attributable (fld (r.w 2) 11 0) = false then .next (s.respond r .notSupported [])
    else match ctx with
      | none => .next (s.respond r .state [])
      | some c =>
        if !s.ctxOk c then .next (s.respond r .state [])
        else
          .next (State.respond { s with bci.contexts := Tab.modify s.bci.contexts c (fun x => { x with
            ctrs := Tab.set x.ctrs (r.w 1) { Tab.getD x.ctrs (r.w 1) CtxCounter.fresh with
              event := fld (r.w 2) 11 0, ros := bitAt (r.w 2) 12, en := bitAt (r.w 2) 13 } }) } r .ok [])

/-! ### Bandwidth windows (R807 to R809) -/

/-- The 32 bytes of a window record (R809). -/
def BwRec.bytes (b : BwRec) : Bytes :=
  natLE 4 (b.port + 64 * b2n b.frozen + 128 * b2n b.part) ++ natLE 4 b.len ++ natLE 8 b.start ++ natLE 8 b.rx ++ natLE 8 b.tx

/-- BW_READ (R807, R827). -/
def execBwRead (r : BciReq) (s : State) : Result :=
  bciServe .bwRead { BciRow.p 0x126 5 with resv := fun r => offResv r 4 } r s fun r i s =>
    if r.w 2 = 0 ∨ 44 < r.w 2 ∨ 44 < r.w 1 + r.w 2 then .next (s.respond r .notSupported [])
    else
      let port (p : Nat) : Bytes := ((Tab.getD s.obs.windows p []).flatMap BwRec.bytes ++ List.replicate 128 0).take 128
      s.copyOut (.bwRead r) r i (r.w 3) (r.d 4) ((upto (r.w 2)).flatMap (fun k => port (r.w 1 + k))) [] id

/-- BW_WINDOW_END (R807, R808, R804): a port's window closes; a window that lies wholly behind a freeze leaves no record. -/
def execBwWindowEnd (bport rx tx : Nat) (partialDown : Bool) (s : State) : Result :=
  whenUp s fun s =>
    let (start, len) := Tab.getD s.obs.winStart bport (s.now / (s.obs.bwWin * 1000) * (s.obs.bwWin * 1000), s.obs.bwWin)
    let close := start + len * 1000
    if 44 ≤ bport then .next s
    else if s.now < close then .next { s with obs.winStart := Tab.set s.obs.winStart bport (start, len) }
    else
      let froze := decide (start < s.obs.frozeAt) && decide (s.obs.frozeAt ≤ close)
      let b : BwRec := { port := bport, frozen := froze, part := partialDown, len := len, start := start, rx := rx, tx := tx }
      let keep := !s.obs.frozen || froze
      let next := s.obs.bwPend.getD s.obs.bwWin
      let unit := next * 1000
      .next { s with
        obs.windows := if keep then Tab.set s.obs.windows bport ((b :: Tab.getD s.obs.windows bport []).take 4) else s.obs.windows
        obs.bwWin := next
        obs.bwPend := none
        obs.winStart := Tab.set s.obs.winStart bport ((close + unit - 1) / unit * unit, next) }

/-! ### Cairn rings (R810 to R814) -/

/-- The 16 bytes of a cairn entry (R810). -/
def Cairn.words (c : Cairn) : List Word := two c.time ++ [BitVec.ofNat 32 (c.code + 65536 * c.ctx), BitVec.ofNat 32 c.payload]

/-- CRN_READ (R812, R827). -/
def execCrnRead (r : BciReq) (s : State) : Result :=
  bciServe .crnRead { BciRow.p 0x127 4 with resv := fun r => above r 1 9 || offResv r 3 } r s fun r i s =>
    let es := Tab.getD s.obs.cairns (r.w 1) []
    s.copyOut (.crnRead r) r i (r.w 2) (r.d 3) ((es.flatMap (fun (c : Cairn) => bytesOf c.words) ++ List.replicate 1024 0).take 1024)
      (one (Tab.getD s.obs.writes (r.w 1) 0)) id

/-- Capture the selected cairn entry and the number of entries written (R814). -/
def State.crnCapture (s : State) (w : Word) : State :=
  let hw := fld w.toNat 8 0
  let ws : List Word := match (Tab.getD s.obs.cairns hw [])[fld w.toNat 14 9]? with | some c => Cairn.words c | none => [0, 0, 0, 0]
  { s with obs.crnSel := w.toNat % 32768, obs.crnWrites := Tab.getD s.obs.writes hw 0 % 65536, obs.crnData := ws }

/-- CRN_SEL_WRITE (R812, R814): served in every state in which the AON domain is powered. -/
def execCrnSelWrite (w : Word) (s : State) : Result := if s.pkg.aonUp = false then .next s else .next (s.crnCapture w)

/-! ### Trace and the partner history (R815 to R825, R684) -/

/-- Does a region take a trace ring (R820)? -/
def ringMode (m : Mode) : Bool := match m with | .publish => true | .priv => true | .coherent => false

/-- TRC_SET takes effect: records generated before go to the old destinations (R825). -/
def State.traceSet (s : State) (r : BciReq) (i : Issuer) (mask : Nat) : State :=
  let dest := fld (r.w 1) 1 0
  let s := s.traceFlush
  let t := s.obs.trace
  if dest = 0 then { s with obs.trace := { t with dest := 0 } }
  else
    let ring : Ring := { key := r.w 2, off := r.d 3, log2 := r.w 5 }
    let t := if bitAt dest 0 && decide (t.ring ≠ some ring) then { t with ring := some ring, prod := 0, cons := 0, loss := [] } else t
    let session : Option Nat := if bitAt dest 1 then (match r.src with | .mgmt m => some m | _ => none) else t.session
    { s with obs.trace := { t with dest := dest, types := r.w 6, mask := mask, eid := i.eid, ctx := i.ctx, session := session } }

/-- TRC_SET (R820, R825, R872). -/
def execTrcSet (r : BciReq) (s : State) : Result :=
  bciServe .trcSet { BciRow.p 0x128 9 with resv := fun r => above r 1 2 || offResv r 3 || decide (r.w 6 ≠ r.w 6 / 2 % 64 * 2) || offResv r 8 } r s fun r i s =>
    let dest := fld (r.w 1) 1 0
    if dest = 0 then .next ((s.traceSet r i 0).rsMgmt.respond r .ok [])
    else if bitAt dest 0 && (decide (r.w 5 < 12) || decide (24 < r.w 5)) then .next (s.respond r .notSupported [])
    else
      let ringBad : Option Status :=
        if bitAt dest 0 then
          match s.permit s.lmf.eid (r.w 2) (r.d 3) (32 * 2 ^ r.w 5) needW i with
          | none => some .key
          | some (_, rg) => if ringMode rg.mode then none else some .notSupported
        else none
      match ringBad with
      | some st => .next (s.respond r st [])
      | none =>
        s.onRegion (.trcSet r) r i (r.w 7) (r.d 8) 64 needR (State.refuse r) fun rid rg s =>
          match s.meetRead rid rg (.own i) (r.d 8) 64 with
          | .clear =>
            let mask := leNat (s.readRange rg (.own i) (r.d 8) 64)
            .next (((s.readDone false rid (.own i) (r.d 8) 64).traceSet r i mask).rsMgmt.respond r .ok [])
          | m => .next (s.bciStop (.trcSet r) r i 0 rid (r.d 8) m)

/-- The words of a partner record (R684). -/
def PartnerRec.words (p : PartnerRec) : List Word :=
  [BitVec.ofNat 32 p.seq, BitVec.ofNat 32 (p.event + 16 * p.kind + 256 * p.loc + 65536 * p.width + 262144 * p.ver), BitVec.ofNat 32 p.eid,
    BitVec.ofNat 32 p.inc] ++ two p.time ++ [0, 0]

/-- PARTNER_READ (R684, R826). -/
def execPartnerRead (r : BciReq) (s : State) : Result :=
  bciServe .partnerRead { BciRow.p 0x129 5 with resv := fun r => offResv r 4 } r s fun r i s =>
    if r.w 2 = 0 ∨ 1024 < r.w 2 then .next (s.respond r .notSupported [])
    else
      let (es, next, _) := fromSeq PartnerRec.seq s.lmf.history s.lmf.partnerSeq (r.w 1) (r.w 2)
      s.copyOut (.partnerRead r) r i (r.w 3) (r.d 4) (es.flatMap (fun e => bytesOf e.words)) [BitVec.ofNat 32 es.length, BitVec.ofNat 32 next] id

end Sys2Proof.Machine
end

