-- ==== Sys2Proof/Machine/Links.lean ====
section
/-! DEFINITION. LMF links, partners and transactions (17): bring-up, flits, JOIN and LEAVE, the controller's own completions and timeouts, and the management Ethernet. -/

namespace Sys2Proof.Machine

/-! ### Links (R646 to R651, R671, R672, R680) -/

/-- WIDTH of a partner record (R684). -/
def widthCode (lanes : Nat) : Nat := match lanes with | 2 => 1 | 4 => 2 | _ => 0

/-- A partner record of an LMF port (R684). -/
def State.linkRecord (s : State) (event n width ver eid inc : Nat) : State := s.partner event 1 n (widthCode width) ver eid inc

/-- The version of a link (R651): the higher one that both sides advertise; bit v of a mask stands for version v (UNVERIFIED, log 23). -/
def linkVersion (mask : Nat) : Option Nat := if bitAt mask 3 then some 3 else if bitAt mask 2 then some 2 else none

/-- A controller that has reached LOCKED and not joined opens a session with the fabric manager as requester (R780): the requests up to KEY_EXCHANGE go to
each manager that a link reaches. What the manager answers to those before KEY_EXCHANGE is no command (log 27); message codes are PRESUMED. -/
def State.openManager (s : State) : State :=
  if s.time.everLocked && !s.lmf.joined && !s.sec.fmSession then
    (s.lmf.ports.filter (fun e => decide (e.2.st = .up) && decide (e.2.role = 4))).foldl (fun (s : State) e =>
      [0x84, 0xE1, 0xE3, 0x82, 0xE4].foldl (fun (s : State) code => s.emit (.spdm (.fm e.2.eid) code [])) s) s
  else s

/-- LINK_ADV (R649 steps 4 to 7, R651): the version is chosen and the link comes up, or it stays down. -/
def execLinkAdv (lport eid inc verMask width role : Nat) (s : State) : Result :=
  whenUp s fun s =>
    let p := s.lport lport
    let trying : Bool := match p.st with | .down => true | .step _ => true | .up => false | .retry => false
    if !trying || decide (width ≠ 2 ∧ width ≠ 4) then .next s
    else
      let s := s.emit (.evt eid 1 [s.lmf.eid, s.lmf.inc, 12, width, 0])
      match linkVersion verMask with
      | none => .next ((s.setLport lport { p with st := .retry, retryAt := s.now + 1000000000 }).linkRecord 4 lport 0 0 eid inc)
      | some v =>
        .next (((s.setLport lport { st := .up, width := width, ver := v, eid := eid, inc := inc, role := role, replay := [], retryAt := 0, rxNext := 0 }).linkRecord
          1 lport width v eid inc).openManager)

/-- LINK_STEP_TIMEOUT (R649, R650): a bring-up step has missed its limit. -/
def execLinkStepTimeout (lport : Nat) (s : State) : Result :=
  whenUp s fun s =>
    let p := s.lport lport
    match p.st with
    | .up => .next s
    | .retry => .next s
    | _ => .next ((s.setLport lport { p with st := .retry, retryAt := s.now + 1000000000 }).linkRecord 3 lport 0 0 0 0)

/-- LINK_RETRY_TIMER (R650): 1 s after a failed attempt the port starts the next. -/
def execLinkRetryTimer (lport : Nat) (s : State) : Result :=
  whenUp s fun s =>
    let p := s.lport lport
    if p.st = .retry ∧ p.retryAt ≤ s.now then .next (s.setLport lport { p with st := .step 1 }) else .next s

/-- Is a port up that reaches an endpoint (R668)? -/
def State.reaches (s : State) (eid : Nat) : Bool := !(s.portsTo eid).isEmpty

/-- A link is down: the replay buffer is discarded, a record is written, the next attempt starts at once, and no incarnation changes; a lender
that no link reaches any longer has lost its extents (R133, R650, R672, R680). -/
def State.linkLost (s : State) (n : Nat) : State :=
  let p := s.lport n
  let s := { s with time.adv := Tab.erase s.time.adv n, time.asked := Tab.erase s.time.asked n }
  let s := (s.setLport n { p with st := .step 1, replay := [], retryAt := 0 }).linkRecord 2 n p.width p.ver p.eid p.inc
  ((s.strata.extents.map (fun e => e.2.eid)).dedup.filter (fun e => !s.reaches e)).foldl State.loseLender s

/-- LINK_DOWN (R650, R680). -/
def execLinkDown (lport : Nat) (s : State) : Result := whenUp s fun s => if (s.lport lport).st = .up then .next (s.linkLost lport) else .next s

/-- FLIT_ACK_TIMEOUT (R672). -/
def execFlitAckTimeout (lport : Nat) (s : State) : Result := whenUp s fun s => if (s.lport lport).st = .up then .next (s.linkLost lport) else .next s

/-- FLIT_REPLAY (R671): the far end reports a flit, and the port sends it again. -/
def execFlitReplay (lport seq : Nat) (s : State) : Result :=
  whenUp s fun s =>
    let p := s.lport lport
    if p.st ≠ .up then .next s
    else
      let s := s.setLport lport { p with replay := (seq :: p.replay.filter (fun x => decide (x ≠ seq))).take 4096 }
      .next ((s.event (lmfUnit lport) 2 1 none).emit (.flit lport 1 seq))

/-- FLIT_CRC_FAILURE (R671): an arriving flit is reported to the far end. -/
def execFlitCrcFailure (lport seq : Nat) (s : State) : Result :=
  whenUp s fun s =>
    let p := s.lport lport
    if p.st ≠ .up then .next s
    else .next (((s.setLport lport { p with rxNext := seq }).event (lmfUnit lport) 3 1 none).emit (.flit lport 0 seq))

/-! ### JOIN and LEAVE (R677 to R682) -/

/-- A fabric-manager message that does not count is discarded and counted (R682). -/
def State.dropEvt (s : State) (n : Nat) : State := State.event { s with lmf.evtDrop := s.lmf.evtDrop + 1 } (lmfUnit n) 7 1 none

/-- Does a message come from the fabric manager, inside its session (R682, R780)? -/
def State.fmSays (s : State) (fm : Nat) (sealed : Bool) : Bool :=
  sealed && s.sec.fmSession && s.sec.peers.any (fun e => decide (e.peer = .fm fm) && e.session)

/-- Does an endpoint of a role get a channel (R271, R592): an accelerator, a host, or the fabric manager (DESIGN CHOICE, log 23)? -/
def roleChannel (role : Nat) : Bool := decide (role = 1 ∨ role = 2 ∨ role = 4)

/-- Give an agent the lowest free shared channel (R592, R593). -/
def State.agentChannel (s : State) (eid : Nat) : State :=
  let n := lowestFree ((Tab.keys s.bci.channels).filter (fun k => decide (12 ≤ k))) 12
  if n < 1024 then s.setChannel n (Channel.fresh (.lmf eid)) else s

/-- Take an agent's channel back (R592). -/
def State.dropChannel (s : State) (eid : Nat) : State :=
  { s with bci.channels := s.bci.channels.filter (fun (e : Nat × Channel) => decide (e.2.owner ≠ .lmf eid)) }

/-- JOIN (R677 to R682, R708): the controller's own, or another endpoint's; an older incarnation ends as a fence ends it. -/
def execJoin (fm eid inc ver role lport : Nat) (sealed : Bool) (s : State) : Result :=
  whenUp s fun s =>
    if !s.fmSays fm sealed || (s.lmf.joined && decide (fm ≠ s.lmf.fmEid)) then .next (s.dropEvt lport)
    else
      let link := (s.lport lport).ver
      let v := if link = 0 then ver else min link ver
      if !s.lmf.joined then
        if !s.sec.joinAsked then .next (s.dropEvt lport)
        else
          let s := { s with
            lmf.eid := eid
            lmf.inc := inc
            lmf.joined := true
            lmf.fmEid := fm
            lmf.incs := Tab.set s.lmf.incs eid { inc := inc, ver := v, joined := true, fenced := none }
            sec.joinAsked := false }
          .next (s.partner 5 1 0 0 v eid inc)
      else
        let old := Tab.get? s.lmf.incs eid
        let stale : Bool := match old with | some e => decide (inc < e.inc) || (decide (inc = e.inc) && e.joined) | none => false
        if stale then .next s
        else
          let s := match old with
            | some e => if e.inc < inc then ((s.endIncarnation eid e.inc).dropChannel eid).partner 7 1 0 0 e.ver eid e.inc else s
            | none => s
          let fenced := match Tab.get? s.lmf.incs eid with | some e => e.fenced | none => none
          let s := { s with lmf.incs := Tab.set s.lmf.incs eid { inc := inc, ver := v, joined := true, fenced := fenced } }
          let s := if eid = s.lmf.eid then { s with lmf.inc := inc } else s
          let s := if roleChannel role && (s.channelOf (.lmf eid)).isNone then s.agentChannel eid else s
          .next ((s.partner 5 1 0 0 v eid inc).release (fun w => match w with | .newer e i => decide (e = eid) && decide (i ≤ inc) | _ => false))

/-- LEAVE (R677, R679, R787): the incarnation ends as a fence ends it, and the channel is taken back. -/
def execLeave (fm eid inc : Nat) (sealed : Bool) (s : State) : Result :=
  whenUp s fun s =>
    if !s.fmSays fm sealed || decide (fm ≠ s.lmf.fmEid) || !s.lmf.joined then .next (s.dropEvt 0)
    else match Tab.get? s.lmf.incs eid with
      | none => .next s
      | some e =>
        if inc < e.inc ∨ e.joined = false then .next s
        else if eid = s.lmf.eid then
          .next ((State.partner { s with lmf.joined := false, lmf.incs := Tab.set s.lmf.incs eid { e with joined := false } } 6 1 0 0 e.ver eid inc))
        else
          let s := (s.endIncarnation eid inc).dropChannel eid
          let s := { s with lmf.incs := Tab.modify s.lmf.incs eid (fun x => { x with joined := false }) }
          .next (s.partner 6 1 0 0 e.ver eid inc)

/-! ### The controller's own transactions (R667 to R675) -/

/-- Send a write that completed with ST_PAUSED, and so had no effect, once more (R95). -/
def State.resend (s : State) (x : Txn) : State := s.sendTxn x.what x.ctx x.eid x.op x.key x.off x.ckey x.data x.idem

/-- What the end of a transaction means to the work it serves. -/
def State.txnEnd (s : State) (x : Txn) (st : Status) (data : Bytes) : State :=
  match x.what with
  | .dma core t => s.dmaReply core t st data
  | .kernel _ cmd => s.slotReply cmd x st data
  | .belay core id => s.belayReply core id st data
  | .expertRow m => (match st with | .ok => s | .paused => s.resend x | st => s.resultFail m st)
  | .trailer m =>
    (match st with
     | .paused => s.resend x
     | st =>
       let s := if st = .ok then s else s.resultFail m st
       if s.txnLive (fun w => decide (w = .trailer m)) then s else s.dropMsg m)
  | .query id =>
    if st = .paused then s.resend x
    else if s.txnLive (fun w => decide (w = .query id)) then s
    else s.queryDrop id
  | .walk id shard =>
    if st = .ok then s
    else
      (match execShardWalkEnd id shard st { hits := [], evals := 0, skips := 0 } s with
       | .next s => s
       | _ => s)
  | .batchRow id =>
    if st = .paused then s.resend x
    else
      let s := if st = .ok then s else s.batchOutFail id st
      (match s.batch? id with
       | some b =>
         if b.blockSent && !s.txnLive (fun w => decide (w = .batchRow id)) then s.batchDrop id
         else if b.final.isSome then s.batchBlock id else s
       | none => s)
  | .tlRead _ ext => if st = .ok then s.settleExtent ext else (s.loseExtent ext).settleExtent ext
  | .tlWrite p _ => if st = .ok then s else s.modPage p TierPage.dropTl
  | .append id =>
    (match s.trav.updates.find? (fun u => decide (u.id = id)) with
     | none => s
     | some u =>
       match st with
       | .ok =>
         (match s.shard? u.index u.shard with
          | some h => if u.appended then s else s.appendOver u h
          | none => s)
       | .paused => s.resend x
       | st => s.updateFail u st)
  | .register id shard => if st = .paused then s.resend x else s.registered id shard st
  | .fold index shard => if st = .paused then s.resend x else s.foldReply index shard st
  | .bciSend _ => s
  | .mirror _ => s

/-- LMF_COMPLETION (R300, R666, R667, R673): a NACK begins a backoff; one with an old GEN is discarded and counted; one whose seal fails ends the access with ST_KEY, and a TL
read whose seal fails gives its copy up (R177). -/
def execLmfCompletion (tag gen : Nat) (st : Status) (data : Bytes) (sealOk : Bool) (s : State) : Result :=
  whenUp s fun s =>
    let e := Tab.getD s.lmf.tags tag { gen := 0, live := none }
    let port := Config.unitOf s.freeCtr % 32
    let s := s.event (lmfUnit port) 0 (32 + data.length) none
    match (if e.gen = gen then e.live else none) with
    | none => .next (State.event { s with lmf.lateCpl := s.lmf.lateCpl + 1 } (lmfUnit port) 6 1 none)
    | some x =>
      let s := State.tagFreed { s with lmf.tags := Tab.set s.lmf.tags tag { e with live := none } }
      if sealOk then .next (if st = .nack then (s.backOff x s.freeVal).freed else (s.txnEnd x st data).settle)
      else
        let s := State.event { s with lmf.sealFail := s.lmf.sealFail + 1 } (lmfUnit port) 7 1 none
        match x.what with
        | .tlRead p ext => .next ((s.modPage p TierPage.dropTl).settleExtent ext)
        | .tlWrite p _ => .next (s.modPage p TierPage.dropTl)
        | _ => .next (s.txnEnd x .key []).settle

/-- TRANSACTION_TIMEOUT (R504, R673 to R675): GEN advances; what is safe to repeat is sent once more and then completes with ST_PAUSED, the
rest with ST_OUTCOME_UNKNOWN. -/
def execTransactionTimeout (tag : Nat) (s : State) : Result :=
  whenUp s fun s =>
    match Tab.get? s.lmf.tags tag with
    | none => .next s
    | some e =>
      match e.live with
      | none => .next s
      | some x =>
        if s.now < x.limit then .next s
        else
          let s := State.tagFreed { s with lmf.tags := Tab.set s.lmf.tags tag { gen := (e.gen + 1) % 128, live := none } }
          if x.idem = false then .next (s.txnEnd x .outcomeUnknown []).settle
          else if x.tries = 0 then .next (s.issueTxn { x with tries := 1 })
          else .next (s.txnEnd x .paused []).settle

/-! ### Management Ethernet (R687) -/

/-- MGMT_FRAME (R687): a frame of a service is served by the rows of that service; every other is discarded and counted. -/
def execMgmtFrame (mport : Nat) (svc : MgmtService) (s : State) : Result :=
  whenUp s fun s =>
    match svc with
    | .management => .next s
    | .telemetry => .next s
    | .ptp => .next s
    | .other => .next (State.event { s with lmf.frameDrop := s.lmf.frameDrop + 1 } (mport % 2 * 256 + 0x62) 7 1 none)

end Sys2Proof.Machine
end

