-- ==== Sys2Proof/Machine/Domains.lean ====
section
/-! DEFINITION. Power domains, bivouac, capping and stretched clocks (18). -/

namespace Sys2Proof.Machine

/-! ### Sleep and wake (R688 to R694) -/

/-- Has a domain work, as far as the state shows (R690)? -/
def State.domainBusy (s : State) (d : Domain) : Bool :=
  let moving := s.allPages.any (fun e => e.2.move.isSome)
  match d with
  | .aon => true
  | .core n => decide ((s.core n).st ≠ .idle) || s.coreBatch n
  | .talus _ => moving
  | .trv _ => decide (s.trav.queries ≠ []) || decide (s.trav.updates ≠ []) || s.trav.shards.any (fun h => h.2.merge.isSome)
  | .mor n => s.mor.batches.any (fun b => decide (b.running = some n))
  | .mem _ => moving || decide (s.home.memops ≠ []) || decide (s.home.held ≠ [])
  | .fab _ => s.lmf.tags.any (fun e => e.2.live.isSome) || decide (s.home.held ≠ [])
  | .bc _ => decide (s.bci.phase ≠ .steady) || s.bci.channels.any (fun e => e.2.busy.isSome) || s.host.fns.any (fun e => e.2.full || decide (e.2.head ≠ e.2.tail))

/-- An engine domain: CORE, TALUS, TRV or MOR (R690). -/
def engineDomain : Domain → Bool
  | .core _ => true
  | .talus _ => true
  | .trv _ => true
  | .mor _ => true
  | _ => false

/-- GATE_AFTER and OFF_AFTER in µs (PWR_IDLE): 2^n µs, and 2^n ms. -/
def Power.gateUs (p : Power) : Nat := 2 ^ p.gateAfter
/-- OFF_AFTER in µs. -/
def Power.offUs (p : Power) : Nat := 2 ^ p.offAfter * 1000

/-- GATE_TIMEOUT (R462, R690, R691): a domain without work for GATE_AFTER begins to enter GATED; not an engine domain whose OFF_AFTER is
shorter. -/
def execGateTimeout (d : Domain) (s : State) : Result :=
  whenUp s fun s =>
    let e := s.domain d
    if e.st ≠ .on ∨ s.domainBusy d = true ∨ s.expert.ssd.isSome = true then .next s
    else if engineDomain d && s.pow.offEn && decide (s.pow.offUs < s.pow.gateUs) then .next s
    else .next (s.setDomain { e with st := .entering false })

/-- May a domain's power go: ON without work, or GATED? -/
def State.mayOff (s : State) (d : Domain) : Bool :=
  match (s.domain d).st with
  | .on => !s.domainBusy d
  | .gated => true
  | _ => false

/-- OFF_TIMEOUT (R462, R690): an engine domain without work for OFF_AFTER begins to enter OFF. -/
def execOffTimeout (d : Domain) (s : State) : Result :=
  whenUp s fun s =>
    if engineDomain d && s.pow.offEn && s.mayOff d && s.expert.ssd.isNone then .next (s.setDomain { s.domain d with st := .entering true })
    else .next s

/-- A core whose domain wakes (R374). -/
def State.coreWaking (s : State) (d : Domain) : State :=
  match d with
  | .core n =>
    let c := s.core n
    if (s.domain d).st = .waking ∧ (c.st = .gated ∨ c.st = .off) then s.setCore n { c with st := .waking } else s
  | _ => s

/-- DOMAIN_WAKE (R692, R693): a wake event; one for MEM, FAB or BC ends bivouac (R698). -/
def execDomainWake (d : Domain) (s : State) : Result :=
  whenUp s fun s =>
    let s := if d ∈ bivouacDomains then s.stir else s
    .next ((s.wakeDomain d).coreWaking d)

/-- A woken core goes on with the kernel it was dispatched, or with a suspended one of its own, or is IDLE (R374). -/
def State.coreWoken (s : State) (d : Domain) : State :=
  match d with
  | .core n =>
    let c := s.core n
    if c.st ≠ .waking then s
    else if c.kernel.isSome || s.coreBatch n then s.setCore n { c with st := .preparing }
    else (s.setCore n { c with st := .idle }).restoreNext n
  | _ => s

/-- DOMAIN_ON (R598, R693, R718): a waking domain accepts work again; the active basecamp set takes the words that waited for it. -/
def execDomainOn (d : Domain) (s : State) : Result :=
  whenUp s fun s =>
    let t := if (s.domain d).st = .waking then (s.domainUp d).coreWoken d else s
    .next (if d = .bc (b2n s.bci.westActive) ∧ s.bci.phase ≠ .switching then t.takeWords else t)

/-- STRETCH_EPISODE_END (R717, R718): an episode of 1 µs or more is recorded as a gap, a shorter one is only counted. -/
def execStretchEpisodeEnd (hw start stop : Nat) (s : State) : Result :=
  whenUp s fun s =>
    if start + 1000 ≤ stop then .next (s.clockGap hw 3 start stop)
    else .next { s with pow.stretches := s.pow.stretches + 1 }

/-! ### Bivouac (R696 to R698) -/

/-- Is the package quiet (R696)? Its time, BIVOUAC_AFTER, is the event's own. -/
def State.quiet (s : State) : Bool :=
  s.pow.bivEn && s.pow.doms.all (fun e => !engineDomain e.dom || decide (e.st = .off))
    && !s.bci.ops.any (fun o => decide (o.st = 0)) && !s.rel.rebuilds.any (fun r => r.running)
    && !s.lmf.tags.any (fun e => e.2.live.isSome) && !s.rope.lines.any (fun e => match e.2.st with | .fwdWait => true | .invWait => true | .evictWait => true | _ => false)
    && decide (s.home.faults = []) && s.expert.ssd.isNone && decide (s.home.held = []) && decide (s.resume = [])
    && !s.bci.channels.any (fun e => e.2.busy.isSome) && decide (s.bci.phase = .steady)

/-- BIVOUAC_ENTRY (R691, R696, R697): MEM, FAB and BC are powered off. -/
def execBivouacEntry (s : State) : Result :=
  whenUp s fun s =>
    if !s.quiet || s.pow.bivouac then .next s
    else
      let down (d : DomEntry) : DomEntry :=
        if d.dom ∈ bivouacDomains then { d with st := .off, stop := if d.cause = 0 then s.now else d.stop, cause := 4 } else d
      .next { s with pow.bivouac := true, pow.doms := s.pow.doms.map down }

/-- BIVOUAC_EXIT (R698, R822). -/
def execBivouacExit (s : State) : Result := whenUp s fun s => .next s.stir

/-! ### Capping (R699 to R704, R852) -/

/-- CAP × 25 W within its range (R699). -/
def capInRange (n : Nat) : Nat := min 52 (max 12 n)

/-- The steps a stage has (R701; stages 4 and 5: DESIGN CHOICE, log 24): 1.6 GHz to 0.8 GHz in steps of 100 MHz, tenths of a window up to
90%, and one reduced rate. -/
def stageSteps (n : Nat) : Nat := if n ≤ 3 then 8 else if n = 4 then 9 else 1

/-- The order of the stages (R701); with single-stream decode mode in force, that of R704. -/
def stageOrder (ssd : Bool) : List Nat := if ssd then [5, 2, 1, 3, 4] else [1, 2, 3, 4, 5]

/-- Apply one more step: in the first stage that has one left. -/
def stepDown (order : List Nat) (t : Tab Nat) : Tab Nat :=
  match order.find? (fun n => decide (Tab.getD t n 0 < stageSteps n)) with
  | some n => Tab.set t n (Tab.getD t n 0 + 1)
  | none => t

/-- Reverse one step: in the last stage that has one applied. -/
def stepUp (order : List Nat) (t : Tab Nat) : Tab Nat :=
  match order.reverse.find? (fun n => decide (0 < Tab.getD t n 0)) with
  | some n => Tab.set t n (Tab.getD t n 0 - 1)
  | none => t

/-- POWER_WINDOW (R700 to R704, R851 to R853): the mean of the window that ends is held against the cap that was in force, one step is applied
or reversed for the cap and one for temperature, and a written cap is applied. -/
def execPowerWindow (meanW : Nat) (tjE tjW : Int) (s : State) : Result :=
  whenUp s fun s =>
    let order := stageOrder s.expert.ssd.isSome
    let cap := s.pow.capApplied * 25
    let tj := max tjE tjW
    .next { s with
      pow.steps := if cap < meanW then stepDown order s.pow.steps else if meanW + 25 < cap then stepUp order s.pow.steps else s.pow.steps
      pow.heatSteps := if 100 ≤ tj then stepDown [1, 2, 3] s.pow.heatSteps else if tj < 97 then stepUp [1, 2, 3] s.pow.heatSteps else s.pow.heatSteps
      pow.power := meanW
      pow.capApplied := capInRange (s.pow.capPend.getD s.pow.capApplied)
      pow.capPend := none
      pkg.tjE := tjE
      pkg.tjW := tjW
      pkg.tjPeak := max s.pkg.tjPeak tj }

/-- The clock step of a stage: the lower of the two frequencies (R703). -/
def Power.clockStep (p : Power) (n : Nat) : Nat := max (Tab.getD p.steps n 0) (Tab.getD p.heatSteps n 0)

end Sys2Proof.Machine
end

