-- ==== Sys2Proof/Machine/Mailbox.lean ====
section
/-! DEFINITION. Mailboxes, doorbells, the compute queue and the registers (15), with the registers of the management space (18, 20, 21, 23). -/

namespace Sys2Proof.Machine

/-! ### GO and the message registers (R596 to R599) -/

/-- The command a request over a function's channel spells (R553, R568, 02 to 21): its row by OPCODE, and by ACTION where two rows share
one. -/
def bciInstr (r : BciReq) : Option Instr :=
  match r.opcode with
  | 0x029 => some (if bitAt (r.w 2) 0 then .faultResolveAbort r else .faultResolve r)
  | 0x104 => some (if r.w 2 = 1 then .quarantineRelease r else .quarantine r)
  | 0x124 => some (if r.w 1 = 1 then .cntUnfreeze r else .cntFreeze r)
  | 0x001 => some (.hello r)
  | 0x002 => some (.opStatus r)
  | 0x003 => some (.configSet r)
  | 0x004 => some (.configGet r)
  | 0x005 => some (.noticeRingSet r)
  | 0x010 => some (.ctxCreate r)
  | 0x011 => some (.ctxSet r)
  | 0x012 => some (.ctxReset r)
  | 0x013 => some (.ctxDestroy r)
  | 0x020 => some (.create r)
  | 0x021 => some (.destroy r)
  | 0x022 => some (.regionSet r)
  | 0x023 => some (.grant r)
  | 0x024 => some (.revoke r)
  | 0x025 => some (.map r)
  | 0x026 => some (.unmap r)
  | 0x027 => some (.convert r)
  | 0x028 => some (.faultRingSet r)
  | 0x030 => some (.tierSet r)
  | 0x031 => some (.tierDrain r)
  | 0x032 => some (.tierDrainCancel r)
  | 0x040 => some (.publish r)
  | 0x041 => some (.publishIf r)
  | 0x042 => some (.discard r)
  | 0x043 => some (.versionQuery r)
  | 0x044 => some (.versionPin r)
  | 0x045 => some (.versionUnpin r)
  | 0x046 => some (.readAt r)
  | 0x048 => some (.counterAlloc r)
  | 0x049 => some (.counterFree r)
  | 0x04A => some (.counterReset r)
  | 0x04B => some (.counterRead r)
  | 0x04C => some (.waitCount r)
  | 0x050 => some (.atomic r)
  | 0x051 => some (.atomicStatus r)
  | 0x052 => some (.memop r)
  | 0x053 => some (.clearPoison r)
  | 0x060 => some (.ropeSet r)
  | 0x061 => some (.ropeAgentAdd r)
  | 0x062 => some (.ropeAgentRemove r)
  | 0x063 => some (.fence r)
  | 0x070 => some (.expertSet r)
  | 0x071 => some (.expertClear r)
  | 0x072 => some (.laneAdd r)
  | 0x073 => some (.laneRemove r)
  | 0x074 => some (.expertPolicySet r)
  | 0x075 => some (.ssdEnter r)
  | 0x076 => some (.ssdExit r)
  | 0x080 => some (.indexCreate r)
  | 0x081 => some (.indexDestroy r)
  | 0x082 => some (.trvQuery r)
  | 0x083 => some (.trvInsert r)
  | 0x084 => some (.trvDelete r)
  | 0x085 => some (.trvMerge r)
  | 0x086 => some (.trvMergeCancel r)
  | 0x090 => some (.embTableCreate r)
  | 0x091 => some (.embTableDestroy r)
  | 0x092 => some (.morBatch r)
  | 0x093 => some (.embSwap r)
  | 0x0A0 => some (.fwStage r)
  | 0x0A1 => some (.fwActivate r)
  | 0x0A2 => some (.fwInfo r)
  | 0x100 => some (.errlogRead r)
  | 0x101 => some (.healthRead r)
  | 0x102 => some (.relSet r)
  | 0x103 => some (.relGet r)
  | 0x105 => some (.spareSet r)
  | 0x106 => some (.rebuildStart r)
  | 0x107 => some (.takeover r)
  | 0x108 => some (.journalClaim r)
  | 0x109 => some (.journalOffer r)
  | 0x10A => some (.journalAccept r)
  | 0x10B => some (.journalRelease r)
  | 0x10C => some (.journalQuery r)
  | 0x10D => some (.journalAssign r)
  | 0x120 => some (.cntRead r)
  | 0x121 => some (.cntMode r)
  | 0x122 => some (.cntReset r)
  | 0x123 => some (.cntSnapshot r)
  | 0x125 => some (.cntCtxSet r)
  | 0x126 => some (.bwRead r)
  | 0x127 => some (.crnRead r)
  | 0x128 => some (.trcSet r)
  | 0x129 => some (.partnerRead r)
  | _ => none

/-- Answer a request whose opcode the catalogue does not list (R556, R558, R562). -/
def State.unknownOp (s : State) (c : Nat) (r : BciReq) : State :=
  let ch := s.channel c
  match r.src with
  | .fn p f =>
    if ch.lastSeq = some r.seq ∧ ch.lastOp = r.opcode then (s.setChannel c { ch with busy := none, handed := false }).respondFn p f ch.lastResp
    else s.respond r (if ch.session.isNone then .state else .notSupported) []
  | _ => s

/-- A write of 1 to GO (R594, R596 to R598). -/
def State.goWrite (s : State) (p f : Nat) : State :=
  let w := s.fnWin p f
  if !s.fnEnabled p f || w.go then s
  else match w.chan with
    | none => (s.setFnWin p f { w with nochan := true }).vector p f 4
    | some c =>
      let r : BciReq := { src := .fn p f, words := (upto 16).map (fun n => Tab.getD w.msg n 0) }
      let s := (s.setFnWin p f { w with go := true }).setChannel c { s.channel c with busy := some r.words, handed := true, wasOwner := s.isOwnerFn p f }
      let s := s.wakeBasecamp
      match bciInstr r with
      | some i => { s with resume := s.resume ++ [{ cmd := i, since := none }] }
      | none => s.unknownOp c r

/-- GO (R594, R596 to R598): the command's arrival. Firmware takes it when the queue of arriving commands is empty. -/
def execGo (port fn : Nat) (s : State) : Result := whenUp s fun s => .next (s.goWrite port fn)

/-- A write to a message register (R597). -/
def State.msgWrite (s : State) (p f n : Nat) (x : Word) : State :=
  let w := s.fnWin p f
  if !s.fnEnabled p f || decide (16 ≤ n) then s
  else if w.go then (s.setFnWin p f { w with msgLost := true }).vector p f 4
  else s.setFnWin p f { w with msg := Tab.set w.msg n x }

/-- MBX_MSG_WRITE (R597). -/
def execMbxMsgWrite (port fn n : Nat) (w : Word) (s : State) : Result := whenUp s fun s => .next (s.msgWrite port fn n w)

/-! ### The fast doorbell (R600 to R603) -/

/-- A write to DBL_FAST (R598, R600, R601): captured, or discarded while a word waits; firmware takes it at once unless the active set must first wake or
a switchover runs (R549). -/
def State.doorbell (s : State) (p f : Nat) (x : Word) : State :=
  let w := s.fnWin p f
  if !s.fnEnabled p f then s
  else if w.full then (s.setFnWin p f { w with overrun := true }).vector p f 4
  else
    let s := (s.setFnWin p f { w with full := true, dbl := x &&& 0xFFFFFF0F, dblOwner := s.isOwnerFn p f }).wakeBasecamp
    if s.bci.phase = .switching ∨ (s.domain (.bc (b2n s.bci.westActive))).st ≠ .on then s else s.takeWord p f

/-- WAKE (R600 to R603): a doorbell write; the word acts by its KIND. -/
def execWake (port fn : Nat) (w : Word) (s : State) : Result := whenUp s fun s => .next (s.doorbell port fn w)

/-- CQ_TAIL (R30, R600 to R603, R610, R613): a doorbell write; the word acts by its KIND. -/
def execCqTail (port fn : Nat) (w : Word) (s : State) : Result := whenUp s fun s => .next (s.doorbell port fn w)

/-! ### The compute queue (R606 to R613) -/

/-- A write to EN is buffered; one that finds PENDING set replaces it (R8, R608). -/
def State.enWrite (s : State) (p : Nat) (on : Bool) : State := s.setFnWin p 0 { s.fnWin p 0 with enPend := some on }

/-- CQ_ENABLE (R608). -/
def execCqEnable (port : Nat) (s : State) : Result := whenUp s fun s => .next (s.enWrite port true)

/-- CQ_DISABLE (R612). -/
def execCqDisable (port : Nat) (s : State) : Result := whenUp s fun s => .next (s.enWrite port false)

/-- The context a physical function's queue reads its entries under (R611). -/
def State.queueIssuer (s : State) (p : Nat) : Option Issuer := (s.boundCtx p 0).map (fun c => { eid := s.lmf.eid, ctx := c, admin := false })

/-- What the latched ring registers fail of R609; a function without a bound context reaches no region (DEDUCED, log 25). -/
def State.ringStatus (s : State) (p : Nat) (w : Window) : Status :=
  if w.lLog2 < 6 ∨ 16 < w.lLog2 then .notSupported
  else match s.queueIssuer p with
    | none => .key
    | some i => if (s.permit s.lmf.eid w.lKey w.lOff (16 * 2 ^ w.lLog2) needR i).isSome then .ok else .key

/-- CQ_EN_APPLY (R9, R608, R609, R612): at the boundary the buffered value is applied. -/
def execCqEnApply (port : Nat) (s : State) : Result :=
  whenUp s fun s =>
    let w := s.fnWin port 0
    match w.enPend with
    | none => .next s
    | some on =>
      if w.head ≠ w.tail then .next s
      else if !on then .next (s.setFnWin port 0 { w with en := false, enPend := none })
      else if w.en then .next (s.setFnWin port 0 { w with enPend := none })
      else
        let w := { w with
          enPend := none, lKey := w.cqKey, lOff := w.cqHi % 1048576 * 4294967296 + w.cqLo, lLog2 := w.cqSize % 32, head := 0, tail := 0 }
        match s.ringStatus port w with
        | .ok => .next ((s.setFnWin port 0 { w with en := true }).rsFn port 0)
        | st =>
          .next (((s.setFnWin port 0 { w with errMore := w.errMore || decide (w.errStatus ≠ 0), errStatus := st.code, errIndex := 0 }).rsFn port 0).vector port 0 4)

/-- An entry has been taken: HEAD passes it (R611). -/
def State.headPast (s : State) (p : Nat) : State :=
  let w := s.fnWin p 0
  (s.setFnWin p 0 { w with head := (w.head + 1) % 16777216 }).rsFn p 0

/-- Are the fields of a kernel descriptor in their ranges (R369, R370)? -/
def kernelOk (ws : List Word) : Bool :=
  decide (fld (wAt ws 0) 7 0 = 1) && decide (fld (wAt ws 0) 31 11 = 0) && decide (wAt ws 1 < 4096) && decide (dAt ws 3 < 2 ^ 52) && decide (dAt ws 3 % 128 = 0)
    && decide (wAt ws 5 % 128 = 0) && decide (128 ≤ wAt ws 5 ∧ wAt ws 5 ≤ 16777216) && decide (wAt ws 6 % 128 = 0) && decide (wAt ws 6 < wAt ws 5)
    && decide (1 ≤ fld (wAt ws 7) 10 0 ∧ fld (wAt ws 7) 10 0 ≤ 1024) && decide (fld (wAt ws 7) 15 11 = 0) && decide (dAt ws 27 < 2 ^ 52)
    && decide (dAt ws 27 % 32 = 0) && decide (dAt ws 30 = 0)

/-- What stops a kernel descriptor when it is queued (R370, R575). -/
def State.kernelCheck (s : State) (ws : List Word) : Option Status :=
  let ctx := kernelCtx ws
  let i : Issuer := { eid := s.lmf.eid, ctx := ctx, admin := false }
  let pin := wAt ws 29
  if !kernelOk ws then some .notSupported
  else if !s.ctxOk ctx then some .state
  else if (s.permit s.lmf.eid (wAt ws 2) (dAt ws 3) (wAt ws 5) needR i).isNone || (s.permit s.lmf.eid (wAt ws 26) (dAt ws 27) 32 needW i).isNone then some .key
  else if decide (pin ≠ 0) && !(match Tab.get? s.home.pins pin with | some q => decide (q.eid = s.lmf.eid ∧ q.ctx = ctx) | none => false) then some .key
  else none

/-- Queue a kernel descriptor (R79, R82, R370, R577); one that fails its checks is completed in its completion record, where that may be
written. -/
def State.kernelAccept (s : State) (p : Nat) (ws : List Word) : State :=
  let id := s.nextId
  let k : KernelQ := { id := id, words := ws, port := some p, pages := [] }
  let i : Issuer := { eid := s.lmf.eid, ctx := kernelCtx ws, admin := false }
  match s.kernelCheck ws with
  | some st =>
    if (s.permit s.lmf.eid (wAt ws 26) (dAt ws 27) 32 needW i).isSome && decide (dAt ws 27 % 32 = 0) then
      State.kernelFinish { s with nextId := id + 1 } { k.run with st := st } 0
    else s.lostRecord (wAt ws 26) (dAt ws 27) (kernelCtx ws)
  | none =>
    let (s, caps) := s.capture id (s.kernelRanges ws)
    let k := { k with pages := caps }
    let s := State.codeFault { s with nextId := id + 1, kernels := s.kernels ++ [k] } k
    if dAt ws 24 = 0 then s else s.addDeadline id (dAt ws 24) (bitAt (wAt ws 0) 9) 2 (dAt ws 27 % 4294967296) i

/-- Queue a query of the compute queue; a rejected one reports in its result block (R479, R489). -/
def State.queryTake (s : State) (ws : List Word) : State :=
  let i : Issuer := { eid := s.lmf.eid, ctx := fld (wAt ws 1) 11 0, admin := false }
  let res : Except Status State := if queryOk ws && !s.ctxOk i.ctx then .error .state else s.queryAccept ws i
  match res with
  | .ok s => s
  | .error st =>
    let id := s.nextId
    let q : Query :=
      { id := id, words := ws, eid := i.eid, ctx := i.ctx, started := false, epoch := 0, startTime := 0, startNo := 0, vec := [], beam := [], left := [],
        back := [], widened := false, hits := [], evals := 0, fails := 0, skips := 0, filtered := 0, tries := [], final := none, sent := false, pages := [] }
    State.queryEnd { s with nextId := id + 1, trav.queries := s.trav.queries ++ [q] } id st

/-- Queue a batch of the compute queue; a rejected one reports in its completion block, and a rejected scatter is logged (R249, R515, R523, R534). -/
def State.batchTake (s : State) (ws : List Word) : State :=
  let i : Issuer := { eid := s.lmf.eid, ctx := fld (wAt ws 5) 11 0, admin := false }
  let log := s.logKey s.lmf.eid i.eid i.ctx
  let res : Except (State × Status × Bool) State := if batchOk ws && !s.ctxOk i.ctx then .error (s, .state, mbScatter ws) else s.batchAccept ws i log
  match res with
  | .ok s => s
  | .error (s, st, logIt) =>
    let id := s.nextId
    let table := match Tab.get? s.mor.tables (mbTable ws) with | some t => t.words | none => []
    let (s, caps) := s.capture id (s.outRange ws (etDim table) i).toList
    let b : Batch :=
      { id := id, words := ws, eid := i.eid, ctx := i.ctx, log := log, running := none, start := 0, table := table, tgen := 0, pages := caps, final := some st,
        counts := [0, 0, 0, 0], blockSent := false }
    let s := { s with nextId := id + 1, mor.batches := s.mor.batches ++ [b] }
    if logIt then s.batchFinish id st [0, 0, 0, 0] else s.batchBlock id

/-- Read bytes that firmware needs for an entry (R611, R872): what they are, or the state in which the entry is held or rejected. -/
def State.queueRead (s : State) (p : Nat) (i : Issuer) (key off n : Nat) : Except State (State × List Word) :=
  let cmd := Instr.cqEntryTake p
  match s.permit s.lmf.eid key off n needR i with
  | none => .error (s.cqReject p .key)
  | some (rid, rg) =>
    match s.gate rid rg with
    | some why => .error (s.holdCmd cmd why s.holdEndPlain i.eid i.ctx)
    | none =>
      match s.meetRead rid rg (.own i) off n with
      | .clear => .ok (s.readDone false rid (.own i) off n, wordsOf (s.readRange rg (.own i) off n))
      | m =>
        match s.holdOn { cmd := cmd, i := i, access := 0, runTime := true, hw := 511, limit := s.holdEndPlain, needRoom := true } rid off m with
        | (s, some st) => .error (s.cqReject p st)
        | (s, none) => .error s

/-- CQ_ENTRY_TAKE (R606, R607, R610, R611, R613, R872): firmware reads the entry at HEAD and its descriptor, and queues it. -/
def execCqEntryTake (port : Nat) (s : State) : Result :=
  whenUp s fun s =>
    let w := s.fnWin port 0
    if w.head = w.tail ∨ s.bci.phase = .switching ∨ s.home.held.any (fun h => decide (h.cmd = .cqEntryTake port)) = true then .next s
    else
      match s.queueIssuer port with
      | none => .next (s.cqReject port .key)
      | some i =>
        if !s.ctxOk i.ctx then .next (s.cqReject port .state)
        else match s.queueRead port i w.lKey (w.lOff + 16 * (w.head % 2 ^ w.lLog2)) 16 with
          | .error s => .next s
          | .ok (s, e) =>
            let typ := fld (wAt e 0) 3 0
            if wAt e 0 ≠ typ ∨ typ = 0 ∨ 3 < typ ∨ 2 ^ 52 ≤ dAt e 2 ∨ dAt e 2 % 128 ≠ 0 then .next (s.cqReject port .notSupported)
            else match s.queueRead port i (wAt e 1) (dAt e 2) 128 with
              | .error s => .next s
              | .ok (s, ws) =>
                let s := s.headPast port
                .next (match typ with | 1 => s.kernelAccept port ws | 2 => s.queryTake ws | _ => s.batchTake ws)

/-! ### Registers (R3, R5 to R10, R590, R605, R614 to R619, R624) -/

/-- A word from fields: pairs of a value and its lowest bit. -/
def word (fs : List (Nat × Nat)) : Word := BitVec.ofNat 32 ((fs.map (fun f => f.1 * 2 ^ f.2)).sum)

/-- The notice ring a function shows: that of its bound context (R617). -/
def State.fnRing (s : State) (p f : Nat) : Option (Nat × NoticeRing) :=
  match s.boundCtx p f with
  | none => none
  | some c =>
    let k := issuerKey s.lmf.eid c
    match Tab.get? s.bci.rings k with
    | some g => if g.ring.isSome then some (k, g) else none
    | none => none

/-- The registers of a function's window (R590). A misaligned access, an error of the host's (R591), reads 0, as does an offset that no table lists
(DESIGN CHOICE, log 25). -/
def State.fnReg (s : State) (p f off : Nat) : Word :=
  let w := s.fnWin p f
  let pf (x : Word) : Word := if f = 0 then x else 0
  let entry := Tab.getD w.vecs ((off - 0xE000) / 16) MsixEntry.reset
  if off % 4 ≠ 0 then 0
  else if off < 0x40 then Tab.getD w.msg (off / 4) 0
  else if 0xE000 ≤ off ∧ off < 0xE080 then
    (match off / 4 % 4 with | 0 => entry.addrLo | 1 => entry.addrHi | 2 => entry.data | _ => word [(b2n entry.masked, 0)])
  else match off with
    | 0x040 => word [(b2n w.go, 0), (b2n w.chan.isSome, 1), (w.chan.getD 0, 2)]
    | 0x044 => word [(b2n w.msgLost, 0), (b2n w.nochan, 1)]
    | 0x080 => w.dbl
    | 0x084 => word [(b2n w.full, 0), (b2n w.overrun, 1), (b2n w.reject, 2), (w.lastStatus, 16)]
    | 0x100 => word [(p, 0), (f, 2)]
    | 0x104 =>
      let open_ := match w.chan with | some c => (s.channel c).session.isSome | none => false
      word [((s.boundCtx p f).getD 0, 0), (b2n (s.boundCtx p f).isSome, 12), (b2n (s.isOwnerFn p f), 13), (b2n open_, 14), (w.seq, 24)]
    | 0x200 => pf (word [(b2n (w.enPend.getD w.en), 0), (b2n w.enPend.isSome, 1)])
    | 0x204 => pf (word [(w.cqKey, 0)])
    | 0x208 => pf (word [(w.cqLo, 0)])
    | 0x20C => pf (word [(w.cqHi, 0)])
    | 0x210 => pf (word [(w.cqSize, 0)])
    | 0x214 => pf (word [(w.head, 0), (w.seq, 24)])
    | 0x218 => pf (word [(w.tail, 0), (w.seq, 24)])
    | 0x21C => pf (word [(w.errStatus, 0), (w.errIndex, 16), (b2n w.errMore, 31)])
    | 0x300 => pf (word [(w.faultProd, 0), (w.seq, 24)])
    | 0x304 => pf (word [(w.faultCons, 0)])
    | 0x310 => word [(match s.fnRing p f with | some (_, g) => g.prod | none => 0, 0), (w.seq, 24)]
    | 0x314 => word [(match s.fnRing p f with | some (_, g) => g.cons | none => 0, 0)]
    | 0xF000 => word [(w.pba, 0)]
    | _ => 0

/-- A decoder of a port. -/
def State.decoder (s : State) (p n : Nat) : Decoder := Tab.getD (s.hport p).decs n Decoder.reset

/-- Replace a decoder. -/
def State.setDecoder (s : State) (p n : Nat) (d : Decoder) : State :=
  let h := s.hport p
  s.setHport p { h with decs := Tab.set h.decs n d }

/-- The binding registers of a port's decoders in BAR2 (R624). -/
def State.bindReg (s : State) (p off : Nat) : Word :=
  let d := s.decoder p ((off - 0x2000) / 16)
  if off % 4 ≠ 0 ∨ off < 0x2000 ∨ 0x2200 ≤ off then 0
  else match off / 4 % 4 with
    | 0 => word [(d.keyReg, 0)]
    | 1 => word [(d.devLo, 0)]
    | 2 => word [(d.devHi, 0)]
    | _ => word [(d.fnReg, 0), (b2n d.win.isSome, 8), (d.status, 16)]

/-- The code of a time state (TIME_STATUS). -/
def TimeState.code : TimeState → Nat
  | .unsync => 0
  | .locking => 1
  | .locked => 2
  | .holdover => 3

/-- The registers of the management space (18, 20, 21, 23). -/
def State.mgmtReg (s : State) (off : Nat) : Word :=
  let p := s.pow
  let step (n : Nat) : Nat := p.clockStep n
  let signed (t : Int) : Nat := (BitVec.ofInt 8 t).toNat
  match off with
  | 0x400 => word [(p.cap, 0), (b2n p.capPend.isSome, 31)]
  | 0x404 => word [(p.gateAfter, 0), (p.offAfter, 4), (b2n p.offEn, 8), (b2n p.bivEn, 9), (p.bivAfter, 10)]
  | 0x408 =>
    word [(p.capApplied, 0), (b2n (p.steps.any (fun e => decide (0 < e.2))), 6), (b2n (p.heatSteps.any (fun e => decide (0 < e.2))), 7), (b2n p.bivouac, 8),
      (step 1, 9), (step 2, 13), (step 3, 17), (b2n (decide (0 < Tab.getD p.steps 4 0)), 21), (b2n (decide (0 < Tab.getD p.steps 5 0)), 22),
      (min 511 (p.power / 4), 23)]
  | 0x40C => word [(s.pkg.railPg, 0), (s.pkg.faultRail, 8), (s.pkg.faultKind, 12), (s.pkg.faultDie, 14)]
  | 0x410 => word [(signed s.pkg.tjE, 0), (signed s.pkg.tjW, 8), (signed s.pkg.tjPeak, 16)]
  | 0x480 => word [(s.time.source, 0), (s.time.ptpPort, 2), (s.time.ptpDomain, 3)]
  | 0x484 => word [(s.time.st.code, 0), (b2n s.time.stepped, 2), (min 8191 (s.errNow / 16), 3), ((BitVec.ofInt 16 s.time.rate).toNat, 16)]
  | 0x500 =>
    let slot := match Tab.get? s.bci.slots s.bci.runSlot with | some x => x.keySlot | none => 0
    word [(if s.sec.debug then 2 else 1, 0), (b2n s.sec.bootFail, 2), (s.bci.runSlot, 3), (s.sec.svnMin, 4), (s.sec.revoked, 10), (slot, 14), (b2n s.sec.fmSession, 16)]
  | 0x600 => word [(s.obs.bwPend.getD s.obs.bwWin, 0), (b2n s.obs.bwPend.isSome, 31)]
  | 0x604 => word [(b2n s.obs.frozen, 0), (s.obs.snap.seq % 65536, 16)]
  | 0x610 => word [(s.obs.trace.prod, 0), (s.obs.mgmtSeq, 24)]
  | 0x614 => word [(s.obs.trace.cons, 0)]
  | 0x618 => word [(s.obs.trace.drops, 0)]
  | 0x620 => word [(s.obs.crnSel, 0), (s.obs.crnWrites, 16)]
  | 0x624 => s.obs.crnData.getD 0 0
  | 0x628 => s.obs.crnData.getD 1 0
  | 0x62C => s.obs.crnData.getD 2 0
  | 0x630 => s.obs.crnData.getD 3 0
  | _ => 0

/-- The value a read of a register returns. -/
def State.readReg (s : State) (sp : RegSpace) (off : Nat) : Word :=
  match sp with
  | .fn p f => s.fnReg p f off
  | .bar2 p => s.bindReg p off
  | .mgmt => s.mgmtReg off

/-- What a read leaves of a register's RC fields: nothing but an event of the same cycle (R5, R6). -/
def State.clearRead (s : State) (sp : RegSpace) (off : Nat) (ev : Word) : State :=
  let e := ev.toNat
  match sp with
  | .bar2 _ => s
  | .fn p f =>
    let w := s.fnWin p f
    (match off with
     | 0x044 => s.setFnWin p f { w with msgLost := bitAt e 0, nochan := bitAt e 1 }
     | 0x084 => s.setFnWin p f { w with overrun := bitAt e 1, reject := bitAt e 2 }
     | 0x21C => if f = 0 then s.setFnWin p f { w with errStatus := fld e 15 0, errIndex := fld e 30 16, errMore := bitAt e 31 } else s
     | _ => s)
  | .mgmt =>
    (match off with
     | 0x40C => { s with pkg.faultRail := fld e 11 8, pkg.faultKind := fld e 13 12, pkg.faultDie := fld e 14 14 }
     | 0x410 => { s with pkg.tjPeak := max s.pkg.tjE s.pkg.tjW }
     | 0x484 => { s with time.stepped := bitAt e 2 }
     | 0x618 => { s with obs.trace := { s.obs.trace with drops := e } }
     | _ => s)

/-- Does a register space answer: a function's window while the package runs and the function is there, the management space from the
release of PKG_RST_N on, in every state including fail-stop (R812, R860)? -/
def State.spaceUp (s : State) (sp : RegSpace) : Bool :=
  match sp with
  | .fn p f => s.runs && s.fnEnabled p f
  | .bar2 _ => s.runs
  | .mgmt => s.pkg.aonUp && s.pkg.sideband

/-- READ_CLEAR (R5, R6, R861): a read of a register; the fields of type RC are cleared. -/
def execReadClear (sp : RegSpace) (off : Nat) (newEvent : Word) (s : State) : Result :=
  if s.spaceUp sp then .next ((s.clearRead sp off newEvent).emit (.regData (s.readReg sp off))) else .next s

/-- Write a word of an MSI-X entry (R619): an address is a multiple of 4 and the control word has its mask bit only; a pending message of an
entry that is unmasked goes out. -/
def State.vecWrite (s : State) (p f off : Nat) (x : Word) : State :=
  let w := s.fnWin p f
  let n := (off - 0xE000) / 16
  let e := Tab.getD w.vecs n MsixEntry.reset
  let e' : MsixEntry := match off / 4 % 4 with
    | 0 => { e with addrLo := x &&& 0xFFFFFFFC }
    | 1 => { e with addrHi := x }
    | 2 => { e with data := x }
    | _ => { e with masked := bitAt x.toNat 0 }
  let w := { w with vecs := Tab.set w.vecs n e' }
  if !e'.masked && bitAt w.pba n then (s.setFnWin p f { w with pba := w.pba - 2 ^ n }).vector p f n else s.setFnWin p f w

/-- A write to a register of a function's window (R5, R590, R616, R617); a misaligned one (R591) and one at an offset that no table lists change nothing
(DESIGN CHOICE, log 25). -/
def State.fnWrite (s : State) (p f off : Nat) (x : Word) : State :=
  let w := s.fnWin p f
  let v := x.toNat
  if off % 4 ≠ 0 then s
  else if off < 0x40 then s.msgWrite p f (off / 4) x
  else if 0xE000 ≤ off ∧ off < 0xE080 then s.vecWrite p f off x
  else match off with
    | 0x040 => if bitAt v 0 then s.goWrite p f else s
    | 0x080 => s.doorbell p f x
    | 0x314 =>
      (match s.fnRing p f with
       | some (k, g) => { s with bci.rings := Tab.set s.bci.rings k { g with cons := v % 16777216 } }
       | none => s)
    | _ =>
      if f ≠ 0 then s
      else match off with
        | 0x200 => s.enWrite p (bitAt v 0)
        | 0x204 => s.setFnWin p f { w with cqKey := v }
        | 0x208 => s.setFnWin p f { w with cqLo := v / 4096 * 4096 }
        | 0x20C => s.setFnWin p f { w with cqHi := v % 1048576 }
        | 0x210 => s.setFnWin p f { w with cqSize := v % 32 }
        | 0x304 => (s.setFnWin p f { w with faultCons := v % 16777216 }).faultFlush
        | _ => s

/-- A write to a binding register: without effect while the decoder is committed (R625). -/
def State.bindWrite (s : State) (p off v : Nat) : State :=
  let n := (off - 0x2000) / 16
  let d := s.decoder p n
  if off % 4 ≠ 0 ∨ off < 0x2000 ∨ 0x2200 ≤ off ∨ d.committed = true then s
  else match off / 4 % 4 with
    | 0 => s.setDecoder p n { d with keyReg := v }
    | 1 => s.setDecoder p n { d with devLo := v / 268435456 * 268435456 }
    | 2 => s.setDecoder p n { d with devHi := v % 1048576 }
    | _ => s.setDecoder p n { d with fnReg := v % 256 }

/-- A write to a management register (R5, R8, R699, R814). -/
def State.mgmtWrite (s : State) (off : Nat) (x : Word) : State :=
  let v := x.toNat
  match off with
  | 0x400 => { s with pow.cap := v % 64, pow.capPend := some (v % 64) }
  | 0x404 =>
    { s with
      pow.gateAfter := fld v 3 0, pow.offAfter := fld v 7 4, pow.offEn := bitAt v 8, pow.bivEn := bitAt v 9, pow.bivAfter := fld v 13 10 }
  | 0x480 => { s with time.source := fld v 1 0, time.ptpPort := fld v 2 2, time.ptpDomain := fld v 9 3 }
  | 0x600 => { s with obs.bwPend := some (fld v 19 0) }
  | 0x614 => { s with obs.trace := { s.obs.trace with cons := v % 16777216 } }
  | 0x620 => s.crnCapture x
  | _ => s

/-- A write to a register. -/
def State.writeReg (s : State) (sp : RegSpace) (off : Nat) (x : Word) : State :=
  match sp with
  | .fn p f => s.fnWrite p f off x
  | .bar2 p => s.bindWrite p off x.toNat
  | .mgmt => s.mgmtWrite off x

/-- REGISTER_WRITE (R3, R5, R8, R10). -/
def execRegisterWrite (sp : RegSpace) (off : Nat) (w : Word) (s : State) : Result := if s.spaceUp sp then .next (s.writeReg sp off w) else .next s

end Sys2Proof.Machine
end

