-- ==== Sys2Proof/Machine/Hosts.lean ====
section
/-! DEFINITION. Host ports, functions, host windows and the owning host (16), and the drives and DIMMs as the board shows them (03, 23). -/

namespace Sys2Proof.Machine

/-! ### Reset of a function (R620, R638 to R642) -/

/-- Is a waiting command one of a function's channel commands? -/
def ofFn (p f : Nat) (c : Instr) : Bool := match bciOf c with | some r => decide (r.src = .fn p f) | none => false

/-- Discard the entry that a physical function's compute queue was taking (R639). -/
def State.entryLost (s : State) (p : Nat) : State :=
  let mine (c : Instr) : Bool := decide (c = .cqEntryTake p)
  let s := if s.home.held.any (fun h => mine h.cmd) then s.forsake (.cqEntryTake p) else s
  { s with
    home.held := s.home.held.filter (fun (h : Held) => !mine h.cmd)
    resume := s.resume.filter (fun (a : Again) => !mine a.cmd) }

/-- A function's register window after a reset (R620). -/
def Window.cleared (w : Window) : Window :=
  { w with
    msg := []
    go := false
    msgLost := false
    nochan := false
    overrun := false
    reject := false
    full := false
    errStatus := 0
    errIndex := 0
    errMore := false
    en := false
    enPend := none
    head := 0
    tail := 0
    vecs := []
    pba := 0 }

/-- The part of a reset that ends a function's channel command and its session, and sends its bound context through RESETTING (R96, R639): a
command that waits ends with ST_FUNCTION_RESET, of which its channel, free by then, shows nothing (R620). -/
def State.fnEnd (s : State) (p f : Nat) : State :=
  let s := match (s.fnWin p f).chan with
    | some c => s.setChannel c { s.channel c with session := none, lastSeq := none, busy := none, handed := false, wasOwner := false }
    | none => s
  let s := if f = 0 then s.entryLost p else s
  let s := s.endHolds (fun h => ofFn p f h.cmd) .functionReset
  let s := (s.endAgains (fun a => ofFn p f a.cmd) .functionReset).retireFaults
  match s.boundCtx p f with
  | some c => s.ctxLeave c false
  | none => s

/-- A reset of a function (R620, R639, R640): its window, its channel's command and session, and its bound context. -/
def State.fnReset (s : State) (p f : Nat) : State :=
  let s := s.fnEnd p f
  (s.setFnWin p f (s.fnWin p f).cleared).rsFn p f

/-- Clearing VF Enable (R627, R638, R592): every VF is reset and disabled, its windows are unbound and its channel is taken back. -/
def State.vfsOff (s : State) (p : Nat) : State :=
  let n := (s.hport p).vfs
  let s := ((upto n).map (fun k => k + 1)).foldl (fun (s : State) f => s.fnReset p f) s
  let s := s.unbind (fun port w => decide (port = p) && decide (w.fn ≠ 0))
  let s :=
    { s with
      bci.channels := s.bci.channels.filter (fun (e : Nat × Channel) => match e.2.owner with | .fn q f => !(decide (q = p) && decide (f ≠ 0)) | _ => true)
      host.fns := s.host.fns.filter (fun (e : Nat × Window) => !(decide (e.1 / 256 = p) && decide (e.1 % 256 ≠ 0))) }
  let h := s.hport p
  s.setHport p { h with vfs := 0 }

/-- A conventional reset of a port (R627, R638): the PF and every VF, and every window. Decoders are no longer committed (PRESUMED, CXL, log 26). -/
def State.portReset (s : State) (p : Nat) : State :=
  let s := (s.vfsOff p).fnReset p 0
  let s := s.unbind (fun port _ => decide (port = p))
  let h := s.hport p
  s.setHport p { h with decs := h.decs.map (fun (e : Nat × Decoder) => (e.1, { e.2 with committed := false, errNC := false, status := 0 })) }

/-- FLR (R638 to R642): of a VF, or of the PF, which also clears VF Enable. -/
def execFlr (port fn : Nat) (s : State) : Result :=
  whenUp s fun s =>
    if !s.fnEnabled port fn then .next s
    else if fn = 0 then .next ((s.vfsOff port).fnReset port 0)
    else .next (s.fnReset port fn)

/-- A VF that has just been enabled: its window, and the lowest free shared channel (R592 to R594, R633). -/
def State.vfOn (s : State) (p f : Nat) : State :=
  let n := lowestFree ((Tab.keys s.bci.channels).filter (fun k => decide (12 ≤ k))) 12
  if n < 1024 then (s.setFnWin p f (Window.reset (some n))).setChannel n (Channel.fresh (.fn p f))
  else s.setFnWin p f (Window.reset none)

/-- VF_ENABLE (R592 to R594, R633): VF Enable is set with a number of VFs; no context is bound. -/
def execVfEnable (port count : Nat) (s : State) : Result :=
  whenUp s fun s =>
    let h := s.hport port
    if !h.up || decide (h.vfs ≠ 0) || decide (count = 0) then .next s
    else .next (((upto count).map (fun k => k + 1)).foldl (fun (s : State) f => s.vfOn port f) (s.setHport port { h with vfs := count }))

/-- VF_DISABLE (R627, R638): VF Enable is cleared. -/
def execVfDisable (port : Nat) (s : State) : Result :=
  whenUp s fun s => if (s.hport port).vfs = 0 then .next s else .next (s.vfsOff port)

/-! ### Host links (R643 to R645, R848, R850) -/

/-- The loss of a host link (R643): a conventional reset of the port and a partner record. -/
def State.hostLost (s : State) (p : Nat) : State :=
  let h := s.hport p
  if !h.up then s
  else
    let s := (s.partner 0xB 2 p 0 0 0 h.inc).portReset p
    let h' := s.hport p
    s.setHport p { h' with up := false }

/-- HOST_LINK_LOSS (R643, R645). -/
def execHostLinkLoss (port : Nat) (s : State) : Result := whenUp s fun s => .next (s.hostLost port)

/-- HOST_LINK_UP (R644): a new incarnation number; windows start unbound and VFs disabled, as the loss has left them. -/
def execHostLinkUp (port : Nat) (pcie : Bool) (s : State) : Result :=
  whenUp s fun s =>
    let h := s.hport port
    if h.up then .next s
    else
      let n := h.inc + 1
      let s := (s.partner 0xA 2 port 0 0 0 n).vfsOff port
      let s := s.unbind (fun q _ => decide (q = port))
      let h := s.hport port
      .next (s.setHport port { h with up := true, pcie := pcie, inc := n, refclk := true })

/-- HPT_PERST (R638, R848). -/
def execHptPerst (port : Nat) (s : State) : Result := whenUp s fun s => .next (s.portReset port)

/-- HPT_REFCLK_LOSS (R643, R850): only this port's link goes down. -/
def execHptRefclkLoss (port : Nat) (s : State) : Result :=
  whenUp s fun s =>
    let s := s.hostLost port
    let h := s.hport port
    .next (s.setHport port { h with refclk := false })

/-! ### Host windows (R45 to R47, R621 to R627) -/

/-- Does a region's table hold an entry of the fault kind (R47)? -/
def Region.faultEntry (r : Region) : Bool :=
  r.entries.any (fun e => decide (e.2 = .fault)) || (r.absent0 && (upto (r.size / 65536)).any (fun k => !Tab.has r.entries (r.base / 65536 + k)))

/-- The granularity of a host window (R46). -/
def windowUnit : Nat := 268435456

/-- What a commit fails of R626, or the window it binds. A base or size that is no multiple of 256 MiB, and a size of 0, count with the first
row (DESIGN CHOICE, log 26). -/
def State.hdmCheck (s : State) (port dec hpa size ways : Nat) : Except Status HostWindow :=
  let d := s.decoder port dec
  let dev := d.devHi * 4294967296 + d.devLo
  let clash := (s.hport port).decs.any (fun e =>
    decide (e.1 ≠ dec) && e.2.committed && decide (hpa < e.2.hpa + e.2.size) && decide (e.2.hpa < hpa + size))
  if ways ≠ 0 ∨ hpa % windowUnit ≠ 0 ∨ size % windowUnit ≠ 0 ∨ size = 0 ∨ clash = true then .error .notSupported
  else if !s.fnEnabled port d.fnReg then .error .state
  else match s.boundCtx port d.fnReg with
    | none => .error .state
    | some c =>
      if s.ctxIs c .destroying then .error .state
      else match s.live s.lmf.eid d.keyReg with
        | none => .error .key
        | some (rid, rg) =>
          if !rg.inside dev size then .error .key
          else if decide (rg.mode = .coherent) || rg.faultEntry then .error .notSupported
          else .ok { key := d.keyReg, rid := rid, dev := dev, ctx := c, fn := d.fnReg }

/-- HDM_COMMIT (R625, R626): the window is bound, or the commit is refused. -/
def execHdmCommit (port dec hpaBase size ways : Nat) (s : State) : Result :=
  whenUp s fun s =>
    let d := s.decoder port dec
    let h := s.hport port
    if !h.up || h.pcie || d.committed then .next s
    else match s.hdmCheck port dec hpaBase size ways with
      | .error st => .next (s.setDecoder port dec { d with errNC := true, status := st.code, win := none })
      | .ok w =>
        .next (s.setDecoder port dec { d with
          committed := true, errNC := false, status := Status.ok.code, hpa := hpaBase, size := size, ways := ways, win := some w })

/-- HDM_UNCOMMIT (R627): the window is unbound; accesses the port had accepted complete under the old binding. -/
def execHdmUncommit (port dec : Nat) (s : State) : Result :=
  whenUp s fun s =>
    let d := s.decoder port dec
    if !d.committed then .next s
    else
      let s := match d.win with
        | some w =>
          let h := s.hport port
          s.setHport port { h with unbound := { at' := s.now, dec := dec, hpa := d.hpa, size := d.size, win := w } :: h.unbound }
        | none => s
      .next (s.setDecoder port dec { d with committed := false, win := none })

/-! ### The CXL memory device mailbox and DOE (R621, R623) -/

/-- The opcodes of the CXL memory device mailbox that R621 supports: Identify Memory Device, Get Supported Logs, Get Log, Get Event Records,
Clear Event Records (PRESUMED, CXL 3.1, log 26). -/
def cxlOpcodes : List Nat := [0x4000, 0x0400, 0x0401, 0x0100, 0x0101]

/-- MEMORY_DEVICE_MAILBOX (R621): a command is executed, or returns Unsupported. -/
def execMemoryDeviceMailbox (port opcode : Nat) (payload : Bytes) (s : State) : Result :=
  whenUp s fun s =>
    if opcode ∈ cxlOpcodes then .next (s.emit (.doe port [0, opcode] (Config.cxlMailbox opcode payload)))
    else .next (s.emit (.doe port [0x15, opcode] []))

/-- The CDAT entries of a port (R623): for each committed decoder its number, its range, the latency in ns and the bandwidth in GB/s. -/
def State.cdat (s : State) (port : Nat) : List Nat :=
  ((s.hport port).decs.filter (fun e => e.2.committed)).flatMap (fun e =>
    [e.1, (match e.2.win with | some w => w.dev | none => e.2.devHi * 4294967296 + e.2.devLo), e.2.size, 650, 128])

/-- DOE_REQUEST (R621, R623): Discovery names the four object protocols, CDAT the entries; another protocol has no answer. -/
def execDoeRequest (port kind : Nat) (s : State) : Result :=
  whenUp s fun s =>
    match kind with
    | 0 => .next (s.emit (.doe port [0, 0, 1, 2, 3] []))
    | 1 => .next (s.emit (.doe port (1 :: s.cdat port) []))
    | _ => .next s

/-! ### The owning host (R29 to R34, R89, R613, R615, R634 to R637) -/

/-- May the role move to a port (R634)? -/
def State.ownerOk (s : State) (port : Nat) : Bool :=
  let h := s.hport port
  decide (port < 4) && h.up && (!h.pcie || (match (s.fnWin port 0).chan with | some c => (s.channel c).session.isSome | none => false))

/-- The move of the role (R635): OWNER, the fault ring, and a notice to each PF's bound context. -/
def State.moveOwner (s : State) (port : Nat) : State :=
  let old := s.host.owner
  let s :=
    { s with
      host.owner := port
      host.ownerFenced := false
      home.faults := s.home.faults.map (fun (f : FaultRec) => { f with written := false }) }
  let s := if port = old then s else (s.rsFn old 0).rsFn port 0
  let s := s.faultFlush
  (upto 4).foldl (fun (s : State) p => match s.boundCtx p 0 with | some c => s.notice s.lmf.eid c 3 false .ok 8 port 0 | none => s) s

/-- OWNER_SET (R31, R634 to R637, R682): from the fabric manager of the controller's join inside its session; any other copy is counted. -/
def execOwnerSet (fm port : Nat) (sealed : Bool) (s : State) : Result :=
  whenUp s fun s =>
    if !s.fmSays fm sealed || decide (fm ≠ s.lmf.fmEid) || !s.lmf.joined then .next (s.dropEvt 0)
    else if !s.ownerOk port then .next (s.emit (.evt fm 4 [port, Status.state.code]))
    else .next ((s.moveOwner port).emit (.evt fm 4 [port, Status.ok.code]))

/-! ### Drives and DIMMs (R101 to R103, R724, R728, R848) -/

/-- Is DRV_PERST_N low: until the drives' reference clock has run for 100 µs (R848)? -/
def State.drvPerst (s : State) : Bool := decide (s.now < s.pkg.bootAt + 100000)

/-- DRIVE_PRESENCE_CHANGE (R724, R848): an insertion, or a removal, which fails a drive in use and is recorded as a partner that left. -/
def execDrivePresenceChange (slot : Nat) (present : Bool) (s : State) : Result :=
  whenUp s fun s =>
    if present then
      if s.strata.present.contains slot || decide (12 ≤ slot) then .next s
      else .next { s with strata.present := slot :: s.strata.present }
    else if !s.strata.present.contains slot then .next s
    else
      let was := (s.drive slot).admitted
      let inc := (s.drive slot).inc
      let s := { s with strata.present := s.strata.present.filter (fun n => decide (n ≠ slot)) }
      let s := if s.partUp .drive slot then s.declareFailed .drive slot else s
      .next (if was then s.partner 9 3 slot 0 0 0 inc else s)

/-- Issue an admin command to a drive (R104), on queue 0. -/
def State.nvmeAdmin (s : State) (slot : Nat) (op : NvmeOp) (a b : Nat) : State := s.emit (.nvme slot 0 op a b)

/-- The raw capacity of T2, and the most of it: 768 TB (R97). -/
def State.rawT2 (s : State) (slot : Nat) : Nat := ((s.strata.drives.filter (fun e => e.2.admitted && decide (e.1 ≠ slot))).map (fun e => e.2.capacity)).sum
/-- 768 TB (decimal). -/
def rawLimit : Nat := 768000000000000

/-- Set a drive up for use (R103 to R105): its namespace takes the format of R103, the features that count queues are set and read, 8 queue pairs of depth
256 are created, and an Asynchronous Event Request is left with it. Feature 7, Number of Queues, is NVMe's (PRESUMED, log 36), as are the order and the
operands. -/
def State.driveSetup (s : State) (slot : Nat) : State :=
  let s := ((s.nvmeAdmin slot .formatNvm 1 4096).nvmeAdmin slot .setFeatures 7 8).nvmeAdmin slot .getFeatures 7 8
  let s := (upto 8).foldl (fun (s : State) n => (s.nvmeAdmin slot .createCq (n + 1) 256).nvmeAdmin slot .createSq (n + 1) 256) s
  s.nvmeAdmin slot .asyncEvent 0 0

/-- Delete the queue pairs of a drive that has failed and still answers (R104). -/
def State.driveDown (s : State) (slot : Nat) : State :=
  (upto (s.drive slot).queues).foldl (fun (s : State) n => (s.nvmeAdmin slot .deleteSq (n + 1) 0).nvmeAdmin slot .deleteCq (n + 1) 0) s

/-- DRIVE_ADMISSION (R97, R102 to R105, R724, R728): a drive is identified. One that offers the format of R103 and keeps T2 within 768 TB is set up and
joins T2, or starts the rebuild of the member its slot misses; another is not admitted. -/
def execDriveAdmission (slot capacity : Nat) (formatOk : Bool) (s : State) : Result :=
  whenUp s fun s =>
    let d := s.drive slot
    if !s.strata.present.contains slot || s.drvPerst || (d.admitted && !d.failed) then .next s
    else
      let s := (s.nvmeAdmin slot .identify 1 0).nvmeAdmin slot .identify 0 1
      if !formatOk || decide (rawLimit < s.rawT2 slot + capacity) then .next s
      else match s.rebuildOf .drive slot with
        | some b =>
          if b.running then .next s
          else
            let s := ((s.driveSetup slot).partner 8 3 slot 0 0 0 (d.inc + 1)).startRebuild .drive slot (some slot)
            .next { s with
              strata.drives := Tab.set s.strata.drives slot
                { d with admitted := true, inc := d.inc + 1, capacity := capacity, spare := false, queues := 8, busy := 0 } }
        | none =>
          let s := (s.driveSetup slot).partner 8 3 slot 0 0 0 (d.inc + 1)
          let s :=
            { s with
              strata.drives := Tab.set s.strata.drives slot
                { admitted := true, inc := d.inc + 1, spare := false, failed := false, capacity := capacity, queues := 8, busy := 0 } }
          .next s.sizeT2

/-- A drive in service has failed (R724). -/
def State.driveFails (s : State) (slot : Nat) : State := if s.partUp .drive slot then s.declareFailed .drive slot else s

/-- ASYNC_EVENT (R104, R724): the log page that tells the event is read and the request renewed; a failure that it reports fails the drive, whose queue
pairs are deleted. -/
def execAsyncEvent (slot : Nat) (failure : Bool) (s : State) : Result :=
  whenUp s fun s =>
    if !(s.drive slot).admitted || decide ((s.drive slot).queues = 0) then .next s
    else
      let s := s.nvmeAdmin slot .getLogPage 2 0
      if failure then .next ((s.driveDown slot).driveFails slot) else .next (s.nvmeAdmin slot .asyncEvent 0 0)

/-- DRIVE_LINK_LOSS (R724). -/
def execDriveLinkLoss (slot : Nat) (s : State) : Result := whenUp s fun s => .next (s.driveFails slot)

/-- DIMM_TEMP (R101): above 85 °C the refresh rate doubles. -/
def execDimmTemp (ch dimm : Nat) (hot : Bool) (s : State) : Result :=
  whenUp s fun s =>
    let n := ch + 16 * dimm
    let d := s.dimm n
    .next { s with strata.dimms := Tab.set s.strata.dimms n { d with hot := hot } }

end Sys2Proof.Machine
end

