-- ==== Sys2Proof/Machine/Time.lean ====
section
/-! DEFINITION. The time unit (18): in-band synchronisation, PTP, and the states of fabric time. -/

namespace Sys2Proof.Machine

/-- The LMF port the controller follows in-band: the fewest STEPS, then the lowest port (R711). -/
def TimeUnit.followed (t : TimeUnit) : Option (Nat × Nat) :=
  (t.adv.filter (fun e => decide (e.2 < 255))).foldl (fun (m : Option (Nat × Nat)) e => match m with
    | none => some e
    | some x => if e.2 < x.2 then some e else some x) none

/-- Is PTP the source in use (R714, R715)? -/
def TimeUnit.onPtp (t : TimeUnit) : Bool := decide (t.source = 1) || (decide (t.source = 2) && t.usePtp)

/-- Is the in-band source one that may be used (R711, R715)? -/
def TimeUnit.inBand (t : TimeUnit) : Bool := decide (t.source = 0 ∨ t.source = 2)

/-- The controller's own hops from the time root (R711, R713); 255 while it is not LOCKED. -/
def TimeUnit.steps (t : TimeUnit) : Nat :=
  match t.st with
  | .locked => min 255 ((if t.onPtp then t.ptpSteps else match t.followed with | some (_, n) => n | none => 254) + 1)
  | _ => 255

/-- The rate that clears an offset within an interval, both in ns, in units of 0.01 ppm and at most 200 ppm (R707). -/
def rateFor (off : Int) (interval : Nat) : Int := max (-20000) (min 20000 (off * 100000000 / (max 1 interval : Nat)))

/-- Ask to join: once LOCKED has been reached, inside the manager's session (R681, R708, R780); without one, the controller opens it. -/
def State.askJoin (s : State) : State :=
  if s.time.everLocked && s.sec.fmSession && !s.lmf.joined then
    State.emit { s with sec.joinAsked := true } (.askJoin ((s.sec.peers.findSome? (fun e => match e.peer with | .fm n => if e.session then some n else none | _ => none)).getD 0))
  else s.openManager

/-- A valid exchange with the source: its offset (source minus controller) in ns and the exchange interval (R706 to R709). ERR_BOUND is a free
value, for no rule gives it (log 4). -/
def State.exchange (s : State) (off : Int) (interval root : Nat) : State :=
  let t := s.time
  let first := !t.everStepped
  let now := if first then (t.now + off.toNat) % 18446744073709551616 else t.now
  let s :=
    State.freed { s with
      time := { t with
        now := now
        stepped := t.stepped || first
        everStepped := true
        asked := if first then [] else t.asked
        errBound := s.freeVal
        rate := if first then 0 else rateFor off interval
        lastGood := now
        root := root } }
  let small := decide (off.natAbs ≤ 1000)
  match t.st with
  | .unsync => { s with time.st := .locking, time.good := 0 }
  | .holdover => { s with time.st := .locking, time.good := 0 }
  | .locked => s
  | .locking =>
    if small && decide (15 ≤ t.good) then State.askJoin { s with time.st := .locked, time.everLocked := true, time.good := t.good + 1 }
    else { s with time.good := if small then t.good + 1 else 0 }

/-! ### In-band synchronisation (R711 to R713) -/

/-- TIME_SYNC_SEND (R712): a port whose link is up sends a request. -/
def execTimeSyncSend (lport : Nat) (s : State) : Result :=
  whenUp s fun s =>
    let p := s.lport lport
    if p.st ≠ .up then .next s
    else
      let seq := (Tab.getD s.time.asked lport (65535, 0)).1 + 1
      .next (State.emit { s with time.asked := Tab.set s.time.asked lport (seq % 65536, s.now) } (.evt p.eid 9 [1, 0, seq % 65536, s.now, 0, 0, 0, 0]))

/-- TIME_SYNC (R711, R713): a partner's request is answered, with the controller's own STEPS. -/
def execTimeSync (lport seq t1 arrival : Nat) (s : State) : Result :=
  whenUp s fun s =>
    let p := s.lport lport
    if p.st ≠ .up then .next s else .next (s.emit (.evt p.eid 9 [2, s.time.steps, seq, t1, arrival, s.now, s.errNow, s.time.root]))

/-- TIME_SYNC_RESPONSE (R707, R711, R713, R715): an answer to the port's last request; one of the followed partner is a valid exchange. -/
def execTimeSyncResponse (lport steps seq t1 t2 t3 t4 _err root : Nat) (s : State) : Result :=
  whenUp s fun s =>
    if (s.lport lport).st ≠ .up ∨ Tab.get? s.time.asked lport ≠ some (seq, t1) then .next s
    else
      let s := { s with time.asked := Tab.erase s.time.asked lport, time.adv := Tab.set s.time.adv lport steps }
      let up : Bool := match s.time.followed with | some (n, _) => decide (n = lport) | none => false
      if !s.time.inBand || !up then .next s
      else
        let s := if s.time.onPtp then { s with time.usePtp := false, time.st := (if s.time.st = .unsync then .unsync else .holdover) } else s
        let off : Int := (((t2 : Int) - t1) - ((t4 : Int) - t3)) / 2
        .next (s.exchange off 1000000 root)

/-- HOLDOVER_ENTRY (R706): 10 ms without a valid exchange. -/
def execHoldoverEntry (s : State) : Result :=
  whenUp s fun s =>
    if s.time.st = .locked ∧ s.time.lastGood + 10000000 ≤ s.now then .next { s with time.st := .holdover, time.heldAt := s.now, time.good := 0 }
    else .next s

/-! ### PTP (R714, R715) -/

/-- PTP_FALLBACK (R715): 10 ms without an in-band exchange, with SOURCE 2. -/
def execPtpFallback (s : State) : Result :=
  whenUp s fun s =>
    if s.time.source = 2 ∧ s.time.usePtp = false ∧ s.time.lastGood + 10000000 ≤ s.now then
      .next { s with
        time.usePtp := true
        time.good := 0
        time.sync := none
        time.origin := none
        time.delay := none
        time.st := if s.time.st = .unsync then .unsync else .locking }
    else .next s

/-- A PTP message of the port and domain that TIME_CFG names, while PTP is the source (R714). -/
def State.onPtp (s : State) (mport domain : Nat) (f : State → State) : Result :=
  whenUp s fun s => if s.time.onPtp && decide (mport = s.time.ptpPort) && decide (domain = s.time.ptpDomain) then .next (f s) else .next s

/-- ANNOUNCE (R714): the master's steps from the root. -/
def execAnnounce (mport domain steps : Nat) (s : State) : Result := s.onPtp mport domain fun s => { s with time.ptpSteps := steps }

/-- SYNC (R714): one-step, or two-step with its departure in the Follow_Up. -/
def execSync (mport domain seq origin arrival : Nat) (twoStep : Bool) (s : State) : Result :=
  s.onPtp mport domain fun s => { s with time.sync := some (seq, arrival), time.origin := if twoStep then none else some origin }

/-- FOLLOW_UP (R714): the departure of the Sync of the same sequence number. -/
def execFollowUp (mport domain seq origin : Nat) (s : State) : Result :=
  s.onPtp mport domain fun s =>
    match s.time.sync with
    | some (n, _) => if n = seq ∧ s.time.origin = none then { s with time.origin := some origin } else s
    | none => s

/-- DELAY_REQ (R714): sent, with its departure stamped. -/
def execDelayReq (mport domain seq departure : Nat) (s : State) : Result :=
  s.onPtp mport domain fun s => State.emit { s with time.delay := some (seq, departure) } (.mgmt mport 4 [domain, seq])

/-- DELAY_RESP (R714): with the last Sync it completes an exchange of the end-to-end mechanism; the exchange interval is the time since the last
exchange (DESIGN CHOICE, log 26). -/
def execDelayResp (mport domain seq received : Nat) (s : State) : Result :=
  s.onPtp mport domain fun s =>
    match s.time.sync, s.time.origin, s.time.delay with
    | some (_, t2), some t1, some (n, t3) =>
      if n ≠ seq then s
      else
        let off : Int := (((t1 : Int) - t2) + ((received : Int) - t3)) / 2
        let interval := s.now - s.time.lastGood
        State.exchange { s with time.sync := none, time.origin := none, time.delay := none } off interval s.lmf.eid
    | _, _, _ => s

end Sys2Proof.Machine
end

