-- ==== Sys2Proof/Machine/Security.lean ====
section
/-! DEFINITION. Attestation and secured sessions (20): SPDM as responder and as requester, and the end of a replaced transport key. Message
codes are those of SPDM (PRESUMED, log 27). -/

namespace Sys2Proof.Machine

/-- A peer nothing has been agreed with. -/
def SpdmPeer.fresh (p : Peer) : SpdmPeer := { peer := p, version := false, caps := false, algs := false, keyed := false, session := false, key := 0 }

/-- The progress with a peer. -/
def State.spdm (s : State) (p : Peer) : SpdmPeer := (s.sec.peers.find? (fun e => decide (e.peer = p))).getD (SpdmPeer.fresh p)

/-- Replace it. -/
def State.setSpdm (s : State) (e : SpdmPeer) : State :=
  { s with sec.peers := s.sec.peers.filter (fun (x : SpdmPeer) => decide (x.peer ≠ e.peer)) ++ [e] }

/-- An SPDM message to a peer. -/
def State.spdmSay (s : State) (p : Peer) (code : Nat) (fields : List Nat) : State := s.emit (.spdm p code fields)

/-- An SPDM ERROR: 1 InvalidRequest, 4 UnexpectedRequest, 6 DecryptError. -/
def State.spdmError (s : State) (p : Peer) (e : Nat) : State := s.spdmSay p 0x7F [e]

/-! ### As responder (R775 to R778) -/

/-- GET_VERSION (R775): versions 1.2 and 1.3; what was agreed before is forgotten, and a session stays. -/
def execGetVersion (peer : Peer) (s : State) : Result :=
  whenUp s fun s =>
    let e := s.spdm peer
    .next ((s.setSpdm { e with version := true, caps := false, algs := false, keyed := false }).spdmSay peer 0x04 [0x12, 0x13])

/-- GET_CAPABILITIES (R775). -/
def execGetCapabilities (peer : Peer) (s : State) : Result :=
  whenUp s fun s =>
    let e := s.spdm peer
    if e.version then .next ((s.setSpdm { e with caps := true }).spdmSay peer 0x61 []) else .next (s.spdmError peer 4)

/-- NEGOTIATE_ALGORITHMS (R776): what both sides offer; the exchange goes on only with all of R776. -/
def execNegotiateAlgorithms (peer : Peer) (offer : SpdmAlgorithms) (s : State) : Result :=
  whenUp s fun s =>
    let e := s.spdm peer
    if e.caps then
      let all := offer.sig4096 && offer.sha512 && offer.secp384 && offer.aesGcm
      .next ((s.setSpdm { e with algs := all }).spdmSay peer 0x63 [b2n offer.sig4096, b2n offer.sha512, b2n offer.secp384, b2n offer.aesGcm])
    else .next (s.spdmError peer 4)

/-- The certificate chain of a slot; slot 1 ends at the alias key of the present boot or activation (R777). On a DEBUG part the identity key comes from
the test secret, and its certificate names the part as DEBUG (R768). -/
def State.chain (s : State) (slot : Nat) : List Nat :=
  (Config.certChain s.secret s.sec.debug (if slot = 0 then 0 else 1 + s.sec.aliasKey)).map BitVec.toNat

/-- GET_DIGESTS (R777). -/
def execGetDigests (peer : Peer) (s : State) : Result :=
  whenUp s fun s =>
    if (s.spdm peer).algs then .next (s.spdmSay peer 0x01 [Config.digest (s.chain 0), Config.digest (s.chain 1)]) else .next (s.spdmError peer 4)

/-- GET_CERTIFICATE (R777): slots 0 and 1. -/
def execGetCertificate (peer : Peer) (slot : Nat) (s : State) : Result :=
  whenUp s fun s =>
    if !(s.spdm peer).algs then .next (s.spdmError peer 4)
    else if 1 < slot then .next (s.spdmError peer 1)
    else .next (s.spdmSay peer 0x02 (slot :: s.chain slot))

/-- CHALLENGE (R777): signed with the alias key. -/
def execChallenge (peer : Peer) (slot : Nat) (s : State) : Result :=
  whenUp s fun s =>
    if !(s.spdm peer).algs then .next (s.spdmError peer 4)
    else if 1 < slot then .next (s.spdmError peer 1)
    else
      let body := [slot, Config.digest (s.chain slot)]
      .next (s.spdmSay peer 0x03 (body ++ [Config.sign s.sec.aliasKey body]))

/-- A measurement block (R778): the AON ROM, what the boot stages and an activation recorded of the firmware, the security state and the trust
anchor; block 4 equals block 3 but in an activation. -/
def State.measurement (s : State) (n : Nat) : Nat :=
  match n with
  | 1 => Config.digest [1]
  | 4 => s.measured (if s.bci.activating.isSome then 4 else 3)
  | 5 => Config.digest [5, if s.sec.debug then 2 else 1, s.sec.svnMin, s.sec.revoked]
  | 6 => Config.digest [6, s.sec.anchor]
  | _ => s.measured n

/-- GET_MEASUREMENTS (R778, R790): index 0 gives the number of blocks, 255 all of them; signed with the alias key over the nonce. -/
def execGetMeasurements (peer : Peer) (index nonce : Nat) (s : State) : Result :=
  whenUp s fun s =>
    if !(s.spdm peer).algs && !(s.inSession peer) then .next (s.spdmError peer 4)
    else if 6 < index ∧ index ≠ 255 then .next (s.spdmError peer 1)
    else
      let body := if index = 0 then [6] else if index = 255 then [1, 2, 3, 4, 5, 6].map s.measurement else [s.measurement index]
      .next (s.spdmSay peer 0x60 (body ++ [nonce, Config.sign s.sec.aliasKey (body ++ [nonce])]))

/-- KEY_EXCHANGE (R776, R777): answered and signed with the alias key; session keys are drawn. -/
def execKeyExchange (peer : Peer) (share : Nat) (s : State) : Result :=
  whenUp s fun s =>
    let e := s.spdm peer
    if !e.algs then .next (s.spdmError peer 4)
    else
      let mine := Config.digest [s.nextId]
      .next (State.spdmSay { s.setSpdm { e with keyed := true, key := s.nextId } with nextId := s.nextId + 1 } peer 0x64
        [mine, Config.sign s.sec.aliasKey [share, mine]])

/-- A session with a peer is up (R780, R784): an endpoint gets the transport keys of the regions it holds grants on (R787). -/
def State.sessionUp (s : State) (e : SpdmPeer) : State :=
  let s := s.setSpdm { e with keyed := false, session := true }
  match e.peer with
  | .lmf eid inc =>
    let s := { s with sec.secured := (s.sec.secured.filter (fun (x : Nat × Nat) => decide (x ≠ (eid, inc)))) ++ [(eid, inc)] }
    (s.home.regions.filter (fun r => decide (r.1 < 65536) && (r.2.grants.any (fun g => decide (g.eid = eid)) || decide (r.2.mirror = eid)))).foldl
      (fun (s : State) r => s.giveKey eid r.1) s
  | .fm _ => State.askJoin { s with sec.fmSession := true }
  | _ => s

/-- FINISH (R779): a management session needs mutual authentication and a chain that ends at the anchor. -/
def execFinish (peer : Peer) (mutualAuth anchorOk : Bool) (s : State) : Result :=
  whenUp s fun s =>
    let e := s.spdm peer
    let must : Bool := match peer with | .mgmt _ => true | .fm _ => true | _ => false
    if !e.keyed then .next (s.spdmError peer 4)
    else if must && !(mutualAuth && anchorOk) then .next ((s.setSpdm { e with keyed := false }).spdmError peer 6)
    else .next ((s.sessionUp e).spdmSay peer 0x65 [])

/-! ### As requester (R777, R779, R780, R784) -/

/-- KEY_EXCHANGE_RSP (R777, R779): verified against the responder's chain, which for the fabric manager ends at the anchor with mutual
authentication asked for; what the exchange agreed serves the responder's encapsulated GET_DIGESTS and GET_CERTIFICATE too. FINISH goes out, signed with
the alias key where mutual authentication was asked for. -/
def execKeyExchangeRsp (peer : Peer) (chainOk sigOk mutualAuth : Bool) (s : State) : Result :=
  whenUp s fun s =>
    let must : Bool := match peer with | .fm _ => true | .mgmt _ => true | _ => false
    if !chainOk || !sigOk || (must && !mutualAuth) then .next (s.setSpdm { s.spdm peer with keyed := false })
    else
      let s := { s.setSpdm { s.spdm peer with version := true, caps := true, algs := true, keyed := true, key := s.nextId } with nextId := s.nextId + 1 }
      .next (s.spdmSay peer 0xE5 (if mutualAuth then [1, Config.sign s.sec.aliasKey [s.nextId]] else [0]))

/-- FINISH_RSP (R708, R780): the session is up; in the fabric manager's session the controller asks to join. -/
def execFinishRsp (peer : Peer) (s : State) : Result :=
  whenUp s fun s =>
    let e := s.spdm peer
    if e.keyed then .next (s.sessionUp e) else .next s

/-- SESSION_END (R780, R781, R787): the session keys are gone; without the manager's session its messages are discarded. -/
def execSessionEnd (peer : Peer) (s : State) : Result :=
  whenUp s fun s =>
    let s := { s with sec.peers := s.sec.peers.filter (fun (x : SpdmPeer) => decide (x.peer ≠ peer)) }
    match peer with
    | .lmf eid inc => .next { s with sec.secured := s.sec.secured.filter (fun (x : Nat × Nat) => decide (x ≠ (eid, inc))) }
    | .fm _ =>
      let up := s.sec.peers.any (fun x => x.session && (match x.peer with | .fm _ => true | _ => false))
      .next { s with sec.fmSession := up, sec.joinAsked := s.sec.joinAsked && up }
    | _ => .next s

/-- TRANSPORT_KEY_RETIRE (R786): after the REVOKE's completion, and TXN_TIMEOUT after the last delivery, the old key is destroyed. -/
def execTransportKeyRetire (idx : Nat) (s : State) : Result :=
  whenUp s fun s =>
    match s.region? idx with
    | none => .next s
    | some rg =>
      match rg.tkeyOld with
      | none => .next s
      | some (_, at') =>
        if s.now < at' + s.bci.txnTimeout ∨ s.home.revokes.any (fun w => decide (w.rid = idx)) = true then .next s
        else .next (s.setRegion idx { rg with tkeyOld := none })

end Sys2Proof.Machine
end

