-- ==== Sys2Proof/Machine/Package.lean ====
section
/-! DEFINITION. The package (23): reset, rails and boot, the test access port, the I3C sideband and the boot store. -/

namespace Sys2Proof.Machine

/-! ### Reset and boot (R772 to R774, R843 to R847) -/

/-- The health records survive a reset (R767). -/
def UnitRec.kept (u : UnitRec) : UnitRec := { u with asked := false, onSince := 0, lastKat := 0, errTimes := [] }

/-- The package after everything it held is lost (R841, R846): what stays is in fuses, in the boot store, in the health records, on the pins, or on
the board; the numbers that must not come again go on (R676). `keep` says that VDD_AON stayed up. -/
def State.wiped (s : State) (keep : Bool) : State :=
  { State.reset with
    strata := { Strata.reset with
      present := s.strata.present
      drives := s.strata.drives.map (fun (e : Nat × Drive) => (e.1, { Drive.fresh with inc := e.2.inc }))
      dimms := s.strata.dimms.map (fun (e : Nat × Dimm) => (e.1, { Dimm.fresh with hot := e.2.hot })) }
    bci := { Bci.reset with slots := s.bci.slots, runSlot := s.bci.runSlot, standby := false }
    host := { Hosts.reset with
      ports := s.host.ports.map (fun (e : Nat × HostPort) => (e.1, { HostPort.reset with inc := e.2.inc, refclk := e.2.refclk })) }
    rel := { Rel.reset with
      failRecord := (if keep then s.rel.failRecord else none)
      units := s.rel.units.map (fun (e : Nat × UnitRec) => (e.1, e.2.kept)) }
    sec := { Sec.reset with debug := s.sec.debug, rootSecret := s.sec.rootSecret, svnMin := s.sec.svnMin, revoked := s.sec.revoked }
    pkg := { Package.reset with
      rstN := false
      booted := false
      railEn := 0
      railPg := 0
      tjE := s.pkg.tjE
      tjW := s.pkg.tjW
      tjPeak := max s.pkg.tjE s.pkg.tjW
      tap := s.pkg.tap
      cells := s.pkg.cells
      sideband := keep
      store := s.pkg.store }
    out := s.out
    freeCtr := s.freeCtr
    nextId := s.nextId
    pending := s.pending }

/-- Bytes nothing gives a value: those of a flash write that did not finish (log 4). -/
def State.freeBytes (s : State) (n : Nat) : Bytes := (upto n).map (fun k => BitVec.ofNat 8 (Config.freeNat (s.freeCtr + k)))

/-- A flash write ends without success: its 256 bytes are free values. -/
def State.spoilWrite (s : State) : State :=
  match s.pkg.storeBusy with
  | none => s
  | some (a, _) =>
    { s with freeCtr := s.freeCtr + 256, pkg.store := Mem.writeN s.pkg.store a (s.freeBytes 256), pkg.storeBusy := none }

/-- PKG_RST_ASSERT (R845 to R847): everything stops, and the rails are released. -/
def execPkgRstAssert (s : State) : Result :=
  if s.pkg.aonUp && s.pkg.rstN then .next (s.spoilWrite.wiped true) else .next s

/-- AON_SUPPLY_LOSS (R841): everything is lost at once. -/
def execAonSupplyLoss (s : State) : Result :=
  if s.pkg.aonUp then
    let s := s.spoilWrite.wiped false
    .next { s with pkg.aonUp := false, pkg.tap := .idcode }
  else .next s

/-- POWER_ON (R706, R843): VDD_AON and VDD_IO are up with PKG_RST_N low. -/
def execPowerOn (s : State) : Result :=
  if s.pkg.aonUp then .next s
  else
    let s := s.wiped false
    .next { s with pkg.aonUp := true, pkg.tap := .idcode }

/-- Boot fails: BOOT_FAIL and its interrupt (R772, R773, R860). -/
def State.bootFails (s : State) : State := State.emit { s with sec.bootFail := true } (.ibi 4)

/-- PKG_RST_RELEASE (R772 stage 1, R843 steps 3 and 4, R859): the AON ROM verifies the AON firmware, the trust anchor is read (R779), the keys of
a boot are drawn (R777, R781), and the first rail is asked for. -/
def execPkgRstRelease (img : BootImages) (s : State) : Result :=
  if !s.pkg.aonUp || s.pkg.rstN then .next s
  else
    let n := s.nextId
    let s :=
      { s with
        pkg.rstN := true
        pkg.sideband := true
        pkg.tap := .idcode
        sec.anchor := Mem.leRead s.pkg.store 0x00200000 64
        sec.aliasKey := n
        sec.atRest := n + 1
        sec.bootKey := n + 2
        nextId := n + 3 }
    if img.aonA || img.aonB then
      .next { s with pkg.railEn := 1, sec.measured := [(2, Config.digest ((Mem.readN s.pkg.store (if img.aonA then 0 else 0x00100000) 0x00100000).map BitVec.toNat))] }
    else .next s.bootFails

/-- What a slot's header says (R770), where the boot store holds one; else what is known of the slot. -/
def State.slotHeader (s : State) (n st : Nat) : FwSlot :=
  let le (k m : Nat) : Nat := Mem.leRead s.pkg.store (slotAddr n + k) m
  if le 0 4 = 0x4C594657 then { st := st, fwVer := le 4 4, svn := le 8 1, keySlot := le 9 1, commitSvn := bitAt (le 10 1) 0 }
  else match Tab.get? s.bci.slots n with
    | some x => { x with st := st }
    | none => { st := st, fwVer := 0, svn := 0, keySlot := 0, commitSvn := false }

/-- May a slot's image run: neither its key slot revoked nor its SVN below SVN_MIN (R771, R774)? -/
def State.mayRun (s : State) (n : Nat) : Bool :=
  let x := s.slotHeader n 2
  !bitAt s.sec.revoked x.keySlot && decide (s.sec.svnMin ≤ x.svn)

/-- Boot stages 2 and 3 (R544, R551, R772): the image of the running slot, or of the other where it is VERIFIED; its measurement is recorded. Whether the
image verifies in all other respects is an operand. -/
def State.boot (s : State) (img : BootImages) : State :=
  let ok (n : Nat) : Bool := (if n = 0 then img.slot0 else img.slot1) && s.mayRun n
  let measure (n : Nat) : Tab Nat := Tab.set s.sec.measured 3 (s.imageDigest n)
  let r := s.bci.runSlot
  let o := 1 - r
  let other : Bool := match Tab.get? s.bci.slots o with | some x => decide (x.st = 1) | none => false
  if ok r then
    { s with
      bci.slots := Tab.set s.bci.slots r (s.slotHeader r 2), bci.standby := true, sec.measured := measure r, pkg.booted := true, pkg.bootAt := s.now }
  else if other && ok o then
    { s with
      bci.slots := Tab.set (Tab.erase s.bci.slots r) o (s.slotHeader o 2)
      bci.runSlot := o
      bci.standby := true
      sec.measured := measure o
      pkg.booted := true
      pkg.bootAt := s.now }
  else s.bootFails

/-- RAIL_PG (R843 steps 4 to 6): the next rail is asked for, or boot goes on. -/
def execRailPg (rail : Nat) (img : BootImages) (s : State) : Result :=
  if !s.pkg.aonUp || !s.pkg.rstN || s.rel.failCause.isSome || s.pkg.railHalt || !bitAt s.pkg.railEn rail || bitAt s.pkg.railPg rail || decide (8 ≤ rail) then .next s
  else
    let s := { s with pkg.railPg := s.pkg.railPg ||| 2 ^ rail }
    if rail < 7 then .next { s with pkg.railEn := s.pkg.railEn ||| 2 ^ (rail + 1) } else .next (s.boot img)

/-- RAIL_PG_TIMEOUT (R844): the rails are released, and no further attempt is made until the package has been reset. -/
def execRailPgTimeout (rail die : Nat) (s : State) : Result :=
  if !s.pkg.aonUp || !s.pkg.rstN || !bitAt s.pkg.railEn rail || bitAt s.pkg.railPg rail || decide (8 ≤ rail) then .next s
  else
    .next (State.emit { s with
      pkg.railEn := 0
      pkg.railPg := 0
      pkg.railHalt := true
      pkg.faultRail := rail + 1
      pkg.faultKind := 3
      pkg.faultDie := die % 2 } (.ibi 3))

/-- RAIL_FAULT (R840): PWR_RAIL and fail-stop. -/
def execRailFault (rail die : Nat) (below85 : Bool) (s : State) : Result :=
  if !s.pkg.aonUp || !s.pkg.rstN || !bitAt s.pkg.railPg rail || decide (8 ≤ rail) then .next s
  else .next (State.failStop { s with pkg.faultRail := rail + 1, pkg.faultKind := (if below85 then 2 else 1), pkg.faultDie := die % 2 } 7)

/-- REFCLK_LOSS (R850). -/
def execRefclkLoss (_die : Nat) (s : State) : Result := if s.pkg.aonUp && s.pkg.rstN then .next (s.failStop 7) else .next s

/-- THERMTRIP (R847, R854): fail-stop, and THERMTRIP_N until the reset. -/
def execThermtrip (s : State) : Result :=
  if s.pkg.aonUp && s.pkg.rstN then
    let s := s.failStop 7
    .next (State.emit { s with pkg.thermtrip := true } (.ibi 2))
  else .next s

/-! ### The test access port (R856 to R859) -/

/-- The instruction a code of the 8-bit register stands for; every other code is BYPASS (R856). -/
def tapOf (code : Nat) : TapInstr :=
  match code with
  | 1 => .idcode
  | 2 => .sample
  | 3 => .extest
  | 4 => .clamp
  | 5 => .highz
  | 6 => .extestPulse
  | 7 => .extestTrain
  | _ => .bypass

/-- Does an instruction take effect: those that drive lands only while PKG_RST_N is low (R858)? -/
def State.tapActs (s : State) (i : TapInstr) : Bool :=
  match i with
  | .idcode => true
  | .sample => true
  | .bypass => true
  | _ => !s.pkg.rstN

/-- The bits the port shifts out: the identification, a sample of the boundary, in which a cell whose rail is down is 0 (R857; what the lands show is a free value, log 4), or the 0 that
the bypass register captures. -/
def State.tapOut (s : State) (i : TapInstr) : State :=
  match i with
  | .idcode => s.emit (.tdo 0x0A7211CB)
  | .bypass => s.emit (.tdo 0)
  | .clamp => s.emit (.tdo 0)
  | .highz => s.emit (.tdo 0)
  | _ =>
    let down := ((upto 8).filter (fun r => !bitAt s.pkg.railPg r)).foldl (fun m r => m ||| Config.railCells r) 0
    let cells := Config.boundaryCells s.freeCtr
    s.freed.emit (.tdo ((cells - (cells &&& down)) % 2 ^ 4210))

/-- An instruction of the test access port, with the cells shifted in: the one in force after R858. -/
def State.tapLoad (s : State) (i : TapInstr) (cells : Option Nat) : State :=
  if !s.pkg.aonUp then s
  else if s.tapActs i then
    let s := { s with pkg.tap := i, pkg.cells := (match cells with | some c => c % 2 ^ 4210 | none => s.pkg.cells) }
    s.tapOut i
  else State.tapOut { s with pkg.tap := .bypass } .bypass

/-- TRST (R859): Test-Logic-Reset, which loads IDCODE (R856). -/
def execTrst (s : State) : Result := .next { s with pkg.tap := .idcode }

/-- IDCODE (R856, R858). -/
def execIdcode (s : State) : Result := .next (s.tapLoad .idcode none)

/-- SAMPLE/PRELOAD (R858): the cells are sampled, and new values are shifted in. -/
def execSamplePreload (cells : Nat) (s : State) : Result := .next (s.tapLoad .sample (some cells))

/-- EXTEST (R858). -/
def execExtest (cells : Nat) (s : State) : Result := .next (s.tapLoad .extest (some cells))

/-- CLAMP (R858). -/
def execClamp (s : State) : Result := .next (s.tapLoad .clamp none)

/-- HIGHZ (R858). -/
def execHighz (s : State) : Result := .next (s.tapLoad .highz none)

/-- EXTEST_PULSE (R858). -/
def execExtestPulse (s : State) : Result := .next (s.tapLoad .extestPulse none)

/-- EXTEST_TRAIN (R858). -/
def execExtestTrain (s : State) : Result := .next (s.tapLoad .extestTrain none)

/-- BYPASS (R856): a code of the 8-bit instruction register. What the register holds after a code of more than 8 bits has been shifted in is a free value,
for the spec states none (DESIGN CHOICE, log 28). -/
def execBypass (code : Nat) (s : State) : Result :=
  if 256 ≤ code then .next (s.freed.tapLoad (tapOf (s.freeVal % 256)) none) else .next (s.tapLoad (tapOf code) none)

/-! ### The I3C sideband (R860 to R862) -/

/-- Does the sideband answer (R860)? -/
def State.sidebandUp (s : State) : Bool := s.pkg.aonUp && s.pkg.sideband

/-- The static addresses of the two virtual targets (R860). -/
def i3cTargets : List Nat := [0x3A, 0x3B]

/-- A virtual target takes a dynamic address; one that has an address takes no other (PRESUMED, I3C, log 28). -/
def State.takeAddr (s : State) (target addr : Nat) : State :=
  if s.sidebandUp && decide (target ∈ i3cTargets) && decide (addr < 128) && !Tab.has s.pkg.dynAddr target then
    { s with pkg.dynAddr := Tab.set s.pkg.dynAddr target addr }
  else s

/-- SETDASA (R860). -/
def execSetdasa (target addr : Nat) (s : State) : Result := .next (s.takeAddr target addr)

/-- ENTDAA (R860). -/
def execEntdaa (target addr : Nat) (s : State) : Result := .next (s.takeAddr target addr)

/-- REG_READ (R5, R861). -/
def execRegRead (off : Nat) (s : State) : Result :=
  if !s.sidebandUp then .next s
  else if off % 4 ≠ 0 ∨ 65536 ≤ off then .next (s.emit .i3cNack)
  else .next ((s.clearRead .mgmt off 0).emit (.i3c (bytesOf [s.readReg .mgmt off])))

/-- REG_WRITE (R861, R862). -/
def execRegWrite (off : Nat) (w : Word) (s : State) : Result :=
  if !s.sidebandUp then .next s
  else if off % 4 ≠ 0 ∨ 65536 ≤ off then .next (s.emit .i3cNack)
  else .next (s.writeReg .mgmt off w)

/-! ### The boot store (R861, R863, R864) -/

/-- Does a partition take a write (R863)? -/
def State.storeTakes (s : State) (a : Nat) : Bool :=
  decide (a < 0x00210000) || (decide (0x01000000 ≤ a) && decide (a < 0x21000000) && (!s.pkg.rstN || s.sec.bootFail))

/-- STORE_WRITE (R861, R863, R864): 256 bytes; refused with status 2, or not acknowledged. -/
def execStoreWrite (addr : Nat) (data : Bytes) (s : State) : Result :=
  if !s.sidebandUp then .next s
  else if addr % 256 ≠ 0 ∨ data.length ≠ 256 ∨ s.pkg.storeBusy.isSome = true then .next (s.emit .i3cNack)
  else if s.storeTakes addr then .next { s with pkg.storeStatus := 1, pkg.storeBusy := some (addr, data) }
  else .next { s with pkg.storeStatus := 2 }

/-- STORE_WRITE_END (R861): the flash write has finished, or has failed. -/
def execStoreWriteEnd (ok : Bool) (s : State) : Result :=
  match s.pkg.storeBusy with
  | none => .next s
  | some (a, bs) =>
    if ok then .next { s with pkg.store := Mem.writeN s.pkg.store a bs, pkg.storeBusy := none, pkg.storeStatus := 0 }
    else .next { s.spoilWrite with pkg.storeStatus := 3 }

/-- STORE_READ (R861); the health records are sealed (R767, R781), so their bytes are free values (log 4). -/
def execStoreRead (addr : Nat) (s : State) : Result :=
  if !s.sidebandUp then .next s
  else if addr % 256 ≠ 0 then .next (s.emit .i3cNack)
  else if 0x00300000 ≤ addr ∧ addr < 0x00400000 then
    .next (State.emit { s with freeCtr := s.freeCtr + 256 } (.i3c (s.freeBytes 256)))
  else .next (s.emit (.i3c (Mem.readN s.pkg.store addr 256)))

/-- STORE_STATUS (R861). -/
def execStoreStatus (s : State) : Result := if s.sidebandUp then .next (s.emit (.i3c [BitVec.ofNat 8 s.pkg.storeStatus])) else .next s

end Sys2Proof.Machine
end

