-- ==== Sys2Proof/Machine/Scalar.lean ====
section
/-! DEFINITION. The scalar instructions of the Slaica core (R387 to R399). -/

namespace Sys2Proof.Machine

/-- NOP (R348): no effect. -/
def execNop (h : SlotHdr) (s : State) : Result := slotRun (.nop h) s fun h _ _ _ s => s.slotDone (.nop h) h

/-- A scalar instruction that only computes RD. -/
def scalarSet (cmd : Instr) (rd : Nat) (s : State) (val : RegFile → BitVec 64) : Result :=
  slotRun cmd s fun h _ r _ s => (s.modRegs h.core (fun g => g.xw rd (val r))).slotDone cmd h

/-- ADD (R393). -/
def execAdd (h : SlotHdr) (f : SFmt) (s : State) : Result := scalarSet (.add h f) f.rd s fun r => r.xr f.ra + r.xr f.rb
/-- SUB. -/
def execSub (h : SlotHdr) (f : SFmt) (s : State) : Result := scalarSet (.sub h f) f.rd s fun r => r.xr f.ra - r.xr f.rb
/-- ADDI. -/
def execAddi (h : SlotHdr) (f : SFmt) (s : State) : Result := scalarSet (.addi h f) f.rd s fun r => r.xr f.ra + f.imm
/-- LI. -/
def execLi (h : SlotHdr) (f : SFmt) (s : State) : Result := scalarSet (.li h f) f.rd s fun _ => f.imm
/-- MUL: the low 64 bits of the product. -/
def execMul (h : SlotHdr) (f : SFmt) (s : State) : Result := scalarSet (.mul h f) f.rd s fun r => r.xr f.ra * r.xr f.rb
/-- MULH: the high 64 bits of the signed product. -/
def execMulh (h : SlotHdr) (f : SFmt) (s : State) : Result :=
  scalarSet (.mulh h f) f.rd s fun r => BitVec.ofInt 64 ((r.xr f.ra).toInt * (r.xr f.rb).toInt / 18446744073709551616)
/-- MULHU: the high 64 bits of the unsigned product. -/
def execMulhu (h : SlotHdr) (f : SFmt) (s : State) : Result :=
  scalarSet (.mulhu h f) f.rd s fun r => BitVec.ofNat 64 ((r.xr f.ra).toNat * (r.xr f.rb).toNat / 18446744073709551616)
/-- DIV: toward zero; a divisor of 0 gives all ones; −2⁶³ by −1 gives −2⁶³. -/
def execDiv (h : SlotHdr) (f : SFmt) (s : State) : Result :=
  scalarSet (.div h f) f.rd s fun r => if r.xr f.rb = 0 then BitVec.allOnes 64 else (r.xr f.ra).sdiv (r.xr f.rb)
/-- DIVU: a divisor of 0 gives all ones. -/
def execDivu (h : SlotHdr) (f : SFmt) (s : State) : Result :=
  scalarSet (.divu h f) f.rd s fun r => if r.xr f.rb = 0 then BitVec.allOnes 64 else (r.xr f.ra).udiv (r.xr f.rb)
/-- REM: the signed remainder; a divisor of 0 gives RA. -/
def execRem (h : SlotHdr) (f : SFmt) (s : State) : Result :=
  scalarSet (.rem h f) f.rd s fun r => if r.xr f.rb = 0 then r.xr f.ra else (r.xr f.ra).srem (r.xr f.rb)
/-- AND. -/
def execAnd (h : SlotHdr) (f : SFmt) (s : State) : Result := scalarSet (.and h f) f.rd s fun r => r.xr f.ra &&& r.xr f.rb
/-- OR. -/
def execOr (h : SlotHdr) (f : SFmt) (s : State) : Result := scalarSet (.or h f) f.rd s fun r => r.xr f.ra ||| r.xr f.rb
/-- XOR. -/
def execXor (h : SlotHdr) (f : SFmt) (s : State) : Result := scalarSet (.xor h f) f.rd s fun r => r.xr f.ra ^^^ r.xr f.rb
/-- SHL: by RB[5:0]. -/
def execShl (h : SlotHdr) (f : SFmt) (s : State) : Result := scalarSet (.shl h f) f.rd s fun r => r.xr f.ra <<< ((r.xr f.rb).toNat % 64)
/-- SHR. -/
def execShr (h : SlotHdr) (f : SFmt) (s : State) : Result := scalarSet (.shr h f) f.rd s fun r => r.xr f.ra >>> ((r.xr f.rb).toNat % 64)
/-- SRA. -/
def execSra (h : SlotHdr) (f : SFmt) (s : State) : Result := scalarSet (.sra h f) f.rd s fun r => (r.xr f.ra).sshiftRight ((r.xr f.rb).toNat % 64)
/-- SLT. -/
def execSlt (h : SlotHdr) (f : SFmt) (s : State) : Result := scalarSet (.slt h f) f.rd s fun r => if (r.xr f.ra).slt (r.xr f.rb) then 1 else 0
/-- SLTU. -/
def execSltu (h : SlotHdr) (f : SFmt) (s : State) : Result := scalarSet (.sltu h f) f.rd s fun r => if (r.xr f.ra).ult (r.xr f.rb) then 1 else 0

/-- The conditions of PCMP on 64-bit values (R393); none is not listed. -/
def cond64 (sub : Nat) (a b : BitVec 64) : Option Bool :=
  match sub with
  | 0 => some (decide (a = b))
  | 1 => some (decide (a ≠ b))
  | 2 => some (a.slt b)
  | 3 => some (!a.slt b)
  | 4 => some (a.ult b)
  | 5 => some (!a.ult b)
  | _ => none

/-- PCMP: all ones or all zeros; a condition that is not listed raises ILLEGAL_OP. -/
def execPcmp (h : SlotHdr) (f : SFmt) (s : State) : Result :=
  let cmd := Instr.pcmp h f
  slotRun cmd s fun h _ r q s =>
    match cond64 f.sub (r.xr f.ra) (r.xr f.rb) with
    | some b => (s.modRegs h.core (fun g => g.pw f.rd (if b then BitVec.allOnes 4096 else 0))).slotDone cmd h
    | none => s.illegal cmd h q

/-- PSET: the first RA × w bits, RA clamped to 4,096 ÷ w. -/
def execPset (h : SlotHdr) (f : SFmt) (s : State) : Result :=
  let cmd := Instr.pset h f
  slotRun cmd s fun h _ r _ s =>
    let w := elemBytes f.type
    let n := min (r.xr f.ra).toNat (4096 / w)
    (s.modRegs h.core (fun g => g.pw f.rd (BitVec.ofNat 4096 (2 ^ (n * w) - 1)))).slotDone cmd h

/-- The FP32 value of a scalar register's low word. -/
def RegFile.f32 (r : RegFile) (n : Nat) : FVal := fp32.decode ((r.xr n).toNat % 4294967296)

/-- A scalar FP32 operation: rounded by SR_FRM, the upper word zero, with sticky flags (R365, R393). -/
def scalarFloat (cmd : Instr) (rd : Nat) (s : State) (val : RegFile → FVal × FFlags) : Result :=
  slotRun cmd s fun h _ r q s =>
    let (bits, g) := fp32.finish (rndOf (q.frm.getD (s.core h.core).frm)) (val r)
    ((s.modRegs h.core (fun x => x.xw rd (BitVec.ofNat 64 bits))).stick h.core q.seq g).slotDone cmd h

/-- FADD.f32. -/
def execFadd (h : SlotHdr) (f : SFmt) (s : State) : Result := scalarFloat (.fadd h f) f.rd s fun r => (r.f32 f.ra).add (r.f32 f.rb)
/-- FMUL.f32. -/
def execFmul (h : SlotHdr) (f : SFmt) (s : State) : Result := scalarFloat (.fmul h f) f.rd s fun r => (r.f32 f.ra).mul (r.f32 f.rb)
/-- FFMA.f32: one rounding. -/
def execFfma (h : SlotHdr) (f : SFmt) (s : State) : Result := scalarFloat (.ffma h f) f.rd s fun r => (r.f32 f.ra).fma (r.f32 f.rb) (r.f32 f.rc)

/-- An element as a scalar register holds it: integers sign- or zero-extended, FP32 zero-extended (R393). -/
def extend (t bits : Nat) : BitVec 64 := if isSigned t then BitVec.ofInt 64 (elemInt t bits) else BitVec.ofNat 64 (bits % 2 ^ (8 * elemBytes t))

/-- FCVT: from TYPE to the type in SUB, FP32 and integers only (R366); the result is extended as LD extends an element (DEDUCED,
log 18). -/
def execFcvt (h : SlotHdr) (f : SFmt) (s : State) : Result :=
  let cmd := Instr.fcvt h f
  slotRun cmd s fun h _ r q s =>
    if 8 < f.sub then s.illegal cmd h q
    else
      let (bits, g) := convElem f.type f.sub (rndOf (q.frm.getD (s.core h.core).frm)) ((r.xr f.ra).toNat % 2 ^ (8 * elemBytes f.type))
      ((s.modRegs h.core (fun x => x.xw f.rd (extend f.sub bits))).stick h.core q.seq g).slotDone cmd h

/-- LD (R387 to R393): one element from memory or from the tile store. -/
def execLd (h : SlotHdr) (f : SFmt) (s : State) : Result :=
  let cmd := Instr.ld h f
  slotRun cmd s fun h k r q s =>
    let w := elemBytes f.type
    let put (bs : Bytes) (s : State) : State := (s.modRegs h.core (fun g => g.xw f.rd (extend f.type (leNat bs)))).slotDone cmd h
    if 1 < f.sub then s.illegal cmd h q
    else if f.sub = 1 then
      let a := tileAddr r f.ra f.imm
      if tileOk k a w then put (s.tileRead h.core a w) s else s.slotRaise cmd h q 3 .notSupported
    else match memPair r f.ra f.imm with
      | none => s.illegal cmd h q
      | some (eid, key, a) =>
        if a % w ≠ 0 then s.slotRaise cmd h q 4 .notSupported
        else s.slotMove cmd h k q eid key [(a, w)] none false fun _ got s => put (Mem.readN got a w) s

/-- ST (R387 to R393): one element to memory or to the tile store. -/
def execSt (h : SlotHdr) (f : SFmt) (s : State) : Result :=
  let cmd := Instr.st h f
  slotRun cmd s fun h k r q s =>
    let w := elemBytes f.type
    let data := natLE w (r.xr f.rb).toNat
    if 1 < f.sub then s.illegal cmd h q
    else if f.sub = 1 then
      let a := tileAddr r f.ra f.imm
      if tileOk k a w then (s.tileWrite h.core a data).slotDone cmd h else s.slotRaise cmd h q 3 .notSupported
    else match memPair r f.ra f.imm with
      | none => s.illegal cmd h q
      | some (eid, key, a) =>
        if a % w ≠ 0 then s.slotRaise cmd h q 4 .notSupported
        else s.slotMove cmd h k q eid key [(a, w)] (some fun _ _ => data) false fun _ _ s => s.slotDone cmd h

/-- AMO (R239 to R247, R393, R394): an atomic at the address of pair RA; IMM names the operation and is no displacement (DEDUCED,
log 18). At this home it is performed as the kernel's context and logged there (R242, R248, R249). -/
def execAmo (h : SlotHdr) (f : SFmt) (s : State) : Result :=
  let cmd := Instr.amo h f
  slotRun cmd s fun h k r q s =>
    let w := 4 * 2 ^ f.sub
    let op := f.imm.toNat % 256
    let pair (n : Nat) : Nat := (r.xr n).toNat + (if f.sub = 2 then 18446744073709551616 * (r.xr (n + 1)).toNat else 0)
    let odd := decide (f.sub = 2) && (decide (f.rd % 2 = 1) || decide (f.rb % 2 = 1) || decide (f.rc % 2 = 1))
    let put (v : Nat) (s : State) : State :=
      (s.modRegs h.core (fun g =>
        let g := g.xw f.rd (BitVec.ofNat 64 v)
        if f.sub = 2 then g.xw (f.rd + 1) (BitVec.ofNat 64 (v / 18446744073709551616)) else g)).slotDone cmd h
    if decide (2 < f.sub) || odd then s.illegal cmd h q
    else match memPair r f.ra 0 with
      | none => s.illegal cmd h q
      | some (eid, key, a) =>
        if a % w ≠ 0 then s.slotRaise cmd h q 4 .notSupported
        else if atomicOk op w a = false then s.slotRaise cmd h q 6 .notSupported
        else if s.isOwn eid then
          let ctx := kernelCtx k.words
          s.slotAccess cmd h k q eid key a w needA 2 (fun st s => (s.selfLog eid ctx st 0).1) (fun rid rg s => s.meetWrite rid rg .direct a w) fun rid _ s =>
            let old := leNat (s.pubBytes rid a w)
            let (s, note) := (s.doAtomic false rid a op w (pair f.rb) (pair f.rc)).selfLog eid ctx .ok old
            put old (s.forward rid a (if op = 1 then [] else s.pubBytes rid a w) (.core h.core) (some note))
        else
          let (n, got) := s.slotParts h.core cmd
          if n = 0 then
            s.slotRemote cmd h k eid opAtomic key a (natLE 1 op ++ natLE 1 w ++ natLE 16 (pair f.rb) ++ natLE 16 (pair f.rc)) false
          else put (leNat (Mem.readN got a w)) s

/-- The value of a status register (R391); none is not listed. SR_CYCLE counts engine cycles, which the model does not: a free
value (log 4). -/
def State.statusReg (s : State) (n : Nat) (k : KernelRun) (q : QSlot) (num : Nat) : Option (BitVec 64) :=
  let c := s.core n
  match num with
  | 0 => some (BitVec.ofNat 64 n)
  | 1 => some (BitVec.ofNat 64 (kernelCtx k.words))
  | 2 => some (BitVec.ofNat 64 s.lmf.eid)
  | 3 => some (BitVec.ofNat 64 s.now)
  | 4 => some (BitVec.ofNat 64 s.freeVal)
  | 5 => some ((q.flags.getD c.flags).zeroExtend 64)
  | 6 => some ((q.frm.getD c.frm).zeroExtend 64)
  | 7 => some (if k.lineMode then 1 else 0)
  | 8 => some (BitVec.ofNat 64 (fld (wAt k.words 7) 10 0))
  | 9 => some (BitVec.ofNat 64 (dAt k.words 24))
  | 10 => some (BitVec.ofNat 64 k.suspends)
  | _ => none

/-- SMOVS (R391, R392). -/
def execSmovs (h : SlotHdr) (f : SFmt) (s : State) : Result :=
  let cmd := Instr.smovs h f
  slotRun cmd s fun h k _ q s =>
    match s.statusReg h.core k q (f.imm.toNat % 256) with
    | some v => ((if f.imm.toNat % 256 = 4 then s.freed else s).modRegs h.core (fun g => g.xw f.rd v)).slotDone cmd h
    | none => s.illegal cmd h q

/-- SMOVT (R391, R392): SR_FLAGS and SR_FRM alone are writable. -/
def execSmovt (h : SlotHdr) (f : SFmt) (s : State) : Result :=
  let cmd := Instr.smovt h f
  slotRun cmd s fun h _ r q s =>
    let c := s.core h.core
    let v := r.xr f.ra
    match f.imm.toNat % 256 with
    | 5 => (s.setCore h.core { c with flags := v.truncate 5 }).slotDone cmd h
    | 6 => if v.toNat % 4 < 2 then (s.setCore h.core { c with frm := v.truncate 2 }).slotDone cmd h else s.illegal cmd h q
    | _ => s.illegal cmd h q

/-- The fields of a tile descriptor; reserved bits read zero (R3, R357). -/
def tileBits (v : BitVec 128) : BitVec 128 := v &&& BitVec.ofNat 128 0x00000000000FFFFF03FF03FF000FFFFF

/-- MSET (R395): no legality check. -/
def execMset (h : SlotHdr) (f : SFmt) (s : State) : Result :=
  let cmd := Instr.mset h f
  slotRun cmd s fun h _ r _ s => (s.modRegs h.core (fun g => g.mw f.rd (tileBits (r.xr f.rb ++ r.xr f.ra)))).slotDone cmd h

/-- MGET: half SUB[0] of a tile descriptor. -/
def execMget (h : SlotHdr) (f : SFmt) (s : State) : Result :=
  let cmd := Instr.mget h f
  slotRun cmd s fun h _ r q s =>
    if 1 < f.sub then s.illegal cmd h q
    else (s.modRegs h.core (fun g => g.xw f.rd (BitVec.extractLsb' (64 * f.sub) 64 (r.mr f.ra)))).slotDone cmd h

/-- PCVT.h2d (R396 to R399): the pair and the predicate, or zeros and a clear predicate. -/
def execPcvtH2d (h : SlotHdr) (f : SFmt) (s : State) : Result :=
  let cmd := Instr.pcvtH2d h f
  slotRun cmd s fun h k r q s =>
    let imm := f.imm.toNat
    if f.rd % 2 = 1 ∨ f.sub ≠ 0 then s.illegal cmd h q
    else
      let found := s.h2d (fld imm 1 0) (fld imm 9 2) (some (kernelCtx k.words)) (r.xr f.ra).toNat
      let put (lo hi : BitVec 64) (p : BitVec 4096) : State := (s.modRegs h.core (fun g => ((g.xw f.rd lo).xw (f.rd + 1) hi).pw f.rc p)).slotDone cmd h
      match found with
      | some (off, key) => put (BitVec.ofNat 64 off) (BitVec.ofNat 64 (s.lmf.eid + 4294967296 * key)) (BitVec.allOnes 4096)
      | none => put 0 0 0

/-- PCVT.d2h (R396 to R399): the host-view address of a memory pair; IMM names the function and is no displacement (DEDUCED, log 18). -/
def execPcvtD2h (h : SlotHdr) (f : SFmt) (s : State) : Result :=
  let cmd := Instr.pcvtD2h h f
  slotRun cmd s fun h k r q s =>
    let imm := f.imm.toNat
    match memPair r f.ra 0 with
    | none => s.illegal cmd h q
    | some (eid, _, off) =>
      let found := if eid = s.lmf.eid then s.d2h (fld imm 1 0) (fld imm 9 2) (some (kernelCtx k.words)) off else none
      let put (v : BitVec 64) (p : BitVec 4096) : State := (s.modRegs h.core (fun g => (g.xw f.rd v).pw f.rc p)).slotDone cmd h
      match found with
      | some a => put (BitVec.ofNat 64 a) (BitVec.allOnes 4096)
      | none => put 0 0

end Sys2Proof.Machine
end

