-- ==== Sys2Proof/Machine/Dispatch.lean ====
section
/-! DEFINITION. One arm per command: which meaning performs it. -/

namespace Sys2Proof.Machine

def exec (i : Instr) (s : State) : Host.Outcome State Fault Refusal :=
  match i with
  | .cxlMemRead port hpa => Sys2Proof.Machine.execCxlMemRead port hpa s
  | .cxlMemWrite port hpa data poison => Sys2Proof.Machine.execCxlMemWrite port hpa data poison s
  | .lmfLoad q => Sys2Proof.Machine.execLmfLoad q s
  | .lmfStore q data => Sys2Proof.Machine.execLmfStore q data s
  | .countedWrite q ckey data => Sys2Proof.Machine.execCountedWrite q ckey data s
  | .rdShared q agent => Sys2Proof.Machine.execRdShared q agent s
  | .rdOwn q agent => Sys2Proof.Machine.execRdOwn q agent s
  | .upgrade q agent => Sys2Proof.Machine.execUpgrade q agent s
  | .invOwn q agent => Sys2Proof.Machine.execInvOwn q agent s
  | .wbDirty q agent data poison => Sys2Proof.Machine.execWbDirty q agent data poison s
  | .evictClean q agent => Sys2Proof.Machine.execEvictClean q agent s
  | .rdUnc q => Sys2Proof.Machine.execRdUnc q s
  | .wrUnc q data mask => Sys2Proof.Machine.execWrUnc q data mask s
  | .ackInv q agent => Sys2Proof.Machine.execAckInv q agent s
  | .rspFwd q agent dirty poison data => Sys2Proof.Machine.execRspFwd q agent dirty poison data s
  | .rspFlush q agent dirty poison data => Sys2Proof.Machine.execRspFlush q agent dirty poison data s
  | .rspNotHeld q agent => Sys2Proof.Machine.execRspNotHeld q agent s
  | .recallDone q agent => Sys2Proof.Machine.execRecallDone q agent s
  | .publish r => Sys2Proof.Machine.execPublish r s
  | .publishSwitch id => Sys2Proof.Machine.execPublishSwitch id s
  | .publishIf r => Sys2Proof.Machine.execPublishIf r s
  | .discard r => Sys2Proof.Machine.execDiscard r s
  | .versionQuery r => Sys2Proof.Machine.execVersionQuery r s
  | .versionPin r => Sys2Proof.Machine.execVersionPin r s
  | .versionUnpin r => Sys2Proof.Machine.execVersionUnpin r s
  | .readAt r => Sys2Proof.Machine.execReadAt r s
  | .counterAlloc r => Sys2Proof.Machine.execCounterAlloc r s
  | .counterFree r => Sys2Proof.Machine.execCounterFree r s
  | .counterReset r => Sys2Proof.Machine.execCounterReset r s
  | .counterRead r => Sys2Proof.Machine.execCounterRead r s
  | .waitCount r => Sys2Proof.Machine.execWaitCount r s
  | .waitCountWake id => Sys2Proof.Machine.execWaitCountWake id s
  | .atomic r => Sys2Proof.Machine.execAtomic r s
  | .atomicStatus r => Sys2Proof.Machine.execAtomicStatus r s
  | .memop r => Sys2Proof.Machine.execMemop r s
  | .memopEnd id => Sys2Proof.Machine.execMemopEnd id s
  | .clearPoison r => Sys2Proof.Machine.execClearPoison r s
  | .mirrorUpdate q data log note => Sys2Proof.Machine.execMirrorUpdate q data log note s
  | .faultRingSet r => Sys2Proof.Machine.execFaultRingSet r s
  | .faultResolve r => Sys2Proof.Machine.execFaultResolve r s
  | .faultResolveAbort r => Sys2Proof.Machine.execFaultResolveAbort r s
  | .create r => Sys2Proof.Machine.execCreate r s
  | .destroy r => Sys2Proof.Machine.execDestroy r s
  | .regionSet r => Sys2Proof.Machine.execRegionSet r s
  | .grant r => Sys2Proof.Machine.execGrant r s
  | .revoke r => Sys2Proof.Machine.execRevoke r s
  | .map r => Sys2Proof.Machine.execMap r s
  | .unmap r => Sys2Proof.Machine.execUnmap r s
  | .convert r => Sys2Proof.Machine.execConvert r s
  | .ctxCreate r => Sys2Proof.Machine.execCtxCreate r s
  | .ctxSet r => Sys2Proof.Machine.execCtxSet r s
  | .ctxReset r => Sys2Proof.Machine.execCtxReset r s
  | .ctxDestroy r => Sys2Proof.Machine.execCtxDestroy r s
  | .tierSet r => Sys2Proof.Machine.execTierSet r s
  | .tierDrain r => Sys2Proof.Machine.execTierDrain r s
  | .tierDrainCancel r => Sys2Proof.Machine.execTierDrainCancel r s
  | .expertSet r => Sys2Proof.Machine.execExpertSet r s
  | .expertClear r => Sys2Proof.Machine.execExpertClear r s
  | .laneAdd r => Sys2Proof.Machine.execLaneAdd r s
  | .laneRemove r => Sys2Proof.Machine.execLaneRemove r s
  | .expertPolicySet r => Sys2Proof.Machine.execExpertPolicySet r s
  | .ssdEnter r => Sys2Proof.Machine.execSsdEnter r s
  | .ssdExit r => Sys2Proof.Machine.execSsdExit r s
  | .microBatchDispatch core => Sys2Proof.Machine.execMicroBatchDispatch core s
  | .trailerWrite id => Sys2Proof.Machine.execTrailerWrite id s
  | .indexCreate r => Sys2Proof.Machine.execIndexCreate r s
  | .indexDestroy r => Sys2Proof.Machine.execIndexDestroy r s
  | .trvQuery r => Sys2Proof.Machine.execTrvQuery r s
  | .queryStart id => Sys2Proof.Machine.execQueryStart id s
  | .shardWalk id shard => Sys2Proof.Machine.execShardWalk id shard s
  | .shardWalkEnd id shard st ret => Sys2Proof.Machine.execShardWalkEnd id shard st ret s
  | .payloadFetchEnd id => Sys2Proof.Machine.execPayloadFetchEnd id s
  | .trvInsert r => Sys2Proof.Machine.execTrvInsert r s
  | .trvDelete r => Sys2Proof.Machine.execTrvDelete r s
  | .sideListAppend id => Sys2Proof.Machine.execSideListAppend id s
  | .trvMerge r => Sys2Proof.Machine.execTrvMerge r s
  | .trvMergeCancel r => Sys2Proof.Machine.execTrvMergeCancel r s
  | .mergeRecord index shard => Sys2Proof.Machine.execMergeRecord index shard s
  | .embTableCreate r => Sys2Proof.Machine.execEmbTableCreate r s
  | .embTableDestroy r => Sys2Proof.Machine.execEmbTableDestroy r s
  | .morBatch r => Sys2Proof.Machine.execMorBatch r s
  | .batchStart mu id => Sys2Proof.Machine.execBatchStart mu id s
  | .batchEnd mu => Sys2Proof.Machine.execBatchEnd mu s
  | .embSwap r => Sys2Proof.Machine.execEmbSwap r s
  | .ropeSet r => Sys2Proof.Machine.execRopeSet r s
  | .ropeAgentAdd r => Sys2Proof.Machine.execRopeAgentAdd r s
  | .ropeAgentRemove r => Sys2Proof.Machine.execRopeAgentRemove r s
  | .fence r => Sys2Proof.Machine.execFence r s
  | .hello r => Sys2Proof.Machine.execHello r s
  | .opStatus r => Sys2Proof.Machine.execOpStatus r s
  | .configSet r => Sys2Proof.Machine.execConfigSet r s
  | .configGet r => Sys2Proof.Machine.execConfigGet r s
  | .noticeRingSet r => Sys2Proof.Machine.execNoticeRingSet r s
  | .fwStage r => Sys2Proof.Machine.execFwStage r s
  | .fwActivate r => Sys2Proof.Machine.execFwActivate r s
  | .fwInfo r => Sys2Proof.Machine.execFwInfo r s
  | .go port fn => Sys2Proof.Machine.execGo port fn s
  | .mbxMsgWrite port fn n w => Sys2Proof.Machine.execMbxMsgWrite port fn n w s
  | .wake port fn w => Sys2Proof.Machine.execWake port fn w s
  | .cqTail port fn w => Sys2Proof.Machine.execCqTail port fn w s
  | .cqEntryTake port => Sys2Proof.Machine.execCqEntryTake port s
  | .cqEnable port => Sys2Proof.Machine.execCqEnable port s
  | .cqDisable port => Sys2Proof.Machine.execCqDisable port s
  | .errlogRead r => Sys2Proof.Machine.execErrlogRead r s
  | .healthRead r => Sys2Proof.Machine.execHealthRead r s
  | .relSet r => Sys2Proof.Machine.execRelSet r s
  | .relGet r => Sys2Proof.Machine.execRelGet r s
  | .quarantine r => Sys2Proof.Machine.execQuarantine r s
  | .quarantineRelease r => Sys2Proof.Machine.execQuarantineRelease r s
  | .spareSet r => Sys2Proof.Machine.execSpareSet r s
  | .rebuildStart r => Sys2Proof.Machine.execRebuildStart r s
  | .takeover r => Sys2Proof.Machine.execTakeover r s
  | .journalClaim r => Sys2Proof.Machine.execJournalClaim r s
  | .journalOffer r => Sys2Proof.Machine.execJournalOffer r s
  | .journalAccept r => Sys2Proof.Machine.execJournalAccept r s
  | .journalRelease r => Sys2Proof.Machine.execJournalRelease r s
  | .journalQuery r => Sys2Proof.Machine.execJournalQuery r s
  | .journalAssign r => Sys2Proof.Machine.execJournalAssign r s
  | .cntRead r => Sys2Proof.Machine.execCntRead r s
  | .cntMode r => Sys2Proof.Machine.execCntMode r s
  | .cntReset r => Sys2Proof.Machine.execCntReset r s
  | .cntSnapshot r => Sys2Proof.Machine.execCntSnapshot r s
  | .cntFreeze r => Sys2Proof.Machine.execCntFreeze r s
  | .cntUnfreeze r => Sys2Proof.Machine.execCntUnfreeze r s
  | .cntCtxSet r => Sys2Proof.Machine.execCntCtxSet r s
  | .bwRead r => Sys2Proof.Machine.execBwRead r s
  | .crnRead r => Sys2Proof.Machine.execCrnRead r s
  | .trcSet r => Sys2Proof.Machine.execTrcSet r s
  | .partnerRead r => Sys2Proof.Machine.execPartnerRead r s
  | .kernelDispatch core => Sys2Proof.Machine.execKernelDispatch core s
  | .bundleDispatch core => Sys2Proof.Machine.execBundleDispatch core s
  | .kernelDrainEnd core => Sys2Proof.Machine.execKernelDrainEnd core s
  | .dmaTransferEnd core id => Sys2Proof.Machine.execDmaTransferEnd core id s
  | .belayRelStore core id => Sys2Proof.Machine.execBelayRelStore core id s
  | .belayAcqSatisfied core id => Sys2Proof.Machine.execBelayAcqSatisfied core id s
  | .waitcntWake core => Sys2Proof.Machine.execWaitcntWake core s
  | .nop h => Sys2Proof.Machine.execNop h s
  | .add h f => Sys2Proof.Machine.execAdd h f s
  | .sub h f => Sys2Proof.Machine.execSub h f s
  | .addi h f => Sys2Proof.Machine.execAddi h f s
  | .li h f => Sys2Proof.Machine.execLi h f s
  | .mul h f => Sys2Proof.Machine.execMul h f s
  | .mulh h f => Sys2Proof.Machine.execMulh h f s
  | .mulhu h f => Sys2Proof.Machine.execMulhu h f s
  | .div h f => Sys2Proof.Machine.execDiv h f s
  | .divu h f => Sys2Proof.Machine.execDivu h f s
  | .rem h f => Sys2Proof.Machine.execRem h f s
  | .and h f => Sys2Proof.Machine.execAnd h f s
  | .or h f => Sys2Proof.Machine.execOr h f s
  | .xor h f => Sys2Proof.Machine.execXor h f s
  | .shl h f => Sys2Proof.Machine.execShl h f s
  | .shr h f => Sys2Proof.Machine.execShr h f s
  | .sra h f => Sys2Proof.Machine.execSra h f s
  | .slt h f => Sys2Proof.Machine.execSlt h f s
  | .sltu h f => Sys2Proof.Machine.execSltu h f s
  | .pcmp h f => Sys2Proof.Machine.execPcmp h f s
  | .pset h f => Sys2Proof.Machine.execPset h f s
  | .fadd h f => Sys2Proof.Machine.execFadd h f s
  | .fmul h f => Sys2Proof.Machine.execFmul h f s
  | .ffma h f => Sys2Proof.Machine.execFfma h f s
  | .fcvt h f => Sys2Proof.Machine.execFcvt h f s
  | .ld h f => Sys2Proof.Machine.execLd h f s
  | .st h f => Sys2Proof.Machine.execSt h f s
  | .amo h f => Sys2Proof.Machine.execAmo h f s
  | .smovs h f => Sys2Proof.Machine.execSmovs h f s
  | .smovt h f => Sys2Proof.Machine.execSmovt h f s
  | .mset h f => Sys2Proof.Machine.execMset h f s
  | .mget h f => Sys2Proof.Machine.execMget h f s
  | .pcvtH2d h f => Sys2Proof.Machine.execPcvtH2d h f s
  | .pcvtD2h h f => Sys2Proof.Machine.execPcvtD2h h f s
  | .vadd h f => Sys2Proof.Machine.execVadd h f s
  | .vsub h f => Sys2Proof.Machine.execVsub h f s
  | .vmul h f => Sys2Proof.Machine.execVmul h f s
  | .vfma h f => Sys2Proof.Machine.execVfma h f s
  | .vmin h f => Sys2Proof.Machine.execVmin h f s
  | .vmax h f => Sys2Proof.Machine.execVmax h f s
  | .vabs h f => Sys2Proof.Machine.execVabs h f s
  | .vneg h f => Sys2Proof.Machine.execVneg h f s
  | .vand h f => Sys2Proof.Machine.execVand h f s
  | .vor h f => Sys2Proof.Machine.execVor h f s
  | .vxor h f => Sys2Proof.Machine.execVxor h f s
  | .vshl h f => Sys2Proof.Machine.execVshl h f s
  | .vshr h f => Sys2Proof.Machine.execVshr h f s
  | .vcmp h f => Sys2Proof.Machine.execVcmp h f s
  | .vsel h f => Sys2Proof.Machine.execVsel h f s
  | .vbcast h f => Sys2Proof.Machine.execVbcast h f s
  | .vcvt h f => Sys2Proof.Machine.execVcvt h f s
  | .vexp2 h f => Sys2Proof.Machine.execVexp2 h f s
  | .vrcp h f => Sys2Proof.Machine.execVrcp h f s
  | .vrsqrt h f => Sys2Proof.Machine.execVrsqrt h f s
  | .vred h f => Sys2Proof.Machine.execVred h f s
  | .vld h f => Sys2Proof.Machine.execVld h f s
  | .vst h f => Sys2Proof.Machine.execVst h f s
  | .dmaCopy h f => Sys2Proof.Machine.execDmaCopy h f s
  | .dmaRw h f => Sys2Proof.Machine.execDmaRw h f s
  | .mma h f => Sys2Proof.Machine.execMma h f s
  | .mmv h f => Sys2Proof.Machine.execMmv h f s
  | .mload h f => Sys2Proof.Machine.execMload h f s
  | .mdrain h f => Sys2Proof.Machine.execMdrain h f s
  | .mclr h f => Sys2Proof.Machine.execMclr h f s
  | .br h f => Sys2Proof.Machine.execBr h f s
  | .brx h f => Sys2Proof.Machine.execBrx h f s
  | .waitcnt h f => Sys2Proof.Machine.execWaitcnt h f s
  | .halt h f => Sys2Proof.Machine.execHalt h f s
  | .belayRel h f => Sys2Proof.Machine.execBelayRel h f s
  | .belayAcq h f => Sys2Proof.Machine.execBelayAcq h f s
  | .belayAccess q store value => Sys2Proof.Machine.execBelayAccess q store value s
  | .fwStageEnd id => Sys2Proof.Machine.execFwStageEnd id s
  | .shardRegister q index shard words => Sys2Proof.Machine.execShardRegister q index shard words s
  | .mirrorPartnerRead q version => Sys2Proof.Machine.execMirrorPartnerRead q version s
  | .faultRecordWrite seq => Sys2Proof.Machine.execFaultRecordWrite seq s
  | .faultHoldExpiry id => Sys2Proof.Machine.execFaultHoldExpiry id s
  | .lmfCompletion tag gen st data sealOk => Sys2Proof.Machine.execLmfCompletion tag gen st data sealOk s
  | .nack id draw => Sys2Proof.Machine.execNack id draw s
  | .backoffExpiry id => Sys2Proof.Machine.execBackoffExpiry id s
  | .transactionTimeout tag => Sys2Proof.Machine.execTransactionTimeout tag s
  | .homeTimeout idx line => Sys2Proof.Machine.execHomeTimeout idx line s
  | .reservationExpiry idx line => Sys2Proof.Machine.execReservationExpiry idx line s
  | .fenceSweep => Sys2Proof.Machine.execFenceSweep s
  | .mirrorReceipt id st => Sys2Proof.Machine.execMirrorReceipt id st s
  | .regionDrainEnd idx => Sys2Proof.Machine.execRegionDrainEnd idx s
  | .ctxResetEnd ctx => Sys2Proof.Machine.execCtxResetEnd ctx s
  | .pageMoveSwitch p => Sys2Proof.Machine.execPageMoveSwitch p s
  | .sourceRetire p => Sys2Proof.Machine.execSourceRetire p s
  | .t1LowSpaceMove => Sys2Proof.Machine.execT1LowSpaceMove s
  | .heatSweep => Sys2Proof.Machine.execHeatSweep s
  | .stripeReclaim p => Sys2Proof.Machine.execStripeReclaim p s
  | .lendOffer eid inc ext sizeGiB lkey => Sys2Proof.Machine.execLendOffer eid inc ext sizeGiB lkey s
  | .lendRecall eid inc ext graceUs => Sys2Proof.Machine.execLendRecall eid inc ext graceUs s
  | .lendGraceExpiry ext => Sys2Proof.Machine.execLendGraceExpiry ext s
  | .pageGroupEncode pages => Sys2Proof.Machine.execPageGroupEncode pages s
  | .slotDecode p slot media => Sys2Proof.Machine.execSlotDecode p slot media s
  | .pageRecovery p src data => Sys2Proof.Machine.execPageRecovery p src data s
  | .scrub p line found => Sys2Proof.Machine.execScrub p line found s
  | .maxWaitExpiry expert => Sys2Proof.Machine.execMaxWaitExpiry expert s
  | .microBatchEnd id st => Sys2Proof.Machine.execMicroBatchEnd id st s
  | .recordRetire index shard n => Sys2Proof.Machine.execRecordRetire index shard n s
  | .slotReclaim index shard n => Sys2Proof.Machine.execSlotReclaim index shard n s
  | .watchdogExpiry => Sys2Proof.Machine.execWatchdogExpiry s
  | .switchoverEnd => Sys2Proof.Machine.execSwitchoverEnd s
  | .standbySync => Sys2Proof.Machine.execStandbySync s
  | .deadlineExpiry id => Sys2Proof.Machine.execDeadlineExpiry id s
  | .cqEnApply port => Sys2Proof.Machine.execCqEnApply port s
  | .registerWrite sp off w => Sys2Proof.Machine.execRegisterWrite sp off w s
  | .readClear sp off newEvent => Sys2Proof.Machine.execReadClear sp off newEvent s
  | .crnSelWrite w => Sys2Proof.Machine.execCrnSelWrite w s
  | .quarantineEffect hw => Sys2Proof.Machine.execQuarantineEffect hw s
  | .partFailed part loc => Sys2Proof.Machine.execPartFailed part loc s
  | .rebuildEnd id spareFailed => Sys2Proof.Machine.execRebuildEnd id spareFailed s
  | .takeoverWaitEnd id => Sys2Proof.Machine.execTakeoverWaitEnd id s
  | .kat hw res => Sys2Proof.Machine.execKat hw res s
  | .healthUpdate hw tempC volt => Sys2Proof.Machine.execHealthUpdate hw tempC volt s
  | .heartbeatSend => Sys2Proof.Machine.execHeartbeatSend s
  | .heartbeat eid inc ftime => Sys2Proof.Machine.execHeartbeat eid inc ftime s
  | .suspect eid => Sys2Proof.Machine.execSuspect eid s
  | .leaseExpiry eid => Sys2Proof.Machine.execLeaseExpiry eid s
  | .dieLoss => Sys2Proof.Machine.execDieLoss s
  | .bwWindowEnd bport rx tx partialDown => Sys2Proof.Machine.execBwWindowEnd bport rx tx partialDown s
  | .powerWindow meanW tjE tjW => Sys2Proof.Machine.execPowerWindow meanW tjE tjW s
  | .gateTimeout d => Sys2Proof.Machine.execGateTimeout d s
  | .offTimeout d => Sys2Proof.Machine.execOffTimeout d s
  | .domainWake d => Sys2Proof.Machine.execDomainWake d s
  | .domainOn d => Sys2Proof.Machine.execDomainOn d s
  | .stretchEpisodeEnd hw start stop => Sys2Proof.Machine.execStretchEpisodeEnd hw start stop s
  | .bivouacEntry => Sys2Proof.Machine.execBivouacEntry s
  | .bivouacExit => Sys2Proof.Machine.execBivouacExit s
  | .timeSyncSend lport => Sys2Proof.Machine.execTimeSyncSend lport s
  | .timeSync lport seq t1 arrival => Sys2Proof.Machine.execTimeSync lport seq t1 arrival s
  | .timeSyncResponse lport steps seq t1 t2 t3 t4 err root => Sys2Proof.Machine.execTimeSyncResponse lport steps seq t1 t2 t3 t4 err root s
  | .holdoverEntry => Sys2Proof.Machine.execHoldoverEntry s
  | .ptpFallback => Sys2Proof.Machine.execPtpFallback s
  | .announce mport domain steps => Sys2Proof.Machine.execAnnounce mport domain steps s
  | .sync mport domain seq origin arrival twoStep => Sys2Proof.Machine.execSync mport domain seq origin arrival twoStep s
  | .followUp mport domain seq origin => Sys2Proof.Machine.execFollowUp mport domain seq origin s
  | .delayResp mport domain seq received => Sys2Proof.Machine.execDelayResp mport domain seq received s
  | .finishRsp peer => Sys2Proof.Machine.execFinishRsp peer s
  | .getVersion peer => Sys2Proof.Machine.execGetVersion peer s
  | .getCapabilities peer => Sys2Proof.Machine.execGetCapabilities peer s
  | .negotiateAlgorithms peer offer => Sys2Proof.Machine.execNegotiateAlgorithms peer offer s
  | .getDigests peer => Sys2Proof.Machine.execGetDigests peer s
  | .getCertificate peer slot => Sys2Proof.Machine.execGetCertificate peer slot s
  | .challenge peer slot => Sys2Proof.Machine.execChallenge peer slot s
  | .getMeasurements peer index nonce => Sys2Proof.Machine.execGetMeasurements peer index nonce s
  | .keyExchange peer share => Sys2Proof.Machine.execKeyExchange peer share s
  | .finish peer mutualAuth anchorOk => Sys2Proof.Machine.execFinish peer mutualAuth anchorOk s
  | .sessionEnd peer => Sys2Proof.Machine.execSessionEnd peer s
  | .linkAdv lport eid inc verMask width role => Sys2Proof.Machine.execLinkAdv lport eid inc verMask width role s
  | .linkStepTimeout lport => Sys2Proof.Machine.execLinkStepTimeout lport s
  | .linkRetryTimer lport => Sys2Proof.Machine.execLinkRetryTimer lport s
  | .flitReplay lport seq => Sys2Proof.Machine.execFlitReplay lport seq s
  | .flitAckTimeout lport => Sys2Proof.Machine.execFlitAckTimeout lport s
  | .linkDown lport => Sys2Proof.Machine.execLinkDown lport s
  | .join fm eid inc ver role lport sealed => Sys2Proof.Machine.execJoin fm eid inc ver role lport sealed s
  | .leave fm eid inc sealed => Sys2Proof.Machine.execLeave fm eid inc sealed s
  | .ownerSet fm port sealed => Sys2Proof.Machine.execOwnerSet fm port sealed s
  | .mgmtFrame mport svc => Sys2Proof.Machine.execMgmtFrame mport svc s
  | .hostLinkUp port pcie => Sys2Proof.Machine.execHostLinkUp port pcie s
  | .hostLinkLoss port => Sys2Proof.Machine.execHostLinkLoss port s
  | .flr port fn => Sys2Proof.Machine.execFlr port fn s
  | .vfEnable port count => Sys2Proof.Machine.execVfEnable port count s
  | .vfDisable port => Sys2Proof.Machine.execVfDisable port s
  | .hdmCommit port dec hpaBase size ways => Sys2Proof.Machine.execHdmCommit port dec hpaBase size ways s
  | .hdmUncommit port dec => Sys2Proof.Machine.execHdmUncommit port dec s
  | .hptPerst port => Sys2Proof.Machine.execHptPerst port s
  | .drivePresenceChange slot present => Sys2Proof.Machine.execDrivePresenceChange slot present s
  | .driveAdmission slot capacity formatOk => Sys2Proof.Machine.execDriveAdmission slot capacity formatOk s
  | .asyncEvent slot failure => Sys2Proof.Machine.execAsyncEvent slot failure s
  | .dimmTemp ch dimm hot => Sys2Proof.Machine.execDimmTemp ch dimm hot s
  | .pkgRstRelease img => Sys2Proof.Machine.execPkgRstRelease img s
  | .pkgRstAssert => Sys2Proof.Machine.execPkgRstAssert s
  | .railPg rail img => Sys2Proof.Machine.execRailPg rail img s
  | .railPgTimeout rail die => Sys2Proof.Machine.execRailPgTimeout rail die s
  | .railFault rail die below85 => Sys2Proof.Machine.execRailFault rail die below85 s
  | .aonSupplyLoss => Sys2Proof.Machine.execAonSupplyLoss s
  | .refclkLoss die => Sys2Proof.Machine.execRefclkLoss die s
  | .hptRefclkLoss port => Sys2Proof.Machine.execHptRefclkLoss port s
  | .thermtrip => Sys2Proof.Machine.execThermtrip s
  | .trst => Sys2Proof.Machine.execTrst s
  | .idcode => Sys2Proof.Machine.execIdcode s
  | .samplePreload cells => Sys2Proof.Machine.execSamplePreload cells s
  | .extest cells => Sys2Proof.Machine.execExtest cells s
  | .clamp => Sys2Proof.Machine.execClamp s
  | .highz => Sys2Proof.Machine.execHighz s
  | .extestPulse => Sys2Proof.Machine.execExtestPulse s
  | .extestTrain => Sys2Proof.Machine.execExtestTrain s
  | .bypass code => Sys2Proof.Machine.execBypass code s
  | .setdasa target addr => Sys2Proof.Machine.execSetdasa target addr s
  | .entdaa target addr => Sys2Proof.Machine.execEntdaa target addr s
  | .regRead off => Sys2Proof.Machine.execRegRead off s
  | .regWrite off w => Sys2Proof.Machine.execRegWrite off w s
  | .storeWrite addr data => Sys2Proof.Machine.execStoreWrite addr data s
  | .storeRead addr => Sys2Proof.Machine.execStoreRead addr s
  | .storeStatus => Sys2Proof.Machine.execStoreStatus s
  | .clocksStable core => Sys2Proof.Machine.execClocksStable core s
  | .prepareDone core => Sys2Proof.Machine.execPrepareDone core s
  | .kernelSuspend core => Sys2Proof.Machine.execKernelSuspend core s
  | .saveDone core => Sys2Proof.Machine.execSaveDone core s
  | .restoreDone core => Sys2Proof.Machine.execRestoreDone core s
  | .acquireRetry core id => Sys2Proof.Machine.execAcquireRetry core id s
  | .basecampEccError => Sys2Proof.Machine.execBasecampEccError s
  | .driveLinkLoss slot => Sys2Proof.Machine.execDriveLinkLoss slot s
  | .powerOn => Sys2Proof.Machine.execPowerOn s
  | .storeWriteEnd ok => Sys2Proof.Machine.execStoreWriteEnd ok s
  | .keyExchangeRsp peer chainOk sigOk mutualAuth => Sys2Proof.Machine.execKeyExchangeRsp peer chainOk sigOk mutualAuth s
  | .delayReq mport domain seq departure => Sys2Proof.Machine.execDelayReq mport domain seq departure s
  | .transportKeyRetire idx => Sys2Proof.Machine.execTransportKeyRetire idx s
  | .flitCrcFailure lport seq => Sys2Proof.Machine.execFlitCrcFailure lport seq s
  | .memoryDeviceMailbox port opcode payload => Sys2Proof.Machine.execMemoryDeviceMailbox port opcode payload s
  | .doeRequest port kind => Sys2Proof.Machine.execDoeRequest port kind s

end Sys2Proof.Machine
end

