-- ==== Sys2Proof/Machine/Step.lean ====
section
/-! DEFINITION. One step: the command at the front of the queue, else a released command, else one AON cycle. -/

namespace Sys2Proof.Machine

/-- One step of the block. With a command waiting, the one at the front is performed on the state that has the rest.
With none waiting, a command whose hold has ended is performed again; with none of those either, fabric time advances by one
AON cycle of 40 ns (DESIGN CHOICE, log 2). -/
def step (s : State) : Host.Outcome State Fault Refusal :=
  match s.pending with
  | c :: rest => exec c { s with pending := rest }
  | [] =>
    match s.resume with
    | a :: more =>
      match exec a.cmd (s.again a more) with
      | .next t => .next (t.resumed a)
      | .fault f => .fault f
      | .refused r => .refused r
    | [] => .next s.tick

/-- The state with the command a word spells put at the front of its queue; unchanged where the word spells none. -/
def State.withFetchWord (s : State) (nbits w : Nat) : State :=
  match decodeTableWord nbits w with
  | some c => { s with pending := c :: s.pending }
  | none => s

end Sys2Proof.Machine
end

