-- ==== Sys2Proof/WellFormed.lean ====
section
/-! DEFINITION. Which commands are well formed: every operand within the width the spec gives it. -/

namespace Sys2Proof

/-- The fields of a REQ header fit their widths (R661; the pointer's bits [71:70], R40). -/
def LmfReq.wf (q : LmfReq) : Bool :=
  decide (q.port < 32) && decide (q.dstEid < 262144) && decide (q.srcEid < 262144) && decide (q.srcInc < 4294967296)
    && decide (q.tag < 131072) && decide (q.gen < 128) && decide (q.level < 4) && decide (q.retry < 16) && decide (q.ctx < 4096)
    && decide (q.key < 4294967296) && decide (q.offset < 18446744073709551616) && decide (q.ptrHi < 4)
    && decide (q.limit < 18446744073709551616)

/-- A request has a header and at most fifteen operand words over a channel; the native LMF form of MEMOP adds its
descriptor and completion record (R257). -/
def BciReq.wf (r : BciReq) : Bool :=
  decide (1 ≤ r.words.length) && decide (r.words.length ≤ 32) &&
  match r.src with
  | .fn port fn => decide (port < 4) && decide (fn < 256)
  | .lmfBci q => q.wf
  | .lmf q => q.wf
  | .mgmt m => decide (m < 2)

/-- The header of a slot (R347): four cores, eight slots, sixteen predicates. -/
def SlotHdr.wf (h : SlotHdr) : Bool := decide (h.core < 4) && decide (h.slot < 8) && decide (h.pred < 16)

/-- Operand format S (R385). -/
def SFmt.wf (f : SFmt) : Bool :=
  decide (f.rd < 64) && decide (f.ra < 64) && decide (f.rb < 64) && decide (f.rc < 64) && decide (f.type < 16) && decide (f.sub < 256)

/-- Operand format V (R385). -/
def VFmt.wf (f : VFmt) : Bool :=
  decide (f.vd < 64) && decide (f.va < 64) && decide (f.vb < 64) && decide (f.vc < 64) && decide (f.pd < 64) && decide (f.type < 16)
    && decide (f.type2 < 16) && decide (f.sub < 256) && decide (f.xs < 64)

/-- Operand format L (R385). -/
def LFmt.wf (f : LFmt) : Bool :=
  decide (f.vd < 64) && decide (f.ra < 64) && decide (f.rb < 64) && decide (f.rc < 64) && decide (f.re < 64) && decide (f.sub < 256)
    && decide (f.type < 16)

/-- Operand format M (R385). -/
def MFmt.wf (f : MFmt) : Bool :=
  decide (f.acc < 4) && decide (f.md < 16) && decide (f.ma < 16) && decide (f.mb < 16) && decide (f.ra < 64) && decide (f.rb < 64)
    && decide (f.sub < 256)

/-- Operand format C (R385). -/
def CFmt.wf (f : CFmt) : Bool := decide (f.ra < 64) && decide (f.rb < 64) && decide (f.rc < 64) && decide (f.sub < 256)

/-- The domains of R688. -/
def Domain.wf : Domain → Bool
  | .aon => true
  | .core n => decide (n < 4)
  | .talus d => decide (d < 2)
  | .trv n => decide (n < 4)
  | .mor n => decide (n < 4)
  | .mem d => decide (d < 2)
  | .fab d => decide (d < 2)
  | .bc d => decide (d < 2)

/-- The register spaces: four ports of 256 functions, one BAR2 a port, one management space. -/
def RegSpace.wf : RegSpace → Bool
  | .fn port f => decide (port < 4) && decide (f < 256)
  | .bar2 port => decide (port < 4)
  | .mgmt => true

/-- The far end of an SPDM exchange (R775). -/
def Peer.wf : Peer → Bool
  | .doe port => decide (port < 4)
  | .mctp => true
  | .mgmt m => decide (m < 2)
  | .lmf eid inc => decide (eid < 262144) && decide (inc < 4294967296)
  | .fm eid => decide (eid < 262144)

/-- A command is well formed when each operand is within its width. -/
def Instr.wf : Instr → Bool
  | .cxlMemRead port _ => decide (port < 4)
  | .cxlMemWrite port _ _ _ => decide (port < 4)
  | .lmfLoad q => q.wf
  | .lmfStore q _ => q.wf
  | .countedWrite q ckey _ => q.wf && decide (ckey < 4294967296)
  | .rdShared q agent => q.wf && decide (agent < 64)
  | .rdOwn q agent => q.wf && decide (agent < 64)
  | .upgrade q agent => q.wf && decide (agent < 64)
  | .invOwn q agent => q.wf && decide (agent < 64)
  | .wbDirty q agent _ _ => q.wf && decide (agent < 64)
  | .evictClean q agent => q.wf && decide (agent < 64)
  | .rdUnc q => q.wf
  | .wrUnc q _ _ => q.wf
  | .ackInv q agent => q.wf && decide (agent < 64)
  | .rspFwd q agent _ _ _ => q.wf && decide (agent < 64)
  | .rspFlush q agent _ _ _ => q.wf && decide (agent < 64)
  | .rspNotHeld q agent => q.wf && decide (agent < 64)
  | .recallDone q agent => q.wf && decide (agent < 64)
  | .publish r => r.wf
  | .publishSwitch _ => true
  | .publishIf r => r.wf
  | .discard r => r.wf
  | .versionQuery r => r.wf
  | .versionPin r => r.wf
  | .versionUnpin r => r.wf
  | .readAt r => r.wf
  | .counterAlloc r => r.wf
  | .counterFree r => r.wf
  | .counterReset r => r.wf
  | .counterRead r => r.wf
  | .waitCount r => r.wf
  | .waitCountWake _ => true
  | .atomic r => r.wf
  | .atomicStatus r => r.wf
  | .memop r => r.wf
  | .memopEnd _ => true
  | .clearPoison r => r.wf
  | .mirrorUpdate q _ _ _ => q.wf
  | .faultRingSet r => r.wf
  | .faultResolve r => r.wf
  | .faultResolveAbort r => r.wf
  | .create r => r.wf
  | .destroy r => r.wf
  | .regionSet r => r.wf
  | .grant r => r.wf
  | .revoke r => r.wf
  | .map r => r.wf
  | .unmap r => r.wf
  | .convert r => r.wf
  | .ctxCreate r => r.wf
  | .ctxSet r => r.wf
  | .ctxReset r => r.wf
  | .ctxDestroy r => r.wf
  | .tierSet r => r.wf
  | .tierDrain r => r.wf
  | .tierDrainCancel r => r.wf
  | .expertSet r => r.wf
  | .expertClear r => r.wf
  | .laneAdd r => r.wf
  | .laneRemove r => r.wf
  | .expertPolicySet r => r.wf
  | .ssdEnter r => r.wf
  | .ssdExit r => r.wf
  | .microBatchDispatch core => decide (core < 4)
  | .trailerWrite _ => true
  | .indexCreate r => r.wf
  | .indexDestroy r => r.wf
  | .trvQuery r => r.wf
  | .queryStart _ => true
  | .shardWalk _ shard => decide (shard < 4096)
  | .shardWalkEnd _ shard _ _ => decide (shard < 4096)
  | .payloadFetchEnd _ => true
  | .trvInsert r => r.wf
  | .trvDelete r => r.wf
  | .sideListAppend _ => true
  | .trvMerge r => r.wf
  | .trvMergeCancel r => r.wf
  | .mergeRecord index shard => decide (index < 256) && decide (shard < 4096)
  | .embTableCreate r => r.wf
  | .embTableDestroy r => r.wf
  | .morBatch r => r.wf
  | .batchStart mu _ => decide (mu < 4)
  | .batchEnd mu => decide (mu < 4)
  | .embSwap r => r.wf
  | .ropeSet r => r.wf
  | .ropeAgentAdd r => r.wf
  | .ropeAgentRemove r => r.wf
  | .fence r => r.wf
  | .hello r => r.wf
  | .opStatus r => r.wf
  | .configSet r => r.wf
  | .configGet r => r.wf
  | .noticeRingSet r => r.wf
  | .fwStage r => r.wf
  | .fwActivate r => r.wf
  | .fwInfo r => r.wf
  | .go port fn => decide (port < 4) && decide (fn < 256)
  | .mbxMsgWrite port fn n _ => decide (port < 4) && decide (fn < 256) && decide (n < 16)
  | .wake port fn _ => decide (port < 4) && decide (fn < 256)
  | .cqTail port fn _ => decide (port < 4) && decide (fn < 256)
  | .cqEntryTake port => decide (port < 4)
  | .cqEnable port => decide (port < 4)
  | .cqDisable port => decide (port < 4)
  | .errlogRead r => r.wf
  | .healthRead r => r.wf
  | .relSet r => r.wf
  | .relGet r => r.wf
  | .quarantine r => r.wf
  | .quarantineRelease r => r.wf
  | .spareSet r => r.wf
  | .rebuildStart r => r.wf
  | .takeover r => r.wf
  | .journalClaim r => r.wf
  | .journalOffer r => r.wf
  | .journalAccept r => r.wf
  | .journalRelease r => r.wf
  | .journalQuery r => r.wf
  | .journalAssign r => r.wf
  | .cntRead r => r.wf
  | .cntMode r => r.wf
  | .cntReset r => r.wf
  | .cntSnapshot r => r.wf
  | .cntFreeze r => r.wf
  | .cntUnfreeze r => r.wf
  | .cntCtxSet r => r.wf
  | .bwRead r => r.wf
  | .crnRead r => r.wf
  | .trcSet r => r.wf
  | .partnerRead r => r.wf
  | .kernelDispatch core => decide (core < 4)
  | .bundleDispatch core => decide (core < 4)
  | .kernelDrainEnd core => decide (core < 4)
  | .dmaTransferEnd core _ => decide (core < 4)
  | .belayRelStore core _ => decide (core < 4)
  | .belayAcqSatisfied core _ => decide (core < 4)
  | .waitcntWake core => decide (core < 4)
  | .nop h => h.wf
  | .add h f => h.wf && f.wf
  | .sub h f => h.wf && f.wf
  | .addi h f => h.wf && f.wf
  | .li h f => h.wf && f.wf
  | .mul h f => h.wf && f.wf
  | .mulh h f => h.wf && f.wf
  | .mulhu h f => h.wf && f.wf
  | .div h f => h.wf && f.wf
  | .divu h f => h.wf && f.wf
  | .rem h f => h.wf && f.wf
  | .and h f => h.wf && f.wf
  | .or h f => h.wf && f.wf
  | .xor h f => h.wf && f.wf
  | .shl h f => h.wf && f.wf
  | .shr h f => h.wf && f.wf
  | .sra h f => h.wf && f.wf
  | .slt h f => h.wf && f.wf
  | .sltu h f => h.wf && f.wf
  | .pcmp h f => h.wf && f.wf
  | .pset h f => h.wf && f.wf
  | .fadd h f => h.wf && f.wf
  | .fmul h f => h.wf && f.wf
  | .ffma h f => h.wf && f.wf
  | .fcvt h f => h.wf && f.wf
  | .ld h f => h.wf && f.wf
  | .st h f => h.wf && f.wf
  | .amo h f => h.wf && f.wf
  | .smovs h f => h.wf && f.wf
  | .smovt h f => h.wf && f.wf
  | .mset h f => h.wf && f.wf
  | .mget h f => h.wf && f.wf
  | .pcvtH2d h f => h.wf && f.wf
  | .pcvtD2h h f => h.wf && f.wf
  | .vadd h f => h.wf && f.wf
  | .vsub h f => h.wf && f.wf
  | .vmul h f => h.wf && f.wf
  | .vfma h f => h.wf && f.wf
  | .vmin h f => h.wf && f.wf
  | .vmax h f => h.wf && f.wf
  | .vabs h f => h.wf && f.wf
  | .vneg h f => h.wf && f.wf
  | .vand h f => h.wf && f.wf
  | .vor h f => h.wf && f.wf
  | .vxor h f => h.wf && f.wf
  | .vshl h f => h.wf && f.wf
  | .vshr h f => h.wf && f.wf
  | .vcmp h f => h.wf && f.wf
  | .vsel h f => h.wf && f.wf
  | .vbcast h f => h.wf && f.wf
  | .vcvt h f => h.wf && f.wf
  | .vexp2 h f => h.wf && f.wf
  | .vrcp h f => h.wf && f.wf
  | .vrsqrt h f => h.wf && f.wf
  | .vred h f => h.wf && f.wf
  | .vld h f => h.wf && f.wf
  | .vst h f => h.wf && f.wf
  | .dmaCopy h f => h.wf && f.wf
  | .dmaRw h f => h.wf && f.wf
  | .mma h f => h.wf && f.wf
  | .mmv h f => h.wf && f.wf
  | .mload h f => h.wf && f.wf
  | .mdrain h f => h.wf && f.wf
  | .mclr h f => h.wf && f.wf
  | .br h f => h.wf && f.wf
  | .brx h f => h.wf && f.wf
  | .waitcnt h f => h.wf && f.wf
  | .halt h f => h.wf && f.wf
  | .belayRel h f => h.wf && f.wf
  | .belayAcq h f => h.wf && f.wf
  | .belayAccess q _ _ => q.wf
  | .fwStageEnd _ => true
  | .shardRegister q index shard _ => q.wf && decide (index < 256) && decide (shard < 4096)
  | .mirrorPartnerRead q version => q.wf && decide (version < 18446744073709551616)
  | .faultRecordWrite _ => true
  | .faultHoldExpiry _ => true
  | .lmfCompletion tag gen _ _ _ => decide (tag < 131072) && decide (gen < 128)
  | .nack _ draw => decide (draw < 65536)
  | .backoffExpiry _ => true
  | .transactionTimeout tag => decide (tag < 131072)
  | .homeTimeout idx line => decide (idx < 65536) && decide (line < 18446744073709551616)
  | .reservationExpiry idx line => decide (idx < 65536) && decide (line < 18446744073709551616)
  | .fenceSweep => true
  | .mirrorReceipt _ _ => true
  | .regionDrainEnd idx => decide (idx < 65536)
  | .ctxResetEnd ctx => decide (ctx < 4096)
  | .pageMoveSwitch _ => true
  | .sourceRetire _ => true
  | .t1LowSpaceMove => true
  | .heatSweep => true
  | .stripeReclaim _ => true
  | .lendOffer eid inc _ _ _ => decide (eid < 262144) && decide (inc < 4294967296)
  | .lendRecall eid inc _ _ => decide (eid < 262144) && decide (inc < 4294967296)
  | .lendGraceExpiry _ => true
  | .pageGroupEncode _ => true
  | .slotDecode _ slot _ => decide (slot < 16)
  | .pageRecovery _ _ _ => true
  | .scrub _ line _ => decide (line < 1024)
  | .maxWaitExpiry expert => decide (expert < 16384)
  | .microBatchEnd _ _ => true
  | .recordRetire index shard n => decide (index < 256) && decide (shard < 4096) && decide (n < 4294967296)
  | .slotReclaim index shard n => decide (index < 256) && decide (shard < 4096) && decide (n < 4294967296)
  | .watchdogExpiry => true
  | .switchoverEnd => true
  | .standbySync => true
  | .deadlineExpiry _ => true
  | .cqEnApply port => decide (port < 4)
  | .registerWrite sp off _ => sp.wf && decide (off < 65536)
  | .readClear sp off _ => sp.wf && decide (off < 65536)
  | .crnSelWrite _ => true
  | .quarantineEffect hw => decide (hw < 512)
  | .partFailed _ _ => true
  | .rebuildEnd _ _ => true
  | .takeoverWaitEnd _ => true
  | .kat hw _ => decide (hw < 512)
  | .healthUpdate hw _ _ => decide (hw < 512)
  | .heartbeatSend => true
  | .heartbeat eid inc _ => decide (eid < 262144) && decide (inc < 4294967296)
  | .suspect eid => decide (eid < 262144)
  | .leaseExpiry eid => decide (eid < 262144)
  | .dieLoss => true
  | .bwWindowEnd bport _ _ _ => decide (bport < 64)
  | .powerWindow _ _ _ => true
  | .gateTimeout d => d.wf
  | .offTimeout d => d.wf
  | .domainWake d => d.wf
  | .domainOn d => d.wf
  | .stretchEpisodeEnd hw _ _ => decide (hw < 512)
  | .bivouacEntry => true
  | .bivouacExit => true
  | .timeSyncSend lport => decide (lport < 32)
  | .timeSync lport _ _ _ => decide (lport < 32)
  | .timeSyncResponse lport steps _ _ _ _ _ _ _ => decide (lport < 32) && decide (steps < 256)
  | .holdoverEntry => true
  | .ptpFallback => true
  | .announce mport domain steps => decide (mport < 2) && decide (domain < 256) && decide (steps < 256)
  | .sync mport domain _ _ _ _ => decide (mport < 2) && decide (domain < 256)
  | .followUp mport domain _ _ => decide (mport < 2) && decide (domain < 256)
  | .delayResp mport domain _ _ => decide (mport < 2) && decide (domain < 256)
  | .finishRsp peer => peer.wf
  | .getVersion peer => peer.wf
  | .getCapabilities peer => peer.wf
  | .negotiateAlgorithms peer _ => peer.wf
  | .getDigests peer => peer.wf
  | .getCertificate peer slot => peer.wf && decide (slot < 8)
  | .challenge peer slot => peer.wf && decide (slot < 8)
  | .getMeasurements peer index nonce => peer.wf && decide (index < 256) && decide (nonce < 4294967296)
  | .keyExchange peer share => peer.wf && decide (share < 4294967296)
  | .finish peer _ _ => peer.wf
  | .sessionEnd peer => peer.wf
  | .linkAdv lport eid inc _ _ _ => decide (lport < 32) && decide (eid < 262144) && decide (inc < 4294967296)
  | .linkStepTimeout lport => decide (lport < 32)
  | .linkRetryTimer lport => decide (lport < 32)
  | .flitReplay lport _ => decide (lport < 32)
  | .flitAckTimeout lport => decide (lport < 32)
  | .linkDown lport => decide (lport < 32)
  | .join fm eid inc _ _ lport _ => decide (fm < 262144) && decide (eid < 262144) && decide (inc < 4294967296) && decide (lport < 32)
  | .leave fm eid inc _ => decide (fm < 262144) && decide (eid < 262144) && decide (inc < 4294967296)
  | .ownerSet fm port _ => decide (fm < 262144) && decide (port < 4)
  | .mgmtFrame mport _ => decide (mport < 2)
  | .hostLinkUp port _ => decide (port < 4)
  | .hostLinkLoss port => decide (port < 4)
  | .flr port fn => decide (port < 4) && decide (fn < 256)
  | .vfEnable port count => decide (port < 4) && decide (count < 256)
  | .vfDisable port => decide (port < 4)
  | .hdmCommit port dec _ _ _ => decide (port < 4) && decide (dec < 32)
  | .hdmUncommit port dec => decide (port < 4) && decide (dec < 32)
  | .hptPerst port => decide (port < 4)
  | .drivePresenceChange slot _ => decide (slot < 12)
  | .driveAdmission slot _ _ => decide (slot < 12)
  | .asyncEvent slot _ => decide (slot < 12)
  | .dimmTemp ch dimm _ => decide (ch < 16) && decide (dimm < 2)
  | .pkgRstRelease _ => true
  | .pkgRstAssert => true
  | .railPg rail _ => decide (rail < 8)
  | .railPgTimeout rail die => decide (rail < 8) && decide (die < 2)
  | .railFault rail die _ => decide (rail < 8) && decide (die < 2)
  | .aonSupplyLoss => true
  | .refclkLoss die => decide (die < 2)
  | .hptRefclkLoss port => decide (port < 4)
  | .thermtrip => true
  | .trst => true
  | .idcode => true
  | .samplePreload _ => true
  | .extest _ => true
  | .clamp => true
  | .highz => true
  | .extestPulse => true
  | .extestTrain => true
  | .bypass code => decide (code < 256)
  | .setdasa _ _ => true
  | .entdaa _ _ => true
  | .regRead off => decide (off < 65536)
  | .regWrite off _ => decide (off < 65536)
  | .storeWrite _ _ => true
  | .storeRead _ => true
  | .storeStatus => true
  | .clocksStable core => decide (core < 4)
  | .prepareDone core => decide (core < 4)
  | .kernelSuspend core => decide (core < 4)
  | .saveDone core => decide (core < 4)
  | .restoreDone core => decide (core < 4)
  | .acquireRetry core _ => decide (core < 4)
  | .basecampEccError => true
  | .driveLinkLoss slot => decide (slot < 12)
  | .powerOn => true
  | .storeWriteEnd _ => true
  | .keyExchangeRsp peer _ _ _ => peer.wf
  | .delayReq mport domain _ _ => decide (mport < 2) && decide (domain < 256)
  | .transportKeyRetire idx => decide (idx < 65536)
  | .flitCrcFailure lport _ => decide (lport < 32)
  | .memoryDeviceMailbox port opcode _ => decide (port < 4) && decide (opcode < 65536)
  | .doeRequest port _ => decide (port < 4)

end Sys2Proof
end

