-- ==== Sys2Proof/Safety.lean ====
section
/-! DEFINITION. What counts as a safe run. -/

namespace Sys2Proof.Machine

/-- The state hangs together: the boot store is in its canonical form, a booted package has its AON supply and is out of reset (R843), the
owning-host role is on one of the four ports (R29, R634), and fabric time fits its 64 bits (R705). -/
structure State.Sound (s : State) : Prop where
  store : Mem.wf s.pkg.store = true
  booted : s.pkg.booted = true → s.pkg.aonUp = true ∧ s.pkg.rstN = true
  owner : s.host.owner < 4
  clock : s.time.now < 2 ^ 64

/-- A run of `n` steps that meets no fault and no refusal, and ends in a sound state. -/
def SafeRun (n : Nat) (s : State) : Prop := ∃ t, Host.Core.run Sys2Proof.core n s = .next t ∧ State.Sound t

/-- A request that reaches its command: over a function's channel once GO has handed it to firmware, in an LMF BCI request, in the LMF form of its own, under
the source that its link gives it (R52, R661), or over a management session, outside a switchover and no repeat, and past the checks of its class (R556, R558, R561, R562, R565, R790): the issuer
it is judged as, and the state its command runs on. `row` is its row of the command catalogue (R568). -/
def State.ready (cmd : Instr) (row : BciRow) (r : BciReq) (s : State) : Option (Issuer × State) :=
  if s.runs && s.replayOf.isNone && decide (s.bci.phase ≠ .switching) then
    match r.src with
    | .fn p f =>
      match (s.fnWin p f).chan with
      | none => none
      | some c =>
        let ch := s.channel c
        if s.fnEnabled p f && decide (ch.busy = some r.words) && ch.handed && !(decide (ch.lastSeq = some r.seq) && decide (ch.lastOp = r.opcode)) then
          let u := s.setChannel c { ch with handed := false }
          match u.bciAdmit row r (if row.op = 1 then some (3, 4) else ch.session) ch.wasOwner with
          | .ok i => some (i, u)
          | .error _ => none
        else none
    | .lmfBci q =>
      if s.sourced q ≠ q then none
      else match s.arrive cmd q row.v3 true with
      | .error _ => none
      | .ok u =>
        match u.channelOf (.lmf q.srcEid) with
        | none => none
        | some c =>
          let ch := u.channel c
          if ch.busy.isNone && decide (u.bci.phase ≠ .switching) && u.replayOf.isNone && !(decide (ch.lastSeq = some r.seq) && decide (ch.lastOp = r.opcode)) then
            let v := u.setChannel c { ch with busy := some r.words, wasOwner := false }
            match v.bciAdmit row r (if row.op = 1 then some (3, 4) else ch.session) false with
            | .ok i => some (i, v)
            | .error _ => none
          else none
    | .lmf q =>
      if s.sourced q ≠ q then none
      else match s.arrive cmd q row.v3 true with
      | .error _ => none
      | .ok u =>
        if decide (u.bci.phase ≠ .switching) && !row.owner && !row.priv && !row.resv r && nativeOps.contains row.op then some (LmfIssuer q, u) else none
    | .mgmt m =>
      if s.inSession (.mgmt m) && (row.priv || decide (row.op = 288 ∨ row.op = 290 ∨ row.op = 293)) && !malformed row r then
        some ({ eid := s.lmf.eid, ctx := 0, admin := true }, s)
      else none
  else none

/-- An LMF request, under the source that its link gives it (R52, R661), that the arrival checks let pass (R53, R54, R662, R666, R670, R678), with the state it is served on. -/
def State.taken (cmd : Instr) (q : LmfReq) (v3 payload : Bool) (s : State) : Option State :=
  if s.runs && decide (s.sourced q = q) then (match s.arrive cmd q v3 payload with | .ok u => some u | .error _ => none) else none

/-- An LMF access that reaches its region: it passes the arrival checks, its length, the checks of R62, the lease (R740) and the recall (R318): the state
it is served on, and its region. -/
def State.accesses (cmd : Instr) (q : LmfReq) (v3 payload : Bool) (need : Rights) (s : State) : Option (State × Nat × Region) :=
  match s.taken cmd q v3 payload with
  | none => none
  | some u =>
    if q.len ≤ 4096 ∧ inBlock q.offset q.len = true then
      match u.permit q.dstEid q.key q.offset q.len need (LmfIssuer q) with
      | some (rid, rg) => if u.gate rid rg = none then some (u, rid, rg) else none
      | none => none
    else none

/-- A caching request of a team's agent that reaches the table of R291 (R274, R285, R874): the state it is handled on, and its region. -/
def State.caches (cmd : Instr) (q : LmfReq) (agent : Nat) (need : Rights) (payload writes : Bool) (s : State) : Option (State × Nat × Region) :=
  match s.taken cmd q true payload with
  | none => none
  | some u =>
    match u.permit q.dstEid q.key (q.offset / 64 * 64) 64 need (LmfIssuer q) with
    | none => none
    | some (rid, rg) =>
      let p := q.offset / 65536
      let recovering : Bool := match (u.viewRef rg p .pub).bind u.page? with | some pg => pg.recovering | none => false
      if u.agentOk agent q && decide (rg.mode = .coherent) && decide (u.gate rid rg = none) && decide (rg.entry p ≠ .fault) && !((rg.entry p).isRo && writes)
          && !recovering then some (u, rid, rg) else none

/-- A line of the directory with nothing fenced, poisoned, reserved or waiting, in a directory that is not full. -/
def State.lineCalm (s : State) (rid ln : Nat) : Bool :=
  decide (s.rope.fencedAgents = []) && decide (s.home.revokes = []) && !s.linePoisoned rid ln && decide ((s.lineD rid ln).resv = []) && decide (s.rope.lines.length < 16)

/-- A snoop response of a current agent that the line awaits, in a team with nothing fenced. -/
def State.answersSnoop (s : State) (q : LmfReq) (agent : Nat) : Bool :=
  s.runs && decide (s.sourced q = q) && decide (s.judge q.srcEid q.srcInc = .current) && s.agentOk agent q && decide (s.rope.fencedAgents = []) && decide (s.home.revokes = [])
    && decide (agent ∈ (s.lineD (s.ridOf q.dstEid q.key) (q.offset / 64)).awaited)

/-- A request's access to the region its key names passes R62 and meets neither a lost lease nor a recall. -/
def State.opens (s : State) (r : BciReq) (i : Issuer) (key off n : Nat) (need : Rights) : Option (Nat × Region) :=
  match s.permit (s.reqHome r) key off n need i with
  | some (rid, rg) => if s.gate rid rg = none then some (rid, rg) else none
  | none => none

/-- The page at an offset has no leaf, or a leaf on a page that the tiers hold. -/
def State.pageHeld (s : State) (rg : Region) (off : Nat) : Bool :=
  match rg.handleOf (off / 65536) with
  | some h => (s.handle? h).isSome
  | none => true

/-- A view of region `rid` shows the bytes `data` at an offset. -/
def State.shows (s : State) (rid : Nat) (v : View) (off : Nat) (data : Bytes) : Prop :=
  ∃ r, s.region? rid = some r ∧ s.readRange r v off data.length = data

/-- Every handle of the tiers is below the next one to be given out. -/
def State.Fresh (s : State) : Prop := ∀ k hd, Tab.get? s.home.pages k = some hd → k < s.home.nextHandle

/-- The page that a write at an offset of a region goes to: the one its leaf names, or the one it allocates (R71, R73). -/
def State.pageFor (s : State) (rg : Region) (off : Nat) : Nat := (rg.handleOf (off / 65536)).getD s.home.nextHandle

/-- Memory as it was: every page the tiers hold in `s` they hold in `t` for the same place. The bytes of its published version are those of before, but
for those from `lo` up to `hi` of the page `g`; so are those of every old version, and of every shadow page but those `own` picks. -/
def State.KeepsBytes (s t : State) (g lo hi : Nat) (own : Nat → Nat → Bool) : Prop :=
  ∀ k hd, Tab.get? s.home.pages k = some hd → ∃ x, Tab.get? t.home.pages k = some x ∧ x.rid = hd.rid ∧ x.pageNo = hd.pageNo
    ∧ (∀ a, (k = g → a < lo ∨ hi ≤ a) → Mem.read x.pub.bytes a = Mem.read hd.pub.bytes a)
    ∧ x.olds.map (fun o => (o.1, o.2.bytes)) = hd.olds.map (fun o => (o.1, o.2.bytes))
    ∧ ∀ w ∈ hd.shadows, own w.eid w.ctx = false → ∃ y ∈ x.shadows, y.eid = w.eid ∧ y.ctx = w.ctx ∧ y.page.bytes = w.page.bytes

/-- The events of the time unit (18) that touch no other unit. -/
def timeEvent : Instr → Bool
  | .timeSyncSend _ => true
  | .timeSync _ _ _ _ => true
  | .timeSyncResponse _ _ _ _ _ _ _ _ _ => true
  | .holdoverEntry => true
  | .ptpFallback => true
  | .announce _ _ _ => true
  | .sync _ _ _ _ _ _ => true
  | .followUp _ _ _ _ => true
  | .delayReq _ _ _ _ => true
  | .delayResp _ _ _ _ => true
  | _ => false

/-- The requests an SPDM requester makes of the controller before a session (20). -/
def spdmRequest : Instr → Bool
  | .getVersion _ => true
  | .getCapabilities _ => true
  | .negotiateAlgorithms _ _ => true
  | .getDigests _ => true
  | .getCertificate _ _ => true
  | .challenge _ _ => true
  | .getMeasurements _ _ _ => true
  | .keyExchange _ _ => true
  | _ => false

/-- The writes of a function's registers that wake nothing, and the boundary of its compute queue's EN (15). -/
def windowEvent : Instr → Bool
  | .mbxMsgWrite _ _ _ _ => true
  | .cqEnable _ => true
  | .cqDisable _ => true
  | .cqEnApply _ => true
  | _ => false

/-- An LMF request completes with a status and data, and `P` holds of the state the completion is sent from. -/
def Completes (c : Instr) (s : State) (q : LmfReq) (st : Status) (data : Bytes) (P : State → Prop) : Prop :=
  ∃ u, exec c s = .next (u.complete q st data) ∧ P u

/-- A command answers its request with ST_OK and the words `ws`, and `P` holds of the state the answer is written to. -/
def Answers (c : Instr) (s : State) (r : BciReq) (ws : List Word) (P : State → Prop) : Prop := ∃ u, exec c s = .next (u.respond r .ok ws) ∧ P u

/-- The command writes bytes to the range it names and answers (R62, R187, R872): where the range passes R62 and nothing stops the write, the answer
holds the words `ws`; a range within one page of a region outside publish mode then shows the bytes. `P` holds besides. -/
def Copies (c : Instr) (s : State) (r : BciReq) (i : Issuer) (u : State) (key off : Nat) (data : Bytes) (ws : List Word) (P : State → Prop) : Prop :=
  ∀ rid rg, u.opens r i key off data.length needW = some (rid, rg) → u.meetWrite rid rg (.shadowed i) off data.length = .clear →
    (rg.mode = .publish ∨ rg.mirror = 0) →
    Answers c s r ws fun t => P t ∧ (rg.mode ≠ .publish → off / 65536 = (off + data.length - 1) / 65536 → u.pageHeld rg off = true → t.shows rid .pub off data)

/-- A command is performed, and `P` holds of the state it leaves. -/
def Does (c : Instr) (s : State) (P : State → Prop) : Prop := ∃ t, exec c s = .next t ∧ P t

/-! ### Slots of the Slaica core -/

/-- The slot `cmd` stands at the front of its engine's queue, free of interlocks and acquires, and waits on nothing (R323, R329, R351): its header,
its kernel, its place in the queue, and the registers it reads (R350). -/
def State.slotGo (cmd : Instr) (s : State) : Option (SlotHdr × KernelRun × QSlot × RegFile) :=
  if s.runs && !s.slotBusy cmd then
    match s.slotOf cmd with
    | some (h, c, k, q) => some (h, k, q, mergeRegs q.regs c.regs)
    | none => none
  else none

/-- The slot `cmd` of core `n` is done: it has left its queue, and nothing changed but that core's queues, flags and register files, and what
`unstall` mends. -/
def SlotOver (cmd : Instr) (n : Nat) (s t : State) : Prop :=
  t = { s with cores := t.cores } ∧ (∀ m, m ≠ n → t.core m = s.core m)
    ∧ (Tab.getD (t.core n).queues (engineOf cmd) []).length + 1 = (Tab.getD (s.core n).queues (engineOf cmd) []).length
    ∧ t.core n = { s.core n with
        st := (t.core n).st
        kernel := (t.core n).kernel
        queues := (t.core n).queues
        parts := (t.core n).parts
        flags := (t.core n).flags
        regs := (t.core n).regs }

/-- The scalar registers of core `n` are as before but for X `d`, which holds `v`; X0 still reads zero (R353, R356). -/
def XWritten (n d : Nat) (v : BitVec 64) (s t : State) : Prop :=
  (t.core n).regs = { (s.core n).regs with x := (t.core n).regs.x } ∧ (t.core n).regs.xr d = (if d % 32 = 0 then 0 else v)
    ∧ ∀ m, m % 32 ≠ d % 32 → (t.core n).regs.xr m = (s.core n).regs.xr m

/-- The predicates of core `n` are as before but for P `d`, which holds `v`; P0 still reads all ones (R353). -/
def PWritten (n d : Nat) (v : BitVec 4096) (s t : State) : Prop :=
  (t.core n).regs = { (s.core n).regs with p := (t.core n).regs.p } ∧ (t.core n).regs.pr d = (if d % 16 = 0 then BitVec.allOnes 4096 else v)
    ∧ ∀ m, m % 16 ≠ d % 16 → (t.core n).regs.pr m = (s.core n).regs.pr m

/-- The vector registers of core `n` are as before but for V `d`, which holds `v`. -/
def VWritten (n d : Nat) (v : BitVec 32768) (s t : State) : Prop :=
  (t.core n).regs = { (s.core n).regs with v := (t.core n).regs.v } ∧ (t.core n).regs.vr d = v
    ∧ ∀ m, m % 64 ≠ d % 64 → (t.core n).regs.vr m = (s.core n).regs.vr m

/-- The rounding of SR_FRM as a slot sees it (R366, R392). -/
def State.slotRnd (s : State) (h : SlotHdr) (q : QSlot) : Rnd := rndOf (q.frm.getD (s.core h.core).frm)

/-- Destination and result of the scalar integer instructions (R393). -/
def aluResult (r : RegFile) : Instr → Option (Nat × BitVec 64)
  | .add _ f => some (f.rd, r.xr f.ra + r.xr f.rb)
  | .sub _ f => some (f.rd, r.xr f.ra - r.xr f.rb)
  | .addi _ f => some (f.rd, r.xr f.ra + f.imm)
  | .li _ f => some (f.rd, f.imm)
  | .mul _ f => some (f.rd, r.xr f.ra * r.xr f.rb)
  | .mulh _ f => some (f.rd, (((r.xr f.ra).signExtend 128 * (r.xr f.rb).signExtend 128) >>> 64).truncate 64)
  | .mulhu _ f => some (f.rd, (((r.xr f.ra).zeroExtend 128 * (r.xr f.rb).zeroExtend 128) >>> 64).truncate 64)
  | .div _ f => some (f.rd, if r.xr f.rb = 0 then BitVec.allOnes 64 else (r.xr f.ra).sdiv (r.xr f.rb))
  | .divu _ f => some (f.rd, if r.xr f.rb = 0 then BitVec.allOnes 64 else r.xr f.ra / r.xr f.rb)
  | .rem _ f => some (f.rd, if r.xr f.rb = 0 then r.xr f.ra else (r.xr f.ra).srem (r.xr f.rb))
  | .and _ f => some (f.rd, r.xr f.ra &&& r.xr f.rb)
  | .or _ f => some (f.rd, r.xr f.ra ||| r.xr f.rb)
  | .xor _ f => some (f.rd, r.xr f.ra ^^^ r.xr f.rb)
  | .shl _ f => some (f.rd, r.xr f.ra <<< ((r.xr f.rb).toNat % 64))
  | .shr _ f => some (f.rd, r.xr f.ra >>> ((r.xr f.rb).toNat % 64))
  | .sra _ f => some (f.rd, (r.xr f.ra).sshiftRight ((r.xr f.rb).toNat % 64))
  | .slt _ f => some (f.rd, if (r.xr f.ra).toInt < (r.xr f.rb).toInt then 1 else 0)
  | .sltu _ f => some (f.rd, if (r.xr f.ra).toNat < (r.xr f.rb).toNat then 1 else 0)
  | _ => none

/-- Destination, exact result and flags of the scalar FP32 instructions before rounding (R393). -/
def floatResult (r : RegFile) : Instr → Option (Nat × FVal × FFlags)
  | .fadd _ f => some (f.rd, (r.f32 f.ra).add (r.f32 f.rb))
  | .fmul _ f => some (f.rd, (r.f32 f.ra).mul (r.f32 f.rb))
  | .ffma _ f => some (f.rd, (r.f32 f.ra).fma (r.f32 f.rb) (r.f32 f.rc))
  | _ => none

/-- Element `i`, of `w` bytes, of a vector register. -/
def vLane (w i : Nat) (v : BitVec 32768) : Nat := v.toNat / 2 ^ (8 * w * i) % 2 ^ (8 * w)

/-- Is element `i` of `w` bytes enabled (R353, R354)? -/
def laneOn (h : SlotHdr) (r : RegFile) (w i : Nat) : Bool := xor ((r.pr h.pred).getLsbD (w * i)) h.pneg

/-- A function of FP32 on one element: rounded to BF16 for BF16 elements (R401). -/
def fnLane (t : Nat) (m : Rnd) (g : BitVec 32 → Nat × FFlags) (a : Nat) : Nat :=
  if t = 8 then (g (BitVec.ofNat 32 a)).1 else (bf16.round m (fp32.decode (g (BitVec.ofNat 32 (a * 65536))).1)).1

/-- Width, destination and element `i` of the result of the vector instructions that work element by element (R400, R401). -/
def laneResult (_h : SlotHdr) (r : RegFile) (m : Rnd) (i : Nat) : Instr → Option (Nat × Nat × Nat)
  | .vadd _ f => some (elemBytes f.type, f.vd, (arith2 0x100 f.type (· + ·) FVal.add m (vLane (elemBytes f.type) i (r.vr f.va)) (vLane (elemBytes f.type) i (r.vr f.vb))).1)
  | .vsub _ f => some (elemBytes f.type, f.vd, (arith2 0x101 f.type (· - ·) (fun a b => a.add b.flip) m (vLane (elemBytes f.type) i (r.vr f.va)) (vLane (elemBytes f.type) i (r.vr f.vb))).1)
  | .vmul _ f => some (elemBytes f.type, f.vd, (arith2 0x102 f.type (· * ·) FVal.mul m (vLane (elemBytes f.type) i (r.vr f.va)) (vLane (elemBytes f.type) i (r.vr f.vb))).1)
  | .vmin _ f => some (elemBytes f.type, f.vd, (arith2 0x104 f.type min FVal.minimum m (vLane (elemBytes f.type) i (r.vr f.va)) (vLane (elemBytes f.type) i (r.vr f.vb))).1)
  | .vmax _ f => some (elemBytes f.type, f.vd, (arith2 0x105 f.type max FVal.maximum m (vLane (elemBytes f.type) i (r.vr f.va)) (vLane (elemBytes f.type) i (r.vr f.vb))).1)
  | .vfma _ f => some (elemBytes f.type, f.vd, (fmaElem f.type m (vLane (elemBytes f.type) i (r.vr f.va)) (vLane (elemBytes f.type) i (r.vr f.vb)) (vLane (elemBytes f.type) i (r.vr f.vc))).1)
  | .vand _ f => some (elemBytes f.type, f.vd, vLane (elemBytes f.type) i (r.vr f.va &&& r.vr f.vb))
  | .vor _ f => some (elemBytes f.type, f.vd, vLane (elemBytes f.type) i (r.vr f.va ||| r.vr f.vb))
  | .vxor _ f => some (elemBytes f.type, f.vd, vLane (elemBytes f.type) i (r.vr f.va ^^^ r.vr f.vb))
  | .vabs _ f =>
    some (elemBytes f.type, f.vd, match fmtOf f.type with
      | some k => vLane (elemBytes f.type) i (r.vr f.va) % 2 ^ (k.eb + k.mb)
      | none => let a := elemInt f.type (vLane (elemBytes f.type) i (r.vr f.va)); vInt 0x106 f.type (a.natAbs : Int) a 0 0)
  | .vneg _ f =>
    some (elemBytes f.type, f.vd, match fmtOf f.type with
      | some k => vLane (elemBytes f.type) i (r.vr f.va) ^^^ 2 ^ (k.eb + k.mb)
      | none => let a := elemInt f.type (vLane (elemBytes f.type) i (r.vr f.va)); vInt 0x107 f.type (-a) a 0 0)
  | .vshl _ f =>
    let n := 8 * elemBytes f.type
    some (elemBytes f.type, f.vd, vLane (elemBytes f.type) i (r.vr f.va) * 2 ^ (vLane (elemBytes f.type) i (r.vr f.vb) % n) % 2 ^ n)
  | .vshr _ f =>
    let n := 8 * elemBytes f.type
    let k := vLane (elemBytes f.type) i (r.vr f.vb) % n
    if f.sub = 0 then some (elemBytes f.type, f.vd, vLane (elemBytes f.type) i (r.vr f.va) / 2 ^ k)
    else if f.sub = 1 then some (elemBytes f.type, f.vd, ((BitVec.ofNat n (vLane (elemBytes f.type) i (r.vr f.va))).sshiftRight k).toNat)
    else none
  | .vsel _ f =>
    some (elemBytes f.type, f.vd, if (r.pr f.pd).getLsbD (elemBytes f.type * i) then vLane (elemBytes f.type) i (r.vr f.va) else vLane (elemBytes f.type) i (r.vr f.vb))
  | .vbcast _ f => some (elemBytes f.type, f.vd, (r.xr f.xs).toNat % 2 ^ (8 * elemBytes f.type))
  | .vexp2 _ f => some (elemBytes f.type, f.vd, fnLane f.type m exp2of (vLane (elemBytes f.type) i (r.vr f.va)))
  | .vrcp _ f => some (elemBytes f.type, f.vd, fnLane f.type m rcp32 (vLane (elemBytes f.type) i (r.vr f.va)))
  | .vrsqrt _ f => some (elemBytes f.type, f.vd, fnLane f.type m rsqrt32 (vLane (elemBytes f.type) i (r.vr f.va)))
  | _ => none

end Sys2Proof.Machine
end

