-- ==== Sys2Proof/Certificates/Slice0/Obligations.lean ====
section
/-! DEFINITION. The statements for the provers. -/

open Sys2Proof Sys2Proof.Machine

/-! ### The queue, and what every step keeps -/

/-- A step of a state with command `c` at the front of its queue is `exec c` on the state with the queue's rest. -/
def Obligations.StepRunsFrontCommand : Prop :=
  ∀ (c : Instr) (rest : List Instr) (s : State), step { s with pending := c :: rest } = exec c { s with pending := rest }

/-- The state after reset is sound; that it is a booted machine is the model's choice (log 9). -/
def Obligations.ResetIsSound : Prop := State.Sound State.reset

/-- Every step keeps soundness: the boot store's canonical form (R863 names its partitions), a booted package powered and out of reset (R843), the
role on one of the four ports (R29, R634), and fabric time within 64 bits (R705). -/
def Obligations.StepKeepsSound : Prop := ∀ s t : State, State.Sound s → step s = .next t → State.Sound t

/-- No command touches the queue of waiting commands; the queue is the model's own (log 2). -/
def Obligations.ExecLeavesQueue : Prop := ∀ (c : Instr) (s t : State), exec c s = .next t → t.pending = s.pending

/-- Lifecycle and revocation fuses never change, and SVN_MIN only rises (SEC_STATE, R774). -/
def Obligations.FusesAreKept : Prop :=
  ∀ (c : Instr) (s t : State), exec c s = .next t → t.sec.debug = s.sec.debug ∧ t.sec.revoked = s.sec.revoked ∧ s.sec.svnMin ≤ t.sec.svnMin

/-- No command stops the machine: every command of the opcode table, on every operand and in every state, is answered by a next state. -/
def Obligations.EveryCommandRuns : Prop := ∀ (c : Instr) (s : State), ∃ t, exec c s = .next t

/-! ### The package (23) -/

/-- PKG_RST_ASSERT, AON_SUPPLY_LOSS and POWER_ON (R841, R845 to R847, R706): the home, the LMF and the counters go to their values at power-on, and no rail is asked for. At
an assertion of PKG_RST_N the FAIL_STOP record, the fuses and the boot store stay (log 28); a loss of the AON supply takes the record too. At power-on fabric time is 0, UNSYNC. -/
def Obligations.PackageResets : Prop :=
  (∀ s : State, s.pkg.aonUp = true → s.pkg.rstN = true → s.pkg.storeBusy = none → Does .pkgRstAssert s fun t =>
    t.runs = false ∧ t.pkg.rstN = false ∧ t.pkg.aonUp = true ∧ t.pkg.railEn = 0 ∧ t.pkg.thermtrip = false ∧ t.rel.failCause = none
      ∧ t.rel.failRecord = s.rel.failRecord ∧ t.home = Home.reset ∧ t.lmf = Lmf.reset ∧ t.obs = Obs.reset ∧ t.sec.svnMin = s.sec.svnMin
      ∧ t.sec.revoked = s.sec.revoked ∧ t.pkg.store = s.pkg.store ∧ t.pending = s.pending)
  ∧ (∀ s : State, s.pkg.aonUp = true → Does .aonSupplyLoss s fun t =>
    t.runs = false ∧ t.pkg.aonUp = false ∧ t.rel.failCause = none ∧ t.rel.failRecord = none ∧ t.home = Home.reset ∧ t.obs = Obs.reset ∧ t.out = s.out)
  ∧ (∀ s : State, s.pkg.aonUp = false → Does .powerOn s fun t =>
    t.pkg.aonUp = true ∧ t.pkg.rstN = false ∧ t.runs = false ∧ t.time.now = 0 ∧ t.time.st = .unsync ∧ t.obs = Obs.reset ∧ t.home = Home.reset)

/-- PKG_RST_RELEASE, RAIL_PG and RAIL_PG_TIMEOUT (R772, R843, R844, R859): the ROM verifies a copy of the AON firmware, each rail is asked for
after the one before, after the last the image of the running slot, where it may run (R771, R774), boots and is measured, and a missed limit releases every rail. -/
def Obligations.RailSequence : Prop :=
  (∀ (s : State) (img : BootImages), s.pkg.aonUp = true → s.pkg.rstN = false → Does (.pkgRstRelease img) s fun t =>
    t.pkg.rstN = true ∧ t.pkg.tap = .idcode ∧ ((img.aonA || img.aonB) = true → t.pkg.railEn = 1 ∧ t.sec.bootFail = s.sec.bootFail)
      ∧ ((img.aonA || img.aonB) = false → t.sec.bootFail = true ∧ t.out = .ibi 4 :: s.out))
  ∧ (∀ (s : State) (rail : Nat) (img : BootImages), s.pkg.aonUp = true → s.pkg.rstN = true → s.rel.failCause = none → s.pkg.railHalt = false →
      bitAt s.pkg.railEn rail = true → bitAt s.pkg.railPg rail = false → rail < 8 → Does (.railPg rail img) s fun t =>
    bitAt t.pkg.railPg rail = true ∧ (rail < 7 → bitAt t.pkg.railEn (rail + 1) = true ∧ t.pkg.booted = s.pkg.booted)
      ∧ (rail = 7 → s.bci.runSlot = 0 → img.slot0 = true → s.mayRun 0 = true → t.pkg.booted = true ∧ t.bci.runSlot = 0 ∧ t.bci.standby = true
        ∧ Tab.get? t.sec.measured 3 = some (s.imageDigest 0)))
  ∧ (∀ (s : State) (rail die : Nat), s.pkg.aonUp = true → s.pkg.rstN = true → bitAt s.pkg.railEn rail = true → bitAt s.pkg.railPg rail = false →
      rail < 8 → die < 2 → Does (.railPgTimeout rail die) s fun t =>
    t.pkg.railEn = 0 ∧ t.pkg.railHalt = true ∧ t.pkg.faultRail = rail + 1 ∧ t.pkg.faultKind = 3 ∧ t.pkg.faultDie = die ∧ t.out = .ibi 3 :: s.out)

/-- RAIL_FAULT, REFCLK_LOSS, THERMTRIP and DIE_LOSS (R745, R746, R840, R847, R850, R854): fail-stop, with its interrupt, its record, and every
link idle; nothing else is sent. In fail-stop (R746) the eleven commands of the data path, of BCI and of the cores that the statement names leave the state as it is. -/
def Obligations.FailStop : Prop :=
  (∀ s : State, s.rel.failCause = none → s.pkg.aonUp = true → s.pkg.rstN = true →
     let stopped (t : State) (row : Nat) : Prop :=
       t.rel.failCause = some row ∧ t.failStopPin = true ∧ t.rel.failRecord.isSome = true ∧ t.runs = false ∧ t.home = s.home
         ∧ (∀ e ∈ t.lmf.ports, e.2.st = .down) ∧ (∀ e ∈ t.host.ports, e.2.up = false)
     (∀ rail die below, rail < 8 → bitAt s.pkg.railPg rail = true → Does (.railFault rail die below) s fun t =>
       stopped t 7 ∧ t.out = .ibi 1 :: s.out ∧ t.pkg.faultRail = rail + 1 ∧ t.pkg.faultKind = if below then 2 else 1)
     ∧ (∀ die, Does (.refclkLoss die) s fun t => stopped t 7 ∧ t.out = .ibi 1 :: s.out)
     ∧ (Does .thermtrip s fun t => stopped t 7 ∧ t.pkg.thermtrip = true ∧ t.out = .ibi 2 :: .ibi 1 :: s.out)
     ∧ (s.pkg.booted = true → Does .dieLoss s fun t => stopped t 1 ∧ t.out = .ibi 1 :: s.out))
  ∧ (∀ s : State, s.rel.failCause.isSome = true →
     (∀ q, exec (.lmfLoad q) s = .next s) ∧ (∀ q d, exec (.lmfStore q d) s = .next s) ∧ (∀ q d f, exec (.countedWrite q d f) s = .next s)
     ∧ (∀ p a, exec (.cxlMemRead p a) s = .next s) ∧ (∀ p a d x, exec (.cxlMemWrite p a d x) s = .next s)
     ∧ (∀ r, exec (.create r) s = .next s) ∧ (∀ r, exec (.publish r) s = .next s) ∧ (∀ r, exec (.atomic r) s = .next s)
     ∧ (∀ p f, exec (.go p f) s = .next s) ∧ exec .heartbeatSend s = .next s ∧ (∀ n, exec (.bundleDispatch n) s = .next s))

/-- The test access port (R856 to R859): IDCODE gives its value, SAMPLE/PRELOAD takes the cells in, both in every state; the instructions that drive
lands take effect only while PKG_RST_N is low and act as BYPASS while it is high, as does every unlisted code. None touches anything else. -/
def Obligations.TestAccessPort : Prop :=
  ∀ s : State, s.pkg.aonUp = true →
    let only (t : State) : Prop := t = { s with pkg := { s.pkg with tap := t.pkg.tap, cells := t.pkg.cells }, out := t.out, freeCtr := t.freeCtr }
    (Does .idcode s fun t => only t ∧ t.pkg.tap = .idcode ∧ t.out = .tdo 0x0A7211CB :: s.out)
    ∧ (Does .trst s fun t => only t ∧ t.pkg.tap = .idcode ∧ t.out = s.out)
    ∧ (∀ cells, cells < 2 ^ 4210 → Does (.samplePreload cells) s fun t => only t ∧ t.pkg.tap = .sample ∧ t.pkg.cells = cells)
    ∧ (∀ code, code < 256 → code = 0 ∨ 7 < code → Does (.bypass code) s fun t => only t ∧ t.pkg.tap = .bypass ∧ t.out = .tdo 0 :: s.out)
    ∧ (∀ code, Does (.bypass code) s only)
    ∧ (∀ cells, cells < 2 ^ 4210 → ∀ ci ∈ [(Instr.extest cells, TapInstr.extest), (.clamp, .clamp), (.highz, .highz), (.extestPulse, .extestPulse),
        (.extestTrain, .extestTrain)],
      (s.pkg.rstN = false → Does ci.1 s fun t => only t ∧ t.pkg.tap = ci.2 ∧ (ci.2 = .extest → t.pkg.cells = cells))
      ∧ (s.pkg.rstN = true → Does ci.1 s fun t => only t ∧ t.pkg.tap = .bypass ∧ t.pkg.cells = s.pkg.cells ∧ t.out = .tdo 0 :: s.out))

/-- The I3C sideband's registers and addresses (R860, R861): a virtual target without a dynamic address takes one; a register is read with its
access type and written; an offset that is no multiple of 4 is not acknowledged and has no effect. The boot store (R861, R863, R864): a write to a partition that takes it is under way until it ends, and then its 256 bytes read back and every
other byte is as before; another is refused with status 2 and no effect; one that meets a write under way is not acknowledged. -/
def Obligations.SidebandAndBootStore : Prop :=
  (∀ s : State, s.pkg.aonUp = true → s.pkg.sideband = true →
     (∀ target addr, target = 0x3A ∨ target = 0x3B → addr < 128 → Tab.has s.pkg.dynAddr target = false →
       (Does (.setdasa target addr) s fun t => Tab.get? t.pkg.dynAddr target = some addr)
       ∧ (Does (.entdaa target addr) s fun t => Tab.get? t.pkg.dynAddr target = some addr))
     ∧ (∀ off, off % 4 = 0 → off < 65536 → Does (.regRead off) s fun t => t = (s.clearRead .mgmt off 0).emit (.i3c (bytesOf [s.mgmtReg off])))
     ∧ (∀ off w, off % 4 = 0 → off < 65536 → Does (.regWrite off w) s fun t => t = s.mgmtWrite off w)
     ∧ (∀ off w, off % 4 ≠ 0 → exec (.regRead off) s = .next (s.emit .i3cNack) ∧ exec (.regWrite off w) s = .next (s.emit .i3cNack)))
  ∧ (∀ s : State, s.pkg.aonUp = true → s.pkg.sideband = true →
     (∀ a d, a % 256 = 0 → d.length = 256 → s.pkg.storeBusy = none →
       a < 0x00210000 ∨ (0x01000000 ≤ a ∧ a < 0x21000000 ∧ (s.pkg.rstN = false ∨ s.sec.bootFail = true)) →
       Does (.storeWrite a d) s fun t => t.pkg.storeStatus = 1 ∧ t.pkg.storeBusy = some (a, d) ∧ t.pkg.store = s.pkg.store)
     ∧ (∀ a d, a % 256 = 0 → d.length = 256 → s.pkg.storeBusy = none →
       ¬ (a < 0x00210000 ∨ (0x01000000 ≤ a ∧ a < 0x21000000 ∧ (s.pkg.rstN = false ∨ s.sec.bootFail = true))) →
       exec (.storeWrite a d) s = .next { s with pkg := { s.pkg with storeStatus := 2 } })
     ∧ (∀ a d, s.pkg.storeBusy.isSome = true → exec (.storeWrite a d) s = .next (s.emit .i3cNack))
     ∧ (∀ a d, s.pkg.storeBusy = some (a, d) → Does (.storeWriteEnd true) s fun t =>
       t.pkg.storeStatus = 0 ∧ t.pkg.storeBusy = none ∧ Mem.readN t.pkg.store a d.length = d
         ∧ ∀ b, b < a ∨ a + d.length ≤ b → Mem.read t.pkg.store b = Mem.read s.pkg.store b)
     ∧ (∀ a, a % 256 = 0 → a < 0x00300000 ∨ 0x00400000 ≤ a → exec (.storeRead a) s = .next (s.emit (.i3c (Mem.readN s.pkg.store a 256))))
     ∧ exec .storeStatus s = .next (s.emit (.i3c [BitVec.ofNat 8 s.pkg.storeStatus])))

/-! ### Host ports (16) -/

/-- A reset of a function (R620, R638 to R640): FLR of a function that is there leaves its window at the values the statement lists, a bound ACTIVE context RESETTING, and
of a VF without a context its channel without session or command, its CQ registers, regions and contexts as they were; clearing VF Enable unbinds the windows of VFs; a
conventional reset of the port, and the loss of its link or reference clock, leave no VF and no window. HOST_LINK_UP gives the host a new incarnation (R644), and
VF_ENABLE gives a new VF the lowest free shared channel and binds no context (R592, R593, R633). -/
def Obligations.FunctionsAndHostLinks : Prop :=
  (∀ (s : State) (p : Nat), s.runs = true → p < 4 →
     let cleared (t : State) (f : Nat) : Prop :=
       let w := t.fnWin p f
       w.msg = [] ∧ w.go = false ∧ w.msgLost = false ∧ w.nochan = false ∧ w.overrun = false ∧ w.reject = false ∧ w.full = false ∧ w.en = false
         ∧ w.enPend = none ∧ w.head = 0 ∧ w.tail = 0 ∧ w.errStatus = 0 ∧ w.errIndex = 0 ∧ w.errMore = false
     let unbound (t : State) : Prop := (t.hport p).vfs = 0 ∧ ∀ e ∈ (t.hport p).decs, e.2.win = none
     (∀ f, s.fnEnabled p f = true → Does (.flr p f) s fun t => cleared t f ∧ (f = 0 → (t.hport p).vfs = 0))
     ∧ (∀ f c, s.fnEnabled p f = true → f ≠ 0 → s.boundCtx p f = some c → s.ctxIs c .active = true → Does (.flr p f) s fun t => t.ctxIs c .resetting = true)
     ∧ (∀ f c, s.fnEnabled p f = true → f ≠ 0 → s.boundCtx p f = none → (s.fnWin p f).chan = some c → s.home.held = [] → s.resume = [] →
       Does (.flr p f) s fun t =>
       (t.channel c).session = none ∧ (t.channel c).busy = none ∧ (t.fnWin p f).chan = some c ∧ (t.fnWin p f).cqKey = (s.fnWin p f).cqKey
         ∧ t.home.regions = s.home.regions ∧ t.bci.contexts = s.bci.contexts ∧ t.host.ports = s.host.ports ∧ t.host.owner = s.host.owner)
     ∧ ((s.hport p).vfs ≠ 0 → Does (.vfDisable p) s fun t => (t.hport p).vfs = 0 ∧ ∀ e ∈ (t.hport p).decs, ∀ w, e.2.win = some w → w.fn = 0)
     ∧ Does (.hptPerst p) s (fun t => cleared t 0 ∧ unbound t)
     ∧ ((s.hport p).up = true → Does (.hostLinkLoss p) s fun t => unbound t ∧ (t.hport p).up = false)
     ∧ ((s.hport p).up = true → Does (.hptRefclkLoss p) s fun t => unbound t ∧ (t.hport p).up = false ∧ (t.hport p).refclk = false))
  ∧ (∀ (s : State) (p : Nat), s.runs = true → p < 4 →
     (∀ pcie, (s.hport p).up = false → Does (.hostLinkUp p pcie) s fun t =>
       (t.hport p).up = true ∧ (t.hport p).pcie = pcie ∧ (t.hport p).inc = (s.hport p).inc + 1 ∧ (t.hport p).vfs = 0)
     ∧ ((s.hport p).up = true → (s.hport p).vfs = 0 → lowestFree ((Tab.keys s.bci.channels).filter (fun k => decide (12 ≤ k))) 12 < 1024 →
       let n := lowestFree ((Tab.keys s.bci.channels).filter (fun k => decide (12 ≤ k))) 12
       Does (.vfEnable p 1) s fun t =>
         (t.hport p).vfs = 1 ∧ (t.fnWin p 1).chan = some n ∧ t.channel n = Channel.fresh (.fn p 1) ∧ t.bci.contexts = s.bci.contexts)
     ∧ (∀ count, (s.hport p).up = true → (s.hport p).vfs = 0 → 0 < count → Does (.vfEnable p count) s fun t =>
       (t.hport p).vfs = count ∧ t.bci.contexts = s.bci.contexts ∧ t.home = s.home))

/-- HDM_COMMIT binds the window the binding registers name, with the context bound to the function at that instant, or is refused with Error Not Committed and
ST_NOT_SUPPORTED for interleaving, ST_STATE for a function that is not there or has no context (R45 to R47, R625, R626; an HPA or a size that is no multiple of 256 MiB is log 26).
HDM_UNCOMMIT unbinds the window and leaves every other decoder as it is (R627). -/
def Obligations.HostWindowBindings : Prop :=
  (∀ (s : State) (p n : Nat), s.runs = true → p < 4 → n < 32 → (s.hport p).up = true → (s.hport p).pcie = false → (s.decoder p n).committed = false →
     let d := s.decoder p n
     let dev := d.devHi * 4294967296 + d.devLo
     (∀ hpa size rid rg c, hpa % 268435456 = 0 → size % 268435456 = 0 → size ≠ 0 →
       (∀ e ∈ (s.hport p).decs, e.1 ≠ n → e.2.committed = true → hpa + size ≤ e.2.hpa ∨ e.2.hpa + e.2.size ≤ hpa) →
       s.fnEnabled p d.fnReg = true → s.boundCtx p d.fnReg = some c → s.ctxIs c .destroying = false → s.live s.lmf.eid d.keyReg = some (rid, rg) →
       rg.base ≤ dev → dev + size ≤ rg.base + rg.size → rg.mode ≠ .coherent → rg.faultEntry = false →
       Does (.hdmCommit p n hpa size 0) s fun t =>
         (t.decoder p n).committed = true ∧ (t.decoder p n).errNC = false ∧ (t.decoder p n).status = 0
           ∧ (t.decoder p n).win = some { key := d.keyReg, rid := rid, dev := dev, ctx := c, fn := d.fnReg }
           ∧ (t.decoder p n).hpa = hpa ∧ (t.decoder p n).size = size ∧ t.home = s.home)
     ∧ (∀ hpa size ways, ways ≠ 0 → Does (.hdmCommit p n hpa size ways) s fun t =>
         (t.decoder p n).committed = false ∧ (t.decoder p n).errNC = true ∧ (t.decoder p n).status = Status.notSupported.code ∧ (t.decoder p n).win = none)
     ∧ (∀ hpa size, hpa % 268435456 = 0 → size % 268435456 = 0 → size ≠ 0 →
       (∀ e ∈ (s.hport p).decs, e.1 ≠ n → e.2.committed = true → hpa + size ≤ e.2.hpa ∨ e.2.hpa + e.2.size ≤ hpa) →
       s.fnEnabled p d.fnReg = false ∨ s.boundCtx p d.fnReg = none → Does (.hdmCommit p n hpa size 0) s fun t =>
         (t.decoder p n).committed = false ∧ (t.decoder p n).errNC = true ∧ (t.decoder p n).status = Status.state.code ∧ (t.decoder p n).win = none))
  ∧ (∀ (s : State) (p n : Nat), s.runs = true → (s.decoder p n).committed = true → Does (.hdmUncommit p n) s fun t =>
     (t.decoder p n).committed = false ∧ (t.decoder p n).win = none ∧ (∀ m, m ≠ n → t.decoder p m = s.decoder p m)
       ∧ (∀ q, q ≠ p → t.hport q = s.hport q) ∧ t.home = s.home)

/-- OWNER_SET from the fabric manager of the join, inside its session, moves the role to a port that may take it, and refuses with ST_STATE, the role
staying, where it may not; any other copy is counted (R31, R634 to R636, R682). The memory device mailbox and DOE (R621, R623): a command R621 lists is executed, every other returns Unsupported
(opcodes and return code: PRESUMED, log 26); Discovery is answered, and CDAT reports one entry of 650 ns and 128 GB/s for each committed decoder. Drives and DIMMs (R101 to R103, R724, R848): a stable
change of DRV_PRSNT_N inserts or removes; a drive with the format of R103 is admitted under a new incarnation and one without it is not; a link loss or a reported failure declares a
drive in use failed; a DIMM's temperature is kept. -/
def Obligations.OwnerMailboxAndParts : Prop :=
  (∀ (s : State) (fm p : Nat), s.runs = true → s.fmSays fm true = true → fm = s.lmf.fmEid → s.lmf.joined = true →
     (s.ownerOk p = true → Does (.ownerSet fm p true) s fun t => t.host.owner = p ∧ t.lmf.joined = true)
     ∧ (s.ownerOk p = false → Does (.ownerSet fm p true) s fun t =>
         t = s.emit (.evt fm 4 [p, Status.state.code]) ∧ t.host.owner = s.host.owner)
     ∧ (Does (.ownerSet fm p false) s fun t => t.host.owner = s.host.owner ∧ t.lmf.evtDrop = s.lmf.evtDrop + 1))
  ∧ (∀ (s : State) (p : Nat), s.runs = true →
     (∀ op bs, op ∈ [0x4000, 0x0400, 0x0401, 0x0100, 0x0101] → exec (.memoryDeviceMailbox p op bs) s = .next (s.emit (.doe p [0, op] (Config.cxlMailbox op bs))))
     ∧ (∀ op bs, op ∉ [0x4000, 0x0400, 0x0401, 0x0100, 0x0101] → exec (.memoryDeviceMailbox p op bs) s = .next (s.emit (.doe p [0x15, op] [])))
     ∧ exec (.doeRequest p 0) s = .next (s.emit (.doe p [0, 0, 1, 2, 3] []))
     ∧ (∃ es : List Nat, exec (.doeRequest p 1) s = .next (s.emit (.doe p (1 :: es) []))
         ∧ es.length = 5 * ((s.hport p).decs.filter (fun e => e.2.committed)).length
         ∧ ∀ k < ((s.hport p).decs.filter (fun e => e.2.committed)).length, es[5 * k + 3]? = some 650 ∧ es[5 * k + 4]? = some 128))
  ∧ (∀ (s : State) (n : Nat), s.runs = true → n < 12 →
     (s.strata.present.contains n = false → Does (.drivePresenceChange n true) s fun t => t.strata.present.contains n = true ∧ t.strata.drives = s.strata.drives)
     ∧ (s.strata.present.contains n = true → (s.drive n).admitted = false → Does (.drivePresenceChange n false) s fun t =>
         t.strata.present.contains n = false ∧ t.strata.drives = s.strata.drives)
     ∧ (∀ cap, s.strata.present.contains n = true → s.pkg.bootAt + 100000 ≤ s.now → (s.drive n).admitted = false → s.rebuildOf .drive n = none → s.rawT2 n + cap ≤ rawLimit →
         Does (.driveAdmission n cap true) s fun t =>
           (t.drive n).admitted = true ∧ (t.drive n).inc = (s.drive n).inc + 1 ∧ (t.drive n).capacity = cap ∧ (t.drive n).failed = false)
     ∧ (∀ cap, s.strata.present.contains n = true → s.pkg.bootAt + 100000 ≤ s.now → (s.drive n).admitted = false ∨ (s.drive n).failed = true →
         Does (.driveAdmission n cap false) s fun t => t = { s with out := t.out } ∧ t.out = .nvme n 0 .identify 0 1 :: .nvme n 0 .identify 1 0 :: s.out)
     ∧ (∀ cap f, s.strata.present.contains n = false → exec (.driveAdmission n cap f) s = .next s)
     ∧ (s.partUp .drive n = true → ((s.drive n).queues ≠ 0 → Does (.asyncEvent n true) s fun t => (t.drive n).failed = true)
         ∧ Does (.driveLinkLoss n) s fun t => (t.drive n).failed = true)
     ∧ ((s.drive n).admitted = true → (s.drive n).queues ≠ 0 → Does (.asyncEvent n false) s fun t =>
         t = { s with out := t.out } ∧ t.out = .nvme n 0 .asyncEvent 0 0 :: .nvme n 0 .getLogPage 2 0 :: s.out)
     ∧ (∀ ch dimm hot, Does (.dimmTemp ch dimm hot) s fun t =>
         (t.dimm (ch + 16 * dimm)).hot = hot ∧ (t.dimm (ch + 16 * dimm)).failed = (s.dimm (ch + 16 * dimm)).failed
           ∧ t = { s with strata := { s.strata with dimms := t.strata.dimms } }))

/-! ### Fabric time (18) -/

/-- In-band synchronisation (R707, R711 to R713): a port whose link is up sends its request, and answers its partner's with T1 echoed; the answer to its
own request, from the partner it follows, is a valid exchange, and once fabric time has been stepped it only sets the rate, within ±200 ppm. The states of the time unit (R706, R707): the
first valid exchange enters LOCKING and steps fabric time forward to the source's; the sixteenth exchange within 1 µs after LOCKING is entered (log 26) enters LOCKED; 10 ms without one enter HOLDOVER;
a valid exchange leaves it for LOCKING. PTP (R714, R715): with PTP as source, on the port and domain of TIME_CFG, Announce, Sync in one step or two, Follow_Up, Delay_Req and
Delay_Resp are handled, the last completing an exchange; with SOURCE 2 the source changes to PTP after 10 ms without an in-band exchange, through LOCKING and
without a step. -/
def Obligations.TimeUnit : Prop :=
  (∀ (s : State) (n : Nat), s.runs = true → (s.lport n).st = .up →
     (Does (.timeSyncSend n) s fun t => ∃ seq, Tab.get? t.time.asked n = some (seq, s.now) ∧ t.out = .evt (s.lport n).eid 9 [1, 0, seq, s.now, 0, 0, 0, 0] :: s.out)
     ∧ (∀ seq t1 arr, Does (.timeSync n seq t1 arr) s fun t =>
         t = s.emit (.evt (s.lport n).eid 9 [2, s.time.steps, seq, t1, arr, s.now, s.errNow, s.time.root]))
     ∧ (∀ steps seq t1 t2 t3 t4 err root, steps < 255 → s.time.source = 0 → s.time.everStepped = true → s.time.adv = [(n, steps)] →
         Tab.get? s.time.asked n = some (seq, t1) → Does (.timeSyncResponse n steps seq t1 t2 t3 t4 err root) s fun t =>
           t.time.now = s.time.now ∧ t.time.lastGood = s.time.now ∧ t.time.root = root
             ∧ t.time.rate = max (-20000) (min 20000 ((((t2 : Int) - t1) - ((t4 : Int) - t3)) / 2 * 100)) ∧ t.home = s.home))
  ∧ ((∀ (s : State) (n steps seq t1 t2 t3 t4 err root : Nat), s.runs = true → (s.lport n).st = .up → steps < 255 → s.time.source = 0 → s.time.adv = [(n, steps)] →
       Tab.get? s.time.asked n = some (seq, t1) →
       let off : Int := (((t2 : Int) - t1) - ((t4 : Int) - t3)) / 2
       (s.time.st = .unsync → s.time.everStepped = false → 0 ≤ off → s.time.now + off.toNat < 2 ^ 64 → Does (.timeSyncResponse n steps seq t1 t2 t3 t4 err root) s fun t =>
         t.time.st = .locking ∧ t.time.now = s.time.now + off.toNat ∧ t.time.stepped = true ∧ t.time.everStepped = true)
       ∧ (s.time.st = .locking → s.time.good = 15 → off.natAbs ≤ 1000 → Does (.timeSyncResponse n steps seq t1 t2 t3 t4 err root) s fun t => t.time.st = .locked)
       ∧ (s.time.st = .holdover → Does (.timeSyncResponse n steps seq t1 t2 t3 t4 err root) s fun t => t.time.st = .locking))
   ∧ (∀ s : State, s.runs = true → s.time.st = .locked → s.time.lastGood + 10000000 ≤ s.now → Does .holdoverEntry s fun t =>
       t.time.st = .holdover ∧ t.time.now = s.time.now ∧ t.time.rate = s.time.rate ∧ t.errNow = s.time.errBound))
  ∧ (∀ s : State, s.runs = true →
     (s.time.source = 1 →
       let m := s.time.ptpPort
       let d := s.time.ptpDomain
       (∀ k, Does (.announce m d k) s fun t => t.time.ptpSteps = k)
       ∧ (∀ seq o a, Does (.sync m d seq o a false) s fun t => t.time.sync = some (seq, a) ∧ t.time.origin = some o)
       ∧ (∀ seq o a, Does (.sync m d seq o a true) s fun t => t.time.sync = some (seq, a) ∧ t.time.origin = none)
       ∧ (∀ seq o a, s.time.sync = some (seq, a) → s.time.origin = none → Does (.followUp m d seq o) s fun t => t.time.origin = some o)
       ∧ (∀ seq dep, Does (.delayReq m d seq dep) s fun t => t.time.delay = some (seq, dep) ∧ t.out = .mgmt m 4 [d, seq] :: s.out)
       ∧ (∀ seq n a o dep rec, s.time.sync = some (n, a) → s.time.origin = some o → s.time.delay = some (seq, dep) → s.time.st = .holdover → s.time.everStepped = true →
           Does (.delayResp m d seq rec) s fun t => t.time.st = .locking ∧ t.time.now = s.time.now ∧ t.time.lastGood = s.time.now))
     ∧ (s.time.source = 2 → s.time.usePtp = false → s.time.lastGood + 10000000 ≤ s.now → s.time.st ≠ .unsync → Does .ptpFallback s fun t =>
         t.time.usePtp = true ∧ t.time.st = .locking ∧ t.time.now = s.time.now))

/-! ### Attestation and sessions (20) -/

/-- The SPDM responder (R775 to R778, R790; message codes: PRESUMED, log 27): each request of the sequence is answered, the certificates and measurements signed with the alias key;
block 4 equals block 3 but in an activation. Secured sessions (R779, R780, R784, R787): a management session needs mutual authentication and a chain that ends at the anchor; the manager's
session, which the controller opens, comes up with FINISH_RSP, and a first LOCKED controller then asks to join; the end of a session takes its effects back. TRANSPORT_KEY_RETIRE (R786): once no REVOKE
of the region waits and TXN_TIMEOUT has passed since the last delivery, the old key is destroyed and the new one stays. -/
def Obligations.SecureSessions : Prop :=
  (∀ (s : State) (p : Peer), s.runs = true →
     (Does (.getVersion p) s fun t => (t.spdm p).version = true ∧ t.out = .spdm p 0x04 [0x12, 0x13] :: s.out)
     ∧ ((s.spdm p).version = true → Does (.getCapabilities p) s fun t => (t.spdm p).caps = true)
     ∧ ((s.spdm p).caps = true → Does (.negotiateAlgorithms p { sig4096 := true, sha512 := true, secp384 := true, aesGcm := true }) s fun t => (t.spdm p).algs = true)
     ∧ ((s.spdm p).algs = true →
         exec (.getDigests p) s = .next (s.emit (.spdm p 0x01 [Config.digest (s.chain 0), Config.digest (s.chain 1)]))
         ∧ (∀ n, n ≤ 1 → exec (.getCertificate p n) s = .next (s.emit (.spdm p 0x02 (n :: s.chain n))))
         ∧ (∀ n, n ≤ 1 → ∃ body, exec (.challenge p n) s = .next (s.emit (.spdm p 0x03 (body ++ [Config.sign s.sec.aliasKey body]))))
         ∧ (∀ n nonce, 1 ≤ n → n ≤ 6 → exec (.getMeasurements p n nonce) s =
             .next (s.emit (.spdm p 0x60 [s.measurement n, nonce, Config.sign s.sec.aliasKey [s.measurement n, nonce]])))
         ∧ (∀ share, Does (.keyExchange p share) s fun t => (t.spdm p).keyed = true ∧ (t.spdm p).key = s.nextId))
     ∧ (s.bci.activating = none → s.measurement 4 = s.measurement 3))
  ∧ (∀ s : State, s.runs = true →
     (∀ m, (s.spdm (.mgmt m)).keyed = true →
       (Does (.finish (.mgmt m) true true) s fun t => t.inSession (.mgmt m) = true)
       ∧ (∀ a b, (a && b) = false → s.inSession (.mgmt m) = false → Does (.finish (.mgmt m) a b) s fun t => t.inSession (.mgmt m) = false))
     ∧ (∀ e i a b, (s.spdm (.lmf e i)).keyed = true → Does (.finish (.lmf e i) a b) s fun t => t.inSession (.lmf e i) = true ∧ (e, i) ∈ t.sec.secured)
     ∧ (∀ e, Does (.keyExchangeRsp (.fm e) true true true) s fun t => (t.spdm (.fm e)).keyed = true ∧ ∃ sig, t.out = .spdm (.fm e) 0xE5 [1, sig] :: s.out)
     ∧ (∀ e a b c, (a && b && c) = false → Does (.keyExchangeRsp (.fm e) a b c) s fun t => (t.spdm (.fm e)).keyed = false)
     ∧ (∀ e, (s.spdm (.fm e)).keyed = true → Does (.finishRsp (.fm e)) s fun t =>
         t.sec.fmSession = true ∧ t.fmSays e true = true ∧ (s.time.everLocked = true → s.lmf.joined = false → t.sec.joinAsked = true))
     ∧ (∀ e, (∀ x ∈ s.sec.peers, x.session = true → x.peer = .fm e) → Does (.sessionEnd (.fm e)) s fun t =>
         t.sec.fmSession = false ∧ t.fmSays e true = false ∧ t.sec.joinAsked = false)
     ∧ (∀ e i, Does (.sessionEnd (.lmf e i)) s fun t => (e, i) ∉ t.sec.secured ∧ t.inSession (.lmf e i) = false))
  ∧ (∀ (s : State) (idx key at' : Nat) (rg : Region), s.runs = true → s.region? idx = some rg → rg.tkeyOld = some (key, at') → at' + s.bci.txnTimeout ≤ s.now →
     (∀ w ∈ s.home.revokes, w.rid ≠ idx) → Does (.transportKeyRetire idx) s fun t =>
       (∃ r, t.region? idx = some r ∧ r.tkeyOld = none ∧ r.tkey = rg.tkey ∧ r.grants = rg.grants) ∧ (∀ k, k ≠ idx → t.region? k = s.region? k))

/-! ### Power (18) -/

/-- Sleep and wake of a domain (R690 to R693): GATE_TIMEOUT and OFF_TIMEOUT of a domain without work begin its entry and leave one with work ON,
DOMAIN_WAKE starts the wake of a domain that sleeps, and DOMAIN_ON makes a waking domain accept work (log 24). A stretch episode of 1 µs or more is recorded as a gap, a shorter one is only counted (R717).
POWER_WINDOW (R699 to R701, R852): at the window's end one more step of stage 1 is applied when the mean power exceeds the cap, and one for temperature at 100 °C; a written cap is applied, within 300 W and
1,300 W; nothing but power and the temperatures changes. Bivouac (R696, R698): a quiet package enters it, with its domains powered off; a wake event ends it. -/
def Obligations.PowerEvents : Prop :=
  (∀ (s : State) (d : Domain), s.runs = true → s.domain d ∈ s.pow.doms →
     let e := s.domain d
     (e.st = .on → s.domainBusy d = false → s.expert.ssd = none → (engineDomain d = false ∨ s.pow.offEn = false ∨ s.pow.gateUs ≤ s.pow.offUs) →
       Does (.gateTimeout d) s fun t => (t.domain d).st = .entering false)
     ∧ (e.st = .on → engineDomain d = true → s.pow.offEn = true → s.domainBusy d = false → s.expert.ssd = none →
       Does (.offTimeout d) s fun t => (t.domain d).st = .entering true)
     ∧ (e.st = .on → s.domainBusy d = true → exec (.gateTimeout d) s = .next s ∧ exec (.offTimeout d) s = .next s)
     ∧ (e.st = .gated ∨ e.st = .off → s.pow.bivouac = false → Does (.domainWake d) s fun t => (t.domain d).st = .waking)
     ∧ (e.st = .waking → (∀ n, d ≠ .core n) → Does (.domainOn d) s fun t => (t.domain d).st = .on))
  ∧ (∀ (s : State) (hw a b : Nat), s.runs = true →
     (a + 1000 ≤ b → exec (.stretchEpisodeEnd hw a b) s = .next (s.clockGap hw 3 a b))
     ∧ (b < a + 1000 → Does (.stretchEpisodeEnd hw a b) s fun t => t = { s with pow := { s.pow with stretches := s.pow.stretches + 1 } }))
  ∧ (∀ (s : State) (w : Nat) (e h : Int), s.runs = true → Does (.powerWindow w e h) s fun t =>
     t = { s with pow := t.pow, pkg := { s.pkg with tjE := e, tjW := h, tjPeak := max s.pkg.tjPeak (max e h) } }
       ∧ t.pow.power = w ∧ t.pow.capPend = none ∧ t.pow.capApplied = min 52 (max 12 (s.pow.capPend.getD s.pow.capApplied))
       ∧ (s.pow.capApplied * 25 < w → s.expert.ssd = none → Tab.getD s.pow.steps 1 0 < 8 → Tab.getD t.pow.steps 1 0 = Tab.getD s.pow.steps 1 0 + 1)
       ∧ (w ≤ s.pow.capApplied * 25 → s.pow.capApplied * 25 ≤ w + 25 → t.pow.steps = s.pow.steps)
       ∧ (100 ≤ max e h → Tab.getD s.pow.heatSteps 1 0 < 8 → Tab.getD t.pow.heatSteps 1 0 = Tab.getD s.pow.heatSteps 1 0 + 1)
       ∧ (97 ≤ max e h → max e h < 100 → t.pow.heatSteps = s.pow.heatSteps))
  ∧ (∀ s : State, s.runs = true →
     (s.quiet = true → s.pow.bivouac = false → Does .bivouacEntry s fun t =>
       t.pow.bivouac = true ∧ (∀ e ∈ t.pow.doms, e.dom ∈ bivouacDomains → e.st = .off) ∧ t.home = s.home)
     ∧ (s.pow.bivouac = true → Does .bivouacExit s fun t => t.pow.bivouac = false))

/-! ### LMF links and the fabric (17) -/

/-- The states of an LMF link (R649 to R651, R671, R672, R680): LINK_ADV brings it up at the higher version both sides advertise (a bit of the mask for each version: log 23) or refuses it, a missed limit
waits 1 s for the next attempt, the loss of a link starts the next attempt and changes no incarnation. JOIN and LEAVE inside the fabric manager's session (R677, R679, R681, R682, R708): the controller's own JOIN gives it
its EID and incarnation; another endpoint's makes its entry; LEAVE ends it; a copy outside the session is discarded and counted. An LMF request is taken under the source that its link gives it (R52, R661): a request of any
source runs as the one under that source does. -/
def Obligations.LinksAndMembership : Prop :=
  (∀ (s : State) (n : Nat), s.runs = true → n < 32 →
     (∀ eid inc mask width role, (s.lport n).st = .down → width = 2 ∨ width = 4 →
       (bitAt mask 3 = true → Does (.linkAdv n eid inc mask width role) s fun t =>
         (t.lport n).st = .up ∧ (t.lport n).ver = 3 ∧ (t.lport n).width = width ∧ (t.lport n).eid = eid ∧ (t.lport n).inc = inc ∧ (t.lport n).role = role)
       ∧ (bitAt mask 3 = false → bitAt mask 2 = true → Does (.linkAdv n eid inc mask width role) s fun t => (t.lport n).st = .up ∧ (t.lport n).ver = 2)
       ∧ (bitAt mask 3 = false → bitAt mask 2 = false → Does (.linkAdv n eid inc mask width role) s fun t => (t.lport n).st = .retry))
     ∧ ((s.lport n).st = .down → Does (.linkStepTimeout n) s fun t => (t.lport n).st = .retry ∧ (t.lport n).retryAt = s.now + 1000000000)
     ∧ ((s.lport n).st = .retry → (s.lport n).retryAt ≤ s.now → Does (.linkRetryTimer n) s fun t => (t.lport n).st = .step 1)
     ∧ ((s.lport n).st = .up →
       (Does (.linkDown n) s fun t => (t.lport n).st = .step 1 ∧ (t.lport n).replay = [] ∧ t.lmf.incs = s.lmf.incs)
       ∧ (Does (.flitAckTimeout n) s fun t => (t.lport n).st = .step 1 ∧ (t.lport n).replay = [] ∧ t.lmf.incs = s.lmf.incs)
       ∧ (∀ seq, Does (.flitReplay n seq) s fun t => seq ∈ (t.lport n).replay ∧ t.out = .flit n 1 seq :: s.out)
       ∧ (∀ seq, Does (.flitCrcFailure n seq) s fun t => (t.lport n).rxNext = seq ∧ t.out = .flit n 0 seq :: s.out)))
  ∧ (∀ (s : State) (fm : Nat), s.runs = true → s.fmSays fm true = true →
     (∀ eid inc ver role n, s.lmf.joined = false → s.sec.joinAsked = true → Does (.join fm eid inc ver role n true) s fun t =>
       t.lmf.joined = true ∧ t.lmf.eid = eid ∧ t.lmf.inc = inc ∧ t.lmf.fmEid = fm)
     ∧ (∀ eid inc ver role n, s.lmf.joined = true → fm = s.lmf.fmEid → eid ≠ s.lmf.eid → Tab.get? s.lmf.incs eid = none → (s.lport n).ver = 0 →
       Does (.join fm eid inc ver role n true) s fun t => Tab.get? t.lmf.incs eid = some { inc := inc, ver := ver, joined := true, fenced := none })
     ∧ (∀ eid inc e, s.lmf.joined = true → fm = s.lmf.fmEid → eid ≠ s.lmf.eid → Tab.get? s.lmf.incs eid = some e → e.joined = true → e.inc ≤ inc →
       Does (.leave fm eid inc true) s fun t => ∃ x, Tab.get? t.lmf.incs eid = some x ∧ x.joined = false)
     ∧ (∀ eid inc ver role n, Does (.join fm eid inc ver role n false) s fun t => t.lmf.incs = s.lmf.incs ∧ t.lmf.evtDrop = s.lmf.evtDrop + 1)
     ∧ (∀ eid inc, Does (.leave fm eid inc false) s fun t => t.lmf.incs = s.lmf.incs ∧ t.lmf.evtDrop = s.lmf.evtDrop + 1))
  ∧ (∀ (s : State) (q : LmfReq),
     let x := s.sourced q
     x.srcEid = (if s.replayOf = none ∧ (s.lport q.port).st = .up ∧ (s.lport q.port).role ≠ 3 then (s.lport q.port).eid else q.srcEid) ∧ s.sourced x = x
       ∧ exec (.lmfLoad q) s = exec (.lmfLoad x) s
       ∧ (∀ d, exec (.lmfStore q d) s = exec (.lmfStore x d) s) ∧ (∀ k d, exec (.countedWrite q k d) s = exec (.countedWrite x k d) s)
       ∧ (∀ a, exec (.rdShared q a) s = exec (.rdShared x a) s ∧ exec (.rdOwn q a) s = exec (.rdOwn x a) s ∧ exec (.upgrade q a) s = exec (.upgrade x a) s
         ∧ exec (.invOwn q a) s = exec (.invOwn x a) s ∧ exec (.evictClean q a) s = exec (.evictClean x a) s ∧ exec (.ackInv q a) s = exec (.ackInv x a) s
         ∧ exec (.rspNotHeld q a) s = exec (.rspNotHeld x a) s ∧ exec (.recallDone q a) s = exec (.recallDone x a) s)
       ∧ exec (.rdUnc q) s = exec (.rdUnc x) s ∧ (∀ d m, exec (.wrUnc q d m) s = exec (.wrUnc x d m) s)
       ∧ (∀ a d p, exec (.wbDirty q a d p) s = exec (.wbDirty x a d p) s)
       ∧ (∀ a dirty poison d, exec (.rspFwd q a dirty poison d) s = exec (.rspFwd x a dirty poison d) s ∧ exec (.rspFlush q a dirty poison d) s = exec (.rspFlush x a dirty poison d) s)
       ∧ (∀ acq v, exec (.belayAccess q acq v) s = exec (.belayAccess x acq v) s) ∧ (∀ v, exec (.mirrorPartnerRead q v) s = exec (.mirrorPartnerRead x v) s)
       ∧ (∀ d p n, exec (.mirrorUpdate q d p n) s = exec (.mirrorUpdate x d p n) s) ∧ ∀ a b ws, exec (.shardRegister q a b ws) s = exec (.shardRegister x a b ws) s)

/-- The controller's own transactions (R667, R673 to R675): a completion counts at its port, and ends the transaction of its TAG and generation, one with an old generation is
discarded and counted; a timeout advances the generation, repeats once what is safe to repeat, and ends the rest. MGMT_FRAME (R687): a frame of a listed service has no effect of its own; every other is discarded and counted. -/
def Obligations.TransactionsAndFrames : Prop :=
  (∀ (s : State) (tag : Nat) (e : TagEntry), s.runs = true → Tab.get? s.lmf.tags tag = some e →
     (∀ x st data, e.live = some x → Does (.lmfCompletion tag e.gen st data true) s fun t =>
       let v := s.event (lmfUnit (Config.unitOf s.freeCtr % 32)) 0 (32 + data.length) none
       let u := State.tagFreed { v with lmf := { s.lmf with tags := Tab.set s.lmf.tags tag { e with live := none } } }
       (st ≠ .nack → t = (u.txnEnd x st data).settle) ∧ (st = .nack → t = (u.backOff x u.freeVal).freed))
     ∧ (∀ gen st data sealOk, gen ≠ e.gen → Does (.lmfCompletion tag gen st data sealOk) s fun t =>
       t.lmf.lateCpl = s.lmf.lateCpl + 1 ∧ t.lmf.tags = s.lmf.tags ∧ t.home = s.home)
     ∧ (∀ x, e.live = some x → x.limit ≤ s.now →
       let u := State.tagFreed { s with lmf := { s.lmf with tags := Tab.set s.lmf.tags tag { gen := (e.gen + 1) % 128, live := none } } }
       (x.idem = false → exec (.transactionTimeout tag) s = .next (u.txnEnd x .outcomeUnknown []).settle)
       ∧ (x.idem = true → x.tries = 0 → exec (.transactionTimeout tag) s = .next (u.issueTxn { x with tries := 1 }))
       ∧ (x.idem = true → x.tries ≠ 0 → exec (.transactionTimeout tag) s = .next (u.txnEnd x .paused []).settle)))
  ∧ (∀ (s : State) (m : Nat), s.runs = true →
     (∀ svc, svc ≠ .other → exec (.mgmtFrame m svc) s = .next s)
     ∧ (Does (.mgmtFrame m .other) s fun t => t.lmf.frameDrop = s.lmf.frameDrop + 1 ∧ t.home = s.home))

/-! ### Mailboxes, doorbells, the compute queue and the registers (15) -/

/-- GO and the message registers (R594, R596, R597): while GO is 0 a message register takes a write, and GO captures all sixteen as the channel's command;
while GO is 1 writes are discarded and MSG_LOST is set; a function without a channel sets NOCHAN. The fast doorbell (R549, R600 to R603, R610, R613): firmware of an active set that is awake takes a word at once and reports its status; a WAKE does nothing else; a
CQ_TAIL of the owner within the ring moves TAIL, and one of another function is rejected; in a switchover, and while the set wakes (R598), the word waits, and a further one is
discarded. -/
def Obligations.GoAndDoorbells : Prop :=
  (∀ (s : State) (p f : Nat), s.runs = true → s.fnEnabled p f = true →
     (∀ n w, n < 16 → (s.fnWin p f).go = false → Does (.mbxMsgWrite p f n w) s fun t =>
       Tab.getD (t.fnWin p f).msg n 0 = w ∧ (∀ k, k ≠ n → Tab.getD (t.fnWin p f).msg k 0 = Tab.getD (s.fnWin p f).msg k 0) ∧ t.home = s.home)
     ∧ (∀ n w, n < 16 → (s.fnWin p f).go = true → Does (.mbxMsgWrite p f n w) s fun t =>
       (t.fnWin p f).msg = (s.fnWin p f).msg ∧ (t.fnWin p f).msgLost = true)
     ∧ (∀ c i, (s.fnWin p f).go = false → (s.fnWin p f).chan = some c →
       bciInstr { src := .fn p f, words := (upto 16).map (fun n => Tab.getD (s.fnWin p f).msg n 0) } = some i → Does (.go p f) s fun t =>
         (t.fnWin p f).go = true ∧ (t.channel c).busy = some ((upto 16).map (fun n => Tab.getD (s.fnWin p f).msg n 0)) ∧ ∃ a ∈ t.resume, a.cmd = i ∧ a.since = none)
     ∧ ((s.fnWin p f).go = false → (s.fnWin p f).chan = none → Does (.go p f) s fun t => (t.fnWin p f).go = false ∧ (t.fnWin p f).nochan = true)
     ∧ ((s.fnWin p f).go = true → exec (.go p f) s = .next s))
  ∧ (∀ (s : State) (p f : Nat) (w : Word), s.runs = true → s.fnEnabled p f = true → s.pow.bivouac = false →
     let awake : Prop := s.bci.phase ≠ .switching ∧ (s.domain (.bc (b2n s.bci.westActive))).st = .on
     ((s.fnWin p f).full = false → awake → fld w.toNat 3 0 = 0 → Does (.wake p f w) s fun t =>
       (t.fnWin p f).full = false ∧ (t.fnWin p f).lastStatus = 0 ∧ (t.fnWin p f).tail = (s.fnWin p f).tail)
     ∧ (f = 0 → p = s.host.owner → (s.fnWin p 0).full = false → awake → s.host.ownerFenced = false → (s.fnWin p 0).en = true →
       fld w.toNat 3 0 = 1 → (s.fnWin p 0).head = (s.fnWin p 0).tail →
       (fld w.toNat 31 8 + 16777216 - (s.fnWin p 0).head) % 16777216 ≤ 2 ^ (s.fnWin p 0).lLog2 → (s.fnWin p 0).head < 16777216 → Does (.cqTail p 0 w) s fun t =>
         (t.fnWin p 0).tail = fld w.toNat 31 8 ∧ (t.fnWin p 0).full = false ∧ (t.fnWin p 0).lastStatus = 0)
     ∧ (s.isOwnerFn p f = false → (s.fnWin p f).full = false → awake → fld w.toNat 3 0 = 1 → Does (.cqTail p f w) s fun t =>
         (t.fnWin p f).tail = (s.fnWin p f).tail ∧ (t.fnWin p f).reject = true ∧ (t.fnWin p f).lastStatus = Status.state.code)
     ∧ ((s.fnWin p f).full = false → s.domain (.bc (b2n s.bci.westActive)) ∈ s.pow.doms → s.bci.phase = .switching ∨ (s.domain (.bc (b2n s.bci.westActive))).st = .gated
         ∨ (s.domain (.bc (b2n s.bci.westActive))).st = .off ∨ (s.domain (.bc (b2n s.bci.westActive))).st = .waking → Does (.wake p f w) s fun t => (t.fnWin p f).full = true ∧ (t.fnWin p f).dbl = w &&& 0xFFFFFF0F)
     ∧ ((s.fnWin p f).full = true → Does (.wake p f w) s fun t =>
         (t.fnWin p f).full = true ∧ (t.fnWin p f).dbl = (s.fnWin p f).dbl ∧ (t.fnWin p f).overrun = true))

/-- CQ_ENABLE, CQ_DISABLE and CQ_EN_APPLY (R8, R9, R608, R609, R612): EN is buffered, the last write wins, and at the boundary it is applied once: enabling
latches the ring and starts both indices at 0, a bad size leaves the queue disabled with its status in CQ_ERR, disabling waits for the entries taken. CQ_ENTRY_TAKE (R606, R607, R611): the entry at HEAD and its descriptor are read, HEAD passes it, and a kernel that passes its checks is queued; an entry of
no listed TYPE is rejected in CQ_ERR. -/
def Obligations.ComputeQueues : Prop :=
  (∀ (s : State) (p : Nat), s.runs = true →
     let w := s.fnWin p 0
     (Does (.cqEnable p) s fun t => (t.fnWin p 0).enPend = some true ∧ (t.fnWin p 0).en = w.en)
     ∧ (Does (.cqDisable p) s fun t => (t.fnWin p 0).enPend = some false ∧ (t.fnWin p 0).en = w.en)
     ∧ (w.head = w.tail → w.enPend = some false → Does (.cqEnApply p) s fun t => (t.fnWin p 0).en = false ∧ (t.fnWin p 0).enPend = none)
     ∧ (w.head = w.tail → w.enPend = some true → w.en = false → ∀ c rid rg, s.boundCtx p 0 = some c → 6 ≤ w.cqSize % 32 → w.cqSize % 32 ≤ 16 →
       s.permit s.lmf.eid w.cqKey (w.cqHi % 1048576 * 4294967296 + w.cqLo) (16 * 2 ^ (w.cqSize % 32)) needR { eid := s.lmf.eid, ctx := c, admin := false } = some (rid, rg) →
       Does (.cqEnApply p) s fun t => let v := t.fnWin p 0
         v.en = true ∧ v.enPend = none ∧ v.head = 0 ∧ v.tail = 0 ∧ v.lKey = w.cqKey ∧ v.lLog2 = w.cqSize % 32)
     ∧ (w.head = w.tail → w.enPend = some true → w.en = false → w.cqSize % 32 < 6 → Does (.cqEnApply p) s fun t =>
       (t.fnWin p 0).en = false ∧ (t.fnWin p 0).enPend = none ∧ (t.fnWin p 0).errStatus = Status.notSupported.code)
     ∧ (w.head ≠ w.tail → exec (.cqEnApply p) s = .next s))
  ∧ (∀ (s : State) (p c : Nat), s.runs = true → s.replayOf = none → (s.fnWin p 0).head ≠ (s.fnWin p 0).tail → s.bci.phase ≠ .switching →
     (∀ h ∈ s.home.held, h.cmd ≠ .cqEntryTake p) → s.boundCtx p 0 = some c → s.ctxOk c = true →
     let i : Issuer := { eid := s.lmf.eid, ctx := c, admin := false }
     let w := s.fnWin p 0
     (∀ u e v ws, s.queueRead p i w.lKey (w.lOff + 16 * (w.head % 2 ^ w.lLog2)) 16 = .ok (u, e) → wAt e 0 = 1 → dAt e 2 < 2 ^ 52 → dAt e 2 % 128 = 0 →
       u.queueRead p i (wAt e 1) (dAt e 2) 128 = .ok (v, ws) → exec (.cqEntryTake p) s = .next ((v.headPast p).kernelAccept p ws)
         ∧ ((v.headPast p).kernelCheck ws = none → Does (.cqEntryTake p) s fun t => ∃ k ∈ t.kernels, k.words = ws))
     ∧ (∀ u e, s.queueRead p i w.lKey (w.lOff + 16 * (w.head % 2 ^ w.lLog2)) 16 = .ok (u, e) → wAt e 0 = 0 ∨ 3 < wAt e 0 →
       exec (.cqEntryTake p) s = .next (u.cqReject p .notSupported)))

/-- Registers (R3, R5, R6): a read gives the register's value and clears its RC fields but for an event of the same cycle; a write to a read-only or unlisted
offset has no effect; a written configuration field reads back. -/
def Obligations.RegisterAccess : Prop :=
  ∀ s : State,
    (∀ sp off, s.spaceUp sp = true → exec (.readClear sp off 0) s = .next ((s.clearRead sp off 0).emit (.regData (s.readReg sp off))))
    ∧ (∀ p f, s.spaceUp (.fn p f) = true → Does (.readClear (.fn p f) 0x084 0) s fun t =>
      (t.fnWin p f).overrun = false ∧ (t.fnWin p f).reject = false ∧ (t.fnWin p f).full = (s.fnWin p f).full)
    ∧ (∀ ev, s.spaceUp .mgmt = true → Does (.readClear .mgmt 0x484 ev) s fun t => t.time.stepped = bitAt ev.toNat 2 ∧ t.time.now = s.time.now)
    ∧ (∀ p f w, s.spaceUp (.fn p f) = true → ∀ off ∈ [0x044, 0x084, 0x100, 0x104, 0x310], exec (.registerWrite (.fn p f) off w) s = .next s)
    ∧ (∀ p w, s.spaceUp (.fn p 0) = true → Does (.registerWrite (.fn p 0) 0x204 w) s fun t => t.readReg (.fn p 0) 0x204 = w)
    ∧ (∀ w, s.spaceUp .mgmt = true → Does (.registerWrite .mgmt 0x404 w) s fun t => t.readReg .mgmt 0x404 = w &&& 0x00003FFF)
    ∧ (∀ w, s.spaceUp .mgmt = true → Does (.registerWrite .mgmt 0x480 w) s fun t => t.readReg .mgmt 0x480 = w &&& 0x000003FF)

/-! ### The Slaica core (09, 10) -/

/-- The scalar integer instructions (R353, R356, R393): RD gets the listed result of the registers the slot reads, X0 stays zero, no flag changes, and
nothing else of the machine changes but the slot's place in its queue. NOP has no effect, and a slot of an engine other than the vector engines that predication disables does nothing (R348, R353): it only leaves its
queue. -/
def Obligations.ScalarArithmetic : Prop :=
  (∀ (s : State) (cmd : Instr) (h : SlotHdr) (k : KernelRun) (q : QSlot) (r : RegFile) (d : Nat) (v : BitVec 64),
     s.slotGo cmd = some (h, k, q, r) → performed h r = true → aluResult r cmd = some (d, v) → Does cmd s fun t =>
       SlotOver cmd h.core s t ∧ XWritten h.core d v s t ∧ (t.core h.core).flags = (s.core h.core).flags)
  ∧ (∀ (s : State) (h : SlotHdr) (k : KernelRun) (q : QSlot) (r : RegFile),
     let nothing (cmd : Instr) : Prop := Does cmd s fun t =>
       SlotOver cmd h.core s t ∧ (t.core h.core).regs = (s.core h.core).regs ∧ (t.core h.core).flags = (s.core h.core).flags
     (s.slotGo (.nop h) = some (h, k, q, r) → nothing (.nop h))
     ∧ (∀ (cmd : Instr) d v, s.slotGo cmd = some (h, k, q, r) → performed h r = false → h.slot < 2 → aluResult r cmd = some (d, v) → nothing cmd)
     ∧ (∀ f, s.slotGo (.mma h f) = some (h, k, q, r) → performed h r = false → h.slot = 4 → nothing (.mma h f))
     ∧ (∀ f, s.slotGo (.br h f) = some (h, k, q, r) → performed h r = false → h.slot = 7 → nothing (.br h f)))

/-- Predicates, FP32 arithmetic, conversion, the status registers, the tile descriptors and the address conversions (R363 to R366, R391 to R399): each writes its destination and
nothing else of the registers, and only the floating-point instructions and SMOVT change a sticky flag. The readings of SUB and IMM are DEDUCED (log 18). -/
def Obligations.ScalarSpecials : Prop :=
  ∀ (s : State) (h : SlotHdr) (k : KernelRun) (q : QSlot) (r : RegFile) (f : SFmt), performed h r = true →
    let go (cmd : Instr) : Prop := s.slotGo cmd = some (h, k, q, r)
    let n := h.core
    let keepFlags (t : State) : Prop := (t.core n).flags = (s.core n).flags
    (go (.pcmp h f) → f.sub ≤ 5 →
      let a := r.xr f.ra
      let b := r.xr f.rb
      let holds : Bool := match f.sub with
        | 0 => decide (a = b) | 1 => decide (a ≠ b) | 2 => decide (a.toInt < b.toInt) | 3 => decide (b.toInt ≤ a.toInt)
        | 4 => decide (a.toNat < b.toNat) | _ => decide (b.toNat ≤ a.toNat)
      Does (.pcmp h f) s fun t => SlotOver (.pcmp h f) n s t ∧ PWritten n f.rd (if holds then BitVec.allOnes 4096 else 0) s t ∧ keepFlags t)
    ∧ (go (.pset h f) → Does (.pset h f) s fun t => ∃ v : BitVec 4096,
        SlotOver (.pset h f) n s t ∧ PWritten n f.rd v s t ∧ (∀ i < 4096, v.getLsbD i = decide (i < (r.xr f.ra).toNat * elemBytes f.type)) ∧ keepFlags t)
    ∧ (∀ cmd d x, go cmd → floatResult r cmd = some (d, x) → Does cmd s fun t =>
        SlotOver cmd n s t ∧ XWritten n d (BitVec.ofNat 64 (fp32.finish (s.slotRnd h q) x).1) s t
          ∧ (t.core n).flags = (s.core n).flags ||| (fp32.finish (s.slotRnd h q) x).2.bits)
    ∧ (go (.fcvt h f) → f.sub ≤ 8 →
      let x := convElem f.type f.sub (s.slotRnd h q) ((r.xr f.ra).toNat % 2 ^ (8 * elemBytes f.type))
      Does (.fcvt h f) s fun t => SlotOver (.fcvt h f) n s t ∧ XWritten n f.rd (extend f.sub x.1) s t ∧ (t.core n).flags = (s.core n).flags ||| x.2.bits)
    ∧ (∀ v, go (.smovs h f) → f.imm.toNat % 256 ≠ 4 → s.statusReg n k q (f.imm.toNat % 256) = some v → Does (.smovs h f) s fun t =>
        SlotOver (.smovs h f) n s t ∧ XWritten n f.rd v s t ∧ keepFlags t)
    ∧ (go (.smovs h f) → f.imm.toNat % 256 = 4 → Does (.smovs h f) s fun t => ∃ v, XWritten n f.rd v s t ∧ keepFlags t ∧ t.home = s.home)
    ∧ (go (.smovt h f) → f.imm.toNat % 256 = 5 → Does (.smovt h f) s fun t =>
        SlotOver (.smovt h f) n s t ∧ (t.core n).flags = (r.xr f.ra).truncate 5 ∧ (t.core n).regs = (s.core n).regs)
    ∧ (go (.smovt h f) → f.imm.toNat % 256 = 6 → (r.xr f.ra).toNat % 4 < 2 → Does (.smovt h f) s fun t =>
        (t.core n).frm = (r.xr f.ra).truncate 2 ∧ keepFlags t ∧ (t.core n).regs = (s.core n).regs)
    ∧ (go (.mset h f) → Does (.mset h f) s fun t => SlotOver (.mset h f) n s t
        ∧ (t.core n).regs = { (s.core n).regs with m := (t.core n).regs.m } ∧ (t.core n).regs.mr f.rd = tileBits (r.xr f.rb ++ r.xr f.ra)
        ∧ ∀ j, j % 16 ≠ f.rd % 16 → (t.core n).regs.mr j = (s.core n).regs.mr j)
    ∧ (go (.mget h f) → f.sub ≤ 1 → Does (.mget h f) s fun t => SlotOver (.mget h f) n s t
        ∧ XWritten n f.rd (if f.sub = 0 then (r.mr f.ra).truncate 64 else ((r.mr f.ra) >>> 64).truncate 64) s t)
    ∧ (go (.pcvtH2d h f) → f.rd % 2 = 0 → f.sub = 0 →
      let found := s.h2d (fld f.imm.toNat 1 0) (fld f.imm.toNat 9 2) (some (kernelCtx k.words)) (r.xr f.ra).toNat
      Does (.pcvtH2d h f) s fun t => SlotOver (.pcvtH2d h f) n s t
        ∧ (t.core n).regs.xr (f.rd + 1) = (match found with | some x => BitVec.ofNat 64 (s.lmf.eid + 4294967296 * x.2) | none => 0)
        ∧ (f.rd % 32 ≠ 0 → (t.core n).regs.xr f.rd = (match found with | some x => BitVec.ofNat 64 x.1 | none => 0))
        ∧ (f.rc % 16 ≠ 0 → (t.core n).regs.pr f.rc = if found.isSome then BitVec.allOnes 4096 else 0))
    ∧ (∀ eid key off, go (.pcvtD2h h f) → memPair r f.ra 0 = some (eid, key, off) →
      let found := if eid = s.lmf.eid then s.d2h (fld f.imm.toNat 1 0) (fld f.imm.toNat 9 2) (some (kernelCtx k.words)) off else none
      Does (.pcvtD2h h f) s fun t => SlotOver (.pcvtD2h h f) n s t
        ∧ (f.rd % 32 ≠ 0 → (t.core n).regs.xr f.rd = (match found with | some a => BitVec.ofNat 64 a | none => 0))
        ∧ (f.rc % 16 ≠ 0 → (t.core n).regs.pr f.rc = if found.isSome then BitVec.allOnes 4096 else 0))

/-- LD, ST and AMO (R387 to R394): a tile-store access within TS_USED reads and writes the tile store; an aligned, permitted access to this controller's
memory that meets nothing reads it, writes it, or performs its atomic; a misaligned load raises MISALIGNED. That IMM of AMO names the operation is DEDUCED (log 18). -/
def Obligations.ScalarMemory : Prop :=
  ∀ (s : State) (h : SlotHdr) (k : KernelRun) (q : QSlot) (r : RegFile) (f : SFmt), performed h r = true →
    let go (cmd : Instr) : Prop := s.slotGo cmd = some (h, k, q, r)
    let n := h.core
    let w := elemBytes f.type
    let data := natLE w (r.xr f.rb).toNat
    let u : State := s.setCore n ((s.core n).save q)
    (go (.ld h f) → f.sub = 1 → tileOk k (tileAddr r f.ra f.imm) w = true → Does (.ld h f) s fun t =>
      SlotOver (.ld h f) n s t ∧ XWritten n f.rd (extend f.type (leNat (s.tileRead n (tileAddr r f.ra f.imm) w))) s t)
    ∧ (go (.st h f) → f.sub = 1 → tileOk k (tileAddr r f.ra f.imm) w = true → Does (.st h f) s fun t =>
      t = { s with cores := t.cores } ∧ (t.core n).regs = (s.core n).regs ∧ t.tileRead n (tileAddr r f.ra f.imm) w = data
        ∧ ∀ a, a < tileAddr r f.ra f.imm ∨ tileAddr r f.ra f.imm + w ≤ a → Mem.read (t.core n).tile a = Mem.read (s.core n).tile a)
    ∧ (∀ eid key a rid rg, f.sub = 0 → memPair r f.ra f.imm = some (eid, key, a) → a % w = 0 → s.isOwn eid = true → s.gate rid rg = none →
      (go (.ld h f) → s.slotParts n (.ld h f) = (0, []) → s.permit eid key a w needR (s.kernelIssuer k) = some (rid, rg) →
        u.meetRead rid rg (s.kernelView k rid a w) a w = .clear → Does (.ld h f) s fun t =>
          XWritten n f.rd (extend f.type (leNat (s.readRange rg (s.kernelView k rid a w) a w))) s t ∧ ∀ m, m ≠ n → t.core m = s.core m)
      ∧ (go (.st h f) → s.slotParts n (.st h f) = (0, []) → s.permit eid key a w needW (s.kernelIssuer k) = some (rid, rg) →
        u.meetWrite rid rg (.shadowed (s.kernelIssuer k)) a w = .clear →
          exec (.st h f) s = .next ((u.slotWrite (coreUnit n (engineOf (.st h f))) n k rid rg a data).slotDone (.st h f) h)))
    ∧ (∀ eid key a rid rg, f.sub ≤ 2 → (f.sub = 2 → f.rd % 2 = 0 ∧ f.rb % 2 = 0 ∧ f.rc % 2 = 0) → memPair r f.ra 0 = some (eid, key, a) →
      a % (4 * 2 ^ f.sub) = 0 → s.isOwn eid = true → atomicOk (f.imm.toNat % 256) (4 * 2 ^ f.sub) a = true → go (.amo h f) →
      s.permit eid key a (4 * 2 ^ f.sub) needA (s.kernelIssuer k) = some (rid, rg) → s.gate rid rg = none →
      u.meetWrite rid rg .direct a (4 * 2 ^ f.sub) = .clear → Does (.amo h f) s fun t =>
        let old := leNat (s.pubBytes rid a (4 * 2 ^ f.sub))
        (t.core n).regs.xr f.rd = (if f.rd % 32 = 0 then 0 else BitVec.ofNat 64 old)
          ∧ (f.sub = 2 → (t.core n).regs.xr (f.rd + 1) = BitVec.ofNat 64 (old / 2 ^ 64))
          ∧ ∀ m, m % 32 ≠ f.rd % 32 → (f.sub = 2 → m % 32 ≠ (f.rd + 1) % 32) → (t.core n).regs.xr m = (s.core n).regs.xr m)
    ∧ (∀ eid key a, f.sub = 0 → memPair r f.ra f.imm = some (eid, key, a) → a % w ≠ 0 → go (.ld h f) →
      exec (.ld h f) s = .next (u.slotRaise (.ld h f) h q 4 .notSupported))

/-- The vector instructions that work element by element (R353, R354, R400, R401): each enabled element of VD gets its result, each disabled one keeps its
value, no sticky flag is cleared, and nothing else changes. -/
def Obligations.VectorLanes : Prop :=
  ∀ (s : State) (cmd : Instr) (h : SlotHdr) (k : KernelRun) (q : QSlot) (r : RegFile) (w d : Nat) (val : Nat → Nat),
    s.slotGo cmd = some (h, k, q, r) → h.slot = 2 ∨ h.slot = 3 → (∀ i, laneResult h r (s.slotRnd h q) i cmd = some (w, d, val i)) → Does cmd s fun t =>
      ∃ v, SlotOver cmd h.core s t ∧ VWritten h.core d v s t ∧ (s.core h.core).flags &&& (t.core h.core).flags = (s.core h.core).flags
        ∧ ∀ i < 4096 / w, vLane w i v = if laneOn h r w i then val i % 2 ^ (8 * w) else vLane w i (r.vr d)

/-- VCMP, VCVT and VRED (R366, R368, R400, R402 to R404): the predicate bits of each enabled element take its comparison; a conversion takes its part of
VA to its part of VD; a reduction of a wholly enabled register leaves the tree's result in element 0 and zero in the others. Which part, and the signs compared: DEDUCED (log 18). -/
def Obligations.VectorSpecials : Prop :=
  ∀ (s : State) (h : SlotHdr) (k : KernelRun) (q : QSlot) (r : RegFile) (f : VFmt), h.slot = 2 ∨ h.slot = 3 →
    let go (cmd : Instr) : Prop := s.slotGo cmd = some (h, k, q, r)
    let n := h.core
    let m := s.slotRnd h q
    let w := elemBytes f.type
    let wd := elemBytes f.type2
    (go (.vcmp h f) → f.sub ≤ 6 → Does (.vcmp h f) s fun t => ∃ v, SlotOver (.vcmp h f) n s t ∧ PWritten n f.pd v s t
      ∧ ∀ i < 4096 / w, ∀ j < w, v.getLsbD (w * i + j) =
          if laneOn h r w i then (vcond f.type f.sub (vLane w i (r.vr f.va)) (vLane w i (r.vr f.vb))).1 else (r.pr f.pd).getLsbD (w * i + j))
    ∧ (go (.vcvt h f) → isMx f.type = false → isMx f.type2 = false → f.sub < max w wd / min w wd → Does (.vcvt h f) s fun t =>
      let len := 4096 / max w wd
      let a := if w < wd then f.sub * len else 0
      let b := if wd < w then f.sub * len else 0
      ∃ v, SlotOver (.vcvt h f) n s t ∧ VWritten n f.vd v s t
        ∧ (∀ i < len, vLane wd (b + i) v =
            if laneOn h r wd (b + i) then (convElem f.type f.type2 m (vLane w (a + i) (r.vr f.va))).1 % 2 ^ (8 * wd) else vLane wd (b + i) (r.vr f.vd))
        ∧ ∀ i < 4096 / wd, i < b ∨ b + len ≤ i → vLane wd i v = vLane wd i (r.vr f.vd))
    ∧ (∀ x, go (.vcvt h f) → h.pred = 0 → h.pneg = false → isMx f.type2 = true → fmtOf f.type2 = some x → f.type = 8 ∨ f.type = 9 → f.sub < 4 / w →
      let row := (mxRow x ((upto 1024).map (fun i => elemVal f.type (vLane w (f.sub * 1024 + i) (r.vr f.va))))).1
      Does (.vcvt h f) s fun t => ∃ v, SlotOver (.vcvt h f) n s t ∧ VWritten n f.vd v s t ∧ ∀ i < 4096, vLane 1 i v = (row[i]?.map BitVec.toNat).getD (vLane 1 i (r.vr f.vd)))
    ∧ (∀ x y, go (.vcvt h f) → h.pred = 0 → h.pneg = false → isMx f.type = true → fmtOf f.type = some x → f.type2 = 8 ∨ f.type2 = 9 → fmtOf f.type2 = some y →
      f.sub < 4 / wd → Does (.vcvt h f) s fun t => ∃ v, SlotOver (.vcvt h f) n s t ∧ VWritten n f.vd v s t
        ∧ ∀ i < 1024, ∀ e, (mxVals x 1024 (natLE 4096 (r.vr f.va).toNat))[i]? = some e → vLane wd (f.sub * 1024 + i) v = (y.round m e).1 % 2 ^ (8 * wd))
    ∧ (go (.vred h f) → f.sub = 0 → h.pred = 0 → h.pneg = false → Does (.vred h f) s fun t => ∃ v, SlotOver (.vred h f) n s t ∧ VWritten n f.vd v s t
        ∧ vLane w 0 v = (treeReduce (arith2 0x117 f.type (· + ·) FVal.add m) 12 (vElems w (r.vr f.va)) FFlags.none).1 % 2 ^ (8 * w)
        ∧ ∀ i < 4096 / w, i ≠ 0 → vLane w i v = 0)
    ∧ (go (.vred h f) → 1 ≤ f.sub → f.sub ≤ 2 → Does (.vred h f) s fun t => ∃ v, SlotOver (.vred h f) n s t ∧ VWritten n f.vd v s t
        ∧ ∀ i < 4096 / w, i ≠ 0 → vLane w i v = if laneOn h r w i then 0 else vLane w i (r.vr f.vd))

/-- VLD and VST (R353, R354, R387 to R389, R405): an access of the tile store within TS_USED moves each enabled byte and no other; a whole register moves to
and from this controller's memory where nothing stops it, and an access that no element takes part in does nothing. -/
def Obligations.VectorMemory : Prop :=
  ∀ (s : State) (h : SlotHdr) (k : KernelRun) (q : QSlot) (r : RegFile) (f : LFmt),
    let go (cmd : Instr) : Prop := s.slotGo cmd = some (h, k, q, r)
    let n := h.core
    let w := elemBytes f.type
    let a := tileAddr r f.ra f.imm
    let u : State := s.setCore n ((s.core n).save q)
    let none' : Prop := ∀ b < 4096, laneOn h r w (b / w) = false
    (∀ cmd ∈ [Instr.vld h f, .vst h f], go cmd → none' → f.sub = 1 → Does cmd s fun t => SlotOver cmd n s t ∧ (t.core n).regs = (s.core n).regs)
    ∧ (go (.vld h f) → ¬ none' → f.sub = 1 → a + 4096 ≤ tsUsed k.words → Does (.vld h f) s fun t => ∃ v, SlotOver (.vld h f) n s t ∧ VWritten n f.vd v s t
      ∧ ∀ b < 4096, vLane 1 b v = if laneOn h r w (b / w) then leNat (s.tileRead n (a + b) 1) else vLane 1 b (r.vr f.vd))
    ∧ (go (.vst h f) → f.sub = 1 → a + 4096 ≤ tsUsed k.words → Does (.vst h f) s fun t =>
      t = { s with cores := t.cores } ∧ (t.core n).regs = (s.core n).regs
        ∧ (∀ b < 4096, leNat (t.tileRead n (a + b) 1) = if laneOn h r w (b / w) then vLane 1 b (r.vr f.vd) else leNat (s.tileRead n (a + b) 1))
        ∧ ∀ b, b < a ∨ a + 4096 ≤ b → Mem.read (t.core n).tile b = Mem.read (s.core n).tile b)
    ∧ (∀ eid key o rid rg, f.sub = 0 → h.pred = 0 → h.pneg = false → memPair r f.ra f.imm = some (eid, key, o) → o % w = 0 → s.isOwn eid = true → s.gate rid rg = none →
      (go (.vld h f) → rg.mode ≠ .coherent → s.slotParts n (.vld h f) = (0, []) → s.permit eid key o 4096 needR (s.kernelIssuer k) = some (rid, rg) →
        u.meetRead rid rg (s.kernelView k rid o 4096) o 4096 = .clear → Does (.vld h f) s fun t =>
          VWritten n f.vd (BitVec.ofNat 32768 (leNat (s.readRange rg (s.kernelView k rid o 4096) o 4096))) s t)
      ∧ (go (.vst h f) → rg.mode ≠ .coherent → s.slotParts n (.vst h f) = (0, []) → s.permit eid key o 4096 needW (s.kernelIssuer k) = some (rid, rg) →
        u.meetWrite rid rg (.shadowed (s.kernelIssuer k)) o 4096 = .clear →
          exec (.vst h f) s = .next ((u.slotWrite (coreUnit n (engineOf (.vst h f))) n k rid rg o (natLE 4096 (r.vr f.vd).toNat)).slotDone (.vst h f) h)))

/-- DMA (R79, R81, R405 to R409): DMA.COPY and DMA.RW start a transfer, with its ranges checked, and go on; DMA_TRANSFER_END reads what it moves, then writes it, on the pages
the ranges had when it was queued, and the transfer is over (the events: log 32). -/
def Obligations.DmaTransfers : Prop :=
  ∀ (s : State) (h : SlotHdr) (k : KernelRun) (q : QSlot) (r : RegFile) (f : LFmt),
    let n := h.core
    let len := (r.xr f.rc).toNat
    let ends (tile : Bool) (p : Option (Nat × Nat × Nat)) (x : Nat × Nat × Nat) : Prop := if tile then x.2.2 + len ≤ tsUsed k.words else p = some x
    (performed h r = true → f.sub ≤ 3 → len ≠ 0 → len < 2 ^ 32 → (s.core n).transfers.length < 64 →
      ∀ a b, ends (bitAt f.sub 0) (memPair r f.rb 0) a → (bitAt f.sub 0 = true → a = (0, 0, (r.xr f.rb).toNat)) →
        ends (bitAt f.sub 1) (memPair r f.ra f.imm) b → (bitAt f.sub 1 = true → b = (0, 0, tileAddr r f.ra f.imm)) →
        (bitAt f.sub 0 = false → s.isOwn a.1 = true → ∃ rid rg, s.permit a.1 a.2.1 a.2.2 len needR (s.kernelIssuer k) = some (rid, rg) ∧ s.absentIn rid a.2.2 len = none) →
        (bitAt f.sub 1 = false → s.isOwn b.1 = true → ∃ rid rg, s.permit b.1 b.2.1 b.2.2 len needW (s.kernelIssuer k) = some (rid, rg) ∧ s.absentIn rid b.2.2 len = none) →
      let started (t : State) (ck : Option Nat) : Prop := ∃ x, (t.core n).transfers = (s.core n).transfers ++ [x] ∧ x.id = s.nextId ∧ x.len = len ∧ x.ckey = ck
        ∧ x.srcTile = bitAt f.sub 0 ∧ x.src = a.2.2 ∧ x.dstTile = bitAt f.sub 1 ∧ x.dst = b.2.2 ∧ x.pos = 0 ∧ x.sent = false ∧ (t.core n).regs = (s.core n).regs
        ∧ (bitAt f.sub 0 = true → bitAt f.sub 1 = true → t.home.regions = s.home.regions ∧ t.home.pages = s.home.pages)
      (s.slotGo (.dmaCopy h f) = some (h, k, q, r) → Does (.dmaCopy h f) s fun t => started t none)
      ∧ (s.slotGo (.dmaRw h f) = some (h, k, q, r) → f.sub < 2 → Does (.dmaRw h f) s fun t => started t (some ((r.xr f.re).toNat % 2 ^ 32))))
    ∧ (∀ c x kr, s.runs = true → s.replay = none → (s.core c).transfer? x.id = some x → (s.core c).kernel = some kr → (s.core c).dmaBehind x = false →
        (∀ e ∈ s.home.held, e.cmd ≠ .dmaTransferEnd c x.id) → s.txnLive (fun w => decide (w = .dma c x.id)) = false →
      (x.sent = false → x.srcTile = true → x.pos < x.len → Does (.dmaTransferEnd c x.id) s fun t =>
        t = { s with cores := t.cores } ∧ ∃ y, (t.core c).transfer? x.id = some y ∧ y.pos = x.len ∧ Mem.readN y.buf 0 x.len = s.tileRead c x.src x.len)
      ∧ (x.sent = false → x.pos = x.len → x.dstTile = true → Does (.dmaTransferEnd c x.id) s fun t =>
        t = { s with cores := t.cores } ∧ (t.core c).transfer? x.id = some { x with sent := true, pos := 0 })
      ∧ (x.sent = true → x.dstTile = true → x.pos < x.len → Does (.dmaTransferEnd c x.id) s fun t =>
        t.tileRead c x.dst x.len = Mem.readN x.buf 0 x.len ∧ (t.core c).transfer? x.id = none ∧ (t.core c).regs = (s.core c).regs ∧ ∀ m, m ≠ c → t.core m = s.core m)
      ∧ (x.sent = true → x.pos = x.len → Does (.dmaTransferEnd c x.id) s fun t => (t.core c).transfer? x.id = none ∧ (t.core c).regs = (s.core c).regs)
      ∧ (∀ rid rg, s.region? rid = some rg → s.gate rid rg = none → s.remapped x.id x.pages = [] → rg.mode ≠ .coherent → x.pos = 0 → 0 < x.len →
        (x.sent = false → x.srcTile = false → s.isOwn x.srcEid = true → capsRegion x.pages x.srcKey x.src = some rid → inBlock x.src x.len = true →
          s.meetRead rid rg (s.kernelView kr rid x.src x.len) x.src x.len = .clear → Does (.dmaTransferEnd c x.id) s fun t =>
            ∃ y, (t.core c).transfer? x.id = some y ∧ y.pos = x.len ∧ Mem.readN y.buf 0 x.len = s.readRange rg (s.kernelView kr rid x.src x.len) x.src x.len)
        ∧ (x.sent = true → x.dstTile = false → s.isOwn x.dstEid = true → x.ckey = none → capsRegion x.pages x.dstKey x.dst = some rid → inBlock x.dst x.len = true →
          rg.mode ≠ .publish → rg.mirror = 0 → s.meetWrite rid rg (.shadowed (s.kernelIssuer kr)) x.dst x.len = .clear → Does (.dmaTransferEnd c x.id) s fun t =>
            (∃ y, (t.core c).transfer? x.id = some y ∧ y.pos = x.len) ∧ (s.pageHeld rg x.dst = true → t.shows rid .pub x.dst (Mem.readN x.buf 0 x.len)))))

/-- BELAY (R321, R326 to R331, R423 to R427): its slot issues it; a release stores its value once the engine's earlier accesses are performed; an acquire ends
when its word satisfies it, and not before; 1 µs after an overflow it asks again; another controller's engine is answered with the word. -/
def Obligations.BelayOrders : Prop :=
  (∀ (s : State) (h : SlotHdr) (k : KernelRun) (q : QSlot) (r : RegFile) (f : SFmt), performed h r = true → 8 ≤ f.sub → f.sub ≤ 12 →
      let a := tileAddr r f.ra f.imm
      let n := h.core
      a % 8 = 0 → tileOk k a 8 = true →
      let issued (t : State) (acq : Bool) : Prop := ∃ b, (t.core n).belays = (s.core n).belays ++ [b] ∧ b.acq = acq ∧ b.addr = a ∧ b.tile = true ∧ b.value = r.xr f.rb
        ∧ b.id = s.nextId ∧ t.home = s.home
      (s.slotGo (.belayRel h f) = some (h, k, q, r) → Does (.belayRel h f) s fun t => issued t false)
      ∧ (s.slotGo (.belayAcq h f) = some (h, k, q, r) → Does (.belayAcq h f) s fun t => issued t true))
  ∧ (∀ (s : State) (c : Nat) (b : Belay) (k : KernelRun), s.runs = true → s.replayOf = none → (s.core c).belay? b.id = some b → (s.core c).kernel = some k →
      (b.acq = false → b.tile = true → b.satisfied = false → s.relReady c b = true → (∀ e ∈ s.home.held, e.cmd ≠ .belayRelStore c b.id) → Does (.belayRelStore c b.id) s fun t =>
        t = { s with cores := t.cores } ∧ t.tileRead c b.addr 8 = natLE 8 b.value.toNat ∧ (t.core c).belay? b.id = none)
      ∧ (b.acq = false → s.relReady c b = false → exec (.belayRelStore c b.id) s = .next s)
      ∧ (b.acq = true → b.tile = true → (∀ e ∈ s.home.held, e.cmd ≠ .belayAcqSatisfied c b.id) →
        let d : Int := (BitVec.ofNat 64 (leNat (s.tileRead c b.addr 8)) - b.value).toInt
        (0 ≤ d → Does (.belayAcqSatisfied c b.id) s fun t => t = { s with cores := t.cores } ∧ (t.core c).belay? b.id = none)
        ∧ (d < 0 → exec (.belayAcqSatisfied c b.id) s = .next s))
      ∧ (b.acq = true → s.isOwn b.eid = true → b.retryAt ≠ 0 → b.retryAt ≤ s.now → s.acquiresFull = false → Does (.acquireRetry c b.id) s fun t =>
        t = { s with cores := t.cores } ∧ ∃ x, (t.core c).belay? b.id = some x ∧ x.retryAt = 0))
  ∧ (∀ (s : State) (q : LmfReq) (v : DWord) (u : State) (rid : Nat) (rg : Region), q.offset % 8 = 0 → q.len = 8 →
      (s.accesses (.belayAccess q true v) q false true needW = some (u, rid, rg) → u.meetWrite rid rg .direct q.offset 8 = .clear → rg.mirror = 0 →
        rg.mode ≠ .publish → u.pageHeld rg q.offset = true → Completes (.belayAccess q true v) s q .ok [] fun t => t.shows rid .pub q.offset (natLE 8 v.toNat))
      ∧ (s.accesses (.belayAccess q false v) q false false needR = some (u, rid, rg) → u.meetRead rid rg .pub q.offset 8 = .clear →
        let w := u.readRange rg .pub q.offset 8
        (0 ≤ (BitVec.ofNat 64 (leNat w) - v).toInt → Completes (.belayAccess q false v) s q .ok w fun t => t.home.acquires = s.home.acquires)
        ∧ ((BitVec.ofNat 64 (leNat w) - v).toInt < 0 → u.acquiresFull = false → Does (.belayAccess q false v) s fun t =>
          t.home.acquires.length = s.home.acquires.length + 1)))

/-- The matrix engine (R358, R360, R367, R410 to R418): MMA and MMV give each accumulator element the rounded sum of the products of its row and column, MLOAD
lands the rows of a tile, MDRAIN converts an accumulator to a tile, and MCLR zeroes one. -/
def Obligations.MatrixResults : Prop :=
  ∀ (s : State) (h : SlotHdr) (k : KernelRun) (q : QSlot) (r : RegFile) (f : MFmt), performed h r = true →
    let go (cmd : Instr) : Prop := s.slotGo cmd = some (h, k, q, r)
    let n := h.core
    let c := s.core n
    let u : State := s.setCore n (c.save q)
    (∀ a b, tileOf (r.mr f.ma) = some a → tileOf (r.mr f.mb) = some b → f.sub ≤ 1 → a.rows ≤ 256 → b.rows ≤ 256 → a.cols = b.cols → rateClass a.type ≠ 0 →
      rateClass a.type = rateClass b.type → a.fits k = true → b.fits k = true →
      let made (t : State) : Prop :=
        (∀ i < a.rows, ∀ j < b.rows, Tab.getD (t.core n).acc (accKey f.acc i j) 0 =
          BitVec.ofNat 32 (dot (a.row c.tile i) (b.row c.tile j) (if f.sub = 1 then 0 else (Tab.getD c.acc (accKey f.acc i j) 0).toNat)).1)
        ∧ (∀ e, e / 65536 ≠ f.acc → Tab.getD (t.core n).acc e 0 = Tab.getD c.acc e 0) ∧ (t.core n).tile = c.tile ∧ (t.core n).regs = c.regs
          ∧ (Config.arrayFault s.freeCtr = none → t.home = s.home)
      (go (.mma h f) → Does (.mma h f) s made) ∧ (go (.mmv h f) → a.rows ≤ 8 → Does (.mmv h f) s made))
    ∧ (∀ d eid key o rid rg, go (.mload h f) → f.sub = 0 → tileOf (r.mr f.md) = some d → memPair r f.ra 0 = some (eid, key, o) → d.fits k = true → s.isOwn eid = true → rg.mode ≠ .coherent →
      s.slotParts n (.mload h f) = (0, []) →
      let at' (i : Nat) : Int := (o : Int) + (i : Int) * (r.xr f.rb).toInt
      (∀ i < d.rows, 0 ≤ at' i ∧ at' i < 2 ^ 52 ∧ (at' i).toNat % elemBytes d.type = 0 ∧ rg.inside (at' i).toNat d.len = true
        ∧ u.meetRead rid rg (s.kernelView k rid (at' i).toNat d.len) (at' i).toNat d.len = .clear) →
      s.permit eid key o d.len needR (s.kernelIssuer k) = some (rid, rg) → s.gate rid rg = none → Does (.mload h f) s fun t =>
        (∀ i < d.rows, t.tileRead n (d.base + i * d.step) d.len = s.readRange rg (s.kernelView k rid (at' i).toNat d.len) (at' i).toNat d.len)
          ∧ (t.core n).regs = c.regs ∧ (t.core n).acc = c.acc)
    ∧ (∀ d, go (.mdrain h f) → tileOf (r.mr f.md) = some d → d.rows ≤ 256 → d.cols ≤ 256 → d.fits k = true → isMx d.type = false → Does (.mdrain h f) s fun t =>
        t = { s with cores := t.cores } ∧ (t.core n).acc = c.acc ∧ (t.core n).regs = c.regs
          ∧ ∀ i < d.rows, t.tileRead n (d.base + i * d.step) d.len =
              (upto d.cols).flatMap (fun j => natLE (elemBytes d.type) (convElem 8 d.type .rne (Tab.getD c.acc (accKey f.acc i j) 0).toNat).1))
    ∧ (∀ d x, go (.mdrain h f) → tileOf (r.mr f.md) = some d → d.rows ≤ 256 → d.cols ≤ 256 → d.fits k = true → isMx d.type = true → fmtOf d.type = some x →
        Does (.mdrain h f) s fun t => ∀ i < d.rows, t.tileRead n (d.base + i * d.step) d.len =
          (mxRow x ((upto d.cols).map (fun j => elemVal 8 (Tab.getD c.acc (accKey f.acc i j) 0).toNat))).1)
    ∧ (go (.mclr h f) → Does (.mclr h f) s fun t => t = { s with cores := t.cores } ∧ (t.core n).regs = c.regs ∧ (t.core n).tile = c.tile
        ∧ (∀ i < 256, ∀ j < 256, Tab.getD (t.core n).acc (accKey f.acc i j) 0 = 0) ∧ ∀ e, e / 65536 ≠ f.acc → Tab.getD (t.core n).acc e 0 = Tab.getD c.acc e 0)

/-- Control (R352, R374, R419 to R422): BR and BRX move the code position to a bundle of the code, WAITCNT lets the front end go on or waits until its counter
satisfies it, WAITCNT_WAKE ends that wait, and HALT lets the kernel drain. -/
def Obligations.ControlFlow : Prop :=
  (∀ (s : State) (h : SlotHdr) (k : KernelRun) (q : QSlot) (r : RegFile) (f : CFmt), performed h r = true → (s.core h.core).kernel = some k → (s.core h.core).st = .running →
    let go (cmd : Instr) : Prop := s.slotGo cmd = some (h, k, q, r)
    let n := h.core
    let ck := (r.xr f.ra).toNat % 2 ^ 32
    let at' (t : State) (target : Int) : Prop := ∃ x, (t.core n).kernel = some x ∧ (x.pos : Int) = target ∧ (t.core n).regs = (s.core n).regs ∧ t = { s with cores := t.cores }
    (go (.br h f) → ((q.bundle : Int) + f.imm.toInt) % 128 = 0 → 0 ≤ (q.bundle : Int) + f.imm.toInt → (q.bundle : Int) + f.imm.toInt < wAt k.words 5 →
      Does (.br h f) s fun t => at' t ((q.bundle : Int) + f.imm.toInt))
    ∧ (go (.brx h f) → (r.xr f.ra).toNat % 128 = 0 → (r.xr f.ra).toNat < wAt k.words 5 → Does (.brx h f) s fun t => at' t (r.xr f.ra).toNat)
    ∧ (∀ ctr, go (.waitcnt h f) → f.sub ≤ 2 → s.counterOf ck (s.kernelIssuer k) = some ctr →
      let w : Wait := { id := s.nextId, ckey := ck, sel := f.sub, tBytes := (r.xr f.rb).toNat, tPkts := (r.xr f.rc).toNat, who := .core n, eid := s.lmf.eid,
                        ctx := kernelCtx k.words }
      (w.holds ctr = true → Does (.waitcnt h f) s fun t => SlotOver (.waitcnt h f) n s t ∧ (t.core n).waitId = (s.core n).waitId)
      ∧ (w.holds ctr = false → Does (.waitcnt h f) s fun t => (t.core n).waitId = some s.nextId ∧ w ∈ t.home.waits ∧ t.home.counters = s.home.counters))
    ∧ (go (.halt h f) → Does (.halt h f) s fun t => (t.core n).st = .draining ∧ (t.core n).regs = (s.core n).regs ∧ t = { s with cores := t.cores }))
  ∧ (∀ (s : State) (c : Nat) (w : Wait) (ctr : Counter), s.runs = true → (s.core c).waitId = some w.id → s.home.waits.find? (fun x => decide (x.id = w.id)) = some w →
      Tab.get? s.home.counters (keyIdx w.ckey) = some ctr →
      (w.holds ctr = true → Does (.waitcntWake c) s fun t => (t.core c).waitId = none ∧ (∀ x ∈ t.home.waits, x.id ≠ w.id) ∧ t.home.counters = s.home.counters)
      ∧ (w.holds ctr = false → exec (.waitcntWake c) s = .next s))

/-- The life of a kernel (R344, R346 to R352, R372 to R376, R380 to R382): dispatch to a free core, preparation, bundles into the engines' queues, the end with
its record once nothing is under way, suspension of a stalled kernel and its restoration. -/
def Obligations.KernelLife : Prop :=
  ∀ (s : State) (n : Nat), s.runs = true →
    let c := s.core n
    (∀ k, s.coreFree n = true → s.bci.phase ≠ .switching → s.kernels.find? s.kernelMayStart = some k → s.betterCore n (kernelCtx k.words) (kernelAff k.words) = false →
      Does (.kernelDispatch n) s fun t => (t.core n).kernel = some k.run ∧ (∀ x ∈ t.kernels, x.id ≠ k.id) ∧ (t.core n).st = (if c.st = .idle then .preparing else .waking))
    ∧ (c.st = .waking → Does (.clocksStable n) s fun t => (t.core n).st = .preparing ∧ (t.core n).kernel = c.kernel)
    ∧ (∀ k, c.st = .preparing → c.kernel = some k → k.exc = 0 → Does (.prepareDone n) s fun t =>
        (t.core n).st = .running ∧ (∀ i < 8, (t.core n).regs.xr (i + 1) = BitVec.ofNat 64 (dAt k.words (8 + 2 * i)))
          ∧ (t.core n).acc = [] ∧ (t.core n).flags = 0 ∧ (t.core n).queues = [] ∧ ∀ m, m ≠ n → t.core m = s.core m)
    ∧ (∀ k rg is, c.kernel = some k → c.st = .running → Tab.getD c.queues 4 [] = [] → c.waitId = none → (∀ e ∈ s.home.held, e.cmd ≠ .bundleDispatch n) → s.remapped k.id k.pages = [] →
        k.pos < wAt k.words 5 →
        let rid := s.ridOf s.lmf.eid (wAt k.words 2)
        let off := dAt k.words 3 + k.pos
        s.region? rid = some rg → s.meetRead rid rg (s.kernelView k rid off 128) off 128 = .clear →
        decodeBundle n (s.readRange rg (s.kernelView k rid off 128) off 128) = .ok is → bundleFits c is = true → Does (.bundleDispatch n) s fun t =>
          (∃ x, (t.core n).kernel = some x ∧ x.pos = k.pos + 128 ∧ x.seq = k.seq + 1) ∧ (t.core n).regs = c.regs
            ∧ ∀ e, (Tab.getD (t.core n).queues e []).map QSlot.cmd = (Tab.getD c.queues e []).map QSlot.cmd ++ is.filter (fun i => decide (engineOf i = e)))
    ∧ (∀ k, c.kernel = some k → c.st = .draining → s.coreBusy n = false → Does (.kernelDrainEnd n) s fun t =>
        (t.core n).kernel = none ∧ (t.core n).queues = [] ∧ ((t.core n).st = .idle ∨ (t.core n).st = .restoring) ∧ (t.core n).lastCtx = kernelCtx k.words)
    ∧ (∀ k, c.kernel = some k → c.st = .stalled → k.stalledAt + s.bci.suspendAfter ≤ s.now → s.expert.ssd = none → (upto 4).any s.coreFree = false →
        s.kernels.any (fun x => decide (kernelCtx x.words ≠ kernelCtx k.words) && s.kernelMayStart x) = true → Does (.kernelSuspend n) s fun t =>
          (t.core n).st = .saving ∧ (t.core n).regs = c.regs ∧ t = { s with cores := t.cores })
    ∧ (∀ k, c.kernel = some k → c.st = .saving → c.transfers = [] → c.belays = [] → s.txnLive (fun _ => true) = false → s.mirroring (.core n) = false →
        s.begun n = false → Does (.saveDone n) s fun t => (t.core n).kernel = none ∧ ∃ v ∈ (t.core n).saved, v.kernel.id = k.id ∧ v.kernel.suspends = k.suspends + 1 ∧ v.regs = c.regs
          ∧ v.acc = c.acc ∧ v.queues = c.queues)
    ∧ (∀ v, c.st = .restoring → c.saved.find? (fun x => x.resolved) = some v → v.wait = none →
        v.held.any (fun h => s.home.faults.any (fun f => decide (h.why = .fault f.seq))) = false → Does (.restoreDone n) s fun t =>
        (t.core n).st = .running ∧ (t.core n).regs = v.regs ∧ (t.core n).acc = v.acc ∧ (t.core n).tile = v.tile ∧ (t.core n).queues = v.queues)

/-! ### Accesses to memory (02, 05, 06, 16) -/

/-- Loads and stores (R62, R88, R95, R188 to R190, R628 to R631, R875): an LMF load completes with the bytes its issuer sees, after those that lines performed before have returned (R873); a store to a region outside
publish mode that is not mirrored is seen by a read of the published version; a host's read through a bound window gets the line, and its write is
acknowledged; a fault record is written once the ring has room, and a hold that has reached its limit completes with ST_PAUSED. -/
def Obligations.LoadsAndStores : Prop :=
  ∀ s : State,
    (∀ q u rid rg, s.accesses (.lmfLoad q) q false false needR = some (u, rid, rg) → u.meetRead rid rg (.own (LmfIssuer q)) q.offset q.len = .clear →
      Completes (.lmfLoad q) s q .ok (u.gotSoFar ++ u.readRange rg (.own (LmfIssuer q)) q.offset q.len) fun _ => True)
    ∧ (∀ q d u rid rg, d.length = q.len → s.accesses (.lmfStore q d) q false true needW = some (u, rid, rg) → rg.mode ≠ .publish → rg.mirror = 0 →
      u.meetWrite rid rg (.shadowed (LmfIssuer q)) q.offset q.len = .clear → u.pageHeld rg q.offset = true →
      Completes (.lmfStore q d) s q .ok [] fun t => t.shows rid .pub q.offset d)
    ∧ (∀ q d u rid rg, d.length = q.len → s.accesses (.lmfStore q d) q false true needW = some (u, rid, rg) → rg.mode = .publish →
      u.meetWrite rid rg (.shadowed (LmfIssuer q)) q.offset q.len = .clear → Completes (.lmfStore q d) s q .ok [] fun _ => True)
    ∧ (∀ p hpa, s.runs = true →
      let u := s.stir
      ∀ n w off rid rg, u.windowAt p hpa = some (n, w, off) → u.ctxIs w.ctx .resetting = false → u.gate rid rg = none →
      let i := u.windowIssuer w
      let line := off - off % 64
      (u.permit u.lmf.eid w.key line 64 needR i = some (rid, rg) → u.meetRead rid rg (.own i) line 64 = .clear → Does (.cxlMemRead p hpa) s fun t =>
        t.out.head? = some (.cxlData p (u.readRange rg (.own i) line 64) false))
      ∧ (∀ d, d.length ≤ 64 - hpa % 64 → s.replayOf = none → u.lineQueued p hpa = false → u.permit u.lmf.eid w.key off d.length needW i = some (rid, rg) → rg.mode ≠ .publish → rg.mirror = 0 →
        u.meetWrite rid rg (.shadowed i) off d.length = .clear → off / 65536 = (off + d.length - 1) / 65536 → u.pageHeld rg off = true →
        Does (.cxlMemWrite p hpa d false) s fun t => t.out.head? = some (.cxlDone p) ∧ t.shows rid .pub off d))
    ∧ (∀ f g v, s.runs = true → s.home.faults.find? (fun x => !x.written) = some f → s.faultRoom = true → Tab.get? s.home.faultRings s.host.owner = some g →
      s.recordAt g.key (g.off + 32 * ((s.fnWin s.host.owner 0).faultProd % 8192)) (bytesOf f.words) = some v → Does (.faultRecordWrite f.seq) s fun t =>
        ∃ x ∈ t.home.faults, x.seq = f.seq ∧ x.written = true)
    ∧ (∀ (h : Held) q, s.runs = true → s.home.held.find? (fun x => decide (x.id = h.id)) = some h → h.cmd = .lmfLoad q → h.limit ≠ 0 → h.limit ≤ s.now →
      Does (.faultHoldExpiry h.id) s fun t => (∀ x ∈ t.home.held, x.id ≠ h.id) ∧ .cpl q.srcEid q.tag q.gen .paused [] ∈ t.out)

/-- Atomics and mirrored updates (R239 to R256, R310, R311, R737, R742): an atomic returns the old value, leaves the new one and is logged with its completion;
ATOMIC_STATUS reports a logged outcome or leaves a tombstone; CLEAR_POISON of a range without poison completes; a partner applies an update, the home's work
ends with its receipt, and a partner that answers ST_FENCED sends the home to fail-stop. -/
def Obligations.AtomicsAndMirrors : Prop :=
  ∀ s : State,
    (∀ r i u rid rg, s.ready (.atomic r) { BciRow.f 80 13 with dl := true, resv := fun r => offResv r 2 || above r 4 13 } r = some (i, u) → r.dl = false →
      let lseq := r.w 5
      let op := fld (r.w 4) 7 0
      let w := fld (r.w 4) 12 8
      u.logFind (u.issuerLog r i) lseq = none → atomicOk op w (r.d 2) = true → u.opens r i (r.w 1) (r.d 2) w needA = some (rid, rg) → rg.mode ≠ .coherent → rg.mirror = 0 →
      u.meetWrite rid rg .direct (r.d 2) w = .clear →
      let old := leNat (u.pubBytes rid (r.d 2) w)
      Answers (.atomic r) s r (two old ++ two (old / 2 ^ 64)) fun t =>
        (∃ e, t.logFind (u.issuerLog r i) lseq = some e ∧ e.tomb = false ∧ e.st = .ok ∧ e.value = old)
          ∧ (op ≠ 1 → u.pageHeld rg (r.d 2) = true → t.pubBytes rid (r.d 2) w = atomicBytes op w (r.q 6) (r.q 10) (u.pubBytes rid (r.d 2) w)))
    ∧ (∀ r i u, s.ready (.atomicStatus r) { BciRow.f 81 1 with minor := some 0 } r = some (i, u) →
      let k := u.issuerLog r i
      (∀ e, u.logFind k (r.w 1) = some e → e.tomb = false →
        exec (.atomicStatus r) s = .next (u.respond r .ok (statusWords (r.w 1) 0 e.st (logHead (u.logOf k)) e.value e.time)))
      ∧ (u.logFind k (r.w 1) = none → (u.logOf k).length < 16384 → ∃ ws, Answers (.atomicStatus r) s r ws fun t =>
        ∃ e, t.logFind k (r.w 1) = some e ∧ e.tomb = true))
    ∧ (∀ r i u rid rg, s.ready (.clearPoison r) { BciRow.f 83 5 with minor := some 0, resv := fun r => offResv r 2 } r = some (i, u) → r.d 2 % 64 = 0 → r.d 4 % 64 = 0 →
      u.opens r i (r.w 1) (r.d 2) (r.d 4) needW = some (rid, rg) → u.poisonedLines rg (r.d 2) (r.d 4) = [] → exec (.clearPoison r) s = .next (u.respond r .ok []))
    ∧ (∀ q data u, s.taken (.mirrorUpdate q data none none) { q with key := 0, enc := false } false false = some u → q.enc = false →
      (∀ c, Tab.get? u.home.copies (q.srcEid * 65536 + keyIdx q.key) = some c → c.encrypt = false) →
        Completes (.mirrorUpdate q data none none) s q .ok [] fun _ => True)
    ∧ (∀ (w : MirrorWait), s.runs = true → s.home.mirrors.find? (fun x => decide (x.id = w.id)) = some w → w.op = none → w.excl = none →
      Does (.mirrorReceipt w.id .ok) s (fun t => (∀ x ∈ t.home.mirrors, x.id ≠ w.id) ∧ t.home.regions = s.home.regions)
      ∧ (s.rel.failCause = none → Does (.mirrorReceipt w.id .fenced) s fun t => t.rel.failCause = some 6))
    ∧ (∀ q version u c hd, s.taken (.mirrorPartnerRead q version) { q with key := 0 } false false = some u →
      Tab.get? u.home.copies (q.srcEid * 65536 + keyIdx q.key) = some c → c.gen = keyGen q.key → c.inside q.offset q.len = true →
      (c.handleOf (q.offset / 65536)).bind u.handle? = some hd →
      (hd.ver = version → hd.pub.recovering = false → hd.pub.poison = [] →
        exec (.mirrorPartnerRead q version) s = .next (u.complete q .ok (Mem.readN hd.pub.bytes (q.offset % 65536) q.len)))
      ∧ (hd.ver ≠ version → exec (.mirrorPartnerRead q version) s = .next (u.complete q .state [])))

/-- Memory-side operations (R82, R257 to R268): a well-formed descriptor whose ranges pass their checks is queued, its end takes it out with its record written,
and FILL, COPY, COMPARE and REDUCE compute what their opcode says. -/
def Obligations.MemoryOperations : Prop :=
  (∀ (s u : State) (r : BciReq) (q : LmfReq) (i : Issuer), r.src = .lmf q →
      s.ready (.memop r) { BciRow.f 82 6 with owner := (match r.src with | .lmf _ => false | _ => true), resv := fun r => (match r.src with | .lmf _ => false | _ => offResv r 2 || offResv r 5) } r
        = some (i, u) →
      let ws := (r.words.drop 1).take 16
      ∀ d a b x, moMalformed ws = false → u.moCheck (u.reqHome r) ws i = some (d, a, b) → u.permit (u.reqHome r) (r.w 17) (r.d 18) 16 needW i = some x → u.moFault (moView ws i) d a b (moLen ws) = none →
        Answers (.memop r) s r [] fun t => ∃ m ∈ t.home.memops, m.id = u.nextId ∧ m.words = ws ∧ m.eid = i.eid ∧ m.ctx = i.ctx ∧ m.result = none)
  ∧ (∀ (s : State) (m : MemOp) ws, s.runs = true → s.home.memops.find? (fun x => decide (x.id = m.id)) = some m → m.result = some ws → s.mirroring (.memop m.id) = false →
      Does (.memopEnd m.id) s fun t => (∀ x ∈ t.home.memops, x.id ≠ m.id) ∧ t.cores = s.cores)
  ∧ (∀ (s : State) (m : MemOp) (c : Nat × Nat × Nat) (rg : Region), s.runs = true → s.replay = none → s.mirroring (.memop m.id) = false → s.home.memops.find? (fun x => decide (x.id = m.id)) = some m → m.result = none →
      s.home.held = [] → s.noneInService 0x36 4 = false → moOp m.words = 1 → m.pages.find? (fun p => decide (p.1 % 65536 = keyIdx (wAt m.words 1)) && decide (p.2.1 = dAt m.words 2 / 65536)) = some c →
      s.remapped m.id m.pages = [] → s.region? c.1 = some rg → rg.mirror = 0 →
      s.meetWrite c.1 rg (.shadowed { eid := m.eid, ctx := m.ctx, admin := m.admin }) (dAt m.words 2) (moLen m.words) = .clear →
      Does (.memopEnd m.id) s fun t => ∀ x ∈ t.home.memops, x.id ≠ m.id)
  ∧ (∀ (k : Nat) (ws : List Word) (a b : Bytes), moMalformed ws = false →
      let w := elemBytes (moType ws)
      (moOp ws = 1 → ∀ i < moLen ws / w, leNat (((moCompute k ws a b).1.drop (i * w)).take w) = dAt ws 12 % 2 ^ (8 * w))
      ∧ (moOp ws = 2 → (moCompute k ws a b).1 = a)
      ∧ (moOp ws = 3 → wAt ws 7 ≠ 0 → a.length = moLen ws → (a = b → (moCompute k ws a b).2 = recordWords .ok true 18446744073709551615))
      ∧ (moOp ws = 4 → a.length = moLen ws → b.length = moLen ws → ∀ i < moLen ws / w, leNat (((moCompute k ws a b).1.drop (i * w)).take w) =
          reduceElem (moType ws) (moRed ws) (leNat ((a.drop (i * w)).take w)) (leNat ((b.drop (i * w)).take w)) % 2 ^ (8 * w))
      ∧ (moOp ws = 5 → (moCompute k ws a b).2 = recordWords .ok false (reduceAll k (moType ws) (moRed ws) (elems w a))))

/-! ### The rope-team protocol (07) -/

/-- Requests at a calm line (R291, R294, R309): from I, RD_SHARED is granted E, and S on a read-only leaf, RD_OWN and INV_OWN are granted M, RD_UNC is answered with the
line; UPGRADE of the only sharer is granted M without data; a read of a line another agent owns snoops that owner. In a mirrored region a grant of E or M
waits until the partner has the agent's bit (R295): the grants are stated where it has. -/
def Obligations.CoherentGrants : Prop :=
  ∀ (s : State) (q : LmfReq) (a : Nat) (u : State) (rid : Nat) (rg : Region),
    let ln := q.offset / 64
    u.lineCalm rid ln = true → rg.mirror = 0 ∨ a ∈ rg.excl →
    let sent (t : State) (op : Nat) (data : Bytes) : Prop := .coh q.srcEid op q.tag q.gen q.key q.offset 0 data ∈ t.out
    let owned (t : State) (st : LineState) : Prop := ∃ l, t.line? rid ln = some l ∧ l.st = st ∧ (if st = .s then a ∈ l.sharers else l.owner = a)
    (u.line? rid ln = none →
      (s.caches (.rdShared q a) q a needR false false = some (u, rid, rg) →
        Does (.rdShared q a) s fun t => if (rg.entry (q.offset / 65536)).isRo then owned t .s ∧ sent t 64 (u.lineData rid ln) else owned t .e ∧ sent t 65 (u.lineData rid ln))
      ∧ (s.caches (.rdOwn q a) q a needW false true = some (u, rid, rg) → Does (.rdOwn q a) s fun t => owned t .m ∧ sent t 66 (u.lineData rid ln))
      ∧ (s.caches (.invOwn q a) q a needW false true = some (u, rid, rg) → Does (.invOwn q a) s fun t => owned t .m ∧ sent t 67 [])
      ∧ (s.accesses (.rdUnc q) q true false needR = some (u, rid, rg) → rg.mode = .coherent → 0 < q.len → q.offset % 64 + q.len ≤ 64 →
        u.meetRead1 rid rg .pub q.offset q.len = .clear → Does (.rdUnc q) s fun t => t.line? rid ln = none ∧ sent t 68 (u.readRange rg .pub q.offset q.len)))
    ∧ (∀ l, u.line? rid ln = some l → l.st = .s → l.sharers = [a] → s.caches (.upgrade q a) q a needW false true = some (u, rid, rg) →
        Does (.upgrade q a) s fun t => owned t .m ∧ sent t 67 [])
    ∧ (∀ l, u.line? rid ln = some l → l.st = .m → l.owner ≠ a → s.caches (.rdShared q a) q a needR false false = some (u, rid, rg) →
        Does (.rdShared q a) s fun t => (∃ x, t.line? rid ln = some x ∧ x.st = .fwdWait ∧ x.awaited = [l.owner]) ∧ .coh (u.agentEid l.owner) 48 0 0 (u.keyOf rid) (ln * 64) a [] ∈ t.out)
    ∧ (∀ d, d.length = 64 → s.accesses (.wrUnc q d (BitVec.allOnes 64)) q true true needW = some (u, rid, rg) → q.offset % 64 = 0 → q.len = 64 → rg.mode ≠ .coherent → rg.mirror = 0 →
        u.meetWrite rid rg (.shadowed (LmfIssuer q)) q.offset 64 = .clear → Does (.wrUnc q d (BitVec.allOnes 64)) s fun t => sent t 69 [])
    ∧ (∀ l, u.line? rid ln = some l → l.owner = a → rg.mirror = 0 → Tab.get? u.rope.recalls rid = none →
      (∀ d, l.st = .m → s.caches (.wbDirty q a d false) q a needW true false = some (u, rid, rg) → Does (.wbDirty q a d false) s fun t => t.line? rid ln = none ∧ sent t 69 [])
      ∧ (l.st = .e → s.caches (.evictClean q a) q a needW false false = some (u, rid, rg) → Does (.evictClean q a) s fun t => t.line? rid ln = none ∧ sent t 69 []))

/-- Responses and timers (R289 to R291, R298 to R303, R306, R313, R317, R318): the last ACK_INV serves the request that waits, RSP_FWD leaves the line where the snoop
sent it, RSP_FLUSH serves the read, RSP_NOT_HELD ends the wait for the owner, RECALL_DONE of the last agent ends the recall; a line whose home timeout has passed is freed; a
reservation expires; the sweep ends; a NACK starts a backoff, after which the request goes out again, as does one of the home's own. -/
def Obligations.CoherentReturns : Prop :=
  ∀ (s : State) (q : LmfReq) (a : Nat), s.runs = true →
    let rid := s.ridOf q.dstEid q.key
    let ln := q.offset / 64
    (∀ l, s.line? rid ln = some l → l.resv = [] → s.linePoisoned rid ln = false → s.answersSnoop q a = true →
      (∀ b x, l.st = .invWait → l.snoop = 50 → l.awaited = [a] → l.req = .own b x → Does (.ackInv q a) s fun t =>
        (∃ y, t.line? rid ln = some y ∧ y.st = .m ∧ y.owner = b) ∧ .coh x.srcEid 66 x.tag x.gen x.key x.offset 0 (s.lineData rid ln) ∈ t.out)
      ∧ (∀ b x, l.st = .fwdWait → l.snoop = 48 → l.req = .shared b x → a ≠ b → Does (.rspFwd q a false false []) s fun t =>
        ∃ y, t.line? rid ln = some y ∧ y.st = .s ∧ y.sharers = [a, b])
      ∧ (∀ b x, l.st = .fwdWait → l.snoop = 49 → l.req = .own b x → Does (.rspFwd q a false false []) s fun t => ∃ y, t.line? rid ln = some y ∧ y.st = .m ∧ y.owner = b)
      ∧ (∀ x rg, l.st = .fwdWait → l.snoop = 51 → l.req = .rdUnc x → s.region? rid = some rg → Does (.rspFlush q a false false []) s fun t =>
        t.line? rid ln = none ∧ .coh x.srcEid 68 x.tag x.gen x.key x.offset 0 (s.readRange rg .pub x.offset x.len) ∈ t.out)
      ∧ (l.st = .fwdWait → l.snoop ≠ 50 → l.wbSeen = false → Does (.rspNotHeld q a) s fun t => ∃ y, t.line? rid ln = some y ∧ y.awaited = [] ∧ y.req = l.req))
    ∧ (s.sourced q = q → s.judge q.srcEid q.srcInc = .current → s.agentOk a q = true → Tab.get? s.rope.recalls rid = some [a] → Does (.recallDone q a) s fun t =>
        Tab.get? t.rope.recalls rid = none ∧ t.home.regions = s.home.regions)
    ∧ (∀ idx line rg, s.region? idx = some rg → rg.draining = false → s.home.revokes = [] → (s.lineD idx line).st = .fwdWait → (s.lineD idx line).awaited ≠ [] →
        (s.lineD idx line).resv = [] → (s.lineD idx line).req = .none → (s.lineD idx line).armed + s.rope.timeoutUs * 1000 ≤ s.now → Does (.homeTimeout idx line) s fun t => t.line? idx line = none)
    ∧ (∀ idx line l, s.line? idx line = some l → l.st = .s → 2 ≤ l.resv.length → l.resvSince + 60000 ≤ s.now → Does (.reservationExpiry idx line) s fun t =>
        t.line? idx line = some { l with resv := l.resv.tail, resvSince := s.now })
    ∧ (Does .fenceSweep s fun t => t.rope.sweepLeft = 0 ∧ t.cores = s.cores)
    ∧ (∀ id draw e x, Tab.get? s.lmf.tags id = some e → e.live = some x → (∀ b ∈ s.lmf.backoffs, b.2.2 ≠ 0) → Does (.nack id draw) s fun t =>
        (∃ y at', Tab.get? t.lmf.backoffs s.nextId = some (y, at') ∧ y.retry = x.retry + 1 ∧ s.now + min (100 * 2 ^ x.retry) 25600 ≤ at'
          ∧ at' ≤ s.now + 2 * min (100 * 2 ^ x.retry) 25600) ∧ t.home = s.home)
    ∧ (∀ id h t, Tab.get? s.lmf.backoffs id = none → s.home.held.find? (fun h => decide (h.id = id)) = some h → h.why = .nacked rid ln t → t ≤ s.now →
        exec (.backoffExpiry id) s = .next (s.releaseOne h))
    ∧ (∀ id x at', Tab.get? s.lmf.backoffs id = some (x, at') → at' ≤ s.now → (s.lmf.tags.filter (fun e => e.2.live.isSome)).length < 131072 → Does (.backoffExpiry id) s fun t =>
        Tab.get? t.lmf.backoffs id = none ∧ (∃ tag e, Tab.get? t.lmf.tags tag = some e ∧ (e.live.map Txn.what) = some x.what) ∧ t.home = s.home)

/-- Teams and fences (R271 to R275, R34, R679, R734 to R736): the owner sets the team, adds and removes agents, and a FENCE of another endpoint's incarnation marks it fenced. -/
def Obligations.TeamsAndFences : Prop :=
  ∀ (s : State) (r : BciReq) (i : Issuer) (u : State),
    (∀ rid rg, s.ready (.ropeSet r) { BciRow.o 0x60 6 with minor := some 0, v3 := true, resv := fun r => above r 1 16 || offResv r 5 } r = some (i, u) →
      1 ≤ r.w 2 → r.w 2 ≤ 16 → 10 ≤ r.w 3 → r.w 3 ≤ 1000000 → u.opens r i (r.w 4) (r.d 5) (4 * r.w 2) needR = some (rid, rg) →
      u.meetRead rid rg (.own i) (r.d 5) (4 * r.w 2) = .clear →
      let ms := eidsOf (u.readRange rg (.own i) (r.d 5) (4 * r.w 2))
      (∀ e ∈ ms, e < 262144) → u.lmf.eid ∈ ms → u.hasCoherent = false → Answers (.ropeSet r) s r [] fun t => t.rope.team = r.w 1 ∧ t.rope.timeoutUs = r.w 3 ∧ t.rope.members = ms)
    ∧ (s.ready (.ropeAgentAdd r) { BciRow.o 0x61 3 with minor := some 0, v3 := true, resv := fun r => above r 1 6 || above r 2 18 } r = some (i, u) → 3 ≤ u.verOf (r.w 2) →
      u.isMember = true → Tab.has u.rope.agents (r.w 1) = false → u.agentIdx (r.w 2) = none → Answers (.ropeAgentAdd r) s r [] fun t =>
        Tab.get? t.rope.agents (r.w 1) = some { eid := r.w 2, inc := r.w 3 } ∧ t = { u with rope.agents := t.rope.agents })
    ∧ (∀ x, s.ready (.ropeAgentRemove r) { BciRow.o 0x62 1 with minor := some 0, v3 := true, resv := fun r => above r 1 6 } r = some (i, u) →
      Tab.get? u.rope.agents (r.w 1) = some x → u.agentHolds (r.w 1) = false → Answers (.ropeAgentRemove r) s r [] fun t => Tab.get? t.rope.agents (r.w 1) = none ∧ x ∉ t.rope.fencedAgents)
    ∧ (∀ e, s.ready (.fence r) { BciRow.o 0x63 2 with minor := some 0, resv := fun r => above r 1 18 } r = some (i, u) → r.w 1 ≠ u.lmf.eid → Tab.get? u.lmf.incs (r.w 1) = some e →
      e.inc ≤ r.w 2 → e.fenced = none → Answers (.fence r) s r [] fun t => ∃ y, Tab.get? t.lmf.incs (r.w 1) = some y ∧ y.fenced = some (r.w 2))

/-! ### Regions, grants and maps (02) -/

/-- CREATE, DESTROY, REGION_SET, GRANT and REVOKE (R57 to R67, R115, R195, R575): CREATE answers the key of a new region at the lowest free index, DESTROY lets the region
drain with its generation advanced and the drain's end frees the index, REGION_SET changes one attribute, GRANT adds rights to a grant and REVOKE takes them away. -/
def Obligations.RegionCommands : Prop :=
  ∀ (s : State) (r : BciReq) (i : Issuer) (u : State),
    (∀ m, s.ready (.create r) { BciRow.o 32 7 with resv := fun r => above r 6 18 || above r 7 12 } r = some (i, u) → modeOf (r.w 5) = some m →
      policyOf (fld (r.w 5) 9 2) = some { place := .auto, lent := false } → r.d 1 % 65536 = 0 → r.d 3 % 65536 = 0 → r.d 3 ≠ 0 → r.d 1 + r.d 3 ≤ 2 ^ 52 → r.w 5 < 8192 →
      u.ctxOk (r.w 7) = true → (∀ e ∈ u.home.regions, e.1 < 65536 → r.d 1 + r.d 3 ≤ e.2.base ∨ e.2.base + e.2.size ≤ r.d 1) → (m = .coherent → u.inTeam u.lmf.eid = true) →
      r.w 6 = 0 → u.freeIndex < 65536 →
      let idx := u.freeIndex
      Answers (.create r) s r (one (mkKey idx (Tab.getD u.home.gens idx 1))) fun t =>
        (∃ g, t.region? idx = some g ∧ g.base = r.d 1 ∧ g.size = r.d 3 ∧ g.mode = m ∧ g.creator = r.w 7 ∧ g.version = 0 ∧ g.draining = false ∧ g.entries = [])
          ∧ (∀ k, k ≠ idx → t.region? k = u.region? k) ∧ t.home.pages = u.home.pages ∧ t.cores = u.cores)
    ∧ (∀ rid rg, s.ready (.destroy r) (BciRow.o 33 1) r = some (i, u) → u.live (u.reqHome r) (r.w 1) = some (rid, rg) → rid < 65536 → u.home.held = [] → u.home.revokes = [] →
      u.kernels = [] → u.home.pins = [] → Does (.destroy r) s fun t =>
        (∃ g, t.region? rid = some g ∧ g.draining = true) ∧ Tab.get? t.home.gens rid = some (nextGen rg.gen) ∧ t.live (u.reqHome r) (r.w 1) = none)
    ∧ (∀ idx rg, s.runs = true → s.region? idx = some rg → rg.draining = true → s.referenced idx = false → Does (.regionDrainEnd idx) s fun t =>
        t.region? idx = none ∧ (∀ e ∈ t.home.pages, e.2.rid ≠ idx))
    ∧ (∀ rid rg, s.ready (.regionSet r) { BciRow.o 34 3 with resv := fun r => decide (r.w 2 = 0) || decide (4 < r.w 2) || (decide (r.w 2 = 1) && (policyOf (r.w 3)).isNone)
          || (decide (r.w 2 = 3) && above r 3 18) || (decide (r.w 2 = 2 ∨ r.w 2 = 4) && decide (1 < r.w 3)) } r = some (i, u) →
      u.live (u.reqHome r) (r.w 1) = some (rid, rg) →
      (∀ p, r.w 2 = 1 → policyOf (r.w 3) = some p → p.place = .auto → rg.policy.place = .auto → u.policyHeld rid = false → u.expert.ssd = none → Answers (.regionSet r) s r (one 0) fun t =>
        ∃ g, t.region? rid = some g ∧ g.policy = p)
      ∧ (∀ p, r.w 2 = 1 → policyOf (r.w 3) = some p → u.policyHeld rid = true → Answers (.regionSet r) s r (one 0) fun t =>
        t = { u with expert.ssdHeld := Tab.set u.expert.ssdHeld rid p })
      ∧ (r.w 2 = 2 → r.w 3 = 1 → Answers (.regionSet r) s r (one 0) fun t => t = u.setRegion rid { rg with talus := true })
      ∧ (r.w 2 = 3 → r.w 3 = rg.mirror → u.mirrorOk rg.mode rg.encrypt (r.w 3) = true → exec (.regionSet r) s = .next (u.respond r .ok (one 0)))
      ∧ (r.w 2 = 4 → Answers (.regionSet r) s r (one 0) fun t => t = u.setRegion rid { rg with absentFault := decide (r.w 3 = 1) }))
    ∧ (∀ rid rg, s.ready (.grant r) { BciRow.o 35 3 with resv := fun r => above r 2 18 || above r 3 18 } r = some (i, u) → u.live (u.reqHome r) (r.w 1) = some (rid, rg) →
      rg.mode = .publish → u.grantCtxBad r = false → u.sealed rg (r.w 2) = true → rg.mirror = 0 → u.grantCount < 1048576 → Answers (.grant r) s r [] fun t =>
        ∃ g, t.region? rid = some g ∧ g.grants = grantTo rg.grants (r.w 2) (fld (r.w 3) 11 0) (bitAt (r.w 3) 12) (grantRights (r.w 3))
          ∧ (∀ k, k ≠ rid → t.region? k = u.region? k) ∧ t.home.pages = u.home.pages)
    ∧ (∀ rid rg, s.ready (.revoke r) { BciRow.o 36 3 with resv := fun r => above r 2 18 || above r 3 18 } r = some (i, u) → u.live (u.reqHome r) (r.w 1) = some (rid, rg) →
      rg.mode = .publish → u.grantCtxBad r = false → rg.mirror = 0 → u.home.held = [] → u.resume = [] → u.home.revokes = [] → u.home.mirrors = [] → u.rope.lines = [] →
      Does (.revoke r) s fun t =>
        ∃ g, t.region? rid = some g ∧ (∀ x ∈ g.grants, x.eid = r.w 2 → x.any = bitAt (r.w 3) 12 → x.any = true ∨ x.ctx = fld (r.w 3) 11 0 →
          (x.rights.r && (grantRights (r.w 3)).r) = false ∧ (x.rights.w && (grantRights (r.w 3)).w) = false ∧ (x.rights.a && (grantRights (r.w 3)).a) = false))

/-- MAP, UNMAP, CONVERT, FAULT_RING_SET and FAULT_RESOLVE (R48 to R50, R71, R72, R76, R78, R87, R90 to R93, R615): MAP installs a leaf for each page, zero-filled and with the
RO bit it gives, UNMAP leaves the absent entry of the region's policy, CONVERT translates between the views, the ring starts empty, and a resolved fault is retired: its
accesses run again, or end with the status ABORT names. -/
def Obligations.MapCommands : Prop :=
  ∀ (s : State) (r : BciReq) (i : Issuer) (u : State),
    (∀ rid rg, s.ready (.map r) { BciRow.o 37 9 with resv := fun r => offResv r 2 || above r 6 5 || (bitAt (r.w 6) 3 && offResv r 8) } r = some (i, u) → r.w 6 = 0 ∨ r.w 6 = 4 →
      r.d 2 % 65536 = 0 → r.d 4 % 65536 = 0 → r.d 4 ≠ 0 → u.live (u.reqHome r) (r.w 1) = some (rid, rg) → rg.inside (r.d 2) (r.d 4) = true → rg.base % 65536 = 0 →
      u.space rg (r.d 4 / 65536) false = true → Answers (.map r) s r [] fun t => ∃ g, t.region? rid = some g
        ∧ ∀ k < r.d 4 / 65536, (g.handleOf (r.d 2 / 65536 + k)).isSome = true ∧ (g.entry (r.d 2 / 65536 + k)).isRo = bitAt (r.w 6) 2)
    ∧ (∀ rid rg, s.ready (.unmap r) { BciRow.o 38 5 with resv := fun r => offResv r 2 } r = some (i, u) → r.d 2 % 65536 = 0 → r.d 4 % 65536 = 0 → r.d 4 ≠ 0 →
      u.live (u.reqHome r) (r.w 1) = some (rid, rg) → rg.inside (r.d 2) (r.d 4) = true → Answers (.unmap r) s r [] fun t => ∃ g, t.region? rid = some g
        ∧ ∀ k < r.d 4 / 65536, g.entry (r.d 2 / 65536 + k) = if rg.absentFault then .fault else .zero)
    ∧ (∀ p f, s.ready (.convert r) { BciRow.f 39 (if r.w 1 = 1 then 4 else 3) with resv := fun r => decide (1 < r.w 1) || (decide (r.w 1 = 1) && above r 4 6) } r = some (i, u) →
      r.src = .fn p f →
      (∀ off key, r.w 1 = 0 → u.h2d p f none (r.d 2) = some (off, key) →
        exec (.convert r) s = .next (u.respond r .ok (two (u.lmf.eid * 2 ^ 52 + off) ++ one ((u.lmf.eid * 2 ^ 52 + off) / 2 ^ 64) ++ one key)))
      ∧ (∀ h, r.w 1 = 1 → (r.d 2 + 2 ^ 64 * r.w 4) / 2 ^ 52 = u.lmf.eid → u.d2h p f none ((r.d 2 + 2 ^ 64 * r.w 4) % 2 ^ 52) = some h →
        exec (.convert r) s = .next (u.respond r .ok (two h))))
    ∧ (∀ rid rg, s.ready (.faultRingSet r) { BciRow.o 40 3 with resv := fun r => offResv r 2 } r = some (i, u) → u.live (u.reqHome r) (r.w 1) = some (rid, rg) →
      rg.inside (r.d 2) 262144 = true → u.home.faults = [] → Answers (.faultRingSet r) s r [] fun t =>
        Tab.get? t.home.faultRings u.host.owner = some { key := r.w 1, off := r.d 2, log2 := 13 } ∧ (t.fnWin u.host.owner 0).faultProd = 0 ∧ (t.fnWin u.host.owner 0).faultCons = 0)
    ∧ (∀ f, u.home.faults.find? (fun x => decide (x.seq = r.w 1)) = some f → u.kernels = [] → u.cores = [] → u.home.revokes = [] →
      (s.ready (.faultResolve r) rowFaultResolve r = some (i, u) → bitAt (r.w 2) 0 = false → Does (.faultResolve r) s fun t =>
        (∀ x ∈ t.home.faults, x.seq ≠ r.w 1) ∧ (∀ h ∈ t.home.held, h.why ≠ .fault (r.w 1)) ∧ ∀ h ∈ u.home.held, h.why = .fault (r.w 1) → h.again ∈ t.resume)
      ∧ (s.ready (.faultResolveAbort r) rowFaultResolve r = some (i, u) → r.w 2 = 1 + 65536 * 2 → (∀ h ∈ u.home.held, ∃ q, h.cmd = .lmfLoad q) → Does (.faultResolveAbort r) s fun t =>
        (∀ x ∈ t.home.faults, x.seq ≠ r.w 1) ∧ ∀ h ∈ u.home.held, h.why = .fault (r.w 1) → ∀ q, h.cmd = .lmfLoad q → .cpl q.srcEid q.tag q.gen .key [] ∈ t.out))

/-! ### Contexts, sessions, switchover and firmware (14) -/

/-- Contexts (R122, R192, R344, R574, R575, R632): a context is created ACTIVE and bound as asked, its attributes are set, a reset or a destroy takes it out of ACTIVE, and the
end of its work makes it ACTIVE again, or ends it. -/
def Obligations.ContextCommands : Prop :=
  ∀ (s : State) (r : BciReq) (i : Issuer) (u : State),
    (s.ready (.ctxCreate r) { BciRow.o 0x10 4 with resv := fun r => above r 1 14 || above r 2 10 } r = some (i, u) → (u.sessionOf r).1 = 3 →
      let c := fld (r.w 1) 11 0
      let f := fld (r.w 2) 9 2
      let p := fld (r.w 2) 1 0
      Tab.has u.bci.contexts c = false → r.w 4 = 0 → (bitAt (r.w 1) 13 = true → u.boundCtx p f = none ∧ u.fnEnabled p f = true) → Answers (.ctxCreate r) s r [] fun t =>
        (∃ x, Tab.get? t.bci.contexts c = some x ∧ x.st = .active ∧ x.lineMode = bitAt (r.w 1) 12 ∧ x.shadowLimit = r.w 3 ∧ x.bind = if bitAt (r.w 1) 13 then some (p, f) else none)
          ∧ (∀ k, k ≠ c → Tab.get? t.bci.contexts k = Tab.get? u.bci.contexts k) ∧ t.home = u.home)
    ∧ (∀ x, s.ready (.ctxSet r) { BciRow.o 0x11 3 with resv := fun r => above r 1 12 } r = some (i, u) → Tab.get? u.bci.contexts (r.w 1) = some x → x.st = .active →
      (r.w 2 = 1 → r.w 3 ≤ 1 → Answers (.ctxSet r) s r [] fun t => Tab.get? t.bci.contexts (r.w 1) = some { x with lineMode := decide (r.w 3 = 1) } ∧ t.home = u.home)
      ∧ (r.w 2 = 2 → Answers (.ctxSet r) s r [] fun t => Tab.get? t.bci.contexts (r.w 1) = some { x with shadowLimit := r.w 3 } ∧ t.home = u.home)
      ∧ (r.w 2 = 3 → r.w 3 ≤ x.floor → Answers (.ctxSet r) s r [] fun t => Tab.get? t.bci.contexts (r.w 1) = some { x with floor := r.w 3 } ∧ t.home = u.home))
    ∧ (u.ctxIs (r.w 1) .active = true →
      (s.ready (.ctxReset r) { BciRow.o 0x12 1 with resv := fun r => above r 1 12 } r = some (i, u) → Answers (.ctxReset r) s r [] fun t => t.ctxIs (r.w 1) .resetting = true)
      ∧ (s.ready (.ctxDestroy r) { BciRow.o 0x13 1 with resv := fun r => above r 1 12 } r = some (i, u) → u.ctxNamed (r.w 1) = false →
        Answers (.ctxDestroy r) s r [] fun t => t.ctxIs (r.w 1) .destroying = true))
    ∧ (∀ c x, s.runs = true → s.ctxBusy c = false → Tab.get? s.bci.contexts c = some x →
      (x.st = .resetting → Does (.ctxResetEnd c) s fun t => Tab.get? t.bci.contexts c = some { x with st := .active } ∧ ∀ h ∈ t.home.held, h.why ≠ .resetting c)
      ∧ (x.st = .destroying → Does (.ctxResetEnd c) s fun t => Tab.get? t.bci.contexts c = none ∧ t.home.regions = s.home.regions))

/-- Sessions, configuration and deadlines (R562 to R567, R572, R577 to R579, R583, R584): HELLO opens a session at the version both sides hold, OP_STATUS reports an operation to its
issuer, CONFIG_SET and CONFIG_GET keep the three times, NOTICE_RING_SET starts an empty ring, and a deadline that passes is taken away. -/
def Obligations.SessionCommands : Prop :=
  ∀ (s : State) (r : BciReq) (i : Issuer) (u : State),
    (∀ n, s.ready (.hello r) { BciRow.f 1 1 with resv := fun r => above r 1 16 } r = some (i, u) → u.reqChannel r = some n → fld (r.w 1) 7 0 = 3 → ∃ ws,
      Answers (.hello r) s r ws fun t => (t.channel n).session = some (3, min (fld (r.w 1) 15 8) 4) ∧ (wAt ws 0) = 3 + 256 * min (fld (r.w 1) 15 8) 4 ∧ t.home = u.home)
    ∧ (∀ o, s.ready (.opStatus r) { BciRow.f 2 1 with minor := some 0 } r = some (i, u) → u.bci.ops.find? (fun o => decide (o.id = r.w 1)) = some o → o.issuer = some (i.eid, i.ctx) →
      exec (.opStatus r) s = .next (u.respond r .ok o.words))
    ∧ (s.ready (.configSet r) { BciRow.o 3 3 with minor := some 0 } r = some (i, u) →
      (r.w 1 = 1 → 10000 ≤ r.d 2 → r.d 2 ≤ u.bci.txnTimeout / 2 → Answers (.configSet r) s r [] fun t => t = { u with bci.faultHold := r.d 2 })
      ∧ (r.w 1 = 2 → 2000 ≤ r.d 2 → r.d 2 ≤ 10000000 → Answers (.configSet r) s r [] fun t => t = { u with bci.suspendAfter := r.d 2 })
      ∧ (r.w 1 = 3 → 100000 ≤ r.d 2 → r.d 2 ≤ 1000000000 → 2 * u.bci.faultHold ≤ r.d 2 → Answers (.configSet r) s r [] fun t => t = { u with bci.txnTimeout := r.d 2 }))
    ∧ (s.ready (.configGet r) { BciRow.o 4 1 with minor := some 0 } r = some (i, u) →
      (r.w 1 = 1 → exec (.configGet r) s = .next (u.respond r .ok (two u.bci.faultHold)))
      ∧ (r.w 1 = 2 → exec (.configGet r) s = .next (u.respond r .ok (two u.bci.suspendAfter)))
      ∧ (r.w 1 = 3 → exec (.configGet r) s = .next (u.respond r .ok (two u.bci.txnTimeout))))
    ∧ (∀ x, s.ready (.noticeRingSet r) { BciRow.f 5 4 with minor := some 0, resv := fun r => offResv r 2 } r = some (i, u) → 6 ≤ r.w 4 → r.w 4 ≤ 16 →
      u.permit u.lmf.eid (r.w 1) (r.d 2) (32 * 2 ^ r.w 4) needW i = some x → Answers (.noticeRingSet r) s r [] fun t =>
        ∃ g, Tab.get? t.bci.rings (issuerKey i.eid i.ctx) = some g ∧ g.ring = some { key := r.w 1, off := r.d 2, log2 := r.w 4 } ∧ g.prod = 0 ∧ g.cons = 0 ∧ t.home = u.home)
    ∧ (∀ d : Deadline, s.runs = true → s.bci.deadlines.find? (fun x => decide (x.id = d.id)) = some d → d.at' ≤ s.now → s.msg? d.id = none → d.abort = false → Does (.deadlineExpiry d.id) s fun t =>
        (∀ x ∈ t.bci.deadlines, x.id ≠ d.id) ∧ t.cores = s.cores)

/-- Switchover and firmware update (R547 to R552, R585 to R588, R719): an event in the active set switches to the standby or, with none, is fail-stop; the standby becomes the
active set and takes the commands that waited; FW_STAGE reads an image that FW_STAGE_END writes if it verifies; FW_ACTIVATE starts an activation that every open session supports. -/
def Obligations.SwitchoverAndFirmware : Prop :=
  (∀ s : State, s.runs = true →
    (s.bci.standby = true → Does .watchdogExpiry s (fun t => t.bci.phase = .switching ∧ t.bci.standby = false ∧ t.home = s.home)
      ∧ Does .basecampEccError s fun t => t.bci.phase = .switching ∧ t.bci.standby = false)
    ∧ (s.bci.standby = false → Does .watchdogExpiry s (fun t => t.rel.failCause = some 2) ∧ Does .basecampEccError s fun t => t.rel.failCause = some 2)
    ∧ (s.bci.phase = .switching → Does .switchoverEnd s fun t => t.bci.phase = .syncing ∧ t.bci.westActive = (!s.bci.westActive) ∧ ∀ h ∈ t.home.held, h.why ≠ .switchover)
    ∧ (s.bci.phase = .syncing → s.bci.activating = none → Does .standbySync s fun t => t = { s with bci.phase := .steady, bci.standby := true })
    ∧ (∀ n x, s.bci.phase = .syncing → s.bci.activating = some n → s.bci.runSlot = n → Tab.get? s.bci.slots n = some x → Does .standbySync s fun t =>
        t.bci.phase = .steady ∧ t.bci.standby = true ∧ t.bci.activating = none ∧ t.sec.svnMin = if x.commitSvn then max s.sec.svnMin x.svn else s.sec.svnMin)
    ∧ (∀ id bs, Tab.get? s.bci.staging id = some bs → Does (.fwStageEnd id) s fun t =>
        (match s.verifyImage bs with
          | some x => Tab.get? t.bci.slots s.otherSlot = some x ∧ t.pkg.store = Mem.writeN s.pkg.store (slotAddr s.otherSlot) bs
          | none => Tab.get? t.bci.slots s.otherSlot = none ∧ t.pkg.store = s.pkg.store) ∧ t.bci.runSlot = s.bci.runSlot))
  ∧ (∀ (s : State) (r : BciReq) (i : Issuer) (u : State),
    (∀ rid rg, s.ready (.fwStage r) { BciRow.o 0xA0 4 with minor := some 0, resv := fun r => offResv r 2 } r = some (i, u) → u.bci.activating = none → r.w 4 ≤ 268435456 →
      u.opens r i (r.w 1) (r.d 2) (r.w 4) needR = some (rid, rg) → u.meetRead rid rg (.own i) (r.d 2) (r.w 4) = .clear → Answers (.fwStage r) s r (one u.bci.nextOp) fun t =>
        Tab.get? t.bci.staging u.bci.nextOp = some (u.readRange rg (.own i) (r.d 2) (r.w 4)) ∧ t.bci.slots = u.bci.slots)
    ∧ (∀ x, s.ready (.fwActivate r) { BciRow.o 0xA1 1 with minor := some 0, resv := fun r => above r 1 1 } r = some (i, u) → u.bci.activating = none → Tab.get? u.bci.slots (r.w 1) = some x →
      x.st = 1 → u.bci.standby = true →
      if u.openSessions.any (fun v => !Config.imageSession x.fwVer v.1 v.2) then exec (.fwActivate r) s = .next (u.respond r .notSupported [])
      else Answers (.fwActivate r) s r (one u.bci.nextOp) fun t => t.bci.activating = some (r.w 1) ∧ t.bci.phase = .syncing ∧ t.bci.runSlot = u.bci.runSlot)
    ∧ (∀ a b, s.ready (.fwInfo r) { BciRow.o 0xA2 0 with minor := some 0 } r = some (i, u) → Tab.get? u.bci.slots 0 = some a → Tab.get? u.bci.slots 1 = some b →
      exec (.fwInfo r) s = .next (u.respond r .ok [BitVec.ofNat 32 a.fwVer, BitVec.ofNat 32 a.st, BitVec.ofNat 32 b.fwVer, BitVec.ofNat 32 b.st, BitVec.ofNat 32 u.bci.runSlot])))

/-! ### Publishing and counters (05) -/

/-- Publishing (R196 to R212, R216 to R222): PUBLISH and PUBLISH_IF take their place in the region's order, the switch raises the version by one, makes each shadow page the published
one and logs the command; DISCARD frees the caller's shadow pages, VERSION_QUERY reports, and a pin keeps its version until VERSION_UNPIN, read by READ_AT. -/
def Obligations.PublishCommands : Prop :=
  ∀ (s : State) (r : BciReq) (i : Issuer) (u : State),
    (∀ rid rg, r.dl = false → u.logFind (u.issuerLog r i) (r.w 6) = none → r.d 2 % 65536 = 0 → r.d 4 % 65536 = 0 → u.opens r i (r.w 1) (r.d 2) (r.d 4) needP = some (rid, rg) →
      rg.mode = .publish → rg.version < 18446744073709551615 →
      let queued (t : State) (e : Option Nat) : Prop := (∃ p, t.home.pubs = insertPub p u.home.pubs ∧ p.id = u.nextId ∧ p.rid = rid ∧ p.off = r.d 2 ∧ p.len = r.d 4 ∧ p.lseq = r.w 6
        ∧ p.expected = e) ∧ t.home.regions = u.home.regions ∧ t.home.pages = u.home.pages
      (s.ready (.publish r) rowPublish r = some (i, u) → Does (.publish r) s fun t => queued t none)
      ∧ (s.ready (.publishIf r) { BciRow.f 65 8 with minor := some 0, dl := true, v3 := true, resv := fun r => offResv r 2 } r = some (i, u) →
        Does (.publishIf r) s fun t => queued t (some (r.d 7))))
    ∧ (∀ p rg, s.runs = true → s.pub? p.id = some p → (s.home.pubs.find? (fun x => decide (x.rid = p.rid))).map PubCmd.id = some p.id → (∀ h ∈ s.home.held, h.cmd ≠ .publishSwitch p.id) →
      s.region? p.rid = some rg → s.behindEarlier p = false → rg.version < 18446744073709551615 → (∀ q, srcReq p.r.src = some q → s.now + 10000 < q.limit) → s.gate p.rid rg = none → s.meetPublish p rg = .clear → rg.mirror = 0 →
      (p.expected = none ∨ p.expected = some (s.rangeVersion rg p.off p.len) → Does (.publishSwitch p.id) s fun t =>
        (∃ g, t.region? p.rid = some g ∧ g.version = rg.version + 1) ∧ (∀ x ∈ t.home.pubs, x.id ≠ p.id)
          ∧ ∀ e ∈ s.shadowPages rg p.off p.len p.eid p.ctx, (t.handle? e.2).map Handle.ver = some (rg.version + 1))
      ∧ (∀ v, p.expected = some v → v ≠ s.rangeVersion rg p.off p.len → Does (.publishSwitch p.id) s fun t => t.region? p.rid = some rg ∧ ∀ x ∈ t.home.pubs, x.id ≠ p.id))
    ∧ (∀ rid rg, s.ready (.discard r) { BciRow.f 66 5 with resv := fun r => offResv r 2 } r = some (i, u) → r.d 2 % 65536 = 0 → r.d 4 % 65536 = 0 →
      u.opens r i (r.w 1) (r.d 2) (r.d 4) needW = some (rid, rg) → rg.mode = .publish → u.home.pubs = [] →
      Answers (.discard r) s r (one (u.shadowPages rg (r.d 2) (r.d 4) i.eid i.ctx).length) fun t => t.region? rid = some rg ∧ t.shadowPages rg (r.d 2) (r.d 4) i.eid i.ctx = [])
    ∧ (∀ rid rg, s.ready (.versionQuery r) { BciRow.f 67 5 with resv := fun r => offResv r 2 } r = some (i, u) → u.opens r i (r.w 1) (r.d 2) (r.d 4) needR = some (rid, rg) →
      exec (.versionQuery r) s = .next (u.respond r .ok (two rg.version ++ two (u.rangeVersion rg (r.d 2) (r.d 4)))))
    ∧ (∀ rid rg, s.ready (.versionPin r) { BciRow.f 68 5 with minor := some 1, v3 := true, resv := fun r => offResv r 2 } r = some (i, u) → r.d 2 % 65536 = 0 → r.d 4 % 65536 = 0 →
      u.opens r i (r.w 1) (r.d 2) (r.d 4) needR = some (rid, rg) → rg.mode = .publish → rg.policy.place ≠ .t0Only → u.home.pins.length < 64 →
      Answers (.versionPin r) s r (one u.home.nextPin ++ two rg.version) fun t =>
        ∃ p, Tab.get? t.home.pins u.home.nextPin = some p ∧ p.rid = rid ∧ p.version = rg.version ∧ p.off = r.d 2 ∧ p.len = r.d 4 ∧ p.eid = i.eid ∧ p.ctx = i.ctx)
    ∧ (∀ p, u.pinOf (r.w 1) i = some p →
      (s.ready (.versionUnpin r) { BciRow.f 69 1 with minor := some 1, v3 := true } r = some (i, u) → Answers (.versionUnpin r) s r [] fun t =>
        (u.pinUsed (r.w 1) = false → Tab.get? t.home.pins (r.w 1) = none) ∧ ∀ x, Tab.get? t.home.pins (r.w 1) = some x → x.ended = true)
      ∧ (∀ q rg, s.ready (.readAt r) { BciRow.f 70 7 with minor := some 1, dl := true, v3 := true, resv := fun r => offResv r 2 || (match r.src with | .lmf _ => false | _ => offResv r 6) } r
          = some (i, u) → r.src = .lmf q → p.off ≤ r.d 2 → r.d 2 + r.w 4 ≤ p.off + p.len → r.w 4 ≤ 4096 → inBlock (r.d 2) (r.w 4) = true → u.region? p.rid = some rg → u.gate p.rid rg = none →
        u.meetRead p.rid rg (.pin (r.w 1)) (r.d 2) (r.w 4) = .clear →
        Completes (.readAt r) s q .ok (u.readRange rg (.pin (r.w 1)) (r.d 2) (r.w 4)) fun _ => True))

/-- Counters (R225 to R235): allocation gives the lowest free index with its generation, the counts start at zero, a freed counter's key no longer names it, a reset zeroes both counts, a read
reports them, a wait whose condition holds answers at once and another waits until it does. -/
def Obligations.CounterCommands : Prop :=
  ∀ (s : State) (r : BciReq) (i : Issuer) (u : State),
    (∀ rid rg, s.ready (.counterAlloc r) (BciRow.f 72 1) r = some (i, u) → u.live (u.reqHome r) (r.w 1) = some (rid, rg) → u.home.counters.length < 65536 →
      let idx := lowestFree (Tab.keys u.home.counters) 0
      let gen := Tab.getD u.home.ctrGens idx 1
      Answers (.counterAlloc r) s r (one (mkKey idx gen)) fun t =>
        t = { u with home.counters := Tab.set u.home.counters idx { gen := gen, rid := rid, rgen := rg.gen, eid := i.eid, ctx := i.ctx, bytes := 0, pkts := 0 } })
    ∧ (∀ c, u.counterOf (r.w 1) i = some c →
      (s.ready (.counterFree r) (BciRow.f 73 1) r = some (i, u) → u.home.waits = [] → Answers (.counterFree r) s r [] fun t =>
        Tab.get? t.home.counters (keyIdx (r.w 1)) = none ∧ Tab.get? t.home.ctrGens (keyIdx (r.w 1)) = some (nextGen c.gen))
      ∧ (s.ready (.counterReset r) (BciRow.f 74 1) r = some (i, u) → Answers (.counterReset r) s r [] fun t =>
        Tab.get? t.home.counters (keyIdx (r.w 1)) = some { c with bytes := 0, pkts := 0 } ∧ t = { u with home.counters := t.home.counters })
      ∧ (s.ready (.counterRead r) (BciRow.f 75 1) r = some (i, u) → exec (.counterRead r) s = .next (u.respond r .ok (two c.bytes ++ one c.pkts)))
      ∧ (s.ready (.waitCount r) { BciRow.f 76 5 with dl := true, resv := fun r => decide (2 < r.w 5) } r = some (i, u) → r.dl = false →
        let w : Wait := { id := u.nextId, ckey := r.w 1, sel := r.w 5, tBytes := r.d 2, tPkts := r.w 4, who := .bci r, eid := i.eid, ctx := i.ctx }
        (w.holds c = true → exec (.waitCount r) s = .next (u.respond r .ok (two c.bytes ++ one c.pkts)))
        ∧ (w.holds c = false → Does (.waitCount r) s fun t => t = { u with nextId := u.nextId + 1, home.waits := u.home.waits ++ [w] })))
    ∧ (∀ (w : Wait) c q, s.runs = true → s.home.waits.find? (fun x => decide (x.id = w.id)) = some w → w.who = .bci q → Tab.get? s.home.counters (keyIdx w.ckey) = some c → w.holds c = true →
      Does (.waitCountWake w.id) s fun t => (∀ x ∈ t.home.waits, x.id ≠ w.id) ∧ t.home.counters = s.home.counters)
    ∧ (∀ (c : Counter) (sel b p : Nat) (w : Wait), c.bytes < 2 ^ 64 → c.pkts < 2 ^ 32 → w.sel = sel → w.tBytes = b → w.tPkts = p →
      w.holds c = ((decide (sel = 1) || decide (0 ≤ (BitVec.ofNat 64 c.bytes - BitVec.ofNat 64 b).toInt)) && (decide (sel = 0) || decide (0 ≤ (BitVec.ofNat 32 c.pkts - BitVec.ofNat 32 p).toInt))))

/-! ### Reliability (19) -/

/-- The error store, health records, parameters and quarantine (R723, R758, R759, R762 to R767, R374): ERRLOG_READ and HEALTH_READ write what the store holds, HEALTH_UPDATE
counts 10 s of ON time with its voltage, REL_SET stores a value in range and REL_GET answers it, a known-answer test gives a record where it fails, and a unit whose
quarantine is asked for leaves service once idle and comes back at its release, unless the test before it, whose outcome is free (log 22), fails. -/
def Obligations.HealthAndQuarantine : Prop :=
  (∀ (s : State) (r : BciReq) (i : Issuer) (u : State),
    (s.ready (.errlogRead r) { BciRow.o 0x100 5 with minor := some 0, resv := fun r => offResv r 4 } r = some (i, u) → 1 ≤ r.w 2 → r.w 2 ≤ 1024 →
      let e := fromSeq ErrorRec.seq u.rel.errors u.rel.errSeq (r.w 1) (r.w 2)
      Copies (.errlogRead r) s r i u (r.w 3) (r.d 4) (e.1.flatMap (fun x => bytesOf x.words)) [BitVec.ofNat 32 e.1.length, BitVec.ofNat 32 e.2.1, BitVec.ofNat 32 e.2.2]
        fun t => t.rel.errors = u.rel.errors ∧ t.rel.units = u.rel.units)
    ∧ (s.ready (.healthRead r) { BciRow.o 0x101 4 with minor := some 0, resv := fun r => above r 1 9 || offResv r 3 } r = some (i, u) →
      Copies (.healthRead r) s r i u (r.w 2) (r.d 3) ((u.unit (r.w 1)).bytes (r.w 1)) [] fun t => t.rel.errors = u.rel.errors ∧ t.rel.units = u.rel.units)
    ∧ (∀ lo hi, s.ready (.relSet r) { BciRow.o 0x102 3 with minor := some 0 } r = some (i, u) → relRange (r.w 1) = some (lo, hi) → lo ≤ r.d 2 → r.d 2 ≤ hi →
      (r.w 1 = 3 → 2 * u.param 1 ≤ r.d 2) → (r.w 1 = 1 → 2 * r.d 2 ≤ u.param 3) →
      Answers (.relSet r) s r [] fun t => t = { u with rel.params := t.rel.params } ∧ t.param (r.w 1) = r.d 2 ∧ ∀ k, k ≠ r.w 1 → t.param k = u.param k)
    ∧ (s.ready (.relGet r) { BciRow.o 0x103 1 with minor := some 0 } r = some (i, u) → 1 ≤ r.w 1 → r.w 1 ≤ 10 →
      exec (.relGet r) s = .next (u.respond r .ok (two (u.param (r.w 1)))))
    ∧ (s.ready (.quarantine r) { BciRow.o 0x104 2 with minor := some 0, resv := fun r => above r 1 9 || decide (r.w 2 ≠ 0) } r = some (i, u) →
      Answers (.quarantine r) s r [] fun t => t = { u with rel.units := t.rel.units } ∧ (∀ k, k ≠ r.w 1 → t.unit k = u.unit k)
        ∧ t.unit (r.w 1) = { u.unit (r.w 1) with asked := (u.unit (r.w 1)).asked || !(u.unit (r.w 1)).quarantined })
    ∧ (s.ready (.quarantineRelease r) { BciRow.o 0x104 2 with minor := some 0, resv := fun r => above r 1 9 || decide (r.w 2 ≠ 1) } r = some (i, u) →
      if hasKat (r.w 1) && Config.freeBit u.freeCtr then
        ∃ v : State, exec (.quarantineRelease r) s = .next (v.respond r .corrupt []) ∧ (v.unit (r.w 1)).quarantined = (u.unit (r.w 1)).quarantined
      else Answers (.quarantineRelease r) s r [] fun t => (t.unit (r.w 1)).quarantined = false ∧ (t.unit (r.w 1)).asked = false))
  ∧ (∀ (s : State) (hw : Nat), s.runs = true → hw < 512 →
    let u := s.unit hw
    (∀ tempC volt, u.onSince + 10000000000 ≤ s.now → Does (.healthUpdate hw tempC volt) s fun t =>
      let b := Tab.getD u.bins (binOf (tempC : Int)) HealthBin.fresh
      t = { s with rel.units := t.rel.units } ∧ (t.unit hw).onSince = s.now ∧ (∀ k, k ≠ hw → t.unit k = s.unit k)
        ∧ ∃ x, Tab.get? (t.unit hw).bins (binOf (tempC : Int)) = some x ∧ x.onMs = b.onMs + 10000 ∧ x.ce = b.ce ∧ x.ue = b.ue
          ∧ (b.onMs = 0 → x.vmin = volt ∧ x.vmax = volt) ∧ (b.onMs ≠ 0 → x.vmin = min b.vmin volt ∧ x.vmax = max b.vmax volt))
    ∧ (hasKat hw = true → u.quarantined = false → s.unitIdle hw = true → u.lastKat + s.param 9 * 1000000 ≤ s.now →
      exec (.kat hw .yielded) s = .next s ∧ Does (.kat hw .pass) s (fun t => (t.unit hw).lastKat = s.now ∧ t.rel.errors = s.rel.errors)
      ∧ Does (.kat hw .fail) s fun t => (t.unit hw).lastKat = s.now ∧ ∃ e ∈ t.rel.errors, e.hw = hw ∧ e.cls = 6)
    ∧ (u.asked = true → s.unitIdle hw = true → Does (.quarantineEffect hw) s fun t => (t.unit hw).quarantined = true ∧ (t.unit hw).asked = false
      ∧ (∃ e ∈ t.rel.errors, e.hw = hw ∧ e.cls = 10) ∧ ∀ n, unitCore hw = some n → (t.core n).st = .quarantined))

/-- Parts, spares and rebuilds (R724 to R731, R100, R102, R758): a failed part has its record and its rebuild, into a spare where one is ready, a second failure of a pseudo-channel position is
fail-stop, SPARE_SET makes a DIMM or drive the spare, REBUILD_START starts a rebuild that waits, and its end puts the spare in the part's place. -/
def Obligations.PartsAndSpares : Prop :=
  (∀ (s : State) (loc : Nat), s.runs = true →
    let recorded (t : State) (p : Part) : Prop := ∃ e ∈ t.rel.errors, e.cls = 7 ∧ e.loc = loc ∧ e.layer = (partUnit p loc).1 ∧ e.hw = (partUnit p loc).2
    let rebuilt (t : State) (p : Part) (run : Bool) (n : Option Nat) : Prop := ∃ b ∈ t.rel.rebuilds, b.part = p ∧ b.loc = loc ∧ b.running = run ∧ b.into = n
    (loc < 256 → (∀ x ∈ s.rel.pcFailed, x % 8 ≠ loc % 8) → s.rel.errors = [] → Does (.partFailed .pseudoChannel loc) s fun t =>
      loc ∈ t.rel.pcFailed ∧ recorded t .pseudoChannel ∧ rebuilt t .pseudoChannel true none)
    ∧ (∀ x ∈ s.rel.pcFailed, loc < 256 → x % 8 = loc % 8 → s.rel.failCause = none → Does (.partFailed .pseudoChannel loc) s fun t => t.rel.failCause = some 4)
    ∧ (s.partUp .dimm loc = true → (s.dimm loc).spare = false → s.rel.errors = [] →
      let v := { s with strata.dimms := Tab.set s.strata.dimms loc { s.dimm loc with failed := true, spare := false } }
      Does (.partFailed .dimm loc) s fun t => (t.dimm loc).failed = true ∧ recorded t .dimm ∧ rebuilt t .dimm (v.spareFor .dimm).isSome (v.spareFor .dimm))
    ∧ (s.partUp .drive loc = true → (s.drive loc).spare = false → s.rel.errors = [] →
      let v := { s with strata.drives := Tab.set s.strata.drives loc { s.drive loc with failed := true, spare := false, admitted := true, queues := 0, busy := 0 } }
      Does (.partFailed .drive loc) s fun t => (t.drive loc).failed = true ∧ recorded t .drive ∧ rebuilt t .drive (v.spareFor .drive).isSome (v.spareFor .drive))
    ∧ (s.partUp .dimm loc = false → exec (.partFailed .dimm loc) s = .next s))
  ∧ (∀ (s : State) (r : BciReq) (i : Issuer) (u : State),
    (s.ready (.spareSet r) { BciRow.o 0x105 3 with minor := some 0, resv := fun r => above r 3 1 } r = some (i, u) →
      let n := r.w 2
      let on := decide (r.w 3 = 1)
      (r.w 1 = 1 → n < 16 * u.strata.dimmsPer →
        let t := State.sizeT1 { u with strata.dimms := Tab.set u.strata.dimms n { u.dimm n with spare := on } }
        (on = true → (u.dimm n).failed = false ∧ (∀ e ∈ u.strata.dimms, e.2.spare = true → e.1 = n) ∧ t.overfull = false) →
        (on = false → ∀ b ∈ u.rel.rebuilds, b.part = .dimm → b.into ≠ some n) → exec (.spareSet r) s = .next (t.respond r .ok []))
      ∧ (r.w 1 = 2 → n < 12 → (u.drive n).admitted = true → (u.drive n).failed = false →
        let t := State.sizeT2 { u with strata.drives := Tab.set u.strata.drives n { u.drive n with spare := on } }
        (on = true → (∀ e ∈ u.strata.drives, e.2.spare = true → e.1 = n) ∧ t.t2Bytes ≤ t.t2Cap) →
        (on = false → ∀ b ∈ u.rel.rebuilds, b.part = .drive → b.into ≠ some n) → exec (.spareSet r) s = .next (t.respond r .ok [])))
    ∧ (∀ p b n, s.ready (.rebuildStart r) { BciRow.o 0x106 2 with minor := some 0, resv := fun r => above r 2 16 } r = some (i, u) → partOf (r.w 1) = some p →
      u.rebuildOf p (r.w 2) = some b → b.running = false → u.spareFor p = some n → Answers (.rebuildStart r) s r (one u.bci.nextOp) fun t =>
        ∃ x ∈ t.rel.rebuilds, x.op = u.bci.nextOp ∧ x.part = p ∧ x.loc = r.w 2 ∧ x.running = true ∧ x.into = some n))
  ∧ (∀ (s : State) (id : Nat) (b : Rebuild), s.runs = true → s.rel.rebuilds.find? (fun x => decide (x.op = id) && x.running) = some b →
    Does (.rebuildEnd id false) s (fun t => (∀ x ∈ t.rel.rebuilds, x.op ≠ id) ∧ ∀ n, b.into = some n →
      (b.part = .dimm → (t.dimm n).spare = false) ∧ (b.part = .drive → n ≠ b.loc → (t.drive n).spare = false ∧ (t.drive b.loc).admitted = false))
    ∧ Does (.rebuildEnd id true) s fun t => (∃ x ∈ t.rel.rebuilds, x.part = b.part ∧ x.loc = b.loc ∧ x.running = false)
      ∧ ∀ n, b.into = some n → (b.part = .dimm → (t.dimm n).failed = true) ∧ (b.part = .drive → (t.drive n).failed = true))

/-- Heartbeats, leases and takeover (R732, R733, R739 to R741, R748 to R752): HEARTBEAT goes to every endpoint that expects it, one that arrives extends a partner's lease and
ends SUSPECT, a silent endpoint becomes SUSPECT, a lease runs out, TAKEOVER waits for the last lease and then adopts the complete copies. -/
def Obligations.HeartbeatsAndTakeover : Prop :=
  (∀ s : State, s.runs = true →
    (s.lmf.joined = true → (s.hbOf s.lmf.eid).sentAt = 0 ∨ (s.hbOf s.lmf.eid).sentAt + s.param 1 * 1000 ≤ s.now + 1 → Does .heartbeatSend s fun t =>
      (t.hbOf s.lmf.eid).sentAt = s.now + 1 ∧ (∀ e ∈ s.hbTargets, (t.hbOf e).sentAt = s.now + 1 ∧ .evt e 8 [s.lmf.inc, s.now, b2n (decide (5000 < s.errNow))] ∈ t.out)
        ∧ t.home = s.home)
    ∧ (∀ eid inc ftime, s.judge eid inc = .current → Does (.heartbeat eid inc ftime) s fun t => (t.hbOf eid).last = s.now ∧ (t.hbOf eid).suspect = false
      ∧ (s.home.regions.any (fun e => decide (e.2.mirror = eid)) = true → (t.hbOf eid).leaseEnd = max (s.hbOf eid).leaseEnd (ftime + s.param 3 * 1000))
      ∧ (∀ h ∈ t.home.held, h.why ≠ .lease eid) ∧ ∀ k, k ≠ eid → t.hbOf k = s.hbOf k)
    ∧ (∀ eid inc ftime, s.judge eid inc ≠ .current → exec (.heartbeat eid inc ftime) s = .next s)
    ∧ (∀ eid, (s.hbOf eid).suspect = false → eid ∈ s.hbWatched → (s.hbOf eid).last + s.param 2 * s.param 1 * 1000 ≤ s.now → Does (.suspect eid) s fun t =>
      (t.hbOf eid).suspect = true ∧ ∃ e ∈ t.rel.errors, e.cls = 8 ∧ e.hw = anyUnit s.freeCtr)
    ∧ (∀ eid, (s.hbOf eid).leaseEnd ≠ 0 → (s.hbOf eid).leaseEnd ≤ s.now → exec (.leaseExpiry eid) s = .next (s.setHb eid { s.hbOf eid with leaseEnd := 0 }))
    ∧ (∀ (x : Takeover), s.rel.takeovers.find? (fun y => decide (y.id = x.id) && !y.adopted) = some x → x.waitEnd ≤ s.now → Does (.takeoverWaitEnd x.id) s fun t =>
      x.eid ∈ t.rel.adopted ∧ (∀ y ∈ t.rel.takeovers, y.id = x.id → y.adopted = true)
        ∧ ∀ e ∈ s.home.copies, e.2.mirror = x.eid → Tab.get? t.home.copies e.1 = none
          ∧ (e.2.mirrorDone = true → ∃ g, t.region? e.1 = some g ∧ g.mirror = 0 ∧ g.creator = x.ctx)))
  ∧ (∀ (s : State) (r : BciReq) (i : Issuer) (u : State) e n, s.ready (.takeover r) { BciRow.o 0x107 3 with minor := some 0, resv := fun r => above r 1 18 || above r 3 12 } r = some (i, u) →
      Tab.get? u.lmf.incs (r.w 1) = some e → e.fenced = some n → r.w 2 ≤ n → u.ctxOk (r.w 3) = true → Answers (.takeover r) s r (one u.bci.nextOp) fun t =>
        (∃ x ∈ t.rel.takeovers, x.id = u.bci.nextOp ∧ x.eid = r.w 1 ∧ x.inc = r.w 2 ∧ x.ctx = r.w 3 ∧ x.adopted = false) ∧ t.home = u.home)

/-- The journal (R753 to R757): CLAIM makes an object owned by the issuer, OFFER offers it, ACCEPT gives it to the endpoint it was offered to, RELEASE ends it, each under the
next ENTRY number, which it answers; QUERY reports it, and ASSIGN gives an orphaned object an owner. -/
def Obligations.JournalCommands : Prop :=
  ∀ (s : State) (r : BciReq) (i : Issuer) (u : State) (rid : Nat) (rg : Region), u.live (u.reqHome r) (r.w 1) = some (rid, rg) →
    let entry := (u.rel.entry + 1) % 18446744073709551616
    let named (t : State) (st : ObjState) (eid inc toEid toInc : Nat) : Prop :=
      t.object? rid (r.d 2) = some { rid := rid, name := r.d 2, st := st, eid := eid, inc := inc, toEid := toEid, toInc := toInc, entry := entry }
    (∀ q, r.src = .lmfBci q → u.sealed rg i.eid = true → u.gate rid rg = none →
      ((rg.rightsOf i.eid i.ctx).covers needW = true → rg.mirror = 0 →
        let fresh (n : Nat) : Prop := u.logFind (u.issuerLog r i) (r.w n) = none
        (s.ready (.journalClaim r) { BciRow.f 0x108 4 with minor := some 1 } r = some (i, u) → fresh 4 → u.object? rid (r.d 2) = none → u.rel.objects.length < 262144 →
          Answers (.journalClaim r) s r (two entry) fun t => named t .owned q.srcEid q.srcInc 0 0)
        ∧ (∀ o, u.object? rid (r.d 2) = some o →
          (s.ready (.journalOffer r) { BciRow.f 0x109 6 with minor := some 1, resv := fun r => above r 4 18 } r = some (i, u) → fresh 6 → o.st ≠ .orphaned → o.eid = q.srcEid → o.inc = q.srcInc →
            (r.w 4 ≠ 0 → Answers (.journalOffer r) s r (two entry) fun t => named t .offered q.srcEid q.srcInc (r.w 4) (r.w 5))
            ∧ (r.w 4 = 0 → o.st = .offered → Answers (.journalOffer r) s r (two entry) fun t => named t .owned q.srcEid q.srcInc 0 0))
          ∧ (s.ready (.journalAccept r) { BciRow.f 0x10A 6 with minor := some 1 } r = some (i, u) → fresh 6 → o.st = .offered → o.toEid = q.srcEid → o.toInc = q.srcInc → o.entry = r.d 4 →
            Answers (.journalAccept r) s r (two entry) fun t => named t .owned q.srcEid q.srcInc 0 0)
          ∧ (s.ready (.journalRelease r) { BciRow.f 0x10B 4 with minor := some 1 } r = some (i, u) → fresh 4 → o.st = .owned → o.eid = q.srcEid → o.inc = q.srcInc →
            Answers (.journalRelease r) s r (two entry) fun t => t.object? rid (r.d 2) = none)))
      ∧ ((rg.rightsOf i.eid i.ctx).covers needR = true → s.ready (.journalQuery r) { BciRow.f 0x10C 3 with minor := some 1 } r = some (i, u) → ∀ o, u.object? rid (r.d 2) = some o →
        exec (.journalQuery r) s = .next (u.respond r .ok ([BitVec.ofNat 32 (match o.st with | .owned => 1 | .offered => 2 | .orphaned => 3), BitVec.ofNat 32 o.eid, BitVec.ofNat 32 o.inc,
          BitVec.ofNat 32 o.toEid, BitVec.ofNat 32 o.toInc] ++ two o.entry))))
    ∧ (∀ o, s.ready (.journalAssign r) { BciRow.o 0x10D 5 with minor := some 1, resv := fun r => above r 4 18 } r = some (i, u) → u.object? rid (r.d 2) = some o → o.st = .orphaned → rg.mirror = 0 →
      Answers (.journalAssign r) s r (two entry) fun t => named t .owned (r.w 4) (r.w 5) 0 0)

/-! ### Counters, windows, cairns and traces (21) -/

/-- Counters and windows (R790, R794, R797, R801 to R809, R827, R828): CNT_READ writes the counters of its range and clears their WRAP bits where asked, CNT_RESET zeroes them, a snapshot copies
all of them at one time, a freeze stops them and the release starts them again, CNT_CTX_SET picks a context counter's event, and the end of a bandwidth window records its bytes. -/
def Obligations.EventCounters : Prop :=
  (∀ (s : State) (r : BciReq) (i : Issuer) (u : State),
    let src := fld (r.w 1) 1 0
    let inside (k : Nat) : Bool := decide (r.w 2 ≤ k) && decide (k < r.w 2 + r.w 3)
    (s.ready (.cntRead r) { BciRow.f 0x120 6 with minor := some 0, resv := fun r => above r 1 3 || offResv r 5 } r = some (i, u) → r.w 3 ≠ 0 →
      let resp := one u.obs.snap.seq ++ two u.obs.snap.time
      (src < 2 → u.privileged r = true → r.w 2 + r.w 3 ≤ 4096 →
        let tab := if src = 0 then u.obs.events else u.obs.snap.events
        Copies (.cntRead r) s r i u (r.w 4) (r.d 5)
          ((upto (r.w 3)).flatMap (fun k => let c := Tab.getD tab (r.w 2 + k) EvCounter.fresh; natLE 8 (c.value + 2 ^ 48 * b2n c.wrap + 2 ^ 49 * b2n u.obs.frozen))) resp
          fun t => bitAt (r.w 1) 2 = true → src = 0 → ∀ k, inside k = true → (Tab.getD t.obs.events k EvCounter.fresh).wrap = false)
      ∧ (∀ c, 2 ≤ src → u.counterCtx r i = some c → r.w 2 + r.w 3 ≤ 32 →
        let tab := if src = 2 then u.ctxCtrs c else Tab.getD u.obs.snap.ctxs c []
        Copies (.cntRead r) s r i u (r.w 4) (r.d 5)
          ((upto (r.w 3)).flatMap (fun k => let c := Tab.getD tab (r.w 2 + k) CtxCounter.fresh; natLE 8 (c.value + 2 ^ 48 * b2n c.wrap + 2 ^ 49 * b2n u.obs.frozen))) resp
          fun t => bitAt (r.w 1) 2 = true → src = 2 → ∀ k, inside k = true → (Tab.getD (t.ctxCtrs c) k CtxCounter.fresh).wrap = false))
    ∧ (s.ready (.cntMode r) { BciRow.p 0x121 2 with resv := fun r => above r 1 12 || above r 2 1 } r = some (i, u) → Answers (.cntMode r) s r [] fun t =>
      t = { u with obs.events := t.obs.events } ∧ Tab.get? t.obs.events (r.w 1) = some { Tab.getD u.obs.events (r.w 1) EvCounter.fresh with edge := decide (r.w 2 = 1) }
        ∧ ∀ k, k ≠ r.w 1 → Tab.get? t.obs.events k = Tab.get? u.obs.events k)
    ∧ (s.ready (.cntReset r) { BciRow.f 0x122 3 with minor := some 0, resv := fun r => decide (r.w 1 ≠ 0 ∧ r.w 1 ≠ 2) } r = some (i, u) →
      (r.w 1 = 0 → u.privileged r = true → r.w 2 + r.w 3 ≤ 4096 → Answers (.cntReset r) s r [] fun t => t = { u with obs.events := t.obs.events }
        ∧ ∀ k, let c := Tab.getD u.obs.events k EvCounter.fresh
          Tab.getD t.obs.events k EvCounter.fresh = if inside k then { c with value := 0, wrap := false } else c)
      ∧ (∀ c, r.w 1 = 2 → u.counterCtx r i = some c → r.w 2 + r.w 3 ≤ 32 → Answers (.cntReset r) s r [] fun t => t = { u with bci.contexts := t.bci.contexts }
        ∧ ∀ k, let x := Tab.getD (u.ctxCtrs c) k CtxCounter.fresh
          Tab.getD (t.ctxCtrs c) k CtxCounter.fresh = if inside k then { x with value := 0, wrap := false } else x))
    ∧ (s.ready (.cntSnapshot r) (BciRow.p 0x123 0) r = some (i, u) → Answers (.cntSnapshot r) s r (one ((u.obs.snap.seq + 1) % 4294967296) ++ two u.now) fun t =>
      t.obs.snap.seq = (u.obs.snap.seq + 1) % 4294967296 ∧ t.obs.snap.time = u.now ∧ t.obs.snap.events = u.obs.events
        ∧ ∀ c, Tab.getD t.obs.snap.ctxs c [] = u.ctxCtrs c)
    ∧ (s.ready (.cntFreeze r) { BciRow.p 0x124 1 with resv := fun r => decide (r.w 1 ≠ 0) } r = some (i, u) → Answers (.cntFreeze r) s r (two u.now) fun t =>
      t.obs.frozen = true ∧ t.obs.events = u.obs.events)
    ∧ (s.ready (.cntUnfreeze r) { BciRow.p 0x124 1 with resv := fun r => decide (r.w 1 ≠ 1) } r = some (i, u) → Answers (.cntUnfreeze r) s r (two u.now) fun t =>
      t.obs.frozen = false ∧ ∀ k, k ≠ 0x6B * 8 + 1 → k ≠ 0x16B * 8 + 1 → Tab.get? t.obs.events k = Tab.get? u.obs.events k)
    ∧ (∀ c, s.ready (.cntCtxSet r) { BciRow.f 0x125 2 with
          minor := some 0, resv := fun r => above r 1 5 || decide (fld (r.w 2) 15 14 ≠ 0 ∨ fld (r.w 2) 30 28 ≠ 0) || (!bitAt (r.w 2) 31 && decide (fld (r.w 2) 27 16 ≠ 0)) } r = some (i, u) →
      (bitAt (r.w 2) 31 = true → u.privileged r = true ∧ c = fld (r.w 2) 27 16) → (bitAt (r.w 2) 31 = false → u.counterCtx r i = some c) → attributable (fld (r.w 2) 11 0) = true →
      u.ctxOk c = true → Answers (.cntCtxSet r) s r [] fun t => t = { u with bci.contexts := t.bci.contexts } ∧ ∃ x, Tab.get? (t.ctxCtrs c) (r.w 1) = some x
        ∧ x.event = fld (r.w 2) 11 0 ∧ x.ros = bitAt (r.w 2) 12 ∧ x.en = bitAt (r.w 2) 13 ∧ x.value = (Tab.getD (u.ctxCtrs c) (r.w 1) CtxCounter.fresh).value)
    ∧ (s.ready (.bwRead r) { BciRow.p 0x126 5 with resv := fun r => offResv r 4 } r = some (i, u) → r.w 2 ≠ 0 → r.w 1 + r.w 2 ≤ 44 →
      Copies (.bwRead r) s r i u (r.w 3) (r.d 4)
        ((upto (r.w 2)).flatMap (fun k => ((Tab.getD u.obs.windows (r.w 1 + k) []).flatMap BwRec.bytes ++ List.replicate 128 0).take 128)) [] fun _ => True))
  ∧ (∀ (s : State) (p rx tx start len : Nat) (down : Bool), s.runs = true → p < 44 → Tab.get? s.obs.winStart p = some (start, len) → start + len * 1000 ≤ s.now → s.obs.frozen = false →
      Does (.bwWindowEnd p rx tx down) s fun t => (∃ b, (Tab.getD t.obs.windows p []).head? = some b ∧ b.port = p ∧ b.rx = rx ∧ b.tx = tx ∧ b.len = len ∧ b.start = start ∧ b.part = down)
        ∧ (∀ k, k ≠ p → Tab.get? t.obs.windows k = Tab.get? s.obs.windows k) ∧ t.obs.bwWin = s.obs.bwPend.getD s.obs.bwWin ∧ t.home = s.home)

/-- Cairn rings, traces and the partner history (R684, R810 to R825): CRN_READ and PARTNER_READ write the entries held, CRN_SEL captures the entry it names, and TRC_SET sets
where records go and which are kept. -/
def Obligations.CairnsAndTraces : Prop :=
  (∀ (s : State) (r : BciReq) (i : Issuer) (u : State),
    (s.ready (.crnRead r) { BciRow.p 0x127 4 with resv := fun r => above r 1 9 || offResv r 3 } r = some (i, u) →
      Copies (.crnRead r) s r i u (r.w 2) (r.d 3) (((Tab.getD u.obs.cairns (r.w 1) []).flatMap (fun (c : Cairn) => bytesOf c.words) ++ List.replicate 1024 0).take 1024)
        (one (Tab.getD u.obs.writes (r.w 1) 0)) fun _ => True)
    ∧ (s.ready (.partnerRead r) { BciRow.p 0x129 5 with resv := fun r => offResv r 4 } r = some (i, u) → 1 ≤ r.w 2 → r.w 2 ≤ 1024 →
      let e := fromSeq PartnerRec.seq u.lmf.history u.lmf.partnerSeq (r.w 1) (r.w 2)
      Copies (.partnerRead r) s r i u (r.w 3) (r.d 4) (e.1.flatMap (fun x => bytesOf x.words)) [BitVec.ofNat 32 e.1.length, BitVec.ofNat 32 e.2.1] fun _ => True)
    ∧ (s.ready (.trcSet r) { BciRow.p 0x128 9 with resv := fun r => above r 1 2 || offResv r 3 || decide (r.w 6 ≠ r.w 6 / 2 % 64 * 2) || offResv r 8 } r = some (i, u) →
      let dest := fld (r.w 1) 1 0
      (dest = 0 → Answers (.trcSet r) s r [] fun t =>
        t.obs.trace = { u.traceFlush.obs.trace with dest := 0 } ∧ t.home = u.traceFlush.home ∧ (u.obs.trace.queue = [] → t.home = u.home))
      ∧ (∀ rid rg, dest ≠ 0 → (bitAt dest 0 = true → 12 ≤ r.w 5 ∧ r.w 5 ≤ 24 ∧ ∃ x g, u.permit u.lmf.eid (r.w 2) (r.d 3) (32 * 2 ^ r.w 5) needW i = some (x, g) ∧ g.mode ≠ .coherent) →
        u.opens r i (r.w 7) (r.d 8) 64 needR = some (rid, rg) → u.meetRead rid rg (.own i) (r.d 8) 64 = .clear → Answers (.trcSet r) s r [] fun t =>
          t.obs.trace.dest = dest ∧ t.obs.trace.types = r.w 6 ∧ t.obs.trace.mask = leNat (u.readRange rg (.own i) (r.d 8) 64) ∧ t.obs.trace.eid = i.eid ∧ t.obs.trace.ctx = i.ctx
            ∧ (bitAt dest 0 = true → t.obs.trace.ring = some { key := r.w 2, off := r.d 3, log2 := r.w 5 }))))
  ∧ (∀ (s : State) (w : Word), s.pkg.aonUp = true → Does (.crnSelWrite w) s fun t =>
      t.obs.crnSel = w.toNat % 32768 ∧ t.obs.crnWrites = Tab.getD s.obs.writes (fld w.toNat 8 0) 0 % 65536
        ∧ (∀ c, (Tab.getD s.obs.cairns (fld w.toNat 8 0) [])[fld w.toNat 14 9]? = some c → t.obs.crnData = two c.time ++ [BitVec.ofNat 32 (c.code + 65536 * c.ctx), BitVec.ofNat 32 c.payload])
        ∧ t = { s with obs := t.obs })

/-! ### Tiers and storage (03, 04) -/

/-- Tiers and the lent tier (R119, R120, R127 to R133, R143 to R145, R172, R173): TIER_SET sets heat and its half-life, an extent offered is ACTIVE (its acceptance: log 16), recalled
and released, a drain starts the moves it needs and its cancel stops them, low space in T1 moves the oldest page to T2, and the heat sweep zeroes old counters. -/
def Obligations.TierCommands : Prop :=
  (∀ (s : State) (r : BciReq) (i : Issuer) (u : State),
    (s.ready (.tierSet r) { BciRow.o 48 3 with minor := some 0 } r = some (i, u) → 10 ≤ r.w 1 → r.w 1 ≤ 1000000 → fld (r.w 2) 7 0 ≠ 0 → fld (r.w 2) 15 8 ≠ 0 →
      fld (r.w 2) 19 16 ≠ 0 → fld (r.w 2) 23 20 ≠ 0 → fld (r.w 2) 31 24 = 0 → fld (r.w 3) 31 16 = 0 → Answers (.tierSet r) s r [] fun t =>
        t = { u with strata := t.strata } ∧ t.strata.promoteT0 = fld (r.w 2) 7 0 ∧ t.strata.promoteT1 = fld (r.w 2) 15 8 ∧ t.strata.incPort = fld (r.w 2) 19 16
          ∧ t.strata.incEngine = fld (r.w 2) 23 20 ∧ t.strata.minAge = fld (r.w 3) 15 0
          ∧ (r.w 1 ≠ u.halfLifeNs / 1000000 → t.strata.nextHalfLife = some (r.w 1, (u.now / (r.w 1 * 1000000) + 1) * (r.w 1 * 1000000))))
    ∧ (s.ready (.tierDrain r) { BciRow.o 49 2 with minor := some 0, resv := fun r => decide (2 < r.w 1) } r = some (i, u) → u.opOf (drainKind r) = none →
      let begun (P : State → Prop) : Prop := ∃ v : State, exec (.tierDrain r) s = .next ((v.respond r .ok (one u.bci.nextOp)).tierOps) ∧ (v.opOf (drainKind r)).isSome = true ∧ P v
      (r.w 1 = 0 → begun fun v => ∀ e ∈ v.allPages, e.2.due = decide (e.2.t0 = .dirty ∧ e.2.backing ≠ .none))
      ∧ (∀ e, r.w 1 = 1 → Tab.get? u.strata.extents (r.w 2) = some e → e.st = .active → begun fun v =>
          (∃ x, Tab.get? v.strata.extents (r.w 2) = some x ∧ x.st = .recalling) ∧ ∀ p ∈ v.allPages, p.2.tl ≠ some (r.w 2))
      ∧ (r.w 1 = 2 → u.hasPinT1 = false → u.strata.t2Pages ≠ 0 → u.t2Lacks = false → begun fun v =>
          v.drainingT1 = true ∧ ∀ e ∈ v.allPages, ∀ m, e.2.move = some m → m.retiring = false → m.kind ≠ .toT1))
    ∧ (∀ o, s.ready (.tierDrainCancel r) { BciRow.o 50 2 with minor := some 0, resv := fun r => decide (2 < r.w 1) } r = some (i, u) → u.opOf (drainKind r) = some o → u.bci.rings = [] →
      Answers (.tierDrainCancel r) s r [] fun t => ∀ e ∈ t.allPages, ∀ m, e.2.move = some m → m.retiring = false → (r.w 1 = 0 → m.kind = .writeBack → m.evict = true) ∧ (r.w 1 = 2 → m.kind ≠ .toT2)))
  ∧ (∀ s : State, s.runs = true →
    (∀ eid inc ext gib lkey, s.judge eid inc = .current → 3 ≤ s.verOf eid → (∀ e, Tab.get? s.strata.extents ext = some e → e.st = .gone) → gib ≠ 0 → Does (.lendOffer eid inc ext gib lkey) s fun t =>
      (∃ e, Tab.get? t.strata.extents ext = some e ∧ e.eid = eid ∧ e.inc = inc ∧ e.gib = gib ∧ e.lkey = lkey ∧ e.st = .active ∧ e.sealNext = 0) ∧ t.home = s.home)
    ∧ (∀ ext graceUs e, Tab.get? s.strata.extents ext = some e → e.st = .active → 1000 ≤ graceUs → graceUs ≤ 10000000 → Does (.lendRecall e.eid e.inc ext graceUs) s fun t =>
      Tab.get? t.strata.extents ext = some { e with st := .recalling, graceEnd := s.now + graceUs * 1000 } ∧ ∀ p ∈ t.allPages, p.2.tl ≠ some ext)
    ∧ (∀ ext e, Tab.get? s.strata.extents ext = some e → e.st = .recalling → s.tlCopies ext = 0 ∨ e.graceEnd ≤ s.now → Does (.lendGraceExpiry ext) s fun t =>
      (∃ x, Tab.get? t.strata.extents ext = some x ∧ x.st = .gone) ∧ .evt e.eid 7 [ext] ∈ t.out)
    ∧ ((∀ e, s.t1Free * 100 < s.t1Cap * 2 → s.strata.t2Pages ≠ 0 → s.oldestT1 = some e → s.page? e.1 = some e.2 → s.t1Coming * 100 < s.t1Cap * 4 →
        Does .t1LowSpaceMove s fun t => (t.page? e.1).bind TierPage.move = some { kind := .toT2, retiring := false })
      ∧ (s.t1Cap * 2 ≤ s.t1Free * 100 → exec .t1LowSpaceMove s = .next s))
    ∧ (Does .heatSweep s fun t => t = { s with home := { s.home with pages := t.home.pages } } ∧ ∀ e ∈ t.allPages, (t.period % 65536 + 65536 - e.2.stamp) % 65536 < 8)
    ∧ (∀ p, (s.page? p = none → s.strata.t2Pages ≠ 0 → Does (.stripeReclaim p) s fun t =>
        t.strata.reclaimed = s.strata.reclaimed + 1 ∧ t.strata.t2Written = s.t2Live ∧ t.home = s.home)
      ∧ ∀ q, s.page? p = some q → q.backing = .t2 → exec (.stripeReclaim p) s = .next s))

/-- Pages (R106, R111, R138, R145, R155 to R163, R174 to R182, R719, R720): a move that is copied switches the page's placement and leaves its source to retire, a page group is coded, a slot
that decodes leaves only counts and records and one that does not makes its page wait for recovery, recovery restores the page or poisons it, and a scrub reports what it finds. -/
def Obligations.PageEvents : Prop :=
  ∀ (s : State) (p : PageRef) (q : TierPage), s.runs = true → s.page? p = some q →
    (∀ m, q.move = some m → m.retiring = false → q.recovering = false → s.bci.ops = [] →
      let moved (x : TierPage) (src : Option Image) : Prop := Does (.pageMoveSwitch p) s fun t =>
        t.page? p = some { x with move := some { kind := m.kind, retiring := true, image := src } } ∧ t.home.regions = s.home.regions
      (m.kind = .fill → s.t0Used < t0Pool → moved { q with t0 := if q.t0 = .none then .clean else q.t0 } none)
      ∧ (∀ im, m.kind = .writeBack → m.image = some im →
          moved { q with t0 := if m.evict then .none else .clean, image := some (s.formFor (s.backTo q) im), backing := s.backTo q, due := false } q.image)
      ∧ (∀ im rg, m.kind = .toBacking → m.image = some im → s.regionOfRef p = some rg → moved { q with t0 := .clean, image := some (s.formFor (s.newBacking rg) im), backing := s.newBacking rg } none)
      ∧ (m.kind = .drop → moved { q with t0 := if q.t0 = .clean then .none else q.t0 } none)
      ∧ (m.kind = .toT1 → 0 < s.t1Room → moved { q with backing := .t1, image := q.image.map (s.formFor .t1) } q.image)
      ∧ (m.kind = .toT2 → 0 < s.t2Room → moved { q with backing := .t2, image := q.image.map (s.formFor .t2) } q.image)
      ∧ (m.kind = .toT0Only → q.t0 ≠ .none → moved { q.dropTl with t0 := .dirty, backing := .none, image := none, due := false } q.image)
      ∧ (∀ x e im, m.kind = .tlFill x → Tab.get? s.strata.extents x = some e → e.st = .active → q.t0 ≠ .dirty → q.image = some im →
          moved { q with tl := some x, tlCopy := some (Sealed.of (s.formFor .t1 im) (s.freePlace x) e.key e.sealNext) } none))
    ∧ (∀ m, q.move = some m → m.retiring = true → s.bci.ops = [] → Does (.sourceRetire p) s fun t =>
        (∃ y, t.page? p = some y ∧ { y with move := none } = { q with move := none } ∧ ∀ n, y.move = some n → n.retiring = false) ∧ t.home.regions = s.home.regions)
    ∧ (∀ ps hd rg, ps.length < 16 → Tab.get? s.home.pages (refHandle p) = some hd → s.region? hd.rid = some rg → s.noneInService 8 32 = false → s.noneInService 0x28 8 = false →
      (∀ x ∈ p :: ps, ∃ y m h, s.page? x = some y ∧ y.move = some m ∧ m.retiring = false ∧ m.image = none ∧ (m.kind = .writeBack ∨ m.kind = .toBacking) ∧ y.recovering = false
        ∧ Tab.get? s.home.pages (refHandle x) = some h ∧ h.rid = hd.rid) →
      Does (.pageGroupEncode (p :: ps)) s fun t => ∀ x ∈ p :: ps, ∃ y m, t.page? x = some y ∧ y.move = some m ∧ m.image.isSome = true)
    ∧ (∀ im slot media, q.image = some im → s.noneInService 8 32 = false → slot < 16 →
      let counted (t : State) : Prop := t = { s with obs := t.obs, bci := { s.bci with contexts := t.bci.contexts }, out := t.out }
      (q.t0 ≠ .none ∨ q.tl = none →
        if (readSlot slot im.tweak (media.getD (im.media slot)) (s.classKey p) s.tableLive s.tableLens).isSome then Does (.slotDecode p slot media) s counted
        else Does (.slotDecode p slot media) s fun t => ∃ y, t.page? p = some y ∧ y.recovering = true)
      ∧ (∀ e c, q.t0 = .none → s.tlOf q = some (e, c) →
        if (readSealed e.key slot im.tweak (media.getD (c.media slot)) (s.classKey p) s.tableLive s.tableLens).isSome then Does (.slotDecode p slot media) s counted
        else Does (.slotDecode p slot media) s fun t => t.page? p = some q.dropTl))
    ∧ (q.recovering = true →
      (q.t0 = .clean → Does (.pageRecovery p .t0 []) s fun t => (∃ y, t.page? p = some y ∧ y.recovering = false) ∧ ∀ h ∈ t.home.held, h.why ≠ .recovery p)
      ∧ (q.t0 ≠ .clean → s.tlGood p q = false → s.home.held = [] → Does (.pageRecovery p .none []) s fun t => ∃ y, t.page? p = some y ∧ y.recovering = false ∧ y.poison = upto 1024))
    ∧ (∀ line, exec (.scrub p line .clean) s = .next (s.memEvent (if q.t0 = .none then backLayer q else 1) 6 64 p)
      ∧ (s.rel.errors = [] → Does (.scrub p line .corrected) s fun t => ∃ e ∈ t.rel.errors, e.cls = 1 ∧ e.layer = (if q.t0 = .none then backLayer q else 1))
      ∧ (q.recovering = false → q.t0 = .none → Does (.scrub p line .uncorrectable) s fun t => ∃ y, t.page? p = some y ∧ y.recovering = true)
      ∧ (q.recovering = false → q.t0 = .clean → Does (.scrub p line .uncorrectable) s fun t =>
          ∃ y, t.page? p = some y ∧ { y with move := q.move } = { q with t0 := .none })
      ∧ (∀ rg, q.recovering = false → q.t0 = .dirty → s.regionOfRef p = some rg → rg.mirror = 0 → Does (.scrub p line .uncorrectable) s fun t =>
          ∃ y, t.page? p = some y ∧ line ∈ y.poison))

/-! ### Experts (11) -/

/-- Token batches (R223, R228 to R230, R429 to R463): a counted write is applied and counted, EXPERT_SET and LANE_ADD set up a descriptor and a lane and EXPERT_CLEAR and LANE_REMOVE take them away, DL_MARGIN
is set, SSD_ENTER and SSD_EXIT begin and end the mode, and a ready expert gets a core for its entries, whose end gives them their status and whose trailer ends the message. -/
def Obligations.TokenBatches : Prop :=
  (∀ (s : State) (q : LmfReq) (ck : Nat) (d : Bytes) (u : State) (rid : Nat) (rg : Region) (c : Counter), d.length = q.len →
    s.accesses (.countedWrite q ck d) q false true needW = some (u, rid, rg) → u.logFind (u.logKey q.dstEid q.srcEid q.ctx) q.lseq = none →
    Tab.get? u.home.counters (keyIdx ck) = some c → c.gen = keyGen ck → c.rid = rid → c.rgen = rg.gen → u.region? rid = some rg → rg.mirror = 0 → u.meetWrite rid rg .direct q.offset q.len = .clear → u.expert.lanes = [] →
      Completes (.countedWrite q ck d) s q .ok [] fun t => (u.pageHeld rg q.offset = true → t.shows rid .pub q.offset d)
        ∧ Tab.get? t.home.counters (keyIdx ck) = some { c with bytes := (c.bytes + q.len) % 2 ^ 64, pkts := (c.pkts + 1) % 2 ^ 32 }
        ∧ ∃ e, t.logFind (u.logKey q.dstEid q.srcEid q.ctx) q.lseq = some e ∧ e.st = .ok ∧ e.tomb = false)
  ∧ (∀ (s : State) (r : BciReq) (i : Issuer) (u : State),
    (∀ rid rg, s.ready (.expertSet r) { BciRow.o 0x70 3 with minor := some 2, resv := fun r => offResv r 2 } r = some (i, u) → u.opens r i (r.w 1) (r.d 2) 128 needR = some (rid, rg) →
      u.meetRead rid rg (.own i) (r.d 2) 128 = .clear → u.expert.ssd = none → u.expert.ssdHeld = [] →
      let d := wordsOf (u.readRange rg (.own i) (r.d 2) 128)
      descriptorOk d = true → u.ctxOk (dsCtx d) = true → (u.weightsOf d).isSome = true → Answers (.expertSet r) s r [] fun t =>
        t.expertOf (fld (wAt d 1) 15 0) = some d ∧ ∀ e, e ≠ fld (wAt d 1) 15 0 → t.expertOf e = u.expertOf e)
    ∧ (s.ready (.expertClear r) { BciRow.o 0x71 1 with minor := some 2, resv := fun r => above r 1 16 } r = some (i, u) → (u.expertOf (r.w 1)).isSome = true →
      Answers (.expertClear r) s r [] fun t => t.expertOf (r.w 1) = none ∧ ∀ m ∈ t.expert.msgs, ∀ e ∈ m.entries, e.expert = r.w 1 → e.st ≠ .queued)
    ∧ (∀ rid rg out og, s.ready (.laneAdd r) { BciRow.o 0x72 7 with
          minor := some 2, resv := fun r => bitAt (r.w 2) 7 || above r 2 19 || above r 3 18 || decide (fld (r.w 4) 15 12 ≠ 0) || above r 4 28 || offResv r 6 } r = some (i, u) →
      let slots := fld (r.w 2) 6 0
      let units := fld (r.w 2) 18 8
      let li := lowestFree (Tab.keys u.expert.lanes) 0
      u.live (u.reqHome r) (r.w 1) = some (rid, rg) → 1 ≤ slots → slots ≤ 64 → 1 ≤ units → units ≤ 1024 → slots * (units * 65536) = rg.size → u.ctxOk (fld (r.w 4) 27 16) = true →
      (∀ e ∈ u.expert.lanes, e.2.rid ≠ rid) → u.expert.lanes.length < 4096 → u.home.counters.length + slots ≤ 65536 → u.opens r i (r.w 5) (r.d 6) (4 * slots) needW = some (out, og) →
      u.meetWrite out og .direct (r.d 6) (4 * slots) = .clear → og.mirror = 0 → Answers (.laneAdd r) s r (one li) fun t =>
        ∃ l, Tab.get? t.expert.lanes li = some l ∧ l.rid = rid ∧ l.slots = slots ∧ l.slotBytes = units * 65536 ∧ l.eid = r.w 3 ∧ l.sctx = fld (r.w 4) 11 0 ∧ l.ctx = fld (r.w 4) 27 16
          ∧ l.ckeys.length = slots ∧ l.nextSeq = upto slots ∧ l.removing = none
          ∧ (r.d 6 / 65536 = (r.d 6 + 4 * slots - 1) / 65536 → u.pageHeld og (r.d 6) = true → t.shows out .pub (r.d 6) (l.ckeys.flatMap (natLE 4))))
    ∧ (s.ready (.laneRemove r) { BciRow.o 0x73 1 with minor := some 2, resv := fun r => above r 1 12 } r = some (i, u) → Tab.has u.expert.lanes (r.w 1) = true →
      (∀ e ∈ u.expert.lanes, e.2.removing = none) → u.laneBusy (r.w 1) = false → Answers (.laneRemove r) s r [] fun t =>
        Tab.get? t.expert.lanes (r.w 1) = none ∧ ∀ m ∈ t.expert.msgs, m.lane = r.w 1 → ∀ e ∈ m.entries, e.st ≠ .queued)
    ∧ (s.ready (.expertPolicySet r) { BciRow.o 0x74 1 with minor := some 2 } r = some (i, u) → r.w 1 ≤ 10000000 →
      exec (.expertPolicySet r) s = .next (State.respond { u with expert.dlMargin := r.w 1 } r .ok []))
    ∧ (s.ready (.ssdEnter r) { BciRow.o 0x75 1 with minor := some 3, resv := fun r => above r 1 12 } r = some (i, u) → u.expert.ssd = none → u.ctxOk (r.w 1) = true →
      let v := State.ssdSync { u with expert.ssd := some (r.w 1) }
      v.r121 ≤ r121Limit ∨ v.r121 ≤ u.r121 → Answers (.ssdEnter r) s r [] fun t => t.expert.ssd = some (r.w 1) ∧ ∀ e ∈ t.pow.doms, e.st = .on)
    ∧ (s.ready (.ssdExit r) { BciRow.o 0x76 0 with minor := some 3 } r = some (i, u) → u.expert.ssd.isSome = true → Answers (.ssdExit r) s r [] fun t =>
      t.expert.ssd = none ∧ t.expert.ssdHeld = []))
  ∧ (∀ s : State, s.runs = true →
    (∀ e d, s.expertOf e = some d → s.expertDue e d = true → e ∉ s.expert.ready → exec (.maxWaitExpiry e) s = .next { s with expert.ready := s.expert.ready ++ [e] })
    ∧ (∀ core e d x, (∀ m ∈ s.expert.msgs, s.now < hdDeadline m.words ∧ (m.released = true ∨ ∃ y ∈ m.entries, y.st = .queued)) → s.coreFree core = true → s.bci.phase ≠ .switching →
      chooseExpert s.readyExperts = some (e, d) → s.betterCore core (dsCtx d) e = false → (∀ b ∈ s.expert.batches, b.place ≠ .ready) → s.weightsOf d = some x →
      s.weightsAbsent d x.1 = none → Does (.microBatchDispatch core) s fun t =>
        (∃ b ∈ t.expert.batches, b.id = s.nextId ∧ b.expert = e ∧ b.desc = d ∧ b.core = core
          ∧ b.members = ((byDeadline (s.expertQueue e)).take (dsMax d)).map (fun y => (y.msg, y.idx))
          ∧ ∀ m ∈ t.expert.msgs, ∀ k y, m.entries[k]? = some y → (m.id, k) ∈ b.members → y.st = .copied b.id)
        ∧ (t.core core).st = (if (s.core core).st = .idle then .preparing else .waking))
    ∧ (∀ (b : MicroBatch) st, s.expert.batches.find? (fun x => decide (x.id = b.id)) = some b → b.fail = none → b.place = .core → (s.core b.core).st = .running →
      (∀ x ∈ b.members, x.1 < s.nextId) → (∀ h ∈ s.home.held, ∀ st, h.cmd ≠ .microBatchEnd b.id st) → ((s.overlay b.id b.pages).meetWeights b.desc).2.2 = .clear →
      Does (.microBatchEnd b.id st) s fun t => (∀ x ∈ t.expert.batches, x.id ≠ b.id)
        ∧ ∀ m ∈ t.expert.msgs, ∀ k y, m.entries[k]? = some y → (m.id, k) ∈ b.members → y.st = .done st)
    ∧ (∀ (m : ExpMsg) v, s.msg? m.id = some m → m.dead = false → m.trailerSent = false → m.ended = true → m.released = true → (∀ r < m.nRes, r ∈ m.rowsDone) → m.nRes ≤ m.rowsDone.length →
      s.rope.lines = [] → s.txnLive (fun w => decide (w = .expertRow m.id)) = false → s.mirroring (.batch m.id) = false →
      s.resultWrite m (.trailer m.id) (wAt m.words 10) (dAt m.words 6 + m.nRes * rowStride m.dIn (hdOut m.words)) (trailerBytes m s.now) = .ok v →
      (s.isOwn (hdEid m.words) = true → exec (.trailerWrite m.id) s = .next (v.dropMsg m.id))
      ∧ (s.isOwn (hdEid m.words) = false → exec (.trailerWrite m.id) s = .next (v.modMsg m.id (fun x => { x with trailerSent := true })))))

/-! ### Traverse (12) -/

/-- Queries (R465 to R473, R478 to R490): INDEX_CREATE makes an index and its shards, a shard home takes a shard, TRV_QUERY queues a query, its start takes the applied epoch, its vector and its shards, a walk returns what
the shard shows, the returns are merged with one entry for each ITEM, and the result block is written. -/
def Obligations.QueryCommands : Prop :=
  (∀ (s : State) (r : BciReq) (i : Issuer) (u : State),
    (∀ rid rg tid tree xid table, s.ready (.indexCreate r) { BciRow.o 0x80 3 with minor := some 0, resv := fun r => offResv r 2 } r = some (i, u) →
      u.opens r i (r.w 1) (r.d 2) 128 needR = some (rid, rg) → u.meetRead rid rg (.own i) (r.d 2) 128 = .clear →
      let ws := wordsOf (u.readRange rg (.own i) (r.d 2) 128)
      let v := u.readDone false rid (.own i) (r.d 2) 128
      let me := v.ixIssuer (ixCtx ws)
      let tb := v.readRange table (.own me) (dAt ws 8) (64 * ixShards ws)
      let d (n : Nat) : List Word := wordsOf ((tb.drop (64 * n)).take 64)
      let n := lowestFree (Tab.keys v.trav.indexes) 0
      indexOk ws = true → v.ctxOk (ixCtx ws) = true → v.permit v.lmf.eid (wAt ws 4) (dAt ws 5) 64 needEW me = some (tid, tree) → tree.mode ≠ .coherent →
      v.permit v.lmf.eid (wAt ws 7) (dAt ws 8) (64 * ixShards ws) needEW me = some (xid, table) → table.mode ≠ .coherent →
      v.meetRead xid table (.own me) (dAt ws 8) (64 * ixShards ws) = .clear → n < 256 → v.trav.shards.length + ixShards ws ≤ 4096 →
      (∀ k < ixShards ws, shardOk (d k) = true ∧ v.isOwn (wAt (d k) 0) = true ∧
        v.shardFits (wAt (d k) 0) (shardOf ws n k (v.ridOf (wAt (d k) 0) (wAt (d k) 1)) (d k)) me = some true) →
      Answers (.indexCreate r) s r (one n) fun t => t.index? n = some { words := ws, epoch := 0, applied := 0, destroying := false }
        ∧ ∀ k < ixShards ws, t.shard? n k = some (shardOf ws n k (v.ridOf (wAt (d k) 0) (wAt (d k) 1)) (d k)))
    ∧ (∀ v ws ix x rid rg, s.ready (.trvQuery r) { BciRow.f 0x82 3 with minor := some 0, resv := fun r => (match r.src with | .lmf _ => false | _ => offResv r 2) } r = some (i, u) →
      (match r.src with
        | .lmf _ => wAt r.words 2 = i.ctx ∧ v = u ∧ ws = ((r.words.drop 1).take 22 ++ List.replicate 32 0).take 32
        | _ => ∃ did dg, u.opens r i (r.w 1) (r.d 2) 128 needR = some (did, dg) ∧ u.meetRead did dg (.own i) (r.d 2) 128 = .clear
            ∧ v = u.readDone false did (.own i) (r.d 2) 128 ∧ ws = (wordsOf (u.readRange dg (.own i) (r.d 2) 128) ++ List.replicate 32 0).take 32) →
      queryOk ws = true → v.index? (fld (wAt ws 2) 7 0) = some ix → ix.destroying = false → ix.waits = none → (bitAt (wAt ws 0) 12 = true ∨ ixType ix.words ≠ 5) →
      v.permit v.lmf.eid (wAt ix.words 4) (dAt ix.words 5) 64 needE i = some x → v.permit v.lmf.eid (wAt ws 4) (dAt ws 5) (queryVecBytes ix.words ws) needR i = some (rid, rg) →
      (bitAt (wAt ws 0) 11 = true → (v.permit v.lmf.eid (wAt ws 16) (dAt ws 17) 0 needE i).isSome = true) → Answers (.trvQuery r) s r [] fun t =>
        ∃ q ∈ t.trav.queries, q.id = v.nextId ∧ q.words = ws ∧ q.eid = i.eid ∧ q.ctx = i.ctx ∧ q.started = false ∧ q.final = none))
  ∧ (∀ (s : State) (q : LmfReq) (index shard : Nat) (words : List Word) (u : State), s.taken (.shardRegister q index shard words) { q with key := 0 } true true = some u →
      let ws := words.take 32
      let d := (words.drop 32).take 16
      let h := shardOf ws index shard (u.ridOf q.dstEid (wAt d 1)) d
      indexOk ws = true → shardOk d = true → u.shardFits q.dstEid h (LmfIssuer q) = some true →
      u.trav.shards.length < 4096 → Completes (.shardRegister q index shard words) s q .ok [] fun t => t = { u with trav.shards := t.trav.shards }
        ∧ Tab.get? t.trav.shards (shKey q.srcEid index shard) = some h)
  ∧ (∀ (s : State) (q : Query), s.runs = true → s.query? q.id = some q →
    (∀ ix rid rg v beam rr, s.index? q.ix = some ix → s.noneInService 0x46 2 = false → q.started = false → q.final = none → q.beam = [] → q.reads = [] → s.home.held = [] →
      s.replay = none →
      let o := s.overlay q.id q.pages
      let off := dAt q.words 5
      let n := queryVecBytes ix.words q.words
      let vec := slotBytesOf ix.words (queryElems ix.words q.words (o.readRange rg (.own q.issuer) off n))
      let me := s.ixIssuer (ixCtx ix.words)
      capsRegion q.pages (wAt q.words 4) off = some rid → s.gateOf rid = none → o.region? rid = some rg → o.meetRead rid rg (.own q.issuer) off n = .clear →
      s.queryRead q ix = .ok v → v.gateOf (v.ridOf v.lmf.eid (wAt ix.words 4)) = none →
      runRd (routeVec ix.words vec (fld (wAt q.words 3) 27 22 + 1) (v.usedReader v.lmf.eid (wAt ix.words 4) needE me (.own me))) Reads.none = (.ok beam, rr) → beam ≠ [] →
      Does (.queryStart q.id) s fun t => ∃ x ∈ t.trav.queries, x.id = q.id ∧ x.started = true ∧ x.epoch = ix.applied ∧ x.startTime = s.now ∧ x.vec = vec ∧ x.beam = beam ∧ x.left = beam)
    ∧ (∀ shard h hs ev sk ex rr, s.shard? q.ix shard = some h → s.isOwn h.home = true → s.noneInService 0x46 2 = false → shard ∈ q.left → Tab.get? q.back shard = none → q.final = none →
      q.reads = [] → s.home.held = [] → s.gateOf (s.ridOf h.home h.key) = none →
      let i := s.ixIssuer h.ictx
      runRd (shardReturns h (s.usedReader h.home h.key needE i (.own i)) q.skip q.prefetch q.vec q.l q.epoch) Reads.none = (.ok (hs, ev, sk, ex), rr) → Does (.shardWalk q.id shard) s fun t =>
        ∃ x ∈ t.trav.queries, x.id = q.id ∧ Tab.get? x.back shard = some (.ok, hs) ∧ x.evals = q.evals + ev ∧ x.skips = q.skips + sk ∧ x.left = q.left)
    ∧ (∀ shard a l e k st hs, shard ∈ q.left → q.final = none → (Tab.get? q.back shard).getD (a, l) = (st, hs) → (st = .ok ∨ q.partialOk = true) →
      let got := (Tab.get? q.back shard).isSome
      (got = true ∨ ∀ h, s.shard? q.ix shard = some h → s.isOwn h.home = false) →
      let q' := { q with
        left := q.left.filter (fun n => decide (n ≠ shard)), back := Tab.erase q.back shard, hits := if st = .ok then q.hits ++ hs else q.hits
        evals := q.evals + (if got then 0 else e), skips := q.skips + (if got then 0 else k), fails := if st = .ok then q.fails else q.fails + 1 }
      let v := s.modQuery q.id (fun _ => q')
      exec (.shardWalkEnd q.id shard a { hits := l, evals := e, skips := k }) s = .next (if q'.left = [] then v.queryMerge q' else v))
    ∧ (∀ st rid rg, q.final = some st → s.payloadLacks q = [] → s.home.held = [] → s.rope.lines = [] → s.isOwn (fld (wAt q.words 10) 17 0) = true → wAt q.words 11 = 0 → q.pages = [] →
      let off := dAt q.words 8
      let data := resultBlock q st s.now
      s.permit (fld (wAt q.words 10) 17 0) (wAt q.words 7) off data.length needW q.issuer = some (rid, rg) → s.gate rid rg = none →
      s.meetWrite rid rg (.shadowed q.issuer) off data.length = .clear → Does (.payloadFetchEnd q.id) s fun t => (∀ x ∈ t.trav.queries, x.id ≠ q.id)
        ∧ (rg.mode ≠ .publish → off / 65536 = (off + data.length - 1) / 65536 → s.pageHeld rg off = true → t.shows rid .pub off data)))
  ∧ (∀ hs : List Hit, ((mergeHits hs).map Hit.item).Nodup ∧ (∀ h ∈ mergeHits hs, h ∈ hs) ∧ ∀ h ∈ hs, ∃ x ∈ mergeHits hs, x.item = h.item ∧ dkey x.dist ≤ dkey h.dist)

/-- Updates and MERGE (R491 to R505): an update takes the next index epoch and is appended to its shard's side list, a MERGE folds its records into the graph, linked records retire, slots are reclaimed, and
INDEX_DESTROY ends what waits. -/
def Obligations.IndexUpdates : Prop :=
  (∀ (s : State) (r : BciReq) (i : Issuer) (u : State) (ix : Index), u.index? (r.w 1) = some ix →
    (ix.destroying = false → ix.waits = none → ∀ x, u.permit u.lmf.eid (wAt ix.words 4) (dAt ix.words 5) 64 needW i = some x →
      let free (v : State) (n : Nat) : Prop := ∀ h, v.shard? (r.w 1) n = some h → h.tail - h.head + (v.waitingUpdates (r.w 1) n).length < h.slCap
      let took (t : State) (n item attr : Nat) (ins : Bool) (vec : Bytes) : Prop := (∃ y ∈ t.trav.updates, y.r = r ∧ y.index = r.w 1 ∧ y.shard = n ∧ y.epoch = ix.epoch + 1 ∧ y.ins = ins
        ∧ y.item = item ∧ y.attr = attr ∧ y.vec = vec ∧ y.appended = false) ∧ t.index? (r.w 1) = some { ix with epoch := ix.epoch + 1 }
      (∀ rid rg n rest rr, s.ready (.trvInsert r) { BciRow.f 0x83 9 with minor := some 0, resv := fun r => above r 1 8 || offResv r 7 } r = some (i, u) →
        u.logFind (u.issuerLog r i) (r.w 9) = none → u.gotSoFar = [] → u.opens r i (r.w 6) (r.d 7) (vecBytes ix.words) needR = some (rid, rg) →
        u.meetRead rid rg (.own i) (r.d 7) (vecBytes ix.words) = .clear →
        let vec := slotBytesOf ix.words (u.readRange rg (.own i) (r.d 7) (vecBytes ix.words))
        let v := u.readDone false rid (.own i) (r.d 7) (vecBytes ix.words)
        let me := v.ixIssuer (ixCtx ix.words)
        v.gateOf (v.ridOf v.lmf.eid (wAt ix.words 4)) = none →
        runRd (routeVec ix.words vec 1 (v.usedReader v.lmf.eid (wAt ix.words 4) needE me (.own me))) Reads.none = (.ok (n :: rest), rr) → free v n → Does (.trvInsert r) s fun t => took t n (r.d 2) (r.d 4) true vec)
      ∧ (s.ready (.trvDelete r) { BciRow.f 0x84 5 with minor := some 0, resv := fun r => above r 1 8 || above r 4 12 } r = some (i, u) → u.logFind (u.issuerLog r i) (r.w 5) = none →
        r.w 4 < ixShards ix.words → free u (r.w 4) → Does (.trvDelete r) s fun t => took t (r.w 4) (r.d 2) 0 false []))
    ∧ (∀ h, s.ready (.trvMerge r) { BciRow.o 0x85 2 with minor := some 0, resv := fun r => above r 1 8 || above r 2 12 } r = some (i, u) → u.shard? (r.w 1) (r.w 2) = some h →
      ix.destroying = false → ix.waits = none → h.merge = none → Answers (.trvMerge r) s r (one u.bci.nextOp) fun t =>
        t.shard? (r.w 1) (r.w 2) = some { h with merge := some u.bci.nextOp, mergeTo := ix.applied } ∧ t.home = u.home)
    ∧ (∀ h op, s.ready (.trvMergeCancel r) { BciRow.o 0x86 2 with minor := some 4, resv := fun r => above r 1 8 || above r 2 12 } r = some (i, u) → u.shard? (r.w 1) (r.w 2) = some h →
      h.merge = some op → Answers (.trvMergeCancel r) s r [] fun t => t.shard? (r.w 1) (r.w 2) = some { h with merge := none })
    ∧ (s.ready (.indexDestroy r) { BciRow.o 0x81 1 with minor := some 0, resv := fun r => above r 1 8 } r = some (i, u) → ix.destroying = false → ix.waits = none →
      Answers (.indexDestroy r) s r [] fun t => (∀ x ∈ t.trav.updates, x.index ≠ r.w 1)
        ∧ ((∀ q ∈ u.trav.queries, q.ix ≠ r.w 1) → t.index? (r.w 1) = none) ∧ ∀ y, t.index? (r.w 1) = some y → y.destroying = true))
  ∧ (∀ (s : State) (index shard : Nat) (h : Shard), s.runs = true → s.shard? index shard = some h → s.rope.lines = [] → s.home.held = [] →
    let i := s.ixIssuer h.ictx
    let rid := s.ridOf h.home h.key
    let read := s.usedReader h.home h.key needE i (.own i)
    (∀ (x : TrvUpdate), s.trav.updates.find? (fun y => decide (y.id = x.id)) = some x → x.index = index → x.shard = shard → x.appended = false →
      (∀ y ∈ s.waitingUpdates index shard, x.epoch ≤ y.epoch) →
      let appended : Prop := Does (.sideListAppend x.id) s fun t => ∃ y, t.shard? index shard = some y ∧ y.tail = h.tail + 1 ∧ y.head = h.head
      (∀ v, x.written = false → s.isOwn h.home = true → s.gateOf rid = none → s.putAll h (.batch x.id) [(h.sideAt h.tail, x.record h)] = .ok v → v.mirroring (.batch x.id) = false → appended)
      ∧ (x.written = false → s.isOwn h.home = false → Does (.sideListAppend x.id) s fun t => ∃ y ∈ t.trav.updates, y.id = x.id ∧ y.written = true)
      ∧ (x.written = true → s.mirroring (.batch x.id) = false → s.txnLive (fun w => decide (w = .append x.id)) = false → appended))
    ∧ (∀ op, h.merge = some op →
      let n := h.head + h.linkTimes.length
      let linked (t : State) : Prop := ∃ y, t.shard? index shard = some y ∧ y.merge = some op ∧ Tab.has y.linkTimes n = true ∧ y.tail = h.tail
      let ended : Prop := Does (.mergeRecord index shard) s fun t => t.shard? index shard = some { h with merge := none }
      (h.tail ≤ n → ended)
      ∧ (n < h.tail → s.isOwn h.home = false → s.txnLive (fun w => decide (w = .fold index shard)) = false →
        exec (.mergeRecord index shard) s = .next (s.sendTxn (.fold index shard) h.ictx h.home opFold h.key (h.sideAt n) 0 (natLE 8 h.mergeTo) true))
      ∧ (∀ x slot ws v rr, n < h.tail → s.isOwn h.home = true → s.gateOf rid = none → (s.usable h).head? = some slot →
        runRd (foldRecord h (some slot) n read) Reads.none = (.ok (some (x, ws)), rr) → x.op = 1 → (s.readsDone rid (.own i) Reads.none rr).putAll h (.batch 0) ws = .ok v →
        Does (.mergeRecord index shard) s fun t => linked t ∧ ∃ y, t.shard? index shard = some y ∧ y.count = max h.count (slot + 1) ∧ slot ∉ y.freeSlots.map Prod.fst)
      ∧ (∀ x ws v rr, n < h.tail → s.isOwn h.home = true → s.gateOf rid = none → runRd (foldRecord h (s.usable h).head? n read) Reads.none = (.ok (some (x, ws)), rr) → x.op ≠ 1 →
        (s.readsDone rid (.own i) Reads.none rr).putAll h (.batch 0) ws = .ok v → Does (.mergeRecord index shard) s linked)
      ∧ (∀ rr, n < h.tail → s.isOwn h.home = true → s.gateOf rid = none → runRd (foldRecord h (s.usable h).head? n read) Reads.none = (.ok none, rr) → ended))
    ∧ (∀ k, Tab.get? h.linkTimes h.head = some k → (∀ q ∈ s.trav.queries, q.ix = index → q.started = true → k ≤ q.startNo) →
      exec (.recordRetire index shard h.head) s = .next (s.setShard index shard { h with head := h.head + 1, linkTimes := Tab.erase h.linkTimes h.head }))
    ∧ (∀ n op del ws v rr, h.merge = some op → n < h.count → n ∉ h.freeSlots.map Prod.fst → n ≠ h.entry → s.isOwn h.home = true → s.gateOf rid = none →
      runRd (reclaimSlot h n read) Reads.none = (.ok (del, ws), rr) → del ≠ 2 ^ 64 - 1 → (∀ q ∈ s.trav.queries, q.ix = index → q.started = true → del ≤ q.epoch) →
      (s.readsDone rid (.own i) Reads.none rr).putAll h (.batch 0) ws = .ok v →
      Does (.slotReclaim index shard n) s fun t => t.shard? index shard = some { h with freeSlots := h.freeSlots ++ [(n, v.walking index shard)] }))

/-! ### Moraine (13) -/

/-- Embedding tables and batches (R506 to R543): EMB_TABLE_CREATE makes a table, MOR_BATCH queues a batch, a free unit takes it with the table's descriptor and generation, a gather writes the rows that the pooling gives and a
scatter adds to the stored rows, EMB_SWAP installs a new descriptor once the batches of the old one have ended, and EMB_TABLE_DESTROY ends the table. -/
def Obligations.EmbeddingCommands : Prop :=
  (∀ (s : State) (r : BciReq) (i : Issuer) (u : State),
    (∀ rid rg, u.opens r i (r.w 1) (r.d 2) 128 needR = some (rid, rg) → u.meetRead rid rg (.own i) (r.d 2) 128 = .clear →
      let ws := wordsOf (u.readRange rg (.own i) (r.d 2) 128)
      let n := lowestFree (Tab.keys u.mor.tables) 0
      s.ready (.embTableCreate r) { BciRow.o 0x90 3 with minor := some 0, resv := fun r => offResv r 2 } r = some (i, u) → u.tableCheck ws = none → n < 1024 →
      Answers (.embTableCreate r) s r (one n) fun t => Tab.get? t.mor.tables n = some { words := ws, tgen := 1, paused := false, next := [], swapOp := 0, drain := [], drained := 0 }
        ∧ ∀ k, k ≠ n → Tab.get? t.mor.tables k = Tab.get? u.mor.tables k)
    ∧ (∀ v ws (x : EmbTable) a rid rg, s.ready (.morBatch r) { BciRow.f 0x92 3 with minor := some 0, resv := fun r => (match r.src with | .lmf _ => false | _ => offResv r 2) } r = some (i, u) →
      (match r.src with
        | .lmf _ => wAt r.words 6 = i.ctx ∧ v = u ∧ ws = ((r.words.drop 1).take 18 ++ List.replicate 32 0).take 32
        | _ => ∃ did dg, u.opens r i (r.w 1) (r.d 2) 128 needR = some (did, dg) ∧ u.meetRead did dg (.own i) (r.d 2) 128 = .clear
            ∧ v = u.readDone false did (.own i) (r.d 2) 128 ∧ ws = (wordsOf (u.readRange dg (.own i) (r.d 2) 128) ++ List.replicate 32 0).take 32) →
      batchOk ws = true → Tab.get? v.mor.tables (mbTable ws) = some x → (x.paused = true → bitAt (wAt ws 0) 12 = false) →
      v.withRight (etKey x.words) (if mbScatter ws then needW else needE) i = some a → v.permit v.lmf.eid (wAt ws 6) (dAt ws 7) (mbParts ws (etDim x.words)).2.2.2 needR i = some (rid, rg) →
      (mbScatter ws = true → v.logFind (v.issuerLog r i) (wAt ws 17) = none ∧ v.mor.batches = []) → Answers (.morBatch r) s r [] fun t =>
        ∃ b ∈ t.mor.batches, b.id = v.nextId ∧ b.words = ws ∧ b.eid = i.eid ∧ b.ctx = i.ctx ∧ b.running = none ∧ b.start = 0 ∧ b.final = none)
    ∧ (∀ x : EmbTable, s.ready (.embTableDestroy r) { BciRow.o 0x91 1 with minor := some 0, resv := fun r => above r 1 10 } r = some (i, u) → Tab.get? u.mor.tables (r.w 1) = some x →
      Answers (.embTableDestroy r) s r [] fun t => Tab.get? t.mor.tables (r.w 1) = none)
    ∧ (∀ rid rg (x : EmbTable), u.opens r i (r.w 2) (r.d 3) 128 needR = some (rid, rg) → u.meetRead rid rg (.own i) (r.d 3) 128 = .clear →
      let ws := wordsOf (u.readRange rg (.own i) (r.d 3) 128)
      s.ready (.embSwap r) { BciRow.o 0x93 4 with minor := some 4, resv := fun r => above r 1 10 || offResv r 3 } r = some (i, u) → u.tableCheck ws = none →
      Tab.get? u.mor.tables (r.w 1) = some x → x.paused = false → Answers (.embSwap r) s r (one u.bci.nextOp) fun t => ∃ y, Tab.get? t.mor.tables (r.w 1) = some y
        ∧ ((∀ b ∈ u.mor.batches, mbTable b.words ≠ r.w 1) → y.words = ws ∧ y.tgen = nextGen x.tgen ∧ y.paused = false)
        ∧ ((∃ b ∈ u.mor.batches, mbTable b.words = r.w 1) → y.words = x.words ∧ y.tgen = x.tgen ∧ y.paused = true ∧ y.next = ws)))
  ∧ (∀ (s : State) (b : Batch) (mu : Nat), s.runs = true → mu < 4 →
    (∀ x, s.batch? b.id = some b → s.batchHeld b.id = false → s.replay = none → b.final = none → b.fail = none → b.running = none → (∀ y ∈ s.mor.batches, y.running ≠ some mu) → (s.unit (morUnit mu)).quarantined = false →
      (s.unit (morUnit mu)).asked = false → s.batchBehind b = false → Tab.get? s.mor.tables (mbTable b.words) = some x →
      (b.start = 0 → (x.paused = true → b.id ∈ x.drain) → (wAt b.words 2 = 0 ∨ wAt b.words 2 = x.tgen) → Does (.batchStart mu b.id) s fun t =>
        ∃ y ∈ t.mor.batches, y.id = b.id ∧ y.running = some mu ∧ y.start = s.now ∧ y.table = x.words ∧ y.tgen = x.tgen)
      ∧ (b.start = 0 → x.paused = true → b.id ∉ x.drain → exec (.batchStart mu b.id) s = .next s)
      ∧ (b.start ≠ 0 → exec (.batchStart mu b.id) s = .next (s.modBatch b.id (fun y => { y with running := some mu, unit := morUnit mu }))))
    ∧ (s.mor.batches.find? (fun y => decide (y.running = some mu)) = some b → s.batch? b.id = some b → b.final = none → b.work = .fetch → b.reads = Reads.none →
      let dim := etDim b.table
      (∀ rid rg, b.input = none →
        let o := s.overlay b.id b.pages
        let off := dAt b.words 7
        let n := (mbParts b.words dim).2.2.2
        capsRegion b.pages (wAt b.words 6) off = some rid → o.region? rid = some rg → o.gate rid rg = none → o.meetRead rid rg (.own b.issuer) off n = .clear →
        let v := (o.readDone false rid (.own b.issuer) off n).restore (s.remapped b.id b.pages)
        exec (.batchEnd mu) s = exec (.batchEnd mu)
          { v.modBatch b.id (fun y => { y with input := some (v.freeCtr, o.readRange rg (.own b.issuer) off n) }) with freeCtr := v.freeCtr + 1 })
      ∧ (∀ k bs fs rr, b.input = some (k, bs) →
        let me := s.etIssuer b.table
        let rid := s.ridOf s.lmf.eid (etKey b.table)
        let scatter := mbScatter b.words
        let view : View := if scatter then .pub else .own me
        let inp := inputOf b.words dim k bs
        s.gateOf rid = none → runRd (fetchAll b.table (s.usedReader s.lmf.eid (etKey b.table) needR me view) inp.idx) Reads.none = (.ok fs, rr) → (∀ f ∈ fs, ∀ x y, f ≠ .poison x y) →
        let v := s.readsDone rid view Reads.none rr
        let counts := [(dedupCounts fs).1, (dedupCounts fs).2, (inp.bags.flatten.filter (fun j => decide (fs.getD j .oob = .oob))).length, 0]
        let rows := (gatherRows v.freeCtr b.words b.table inp fs).zipIdx.map (fun x => (dAt b.words 10 + x.2 * mbStride b.words dim, x.1))
        let ts := scatterTargets b.words b.table inp fs
        let plan (y : Batch) : Batch := { y with counts := counts, work := if scatter then .adds ts else .rows rows, st := .ok, reads := Reads.none }
        let w : State := { v.modBatch b.id plan with freeCtr := v.freeCtr + if scatter then 0 else inp.bags.length * dim }
        let z := ((w.event (morUnit mu) 2 fs.length (s.ownCtx b.eid b.ctx)).event (morUnit mu) 3 (dedupCounts fs).1 (s.ownCtx b.eid b.ctx)).event (morUnit mu) 4 (dedupCounts fs).2 (s.ownCtx b.eid b.ctx)
        (∀ a, scatter = false → s.isOwn b.outEid = true → z.rowsOwn (plan b) rows = (a, [], none) →
          exec (.batchEnd mu) s = .next ((a.modBatch b.id (fun y => { y with work := .rows [] })).batchFinish b.id .ok counts))
        ∧ (∀ a, scatter = true → z.rowsAdd (plan b) me ts 0 0 = (a, [], none, ts.length, 0) →
          exec (.batchEnd mu) s = .next (((a.event (morUnit mu) 5 ts.length (s.ownCtx b.eid b.ctx)).modBatch b.id (fun y =>
            { y with work := .adds [], counts := counts, st := .ok })).batchFinish b.id .ok counts)))))

/-! ### Frames -/

/-- What loads and stores leave of memory (R73, R75, R187 to R190, R223): a read changes no byte of any version of any page and no region; a store outside publish mode changes the bytes it
stores, of the page that its address computes to, and in publish mode no published byte and no other writer's shadow page; an atomic changes its bytes of
one page, in the versions R223 names. -/
def Obligations.MemoryFrames : Prop :=
  ∀ s : State,
    (∀ q u rid rg, s.accesses (.lmfLoad q) q false false needR = some (u, rid, rg) → u.meetRead rid rg (.own (LmfIssuer q)) q.offset q.len = .clear →
      Does (.lmfLoad q) s fun t => u.KeepsBytes t 0 0 0 (fun _ _ => false) ∧ t.home.regions = u.home.regions)
    ∧ (∀ q d u rid rg, d.length = q.len → s.accesses (.lmfStore q d) q false true needW = some (u, rid, rg) → u.Fresh →
      u.meetWrite rid rg (.shadowed (LmfIssuer q)) q.offset q.len = .clear →
      (rg.mode ≠ .publish → Does (.lmfStore q d) s fun t =>
        u.KeepsBytes t (u.pageFor rg q.offset) (q.offset % 65536) (q.offset % 65536 + q.len) (fun _ _ => false))
      ∧ (rg.mode = .publish → Does (.lmfStore q d) s fun t => u.KeepsBytes t 0 0 0 (fun e c => decide (e = q.srcEid ∧ c = q.ctx))))
    ∧ (∀ p hpa, s.runs = true →
      let u := s.stir
      ∀ n w off rid rg, u.windowAt p hpa = some (n, w, off) → u.ctxIs w.ctx .resetting = false → u.gate rid rg = none →
      let i := u.windowIssuer w
      let line := off - off % 64
      (u.permit u.lmf.eid w.key line 64 needR i = some (rid, rg) → u.meetRead rid rg (.own i) line 64 = .clear → Does (.cxlMemRead p hpa) s fun t =>
        u.KeepsBytes t 0 0 0 (fun _ _ => false) ∧ t.home.regions = u.home.regions)
      ∧ (∀ d, d.length ≤ 64 - hpa % 64 → u.lineQueued p hpa = false → u.permit u.lmf.eid w.key off d.length needW i = some (rid, rg) → u.Fresh →
        u.meetWrite rid rg (.shadowed i) off d.length = .clear → off / 65536 = (off + d.length - 1) / 65536 →
        (rg.mode ≠ .publish → Does (.cxlMemWrite p hpa d false) s fun t => u.KeepsBytes t (u.pageFor rg off) (off % 65536) (off % 65536 + d.length) (fun _ _ => false))
        ∧ (rg.mode = .publish → Does (.cxlMemWrite p hpa d false) s fun t => u.KeepsBytes t 0 0 0 (fun e c => decide (e = i.eid ∧ c = i.ctx)))))
    ∧ (∀ r i u rid rg, s.ready (.atomic r) { BciRow.f 80 13 with dl := true, resv := fun r => offResv r 2 || above r 4 13 } r = some (i, u) → r.dl = false →
      let w := fld (r.w 4) 12 8
      u.logFind (u.issuerLog r i) (r.w 5) = none → atomicOk (fld (r.w 4) 7 0) w (r.d 2) = true → u.opens r i (r.w 1) (r.d 2) w needA = some (rid, rg) → rg.mode ≠ .coherent →
      rg.mirror = 0 → u.meetWrite rid rg .direct (r.d 2) w = .clear → u.Fresh → ∃ ws, Answers (.atomic r) s r ws fun t =>
        u.KeepsBytes t (u.pageFor rg (r.d 2)) (r.d 2 % 65536) (r.d 2 % 65536 + w) (fun _ _ => true))

/-- What events leave of the machine: one of the time unit changes fabric time's own state, and by it at most that the controller asks to join (R708); a request of an SPDM requester
before its session changes what has been agreed with the peers (R775 to R778); a write of a message register or of EN, and the boundary of EN, change the functions' windows (R594, R608); the entry of a domain into sleep changes
the domains alone (R690). -/
def Obligations.EventFrames : Prop :=
  ∀ (c : Instr) (s t : State), exec c s = .next t →
    (timeEvent c = true → t = { s with time := t.time, sec := { s.sec with joinAsked := t.sec.joinAsked }, out := t.out, freeCtr := t.freeCtr })
    ∧ (spdmRequest c = true → t = { s with sec := { s.sec with peers := t.sec.peers }, out := t.out, nextId := t.nextId })
    ∧ (windowEvent c = true → t = { s with host := { s.host with fns := t.host.fns }, out := t.out })
    ∧ (∀ d, c = .gateTimeout d ∨ c = .offTimeout d → t = { s with pow := { s.pow with doms := t.pow.doms } } ∧ ∀ e ∈ t.pow.doms, e ∈ s.pow.doms ∨ e.dom = d)
end

