-- ==== Sys2Proof/Laws/Table.lean ====
section
/-! SUPPORT. Laws of keyed tables, of byte strings, and of addressed memory. -/

namespace Sys2Proof

/-! ### Tables -/

@[simp] theorem Tab.get?_set_self {α : Type} (t : Tab α) (k : Nat) (v : α) : Tab.get? (Tab.set t k v) k = some v := by
  induction t with
  | nil => simp [Tab.set, Tab.get?]
  | cons e t ih =>
    obtain ⟨j, w⟩ := e
    simp only [Tab.set]
    split
    · simp [Tab.get?]
    · split
      · simp [Tab.get?]
      · rename_i h
        simp [Tab.get?, h, ih]

theorem Tab.get?_set_ne {α : Type} (t : Tab α) {k j : Nat} (v : α) (h : j ≠ k) : Tab.get? (Tab.set t k v) j = Tab.get? t j := by
  induction t with
  | nil => simp [Tab.set, Tab.get?, Ne.symm h]
  | cons e t ih =>
    obtain ⟨i, w⟩ := e
    simp only [Tab.set]
    split
    · simp [Tab.get?, Ne.symm h]
    · split
      · subst_vars
        simp [Tab.get?, Ne.symm h]
      · simp [Tab.get?, ih]

theorem Tab.get?_set {α : Type} (t : Tab α) (k j : Nat) (v : α) : Tab.get? (Tab.set t k v) j = if j = k then some v else Tab.get? t j := by
  split
  · subst_vars
    simp
  · exact Tab.get?_set_ne t v ‹_›

@[simp] theorem Tab.get?_erase_self {α : Type} (t : Tab α) (k : Nat) : Tab.get? (Tab.erase t k) k = none := by
  induction t with
  | nil => rfl
  | cons e t ih =>
    obtain ⟨j, w⟩ := e
    simp only [Tab.erase]
    split
    · exact ih
    · rename_i h
      simp [Tab.get?, h, ih]

theorem Tab.get?_erase_ne {α : Type} (t : Tab α) {k j : Nat} (h : j ≠ k) : Tab.get? (Tab.erase t k) j = Tab.get? t j := by
  induction t with
  | nil => rfl
  | cons e t ih =>
    obtain ⟨i, w⟩ := e
    simp only [Tab.erase]
    split
    · subst_vars
      simp [Tab.get?, Ne.symm h, ih]
    · simp [Tab.get?, ih]

theorem Tab.get?_erase {α : Type} (t : Tab α) (k j : Nat) : Tab.get? (Tab.erase t k) j = if j = k then none else Tab.get? t j := by
  split
  · subst_vars
    simp
  · exact Tab.get?_erase_ne t ‹_›

theorem Tab.get?_modify {α : Type} (t : Tab α) (k j : Nat) (f : α → α) :
    Tab.get? (Tab.modify t k f) j = if j = k then (Tab.get? t j).map f else Tab.get? t j := by
  unfold Tab.modify
  split
  · rename_i v h
    rw [Tab.get?_set]
    split
    · subst_vars
      simp [h]
    · rfl
  · rename_i h
    split
    · subst_vars
      simp [h]
    · rfl

@[simp] theorem Tab.getD_set_self {α : Type} (t : Tab α) (k : Nat) (v d : α) : Tab.getD (Tab.set t k v) k d = v := by
  simp [Tab.getD]

theorem Tab.getD_set_ne {α : Type} (t : Tab α) {k j : Nat} (v d : α) (h : j ≠ k) : Tab.getD (Tab.set t k v) j d = Tab.getD t j d := by
  simp [Tab.getD, Tab.get?_set_ne t v h]

@[simp] theorem Tab.getD_erase_self {α : Type} (t : Tab α) (k : Nat) (d : α) : Tab.getD (Tab.erase t k) k d = d := by
  simp [Tab.getD]

theorem Tab.getD_erase_ne {α : Type} (t : Tab α) {k j : Nat} (d : α) (h : j ≠ k) : Tab.getD (Tab.erase t k) j d = Tab.getD t j d := by
  simp [Tab.getD, Tab.get?_erase_ne t h]

@[simp] theorem Tab.has_set_self {α : Type} (t : Tab α) (k : Nat) (v : α) : Tab.has (Tab.set t k v) k = true := by simp [Tab.has]

theorem Tab.get?_mem {α : Type} {t : Tab α} {k : Nat} {v : α} (h : Tab.get? t k = some v) : (k, v) ∈ t := by
  induction t with
  | nil => simp [Tab.get?] at h
  | cons e t ih =>
    obtain ⟨j, w⟩ := e
    simp only [Tab.get?] at h
    split at h
    · simp_all
    · exact List.mem_cons_of_mem _ (ih h)

/-- An entry put into a table is the new one or one that was there. -/
theorem Tab.mem_set {α : Type} {t : Tab α} {k : Nat} {v : α} {e : Nat × α} (h : e ∈ Tab.set t k v) : e = (k, v) ∨ e ∈ t := by
  induction t with
  | nil => simpa [Tab.set] using h
  | cons x t ih =>
    obtain ⟨j, w⟩ := x
    simp only [Tab.set] at h
    split at h
    · simp_all
    · split at h
      · simp_all
        tauto
      · simp only [List.mem_cons] at h ⊢
        rcases h with h | h
        · exact .inr (.inl h)
        · exact (ih h).imp id .inr

/-- Erasing leaves only entries that were there, none of the key. -/
theorem Tab.mem_erase {α : Type} {t : Tab α} {k : Nat} {e : Nat × α} (h : e ∈ Tab.erase t k) : e ∈ t ∧ e.1 ≠ k := by
  induction t with
  | nil => simp [Tab.erase] at h
  | cons x t ih =>
    obtain ⟨j, w⟩ := x
    simp only [Tab.erase] at h
    split at h
    · exact ⟨List.mem_cons_of_mem _ (ih h).1, (ih h).2⟩
    · simp only [List.mem_cons] at h
      rcases h with h | h
      · subst h
        exact ⟨by simp, by assumption⟩
      · exact ⟨List.mem_cons_of_mem _ (ih h).1, (ih h).2⟩

/-- Rising keys, in the library's words. -/
theorem Tab.sorted_iff {α : Type} (t : Tab α) : Tab.sorted t = true ↔ t.Pairwise (fun a b => a.1 < b.1) := by
  induction t with
  | nil => simp [Tab.sorted]
  | cons e t ih =>
    obtain ⟨j, v⟩ := e
    cases t with
    | nil => simp [Tab.sorted]
    | cons f t =>
      obtain ⟨k, w⟩ := f
      simp only [Tab.sorted, Bool.and_eq_true, decide_eq_true_eq, ih, List.pairwise_cons]
      constructor
      · rintro ⟨h, hk, ht⟩
        refine ⟨?_, hk, ht⟩
        intro a ha
        rcases List.mem_cons.1 ha with rfl | ha
        · exact h
        · exact Nat.lt_trans h (hk a ha)
      · rintro ⟨h, hk, ht⟩
        exact ⟨h (k, w) (by simp), hk, ht⟩

theorem Tab.sorted_set {α : Type} {t : Tab α} (k : Nat) (v : α) (h : Tab.sorted t = true) : Tab.sorted (Tab.set t k v) = true := by
  rw [Tab.sorted_iff] at *
  induction t with
  | nil => simp [Tab.set]
  | cons e t ih =>
    obtain ⟨j, w⟩ := e
    obtain ⟨h1, h2⟩ := List.pairwise_cons.1 h
    simp only [Tab.set]
    split
    · rename_i hk
      refine List.pairwise_cons.2 ⟨?_, h⟩
      intro a ha
      rcases List.mem_cons.1 ha with rfl | ha
      · exact hk
      · exact Nat.lt_trans hk (h1 a ha)
    · split
      · subst_vars
        exact List.pairwise_cons.2 ⟨h1, h2⟩
      · refine List.pairwise_cons.2 ⟨?_, ih h2⟩
        intro a ha
        rcases Tab.mem_set ha with rfl | ha
        · simp only
          omega
        · exact h1 a ha

theorem Tab.sorted_erase {α : Type} {t : Tab α} (k : Nat) (h : Tab.sorted t = true) : Tab.sorted (Tab.erase t k) = true := by
  rw [Tab.sorted_iff] at *
  induction t with
  | nil => simp [Tab.erase]
  | cons e t ih =>
    obtain ⟨j, w⟩ := e
    obtain ⟨h1, h2⟩ := List.pairwise_cons.1 h
    simp only [Tab.erase]
    split
    · exact ih h2
    · exact List.pairwise_cons.2 ⟨fun a ha => h1 a (Tab.mem_erase ha).1, ih h2⟩

/-! ### Byte strings -/

@[simp] theorem natLE_length (n v : Nat) : (natLE n v).length = n := by
  induction n generalizing v with
  | zero => rfl
  | succ n ih => simp [natLE, ih]

/-- A number written in `n` bytes reads back modulo their width. -/
theorem leNat_natLE (n v : Nat) : leNat (natLE n v) = v % 256 ^ n := by
  induction n generalizing v with
  | zero => simp [natLE, leNat, Nat.mod_one]
  | succ n ih =>
    have h : v % 256 ^ (n + 1) = v % 256 + 256 * (v / 256 % 256 ^ n) := by rw [Nat.pow_succ', Nat.mod_mul]
    rw [natLE, leNat, ih, BitVec.toNat_ofNat, h]

theorem leNat_lt (b : Bytes) : leNat b < 256 ^ b.length := by
  induction b with
  | nil => simp [leNat]
  | cons a t ih =>
    have := a.isLt
    simp only [leNat, List.length_cons, Nat.pow_succ]
    omega

/-- A byte string is written back as it was read. -/
theorem natLE_leNat (b : Bytes) : natLE b.length (leNat b) = b := by
  induction b with
  | nil => rfl
  | cons a t ih =>
    have := a.isLt
    have h : (a.toNat + 256 * leNat t) / 256 = leNat t := by omega
    simp only [List.length_cons, natLE, leNat, h, ih]
    congr 1
    apply BitVec.eq_of_toNat_eq
    simp
    omega

/-! ### Addressed memory -/

theorem Mem.read_write (m : Mem) (a c : Nat) (b : Byte) : Mem.read (Mem.write m a b) c = if c = a then b else Mem.read m c := by
  unfold Mem.read Mem.write Tab.getD
  split
  · rw [Tab.get?_erase]
    split <;> simp_all
  · rw [Tab.get?_set]
    split <;> simp_all

@[simp] theorem Mem.read_write_self (m : Mem) (a : Nat) (b : Byte) : Mem.read (Mem.write m a b) a = b := by simp [Mem.read_write]

theorem Mem.read_write_ne (m : Mem) {a c : Nat} (b : Byte) (h : c ≠ a) : Mem.read (Mem.write m a b) c = Mem.read m c := by
  simp [Mem.read_write, h]

/-- A byte string written shows at its addresses; every other address is as before. -/
theorem Mem.read_writeN (m : Mem) (a c : Nat) (bs : Bytes) :
    Mem.read (Mem.writeN m a bs) c = if a ≤ c ∧ c < a + bs.length then bs.getD (c - a) 0 else Mem.read m c := by
  induction bs generalizing m a with
  | nil =>
    rw [if_neg (by simp), Mem.writeN]
  | cons b bs ih =>
    simp only [Mem.writeN, ih, Mem.read_write, List.length_cons]
    by_cases h : c = a
    · subst h
      simp
    · by_cases h1 : a + 1 ≤ c ∧ c < a + 1 + bs.length
      · have h2 : a ≤ c ∧ c < a + (bs.length + 1) := by omega
        have h3 : c - a = (c - (a + 1)) + 1 := by omega
        simp [h1, h2, h3]
      · have h2 : ¬ (a ≤ c ∧ c < a + (bs.length + 1)) := by omega
        rw [if_neg h1, if_neg h2, if_neg h]

theorem Mem.read_writeN_outside (m : Mem) {a c : Nat} (bs : Bytes) (h : c < a ∨ a + bs.length ≤ c) :
    Mem.read (Mem.writeN m a bs) c = Mem.read m c := by
  rw [Mem.read_writeN, if_neg (by omega)]

@[simp] theorem Mem.readN_length (m : Mem) (a n : Nat) : (Mem.readN m a n).length = n := by
  induction n generalizing a with
  | zero => rfl
  | succ n ih => simp [Mem.readN, ih]

theorem Mem.readN_get (m : Mem) (a n i : Nat) (h : i < n) : (Mem.readN m a n)[i]? = some (Mem.read m (a + i)) := by
  induction n generalizing a i with
  | zero => omega
  | succ n ih =>
    cases i with
    | zero => simp [Mem.readN]
    | succ i =>
      simp only [Mem.readN, List.getElem?_cons_succ]
      rw [ih (a + 1) i (by omega)]
      congr 2
      omega

/-- Two memories that agree on a range read alike there. -/
theorem Mem.readN_congr {m k : Mem} {a n : Nat} (h : ∀ c, a ≤ c → c < a + n → Mem.read m c = Mem.read k c) : Mem.readN m a n = Mem.readN k a n := by
  induction n generalizing a with
  | zero => rfl
  | succ n ih =>
    simp only [Mem.readN]
    rw [h a (by omega) (by omega), ih (fun c h1 h2 => h c (by omega) (by omega))]

/-- What is written reads back. -/
@[simp] theorem Mem.readN_writeN_self (m : Mem) (a : Nat) (bs : Bytes) : Mem.readN (Mem.writeN m a bs) a bs.length = bs := by
  apply List.ext_getElem?
  intro i
  by_cases h : i < bs.length
  · rw [Mem.readN_get _ _ _ _ h, Mem.read_writeN, if_pos (by omega)]
    simp [h]
  · rw [List.getElem?_eq_none (by simp; omega), List.getElem?_eq_none (by omega)]

theorem Mem.readN_writeN_outside (m : Mem) {a c n : Nat} (bs : Bytes) (h : c + n ≤ a ∨ a + bs.length ≤ c) :
    Mem.readN (Mem.writeN m a bs) c n = Mem.readN m c n :=
  Mem.readN_congr (fun d h1 h2 => Mem.read_writeN_outside m bs (by omega))

/-- Every memory operation keeps the canonical form. -/
theorem Mem.wf_write {m : Mem} (a : Nat) (b : Byte) (h : Mem.wf m = true) : Mem.wf (Mem.write m a b) = true := by
  simp only [Mem.wf, Bool.and_eq_true, List.all_eq_true, decide_eq_true_eq] at *
  unfold Mem.write
  split
  · exact ⟨Tab.sorted_erase a h.1, fun e he => h.2 e (Tab.mem_erase he).1⟩
  · refine ⟨Tab.sorted_set a b h.1, fun e he => ?_⟩
    rcases Tab.mem_set he with rfl | he
    · assumption
    · exact h.2 e he

theorem Mem.wf_writeN {m : Mem} (a : Nat) (bs : Bytes) (h : Mem.wf m = true) : Mem.wf (Mem.writeN m a bs) = true := by
  induction bs generalizing m a with
  | nil => exact h
  | cons b bs ih => exact ih (a + 1) (Mem.wf_write a b h)

@[simp] theorem Mem.wf_nil : Mem.wf [] = true := rfl

/-- Canonical memories that read alike are equal. -/
theorem Mem.ext {m k : Mem} (hm : Mem.wf m = true) (hk : Mem.wf k = true) (h : ∀ a, Mem.read m a = Mem.read k a) : m = k := by
  have low : ∀ (t : Mem) a, (∀ e ∈ t, a < e.1) → Mem.read t a = 0 := by
    intro t a ht
    induction t with
    | nil => rfl
    | cons e t ih =>
      have h1 := ht e (by simp)
      have h2 : e.1 ≠ a := by omega
      have h3 := ih (fun x hx => ht x (List.mem_cons_of_mem _ hx))
      simp only [Mem.read, Tab.getD, Tab.get?, h2, if_false] at *
      exact h3
  simp only [Mem.wf, Bool.and_eq_true, List.all_eq_true, decide_eq_true_eq, Tab.sorted_iff] at hm hk
  induction m generalizing k with
  | nil =>
    cases k with
    | nil => rfl
    | cons f k =>
      have h1 := h f.1
      simp [Mem.read, Tab.getD, Tab.get?] at h1
      exact absurd h1.symm (hk.2 f (by simp))
  | cons e m ih =>
    obtain ⟨hm1, hm2⟩ := List.pairwise_cons.1 hm.1
    cases k with
    | nil =>
      have h1 := h e.1
      simp [Mem.read, Tab.getD, Tab.get?] at h1
      exact absurd h1 (hm.2 e (by simp))
    | cons f k =>
      obtain ⟨hk1, hk2⟩ := List.pairwise_cons.1 hk.1
      have hef : e.1 = f.1 := by
        rcases Nat.lt_trichotomy e.1 f.1 with hl | hl | hl
        · have h1 := h e.1
          rw [low (f :: k) e.1 (by
            intro x hx
            rcases List.mem_cons.1 hx with rfl | hx
            · exact hl
            · exact Nat.lt_trans hl (hk1 x hx))] at h1
          simp [Mem.read, Tab.getD, Tab.get?] at h1
          exact absurd h1 (hm.2 e (by simp))
        · exact hl
        · have h1 := h f.1
          rw [low (e :: m) f.1 (by
            intro x hx
            rcases List.mem_cons.1 hx with rfl | hx
            · exact hl
            · exact Nat.lt_trans hl (hm1 x hx))] at h1
          simp [Mem.read, Tab.getD, Tab.get?] at h1
          exact absurd h1.symm (hk.2 f (by simp))
      have hv : e.2 = f.2 := by
        have h1 := h e.1
        simpa [Mem.read, Tab.getD, Tab.get?, hef] using h1
      have hrest : m = k := by
        apply ih
        · intro a
          by_cases ha : e.1 = a
          · subst ha
            rw [low m e.1 hm1, low k e.1 (fun x hx => by rw [hef]; exact hk1 x hx)]
          · have h1 := h a
            have ha' : f.1 ≠ a := by rw [← hef]; exact ha
            simpa [Mem.read, Tab.getD, Tab.get?, ha, ha'] using h1
        · exact ⟨hm2, fun x hx => hm.2 x (List.mem_cons_of_mem _ hx)⟩
        · exact ⟨hk2, fun x hx => hk.2 x (List.mem_cons_of_mem _ hx)⟩
      obtain ⟨e1, e2⟩ := e
      obtain ⟨f1, f2⟩ := f
      simp only at hef hv
      rw [hef, hv, hrest]

end Sys2Proof
end

