-- ==== Sys2Proof/Laws/State.lean ====
section
/-! SUPPORT. What each update of the state writes, and that it writes nothing else: one lemma for each field. -/

namespace Sys2Proof.Machine

/-! `State.emit` -/
@[simp] theorem State.emit_home (s : State) (o : Out) : (s.emit o).home = s.home := rfl
@[simp] theorem State.emit_strata (s : State) (o : Out) : (s.emit o).strata = s.strata := rfl
@[simp] theorem State.emit_rope (s : State) (o : Out) : (s.emit o).rope = s.rope := rfl
@[simp] theorem State.emit_cores (s : State) (o : Out) : (s.emit o).cores = s.cores := rfl
@[simp] theorem State.emit_kernels (s : State) (o : Out) : (s.emit o).kernels = s.kernels := rfl
@[simp] theorem State.emit_expert (s : State) (o : Out) : (s.emit o).expert = s.expert := rfl
@[simp] theorem State.emit_trav (s : State) (o : Out) : (s.emit o).trav = s.trav := rfl
@[simp] theorem State.emit_mor (s : State) (o : Out) : (s.emit o).mor = s.mor := rfl
@[simp] theorem State.emit_bci (s : State) (o : Out) : (s.emit o).bci = s.bci := rfl
@[simp] theorem State.emit_host (s : State) (o : Out) : (s.emit o).host = s.host := rfl
@[simp] theorem State.emit_lmf (s : State) (o : Out) : (s.emit o).lmf = s.lmf := rfl
@[simp] theorem State.emit_pow (s : State) (o : Out) : (s.emit o).pow = s.pow := rfl
@[simp] theorem State.emit_time (s : State) (o : Out) : (s.emit o).time = s.time := rfl
@[simp] theorem State.emit_rel (s : State) (o : Out) : (s.emit o).rel = s.rel := rfl
@[simp] theorem State.emit_sec (s : State) (o : Out) : (s.emit o).sec = s.sec := rfl
@[simp] theorem State.emit_obs (s : State) (o : Out) : (s.emit o).obs = s.obs := rfl
@[simp] theorem State.emit_pkg (s : State) (o : Out) : (s.emit o).pkg = s.pkg := rfl
@[simp] theorem State.emit_out (s : State) (o : Out) : (s.emit o).out = o :: s.out := rfl
@[simp] theorem State.emit_resume (s : State) (o : Out) : (s.emit o).resume = s.resume := rfl
@[simp] theorem State.emit_replay (s : State) (o : Out) : (s.emit o).replay = s.replay := rfl
@[simp] theorem State.emit_freeCtr (s : State) (o : Out) : (s.emit o).freeCtr = s.freeCtr := rfl
@[simp] theorem State.emit_nextId (s : State) (o : Out) : (s.emit o).nextId = s.nextId := rfl
@[simp] theorem State.emit_pending (s : State) (o : Out) : (s.emit o).pending = s.pending := rfl

/-! `State.bump` -/
@[simp] theorem State.bump_home (s : State) : (s.bump).home = s.home := rfl
@[simp] theorem State.bump_strata (s : State) : (s.bump).strata = s.strata := rfl
@[simp] theorem State.bump_rope (s : State) : (s.bump).rope = s.rope := rfl
@[simp] theorem State.bump_cores (s : State) : (s.bump).cores = s.cores := rfl
@[simp] theorem State.bump_kernels (s : State) : (s.bump).kernels = s.kernels := rfl
@[simp] theorem State.bump_expert (s : State) : (s.bump).expert = s.expert := rfl
@[simp] theorem State.bump_trav (s : State) : (s.bump).trav = s.trav := rfl
@[simp] theorem State.bump_mor (s : State) : (s.bump).mor = s.mor := rfl
@[simp] theorem State.bump_bci (s : State) : (s.bump).bci = s.bci := rfl
@[simp] theorem State.bump_host (s : State) : (s.bump).host = s.host := rfl
@[simp] theorem State.bump_lmf (s : State) : (s.bump).lmf = s.lmf := rfl
@[simp] theorem State.bump_pow (s : State) : (s.bump).pow = s.pow := rfl
@[simp] theorem State.bump_time (s : State) : (s.bump).time = s.time := rfl
@[simp] theorem State.bump_rel (s : State) : (s.bump).rel = s.rel := rfl
@[simp] theorem State.bump_sec (s : State) : (s.bump).sec = s.sec := rfl
@[simp] theorem State.bump_obs (s : State) : (s.bump).obs = s.obs := rfl
@[simp] theorem State.bump_pkg (s : State) : (s.bump).pkg = s.pkg := rfl
@[simp] theorem State.bump_out (s : State) : (s.bump).out = s.out := rfl
@[simp] theorem State.bump_resume (s : State) : (s.bump).resume = s.resume := rfl
@[simp] theorem State.bump_replay (s : State) : (s.bump).replay = s.replay := rfl
@[simp] theorem State.bump_freeCtr (s : State) : (s.bump).freeCtr = s.freeCtr := rfl
@[simp] theorem State.bump_nextId (s : State) : (s.bump).nextId = s.nextId + 1 := rfl
@[simp] theorem State.bump_pending (s : State) : (s.bump).pending = s.pending := rfl

/-! `State.freed` -/
@[simp] theorem State.freed_home (s : State) : (s.freed).home = s.home := rfl
@[simp] theorem State.freed_strata (s : State) : (s.freed).strata = s.strata := rfl
@[simp] theorem State.freed_rope (s : State) : (s.freed).rope = s.rope := rfl
@[simp] theorem State.freed_cores (s : State) : (s.freed).cores = s.cores := rfl
@[simp] theorem State.freed_kernels (s : State) : (s.freed).kernels = s.kernels := rfl
@[simp] theorem State.freed_expert (s : State) : (s.freed).expert = s.expert := rfl
@[simp] theorem State.freed_trav (s : State) : (s.freed).trav = s.trav := rfl
@[simp] theorem State.freed_mor (s : State) : (s.freed).mor = s.mor := rfl
@[simp] theorem State.freed_bci (s : State) : (s.freed).bci = s.bci := rfl
@[simp] theorem State.freed_host (s : State) : (s.freed).host = s.host := rfl
@[simp] theorem State.freed_lmf (s : State) : (s.freed).lmf = s.lmf := rfl
@[simp] theorem State.freed_pow (s : State) : (s.freed).pow = s.pow := rfl
@[simp] theorem State.freed_time (s : State) : (s.freed).time = s.time := rfl
@[simp] theorem State.freed_rel (s : State) : (s.freed).rel = s.rel := rfl
@[simp] theorem State.freed_sec (s : State) : (s.freed).sec = s.sec := rfl
@[simp] theorem State.freed_obs (s : State) : (s.freed).obs = s.obs := rfl
@[simp] theorem State.freed_pkg (s : State) : (s.freed).pkg = s.pkg := rfl
@[simp] theorem State.freed_out (s : State) : (s.freed).out = s.out := rfl
@[simp] theorem State.freed_resume (s : State) : (s.freed).resume = s.resume := rfl
@[simp] theorem State.freed_replay (s : State) : (s.freed).replay = s.replay := rfl
@[simp] theorem State.freed_freeCtr (s : State) : (s.freed).freeCtr = s.freeCtr + 1 := rfl
@[simp] theorem State.freed_nextId (s : State) : (s.freed).nextId = s.nextId := rfl
@[simp] theorem State.freed_pending (s : State) : (s.freed).pending = s.pending := rfl

/-! `State.setCore` -/
@[simp] theorem State.setCore_home (s : State) (n : Nat) (c : Core) : (s.setCore n c).home = s.home := rfl
@[simp] theorem State.setCore_strata (s : State) (n : Nat) (c : Core) : (s.setCore n c).strata = s.strata := rfl
@[simp] theorem State.setCore_rope (s : State) (n : Nat) (c : Core) : (s.setCore n c).rope = s.rope := rfl
@[simp] theorem State.setCore_cores (s : State) (n : Nat) (c : Core) : (s.setCore n c).cores = Tab.set s.cores n c := rfl
@[simp] theorem State.setCore_kernels (s : State) (n : Nat) (c : Core) : (s.setCore n c).kernels = s.kernels := rfl
@[simp] theorem State.setCore_expert (s : State) (n : Nat) (c : Core) : (s.setCore n c).expert = s.expert := rfl
@[simp] theorem State.setCore_trav (s : State) (n : Nat) (c : Core) : (s.setCore n c).trav = s.trav := rfl
@[simp] theorem State.setCore_mor (s : State) (n : Nat) (c : Core) : (s.setCore n c).mor = s.mor := rfl
@[simp] theorem State.setCore_bci (s : State) (n : Nat) (c : Core) : (s.setCore n c).bci = s.bci := rfl
@[simp] theorem State.setCore_host (s : State) (n : Nat) (c : Core) : (s.setCore n c).host = s.host := rfl
@[simp] theorem State.setCore_lmf (s : State) (n : Nat) (c : Core) : (s.setCore n c).lmf = s.lmf := rfl
@[simp] theorem State.setCore_pow (s : State) (n : Nat) (c : Core) : (s.setCore n c).pow = s.pow := rfl
@[simp] theorem State.setCore_time (s : State) (n : Nat) (c : Core) : (s.setCore n c).time = s.time := rfl
@[simp] theorem State.setCore_rel (s : State) (n : Nat) (c : Core) : (s.setCore n c).rel = s.rel := rfl
@[simp] theorem State.setCore_sec (s : State) (n : Nat) (c : Core) : (s.setCore n c).sec = s.sec := rfl
@[simp] theorem State.setCore_obs (s : State) (n : Nat) (c : Core) : (s.setCore n c).obs = s.obs := rfl
@[simp] theorem State.setCore_pkg (s : State) (n : Nat) (c : Core) : (s.setCore n c).pkg = s.pkg := rfl
@[simp] theorem State.setCore_out (s : State) (n : Nat) (c : Core) : (s.setCore n c).out = s.out := rfl
@[simp] theorem State.setCore_resume (s : State) (n : Nat) (c : Core) : (s.setCore n c).resume = s.resume := rfl
@[simp] theorem State.setCore_replay (s : State) (n : Nat) (c : Core) : (s.setCore n c).replay = s.replay := rfl
@[simp] theorem State.setCore_freeCtr (s : State) (n : Nat) (c : Core) : (s.setCore n c).freeCtr = s.freeCtr := rfl
@[simp] theorem State.setCore_nextId (s : State) (n : Nat) (c : Core) : (s.setCore n c).nextId = s.nextId := rfl
@[simp] theorem State.setCore_pending (s : State) (n : Nat) (c : Core) : (s.setCore n c).pending = s.pending := rfl

/-! `State.setFnWin` -/
@[simp] theorem State.setFnWin_home (s : State) (port fn : Nat) (w : Window) : (s.setFnWin port fn w).home = s.home := rfl
@[simp] theorem State.setFnWin_strata (s : State) (port fn : Nat) (w : Window) : (s.setFnWin port fn w).strata = s.strata := rfl
@[simp] theorem State.setFnWin_rope (s : State) (port fn : Nat) (w : Window) : (s.setFnWin port fn w).rope = s.rope := rfl
@[simp] theorem State.setFnWin_cores (s : State) (port fn : Nat) (w : Window) : (s.setFnWin port fn w).cores = s.cores := rfl
@[simp] theorem State.setFnWin_kernels (s : State) (port fn : Nat) (w : Window) : (s.setFnWin port fn w).kernels = s.kernels := rfl
@[simp] theorem State.setFnWin_expert (s : State) (port fn : Nat) (w : Window) : (s.setFnWin port fn w).expert = s.expert := rfl
@[simp] theorem State.setFnWin_trav (s : State) (port fn : Nat) (w : Window) : (s.setFnWin port fn w).trav = s.trav := rfl
@[simp] theorem State.setFnWin_mor (s : State) (port fn : Nat) (w : Window) : (s.setFnWin port fn w).mor = s.mor := rfl
@[simp] theorem State.setFnWin_bci (s : State) (port fn : Nat) (w : Window) : (s.setFnWin port fn w).bci = s.bci := rfl
@[simp] theorem State.setFnWin_host (s : State) (port fn : Nat) (w : Window) : (s.setFnWin port fn w).host = { s.host with fns := Tab.set s.host.fns (fnKey port fn) w } := rfl
@[simp] theorem State.setFnWin_lmf (s : State) (port fn : Nat) (w : Window) : (s.setFnWin port fn w).lmf = s.lmf := rfl
@[simp] theorem State.setFnWin_pow (s : State) (port fn : Nat) (w : Window) : (s.setFnWin port fn w).pow = s.pow := rfl
@[simp] theorem State.setFnWin_time (s : State) (port fn : Nat) (w : Window) : (s.setFnWin port fn w).time = s.time := rfl
@[simp] theorem State.setFnWin_rel (s : State) (port fn : Nat) (w : Window) : (s.setFnWin port fn w).rel = s.rel := rfl
@[simp] theorem State.setFnWin_sec (s : State) (port fn : Nat) (w : Window) : (s.setFnWin port fn w).sec = s.sec := rfl
@[simp] theorem State.setFnWin_obs (s : State) (port fn : Nat) (w : Window) : (s.setFnWin port fn w).obs = s.obs := rfl
@[simp] theorem State.setFnWin_pkg (s : State) (port fn : Nat) (w : Window) : (s.setFnWin port fn w).pkg = s.pkg := rfl
@[simp] theorem State.setFnWin_out (s : State) (port fn : Nat) (w : Window) : (s.setFnWin port fn w).out = s.out := rfl
@[simp] theorem State.setFnWin_resume (s : State) (port fn : Nat) (w : Window) : (s.setFnWin port fn w).resume = s.resume := rfl
@[simp] theorem State.setFnWin_replay (s : State) (port fn : Nat) (w : Window) : (s.setFnWin port fn w).replay = s.replay := rfl
@[simp] theorem State.setFnWin_freeCtr (s : State) (port fn : Nat) (w : Window) : (s.setFnWin port fn w).freeCtr = s.freeCtr := rfl
@[simp] theorem State.setFnWin_nextId (s : State) (port fn : Nat) (w : Window) : (s.setFnWin port fn w).nextId = s.nextId := rfl
@[simp] theorem State.setFnWin_pending (s : State) (port fn : Nat) (w : Window) : (s.setFnWin port fn w).pending = s.pending := rfl

/-! `State.setHport` -/
@[simp] theorem State.setHport_home (s : State) (p : Nat) (h : HostPort) : (s.setHport p h).home = s.home := rfl
@[simp] theorem State.setHport_strata (s : State) (p : Nat) (h : HostPort) : (s.setHport p h).strata = s.strata := rfl
@[simp] theorem State.setHport_rope (s : State) (p : Nat) (h : HostPort) : (s.setHport p h).rope = s.rope := rfl
@[simp] theorem State.setHport_cores (s : State) (p : Nat) (h : HostPort) : (s.setHport p h).cores = s.cores := rfl
@[simp] theorem State.setHport_kernels (s : State) (p : Nat) (h : HostPort) : (s.setHport p h).kernels = s.kernels := rfl
@[simp] theorem State.setHport_expert (s : State) (p : Nat) (h : HostPort) : (s.setHport p h).expert = s.expert := rfl
@[simp] theorem State.setHport_trav (s : State) (p : Nat) (h : HostPort) : (s.setHport p h).trav = s.trav := rfl
@[simp] theorem State.setHport_mor (s : State) (p : Nat) (h : HostPort) : (s.setHport p h).mor = s.mor := rfl
@[simp] theorem State.setHport_bci (s : State) (p : Nat) (h : HostPort) : (s.setHport p h).bci = s.bci := rfl
@[simp] theorem State.setHport_host (s : State) (p : Nat) (h : HostPort) : (s.setHport p h).host = { s.host with ports := Tab.set s.host.ports p h } := rfl
@[simp] theorem State.setHport_lmf (s : State) (p : Nat) (h : HostPort) : (s.setHport p h).lmf = s.lmf := rfl
@[simp] theorem State.setHport_pow (s : State) (p : Nat) (h : HostPort) : (s.setHport p h).pow = s.pow := rfl
@[simp] theorem State.setHport_time (s : State) (p : Nat) (h : HostPort) : (s.setHport p h).time = s.time := rfl
@[simp] theorem State.setHport_rel (s : State) (p : Nat) (h : HostPort) : (s.setHport p h).rel = s.rel := rfl
@[simp] theorem State.setHport_sec (s : State) (p : Nat) (h : HostPort) : (s.setHport p h).sec = s.sec := rfl
@[simp] theorem State.setHport_obs (s : State) (p : Nat) (h : HostPort) : (s.setHport p h).obs = s.obs := rfl
@[simp] theorem State.setHport_pkg (s : State) (p : Nat) (h : HostPort) : (s.setHport p h).pkg = s.pkg := rfl
@[simp] theorem State.setHport_out (s : State) (p : Nat) (h : HostPort) : (s.setHport p h).out = s.out := rfl
@[simp] theorem State.setHport_resume (s : State) (p : Nat) (h : HostPort) : (s.setHport p h).resume = s.resume := rfl
@[simp] theorem State.setHport_replay (s : State) (p : Nat) (h : HostPort) : (s.setHport p h).replay = s.replay := rfl
@[simp] theorem State.setHport_freeCtr (s : State) (p : Nat) (h : HostPort) : (s.setHport p h).freeCtr = s.freeCtr := rfl
@[simp] theorem State.setHport_nextId (s : State) (p : Nat) (h : HostPort) : (s.setHport p h).nextId = s.nextId := rfl
@[simp] theorem State.setHport_pending (s : State) (p : Nat) (h : HostPort) : (s.setHport p h).pending = s.pending := rfl

/-! `State.setLport` -/
@[simp] theorem State.setLport_home (s : State) (p : Nat) (l : LPort) : (s.setLport p l).home = s.home := rfl
@[simp] theorem State.setLport_strata (s : State) (p : Nat) (l : LPort) : (s.setLport p l).strata = s.strata := rfl
@[simp] theorem State.setLport_rope (s : State) (p : Nat) (l : LPort) : (s.setLport p l).rope = s.rope := rfl
@[simp] theorem State.setLport_cores (s : State) (p : Nat) (l : LPort) : (s.setLport p l).cores = s.cores := rfl
@[simp] theorem State.setLport_kernels (s : State) (p : Nat) (l : LPort) : (s.setLport p l).kernels = s.kernels := rfl
@[simp] theorem State.setLport_expert (s : State) (p : Nat) (l : LPort) : (s.setLport p l).expert = s.expert := rfl
@[simp] theorem State.setLport_trav (s : State) (p : Nat) (l : LPort) : (s.setLport p l).trav = s.trav := rfl
@[simp] theorem State.setLport_mor (s : State) (p : Nat) (l : LPort) : (s.setLport p l).mor = s.mor := rfl
@[simp] theorem State.setLport_bci (s : State) (p : Nat) (l : LPort) : (s.setLport p l).bci = s.bci := rfl
@[simp] theorem State.setLport_host (s : State) (p : Nat) (l : LPort) : (s.setLport p l).host = s.host := rfl
@[simp] theorem State.setLport_lmf (s : State) (p : Nat) (l : LPort) : (s.setLport p l).lmf = { s.lmf with ports := Tab.set s.lmf.ports p l } := rfl
@[simp] theorem State.setLport_pow (s : State) (p : Nat) (l : LPort) : (s.setLport p l).pow = s.pow := rfl
@[simp] theorem State.setLport_time (s : State) (p : Nat) (l : LPort) : (s.setLport p l).time = s.time := rfl
@[simp] theorem State.setLport_rel (s : State) (p : Nat) (l : LPort) : (s.setLport p l).rel = s.rel := rfl
@[simp] theorem State.setLport_sec (s : State) (p : Nat) (l : LPort) : (s.setLport p l).sec = s.sec := rfl
@[simp] theorem State.setLport_obs (s : State) (p : Nat) (l : LPort) : (s.setLport p l).obs = s.obs := rfl
@[simp] theorem State.setLport_pkg (s : State) (p : Nat) (l : LPort) : (s.setLport p l).pkg = s.pkg := rfl
@[simp] theorem State.setLport_out (s : State) (p : Nat) (l : LPort) : (s.setLport p l).out = s.out := rfl
@[simp] theorem State.setLport_resume (s : State) (p : Nat) (l : LPort) : (s.setLport p l).resume = s.resume := rfl
@[simp] theorem State.setLport_replay (s : State) (p : Nat) (l : LPort) : (s.setLport p l).replay = s.replay := rfl
@[simp] theorem State.setLport_freeCtr (s : State) (p : Nat) (l : LPort) : (s.setLport p l).freeCtr = s.freeCtr := rfl
@[simp] theorem State.setLport_nextId (s : State) (p : Nat) (l : LPort) : (s.setLport p l).nextId = s.nextId := rfl
@[simp] theorem State.setLport_pending (s : State) (p : Nat) (l : LPort) : (s.setLport p l).pending = s.pending := rfl

/-! `State.setRegion` -/
@[simp] theorem State.setRegion_home (s : State) (rid : Nat) (r : Region) : (s.setRegion rid r).home = { s.home with regions := Tab.set s.home.regions rid r } := rfl
@[simp] theorem State.setRegion_strata (s : State) (rid : Nat) (r : Region) : (s.setRegion rid r).strata = s.strata := rfl
@[simp] theorem State.setRegion_rope (s : State) (rid : Nat) (r : Region) : (s.setRegion rid r).rope = s.rope := rfl
@[simp] theorem State.setRegion_cores (s : State) (rid : Nat) (r : Region) : (s.setRegion rid r).cores = s.cores := rfl
@[simp] theorem State.setRegion_kernels (s : State) (rid : Nat) (r : Region) : (s.setRegion rid r).kernels = s.kernels := rfl
@[simp] theorem State.setRegion_expert (s : State) (rid : Nat) (r : Region) : (s.setRegion rid r).expert = s.expert := rfl
@[simp] theorem State.setRegion_trav (s : State) (rid : Nat) (r : Region) : (s.setRegion rid r).trav = s.trav := rfl
@[simp] theorem State.setRegion_mor (s : State) (rid : Nat) (r : Region) : (s.setRegion rid r).mor = s.mor := rfl
@[simp] theorem State.setRegion_bci (s : State) (rid : Nat) (r : Region) : (s.setRegion rid r).bci = s.bci := rfl
@[simp] theorem State.setRegion_host (s : State) (rid : Nat) (r : Region) : (s.setRegion rid r).host = s.host := rfl
@[simp] theorem State.setRegion_lmf (s : State) (rid : Nat) (r : Region) : (s.setRegion rid r).lmf = s.lmf := rfl
@[simp] theorem State.setRegion_pow (s : State) (rid : Nat) (r : Region) : (s.setRegion rid r).pow = s.pow := rfl
@[simp] theorem State.setRegion_time (s : State) (rid : Nat) (r : Region) : (s.setRegion rid r).time = s.time := rfl
@[simp] theorem State.setRegion_rel (s : State) (rid : Nat) (r : Region) : (s.setRegion rid r).rel = s.rel := rfl
@[simp] theorem State.setRegion_sec (s : State) (rid : Nat) (r : Region) : (s.setRegion rid r).sec = s.sec := rfl
@[simp] theorem State.setRegion_obs (s : State) (rid : Nat) (r : Region) : (s.setRegion rid r).obs = s.obs := rfl
@[simp] theorem State.setRegion_pkg (s : State) (rid : Nat) (r : Region) : (s.setRegion rid r).pkg = s.pkg := rfl
@[simp] theorem State.setRegion_out (s : State) (rid : Nat) (r : Region) : (s.setRegion rid r).out = s.out := rfl
@[simp] theorem State.setRegion_resume (s : State) (rid : Nat) (r : Region) : (s.setRegion rid r).resume = s.resume := rfl
@[simp] theorem State.setRegion_replay (s : State) (rid : Nat) (r : Region) : (s.setRegion rid r).replay = s.replay := rfl
@[simp] theorem State.setRegion_freeCtr (s : State) (rid : Nat) (r : Region) : (s.setRegion rid r).freeCtr = s.freeCtr := rfl
@[simp] theorem State.setRegion_nextId (s : State) (rid : Nat) (r : Region) : (s.setRegion rid r).nextId = s.nextId := rfl
@[simp] theorem State.setRegion_pending (s : State) (rid : Nat) (r : Region) : (s.setRegion rid r).pending = s.pending := rfl

/-! `State.setPages` -/
@[simp] theorem State.setPages_home (s : State) (t : Tab Handle) : (s.setPages t).home = { s.home with pages := t } := rfl
@[simp] theorem State.setPages_strata (s : State) (t : Tab Handle) : (s.setPages t).strata = s.strata := rfl
@[simp] theorem State.setPages_rope (s : State) (t : Tab Handle) : (s.setPages t).rope = s.rope := rfl
@[simp] theorem State.setPages_cores (s : State) (t : Tab Handle) : (s.setPages t).cores = s.cores := rfl
@[simp] theorem State.setPages_kernels (s : State) (t : Tab Handle) : (s.setPages t).kernels = s.kernels := rfl
@[simp] theorem State.setPages_expert (s : State) (t : Tab Handle) : (s.setPages t).expert = s.expert := rfl
@[simp] theorem State.setPages_trav (s : State) (t : Tab Handle) : (s.setPages t).trav = s.trav := rfl
@[simp] theorem State.setPages_mor (s : State) (t : Tab Handle) : (s.setPages t).mor = s.mor := rfl
@[simp] theorem State.setPages_bci (s : State) (t : Tab Handle) : (s.setPages t).bci = s.bci := rfl
@[simp] theorem State.setPages_host (s : State) (t : Tab Handle) : (s.setPages t).host = s.host := rfl
@[simp] theorem State.setPages_lmf (s : State) (t : Tab Handle) : (s.setPages t).lmf = s.lmf := rfl
@[simp] theorem State.setPages_pow (s : State) (t : Tab Handle) : (s.setPages t).pow = s.pow := rfl
@[simp] theorem State.setPages_time (s : State) (t : Tab Handle) : (s.setPages t).time = s.time := rfl
@[simp] theorem State.setPages_rel (s : State) (t : Tab Handle) : (s.setPages t).rel = s.rel := rfl
@[simp] theorem State.setPages_sec (s : State) (t : Tab Handle) : (s.setPages t).sec = s.sec := rfl
@[simp] theorem State.setPages_obs (s : State) (t : Tab Handle) : (s.setPages t).obs = s.obs := rfl
@[simp] theorem State.setPages_pkg (s : State) (t : Tab Handle) : (s.setPages t).pkg = s.pkg := rfl
@[simp] theorem State.setPages_out (s : State) (t : Tab Handle) : (s.setPages t).out = s.out := rfl
@[simp] theorem State.setPages_resume (s : State) (t : Tab Handle) : (s.setPages t).resume = s.resume := rfl
@[simp] theorem State.setPages_replay (s : State) (t : Tab Handle) : (s.setPages t).replay = s.replay := rfl
@[simp] theorem State.setPages_freeCtr (s : State) (t : Tab Handle) : (s.setPages t).freeCtr = s.freeCtr := rfl
@[simp] theorem State.setPages_nextId (s : State) (t : Tab Handle) : (s.setPages t).nextId = s.nextId := rfl
@[simp] theorem State.setPages_pending (s : State) (t : Tab Handle) : (s.setPages t).pending = s.pending := rfl

/-! `State.modPage` -/
@[simp] theorem State.modPage_home (s : State) (ref : PageRef) (f : TierPage → TierPage) : (s.modPage ref f).home = { s.home with pages := Tab.modify s.home.pages (refHandle ref) (fun hd => hd.modify ref f) } := rfl
@[simp] theorem State.modPage_strata (s : State) (ref : PageRef) (f : TierPage → TierPage) : (s.modPage ref f).strata = s.strata := rfl
@[simp] theorem State.modPage_rope (s : State) (ref : PageRef) (f : TierPage → TierPage) : (s.modPage ref f).rope = s.rope := rfl
@[simp] theorem State.modPage_cores (s : State) (ref : PageRef) (f : TierPage → TierPage) : (s.modPage ref f).cores = s.cores := rfl
@[simp] theorem State.modPage_kernels (s : State) (ref : PageRef) (f : TierPage → TierPage) : (s.modPage ref f).kernels = s.kernels := rfl
@[simp] theorem State.modPage_expert (s : State) (ref : PageRef) (f : TierPage → TierPage) : (s.modPage ref f).expert = s.expert := rfl
@[simp] theorem State.modPage_trav (s : State) (ref : PageRef) (f : TierPage → TierPage) : (s.modPage ref f).trav = s.trav := rfl
@[simp] theorem State.modPage_mor (s : State) (ref : PageRef) (f : TierPage → TierPage) : (s.modPage ref f).mor = s.mor := rfl
@[simp] theorem State.modPage_bci (s : State) (ref : PageRef) (f : TierPage → TierPage) : (s.modPage ref f).bci = s.bci := rfl
@[simp] theorem State.modPage_host (s : State) (ref : PageRef) (f : TierPage → TierPage) : (s.modPage ref f).host = s.host := rfl
@[simp] theorem State.modPage_lmf (s : State) (ref : PageRef) (f : TierPage → TierPage) : (s.modPage ref f).lmf = s.lmf := rfl
@[simp] theorem State.modPage_pow (s : State) (ref : PageRef) (f : TierPage → TierPage) : (s.modPage ref f).pow = s.pow := rfl
@[simp] theorem State.modPage_time (s : State) (ref : PageRef) (f : TierPage → TierPage) : (s.modPage ref f).time = s.time := rfl
@[simp] theorem State.modPage_rel (s : State) (ref : PageRef) (f : TierPage → TierPage) : (s.modPage ref f).rel = s.rel := rfl
@[simp] theorem State.modPage_sec (s : State) (ref : PageRef) (f : TierPage → TierPage) : (s.modPage ref f).sec = s.sec := rfl
@[simp] theorem State.modPage_obs (s : State) (ref : PageRef) (f : TierPage → TierPage) : (s.modPage ref f).obs = s.obs := rfl
@[simp] theorem State.modPage_pkg (s : State) (ref : PageRef) (f : TierPage → TierPage) : (s.modPage ref f).pkg = s.pkg := rfl
@[simp] theorem State.modPage_out (s : State) (ref : PageRef) (f : TierPage → TierPage) : (s.modPage ref f).out = s.out := rfl
@[simp] theorem State.modPage_resume (s : State) (ref : PageRef) (f : TierPage → TierPage) : (s.modPage ref f).resume = s.resume := rfl
@[simp] theorem State.modPage_replay (s : State) (ref : PageRef) (f : TierPage → TierPage) : (s.modPage ref f).replay = s.replay := rfl
@[simp] theorem State.modPage_freeCtr (s : State) (ref : PageRef) (f : TierPage → TierPage) : (s.modPage ref f).freeCtr = s.freeCtr := rfl
@[simp] theorem State.modPage_nextId (s : State) (ref : PageRef) (f : TierPage → TierPage) : (s.modPage ref f).nextId = s.nextId := rfl
@[simp] theorem State.modPage_pending (s : State) (ref : PageRef) (f : TierPage → TierPage) : (s.modPage ref f).pending = s.pending := rfl

/-! `State.hold` -/
@[simp] theorem State.hold_home (s : State) (h holder : Nat) : (s.hold h holder).home = { s.home with pages := Tab.modify s.home.pages h (fun hd => { hd with refs := holder :: hd.refs }) } := rfl
@[simp] theorem State.hold_strata (s : State) (h holder : Nat) : (s.hold h holder).strata = s.strata := rfl
@[simp] theorem State.hold_rope (s : State) (h holder : Nat) : (s.hold h holder).rope = s.rope := rfl
@[simp] theorem State.hold_cores (s : State) (h holder : Nat) : (s.hold h holder).cores = s.cores := rfl
@[simp] theorem State.hold_kernels (s : State) (h holder : Nat) : (s.hold h holder).kernels = s.kernels := rfl
@[simp] theorem State.hold_expert (s : State) (h holder : Nat) : (s.hold h holder).expert = s.expert := rfl
@[simp] theorem State.hold_trav (s : State) (h holder : Nat) : (s.hold h holder).trav = s.trav := rfl
@[simp] theorem State.hold_mor (s : State) (h holder : Nat) : (s.hold h holder).mor = s.mor := rfl
@[simp] theorem State.hold_bci (s : State) (h holder : Nat) : (s.hold h holder).bci = s.bci := rfl
@[simp] theorem State.hold_host (s : State) (h holder : Nat) : (s.hold h holder).host = s.host := rfl
@[simp] theorem State.hold_lmf (s : State) (h holder : Nat) : (s.hold h holder).lmf = s.lmf := rfl
@[simp] theorem State.hold_pow (s : State) (h holder : Nat) : (s.hold h holder).pow = s.pow := rfl
@[simp] theorem State.hold_time (s : State) (h holder : Nat) : (s.hold h holder).time = s.time := rfl
@[simp] theorem State.hold_rel (s : State) (h holder : Nat) : (s.hold h holder).rel = s.rel := rfl
@[simp] theorem State.hold_sec (s : State) (h holder : Nat) : (s.hold h holder).sec = s.sec := rfl
@[simp] theorem State.hold_obs (s : State) (h holder : Nat) : (s.hold h holder).obs = s.obs := rfl
@[simp] theorem State.hold_pkg (s : State) (h holder : Nat) : (s.hold h holder).pkg = s.pkg := rfl
@[simp] theorem State.hold_out (s : State) (h holder : Nat) : (s.hold h holder).out = s.out := rfl
@[simp] theorem State.hold_resume (s : State) (h holder : Nat) : (s.hold h holder).resume = s.resume := rfl
@[simp] theorem State.hold_replay (s : State) (h holder : Nat) : (s.hold h holder).replay = s.replay := rfl
@[simp] theorem State.hold_freeCtr (s : State) (h holder : Nat) : (s.hold h holder).freeCtr = s.freeCtr := rfl
@[simp] theorem State.hold_nextId (s : State) (h holder : Nat) : (s.hold h holder).nextId = s.nextId := rfl
@[simp] theorem State.hold_pending (s : State) (h holder : Nat) : (s.hold h holder).pending = s.pending := rfl

/-! `State.setLine` -/
@[simp] theorem State.setLine_home (s : State) (rid ln : Nat) (l : Line) : (s.setLine rid ln l).home = s.home := rfl
@[simp] theorem State.setLine_strata (s : State) (rid ln : Nat) (l : Line) : (s.setLine rid ln l).strata = s.strata := rfl
@[simp] theorem State.setLine_rope (s : State) (rid ln : Nat) (l : Line) : (s.setLine rid ln l).rope = { s.rope with lines := Tab.set s.rope.lines (lineKey rid ln) l } := rfl
@[simp] theorem State.setLine_cores (s : State) (rid ln : Nat) (l : Line) : (s.setLine rid ln l).cores = s.cores := rfl
@[simp] theorem State.setLine_kernels (s : State) (rid ln : Nat) (l : Line) : (s.setLine rid ln l).kernels = s.kernels := rfl
@[simp] theorem State.setLine_expert (s : State) (rid ln : Nat) (l : Line) : (s.setLine rid ln l).expert = s.expert := rfl
@[simp] theorem State.setLine_trav (s : State) (rid ln : Nat) (l : Line) : (s.setLine rid ln l).trav = s.trav := rfl
@[simp] theorem State.setLine_mor (s : State) (rid ln : Nat) (l : Line) : (s.setLine rid ln l).mor = s.mor := rfl
@[simp] theorem State.setLine_bci (s : State) (rid ln : Nat) (l : Line) : (s.setLine rid ln l).bci = s.bci := rfl
@[simp] theorem State.setLine_host (s : State) (rid ln : Nat) (l : Line) : (s.setLine rid ln l).host = s.host := rfl
@[simp] theorem State.setLine_lmf (s : State) (rid ln : Nat) (l : Line) : (s.setLine rid ln l).lmf = s.lmf := rfl
@[simp] theorem State.setLine_pow (s : State) (rid ln : Nat) (l : Line) : (s.setLine rid ln l).pow = s.pow := rfl
@[simp] theorem State.setLine_time (s : State) (rid ln : Nat) (l : Line) : (s.setLine rid ln l).time = s.time := rfl
@[simp] theorem State.setLine_rel (s : State) (rid ln : Nat) (l : Line) : (s.setLine rid ln l).rel = s.rel := rfl
@[simp] theorem State.setLine_sec (s : State) (rid ln : Nat) (l : Line) : (s.setLine rid ln l).sec = s.sec := rfl
@[simp] theorem State.setLine_obs (s : State) (rid ln : Nat) (l : Line) : (s.setLine rid ln l).obs = s.obs := rfl
@[simp] theorem State.setLine_pkg (s : State) (rid ln : Nat) (l : Line) : (s.setLine rid ln l).pkg = s.pkg := rfl
@[simp] theorem State.setLine_out (s : State) (rid ln : Nat) (l : Line) : (s.setLine rid ln l).out = s.out := rfl
@[simp] theorem State.setLine_resume (s : State) (rid ln : Nat) (l : Line) : (s.setLine rid ln l).resume = s.resume := rfl
@[simp] theorem State.setLine_replay (s : State) (rid ln : Nat) (l : Line) : (s.setLine rid ln l).replay = s.replay := rfl
@[simp] theorem State.setLine_freeCtr (s : State) (rid ln : Nat) (l : Line) : (s.setLine rid ln l).freeCtr = s.freeCtr := rfl
@[simp] theorem State.setLine_nextId (s : State) (rid ln : Nat) (l : Line) : (s.setLine rid ln l).nextId = s.nextId := rfl
@[simp] theorem State.setLine_pending (s : State) (rid ln : Nat) (l : Line) : (s.setLine rid ln l).pending = s.pending := rfl

/-! `State.setChannel` -/
@[simp] theorem State.setChannel_home (s : State) (n : Nat) (c : Channel) : (s.setChannel n c).home = s.home := rfl
@[simp] theorem State.setChannel_strata (s : State) (n : Nat) (c : Channel) : (s.setChannel n c).strata = s.strata := rfl
@[simp] theorem State.setChannel_rope (s : State) (n : Nat) (c : Channel) : (s.setChannel n c).rope = s.rope := rfl
@[simp] theorem State.setChannel_cores (s : State) (n : Nat) (c : Channel) : (s.setChannel n c).cores = s.cores := rfl
@[simp] theorem State.setChannel_kernels (s : State) (n : Nat) (c : Channel) : (s.setChannel n c).kernels = s.kernels := rfl
@[simp] theorem State.setChannel_expert (s : State) (n : Nat) (c : Channel) : (s.setChannel n c).expert = s.expert := rfl
@[simp] theorem State.setChannel_trav (s : State) (n : Nat) (c : Channel) : (s.setChannel n c).trav = s.trav := rfl
@[simp] theorem State.setChannel_mor (s : State) (n : Nat) (c : Channel) : (s.setChannel n c).mor = s.mor := rfl
@[simp] theorem State.setChannel_bci (s : State) (n : Nat) (c : Channel) : (s.setChannel n c).bci = { s.bci with channels := Tab.set s.bci.channels n c } := rfl
@[simp] theorem State.setChannel_host (s : State) (n : Nat) (c : Channel) : (s.setChannel n c).host = s.host := rfl
@[simp] theorem State.setChannel_lmf (s : State) (n : Nat) (c : Channel) : (s.setChannel n c).lmf = s.lmf := rfl
@[simp] theorem State.setChannel_pow (s : State) (n : Nat) (c : Channel) : (s.setChannel n c).pow = s.pow := rfl
@[simp] theorem State.setChannel_time (s : State) (n : Nat) (c : Channel) : (s.setChannel n c).time = s.time := rfl
@[simp] theorem State.setChannel_rel (s : State) (n : Nat) (c : Channel) : (s.setChannel n c).rel = s.rel := rfl
@[simp] theorem State.setChannel_sec (s : State) (n : Nat) (c : Channel) : (s.setChannel n c).sec = s.sec := rfl
@[simp] theorem State.setChannel_obs (s : State) (n : Nat) (c : Channel) : (s.setChannel n c).obs = s.obs := rfl
@[simp] theorem State.setChannel_pkg (s : State) (n : Nat) (c : Channel) : (s.setChannel n c).pkg = s.pkg := rfl
@[simp] theorem State.setChannel_out (s : State) (n : Nat) (c : Channel) : (s.setChannel n c).out = s.out := rfl
@[simp] theorem State.setChannel_resume (s : State) (n : Nat) (c : Channel) : (s.setChannel n c).resume = s.resume := rfl
@[simp] theorem State.setChannel_replay (s : State) (n : Nat) (c : Channel) : (s.setChannel n c).replay = s.replay := rfl
@[simp] theorem State.setChannel_freeCtr (s : State) (n : Nat) (c : Channel) : (s.setChannel n c).freeCtr = s.freeCtr := rfl
@[simp] theorem State.setChannel_nextId (s : State) (n : Nat) (c : Channel) : (s.setChannel n c).nextId = s.nextId := rfl
@[simp] theorem State.setChannel_pending (s : State) (n : Nat) (c : Channel) : (s.setChannel n c).pending = s.pending := rfl

/-! `State.commit` -/
@[simp] theorem State.commit_home (s : State) : (s.commit).home = s.home := rfl
@[simp] theorem State.commit_strata (s : State) : (s.commit).strata = s.strata := rfl
@[simp] theorem State.commit_rope (s : State) : (s.commit).rope = s.rope := rfl
@[simp] theorem State.commit_cores (s : State) : (s.commit).cores = s.cores := rfl
@[simp] theorem State.commit_kernels (s : State) : (s.commit).kernels = s.kernels := rfl
@[simp] theorem State.commit_expert (s : State) : (s.commit).expert = s.expert := rfl
@[simp] theorem State.commit_trav (s : State) : (s.commit).trav = s.trav := rfl
@[simp] theorem State.commit_mor (s : State) : (s.commit).mor = s.mor := rfl
@[simp] theorem State.commit_bci (s : State) : (s.commit).bci = s.bci := rfl
@[simp] theorem State.commit_host (s : State) : (s.commit).host = s.host := rfl
@[simp] theorem State.commit_lmf (s : State) : (s.commit).lmf = s.lmf := rfl
@[simp] theorem State.commit_pow (s : State) : (s.commit).pow = s.pow := rfl
@[simp] theorem State.commit_time (s : State) : (s.commit).time = s.time := rfl
@[simp] theorem State.commit_rel (s : State) : (s.commit).rel = { s.rel with entry := (s.rel.entry + 1) % 18446744073709551616 } := rfl
@[simp] theorem State.commit_sec (s : State) : (s.commit).sec = s.sec := rfl
@[simp] theorem State.commit_obs (s : State) : (s.commit).obs = s.obs := rfl
@[simp] theorem State.commit_pkg (s : State) : (s.commit).pkg = s.pkg := rfl
@[simp] theorem State.commit_out (s : State) : (s.commit).out = s.out := rfl
@[simp] theorem State.commit_resume (s : State) : (s.commit).resume = s.resume := rfl
@[simp] theorem State.commit_replay (s : State) : (s.commit).replay = s.replay := rfl
@[simp] theorem State.commit_freeCtr (s : State) : (s.commit).freeCtr = s.freeCtr := rfl
@[simp] theorem State.commit_nextId (s : State) : (s.commit).nextId = s.nextId := rfl
@[simp] theorem State.commit_pending (s : State) : (s.commit).pending = s.pending := rfl

/-! `State.setUnit` -/
@[simp] theorem State.setUnit_home (s : State) (hw : Nat) (u : UnitRec) : (s.setUnit hw u).home = s.home := rfl
@[simp] theorem State.setUnit_strata (s : State) (hw : Nat) (u : UnitRec) : (s.setUnit hw u).strata = s.strata := rfl
@[simp] theorem State.setUnit_rope (s : State) (hw : Nat) (u : UnitRec) : (s.setUnit hw u).rope = s.rope := rfl
@[simp] theorem State.setUnit_cores (s : State) (hw : Nat) (u : UnitRec) : (s.setUnit hw u).cores = s.cores := rfl
@[simp] theorem State.setUnit_kernels (s : State) (hw : Nat) (u : UnitRec) : (s.setUnit hw u).kernels = s.kernels := rfl
@[simp] theorem State.setUnit_expert (s : State) (hw : Nat) (u : UnitRec) : (s.setUnit hw u).expert = s.expert := rfl
@[simp] theorem State.setUnit_trav (s : State) (hw : Nat) (u : UnitRec) : (s.setUnit hw u).trav = s.trav := rfl
@[simp] theorem State.setUnit_mor (s : State) (hw : Nat) (u : UnitRec) : (s.setUnit hw u).mor = s.mor := rfl
@[simp] theorem State.setUnit_bci (s : State) (hw : Nat) (u : UnitRec) : (s.setUnit hw u).bci = s.bci := rfl
@[simp] theorem State.setUnit_host (s : State) (hw : Nat) (u : UnitRec) : (s.setUnit hw u).host = s.host := rfl
@[simp] theorem State.setUnit_lmf (s : State) (hw : Nat) (u : UnitRec) : (s.setUnit hw u).lmf = s.lmf := rfl
@[simp] theorem State.setUnit_pow (s : State) (hw : Nat) (u : UnitRec) : (s.setUnit hw u).pow = s.pow := rfl
@[simp] theorem State.setUnit_time (s : State) (hw : Nat) (u : UnitRec) : (s.setUnit hw u).time = s.time := rfl
@[simp] theorem State.setUnit_rel (s : State) (hw : Nat) (u : UnitRec) : (s.setUnit hw u).rel = { s.rel with units := Tab.set s.rel.units hw u } := rfl
@[simp] theorem State.setUnit_sec (s : State) (hw : Nat) (u : UnitRec) : (s.setUnit hw u).sec = s.sec := rfl
@[simp] theorem State.setUnit_obs (s : State) (hw : Nat) (u : UnitRec) : (s.setUnit hw u).obs = s.obs := rfl
@[simp] theorem State.setUnit_pkg (s : State) (hw : Nat) (u : UnitRec) : (s.setUnit hw u).pkg = s.pkg := rfl
@[simp] theorem State.setUnit_out (s : State) (hw : Nat) (u : UnitRec) : (s.setUnit hw u).out = s.out := rfl
@[simp] theorem State.setUnit_resume (s : State) (hw : Nat) (u : UnitRec) : (s.setUnit hw u).resume = s.resume := rfl
@[simp] theorem State.setUnit_replay (s : State) (hw : Nat) (u : UnitRec) : (s.setUnit hw u).replay = s.replay := rfl
@[simp] theorem State.setUnit_freeCtr (s : State) (hw : Nat) (u : UnitRec) : (s.setUnit hw u).freeCtr = s.freeCtr := rfl
@[simp] theorem State.setUnit_nextId (s : State) (hw : Nat) (u : UnitRec) : (s.setUnit hw u).nextId = s.nextId := rfl
@[simp] theorem State.setUnit_pending (s : State) (hw : Nat) (u : UnitRec) : (s.setUnit hw u).pending = s.pending := rfl

/-! `State.setHb` -/
@[simp] theorem State.setHb_home (s : State) (eid : Nat) (h : HbEntry) : (s.setHb eid h).home = s.home := rfl
@[simp] theorem State.setHb_strata (s : State) (eid : Nat) (h : HbEntry) : (s.setHb eid h).strata = s.strata := rfl
@[simp] theorem State.setHb_rope (s : State) (eid : Nat) (h : HbEntry) : (s.setHb eid h).rope = s.rope := rfl
@[simp] theorem State.setHb_cores (s : State) (eid : Nat) (h : HbEntry) : (s.setHb eid h).cores = s.cores := rfl
@[simp] theorem State.setHb_kernels (s : State) (eid : Nat) (h : HbEntry) : (s.setHb eid h).kernels = s.kernels := rfl
@[simp] theorem State.setHb_expert (s : State) (eid : Nat) (h : HbEntry) : (s.setHb eid h).expert = s.expert := rfl
@[simp] theorem State.setHb_trav (s : State) (eid : Nat) (h : HbEntry) : (s.setHb eid h).trav = s.trav := rfl
@[simp] theorem State.setHb_mor (s : State) (eid : Nat) (h : HbEntry) : (s.setHb eid h).mor = s.mor := rfl
@[simp] theorem State.setHb_bci (s : State) (eid : Nat) (h : HbEntry) : (s.setHb eid h).bci = s.bci := rfl
@[simp] theorem State.setHb_host (s : State) (eid : Nat) (h : HbEntry) : (s.setHb eid h).host = s.host := rfl
@[simp] theorem State.setHb_lmf (s : State) (eid : Nat) (h : HbEntry) : (s.setHb eid h).lmf = s.lmf := rfl
@[simp] theorem State.setHb_pow (s : State) (eid : Nat) (h : HbEntry) : (s.setHb eid h).pow = s.pow := rfl
@[simp] theorem State.setHb_time (s : State) (eid : Nat) (h : HbEntry) : (s.setHb eid h).time = s.time := rfl
@[simp] theorem State.setHb_rel (s : State) (eid : Nat) (h : HbEntry) : (s.setHb eid h).rel = { s.rel with hb := Tab.set s.rel.hb eid h } := rfl
@[simp] theorem State.setHb_sec (s : State) (eid : Nat) (h : HbEntry) : (s.setHb eid h).sec = s.sec := rfl
@[simp] theorem State.setHb_obs (s : State) (eid : Nat) (h : HbEntry) : (s.setHb eid h).obs = s.obs := rfl
@[simp] theorem State.setHb_pkg (s : State) (eid : Nat) (h : HbEntry) : (s.setHb eid h).pkg = s.pkg := rfl
@[simp] theorem State.setHb_out (s : State) (eid : Nat) (h : HbEntry) : (s.setHb eid h).out = s.out := rfl
@[simp] theorem State.setHb_resume (s : State) (eid : Nat) (h : HbEntry) : (s.setHb eid h).resume = s.resume := rfl
@[simp] theorem State.setHb_replay (s : State) (eid : Nat) (h : HbEntry) : (s.setHb eid h).replay = s.replay := rfl
@[simp] theorem State.setHb_freeCtr (s : State) (eid : Nat) (h : HbEntry) : (s.setHb eid h).freeCtr = s.freeCtr := rfl
@[simp] theorem State.setHb_nextId (s : State) (eid : Nat) (h : HbEntry) : (s.setHb eid h).nextId = s.nextId := rfl
@[simp] theorem State.setHb_pending (s : State) (eid : Nat) (h : HbEntry) : (s.setHb eid h).pending = s.pending := rfl

/-! `State.setDomain` -/
@[simp] theorem State.setDomain_home (s : State) (e : DomEntry) : (s.setDomain e).home = s.home := rfl
@[simp] theorem State.setDomain_strata (s : State) (e : DomEntry) : (s.setDomain e).strata = s.strata := rfl
@[simp] theorem State.setDomain_rope (s : State) (e : DomEntry) : (s.setDomain e).rope = s.rope := rfl
@[simp] theorem State.setDomain_cores (s : State) (e : DomEntry) : (s.setDomain e).cores = s.cores := rfl
@[simp] theorem State.setDomain_kernels (s : State) (e : DomEntry) : (s.setDomain e).kernels = s.kernels := rfl
@[simp] theorem State.setDomain_expert (s : State) (e : DomEntry) : (s.setDomain e).expert = s.expert := rfl
@[simp] theorem State.setDomain_trav (s : State) (e : DomEntry) : (s.setDomain e).trav = s.trav := rfl
@[simp] theorem State.setDomain_mor (s : State) (e : DomEntry) : (s.setDomain e).mor = s.mor := rfl
@[simp] theorem State.setDomain_bci (s : State) (e : DomEntry) : (s.setDomain e).bci = s.bci := rfl
@[simp] theorem State.setDomain_host (s : State) (e : DomEntry) : (s.setDomain e).host = s.host := rfl
@[simp] theorem State.setDomain_lmf (s : State) (e : DomEntry) : (s.setDomain e).lmf = s.lmf := rfl
@[simp] theorem State.setDomain_pow (s : State) (e : DomEntry) : (s.setDomain e).pow = { s.pow with doms := s.pow.doms.map (fun (x : DomEntry) => if x.dom = e.dom then e else x) } := rfl
@[simp] theorem State.setDomain_time (s : State) (e : DomEntry) : (s.setDomain e).time = s.time := rfl
@[simp] theorem State.setDomain_rel (s : State) (e : DomEntry) : (s.setDomain e).rel = s.rel := rfl
@[simp] theorem State.setDomain_sec (s : State) (e : DomEntry) : (s.setDomain e).sec = s.sec := rfl
@[simp] theorem State.setDomain_obs (s : State) (e : DomEntry) : (s.setDomain e).obs = s.obs := rfl
@[simp] theorem State.setDomain_pkg (s : State) (e : DomEntry) : (s.setDomain e).pkg = s.pkg := rfl
@[simp] theorem State.setDomain_out (s : State) (e : DomEntry) : (s.setDomain e).out = s.out := rfl
@[simp] theorem State.setDomain_resume (s : State) (e : DomEntry) : (s.setDomain e).resume = s.resume := rfl
@[simp] theorem State.setDomain_replay (s : State) (e : DomEntry) : (s.setDomain e).replay = s.replay := rfl
@[simp] theorem State.setDomain_freeCtr (s : State) (e : DomEntry) : (s.setDomain e).freeCtr = s.freeCtr := rfl
@[simp] theorem State.setDomain_nextId (s : State) (e : DomEntry) : (s.setDomain e).nextId = s.nextId := rfl
@[simp] theorem State.setDomain_pending (s : State) (e : DomEntry) : (s.setDomain e).pending = s.pending := rfl

/-! `State.logPut` -/
@[simp] theorem State.logPut_home (s : State) (k : Nat) (e : LogEntry) : (s.logPut k e).home = { s.home with logs := Tab.set s.home.logs k ((e :: (s.logOf k).filter (fun (x : LogEntry) => decide (x.lseq ≠ e.lseq))).take 16384) } := rfl
@[simp] theorem State.logPut_strata (s : State) (k : Nat) (e : LogEntry) : (s.logPut k e).strata = s.strata := rfl
@[simp] theorem State.logPut_rope (s : State) (k : Nat) (e : LogEntry) : (s.logPut k e).rope = s.rope := rfl
@[simp] theorem State.logPut_cores (s : State) (k : Nat) (e : LogEntry) : (s.logPut k e).cores = s.cores := rfl
@[simp] theorem State.logPut_kernels (s : State) (k : Nat) (e : LogEntry) : (s.logPut k e).kernels = s.kernels := rfl
@[simp] theorem State.logPut_expert (s : State) (k : Nat) (e : LogEntry) : (s.logPut k e).expert = s.expert := rfl
@[simp] theorem State.logPut_trav (s : State) (k : Nat) (e : LogEntry) : (s.logPut k e).trav = s.trav := rfl
@[simp] theorem State.logPut_mor (s : State) (k : Nat) (e : LogEntry) : (s.logPut k e).mor = s.mor := rfl
@[simp] theorem State.logPut_bci (s : State) (k : Nat) (e : LogEntry) : (s.logPut k e).bci = s.bci := rfl
@[simp] theorem State.logPut_host (s : State) (k : Nat) (e : LogEntry) : (s.logPut k e).host = s.host := rfl
@[simp] theorem State.logPut_lmf (s : State) (k : Nat) (e : LogEntry) : (s.logPut k e).lmf = s.lmf := rfl
@[simp] theorem State.logPut_pow (s : State) (k : Nat) (e : LogEntry) : (s.logPut k e).pow = s.pow := rfl
@[simp] theorem State.logPut_time (s : State) (k : Nat) (e : LogEntry) : (s.logPut k e).time = s.time := rfl
@[simp] theorem State.logPut_rel (s : State) (k : Nat) (e : LogEntry) : (s.logPut k e).rel = s.rel := rfl
@[simp] theorem State.logPut_sec (s : State) (k : Nat) (e : LogEntry) : (s.logPut k e).sec = s.sec := rfl
@[simp] theorem State.logPut_obs (s : State) (k : Nat) (e : LogEntry) : (s.logPut k e).obs = s.obs := rfl
@[simp] theorem State.logPut_pkg (s : State) (k : Nat) (e : LogEntry) : (s.logPut k e).pkg = s.pkg := rfl
@[simp] theorem State.logPut_out (s : State) (k : Nat) (e : LogEntry) : (s.logPut k e).out = s.out := rfl
@[simp] theorem State.logPut_resume (s : State) (k : Nat) (e : LogEntry) : (s.logPut k e).resume = s.resume := rfl
@[simp] theorem State.logPut_replay (s : State) (k : Nat) (e : LogEntry) : (s.logPut k e).replay = s.replay := rfl
@[simp] theorem State.logPut_freeCtr (s : State) (k : Nat) (e : LogEntry) : (s.logPut k e).freeCtr = s.freeCtr := rfl
@[simp] theorem State.logPut_nextId (s : State) (k : Nat) (e : LogEntry) : (s.logPut k e).nextId = s.nextId := rfl
@[simp] theorem State.logPut_pending (s : State) (k : Nat) (e : LogEntry) : (s.logPut k e).pending = s.pending := rfl

/-! `State.rsMgmt` -/
@[simp] theorem State.rsMgmt_home (s : State) : (s.rsMgmt).home = s.home := rfl
@[simp] theorem State.rsMgmt_strata (s : State) : (s.rsMgmt).strata = s.strata := rfl
@[simp] theorem State.rsMgmt_rope (s : State) : (s.rsMgmt).rope = s.rope := rfl
@[simp] theorem State.rsMgmt_cores (s : State) : (s.rsMgmt).cores = s.cores := rfl
@[simp] theorem State.rsMgmt_kernels (s : State) : (s.rsMgmt).kernels = s.kernels := rfl
@[simp] theorem State.rsMgmt_expert (s : State) : (s.rsMgmt).expert = s.expert := rfl
@[simp] theorem State.rsMgmt_trav (s : State) : (s.rsMgmt).trav = s.trav := rfl
@[simp] theorem State.rsMgmt_mor (s : State) : (s.rsMgmt).mor = s.mor := rfl
@[simp] theorem State.rsMgmt_bci (s : State) : (s.rsMgmt).bci = s.bci := rfl
@[simp] theorem State.rsMgmt_host (s : State) : (s.rsMgmt).host = s.host := rfl
@[simp] theorem State.rsMgmt_lmf (s : State) : (s.rsMgmt).lmf = s.lmf := rfl
@[simp] theorem State.rsMgmt_pow (s : State) : (s.rsMgmt).pow = s.pow := rfl
@[simp] theorem State.rsMgmt_time (s : State) : (s.rsMgmt).time = s.time := rfl
@[simp] theorem State.rsMgmt_rel (s : State) : (s.rsMgmt).rel = s.rel := rfl
@[simp] theorem State.rsMgmt_sec (s : State) : (s.rsMgmt).sec = s.sec := rfl
@[simp] theorem State.rsMgmt_obs (s : State) : (s.rsMgmt).obs = { s.obs with mgmtSeq := (s.obs.mgmtSeq + 1) % 256 } := rfl
@[simp] theorem State.rsMgmt_pkg (s : State) : (s.rsMgmt).pkg = s.pkg := rfl
@[simp] theorem State.rsMgmt_out (s : State) : (s.rsMgmt).out = s.out := rfl
@[simp] theorem State.rsMgmt_resume (s : State) : (s.rsMgmt).resume = s.resume := rfl
@[simp] theorem State.rsMgmt_replay (s : State) : (s.rsMgmt).replay = s.replay := rfl
@[simp] theorem State.rsMgmt_freeCtr (s : State) : (s.rsMgmt).freeCtr = s.freeCtr := rfl
@[simp] theorem State.rsMgmt_nextId (s : State) : (s.rsMgmt).nextId = s.nextId := rfl
@[simp] theorem State.rsMgmt_pending (s : State) : (s.rsMgmt).pending = s.pending := rfl

/-! `State.complete` -/
@[simp] theorem State.complete_home (s : State) (q : LmfReq) (st : Status) (data : Bytes) : (s.complete q st data).home = s.home := rfl
@[simp] theorem State.complete_strata (s : State) (q : LmfReq) (st : Status) (data : Bytes) : (s.complete q st data).strata = s.strata := rfl
@[simp] theorem State.complete_rope (s : State) (q : LmfReq) (st : Status) (data : Bytes) : (s.complete q st data).rope = s.rope := rfl
@[simp] theorem State.complete_cores (s : State) (q : LmfReq) (st : Status) (data : Bytes) : (s.complete q st data).cores = s.cores := rfl
@[simp] theorem State.complete_kernels (s : State) (q : LmfReq) (st : Status) (data : Bytes) : (s.complete q st data).kernels = s.kernels := rfl
@[simp] theorem State.complete_expert (s : State) (q : LmfReq) (st : Status) (data : Bytes) : (s.complete q st data).expert = s.expert := rfl
@[simp] theorem State.complete_trav (s : State) (q : LmfReq) (st : Status) (data : Bytes) : (s.complete q st data).trav = s.trav := rfl
@[simp] theorem State.complete_mor (s : State) (q : LmfReq) (st : Status) (data : Bytes) : (s.complete q st data).mor = s.mor := rfl
@[simp] theorem State.complete_bci (s : State) (q : LmfReq) (st : Status) (data : Bytes) : (s.complete q st data).bci = s.bci := rfl
@[simp] theorem State.complete_host (s : State) (q : LmfReq) (st : Status) (data : Bytes) : (s.complete q st data).host = s.host := rfl
@[simp] theorem State.complete_lmf (s : State) (q : LmfReq) (st : Status) (data : Bytes) : (s.complete q st data).lmf = s.lmf := rfl
@[simp] theorem State.complete_pow (s : State) (q : LmfReq) (st : Status) (data : Bytes) : (s.complete q st data).pow = s.pow := rfl
@[simp] theorem State.complete_time (s : State) (q : LmfReq) (st : Status) (data : Bytes) : (s.complete q st data).time = s.time := rfl
@[simp] theorem State.complete_rel (s : State) (q : LmfReq) (st : Status) (data : Bytes) : (s.complete q st data).rel = s.rel := rfl
@[simp] theorem State.complete_sec (s : State) (q : LmfReq) (st : Status) (data : Bytes) : (s.complete q st data).sec = s.sec := rfl
@[simp] theorem State.complete_obs (s : State) (q : LmfReq) (st : Status) (data : Bytes) :
    (s.complete q st data).obs = (s.event (lmfUnit q.port) 1 (32 + data.length) none).obs := rfl
@[simp] theorem State.complete_pkg (s : State) (q : LmfReq) (st : Status) (data : Bytes) : (s.complete q st data).pkg = s.pkg := rfl
@[simp] theorem State.complete_out (s : State) (q : LmfReq) (st : Status) (data : Bytes) : (s.complete q st data).out = .cpl q.srcEid q.tag q.gen st data :: s.out := rfl
@[simp] theorem State.complete_resume (s : State) (q : LmfReq) (st : Status) (data : Bytes) : (s.complete q st data).resume = s.resume := rfl
@[simp] theorem State.complete_replay (s : State) (q : LmfReq) (st : Status) (data : Bytes) : (s.complete q st data).replay = s.replay := rfl
@[simp] theorem State.complete_freeCtr (s : State) (q : LmfReq) (st : Status) (data : Bytes) : (s.complete q st data).freeCtr = s.freeCtr := rfl
@[simp] theorem State.complete_nextId (s : State) (q : LmfReq) (st : Status) (data : Bytes) : (s.complete q st data).nextId = s.nextId := rfl
@[simp] theorem State.complete_pending (s : State) (q : LmfReq) (st : Status) (data : Bytes) : (s.complete q st data).pending = s.pending := rfl

/-! `State.dropDeadline` -/
@[simp] theorem State.dropDeadline_home (s : State) (id : Nat) : (s.dropDeadline id).home = s.home := rfl
@[simp] theorem State.dropDeadline_strata (s : State) (id : Nat) : (s.dropDeadline id).strata = s.strata := rfl
@[simp] theorem State.dropDeadline_rope (s : State) (id : Nat) : (s.dropDeadline id).rope = s.rope := rfl
@[simp] theorem State.dropDeadline_cores (s : State) (id : Nat) : (s.dropDeadline id).cores = s.cores := rfl
@[simp] theorem State.dropDeadline_kernels (s : State) (id : Nat) : (s.dropDeadline id).kernels = s.kernels := rfl
@[simp] theorem State.dropDeadline_expert (s : State) (id : Nat) : (s.dropDeadline id).expert = s.expert := rfl
@[simp] theorem State.dropDeadline_trav (s : State) (id : Nat) : (s.dropDeadline id).trav = s.trav := rfl
@[simp] theorem State.dropDeadline_mor (s : State) (id : Nat) : (s.dropDeadline id).mor = s.mor := rfl
@[simp] theorem State.dropDeadline_bci (s : State) (id : Nat) : (s.dropDeadline id).bci = { s.bci with deadlines := s.bci.deadlines.filter (fun (d : Deadline) => decide (d.id ≠ id)) } := rfl
@[simp] theorem State.dropDeadline_host (s : State) (id : Nat) : (s.dropDeadline id).host = s.host := rfl
@[simp] theorem State.dropDeadline_lmf (s : State) (id : Nat) : (s.dropDeadline id).lmf = s.lmf := rfl
@[simp] theorem State.dropDeadline_pow (s : State) (id : Nat) : (s.dropDeadline id).pow = s.pow := rfl
@[simp] theorem State.dropDeadline_time (s : State) (id : Nat) : (s.dropDeadline id).time = s.time := rfl
@[simp] theorem State.dropDeadline_rel (s : State) (id : Nat) : (s.dropDeadline id).rel = s.rel := rfl
@[simp] theorem State.dropDeadline_sec (s : State) (id : Nat) : (s.dropDeadline id).sec = s.sec := rfl
@[simp] theorem State.dropDeadline_obs (s : State) (id : Nat) : (s.dropDeadline id).obs = s.obs := rfl
@[simp] theorem State.dropDeadline_pkg (s : State) (id : Nat) : (s.dropDeadline id).pkg = s.pkg := rfl
@[simp] theorem State.dropDeadline_out (s : State) (id : Nat) : (s.dropDeadline id).out = s.out := rfl
@[simp] theorem State.dropDeadline_resume (s : State) (id : Nat) : (s.dropDeadline id).resume = s.resume := rfl
@[simp] theorem State.dropDeadline_replay (s : State) (id : Nat) : (s.dropDeadline id).replay = s.replay := rfl
@[simp] theorem State.dropDeadline_freeCtr (s : State) (id : Nat) : (s.dropDeadline id).freeCtr = s.freeCtr := rfl
@[simp] theorem State.dropDeadline_nextId (s : State) (id : Nat) : (s.dropDeadline id).nextId = s.nextId := rfl
@[simp] theorem State.dropDeadline_pending (s : State) (id : Nat) : (s.dropDeadline id).pending = s.pending := rfl

/-! `State.holdCmd` -/
@[simp] theorem State.holdCmd_strata (s : State) (cmd : Instr) (why : HoldWhy) (limit eid ctx : Nat) : (s.holdCmd cmd why limit eid ctx).strata = s.strata := rfl
@[simp] theorem State.holdCmd_rope (s : State) (cmd : Instr) (why : HoldWhy) (limit eid ctx : Nat) : (s.holdCmd cmd why limit eid ctx).rope = s.rope := rfl
@[simp] theorem State.holdCmd_cores (s : State) (cmd : Instr) (why : HoldWhy) (limit eid ctx : Nat) : (s.holdCmd cmd why limit eid ctx).cores = s.cores := rfl
@[simp] theorem State.holdCmd_kernels (s : State) (cmd : Instr) (why : HoldWhy) (limit eid ctx : Nat) : (s.holdCmd cmd why limit eid ctx).kernels = s.kernels := rfl
@[simp] theorem State.holdCmd_expert (s : State) (cmd : Instr) (why : HoldWhy) (limit eid ctx : Nat) : (s.holdCmd cmd why limit eid ctx).expert = s.expert := rfl
@[simp] theorem State.holdCmd_trav (s : State) (cmd : Instr) (why : HoldWhy) (limit eid ctx : Nat) : (s.holdCmd cmd why limit eid ctx).trav = s.trav := rfl
@[simp] theorem State.holdCmd_mor (s : State) (cmd : Instr) (why : HoldWhy) (limit eid ctx : Nat) : (s.holdCmd cmd why limit eid ctx).mor = s.mor := rfl
@[simp] theorem State.holdCmd_bci (s : State) (cmd : Instr) (why : HoldWhy) (limit eid ctx : Nat) : (s.holdCmd cmd why limit eid ctx).bci = s.bci := rfl
@[simp] theorem State.holdCmd_host (s : State) (cmd : Instr) (why : HoldWhy) (limit eid ctx : Nat) : (s.holdCmd cmd why limit eid ctx).host = s.host := rfl
@[simp] theorem State.holdCmd_lmf (s : State) (cmd : Instr) (why : HoldWhy) (limit eid ctx : Nat) : (s.holdCmd cmd why limit eid ctx).lmf = s.lmf := rfl
@[simp] theorem State.holdCmd_pow (s : State) (cmd : Instr) (why : HoldWhy) (limit eid ctx : Nat) : (s.holdCmd cmd why limit eid ctx).pow = s.pow := rfl
@[simp] theorem State.holdCmd_time (s : State) (cmd : Instr) (why : HoldWhy) (limit eid ctx : Nat) : (s.holdCmd cmd why limit eid ctx).time = s.time := rfl
@[simp] theorem State.holdCmd_rel (s : State) (cmd : Instr) (why : HoldWhy) (limit eid ctx : Nat) : (s.holdCmd cmd why limit eid ctx).rel = s.rel := rfl
@[simp] theorem State.holdCmd_sec (s : State) (cmd : Instr) (why : HoldWhy) (limit eid ctx : Nat) : (s.holdCmd cmd why limit eid ctx).sec = s.sec := rfl
@[simp] theorem State.holdCmd_obs (s : State) (cmd : Instr) (why : HoldWhy) (limit eid ctx : Nat) : (s.holdCmd cmd why limit eid ctx).obs = s.obs := rfl
@[simp] theorem State.holdCmd_pkg (s : State) (cmd : Instr) (why : HoldWhy) (limit eid ctx : Nat) : (s.holdCmd cmd why limit eid ctx).pkg = s.pkg := rfl
@[simp] theorem State.holdCmd_out (s : State) (cmd : Instr) (why : HoldWhy) (limit eid ctx : Nat) : (s.holdCmd cmd why limit eid ctx).out = s.out := rfl
@[simp] theorem State.holdCmd_resume (s : State) (cmd : Instr) (why : HoldWhy) (limit eid ctx : Nat) : (s.holdCmd cmd why limit eid ctx).resume = s.resume := rfl
@[simp] theorem State.holdCmd_replay (s : State) (cmd : Instr) (why : HoldWhy) (limit eid ctx : Nat) : (s.holdCmd cmd why limit eid ctx).replay = s.replay := rfl
@[simp] theorem State.holdCmd_freeCtr (s : State) (cmd : Instr) (why : HoldWhy) (limit eid ctx : Nat) : (s.holdCmd cmd why limit eid ctx).freeCtr = s.freeCtr := rfl
@[simp] theorem State.holdCmd_nextId (s : State) (cmd : Instr) (why : HoldWhy) (limit eid ctx : Nat) : (s.holdCmd cmd why limit eid ctx).nextId = s.nextId + 1 := rfl
@[simp] theorem State.holdCmd_pending (s : State) (cmd : Instr) (why : HoldWhy) (limit eid ctx : Nat) : (s.holdCmd cmd why limit eid ctx).pending = s.pending := rfl

/-! `State.release` -/
@[simp] theorem State.release_home (s : State) (f : HoldWhy → Bool) : (s.release f).home = { s.home with held := s.home.held.filter (fun h => !f h.why) } := rfl
@[simp] theorem State.release_strata (s : State) (f : HoldWhy → Bool) : (s.release f).strata = s.strata := rfl
@[simp] theorem State.release_rope (s : State) (f : HoldWhy → Bool) : (s.release f).rope = s.rope := rfl
@[simp] theorem State.release_cores (s : State) (f : HoldWhy → Bool) : (s.release f).cores = s.cores := rfl
@[simp] theorem State.release_kernels (s : State) (f : HoldWhy → Bool) : (s.release f).kernels = s.kernels := rfl
@[simp] theorem State.release_expert (s : State) (f : HoldWhy → Bool) : (s.release f).expert = s.expert := rfl
@[simp] theorem State.release_trav (s : State) (f : HoldWhy → Bool) : (s.release f).trav = s.trav := rfl
@[simp] theorem State.release_mor (s : State) (f : HoldWhy → Bool) : (s.release f).mor = s.mor := rfl
@[simp] theorem State.release_bci (s : State) (f : HoldWhy → Bool) : (s.release f).bci = s.bci := rfl
@[simp] theorem State.release_host (s : State) (f : HoldWhy → Bool) : (s.release f).host = s.host := rfl
@[simp] theorem State.release_lmf (s : State) (f : HoldWhy → Bool) : (s.release f).lmf = s.lmf := rfl
@[simp] theorem State.release_pow (s : State) (f : HoldWhy → Bool) : (s.release f).pow = s.pow := rfl
@[simp] theorem State.release_time (s : State) (f : HoldWhy → Bool) : (s.release f).time = s.time := rfl
@[simp] theorem State.release_rel (s : State) (f : HoldWhy → Bool) : (s.release f).rel = s.rel := rfl
@[simp] theorem State.release_sec (s : State) (f : HoldWhy → Bool) : (s.release f).sec = s.sec := rfl
@[simp] theorem State.release_obs (s : State) (f : HoldWhy → Bool) : (s.release f).obs = s.obs := rfl
@[simp] theorem State.release_pkg (s : State) (f : HoldWhy → Bool) : (s.release f).pkg = s.pkg := rfl
@[simp] theorem State.release_out (s : State) (f : HoldWhy → Bool) : (s.release f).out = s.out := rfl
@[simp] theorem State.release_replay (s : State) (f : HoldWhy → Bool) : (s.release f).replay = s.replay := rfl
@[simp] theorem State.release_freeCtr (s : State) (f : HoldWhy → Bool) : (s.release f).freeCtr = s.freeCtr := rfl
@[simp] theorem State.release_nextId (s : State) (f : HoldWhy → Bool) : (s.release f).nextId = s.nextId := rfl
@[simp] theorem State.release_pending (s : State) (f : HoldWhy → Bool) : (s.release f).pending = s.pending := rfl

/-! `State.addDeadline` -/
@[simp] theorem State.addDeadline_home (s : State) (id at' : Nat) (abort : Bool) (src obj : Nat) (i : Issuer) : (s.addDeadline id at' abort src obj i).home = s.home := rfl
@[simp] theorem State.addDeadline_strata (s : State) (id at' : Nat) (abort : Bool) (src obj : Nat) (i : Issuer) : (s.addDeadline id at' abort src obj i).strata = s.strata := rfl
@[simp] theorem State.addDeadline_rope (s : State) (id at' : Nat) (abort : Bool) (src obj : Nat) (i : Issuer) : (s.addDeadline id at' abort src obj i).rope = s.rope := rfl
@[simp] theorem State.addDeadline_cores (s : State) (id at' : Nat) (abort : Bool) (src obj : Nat) (i : Issuer) : (s.addDeadline id at' abort src obj i).cores = s.cores := rfl
@[simp] theorem State.addDeadline_kernels (s : State) (id at' : Nat) (abort : Bool) (src obj : Nat) (i : Issuer) : (s.addDeadline id at' abort src obj i).kernels = s.kernels := rfl
@[simp] theorem State.addDeadline_expert (s : State) (id at' : Nat) (abort : Bool) (src obj : Nat) (i : Issuer) : (s.addDeadline id at' abort src obj i).expert = s.expert := rfl
@[simp] theorem State.addDeadline_trav (s : State) (id at' : Nat) (abort : Bool) (src obj : Nat) (i : Issuer) : (s.addDeadline id at' abort src obj i).trav = s.trav := rfl
@[simp] theorem State.addDeadline_mor (s : State) (id at' : Nat) (abort : Bool) (src obj : Nat) (i : Issuer) : (s.addDeadline id at' abort src obj i).mor = s.mor := rfl
@[simp] theorem State.addDeadline_host (s : State) (id at' : Nat) (abort : Bool) (src obj : Nat) (i : Issuer) : (s.addDeadline id at' abort src obj i).host = s.host := rfl
@[simp] theorem State.addDeadline_lmf (s : State) (id at' : Nat) (abort : Bool) (src obj : Nat) (i : Issuer) : (s.addDeadline id at' abort src obj i).lmf = s.lmf := rfl
@[simp] theorem State.addDeadline_pow (s : State) (id at' : Nat) (abort : Bool) (src obj : Nat) (i : Issuer) : (s.addDeadline id at' abort src obj i).pow = s.pow := rfl
@[simp] theorem State.addDeadline_time (s : State) (id at' : Nat) (abort : Bool) (src obj : Nat) (i : Issuer) : (s.addDeadline id at' abort src obj i).time = s.time := rfl
@[simp] theorem State.addDeadline_rel (s : State) (id at' : Nat) (abort : Bool) (src obj : Nat) (i : Issuer) : (s.addDeadline id at' abort src obj i).rel = s.rel := rfl
@[simp] theorem State.addDeadline_sec (s : State) (id at' : Nat) (abort : Bool) (src obj : Nat) (i : Issuer) : (s.addDeadline id at' abort src obj i).sec = s.sec := rfl
@[simp] theorem State.addDeadline_obs (s : State) (id at' : Nat) (abort : Bool) (src obj : Nat) (i : Issuer) : (s.addDeadline id at' abort src obj i).obs = s.obs := rfl
@[simp] theorem State.addDeadline_pkg (s : State) (id at' : Nat) (abort : Bool) (src obj : Nat) (i : Issuer) : (s.addDeadline id at' abort src obj i).pkg = s.pkg := rfl
@[simp] theorem State.addDeadline_out (s : State) (id at' : Nat) (abort : Bool) (src obj : Nat) (i : Issuer) : (s.addDeadline id at' abort src obj i).out = s.out := rfl
@[simp] theorem State.addDeadline_resume (s : State) (id at' : Nat) (abort : Bool) (src obj : Nat) (i : Issuer) : (s.addDeadline id at' abort src obj i).resume = s.resume := rfl
@[simp] theorem State.addDeadline_replay (s : State) (id at' : Nat) (abort : Bool) (src obj : Nat) (i : Issuer) : (s.addDeadline id at' abort src obj i).replay = s.replay := rfl
@[simp] theorem State.addDeadline_freeCtr (s : State) (id at' : Nat) (abort : Bool) (src obj : Nat) (i : Issuer) : (s.addDeadline id at' abort src obj i).freeCtr = s.freeCtr := rfl
@[simp] theorem State.addDeadline_nextId (s : State) (id at' : Nat) (abort : Bool) (src obj : Nat) (i : Issuer) : (s.addDeadline id at' abort src obj i).nextId = s.nextId := rfl
@[simp] theorem State.addDeadline_pending (s : State) (id at' : Nat) (abort : Bool) (src obj : Nat) (i : Issuer) : (s.addDeadline id at' abort src obj i).pending = s.pending := rfl

/-! `State.opProgress` -/
@[simp] theorem State.opProgress_home (s : State) (id pos : Nat) : (s.opProgress id pos).home = s.home := rfl
@[simp] theorem State.opProgress_strata (s : State) (id pos : Nat) : (s.opProgress id pos).strata = s.strata := rfl
@[simp] theorem State.opProgress_rope (s : State) (id pos : Nat) : (s.opProgress id pos).rope = s.rope := rfl
@[simp] theorem State.opProgress_cores (s : State) (id pos : Nat) : (s.opProgress id pos).cores = s.cores := rfl
@[simp] theorem State.opProgress_kernels (s : State) (id pos : Nat) : (s.opProgress id pos).kernels = s.kernels := rfl
@[simp] theorem State.opProgress_expert (s : State) (id pos : Nat) : (s.opProgress id pos).expert = s.expert := rfl
@[simp] theorem State.opProgress_trav (s : State) (id pos : Nat) : (s.opProgress id pos).trav = s.trav := rfl
@[simp] theorem State.opProgress_mor (s : State) (id pos : Nat) : (s.opProgress id pos).mor = s.mor := rfl
@[simp] theorem State.opProgress_host (s : State) (id pos : Nat) : (s.opProgress id pos).host = s.host := rfl
@[simp] theorem State.opProgress_lmf (s : State) (id pos : Nat) : (s.opProgress id pos).lmf = s.lmf := rfl
@[simp] theorem State.opProgress_pow (s : State) (id pos : Nat) : (s.opProgress id pos).pow = s.pow := rfl
@[simp] theorem State.opProgress_time (s : State) (id pos : Nat) : (s.opProgress id pos).time = s.time := rfl
@[simp] theorem State.opProgress_rel (s : State) (id pos : Nat) : (s.opProgress id pos).rel = s.rel := rfl
@[simp] theorem State.opProgress_sec (s : State) (id pos : Nat) : (s.opProgress id pos).sec = s.sec := rfl
@[simp] theorem State.opProgress_obs (s : State) (id pos : Nat) : (s.opProgress id pos).obs = s.obs := rfl
@[simp] theorem State.opProgress_pkg (s : State) (id pos : Nat) : (s.opProgress id pos).pkg = s.pkg := rfl
@[simp] theorem State.opProgress_out (s : State) (id pos : Nat) : (s.opProgress id pos).out = s.out := rfl
@[simp] theorem State.opProgress_resume (s : State) (id pos : Nat) : (s.opProgress id pos).resume = s.resume := rfl
@[simp] theorem State.opProgress_replay (s : State) (id pos : Nat) : (s.opProgress id pos).replay = s.replay := rfl
@[simp] theorem State.opProgress_freeCtr (s : State) (id pos : Nat) : (s.opProgress id pos).freeCtr = s.freeCtr := rfl
@[simp] theorem State.opProgress_nextId (s : State) (id pos : Nat) : (s.opProgress id pos).nextId = s.nextId := rfl
@[simp] theorem State.opProgress_pending (s : State) (id pos : Nat) : (s.opProgress id pos).pending = s.pending := rfl

/-! `State.startCounters` -/
@[simp] theorem State.startCounters_home (s : State) (hw ctx : Nat) : (s.startCounters hw ctx).home = s.home := rfl
@[simp] theorem State.startCounters_strata (s : State) (hw ctx : Nat) : (s.startCounters hw ctx).strata = s.strata := rfl
@[simp] theorem State.startCounters_rope (s : State) (hw ctx : Nat) : (s.startCounters hw ctx).rope = s.rope := rfl
@[simp] theorem State.startCounters_cores (s : State) (hw ctx : Nat) : (s.startCounters hw ctx).cores = s.cores := rfl
@[simp] theorem State.startCounters_kernels (s : State) (hw ctx : Nat) : (s.startCounters hw ctx).kernels = s.kernels := rfl
@[simp] theorem State.startCounters_expert (s : State) (hw ctx : Nat) : (s.startCounters hw ctx).expert = s.expert := rfl
@[simp] theorem State.startCounters_trav (s : State) (hw ctx : Nat) : (s.startCounters hw ctx).trav = s.trav := rfl
@[simp] theorem State.startCounters_mor (s : State) (hw ctx : Nat) : (s.startCounters hw ctx).mor = s.mor := rfl
@[simp] theorem State.startCounters_host (s : State) (hw ctx : Nat) : (s.startCounters hw ctx).host = s.host := rfl
@[simp] theorem State.startCounters_lmf (s : State) (hw ctx : Nat) : (s.startCounters hw ctx).lmf = s.lmf := rfl
@[simp] theorem State.startCounters_pow (s : State) (hw ctx : Nat) : (s.startCounters hw ctx).pow = s.pow := rfl
@[simp] theorem State.startCounters_time (s : State) (hw ctx : Nat) : (s.startCounters hw ctx).time = s.time := rfl
@[simp] theorem State.startCounters_rel (s : State) (hw ctx : Nat) : (s.startCounters hw ctx).rel = s.rel := rfl
@[simp] theorem State.startCounters_sec (s : State) (hw ctx : Nat) : (s.startCounters hw ctx).sec = s.sec := rfl
@[simp] theorem State.startCounters_obs (s : State) (hw ctx : Nat) : (s.startCounters hw ctx).obs = s.obs := rfl
@[simp] theorem State.startCounters_pkg (s : State) (hw ctx : Nat) : (s.startCounters hw ctx).pkg = s.pkg := rfl
@[simp] theorem State.startCounters_out (s : State) (hw ctx : Nat) : (s.startCounters hw ctx).out = s.out := rfl
@[simp] theorem State.startCounters_resume (s : State) (hw ctx : Nat) : (s.startCounters hw ctx).resume = s.resume := rfl
@[simp] theorem State.startCounters_replay (s : State) (hw ctx : Nat) : (s.startCounters hw ctx).replay = s.replay := rfl
@[simp] theorem State.startCounters_freeCtr (s : State) (hw ctx : Nat) : (s.startCounters hw ctx).freeCtr = s.freeCtr := rfl
@[simp] theorem State.startCounters_nextId (s : State) (hw ctx : Nat) : (s.startCounters hw ctx).nextId = s.nextId := rfl
@[simp] theorem State.startCounters_pending (s : State) (hw ctx : Nat) : (s.startCounters hw ctx).pending = s.pending := rfl

/-! `State.unbind` -/
@[simp] theorem State.unbind_home (s : State) (f : Nat → HostWindow → Bool) : (s.unbind f).home = s.home := rfl
@[simp] theorem State.unbind_strata (s : State) (f : Nat → HostWindow → Bool) : (s.unbind f).strata = s.strata := rfl
@[simp] theorem State.unbind_rope (s : State) (f : Nat → HostWindow → Bool) : (s.unbind f).rope = s.rope := rfl
@[simp] theorem State.unbind_cores (s : State) (f : Nat → HostWindow → Bool) : (s.unbind f).cores = s.cores := rfl
@[simp] theorem State.unbind_kernels (s : State) (f : Nat → HostWindow → Bool) : (s.unbind f).kernels = s.kernels := rfl
@[simp] theorem State.unbind_expert (s : State) (f : Nat → HostWindow → Bool) : (s.unbind f).expert = s.expert := rfl
@[simp] theorem State.unbind_trav (s : State) (f : Nat → HostWindow → Bool) : (s.unbind f).trav = s.trav := rfl
@[simp] theorem State.unbind_mor (s : State) (f : Nat → HostWindow → Bool) : (s.unbind f).mor = s.mor := rfl
@[simp] theorem State.unbind_bci (s : State) (f : Nat → HostWindow → Bool) : (s.unbind f).bci = s.bci := rfl
@[simp] theorem State.unbind_lmf (s : State) (f : Nat → HostWindow → Bool) : (s.unbind f).lmf = s.lmf := rfl
@[simp] theorem State.unbind_pow (s : State) (f : Nat → HostWindow → Bool) : (s.unbind f).pow = s.pow := rfl
@[simp] theorem State.unbind_time (s : State) (f : Nat → HostWindow → Bool) : (s.unbind f).time = s.time := rfl
@[simp] theorem State.unbind_rel (s : State) (f : Nat → HostWindow → Bool) : (s.unbind f).rel = s.rel := rfl
@[simp] theorem State.unbind_sec (s : State) (f : Nat → HostWindow → Bool) : (s.unbind f).sec = s.sec := rfl
@[simp] theorem State.unbind_obs (s : State) (f : Nat → HostWindow → Bool) : (s.unbind f).obs = s.obs := rfl
@[simp] theorem State.unbind_pkg (s : State) (f : Nat → HostWindow → Bool) : (s.unbind f).pkg = s.pkg := rfl
@[simp] theorem State.unbind_out (s : State) (f : Nat → HostWindow → Bool) : (s.unbind f).out = s.out := rfl
@[simp] theorem State.unbind_resume (s : State) (f : Nat → HostWindow → Bool) : (s.unbind f).resume = s.resume := rfl
@[simp] theorem State.unbind_replay (s : State) (f : Nat → HostWindow → Bool) : (s.unbind f).replay = s.replay := rfl
@[simp] theorem State.unbind_freeCtr (s : State) (f : Nat → HostWindow → Bool) : (s.unbind f).freeCtr = s.freeCtr := rfl
@[simp] theorem State.unbind_nextId (s : State) (f : Nat → HostWindow → Bool) : (s.unbind f).nextId = s.nextId := rfl
@[simp] theorem State.unbind_pending (s : State) (f : Nat → HostWindow → Bool) : (s.unbind f).pending = s.pending := rfl

/-! ### Reads after writes -/

@[simp] theorem State.core_setCore_self (s : State) (n : Nat) (c : Core) : (s.setCore n c).core n = c := by simp [State.core]

theorem State.core_setCore_ne (s : State) {n m : Nat} (c : Core) (h : m ≠ n) : (s.setCore n c).core m = s.core m := by
  simp [State.core, Tab.getD_set_ne _ _ _ h]

@[simp] theorem State.region?_setRegion_self (s : State) (rid : Nat) (r : Region) : (s.setRegion rid r).region? rid = some r := by simp [State.region?]

theorem State.region?_setRegion_ne (s : State) {rid k : Nat} (r : Region) (h : k ≠ rid) : (s.setRegion rid r).region? k = s.region? k := by
  simp [State.region?, Tab.get?_set_ne _ _ h]

@[simp] theorem State.fnWin_setFnWin_self (s : State) (p f : Nat) (w : Window) : (s.setFnWin p f w).fnWin p f = w := by simp [State.fnWin]

theorem State.fnWin_setFnWin_ne (s : State) {p f p' f' : Nat} (w : Window) (h : fnKey p' f' ≠ fnKey p f) : (s.setFnWin p f w).fnWin p' f' = s.fnWin p' f' := by
  simp [State.fnWin, Tab.getD_set_ne _ _ _ h]

/-- Functions of the four ports have keys of their own. -/
theorem fnKey_inj {p f p' f' : Nat} (hf : f < 256) (hf' : f' < 256) (h : fnKey p f = fnKey p' f') : p = p' ∧ f = f' := by
  unfold fnKey at h
  omega

@[simp] theorem State.hport_setHport_self (s : State) (p : Nat) (h : HostPort) : (s.setHport p h).hport p = h := by simp [State.hport]

theorem State.hport_setHport_ne (s : State) {p q : Nat} (h : HostPort) (hq : q ≠ p) : (s.setHport p h).hport q = s.hport q := by
  simp [State.hport, Tab.getD_set_ne _ _ _ hq]

@[simp] theorem State.lport_setLport_self (s : State) (p : Nat) (l : LPort) : (s.setLport p l).lport p = l := by simp [State.lport]

theorem State.lport_setLport_ne (s : State) {p q : Nat} (l : LPort) (hq : q ≠ p) : (s.setLport p l).lport q = s.lport q := by
  simp [State.lport, Tab.getD_set_ne _ _ _ hq]

@[simp] theorem State.channel_setChannel_self (s : State) (n : Nat) (c : Channel) : (s.setChannel n c).channel n = c := by simp [State.channel]

@[simp] theorem State.line?_setLine_self (s : State) (rid ln : Nat) (l : Line) : (s.setLine rid ln l).line? rid ln = some l := by simp [State.line?]

@[simp] theorem State.unit_setUnit_self (s : State) (hw : Nat) (u : UnitRec) : (s.setUnit hw u).unit hw = u := by simp [State.unit]

theorem State.unit_setUnit_ne (s : State) {hw k : Nat} (u : UnitRec) (h : k ≠ hw) : (s.setUnit hw u).unit k = s.unit k := by
  simp [State.unit, Tab.getD_set_ne _ _ _ h]

/-! ### Register files (R352, R353): register X0 reads zero and P0 reads all ones, whatever is written -/

@[simp] theorem RegFile.xr_xw_zero (r : RegFile) (n : Nat) (v : BitVec 64) : (r.xw n v).xr 0 = 0 := by simp [RegFile.xr]

@[simp] theorem RegFile.xw_zero (r : RegFile) (v : BitVec 64) : r.xw 0 v = r := by simp [RegFile.xw]

theorem RegFile.xr_xw_self (r : RegFile) {n : Nat} (v : BitVec 64) (h : n % 32 ≠ 0) : (r.xw n v).xr n = v := by simp [RegFile.xr, RegFile.xw, h]

theorem RegFile.xr_xw_ne (r : RegFile) {n m : Nat} (v : BitVec 64) (h : m % 32 ≠ n % 32) : (r.xw n v).xr m = r.xr m := by
  unfold RegFile.xw
  split
  · rfl
  · unfold RegFile.xr
    rw [Tab.getD_set_ne _ _ _ h]

theorem RegFile.pr_pw_self (r : RegFile) {n : Nat} (v : BitVec 4096) (h : n % 16 ≠ 0) : (r.pw n v).pr n = v := by simp [RegFile.pr, RegFile.pw, h]

@[simp] theorem RegFile.pr_zero (r : RegFile) : r.pr 0 = BitVec.allOnes 4096 := by simp [RegFile.pr]

theorem RegFile.pr_pw_ne (r : RegFile) {n m : Nat} (v : BitVec 4096) (h : m % 16 ≠ n % 16) : (r.pw n v).pr m = r.pr m := by
  unfold RegFile.pw
  split
  · rfl
  · unfold RegFile.pr
    rw [Tab.getD_set_ne _ _ _ h]

@[simp] theorem RegFile.vr_vw_self (r : RegFile) (n : Nat) (v : BitVec 32768) : (r.vw n v).vr n = v := by simp [RegFile.vr, RegFile.vw]

theorem RegFile.vr_vw_ne (r : RegFile) {n m : Nat} (v : BitVec 32768) (h : m % 64 ≠ n % 64) : (r.vw n v).vr m = r.vr m := by
  simp [RegFile.vr, RegFile.vw, Tab.getD_set_ne _ _ _ h]

@[simp] theorem RegFile.mr_mw_self (r : RegFile) (n : Nat) (v : BitVec 128) : (r.mw n v).mr n = v := by simp [RegFile.mr, RegFile.mw]

theorem RegFile.mr_mw_ne (r : RegFile) {n m : Nat} (v : BitVec 128) (h : m % 16 ≠ n % 16) : (r.mw n v).mr m = r.mr m := by
  simp [RegFile.mr, RegFile.mw, Tab.getD_set_ne _ _ _ h]

/-! ### The step -/

/-- A step with no command waiting and none released is the passing of one AON cycle. -/
theorem step_idle (s : State) (h : s.pending = []) (hr : s.resume = []) : step s = .next s.tick := by
  unfold step
  rw [h, hr]

/-- A step with no command waiting performs the first released one again. -/
theorem step_resume (s : State) (a : Again) (more : List Again) (h : s.pending = [])
    (hr : s.resume = a :: more) {t : State} (ht : exec a.cmd (s.again a more) = .next t) : step s = .next (t.resumed a) := by
  unfold step
  rw [h, hr]
  simp only [ht]

/-- Whatever a step answers, it comes from one of three causes. -/
theorem step_cases {s t : State} (h : step s = .next t) :
    (∃ c rest, s.pending = c :: rest ∧ exec c { s with pending := rest } = .next t)
      ∨ (∃ a more u, s.pending = [] ∧ s.resume = a :: more ∧ exec a.cmd (s.again a more) = .next u ∧ t = u.resumed a)
      ∨ (s.pending = [] ∧ s.resume = [] ∧ t = s.tick) := by
  unfold step at h
  split at h
  · rename_i c rest hp
    exact .inl ⟨c, rest, hp, h⟩
  · rename_i hp
    split at h
    · rename_i a more hr
      split at h
      · rename_i u hu
        exact .inr (.inl ⟨a, more, u, hp, hr, hu, (Host.Outcome.next.inj h).symm⟩)
      · cases h
      · cases h
    · rename_i hr
      exact .inr (.inr ⟨hp, hr, (Host.Outcome.next.inj h).symm⟩)

end Sys2Proof.Machine
end

