-- ==== Sys2Proof/Laws/Trace.lean ====
section
/-! SUPPORT. Events, cairn entries, trace records and the wakes of work: what each leaves as it is. -/

namespace Sys2Proof.Machine

/-! ### A fold of an operation that keeps a field keeps it -/

theorem State.foldl_home {α : Type} (f : State → α → State) (h : ∀ s a, (f s a).home = s.home) (l : List α) (s : State) :
    (l.foldl f s).home = s.home := by
  induction l generalizing s with
  | nil => rfl
  | cons a l ih => rw [List.foldl_cons, ih, h]

theorem State.foldl_strata {α : Type} (f : State → α → State) (h : ∀ s a, (f s a).strata = s.strata) (l : List α) (s : State) :
    (l.foldl f s).strata = s.strata := by
  induction l generalizing s with
  | nil => rfl
  | cons a l ih => rw [List.foldl_cons, ih, h]

theorem State.foldl_rope {α : Type} (f : State → α → State) (h : ∀ s a, (f s a).rope = s.rope) (l : List α) (s : State) :
    (l.foldl f s).rope = s.rope := by
  induction l generalizing s with
  | nil => rfl
  | cons a l ih => rw [List.foldl_cons, ih, h]

theorem State.foldl_cores {α : Type} (f : State → α → State) (h : ∀ s a, (f s a).cores = s.cores) (l : List α) (s : State) :
    (l.foldl f s).cores = s.cores := by
  induction l generalizing s with
  | nil => rfl
  | cons a l ih => rw [List.foldl_cons, ih, h]

theorem State.foldl_kernels {α : Type} (f : State → α → State) (h : ∀ s a, (f s a).kernels = s.kernels) (l : List α) (s : State) :
    (l.foldl f s).kernels = s.kernels := by
  induction l generalizing s with
  | nil => rfl
  | cons a l ih => rw [List.foldl_cons, ih, h]

theorem State.foldl_expert {α : Type} (f : State → α → State) (h : ∀ s a, (f s a).expert = s.expert) (l : List α) (s : State) :
    (l.foldl f s).expert = s.expert := by
  induction l generalizing s with
  | nil => rfl
  | cons a l ih => rw [List.foldl_cons, ih, h]

theorem State.foldl_trav {α : Type} (f : State → α → State) (h : ∀ s a, (f s a).trav = s.trav) (l : List α) (s : State) :
    (l.foldl f s).trav = s.trav := by
  induction l generalizing s with
  | nil => rfl
  | cons a l ih => rw [List.foldl_cons, ih, h]

theorem State.foldl_mor {α : Type} (f : State → α → State) (h : ∀ s a, (f s a).mor = s.mor) (l : List α) (s : State) :
    (l.foldl f s).mor = s.mor := by
  induction l generalizing s with
  | nil => rfl
  | cons a l ih => rw [List.foldl_cons, ih, h]

theorem State.foldl_bci {α : Type} (f : State → α → State) (h : ∀ s a, (f s a).bci = s.bci) (l : List α) (s : State) :
    (l.foldl f s).bci = s.bci := by
  induction l generalizing s with
  | nil => rfl
  | cons a l ih => rw [List.foldl_cons, ih, h]

theorem State.foldl_host {α : Type} (f : State → α → State) (h : ∀ s a, (f s a).host = s.host) (l : List α) (s : State) :
    (l.foldl f s).host = s.host := by
  induction l generalizing s with
  | nil => rfl
  | cons a l ih => rw [List.foldl_cons, ih, h]

theorem State.foldl_lmf {α : Type} (f : State → α → State) (h : ∀ s a, (f s a).lmf = s.lmf) (l : List α) (s : State) :
    (l.foldl f s).lmf = s.lmf := by
  induction l generalizing s with
  | nil => rfl
  | cons a l ih => rw [List.foldl_cons, ih, h]

theorem State.foldl_pow {α : Type} (f : State → α → State) (h : ∀ s a, (f s a).pow = s.pow) (l : List α) (s : State) :
    (l.foldl f s).pow = s.pow := by
  induction l generalizing s with
  | nil => rfl
  | cons a l ih => rw [List.foldl_cons, ih, h]

theorem State.foldl_time {α : Type} (f : State → α → State) (h : ∀ s a, (f s a).time = s.time) (l : List α) (s : State) :
    (l.foldl f s).time = s.time := by
  induction l generalizing s with
  | nil => rfl
  | cons a l ih => rw [List.foldl_cons, ih, h]

theorem State.foldl_rel {α : Type} (f : State → α → State) (h : ∀ s a, (f s a).rel = s.rel) (l : List α) (s : State) :
    (l.foldl f s).rel = s.rel := by
  induction l generalizing s with
  | nil => rfl
  | cons a l ih => rw [List.foldl_cons, ih, h]

theorem State.foldl_sec {α : Type} (f : State → α → State) (h : ∀ s a, (f s a).sec = s.sec) (l : List α) (s : State) :
    (l.foldl f s).sec = s.sec := by
  induction l generalizing s with
  | nil => rfl
  | cons a l ih => rw [List.foldl_cons, ih, h]

theorem State.foldl_obs {α : Type} (f : State → α → State) (h : ∀ s a, (f s a).obs = s.obs) (l : List α) (s : State) :
    (l.foldl f s).obs = s.obs := by
  induction l generalizing s with
  | nil => rfl
  | cons a l ih => rw [List.foldl_cons, ih, h]

theorem State.foldl_pkg {α : Type} (f : State → α → State) (h : ∀ s a, (f s a).pkg = s.pkg) (l : List α) (s : State) :
    (l.foldl f s).pkg = s.pkg := by
  induction l generalizing s with
  | nil => rfl
  | cons a l ih => rw [List.foldl_cons, ih, h]

theorem State.foldl_out {α : Type} (f : State → α → State) (h : ∀ s a, (f s a).out = s.out) (l : List α) (s : State) :
    (l.foldl f s).out = s.out := by
  induction l generalizing s with
  | nil => rfl
  | cons a l ih => rw [List.foldl_cons, ih, h]

theorem State.foldl_resume {α : Type} (f : State → α → State) (h : ∀ s a, (f s a).resume = s.resume) (l : List α) (s : State) :
    (l.foldl f s).resume = s.resume := by
  induction l generalizing s with
  | nil => rfl
  | cons a l ih => rw [List.foldl_cons, ih, h]

theorem State.foldl_replay {α : Type} (f : State → α → State) (h : ∀ s a, (f s a).replay = s.replay) (l : List α) (s : State) :
    (l.foldl f s).replay = s.replay := by
  induction l generalizing s with
  | nil => rfl
  | cons a l ih => rw [List.foldl_cons, ih, h]

theorem State.foldl_freeCtr {α : Type} (f : State → α → State) (h : ∀ s a, (f s a).freeCtr = s.freeCtr) (l : List α) (s : State) :
    (l.foldl f s).freeCtr = s.freeCtr := by
  induction l generalizing s with
  | nil => rfl
  | cons a l ih => rw [List.foldl_cons, ih, h]

theorem State.foldl_nextId {α : Type} (f : State → α → State) (h : ∀ s a, (f s a).nextId = s.nextId) (l : List α) (s : State) :
    (l.foldl f s).nextId = s.nextId := by
  induction l generalizing s with
  | nil => rfl
  | cons a l ih => rw [List.foldl_cons, ih, h]

theorem State.foldl_pending {α : Type} (f : State → α → State) (h : ∀ s a, (f s a).pending = s.pending) (l : List α) (s : State) :
    (l.foldl f s).pending = s.pending := by
  induction l generalizing s with
  | nil => rfl
  | cons a l ih => rw [List.foldl_cons, ih, h]

/-! ### Events, records and wakes -/

/-- An event counts in its unit's counter and in the counters of the context that owns it. -/
@[simp] theorem State.event_keeps (s : State) (hw idx n : Nat) (ctx : Option Nat) :
    (s.event hw idx n ctx).home = s.home ∧ (s.event hw idx n ctx).strata = s.strata ∧ (s.event hw idx n ctx).rope = s.rope ∧ (s.event hw idx n ctx).cores = s.cores ∧ (s.event hw idx n ctx).kernels = s.kernels ∧ (s.event hw idx n ctx).expert = s.expert ∧ (s.event hw idx n ctx).trav = s.trav ∧ (s.event hw idx n ctx).mor = s.mor ∧ (s.event hw idx n ctx).host = s.host ∧ (s.event hw idx n ctx).lmf = s.lmf ∧ (s.event hw idx n ctx).pow = s.pow ∧ (s.event hw idx n ctx).time = s.time ∧ (s.event hw idx n ctx).rel = s.rel ∧ (s.event hw idx n ctx).sec = s.sec ∧ (s.event hw idx n ctx).pkg = s.pkg ∧ (s.event hw idx n ctx).out = s.out ∧ (s.event hw idx n ctx).resume = s.resume ∧ (s.event hw idx n ctx).replay = s.replay ∧ (s.event hw idx n ctx).freeCtr = s.freeCtr ∧ (s.event hw idx n ctx).nextId = s.nextId ∧ (s.event hw idx n ctx).pending = s.pending := by
  simp [State.event]

/-- An event of no context leaves the contexts' counters. -/
@[simp] theorem State.event_bci (s : State) (hw idx n : Nat) : (s.event hw idx n none).bci = s.bci := rfl

/-- An event touches only the event counters of what the controller records. -/
theorem State.event_obs (s : State) (hw idx n : Nat) (ctx : Option Nat) :
    (s.event hw idx n ctx).obs = { s.obs with events := (s.event hw idx n ctx).obs.events } := rfl

@[simp] theorem State.strataEvent_keeps (s : State) (idx n : Nat) :
    (s.strataEvent idx n).home = s.home ∧ (s.strataEvent idx n).strata = s.strata ∧ (s.strataEvent idx n).rope = s.rope ∧ (s.strataEvent idx n).cores = s.cores ∧ (s.strataEvent idx n).kernels = s.kernels ∧ (s.strataEvent idx n).expert = s.expert ∧ (s.strataEvent idx n).trav = s.trav ∧ (s.strataEvent idx n).mor = s.mor ∧ (s.strataEvent idx n).bci = s.bci ∧ (s.strataEvent idx n).host = s.host ∧ (s.strataEvent idx n).lmf = s.lmf ∧ (s.strataEvent idx n).pow = s.pow ∧ (s.strataEvent idx n).time = s.time ∧ (s.strataEvent idx n).rel = s.rel ∧ (s.strataEvent idx n).sec = s.sec ∧ (s.strataEvent idx n).pkg = s.pkg ∧ (s.strataEvent idx n).out = s.out ∧ (s.strataEvent idx n).resume = s.resume ∧ (s.strataEvent idx n).replay = s.replay ∧ (s.strataEvent idx n).freeCtr = s.freeCtr ∧ (s.strataEvent idx n).nextId = s.nextId ∧ (s.strataEvent idx n).pending = s.pending := by
  simp [State.strataEvent]

@[simp] theorem State.errorCount_keeps (s : State) (hw cls : Nat) :
    (s.errorCount hw cls).home = s.home ∧ (s.errorCount hw cls).strata = s.strata ∧ (s.errorCount hw cls).rope = s.rope ∧ (s.errorCount hw cls).cores = s.cores ∧ (s.errorCount hw cls).kernels = s.kernels ∧ (s.errorCount hw cls).expert = s.expert ∧ (s.errorCount hw cls).trav = s.trav ∧ (s.errorCount hw cls).mor = s.mor ∧ (s.errorCount hw cls).bci = s.bci ∧ (s.errorCount hw cls).host = s.host ∧ (s.errorCount hw cls).lmf = s.lmf ∧ (s.errorCount hw cls).pow = s.pow ∧ (s.errorCount hw cls).time = s.time ∧ (s.errorCount hw cls).rel = s.rel ∧ (s.errorCount hw cls).sec = s.sec ∧ (s.errorCount hw cls).pkg = s.pkg ∧ (s.errorCount hw cls).out = s.out ∧ (s.errorCount hw cls).resume = s.resume ∧ (s.errorCount hw cls).replay = s.replay ∧ (s.errorCount hw cls).freeCtr = s.freeCtr ∧ (s.errorCount hw cls).nextId = s.nextId ∧ (s.errorCount hw cls).pending = s.pending := by
  simp [State.errorCount]

/-- A trace record goes into the trace's queue and out by export. -/
@[simp] theorem State.traceFor_keeps (s : State) (selected : Bool) (die typ slots time : Nat) (body : List Word) :
    (s.traceFor selected die typ slots time body).home = s.home ∧ (s.traceFor selected die typ slots time body).strata = s.strata ∧ (s.traceFor selected die typ slots time body).rope = s.rope ∧ (s.traceFor selected die typ slots time body).cores = s.cores ∧ (s.traceFor selected die typ slots time body).kernels = s.kernels ∧ (s.traceFor selected die typ slots time body).expert = s.expert ∧ (s.traceFor selected die typ slots time body).trav = s.trav ∧ (s.traceFor selected die typ slots time body).mor = s.mor ∧ (s.traceFor selected die typ slots time body).bci = s.bci ∧ (s.traceFor selected die typ slots time body).host = s.host ∧ (s.traceFor selected die typ slots time body).lmf = s.lmf ∧ (s.traceFor selected die typ slots time body).pow = s.pow ∧ (s.traceFor selected die typ slots time body).time = s.time ∧ (s.traceFor selected die typ slots time body).rel = s.rel ∧ (s.traceFor selected die typ slots time body).sec = s.sec ∧ (s.traceFor selected die typ slots time body).pkg = s.pkg ∧ (s.traceFor selected die typ slots time body).resume = s.resume ∧ (s.traceFor selected die typ slots time body).replay = s.replay ∧ (s.traceFor selected die typ slots time body).freeCtr = s.freeCtr ∧ (s.traceFor selected die typ slots time body).nextId = s.nextId ∧ (s.traceFor selected die typ slots time body).pending = s.pending := by
  simp [State.traceFor]

@[simp] theorem State.traceGen_keeps (s : State) (die typ slots time : Nat) (body : List Word) :
    (s.traceGen die typ slots time body).home = s.home ∧ (s.traceGen die typ slots time body).strata = s.strata ∧ (s.traceGen die typ slots time body).rope = s.rope ∧ (s.traceGen die typ slots time body).cores = s.cores ∧ (s.traceGen die typ slots time body).kernels = s.kernels ∧ (s.traceGen die typ slots time body).expert = s.expert ∧ (s.traceGen die typ slots time body).trav = s.trav ∧ (s.traceGen die typ slots time body).mor = s.mor ∧ (s.traceGen die typ slots time body).bci = s.bci ∧ (s.traceGen die typ slots time body).host = s.host ∧ (s.traceGen die typ slots time body).lmf = s.lmf ∧ (s.traceGen die typ slots time body).pow = s.pow ∧ (s.traceGen die typ slots time body).time = s.time ∧ (s.traceGen die typ slots time body).rel = s.rel ∧ (s.traceGen die typ slots time body).sec = s.sec ∧ (s.traceGen die typ slots time body).pkg = s.pkg ∧ (s.traceGen die typ slots time body).resume = s.resume ∧ (s.traceGen die typ slots time body).replay = s.replay ∧ (s.traceGen die typ slots time body).freeCtr = s.freeCtr ∧ (s.traceGen die typ slots time body).nextId = s.nextId ∧ (s.traceGen die typ slots time body).pending = s.pending := by
  simp [State.traceGen]

@[simp] theorem State.cairnAt_keeps (s : State) (hw code ctx payload time : Nat) :
    (s.cairnAt hw code ctx payload time).home = s.home ∧ (s.cairnAt hw code ctx payload time).strata = s.strata ∧ (s.cairnAt hw code ctx payload time).rope = s.rope ∧ (s.cairnAt hw code ctx payload time).cores = s.cores ∧ (s.cairnAt hw code ctx payload time).kernels = s.kernels ∧ (s.cairnAt hw code ctx payload time).expert = s.expert ∧ (s.cairnAt hw code ctx payload time).trav = s.trav ∧ (s.cairnAt hw code ctx payload time).mor = s.mor ∧ (s.cairnAt hw code ctx payload time).bci = s.bci ∧ (s.cairnAt hw code ctx payload time).host = s.host ∧ (s.cairnAt hw code ctx payload time).lmf = s.lmf ∧ (s.cairnAt hw code ctx payload time).pow = s.pow ∧ (s.cairnAt hw code ctx payload time).time = s.time ∧ (s.cairnAt hw code ctx payload time).rel = s.rel ∧ (s.cairnAt hw code ctx payload time).sec = s.sec ∧ (s.cairnAt hw code ctx payload time).pkg = s.pkg ∧ (s.cairnAt hw code ctx payload time).resume = s.resume ∧ (s.cairnAt hw code ctx payload time).replay = s.replay ∧ (s.cairnAt hw code ctx payload time).freeCtr = s.freeCtr ∧ (s.cairnAt hw code ctx payload time).nextId = s.nextId ∧ (s.cairnAt hw code ctx payload time).pending = s.pending := by
  unfold State.cairnAt
  split <;> simp

@[simp] theorem State.cairn_keeps (s : State) (hw code ctx payload : Nat) :
    (s.cairn hw code ctx payload).home = s.home ∧ (s.cairn hw code ctx payload).strata = s.strata ∧ (s.cairn hw code ctx payload).rope = s.rope ∧ (s.cairn hw code ctx payload).cores = s.cores ∧ (s.cairn hw code ctx payload).kernels = s.kernels ∧ (s.cairn hw code ctx payload).expert = s.expert ∧ (s.cairn hw code ctx payload).trav = s.trav ∧ (s.cairn hw code ctx payload).mor = s.mor ∧ (s.cairn hw code ctx payload).bci = s.bci ∧ (s.cairn hw code ctx payload).host = s.host ∧ (s.cairn hw code ctx payload).lmf = s.lmf ∧ (s.cairn hw code ctx payload).pow = s.pow ∧ (s.cairn hw code ctx payload).time = s.time ∧ (s.cairn hw code ctx payload).rel = s.rel ∧ (s.cairn hw code ctx payload).sec = s.sec ∧ (s.cairn hw code ctx payload).pkg = s.pkg ∧ (s.cairn hw code ctx payload).resume = s.resume ∧ (s.cairn hw code ctx payload).replay = s.replay ∧ (s.cairn hw code ctx payload).freeCtr = s.freeCtr ∧ (s.cairn hw code ctx payload).nextId = s.nextId ∧ (s.cairn hw code ctx payload).pending = s.pending := by
  simp [State.cairn]

@[simp] theorem State.clockGap_keeps (s : State) (hw cause start stop : Nat) :
    (s.clockGap hw cause start stop).home = s.home ∧ (s.clockGap hw cause start stop).strata = s.strata ∧ (s.clockGap hw cause start stop).rope = s.rope ∧ (s.clockGap hw cause start stop).cores = s.cores ∧ (s.clockGap hw cause start stop).kernels = s.kernels ∧ (s.clockGap hw cause start stop).expert = s.expert ∧ (s.clockGap hw cause start stop).trav = s.trav ∧ (s.clockGap hw cause start stop).mor = s.mor ∧ (s.clockGap hw cause start stop).bci = s.bci ∧ (s.clockGap hw cause start stop).host = s.host ∧ (s.clockGap hw cause start stop).lmf = s.lmf ∧ (s.clockGap hw cause start stop).pow = s.pow ∧ (s.clockGap hw cause start stop).time = s.time ∧ (s.clockGap hw cause start stop).rel = s.rel ∧ (s.clockGap hw cause start stop).sec = s.sec ∧ (s.clockGap hw cause start stop).pkg = s.pkg ∧ (s.clockGap hw cause start stop).resume = s.resume ∧ (s.clockGap hw cause start stop).replay = s.replay ∧ (s.clockGap hw cause start stop).freeCtr = s.freeCtr ∧ (s.clockGap hw cause start stop).nextId = s.nextId ∧ (s.clockGap hw cause start stop).pending = s.pending := by
  simp [State.clockGap]

@[simp] theorem State.wakeWhere_keeps (s : State) (f : Domain → Bool) :
    (s.wakeWhere f).home = s.home ∧ (s.wakeWhere f).strata = s.strata ∧ (s.wakeWhere f).rope = s.rope ∧ (s.wakeWhere f).cores = s.cores ∧ (s.wakeWhere f).kernels = s.kernels ∧ (s.wakeWhere f).expert = s.expert ∧ (s.wakeWhere f).trav = s.trav ∧ (s.wakeWhere f).mor = s.mor ∧ (s.wakeWhere f).bci = s.bci ∧ (s.wakeWhere f).host = s.host ∧ (s.wakeWhere f).lmf = s.lmf ∧ (s.wakeWhere f).time = s.time ∧ (s.wakeWhere f).rel = s.rel ∧ (s.wakeWhere f).sec = s.sec ∧ (s.wakeWhere f).obs = s.obs ∧ (s.wakeWhere f).pkg = s.pkg ∧ (s.wakeWhere f).out = s.out ∧ (s.wakeWhere f).resume = s.resume ∧ (s.wakeWhere f).replay = s.replay ∧ (s.wakeWhere f).freeCtr = s.freeCtr ∧ (s.wakeWhere f).nextId = s.nextId ∧ (s.wakeWhere f).pending = s.pending := by
  simp [State.wakeWhere]

@[simp] theorem State.wakeDomain_keeps (s : State) (d : Domain) :
    (s.wakeDomain d).home = s.home ∧ (s.wakeDomain d).strata = s.strata ∧ (s.wakeDomain d).rope = s.rope ∧ (s.wakeDomain d).cores = s.cores ∧ (s.wakeDomain d).kernels = s.kernels ∧ (s.wakeDomain d).expert = s.expert ∧ (s.wakeDomain d).trav = s.trav ∧ (s.wakeDomain d).mor = s.mor ∧ (s.wakeDomain d).bci = s.bci ∧ (s.wakeDomain d).host = s.host ∧ (s.wakeDomain d).lmf = s.lmf ∧ (s.wakeDomain d).time = s.time ∧ (s.wakeDomain d).rel = s.rel ∧ (s.wakeDomain d).sec = s.sec ∧ (s.wakeDomain d).obs = s.obs ∧ (s.wakeDomain d).pkg = s.pkg ∧ (s.wakeDomain d).out = s.out ∧ (s.wakeDomain d).resume = s.resume ∧ (s.wakeDomain d).replay = s.replay ∧ (s.wakeDomain d).freeCtr = s.freeCtr ∧ (s.wakeDomain d).nextId = s.nextId ∧ (s.wakeDomain d).pending = s.pending := by
  simp [State.wakeDomain]

/-- Work that starts on a unit wakes its domain, starts its counters and leaves a cairn entry. -/
@[simp] theorem State.workStart_keeps (s : State) (hw eid ctx obj : Nat) :
    (s.workStart hw eid ctx obj).home = s.home ∧ (s.workStart hw eid ctx obj).strata = s.strata ∧ (s.workStart hw eid ctx obj).rope = s.rope ∧ (s.workStart hw eid ctx obj).cores = s.cores ∧ (s.workStart hw eid ctx obj).kernels = s.kernels ∧ (s.workStart hw eid ctx obj).expert = s.expert ∧ (s.workStart hw eid ctx obj).trav = s.trav ∧ (s.workStart hw eid ctx obj).mor = s.mor ∧ (s.workStart hw eid ctx obj).host = s.host ∧ (s.workStart hw eid ctx obj).lmf = s.lmf ∧ (s.workStart hw eid ctx obj).time = s.time ∧ (s.workStart hw eid ctx obj).rel = s.rel ∧ (s.workStart hw eid ctx obj).sec = s.sec ∧ (s.workStart hw eid ctx obj).pkg = s.pkg ∧ (s.workStart hw eid ctx obj).resume = s.resume ∧ (s.workStart hw eid ctx obj).replay = s.replay ∧ (s.workStart hw eid ctx obj).freeCtr = s.freeCtr ∧ (s.workStart hw eid ctx obj).nextId = s.nextId ∧ (s.workStart hw eid ctx obj).pending = s.pending := by
  unfold State.workStart
  dsimp only
  split <;> simp

@[simp] theorem State.coreStart_keeps (s : State) (core ctx obj : Nat) :
    (s.coreStart core ctx obj).home = s.home ∧ (s.coreStart core ctx obj).strata = s.strata ∧ (s.coreStart core ctx obj).rope = s.rope ∧ (s.coreStart core ctx obj).cores = s.cores ∧ (s.coreStart core ctx obj).kernels = s.kernels ∧ (s.coreStart core ctx obj).expert = s.expert ∧ (s.coreStart core ctx obj).trav = s.trav ∧ (s.coreStart core ctx obj).mor = s.mor ∧ (s.coreStart core ctx obj).host = s.host ∧ (s.coreStart core ctx obj).lmf = s.lmf ∧ (s.coreStart core ctx obj).time = s.time ∧ (s.coreStart core ctx obj).rel = s.rel ∧ (s.coreStart core ctx obj).sec = s.sec ∧ (s.coreStart core ctx obj).pkg = s.pkg ∧ (s.coreStart core ctx obj).resume = s.resume ∧ (s.coreStart core ctx obj).replay = s.replay ∧ (s.coreStart core ctx obj).freeCtr = s.freeCtr ∧ (s.coreStart core ctx obj).nextId = s.nextId ∧ (s.coreStart core ctx obj).pending = s.pending := by
  simp only [State.coreStart, State.workStart_keeps]
  refine ⟨?_, ?_, ?_, ?_, ?_, ?_, ?_, ?_, ?_, ?_, ?_, ?_, ?_, ?_, ?_, ?_, ?_, ?_, ?_⟩
  · exact State.foldl_home _ (by intros; rfl) _ _
  · exact State.foldl_strata _ (by intros; rfl) _ _
  · exact State.foldl_rope _ (by intros; rfl) _ _
  · exact State.foldl_cores _ (by intros; rfl) _ _
  · exact State.foldl_kernels _ (by intros; rfl) _ _
  · exact State.foldl_expert _ (by intros; rfl) _ _
  · exact State.foldl_trav _ (by intros; rfl) _ _
  · exact State.foldl_mor _ (by intros; rfl) _ _
  · exact State.foldl_host _ (by intros; rfl) _ _
  · exact State.foldl_lmf _ (by intros; rfl) _ _
  · exact State.foldl_time _ (by intros; rfl) _ _
  · exact State.foldl_rel _ (by intros; rfl) _ _
  · exact State.foldl_sec _ (by intros; rfl) _ _
  · exact State.foldl_pkg _ (by intros; rfl) _ _
  · exact State.foldl_resume _ (by intros; rfl) _ _
  · exact State.foldl_replay _ (by intros; rfl) _ _
  · exact State.foldl_freeCtr _ (by intros; rfl) _ _
  · exact State.foldl_nextId _ (by intros; rfl) _ _
  · exact State.foldl_pending _ (by intros; rfl) _ _

@[simp] theorem State.workEnd_keeps (s : State) (hw ctx : Nat) (st : Status) (exc : Nat) :
    (s.workEnd hw ctx st exc).home = s.home ∧ (s.workEnd hw ctx st exc).strata = s.strata ∧ (s.workEnd hw ctx st exc).rope = s.rope ∧ (s.workEnd hw ctx st exc).cores = s.cores ∧ (s.workEnd hw ctx st exc).kernels = s.kernels ∧ (s.workEnd hw ctx st exc).expert = s.expert ∧ (s.workEnd hw ctx st exc).trav = s.trav ∧ (s.workEnd hw ctx st exc).mor = s.mor ∧ (s.workEnd hw ctx st exc).bci = s.bci ∧ (s.workEnd hw ctx st exc).host = s.host ∧ (s.workEnd hw ctx st exc).lmf = s.lmf ∧ (s.workEnd hw ctx st exc).pow = s.pow ∧ (s.workEnd hw ctx st exc).time = s.time ∧ (s.workEnd hw ctx st exc).rel = s.rel ∧ (s.workEnd hw ctx st exc).sec = s.sec ∧ (s.workEnd hw ctx st exc).pkg = s.pkg ∧ (s.workEnd hw ctx st exc).resume = s.resume ∧ (s.workEnd hw ctx st exc).replay = s.replay ∧ (s.workEnd hw ctx st exc).freeCtr = s.freeCtr ∧ (s.workEnd hw ctx st exc).nextId = s.nextId ∧ (s.workEnd hw ctx st exc).pending = s.pending := by
  simp [State.workEnd]

@[simp] theorem State.workResume_keeps (s : State) (f : FaultRec) :
    (s.workResume f).home = s.home ∧ (s.workResume f).strata = s.strata ∧ (s.workResume f).rope = s.rope ∧ (s.workResume f).cores = s.cores ∧ (s.workResume f).kernels = s.kernels ∧ (s.workResume f).expert = s.expert ∧ (s.workResume f).trav = s.trav ∧ (s.workResume f).mor = s.mor ∧ (s.workResume f).bci = s.bci ∧ (s.workResume f).host = s.host ∧ (s.workResume f).lmf = s.lmf ∧ (s.workResume f).pow = s.pow ∧ (s.workResume f).time = s.time ∧ (s.workResume f).rel = s.rel ∧ (s.workResume f).sec = s.sec ∧ (s.workResume f).pkg = s.pkg ∧ (s.workResume f).resume = s.resume ∧ (s.workResume f).replay = s.replay ∧ (s.workResume f).freeCtr = s.freeCtr ∧ (s.workResume f).nextId = s.nextId ∧ (s.workResume f).pending = s.pending := by
  simp [State.workResume, State.foldl_home, State.foldl_strata, State.foldl_rope, State.foldl_cores, State.foldl_kernels, State.foldl_expert, State.foldl_trav, State.foldl_mor, State.foldl_bci, State.foldl_host, State.foldl_lmf, State.foldl_pow, State.foldl_time, State.foldl_rel, State.foldl_sec, State.foldl_pkg, State.foldl_resume, State.foldl_replay, State.foldl_freeCtr, State.foldl_nextId, State.foldl_pending]

end Sys2Proof.Machine
end

