-- ==== Sys2Proof/Laws/Ops.lean ====
section
/-! SUPPORT. Shared operations on regions, pages and tiers: what each leaves as it is. -/

namespace Sys2Proof.Machine

/-! ### The operations -/

@[simp] theorem State.sweepTables_keeps (s : State) :
    (s.sweepTables).home = s.home ∧ (s.sweepTables).rope = s.rope ∧ (s.sweepTables).cores = s.cores ∧ (s.sweepTables).kernels = s.kernels ∧ (s.sweepTables).expert = s.expert ∧ (s.sweepTables).trav = s.trav ∧ (s.sweepTables).mor = s.mor ∧ (s.sweepTables).bci = s.bci ∧ (s.sweepTables).host = s.host ∧ (s.sweepTables).lmf = s.lmf ∧ (s.sweepTables).pow = s.pow ∧ (s.sweepTables).time = s.time ∧ (s.sweepTables).rel = s.rel ∧ (s.sweepTables).sec = s.sec ∧ (s.sweepTables).obs = s.obs ∧ (s.sweepTables).pkg = s.pkg ∧ (s.sweepTables).out = s.out ∧ (s.sweepTables).resume = s.resume ∧ (s.sweepTables).replay = s.replay ∧ (s.sweepTables).freeCtr = s.freeCtr ∧ (s.sweepTables).nextId = s.nextId ∧ (s.sweepTables).pending = s.pending := by
  simp [State.sweepTables]

@[simp] theorem State.nvmeIo_keeps (s : State) (slot : Nat) (op : NvmeOp) (lba n : Nat) :
    (s.nvmeIo slot op lba n).home = s.home ∧ (s.nvmeIo slot op lba n).rope = s.rope ∧ (s.nvmeIo slot op lba n).cores = s.cores ∧ (s.nvmeIo slot op lba n).kernels = s.kernels ∧ (s.nvmeIo slot op lba n).expert = s.expert ∧ (s.nvmeIo slot op lba n).trav = s.trav ∧ (s.nvmeIo slot op lba n).mor = s.mor ∧ (s.nvmeIo slot op lba n).bci = s.bci ∧ (s.nvmeIo slot op lba n).host = s.host ∧ (s.nvmeIo slot op lba n).lmf = s.lmf ∧ (s.nvmeIo slot op lba n).pow = s.pow ∧ (s.nvmeIo slot op lba n).time = s.time ∧ (s.nvmeIo slot op lba n).rel = s.rel ∧ (s.nvmeIo slot op lba n).sec = s.sec ∧ (s.nvmeIo slot op lba n).pkg = s.pkg ∧ (s.nvmeIo slot op lba n).resume = s.resume ∧ (s.nvmeIo slot op lba n).replay = s.replay ∧ (s.nvmeIo slot op lba n).freeCtr = s.freeCtr ∧ (s.nvmeIo slot op lba n).nextId = s.nextId ∧ (s.nvmeIo slot op lba n).pending = s.pending := by
  unfold State.nvmeIo
  (repeat' split) <;> simp

@[simp] theorem State.nvmeAll_keeps (s : State) (op : NvmeOp) (lba n : Nat) :
    (s.nvmeAll op lba n).home = s.home ∧ (s.nvmeAll op lba n).rope = s.rope ∧ (s.nvmeAll op lba n).cores = s.cores ∧ (s.nvmeAll op lba n).kernels = s.kernels ∧ (s.nvmeAll op lba n).expert = s.expert ∧ (s.nvmeAll op lba n).trav = s.trav ∧ (s.nvmeAll op lba n).mor = s.mor ∧ (s.nvmeAll op lba n).bci = s.bci ∧ (s.nvmeAll op lba n).host = s.host ∧ (s.nvmeAll op lba n).lmf = s.lmf ∧ (s.nvmeAll op lba n).pow = s.pow ∧ (s.nvmeAll op lba n).time = s.time ∧ (s.nvmeAll op lba n).rel = s.rel ∧ (s.nvmeAll op lba n).sec = s.sec ∧ (s.nvmeAll op lba n).pkg = s.pkg ∧ (s.nvmeAll op lba n).resume = s.resume ∧ (s.nvmeAll op lba n).replay = s.replay ∧ (s.nvmeAll op lba n).freeCtr = s.freeCtr ∧ (s.nvmeAll op lba n).nextId = s.nextId ∧ (s.nvmeAll op lba n).pending = s.pending := by
  simp [State.nvmeAll, State.foldl_home, State.foldl_rope, State.foldl_cores, State.foldl_kernels, State.foldl_expert, State.foldl_trav, State.foldl_mor, State.foldl_bci, State.foldl_host, State.foldl_lmf, State.foldl_pow, State.foldl_time, State.foldl_rel, State.foldl_sec, State.foldl_pkg, State.foldl_resume, State.foldl_replay, State.foldl_freeCtr, State.foldl_nextId, State.foldl_pending]

@[simp] theorem State.stripesOut_keeps (s : State) (n : Nat) :
    (s.stripesOut n).home = s.home ∧ (s.stripesOut n).rope = s.rope ∧ (s.stripesOut n).cores = s.cores ∧ (s.stripesOut n).kernels = s.kernels ∧ (s.stripesOut n).expert = s.expert ∧ (s.stripesOut n).trav = s.trav ∧ (s.stripesOut n).mor = s.mor ∧ (s.stripesOut n).bci = s.bci ∧ (s.stripesOut n).host = s.host ∧ (s.stripesOut n).lmf = s.lmf ∧ (s.stripesOut n).pow = s.pow ∧ (s.stripesOut n).time = s.time ∧ (s.stripesOut n).rel = s.rel ∧ (s.stripesOut n).sec = s.sec ∧ (s.stripesOut n).pkg = s.pkg ∧ (s.stripesOut n).resume = s.resume ∧ (s.stripesOut n).replay = s.replay ∧ (s.stripesOut n).freeCtr = s.freeCtr ∧ (s.stripesOut n).nextId = s.nextId ∧ (s.stripesOut n).pending = s.pending := by
  induction n generalizing s with
  | zero => simp [State.stripesOut]
  | succ n ih =>
    unfold State.stripesOut
    split <;> simp [ih]

@[simp] theorem State.t2Put_keeps (s : State) (im : Image) :
    (s.t2Put im).home = s.home ∧ (s.t2Put im).rope = s.rope ∧ (s.t2Put im).cores = s.cores ∧ (s.t2Put im).kernels = s.kernels ∧ (s.t2Put im).expert = s.expert ∧ (s.t2Put im).trav = s.trav ∧ (s.t2Put im).mor = s.mor ∧ (s.t2Put im).bci = s.bci ∧ (s.t2Put im).host = s.host ∧ (s.t2Put im).lmf = s.lmf ∧ (s.t2Put im).pow = s.pow ∧ (s.t2Put im).time = s.time ∧ (s.t2Put im).rel = s.rel ∧ (s.t2Put im).sec = s.sec ∧ (s.t2Put im).pkg = s.pkg ∧ (s.t2Put im).resume = s.resume ∧ (s.t2Put im).replay = s.replay ∧ (s.t2Put im).freeCtr = s.freeCtr ∧ (s.t2Put im).nextId = s.nextId ∧ (s.t2Put im).pending = s.pending := by
  simp [State.t2Put]

@[simp] theorem State.t2Get_keeps (s : State) (ref : PageRef) :
    (s.t2Get ref).home = s.home ∧ (s.t2Get ref).rope = s.rope ∧ (s.t2Get ref).cores = s.cores ∧ (s.t2Get ref).kernels = s.kernels ∧ (s.t2Get ref).expert = s.expert ∧ (s.t2Get ref).trav = s.trav ∧ (s.t2Get ref).mor = s.mor ∧ (s.t2Get ref).bci = s.bci ∧ (s.t2Get ref).host = s.host ∧ (s.t2Get ref).lmf = s.lmf ∧ (s.t2Get ref).pow = s.pow ∧ (s.t2Get ref).time = s.time ∧ (s.t2Get ref).rel = s.rel ∧ (s.t2Get ref).sec = s.sec ∧ (s.t2Get ref).pkg = s.pkg ∧ (s.t2Get ref).resume = s.resume ∧ (s.t2Get ref).replay = s.replay ∧ (s.t2Get ref).freeCtr = s.freeCtr ∧ (s.t2Get ref).nextId = s.nextId ∧ (s.t2Get ref).pending = s.pending := by
  unfold State.t2Get
  split <;> simp

@[simp] theorem State.chooseTable_keeps (s : State) (rid : Nat) (r : Region) (bytes : Bytes) :
    (s.chooseTable rid r bytes).1.rope = s.rope ∧ (s.chooseTable rid r bytes).1.cores = s.cores ∧ (s.chooseTable rid r bytes).1.kernels = s.kernels ∧ (s.chooseTable rid r bytes).1.expert = s.expert ∧ (s.chooseTable rid r bytes).1.trav = s.trav ∧ (s.chooseTable rid r bytes).1.mor = s.mor ∧ (s.chooseTable rid r bytes).1.bci = s.bci ∧ (s.chooseTable rid r bytes).1.host = s.host ∧ (s.chooseTable rid r bytes).1.lmf = s.lmf ∧ (s.chooseTable rid r bytes).1.pow = s.pow ∧ (s.chooseTable rid r bytes).1.time = s.time ∧ (s.chooseTable rid r bytes).1.rel = s.rel ∧ (s.chooseTable rid r bytes).1.sec = s.sec ∧ (s.chooseTable rid r bytes).1.pkg = s.pkg ∧ (s.chooseTable rid r bytes).1.out = s.out ∧ (s.chooseTable rid r bytes).1.resume = s.resume ∧ (s.chooseTable rid r bytes).1.replay = s.replay ∧ (s.chooseTable rid r bytes).1.freeCtr = s.freeCtr ∧ (s.chooseTable rid r bytes).1.nextId = s.nextId ∧ (s.chooseTable rid r bytes).1.pending = s.pending := by
  unfold State.chooseTable
  dsimp only
  (repeat' split)
  all_goals (try simp)

/-- Bytes that a memory controller moves count in its events only. -/
@[simp] theorem State.memEvent_keeps (s : State) (layer idx n : Nat) (ref : PageRef) :
    (s.memEvent layer idx n ref).home = s.home ∧ (s.memEvent layer idx n ref).strata = s.strata ∧ (s.memEvent layer idx n ref).rope = s.rope ∧ (s.memEvent layer idx n ref).cores = s.cores ∧ (s.memEvent layer idx n ref).kernels = s.kernels ∧ (s.memEvent layer idx n ref).expert = s.expert ∧ (s.memEvent layer idx n ref).trav = s.trav ∧ (s.memEvent layer idx n ref).mor = s.mor ∧ (s.memEvent layer idx n ref).bci = s.bci ∧ (s.memEvent layer idx n ref).host = s.host ∧ (s.memEvent layer idx n ref).lmf = s.lmf ∧ (s.memEvent layer idx n ref).pow = s.pow ∧ (s.memEvent layer idx n ref).time = s.time ∧ (s.memEvent layer idx n ref).rel = s.rel ∧ (s.memEvent layer idx n ref).sec = s.sec ∧ (s.memEvent layer idx n ref).pkg = s.pkg ∧ (s.memEvent layer idx n ref).out = s.out ∧ (s.memEvent layer idx n ref).resume = s.resume ∧ (s.memEvent layer idx n ref).replay = s.replay ∧ (s.memEvent layer idx n ref).freeCtr = s.freeCtr ∧ (s.memEvent layer idx n ref).nextId = s.nextId ∧ (s.memEvent layer idx n ref).pending = s.pending := by
  simp [State.memEvent]

/-- An encoder's run leaves counts and records only. -/
@[simp] theorem State.encoderRan_keeps (s : State) (ref : PageRef) (p : TierPage) (im : Image) :
    (s.encoderRan ref p im).home = s.home ∧ (s.encoderRan ref p im).strata = s.strata ∧ (s.encoderRan ref p im).rope = s.rope ∧ (s.encoderRan ref p im).cores = s.cores ∧ (s.encoderRan ref p im).kernels = s.kernels ∧ (s.encoderRan ref p im).expert = s.expert ∧ (s.encoderRan ref p im).trav = s.trav ∧ (s.encoderRan ref p im).mor = s.mor ∧ (s.encoderRan ref p im).host = s.host ∧ (s.encoderRan ref p im).lmf = s.lmf ∧ (s.encoderRan ref p im).pow = s.pow ∧ (s.encoderRan ref p im).time = s.time ∧ (s.encoderRan ref p im).rel = s.rel ∧ (s.encoderRan ref p im).sec = s.sec ∧ (s.encoderRan ref p im).pkg = s.pkg ∧ (s.encoderRan ref p im).resume = s.resume ∧ (s.encoderRan ref p im).replay = s.replay ∧ (s.encoderRan ref p im).freeCtr = s.freeCtr ∧ (s.encoderRan ref p im).nextId = s.nextId ∧ (s.encoderRan ref p im).pending = s.pending := by
  simp [State.encoderRan]

@[simp] theorem State.encodeGroup_keeps (s : State) (rid : Nat) (refs : List PageRef) (b : TierPage → Backing) (place : Image → TierPage → TierPage) :
    (s.encodeGroup rid refs b place).rope = s.rope ∧ (s.encodeGroup rid refs b place).cores = s.cores ∧ (s.encodeGroup rid refs b place).kernels = s.kernels ∧ (s.encodeGroup rid refs b place).expert = s.expert ∧ (s.encodeGroup rid refs b place).trav = s.trav ∧ (s.encodeGroup rid refs b place).mor = s.mor ∧ (s.encodeGroup rid refs b place).host = s.host ∧ (s.encodeGroup rid refs b place).lmf = s.lmf ∧ (s.encodeGroup rid refs b place).pow = s.pow ∧ (s.encodeGroup rid refs b place).time = s.time ∧ (s.encodeGroup rid refs b place).rel = s.rel ∧ (s.encodeGroup rid refs b place).sec = s.sec ∧ (s.encodeGroup rid refs b place).pkg = s.pkg ∧ (s.encodeGroup rid refs b place).resume = s.resume ∧ (s.encodeGroup rid refs b place).replay = s.replay ∧ (s.encodeGroup rid refs b place).freeCtr = s.freeCtr ∧ (s.encodeGroup rid refs b place).nextId = s.nextId ∧ (s.encodeGroup rid refs b place).pending = s.pending := by
  refine ⟨?_, ?_, ?_, ?_, ?_, ?_, ?_, ?_, ?_, ?_, ?_, ?_, ?_, ?_, ?_, ?_, ?_, ?_⟩ <;> (unfold State.encodeGroup; (try dsimp only); (repeat' split); all_goals (try simp); all_goals (first | rw [State.foldl_home] | rw [State.foldl_strata] | rw [State.foldl_rope] | rw [State.foldl_cores] | rw [State.foldl_kernels] | rw [State.foldl_expert] | rw [State.foldl_trav] | rw [State.foldl_mor] | rw [State.foldl_bci] | rw [State.foldl_host] | rw [State.foldl_lmf] | rw [State.foldl_pow] | rw [State.foldl_time] | rw [State.foldl_rel] | rw [State.foldl_sec] | rw [State.foldl_obs] | rw [State.foldl_pkg] | rw [State.foldl_out] | rw [State.foldl_resume] | rw [State.foldl_replay] | rw [State.foldl_freeCtr] | rw [State.foldl_nextId] | rw [State.foldl_pending] | skip); all_goals (try simp); all_goals (try (intro s a; (try dsimp only); (repeat' split); all_goals (try simp))))

@[simp] theorem State.writeBackNow_keeps (s : State) (ref : PageRef) :
    (s.writeBackNow ref).rope = s.rope ∧ (s.writeBackNow ref).cores = s.cores ∧ (s.writeBackNow ref).kernels = s.kernels ∧ (s.writeBackNow ref).expert = s.expert ∧ (s.writeBackNow ref).trav = s.trav ∧ (s.writeBackNow ref).mor = s.mor ∧ (s.writeBackNow ref).host = s.host ∧ (s.writeBackNow ref).lmf = s.lmf ∧ (s.writeBackNow ref).pow = s.pow ∧ (s.writeBackNow ref).time = s.time ∧ (s.writeBackNow ref).rel = s.rel ∧ (s.writeBackNow ref).sec = s.sec ∧ (s.writeBackNow ref).pkg = s.pkg ∧ (s.writeBackNow ref).resume = s.resume ∧ (s.writeBackNow ref).replay = s.replay ∧ (s.writeBackNow ref).freeCtr = s.freeCtr ∧ (s.writeBackNow ref).nextId = s.nextId ∧ (s.writeBackNow ref).pending = s.pending := by
  unfold State.writeBackNow
  split <;> simp

@[simp] theorem State.evict_keeps (s : State) (e : PageRef × TierPage) :
    (s.evict e).rope = s.rope ∧ (s.evict e).cores = s.cores ∧ (s.evict e).kernels = s.kernels ∧ (s.evict e).expert = s.expert ∧ (s.evict e).trav = s.trav ∧ (s.evict e).mor = s.mor ∧ (s.evict e).host = s.host ∧ (s.evict e).lmf = s.lmf ∧ (s.evict e).pow = s.pow ∧ (s.evict e).time = s.time ∧ (s.evict e).rel = s.rel ∧ (s.evict e).sec = s.sec ∧ (s.evict e).pkg = s.pkg ∧ (s.evict e).resume = s.resume ∧ (s.evict e).replay = s.replay ∧ (s.evict e).freeCtr = s.freeCtr ∧ (s.evict e).nextId = s.nextId ∧ (s.evict e).pending = s.pending := by
  unfold State.evict
  (repeat' split) <;> simp

@[simp] theorem State.roomT0_keeps (s : State) :
    (s.roomT0).rope = s.rope ∧ (s.roomT0).cores = s.cores ∧ (s.roomT0).kernels = s.kernels ∧ (s.roomT0).expert = s.expert ∧ (s.roomT0).trav = s.trav ∧ (s.roomT0).mor = s.mor ∧ (s.roomT0).host = s.host ∧ (s.roomT0).lmf = s.lmf ∧ (s.roomT0).pow = s.pow ∧ (s.roomT0).time = s.time ∧ (s.roomT0).rel = s.rel ∧ (s.roomT0).sec = s.sec ∧ (s.roomT0).pkg = s.pkg ∧ (s.roomT0).resume = s.resume ∧ (s.roomT0).replay = s.replay ∧ (s.roomT0).freeCtr = s.freeCtr ∧ (s.roomT0).nextId = s.nextId ∧ (s.roomT0).pending = s.pending := by
  unfold State.roomT0
  (repeat' split) <;> simp

@[simp] theorem State.startEvict_keeps (s : State) :
    (s.startEvict).rope = s.rope ∧ (s.startEvict).cores = s.cores ∧ (s.startEvict).kernels = s.kernels ∧ (s.startEvict).expert = s.expert ∧ (s.startEvict).trav = s.trav ∧ (s.startEvict).mor = s.mor ∧ (s.startEvict).host = s.host ∧ (s.startEvict).lmf = s.lmf ∧ (s.startEvict).pow = s.pow ∧ (s.startEvict).time = s.time ∧ (s.startEvict).rel = s.rel ∧ (s.startEvict).sec = s.sec ∧ (s.startEvict).pkg = s.pkg ∧ (s.startEvict).resume = s.resume ∧ (s.startEvict).replay = s.replay ∧ (s.startEvict).freeCtr = s.freeCtr ∧ (s.startEvict).nextId = s.nextId ∧ (s.startEvict).pending = s.pending := by
  unfold State.startEvict
  split <;> simp

@[simp] theorem State.fillT0_keeps (s : State) (ref : PageRef) :
    (s.fillT0 ref).rope = s.rope ∧ (s.fillT0 ref).cores = s.cores ∧ (s.fillT0 ref).kernels = s.kernels ∧ (s.fillT0 ref).expert = s.expert ∧ (s.fillT0 ref).trav = s.trav ∧ (s.fillT0 ref).mor = s.mor ∧ (s.fillT0 ref).host = s.host ∧ (s.fillT0 ref).lmf = s.lmf ∧ (s.fillT0 ref).pow = s.pow ∧ (s.fillT0 ref).time = s.time ∧ (s.fillT0 ref).rel = s.rel ∧ (s.fillT0 ref).sec = s.sec ∧ (s.fillT0 ref).pkg = s.pkg ∧ (s.fillT0 ref).resume = s.resume ∧ (s.fillT0 ref).replay = s.replay ∧ (s.fillT0 ref).freeCtr = s.freeCtr ∧ (s.fillT0 ref).nextId = s.nextId ∧ (s.fillT0 ref).pending = s.pending := by
  unfold State.fillT0
  (repeat' split) <;> simp

@[simp] theorem State.touch_keeps (s : State) (port : Bool) (ref : PageRef) (off n : Nat) :
    (s.touch port ref off n).strata = s.strata ∧ (s.touch port ref off n).rope = s.rope ∧ (s.touch port ref off n).cores = s.cores ∧ (s.touch port ref off n).kernels = s.kernels ∧ (s.touch port ref off n).expert = s.expert ∧ (s.touch port ref off n).trav = s.trav ∧ (s.touch port ref off n).mor = s.mor ∧ (s.touch port ref off n).bci = s.bci ∧ (s.touch port ref off n).host = s.host ∧ (s.touch port ref off n).lmf = s.lmf ∧ (s.touch port ref off n).pow = s.pow ∧ (s.touch port ref off n).time = s.time ∧ (s.touch port ref off n).rel = s.rel ∧ (s.touch port ref off n).sec = s.sec ∧ (s.touch port ref off n).obs = s.obs ∧ (s.touch port ref off n).pkg = s.pkg ∧ (s.touch port ref off n).out = s.out ∧ (s.touch port ref off n).resume = s.resume ∧ (s.touch port ref off n).replay = s.replay ∧ (s.touch port ref off n).freeCtr = s.freeCtr ∧ (s.touch port ref off n).nextId = s.nextId ∧ (s.touch port ref off n).pending = s.pending := by
  unfold State.touch
  dsimp only
  (repeat' split) <;> simp

@[simp] theorem State.parkZero_keeps (s : State) (rid p : Nat) :
    (s.parkZero rid p).strata = s.strata ∧ (s.parkZero rid p).rope = s.rope ∧ (s.parkZero rid p).cores = s.cores ∧ (s.parkZero rid p).kernels = s.kernels ∧ (s.parkZero rid p).expert = s.expert ∧ (s.parkZero rid p).trav = s.trav ∧ (s.parkZero rid p).mor = s.mor ∧ (s.parkZero rid p).bci = s.bci ∧ (s.parkZero rid p).host = s.host ∧ (s.parkZero rid p).lmf = s.lmf ∧ (s.parkZero rid p).pow = s.pow ∧ (s.parkZero rid p).time = s.time ∧ (s.parkZero rid p).rel = s.rel ∧ (s.parkZero rid p).sec = s.sec ∧ (s.parkZero rid p).obs = s.obs ∧ (s.parkZero rid p).pkg = s.pkg ∧ (s.parkZero rid p).out = s.out ∧ (s.parkZero rid p).resume = s.resume ∧ (s.parkZero rid p).replay = s.replay ∧ (s.parkZero rid p).freeCtr = s.freeCtr ∧ (s.parkZero rid p).nextId = s.nextId ∧ (s.parkZero rid p).pending = s.pending := by
  unfold State.parkZero
  split <;> simp

@[simp] theorem State.allocate_keeps (s : State) (rid p : Nat) (r : Region) :
    (s.allocate rid p r).rope = s.rope ∧ (s.allocate rid p r).cores = s.cores ∧ (s.allocate rid p r).kernels = s.kernels ∧ (s.allocate rid p r).expert = s.expert ∧ (s.allocate rid p r).trav = s.trav ∧ (s.allocate rid p r).mor = s.mor ∧ (s.allocate rid p r).host = s.host ∧ (s.allocate rid p r).lmf = s.lmf ∧ (s.allocate rid p r).pow = s.pow ∧ (s.allocate rid p r).time = s.time ∧ (s.allocate rid p r).rel = s.rel ∧ (s.allocate rid p r).sec = s.sec ∧ (s.allocate rid p r).pkg = s.pkg ∧ (s.allocate rid p r).resume = s.resume ∧ (s.allocate rid p r).replay = s.replay ∧ (s.allocate rid p r).freeCtr = s.freeCtr ∧ (s.allocate rid p r).nextId = s.nextId ∧ (s.allocate rid p r).pending = s.pending := by
  unfold State.allocate
  split <;> simp

@[simp] theorem State.ensurePage_keeps (s : State) (rid p : Nat) :
    (s.ensurePage rid p).rope = s.rope ∧ (s.ensurePage rid p).cores = s.cores ∧ (s.ensurePage rid p).kernels = s.kernels ∧ (s.ensurePage rid p).expert = s.expert ∧ (s.ensurePage rid p).trav = s.trav ∧ (s.ensurePage rid p).mor = s.mor ∧ (s.ensurePage rid p).host = s.host ∧ (s.ensurePage rid p).lmf = s.lmf ∧ (s.ensurePage rid p).pow = s.pow ∧ (s.ensurePage rid p).time = s.time ∧ (s.ensurePage rid p).rel = s.rel ∧ (s.ensurePage rid p).sec = s.sec ∧ (s.ensurePage rid p).pkg = s.pkg ∧ (s.ensurePage rid p).resume = s.resume ∧ (s.ensurePage rid p).replay = s.replay ∧ (s.ensurePage rid p).freeCtr = s.freeCtr ∧ (s.ensurePage rid p).nextId = s.nextId ∧ (s.ensurePage rid p).pending = s.pending := by
  unfold State.ensurePage
  (repeat' split) <;> simp

@[simp] theorem State.makeShadow_keeps (s : State) (rid p : Nat) (i : Issuer) :
    (s.makeShadow rid p i).rope = s.rope ∧ (s.makeShadow rid p i).cores = s.cores ∧ (s.makeShadow rid p i).kernels = s.kernels ∧ (s.makeShadow rid p i).expert = s.expert ∧ (s.makeShadow rid p i).trav = s.trav ∧ (s.makeShadow rid p i).mor = s.mor ∧ (s.makeShadow rid p i).host = s.host ∧ (s.makeShadow rid p i).lmf = s.lmf ∧ (s.makeShadow rid p i).pow = s.pow ∧ (s.makeShadow rid p i).time = s.time ∧ (s.makeShadow rid p i).sec = s.sec ∧ (s.makeShadow rid p i).pkg = s.pkg ∧ (s.makeShadow rid p i).resume = s.resume ∧ (s.makeShadow rid p i).replay = s.replay ∧ (s.makeShadow rid p i).freeCtr = s.freeCtr ∧ (s.makeShadow rid p i).nextId = s.nextId ∧ (s.makeShadow rid p i).pending = s.pending := by
  unfold State.makeShadow
  dsimp only
  (repeat' split) <;> simp

@[simp] theorem State.dropShadow_keeps (s : State) (h eid ctx : Nat) :
    (s.dropShadow h eid ctx).rope = s.rope ∧ (s.dropShadow h eid ctx).cores = s.cores ∧ (s.dropShadow h eid ctx).kernels = s.kernels ∧ (s.dropShadow h eid ctx).expert = s.expert ∧ (s.dropShadow h eid ctx).trav = s.trav ∧ (s.dropShadow h eid ctx).mor = s.mor ∧ (s.dropShadow h eid ctx).bci = s.bci ∧ (s.dropShadow h eid ctx).host = s.host ∧ (s.dropShadow h eid ctx).lmf = s.lmf ∧ (s.dropShadow h eid ctx).pow = s.pow ∧ (s.dropShadow h eid ctx).time = s.time ∧ (s.dropShadow h eid ctx).rel = s.rel ∧ (s.dropShadow h eid ctx).sec = s.sec ∧ (s.dropShadow h eid ctx).obs = s.obs ∧ (s.dropShadow h eid ctx).pkg = s.pkg ∧ (s.dropShadow h eid ctx).out = s.out ∧ (s.dropShadow h eid ctx).resume = s.resume ∧ (s.dropShadow h eid ctx).replay = s.replay ∧ (s.dropShadow h eid ctx).freeCtr = s.freeCtr ∧ (s.dropShadow h eid ctx).nextId = s.nextId ∧ (s.dropShadow h eid ctx).pending = s.pending := by
  unfold State.dropShadow
  dsimp only
  (repeat' split) <;> simp

@[simp] theorem State.trimWriters_keeps (s : State) :
    (s.trimWriters).strata = s.strata ∧ (s.trimWriters).rope = s.rope ∧ (s.trimWriters).cores = s.cores ∧ (s.trimWriters).kernels = s.kernels ∧ (s.trimWriters).expert = s.expert ∧ (s.trimWriters).trav = s.trav ∧ (s.trimWriters).mor = s.mor ∧ (s.trimWriters).bci = s.bci ∧ (s.trimWriters).host = s.host ∧ (s.trimWriters).lmf = s.lmf ∧ (s.trimWriters).pow = s.pow ∧ (s.trimWriters).time = s.time ∧ (s.trimWriters).rel = s.rel ∧ (s.trimWriters).sec = s.sec ∧ (s.trimWriters).obs = s.obs ∧ (s.trimWriters).pkg = s.pkg ∧ (s.trimWriters).out = s.out ∧ (s.trimWriters).resume = s.resume ∧ (s.trimWriters).replay = s.replay ∧ (s.trimWriters).freeCtr = s.freeCtr ∧ (s.trimWriters).nextId = s.nextId ∧ (s.trimWriters).pending = s.pending := by
  simp [State.trimWriters]

@[simp] theorem State.collect_keeps (s : State) (h : Nat) :
    (s.collect h).rope = s.rope ∧ (s.collect h).cores = s.cores ∧ (s.collect h).kernels = s.kernels ∧ (s.collect h).expert = s.expert ∧ (s.collect h).trav = s.trav ∧ (s.collect h).mor = s.mor ∧ (s.collect h).bci = s.bci ∧ (s.collect h).host = s.host ∧ (s.collect h).lmf = s.lmf ∧ (s.collect h).pow = s.pow ∧ (s.collect h).time = s.time ∧ (s.collect h).rel = s.rel ∧ (s.collect h).sec = s.sec ∧ (s.collect h).obs = s.obs ∧ (s.collect h).pkg = s.pkg ∧ (s.collect h).out = s.out ∧ (s.collect h).resume = s.resume ∧ (s.collect h).replay = s.replay ∧ (s.collect h).freeCtr = s.freeCtr ∧ (s.collect h).nextId = s.nextId ∧ (s.collect h).pending = s.pending := by
  unfold State.collect
  (repeat' split) <;> simp

@[simp] theorem State.unhold_keeps (s : State) (h holder : Nat) :
    (s.unhold h holder).rope = s.rope ∧ (s.unhold h holder).cores = s.cores ∧ (s.unhold h holder).kernels = s.kernels ∧ (s.unhold h holder).expert = s.expert ∧ (s.unhold h holder).trav = s.trav ∧ (s.unhold h holder).mor = s.mor ∧ (s.unhold h holder).bci = s.bci ∧ (s.unhold h holder).host = s.host ∧ (s.unhold h holder).lmf = s.lmf ∧ (s.unhold h holder).pow = s.pow ∧ (s.unhold h holder).time = s.time ∧ (s.unhold h holder).rel = s.rel ∧ (s.unhold h holder).sec = s.sec ∧ (s.unhold h holder).obs = s.obs ∧ (s.unhold h holder).pkg = s.pkg ∧ (s.unhold h holder).out = s.out ∧ (s.unhold h holder).resume = s.resume ∧ (s.unhold h holder).replay = s.replay ∧ (s.unhold h holder).freeCtr = s.freeCtr ∧ (s.unhold h holder).nextId = s.nextId ∧ (s.unhold h holder).pending = s.pending := by
  simp [State.unhold]

@[simp] theorem State.holdZero_keeps (s : State) (rid p holder : Nat) :
    (s.holdZero rid p holder).strata = s.strata ∧ (s.holdZero rid p holder).rope = s.rope ∧ (s.holdZero rid p holder).cores = s.cores ∧ (s.holdZero rid p holder).kernels = s.kernels ∧ (s.holdZero rid p holder).expert = s.expert ∧ (s.holdZero rid p holder).trav = s.trav ∧ (s.holdZero rid p holder).mor = s.mor ∧ (s.holdZero rid p holder).bci = s.bci ∧ (s.holdZero rid p holder).host = s.host ∧ (s.holdZero rid p holder).lmf = s.lmf ∧ (s.holdZero rid p holder).pow = s.pow ∧ (s.holdZero rid p holder).time = s.time ∧ (s.holdZero rid p holder).rel = s.rel ∧ (s.holdZero rid p holder).sec = s.sec ∧ (s.holdZero rid p holder).obs = s.obs ∧ (s.holdZero rid p holder).pkg = s.pkg ∧ (s.holdZero rid p holder).out = s.out ∧ (s.holdZero rid p holder).resume = s.resume ∧ (s.holdZero rid p holder).replay = s.replay ∧ (s.holdZero rid p holder).freeCtr = s.freeCtr ∧ (s.holdZero rid p holder).nextId = s.nextId ∧ (s.holdZero rid p holder).pending = s.pending := by
  simp [State.holdZero]

@[simp] theorem State.uncapture_keeps (s : State) (holder : Nat) (caps : Caps) :
    (s.uncapture holder caps).rope = s.rope ∧ (s.uncapture holder caps).cores = s.cores ∧ (s.uncapture holder caps).kernels = s.kernels ∧ (s.uncapture holder caps).expert = s.expert ∧ (s.uncapture holder caps).trav = s.trav ∧ (s.uncapture holder caps).mor = s.mor ∧ (s.uncapture holder caps).bci = s.bci ∧ (s.uncapture holder caps).host = s.host ∧ (s.uncapture holder caps).lmf = s.lmf ∧ (s.uncapture holder caps).pow = s.pow ∧ (s.uncapture holder caps).time = s.time ∧ (s.uncapture holder caps).rel = s.rel ∧ (s.uncapture holder caps).sec = s.sec ∧ (s.uncapture holder caps).obs = s.obs ∧ (s.uncapture holder caps).pkg = s.pkg ∧ (s.uncapture holder caps).out = s.out ∧ (s.uncapture holder caps).resume = s.resume ∧ (s.uncapture holder caps).replay = s.replay ∧ (s.uncapture holder caps).freeCtr = s.freeCtr ∧ (s.uncapture holder caps).nextId = s.nextId ∧ (s.uncapture holder caps).pending = s.pending := by
  refine ⟨?_, ?_, ?_, ?_, ?_, ?_, ?_, ?_, ?_, ?_, ?_, ?_, ?_, ?_, ?_, ?_, ?_, ?_, ?_, ?_, ?_⟩ <;>
    (unfold State.uncapture; (first | rw [State.foldl_rope] | rw [State.foldl_cores] | rw [State.foldl_kernels] | rw [State.foldl_expert] | rw [State.foldl_trav] | rw [State.foldl_mor] | rw [State.foldl_bci] | rw [State.foldl_host] | rw [State.foldl_lmf] | rw [State.foldl_pow] | rw [State.foldl_time] | rw [State.foldl_rel] | rw [State.foldl_sec] | rw [State.foldl_obs] | rw [State.foldl_pkg] | rw [State.foldl_out] | rw [State.foldl_resume] | rw [State.foldl_replay] | rw [State.foldl_freeCtr] | rw [State.foldl_nextId] | rw [State.foldl_pending]); intro s a; (repeat' split) <;> simp)

@[simp] theorem State.overlay_keeps (s : State) (holder : Nat) (caps : Caps) :
    (s.overlay holder caps).strata = s.strata ∧ (s.overlay holder caps).rope = s.rope ∧ (s.overlay holder caps).cores = s.cores ∧ (s.overlay holder caps).kernels = s.kernels ∧ (s.overlay holder caps).expert = s.expert ∧ (s.overlay holder caps).trav = s.trav ∧ (s.overlay holder caps).mor = s.mor ∧ (s.overlay holder caps).bci = s.bci ∧ (s.overlay holder caps).host = s.host ∧ (s.overlay holder caps).lmf = s.lmf ∧ (s.overlay holder caps).pow = s.pow ∧ (s.overlay holder caps).time = s.time ∧ (s.overlay holder caps).rel = s.rel ∧ (s.overlay holder caps).sec = s.sec ∧ (s.overlay holder caps).obs = s.obs ∧ (s.overlay holder caps).pkg = s.pkg ∧ (s.overlay holder caps).out = s.out ∧ (s.overlay holder caps).resume = s.resume ∧ (s.overlay holder caps).replay = s.replay ∧ (s.overlay holder caps).freeCtr = s.freeCtr ∧ (s.overlay holder caps).nextId = s.nextId ∧ (s.overlay holder caps).pending = s.pending := by
  refine ⟨?_, ?_, ?_, ?_, ?_, ?_, ?_, ?_, ?_, ?_, ?_, ?_, ?_, ?_, ?_, ?_, ?_, ?_, ?_, ?_, ?_, ?_⟩ <;>
    (unfold State.overlay; (first | rw [State.foldl_strata] | rw [State.foldl_rope] | rw [State.foldl_cores] | rw [State.foldl_kernels] | rw [State.foldl_expert] | rw [State.foldl_trav] | rw [State.foldl_mor] | rw [State.foldl_bci] | rw [State.foldl_host] | rw [State.foldl_lmf] | rw [State.foldl_pow] | rw [State.foldl_time] | rw [State.foldl_rel] | rw [State.foldl_sec] | rw [State.foldl_obs] | rw [State.foldl_pkg] | rw [State.foldl_out] | rw [State.foldl_resume] | rw [State.foldl_replay] | rw [State.foldl_freeCtr] | rw [State.foldl_nextId] | rw [State.foldl_pending]); intro s a; (repeat' split) <;> simp)

@[simp] theorem State.restore_keeps (s : State) (old : List (Nat × Nat × Entry)) :
    (s.restore old).strata = s.strata ∧ (s.restore old).rope = s.rope ∧ (s.restore old).cores = s.cores ∧ (s.restore old).kernels = s.kernels ∧ (s.restore old).expert = s.expert ∧ (s.restore old).trav = s.trav ∧ (s.restore old).mor = s.mor ∧ (s.restore old).bci = s.bci ∧ (s.restore old).host = s.host ∧ (s.restore old).lmf = s.lmf ∧ (s.restore old).pow = s.pow ∧ (s.restore old).time = s.time ∧ (s.restore old).rel = s.rel ∧ (s.restore old).sec = s.sec ∧ (s.restore old).obs = s.obs ∧ (s.restore old).pkg = s.pkg ∧ (s.restore old).out = s.out ∧ (s.restore old).resume = s.resume ∧ (s.restore old).replay = s.replay ∧ (s.restore old).freeCtr = s.freeCtr ∧ (s.restore old).nextId = s.nextId ∧ (s.restore old).pending = s.pending := by
  refine ⟨?_, ?_, ?_, ?_, ?_, ?_, ?_, ?_, ?_, ?_, ?_, ?_, ?_, ?_, ?_, ?_, ?_, ?_, ?_, ?_, ?_, ?_⟩ <;>
    (unfold State.restore; (first | rw [State.foldl_strata] | rw [State.foldl_rope] | rw [State.foldl_cores] | rw [State.foldl_kernels] | rw [State.foldl_expert] | rw [State.foldl_trav] | rw [State.foldl_mor] | rw [State.foldl_bci] | rw [State.foldl_host] | rw [State.foldl_lmf] | rw [State.foldl_pow] | rw [State.foldl_time] | rw [State.foldl_rel] | rw [State.foldl_sec] | rw [State.foldl_obs] | rw [State.foldl_pkg] | rw [State.foldl_out] | rw [State.foldl_resume] | rw [State.foldl_replay] | rw [State.foldl_freeCtr] | rw [State.foldl_nextId] | rw [State.foldl_pending]); intro s a; (repeat' split) <;> simp)

@[simp] theorem State.touchRange_keeps (s : State) (port : Bool) (rid : Nat) (v : View) (off n : Nat) :
    (s.touchRange port rid v off n).strata = s.strata ∧ (s.touchRange port rid v off n).rope = s.rope ∧ (s.touchRange port rid v off n).cores = s.cores ∧ (s.touchRange port rid v off n).kernels = s.kernels ∧ (s.touchRange port rid v off n).expert = s.expert ∧ (s.touchRange port rid v off n).trav = s.trav ∧ (s.touchRange port rid v off n).mor = s.mor ∧ (s.touchRange port rid v off n).bci = s.bci ∧ (s.touchRange port rid v off n).host = s.host ∧ (s.touchRange port rid v off n).lmf = s.lmf ∧ (s.touchRange port rid v off n).pow = s.pow ∧ (s.touchRange port rid v off n).time = s.time ∧ (s.touchRange port rid v off n).rel = s.rel ∧ (s.touchRange port rid v off n).sec = s.sec ∧ (s.touchRange port rid v off n).obs = s.obs ∧ (s.touchRange port rid v off n).pkg = s.pkg ∧ (s.touchRange port rid v off n).out = s.out ∧ (s.touchRange port rid v off n).resume = s.resume ∧ (s.touchRange port rid v off n).replay = s.replay ∧ (s.touchRange port rid v off n).freeCtr = s.freeCtr ∧ (s.touchRange port rid v off n).nextId = s.nextId ∧ (s.touchRange port rid v off n).pending = s.pending := by
  refine ⟨?_, ?_, ?_, ?_, ?_, ?_, ?_, ?_, ?_, ?_, ?_, ?_, ?_, ?_, ?_, ?_, ?_, ?_, ?_, ?_, ?_, ?_⟩ <;>
    (unfold State.touchRange; (first | rw [State.foldl_strata] | rw [State.foldl_rope] | rw [State.foldl_cores] | rw [State.foldl_kernels] | rw [State.foldl_expert] | rw [State.foldl_trav] | rw [State.foldl_mor] | rw [State.foldl_bci] | rw [State.foldl_host] | rw [State.foldl_lmf] | rw [State.foldl_pow] | rw [State.foldl_time] | rw [State.foldl_rel] | rw [State.foldl_sec] | rw [State.foldl_obs] | rw [State.foldl_pkg] | rw [State.foldl_out] | rw [State.foldl_resume] | rw [State.foldl_replay] | rw [State.foldl_freeCtr] | rw [State.foldl_nextId] | rw [State.foldl_pending]); intro s a; (repeat' split) <;> simp)

@[simp] theorem State.putRef_keeps (s : State) (ref : PageRef) (off : Nat) (data : Bytes) :
    (s.putRef ref off data).rope = s.rope ∧ (s.putRef ref off data).cores = s.cores ∧ (s.putRef ref off data).kernels = s.kernels ∧ (s.putRef ref off data).expert = s.expert ∧ (s.putRef ref off data).trav = s.trav ∧ (s.putRef ref off data).mor = s.mor ∧ (s.putRef ref off data).host = s.host ∧ (s.putRef ref off data).lmf = s.lmf ∧ (s.putRef ref off data).pow = s.pow ∧ (s.putRef ref off data).time = s.time ∧ (s.putRef ref off data).rel = s.rel ∧ (s.putRef ref off data).sec = s.sec ∧ (s.putRef ref off data).pkg = s.pkg ∧ (s.putRef ref off data).replay = s.replay ∧ (s.putRef ref off data).freeCtr = s.freeCtr ∧ (s.putRef ref off data).nextId = s.nextId ∧ (s.putRef ref off data).pending = s.pending := by
  unfold State.putRef
  dsimp only
  (repeat' split) <;> simp

@[simp] theorem State.directMap_keeps (s : State) (rid p off n : Nat) (f : Bytes → Bytes) :
    (s.directMap rid p off n f).rope = s.rope ∧ (s.directMap rid p off n f).cores = s.cores ∧ (s.directMap rid p off n f).kernels = s.kernels ∧ (s.directMap rid p off n f).expert = s.expert ∧ (s.directMap rid p off n f).trav = s.trav ∧ (s.directMap rid p off n f).mor = s.mor ∧ (s.directMap rid p off n f).host = s.host ∧ (s.directMap rid p off n f).lmf = s.lmf ∧ (s.directMap rid p off n f).pow = s.pow ∧ (s.directMap rid p off n f).time = s.time ∧ (s.directMap rid p off n f).rel = s.rel ∧ (s.directMap rid p off n f).sec = s.sec ∧ (s.directMap rid p off n f).pkg = s.pkg ∧ (s.directMap rid p off n f).replay = s.replay ∧ (s.directMap rid p off n f).freeCtr = s.freeCtr ∧ (s.directMap rid p off n f).nextId = s.nextId ∧ (s.directMap rid p off n f).pending = s.pending := by
  refine ⟨?_, ?_, ?_, ?_, ?_, ?_, ?_, ?_, ?_, ?_, ?_, ?_, ?_, ?_, ?_, ?_, ?_⟩ <;>
    (unfold State.directMap; dsimp only; (repeat' split) <;> first | (simp; done) | ((first | rw [State.foldl_rope] | rw [State.foldl_cores] | rw [State.foldl_kernels] | rw [State.foldl_expert] | rw [State.foldl_trav] | rw [State.foldl_mor] | rw [State.foldl_host] | rw [State.foldl_lmf] | rw [State.foldl_pow] | rw [State.foldl_time] | rw [State.foldl_rel] | rw [State.foldl_sec] | rw [State.foldl_pkg] | rw [State.foldl_replay] | rw [State.foldl_freeCtr] | rw [State.foldl_nextId] | rw [State.foldl_pending]) <;> first | (simp; done) | (intro s a; (repeat' split) <;> simp)))

@[simp] theorem State.write1_keeps (s : State) (rid : Nat) (w : Way) (off : Nat) (data : Bytes) :
    (s.write1 rid w off data).rope = s.rope ∧ (s.write1 rid w off data).cores = s.cores ∧ (s.write1 rid w off data).kernels = s.kernels ∧ (s.write1 rid w off data).expert = s.expert ∧ (s.write1 rid w off data).trav = s.trav ∧ (s.write1 rid w off data).mor = s.mor ∧ (s.write1 rid w off data).host = s.host ∧ (s.write1 rid w off data).lmf = s.lmf ∧ (s.write1 rid w off data).pow = s.pow ∧ (s.write1 rid w off data).time = s.time ∧ (s.write1 rid w off data).sec = s.sec ∧ (s.write1 rid w off data).pkg = s.pkg ∧ (s.write1 rid w off data).replay = s.replay ∧ (s.write1 rid w off data).freeCtr = s.freeCtr ∧ (s.write1 rid w off data).nextId = s.nextId ∧ (s.write1 rid w off data).pending = s.pending := by
  unfold State.write1
  dsimp only
  (repeat' split) <;> simp

@[simp] theorem State.writePieces_keeps (s : State) (rid : Nat) (w : Way) (data : Bytes) (off0 : Nat) (l : List (Nat × Nat)) :
    (s.writePieces rid w data off0 l).rope = s.rope ∧ (s.writePieces rid w data off0 l).cores = s.cores ∧ (s.writePieces rid w data off0 l).kernels = s.kernels ∧ (s.writePieces rid w data off0 l).expert = s.expert ∧ (s.writePieces rid w data off0 l).trav = s.trav ∧ (s.writePieces rid w data off0 l).mor = s.mor ∧ (s.writePieces rid w data off0 l).host = s.host ∧ (s.writePieces rid w data off0 l).lmf = s.lmf ∧ (s.writePieces rid w data off0 l).pow = s.pow ∧ (s.writePieces rid w data off0 l).time = s.time ∧ (s.writePieces rid w data off0 l).sec = s.sec ∧ (s.writePieces rid w data off0 l).pkg = s.pkg ∧ (s.writePieces rid w data off0 l).replay = s.replay ∧ (s.writePieces rid w data off0 l).freeCtr = s.freeCtr ∧ (s.writePieces rid w data off0 l).nextId = s.nextId ∧ (s.writePieces rid w data off0 l).pending = s.pending := by
  induction l generalizing s with
  | nil => simp [State.writePieces]
  | cons e l ih =>
    obtain ⟨o, n⟩ := e
    simp [State.writePieces, ih]

@[simp] theorem State.writeRange_keeps (s : State) (rid : Nat) (w : Way) (off : Nat) (data : Bytes) :
    (s.writeRange rid w off data).rope = s.rope ∧ (s.writeRange rid w off data).cores = s.cores ∧ (s.writeRange rid w off data).kernels = s.kernels ∧ (s.writeRange rid w off data).expert = s.expert ∧ (s.writeRange rid w off data).trav = s.trav ∧ (s.writeRange rid w off data).mor = s.mor ∧ (s.writeRange rid w off data).host = s.host ∧ (s.writeRange rid w off data).lmf = s.lmf ∧ (s.writeRange rid w off data).pow = s.pow ∧ (s.writeRange rid w off data).time = s.time ∧ (s.writeRange rid w off data).sec = s.sec ∧ (s.writeRange rid w off data).pkg = s.pkg ∧ (s.writeRange rid w off data).replay = s.replay ∧ (s.writeRange rid w off data).freeCtr = s.freeCtr ∧ (s.writeRange rid w off data).nextId = s.nextId ∧ (s.writeRange rid w off data).pending = s.pending := by
  simp [State.writeRange]

@[simp] theorem State.poisonLine_keeps (s : State) (rid : Nat) (w : Way) (off : Nat) :
    (s.poisonLine rid w off).rope = s.rope ∧ (s.poisonLine rid w off).cores = s.cores ∧ (s.poisonLine rid w off).kernels = s.kernels ∧ (s.poisonLine rid w off).expert = s.expert ∧ (s.poisonLine rid w off).trav = s.trav ∧ (s.poisonLine rid w off).mor = s.mor ∧ (s.poisonLine rid w off).host = s.host ∧ (s.poisonLine rid w off).lmf = s.lmf ∧ (s.poisonLine rid w off).pow = s.pow ∧ (s.poisonLine rid w off).time = s.time ∧ (s.poisonLine rid w off).sec = s.sec ∧ (s.poisonLine rid w off).pkg = s.pkg ∧ (s.poisonLine rid w off).resume = s.resume ∧ (s.poisonLine rid w off).replay = s.replay ∧ (s.poisonLine rid w off).freeCtr = s.freeCtr ∧ (s.poisonLine rid w off).nextId = s.nextId ∧ (s.poisonLine rid w off).pending = s.pending := by
  unfold State.poisonLine
  dsimp only
  (repeat' split) <;> simp

@[simp] theorem State.clearLine_keeps (s : State) (rid off : Nat) :
    (s.clearLine rid off).rope = s.rope ∧ (s.clearLine rid off).cores = s.cores ∧ (s.clearLine rid off).kernels = s.kernels ∧ (s.clearLine rid off).expert = s.expert ∧ (s.clearLine rid off).trav = s.trav ∧ (s.clearLine rid off).mor = s.mor ∧ (s.clearLine rid off).host = s.host ∧ (s.clearLine rid off).lmf = s.lmf ∧ (s.clearLine rid off).pow = s.pow ∧ (s.clearLine rid off).time = s.time ∧ (s.clearLine rid off).rel = s.rel ∧ (s.clearLine rid off).sec = s.sec ∧ (s.clearLine rid off).pkg = s.pkg ∧ (s.clearLine rid off).replay = s.replay ∧ (s.clearLine rid off).freeCtr = s.freeCtr ∧ (s.clearLine rid off).nextId = s.nextId ∧ (s.clearLine rid off).pending = s.pending := by
  refine ⟨?_, ?_, ?_, ?_, ?_, ?_, ?_, ?_, ?_, ?_, ?_, ?_, ?_, ?_, ?_, ?_, ?_⟩ <;>
    (unfold State.clearLine; (repeat' split) <;> first | (simp; done) | ((first | rw [State.foldl_rope] | rw [State.foldl_cores] | rw [State.foldl_kernels] | rw [State.foldl_expert] | rw [State.foldl_trav] | rw [State.foldl_mor] | rw [State.foldl_host] | rw [State.foldl_lmf] | rw [State.foldl_pow] | rw [State.foldl_time] | rw [State.foldl_rel] | rw [State.foldl_sec] | rw [State.foldl_pkg] | rw [State.foldl_replay] | rw [State.foldl_freeCtr] | rw [State.foldl_nextId] | rw [State.foldl_pending]) <;> first | (simp; done) | (intro s a; (repeat' split) <;> simp)))

@[simp] theorem State.poisonPage_keeps (s : State) (ref : PageRef) :
    (s.poisonPage ref).strata = s.strata ∧ (s.poisonPage ref).rope = s.rope ∧ (s.poisonPage ref).cores = s.cores ∧ (s.poisonPage ref).kernels = s.kernels ∧ (s.poisonPage ref).expert = s.expert ∧ (s.poisonPage ref).trav = s.trav ∧ (s.poisonPage ref).mor = s.mor ∧ (s.poisonPage ref).bci = s.bci ∧ (s.poisonPage ref).host = s.host ∧ (s.poisonPage ref).lmf = s.lmf ∧ (s.poisonPage ref).pow = s.pow ∧ (s.poisonPage ref).time = s.time ∧ (s.poisonPage ref).rel = s.rel ∧ (s.poisonPage ref).sec = s.sec ∧ (s.poisonPage ref).obs = s.obs ∧ (s.poisonPage ref).pkg = s.pkg ∧ (s.poisonPage ref).out = s.out ∧ (s.poisonPage ref).resume = s.resume ∧ (s.poisonPage ref).replay = s.replay ∧ (s.poisonPage ref).freeCtr = s.freeCtr ∧ (s.poisonPage ref).nextId = s.nextId ∧ (s.poisonPage ref).pending = s.pending := by
  simp [State.poisonPage]

@[simp] theorem State.switchPage_keeps (s : State) (h eid ctx v : Nat) :
    (s.switchPage h eid ctx v).rope = s.rope ∧ (s.switchPage h eid ctx v).cores = s.cores ∧ (s.switchPage h eid ctx v).kernels = s.kernels ∧ (s.switchPage h eid ctx v).expert = s.expert ∧ (s.switchPage h eid ctx v).trav = s.trav ∧ (s.switchPage h eid ctx v).mor = s.mor ∧ (s.switchPage h eid ctx v).bci = s.bci ∧ (s.switchPage h eid ctx v).host = s.host ∧ (s.switchPage h eid ctx v).lmf = s.lmf ∧ (s.switchPage h eid ctx v).pow = s.pow ∧ (s.switchPage h eid ctx v).time = s.time ∧ (s.switchPage h eid ctx v).rel = s.rel ∧ (s.switchPage h eid ctx v).sec = s.sec ∧ (s.switchPage h eid ctx v).obs = s.obs ∧ (s.switchPage h eid ctx v).pkg = s.pkg ∧ (s.switchPage h eid ctx v).out = s.out ∧ (s.switchPage h eid ctx v).resume = s.resume ∧ (s.switchPage h eid ctx v).replay = s.replay ∧ (s.switchPage h eid ctx v).freeCtr = s.freeCtr ∧ (s.switchPage h eid ctx v).nextId = s.nextId ∧ (s.switchPage h eid ctx v).pending = s.pending := by
  unfold State.switchPage
  (repeat' split) <;> simp

@[simp] theorem State.trimOlds_keeps (s : State) :
    (s.trimOlds).rope = s.rope ∧ (s.trimOlds).cores = s.cores ∧ (s.trimOlds).kernels = s.kernels ∧ (s.trimOlds).expert = s.expert ∧ (s.trimOlds).trav = s.trav ∧ (s.trimOlds).mor = s.mor ∧ (s.trimOlds).bci = s.bci ∧ (s.trimOlds).host = s.host ∧ (s.trimOlds).lmf = s.lmf ∧ (s.trimOlds).pow = s.pow ∧ (s.trimOlds).time = s.time ∧ (s.trimOlds).rel = s.rel ∧ (s.trimOlds).sec = s.sec ∧ (s.trimOlds).obs = s.obs ∧ (s.trimOlds).pkg = s.pkg ∧ (s.trimOlds).out = s.out ∧ (s.trimOlds).resume = s.resume ∧ (s.trimOlds).replay = s.replay ∧ (s.trimOlds).freeCtr = s.freeCtr ∧ (s.trimOlds).nextId = s.nextId ∧ (s.trimOlds).pending = s.pending := by
  simp [State.trimOlds]

end Sys2Proof.Machine
end

