-- ==== Sys2Proof/Laws/Record.lean ====
section
/-! SUPPORT. Records, counters, traces, domains and fail-stop: what each operation leaves as it is. -/

namespace Sys2Proof.Machine

@[simp] theorem State.vector_keeps (s : State) (port fn v : Nat) :
    (s.vector port fn v).home = s.home ∧ (s.vector port fn v).strata = s.strata ∧ (s.vector port fn v).rope = s.rope ∧ (s.vector port fn v).cores = s.cores ∧ (s.vector port fn v).kernels = s.kernels ∧ (s.vector port fn v).expert = s.expert ∧ (s.vector port fn v).trav = s.trav ∧ (s.vector port fn v).mor = s.mor ∧ (s.vector port fn v).bci = s.bci ∧ (s.vector port fn v).lmf = s.lmf ∧ (s.vector port fn v).pow = s.pow ∧ (s.vector port fn v).time = s.time ∧ (s.vector port fn v).rel = s.rel ∧ (s.vector port fn v).sec = s.sec ∧ (s.vector port fn v).obs = s.obs ∧ (s.vector port fn v).pkg = s.pkg ∧ (s.vector port fn v).resume = s.resume ∧ (s.vector port fn v).replay = s.replay ∧ (s.vector port fn v).freeCtr = s.freeCtr ∧ (s.vector port fn v).nextId = s.nextId ∧ (s.vector port fn v).pending = s.pending := by
  unfold State.vector
  dsimp only
  (repeat' split) <;> simp

@[simp] theorem State.rsFn_keeps (s : State) (port fn : Nat) :
    (s.rsFn port fn).home = s.home ∧ (s.rsFn port fn).strata = s.strata ∧ (s.rsFn port fn).rope = s.rope ∧ (s.rsFn port fn).cores = s.cores ∧ (s.rsFn port fn).kernels = s.kernels ∧ (s.rsFn port fn).expert = s.expert ∧ (s.rsFn port fn).trav = s.trav ∧ (s.rsFn port fn).mor = s.mor ∧ (s.rsFn port fn).bci = s.bci ∧ (s.rsFn port fn).lmf = s.lmf ∧ (s.rsFn port fn).pow = s.pow ∧ (s.rsFn port fn).time = s.time ∧ (s.rsFn port fn).rel = s.rel ∧ (s.rsFn port fn).sec = s.sec ∧ (s.rsFn port fn).obs = s.obs ∧ (s.rsFn port fn).pkg = s.pkg ∧ (s.rsFn port fn).out = s.out ∧ (s.rsFn port fn).resume = s.resume ∧ (s.rsFn port fn).replay = s.replay ∧ (s.rsFn port fn).freeCtr = s.freeCtr ∧ (s.rsFn port fn).nextId = s.nextId ∧ (s.rsFn port fn).pending = s.pending := by
  simp [State.rsFn]

/-- A record written changes what its write changes. -/
theorem State.recordIn_keeps {s t : State} {rid off : Nat} {data : Bytes} (h : s.recordIn rid off data = some t) :
    t.rope = s.rope ∧ t.cores = s.cores ∧ t.kernels = s.kernels ∧ t.expert = s.expert ∧ t.trav = s.trav ∧ t.mor = s.mor ∧ t.host = s.host ∧ t.lmf = s.lmf ∧ t.pow = s.pow ∧ t.time = s.time ∧ t.sec = s.sec ∧ t.pkg = s.pkg ∧ t.replay = s.replay ∧ t.freeCtr = s.freeCtr ∧ t.nextId = s.nextId ∧ t.pending = s.pending := by
  unfold State.recordIn at h
  split at h
  · cases h
  · split at h
    · cases h
      simp
    · cases h

theorem State.recordAt_keeps {s t : State} {key off : Nat} {data : Bytes} (h : s.recordAt key off data = some t) :
    t.rope = s.rope ∧ t.cores = s.cores ∧ t.kernels = s.kernels ∧ t.expert = s.expert ∧ t.trav = s.trav ∧ t.mor = s.mor ∧ t.host = s.host ∧ t.lmf = s.lmf ∧ t.pow = s.pow ∧ t.time = s.time ∧ t.sec = s.sec ∧ t.pkg = s.pkg ∧ t.replay = s.replay ∧ t.freeCtr = s.freeCtr ∧ t.nextId = s.nextId ∧ t.pending = s.pending := by
  unfold State.recordAt at h
  split at h
  · cases h
  · exact State.recordIn_keeps h

theorem State.recordHeld_keeps {s t : State} {caps : Caps} {key off : Nat} {data : Bytes} (h : s.recordHeld caps key off data = some t) :
    t.rope = s.rope ∧ t.cores = s.cores ∧ t.kernels = s.kernels ∧ t.expert = s.expert ∧ t.trav = s.trav ∧ t.mor = s.mor ∧ t.host = s.host ∧ t.lmf = s.lmf ∧ t.pow = s.pow ∧ t.time = s.time ∧ t.sec = s.sec ∧ t.pkg = s.pkg ∧ t.replay = s.replay ∧ t.freeCtr = s.freeCtr ∧ t.nextId = s.nextId ∧ t.pending = s.pending := by
  unfold State.recordHeld at h
  split at h
  · exact State.recordIn_keeps h
  · exact State.recordAt_keeps h

theorem State.traceSlots_keeps {s t : State} {g : Ring} {slots k : Nat} {ws : List Word} (h : s.traceSlots g slots ws k = some t) :
    t.rope = s.rope ∧ t.cores = s.cores ∧ t.kernels = s.kernels ∧ t.expert = s.expert ∧ t.trav = s.trav ∧ t.mor = s.mor ∧ t.host = s.host ∧ t.lmf = s.lmf ∧ t.pow = s.pow ∧ t.time = s.time ∧ t.sec = s.sec ∧ t.pkg = s.pkg ∧ t.replay = s.replay ∧ t.freeCtr = s.freeCtr ∧ t.nextId = s.nextId ∧ t.pending = s.pending := by
  induction k generalizing s ws with
  | zero =>
    simp only [State.traceSlots, Option.some.injEq] at h
    subst h
    simp
  | succ k ih =>
    simp only [State.traceSlots] at h
    split at h
    · cases h
    · have h1 := ih h
      have h2 := State.recordAt_keeps ‹_›
      simp_all

@[simp] theorem State.traceDrop_keeps (s : State) (die seq : Nat) :
    (s.traceDrop die seq).home = s.home ∧ (s.traceDrop die seq).strata = s.strata ∧ (s.traceDrop die seq).rope = s.rope ∧ (s.traceDrop die seq).cores = s.cores ∧ (s.traceDrop die seq).kernels = s.kernels ∧ (s.traceDrop die seq).expert = s.expert ∧ (s.traceDrop die seq).trav = s.trav ∧ (s.traceDrop die seq).mor = s.mor ∧ (s.traceDrop die seq).bci = s.bci ∧ (s.traceDrop die seq).host = s.host ∧ (s.traceDrop die seq).lmf = s.lmf ∧ (s.traceDrop die seq).pow = s.pow ∧ (s.traceDrop die seq).time = s.time ∧ (s.traceDrop die seq).rel = s.rel ∧ (s.traceDrop die seq).sec = s.sec ∧ (s.traceDrop die seq).pkg = s.pkg ∧ (s.traceDrop die seq).out = s.out ∧ (s.traceDrop die seq).resume = s.resume ∧ (s.traceDrop die seq).replay = s.replay ∧ (s.traceDrop die seq).freeCtr = s.freeCtr ∧ (s.traceDrop die seq).nextId = s.nextId ∧ (s.traceDrop die seq).pending = s.pending := by
  simp [State.traceDrop]

@[simp] theorem State.traceRing_keeps (s : State) (die seq : Nat) (ws : List Word) (k : Nat) :
    (s.traceRing die seq ws k).rope = s.rope ∧ (s.traceRing die seq ws k).cores = s.cores ∧ (s.traceRing die seq ws k).kernels = s.kernels ∧ (s.traceRing die seq ws k).expert = s.expert ∧ (s.traceRing die seq ws k).trav = s.trav ∧ (s.traceRing die seq ws k).mor = s.mor ∧ (s.traceRing die seq ws k).host = s.host ∧ (s.traceRing die seq ws k).lmf = s.lmf ∧ (s.traceRing die seq ws k).pow = s.pow ∧ (s.traceRing die seq ws k).time = s.time ∧ (s.traceRing die seq ws k).sec = s.sec ∧ (s.traceRing die seq ws k).pkg = s.pkg ∧ (s.traceRing die seq ws k).replay = s.replay ∧ (s.traceRing die seq ws k).freeCtr = s.freeCtr ∧ (s.traceRing die seq ws k).nextId = s.nextId ∧ (s.traceRing die seq ws k).pending = s.pending := by
  unfold State.traceRing
  split
  · simp
  · rename_i g _
    dsimp only
    have outer : ∀ s1 : State, (s1.rope = s.rope ∧ s1.cores = s.cores ∧ s1.kernels = s.kernels ∧ s1.expert = s.expert ∧ s1.trav = s.trav ∧ s1.mor = s.mor ∧ s1.host = s.host ∧ s1.lmf = s.lmf ∧ s1.pow = s.pow ∧ s1.time = s.time ∧ s1.sec = s.sec ∧ s1.pkg = s.pkg ∧ s1.replay = s.replay ∧ s1.freeCtr = s.freeCtr ∧ s1.nextId = s.nextId ∧ s1.pending = s.pending) →
        ∀ t, (if (Tab.get? s1.obs.trace.loss die).isSome then s1.traceDrop die seq
          else if s1.obs.trace.used + k < 2 ^ g.log2 then
            match s1.traceSlots g (2 ^ g.log2) ws k with
            | some s' => s'.rsMgmt
            | none => s1.traceDrop die seq
          else s1.traceDrop die seq) = t → t.rope = s.rope ∧ t.cores = s.cores ∧ t.kernels = s.kernels ∧ t.expert = s.expert ∧ t.trav = s.trav ∧ t.mor = s.mor ∧ t.host = s.host ∧ t.lmf = s.lmf ∧ t.pow = s.pow ∧ t.time = s.time ∧ t.sec = s.sec ∧ t.pkg = s.pkg ∧ t.replay = s.replay ∧ t.freeCtr = s.freeCtr ∧ t.nextId = s.nextId ∧ t.pending = s.pending := by
      rintro s1 h t rfl
      (repeat' split) <;> first | (simp [h]; done) | (have h1 := State.traceSlots_keeps ‹_›; simp [h1, h])
    refine outer _ ?_ _ rfl
    (repeat' split) <;> first | (simp; done) | (have h1 := State.traceSlots_keeps ‹_›; simp [h1])

@[simp] theorem State.traceFlush_keeps (s : State) :
    (s.traceFlush).rope = s.rope ∧ (s.traceFlush).cores = s.cores ∧ (s.traceFlush).kernels = s.kernels ∧ (s.traceFlush).expert = s.expert ∧ (s.traceFlush).trav = s.trav ∧ (s.traceFlush).mor = s.mor ∧ (s.traceFlush).host = s.host ∧ (s.traceFlush).lmf = s.lmf ∧ (s.traceFlush).pow = s.pow ∧ (s.traceFlush).time = s.time ∧ (s.traceFlush).sec = s.sec ∧ (s.traceFlush).pkg = s.pkg ∧ (s.traceFlush).replay = s.replay ∧ (s.traceFlush).freeCtr = s.freeCtr ∧ (s.traceFlush).nextId = s.nextId ∧ (s.traceFlush).pending = s.pending := by
  simp [State.traceFlush, State.foldl_rope, State.foldl_cores, State.foldl_kernels, State.foldl_expert, State.foldl_trav, State.foldl_mor, State.foldl_host, State.foldl_lmf, State.foldl_pow, State.foldl_time, State.foldl_sec, State.foldl_pkg, State.foldl_replay, State.foldl_freeCtr, State.foldl_nextId, State.foldl_pending]

@[simp] theorem State.domainUp_keeps (s : State) (d : Domain) :
    (s.domainUp d).rope = s.rope ∧ (s.domainUp d).cores = s.cores ∧ (s.domainUp d).kernels = s.kernels ∧ (s.domainUp d).expert = s.expert ∧ (s.domainUp d).trav = s.trav ∧ (s.domainUp d).mor = s.mor ∧ (s.domainUp d).host = s.host ∧ (s.domainUp d).lmf = s.lmf ∧ (s.domainUp d).time = s.time ∧ (s.domainUp d).sec = s.sec ∧ (s.domainUp d).pkg = s.pkg ∧ (s.domainUp d).replay = s.replay ∧ (s.domainUp d).freeCtr = s.freeCtr ∧ (s.domainUp d).nextId = s.nextId ∧ (s.domainUp d).pending = s.pending := by
  unfold State.domainUp
  dsimp only
  (repeat' split) <;> simp [State.foldl_rope, State.foldl_cores, State.foldl_kernels, State.foldl_expert, State.foldl_trav, State.foldl_mor, State.foldl_bci, State.foldl_host, State.foldl_lmf, State.foldl_time, State.foldl_sec, State.foldl_pkg, State.foldl_resume, State.foldl_replay, State.foldl_freeCtr, State.foldl_nextId, State.foldl_pending]

@[simp] theorem State.bivouacEnd_keeps (s : State) :
    (s.bivouacEnd).home = s.home ∧ (s.bivouacEnd).strata = s.strata ∧ (s.bivouacEnd).rope = s.rope ∧ (s.bivouacEnd).cores = s.cores ∧ (s.bivouacEnd).kernels = s.kernels ∧ (s.bivouacEnd).expert = s.expert ∧ (s.bivouacEnd).trav = s.trav ∧ (s.bivouacEnd).mor = s.mor ∧ (s.bivouacEnd).bci = s.bci ∧ (s.bivouacEnd).host = s.host ∧ (s.bivouacEnd).lmf = s.lmf ∧ (s.bivouacEnd).time = s.time ∧ (s.bivouacEnd).rel = s.rel ∧ (s.bivouacEnd).sec = s.sec ∧ (s.bivouacEnd).obs = s.obs ∧ (s.bivouacEnd).pkg = s.pkg ∧ (s.bivouacEnd).out = s.out ∧ (s.bivouacEnd).resume = s.resume ∧ (s.bivouacEnd).replay = s.replay ∧ (s.bivouacEnd).freeCtr = s.freeCtr ∧ (s.bivouacEnd).nextId = s.nextId ∧ (s.bivouacEnd).pending = s.pending := by
  simp [State.bivouacEnd, State.foldl_home, State.foldl_strata, State.foldl_rope, State.foldl_cores, State.foldl_kernels, State.foldl_expert, State.foldl_trav, State.foldl_mor, State.foldl_bci, State.foldl_host, State.foldl_lmf, State.foldl_time, State.foldl_rel, State.foldl_sec, State.foldl_obs, State.foldl_pkg, State.foldl_out, State.foldl_resume, State.foldl_replay, State.foldl_freeCtr, State.foldl_nextId, State.foldl_pending]

@[simp] theorem State.stir_keeps (s : State) :
    (s.stir).home = s.home ∧ (s.stir).strata = s.strata ∧ (s.stir).rope = s.rope ∧ (s.stir).cores = s.cores ∧ (s.stir).kernels = s.kernels ∧ (s.stir).expert = s.expert ∧ (s.stir).trav = s.trav ∧ (s.stir).mor = s.mor ∧ (s.stir).bci = s.bci ∧ (s.stir).host = s.host ∧ (s.stir).lmf = s.lmf ∧ (s.stir).time = s.time ∧ (s.stir).rel = s.rel ∧ (s.stir).sec = s.sec ∧ (s.stir).obs = s.obs ∧ (s.stir).pkg = s.pkg ∧ (s.stir).out = s.out ∧ (s.stir).resume = s.resume ∧ (s.stir).replay = s.replay ∧ (s.stir).freeCtr = s.freeCtr ∧ (s.stir).nextId = s.nextId ∧ (s.stir).pending = s.pending := by
  unfold State.stir
  split <;> simp

@[simp] theorem State.wakeBasecamp_keeps (s : State) :
    (s.wakeBasecamp).home = s.home ∧ (s.wakeBasecamp).strata = s.strata ∧ (s.wakeBasecamp).rope = s.rope ∧ (s.wakeBasecamp).cores = s.cores ∧ (s.wakeBasecamp).kernels = s.kernels ∧ (s.wakeBasecamp).expert = s.expert ∧ (s.wakeBasecamp).trav = s.trav ∧ (s.wakeBasecamp).mor = s.mor ∧ (s.wakeBasecamp).bci = s.bci ∧ (s.wakeBasecamp).host = s.host ∧ (s.wakeBasecamp).lmf = s.lmf ∧ (s.wakeBasecamp).time = s.time ∧ (s.wakeBasecamp).rel = s.rel ∧ (s.wakeBasecamp).sec = s.sec ∧ (s.wakeBasecamp).obs = s.obs ∧ (s.wakeBasecamp).pkg = s.pkg ∧ (s.wakeBasecamp).out = s.out ∧ (s.wakeBasecamp).resume = s.resume ∧ (s.wakeBasecamp).replay = s.replay ∧ (s.wakeBasecamp).freeCtr = s.freeCtr ∧ (s.wakeBasecamp).nextId = s.nextId ∧ (s.wakeBasecamp).pending = s.pending := by
  simp [State.wakeBasecamp]

@[simp] theorem State.healthCount_keeps (s : State) (hw cls : Nat) :
    (s.healthCount hw cls).home = s.home ∧ (s.healthCount hw cls).strata = s.strata ∧ (s.healthCount hw cls).rope = s.rope ∧ (s.healthCount hw cls).cores = s.cores ∧ (s.healthCount hw cls).kernels = s.kernels ∧ (s.healthCount hw cls).expert = s.expert ∧ (s.healthCount hw cls).trav = s.trav ∧ (s.healthCount hw cls).mor = s.mor ∧ (s.healthCount hw cls).bci = s.bci ∧ (s.healthCount hw cls).host = s.host ∧ (s.healthCount hw cls).lmf = s.lmf ∧ (s.healthCount hw cls).pow = s.pow ∧ (s.healthCount hw cls).time = s.time ∧ (s.healthCount hw cls).sec = s.sec ∧ (s.healthCount hw cls).obs = s.obs ∧ (s.healthCount hw cls).pkg = s.pkg ∧ (s.healthCount hw cls).out = s.out ∧ (s.healthCount hw cls).resume = s.resume ∧ (s.healthCount hw cls).replay = s.replay ∧ (s.healthCount hw cls).freeCtr = s.freeCtr ∧ (s.healthCount hw cls).nextId = s.nextId ∧ (s.healthCount hw cls).pending = s.pending := by
  unfold State.healthCount
  (repeat' split) <;> simp

@[simp] theorem State.quarantineWatch_keeps (s : State) (hw cls : Nat) :
    (s.quarantineWatch hw cls).home = s.home ∧ (s.quarantineWatch hw cls).strata = s.strata ∧ (s.quarantineWatch hw cls).rope = s.rope ∧ (s.quarantineWatch hw cls).cores = s.cores ∧ (s.quarantineWatch hw cls).kernels = s.kernels ∧ (s.quarantineWatch hw cls).expert = s.expert ∧ (s.quarantineWatch hw cls).trav = s.trav ∧ (s.quarantineWatch hw cls).mor = s.mor ∧ (s.quarantineWatch hw cls).bci = s.bci ∧ (s.quarantineWatch hw cls).host = s.host ∧ (s.quarantineWatch hw cls).lmf = s.lmf ∧ (s.quarantineWatch hw cls).pow = s.pow ∧ (s.quarantineWatch hw cls).time = s.time ∧ (s.quarantineWatch hw cls).sec = s.sec ∧ (s.quarantineWatch hw cls).obs = s.obs ∧ (s.quarantineWatch hw cls).pkg = s.pkg ∧ (s.quarantineWatch hw cls).out = s.out ∧ (s.quarantineWatch hw cls).resume = s.resume ∧ (s.quarantineWatch hw cls).replay = s.replay ∧ (s.quarantineWatch hw cls).freeCtr = s.freeCtr ∧ (s.quarantineWatch hw cls).nextId = s.nextId ∧ (s.quarantineWatch hw cls).pending = s.pending := by
  unfold State.quarantineWatch
  split <;> simp

@[simp] theorem State.error_keeps (s : State) (n : ErrorNote) :
    (s.error n).rope = s.rope ∧ (s.error n).cores = s.cores ∧ (s.error n).kernels = s.kernels ∧ (s.error n).expert = s.expert ∧ (s.error n).trav = s.trav ∧ (s.error n).mor = s.mor ∧ (s.error n).host = s.host ∧ (s.error n).lmf = s.lmf ∧ (s.error n).pow = s.pow ∧ (s.error n).time = s.time ∧ (s.error n).sec = s.sec ∧ (s.error n).pkg = s.pkg ∧ (s.error n).replay = s.replay ∧ (s.error n).nextId = s.nextId ∧ (s.error n).pending = s.pending := by
  unfold State.error
  dsimp only
  (repeat' split) <;> simp

@[simp] theorem State.lostRecord_keeps (s : State) (key off ctx : Nat) :
    (s.lostRecord key off ctx).rope = s.rope ∧ (s.lostRecord key off ctx).cores = s.cores ∧ (s.lostRecord key off ctx).kernels = s.kernels ∧ (s.lostRecord key off ctx).expert = s.expert ∧ (s.lostRecord key off ctx).trav = s.trav ∧ (s.lostRecord key off ctx).mor = s.mor ∧ (s.lostRecord key off ctx).host = s.host ∧ (s.lostRecord key off ctx).lmf = s.lmf ∧ (s.lostRecord key off ctx).pow = s.pow ∧ (s.lostRecord key off ctx).time = s.time ∧ (s.lostRecord key off ctx).sec = s.sec ∧ (s.lostRecord key off ctx).pkg = s.pkg ∧ (s.lostRecord key off ctx).replay = s.replay ∧ (s.lostRecord key off ctx).nextId = s.nextId ∧ (s.lostRecord key off ctx).pending = s.pending := by
  simp [State.lostRecord]

@[simp] theorem State.rsNotice_keeps (s : State) (eid ctx : Nat) :
    (s.rsNotice eid ctx).home = s.home ∧ (s.rsNotice eid ctx).strata = s.strata ∧ (s.rsNotice eid ctx).rope = s.rope ∧ (s.rsNotice eid ctx).cores = s.cores ∧ (s.rsNotice eid ctx).kernels = s.kernels ∧ (s.rsNotice eid ctx).expert = s.expert ∧ (s.rsNotice eid ctx).trav = s.trav ∧ (s.rsNotice eid ctx).mor = s.mor ∧ (s.rsNotice eid ctx).bci = s.bci ∧ (s.rsNotice eid ctx).lmf = s.lmf ∧ (s.rsNotice eid ctx).pow = s.pow ∧ (s.rsNotice eid ctx).time = s.time ∧ (s.rsNotice eid ctx).rel = s.rel ∧ (s.rsNotice eid ctx).sec = s.sec ∧ (s.rsNotice eid ctx).obs = s.obs ∧ (s.rsNotice eid ctx).pkg = s.pkg ∧ (s.rsNotice eid ctx).out = s.out ∧ (s.rsNotice eid ctx).resume = s.resume ∧ (s.rsNotice eid ctx).replay = s.replay ∧ (s.rsNotice eid ctx).freeCtr = s.freeCtr ∧ (s.rsNotice eid ctx).nextId = s.nextId ∧ (s.rsNotice eid ctx).pending = s.pending := by
  unfold State.rsNotice
  (try dsimp only)
  (repeat' split)
  all_goals (try simp [State.foldl_home, State.foldl_strata, State.foldl_rope, State.foldl_cores, State.foldl_kernels, State.foldl_expert, State.foldl_trav, State.foldl_mor, State.foldl_bci, State.foldl_host, State.foldl_lmf, State.foldl_pow, State.foldl_time, State.foldl_rel, State.foldl_sec, State.foldl_obs, State.foldl_pkg, State.foldl_out, State.foldl_resume, State.foldl_replay, State.foldl_freeCtr, State.foldl_nextId, State.foldl_pending])

@[simp] theorem State.notice_keeps (s : State) (eid ctx kind : Nat) (aborted : Bool) (st : Status) (src obj deadline : Nat) :
    (s.notice eid ctx kind aborted st src obj deadline).rope = s.rope ∧ (s.notice eid ctx kind aborted st src obj deadline).cores = s.cores ∧ (s.notice eid ctx kind aborted st src obj deadline).kernels = s.kernels ∧ (s.notice eid ctx kind aborted st src obj deadline).expert = s.expert ∧ (s.notice eid ctx kind aborted st src obj deadline).trav = s.trav ∧ (s.notice eid ctx kind aborted st src obj deadline).mor = s.mor ∧ (s.notice eid ctx kind aborted st src obj deadline).lmf = s.lmf ∧ (s.notice eid ctx kind aborted st src obj deadline).pow = s.pow ∧ (s.notice eid ctx kind aborted st src obj deadline).time = s.time ∧ (s.notice eid ctx kind aborted st src obj deadline).sec = s.sec ∧ (s.notice eid ctx kind aborted st src obj deadline).pkg = s.pkg ∧ (s.notice eid ctx kind aborted st src obj deadline).replay = s.replay ∧ (s.notice eid ctx kind aborted st src obj deadline).nextId = s.nextId ∧ (s.notice eid ctx kind aborted st src obj deadline).pending = s.pending := by
  unfold State.notice
  dsimp only
  (repeat' split)
  all_goals (try simp)
  all_goals (try (have h := State.recordAt_keeps ‹_›; simp_all))

@[simp] theorem State.noticeTo_keeps (s : State) (who : Option (Nat × Nat)) (kind : Nat) (aborted : Bool) (st : Status) (src obj deadline : Nat) :
    (s.noticeTo who kind aborted st src obj deadline).rope = s.rope ∧ (s.noticeTo who kind aborted st src obj deadline).cores = s.cores ∧ (s.noticeTo who kind aborted st src obj deadline).kernels = s.kernels ∧ (s.noticeTo who kind aborted st src obj deadline).expert = s.expert ∧ (s.noticeTo who kind aborted st src obj deadline).trav = s.trav ∧ (s.noticeTo who kind aborted st src obj deadline).mor = s.mor ∧ (s.noticeTo who kind aborted st src obj deadline).lmf = s.lmf ∧ (s.noticeTo who kind aborted st src obj deadline).pow = s.pow ∧ (s.noticeTo who kind aborted st src obj deadline).time = s.time ∧ (s.noticeTo who kind aborted st src obj deadline).sec = s.sec ∧ (s.noticeTo who kind aborted st src obj deadline).pkg = s.pkg ∧ (s.noticeTo who kind aborted st src obj deadline).replay = s.replay ∧ (s.noticeTo who kind aborted st src obj deadline).nextId = s.nextId ∧ (s.noticeTo who kind aborted st src obj deadline).pending = s.pending := by
  unfold State.noticeTo
  split <;> simp

@[simp] theorem State.faultWrite_keeps (s : State) (f : FaultRec) :
    (s.faultWrite f).rope = s.rope ∧ (s.faultWrite f).cores = s.cores ∧ (s.faultWrite f).kernels = s.kernels ∧ (s.faultWrite f).expert = s.expert ∧ (s.faultWrite f).trav = s.trav ∧ (s.faultWrite f).mor = s.mor ∧ (s.faultWrite f).lmf = s.lmf ∧ (s.faultWrite f).pow = s.pow ∧ (s.faultWrite f).time = s.time ∧ (s.faultWrite f).sec = s.sec ∧ (s.faultWrite f).pkg = s.pkg ∧ (s.faultWrite f).replay = s.replay ∧ (s.faultWrite f).nextId = s.nextId ∧ (s.faultWrite f).pending = s.pending := by
  unfold State.faultWrite
  dsimp only
  (repeat' split)
  all_goals (try simp)
  all_goals (try (have h := State.recordAt_keeps ‹_›; simp_all))

@[simp] theorem State.faultFlushN_keeps (s : State) (n : Nat) :
    (s.faultFlushN n).rope = s.rope ∧ (s.faultFlushN n).cores = s.cores ∧ (s.faultFlushN n).kernels = s.kernels ∧ (s.faultFlushN n).expert = s.expert ∧ (s.faultFlushN n).trav = s.trav ∧ (s.faultFlushN n).mor = s.mor ∧ (s.faultFlushN n).lmf = s.lmf ∧ (s.faultFlushN n).pow = s.pow ∧ (s.faultFlushN n).time = s.time ∧ (s.faultFlushN n).sec = s.sec ∧ (s.faultFlushN n).pkg = s.pkg ∧ (s.faultFlushN n).replay = s.replay ∧ (s.faultFlushN n).nextId = s.nextId ∧ (s.faultFlushN n).pending = s.pending := by
  induction n generalizing s with
  | zero => simp [State.faultFlushN]
  | succ n ih =>
    simp only [State.faultFlushN]
    split
    · split
      · simp [ih]
      · simp
    · simp

@[simp] theorem State.faultFlush_keeps (s : State) :
    (s.faultFlush).rope = s.rope ∧ (s.faultFlush).cores = s.cores ∧ (s.faultFlush).kernels = s.kernels ∧ (s.faultFlush).expert = s.expert ∧ (s.faultFlush).trav = s.trav ∧ (s.faultFlush).mor = s.mor ∧ (s.faultFlush).lmf = s.lmf ∧ (s.faultFlush).pow = s.pow ∧ (s.faultFlush).time = s.time ∧ (s.faultFlush).sec = s.sec ∧ (s.faultFlush).pkg = s.pkg ∧ (s.faultFlush).replay = s.replay ∧ (s.faultFlush).nextId = s.nextId ∧ (s.faultFlush).pending = s.pending := by
  simp [State.faultFlush]

@[simp] theorem State.partner_keeps (s : State) (event kind loc width ver eid inc : Nat) :
    (s.partner event kind loc width ver eid inc).rope = s.rope ∧ (s.partner event kind loc width ver eid inc).cores = s.cores ∧ (s.partner event kind loc width ver eid inc).kernels = s.kernels ∧ (s.partner event kind loc width ver eid inc).expert = s.expert ∧ (s.partner event kind loc width ver eid inc).trav = s.trav ∧ (s.partner event kind loc width ver eid inc).mor = s.mor ∧ (s.partner event kind loc width ver eid inc).host = s.host ∧ (s.partner event kind loc width ver eid inc).pow = s.pow ∧ (s.partner event kind loc width ver eid inc).time = s.time ∧ (s.partner event kind loc width ver eid inc).sec = s.sec ∧ (s.partner event kind loc width ver eid inc).pkg = s.pkg ∧ (s.partner event kind loc width ver eid inc).replay = s.replay ∧ (s.partner event kind loc width ver eid inc).freeCtr = s.freeCtr ∧ (s.partner event kind loc width ver eid inc).nextId = s.nextId ∧ (s.partner event kind loc width ver eid inc).pending = s.pending := by
  unfold State.partner
  dsimp only
  (repeat' split) <;> simp

@[simp] theorem State.failStop_keeps (s : State) (row : Nat) :
    (s.failStop row).home = s.home ∧ (s.failStop row).strata = s.strata ∧ (s.failStop row).rope = s.rope ∧ (s.failStop row).cores = s.cores ∧ (s.failStop row).kernels = s.kernels ∧ (s.failStop row).expert = s.expert ∧ (s.failStop row).trav = s.trav ∧ (s.failStop row).mor = s.mor ∧ (s.failStop row).bci = s.bci ∧ (s.failStop row).pow = s.pow ∧ (s.failStop row).time = s.time ∧ (s.failStop row).sec = s.sec ∧ (s.failStop row).pkg = s.pkg ∧ (s.failStop row).resume = s.resume ∧ (s.failStop row).nextId = s.nextId ∧ (s.failStop row).pending = s.pending := by
  unfold State.failStop
  split <;> simp

end Sys2Proof.Machine
end

