-- ==== Sys2Proof/Laws/Hold.lean ====
section
/-! SUPPORT. Work in flight, holds, answers and ends: what each operation leaves as it is. -/

namespace Sys2Proof.Machine

@[simp] theorem State.kernelStop_keeps (s : State) (n exc : Nat) (st : Status) (engine bundle : Nat) :
    (s.kernelStop n exc st engine bundle).strata = s.strata ∧ (s.kernelStop n exc st engine bundle).rope = s.rope ∧ (s.kernelStop n exc st engine bundle).kernels = s.kernels ∧ (s.kernelStop n exc st engine bundle).expert = s.expert ∧ (s.kernelStop n exc st engine bundle).trav = s.trav ∧ (s.kernelStop n exc st engine bundle).mor = s.mor ∧ (s.kernelStop n exc st engine bundle).host = s.host ∧ (s.kernelStop n exc st engine bundle).lmf = s.lmf ∧ (s.kernelStop n exc st engine bundle).pow = s.pow ∧ (s.kernelStop n exc st engine bundle).time = s.time ∧ (s.kernelStop n exc st engine bundle).rel = s.rel ∧ (s.kernelStop n exc st engine bundle).sec = s.sec ∧ (s.kernelStop n exc st engine bundle).pkg = s.pkg ∧ (s.kernelStop n exc st engine bundle).out = s.out ∧ (s.kernelStop n exc st engine bundle).resume = s.resume ∧ (s.kernelStop n exc st engine bundle).replay = s.replay ∧ (s.kernelStop n exc st engine bundle).freeCtr = s.freeCtr ∧ (s.kernelStop n exc st engine bundle).nextId = s.nextId ∧ (s.kernelStop n exc st engine bundle).pending = s.pending := by
  unfold State.kernelStop
  dsimp only
  (repeat' split) <;> simp

@[simp] theorem State.accessFail_keeps (s : State) (cmd : Instr) (exc : Nat) (st : Status) :
    (s.accessFail cmd exc st).rope = s.rope ∧ (s.accessFail cmd exc st).kernels = s.kernels ∧ (s.accessFail cmd exc st).expert = s.expert ∧ (s.accessFail cmd exc st).trav = s.trav ∧ (s.accessFail cmd exc st).mor = s.mor ∧ (s.accessFail cmd exc st).host = s.host ∧ (s.accessFail cmd exc st).lmf = s.lmf ∧ (s.accessFail cmd exc st).pow = s.pow ∧ (s.accessFail cmd exc st).time = s.time ∧ (s.accessFail cmd exc st).rel = s.rel ∧ (s.accessFail cmd exc st).sec = s.sec ∧ (s.accessFail cmd exc st).pkg = s.pkg ∧ (s.accessFail cmd exc st).out = s.out ∧ (s.accessFail cmd exc st).resume = s.resume ∧ (s.accessFail cmd exc st).replay = s.replay ∧ (s.accessFail cmd exc st).freeCtr = s.freeCtr ∧ (s.accessFail cmd exc st).nextId = s.nextId ∧ (s.accessFail cmd exc st).pending = s.pending := by
  unfold State.accessFail
  (repeat' split) <;> simp

@[simp] theorem State.kernelFinish_keeps (s : State) (k : KernelRun) (flags : BitVec 5) :
    (s.kernelFinish k flags).rope = s.rope ∧ (s.kernelFinish k flags).cores = s.cores ∧ (s.kernelFinish k flags).kernels = s.kernels ∧ (s.kernelFinish k flags).expert = s.expert ∧ (s.kernelFinish k flags).trav = s.trav ∧ (s.kernelFinish k flags).mor = s.mor ∧ (s.kernelFinish k flags).lmf = s.lmf ∧ (s.kernelFinish k flags).pow = s.pow ∧ (s.kernelFinish k flags).time = s.time ∧ (s.kernelFinish k flags).sec = s.sec ∧ (s.kernelFinish k flags).pkg = s.pkg ∧ (s.kernelFinish k flags).replay = s.replay ∧ (s.kernelFinish k flags).nextId = s.nextId ∧ (s.kernelFinish k flags).pending = s.pending := by
  unfold State.kernelFinish
  dsimp only
  (repeat' split)
  all_goals (try simp)
  all_goals (try (have h := State.recordHeld_keeps ‹_›; simp_all))

@[simp] theorem State.endSaved_keeps (s : State) (n : Nat) (v : Saved) (exc : Nat) (st : Status) :
    (s.endSaved n v exc st).rope = s.rope ∧ (s.endSaved n v exc st).kernels = s.kernels ∧ (s.endSaved n v exc st).expert = s.expert ∧ (s.endSaved n v exc st).trav = s.trav ∧ (s.endSaved n v exc st).mor = s.mor ∧ (s.endSaved n v exc st).lmf = s.lmf ∧ (s.endSaved n v exc st).pow = s.pow ∧ (s.endSaved n v exc st).time = s.time ∧ (s.endSaved n v exc st).sec = s.sec ∧ (s.endSaved n v exc st).pkg = s.pkg ∧ (s.endSaved n v exc st).replay = s.replay ∧ (s.endSaved n v exc st).nextId = s.nextId ∧ (s.endSaved n v exc st).pending = s.pending := by
  simp [State.endSaved, State.foldl_rope, State.foldl_kernels, State.foldl_expert, State.foldl_trav, State.foldl_mor, State.foldl_lmf, State.foldl_pow, State.foldl_time, State.foldl_sec, State.foldl_pkg, State.foldl_replay, State.foldl_nextId, State.foldl_pending]

@[simp] theorem State.restoreNext_keeps (s : State) (n : Nat) :
    (s.restoreNext n).home = s.home ∧ (s.restoreNext n).strata = s.strata ∧ (s.restoreNext n).rope = s.rope ∧ (s.restoreNext n).kernels = s.kernels ∧ (s.restoreNext n).expert = s.expert ∧ (s.restoreNext n).trav = s.trav ∧ (s.restoreNext n).mor = s.mor ∧ (s.restoreNext n).bci = s.bci ∧ (s.restoreNext n).host = s.host ∧ (s.restoreNext n).lmf = s.lmf ∧ (s.restoreNext n).pow = s.pow ∧ (s.restoreNext n).time = s.time ∧ (s.restoreNext n).rel = s.rel ∧ (s.restoreNext n).sec = s.sec ∧ (s.restoreNext n).obs = s.obs ∧ (s.restoreNext n).pkg = s.pkg ∧ (s.restoreNext n).out = s.out ∧ (s.restoreNext n).resume = s.resume ∧ (s.restoreNext n).replay = s.replay ∧ (s.restoreNext n).freeCtr = s.freeCtr ∧ (s.restoreNext n).nextId = s.nextId ∧ (s.restoreNext n).pending = s.pending := by
  unfold State.restoreNext
  dsimp only
  (repeat' split) <;> simp

@[simp] theorem State.endQueued_keeps (s : State) (k : KernelQ) (exc : Nat) (st : Status) :
    (s.endQueued k exc st).rope = s.rope ∧ (s.endQueued k exc st).cores = s.cores ∧ (s.endQueued k exc st).expert = s.expert ∧ (s.endQueued k exc st).trav = s.trav ∧ (s.endQueued k exc st).mor = s.mor ∧ (s.endQueued k exc st).lmf = s.lmf ∧ (s.endQueued k exc st).pow = s.pow ∧ (s.endQueued k exc st).time = s.time ∧ (s.endQueued k exc st).sec = s.sec ∧ (s.endQueued k exc st).pkg = s.pkg ∧ (s.endQueued k exc st).replay = s.replay ∧ (s.endQueued k exc st).nextId = s.nextId ∧ (s.endQueued k exc st).pending = s.pending := by
  simp [State.endQueued]

@[simp] theorem State.erasePin_keeps (s : State) (id : Nat) :
    (s.erasePin id).rope = s.rope ∧ (s.erasePin id).cores = s.cores ∧ (s.erasePin id).kernels = s.kernels ∧ (s.erasePin id).expert = s.expert ∧ (s.erasePin id).trav = s.trav ∧ (s.erasePin id).mor = s.mor ∧ (s.erasePin id).bci = s.bci ∧ (s.erasePin id).host = s.host ∧ (s.erasePin id).lmf = s.lmf ∧ (s.erasePin id).pow = s.pow ∧ (s.erasePin id).time = s.time ∧ (s.erasePin id).rel = s.rel ∧ (s.erasePin id).sec = s.sec ∧ (s.erasePin id).obs = s.obs ∧ (s.erasePin id).pkg = s.pkg ∧ (s.erasePin id).out = s.out ∧ (s.erasePin id).resume = s.resume ∧ (s.erasePin id).replay = s.replay ∧ (s.erasePin id).freeCtr = s.freeCtr ∧ (s.erasePin id).nextId = s.nextId ∧ (s.erasePin id).pending = s.pending := by
  unfold State.erasePin
  split <;> simp

@[simp] theorem State.endPin_keeps (s : State) (id : Nat) :
    (s.endPin id).rope = s.rope ∧ (s.endPin id).cores = s.cores ∧ (s.endPin id).kernels = s.kernels ∧ (s.endPin id).expert = s.expert ∧ (s.endPin id).trav = s.trav ∧ (s.endPin id).mor = s.mor ∧ (s.endPin id).bci = s.bci ∧ (s.endPin id).host = s.host ∧ (s.endPin id).lmf = s.lmf ∧ (s.endPin id).pow = s.pow ∧ (s.endPin id).time = s.time ∧ (s.endPin id).rel = s.rel ∧ (s.endPin id).sec = s.sec ∧ (s.endPin id).obs = s.obs ∧ (s.endPin id).pkg = s.pkg ∧ (s.endPin id).out = s.out ∧ (s.endPin id).resume = s.resume ∧ (s.endPin id).replay = s.replay ∧ (s.endPin id).freeCtr = s.freeCtr ∧ (s.endPin id).nextId = s.nextId ∧ (s.endPin id).pending = s.pending := by
  unfold State.endPin
  split <;> simp

@[simp] theorem State.sweepPins_keeps (s : State) :
    (s.sweepPins).rope = s.rope ∧ (s.sweepPins).cores = s.cores ∧ (s.sweepPins).kernels = s.kernels ∧ (s.sweepPins).expert = s.expert ∧ (s.sweepPins).trav = s.trav ∧ (s.sweepPins).mor = s.mor ∧ (s.sweepPins).bci = s.bci ∧ (s.sweepPins).host = s.host ∧ (s.sweepPins).lmf = s.lmf ∧ (s.sweepPins).pow = s.pow ∧ (s.sweepPins).time = s.time ∧ (s.sweepPins).rel = s.rel ∧ (s.sweepPins).sec = s.sec ∧ (s.sweepPins).obs = s.obs ∧ (s.sweepPins).pkg = s.pkg ∧ (s.sweepPins).out = s.out ∧ (s.sweepPins).resume = s.resume ∧ (s.sweepPins).replay = s.replay ∧ (s.sweepPins).freeCtr = s.freeCtr ∧ (s.sweepPins).nextId = s.nextId ∧ (s.sweepPins).pending = s.pending := by
  simp [State.sweepPins, State.foldl_rope, State.foldl_cores, State.foldl_kernels, State.foldl_expert, State.foldl_trav, State.foldl_mor, State.foldl_bci, State.foldl_host, State.foldl_lmf, State.foldl_pow, State.foldl_time, State.foldl_rel, State.foldl_sec, State.foldl_obs, State.foldl_pkg, State.foldl_out, State.foldl_resume, State.foldl_replay, State.foldl_freeCtr, State.foldl_nextId, State.foldl_pending]

@[simp] theorem State.memopFinish_keeps (s : State) (id : Nat) (ws : List Word) :
    (s.memopFinish id ws).rope = s.rope ∧ (s.memopFinish id ws).cores = s.cores ∧ (s.memopFinish id ws).kernels = s.kernels ∧ (s.memopFinish id ws).expert = s.expert ∧ (s.memopFinish id ws).trav = s.trav ∧ (s.memopFinish id ws).mor = s.mor ∧ (s.memopFinish id ws).host = s.host ∧ (s.memopFinish id ws).lmf = s.lmf ∧ (s.memopFinish id ws).pow = s.pow ∧ (s.memopFinish id ws).time = s.time ∧ (s.memopFinish id ws).sec = s.sec ∧ (s.memopFinish id ws).pkg = s.pkg ∧ (s.memopFinish id ws).replay = s.replay ∧ (s.memopFinish id ws).nextId = s.nextId ∧ (s.memopFinish id ws).pending = s.pending := by
  unfold State.memopFinish
  dsimp only
  (repeat' split)
  all_goals (try simp)
  all_goals (try (have h := State.recordHeld_keeps ‹_›; simp_all))

@[simp] theorem State.endWork_keeps (s : State) (c : Instr) (st : Status) :
    (s.endWork c st).home = s.home ∧ (s.endWork c st).strata = s.strata ∧ (s.endWork c st).rope = s.rope ∧ (s.endWork c st).cores = s.cores ∧ (s.endWork c st).kernels = s.kernels ∧ (s.endWork c st).bci = s.bci ∧ (s.endWork c st).host = s.host ∧ (s.endWork c st).lmf = s.lmf ∧ (s.endWork c st).pow = s.pow ∧ (s.endWork c st).time = s.time ∧ (s.endWork c st).rel = s.rel ∧ (s.endWork c st).sec = s.sec ∧ (s.endWork c st).obs = s.obs ∧ (s.endWork c st).pkg = s.pkg ∧ (s.endWork c st).out = s.out ∧ (s.endWork c st).replay = s.replay ∧ (s.endWork c st).freeCtr = s.freeCtr ∧ (s.endWork c st).nextId = s.nextId ∧ (s.endWork c st).pending = s.pending := by
  unfold State.endWork
  split <;> simp

@[simp] theorem State.logDone_keeps (s : State) (k lseq : Nat) (st : Status) (value : Nat) :
    (s.logDone k lseq st value).strata = s.strata ∧ (s.logDone k lseq st value).rope = s.rope ∧ (s.logDone k lseq st value).cores = s.cores ∧ (s.logDone k lseq st value).kernels = s.kernels ∧ (s.logDone k lseq st value).expert = s.expert ∧ (s.logDone k lseq st value).trav = s.trav ∧ (s.logDone k lseq st value).mor = s.mor ∧ (s.logDone k lseq st value).bci = s.bci ∧ (s.logDone k lseq st value).host = s.host ∧ (s.logDone k lseq st value).lmf = s.lmf ∧ (s.logDone k lseq st value).pow = s.pow ∧ (s.logDone k lseq st value).time = s.time ∧ (s.logDone k lseq st value).rel = s.rel ∧ (s.logDone k lseq st value).sec = s.sec ∧ (s.logDone k lseq st value).obs = s.obs ∧ (s.logDone k lseq st value).pkg = s.pkg ∧ (s.logDone k lseq st value).out = s.out ∧ (s.logDone k lseq st value).resume = s.resume ∧ (s.logDone k lseq st value).replay = s.replay ∧ (s.logDone k lseq st value).freeCtr = s.freeCtr ∧ (s.logDone k lseq st value).nextId = s.nextId ∧ (s.logDone k lseq st value).pending = s.pending := by
  simp [State.logDone]

@[simp] theorem State.toAgent_keeps (s : State) (a op rid ln flag : Nat) (data : Bytes) :
    (s.toAgent a op rid ln flag data).home = s.home ∧ (s.toAgent a op rid ln flag data).strata = s.strata ∧ (s.toAgent a op rid ln flag data).rope = s.rope ∧ (s.toAgent a op rid ln flag data).cores = s.cores ∧ (s.toAgent a op rid ln flag data).kernels = s.kernels ∧ (s.toAgent a op rid ln flag data).expert = s.expert ∧ (s.toAgent a op rid ln flag data).trav = s.trav ∧ (s.toAgent a op rid ln flag data).mor = s.mor ∧ (s.toAgent a op rid ln flag data).bci = s.bci ∧ (s.toAgent a op rid ln flag data).host = s.host ∧ (s.toAgent a op rid ln flag data).lmf = s.lmf ∧ (s.toAgent a op rid ln flag data).pow = s.pow ∧ (s.toAgent a op rid ln flag data).time = s.time ∧ (s.toAgent a op rid ln flag data).rel = s.rel ∧ (s.toAgent a op rid ln flag data).sec = s.sec ∧ (s.toAgent a op rid ln flag data).pkg = s.pkg ∧ (s.toAgent a op rid ln flag data).resume = s.resume ∧ (s.toAgent a op rid ln flag data).replay = s.replay ∧ (s.toAgent a op rid ln flag data).freeCtr = s.freeCtr ∧ (s.toAgent a op rid ln flag data).nextId = s.nextId ∧ (s.toAgent a op rid ln flag data).pending = s.pending := by
  simp [State.toAgent]

@[simp] theorem State.freeLine_keeps (s : State) (rid ln : Nat) :
    (s.freeLine rid ln).home = s.home ∧ (s.freeLine rid ln).strata = s.strata ∧ (s.freeLine rid ln).cores = s.cores ∧ (s.freeLine rid ln).kernels = s.kernels ∧ (s.freeLine rid ln).expert = s.expert ∧ (s.freeLine rid ln).trav = s.trav ∧ (s.freeLine rid ln).mor = s.mor ∧ (s.freeLine rid ln).bci = s.bci ∧ (s.freeLine rid ln).host = s.host ∧ (s.freeLine rid ln).lmf = s.lmf ∧ (s.freeLine rid ln).pow = s.pow ∧ (s.freeLine rid ln).time = s.time ∧ (s.freeLine rid ln).rel = s.rel ∧ (s.freeLine rid ln).sec = s.sec ∧ (s.freeLine rid ln).obs = s.obs ∧ (s.freeLine rid ln).pkg = s.pkg ∧ (s.freeLine rid ln).out = s.out ∧ (s.freeLine rid ln).resume = s.resume ∧ (s.freeLine rid ln).replay = s.replay ∧ (s.freeLine rid ln).freeCtr = s.freeCtr ∧ (s.freeLine rid ln).nextId = s.nextId ∧ (s.freeLine rid ln).pending = s.pending := by
  unfold State.freeLine
  (repeat' split) <;> simp

@[simp] theorem State.askLine_keeps (s : State) (rid ln : Nat) (req : LineReq) :
    (s.askLine rid ln req).home = s.home ∧ (s.askLine rid ln req).strata = s.strata ∧ (s.askLine rid ln req).cores = s.cores ∧ (s.askLine rid ln req).kernels = s.kernels ∧ (s.askLine rid ln req).expert = s.expert ∧ (s.askLine rid ln req).trav = s.trav ∧ (s.askLine rid ln req).mor = s.mor ∧ (s.askLine rid ln req).bci = s.bci ∧ (s.askLine rid ln req).host = s.host ∧ (s.askLine rid ln req).lmf = s.lmf ∧ (s.askLine rid ln req).pow = s.pow ∧ (s.askLine rid ln req).time = s.time ∧ (s.askLine rid ln req).rel = s.rel ∧ (s.askLine rid ln req).sec = s.sec ∧ (s.askLine rid ln req).pkg = s.pkg ∧ (s.askLine rid ln req).resume = s.resume ∧ (s.askLine rid ln req).replay = s.replay ∧ (s.askLine rid ln req).freeCtr = s.freeCtr ∧ (s.askLine rid ln req).nextId = s.nextId ∧ (s.askLine rid ln req).pending = s.pending := by
  unfold State.askLine
  (repeat' split) <;> simp [State.foldl_home, State.foldl_strata, State.foldl_cores, State.foldl_kernels, State.foldl_expert, State.foldl_trav, State.foldl_mor, State.foldl_bci, State.foldl_host, State.foldl_lmf, State.foldl_pow, State.foldl_time, State.foldl_rel, State.foldl_sec, State.foldl_pkg, State.foldl_resume, State.foldl_replay, State.foldl_freeCtr, State.foldl_nextId, State.foldl_pending]

@[simp] theorem State.tidyLine_keeps (s : State) (rid ln : Nat) :
    (s.tidyLine rid ln).home = s.home ∧ (s.tidyLine rid ln).strata = s.strata ∧ (s.tidyLine rid ln).cores = s.cores ∧ (s.tidyLine rid ln).kernels = s.kernels ∧ (s.tidyLine rid ln).expert = s.expert ∧ (s.tidyLine rid ln).trav = s.trav ∧ (s.tidyLine rid ln).mor = s.mor ∧ (s.tidyLine rid ln).bci = s.bci ∧ (s.tidyLine rid ln).host = s.host ∧ (s.tidyLine rid ln).lmf = s.lmf ∧ (s.tidyLine rid ln).pow = s.pow ∧ (s.tidyLine rid ln).time = s.time ∧ (s.tidyLine rid ln).rel = s.rel ∧ (s.tidyLine rid ln).sec = s.sec ∧ (s.tidyLine rid ln).obs = s.obs ∧ (s.tidyLine rid ln).pkg = s.pkg ∧ (s.tidyLine rid ln).out = s.out ∧ (s.tidyLine rid ln).resume = s.resume ∧ (s.tidyLine rid ln).replay = s.replay ∧ (s.tidyLine rid ln).freeCtr = s.freeCtr ∧ (s.tidyLine rid ln).nextId = s.nextId ∧ (s.tidyLine rid ln).pending = s.pending := by
  unfold State.tidyLine
  (repeat' split) <;> simp

@[simp] theorem State.served_keeps (s : State) (rid ln eid : Nat) :
    (s.served rid ln eid).home = s.home ∧ (s.served rid ln eid).strata = s.strata ∧ (s.served rid ln eid).cores = s.cores ∧ (s.served rid ln eid).kernels = s.kernels ∧ (s.served rid ln eid).expert = s.expert ∧ (s.served rid ln eid).trav = s.trav ∧ (s.served rid ln eid).mor = s.mor ∧ (s.served rid ln eid).bci = s.bci ∧ (s.served rid ln eid).host = s.host ∧ (s.served rid ln eid).lmf = s.lmf ∧ (s.served rid ln eid).pow = s.pow ∧ (s.served rid ln eid).time = s.time ∧ (s.served rid ln eid).rel = s.rel ∧ (s.served rid ln eid).sec = s.sec ∧ (s.served rid ln eid).obs = s.obs ∧ (s.served rid ln eid).pkg = s.pkg ∧ (s.served rid ln eid).out = s.out ∧ (s.served rid ln eid).resume = s.resume ∧ (s.served rid ln eid).replay = s.replay ∧ (s.served rid ln eid).freeCtr = s.freeCtr ∧ (s.served rid ln eid).nextId = s.nextId ∧ (s.served rid ln eid).pending = s.pending := by
  unfold State.served
  (repeat' split) <;> simp

@[simp] theorem State.reserve_keeps (s : State) (rid ln eid retry : Nat) :
    (s.reserve rid ln eid retry).home = s.home ∧ (s.reserve rid ln eid retry).strata = s.strata ∧ (s.reserve rid ln eid retry).cores = s.cores ∧ (s.reserve rid ln eid retry).kernels = s.kernels ∧ (s.reserve rid ln eid retry).expert = s.expert ∧ (s.reserve rid ln eid retry).trav = s.trav ∧ (s.reserve rid ln eid retry).mor = s.mor ∧ (s.reserve rid ln eid retry).bci = s.bci ∧ (s.reserve rid ln eid retry).host = s.host ∧ (s.reserve rid ln eid retry).lmf = s.lmf ∧ (s.reserve rid ln eid retry).pow = s.pow ∧ (s.reserve rid ln eid retry).time = s.time ∧ (s.reserve rid ln eid retry).rel = s.rel ∧ (s.reserve rid ln eid retry).sec = s.sec ∧ (s.reserve rid ln eid retry).pkg = s.pkg ∧ (s.reserve rid ln eid retry).out = s.out ∧ (s.reserve rid ln eid retry).resume = s.resume ∧ (s.reserve rid ln eid retry).replay = s.replay ∧ (s.reserve rid ln eid retry).freeCtr = s.freeCtr ∧ (s.reserve rid ln eid retry).nextId = s.nextId ∧ (s.reserve rid ln eid retry).pending = s.pending := by
  unfold State.reserve
  dsimp only
  (repeat' split) <;> simp

@[simp] theorem State.claim_keeps (s : State) (cmd : Instr) :
    (s.claim cmd).home = s.home ∧ (s.claim cmd).strata = s.strata ∧ (s.claim cmd).cores = s.cores ∧ (s.claim cmd).kernels = s.kernels ∧ (s.claim cmd).expert = s.expert ∧ (s.claim cmd).trav = s.trav ∧ (s.claim cmd).mor = s.mor ∧ (s.claim cmd).bci = s.bci ∧ (s.claim cmd).host = s.host ∧ (s.claim cmd).lmf = s.lmf ∧ (s.claim cmd).pow = s.pow ∧ (s.claim cmd).time = s.time ∧ (s.claim cmd).rel = s.rel ∧ (s.claim cmd).sec = s.sec ∧ (s.claim cmd).obs = s.obs ∧ (s.claim cmd).pkg = s.pkg ∧ (s.claim cmd).out = s.out ∧ (s.claim cmd).resume = s.resume ∧ (s.claim cmd).replay = s.replay ∧ (s.claim cmd).freeCtr = s.freeCtr ∧ (s.claim cmd).nextId = s.nextId ∧ (s.claim cmd).pending = s.pending := by
  simp [State.claim, State.foldl_home, State.foldl_strata, State.foldl_cores, State.foldl_kernels, State.foldl_expert, State.foldl_trav, State.foldl_mor, State.foldl_bci, State.foldl_host, State.foldl_lmf, State.foldl_pow, State.foldl_time, State.foldl_rel, State.foldl_sec, State.foldl_obs, State.foldl_pkg, State.foldl_out, State.foldl_resume, State.foldl_replay, State.foldl_freeCtr, State.foldl_nextId, State.foldl_pending]

@[simp] theorem State.takeUp_keeps (s : State) (a : Again) :
    (s.takeUp a).home = s.home ∧ (s.takeUp a).strata = s.strata ∧ (s.takeUp a).cores = s.cores ∧ (s.takeUp a).kernels = s.kernels ∧ (s.takeUp a).expert = s.expert ∧ (s.takeUp a).trav = s.trav ∧ (s.takeUp a).mor = s.mor ∧ (s.takeUp a).bci = s.bci ∧ (s.takeUp a).host = s.host ∧ (s.takeUp a).lmf = s.lmf ∧ (s.takeUp a).pow = s.pow ∧ (s.takeUp a).time = s.time ∧ (s.takeUp a).rel = s.rel ∧ (s.takeUp a).sec = s.sec ∧ (s.takeUp a).obs = s.obs ∧ (s.takeUp a).pkg = s.pkg ∧ (s.takeUp a).out = s.out ∧ (s.takeUp a).resume = s.resume ∧ (s.takeUp a).replay = s.replay ∧ (s.takeUp a).freeCtr = s.freeCtr ∧ (s.takeUp a).nextId = s.nextId ∧ (s.takeUp a).pending = s.pending := by
  unfold State.takeUp
  dsimp only
  (repeat' split) <;> simp

@[simp] theorem State.forsake_keeps (s : State) (cmd : Instr) :
    (s.forsake cmd).home = s.home ∧ (s.forsake cmd).strata = s.strata ∧ (s.forsake cmd).cores = s.cores ∧ (s.forsake cmd).kernels = s.kernels ∧ (s.forsake cmd).expert = s.expert ∧ (s.forsake cmd).trav = s.trav ∧ (s.forsake cmd).mor = s.mor ∧ (s.forsake cmd).bci = s.bci ∧ (s.forsake cmd).host = s.host ∧ (s.forsake cmd).lmf = s.lmf ∧ (s.forsake cmd).pow = s.pow ∧ (s.forsake cmd).time = s.time ∧ (s.forsake cmd).rel = s.rel ∧ (s.forsake cmd).sec = s.sec ∧ (s.forsake cmd).obs = s.obs ∧ (s.forsake cmd).pkg = s.pkg ∧ (s.forsake cmd).out = s.out ∧ (s.forsake cmd).resume = s.resume ∧ (s.forsake cmd).replay = s.replay ∧ (s.forsake cmd).freeCtr = s.freeCtr ∧ (s.forsake cmd).nextId = s.nextId ∧ (s.forsake cmd).pending = s.pending := by
  simp [State.forsake]

@[simp] theorem State.nackOwn_keeps (s : State) (rid ln : Nat) (a : HoldAs) :
    (s.nackOwn rid ln a).strata = s.strata ∧ (s.nackOwn rid ln a).cores = s.cores ∧ (s.nackOwn rid ln a).kernels = s.kernels ∧ (s.nackOwn rid ln a).expert = s.expert ∧ (s.nackOwn rid ln a).trav = s.trav ∧ (s.nackOwn rid ln a).mor = s.mor ∧ (s.nackOwn rid ln a).host = s.host ∧ (s.nackOwn rid ln a).lmf = s.lmf ∧ (s.nackOwn rid ln a).pow = s.pow ∧ (s.nackOwn rid ln a).time = s.time ∧ (s.nackOwn rid ln a).rel = s.rel ∧ (s.nackOwn rid ln a).sec = s.sec ∧ (s.nackOwn rid ln a).pkg = s.pkg ∧ (s.nackOwn rid ln a).out = s.out ∧ (s.nackOwn rid ln a).resume = s.resume ∧ (s.nackOwn rid ln a).replay = s.replay ∧ (s.nackOwn rid ln a).pending = s.pending := by
  simp [State.nackOwn]

@[simp] theorem State.startRoomN_keeps (s : State) (n : Nat) :
    (s.startRoomN n).rope = s.rope ∧ (s.startRoomN n).cores = s.cores ∧ (s.startRoomN n).kernels = s.kernels ∧ (s.startRoomN n).expert = s.expert ∧ (s.startRoomN n).trav = s.trav ∧ (s.startRoomN n).mor = s.mor ∧ (s.startRoomN n).host = s.host ∧ (s.startRoomN n).lmf = s.lmf ∧ (s.startRoomN n).pow = s.pow ∧ (s.startRoomN n).time = s.time ∧ (s.startRoomN n).rel = s.rel ∧ (s.startRoomN n).sec = s.sec ∧ (s.startRoomN n).pkg = s.pkg ∧ (s.startRoomN n).resume = s.resume ∧ (s.startRoomN n).replay = s.replay ∧ (s.startRoomN n).freeCtr = s.freeCtr ∧ (s.startRoomN n).nextId = s.nextId ∧ (s.startRoomN n).pending = s.pending := by
  induction n generalizing s with
  | zero => simp [State.startRoomN]
  | succ n ih =>
    unfold State.startRoomN
    (repeat' split) <;> simp [ih]

@[simp] theorem State.startRoom_keeps (s : State) :
    (s.startRoom).rope = s.rope ∧ (s.startRoom).cores = s.cores ∧ (s.startRoom).kernels = s.kernels ∧ (s.startRoom).expert = s.expert ∧ (s.startRoom).trav = s.trav ∧ (s.startRoom).mor = s.mor ∧ (s.startRoom).host = s.host ∧ (s.startRoom).lmf = s.lmf ∧ (s.startRoom).pow = s.pow ∧ (s.startRoom).time = s.time ∧ (s.startRoom).rel = s.rel ∧ (s.startRoom).sec = s.sec ∧ (s.startRoom).pkg = s.pkg ∧ (s.startRoom).resume = s.resume ∧ (s.startRoom).replay = s.replay ∧ (s.startRoom).freeCtr = s.freeCtr ∧ (s.startRoom).nextId = s.nextId ∧ (s.startRoom).pending = s.pending := by
  simp [State.startRoom]

@[simp] theorem State.issueTxn_keeps (s : State) (x : Txn) :
    (s.issueTxn x).home = s.home ∧ (s.issueTxn x).strata = s.strata ∧ (s.issueTxn x).rope = s.rope ∧ (s.issueTxn x).cores = s.cores ∧ (s.issueTxn x).kernels = s.kernels ∧ (s.issueTxn x).expert = s.expert ∧ (s.issueTxn x).trav = s.trav ∧ (s.issueTxn x).mor = s.mor ∧ (s.issueTxn x).bci = s.bci ∧ (s.issueTxn x).host = s.host ∧ (s.issueTxn x).pow = s.pow ∧ (s.issueTxn x).time = s.time ∧ (s.issueTxn x).rel = s.rel ∧ (s.issueTxn x).sec = s.sec ∧ (s.issueTxn x).pkg = s.pkg ∧ (s.issueTxn x).resume = s.resume ∧ (s.issueTxn x).replay = s.replay ∧ (s.issueTxn x).freeCtr = s.freeCtr ∧ (s.issueTxn x).pending = s.pending := by
  unfold State.issueTxn
  dsimp only
  (repeat' split) <;> simp

@[simp] theorem State.tagFreed_keeps (s : State) :
    (s.tagFreed).home = s.home ∧ (s.tagFreed).strata = s.strata ∧ (s.tagFreed).rope = s.rope ∧ (s.tagFreed).cores = s.cores ∧ (s.tagFreed).kernels = s.kernels ∧ (s.tagFreed).expert = s.expert ∧ (s.tagFreed).trav = s.trav ∧ (s.tagFreed).mor = s.mor ∧ (s.tagFreed).bci = s.bci ∧ (s.tagFreed).host = s.host ∧ (s.tagFreed).pow = s.pow ∧ (s.tagFreed).time = s.time ∧ (s.tagFreed).rel = s.rel ∧ (s.tagFreed).sec = s.sec ∧ (s.tagFreed).pkg = s.pkg ∧ (s.tagFreed).resume = s.resume ∧ (s.tagFreed).replay = s.replay ∧ (s.tagFreed).freeCtr = s.freeCtr ∧ (s.tagFreed).pending = s.pending := by
  unfold State.tagFreed
  split <;> simp

@[simp] theorem State.sendTxn_keeps (s : State) (what : TxnUse) (ctx eid op key off ckey : Nat) (data : Bytes) (idem : Bool) :
    (s.sendTxn what ctx eid op key off ckey data idem).home = s.home ∧ (s.sendTxn what ctx eid op key off ckey data idem).strata = s.strata ∧ (s.sendTxn what ctx eid op key off ckey data idem).rope = s.rope ∧ (s.sendTxn what ctx eid op key off ckey data idem).cores = s.cores ∧ (s.sendTxn what ctx eid op key off ckey data idem).kernels = s.kernels ∧ (s.sendTxn what ctx eid op key off ckey data idem).expert = s.expert ∧ (s.sendTxn what ctx eid op key off ckey data idem).trav = s.trav ∧ (s.sendTxn what ctx eid op key off ckey data idem).mor = s.mor ∧ (s.sendTxn what ctx eid op key off ckey data idem).bci = s.bci ∧ (s.sendTxn what ctx eid op key off ckey data idem).host = s.host ∧ (s.sendTxn what ctx eid op key off ckey data idem).pow = s.pow ∧ (s.sendTxn what ctx eid op key off ckey data idem).time = s.time ∧ (s.sendTxn what ctx eid op key off ckey data idem).rel = s.rel ∧ (s.sendTxn what ctx eid op key off ckey data idem).sec = s.sec ∧ (s.sendTxn what ctx eid op key off ckey data idem).pkg = s.pkg ∧ (s.sendTxn what ctx eid op key off ckey data idem).resume = s.resume ∧ (s.sendTxn what ctx eid op key off ckey data idem).replay = s.replay ∧ (s.sendTxn what ctx eid op key off ckey data idem).freeCtr = s.freeCtr ∧ (s.sendTxn what ctx eid op key off ckey data idem).pending = s.pending := by
  unfold State.sendTxn
  dsimp only
  (repeat' split) <;> simp

@[simp] theorem State.sendRead_keeps (s : State) (what : TxnUse) (ctx eid key off n : Nat) :
    (s.sendRead what ctx eid key off n).home = s.home ∧ (s.sendRead what ctx eid key off n).strata = s.strata ∧ (s.sendRead what ctx eid key off n).rope = s.rope ∧ (s.sendRead what ctx eid key off n).cores = s.cores ∧ (s.sendRead what ctx eid key off n).kernels = s.kernels ∧ (s.sendRead what ctx eid key off n).expert = s.expert ∧ (s.sendRead what ctx eid key off n).trav = s.trav ∧ (s.sendRead what ctx eid key off n).mor = s.mor ∧ (s.sendRead what ctx eid key off n).bci = s.bci ∧ (s.sendRead what ctx eid key off n).host = s.host ∧ (s.sendRead what ctx eid key off n).pow = s.pow ∧ (s.sendRead what ctx eid key off n).time = s.time ∧ (s.sendRead what ctx eid key off n).rel = s.rel ∧ (s.sendRead what ctx eid key off n).sec = s.sec ∧ (s.sendRead what ctx eid key off n).pkg = s.pkg ∧ (s.sendRead what ctx eid key off n).resume = s.resume ∧ (s.sendRead what ctx eid key off n).replay = s.replay ∧ (s.sendRead what ctx eid key off n).freeCtr = s.freeCtr ∧ (s.sendRead what ctx eid key off n).pending = s.pending := by
  simp [State.sendRead]

@[simp] theorem State.sendWrite_keeps (s : State) (what : TxnUse) (ctx eid key off : Nat) (data : Bytes) :
    (s.sendWrite what ctx eid key off data).home = s.home ∧ (s.sendWrite what ctx eid key off data).strata = s.strata ∧ (s.sendWrite what ctx eid key off data).rope = s.rope ∧ (s.sendWrite what ctx eid key off data).cores = s.cores ∧ (s.sendWrite what ctx eid key off data).kernels = s.kernels ∧ (s.sendWrite what ctx eid key off data).expert = s.expert ∧ (s.sendWrite what ctx eid key off data).trav = s.trav ∧ (s.sendWrite what ctx eid key off data).mor = s.mor ∧ (s.sendWrite what ctx eid key off data).bci = s.bci ∧ (s.sendWrite what ctx eid key off data).host = s.host ∧ (s.sendWrite what ctx eid key off data).pow = s.pow ∧ (s.sendWrite what ctx eid key off data).time = s.time ∧ (s.sendWrite what ctx eid key off data).rel = s.rel ∧ (s.sendWrite what ctx eid key off data).sec = s.sec ∧ (s.sendWrite what ctx eid key off data).pkg = s.pkg ∧ (s.sendWrite what ctx eid key off data).resume = s.resume ∧ (s.sendWrite what ctx eid key off data).replay = s.replay ∧ (s.sendWrite what ctx eid key off data).freeCtr = s.freeCtr ∧ (s.sendWrite what ctx eid key off data).pending = s.pending := by
  unfold State.sendWrite
  split <;> simp

@[simp] theorem State.sendLender_keeps (s : State) (what : TxnUse) (e : Extent) (off n : Nat) (data : Option Bytes) :
    (s.sendLender what e off n data).home = s.home ∧ (s.sendLender what e off n data).strata = s.strata ∧ (s.sendLender what e off n data).rope = s.rope ∧ (s.sendLender what e off n data).cores = s.cores ∧ (s.sendLender what e off n data).kernels = s.kernels ∧ (s.sendLender what e off n data).expert = s.expert ∧ (s.sendLender what e off n data).trav = s.trav ∧ (s.sendLender what e off n data).mor = s.mor ∧ (s.sendLender what e off n data).bci = s.bci ∧ (s.sendLender what e off n data).host = s.host ∧ (s.sendLender what e off n data).pow = s.pow ∧ (s.sendLender what e off n data).time = s.time ∧ (s.sendLender what e off n data).rel = s.rel ∧ (s.sendLender what e off n data).sec = s.sec ∧ (s.sendLender what e off n data).pkg = s.pkg ∧ (s.sendLender what e off n data).resume = s.resume ∧ (s.sendLender what e off n data).replay = s.replay ∧ (s.sendLender what e off n data).freeCtr = s.freeCtr ∧ (s.sendLender what e off n data).pending = s.pending := by
  unfold State.sendLender
  (repeat' split) <;> simp [State.foldl_home, State.foldl_strata, State.foldl_rope, State.foldl_cores, State.foldl_kernels, State.foldl_expert, State.foldl_trav, State.foldl_mor, State.foldl_bci, State.foldl_host, State.foldl_pow, State.foldl_time, State.foldl_rel, State.foldl_sec, State.foldl_pkg, State.foldl_resume, State.foldl_replay, State.foldl_freeCtr, State.foldl_pending]

@[simp] theorem State.fetchTL_keeps (s : State) (ref : PageRef) (off n : Nat) :
    (s.fetchTL ref off n).home = s.home ∧ (s.fetchTL ref off n).strata = s.strata ∧ (s.fetchTL ref off n).rope = s.rope ∧ (s.fetchTL ref off n).cores = s.cores ∧ (s.fetchTL ref off n).kernels = s.kernels ∧ (s.fetchTL ref off n).expert = s.expert ∧ (s.fetchTL ref off n).trav = s.trav ∧ (s.fetchTL ref off n).mor = s.mor ∧ (s.fetchTL ref off n).bci = s.bci ∧ (s.fetchTL ref off n).host = s.host ∧ (s.fetchTL ref off n).pow = s.pow ∧ (s.fetchTL ref off n).time = s.time ∧ (s.fetchTL ref off n).rel = s.rel ∧ (s.fetchTL ref off n).sec = s.sec ∧ (s.fetchTL ref off n).pkg = s.pkg ∧ (s.fetchTL ref off n).resume = s.resume ∧ (s.fetchTL ref off n).replay = s.replay ∧ (s.fetchTL ref off n).freeCtr = s.freeCtr ∧ (s.fetchTL ref off n).pending = s.pending := by
  unfold State.fetchTL
  (repeat' split) <;> simp [State.foldl_home, State.foldl_strata, State.foldl_rope, State.foldl_cores, State.foldl_kernels, State.foldl_expert, State.foldl_trav, State.foldl_mor, State.foldl_bci, State.foldl_host, State.foldl_pow, State.foldl_time, State.foldl_rel, State.foldl_sec, State.foldl_pkg, State.foldl_resume, State.foldl_replay, State.foldl_freeCtr, State.foldl_pending]

@[simp] theorem State.fetchT2_keeps (s : State) (ref : PageRef) :
    (s.fetchT2 ref).home = s.home ∧ (s.fetchT2 ref).rope = s.rope ∧ (s.fetchT2 ref).cores = s.cores ∧ (s.fetchT2 ref).kernels = s.kernels ∧ (s.fetchT2 ref).expert = s.expert ∧ (s.fetchT2 ref).trav = s.trav ∧ (s.fetchT2 ref).mor = s.mor ∧ (s.fetchT2 ref).bci = s.bci ∧ (s.fetchT2 ref).host = s.host ∧ (s.fetchT2 ref).lmf = s.lmf ∧ (s.fetchT2 ref).pow = s.pow ∧ (s.fetchT2 ref).time = s.time ∧ (s.fetchT2 ref).rel = s.rel ∧ (s.fetchT2 ref).sec = s.sec ∧ (s.fetchT2 ref).pkg = s.pkg ∧ (s.fetchT2 ref).resume = s.resume ∧ (s.fetchT2 ref).replay = s.replay ∧ (s.fetchT2 ref).freeCtr = s.freeCtr ∧ (s.fetchT2 ref).nextId = s.nextId ∧ (s.fetchT2 ref).pending = s.pending := by
  unfold State.fetchT2
  (repeat' split) <;> simp

/-- A read counts in the memory's events only. -/
@[simp] theorem State.readEvent_keeps (s : State) (ref : PageRef) (n : Nat) :
    (s.readEvent ref n).home = s.home ∧ (s.readEvent ref n).strata = s.strata ∧ (s.readEvent ref n).rope = s.rope ∧ (s.readEvent ref n).cores = s.cores ∧ (s.readEvent ref n).kernels = s.kernels ∧ (s.readEvent ref n).expert = s.expert ∧ (s.readEvent ref n).trav = s.trav ∧ (s.readEvent ref n).mor = s.mor ∧ (s.readEvent ref n).bci = s.bci ∧ (s.readEvent ref n).host = s.host ∧ (s.readEvent ref n).lmf = s.lmf ∧ (s.readEvent ref n).pow = s.pow ∧ (s.readEvent ref n).time = s.time ∧ (s.readEvent ref n).rel = s.rel ∧ (s.readEvent ref n).sec = s.sec ∧ (s.readEvent ref n).pkg = s.pkg ∧ (s.readEvent ref n).out = s.out ∧ (s.readEvent ref n).resume = s.resume ∧ (s.readEvent ref n).replay = s.replay ∧ (s.readEvent ref n).freeCtr = s.freeCtr ∧ (s.readEvent ref n).nextId = s.nextId ∧ (s.readEvent ref n).pending = s.pending := by
  unfold State.readEvent
  (repeat' split) <;> simp

@[simp] theorem State.readDone_keeps (s : State) (port : Bool) (rid : Nat) (v : View) (off n : Nat) :
    (s.readDone port rid v off n).rope = s.rope ∧ (s.readDone port rid v off n).cores = s.cores ∧ (s.readDone port rid v off n).kernels = s.kernels ∧ (s.readDone port rid v off n).expert = s.expert ∧ (s.readDone port rid v off n).trav = s.trav ∧ (s.readDone port rid v off n).mor = s.mor ∧ (s.readDone port rid v off n).bci = s.bci ∧ (s.readDone port rid v off n).host = s.host ∧ (s.readDone port rid v off n).pow = s.pow ∧ (s.readDone port rid v off n).time = s.time ∧ (s.readDone port rid v off n).rel = s.rel ∧ (s.readDone port rid v off n).sec = s.sec ∧ (s.readDone port rid v off n).pkg = s.pkg ∧ (s.readDone port rid v off n).resume = s.resume ∧ (s.readDone port rid v off n).replay = s.replay ∧ (s.readDone port rid v off n).freeCtr = s.freeCtr ∧ (s.readDone port rid v off n).pending = s.pending := by
  refine ⟨?_, ?_, ?_, ?_, ?_, ?_, ?_, ?_, ?_, ?_, ?_, ?_, ?_, ?_, ?_, ?_, ?_⟩ <;> (unfold State.readDone; (try dsimp only); (repeat' split); all_goals (try simp); all_goals (first | apply State.foldl_home | apply State.foldl_strata | apply State.foldl_rope | apply State.foldl_cores | apply State.foldl_kernels | apply State.foldl_expert | apply State.foldl_trav | apply State.foldl_mor | apply State.foldl_bci | apply State.foldl_host | apply State.foldl_lmf | apply State.foldl_pow | apply State.foldl_time | apply State.foldl_rel | apply State.foldl_sec | apply State.foldl_obs | apply State.foldl_pkg | apply State.foldl_out | apply State.foldl_resume | apply State.foldl_replay | apply State.foldl_freeCtr | apply State.foldl_nextId | apply State.foldl_pending | skip); all_goals (try (intro s a; (try dsimp only); (repeat' split); all_goals (try simp))))

@[simp] theorem State.respondFn_keeps (s : State) (p f : Nat) (ws : List Word) :
    (s.respondFn p f ws).home = s.home ∧ (s.respondFn p f ws).strata = s.strata ∧ (s.respondFn p f ws).rope = s.rope ∧ (s.respondFn p f ws).cores = s.cores ∧ (s.respondFn p f ws).kernels = s.kernels ∧ (s.respondFn p f ws).expert = s.expert ∧ (s.respondFn p f ws).trav = s.trav ∧ (s.respondFn p f ws).mor = s.mor ∧ (s.respondFn p f ws).bci = s.bci ∧ (s.respondFn p f ws).lmf = s.lmf ∧ (s.respondFn p f ws).pow = s.pow ∧ (s.respondFn p f ws).time = s.time ∧ (s.respondFn p f ws).rel = s.rel ∧ (s.respondFn p f ws).sec = s.sec ∧ (s.respondFn p f ws).obs = s.obs ∧ (s.respondFn p f ws).pkg = s.pkg ∧ (s.respondFn p f ws).resume = s.resume ∧ (s.respondFn p f ws).replay = s.replay ∧ (s.respondFn p f ws).freeCtr = s.freeCtr ∧ (s.respondFn p f ws).nextId = s.nextId ∧ (s.respondFn p f ws).pending = s.pending := by
  simp [State.respondFn]

@[simp] theorem State.channelDone_keeps (s : State) (c : Nat) (r : BciReq) (ws : List Word) :
    (s.channelDone c r ws).strata = s.strata ∧ (s.channelDone c r ws).rope = s.rope ∧ (s.channelDone c r ws).cores = s.cores ∧ (s.channelDone c r ws).kernels = s.kernels ∧ (s.channelDone c r ws).expert = s.expert ∧ (s.channelDone c r ws).trav = s.trav ∧ (s.channelDone c r ws).mor = s.mor ∧ (s.channelDone c r ws).host = s.host ∧ (s.channelDone c r ws).lmf = s.lmf ∧ (s.channelDone c r ws).pow = s.pow ∧ (s.channelDone c r ws).time = s.time ∧ (s.channelDone c r ws).rel = s.rel ∧ (s.channelDone c r ws).sec = s.sec ∧ (s.channelDone c r ws).obs = s.obs ∧ (s.channelDone c r ws).pkg = s.pkg ∧ (s.channelDone c r ws).out = s.out ∧ (s.channelDone c r ws).replay = s.replay ∧ (s.channelDone c r ws).freeCtr = s.freeCtr ∧ (s.channelDone c r ws).nextId = s.nextId ∧ (s.channelDone c r ws).pending = s.pending := by
  simp [State.channelDone]

@[simp] theorem State.respond_keeps (s : State) (r : BciReq) (st : Status) (resp : List Word) :
    (s.respond r st resp).strata = s.strata ∧ (s.respond r st resp).rope = s.rope ∧ (s.respond r st resp).cores = s.cores ∧ (s.respond r st resp).kernels = s.kernels ∧ (s.respond r st resp).expert = s.expert ∧ (s.respond r st resp).trav = s.trav ∧ (s.respond r st resp).mor = s.mor ∧ (s.respond r st resp).lmf = s.lmf ∧ (s.respond r st resp).pow = s.pow ∧ (s.respond r st resp).time = s.time ∧ (s.respond r st resp).rel = s.rel ∧ (s.respond r st resp).sec = s.sec ∧ (s.respond r st resp).pkg = s.pkg ∧ (s.respond r st resp).replay = s.replay ∧ (s.respond r st resp).freeCtr = s.freeCtr ∧ (s.respond r st resp).nextId = s.nextId ∧ (s.respond r st resp).pending = s.pending := by
  unfold State.respond
  (repeat' split) <;> simp

@[simp] theorem State.giveAnswer_keeps (s : State) (st : Status) (a : Answer) :
    (s.giveAnswer st a).strata = s.strata ∧ (s.giveAnswer st a).rope = s.rope ∧ (s.giveAnswer st a).cores = s.cores ∧ (s.giveAnswer st a).kernels = s.kernels ∧ (s.giveAnswer st a).expert = s.expert ∧ (s.giveAnswer st a).trav = s.trav ∧ (s.giveAnswer st a).mor = s.mor ∧ (s.giveAnswer st a).lmf = s.lmf ∧ (s.giveAnswer st a).pow = s.pow ∧ (s.giveAnswer st a).time = s.time ∧ (s.giveAnswer st a).rel = s.rel ∧ (s.giveAnswer st a).sec = s.sec ∧ (s.giveAnswer st a).pkg = s.pkg ∧ (s.giveAnswer st a).replay = s.replay ∧ (s.giveAnswer st a).freeCtr = s.freeCtr ∧ (s.giveAnswer st a).nextId = s.nextId ∧ (s.giveAnswer st a).pending = s.pending := by
  cases a <;> simp [State.giveAnswer]

@[simp] theorem State.answerAfter_keeps (s : State) (rid off : Nat) (data : Bytes) (log : Option LogNote) (st : Status) (a : Answer) :
    (s.answerAfter rid off data log st a).rope = s.rope ∧ (s.answerAfter rid off data log st a).cores = s.cores ∧ (s.answerAfter rid off data log st a).kernels = s.kernels ∧ (s.answerAfter rid off data log st a).expert = s.expert ∧ (s.answerAfter rid off data log st a).trav = s.trav ∧ (s.answerAfter rid off data log st a).mor = s.mor ∧ (s.answerAfter rid off data log st a).pow = s.pow ∧ (s.answerAfter rid off data log st a).time = s.time ∧ (s.answerAfter rid off data log st a).sec = s.sec ∧ (s.answerAfter rid off data log st a).pkg = s.pkg ∧ (s.answerAfter rid off data log st a).replay = s.replay ∧ (s.answerAfter rid off data log st a).pending = s.pending := by
  unfold State.answerAfter
  (repeat' split) <;> simp

@[simp] theorem State.forward_keeps (s : State) (rid off : Nat) (data : Bytes) (work : WorkRef) (log : Option LogNote := none) :
    (s.forward rid off data work log).rope = s.rope ∧ (s.forward rid off data work log).cores = s.cores ∧ (s.forward rid off data work log).kernels = s.kernels ∧ (s.forward rid off data work log).expert = s.expert ∧ (s.forward rid off data work log).trav = s.trav ∧ (s.forward rid off data work log).mor = s.mor ∧ (s.forward rid off data work log).host = s.host ∧ (s.forward rid off data work log).pow = s.pow ∧ (s.forward rid off data work log).time = s.time ∧ (s.forward rid off data work log).sec = s.sec ∧ (s.forward rid off data work log).pkg = s.pkg ∧ (s.forward rid off data work log).replay = s.replay ∧ (s.forward rid off data work log).freeCtr = s.freeCtr ∧ (s.forward rid off data work log).pending = s.pending := by
  unfold State.forward
  (repeat' split) <;> simp

@[simp] theorem State.turnAway_keeps (s : State) (c : Instr) (eid ctx : Nat) (st : Status) (a : Answer) :
    (s.turnAway c eid ctx st a).rope = s.rope ∧ (s.turnAway c eid ctx st a).cores = s.cores ∧ (s.turnAway c eid ctx st a).kernels = s.kernels ∧ (s.turnAway c eid ctx st a).expert = s.expert ∧ (s.turnAway c eid ctx st a).trav = s.trav ∧ (s.turnAway c eid ctx st a).mor = s.mor ∧ (s.turnAway c eid ctx st a).pow = s.pow ∧ (s.turnAway c eid ctx st a).time = s.time ∧ (s.turnAway c eid ctx st a).sec = s.sec ∧ (s.turnAway c eid ctx st a).pkg = s.pkg ∧ (s.turnAway c eid ctx st a).replay = s.replay ∧ (s.turnAway c eid ctx st a).pending = s.pending := by
  unfold State.turnAway
  dsimp only
  (repeat' split) <;> simp

@[simp] theorem State.turnLmf_keeps (s : State) (cmd : Instr) (q : LmfReq) (st : Status) :
    (s.turnLmf cmd q st).rope = s.rope ∧ (s.turnLmf cmd q st).cores = s.cores ∧ (s.turnLmf cmd q st).kernels = s.kernels ∧ (s.turnLmf cmd q st).expert = s.expert ∧ (s.turnLmf cmd q st).trav = s.trav ∧ (s.turnLmf cmd q st).mor = s.mor ∧ (s.turnLmf cmd q st).pow = s.pow ∧ (s.turnLmf cmd q st).time = s.time ∧ (s.turnLmf cmd q st).sec = s.sec ∧ (s.turnLmf cmd q st).pkg = s.pkg ∧ (s.turnLmf cmd q st).replay = s.replay ∧ (s.turnLmf cmd q st).pending = s.pending := by
  simp [State.turnLmf]

theorem State.faultOn_keeps {s t : State} {rid kind page access : Nat} {rt : Bool} {hw off : Nat} {i : Issuer} {room : Bool} {n : Nat}
    (h : s.faultOn rid kind page access rt hw off i room = some (t, n)) :
    t.rope = s.rope ∧ t.cores = s.cores ∧ t.kernels = s.kernels ∧ t.expert = s.expert ∧ t.trav = s.trav ∧ t.mor = s.mor ∧ t.lmf = s.lmf ∧ t.pow = s.pow ∧ t.time = s.time ∧ t.sec = s.sec ∧ t.pkg = s.pkg ∧ t.replay = s.replay ∧ t.nextId = s.nextId ∧ t.pending = s.pending := by
  unfold State.faultOn at h
  dsimp only at h
  (repeat' split at h)
  · simp only [Option.some.injEq, Prod.mk.injEq] at h
    simp [← h.1]
  · cases h
  · simp only [Option.some.injEq, Prod.mk.injEq] at h
    simp [← h.1]

/-- An end with ST_QUOTA counts in Strata's events only. -/
@[simp] theorem State.quotaMet_keeps (s : State) (st : Status) :
    (s.quotaMet st).home = s.home ∧ (s.quotaMet st).strata = s.strata ∧ (s.quotaMet st).rope = s.rope ∧ (s.quotaMet st).cores = s.cores ∧ (s.quotaMet st).kernels = s.kernels ∧ (s.quotaMet st).expert = s.expert ∧ (s.quotaMet st).trav = s.trav ∧ (s.quotaMet st).mor = s.mor ∧ (s.quotaMet st).bci = s.bci ∧ (s.quotaMet st).host = s.host ∧ (s.quotaMet st).lmf = s.lmf ∧ (s.quotaMet st).pow = s.pow ∧ (s.quotaMet st).time = s.time ∧ (s.quotaMet st).rel = s.rel ∧ (s.quotaMet st).sec = s.sec ∧ (s.quotaMet st).pkg = s.pkg ∧ (s.quotaMet st).out = s.out ∧ (s.quotaMet st).resume = s.resume ∧ (s.quotaMet st).replay = s.replay ∧ (s.quotaMet st).freeCtr = s.freeCtr ∧ (s.quotaMet st).nextId = s.nextId ∧ (s.quotaMet st).pending = s.pending := by
  unfold State.quotaMet
  split <;> simp

/-- Work that stalls is noted in its fault record and in its unit's cairn ring. -/
@[simp] theorem State.stalled_keeps (s : State) (work : Bool) (hw ctx seq : Nat) :
    (s.stalled work hw ctx seq).strata = s.strata ∧ (s.stalled work hw ctx seq).rope = s.rope ∧ (s.stalled work hw ctx seq).cores = s.cores ∧ (s.stalled work hw ctx seq).kernels = s.kernels ∧ (s.stalled work hw ctx seq).expert = s.expert ∧ (s.stalled work hw ctx seq).trav = s.trav ∧ (s.stalled work hw ctx seq).mor = s.mor ∧ (s.stalled work hw ctx seq).bci = s.bci ∧ (s.stalled work hw ctx seq).host = s.host ∧ (s.stalled work hw ctx seq).lmf = s.lmf ∧ (s.stalled work hw ctx seq).pow = s.pow ∧ (s.stalled work hw ctx seq).time = s.time ∧ (s.stalled work hw ctx seq).rel = s.rel ∧ (s.stalled work hw ctx seq).sec = s.sec ∧ (s.stalled work hw ctx seq).pkg = s.pkg ∧ (s.stalled work hw ctx seq).resume = s.resume ∧ (s.stalled work hw ctx seq).replay = s.replay ∧ (s.stalled work hw ctx seq).freeCtr = s.freeCtr ∧ (s.stalled work hw ctx seq).nextId = s.nextId ∧ (s.stalled work hw ctx seq).pending = s.pending := by
  unfold State.stalled
  split <;> simp

@[simp] theorem State.holdOn_keeps (s : State) (a : HoldAs) (rid off : Nat) (m : Met) :
    (s.holdOn a rid off m).1.cores = s.cores ∧ (s.holdOn a rid off m).1.kernels = s.kernels ∧ (s.holdOn a rid off m).1.expert = s.expert ∧ (s.holdOn a rid off m).1.trav = s.trav ∧ (s.holdOn a rid off m).1.mor = s.mor ∧ (s.holdOn a rid off m).1.lmf = s.lmf ∧ (s.holdOn a rid off m).1.pow = s.pow ∧ (s.holdOn a rid off m).1.time = s.time ∧ (s.holdOn a rid off m).1.sec = s.sec ∧ (s.holdOn a rid off m).1.pkg = s.pkg ∧ (s.holdOn a rid off m).1.replay = s.replay ∧ (s.holdOn a rid off m).1.pending = s.pending := by
  unfold State.holdOn
  split
  · simp
  · simp
  · split
    · have h := State.faultOn_keeps ‹_›
      simp_all
    · simp
  · simp
  · split <;> simp
  · simp

/-- A packet's arrival wakes domains and counts at its port. -/
@[simp] theorem State.arrived_keeps (s : State) (q : LmfReq) (payload : Bool) :
    (s.arrived q payload).home = s.home ∧ (s.arrived q payload).strata = s.strata ∧ (s.arrived q payload).rope = s.rope ∧ (s.arrived q payload).cores = s.cores ∧ (s.arrived q payload).kernels = s.kernels ∧ (s.arrived q payload).expert = s.expert ∧ (s.arrived q payload).trav = s.trav ∧ (s.arrived q payload).mor = s.mor ∧ (s.arrived q payload).bci = s.bci ∧ (s.arrived q payload).host = s.host ∧ (s.arrived q payload).lmf = s.lmf ∧ (s.arrived q payload).time = s.time ∧ (s.arrived q payload).rel = s.rel ∧ (s.arrived q payload).sec = s.sec ∧ (s.arrived q payload).pkg = s.pkg ∧ (s.arrived q payload).out = s.out ∧ (s.arrived q payload).resume = s.resume ∧ (s.arrived q payload).replay = s.replay ∧ (s.arrived q payload).freeCtr = s.freeCtr ∧ (s.arrived q payload).nextId = s.nextId ∧ (s.arrived q payload).pending = s.pending := by
  unfold State.arrived
  split <;> simp

@[simp] theorem State.lmfMet_keeps (s : State) (cmd : Instr) (q : LmfReq) (access rid : Nat) (m : Met) :
    (s.lmfMet cmd q access rid m).cores = s.cores ∧ (s.lmfMet cmd q access rid m).kernels = s.kernels ∧ (s.lmfMet cmd q access rid m).expert = s.expert ∧ (s.lmfMet cmd q access rid m).trav = s.trav ∧ (s.lmfMet cmd q access rid m).mor = s.mor ∧ (s.lmfMet cmd q access rid m).lmf = s.lmf ∧ (s.lmfMet cmd q access rid m).pow = s.pow ∧ (s.lmfMet cmd q access rid m).time = s.time ∧ (s.lmfMet cmd q access rid m).sec = s.sec ∧ (s.lmfMet cmd q access rid m).pkg = s.pkg ∧ (s.lmfMet cmd q access rid m).replay = s.replay ∧ (s.lmfMet cmd q access rid m).pending = s.pending := by
  unfold State.lmfMet
  split
  all_goals (rename_i heq; have h := congrArg Prod.fst heq; simp only at h; simp [← h])

@[simp] theorem State.refuseBci_keeps (s : State) (cmd : Instr) (row : BciRow) (r : BciReq) (st : Status) :
    (s.refuseBci cmd row r st).rope = s.rope ∧ (s.refuseBci cmd row r st).cores = s.cores ∧ (s.refuseBci cmd row r st).kernels = s.kernels ∧ (s.refuseBci cmd row r st).expert = s.expert ∧ (s.refuseBci cmd row r st).trav = s.trav ∧ (s.refuseBci cmd row r st).mor = s.mor ∧ (s.refuseBci cmd row r st).pow = s.pow ∧ (s.refuseBci cmd row r st).time = s.time ∧ (s.refuseBci cmd row r st).sec = s.sec ∧ (s.refuseBci cmd row r st).pkg = s.pkg ∧ (s.refuseBci cmd row r st).replay = s.replay ∧ (s.refuseBci cmd row r st).pending = s.pending := by
  unfold State.refuseBci
  (repeat' split) <;> simp

@[simp] theorem State.dueBci_keeps (s : State) (cmd : Instr) (r : BciReq) (i : Issuer) (id : Nat) :
    (s.dueBci cmd r i id).home = s.home ∧ (s.dueBci cmd r i id).strata = s.strata ∧ (s.dueBci cmd r i id).rope = s.rope ∧ (s.dueBci cmd r i id).cores = s.cores ∧ (s.dueBci cmd r i id).kernels = s.kernels ∧ (s.dueBci cmd r i id).expert = s.expert ∧ (s.dueBci cmd r i id).trav = s.trav ∧ (s.dueBci cmd r i id).mor = s.mor ∧ (s.dueBci cmd r i id).host = s.host ∧ (s.dueBci cmd r i id).lmf = s.lmf ∧ (s.dueBci cmd r i id).pow = s.pow ∧ (s.dueBci cmd r i id).time = s.time ∧ (s.dueBci cmd r i id).rel = s.rel ∧ (s.dueBci cmd r i id).sec = s.sec ∧ (s.dueBci cmd r i id).obs = s.obs ∧ (s.dueBci cmd r i id).pkg = s.pkg ∧ (s.dueBci cmd r i id).out = s.out ∧ (s.dueBci cmd r i id).resume = s.resume ∧ (s.dueBci cmd r i id).replay = s.replay ∧ (s.dueBci cmd r i id).freeCtr = s.freeCtr ∧ (s.dueBci cmd r i id).nextId = s.nextId ∧ (s.dueBci cmd r i id).pending = s.pending := by
  unfold State.dueBci
  split <;> simp

@[simp] theorem State.holdBci_keeps (s : State) (cmd : Instr) (r : BciReq) (i : Issuer) (why : HoldWhy) (limit : Nat) :
    (s.holdBci cmd r i why limit).strata = s.strata ∧ (s.holdBci cmd r i why limit).rope = s.rope ∧ (s.holdBci cmd r i why limit).cores = s.cores ∧ (s.holdBci cmd r i why limit).kernels = s.kernels ∧ (s.holdBci cmd r i why limit).expert = s.expert ∧ (s.holdBci cmd r i why limit).trav = s.trav ∧ (s.holdBci cmd r i why limit).mor = s.mor ∧ (s.holdBci cmd r i why limit).host = s.host ∧ (s.holdBci cmd r i why limit).lmf = s.lmf ∧ (s.holdBci cmd r i why limit).pow = s.pow ∧ (s.holdBci cmd r i why limit).time = s.time ∧ (s.holdBci cmd r i why limit).rel = s.rel ∧ (s.holdBci cmd r i why limit).sec = s.sec ∧ (s.holdBci cmd r i why limit).obs = s.obs ∧ (s.holdBci cmd r i why limit).pkg = s.pkg ∧ (s.holdBci cmd r i why limit).out = s.out ∧ (s.holdBci cmd r i why limit).resume = s.resume ∧ (s.holdBci cmd r i why limit).replay = s.replay ∧ (s.holdBci cmd r i why limit).freeCtr = s.freeCtr ∧ (s.holdBci cmd r i why limit).pending = s.pending := by
  simp [State.holdBci]

@[simp] theorem State.bciMet_keeps (s : State) (cmd : Instr) (r : BciReq) (i : Issuer) (access rid off : Nat) (m : Met) :
    (s.bciMet cmd r i access rid off m).1.cores = s.cores ∧ (s.bciMet cmd r i access rid off m).1.kernels = s.kernels ∧ (s.bciMet cmd r i access rid off m).1.expert = s.expert ∧ (s.bciMet cmd r i access rid off m).1.trav = s.trav ∧ (s.bciMet cmd r i access rid off m).1.mor = s.mor ∧ (s.bciMet cmd r i access rid off m).1.lmf = s.lmf ∧ (s.bciMet cmd r i access rid off m).1.pow = s.pow ∧ (s.bciMet cmd r i access rid off m).1.time = s.time ∧ (s.bciMet cmd r i access rid off m).1.sec = s.sec ∧ (s.bciMet cmd r i access rid off m).1.pkg = s.pkg ∧ (s.bciMet cmd r i access rid off m).1.replay = s.replay ∧ (s.bciMet cmd r i access rid off m).1.pending = s.pending := by
  unfold State.bciMet
  dsimp only
  split
  · rename_i heq
    have h := congrArg Prod.fst heq
    simp only at h
    simp [← h]
  · rename_i heq
    have h := congrArg Prod.fst heq
    simp only at h
    simp [← h]

@[simp] theorem State.bciStop_keeps (s : State) (cmd : Instr) (r : BciReq) (i : Issuer) (access rid off : Nat) (m : Met) :
    (s.bciStop cmd r i access rid off m).cores = s.cores ∧ (s.bciStop cmd r i access rid off m).kernels = s.kernels ∧ (s.bciStop cmd r i access rid off m).expert = s.expert ∧ (s.bciStop cmd r i access rid off m).trav = s.trav ∧ (s.bciStop cmd r i access rid off m).mor = s.mor ∧ (s.bciStop cmd r i access rid off m).lmf = s.lmf ∧ (s.bciStop cmd r i access rid off m).pow = s.pow ∧ (s.bciStop cmd r i access rid off m).time = s.time ∧ (s.bciStop cmd r i access rid off m).sec = s.sec ∧ (s.bciStop cmd r i access rid off m).pkg = s.pkg ∧ (s.bciStop cmd r i access rid off m).replay = s.replay ∧ (s.bciStop cmd r i access rid off m).pending = s.pending := by
  unfold State.bciStop
  split
  all_goals (rename_i heq; have h := congrArg Prod.fst heq; simp only at h; simp [← h])

@[simp] theorem State.lateNotice_keeps (s : State) (cmd : Instr) (r : BciReq) (i : Issuer) :
    (s.lateNotice cmd r i).rope = s.rope ∧ (s.lateNotice cmd r i).cores = s.cores ∧ (s.lateNotice cmd r i).kernels = s.kernels ∧ (s.lateNotice cmd r i).expert = s.expert ∧ (s.lateNotice cmd r i).trav = s.trav ∧ (s.lateNotice cmd r i).mor = s.mor ∧ (s.lateNotice cmd r i).lmf = s.lmf ∧ (s.lateNotice cmd r i).pow = s.pow ∧ (s.lateNotice cmd r i).time = s.time ∧ (s.lateNotice cmd r i).sec = s.sec ∧ (s.lateNotice cmd r i).pkg = s.pkg ∧ (s.lateNotice cmd r i).replay = s.replay ∧ (s.lateNotice cmd r i).nextId = s.nextId ∧ (s.lateNotice cmd r i).pending = s.pending := by
  unfold State.lateNotice
  (repeat' split) <;> simp

@[simp] theorem State.startOp_keeps (s : State) (kind : OpKind) (total : Nat) (who : Option (Nat × Nat)) :
    (s.startOp kind total who).home = s.home ∧ (s.startOp kind total who).strata = s.strata ∧ (s.startOp kind total who).rope = s.rope ∧ (s.startOp kind total who).cores = s.cores ∧ (s.startOp kind total who).kernels = s.kernels ∧ (s.startOp kind total who).expert = s.expert ∧ (s.startOp kind total who).trav = s.trav ∧ (s.startOp kind total who).mor = s.mor ∧ (s.startOp kind total who).host = s.host ∧ (s.startOp kind total who).lmf = s.lmf ∧ (s.startOp kind total who).pow = s.pow ∧ (s.startOp kind total who).time = s.time ∧ (s.startOp kind total who).rel = s.rel ∧ (s.startOp kind total who).sec = s.sec ∧ (s.startOp kind total who).obs = s.obs ∧ (s.startOp kind total who).pkg = s.pkg ∧ (s.startOp kind total who).out = s.out ∧ (s.startOp kind total who).resume = s.resume ∧ (s.startOp kind total who).replay = s.replay ∧ (s.startOp kind total who).freeCtr = s.freeCtr ∧ (s.startOp kind total who).nextId = s.nextId ∧ (s.startOp kind total who).pending = s.pending := by
  simp [State.startOp]

@[simp] theorem State.endOp_keeps (s : State) (id state : Nat) (st : Status) :
    (s.endOp id state st).rope = s.rope ∧ (s.endOp id state st).cores = s.cores ∧ (s.endOp id state st).kernels = s.kernels ∧ (s.endOp id state st).expert = s.expert ∧ (s.endOp id state st).trav = s.trav ∧ (s.endOp id state st).mor = s.mor ∧ (s.endOp id state st).lmf = s.lmf ∧ (s.endOp id state st).pow = s.pow ∧ (s.endOp id state st).time = s.time ∧ (s.endOp id state st).sec = s.sec ∧ (s.endOp id state st).pkg = s.pkg ∧ (s.endOp id state st).replay = s.replay ∧ (s.endOp id state st).nextId = s.nextId ∧ (s.endOp id state st).pending = s.pending := by
  unfold State.endOp
  (repeat' split) <;> simp

@[simp] theorem State.cxlError_keeps (s : State) (port fn dec ctx : Nat) (st : Status) (key off : Nat) :
    (s.cxlError port fn dec ctx st key off).rope = s.rope ∧ (s.cxlError port fn dec ctx st key off).cores = s.cores ∧ (s.cxlError port fn dec ctx st key off).kernels = s.kernels ∧ (s.cxlError port fn dec ctx st key off).expert = s.expert ∧ (s.cxlError port fn dec ctx st key off).trav = s.trav ∧ (s.cxlError port fn dec ctx st key off).mor = s.mor ∧ (s.cxlError port fn dec ctx st key off).host = s.host ∧ (s.cxlError port fn dec ctx st key off).lmf = s.lmf ∧ (s.cxlError port fn dec ctx st key off).pow = s.pow ∧ (s.cxlError port fn dec ctx st key off).time = s.time ∧ (s.cxlError port fn dec ctx st key off).sec = s.sec ∧ (s.cxlError port fn dec ctx st key off).pkg = s.pkg ∧ (s.cxlError port fn dec ctx st key off).replay = s.replay ∧ (s.cxlError port fn dec ctx st key off).nextId = s.nextId ∧ (s.cxlError port fn dec ctx st key off).pending = s.pending := by
  simp [State.cxlError]

@[simp] theorem State.cxlReadFail_keeps (s : State) (port hpa : Nat) (st : Status) :
    (s.cxlReadFail port hpa st).rope = s.rope ∧ (s.cxlReadFail port hpa st).cores = s.cores ∧ (s.cxlReadFail port hpa st).kernels = s.kernels ∧ (s.cxlReadFail port hpa st).expert = s.expert ∧ (s.cxlReadFail port hpa st).trav = s.trav ∧ (s.cxlReadFail port hpa st).mor = s.mor ∧ (s.cxlReadFail port hpa st).host = s.host ∧ (s.cxlReadFail port hpa st).lmf = s.lmf ∧ (s.cxlReadFail port hpa st).pow = s.pow ∧ (s.cxlReadFail port hpa st).time = s.time ∧ (s.cxlReadFail port hpa st).sec = s.sec ∧ (s.cxlReadFail port hpa st).pkg = s.pkg ∧ (s.cxlReadFail port hpa st).replay = s.replay ∧ (s.cxlReadFail port hpa st).nextId = s.nextId ∧ (s.cxlReadFail port hpa st).pending = s.pending := by
  unfold State.cxlReadFail
  split <;> simp

@[simp] theorem State.cxlDiscard_keeps (s : State) (port hpa : Nat) (st : Status) :
    (s.cxlDiscard port hpa st).rope = s.rope ∧ (s.cxlDiscard port hpa st).cores = s.cores ∧ (s.cxlDiscard port hpa st).kernels = s.kernels ∧ (s.cxlDiscard port hpa st).expert = s.expert ∧ (s.cxlDiscard port hpa st).trav = s.trav ∧ (s.cxlDiscard port hpa st).mor = s.mor ∧ (s.cxlDiscard port hpa st).host = s.host ∧ (s.cxlDiscard port hpa st).lmf = s.lmf ∧ (s.cxlDiscard port hpa st).pow = s.pow ∧ (s.cxlDiscard port hpa st).time = s.time ∧ (s.cxlDiscard port hpa st).sec = s.sec ∧ (s.cxlDiscard port hpa st).pkg = s.pkg ∧ (s.cxlDiscard port hpa st).replay = s.replay ∧ (s.cxlDiscard port hpa st).nextId = s.nextId ∧ (s.cxlDiscard port hpa st).pending = s.pending := by
  unfold State.cxlDiscard
  split <;> simp

@[simp] theorem State.cqReject_keeps (s : State) (port : Nat) (st : Status) :
    (s.cqReject port st).home = s.home ∧ (s.cqReject port st).strata = s.strata ∧ (s.cqReject port st).rope = s.rope ∧ (s.cqReject port st).cores = s.cores ∧ (s.cqReject port st).kernels = s.kernels ∧ (s.cqReject port st).expert = s.expert ∧ (s.cqReject port st).trav = s.trav ∧ (s.cqReject port st).mor = s.mor ∧ (s.cqReject port st).bci = s.bci ∧ (s.cqReject port st).lmf = s.lmf ∧ (s.cqReject port st).pow = s.pow ∧ (s.cqReject port st).time = s.time ∧ (s.cqReject port st).rel = s.rel ∧ (s.cqReject port st).sec = s.sec ∧ (s.cqReject port st).obs = s.obs ∧ (s.cqReject port st).pkg = s.pkg ∧ (s.cqReject port st).resume = s.resume ∧ (s.cqReject port st).replay = s.replay ∧ (s.cqReject port st).freeCtr = s.freeCtr ∧ (s.cqReject port st).nextId = s.nextId ∧ (s.cqReject port st).pending = s.pending := by
  simp [State.cqReject]

@[simp] theorem State.endPub_keeps (s : State) (p : PubCmd) (st : Status) (resp : List Word) (value : Nat) :
    (s.endPub p st resp value).rope = s.rope ∧ (s.endPub p st resp value).cores = s.cores ∧ (s.endPub p st resp value).kernels = s.kernels ∧ (s.endPub p st resp value).expert = s.expert ∧ (s.endPub p st resp value).trav = s.trav ∧ (s.endPub p st resp value).mor = s.mor ∧ (s.endPub p st resp value).pow = s.pow ∧ (s.endPub p st resp value).time = s.time ∧ (s.endPub p st resp value).sec = s.sec ∧ (s.endPub p st resp value).pkg = s.pkg ∧ (s.endPub p st resp value).replay = s.replay ∧ (s.endPub p st resp value).pending = s.pending := by
  unfold State.endPub
  split <;> simp

@[simp] theorem State.selfLog_keeps (s : State) (h c : Nat) (st : Status) (v : Nat) :
    (s.selfLog h c st v).1.strata = s.strata ∧ (s.selfLog h c st v).1.rope = s.rope ∧ (s.selfLog h c st v).1.cores = s.cores ∧ (s.selfLog h c st v).1.kernels = s.kernels ∧ (s.selfLog h c st v).1.expert = s.expert ∧ (s.selfLog h c st v).1.trav = s.trav ∧ (s.selfLog h c st v).1.mor = s.mor ∧ (s.selfLog h c st v).1.bci = s.bci ∧ (s.selfLog h c st v).1.host = s.host ∧ (s.selfLog h c st v).1.lmf = s.lmf ∧ (s.selfLog h c st v).1.pow = s.pow ∧ (s.selfLog h c st v).1.time = s.time ∧ (s.selfLog h c st v).1.rel = s.rel ∧ (s.selfLog h c st v).1.sec = s.sec ∧ (s.selfLog h c st v).1.obs = s.obs ∧ (s.selfLog h c st v).1.pkg = s.pkg ∧ (s.selfLog h c st v).1.out = s.out ∧ (s.selfLog h c st v).1.resume = s.resume ∧ (s.selfLog h c st v).1.replay = s.replay ∧ (s.selfLog h c st v).1.freeCtr = s.freeCtr ∧ (s.selfLog h c st v).1.nextId = s.nextId ∧ (s.selfLog h c st v).1.pending = s.pending := by
  simp [State.selfLog]

@[simp] theorem State.selfLogged_keeps (s : State) (c : Instr) (ctx : Nat) (st : Status) :
    (s.selfLogged c ctx st).strata = s.strata ∧ (s.selfLogged c ctx st).rope = s.rope ∧ (s.selfLogged c ctx st).cores = s.cores ∧ (s.selfLogged c ctx st).kernels = s.kernels ∧ (s.selfLogged c ctx st).expert = s.expert ∧ (s.selfLogged c ctx st).trav = s.trav ∧ (s.selfLogged c ctx st).mor = s.mor ∧ (s.selfLogged c ctx st).bci = s.bci ∧ (s.selfLogged c ctx st).host = s.host ∧ (s.selfLogged c ctx st).lmf = s.lmf ∧ (s.selfLogged c ctx st).pow = s.pow ∧ (s.selfLogged c ctx st).time = s.time ∧ (s.selfLogged c ctx st).rel = s.rel ∧ (s.selfLogged c ctx st).sec = s.sec ∧ (s.selfLogged c ctx st).obs = s.obs ∧ (s.selfLogged c ctx st).pkg = s.pkg ∧ (s.selfLogged c ctx st).out = s.out ∧ (s.selfLogged c ctx st).resume = s.resume ∧ (s.selfLogged c ctx st).replay = s.replay ∧ (s.selfLogged c ctx st).freeCtr = s.freeCtr ∧ (s.selfLogged c ctx st).nextId = s.nextId ∧ (s.selfLogged c ctx st).pending = s.pending := by
  unfold State.selfLogged
  (repeat' split) <;> simp

@[simp] theorem State.endCmd_keeps (s : State) (c : Instr) (eid ctx : Nat) (st : Status) :
    (s.endCmd c eid ctx st).rope = s.rope ∧ (s.endCmd c eid ctx st).kernels = s.kernels ∧ (s.endCmd c eid ctx st).pow = s.pow ∧ (s.endCmd c eid ctx st).time = s.time ∧ (s.endCmd c eid ctx st).sec = s.sec ∧ (s.endCmd c eid ctx st).pkg = s.pkg ∧ (s.endCmd c eid ctx st).replay = s.replay ∧ (s.endCmd c eid ctx st).pending = s.pending := by
  unfold State.endCmd
  (repeat' split) <;> simp

@[simp] theorem State.endHeld_keeps (s : State) (h : Held) (st : Status) :
    (s.endHeld h st).kernels = s.kernels ∧ (s.endHeld h st).pow = s.pow ∧ (s.endHeld h st).time = s.time ∧ (s.endHeld h st).sec = s.sec ∧ (s.endHeld h st).pkg = s.pkg ∧ (s.endHeld h st).replay = s.replay ∧ (s.endHeld h st).pending = s.pending := by
  unfold State.endHeld
  split <;> simp

@[simp] theorem State.endHolds_keeps (s : State) (f : Held → Bool) (st : Status) :
    (s.endHolds f st).kernels = s.kernels ∧ (s.endHolds f st).pow = s.pow ∧ (s.endHolds f st).time = s.time ∧ (s.endHolds f st).sec = s.sec ∧ (s.endHolds f st).pkg = s.pkg ∧ (s.endHolds f st).replay = s.replay ∧ (s.endHolds f st).pending = s.pending := by
  simp [State.endHolds, State.foldl_kernels, State.foldl_expert, State.foldl_trav, State.foldl_mor, State.foldl_pow, State.foldl_time, State.foldl_sec, State.foldl_pkg, State.foldl_replay, State.foldl_pending]

@[simp] theorem State.releaseOne_keeps (s : State) (h : Held) :
    (s.releaseOne h).strata = s.strata ∧ (s.releaseOne h).rope = s.rope ∧ (s.releaseOne h).cores = s.cores ∧ (s.releaseOne h).kernels = s.kernels ∧ (s.releaseOne h).expert = s.expert ∧ (s.releaseOne h).trav = s.trav ∧ (s.releaseOne h).mor = s.mor ∧ (s.releaseOne h).bci = s.bci ∧ (s.releaseOne h).host = s.host ∧ (s.releaseOne h).lmf = s.lmf ∧ (s.releaseOne h).pow = s.pow ∧ (s.releaseOne h).time = s.time ∧ (s.releaseOne h).rel = s.rel ∧ (s.releaseOne h).sec = s.sec ∧ (s.releaseOne h).obs = s.obs ∧ (s.releaseOne h).pkg = s.pkg ∧ (s.releaseOne h).out = s.out ∧ (s.releaseOne h).replay = s.replay ∧ (s.releaseOne h).freeCtr = s.freeCtr ∧ (s.releaseOne h).nextId = s.nextId ∧ (s.releaseOne h).pending = s.pending := by
  simp [State.releaseOne]

@[simp] theorem State.bufferFree_keeps (s : State) :
    (s.bufferFree).strata = s.strata ∧ (s.bufferFree).rope = s.rope ∧ (s.bufferFree).cores = s.cores ∧ (s.bufferFree).kernels = s.kernels ∧ (s.bufferFree).expert = s.expert ∧ (s.bufferFree).trav = s.trav ∧ (s.bufferFree).mor = s.mor ∧ (s.bufferFree).bci = s.bci ∧ (s.bufferFree).host = s.host ∧ (s.bufferFree).lmf = s.lmf ∧ (s.bufferFree).pow = s.pow ∧ (s.bufferFree).time = s.time ∧ (s.bufferFree).rel = s.rel ∧ (s.bufferFree).sec = s.sec ∧ (s.bufferFree).obs = s.obs ∧ (s.bufferFree).pkg = s.pkg ∧ (s.bufferFree).out = s.out ∧ (s.bufferFree).replay = s.replay ∧ (s.bufferFree).freeCtr = s.freeCtr ∧ (s.bufferFree).nextId = s.nextId ∧ (s.bufferFree).pending = s.pending := by
  simp [State.bufferFree]

end Sys2Proof.Machine
end

