-- ==== Sys2Proof/Laws/Checks.lean ====
section
/-! SUPPORT. What the checks of an access establish when they pass, and how requests complete. -/

namespace Sys2Proof.Machine

/-! ### The checks of R62 -/

/-- A live key names a region of that generation which does not drain (R55, R67). -/
theorem State.live_some {s : State} {eid key rid : Nat} {r : Region} (h : s.live eid key = some (rid, r)) :
    rid = s.ridOf eid key ∧ s.region? rid = some r ∧ r.gen = keyGen key ∧ keyGen key ≠ 0 ∧ r.draining = false := by
  unfold State.live at h
  split at h
  · split at h
    · simp only [Option.some.injEq, Prod.mk.injEq] at h
      obtain ⟨rfl, rfl⟩ := h
      simp_all
    · cases h
  · cases h

/-- An access that is permitted lies inside a live region, and its issuer holds the rights or is the admin issuer (R62, R63, R784). -/
theorem State.permit_some {s : State} {home key off n rid : Nat} {need : Rights} {i : Issuer} {r : Region}
    (h : s.permit home key off n need i = some (rid, r)) :
    s.live home key = some (rid, r) ∧ r.base ≤ off ∧ off + n ≤ r.base + r.size
      ∧ (i.admin = true ∨ ((r.rightsOf i.eid i.ctx).covers need = true ∧ s.sealed r i.eid = true)) := by
  unfold State.permit at h
  split at h
  · rename_i rid' r' hl
    split at h
    · rename_i hc
      simp only [Option.some.injEq, Prod.mk.injEq] at h
      obtain ⟨rfl, rfl⟩ := h
      simp only [Region.inside, Bool.and_eq_true, Bool.or_eq_true, decide_eq_true_eq] at hc
      exact ⟨hl, hc.1.1, hc.1.2, hc.2⟩
    · cases h
  · cases h

/-- A region that is not mirrored and has no recall is served. -/
theorem State.gate_none {s : State} {rid : Nat} {r : Region} (hm : r.mirror = 0) (hr : Tab.get? s.rope.recalls rid = none) : s.gate rid r = none := by
  simp [State.gate, hm, hr]

/-! ### Requests -/

/-- An LMF request that is taken comes, in time, from a current incarnation, for an EID of this controller, to a controller that has joined. -/
theorem State.arrive_ok {s u : State} {cmd : Instr} {q : LmfReq} {v3 payload : Bool} (h : s.arrive cmd q v3 payload = .ok u) :
    u = s.arrived q payload ∧ u.lmf.joined = true ∧ u.now + 10000 < u.limitOf q ∧ q.ptrHi = 0
      ∧ u.isOwn q.dstEid = true ∧ u.judge q.srcEid q.srcInc = .current := by
  unfold State.arrive at h
  dsimp only at h
  generalize s.arrived q payload = v at h
  split at h
  · cases h
  rename_i h1
  split at h
  · split at h <;> cases h
  rename_i h2
  split at h
  · cases h
  rename_i h3
  split at h
  · cases h
  split at h
  · cases h
  rename_i h4
  split at h
  · cases h
  · cases h
  · cases h
  rename_i h5
  have hu : u = v := by (repeat' split at h) <;> cases h <;> rfl
  subst hu
  simp only [not_or] at h4
  exact ⟨rfl, by simpa using h1, by omega, by simpa using h3, by simpa using h4.2.2, h5⟩

theorem State.taken_some {s u : State} {cmd : Instr} {q : LmfReq} {v3 payload : Bool} (h : s.taken cmd q v3 payload = some u) :
    s.runs = true ∧ s.sourced q = q ∧ s.arrive cmd q v3 payload = .ok u := by
  unfold State.taken at h
  split at h
  · split at h
    · simp_all
    · cases h
  · cases h

/-- An access that reaches its region was taken, spans no more than 4 KiB of one block, is permitted, and its region is served. -/
theorem State.accesses_some {s u : State} {cmd : Instr} {q : LmfReq} {v3 payload : Bool} {need : Rights} {rid : Nat} {r : Region}
    (h : s.accesses cmd q v3 payload need = some (u, rid, r)) :
    s.taken cmd q v3 payload = some u ∧ q.len ≤ 4096 ∧ inBlock q.offset q.len = true ∧ u.permit q.dstEid q.key q.offset q.len need (LmfIssuer q) = some (rid, r)
      ∧ u.gate rid r = none := by
  unfold State.accesses at h
  split at h
  · cases h
  · rename_i v hv
    split at h
    · rename_i hc
      split at h
      · rename_i rid' r' hp
        split at h
        · rename_i hg
          simp only [Option.some.injEq, Prod.mk.injEq] at h
          obtain ⟨rfl, rfl, rfl⟩ := h
          exact ⟨hv, hc.1, hc.2, hp, hg⟩
        · cases h
      · cases h
    · cases h

/-- A served access runs its body on the region the checks found. -/
theorem State.serve_eq {u : State} {cmd : Instr} {q : LmfReq} {need : Rights} {body : Nat → Region → State → Result} {rid : Nat} {r : Region}
    (hl : q.len ≤ 4096) (hb : inBlock q.offset q.len = true) (hp : u.permit q.dstEid q.key q.offset q.len need (LmfIssuer q) = some (rid, r))
    (hg : u.gate rid r = none) : u.serve cmd q need body = body rid r u := by
  unfold State.serve
  rw [if_neg (by simp [hb]; omega), hp]
  simp only [hg]

/-! ### Reads and writes of memory -/

/-- A range of no bytes has no pieces. -/
theorem pieces_nil_of_zero (off : Nat) : pieces off 0 = [] := by simp [pieces, pagesOf]

/-- A write of no bytes is none. -/
theorem State.writeRange_nil (s : State) (rid : Nat) (w : Way) (off : Nat) : s.writeRange rid w off [] = s := by
  simp [State.writeRange, State.writePieces, pieces_nil_of_zero]

/-! ### The canonical form of the boot store -/

theorem reset_store_wf : Mem.wf State.reset.pkg.store = true := by decide +kernel

end Sys2Proof.Machine
end

