-- ==== Sys2Proof/Tests/Slice0.lean ====
section
/-! SUPPORT. Small tests, each of one step: ill-formed terms that the checks refuse, and for each statement's clauses a concrete state and
operands that meet its hypotheses, with what the step gives there. -/

set_option Elab.async false

namespace Sys2Proof.Tests

open Sys2Proof Sys2Proof.Machine

/-- What holds after the command. -/
def next (c : Instr) (s : State) (p : State → Bool) : Bool :=
  match exec c s with
  | .next t => p t
  | _ => false

/-- The command changes nothing. -/
def stays (c : Instr) (s : State) : Bool := next c s fun t => decide (t = s)

/-! ### The package (23) -/

/-- The controller with a clock well past boot. -/
def base : State := { State.reset with time := { TimeUnit.reset with now := 1000000000 } }

/-- Every image of the boot store in order. -/
def goodImg : BootImages := { aonA := true, aonB := true, slot0 := true, slot1 := true }

/-- No image in order. -/
def badImg : BootImages := { aonA := false, aonB := false, slot0 := false, slot1 := false }

/-- The package held in reset. -/
def held : State := { base with pkg := { base.pkg with rstN := false, booted := false, railEn := 0, railPg := 0 } }

/-- The package with its rails coming up: the first seven good, the eighth asked for. -/
def rising : State := { base with pkg := { base.pkg with booted := false, railEn := 255, railPg := 127 } }

theorem wit_PackageResets_assert : (decide (base.pkg.aonUp = true) && decide (base.pkg.rstN = true) && decide (base.pkg.storeBusy = none)
    && next .pkgRstAssert base fun t => !t.runs && decide (t.home = Home.reset) && decide (t.pkg.railEn = 0)) = true := by decide +kernel

theorem wit_PackageResets_loss : (decide (base.pkg.aonUp = true) && next .aonSupplyLoss base fun t => decide (t.pkg.aonUp = false)) = true := by decide +kernel

theorem wit_PackageResets_on : (let s : State := { base with pkg := { base.pkg with aonUp := false } }
    decide (s.pkg.aonUp = false) && next .powerOn s fun t => decide (t.pkg.aonUp = true ∧ t.time.now = 0)) = true := by decide +kernel

theorem wit_RailSequence_release : (decide (held.pkg.aonUp = true ∧ held.pkg.rstN = false)
    && (next (.pkgRstRelease goodImg) held fun t => decide (t.pkg.railEn = 1 ∧ t.pkg.rstN = true))
    && (next (.pkgRstRelease badImg) held fun t => decide (t.sec.bootFail = true ∧ t.out = [.ibi 4]))) = true := by decide +kernel

theorem wit_RailSequence_good : (decide (rising.pkg.aonUp = true ∧ rising.pkg.rstN = true ∧ rising.rel.failCause = none ∧ rising.pkg.railHalt = false
      ∧ bitAt rising.pkg.railEn 7 = true ∧ bitAt rising.pkg.railPg 7 = false ∧ rising.bci.runSlot = 0 ∧ rising.mayRun 0 = true)
    && (next (.railPg 7 goodImg) rising fun t => decide (t.pkg.booted = true))
    && (let s : State := { rising with pkg := { rising.pkg with railEn := 1, railPg := 0 } }
        next (.railPg 0 goodImg) s fun t => decide (bitAt t.pkg.railEn 1 = true ∧ t.pkg.booted = false))) = true := by decide +kernel

/-- An image whose key slot is revoked does not boot (R774). -/
theorem test_boot_refuses_revoked : (let s : State := { rising with sec := { rising.sec with revoked := 1 } }
    next (.railPg 7 goodImg) s fun t => decide (t.pkg.booted = false ∧ t.sec.bootFail = true)) = true := by decide +kernel

theorem wit_RailSequence_timeout : (decide (bitAt rising.pkg.railEn 7 = true ∧ bitAt rising.pkg.railPg 7 = false)
    && next (.railPgTimeout 7 1) rising fun t => decide (t.pkg.railEn = 0 ∧ t.pkg.faultRail = 8 ∧ t.pkg.faultDie = 1)) = true := by decide +kernel

theorem wit_FailStop_causes : (decide (base.rel.failCause = none ∧ base.pkg.aonUp = true ∧ base.pkg.rstN = true ∧ base.pkg.booted = true)
    && (decide (bitAt base.pkg.railPg 7 = true) && next (.railFault 7 0 true) base fun t => decide (t.rel.failCause = some 7 ∧ t.pkg.faultKind = 2))
    && (next (.refclkLoss 0) base fun t => decide (t.out = [.ibi 1]))
    && (next .thermtrip base fun t => decide (t.out = [.ibi 2, .ibi 1]))
    && (next .dieLoss base fun t => decide (t.rel.failCause = some 1))) = true := by decide +kernel

/-- The controller in fail-stop. -/
def stopped : State := { base with rel := { base.rel with failCause := some 7 } }

theorem wit_FailStop_serves : (decide (stopped.rel.failCause.isSome = true) && stays .heartbeatSend stopped && stays (.go 0 0) stopped) = true := by
  decide +kernel

theorem wit_TestAccessPort : (decide (base.pkg.aonUp = true ∧ base.pkg.rstN = true) && decide (held.pkg.aonUp = true ∧ held.pkg.rstN = false)
    && (next .idcode base fun t => decide (t.out = [.tdo 0x0A7211CB]))
    && (next (.extest 5) held fun t => decide (t.pkg.cells = 5))) = true := by decide +kernel

theorem wit_SidebandAndBootStore_regs : (decide (base.pkg.aonUp = true ∧ base.pkg.sideband = true ∧ Tab.has base.pkg.dynAddr 0x3A = false)
    && (next (.setdasa 0x3A 9) base fun t => decide (Tab.get? t.pkg.dynAddr 0x3A = some 9))
    && (next (.entdaa 0x3A 9) base fun t => decide (Tab.get? t.pkg.dynAddr 0x3A = some 9))
    && (next (.regRead 0) base fun t => decide (t.out.length = 1)) && (next (.regWrite 65532 1) base fun t => decide (t.out = []))
    && (next (.regRead 2) base fun t => decide (t.out = [.i3cNack]))) = true := by decide +kernel

/-- 256 bytes. -/
def page : Bytes := List.replicate 256 7

/-- The boot store with a write of `page` under way. -/
def storing : State := { base with pkg := { base.pkg with storeBusy := some (512, page) } }

theorem wit_SidebandAndBootStore_write : (decide (base.pkg.storeBusy = none ∧ page.length = 256 ∧ base.pkg.rstN = true ∧ base.sec.bootFail = false)
    && (next (.storeWrite 0x0020FF00 page) base fun t => decide (t.pkg.storeStatus = 1 ∧ t.pkg.storeBusy = some (0x0020FF00, page)))
    && (next (.storeWrite 0x00210000 page) base fun t => decide (t.pkg.storeStatus = 2 ∧ t.pkg.storeBusy = none))
    && (next (.storeWrite 0x20FFFF00 page) held fun t => decide (t.pkg.storeStatus = 1))
    && (next (.storeWrite 0 page) storing fun t => decide (t.out = [.i3cNack]))) = true := by decide +kernel

theorem wit_SidebandAndBootStore_end : (decide (storing.pkg.aonUp = true ∧ storing.pkg.sideband = true)
    && next (.storeWriteEnd true) storing fun t => decide (Mem.readN t.pkg.store 512 256 = page ∧ t.pkg.storeStatus = 0)) = true := by decide +kernel

theorem wit_SidebandAndBootStore_read : ((next (.storeRead 0x00400000) base fun t => decide (t.out = [.i3c (List.replicate 256 0)]))
    && (next (.storeRead 0x002FFF00) base fun t => decide (t.out = [.i3c (List.replicate 256 0)]))
    && (next .storeStatus base fun t => decide (t.out = [.i3c [0]]))) = true := by decide +kernel
/-! ### Host ports (16) -/

/-- A region of 1 MiB, or 256 MiB, that EID 5 and EID 7 hold every right on. -/
def reg (m : Mode) (size : Nat) : Region :=
  { gen := 1, draining := false, base := 0, size := size, mode := m, policy := { place := .auto, lent := false }, talus := false, encrypt := false,
    mirror := 0, mirrorDone := false, absentFault := false, absent0 := false, creator := 1, version := 0,
    grants := [{ eid := 5, ctx := 1, any := true, rights := { r := true, w := true, a := true, p := true, e := true } },
      { eid := 7, ctx := 3, any := true, rights := { r := true, w := true, a := true, p := true, e := true } }],
    entries := [], excl := [], table := none, tkey := 0, tkeyOld := none, dkey := 0 }

/-- A context bound to the physical function of port 0. -/
def ctx1 : Context := { st := .active, lineMode := false, shadowLimit := 100, floor := 0, bind := some (0, 0), ctrs := [], key := 1 }

/-- The controller joined as EID 5 beside EID 7, with context 1 and region 0 of a mode and a size; its key is 65,536. -/
def joined (m : Mode) (size : Nat) : State :=
  { base with
    lmf := { Lmf.reset with eid := 5, inc := 1, joined := true, fmEid := 9, incs := [(7, { inc := 2, ver := 3, joined := true, fenced := none })] }
    bci := { Bci.reset with contexts := [(1, ctx1)] }
    home := { Home.reset with regions := [(0, reg m size)], gens := [(0, 1)] } }

/-- Port 0 with its link up and one VF on channel 12. -/
def linked : State :=
  let s := joined .priv 268435456
  { s with
    host := { s.host with
      ports := [(0, { HostPort.reset with up := true, vfs := 1, decs := [(0, { Decoder.reset with keyReg := 65536 })] })]
      fns := Tab.set s.host.fns 1 (Window.reset (some 12)) }
    bci := { s.bci with
      channels := s.bci.channels ++ [(12, Channel.fresh (.fn 0 1))]
      contexts := s.bci.contexts ++ [(2, { ctx1 with bind := some (0, 1) })] } }

/-- The same, with no context bound to the VF. -/
def linkedBare : State := { linked with bci := { linked.bci with contexts := [(1, ctx1)] } }

theorem wit_FunctionsAndHostLinks_flr : (decide (linked.runs = true ∧ linked.fnEnabled 0 0 = true ∧ linked.fnEnabled 0 1 = true
      ∧ linked.boundCtx 0 1 = some 2 ∧ linked.ctxIs 2 .active = true)
    && (next (.flr 0 0) linked fun t => decide ((t.hport 0).vfs = 0)) && (next (.flr 0 1) linked fun t => t.ctxIs 2 .resetting)) = true := by decide +kernel

theorem wit_FunctionsAndHostLinks_flrBare : (decide (linkedBare.runs = true ∧ linkedBare.fnEnabled 0 1 = true ∧ linkedBare.boundCtx 0 1 = none
      ∧ (linkedBare.fnWin 0 1).chan = some 12)
    && (next (.flr 0 1) linkedBare fun t => decide ((t.fnWin 0 1).chan = some 12 ∧ t.host.ports = linkedBare.host.ports))) = true := by decide +kernel

theorem wit_FunctionsAndHostLinks_link : (decide ((linked.hport 0).up = true ∧ (linked.hport 0).vfs ≠ 0)
    && (next (.vfDisable 0) linked fun t => decide ((t.hport 0).vfs = 0)) && (next (.hptPerst 0) linked fun t => decide ((t.hport 0).vfs = 0))
    && (next (.hostLinkLoss 0) linked fun t => decide ((t.hport 0).up = false))
    && (next (.hptRefclkLoss 0) linked fun t => decide ((t.hport 0).refclk = false))) = true := by decide +kernel

theorem wit_FunctionsAndHostLinks_up : (decide (base.runs = true ∧ (base.hport 3).up = false)
    && next (.hostLinkUp 3 true) base fun t => decide ((t.hport 3).up = true ∧ (t.hport 3).inc = 1)) = true := by decide +kernel

theorem wit_FunctionsAndHostLinks_vfs : (let s : State := { base with host := { base.host with ports := [(0, { HostPort.reset with up := true })] } }
    decide ((s.hport 0).up = true ∧ (s.hport 0).vfs = 0 ∧ lowestFree ((Tab.keys s.bci.channels).filter (fun k => decide (12 ≤ k))) 12 < 1024)
    && (next (.vfEnable 0 1) s fun t => decide ((t.fnWin 0 1).chan = some 12)) && (next (.vfEnable 0 5) s fun t => decide ((t.hport 0).vfs = 5))) = true := by
  decide +kernel

theorem wit_HostWindowBindings_commit : (decide (linked.runs = true ∧ (linked.hport 0).up = true ∧ (linked.hport 0).pcie = false
      ∧ (linked.decoder 0 0).committed = false ∧ linked.fnEnabled 0 0 = true ∧ linked.boundCtx 0 0 = some 1 ∧ linked.ctxIs 1 .destroying = false
      ∧ (linked.decoder 0 0).fnReg = 0 ∧ (linked.decoder 0 0).keyReg = 65536 ∧ (linked.live 5 65536).isSome = true)
    && next (.hdmCommit 0 0 536870912 268435456 0) linked fun t => decide ((t.decoder 0 0).committed = true ∧ (t.decoder 0 0).hpa = 536870912)) = true := by
  decide +kernel

theorem wit_HostWindowBindings_refused : ((next (.hdmCommit 0 0 0 268435456 2) linked fun t => (t.decoder 0 0).errNC)
    && (let s : State := { linked with bci := { linked.bci with contexts := [] } }
        decide (s.boundCtx 0 0 = none) && next (.hdmCommit 0 0 0 268435456 0) s fun t => decide ((t.decoder 0 0).status = Status.state.code))) = true := by
  decide +kernel

theorem wit_HostWindowBindings_uncommit : (let s : State :=
      { linked with host := { linked.host with ports := [(0, { HostPort.reset with up := true, decs := [(0, { Decoder.reset with committed := true })] })] } }
    decide (s.runs = true ∧ (s.decoder 0 0).committed = true) && next (.hdmUncommit 0 0) s fun t => decide ((t.decoder 0 0).committed = false)) = true := by
  decide +kernel

/-- The controller in the fabric manager's session. -/
def managed : State := { linked with sec := { linked.sec with
      fmSession := true
      peers := [{ peer := .fm 9, version := true, caps := true, algs := true, keyed := true, session := true, key := 1 }] } }

theorem wit_OwnerMailboxAndParts_owner : (decide (managed.runs = true ∧ managed.fmSays 9 true = true ∧ managed.lmf.joined = true)
    && (decide (managed.ownerOk 0 = true) && next (.ownerSet 9 0 true) managed fun t => decide (t.host.owner = 0))
    && (decide (managed.ownerOk 1 = false) && next (.ownerSet 9 1 true) managed fun t => decide (t.out = [.evt 9 4 [1, Status.state.code]]))
    && (next (.ownerSet 9 0 false) managed fun t => decide (t.lmf.evtDrop = 1))) = true := by decide +kernel

theorem wit_OwnerMailboxAndParts_mailbox : ((next (.memoryDeviceMailbox 0 0x4000 []) base fun t => decide (t.out.length = 1))
    && (next (.memoryDeviceMailbox 0 2 []) base fun t => decide (t.out = [.doe 0 [0x15, 2] []]))
    && (next (.doeRequest 0 1) base fun t => decide (t.out = [.doe 0 [1] []]))) = true := by decide +kernel

/-- The controller with drive 3 in its slot, admitted or not. -/
def driven (a : Bool) : State :=
  { base with strata := { base.strata with
      present := [3]
      drives := [(3, { admitted := a, inc := 1, spare := false, failed := false, capacity := 1000, queues := 8 })] } }

theorem wit_OwnerMailboxAndParts_drives : (decide (base.strata.present.contains 3 = false) && (next (.drivePresenceChange 3 true) base fun t => t.strata.present.contains 3)
    && decide ((driven false).strata.present.contains 3 = true ∧ ((driven false).drive 3).admitted = false ∧ (driven false).rebuildOf .drive 3 = none
      ∧ (driven false).pkg.bootAt + 100000 ≤ (driven false).now)
    && (next (.drivePresenceChange 3 false) (driven false) fun t => !t.strata.present.contains 3)
    && (next (.driveAdmission 3 77 true) (driven false) fun t => decide ((t.drive 3).inc = 2 ∧ (t.drive 3).capacity = 77))
    && (next (.driveAdmission 3 77 false) (driven false) fun t => decide (t.out = [.nvme 3 0 .identify 0 1, .nvme 3 0 .identify 1 0]))
    && stays (.driveAdmission 4 77 true) (driven false)) = true := by decide +kernel

theorem wit_OwnerMailboxAndParts_failures : (decide ((driven true).partUp .drive 3 = true)
    && (next (.asyncEvent 3 true) (driven true) fun t => (t.drive 3).failed) && (next (.driveLinkLoss 3) (driven true) fun t => (t.drive 3).failed)
    && (next (.asyncEvent 3 false) (driven true) fun t => decide (t.out = [.nvme 3 0 .asyncEvent 0 0, .nvme 3 0 .getLogPage 2 0])) && (next (.dimmTemp 2 0 true) base fun t => (t.dimm 2).hot)) = true := by decide +kernel
/-! ### Fabric time (18) -/

/-- LMF ports 0 and 3 up towards EID 7, with the request of SEQ 4 out on port 3, whose partner is one step from the root. -/
def timed (st : TimeState) (stepped : Bool) (good : Nat) : State :=
  { base with
    lmf := { base.lmf with ports := [(3, { LPort.reset with st := .up, ver := 3, eid := 7, inc := 2 })] }
    time := { base.time with st := st, everStepped := stepped, stepped := stepped, good := good, adv := [(3, 1)], asked := [(3, (4, 999999000))] } }

theorem wit_TimeUnit_link : (let s := timed .locked true 0
    decide (s.runs = true ∧ (s.lport 3).st = .up ∧ s.time.source = 0 ∧ s.time.everStepped = true ∧ Tab.get? s.time.asked 3 = some (4, 999999000))
    && (next (.timeSyncSend 3) s fun t => decide (t.out.length = 1)) && (next (.timeSync 3 8 5 6) s fun t => decide (t.out.length = 1))
    && (next (.timeSyncResponse 3 1 4 999999000 999999700 999999900 1000000000 50 77) s fun t => decide (t.time.rate = 20000 ∧ t.time.root = 77))) = true := by
  decide +kernel

theorem wit_TimeUnit_states : ((let s := timed .unsync false 0
      decide (s.time.st = .unsync ∧ s.time.everStepped = false)
      && next (.timeSyncResponse 3 1 4 999999000 1000009000 1000009500 999999500 50 77) s fun t => decide (t.time.st = .locking ∧ t.time.now = 1000010000))
    && (let s := timed .locking true 15
      decide (s.time.good = 15) && next (.timeSyncResponse 3 1 4 999999000 999999200 999999400 999999600 50 77) s fun t => decide (t.time.st = .locked))
    && (let s := timed .holdover true 0
      next (.timeSyncResponse 3 1 4 999999000 999999200 999999400 999999600 50 77) s fun t => decide (t.time.st = .locking))
    && (let s := timed .locked true 0
      decide (s.time.lastGood + 10000000 ≤ s.now) && next .holdoverEntry s fun t => decide (t.time.st = .holdover))) = true := by decide +kernel

/-- The controller under PTP, in HOLDOVER, with a Sync, its departure and a Delay_Req at hand. -/
def ptp : State :=
  { base with time := { base.time with source := 1, ptpPort := 1, ptpDomain := 2, st := .holdover, everStepped := true, stepped := true, sync := some (6, 900), origin := some 800, delay := some (3, 950) } }

theorem wit_TimeUnit_ptp : (decide (ptp.runs = true ∧ ptp.time.source = 1 ∧ ptp.time.ptpPort = 1 ∧ ptp.time.ptpDomain = 2)
    && (next (.announce 1 2 9) ptp fun t => decide (t.time.ptpSteps = 9)) && (next (.sync 1 2 7 10 20 false) ptp fun t => decide (t.time.origin = some 10))
    && (next (.sync 1 2 7 10 20 true) ptp fun t => decide (t.time.sync = some (7, 20)))
    && (let s : State := { ptp with time := { ptp.time with origin := none } }
        next (.followUp 1 2 6 33) s fun t => decide (t.time.origin = some 33))
    && (next (.delayReq 1 2 9 44) ptp fun t => decide (t.time.delay = some (9, 44)))
    && (next (.delayResp 1 2 3 1000) ptp fun t => decide (t.time.st = .locking))) = true := by decide +kernel

theorem wit_TimeUnit_fallback : (let s : State := { base with time := { base.time with source := 2, st := .holdover } }
    decide (s.time.usePtp = false ∧ s.time.lastGood + 10000000 ≤ s.now ∧ s.time.st ≠ .unsync) && next .ptpFallback s fun t => t.time.usePtp) = true := by
  decide +kernel

/-! ### Attestation and sessions (20) -/

/-- The controller having gone through the exchange with a peer up to its key exchange. -/
def spoken (p : Peer) : State :=
  { base with sec := { base.sec with peers := [{ peer := p, version := true, caps := true, algs := true, keyed := true, session := false, key := 1 }] } }

theorem wit_SecureSessions_responder : (let s := spoken (.mgmt 1)
    decide (s.runs = true ∧ (s.spdm (.mgmt 1)).version = true ∧ (s.spdm (.mgmt 1)).caps = true ∧ (s.spdm (.mgmt 1)).algs = true ∧ s.bci.activating = none)
    && (next (.getVersion (.mgmt 1)) s fun t => decide (t.out = [.spdm (.mgmt 1) 4 [0x12, 0x13]]))
    && (next (.getCapabilities (.mgmt 1)) s fun t => (t.spdm (.mgmt 1)).caps)
    && (next (.negotiateAlgorithms (.mgmt 1) { sig4096 := true, sha512 := true, secp384 := true, aesGcm := true }) s fun t => (t.spdm (.mgmt 1)).algs)
    && (next (.getDigests (.mgmt 1)) s fun t => decide (t.out.length = 1)) && (next (.keyExchange (.mgmt 1) 9) s fun t => (t.spdm (.mgmt 1)).keyed)) = true := by
  decide +kernel

theorem wit_SecureSessions_finish : (decide (((spoken (.mgmt 1)).spdm (.mgmt 1)).keyed = true ∧ (spoken (.mgmt 1)).inSession (.mgmt 1) = false)
    && (next (.finish (.mgmt 1) true true) (spoken (.mgmt 1)) fun t => t.inSession (.mgmt 1))
    && (next (.finish (.mgmt 1) true false) (spoken (.mgmt 1)) fun t => !t.inSession (.mgmt 1))
    && (next (.finish (.lmf 7 2) false false) (spoken (.lmf 7 2)) fun t => t.inSession (.lmf 7 2) && decide (t.sec.secured = [(7, 2)]))) = true := by decide +kernel

theorem wit_SecureSessions_manager : ((next (.keyExchangeRsp (.fm 9) true true true) base fun t => (t.spdm (.fm 9)).keyed)
    && (next (.keyExchangeRsp (.fm 9) true false true) base fun t => !(t.spdm (.fm 9)).keyed)
    && (let s : State := { spoken (.fm 9) with time := { base.time with everLocked := true } }
        decide ((s.spdm (.fm 9)).keyed = true ∧ s.lmf.joined = false) && next (.finishRsp (.fm 9)) s fun t => t.sec.fmSession && t.sec.joinAsked)
    && (decide (∀ x ∈ managed.sec.peers, x.session = true → x.peer = .fm 9) && next (.sessionEnd (.fm 9)) managed fun t => !t.sec.fmSession)
    && (next (.sessionEnd (.lmf 7 2)) base fun t => decide (t.sec.secured = []))) = true := by decide +kernel

theorem wit_SecureSessions_retire : (let s : State := { base with home := { base.home with regions := [(0, { reg .priv 65536 with tkey := 2, tkeyOld := some (1, 5) })] } }
    decide (5 + s.bci.txnTimeout ≤ s.now ∧ s.home.revokes = [])
    && next (.transportKeyRetire 0) s fun t => decide ((t.region? 0).map Region.tkeyOld = some none)) = true := by decide +kernel

/-! ### Power (18) -/

/-- The controller with a domain in a state. -/
def domIn (d : Domain) (st : DomState) : State :=
  { base with pow := { base.pow with doms := base.pow.doms.map fun e => if e.dom = d then { e with st := st } else e } }

theorem wit_PowerEvents_gate : (let d := Domain.trv 1
    decide (base.domain d ∈ base.pow.doms ∧ (base.domain d).st = .on ∧ base.domainBusy d = false ∧ base.expert.ssd = none ∧ base.pow.gateUs ≤ base.pow.offUs)
    && (next (.gateTimeout d) base fun t => decide ((t.domain d).st = .entering false))
    && (let s : State := { base with pow := { base.pow with offEn := true } }
        decide (engineDomain d = true) && next (.offTimeout d) s fun t => decide ((t.domain d).st = .entering true))
    && (let s := domIn d .gated
        decide (s.pow.bivouac = false) && next (.domainWake d) s fun t => decide ((t.domain d).st = .waking))
    && (next (.domainWake d) (domIn d .off) fun t => decide ((t.domain d).st = .waking))
    && (next (.domainOn d) (domIn d .waking) fun t => decide ((t.domain d).st = .on))) = true := by decide +kernel

theorem wit_PowerEvents_busy : (decide ((base.domain .aon).st = .on ∧ base.domainBusy .aon = true) && stays (.gateTimeout .aon) base && stays (.offTimeout .aon) base) = true := by
  decide +kernel

theorem wit_PowerEvents_clock : ((next (.stretchEpisodeEnd 3 0 1000) base fun t => decide (t = base.clockGap 3 3 0 1000))
    && (next (.stretchEpisodeEnd 3 0 999) base fun t => decide (t.pow.stretches = 1))) = true := by decide +kernel

theorem wit_PowerEvents_window : (decide (Tab.getD base.pow.steps 1 0 = 0 ∧ Tab.getD base.pow.heatSteps 1 0 = 0 ∧ base.pow.capApplied * 25 ≤ 1300 ∧ base.expert.ssd = none)
    && (next (.powerWindow 1301 100 0) base fun t => decide (Tab.getD t.pow.steps 1 0 = 1 ∧ Tab.getD t.pow.heatSteps 1 0 = 1))
    && (next (.powerWindow (base.pow.capApplied * 25) 97 0) base fun t => decide (t.pow.steps = base.pow.steps ∧ t.pow.heatSteps = base.pow.heatSteps))
    && (next (.powerWindow (base.pow.capApplied * 25 - 25) 97 0) base fun t => decide (t.pow.steps = base.pow.steps))) = true := by decide +kernel

theorem wit_PowerEvents_bivouac : (let s : State := { base with pow := { base.pow with
      bivEn := true
      doms := base.pow.doms.map fun e => if engineDomain e.dom then { e with st := .off } else e } }
    decide (s.quiet = true ∧ s.pow.bivouac = false) && next .bivouacEntry s fun t => t.pow.bivouac && next .bivouacExit t fun u => !u.pow.bivouac) = true := by
  decide +kernel
/-! ### LMF links and the fabric (17) -/

/-- LMF port 3 in a state. -/
def port3 (st : LinkState) : State :=
  { base with lmf := { base.lmf with ports := [(3, { LPort.reset with st := st, ver := if st = .up then 3 else 0, eid := 7, inc := 2 })] } }

theorem wit_LinksAndMembership_link : (decide (base.runs = true ∧ (base.lport 3).st = .down ∧ bitAt 8 3 = true ∧ bitAt 4 3 = false ∧ bitAt 4 2 = true ∧ bitAt 2 2 = false)
    && (next (.linkAdv 3 7 2 8 4 1) base fun t => decide ((t.lport 3).st = .up ∧ (t.lport 3).ver = 3))
    && (next (.linkAdv 3 7 2 4 2 1) base fun t => decide ((t.lport 3).ver = 2)) && (next (.linkAdv 3 7 2 2 2 1) base fun t => decide ((t.lport 3).st = .retry))
    && (next (.linkStepTimeout 3) base fun t => decide ((t.lport 3).retryAt = 2000000000))
    && (decide (((port3 .retry).lport 3).retryAt ≤ base.now) && next (.linkRetryTimer 3) (port3 .retry) fun t => decide ((t.lport 3).st = .step 1))) = true := by decide +kernel

theorem wit_LinksAndMembership_flits : (decide (((port3 .up).lport 3).st = .up) && (next (.linkDown 3) (port3 .up) fun t => decide ((t.lport 3).st = .step 1))
    && (next (.flitAckTimeout 3) (port3 .up) fun t => decide ((t.lport 3).st = .step 1)) && (next (.flitReplay 3 99) (port3 .up) fun t => decide (t.out = [.flit 3 1 99]))
    && (next (.flitCrcFailure 3 98) (port3 .up) fun t => decide ((t.lport 3).rxNext = 98))) = true := by decide +kernel

/-- The controller asked to join, in the manager's session. -/
def asking : State := { base with sec := { managed.sec with joinAsked := true } }

theorem wit_LinksAndMembership_join : (decide (asking.runs = true ∧ asking.fmSays 9 true = true ∧ asking.lmf.joined = false ∧ asking.sec.joinAsked = true)
    && (next (.join 9 5 1 3 0 0 true) asking fun t => decide (t.lmf.joined = true ∧ t.lmf.eid = 5 ∧ t.lmf.fmEid = 9))
    && (next (.join 9 5 1 3 0 0 false) asking fun t => decide (t.lmf.evtDrop = 1)) && (next (.leave 9 5 1 false) asking fun t => decide (t.lmf.evtDrop = 1))) = true := by
  decide +kernel

theorem wit_LinksAndMembership_other : (decide (managed.lmf.joined = true ∧ managed.lmf.fmEid = 9 ∧ managed.lmf.eid = 5 ∧ Tab.get? managed.lmf.incs 8 = none
      ∧ (managed.lport 0).ver = 0 ∧ (Tab.get? managed.lmf.incs 7).map IncEntry.joined = some true)
    && (next (.join 9 8 4 3 1 0 true) managed fun t => decide (Tab.get? t.lmf.incs 8 = some { inc := 4, ver := 3, joined := true, fenced := none }))
    && (next (.leave 9 7 2 true) managed fun t => decide ((Tab.get? t.lmf.incs 7).map IncEntry.joined = some false))) = true := by decide +kernel

/-- A trailer of no message, waiting under a TAG's generation 3. -/
def txn (idem : Bool) (tries : Nat) : Txn :=
  { what := .trailer 99, eid := 7, ctx := 0, key := 65536, off := 0, lseq := 0, ckey := 0, op := 1, data := [], idem := idem, tries := tries, retry := 0, limit := 500 }

/-- The controller with that transaction under TAG 6. -/
def inFlight (idem : Bool) (tries : Nat) : State :=
  let s := joined .priv 1048576
  { s with lmf := { s.lmf with tags := [(6, { gen := 3, live := some (txn idem tries) })] } }

theorem wit_TransactionsAndFrames : (decide ((inFlight true 0).runs = true ∧ (txn true 0).limit ≤ (inFlight true 0).now)
    && (next (.lmfCompletion 6 3 .ok [] true) (inFlight true 0) fun t => decide ((Tab.get? t.lmf.tags 6).map TagEntry.live = some none))
    && (next (.lmfCompletion 6 2 .ok [] true) (inFlight true 0) fun t => decide (t.lmf.lateCpl = 1))
    && (next (.transactionTimeout 6) (inFlight false 0) fun t => decide (Tab.get? t.lmf.tags 6 = some { gen := 4, live := none }))
    && (next (.transactionTimeout 6) (inFlight true 0) fun t => t.lmf.tags.any (fun e => decide (e.2.live.map Txn.tries = some 1))) && (next (.transactionTimeout 6) (inFlight true 1) fun t => decide (t.lmf.incs = (joined .priv 1048576).lmf.incs))
    && stays (.mgmtFrame 1 .telemetry) base && (next (.mgmtFrame 1 .other) base fun t => decide (t.lmf.frameDrop = 1))) = true := by decide +kernel

/-! ### Mailboxes, doorbells, the compute queue and the registers (15) -/

/-- Port 0's physical function with its window changed. -/
def atWin (f : Window → Window) : State :=
  { linked with host := { linked.host with fns := Tab.set linked.host.fns 0 (f (linked.fnWin 0 0)) } }

/-- The words of a QUERY request. -/
def queryMsg : Tab Word := [(0, BitVec.ofNat 32 (3 + 65536 * 1))]

theorem wit_GoAndDoorbells_msg : (decide (linked.fnEnabled 0 0 = true ∧ (linked.fnWin 0 0).go = false)
    && (next (.mbxMsgWrite 0 0 15 5) linked fun t => decide (Tab.getD (t.fnWin 0 0).msg 15 0 = 5))
    && (next (.mbxMsgWrite 0 0 15 5) (atWin fun w => { w with go := true }) fun t => (t.fnWin 0 0).msgLost)
    && (next (.go 0 0) (atWin fun w => { w with chan := none }) fun t => (t.fnWin 0 0).nochan)
    && stays (.go 0 0) (atWin fun w => { w with go := true })
    && (let s := atWin fun w => { w with msg := queryMsg }
        (bciInstr { src := .fn 0 0, words := (upto 16).map (fun n => Tab.getD (s.fnWin 0 0).msg n 0) }).isSome
          && next (.go 0 0) s fun t => (t.fnWin 0 0).go && decide (t.resume.length = 1))) = true := by decide +kernel

theorem wit_GoAndDoorbells_doorbell : (decide ((linked.fnWin 0 0).full = false ∧ linked.bci.phase ≠ .switching ∧ linked.isOwnerFn 0 1 = false
      ∧ linked.host.owner = 0 ∧ linked.host.ownerFenced = false)
    && (next (.wake 0 0 0) linked fun t => decide ((t.fnWin 0 0).lastStatus = 0 ∧ (t.fnWin 0 0).full = false))
    && (next (.cqTail 0 1 0x101) linked fun t => (t.fnWin 0 1).reject)
    && (next (.cqTail 0 0 0x4001) (atWin fun w => { w with en := true, lLog2 := 6 }) fun t => decide ((t.fnWin 0 0).tail = 64))
    && (let s : State := { linked with bci := { linked.bci with phase := .switching } }
        next (.wake 0 0 0) s fun t => (t.fnWin 0 0).full)
    && (next (.wake 0 0 0) (atWin fun w => { w with full := true }) fun t => (t.fnWin 0 0).overrun)) = true := by decide +kernel

theorem wit_ComputeQueues_enable : ((next (.cqEnable 0) linked fun t => decide ((t.fnWin 0 0).enPend = some true))
    && (next (.cqDisable 0) linked fun t => decide ((t.fnWin 0 0).enPend = some false))
    && (next (.cqEnApply 0) (atWin fun w => { w with en := true, enPend := some false }) fun t => !(t.fnWin 0 0).en)
    && (let s := atWin fun w => { w with enPend := some true, cqSize := 6, cqKey := 65536 }
        (s.permit 5 65536 0 1024 needR { eid := 5, ctx := 1, admin := false }).isSome && decide (s.boundCtx 0 0 = some 1)
          && next (.cqEnApply 0) s fun t => (t.fnWin 0 0).en)
    && (next (.cqEnApply 0) (atWin fun w => { w with enPend := some true, cqSize := 5 }) fun t => decide ((t.fnWin 0 0).errStatus = Status.notSupported.code))
    && stays (.cqEnApply 0) (atWin fun w => { w with enPend := some true, tail := 1 })) = true := by decide +kernel
/-! ### The Slaica core (09, 10) -/

/-- The header of slot `n` of core 0. -/
def hdr (n : Nat) : SlotHdr := { core := 0, slot := n, pred := 0, pneg := false }
/-- The header of a slot that predication disables. -/
def hdrOff (n : Nat) : SlotHdr := { core := 0, slot := n, pred := 0, pneg := true }

/-- Format S with RD, RA, RB, RC, TYPE, SUB and IMM. -/
def sf (rd ra rb rc type sub : Nat) (imm : DWord) : SFmt := { rd := rd, ra := ra, rb := rb, rc := rc, type := type, sub := sub, imm := imm }
/-- Format V with VD, VA, VB, VC, TYPE, TYPE2 and SUB; PD 2 and XS 1. -/
def vf (vd va vb vc type type2 sub : Nat) : VFmt := { vd := vd, va := va, vb := vb, vc := vc, pd := 2, type := type, type2 := type2, sub := sub, xs := 1 }

/-- The kernel of context 1 with 64 KiB of tile store and 1 KiB of code; its first argument is 9 and its completion record goes to offset 4,096
of region 0. -/
def kr : KernelRun :=
  { id := 1, words := [0, 1, 65536, 0, 0, 1024, 0, 1, 9] ++ List.replicate 17 0 ++ [65536, 4096, 0, 0], port := none, pages := [], tsKept := false, lineMode := false, pos := 128, seq := 1, start := 0,
    started := true, suspends := 0, st := .ok, exc := 0, engine := 0, bundle := 0, stalledOn := 0, stalledAt := 0 }

/-- Core 0 running that kernel with `cmd` at the front of its engine's queue. X1 is 7, X2 is −2, X3 is 0, X4 and X5 are the memory pair of offset 8
in region 0 of this controller, X6 is 1.0 and X7 2.5 in FP32, X8 and X9 the pair of offset 3; elements 0 to 3 of V1 are 1.0, −2.0, 0 and 3.0 in FP32; the
tile store starts with the bytes 1 to 8. -/
def slot (cmd : Instr) : State :=
  let s := joined .priv 1048576
  { s with cores := [(0,
      { Core.reset with
        st := .running
        kernel := some kr
        regs := { RegFile.zero with
          x := [(1, 7), (2, -2), (4, 8), (5, 0x0001000000000005), (6, 0x3F800000), (7, 0x40200000), (8, 3), (9, 0x0001000000000005), (10, 8192), (14, 16), (15, 0x0001000000000005)]
          v := [(1, 0x4040000000000000C00000003F800000), (2, 0x3F8000003F8000003F8000003F800000)] }
        tile := [(0, 1), (1, 2), (2, 3), (3, 4), (4, 5), (5, 6), (6, 7), (7, 8)]
        queues := [(engineOf cmd, [{ cmd := cmd, regs := RegFile.zero, frm := none, flags := none, bundle := 0, seq := 0 }])] })] }

/-- The slot is at the front of its queue and free to go, and `p` holds of core 0 after it. -/
def runs (cmd : Instr) (p : Core → Bool) : Bool := ((slot cmd).slotGo cmd).isSome && next cmd (slot cmd) fun t => p (t.core 0)

/-- The slot leaves `v` in X11. -/
def gives (cmd : Instr) (v : BitVec 64) : Bool := runs cmd fun c => decide (c.regs.xr 11 = v)

/-- The scalar instructions of R393 on 7 and −2 (and 0), with the results of its table. -/
theorem test_alu : ((gives (.add (hdr 0) (sf 11 1 2 0 0 0 0)) 5) && (gives (.sub (hdr 0) (sf 11 1 2 0 0 0 0)) 9) && (gives (.addi (hdr 0) (sf 11 1 0 0 0 0 (-9))) (-2))
    && (gives (.li (hdr 1) (sf 11 0 0 0 0 0 0x123456789ABCDEF0)) 0x123456789ABCDEF0) && (gives (.mul (hdr 0) (sf 11 1 2 0 0 0 0)) (-14))
    && (gives (.mulh (hdr 0) (sf 11 1 2 0 0 0 0)) (-1)) && (gives (.mulhu (hdr 0) (sf 11 1 2 0 0 0 0)) 6) && (gives (.div (hdr 0) (sf 11 1 2 0 0 0 0)) (-3))
    && (gives (.div (hdr 0) (sf 11 1 3 0 0 0 0)) (-1)) && (gives (.divu (hdr 0) (sf 11 2 1 0 0 0 0)) 0x2492492492492492) && (gives (.rem (hdr 0) (sf 11 1 2 0 0 0 0)) 1)
    && (gives (.rem (hdr 0) (sf 11 1 3 0 0 0 0)) 7)) = true := by decide +kernel

theorem test_logic : ((gives (.and (hdr 0) (sf 11 1 2 0 0 0 0)) 6) && (gives (.or (hdr 0) (sf 11 1 2 0 0 0 0)) (-1)) && (gives (.xor (hdr 0) (sf 11 1 2 0 0 0 0)) (-7))
    && (gives (.shl (hdr 0) (sf 11 2 1 0 0 0 0)) (-256)) && (gives (.shr (hdr 0) (sf 11 2 1 0 0 0 0)) 0x01FFFFFFFFFFFFFF) && (gives (.sra (hdr 0) (sf 11 2 1 0 0 0 0)) (-1))
    && (gives (.slt (hdr 0) (sf 11 2 1 0 0 0 0)) 1) && (gives (.sltu (hdr 0) (sf 11 2 1 0 0 0 0)) 0)) = true := by decide +kernel

theorem wit_ScalarArithmetic_x0 : (decide (performed (hdr 0) RegFile.zero = true) && runs (.add (hdr 0) (sf 0 1 2 0 0 0 0)) fun c => decide (c.regs.xr 0 = 0)) = true := by
  decide +kernel

theorem wit_ScalarArithmetic_off : (decide (performed (hdrOff 0) RegFile.zero = false)
    && (runs (.nop (hdr 0)) fun c => decide (c.waiting = [])) && (runs (.add (hdrOff 0) (sf 11 1 2 0 0 0 0)) fun c => decide (c.waiting = [] ∧ c.regs.xr 11 = 0))
    && (runs (.mma (hdrOff 4) { acc := 0, md := 0, ma := 0, mb := 0, ra := 0, rb := 0, sub := 0 }) fun c => decide (c.waiting = []))
    && (runs (.br (hdrOff 7) { ra := 0, rb := 0, rc := 0, sub := 0, imm := 128 }) fun c => decide (c.waiting = [] ∧ c.kernel = some kr))) = true := by decide +kernel

theorem wit_ScalarSpecials_preds : ((runs (.pcmp (hdr 0) (sf 1 1 2 0 0 2 0)) fun c => decide (c.regs.pr 1 = 0)) && (runs (.pcmp (hdr 0) (sf 1 1 2 0 0 4 0)) fun c => decide (c.regs.pr 1 = BitVec.allOnes 4096))
    && (runs (.pset (hdr 0) (sf 1 1 0 0 2 0 0)) fun c => decide (c.regs.pr 1 = 0x0FFFFFFF))) = true := by decide +kernel

theorem wit_ScalarSpecials_float : ((gives (.fadd (hdr 0) (sf 11 6 7 0 8 0 0)) 0x40600000) && (gives (.fmul (hdr 0) (sf 11 7 7 0 8 0 0)) 0x40C80000)
    && (gives (.ffma (hdr 0) (sf 11 7 7 6 8 0 0)) 0x40E80000) && (gives (.fcvt (hdr 0) (sf 11 7 0 0 8 3 0)) 2) && (gives (.fcvt (hdr 0) (sf 11 1 0 0 3 8 0)) 0x40E00000)
    && (runs (.fcvt (hdr 0) (sf 11 7 0 0 8 3 0)) fun c => decide (c.flags ≠ 0))) = true := by decide +kernel

theorem wit_ScalarSpecials_status : ((let cmd := Instr.smovs (hdr 0) (sf 11 0 0 0 0 0 5)
      ((slot cmd).statusReg 0 kr { cmd := cmd, regs := RegFile.zero, frm := none, flags := none, bundle := 0, seq := 0 } 5).isSome && gives cmd 0)
    && (runs (.smovs (hdr 0) (sf 11 0 0 0 0 0 4)) fun c => decide (c.flags = 0)) && (runs (.smovt (hdr 0) (sf 0 1 0 0 0 0 5)) fun c => decide (c.flags = 7))
    && (runs (.smovt (hdr 0) (sf 0 3 0 0 0 0 6)) fun c => decide (c.frm = 0))
    && (runs (.mset (hdr 0) (sf 3 1 2 0 0 0 0)) fun c => decide (c.regs.mr 3 = 0x000FFFFE0000000000000007))
    && (gives (.mget (hdr 0) (sf 11 3 0 0 0 1 0)) 0)) = true := by decide +kernel

theorem wit_ScalarSpecials_convert : ((runs (.pcvtH2d (hdr 0) (sf 12 1 0 1 0 0 0)) fun c => decide (c.regs.pr 1 = 0))
    && (decide (memPair ((slot (.nop (hdr 0))).core 0).regs 4 0 = some (5, 65536, 8)) && runs (.pcvtD2h (hdr 0) (sf 12 4 0 1 0 1 0)) fun c => decide (c.regs.pr 1 = 0))) = true := by
  decide +kernel

theorem wit_ScalarMemory_tile : (decide (tileOk kr 0 8 = true) && (gives (.ld (hdr 0) (sf 11 3 0 0 3 1 0)) 0x0807060504030201)
    && (runs (.st (hdr 0) (sf 0 3 1 0 2 1 0)) fun c => decide (Mem.readN c.tile 0 8 = [7, 0, 0, 0, 5, 6, 7, 8]))) = true := by decide +kernel

theorem wit_ScalarMemory_region : (let s := slot (.ld (hdr 0) (sf 11 4 0 0 3 0 0))
    let u : State := s.setCore 0 ((s.core 0).save { cmd := .nop (hdr 0), regs := RegFile.zero, frm := none, flags := none, bundle := 0, seq := 0 })
    decide (memPair (s.core 0).regs 4 0 = some (5, 65536, 8) ∧ s.isOwn 5 = true ∧ s.gate 0 (reg .priv 1048576) = none
      ∧ s.permit 5 65536 8 8 needR (s.kernelIssuer kr) = some (0, reg .priv 1048576) ∧ s.permit 5 65536 8 8 needW (s.kernelIssuer kr) = some (0, reg .priv 1048576)
      ∧ s.permit 5 65536 8 8 needA (s.kernelIssuer kr) = some (0, reg .priv 1048576) ∧ atomicOk 1 8 8 = true)
    && decide (u.meetRead 0 (reg .priv 1048576) (s.kernelView kr 0 8 8) 8 8 = .clear) && decide (u.meetWrite 0 (reg .priv 1048576) (.shadowed (s.kernelIssuer kr)) 8 8 = .clear)
    && decide (u.meetWrite 0 (reg .priv 1048576) .direct 8 8 = .clear)
    && (gives (.ld (hdr 0) (sf 11 4 0 0 3 0 0)) 0) && (next (.st (hdr 0) (sf 0 4 1 0 3 0 0)) (slot (.st (hdr 0) (sf 0 4 1 0 3 0 0))) fun t => decide (t.pubBytes 0 8 8 = natLE 8 7))) = true := by
  decide +kernel

theorem wit_ScalarMemory_atomic : (let small := Instr.amo (hdr 0) (sf 11 4 1 3 0 1 2)
    let wide := Instr.amo (hdr 0) (sf 12 14 6 8 0 2 2)
    ((slot small).slotGo small).isSome && ((slot wide).slotGo wide).isSome && atomicOk 2 16 16
      && (next small (slot small) fun t => decide (t.pubBytes 0 8 8 = natLE 8 7 ∧ (t.core 0).regs.xr 11 = 0))
      && (next wide (slot wide) fun t => decide (t.pubBytes 0 16 4 = natLE 4 0x3F800000))) = true := by decide +kernel

theorem wit_ScalarMemory_misaligned : (runs (.ld (hdr 0) (sf 11 8 0 0 3 0 0)) fun c => decide (c.kernel.map KernelRun.exc = some 4)) = true := by decide +kernel
/-- Format L. -/
def lf (vd ra rb rc re sub : Nat) (imm : DWord) : LFmt := { vd := vd, ra := ra, rb := rb, rc := rc, re := re, sub := sub, type := 3, imm := imm }
/-- Format M. -/
def mf (acc md ma mb ra rb sub : Nat) : MFmt := { acc := acc, md := md, ma := ma, mb := mb, ra := ra, rb := rb, sub := sub }
/-- Format C. -/
def cf (ra rb rc sub : Nat) (imm : DWord) : CFmt := { ra := ra, rb := rb, rc := rc, sub := sub, imm := imm }

/-- The slot leaves `v` and `w` in elements 0 and 1, of `n` bytes, of V3. -/
def lanes (n : Nat) (cmd : Instr) (v w : Nat) : Bool := runs cmd fun c => decide (vLane n 0 (c.regs.vr 3) = v ∧ vLane n 1 (c.regs.vr 3) = w)

/-- The bitwise vector instructions, shifts and VBCAST of R400 on doublewords and words, by hand. -/
theorem test_lanes_int : ((lanes 8 (.vadd (hdr 2) (vf 3 1 2 0 3 0 0)) 0xFF8000007F000000 0x7FC000003F800000)
    && (lanes 8 (.vand (hdr 3) (vf 3 1 2 0 3 0 0)) 0x3F800000 0) && (lanes 8 (.vor (hdr 2) (vf 3 1 2 0 3 0 0)) 0xFF8000003F800000 0x7FC000003F800000)
    && (lanes 8 (.vxor (hdr 2) (vf 3 1 2 0 3 0 0)) 0xFF80000000000000 0x7FC000003F800000) && (lanes 8 (.vbcast (hdr 2) (vf 3 0 0 0 3 0 0)) 7 7)
    && (lanes 4 (.vshl (hdr 2) (vf 3 1 1 0 2 0 0)) 0x3F800000 0xC0000000) && (lanes 1 (.vshr (hdr 2) (vf 3 1 1 0 0 0 1)) 0 0)) = true := by decide +kernel

/-- The FP32 vector instructions of R400 on 1.0 and −2.0 with 1.0, by hand. -/
theorem test_lanes_float : ((lanes 4 (.vadd (hdr 2) (vf 3 1 2 0 8 0 0)) 0x40000000 0xBF800000) && (lanes 4 (.vsub (hdr 2) (vf 3 1 2 0 8 0 0)) 0 0xC0400000)
    && (lanes 4 (.vmul (hdr 2) (vf 3 1 2 0 8 0 0)) 0x3F800000 0xC0000000) && (lanes 4 (.vfma (hdr 2) (vf 3 1 2 1 8 0 0)) 0x40000000 0xC0800000)
    && (lanes 4 (.vmin (hdr 2) (vf 3 1 2 0 8 0 0)) 0x3F800000 0xC0000000) && (lanes 4 (.vmax (hdr 2) (vf 3 1 2 0 8 0 0)) 0x3F800000 0x3F800000)
    && (lanes 4 (.vabs (hdr 2) (vf 3 1 0 0 8 0 0)) 0x3F800000 0x40000000) && (lanes 4 (.vneg (hdr 2) (vf 3 1 0 0 8 0 0)) 0xBF800000 0x40000000)
    && (lanes 4 (.vsel (hdr 2) (vf 3 1 2 0 8 0 0)) 0x3F800000 0x3F800000)) = true := by decide +kernel

theorem wit_VectorLanes_functions : ([Instr.vexp2 (hdr 2) (vf 3 1 0 0 8 0 0), .vrcp (hdr 2) (vf 3 1 0 0 9 0 0), .vrsqrt (hdr 3) (vf 3 1 0 0 8 0 0)].all fun cmd =>
    ((slot cmd).slotGo cmd).isSome && (laneResult (hdr 2) ((slot cmd).core 0).regs .rne 0 cmd).isSome) = true := by decide +kernel

theorem wit_VectorSpecials_vcmp : (runs (.vcmp (hdr 2) (vf 0 1 2 0 8 0 0)) fun c => decide (fld (c.regs.pr 2).toNat 7 0 = 0x0F)) = true := by decide +kernel

theorem wit_VectorSpecials_vcvt : (runs (.vcvt (hdr 2) (vf 3 1 0 0 2 3 0)) fun c =>
    decide (vLane 8 0 (c.regs.vr 3) = 0x3F800000 ∧ vLane 8 1 (c.regs.vr 3) = 0xC0000000)) = true := by decide +kernel

theorem wit_VectorSpecials_mx : (decide (isMx 8 = false ∧ isMx 12 = true ∧ (fmtOf 12).isSome = true)
    && [Instr.vcvt (hdr 2) (vf 3 1 0 0 8 12 0), .vcvt (hdr 2) (vf 3 1 0 0 12 8 0)].all fun cmd => ((slot cmd).slotGo cmd).isSome) = true := by decide +kernel

theorem wit_VectorSpecials_vred : (runs (.vred (hdr 2) (vf 3 1 0 0 8 0 0)) fun c => decide (vLane 4 0 (c.regs.vr 3) = 0x40000000 ∧ vLane 4 1 (c.regs.vr 3) = 0)) = true := by
  decide +kernel

theorem wit_VectorSpecials_vredMin : (runs (.vred (hdr 2) (vf 3 1 0 0 8 0 2)) fun c => decide (vLane 4 1 (c.regs.vr 3) = 0)) = true := by decide +kernel

theorem wit_VectorMemory_tile : (decide (0 + 4096 ≤ tsUsed kr.words ∧ 61440 + 4096 ≤ tsUsed kr.words)
    && [Instr.vld (hdr 5) (lf 3 0 0 0 0 1 0), .vst (hdr 5) (lf 1 0 0 0 0 1 61440)].all fun cmd => ((slot cmd).slotGo cmd).isSome) = true := by decide +kernel

theorem wit_VectorMemory_region : (let s := slot (.vld (hdr 5) (lf 1 4 0 0 0 0 (-8)))
    decide (memPair (s.core 0).regs 4 (-8) = some (5, 65536, 0) ∧ s.permit 5 65536 0 4096 needR (s.kernelIssuer kr) = some (0, reg .priv 1048576)
      ∧ s.permit 5 65536 0 4096 needW (s.kernelIssuer kr) = some (0, reg .priv 1048576)
      ∧ s.meetRead 0 (reg .priv 1048576) (s.kernelView kr 0 0 4096) 0 4096 = .clear
      ∧ s.meetWrite 0 (reg .priv 1048576) (.shadowed (s.kernelIssuer kr)) 0 4096 = .clear)
    && [Instr.vld (hdr 5) (lf 1 4 0 0 0 0 (-8)), .vst (hdr 5) (lf 1 4 0 0 0 0 (-8))].all fun cmd => ((slot cmd).slotGo cmd).isSome) = true := by decide +kernel

/-- A transfer of core 0, of 8 bytes. -/
def xfer (srcTile dstTile sent : Bool) (pos : Nat) : Transfer :=
  { id := 77, bundle := 0, srcTile := srcTile, srcEid := 5, srcKey := 65536, src := 0, dstTile := dstTile, dstEid := 5, dstKey := 65536, dst := 16, len := 8, ckey := none,
    buf := [(0, 9)], pos := pos, sent := sent, pages := [(0, 0, 0)] }

/-- Core 0 with that transfer. -/
def moving (x : Transfer) : State :=
  let s := slot (.nop (hdr 0))
  s.setCore 0 { s.core 0 with transfers := [x] }

theorem wit_DmaTransfers_start : ((runs (.dmaCopy (hdr 5) (lf 0 3 4 1 0 2 0)) fun c => decide (c.transfers.map Transfer.len = [7] ∧ c.transfers.map Transfer.dstTile = [true]))
    && (runs (.dmaRw (hdr 5) (lf 0 4 3 1 6 1 0)) fun c => decide (c.transfers.map Transfer.ckey = [some 0x3F800000]))) = true := by decide +kernel

/-- The transfer may go on. -/
def xferFree (x : Transfer) : Bool :=
  let s := moving x
  decide (s.runs = true ∧ s.replay = none ∧ (s.core 0).transfer? 77 = some x ∧ (s.core 0).kernel = some kr ∧ (s.core 0).dmaBehind x = false ∧ s.home.held = []
    ∧ s.txnLive (fun w => decide (w = .dma 0 77)) = false)

theorem wit_DmaTransfers_end : ([xfer true false false 0, xfer true true false 8, xfer true true true 0, xfer true true true 8].all xferFree
    && (next (.dmaTransferEnd 0 77) (moving (xfer true false false 0)) fun t => decide (((t.core 0).transfer? 77).map Transfer.pos = some 8))
    && (next (.dmaTransferEnd 0 77) (moving (xfer true true false 8)) fun t => decide (((t.core 0).transfer? 77).map Transfer.sent = some true))
    && (next (.dmaTransferEnd 0 77) (moving (xfer true true true 0)) fun t => decide (t.tileRead 0 16 8 = [9, 0, 0, 0, 0, 0, 0, 0] ∧ (t.core 0).transfer? 77 = none))
    && (next (.dmaTransferEnd 0 77) (moving (xfer true true true 8)) fun t => decide ((t.core 0).transfer? 77 = none))) = true := by
  decide +kernel

theorem wit_DmaTransfers_region : (let s := moving (xfer false true false 0)
    let w := moving (xfer true false true 0)
    xferFree (xfer false true false 0) && xferFree (xfer true false true 0)
    && decide (s.region? 0 = some (reg .priv 1048576) ∧ s.gate 0 (reg .priv 1048576) = none ∧ s.remapped 77 (xfer false true false 0).pages = [] ∧ s.isOwn 5 = true
      ∧ capsRegion (xfer false true false 0).pages 65536 0 = some 0 ∧ capsRegion (xfer false true false 0).pages 65536 16 = some 0
      ∧ s.meetRead 0 (reg .priv 1048576) (s.kernelView kr 0 0 8) 0 8 = .clear
      ∧ w.meetWrite 0 (reg .priv 1048576) (.shadowed (w.kernelIssuer kr)) 16 8 = .clear)
    && (next (.dmaTransferEnd 0 77) s fun t => decide (((t.core 0).transfer? 77).map (fun y => (y.pos, Mem.readN y.buf 0 8)) = some (8, List.replicate 8 0)))
    && (next (.dmaTransferEnd 0 77) w fun t => decide (((t.core 0).transfer? 77).map Transfer.pos = some 8 ∧ t.pubBytes 0 16 2 = [9, 0]))) = true := by decide +kernel

/-- A belay of core 0's vector engine on the doubleword at tile-store address 0, or on offset 8 of region 0. -/
def bel (acq tile : Bool) (v : DWord) : Belay :=
  { id := 77, bundle := 0, acq := acq, engine := 1, scope := 0, tile := tile, addr := if tile then 0 else 8, eid := 5, key := 65536, value := v, retryAt := 0, satisfied := false }

/-- Core 0 with that belay. -/
def belayed (b : Belay) : State :=
  let s := slot (.nop (hdr 0))
  s.setCore 0 { s.core 0 with belays := [b] }

theorem wit_BelayOrders : ((runs (.belayRel (hdr 2) (sf 0 3 1 0 0 8 0)) fun c => decide (c.belays.map Belay.acq = [false]))
    && (runs (.belayAcq (hdr 4) (sf 0 3 1 0 0 12 8)) fun c => decide (c.belays.map Belay.acq = [true]))
    && (decide ((belayed (bel false true 5)).relReady 0 (bel false true 5) = true)
      && next (.belayRelStore 0 77) (belayed (bel false true 5)) fun t => decide (t.tileRead 0 0 8 = [5, 0, 0, 0, 0, 0, 0, 0] ∧ (t.core 0).belays = []))
    && (let b := { bel false true 5 with engine := 3, scope := 2 }
        let s := (belayed b).setCore 0 { (belayed b).core 0 with transfers := [{ xfer true true false 0 with id := 70 }] }
        decide (s.relReady 0 b = false) && stays (.belayRelStore 0 77) s)
    && (next (.belayAcqSatisfied 0 77) (belayed (bel true true 0x0807060504030201)) fun t => decide ((t.core 0).belays = []))
    && stays (.belayAcqSatisfied 0 77) (belayed (bel true true 0x0807060504030202))
    && (let s := belayed { bel true false 5 with retryAt := 7 }
        decide (s.acquiresFull = false ∧ s.isOwn 5 = true) && next (.acquireRetry 0 77) s fun t => decide ((t.core 0).belays.map Belay.retryAt = [0]))) = true := by decide +kernel

/-- A request of EID 7, incarnation 2, over LMF port 0 for region 0. -/
def lmfq (off len : Nat) : LmfReq :=
  { port := 0, dstEid := 5, srcEid := 7, srcInc := 2, tag := 1, gen := 1, level := 3, retry := 0, ctx := 3, key := 65536, offset := off, len := len, ptrHi := 0,
    lseq := 1, limit := 0, enc := false, sealOk := true }

/-- The completion's status and data. -/
def done (t : State) (st : Status) (data : Bytes) : Bool := t.out.any fun o => match o with | .cpl 7 1 1 x d => decide (x = st ∧ d = data) | _ => false

theorem wit_BelayOrders_access : (let s := joined .priv 1048576
    ((s.accesses (.belayAccess (lmfq 8 8) true 5) (lmfq 8 8) false true needW).isSome && (s.accesses (.belayAccess (lmfq 8 8) false 5) (lmfq 8 8) false false needR).isSome)
    && (next (.belayAccess (lmfq 8 8) true 5) s fun t => done t .ok [] && decide (t.pubBytes 0 8 8 = natLE 8 5))
    && (next (.belayAccess (lmfq 8 8) false 0) s fun t => done t .ok (natLE 8 0)) && (next (.belayAccess (lmfq 8 8) false 5) s fun t => decide (t.home.acquires.length = 1))) = true := by
  decide +kernel
/-- A tile descriptor (R357). -/
def desc (base rows cols step type : Nat) : BitVec 128 :=
  BitVec.ofNat 128 (base + (rows - 1) * 2 ^ 32 + (cols - 1) * 2 ^ 48 + step * 2 ^ 64 + type * 2 ^ 80)

/-- `slot` with tile descriptors and BF16 tiles: M1 two rows (1.0, 2.0) and (3.0, 0) from byte 64, M2 the row (2.0, −1.0) from byte 192, M3 two rows of one
doubleword from byte 256, M4 a row of two FP32 elements from byte 384, M5 a row of 32 E2M1 elements from byte 448. -/
def mslot (cmd : Instr) : State :=
  let s := slot cmd
  let c := s.core 0
  s.setCore 0 { c with
    regs := { c.regs with m := [(1, desc 1 2 2 1 9), (2, desc 3 1 2 1 9), (3, desc 4 2 1 1 3), (4, desc 6 1 2 1 8), (5, desc 7 1 32 1 12)] }
    acc := [(accKey 1 0 0, 0x3F800000)]
    tile := [(64, 0x80), (65, 0x3F), (67, 0x40), (128, 0x40), (129, 0x40), (193, 0x40), (194, 0x80), (195, 0xBF)] }

/-- The slot is free to go, and `p` holds of core 0 after it. -/
def mruns (cmd : Instr) (p : Core → Bool) : Bool := ((mslot cmd).slotGo cmd).isSome && next cmd (mslot cmd) fun t => p (t.core 0)

/-- MMA on the tiles above, by hand: 1 · 2 + 2 · (−1) + 1 = 1, and 3 · 2 + 0 = 6; MMV without its accumulator gives 0 for the first. -/
theorem wit_MatrixResults_mul : (let r := ((mslot (.nop (hdr 0))).core 0).regs
    decide ((tileOf (r.mr 1)).map (fun t => (t.rows, t.cols, rateClass t.type, t.fits kr)) = some (2, 2, 1, true)
      ∧ (tileOf (r.mr 2)).map (fun t => (t.rows, t.cols, rateClass t.type, t.fits kr)) = some (1, 2, 1, true))) = true := by decide +kernel

theorem wit_MatrixResults_go : ([Instr.mma (hdr 4) (mf 1 0 1 2 0 0 0), .mmv (hdr 4) (mf 1 0 1 2 0 0 1)].all fun cmd => ((mslot cmd).slotGo cmd).isSome) = true := by
  decide +kernel

theorem test_dot : (let r := ((mslot (.nop (hdr 0))).core 0).regs
    let tile := ((mslot (.nop (hdr 0))).core 0).tile
    match tileOf (r.mr 1), tileOf (r.mr 2) with
    | some a, some b => decide ((dot (a.row tile 0) (b.row tile 0) 0x3F800000).1 = 0x3F800000 ∧ (dot (a.row tile 1) (b.row tile 0) 0).1 = 0x40C00000)
    | _, _ => false) = true := by decide +kernel

theorem wit_MatrixResults_load : (let s := mslot (.mload (hdr 4) (mf 0 3 0 0 4 1 0))
    decide ((tileOf ((s.core 0).regs.mr 3)).map (fun t => (t.rows, t.len, t.fits kr)) = some (2, 8, true) ∧ memPair (s.core 0).regs 4 0 = some (5, 65536, 8))
    && mruns (.mload (hdr 4) (mf 0 3 0 0 14 4 0)) fun c => decide (Mem.readN c.tile 256 8 = natLE 8 0)) = true := by decide +kernel

theorem wit_MatrixResults_drain : ((mruns (.mdrain (hdr 4) (mf 1 4 0 0 0 0 0)) fun c => decide (Mem.readN c.tile 384 8 = natLE 8 0x3F800000))
    && (mruns (.mdrain (hdr 4) (mf 1 5 0 0 0 0 0)) fun c => decide (Mem.readN c.tile 448 17 = 6 :: (List.replicate 15 0 ++ [125])))
    && (mruns (.mclr (hdr 4) (mf 1 0 0 0 0 0 0)) fun c => decide (Tab.getD c.acc (accKey 1 0 0) 0 = 0))) = true := by decide +kernel

/-- The counter of region 0's context 1. -/
def ctr0 : Counter := { gen := 1, rid := 0, eid := 5, ctx := 1, rgen := 1, bytes := 7, pkts := 1 }

/-- `slot` with that counter, whose key is 65,536, in X16. -/
def cslot (cmd : Instr) : State :=
  let s := slot cmd
  let c := s.core 0
  ({ s with home := { s.home with counters := [(0, ctr0)] } } : State).setCore 0 { c with regs := { c.regs with x := c.regs.x ++ [(16, 65536)] } }

theorem wit_ControlFlow_branch : ((runs (.br (hdr 7) (cf 0 0 0 0 256)) fun c => decide (c.kernel.map KernelRun.pos = some 256))
    && (runs (.brx (hdr 7) (cf 3 0 0 0 0)) fun c => decide (c.kernel.map KernelRun.pos = some 0)) && (runs (.halt (hdr 7) (cf 0 0 0 0 0)) fun c => decide (c.st = .draining))) = true := by
  decide +kernel

/-- A WAITCNT slot that is free to go and whose counter is there, with what holds after it. -/
def waits (f : CFmt) (p : State → Bool) : Bool :=
  let cmd := Instr.waitcnt (hdr 7) f
  let s := cslot cmd
  (s.slotGo cmd).isSome && decide (s.counterOf 65536 (s.kernelIssuer kr) = some ctr0) && next cmd s p

theorem wit_ControlFlow_wait : ((waits (cf 16 1 0 0 0) fun t => decide ((t.core 0).waitId = none))
    && (waits (cf 16 10 0 0 0) fun t => decide ((t.core 0).waitId = some 1 ∧ t.home.waits.length = 1))) = true := by decide +kernel

/-- Core 0 waiting on that counter for `n` bytes. -/
def waiting (n : Nat) : State :=
  let s := cslot (.nop (hdr 0))
  let w : Wait := { id := 3, ckey := 65536, sel := 0, tBytes := n, tPkts := 0, who := .core 0, eid := 5, ctx := 1 }
  ({ s with home := { s.home with waits := [w] } } : State).setCore 0 { s.core 0 with waitId := some 3 }

theorem wit_ControlFlow_wake : ((next (.waitcntWake 0) (waiting 7) fun t => decide ((t.core 0).waitId = none ∧ t.home.waits = [])) && stays (.waitcntWake 0) (waiting 8)) = true := by
  decide +kernel

/-- Core 0 in a state with a kernel, or none. -/
def coreIn (st : CoreState) (k : Option KernelRun) (f : Core → Core) : State :=
  let s := joined .priv 1048576
  { s with cores := [(0, f { Core.reset with st := st, kernel := k })] }

/-- A kernel of a context that waits for a core. -/
def queued (ctx : Nat) : KernelQ := { id := 4, words := [0, BitVec.ofNat 32 ctx, 65536, 0, 0, 1024, 0, 1], port := none, pages := [] }

theorem wit_KernelLife_start : ((let s : State := { coreIn .idle none id with kernels := [queued 1] }
      decide (s.coreFree 0 = true ∧ s.bci.phase ≠ .switching ∧ (s.kernels.find? s.kernelMayStart).map KernelQ.id = some 4 ∧ s.betterCore 0 1 (kernelAff (queued 1).words) = false)
      && next (.kernelDispatch 0) s fun t => decide ((t.core 0).st = .preparing ∧ t.kernels = []))
    && (next (.clocksStable 0) (coreIn .waking (some kr) id) fun t => decide ((t.core 0).st = .preparing))
    && (next (.prepareDone 0) (coreIn .preparing (some kr) id) fun t => decide ((t.core 0).st = .running ∧ (t.core 0).regs.xr 1 = 9))) = true := by
  decide +kernel

/-- The slots a bundle decodes to. -/
def slots (bs : Bytes) : List Instr :=
  match decodeBundle 0 bs with
  | .ok is => is
  | .error _ => []

theorem wit_KernelLife_bundle : (let s := coreIn .running (some kr) id
    decide (s.ridOf 5 65536 = 0 ∧ s.region? 0 = some (reg .priv 1048576) ∧ s.meetRead 0 (reg .priv 1048576) (s.kernelView kr 0 128 128) 128 128 = .clear)
    && (let is := slots (s.readRange (reg .priv 1048576) (s.kernelView kr 0 128 128) 128 128)
        decide (is.length = 8) && bundleFits (s.core 0) is)
    && (next (.bundleDispatch 0) s fun t => decide ((t.core 0).kernel.map KernelRun.pos = some 256 ∧ ((t.core 0).waiting).length = 8))) = true := by decide +kernel

theorem wit_KernelLife_end : ((let s := coreIn .draining (some kr) id
      decide (s.coreBusy 0 = false) && next (.kernelDrainEnd 0) s fun t => decide ((t.core 0).kernel = none ∧ (t.core 0).lastCtx = 1))
    && (let full : Core := { Core.reset with st := .running, kernel := some kr }
        let s : State := { coreIn .stalled (some kr) id with kernels := [queued 2] }
        let s : State := { s with cores := s.cores ++ [(1, full), (2, full), (3, full)] }
        decide ((upto 4).any s.coreFree = false ∧ kr.stalledAt + s.bci.suspendAfter ≤ s.now)
          && s.kernels.any (fun x => decide (kernelCtx x.words ≠ kernelCtx kr.words) && s.kernelMayStart x)
          && next (.kernelSuspend 0) s fun t => decide ((t.core 0).st = .saving))
    && (let s := coreIn .saving (some kr) id
        decide (s.txnLive (fun _ => true) = false ∧ s.mirroring (.core 0) = false)
          && next (.saveDone 0) s fun t => decide ((t.core 0).kernel = none ∧ (t.core 0).saved.map (fun v => v.kernel.suspends) = [1]))) = true := by decide +kernel

theorem wit_KernelLife_restore : (let v : Saved := { kernel := kr, regs := { RegFile.zero with x := [(1, 5)] }, acc := [], tile := [], flags := 0, frm := 0, queues := [], parts := [],
                                                     transfers := [], belays := [], wait := none, colPtr := 0, resolved := true, key := 0 }
    next (.restoreDone 0) (coreIn .restoring none fun c => { c with saved := [v] }) fun t => decide ((t.core 0).st = .running ∧ (t.core 0).regs.xr 1 = 5)) = true := by decide +kernel
/-! ### Accesses to memory (02, 05, 06, 16) -/

/-- A fault record on page 0 of region 0, not yet written. -/
def flt : FaultRec :=
  { seq := 3, rid := 0, page := 0, kind := 1, access := 1, runTime := true, hw := 511, key := 65536, off := 0, eid := 7, ctx := 3, time := 5, written := false }

/-- A load of EID 7 held on that fault until time 500. -/
def heldLoad : Held := { id := 21, cmd := .lmfLoad (lmfq 0 64), why := .fault 3, since := 100, limit := 500, eid := 7, ctx := 3 }

/-- The owning host's window on region 0 at address 0. -/
def windowed : State :=
  let s := joined .priv 268435456
  let d : Decoder := { Decoder.reset with committed := true, size := 268435456, win := some { key := 65536, rid := 0, dev := 0, ctx := 1, fn := 0 } }
  { s with host := { s.host with ports := [(0, { HostPort.reset with up := true, decs := [(0, d)] })] } }

theorem wit_LoadsAndStores_lmf : (let s := joined .priv 1048576
    let p := joined .publish 1048576
    ((s.accesses (.lmfLoad (lmfq 64 4)) (lmfq 64 4) false false needR).isSome && (s.accesses (.lmfStore (lmfq 64 2) [1, 2]) (lmfq 64 2) false true needW).isSome
      && (p.accesses (.lmfStore (lmfq 64 2) [1, 2]) (lmfq 64 2) false true needW).isSome)
    && (next (.lmfLoad (lmfq 64 4)) s fun t => done t .ok [0, 0, 0, 0]) && (next (.lmfStore (lmfq 64 2) [1, 2]) s fun t => done t .ok [] && decide (t.pubBytes 0 64 2 = [1, 2]))
    && (next (.lmfStore (lmfq 64 2) [1, 2]) p fun t => done t .ok [] && decide (t.pubBytes 0 64 2 = [0, 0]))) = true := by decide +kernel

theorem wit_LoadsAndStores_host : (decide (windowed.runs = true ∧ (windowed.windowAt 0 0x48).map (fun x => x.2.2) = some 0x48 ∧ windowed.replayOf = none)
    && (windowed.permit 5 65536 0x40 64 needR (windowed.windowIssuer { key := 65536, rid := 0, dev := 0, ctx := 1, fn := 0 })).isSome
    && (next (.cxlMemRead 0 0x48) windowed fun t => decide (t.out = [.cxlData 0 (List.replicate 64 0) false]))
    && (next (.cxlMemWrite 0 0x48 [7, 8] false) windowed fun t => decide (t.out = [.cxlDone 0] ∧ t.pubBytes 0 0x48 2 = [7, 8]))) = true := by decide +kernel

theorem wit_LoadsAndStores_fault : (let s := joined .priv 1048576
    let w : State := { s with home := { s.home with faults := [flt], faultRings := [(0, { key := 65536, off := 0, log2 := 13 })] } }
    let l : State := { s with home := { s.home with faults := [flt], held := [heldLoad] } }
    decide (w.faultRoom = true ∧ w.host.owner = 0) && (w.recordAt 65536 0 (bytesOf flt.words)).isSome && (next (.faultRecordWrite 3) w fun t => decide (t.home.faults.map FaultRec.written = [true]))
    && decide (heldLoad.limit ≤ l.now) && next (.faultHoldExpiry 21) l fun t => done t .paused [] && decide (t.home.held = [])) = true := by decide +kernel

/-! ### Requests over the mailbox (14) -/

/-- A request with SEQ 1 and TAG 9 of port 0's physical function. -/
def req (op : Nat) (ws : List Nat) : BciReq :=
  { src := .fn 0 0, words := BitVec.ofNat 32 (op + 512 * ws.length + 65536 + 1048576 * 9) :: ws.map (BitVec.ofNat 32) }

/-- The state with a request in its function's channel and GO set, in a session of version 3.4. -/
def asked (r : BciReq) (s : State) : State :=
  let s := s.setChannel 8 { Channel.fresh (.fn 0 0) with session := some (3, 4), busy := some r.words, handed := true, wasOwner := true }
  s.setFnWin 0 0 { s.fnWin 0 0 with go := true }

/-- The request reaches its command as an issuer and on a state of which `p` holds, and the command leaves one of which `q` holds. -/
def asks (c : Instr) (row : BciRow) (r : BciReq) (s : State) (p : Issuer → State → Bool) (q : State → Bool) : Bool :=
  match (asked r s).ready c row r with
  | some (i, u) => p i u && next c (asked r s) q
  | none => false

/-- The channel's last response has ST_OK and these words. -/
def answered (t : State) (ws : List Word) : Bool := decide ((t.channel 8).lastResp = respHeader .ok ws.length 9 :: ws)

/-- The channel's last response has ST_OK. -/
def accepted (t : State) : Bool := decide (((t.channel 8).lastResp.headD 1).toNat % 65536 = 0)

/-- An ATOMIC of 8 bytes on offset 64: add 5, LSEQ 9. -/
def rAtomic : BciReq := req 80 [65536, 64, 0, 4 + 8 * 256, 9, 5, 0, 0, 0, 0, 0, 0, 0]

theorem wit_AtomicsAndMirrors_atomic : (asks (.atomic rAtomic) { BciRow.f 80 13 with dl := true, resv := fun r => offResv r 2 || above r 4 13 } rAtomic (joined .priv 1048576)
    (fun i u => decide (rAtomic.dl = false ∧ u.logFind (u.issuerLog rAtomic i) 9 = none ∧ atomicOk 4 8 64 = true ∧ rAtomic.w 5 = 9 ∧ rAtomic.d 2 = 64)
      && (u.opens rAtomic i 65536 64 8 needA).isSome)
    (fun t => answered t [0, 0, 0, 0] && decide (t.pubBytes 0 64 8 = natLE 8 5))) = true := by decide +kernel

theorem wit_AtomicsAndMirrors_status : (let r := req 81 [9]
    let row : BciRow := { BciRow.f 81 1 with minor := some 0 }
    let logged (s : State) : State := { s with home := { s.home with logs := [(5 * 4096 + 1, [{ lseq := 9, tomb := false, st := .ok, value := 7, time := 3 }])] } }
    (asks (.atomicStatus r) row r (logged (joined .priv 1048576)) (fun i u => (u.logFind (u.issuerLog r i) 9).isSome) fun t => accepted t)
    && (asks (.atomicStatus r) row r (joined .priv 1048576) (fun i u => decide (u.logFind (u.issuerLog r i) 9 = none ∧ (u.logOf (u.issuerLog r i)).length < 16384)) fun t => accepted t)) = true := by
  decide +kernel

theorem wit_AtomicsAndMirrors_clear : (let r := req 83 [65536, 0, 0, 128, 0]
    asks (.clearPoison r) { BciRow.f 83 5 with minor := some 0, resv := fun r => offResv r 2 } r (joined .priv 1048576)
      (fun i u => (u.opens r i 65536 0 128 needW).isSome && decide (u.poisonedLines (reg .priv 1048576) 0 128 = [])) fun t => answered t []) = true := by decide +kernel

/-- A forwarded update that awaits its receipt. -/
def mwait : MirrorWait := { id := 31, partner := 7, rid := 0, after := [], bci := none, st := .ok, resp := [], pubId := none, op := none, work := none }

/-- The mirror copy of region 1 of EID 7, with its page 0 at version 4. -/
def mirrored : State :=
  let s := joined .priv 1048576
  let pg : TierPage := { bytes := [(2, 8)], poison := [], recovering := false, backing := .none, t0 := .dirty, tl := none, heat := 0, stamp := 0, touch := 0, charge := 0, move := none, image := none }
  { s with home := { s.home with
      copies := [(7 * 65536 + 1, { reg .priv 1048576 with entries := [(0, .leaf 40 false 0 1)] })]
      pages := [(40, { rid := 7 * 65536 + 1, pageNo := 0, mapped := true, ver := 4, pub := pg, shadows := [], olds := [], refs := [] })] } }

theorem wit_AtomicsAndMirrors_mirror : (let s := joined .priv 1048576
    let q : LmfReq := { lmfq 0 4 with key := 65537 }
    let w : State := { s with home := { s.home with mirrors := [mwait] } }
    (s.taken (.mirrorUpdate q [1, 2] none none) { q with key := 0, enc := false } false false).isSome && (next (.mirrorUpdate q [1, 2] none none) s fun t => done t .ok [])
    && (next (.mirrorReceipt 31 .ok) w fun t => decide (t.home.mirrors = [])) && (next (.mirrorReceipt 31 .fenced) w fun t => decide (t.rel.failCause = some 6))
    && (mirrored.taken (.mirrorPartnerRead q 4) { q with key := 0 } false false).isSome && (next (.mirrorPartnerRead q 4) mirrored fun t => done t .ok [0, 0, 8, 0])
    && (next (.mirrorPartnerRead q 5) mirrored fun t => done t .state [])) = true := by decide +kernel

/-- A FILL of 16 bytes at offset 128 with the byte 3. -/
def fillDesc : List Nat := [1, 65536, 128, 0, 0, 0, 0, 0, 0, 0, 16, 0, 3, 0, 0, 0]

/-- The memory-side operation of that descriptor, queued, with its result at hand or not. -/
def memop (res : Option (List Word)) : MemOp :=
  { id := 51, words := fillDesc.map (BitVec.ofNat 32), eid := 5, ctx := 1, admin := false, cmplKey := 65536, cmplOff := 4096, pages := [(0, 0, 0)], result := res }

theorem wit_MemoryOperations_queue : (let q := lmfq 0 80
    let r : BciReq := { src := .lmf q, words := 82 :: (fillDesc ++ [65536, 4096, 0]).map (BitVec.ofNat 32) }
    let ws := (r.words.drop 1).take 16
    let s := joined .priv 1048576
    match s.ready (.memop r) { BciRow.f 82 6 with owner := false, resv := fun _ => false } r with
    | some (i, u) => decide (moMalformed ws = false) && (u.moCheck (u.reqHome r) ws i).isSome && (u.permit (u.reqHome r) (r.w 17) (r.d 18) 16 needW i).isSome
        && (match u.moCheck (u.reqHome r) ws i with | some (d, a, b) => decide (u.moFault (moView ws i) d a b (moLen ws) = none) | none => false)
        && next (.memop r) s fun t => done t .ok [] && decide (t.home.memops.map MemOp.words = [ws])
    | none => false) = true := by decide +kernel

theorem wit_MemoryOperations_end : (let s := joined .priv 1048576
    let a : State := { s with home := { s.home with memops := [memop (some (recordWords .ok false 0))] } }
    let b : State := { s with home := { s.home with memops := [memop none] } }
    decide (a.mirroring (.memop 51) = false) && (next (.memopEnd 51) a fun t => decide (t.home.memops = []))
    && decide (b.noneInService 0x36 4 = false ∧ moOp (memop none).words = 1 ∧ b.remapped 51 (memop none).pages = [] ∧ b.home.held = [] ∧ b.replay = none
      ∧ b.mirroring (.memop 51) = false ∧ b.region? 0 = some (reg .priv 1048576) ∧ b.meetWrite 0 (reg .priv 1048576) (.shadowed { eid := 5, ctx := 1, admin := false }) 128 16 = .clear
      ∧ (memop none).pages.find? (fun p => decide (p.1 % 65536 = keyIdx 65536) && decide (p.2.1 = dAt (memop none).words 2 / 65536)) = some (0, 0, 0))
    && (next (.memopEnd 51) b fun t => decide (t.home.memops = [] ∧ t.pubBytes 0 128 16 = List.replicate 16 3))) = true := by decide +kernel

/-- COPY, COMPARE, REDUCE by addition and REDUCE_ALL of the bytes 1, 2 with 1, 2, by hand. -/
theorem wit_MemoryOperations_compute : (let d (op key : Nat) : List Word := [op, 65536, 0, 0, 65536, 0, 0, key, 0, 0, 2, 0, 3, 0, 0, 0].map (BitVec.ofNat 32)
    decide (moMalformed (d 1 0) = false ∧ moMalformed (d 2 0) = false ∧ moMalformed (d 3 65536) = false ∧ moMalformed (d 4 65536) = false ∧ moMalformed (d 5 0) = false)
    && decide ((moCompute 0 (d 1 0) [] []).1 = [3, 3] ∧ (moCompute 0 (d 2 0) [1, 2] []).1 = [1, 2] ∧ (moCompute 0 (d 3 65536) [1, 2] [1, 2]).2 = recordWords .ok true 18446744073709551615
      ∧ (moCompute 0 (d 4 65536) [1, 2] [1, 2]).1 = [2, 4])) = true := by decide +kernel
/-! ### The rope-team protocol (07) -/

/-- Coherent region 0 in a team of EIDs 5 and 7, with EID 7 as agent 2 and EID 8 as agent 3, and a line 0 or none. -/
def team (l : Option Line) : State :=
  let s := joined .coherent 1048576
  { s with
    lmf := { s.lmf with incs := s.lmf.incs ++ [(8, { inc := 1, ver := 3, joined := true, fenced := none })] }
    home := { s.home with regions := [(0, { reg .coherent 1048576 with
        grants := [{ eid := 7, ctx := 3, any := true, rights := { r := true, w := true, a := true, p := true, e := true } },
          { eid := 8, ctx := 3, any := true, rights := { r := true, w := true, a := true, p := true, e := true } }] })] }
    rope := { s.rope with
      team := 1
      members := [5, 7]
      agents := [(2, { eid := 7, inc := 2 }), (3, { eid := 8, inc := 1 })]
      lines := match l with | some x => [(0, x)] | none => [] } }

/-- A line in a state, with its owner, its sharers, the agents awaited, the request that waits and the snoop sent. -/
def ln (st : LineState) (owner : Nat) (sharers awaited : List Nat) (rq : LineReq) (snoop : Nat) : Line :=
  { st := st, owner := owner, sharers := sharers, awaited := awaited, req := rq, snoop := snoop, wbSeen := false, armed := 0, granted := 0, resv := [], resvSince := 0 }

/-- A coherence message of an opcode went out. -/
def sent (t : State) (op : Nat) : Bool := t.out.any fun o => match o with | .coh 7 x 1 1 _ _ _ _ => decide (x = op) | _ => false

/-- The state of line 0 of region 0. -/
def lst (t : State) : Option LineState := (t.line? 0 0).map Line.st

/-- Is the caching request handled on a calm line? -/
def calm (s : State) (c : Instr) (need : Rights) (payload writes : Bool) : Bool :=
  match s.caches c (lmfq 0 64) 2 need payload writes with
  | some (u, rid, _) => decide (rid = 0) && u.lineCalm 0 0
  | none => false

theorem wit_CoherentGrants_i : (let q := lmfq 0 64
    let s := team none
    calm s (.rdShared q 2) needR false false && calm s (.rdOwn q 2) needW false true && (s.accesses (.rdUnc q) q true false needR).isSome
    && (next (.rdShared q 2) s fun t => decide (lst t = some .e) && sent t 65) && (next (.rdOwn q 2) s fun t => decide (lst t = some .m) && sent t 66)
    && (next (.invOwn q 2) s fun t => decide (lst t = some .m) && sent t 67) && (next (.rdUnc q) s fun t => decide (lst t = none) && sent t 68)) = true := by decide +kernel

theorem wit_CoherentGrants_held : (let q := lmfq 0 64
    let d : Bytes := List.replicate 64 1
    calm (team (some (ln .s 0 [2] [] .none 0))) (.upgrade q 2) needW false true && calm (team (some (ln .m 3 [] [] .none 0))) (.rdShared q 2) needR false false
    && (next (.upgrade q 2) (team (some (ln .s 0 [2] [] .none 0))) fun t => decide (lst t = some .m) && sent t 67)
    && (next (.rdShared q 2) (team (some (ln .m 3 [] [] .none 0))) fun t => decide (lst t = some .fwdWait))
    && (next (.wbDirty q 2 d false) (team (some (ln .m 2 [] [] .none 0))) fun t => decide (lst t = none ∧ t.pubBytes 0 0 64 = d) && sent t 69)
    && (next (.evictClean q 2) (team (some (ln .e 2 [] [] .none 0))) fun t => decide (lst t = none) && sent t 69)
    && ((joined .priv 1048576).accesses (.wrUnc q d (BitVec.allOnes 64)) q true true needW).isSome
    && (next (.wrUnc q d (BitVec.allOnes 64)) (joined .priv 1048576) fun t => sent t 69 && decide (t.pubBytes 0 0 64 = d))) = true := by decide +kernel

theorem wit_CoherentReturns_responses : (let q := lmfq 0 64
    let x : LmfReq := { lmfq 0 64 with srcEid := 8, srcInc := 1 }
    let inv := team (some (ln .invWait 0 [2] [2] (.own 3 x) 50))
    let fwd (rq : LineReq) (snoop : Nat) : State := team (some (ln .fwdWait 2 [] [2] rq snoop))
    inv.answersSnoop q 2 && (fwd (.shared 3 x) 48).answersSnoop q 2
    && (next (.ackInv q 2) inv fun t => decide (lst t = some .m)) && (next (.rspFwd q 2 false false []) (fwd (.shared 3 x) 48) fun t => decide (lst t = some .s))
    && (next (.rspFwd q 2 false false []) (fwd (.own 3 x) 49) fun t => decide (lst t = some .m))
    && (next (.rspFlush q 2 false false []) (fwd (.rdUnc x) 51) fun t => decide (lst t = none)) && (next (.rspNotHeld q 2) (fwd (.shared 3 x) 48) fun t => decide (lst t = some .fwdWait))) = true := by
  decide +kernel

theorem wit_CoherentReturns_timers : (let q := lmfq 0 64
    let s := team none
    let rc : State := { s with rope := { s.rope with recalls := [(0, [2])] } }
    let tm := team (some (ln .fwdWait 2 [] [2] .none 51))
    let rv := team (some { ln .s 0 [2] [] .none 0 with resv := [3, 2] })
    decide (rc.judge 7 2 = .current) && (next (.recallDone q 2) rc fun t => decide (Tab.get? t.rope.recalls 0 = none))
    && decide ((tm.lineD 0 0).st = .fwdWait ∧ (tm.lineD 0 0).awaited ≠ [] ∧ (tm.lineD 0 0).armed + tm.rope.timeoutUs * 1000 ≤ tm.now ∧ tm.home.revokes = []) && (next (.reservationExpiry 0 0) rv fun t => decide ((t.line? 0 0).map Line.resv = some [2]))
    && (next .fenceSweep s fun t => decide (t.rope.sweepLeft = 0))
    && (next (.backoffExpiry 8) { s with lmf := { s.lmf with backoffs := [(8, (txn false 0, 500))] } } fun t => decide (t.lmf.backoffs = [] ∧ t.lmf.tags.length = 1))) = true := by decide +kernel

/-- A load held on a busy line that its home asks for again from time 0. -/
def nackedLoad : Held := { id := 21, cmd := .lmfLoad (lmfq 0 64), why := .nacked 0 0 0, since := 100, limit := 0, eid := 7, ctx := 3 }

theorem wit_CoherentReturns_again : (let s := team none
    let s : State := { s with home := { s.home with held := [nackedLoad] } }
    decide (s.runs = true ∧ Tab.get? s.lmf.backoffs 21 = none ∧ s.home.held.find? (fun h => decide (h.id = 21)) = some nackedLoad)
    && next (.backoffExpiry 21) s fun t => decide (t.home.held = [] ∧ t.resume.length = 1)) = true := by decide +kernel

theorem wit_CoherentReturns_nack : (next (.nack 6 0) (inFlight false 0) fun t => decide (t.lmf.backoffs.map (fun e => e.2.1.retry) = [1])) = true := by decide +kernel

theorem wit_TeamsAndFences_set : (let r := req 0x60 [4, 1, 500, 65536, 0, 0]
    let w : Tab Handle := [(40, { rid := 0, pageNo := 0, mapped := true, ver := 0, pub := { bytes := [(0, 5)], poison := [], recovering := false, backing := .none, t0 := .dirty, tl := none, heat := 0, stamp := 0, touch := 0, charge := 0, move := none, image := none }, shadows := [], olds := [], refs := [] })]
    let s := joined .priv 1048576
    let s : State := { s with home := { s.home with regions := [(0, { reg .priv 1048576 with entries := [(0, .leaf 40 false 0 1)] })], pages := w } }
    asks (.ropeSet r) { BciRow.o 0x60 6 with minor := some 0, v3 := true, resv := fun r => above r 1 16 || offResv r 5 } r s
      (fun i u => (u.opens r i 65536 0 4 needR).isSome && !u.hasCoherent) fun t => answered t [] && decide (t.rope.members = [5] ∧ t.rope.timeoutUs = 500)) = true := by decide +kernel

theorem wit_TeamsAndFences_agents : (let s := team none
    let add := req 0x61 [6, 9, 1]
    let rem := req 0x62 [2]
    let s3 : State := { s with lmf := { s.lmf with incs := s.lmf.incs ++ [(9, { inc := 1, ver := 3, joined := true, fenced := none })] } }
    (asks (.ropeAgentAdd add) { BciRow.o 0x61 3 with minor := some 0, v3 := true, resv := fun r => above r 1 6 || above r 2 18 } add s3
      (fun _ u => decide (3 ≤ u.verOf 9 ∧ u.isMember = true ∧ Tab.has u.rope.agents 6 = false ∧ u.agentIdx 9 = none)) fun t => answered t [] && decide (Tab.get? t.rope.agents 6 = some { eid := 9, inc := 1 }))
    && (asks (.ropeAgentRemove rem) { BciRow.o 0x62 1 with minor := some 0, v3 := true, resv := fun r => above r 1 6 } rem s
      (fun _ u => decide ((Tab.get? u.rope.agents 2).isSome = true ∧ u.agentHolds 2 = false)) fun t => answered t [] && decide (Tab.get? t.rope.agents 2 = none))) = true := by decide +kernel

theorem wit_TeamsAndFences_fence : (let r := req 0x63 [7, 2]
    asks (.fence r) { BciRow.o 0x63 2 with minor := some 0, resv := fun r => above r 1 18 } r (joined .priv 1048576)
      (fun _ u => decide ((Tab.get? u.lmf.incs 7).map IncEntry.fenced = some none)) fun t => answered t [] && decide ((Tab.get? t.lmf.incs 7).map IncEntry.fenced = some (some 2))) = true := by
  decide +kernel

/-! ### Regions, grants and maps (02) -/

theorem wit_RegionCommands_create : (let r := req 32 [0x200000, 0, 0x100000, 0, 0, 0, 1]
    asks (.create r) { BciRow.f 32 7 with resv := fun r => above r 6 18 || above r 7 12 } r (joined .priv 1048576)
      (fun _ u => decide (modeOf (r.w 5) = some .publish ∧ policyOf (fld (r.w 5) 9 2) = some { place := .auto, lent := false } ∧ u.ctxOk (r.w 7) = true ∧ u.freeIndex = 1))
      fun t => answered t [65537] && decide ((t.region? 1).map Region.base = some 0x200000)) = true := by decide +kernel

theorem wit_RegionCommands_destroy : (let r := req 33 [65536]
    let s := joined .priv 1048576
    let d : State := { s with home := { s.home with regions := [(0, { reg .priv 1048576 with draining := true })] } }
    (asks (.destroy r) (BciRow.o 33 1) r s (fun _ u => decide ((u.live (u.reqHome r) 65536).isSome = true ∧ u.home.held = [] ∧ u.home.revokes = []))
      fun t => decide ((t.region? 0).map Region.draining = some true ∧ Tab.get? t.home.gens 0 = some 2))
    && decide (d.referenced 0 = false) && (next (.regionDrainEnd 0) d fun t => decide (t.region? 0 = none))) = true := by decide +kernel

/-- The row of REGION_SET. -/
def rowRegionSet : BciRow :=
  { BciRow.o 34 3 with resv := fun r => decide (r.w 2 = 0) || decide (4 < r.w 2) || (decide (r.w 2 = 1) && (policyOf (r.w 3)).isNone)
      || (decide (r.w 2 = 3) && above r 3 18) || (decide (r.w 2 = 2 ∨ r.w 2 = 4) && decide (1 < r.w 3)) }

theorem wit_RegionCommands_set : ((asks (.regionSet (req 34 [65536, 1, 0])) rowRegionSet (req 34 [65536, 1, 0]) (joined .priv 1048576)
      (fun _ u => decide (policyOf 0 = some { place := .auto, lent := false } ∧ u.policyHeld 0 = false)) fun t => answered t [0])
    && (asks (.regionSet (req 34 [65536, 2, 1])) rowRegionSet (req 34 [65536, 2, 1]) (joined .priv 1048576) (fun _ _ => true) fun t => decide ((t.region? 0).map Region.talus = some true))
    && (asks (.regionSet (req 34 [65536, 3, 0])) rowRegionSet (req 34 [65536, 3, 0]) (joined .priv 1048576) (fun _ u => u.mirrorOk .priv false 0) fun t => answered t [0])
    && (asks (.regionSet (req 34 [65536, 4, 1])) rowRegionSet (req 34 [65536, 4, 1]) (joined .priv 1048576) (fun _ _ => true) fun t => decide ((t.region? 0).map Region.absentFault = some true))) = true := by
  decide +kernel

theorem wit_RegionCommands_grants : (let g := req 35 [65536, 9, 1 + 65536]
    let v := req 36 [65536, 7, 4096 + 65536]
    (asks (.grant g) { BciRow.o 35 3 with resv := fun r => above r 2 18 || above r 3 18 } g (joined .publish 1048576)
      (fun _ u => decide (u.grantCtxBad g = false ∧ u.sealed (reg .publish 1048576) 9 = true ∧ u.grantCount < 1048576)) fun t => answered t [] && decide ((t.region? 0).map (fun x => x.grants.length) = some 3))
    && (asks (.revoke v) { BciRow.o 36 3 with resv := fun r => above r 2 18 || above r 3 18 } v (joined .publish 1048576)
      (fun _ u => decide (u.grantCtxBad v = false ∧ u.home.held = [] ∧ u.resume = [] ∧ u.home.revokes = [])) fun t => answered t [])) = true := by decide +kernel

/-- A coherent-mode region takes no mirror partner from outside its team (R277). -/
theorem test_mirror_needs_team : State.reset.mirrorOk .coherent false 5 = false ∧ State.reset.mirrorOk .publish false 5 = true := by decide
theorem wit_MapCommands_map : (let m := req 37 [65536, 0, 0, 131072, 0, 4, 0, 0, 0]
    let n := req 38 [65536, 65536, 0, 65536, 0]
    (asks (.map m) { BciRow.o 37 9 with resv := fun r => offResv r 2 || above r 6 5 || (bitAt (r.w 6) 3 && offResv r 8) } m (joined .priv 1048576)
      (fun _ u => u.space (reg .priv 1048576) 2 false) fun t => answered t [] && decide ((t.region? 0).map (fun g => ((g.handleOf 1).isSome, (g.entry 1).isRo)) = some (true, true)))
    && (asks (.unmap n) { BciRow.o 38 5 with resv := fun r => offResv r 2 } n (joined .priv 1048576) (fun _ u => (u.live 5 65536).isSome)
      fun t => answered t [] && decide ((t.region? 0).map (fun g => g.entry 1) = some .zero))) = true := by decide +kernel

theorem wit_MapCommands_convert : (let row (r : BciReq) : BciRow := { BciRow.f 39 (if r.w 1 = 1 then 4 else 3) with resv := fun r => decide (1 < r.w 1) || (decide (r.w 1 = 1) && above r 4 6) }
    let h := req 39 [0, 0x48, 0]
    let d := req 39 [1, 0x48, 5 * 2 ^ 20, 0]
    (asks (.convert h) (row h) h windowed (fun _ u => decide (u.h2d 0 0 none 0x48 = some (0x48, 65536))) fun t => answered t [0x48, 5 * 2 ^ 20, 0, 65536])
    && (asks (.convert d) (row d) d windowed (fun _ u => decide (u.d2h 0 0 none 0x48 = some 0x48)) fun t => answered t [0x48, 0])) = true := by decide +kernel

theorem wit_MapCommands_ring : (let r := req 40 [65536, 0, 0]
    asks (.faultRingSet r) { BciRow.o 40 3 with resv := fun r => offResv r 2 } r (joined .priv 1048576) (fun _ u => decide (u.home.faults = []) && (u.live 5 65536).isSome)
      fun t => answered t [] && decide (Tab.get? t.home.faultRings 0 = some { key := 65536, off := 0, log2 := 13 })) = true := by decide +kernel

theorem wit_MapCommands_resolve : (let s := joined .priv 1048576
    let s : State := { s with home := { s.home with faults := [flt], held := [heldLoad] } }
    let r := req 41 [3, 0]
    let a := req 41 [3, 1 + 65536 * 2]
    (asks (.faultResolve r) rowFaultResolve r s (fun _ u => decide (u.kernels = [] ∧ u.cores = [] ∧ u.home.revokes = [])) fun t => decide (t.home.faults = [] ∧ t.home.held = [] ∧ t.resume.length = 1))
    && (asks (.faultResolveAbort a) rowFaultResolve a s (fun _ u => decide (u.home.held = [heldLoad])) fun t => decide (t.home.faults = []) && done t .key [])) = true := by decide +kernel

/-! ### Contexts, sessions, switchover and firmware (14) -/

theorem wit_ContextCommands_create : (let r2 := req 0x10 [2 + 8192, 1, 9, 0]
    (asks (.ctxCreate r2) { BciRow.o 0x10 4 with resv := fun r => above r 1 14 || above r 2 10 } r2 (joined .priv 1048576)
      (fun _ u => decide ((u.sessionOf r2).1 = 3 ∧ Tab.has u.bci.contexts 2 = false ∧ u.boundCtx 1 0 = none ∧ u.fnEnabled 1 0 = true))
      fun t => answered t [] && decide ((Tab.get? t.bci.contexts 2).map Context.bind = some (some (1, 0))))) = true := by decide +kernel

theorem wit_ContextCommands_set : (let row : BciRow := { BciRow.o 0x11 3 with resv := fun r => above r 1 12 }
    (asks (.ctxSet (req 0x11 [1, 1, 1])) row (req 0x11 [1, 1, 1]) (joined .priv 1048576) (fun _ u => u.ctxIs 1 .active) fun t => decide ((Tab.get? t.bci.contexts 1).map Context.lineMode = some true))
    && (asks (.ctxSet (req 0x11 [1, 2, 77])) row (req 0x11 [1, 2, 77]) (joined .priv 1048576) (fun _ _ => true) fun t => decide ((Tab.get? t.bci.contexts 1).map Context.shadowLimit = some 77))
    && (asks (.ctxSet (req 0x11 [1, 3, 0])) row (req 0x11 [1, 3, 0]) (joined .priv 1048576) (fun _ _ => true) fun t => answered t [])) = true := by decide +kernel

theorem wit_ContextCommands_end : (let row (op : Nat) : BciRow := { BciRow.o op 1 with resv := fun r => above r 1 12 }
    let s := joined .priv 1048576
    let s2 : State := { s with bci := { s.bci with contexts := s.bci.contexts ++ [(2, { ctx1 with bind := none })] } }
    let inSt (st : CtxState) : State := { s with bci := { s.bci with contexts := [(1, { ctx1 with st := st })] } }
    (asks (.ctxReset (req 0x12 [1])) (row 0x12) (req 0x12 [1]) s (fun _ u => u.ctxIs 1 .active) fun t => answered t [] && t.ctxIs 1 .resetting)
    && (asks (.ctxDestroy (req 0x13 [2])) (row 0x13) (req 0x13 [2]) s2 (fun _ u => decide (u.ctxIs 2 .active = true ∧ u.ctxNamed 2 = false)) fun t => answered t [] && t.ctxIs 2 .destroying)
    && (next (.ctxResetEnd 1) (inSt .resetting) fun t => t.ctxIs 1 .active) && (next (.ctxResetEnd 1) (inSt .destroying) fun t => decide (t.bci.contexts = []))
    && decide ((inSt .resetting).ctxBusy 1 = false)) = true := by decide +kernel

theorem wit_SessionCommands_hello : (let r := req 1 [3 + 256 * 7]
    let o : LongOp := { id := 6, kind := .drainT0, st := 0, status := .ok, bp := 0, hw := 0, pos := 0, total := 0, start := 0, fin := 0, admin := false, issuer := some (5, 1) }
    let s := joined .priv 1048576
    (asks (.hello r) { BciRow.f 1 1 with resv := fun r => above r 1 16 } r s (fun _ u => decide (u.reqChannel r = some 8)) fun t => accepted t && decide ((t.channel 8).session = some (3, 4)))
    && (asks (.opStatus (req 2 [6])) { BciRow.f 2 1 with minor := some 0 } (req 2 [6]) { s with bci := { s.bci with ops := [o] } }
      (fun i u => decide (u.bci.ops = [o] ∧ o.issuer = some (i.eid, i.ctx))) fun t => answered t o.words)) = true := by decide +kernel

theorem wit_SessionCommands_config : (let set : BciRow := { BciRow.o 3 3 with minor := some 0 }
    let get : BciRow := { BciRow.o 4 1 with minor := some 0 }
    let s := joined .priv 1048576
    (asks (.configSet (req 3 [1, 10000, 0])) set (req 3 [1, 10000, 0]) s (fun _ u => decide (10000 ≤ u.bci.txnTimeout / 2)) fun t => answered t [] && decide (t.bci.faultHold = 10000))
    && (asks (.configSet (req 3 [2, 2000, 0])) set (req 3 [2, 2000, 0]) s (fun _ _ => true) fun t => decide (t.bci.suspendAfter = 2000))
    && (asks (.configSet (req 3 [3, 1000000000, 0])) set (req 3 [3, 1000000000, 0]) s (fun _ u => decide (2 * u.bci.faultHold ≤ 1000000000)) fun t => decide (t.bci.txnTimeout = 1000000000))
    && (asks (.configGet (req 4 [1])) get (req 4 [1]) s (fun _ _ => true) fun t => answered t [1000000, 0]) && (asks (.configGet (req 4 [2])) get (req 4 [2]) s (fun _ _ => true) fun t => answered t [20000, 0])
    && (asks (.configGet (req 4 [3])) get (req 4 [3]) s (fun _ _ => true) fun t => answered t [4000000, 0])) = true := by decide +kernel

theorem wit_SessionCommands_notices : (let r := req 5 [65536, 0, 0, 6]
    let s := joined .priv 1048576
    let d : Deadline := { id := 4, at' := 900, abort := false, src := 1, obj := 0, eid := 5, ctx := 1 }
    (asks (.noticeRingSet r) { BciRow.f 5 4 with minor := some 0, resv := fun r => offResv r 2 } r s (fun i u => (u.permit 5 65536 0 2048 needW i).isSome)
      fun t => answered t [] && decide ((Tab.get? t.bci.rings (issuerKey 5 1)).map NoticeRing.prod = some 0))
    && (next (.deadlineExpiry 4) { s with bci := { s.bci with deadlines := [d] } } fun t => decide (t.bci.deadlines = []))) = true := by decide +kernel

theorem wit_SwitchoverAndFirmware_switch : (decide (base.runs = true ∧ base.bci.standby = true) && (next .watchdogExpiry base fun t => decide (t.bci.phase = .switching))
    && (next .basecampEccError base fun t => decide (t.bci.standby = false))
    && (let s : State := { base with bci := { base.bci with standby := false } }
        (next .watchdogExpiry s fun t => decide (t.rel.failCause = some 2)) && (next .basecampEccError s fun t => decide (t.rel.failCause = some 2)))
    && (let s : State := { base with bci := { base.bci with phase := .switching, standby := false } }
        next .switchoverEnd s fun t => decide (t.bci.phase = .syncing ∧ t.bci.westActive = true))
    && (let s : State := { base with bci := { base.bci with phase := .syncing, standby := false } }
        next .standbySync s fun t => decide (t.bci.phase = .steady ∧ t.bci.standby = true))
    && (let s : State := { base with bci := { base.bci with phase := .syncing, standby := false, activating := some 0, slots := [(0, { st := 1, fwVer := 0, svn := 5, keySlot := 0, commitSvn := true })] } }
        next .standbySync s fun t => decide (t.sec.svnMin = 5 ∧ t.bci.activating = none))
    && (let s : State := { base with bci := { base.bci with staging := [(6, [1, 2])] } }
        decide (s.verifyImage [1, 2] = none) && next (.fwStageEnd 6) s fun t => decide (Tab.get? t.bci.slots 1 = none ∧ t.bci.runSlot = 0))) = true := by decide +kernel

theorem wit_SwitchoverAndFirmware_firmware : (let s := joined .priv 1048576
    let v : FwSlot := { st := 1, fwVer := 7, svn := 0, keySlot := 0, commitSvn := false }
    let s2 : State := { s with bci := { s.bci with slots := s.bci.slots ++ [(1, v)] } }
    let st := req 0xA0 [65536, 0, 0, 8]
    let ac := req 0xA1 [1]
    (asks (.fwStage st) { BciRow.o 0xA0 4 with minor := some 0, resv := fun r => offResv r 2 } st s (fun i u => decide (u.bci.activating = none) && (u.opens st i 65536 0 8 needR).isSome)
      fun t => answered t [1] && decide (Tab.get? t.bci.staging 1 = some (List.replicate 8 0)))
    && ((asked ac s2).ready (.fwActivate ac) { BciRow.o 0xA1 1 with minor := some 0, resv := fun r => above r 1 1 } ac).isSome && decide (s2.bci.standby = true)
    && (asks (.fwInfo (req 0xA2 [])) { BciRow.o 0xA2 0 with minor := some 0 } (req 0xA2 []) s2 (fun _ _ => true) fun t => answered t [0, 2, 7, 1, 0])) = true := by decide +kernel

/-! ### Publishing and counters (05) -/

/-- A publish-mode region whose page 0 (handle 40) has the bytes 5 published and 6 in the shadow page of context 1. -/
def shadowed : State :=
  let s := joined .publish 1048576
  let pg (b : Byte) : TierPage := { bytes := [(0, b)], poison := [], recovering := false, backing := .t1, t0 := .dirty, tl := none, heat := 0, stamp := 0, touch := 0, charge := 0, move := none, image := none }
  { s with home := { s.home with
      regions := [(0, { reg .publish 1048576 with entries := [(0, .leaf 40 false 0 1)] })]
      pages := [(40, { rid := 0, pageNo := 0, mapped := true, ver := 0, pub := pg 5, shadows := [{ eid := 5, ctx := 1, base := 0, widx := 0, page := pg 6 }], olds := [], refs := [] })] } }

theorem wit_PublishCommands_publish : (let r := req 64 [65536, 0, 0, 65536, 0, 9]
    let f := req 65 [65536, 0, 0, 65536, 0, 9, 0, 0]
    (asks (.publish r) rowPublish r shadowed (fun i u => decide (r.dl = false ∧ u.logFind (u.issuerLog r i) 9 = none) && (u.opens r i 65536 0 65536 needP).isSome)
      fun t => decide (t.home.pubs.map PubCmd.expected = [none]))
    && (asks (.publishIf f) { BciRow.f 65 8 with minor := some 0, dl := true, v3 := true, resv := fun r => offResv r 2 } f shadowed (fun i u => (u.opens f i 65536 0 65536 needP).isSome)
      fun t => decide (t.home.pubs.map PubCmd.expected = [some 0]))) = true := by decide +kernel

/-- `shadowed` with a publish of page 0 in its order. -/
def publishing (e : Option Nat) : State :=
  let p : PubCmd := { id := 12, r := req 64 [65536, 0, 0, 65536, 0, 9], eid := 5, ctx := 1, rid := 0, off := 0, len := 65536, lseq := 9, expected := e, mirrorSent := false, mirrorDone := false }
  { shadowed with home := { shadowed.home with pubs := [p] } }

theorem wit_PublishCommands_switch : ((match (publishing none).region? 0, (publishing none).pub? 12 with
      | some rg, some p => decide ((publishing none).gate 0 rg = none ∧ (publishing none).meetPublish p rg = .clear ∧ (publishing none).behindEarlier p = false ∧ rg.mirror = 0 ∧ (publishing none).rangeVersion rg 0 65536 = 0)
      | _, _ => false)
    && (next (.publishSwitch 12) (publishing none) fun t => decide ((t.region? 0).map Region.version = some 1 ∧ t.pubBytes 0 0 1 = [6] ∧ t.home.pubs = []))
    && (next (.publishSwitch 12) (publishing (some 4)) fun t => decide ((t.region? 0).map Region.version = some 0 ∧ t.pubBytes 0 0 1 = [5] ∧ t.home.pubs = []))) = true := by decide +kernel

theorem wit_PublishCommands_versions : (let d := req 66 [65536, 0, 0, 65536, 0]
    let q := req 67 [65536, 0, 0, 65536, 0]
    let p := req 68 [65536, 0, 0, 65536, 0]
    (asks (.discard d) { BciRow.f 66 5 with resv := fun r => offResv r 2 } d shadowed (fun i u => decide (u.home.pubs = []) && (u.opens d i 65536 0 65536 needW).isSome) fun t => answered t [1])
    && (asks (.versionQuery q) { BciRow.f 67 5 with resv := fun r => offResv r 2 } q shadowed (fun i u => (u.opens q i 65536 0 65536 needR).isSome) fun t => answered t [0, 0, 0, 0])
    && (asks (.versionPin p) { BciRow.f 68 5 with minor := some 1, v3 := true, resv := fun r => offResv r 2 } p shadowed (fun i u => (u.opens p i 65536 0 65536 needR).isSome)
      fun t => answered t [1, 0, 0] && decide ((Tab.get? t.home.pins 1).map Pin.rid = some 0))) = true := by decide +kernel

theorem wit_PublishCommands_pins : (let n := req 69 [1]
    let pin (e c : Nat) : Pin := { eid := e, ctx := c, rid := 0, off := 0, len := 65536, version := 0, pages := [(0, 0, 41)] }
    let s : State := { shadowed with home := { shadowed.home with pins := [(1, pin 5 1)] } }
    let l : State := { shadowed with home := { shadowed.home with pins := [(1, pin 7 3)] } }
    let q := lmfq 0 4
    let r : BciReq := { src := .lmf q, words := [70, 1, 0, 0, 4, 65536, 0, 0].map (BitVec.ofNat 32) }
    (asks (.versionUnpin n) { BciRow.f 69 1 with minor := some 1, v3 := true } n s (fun i u => (u.pinOf 1 i).isSome && !u.pinUsed 1) fun t => answered t [] && decide (t.home.pins = []))
    && (match l.ready (.readAt r) { BciRow.f 70 7 with minor := some 1, dl := true, v3 := true, resv := fun r => offResv r 2 || (match r.src with | .lmf _ => false | _ => offResv r 6) } r with
        | some (i, u) => (u.pinOf (r.w 1) i).isSome && next (.readAt r) l fun t => done t .ok [5, 0, 0, 0]
        | none => false)) = true := by decide +kernel

theorem wit_CounterCommands_keys : (let s := cslot (.nop (hdr 0))
    (asks (.counterAlloc (req 72 [65536])) (BciRow.f 72 1) (req 72 [65536]) s (fun _ u => (u.live 5 65536).isSome) fun t => answered t [65537])
    && (asks (.counterFree (req 73 [65536])) (BciRow.f 73 1) (req 73 [65536]) s (fun i u => decide (u.counterOf 65536 i = some ctr0 ∧ u.home.waits = [])) fun t => answered t [] && decide (t.home.counters = []))
    && (asks (.counterReset (req 74 [65536])) (BciRow.f 74 1) (req 74 [65536]) s (fun i u => decide (u.counterOf 65536 i = some ctr0)) fun t => decide ((Tab.get? t.home.counters 0).map Counter.bytes = some 0))
    && (asks (.counterRead (req 75 [65536])) (BciRow.f 75 1) (req 75 [65536]) s (fun i u => decide (u.counterOf 65536 i = some ctr0)) fun t => answered t [7, 0, 1])) = true := by decide +kernel

theorem wit_CounterCommands_waits : (let s := cslot (.nop (hdr 0))
    let row : BciRow := { BciRow.f 76 5 with dl := true, resv := fun r => decide (2 < r.w 5) }
    let r (b : Nat) : BciReq := req 76 [65536, b, 0, 0, 0]
    let w : Wait := { id := 3, ckey := 65536, sel := 2, tBytes := 7, tPkts := 1, who := .bci (r 7), eid := 5, ctx := 1 }
    (asks (.waitCount (r 7)) row (r 7) s (fun i u => decide (u.counterOf 65536 i = some ctr0 ∧ (r 7).dl = false)) fun t => answered t [7, 0, 1])
    && (asks (.waitCount (r 8)) row (r 8) s (fun i u => decide (u.counterOf 65536 i = some ctr0)) fun t => decide (t.home.waits.length = 1))
    && decide (w.holds ctr0 = true ∧ ctr0.bytes < 2 ^ 64 ∧ ctr0.pkts < 2 ^ 32) && next (.waitCountWake 3) { s with home := { s.home with waits := [w] } } fun t => decide (t.home.waits = [])) = true := by
  decide +kernel
/-! ### Reliability (19) -/

theorem wit_HealthAndQuarantine_reads : (let e := req 0x100 [0, 4, 65536, 0, 0]
    let h := req 0x101 [40, 65536, 0, 0]
    let s := joined .priv 1048576
    (asks (.errlogRead e) { BciRow.o 0x100 5 with minor := some 0, resv := fun r => offResv r 4 } e s
      (fun i u => (u.opens e i 65536 0 0 needW).isSome && decide (u.meetWrite 0 (reg .priv 1048576) (.shadowed i) 0 0 = .clear)) fun t => accepted t)
    && (asks (.healthRead h) { BciRow.o 0x101 4 with minor := some 0, resv := fun r => above r 1 9 || offResv r 3 } h s
      (fun i u => (u.opens h i 65536 0 ((u.unit 40).bytes 40).length needW).isSome && decide (u.meetWrite 0 (reg .priv 1048576) (.shadowed i) 0 ((u.unit 40).bytes 40).length = .clear))
      fun t => answered t [])) = true := by decide +kernel

theorem wit_HealthAndQuarantine_params : (let st := req 0x102 [6, 5, 0]
    let gt := req 0x103 [10]
    let s := joined .priv 1048576
    (asks (.relSet st) { BciRow.o 0x102 3 with minor := some 0 } st s (fun _ _ => decide (relRange 6 = some (5, 100))) fun t => answered t [] && decide (t.param 6 = 5))
    && (asks (.relSet (req 0x102 [1, 100, 0])) { BciRow.o 0x102 3 with minor := some 0 } (req 0x102 [1, 100, 0]) s (fun _ u => decide (2 * 100 ≤ u.param 3)) fun t => decide (t.param 1 = 100))
    && (asks (.relSet (req 0x102 [3, 1000000, 0])) { BciRow.o 0x102 3 with minor := some 0 } (req 0x102 [3, 1000000, 0]) s (fun _ u => decide (2 * u.param 1 ≤ 1000000)) fun t => decide (t.param 3 = 1000000))
    && (asks (.relGet gt) { BciRow.o 0x103 1 with minor := some 0 } gt s (fun _ _ => true) fun t => accepted t)) = true := by decide +kernel

theorem wit_HealthAndQuarantine_quarantine : (let q := req 0x104 [0x50, 0]
    let l := req 0x104 [0x50, 1]
    let s := joined .priv 1048576
    (asks (.quarantine q) { BciRow.o 0x104 2 with minor := some 0, resv := fun r => above r 1 9 || decide (r.w 2 ≠ 0) } q s (fun _ _ => true) fun t => (t.unit 0x50).asked)
    && (asks (.quarantineRelease l) { BciRow.o 0x104 2 with minor := some 0, resv := fun r => above r 1 9 || decide (r.w 2 ≠ 1) } l s (fun _ _ => decide (hasKat 0x50 = false))
      fun t => answered t [] && !(t.unit 0x50).quarantined)) = true := by decide +kernel

theorem wit_HealthAndQuarantine_units : (let far : State := { base with time := { base.time with now := 86400000000000 } }
    decide ((far.unit 1).onSince + 10000000000 ≤ far.now ∧ hasKat 1 = true ∧ (far.unit 1).quarantined = false ∧ far.unitIdle 1 = true ∧ (far.unit 1).lastKat + far.param 9 * 1000000 ≤ far.now)
    && (next (.healthUpdate 1 55 700) far fun t => decide ((Tab.get? (t.unit 1).bins (binOf 55)).map HealthBin.vmin = some 700))
    && stays (.kat 1 .yielded) far && (next (.kat 1 .pass) far fun t => decide ((t.unit 1).lastKat = 86400000000000))
    && (next (.kat 1 .fail) far fun t => decide (t.rel.errors.map ErrorRec.cls = [6]))
    && (let s := base.setUnit 1 { base.unit 1 with asked := true }
        decide ((s.unit 1).asked = true ∧ s.unitIdle 1 = true) && next (.quarantineEffect 1) s fun t => (t.unit 1).quarantined && decide ((t.core 0).st = .quarantined))) = true := by decide +kernel

/-- The controller with drives 3 and 4 and DIMMs 1 and 2, the second of each the spare or not. -/
def parted (spare : Bool) : State :=
  let s := joined .priv 1048576
  { s with strata := { s.strata with
      present := [3, 4]
      drives := [(3, { admitted := true, inc := 1, spare := false, failed := false, capacity := 1000000000000 }), (4, { admitted := true, inc := 1, spare := spare, failed := false, capacity := 1000000000000 })]
      dimms := [(1, { spare := false, failed := false, hot := false }), (2, { spare := spare, failed := false, hot := false })] } }

theorem wit_PartsAndSpares_failed : (let s := parted true
    decide (s.runs = true ∧ s.rel.errors = [] ∧ s.partUp .dimm 1 = true ∧ s.partUp .drive 3 = true ∧ (s.dimm 1).spare = false ∧ (s.drive 3).spare = false)
    && (next (.partFailed .pseudoChannel 9) s fun t => decide (t.rel.pcFailed = [9] ∧ t.rel.rebuilds.map Rebuild.running = [true]))
    && (next (.partFailed .pseudoChannel 9) { s with rel := { s.rel with pcFailed := [1] } } fun t => decide (t.rel.failCause = some 4))
    && (next (.partFailed .dimm 1) s fun t => decide (t.rel.rebuilds.map Rebuild.into = [some 2] ∧ t.rel.errors.map ErrorRec.cls = [7]))
    && (next (.partFailed .drive 3) s fun t => decide (t.rel.rebuilds.map Rebuild.into = [some 4]))
    && (let f : State := { s with strata := { s.strata with dimms := [(1, { spare := false, failed := true, hot := false })] } }
        decide (f.partUp .dimm 1 = false) && stays (.partFailed .dimm 1) f)) = true := by decide +kernel

theorem wit_PartsAndSpares_spares : (let row : BciRow := { BciRow.o 0x105 3 with minor := some 0, resv := fun r => above r 3 1 }
    let s := parted false
    (asks (.spareSet (req 0x105 [1, 2, 1])) row (req 0x105 [1, 2, 1]) s
      (fun _ u => let t := State.sizeT1 { u with strata := { u.strata with dimms := Tab.set u.strata.dimms 2 { u.dimm 2 with spare := true } } }
        decide ((u.dimm 2).failed = false ∧ t.overfull = false ∧ 2 < 16 * u.strata.dimmsPer)) fun t => answered t [] && (t.dimm 2).spare)
    && (asks (.spareSet (req 0x105 [2, 4, 1])) row (req 0x105 [2, 4, 1]) s
      (fun _ u => let t := State.sizeT2 { u with strata := { u.strata with drives := Tab.set u.strata.drives 4 { u.drive 4 with spare := true } } }
        decide ((u.drive 4).admitted = true ∧ (u.drive 4).failed = false ∧ t.t2Bytes ≤ t.t2Cap)) fun t => answered t [] && (t.drive 4).spare)
    && (asks (.spareSet (req 0x105 [1, 2, 0])) row (req 0x105 [1, 2, 0]) (parted true) (fun _ u => decide (u.rel.rebuilds = [])) fun t => answered t [] && !(t.dimm 2).spare)) = true := by decide +kernel

theorem wit_PartsAndSpares_rebuild : (let r := req 0x106 [1, 1]
    let s := parted true
    let b (p : Part) (loc : Nat) (run : Bool) (into : Option Nat) : Rebuild := { op := 6, part := p, loc := loc, running := run, into := into }
    let at' (x : Rebuild) : State := { s with rel := { s.rel with rebuilds := [x] } }
    (asks (.rebuildStart r) { BciRow.o 0x106 2 with minor := some 0, resv := fun r => above r 2 16 } r (at' (b .dimm 1 false none))
      (fun _ u => decide (partOf 1 = some .dimm ∧ u.rebuildOf .dimm 1 = some (b .dimm 1 false none) ∧ u.spareFor .dimm = some 2)) fun t => answered t [1] && decide (t.rel.rebuilds.map Rebuild.running = [true]))
    && (next (.rebuildEnd 6 false) (at' (b .dimm 1 true (some 2))) fun t => decide (t.rel.rebuilds = []) && !(t.dimm 2).spare)
    && (next (.rebuildEnd 6 false) (at' (b .drive 3 true (some 4))) fun t => !(t.drive 4).spare && !(t.drive 3).admitted)
    && (next (.rebuildEnd 6 true) (at' (b .drive 3 true (some 4))) fun t => (t.drive 4).failed && t.rel.rebuilds.any (fun x => decide (x.part = .drive ∧ x.loc = 3) && !x.running))) = true := by
  decide +kernel

theorem wit_HeartbeatsAndTakeover_heartbeats : (let s := joined .priv 1048576
    let s : State := { s with home := { s.home with regions := [(0, { reg .priv 1048576 with mirror := 7 })] } }
    decide (s.lmf.joined = true ∧ (s.hbOf 5).sentAt = 0 ∧ 7 ∈ s.hbTargets ∧ s.judge 7 2 = .current ∧ s.judge 7 1 ≠ .current)
    && (next .heartbeatSend s fun t => decide ((t.hbOf 7).sentAt = 1000000001)) && (next (.heartbeat 7 2 999999999) s fun t => decide ((t.hbOf 7).last = 1000000000 ∧ (t.hbOf 7).leaseEnd = 999999999 + s.param 3 * 1000))
    && stays (.heartbeat 7 1 999999999) s && (decide (7 ∈ s.hbWatched ∧ (s.hbOf 7).last + s.param 2 * s.param 1 * 1000 ≤ s.now ∧ (s.hbOf 7).suspect = false))
    && (let l := s.setHb 7 { s.hbOf 7 with leaseEnd := 500 }
        next (.leaseExpiry 7) l fun t => decide ((t.hbOf 7).leaseEnd = 0))) = true := by decide +kernel

theorem wit_HeartbeatsAndTakeover_takeover : (let r := req 0x107 [7, 2, 1]
    let s := joined .priv 1048576
    let f : State := { s with lmf := { s.lmf with incs := [(7, { inc := 2, ver := 3, joined := true, fenced := some 2 })] } }
    let x : Takeover := { id := 6, eid := 7, inc := 2, ctx := 1, waitEnd := 500, adopted := false }
    let c : State := { f with
      rel := { f.rel with takeovers := [x] }
      home := { f.home with copies := [(7 * 65536 + 1, { reg .priv 1048576 with mirror := 7, mirrorDone := true })] } }
    (asks (.takeover r) { BciRow.o 0x107 3 with minor := some 0, resv := fun r => above r 1 18 || above r 3 12 } r f
      (fun _ u => decide ((Tab.get? u.lmf.incs 7).map IncEntry.fenced = some (some 2) ∧ u.ctxOk 1 = true)) fun t => answered t [1] && decide (t.rel.takeovers.map Takeover.eid = [7]))
    && decide (c.rel.takeovers.find? (fun y => decide (y.id = 6) && !y.adopted) = some x ∧ x.waitEnd ≤ c.now ∧ c.home.copies.length = 1)) = true := by decide +kernel

/-- A request of EID 7 over LMF with SEQ 1 and TAG 9, in a channel with a session. -/
def lreq (op : Nat) (ws : List Nat) : BciReq :=
  { src := .lmfBci (lmfq 0 64), words := BitVec.ofNat 32 (op + 512 * ws.length + 65536 + 1048576 * 9) :: ws.map (BitVec.ofNat 32) }

/-- Region 0 with EID 7's channel and an object of name 3, or none. -/
def journal (o : Option JObject) : State :=
  let s := joined .priv 1048576
  { s with
    bci := { s.bci with channels := s.bci.channels ++ [(12, { Channel.fresh (.lmf 7) with session := some (3, 4) })] }
    rel := { s.rel with objects := match o with | some x => [x] | none => [] } }

/-- The object of name 3. -/
def obj (st : ObjState) (eid inc toEid toInc : Nat) : JObject := { rid := 0, name := 3, st := st, eid := eid, inc := inc, toEid := toEid, toInc := toInc, entry := 4 }

/-- The request over LMF reaches its command, and the command leaves a state of which `q` holds. -/
def lasks (c : Instr) (row : BciRow) (r : BciReq) (s : State) (p : Issuer → State → Bool) (q : State → Bool) : Bool :=
  match s.ready c row r with
  | some (i, u) => p i u && next c s q
  | none => false

/-- The state of the object after the command. -/
def objSt (t : State) : Option (ObjState × Nat × Nat) := (t.object? 0 3).map (fun o => (o.st, o.eid, o.toEid))

theorem wit_JournalCommands_lmf : (let cl := lreq 0x108 [65536, 3, 0, 1]
    let offer := lreq 0x109 [65536, 3, 0, 8, 1, 1]
    let w := lreq 0x109 [65536, 3, 0, 0, 0, 1]
    let ac := lreq 0x10A [65536, 3, 0, 4, 0, 1]
    let re := lreq 0x10B [65536, 3, 0, 1]
    let qu := lreq 0x10C [65536, 3, 0]
    let okay (r : BciReq) (n : Nat) (i : Issuer) (u : State) : Bool :=
      decide (u.sealed (reg .priv 1048576) i.eid = true ∧ u.gate 0 (reg .priv 1048576) = none ∧ ((reg .priv 1048576).rightsOf i.eid i.ctx).covers needW = true
        ∧ u.logFind (u.issuerLog r i) (r.w n) = none ∧ u.live (u.reqHome r) 65536 = some (0, reg .priv 1048576))
    let row : BciRow := { BciRow.f 0x109 6 with minor := some 1, resv := fun r => above r 4 18 }
    (lasks (.journalClaim cl) { BciRow.f 0x108 4 with minor := some 1 } cl (journal none) (okay cl 4) fun t => decide (objSt t = some (.owned, 7, 0)))
    && (lasks (.journalOffer offer) row offer (journal (some (obj .owned 7 2 0 0))) (okay offer 6) fun t => decide (objSt t = some (.offered, 7, 8)))
    && (lasks (.journalOffer w) row w (journal (some (obj .offered 7 2 8 1))) (okay w 6) fun t => decide (objSt t = some (.owned, 7, 0)))
    && (lasks (.journalAccept ac) { BciRow.f 0x10A 6 with minor := some 1 } ac (journal (some (obj .offered 8 1 7 2))) (okay ac 6) fun t => decide (objSt t = some (.owned, 7, 0)))
    && (lasks (.journalRelease re) { BciRow.f 0x10B 4 with minor := some 1 } re (journal (some (obj .owned 7 2 0 0))) (okay re 4) fun t => decide (objSt t = none))
    && (lasks (.journalQuery qu) { BciRow.f 0x10C 3 with minor := some 1 } qu (journal (some (obj .owned 7 2 0 0))) (fun i _ => decide (((reg .priv 1048576).rightsOf i.eid i.ctx).covers needR = true))
      fun t => decide (t.out.length = 1))) = true := by decide +kernel

theorem wit_JournalCommands_assign : (let r := req 0x10D [65536, 3, 0, 7, 2]
    asks (.journalAssign r) { BciRow.o 0x10D 5 with minor := some 1, resv := fun r => above r 4 18 } r (journal (some (obj .orphaned 8 1 0 0)))
      (fun _ u => decide (u.live (u.reqHome r) 65536 = some (0, reg .priv 1048576) ∧ (u.object? 0 3).map JObject.st = some .orphaned))
      fun t => answered t [1, 0] && decide (objSt t = some (.owned, 7, 0))) = true := by decide +kernel

/-! ### Counters, windows, cairns and traces (21) -/

/-- Frozen counters: event counter 9 at 3 with its WRAP bit, and context counter 2 of context 1 at 4 with its. -/
def counted : State :=
  let s := joined .priv 1048576
  { s with
    obs := { s.obs with events := [(9, { value := 3, wrap := true, edge := false, busy := false })], frozen := true }
    bci := { s.bci with contexts := [(1, { ctx1 with ctrs := [(2, { event := 9, en := true, ros := false, value := 4, wrap := true })] })] } }

theorem wit_EventCounters_read : (let row : BciRow := { BciRow.f 0x120 6 with minor := some 0, resv := fun r => above r 1 3 || offResv r 5 }
    let a := req 0x120 [4, 9, 1, 65536, 64, 0]
    let b := req 0x120 [6, 2, 1, 65536, 64, 0]
    let clear (r : BciReq) (i : Issuer) (u : State) : Bool := (u.opens r i 65536 64 8 needW).isSome && decide (u.meetWrite 0 (reg .priv 1048576) (.shadowed i) 64 8 = .clear)
    (asks (.cntRead a) row a counted (fun i u => u.privileged a && clear a i u) fun t => accepted t && decide (t.pubBytes 0 64 8 = [3, 0, 0, 0, 0, 0, 3, 0] ∧ (Tab.getD t.obs.events 9 EvCounter.fresh).wrap = false))
    && (asks (.cntRead b) row b counted (fun i u => decide (u.counterCtx b i = some 1) && clear b i u) fun t => accepted t && decide (t.pubBytes 0 64 8 = [4, 0, 0, 0, 0, 0, 3, 0]))) = true := by
  decide +kernel

theorem wit_EventCounters_mode : (let md := req 0x121 [9, 1]
    let z := req 0x122 [0, 9, 1]
    let y := req 0x122 [2, 2, 1]
    let row : BciRow := { BciRow.f 0x122 3 with minor := some 0, resv := fun r => decide (r.w 1 ≠ 0 ∧ r.w 1 ≠ 2) }
    (asks (.cntMode md) { BciRow.p 0x121 2 with resv := fun r => above r 1 12 || above r 2 1 } md counted (fun _ _ => true) fun t => (Tab.getD t.obs.events 9 EvCounter.fresh).edge)
    && (asks (.cntReset z) row z counted (fun _ u => u.privileged z) fun t => decide ((Tab.getD t.obs.events 9 EvCounter.fresh).value = 0))
    && (asks (.cntReset y) row y counted (fun i u => decide (u.counterCtx y i = some 1)) fun t => decide ((Tab.getD (t.ctxCtrs 1) 2 CtxCounter.fresh).value = 0))) = true := by decide +kernel

theorem wit_EventCounters_snapshot : (let sn := req 0x123 []
    let fr := req 0x124 [0]
    let un := req 0x124 [1]
    let cs := req 0x125 [2, 1 + 8192]
    (asks (.cntSnapshot sn) (BciRow.p 0x123 0) sn counted (fun _ _ => true) fun t => accepted t && decide (t.obs.snap.events = counted.obs.events))
    && (asks (.cntFreeze fr) { BciRow.p 0x124 1 with resv := fun r => decide (r.w 1 ≠ 0) } fr counted (fun _ _ => true) fun t => accepted t && t.obs.frozen)
    && (asks (.cntUnfreeze un) { BciRow.p 0x124 1 with resv := fun r => decide (r.w 1 ≠ 1) } un counted (fun _ _ => true) fun t => accepted t && !t.obs.frozen)
    && (asks (.cntCtxSet cs) { BciRow.f 0x125 2 with
          minor := some 0, resv := fun r => above r 1 5 || decide (fld (r.w 2) 15 14 ≠ 0 ∨ fld (r.w 2) 30 28 ≠ 0) || (!bitAt (r.w 2) 31 && decide (fld (r.w 2) 27 16 ≠ 0)) } cs counted
      (fun i u => decide (u.counterCtx cs i = some 1 ∧ attributable (fld (cs.w 2) 11 0) = true ∧ u.ctxOk 1 = true))
      fun t => answered t [] && decide ((Tab.get? (t.ctxCtrs 1) 2).map CtxCounter.event = some 1))) = true := by decide +kernel

theorem wit_EventCounters_windows : (let b := req 0x126 [43, 1, 65536, 0, 0]
    let s := joined .priv 1048576
    let w : State := { s with obs := { s.obs with winStart := [(2, (999000000, 1000))] } }
    (asks (.bwRead b) { BciRow.p 0x126 5 with resv := fun r => offResv r 4 } b s
      (fun i u => (u.opens b i 65536 0 128 needW).isSome && decide (u.meetWrite 0 (reg .priv 1048576) (.shadowed i) 0 128 = .clear)) fun t => answered t [])
    && (next (.bwWindowEnd 2 7 8 false) w fun t => decide ((Tab.getD t.obs.windows 2 []).map BwRec.rx = [7]))) = true := by decide +kernel

theorem wit_CairnsAndTraces : (let c := req 0x127 [3, 65536, 0, 0]
    let p := req 0x129 [0, 4, 65536, 0, 0]
    let trow : BciRow := { BciRow.p 0x128 9 with resv := fun r => above r 1 2 || offResv r 3 || decide (r.w 6 ≠ r.w 6 / 2 % 64 * 2) || offResv r 8 }
    let t0 := req 0x128 [0, 0, 0, 0, 0, 0, 0, 0, 0]
    let t1 := req 0x128 [1, 65536, 0, 0, 12, 6, 65536, 131072, 0]
    let s := joined .priv 1048576
    let cr : State := { s with obs := { s.obs with cairns := [(3, [{ time := 5, code := 6, ctx := 7, payload := 8 }])] } }
    let clear (r : BciReq) (n : Nat) (i : Issuer) (u : State) : Bool := (u.opens r i 65536 0 n needW).isSome && decide (u.meetWrite 0 (reg .priv 1048576) (.shadowed i) 0 n = .clear)
    (asks (.crnRead c) { BciRow.p 0x127 4 with resv := fun r => above r 1 9 || offResv r 3 } c s (clear c 1024) fun t => answered t [0])
    && (asks (.partnerRead p) { BciRow.p 0x129 5 with resv := fun r => offResv r 4 } p s (clear p 0) fun t => accepted t)
    && (asks (.trcSet t0) trow t0 s (fun _ _ => true) fun t => answered t [])
    && (asks (.trcSet t1) trow t1 s (fun i u => (u.opens t1 i 65536 131072 64 needR).isSome && (u.permit 5 65536 0 131072 needW i).isSome) fun t => answered t [] && decide (t.obs.trace.dest = 1 ∧ t.obs.trace.types = 6))
    && (next (.crnSelWrite 3) cr fun t => decide (t.obs.crnSel = 3 ∧ t.obs.crnData = [5, 0, 6 + 65536 * 7, 8]))) = true := by decide +kernel

/-! ### Tiers and storage (03, 04) -/

/-- A page of a state of its own, that holds the byte 8 at 2. -/
def tp (b : Backing) (c : T0Copy) (m : Option Move) : TierPage :=
  { bytes := [(2, 8)], poison := [], recovering := false, backing := b, t0 := c, tl := none, heat := 9, stamp := 0, touch := 0, charge := 0, move := m, image := none }

/-- Region 0 with that page as its page 0 (handle 40), and T2 of 1,000 pages. -/
def tiered (p : TierPage) : State :=
  let s := joined .priv 1048576
  { s with
    strata := { s.strata with t1Pages := 1000, t2Pages := 1000 }
    home := { s.home with
      regions := [(0, { reg .priv 1048576 with entries := [(0, .leaf 40 false 0 1)] })]
      pages := [(40, { rid := 0, pageNo := 0, mapped := true, ver := 0, pub := p, shadows := [], olds := [], refs := [] })] } }

/-- The move of page 0 after a step. -/
def moveOf (t : State) : Option Move := (t.page? (.pub 40)).bind TierPage.move

/-- An extent lent by EID 7. -/
def lent (st : ExtState) (g : Nat) : Extent := { eid := 7, inc := 2, gib := 4, lkey := 3, st := st, graceEnd := g, sealNext := 0, key := 11 }

/-- `tiered` with the extent 6. -/
def lentTo (e : Extent) (p : TierPage) : State := { tiered p with strata := { (tiered p).strata with extents := [(6, e)] } }

theorem wit_TierCommands_set : (let r := req 48 [500, 2 + 256 * 3 + 65536 * 4 + 1048576 * 5, 7]
    asks (.tierSet r) { BciRow.o 48 3 with minor := some 0 } r (joined .priv 1048576) (fun _ u => decide (500 ≠ u.halfLifeNs / 1000000 ∧ fld (r.w 2) 31 24 = 0 ∧ fld (r.w 3) 31 16 = 0))
      fun t => answered t [] && decide (t.strata.promoteT0 = 2 ∧ t.strata.promoteT1 = 3 ∧ t.strata.incPort = 4 ∧ t.strata.incEngine = 5 ∧ t.strata.minAge = 7)) = true := by decide +kernel

theorem wit_TierCommands_drain : (let row : BciRow := { BciRow.o 49 2 with minor := some 0, resv := fun r => decide (2 < r.w 1) }
    (asks (.tierDrain (req 49 [0, 0])) row (req 49 [0, 0]) (tiered (tp .t1 .dirty none)) (fun _ u => decide (u.opOf .drainT0 = none))
      fun t => accepted t && decide (moveOf t = some { kind := .writeBack, retiring := false }))
    && (asks (.tierDrain (req 49 [1, 6])) row (req 49 [1, 6]) (lentTo (lent .active 0) { tp .t1 .none none with tl := some 6 }) (fun _ u => decide (u.opOf (.drainTL 6) = none))
      fun t => accepted t && decide (t.tlCopies 6 = 0 ∧ (Tab.get? t.strata.extents 6).map Extent.st = some .recalling))
    && (asks (.tierDrain (req 49 [2, 0])) row (req 49 [2, 0]) (tiered (tp .t1 .none none)) (fun _ u => decide (u.opOf .drainT1 = none ∧ u.hasPinT1 = false ∧ u.t1Used + u.t2Used ≤ 1000))
      fun t => accepted t && decide (moveOf t = some { kind := .toT2, retiring := false }))) = true := by decide +kernel

theorem wit_TierCommands_cancel : (let row : BciRow := { BciRow.o 50 2 with minor := some 0, resv := fun r => decide (2 < r.w 1) }
    let o (k : OpKind) : LongOp := { id := 6, kind := k, st := 0, status := .ok, bp := 0, hw := 0, pos := 0, total := 1, start := 0, fin := 0, admin := false, issuer := some (5, 1) }
    let s (k : OpKind) (m : MoveKind) : State := { tiered (tp .t1 .dirty (some { kind := m, retiring := false })) with bci := { (tiered (tp .t1 .dirty none)).bci with ops := [o k] } }
    (asks (.tierDrainCancel (req 50 [0, 0])) row (req 50 [0, 0]) (s .drainT0 .writeBack) (fun _ u => decide (u.opOf .drainT0 = some (o .drainT0) ∧ u.bci.rings = []))
      fun t => answered t [] && decide (moveOf t = none))
    && (asks (.tierDrainCancel (req 50 [2, 0])) row (req 50 [2, 0]) (s .drainT1 .toT2) (fun _ u => decide (u.opOf .drainT1 = some (o .drainT1)))
      fun t => answered t [] && decide (moveOf t = none))) = true := by decide +kernel

theorem wit_TierCommands_lent : (let s := tiered (tp .t1 .none none)
    let a := lentTo (lent .active 0) { tp .t1 .none none with tl := some 6 }
    let g := lentTo (lent .recalling 0) { tp .t1 .none none with tl := some 6 }
    decide (s.runs = true ∧ s.judge 7 2 = .current ∧ 3 ≤ s.verOf 7)
    && (next (.lendOffer 7 2 6 4 3) s fun t => decide ((Tab.get? t.strata.extents 6).map (fun e => (e.st, e.gib)) = some (.active, 4)))
    && (next (.lendRecall 7 2 6 1000) a fun t => decide ((Tab.get? t.strata.extents 6).map (fun e => (e.st, e.graceEnd)) = some (.recalling, a.now + 1000000) ∧ t.tlCopies 6 = 0))
    && decide ((lent .recalling 0).graceEnd ≤ g.now)
    && (next (.lendGraceExpiry 6) g fun t => decide ((Tab.get? t.strata.extents 6).map Extent.st = some .gone ∧ t.out = [.evt 7 7 [6]]))) = true := by decide +kernel

theorem wit_TierCommands_background : (let p := tp .t1 .none none
    let s := tiered p
    let l : State := { s with strata := { s.strata with t1Pages := 51 } }
    let pg (k : Nat) : Nat × Handle := (40 + k, { rid := 0, pageNo := k, mapped := true, ver := 0, pub := p, shadows := [], olds := [], refs := [] })
    let full : State := { s with
      strata := { s.strata with t1Pages := 25 }
      home := { s.home with pages := (upto 25).map pg } }
    decide (full.runs = true ∧ full.t1Free * 100 < full.t1Cap * 2 ∧ full.strata.t2Pages ≠ 0 ∧ full.oldestT1 = some (.pub 40, p) ∧ full.page? (.pub 40) = some p
      ∧ full.t1Coming * 100 < full.t1Cap * 4)
    && (next .t1LowSpaceMove full fun t => decide (moveOf t = some { kind := .toT2, retiring := false }))
    && decide (l.t1Cap * 2 ≤ l.t1Free * 100 ∧ s.runs = true) && stays .t1LowSpaceMove l
    && (let h : State := { s with time := { s.time with now := 1000000000000000 } }
        next .heatSweep h fun t => decide (t.allPages.map (fun e => e.2.heat) = [0]))
    && decide (s.page? (.pub 9) = none ∧ s.strata.t2Pages ≠ 0) && (next (.stripeReclaim (.pub 9)) s fun t => decide (t.strata.reclaimed = s.strata.reclaimed + 1))) = true := by decide +kernel

/-- An image of one all-zero slot, and of one stored slot with a wrong check. -/
def img (n : Nat) : Image := { tableId := 0, tv := false, enc := false, keyclass := false, pageLen := 0, tweak := 0, slots := [{ mode := n, len := 0, soff := 0, body := [1, 2], crc := 0 }] }

/-- A move in COPYING. -/
def mv (k : MoveKind) (im : Option Image) : Option Move := some { kind := k, retiring := false, image := im }

/-- The move of page 0 of that state switches, and `f` holds of the page then. -/
def switches (p : TierPage) (f : TierPage → Bool) : Bool :=
  next (.pageMoveSwitch (.pub 40)) (tiered p) fun t =>
    match t.page? (.pub 40) with
    | some q => f q && (match q.move with | some m => m.retiring | none => false)
    | none => false

theorem wit_PageEvents_switch : (let go := switches
    let z := tiered (tp .t1 .none none)
    decide (z.runs = true ∧ z.bci.ops = []) && decide (z.t0Used < t0Pool)
    && (go (tp .t1 .none (mv .fill none)) fun q => decide (q.t0 = .clean))
    && (go (tp .t1 .dirty (mv .writeBack (some (img 0)))) fun q => decide (q.t0 = .clean ∧ q.image = some (img 0)))
    && (go (tp .none .dirty (mv .toBacking (some (img 0)))) fun q => decide (q.backing = .t1))
    && (go (tp .t1 .clean (mv .drop none)) fun q => decide (q.t0 = .none))
    && (go (tp .t2 .none (mv .toT1 none)) fun q => decide (q.backing = .t1)) && (go (tp .t1 .none (mv .toT2 none)) fun q => decide (q.backing = .t2))
    && (go (tp .t1 .clean (mv .toT0Only none)) fun q => decide (q.backing = .none ∧ q.t0 = .dirty))) = true := by decide +kernel

theorem wit_PageEvents_fill : (let s := lentTo (lent .active 0) { tp .t1 .clean (mv (.tlFill 6) none) with image := some (img 0) }
    decide (s.runs = true ∧ (s.page? (.pub 40)).map (fun q => (q.move, q.image, q.t0)) = some (mv (.tlFill 6) none, some (img 0), .clean) ∧ (Tab.get? s.strata.extents 6).map Extent.st = some .active)
    && (next (.sourceRetire (.pub 40)) (tiered (tp .t1 .none (some { kind := .fill, retiring := true }))) fun t => decide (moveOf t = none))) = true := by decide +kernel

/-- The premises of PAGE_GROUP_ENCODE for one page; coding 64 KiB is left to the proof. -/
theorem wit_PageEvents_encode : (let s := tiered (tp .t1 .dirty (mv .writeBack none))
    decide (s.runs = true ∧ s.noneInService 8 32 = false ∧ s.noneInService 0x28 8 = false ∧ moveOf s = mv .writeBack none)
    && (s.region? 0).isSome && decide ((Tab.get? s.home.pages 40).map Handle.rid = some 0)) = true := by decide +kernel

/-- A slot whose header is missing fails its checks. -/
theorem wit_PageEvents_decode : (let s := tiered { tp .t1 .clean none with image := some (img 1) }
    decide (s.noneInService 8 32 = false) && (readSlot 0 0 [] (s.classKey (.pub 40)) s.tableLive s.tableLens).isNone
    && decide (s.runs = true ∧ ((s.page? (.pub 40)).bind TierPage.image).isSome = true)) = true := by decide +kernel

/-- A page that is read from its TL copy. -/
theorem wit_PageEvents_tl : (let z := { tp .t1 .none none with image := some (img 1), tl := some 6, tlCopy := some { place := 0, ctr := 0, tableId := none, hdr := [], slots := [] } }
    let s := lentTo (lent .active 0) z
    decide (s.runs = true ∧ s.noneInService 8 32 = false ∧ (s.tlOf z).isSome = true ∧ z.t0 = .none ∧ s.page? (.pub 40) = some z)) = true := by decide +kernel

theorem wit_PageEvents_recovery : (let s := tiered { tp .none .clean none with recovering := true }
    decide (s.home.held = [] ∧ s.runs = true ∧ (s.page? (.pub 40)).map (fun q => (q.recovering, q.t0)) = some (true, .clean))) = true := by decide +kernel

theorem wit_PageEvents_scrub : (let s := tiered (tp .t1 .none none)
    let c := tiered (tp .t1 .clean none)
    decide (s.rel.errors = [] ∧ s.runs = true ∧ (s.page? (.pub 40)).map (fun q => (q.recovering, q.t0)) = some (false, .none)
      ∧ (c.page? (.pub 40)).map (fun q => (q.recovering, q.t0)) = some (false, .clean)) && (next (.scrub (.pub 40) 3 .clean) s fun t => decide (t.rel.errors = []))) = true := by decide +kernel

/-! ### Experts (11) -/

/-- A descriptor of the expert 3 in the context 1: FP8 weights, D_IN and D_FF 256, MAX_BATCH 4, MAX_WAIT 1 µs. -/
def edesc : List Nat := [1 + 256 + 4096 * 9 + 65536 * 9, 3 + 65536, 65536, 0, 0, 0, 0, 65536, 0, 256 + 65536 * 256, 0, 0, 4 + 65536] ++ List.replicate 19 0

/-- Region 0 with these words at the start of its page 0. -/
def holding (ws : List Nat) : State :=
  tiered { tp .none .dirty none with bytes := Mem.writeN [] 0 (bytesOf (ws.map (BitVec.ofNat 32))) }

/-- A lane on region 0 for EID 7, with one slot of counter 4 (key 65,540). -/
def lane0 (rm : Option BciReq) : Lane :=
  { key := 65536, rid := 0, slots := 16, slotBytes := 65536, eid := 7, sctx := 3, ctx := 1, ckeys := [65540], nextSeq := [0], busy := [true], removing := rm }

/-- A message of that lane with one entry of the expert 3. -/
def emsg (st : EntState) (rel : Bool) : ExpMsg :=
  { id := 61, lane := 0, slot := 0, eid := 7, sctx := 3, ctx := 1,
    words := [1 + 8 * 8388608 + 8 * 134217728, 0, 8192, 1 + 8192, 4096, 65536, 0, 0, 5, 65540, 65541, 0, 0, 0, 0, 0].map (BitVec.ofNat 32),
    entries := [{ expert := 3, row := 0, gate := 0x3F800000, arrived := 5, st := st, noted := false, out := [] }],
    reject := none, released := rel, dead := false, first := 5, dIn := 256, rowsDone := [], trailerSent := false }

/-- The counter 4 on region 0, and 5 for trailers. -/
def ectr : Counter := { gen := 1, rid := 0, eid := 5, ctx := 1, rgen := 1, bytes := 6, pkts := 1 }

/-- The controller with that descriptor, lane and message. -/
def expertly (st : EntState) (rel : Bool) : State :=
  let s := holding edesc
  { s with
    expert := { s.expert with descs := [(3, edesc.map (BitVec.ofNat 32))], lanes := [(0, lane0 none)], msgs := [emsg st rel] }
    home := { s.home with counters := [(4, ectr), (5, ectr)] } }

theorem wit_TokenBatches_counted : (let s := expertly .queued false
    let s : State := { s with expert := { s.expert with lanes := [], msgs := [] } }
    let q := { lmfq 64 2 with lseq := 9 }
    match s.accesses (.countedWrite q 65540 [1, 2]) q false true needW with
    | some (u, rid, rg) => decide (rid = 0 ∧ rg.mirror = 0 ∧ u.logFind (u.logKey q.dstEid q.srcEid q.ctx) 9 = none ∧ (Tab.get? u.home.counters 4) = some ectr)
        && next (.countedWrite q 65540 [1, 2]) s fun t => done t .ok [] && decide ((Tab.get? t.home.counters 4).map (fun c => (c.bytes, c.pkts)) = some (8, 2) ∧ t.pubBytes 0 64 2 = [1, 2])
    | none => false) = true := by decide +kernel

theorem wit_TokenBatches_set : (let r := req 0x70 [65536, 0, 0]
    let k := req 0x71 [3]
    let s := expertly .queued false
    decide (descriptorOk (edesc.map (BitVec.ofNat 32)) = true)
    && (asks (.expertSet r) { BciRow.o 0x70 3 with minor := some 2, resv := fun r => offResv r 2 } r (holding edesc)
      (fun i u => decide (u.ctxOk 1 = true ∧ u.expert.ssd = none ∧ u.expert.ssdHeld = []) && (u.weightsOf (edesc.map (BitVec.ofNat 32))).isSome && (u.opens r i 65536 0 128 needR).isSome)
      fun t => answered t [] && (t.expertOf 3).isSome)
    && (asks (.expertClear k) { BciRow.o 0x71 1 with minor := some 2, resv := fun r => above r 1 16 } k s (fun _ u => (u.expertOf 3).isSome)
      fun t => answered t [] && decide (t.expertOf 3 = none) && t.expert.msgs.all (fun m => m.ended))) = true := by decide +kernel

theorem wit_TokenBatches_lane : (let r := req 0x72 [65536, 16 + 256, 7, 3 + 65536, 65536, 128, 0]
    let s := holding edesc
    let k := req 0x73 [0]
    (asks (.laneAdd r) { BciRow.o 0x72 7 with minor := some 2, resv := fun r => bitAt (r.w 2) 7 || above r 2 19 || above r 3 18 || decide (fld (r.w 4) 15 12 ≠ 0) || above r 4 28 || offResv r 6 } r s
      (fun i u => (u.live (u.reqHome r) 65536).isSome && decide (u.ctxOk 1 = true) && (u.opens r i 65536 128 64 needW).isSome)
      fun t => answered t [0] && decide ((Tab.get? t.expert.lanes 0).map (fun l => [l.rid, l.slots, l.slotBytes, l.eid, l.sctx, l.ctx, l.ckeys.length]) = some [0, 16, 65536, 7, 3, 1, 16]))
    && (asks (.laneRemove k) { BciRow.o 0x73 1 with minor := some 2, resv := fun r => above r 1 12 } k (expertly .queued false) (fun _ u => decide (u.laneBusy 0 = false))
      fun t => answered t [] && decide (t.expert.lanes = []))) = true := by decide +kernel

theorem wit_TokenBatches_mode : (let s := expertly .queued false
    let on : State := { s with expert := { s.expert with ssd := some 1 } }
    let p := req 0x74 [5000]
    (asks (.expertPolicySet p) { BciRow.o 0x74 1 with minor := some 2 } p s (fun _ _ => true) fun t => answered t [] && decide (t.expert.dlMargin = 5000))
    && (asks (.ssdEnter (req 0x75 [1])) { BciRow.o 0x75 1 with minor := some 3, resv := fun r => above r 1 12 } (req 0x75 [1]) s
      (fun _ u => decide (u.expert.ssd = none ∧ u.ctxOk 1 = true ∧ (State.ssdSync { u with expert.ssd := some 1 }).r121 ≤ r121Limit)) fun t => answered t [] && decide (t.expert.ssd = some 1))
    && (asks (.ssdExit (req 0x76 [])) { BciRow.o 0x76 0 with minor := some 3 } (req 0x76 []) on (fun _ u => u.expert.ssd.isSome) fun t => answered t [] && decide (t.expert.ssd = none))) = true := by decide +kernel

theorem wit_TokenBatches_run : (let s := expertly .queued false
    let d := edesc.map (BitVec.ofNat 32)
    decide (s.runs = true ∧ s.expertOf 3 = some d ∧ s.expertDue 3 d = true) && (next (.maxWaitExpiry 3) s fun t => decide (t.expert.ready = [3]))
    && (let r : State := { s with expert := { s.expert with ready := [3] } }
        decide (r.now < hdDeadline (emsg .queued false).words ∧ r.coreFree 0 = true ∧ chooseExpert r.readyExperts = some (3, d) ∧ r.betterCore 0 1 3 = false
          ∧ r.expert.batches = [] ∧ r.bci.phase ≠ .switching) && (match r.weightsOf d with | some x => decide (r.weightsAbsent d x.1 = none) | none => false))) = true := by decide +kernel

theorem wit_TokenBatches_ends : (let s := expertly (.copied 70) true
    let b : MicroBatch := { id := 70, expert := 3, desc := edesc.map (BitVec.ofNat 32), core := 0, members := [(61, 0)], pages := [] }
    let s : State := { s with
      nextId := 100
      expert := { s.expert with batches := [b] }
      cores := [(0, { Core.reset with st := .running })] }
    decide (s.runs = true ∧ b.fail = none ∧ b.place = .core ∧ (s.core 0).st = .running ∧ s.home.held = [] ∧ s.expert.batches.find? (fun x => decide (x.id = 70)) = some b
      ∧ ((s.overlay 70 b.pages).meetWeights b.desc).2.2 = .clear)) = true := by decide +kernel

theorem wit_TokenBatches_trailer : (let m : ExpMsg := { emsg (.done .ok) true with rowsDone := [0] }
    let s := expertly .queued true
    let s : State := { s with expert := { s.expert with msgs := [m] } }
    decide (s.runs = true ∧ s.msg? 61 = some m ∧ m.ended = true ∧ m.nRes = 1 ∧ s.rope.lines = [] ∧ s.mirroring (.batch 61) = false ∧ s.isOwn (hdEid m.words) = true)
    && (match s.resultWrite m (.trailer 61) (wAt m.words 10) (dAt m.words 6 + m.nRes * rowStride m.dIn (hdOut m.words)) (trailerBytes m s.now) with | .ok _ => true | .error _ => false)
    && next (.trailerWrite 61) s fun t => decide (t.expert.msgs = [])) = true := by decide +kernel

/-! ### Traverse (12) -/

/-- Region 0 with words at places of its page 0. -/
def placed (l : List (Nat × List Nat)) : State :=
  tiered { tp .none .dirty none with bytes := l.foldl (fun (m : Mem) x => Mem.writeN m x.1 (bytesOf (x.2.map (BitVec.ofNat 32)))) [] }

/-- An index of FP32 vectors of 8 elements, one shard, its tree at 1,024 and its shard table at 512. -/
def ixWords : List Nat := [1, 8 + 8192 + 2097152, 1 + 8192, 1, 65536, 1024, 0, 65536, 512, 0] ++ List.replicate 22 0

/-- Its shard: at 262,144 of region 0, room for one node, a side list of 64 records. -/
def shWords : List Nat := [5, 65536, 262144, 0, 1, 0, 0, 64, 0, 0, 0, 0, 0, 0, 0, 0]

/-- A query: K and L 1, its vector at 2,048, its result at 4,096. -/
def qWords : List Nat := [1, 1, 0, 1 + 2048, 65536, 2048, 0, 65536, 4096, 0, 5] ++ List.replicate 21 0

/-- The index as INDEX_CREATE leaves it. -/
def ix0 : Index := { words := ixWords.map (BitVec.ofNat 32), epoch := 3, applied := 3, destroying := false }

/-- Its shard. -/
def sh0 : Shard := shardOf (ixWords.map (BitVec.ofNat 32)) 0 0 0 (shWords.map (BitVec.ofNat 32))

/-- Region 0 holding the tables, the query at 256, and a tree of one child. -/
def table : List (Nat × List Nat) := [(0, ixWords), (256, qWords), (512, shWords), (1024, [1])]

/-- The index with its shard. -/
def indexed (h : Shard) : State :=
  let s := placed table
  { s with trav := { s.trav with indexes := [(0, ix0)], shards := [(shKey 5 0 0, h)] } }

/-- A query of that index. -/
def qry : Query :=
  { id := 81, words := qWords.map (BitVec.ofNat 32), eid := 5, ctx := 1, started := false, epoch := 0, startTime := 0, startNo := 0, vec := [], beam := [], left := [],
    back := [], widened := false, hits := [], evals := 0, fails := 0, skips := 0, filtered := 0, tries := [], final := none, sent := false, pages := [] }

/-- `indexed` with a query. -/
def querying (q : Query) : State := { indexed sh0 with trav := { (indexed sh0).trav with queries := [q] } }

theorem wit_QueryCommands_create : (let r := req 0x80 [65536, 0, 0]
    asks (.indexCreate r) { BciRow.o 0x80 3 with minor := some 0, resv := fun r => offResv r 2 } r (placed table)
      (fun i u => (u.opens r i 65536 0 128 needR).isSome && decide (indexOk ix0.words = true ∧ u.ctxOk 1 = true ∧ shardOk (shWords.map (BitVec.ofNat 32)) = true
        ∧ u.shardFits 5 sh0 (u.ixIssuer 1) = some true) && (u.permit 5 65536 1024 64 needEW (u.ixIssuer 1)).isSome)
      fun t => answered t [0] && decide (t.index? 0 = some { ix0 with epoch := 0, applied := 0 } ∧ t.shard? 0 0 = some sh0)) = true := by decide +kernel

theorem wit_QueryCommands_register : (let q := { lmfq 0 0 with key := 65536 }
    let s := placed table
    let ws := (ixWords ++ shWords).map (BitVec.ofNat 32)
    match s.taken (.shardRegister q 2 0 ws) { q with key := 0 } true true with
    | some u => decide (u.shardFits q.dstEid (shardOf ix0.words 2 0 0 (shWords.map (BitVec.ofNat 32))) (LmfIssuer q) = some true)
        && next (.shardRegister q 2 0 ws) s fun t => done t .ok [] && Tab.has t.trav.shards (shKey 7 2 0)
    | none => false) = true := by decide +kernel

theorem wit_QueryCommands_query : (let r := req 0x82 [65536, 256, 0]
    let q := lmfq 0 80
    let l : BciReq := { src := .lmf { q with ctx := 1 }, words := (0x82 :: qWords).map (BitVec.ofNat 32) }
    let row : BciRow := { BciRow.f 0x82 3 with minor := some 0, resv := fun r => (match r.src with | .lmf _ => false | _ => offResv r 2) }
    let s := indexed sh0
    (asks (.trvQuery r) row r s (fun i u => decide (queryOk (qWords.map (BitVec.ofNat 32)) = true ∧ u.index? 0 = some ix0 ∧ ixType ix0.words ≠ 5)
        && (u.permit 5 65536 2048 (queryVecBytes ix0.words (qWords.map (BitVec.ofNat 32))) needR i).isSome) fun t => answered t [] && decide (t.trav.queries.length = 1))
    && (next (.trvQuery l) s fun t => decide (t.trav.queries.map Query.eid = [7]))) = true := by decide +kernel

/-- The reads of shard or tree data at this controller. -/
def rdOf (s : State) : Reader := s.usedReader 5 65536 needE (s.ixIssuer 1) (.own (s.ixIssuer 1))

/-- The result of work that reads. -/
def got {α : Type} (x : Rd α) (p : α → Bool) : Bool := match (runRd x Reads.none).1 with | .ok a => p a | .error _ => false

theorem wit_QueryCommands_start : (let q := { qry with pages := [(0, 0, 41)] }
    let s := querying q
    decide (s.runs = true ∧ s.query? 81 = some q ∧ s.index? q.ix = some ix0 ∧ s.noneInService 0x46 2 = false ∧ s.home.held = [] ∧ s.replay = none ∧ q.beam = [] ∧ q.reads = []
      ∧ capsRegion q.pages 65536 2048 = some 0 ∧ s.gateOf 0 = none)
    && (match (s.overlay 81 q.pages).region? 0 with | some rg => decide ((s.overlay 81 q.pages).meetRead 0 rg (.own q.issuer) 2048 32 = .clear) | none => false)
    && (match s.queryRead q ix0 with | .ok v => got (routeVec ix0.words (List.replicate 64 0) 1 (rdOf v)) (fun b => decide (b = [0])) | .error _ => false)
    && (next (.queryStart 81) s fun t => decide ((t.query? 81).map (fun q => (q.started, q.epoch, q.left)) = some (true, 3, [0])))) = true := by decide +kernel

/-- The query started, with a shard left, its returns in or not. -/
def walking (back : Tab (Status × List Hit)) : Query := { qry with started := true, epoch := 3, vec := List.replicate 64 0, beam := [0], left := [0], back := back }

theorem wit_QueryCommands_walk : (let s := querying (walking [])
    decide (s.isOwn sh0.home = true ∧ s.shard? 0 0 = some sh0)
    && got (shardReturns sh0 (rdOf s) (walking []).skip (walking []).prefetch (List.replicate 64 0) (walking []).l 3) (fun x => decide (x = ([], 0, 0)))
    && (next (.shardWalk 81 0) s fun t => decide ((t.query? 81).map Query.back = some [(0, (.ok, []))]))
    && (next (.shardWalkEnd 81 0 .ok { hits := [], evals := 0, skips := 0 }) (querying (walking [(0, (.ok, []))])) fun t => decide (t.trav.queries = []))) = true := by decide +kernel

theorem wit_QueryCommands_end : (let q : Query := { walking [] with final := some .ok, left := [], hits := [{ item := 9, attr := 0, dist := 0, shard := 0 }] }
    let s := querying q
    decide (s.payloadLacks q = [] ∧ s.home.held = [] ∧ q.pages = [] ∧ s.rope.lines = [] ∧ s.isOwn 5 = true ∧ (resultBlock q .ok s.now).length = 80)
    && (next (.payloadFetchEnd 81) s fun t => decide (t.trav.queries = [] ∧ (t.pubBytes 0 4096 8) = [0, 0, 0, 0, 1, 0, 0, 0]))) = true := by decide +kernel

/-- Two hits of one ITEM leave the closer one (R486). -/
theorem wit_QueryCommands_merge : (let h (i d n : Nat) : Hit := { item := i, attr := 0, dist := BitVec.ofNat 32 d, shard := n }
    decide (((mergeHits [h 4 0x40000000 0, h 5 0 1, h 4 0x3F800000 2]).map (fun x => (x.item, x.shard))) = [(4, 2), (5, 1)])) = true := by decide +kernel

/-- An update of the shard that waits. -/
def upd (app : Bool) : TrvUpdate :=
  { id := 91, r := req 0x84 [0, 9, 0, 0, 6], index := 0, shard := 0, epoch := 4, ins := false, item := 9, attr := 0, vec := [], lseq := 6, eid := 5, ctx := 1, appended := app }

theorem wit_IndexUpdates_take : (let n := req 0x83 [0, 9, 0, 0, 0, 65536, 2048, 0, 6]
    let d := req 0x84 [0, 9, 0, 0, 6]
    let s := indexed sh0
    (asks (.trvInsert n) { BciRow.f 0x83 9 with minor := some 0, resv := fun r => above r 1 8 || offResv r 7 } n s
      (fun i u => decide (u.index? 0 = some ix0 ∧ n.w 9 = 6 ∧ u.logFind (u.issuerLog n i) 6 = none) && (u.permit 5 65536 1024 64 needW i).isSome && (u.opens n i 65536 2048 32 needR).isSome)
      fun t => decide (t.trav.updates.map (fun u => (u.epoch, u.ins, u.item)) = [(4, true, 9)]))
    && (asks (.trvDelete d) { BciRow.f 0x84 5 with minor := some 0, resv := fun r => above r 1 8 || above r 4 12 } d s
      (fun i u => decide (u.logFind (u.issuerLog d i) 6 = none)) fun t => decide (t.trav.updates.map (fun u => (u.epoch, u.ins, u.item)) = [(4, false, 9)]))) = true := by decide +kernel

theorem wit_IndexUpdates_merge : (let row (op m : Nat) : BciRow := { BciRow.o op 2 with minor := some m, resv := fun r => above r 1 8 || above r 2 12 }
    (asks (.trvMerge (req 0x85 [0, 0])) (row 0x85 0) (req 0x85 [0, 0]) (indexed sh0) (fun _ u => decide (u.shard? 0 0 = some sh0)) fun t => accepted t && decide (((t.shard? 0 0).bind Shard.merge).isSome = true))
    && (asks (.trvMergeCancel (req 0x86 [0, 0])) (row 0x86 4) (req 0x86 [0, 0]) (indexed { sh0 with merge := some 7 }) (fun _ _ => true) fun t => answered t [] && decide (t.shard? 0 0 = some sh0))
    && (asks (.indexDestroy (req 0x81 [0])) { BciRow.o 0x81 1 with minor := some 0, resv := fun r => above r 1 8 } (req 0x81 [0]) (indexed sh0) (fun _ u => decide (u.trav.queries = []))
      fun t => answered t [] && decide (t.index? 0 = none))) = true := by decide +kernel

theorem wit_IndexUpdates_append : (let s : State := { indexed sh0 with trav := { (indexed sh0).trav with indexes := [(0, { ix0 with epoch := 4 })], updates := [upd false] } }
    decide (s.runs = true ∧ s.rope.lines = [] ∧ s.trav.updates.find? (fun y => decide (y.id = 91)) = some (upd false))
    && (next (.sideListAppend 91) s fun t => decide ((t.shard? 0 0).map Shard.tail = some 1 ∧ t.trav.updates = []))
    && (match s.putAll sh0 (.batch 91) [(sh0.sideAt 0, (upd false).record sh0)] with | .ok v => decide (v.mirroring (.batch 91) = false) | .error _ => false)
    && (let f : State := { s with trav := { s.trav with shards := [(shKey 5 0 0, { sh0 with home := 7 })] } }
        decide (f.isOwn 7 = false) && next (.sideListAppend 91) f fun t => decide (t.trav.updates.map TrvUpdate.written = [true]))
    && (let w : State := { s with trav := { s.trav with updates := [{ upd false with written := true }] } }
        decide (w.mirroring (.batch 91) = false ∧ w.txnLive (fun x => decide (x = .append 91)) = false) && next (.sideListAppend 91) w fun t => decide (t.trav.updates = []))) = true := by decide +kernel

/-- The side list's first record: the vector of zeros, inserted at epoch 4, or deleted. -/
def listed (op : Nat) (h : Shard) : State :=
  let s := indexed h
  match s.region? 0 with
  | some _ => s.writeRange 0 .direct (h.sideAt 0) ({ op := op, linked := false, item := 9, attr := 0, epoch := 3, node := 0, vec := List.replicate 64 0 : SideRec }.bytes h.desc)
  | none => s

theorem wit_IndexUpdates_fold : (let h : Shard := { sh0 with merge := some 7, mergeTo := 3, tail := 1 }
    let far : Shard := { h with home := 7 }
    (next (.mergeRecord 0 0) (indexed { h with tail := 0 }) fun t => decide ((t.shard? 0 0).map Shard.merge = some none))
    && (next (.mergeRecord 0 0) (indexed far) fun t => decide (t.lmf.tags.length = 1 ∧ t.shard? 0 0 = some far))
    && got (readSide h (rdOf (listed 1 h)) 0) (fun x => decide (x.op = 1 ∧ x.epoch = 3))
    && (next (.mergeRecord 0 0) (listed 1 { h with mergeTo := 2 }) fun t => decide ((t.shard? 0 0).map Shard.merge = some none))
    && (next (.mergeRecord 0 0) (listed 1 h) fun t => decide ((t.shard? 0 0).map (fun y => (y.count, y.linkTimes.length)) = some (1, 1)))
    && got (readSide h (rdOf (listed 2 h)) 0) (fun x => decide (x.op = 2))
    && (next (.mergeRecord 0 0) (listed 2 h) fun t => decide ((t.shard? 0 0).map (fun y => (y.count, y.linkTimes.length)) = some (0, 1)))) = true := by decide +kernel

theorem wit_IndexUpdates_retire : (let h : Shard := { sh0 with tail := 1, linkTimes := [(0, 0)] }
    let c : Shard := { sh0 with merge := some 7, cap := 2, count := 2, entry := 1 }
    (next (.recordRetire 0 0 0) (indexed h) fun t => decide ((t.shard? 0 0).map (fun y => (y.head, y.linkTimes.length)) = some (1, 0)))
    && got (reclaimSlot c 0 (rdOf (indexed c))) (fun x => decide (x.1 ≠ 2 ^ 64 - 1))
    && (next (.slotReclaim 0 0 0) (indexed c) fun t => decide ((t.shard? 0 0).map (fun y => y.freeSlots.map Prod.fst) = some [0]))) = true := by decide +kernel

/-! ### Moraine (13) -/

/-- A table of four FP32 rows of 8 elements at 8,192. -/
def etWords : List Nat := [1, 8, 2, 0, 4, 0, 0, 0, 1, 65536, 0, 0, 8192, 0, 4] ++ List.replicate 17 0

/-- A gather of row 1 into one bag, with its input at 2,048 and its output at 4,096. -/
def mbWords (op : Nat) : List Nat := [1 + 256 * op, 0, 0, 1, 1, 1, 65536, 2048, 0, 65536, 4096, 0, 5, 0, 0, 0, 0, 9 * op] ++ List.replicate 14 0

/-- The table as EMB_TABLE_CREATE leaves it. -/
def et0 : EmbTable := { words := etWords.map (BitVec.ofNat 32), tgen := 1, paused := false, next := [], swapOp := 0, drain := [], drained := 0 }

/-- A batch of it. -/
def bat (op : Nat) (run : Option Nat) : Batch :=
  { id := 95, words := (mbWords op).map (BitVec.ofNat 32), eid := 5, ctx := 1, log := 5 * 4096 + 1, running := run, start := 0, table := et0.words, tgen := 1, pages := [], final := none,
    counts := [0, 0, 0, 0], blockSent := false }

/-- The table, the batch and the data. -/
def embedded (t : EmbTable) (bs : List Batch) : State :=
  let s := placed [(0, etWords), (256, mbWords 0), (384, mbWords 1), (2048, [1, 0]), (2112, [0, 1]), (8224, [0x3F800000])]
  { s with mor := { s.mor with tables := [(0, t)], batches := bs } }

theorem wit_EmbeddingCommands_table : (let c := req 0x90 [65536, 0, 0]
    let d := req 0x91 [0]
    let w := req 0x93 [0, 65536, 0, 0]
    let swap : BciRow := { BciRow.o 0x93 4 with minor := some 4, resv := fun r => above r 1 10 || offResv r 3 }
    let none' : State := { embedded et0 [] with mor := { (embedded et0 []).mor with tables := [] } }
    (asks (.embTableCreate c) { BciRow.o 0x90 3 with minor := some 0, resv := fun r => offResv r 2 } c none'
      (fun i u => decide (u.tableCheck et0.words = none) && (u.opens c i 65536 0 128 needR).isSome) fun t => answered t [0] && decide (t.mor.tables = [(0, et0)]))
    && (asks (.embTableDestroy d) { BciRow.o 0x91 1 with minor := some 0, resv := fun r => above r 1 10 } d (embedded et0 []) (fun _ u => decide (Tab.get? u.mor.tables 0 = some et0))
      fun t => answered t [] && decide (t.mor.tables = []))
    && (asks (.embSwap w) swap w (embedded et0 []) (fun i u => decide (u.tableCheck et0.words = none) && (u.opens w i 65536 0 128 needR).isSome)
      fun t => accepted t && decide ((Tab.get? t.mor.tables 0).map (fun y => (y.tgen, y.paused)) = some (2, false)))
    && (asks (.embSwap w) swap w (embedded et0 [bat 0 none]) (fun _ _ => true) fun t => accepted t && decide ((Tab.get? t.mor.tables 0).map (fun y => (y.tgen, y.paused)) = some (1, true)))) = true := by decide +kernel

theorem wit_EmbeddingCommands_batch : (let g := req 0x92 [65536, 256, 0]
    let sc := req 0x92 [65536, 384, 0]
    let row : BciRow := { BciRow.f 0x92 3 with minor := some 0, resv := fun r => (match r.src with | .lmf _ => false | _ => offResv r 2) }
    let ok (op : Nat) (i : Issuer) (u : State) : Bool :=
      let ws := (mbWords op).map (BitVec.ofNat 32)
      decide (batchOk ws = true ∧ mbTable ws = 0) && (u.withRight (etKey et0.words) needE i).isSome && (u.permit 5 65536 2048 (mbParts ws 8).2.2.2 needR i).isSome
    (asks (.morBatch g) row g (embedded et0 []) (ok 0) fun t => answered t [] && decide (t.mor.batches.map Batch.words = [(mbWords 0).map (BitVec.ofNat 32)]))
    && (asks (.morBatch sc) row sc (embedded et0 []) (fun i u => ok 1 i u && decide (u.logFind (u.issuerLog sc i) 9 = none)) fun t => answered t [] && decide (t.mor.batches.length = 1))) = true := by decide +kernel

theorem wit_EmbeddingCommands_start : (let s := embedded et0 [bat 0 none]
    let p := embedded { et0 with paused := true } [bat 0 none]
    let again := embedded et0 [{ bat 0 none with start := 4 }]
    decide (s.runs = true ∧ s.batch? 95 = some (bat 0 none) ∧ s.batchHeld 95 = false ∧ s.batchBehind (bat 0 none) = false ∧ (s.unit (morUnit 0)).quarantined = false ∧ (s.unit (morUnit 0)).asked = false)
    && (next (.batchStart 0 95) s fun t => decide (t.mor.batches.map (fun b => (b.running, b.start)) = [(some 0, s.now)])) && stays (.batchStart 0 95) p
    && (next (.batchStart 0 95) again fun t => decide (t.mor.batches.map (fun b => (b.running, b.start)) = [(some 0, 4)]))) = true := by decide +kernel

/-- The batch with its input not read yet (its page is captured), or read. -/
def batIn (op : Nat) (read : Bool) : Batch :=
  { bat op (some 0) with pages := [(0, 0, 41)], input := if read then some (0, Mem.readN ((embedded et0 []).home.pages.flatMap (fun e => e.2.pub.bytes)) (2048) (mbParts (bat op none).words 8).2.2.2) else none }

/-- The input's premises: the batch runs, and its captured range can be read. -/
def inputFree (op : Nat) : Bool :=
  let b := batIn op false
  let s := embedded et0 [b]
  let n := (mbParts b.words 8).2.2.2
  decide (s.runs = true ∧ s.mor.batches.find? (fun y => decide (y.running = some 0)) = some b ∧ s.batch? 95 = some b ∧ b.work = .fetch ∧ b.reads = Reads.none
    ∧ capsRegion b.pages 65536 2048 = some 0)
  && (match (s.overlay 95 b.pages).region? 0 with
    | some rg => decide ((s.overlay 95 b.pages).gate 0 rg = none ∧ (s.overlay 95 b.pages).meetRead 0 rg (.own b.issuer) 2048 n = .clear)
    | none => false)

theorem wit_EmbeddingCommands_input : (inputFree 0 && inputFree 1) = true := by decide +kernel

theorem wit_EmbeddingCommands_gather : (let b := batIn 0 true
    let s := embedded et0 [b]
    decide (s.isOwn b.outEid = true ∧ s.gateOf 0 = none)
    && (match b.input with
      | some (k, bs) => got (fetchAll b.table (s.usedReader 5 (etKey b.table) needR (s.etIssuer b.table) (.own (s.etIssuer b.table))) (inputOf b.words 8 k bs).idx) (fun fs => decide (fs.length = 1))
      | none => false)
    && next (.batchEnd 0) s fun t => decide (t.mor.batches = [])) = true := by decide +kernel

theorem wit_EmbeddingCommands_scatter : (let b := batIn 1 true
    let s := embedded et0 [b]
    decide (mbScatter b.words = true)
    && (match b.input with
      | some (k, bs) => got (fetchAll b.table (s.usedReader 5 (etKey b.table) needR (s.etIssuer b.table) .pub) (inputOf b.words 8 k bs).idx)
          (fun fs => decide ((scatterTargets b.words b.table (inputOf b.words 8 k bs) fs).length = 1))
      | none => false)
    && next (.batchEnd 0) s fun t => decide (t.mor.batches = [])) = true := by decide +kernel

/-! ### The compute queue, registers, and every command (14, 15) -/

/-- The kernel descriptor of `kr`. -/
def kwords : List Nat := [1, 1, 65536, 0, 0, 1024, 0, 1, 9] ++ List.replicate 17 0 ++ [65536, 4096, 0, 0, 0, 0]

/-- A compute queue of 64 entries at the start of region 0, with one entry to take: the descriptor at 256, or an entry of opcode 0. -/
def ringed (ws : List Nat) : State :=
  let s := placed [(0, ws), (256, kwords)]
  { s with host := { s.host with
      ports := [(0, { HostPort.reset with up := true })]
      fns := Tab.set s.host.fns 0 { s.fnWin 0 0 with en := true, lKey := 65536, lOff := 0, lLog2 := 6, head := 0, tail := 1 } } }

theorem wit_ComputeQueues_take : (let s := ringed [1, 65536, 256, 0]
    let i : Issuer := { eid := 5, ctx := 1, admin := false }
    decide (s.runs = true ∧ s.replayOf = none ∧ (s.fnWin 0 0).head ≠ (s.fnWin 0 0).tail ∧ s.bci.phase ≠ .switching ∧ s.home.held = [] ∧ s.boundCtx 0 0 = some 1 ∧ s.ctxOk 1 = true)
    && (match s.queueRead 0 i 65536 0 16 with
      | .ok (u, e) => decide (wAt e 0 = 1 ∧ dAt e 2 = 256) && (match u.queueRead 0 i (wAt e 1) (dAt e 2) 128 with | .ok (v, ws) => decide ((v.headPast 0).kernelCheck ws = none) | .error _ => false)
      | .error _ => false)
    && (next (.cqEntryTake 0) s fun t => decide (t.kernels.map KernelQ.words = [kwords.map (BitVec.ofNat 32)] ∧ (t.fnWin 0 0).head = 1))
    && (match (ringed []).queueRead 0 i 65536 0 16 with | .ok (_, e) => decide (wAt e 0 = 0) | .error _ => false)
    && (next (.cqEntryTake 0) (ringed []) fun t => decide ((t.fnWin 0 0).errStatus = Status.notSupported.code))) = true := by decide +kernel

theorem wit_RegisterAccess : (decide (linked.spaceUp (.fn 0 0) = true ∧ linked.spaceUp .mgmt = true)
    && (next (.readClear .mgmt 0x484 0) linked fun t => decide (t.time.stepped = false))
    && (stays (.registerWrite (.fn 0 0) 0x044 7) linked) && (next (.registerWrite (.fn 0 0) 0x204 9) linked fun t => decide (t.readReg (.fn 0 0) 0x204 = 9))
    && (next (.registerWrite .mgmt 0x404 0xFFFFFFFF) linked fun t => decide (t.readReg .mgmt 0x404 = 0x3FFF))
    && (next (.registerWrite .mgmt 0x480 0xFFFFFFFF) linked fun t => decide (t.readReg .mgmt 0x480 = 0x3FF))) = true := by decide +kernel

theorem test_step_front : (match step { base with pending := [.idcode, .clamp] } with | .next t => decide (t.pending = [.clamp] ∧ t.out = [.tdo 0x0A7211CB]) | _ => false) = true := by
  decide +kernel

/-- An empty queue lets the machine go on by itself; the state after reset has no work. -/
theorem test_step_idle : (match step State.reset with | .next t => decide (t.pending = [] ∧ t.out = []) | _ => false) = true := by decide +kernel

theorem wit_EveryCommandRuns : (next .idcode State.reset (fun _ => true) && next (.bypass 4) State.reset (fun _ => true)) = true := by decide +kernel

theorem wit_ExecLeavesQueue : (next .idcode { base with pending := [.clamp] } fun t => decide (t.pending = [.clamp])) = true := by decide +kernel

theorem wit_FusesAreKept : (next .standbySync { base with bci := { base.bci with phase := .syncing, standby := false, activating := some 0, slots := [(0, { st := 1, fwVer := 0, svn := 5, keySlot := 0, commitSvn := true })] } }
    fun t => decide (base.sec.svnMin < t.sec.svnMin ∧ t.sec.revoked = base.sec.revoked ∧ t.sec.debug = base.sec.debug)) = true := by decide +kernel

theorem wit_StepKeepsSound : (match step { base with pending := [.pkgRstAssert] } with | .next t => decide (t.pkg.rstN = false) | _ => false) = true := by decide +kernel

/-! ### Ill-formed terms (22 to 26): each check refuses one -/

/-- A request that each check lets pass. -/
def lmfOk : LmfReq := lmfq 0 64

theorem wf_lmfReq : ((Instr.lmfLoad lmfOk).wf && [{ lmfOk with port := 32 }, { lmfOk with dstEid := 262144 }, { lmfOk with srcEid := 262144 }, { lmfOk with srcInc := 4294967296 },
    { lmfOk with tag := 131072 }, { lmfOk with gen := 128 }, { lmfOk with level := 4 }, { lmfOk with retry := 16 }, { lmfOk with ctx := 4096 }, { lmfOk with key := 4294967296 },
    { lmfOk with offset := 18446744073709551616 }, { lmfOk with ptrHi := 4 }, { lmfOk with limit := 18446744073709551616 }].all (fun q => !(Instr.lmfLoad q).wf)) = true := by decide +kernel

theorem wf_bciReq : ((Instr.fwInfo (req 0xA2 [])).wf && [{ req 0xA2 [] with words := [] }, { req 0xA2 [] with words := List.replicate 33 0 }, { req 0xA2 [] with src := .fn 4 0 },
    { req 0xA2 [] with src := .fn 0 256 }, { req 0xA2 [] with src := .lmfBci { lmfOk with port := 32 } }, { req 0xA2 [] with src := .lmf { lmfOk with tag := 131072 } },
    { req 0xA2 [] with src := .mgmt 2 }].all (fun r => !(Instr.fwInfo r).wf)) = true := by decide +kernel

/-- A header and the operand fields of each format that each check lets pass. -/
def hOk : SlotHdr := hdr 0
def sOk : SFmt := sf 1 2 3 4 5 6 0
def vOk : VFmt := vf 1 2 3 4 5 6 7

theorem wf_slots : ((Instr.add hOk sOk).wf && [{ hOk with core := 4 }, { hOk with slot := 8 }, { hOk with pred := 16 }].all (fun h => !(Instr.add h sOk).wf)
    && [{ sOk with rd := 64 }, { sOk with ra := 64 }, { sOk with rb := 64 }, { sOk with rc := 64 }, { sOk with type := 16 }, { sOk with sub := 256 }].all (fun f => !(Instr.add hOk f).wf)
    && (Instr.vadd hOk vOk).wf && [{ vOk with vd := 64 }, { vOk with va := 64 }, { vOk with vb := 64 }, { vOk with vc := 64 }, { vOk with pd := 64 }, { vOk with type := 16 },
      { vOk with type2 := 16 }, { vOk with sub := 256 }, { vOk with xs := 64 }].all (fun f => !(Instr.vadd hOk f).wf)) = true := by decide +kernel

theorem wf_formats : (let l : LFmt := lf 1 2 3 4 5 6 0
    let m : MFmt := mf 1 2 3 4 5 6 7
    let c : CFmt := cf 1 2 3 4 0
    (Instr.vld hOk l).wf && [{ l with vd := 64 }, { l with ra := 64 }, { l with rb := 64 }, { l with rc := 64 }, { l with re := 64 }, { l with sub := 256 }, { l with type := 16 }].all (fun f => !(Instr.vld hOk f).wf)
    && (Instr.mma hOk m).wf && [{ m with acc := 4 }, { m with md := 16 }, { m with ma := 16 }, { m with mb := 16 }, { m with ra := 64 }, { m with rb := 64 }, { m with sub := 256 }].all (fun f => !(Instr.mma hOk f).wf)
    && (Instr.br hOk c).wf && [{ c with ra := 64 }, { c with rb := 64 }, { c with rc := 64 }, { c with sub := 256 }].all (fun f => !(Instr.br hOk f).wf)) = true := by decide +kernel

theorem wf_names : ([Domain.core 4, .talus 2, .trv 4, .mor 4, .mem 2, .fab 2, .bc 2].all (fun d => !(Instr.gateTimeout d).wf) && (Instr.gateTimeout .aon).wf
    && [RegSpace.fn 4 0, .fn 0 256, .bar2 4].all (fun s => !(Instr.readClear s 0 0).wf) && (Instr.readClear .mgmt 0 0).wf && !(Instr.readClear .mgmt 65536 0).wf
    && [Peer.doe 4, .mgmt 2, .lmf 262144 0, .lmf 0 4294967296, .fm 262144].all (fun p => !(Instr.getVersion p).wf) && (Instr.getVersion .mctp).wf) = true := by decide +kernel

theorem wf_numbers : [Instr.cxlMemRead 4 0, .countedWrite lmfOk 4294967296 [], .rdShared lmfOk 64, .microBatchDispatch 4, .shardWalk 0 4096, .batchStart 4 0, .mbxMsgWrite 0 0 16 0,
    .mergeRecord 256 0, .recordRetire 0 0 4294967296, .lmfCompletion 131072 0 .ok [] false, .homeTimeout 65536 0, .ctxResetEnd 4096, .slotDecode (.pub 0) 16 none,
    .scrub (.pub 0) 1024 .clean, .maxWaitExpiry 16384, .quarantineEffect 512, .getDigests (.doe 4), .getCertificate .mctp 8, .linkDown 32, .announce 2 0 0, .vfEnable 0 256, .hdmUncommit 0 32,
    .driveLinkLoss 12, .dimmTemp 16 0 true, .dimmTemp 0 2 true, .railPgTimeout 8 0, .refclkLoss 2, .bypass 256, .regRead 65536, .doeRequest 4 0].all (fun c => !c.wf) = true := by decide +kernel

/-! ### Frames -/

theorem wit_MemoryFrames : (let fresh (s : State) : Bool := s.home.pages.all (fun e => decide (e.1 < s.home.nextHandle))
    let s : State := { tiered (tp .none .dirty none) with home := { (tiered (tp .none .dirty none)).home with nextHandle := 41 } }
    let p : State := { shadowed with home := { shadowed.home with nextHandle := 41 } }
    let st (s : State) (m : Mode) : Bool := match s.accesses (.lmfStore (lmfq 64 2) [1, 2]) (lmfq 64 2) false true needW with
      | some (u, rid, rg) => fresh u && decide (rg.mode = m ∧ u.meetWrite rid rg (.shadowed (LmfIssuer (lmfq 64 2))) 64 2 = .clear)
      | none => false
    st s .priv && st p .publish && fresh windowed && (s.accesses (.lmfLoad (lmfq 64 4)) (lmfq 64 4) false false needR).isSome
    && (next (.lmfStore (lmfq 64 2) [1, 2]) s fun t => decide ((t.page? (.pub 40)).map (fun x => (Mem.read x.bytes 2, Mem.read x.bytes 64)) = some (8, 1)))
    && (next (.lmfStore (lmfq 64 2) [1, 2]) p fun t => decide ((t.page? (.pub 40)).map (fun x => (Mem.read x.bytes 0, Mem.read x.bytes 64)) = some (5, 0)))
    && (match (asked rAtomic s).ready (.atomic rAtomic) { BciRow.f 80 13 with dl := true, resv := fun r => offResv r 2 || above r 4 13 } rAtomic with
      | some (_, u) => fresh u
      | none => false)) = true := by decide +kernel

theorem wit_EventFrames : ([Instr.timeSync 0 1 2 3, .getVersion .mctp, .cqEnable 0, .gateTimeout .aon].all fun c => next c base fun _ => true)
    && (timeEvent .ptpFallback && spdmRequest (.getDigests .mctp) && windowEvent (.cqDisable 0)) = true := by decide +kernel

end Sys2Proof.Tests
end

/-! PROOF. O31: MLOAD of a row that crosses the end of its kernel's pin (R389, R217): the row as a whole is read as the context sees it, and each of its lines is
then judged for poison through the pin, so a row that reads clear need not land. -/

namespace Sys2Proof.Machine

/-- A tier page that T0 holds dirty, with one byte and the given poisoned lines. -/
def pinEdgePage (cell : Host.Cell) (poison : List Nat) : TierPage :=
  { bytes := [cell], poison := poison, recovering := false, backing := .t1, t0 := .dirty, tl := none, heat := 0, stamp := 0, touch := 0, charge := 0, move := none,
    image := none }

/-- A publish-mode region of two pages that context 1 of EID 5 may read: page 0 is handle 40, page 1 is not allocated. -/
def pinEdgeRegion : Region :=
  { gen := 1, draining := false, base := 0, size := 131072, mode := .publish, policy := { place := .auto, lent := false }, talus := false, encrypt := false,
    mirror := 0, mirrorDone := false, absentFault := false, absent0 := false, creator := 1, version := 2,
    grants := [{ eid := 5, ctx := 1, any := false, rights := needR }],
    entries := [(0, .leaf 40 false 0 1)], excl := [], table := none, tkey := 0, tkeyOld := none, dkey := 0 }

/-- Page 0: version 2 is published and holds 7 at byte 65,528; version 1, which a pin keeps, has lost its last line. -/
def pinEdgeHandle : Handle :=
  { rid := 0, pageNo := 0, mapped := true, ver := 2, pub := pinEdgePage (65528, 7) [], shadows := [], olds := [(1, pinEdgePage (65528, 6) [1023])],
    refs := [pinHolder 77] }

/-- Context 1's pin 77 of page 0 at version 1. -/
def pinEdgePin : Pin := { eid := 5, ctx := 1, rid := 0, off := 0, len := 65536, version := 1, pages := [(0, 1, 41)] }

/-- A kernel of context 1 with PIN_ID 77 and 64 KiB of tile store. -/
def pinEdgeKernel : KernelRun :=
  { id := 1, words := [0, 1, 65536, 0, 0, 1024, 0, 1] ++ List.replicate 18 0 ++ [65536, 4096, 0, 77], port := none, pages := [], tsKept := false, lineMode := false,
    pos := 128, seq := 1, start := 0, started := true, suspends := 0, st := .ok, exc := 0, engine := 0, bundle := 0, stalledOn := 0, stalledAt := 0 }

/-- The matrix engine's slot of core 0. -/
def pinEdgeHdr : SlotHdr := { core := 0, slot := 4, pred := 0, pneg := false }

/-- MLOAD of M1 from the pair X2, X3, row after row at the distance X0. -/
def pinEdgeFmt : MFmt := { acc := 0, md := 1, ma := 0, mb := 0, ra := 2, rb := 0, sub := 0 }

/-- M1 is one row of two doublewords at tile-store byte 64; X2 and X3 name offset 65,528 of the region, 8 bytes before the pin ends. -/
def pinEdgeRegs : RegFile :=
  { RegFile.zero with
    x := [(2, 65528), (3, 0x0001000000000005)]
    m := [(1, BitVec.ofNat 128 (1 + 1 * 2 ^ 48 + 1 * 2 ^ 64 + 3 * 2 ^ 80))] }

/-- The tile that M1 describes. -/
def pinEdgeTile : Tile := { base := 64, rows := 1, cols := 2, step := 64, type := 3, len := 16 }

theorem pinEdge_len : pinEdgeTile.len = 16 := rfl

/-- The MLOAD in its queue. -/
def pinEdgeSlot : QSlot := { cmd := .mload pinEdgeHdr pinEdgeFmt, regs := RegFile.zero, frm := none, flags := none, bundle := 0, seq := 0 }

/-- The controller, EID 5, with that kernel on core 0 and the MLOAD at the front of the matrix engine's queue. -/
def pinEdgeState : State :=
  { State.reset with
    lmf := { Lmf.reset with eid := 5, inc := 1, joined := true }
    home := { Home.reset with regions := [(0, pinEdgeRegion)], gens := [(0, 1)], pages := [(40, pinEdgeHandle)], nextHandle := 41, pins := [(77, pinEdgePin)], nextPin := 78 }
    cores := [(0, { Core.reset with
      st := .running
      kernel := some pinEdgeKernel
      regs := pinEdgeRegs
      queues := [(engineOf pinEdgeSlot.cmd, [pinEdgeSlot])] })] }

/-- The MLOAD is free to go. -/
theorem pinEdge_slotGo :
    pinEdgeState.slotGo (.mload pinEdgeHdr pinEdgeFmt) = some (pinEdgeHdr, pinEdgeKernel, pinEdgeSlot, mergeRegs RegFile.zero pinEdgeRegs) := by
  decide +kernel

/-- The row reaches beyond the pin, so it is read as the context sees it. -/
theorem pinEdge_kernelView : pinEdgeState.kernelView pinEdgeKernel 0 65528 16 = .own { eid := 5, ctx := 1, admin := false } := by
  decide +kernel

/-- So seen, the row as a whole meets nothing. -/
theorem pinEdge_meetRead :
    (pinEdgeState.setCore 0 ((pinEdgeState.core 0).save pinEdgeSlot)).meetRead 0 pinEdgeRegion (.own { eid := 5, ctx := 1, admin := false }) 65528 16 = .clear := by
  decide +kernel

/-- The context's row holds the published 7 first. -/
theorem pinEdge_readRange :
    pinEdgeState.readRange pinEdgeRegion (.own { eid := 5, ctx := 1, admin := false }) 65528 16 = 7 :: List.replicate 15 0 := by
  decide +kernel

/-- The row's first line does not land: the tile store stays zero and the kernel ends with POISON. -/
theorem pinEdge_exec :
    (match exec (.mload pinEdgeHdr pinEdgeFmt) pinEdgeState with
      | .next t => decide (t.tileRead 0 64 16 = List.replicate 16 0 ∧ (t.core 0).kernel.map KernelRun.exc = some 7)
      | _ => false) = true := by
  decide +kernel

/-- Row 0 starts at the pair's offset. -/
theorem pinEdge_rowAt : (((65528 : Nat) : Int) + ((0 : Nat) : Int) * ((mergeRegs RegFile.zero pinEdgeRegs).xr pinEdgeFmt.rb).toInt).toNat = 65528 := by
  simp

/-- Refutes O31: its MLOAD clause asks only that each row, as a whole, is read clear. A row that crosses the end of the kernel's pin is read as the context
sees it, but each of its lines is judged through the pin where the pin covers the line; here the pinned version's line is poisoned, so the MLOAD raises
POISON and the row's first eight bytes, which the context reads without fault, do not land. -/
theorem not_matrixResults : ¬ Obligations.MatrixResults := by
  unfold Obligations.MatrixResults
  intro holds
  obtain ⟨-, load, -⟩ := holds pinEdgeState pinEdgeHdr pinEdgeKernel pinEdgeSlot (mergeRegs RegFile.zero pinEdgeRegs) pinEdgeFmt (by decide +kernel)
  obtain ⟨t, hexec, hrows, -⟩ := load pinEdgeTile 5 65536 65528 0 pinEdgeRegion pinEdge_slotGo rfl (by decide +kernel) (by decide +kernel) (by decide +kernel)
    (by decide +kernel) (by decide +kernel) (by decide +kernel)
    (by
      intro i hi
      obtain rfl : i = 0 := Nat.lt_one_iff.mp hi
      refine ⟨by decide +kernel, by decide +kernel, by decide +kernel, by decide +kernel, ?_⟩
      rw [pinEdge_rowAt, pinEdge_len, pinEdge_kernelView]
      exact pinEdge_meetRead)
    (by decide +kernel) (by decide +kernel)
  have hread := hrows 0 Nat.zero_lt_one
  rw [pinEdge_rowAt, pinEdge_len, pinEdge_kernelView, pinEdge_readRange] at hread
  have hleft := pinEdge_exec
  rw [hexec] at hleft
  obtain ⟨hzero, -⟩ := of_decide_eq_true hleft
  exact absurd (hread.symm.trans hzero) (by decide)

end Sys2Proof.Machine

/-! PROOF. O44: switchover and firmware update (14). How a request that is ready reaches its command; which part of the firmware's state the controller's records
leave as it is; then the events and the commands, one lemma each. -/

namespace Sys2Proof.Machine

/-! ### A request that is ready -/

/-- A request that is no repeat and is admitted runs its command. -/
theorem State.onChannel_of_admit {u : State} {cmd : Instr} {c : Nat} {row : BciRow} {r : BciReq} {body : Issuer → State → Result} {i : Issuer}
    (hnew : (decide ((u.channel c).lastSeq = some r.seq) && decide ((u.channel c).lastOp = r.opcode)) = false)
    (hadmit : u.bciAdmit row r (if row.op = 1 then some (3, 4) else (u.channel c).session) (u.channel c).wasOwner = .ok i) :
    u.onChannel cmd c row r body = body i u := by
  unfold State.onChannel
  rw [if_neg (by simp at hnew; tauto)]
  simp only [hadmit]

/-- A ready request comes to a package that runs, outside a switchover. -/
theorem State.ready_runs {s u : State} {cmd : Instr} {row : BciRow} {r : BciReq} {i : Issuer} (h : s.ready cmd row r = some (i, u)) :
    s.runs = true ∧ s.bci.phase ≠ .switching := by
  unfold State.ready at h
  split at h
  case isFalse => cases h
  rename_i hup
  simp only [Bool.and_eq_true, decide_eq_true_eq] at hup
  exact ⟨hup.1.1, hup.2⟩

/-- A ready request over a function's channel: GO has handed it to firmware, it is no repeat, and it is admitted (R555 to R565). -/
theorem State.ready_fn {s u : State} {cmd : Instr} {row : BciRow} {r : BciReq} {i : Issuer} {p f : Nat} (hsrc : r.src = .fn p f)
    (h : s.ready cmd row r = some (i, u)) :
    ∃ c, (s.fnWin p f).chan = some c ∧ s.fnEnabled p f = true ∧ (s.channel c).busy = some r.words ∧ (s.channel c).handed = true
      ∧ (decide ((s.channel c).lastSeq = some r.seq) && decide ((s.channel c).lastOp = r.opcode)) = false
      ∧ u = s.setChannel c { s.channel c with handed := false }
      ∧ u.bciAdmit row r (if row.op = 1 then some (3, 4) else (s.channel c).session) (s.channel c).wasOwner = .ok i := by
  unfold State.ready at h
  split at h
  case isFalse => cases h
  simp only [hsrc] at h
  split at h
  · cases h
  rename_i c hchan
  split at h
  case isFalse => cases h
  rename_i hc
  simp only [Bool.and_eq_true, decide_eq_true_eq, Bool.not_eq_true'] at hc
  obtain ⟨⟨⟨hen, hbusy⟩, hhanded⟩, hnew⟩ := hc
  split at h
  case h_2 => cases h
  rename_i j hadmit
  cases h
  exact ⟨c, hchan, hen, hbusy, hhanded, hnew, rfl, hadmit⟩

/-- A ready LMF BCI request: it passes the arrival checks, its channel is free, it is no repeat, and it is admitted. -/
theorem State.ready_lmfBci {s u : State} {cmd : Instr} {row : BciRow} {r : BciReq} {i : Issuer} {q : LmfReq} (hsrc : r.src = .lmfBci q)
    (h : s.ready cmd row r = some (i, u)) :
    ∃ v c, s.sourced q = q ∧ s.arrive cmd q row.v3 true = .ok v ∧ v.channelOf (.lmf q.srcEid) = some c ∧ (v.channel c).busy = none
      ∧ v.bci.phase ≠ .switching ∧ (decide ((v.channel c).lastSeq = some r.seq) && decide ((v.channel c).lastOp = r.opcode)) = false
      ∧ u = v.setChannel c { v.channel c with busy := some r.words, wasOwner := false }
      ∧ u.bciAdmit row r (if row.op = 1 then some (3, 4) else (v.channel c).session) false = .ok i := by
  unfold State.ready at h
  split at h
  case isFalse => cases h
  simp only [hsrc] at h
  split at h
  · cases h
  rename_i hq
  split at h
  · cases h
  rename_i v harrive
  split at h
  · cases h
  rename_i c hchan
  split at h
  case isFalse => cases h
  rename_i hc
  simp only [Bool.and_eq_true, decide_eq_true_eq, Bool.not_eq_true', Option.isNone_iff_eq_none] at hc
  obtain ⟨⟨⟨hbusy, hcalm⟩, -⟩, hnew⟩ := hc
  split at h
  case h_2 => cases h
  rename_i j hadmit
  cases h
  exact ⟨v, c, not_not.mp hq, harrive, hchan, hbusy, hcalm, hnew, rfl, hadmit⟩

/-- A ready request in the LMF form of its own: it passes the arrival checks and those of its class (R661). -/
theorem State.ready_lmf {s u : State} {cmd : Instr} {row : BciRow} {r : BciReq} {i : Issuer} {q : LmfReq} (hsrc : r.src = .lmf q)
    (h : s.ready cmd row r = some (i, u)) :
    s.sourced q = q ∧ s.arrive cmd q row.v3 true = .ok u ∧ u.bci.phase ≠ .switching ∧ row.owner = false ∧ row.priv = false ∧ row.resv r = false
      ∧ nativeOps.contains row.op = true ∧ i = LmfIssuer q := by
  unfold State.ready at h
  split at h
  case isFalse => cases h
  simp only [hsrc] at h
  split at h
  · cases h
  rename_i hq
  split at h
  · cases h
  rename_i v harrive
  split at h
  case isFalse => cases h
  rename_i hc
  cases h
  simp only [Bool.and_eq_true, decide_eq_true_eq, Bool.not_eq_true'] at hc
  obtain ⟨⟨⟨⟨hcalm, howner⟩, hpriv⟩, hresv⟩, hnative⟩ := hc
  exact ⟨not_not.mp hq, harrive, hcalm, howner, hpriv, hresv, hnative, rfl⟩

/-- A ready request over a management session is well formed, of a class the session carries, and judged as the admin issuer's (R790). -/
theorem State.ready_mgmt {s u : State} {cmd : Instr} {row : BciRow} {r : BciReq} {i : Issuer} {m : Nat} (hsrc : r.src = .mgmt m)
    (h : s.ready cmd row r = some (i, u)) :
    (s.inSession (.mgmt m) && (row.priv || decide (row.op = 288 ∨ row.op = 290 ∨ row.op = 293))) = true ∧ malformed row r = false
      ∧ i = { eid := s.lmf.eid, ctx := 0, admin := true } ∧ u = s := by
  unfold State.ready at h
  split at h
  case isFalse => cases h
  simp only [hsrc] at h
  split at h
  case isFalse => cases h
  rename_i hc
  cases h
  rw [Bool.and_eq_true, Bool.not_eq_true'] at hc
  obtain ⟨hlisted, hform⟩ := hc
  exact ⟨hlisted, hform, rfl, rfl⟩

/-- A command whose request is ready runs as the issuer and on the state that `State.ready` gives (R555 to R565). -/
theorem bciServe_of_ready {mk : BciReq → Instr} {row : BciRow} {r : BciReq} {s u : State} {i : Issuer} {body : BciReq → Issuer → State → Result}
    (h : s.ready (mk r) row r = some (i, u)) : bciServe mk row r s body = body r i u := by
  obtain ⟨hruns, hphase⟩ := State.ready_runs h
  unfold bciServe whenUp
  rw [if_pos hruns]
  cases hsrc : r.src with
  | fn p f =>
    obtain ⟨c, hchan, hen, hbusy, hhanded, hnew, rfl, hadmit⟩ := State.ready_fn hsrc h
    simp only [hen, hchan, hbusy, hhanded, Bool.not_true, Bool.false_eq_true, if_false]
    rw [if_pos ⟨trivial, .inr trivial⟩, if_neg (by simpa only [State.setChannel_bci] using hphase)]
    exact State.onChannel_of_admit (by simpa only [State.channel_setChannel_self] using hnew) (by simpa only [State.channel_setChannel_self, hbusy] using hadmit)
  | lmfBci q =>
    obtain ⟨v, c, hq, harrive, hchan, hbusy, hcalm, hnew, rfl, hadmit⟩ := State.ready_lmfBci hsrc h
    have hr : { r with src := .lmfBci q } = r := by rw [← hsrc]
    simp only [hq, hr, harrive, hchan, hbusy]
    rw [if_neg (by simpa only [State.setChannel_bci] using hcalm)]
    exact State.onChannel_of_admit (by simpa only [State.channel_setChannel_self] using hnew) (by simpa only [State.channel_setChannel_self] using hadmit)
  | lmf q =>
    obtain ⟨hq, harrive, hcalm, howner, hpriv, hresv, hnative, rfl⟩ := State.ready_lmf hsrc h
    have hr : { r with src := .lmf q } = r := by rw [← hsrc]
    simp only [hq, hr, harrive]
    rw [if_neg hcalm, if_neg (Bool.eq_false_iff.mp howner), if_neg (Bool.eq_false_iff.mp hpriv), if_neg (by rw [hresv, hnative]; decide)]
  | mgmt m =>
    obtain ⟨hlisted, hform, rfl, rfl⟩ := State.ready_mgmt hsrc h
    dsimp only
    rw [if_pos (by simpa [or_assoc] using hlisted), if_neg (Bool.eq_false_iff.mp hform)]


/-! ### The firmware's own state -/

/-- The firmware's state without what the work of others leaves in it: the contexts with their counters, the notice rings and the long operations. -/
def Bci.firmware (b : Bci) : Bci := { b with contexts := [], rings := [], ops := [] }

theorem State.foldl_firmware {α : Type} (f : State → α → State) (h : ∀ s a, (f s a).bci.firmware = s.bci.firmware) (l : List α) (s : State) :
    (l.foldl f s).bci.firmware = s.bci.firmware := by
  induction l generalizing s with
  | nil => rfl
  | cons a l ih => rw [List.foldl_cons, ih, h]

@[simp] theorem State.event_firmware (s : State) (hw idx n : Nat) (ctx : Option Nat) : (s.event hw idx n ctx).bci.firmware = s.bci.firmware := rfl

@[simp] theorem State.encoderRan_firmware (s : State) (ref : PageRef) (p : TierPage) (im : Image) : (s.encoderRan ref p im).bci.firmware = s.bci.firmware := by
  simp [State.encoderRan]

@[simp] theorem State.encodeGroup_firmware (s : State) (rid : Nat) (refs : List PageRef) (b : TierPage → Backing) (place : Image → TierPage → TierPage) :
    (s.encodeGroup rid refs b place).bci.firmware = s.bci.firmware := by
  unfold State.encodeGroup
  split
  · rfl
  dsimp only
  have hswept (v : State) : v.sweepTables.bci.firmware = v.bci.firmware := by simp
  rw [hswept, State.foldl_firmware]
  · simp
  · intro s ref
    split
    · rfl
    · split <;> simp

@[simp] theorem State.writeBackNow_firmware (s : State) (ref : PageRef) : (s.writeBackNow ref).bci.firmware = s.bci.firmware := by
  unfold State.writeBackNow
  split <;> simp

@[simp] theorem State.evict_firmware (s : State) (e : PageRef × TierPage) : (s.evict e).bci.firmware = s.bci.firmware := by
  unfold State.evict
  split <;> simp

@[simp] theorem State.roomT0_firmware (s : State) : s.roomT0.bci.firmware = s.bci.firmware := by
  unfold State.roomT0
  (repeat' split) <;> simp

@[simp] theorem State.fillT0_firmware (s : State) (ref : PageRef) : (s.fillT0 ref).bci.firmware = s.bci.firmware := by
  unfold State.fillT0
  (repeat' split) <;> simp

@[simp] theorem State.allocate_firmware (s : State) (rid p : Nat) (r : Region) : (s.allocate rid p r).bci.firmware = s.bci.firmware := by
  unfold State.allocate
  dsimp only
  split <;> simp

@[simp] theorem State.ensurePage_firmware (s : State) (rid p : Nat) : (s.ensurePage rid p).bci.firmware = s.bci.firmware := by
  unfold State.ensurePage
  (repeat' split) <;> simp

@[simp] theorem State.makeShadow_firmware (s : State) (rid p : Nat) (i : Issuer) : (s.makeShadow rid p i).bci.firmware = s.bci.firmware := by
  unfold State.makeShadow
  dsimp only
  (repeat' split) <;> simp

@[simp] theorem State.putRef_firmware (s : State) (ref : PageRef) (off : Nat) (data : Bytes) : (s.putRef ref off data).bci.firmware = s.bci.firmware := by
  unfold State.putRef
  dsimp only
  (repeat' split) <;> simp

@[simp] theorem State.directMap_firmware (s : State) (rid p off n : Nat) (f : Bytes → Bytes) : (s.directMap rid p off n f).bci.firmware = s.bci.firmware := by
  unfold State.directMap
  dsimp only
  split
  · simp
  split
  · simp
  rw [State.foldl_firmware, State.ensurePage_firmware]
  intro s ref
  (repeat' split) <;> simp

@[simp] theorem State.write1_firmware (s : State) (rid : Nat) (w : Way) (off : Nat) (data : Bytes) : (s.write1 rid w off data).bci.firmware = s.bci.firmware := by
  unfold State.write1
  dsimp only
  (repeat' split) <;> simp

@[simp] theorem State.writePieces_firmware (s : State) (rid : Nat) (w : Way) (data : Bytes) (off0 : Nat) (l : List (Nat × Nat)) :
    (s.writePieces rid w data off0 l).bci.firmware = s.bci.firmware := by
  induction l generalizing s with
  | nil => rfl
  | cons e l ih =>
    obtain ⟨o, n⟩ := e
    simp [State.writePieces, ih]

/-- A record that is written leaves the firmware's own state. -/
theorem State.recordAt_firmware {s t : State} {key off : Nat} {data : Bytes} (h : s.recordAt key off data = some t) : t.bci.firmware = s.bci.firmware := by
  unfold State.recordAt State.recordIn at h
  (repeat' split at h) <;> cases h
  simp [State.writeRange]

/-- An error record leaves the firmware's state, and stops nothing. -/
@[simp] theorem State.error_bci (s : State) (n : ErrorNote) : (s.error n).bci = s.bci := by
  unfold State.error
  dsimp only
  split <;> simp

@[simp] theorem State.healthCount_failCause (s : State) (hw cls : Nat) : (s.healthCount hw cls).rel.failCause = s.rel.failCause := by
  unfold State.healthCount
  dsimp only
  split <;> simp

@[simp] theorem State.quarantineWatch_failCause (s : State) (hw cls : Nat) : (s.quarantineWatch hw cls).rel.failCause = s.rel.failCause := by
  unfold State.quarantineWatch
  split <;> simp

@[simp] theorem State.error_failCause (s : State) (n : ErrorNote) : (s.error n).rel.failCause = s.rel.failCause := by
  unfold State.error
  dsimp only
  split <;> simp

@[simp] theorem State.notice_firmware (s : State) (eid ctx kind : Nat) (aborted : Bool) (st : Status) (src obj deadline : Nat) :
    (s.notice eid ctx kind aborted st src obj deadline).bci.firmware = s.bci.firmware := by
  unfold State.notice
  dsimp only
  split
  · rfl
  split
  · rfl
  split
  · simp [State.lostRecord]
    rfl
  rename_i t ht
  have hrec := State.recordAt_firmware ht
  (repeat' split) <;> (simp; exact hrec)

@[simp] theorem State.noticeTo_firmware (s : State) (who : Option (Nat × Nat)) (kind : Nat) (aborted : Bool) (st : Status) (src obj deadline : Nat) :
    (s.noticeTo who kind aborted st src obj deadline).bci.firmware = s.bci.firmware := by
  unfold State.noticeTo
  split <;> simp

/-- The end of a long operation leaves the firmware's own state. -/
@[simp] theorem State.endOp_firmware (s : State) (id state : Nat) (st : Status) : (s.endOp id state st).bci.firmware = s.bci.firmware := by
  unfold State.endOp
  split
  · rfl
  split
  · rfl
  rw [State.noticeTo_firmware]
  rfl

/-- What the firmware's own state holds, then, at the end of a long operation. -/
@[simp] theorem State.endOp_bci (s : State) (id state : Nat) (st : Status) :
    (s.endOp id state st).bci.phase = s.bci.phase ∧ (s.endOp id state st).bci.standby = s.bci.standby ∧ (s.endOp id state st).bci.activating = s.bci.activating
      ∧ (s.endOp id state st).bci.slots = s.bci.slots ∧ (s.endOp id state st).bci.runSlot = s.bci.runSlot := by
  have h := State.endOp_firmware s id state st
  exact ⟨(congrArg Bci.phase h :), (congrArg Bci.standby h :), (congrArg Bci.activating h :), (congrArg Bci.slots h :), (congrArg Bci.runSlot h :)⟩

/-! ### The events (R547 to R552, R585, R586, R719) -/

theorem State.failCause_of_runs {s : State} (h : s.runs = true) : s.rel.failCause = none := by
  simp only [State.runs, Bool.and_eq_true, Option.isNone_iff_eq_none] at h
  exact h.1

theorem whenUp_of_runs {s : State} (h : s.runs = true) (f : State → Result) : whenUp s f = f s := if_pos h

/-- Fail-stop names its cause where none stands yet (R746). -/
theorem State.failStop_failCause {s : State} (h : s.rel.failCause = none) (row : Nat) : (s.failStop row).rel.failCause = some row := by
  simp [State.failStop, h]

/-- With a standby the active set's failure starts a switchover (R547). -/
theorem State.setFails_of_standby {s : State} (h : s.bci.standby = true) : s.setFails = { s with bci.phase := .switching, bci.standby := false } := if_pos h

/-- Without one it is fail-stop (R552). -/
theorem State.setFails_of_none {s : State} (h : s.bci.standby = false) : s.setFails = s.failStop 2 := if_neg (by simp [h])

theorem exec_watchdogExpiry {s : State} (h : s.runs = true) : exec .watchdogExpiry s = .next s.setFails :=
  whenUp_of_runs h fun s => .next s.setFails

theorem exec_basecampEccError {s : State} (h : s.runs = true) :
    exec .basecampEccError s = .next (s.error (.of 2 .corrupt ((if s.bci.westActive then 256 else 0) + 0x66))).setFails := by
  show execBasecampEccError s = _
  unfold execBasecampEccError
  rw [whenUp_of_runs h]

theorem does_setFails_of_standby {s : State} (hruns : s.runs = true) (hstandby : s.bci.standby = true) :
    Does .watchdogExpiry s (fun t => t.bci.phase = .switching ∧ t.bci.standby = false ∧ t.home = s.home)
      ∧ Does .basecampEccError s fun t => t.bci.phase = .switching ∧ t.bci.standby = false := by
  refine ⟨⟨_, exec_watchdogExpiry hruns, ?_⟩, ⟨_, exec_basecampEccError hruns, ?_⟩⟩
  · rw [State.setFails_of_standby hstandby]
    exact ⟨rfl, rfl, rfl⟩
  · rw [State.setFails_of_standby (by simpa using hstandby)]
    exact ⟨rfl, rfl⟩

theorem does_setFails_of_none {s : State} (hruns : s.runs = true) (hstandby : s.bci.standby = false) :
    Does .watchdogExpiry s (fun t => t.rel.failCause = some 2) ∧ Does .basecampEccError s fun t => t.rel.failCause = some 2 := by
  have hcause := State.failCause_of_runs hruns
  refine ⟨⟨_, exec_watchdogExpiry hruns, ?_⟩, ⟨_, exec_basecampEccError hruns, ?_⟩⟩
  · rw [State.setFails_of_none hstandby]
    exact State.failStop_failCause hcause 2
  · rw [State.setFails_of_none (by simpa using hstandby)]
    exact State.failStop_failCause (by simpa using hcause) 2

/-- Firmware that takes a doorbell word changes the function's window and nothing that it keeps itself. -/
@[simp] theorem State.takeWord_keeps (s : State) (p f : Nat) : (s.takeWord p f).home = s.home ∧ (s.takeWord p f).bci = s.bci := by
  unfold State.takeWord
  dsimp only
  (repeat' split) <;> simp

@[simp] theorem State.takeWords_keeps (s : State) : s.takeWords.home = s.home ∧ s.takeWords.bci = s.bci :=
  ⟨State.foldl_home _ (fun v _ => (v.takeWord_keeps _ _).1) _ s, State.foldl_bci _ (fun v _ => (v.takeWord_keeps _ _).2) _ s⟩

/-- What is still held after a release is held for another reason. -/
theorem State.why_of_mem_release {s : State} {f : HoldWhy → Bool} {h : Held} (hh : h ∈ (s.release f).home.held) : f h.why = false := by
  simpa using (List.mem_filter.mp hh).2

/-- SWITCHOVER_END (R548): the other set is the active one, and no command waits for it any longer. -/
theorem does_switchoverEnd {s : State} (hruns : s.runs = true) (hphase : s.bci.phase = .switching) :
    Does .switchoverEnd s fun t => t.bci.phase = .syncing ∧ t.bci.westActive = (!s.bci.westActive) ∧ ∀ h ∈ t.home.held, h.why ≠ .switchover := by
  have hexec : exec .switchoverEnd s = execSwitchoverEnd s := rfl
  unfold execSwitchoverEnd at hexec
  rw [whenUp_of_runs hruns, if_neg (by simp [hphase])] at hexec
  refine ⟨_, hexec, ?_, ?_, ?_⟩
  · simp only [State.rsMgmt_bci, State.takeWords_keeps, State.release_bci]
    (repeat' split) <;> rfl
  · simp only [State.rsMgmt_bci, State.takeWords_keeps, State.release_bci]
    (repeat' split) <;> rfl
  · intro h hh
    simp only [State.rsMgmt_home, State.takeWords_keeps] at hh
    simpa using State.why_of_mem_release hh

/-- STANDBY_SYNC after a switchover without an activation (R551): the former active set is the standby. -/
theorem does_standbySync {s : State} (hruns : s.runs = true) (hphase : s.bci.phase = .syncing) (hact : s.bci.activating = none) :
    Does .standbySync s fun t => t = { s with bci.phase := .steady, bci.standby := true } := by
  refine ⟨_, ?_, rfl⟩
  show execStandbySync s = _
  unfold execStandbySync
  rw [whenUp_of_runs hruns, if_neg (by simp [hphase])]
  simp only [hact]

/-- The end of an activation in the state of the firmware and of the minimum version (R586, R774). -/
theorem State.activateDone_holds {s : State} {n : Nat} {x : FwSlot} (hslot : Tab.get? s.bci.slots n = some x) :
    (s.activateDone n).bci.phase = .steady ∧ (s.activateDone n).bci.standby = true ∧ (s.activateDone n).bci.activating = none
      ∧ (s.activateDone n).sec.svnMin = if x.commitSvn then max s.sec.svnMin x.svn else s.sec.svnMin := by
  unfold State.activateDone
  simp only [hslot]
  cases hcommit : x.commitSvn with
  | false => split <;> simp
  | true => split <;> simp

/-- STANDBY_SYNC after the switchover of an activation (R586, R588, R774). -/
theorem does_standbySync_activated {s : State} {n : Nat} {x : FwSlot} (hruns : s.runs = true) (hphase : s.bci.phase = .syncing)
    (hact : s.bci.activating = some n) (hrun : s.bci.runSlot = n) (hslot : Tab.get? s.bci.slots n = some x) :
    Does .standbySync s fun t => t.bci.phase = .steady ∧ t.bci.standby = true ∧ t.bci.activating = none
      ∧ t.sec.svnMin = if x.commitSvn then max s.sec.svnMin x.svn else s.sec.svnMin := by
  refine ⟨(s.activateDone n).rsMgmt, ?_, State.activateDone_holds hslot⟩
  show execStandbySync s = _
  unfold execStandbySync
  rw [whenUp_of_runs hruns, if_neg (by simp [hphase])]
  simp only [hact, hrun, if_true]

/-- FW_STAGE_END (R585): the slot that does not run holds the image if it verifies, and is EMPTY if not. -/
theorem does_fwStageEnd {s : State} {id : Nat} {bs : Bytes} (hruns : s.runs = true) (hstaged : Tab.get? s.bci.staging id = some bs) :
    Does (.fwStageEnd id) s fun t =>
      (match s.verifyImage bs with
        | some x => Tab.get? t.bci.slots s.otherSlot = some x ∧ t.pkg.store = Mem.writeN s.pkg.store (slotAddr s.otherSlot) bs
        | none => Tab.get? t.bci.slots s.otherSlot = none ∧ t.pkg.store = s.pkg.store) ∧ t.bci.runSlot = s.bci.runSlot := by
  have hexec : exec (.fwStageEnd id) s = execFwStageEnd id s := rfl
  unfold execFwStageEnd at hexec
  rw [whenUp_of_runs hruns] at hexec
  simp only [hstaged] at hexec
  have hsame : State.verifyImage { s with bci.staging := Tab.erase s.bci.staging id } bs = s.verifyImage bs := rfl
  rw [hsame] at hexec
  cases hv : s.verifyImage bs with
  | none =>
    simp only [hv] at hexec
    refine ⟨_, hexec, ?_⟩
    simp
  | some x =>
    simp only [hv] at hexec
    refine ⟨_, hexec, ?_⟩
    simp

/-! ### The commands (R568, R585 to R587) -/

/-- A range that R62 lets through and no lease and no recall stops is served. -/
theorem State.onRegion_of_opens {s : State} {cmd : Instr} {r : BciReq} {i : Issuer} {key off n rid : Nat} {need : Rights} {fail : State → Status → State}
    {body : Nat → Region → State → Result} {rg : Region} (h : s.opens r i key off n need = some (rid, rg)) :
    s.onRegion cmd r i key off n need fail body = body rid rg s := by
  unfold State.opens at h
  unfold State.onRegion
  split at h
  · rename_i hp
    split at h
    · rename_i hg
      cases h
      simp only [hp, hg]
    · cases h
  · cases h

/-- FW_STAGE (R585): the image is what the range holds, kept under the OP_ID it answers. -/
theorem answers_fwStage {s u : State} {r : BciReq} {i : Issuer} {rid : Nat} {rg : Region}
    (hready : s.ready (.fwStage r) { BciRow.o 0xA0 4 with minor := some 0, resv := fun r => offResv r 2 } r = some (i, u)) (hact : u.bci.activating = none)
    (hlen : r.w 4 ≤ 268435456) (hopens : u.opens r i (r.w 1) (r.d 2) (r.w 4) needR = some (rid, rg))
    (hclear : u.meetRead rid rg (.own i) (r.d 2) (r.w 4) = .clear) :
    Answers (.fwStage r) s r (one u.bci.nextOp) fun t =>
      Tab.get? t.bci.staging u.bci.nextOp = some (u.readRange rg (.own i) (r.d 2) (r.w 4)) ∧ t.bci.slots = u.bci.slots := by
  have hexec : exec (.fwStage r) s = execFwStage r s := rfl
  unfold execFwStage at hexec
  rw [bciServe_of_ready hready, if_neg (by simp [hact]), if_neg (by omega), State.onRegion_of_opens hopens] at hexec
  simp only [hclear] at hexec
  refine ⟨_, hexec, ?_, ?_⟩
  · simp
  · simp [State.startOp]

/-- FW_ACTIVATE (R586, R587): not of an image that some open session's version is not supported by; else its first step begins. -/
theorem answers_fwActivate {s u : State} {r : BciReq} {i : Issuer} {x : FwSlot}
    (hready : s.ready (.fwActivate r) { BciRow.o 0xA1 1 with minor := some 0, resv := fun r => above r 1 1 } r = some (i, u)) (hact : u.bci.activating = none)
    (hslot : Tab.get? u.bci.slots (r.w 1) = some x) (hst : x.st = 1) (hstandby : u.bci.standby = true) :
    if u.openSessions.any (fun v => !Config.imageSession x.fwVer v.1 v.2) then exec (.fwActivate r) s = .next (u.respond r .notSupported [])
    else Answers (.fwActivate r) s r (one u.bci.nextOp) fun t => t.bci.activating = some (r.w 1) ∧ t.bci.phase = .syncing ∧ t.bci.runSlot = u.bci.runSlot := by
  have hexec : exec (.fwActivate r) s = execFwActivate r s := rfl
  unfold execFwActivate at hexec
  rw [bciServe_of_ready hready] at hexec
  simp only [hslot] at hexec
  rw [if_neg (by simp [hact, hst, hstandby])] at hexec
  split
  case isTrue hold => rw [hexec, if_pos hold]
  case isFalse hall =>
    rw [if_neg hall] at hexec
    exact ⟨_, hexec, rfl, rfl, rfl⟩

/-- FW_INFO (R568): the versions and states of both slots, and the one that runs. -/
theorem exec_fwInfo {s u : State} {r : BciReq} {i : Issuer} {a b : FwSlot}
    (hready : s.ready (.fwInfo r) { BciRow.o 0xA2 0 with minor := some 0 } r = some (i, u)) (ha : Tab.get? u.bci.slots 0 = some a)
    (hb : Tab.get? u.bci.slots 1 = some b) :
    exec (.fwInfo r) s
      = .next (u.respond r .ok [BitVec.ofNat 32 a.fwVer, BitVec.ofNat 32 a.st, BitVec.ofNat 32 b.fwVer, BitVec.ofNat 32 b.st, BitVec.ofNat 32 u.bci.runSlot]) := by
  have hexec : exec (.fwInfo r) s = execFwInfo r s := rfl
  unfold execFwInfo at hexec
  rw [hexec, bciServe_of_ready hready]
  simp only [ha, hb]
  rfl

/-- Settles O44: the events by the state they meet, the commands by the request that is ready. -/
theorem switchoverAndFirmware : Obligations.SwitchoverAndFirmware := by
  unfold Obligations.SwitchoverAndFirmware
  refine ⟨fun s hruns => ⟨?_, ?_, ?_, ?_, ?_, ?_⟩, fun s r i u => ⟨?_, ?_, ?_⟩⟩
  · exact does_setFails_of_standby hruns
  · exact does_setFails_of_none hruns
  · exact does_switchoverEnd hruns
  · exact does_standbySync hruns
  · exact fun n x hphase hact hrun hslot => does_standbySync_activated hruns hphase hact hrun hslot
  · exact fun id bs hstaged => does_fwStageEnd hruns hstaged
  · exact fun rid rg hready hact hlen hopens hclear => answers_fwStage hready hact hlen hopens hclear
  · exact fun x hready hact hslot hst hstandby => answers_fwActivate hready hact hslot hst hstandby
  · exact fun a b hready ha hb => exec_fwInfo hready ha hb

end Sys2Proof.Machine

/-! PROOF. O20: GO, the message registers and the fast doorbell (15). What sending a vector and waking the active set leave of a function's window and of a domain;
what a captured word keeps of the written one; then each write by the state that it meets. -/

namespace Sys2Proof.Machine

/-! ### What a function's window keeps -/

/-- A vector that is sent changes at most the pending bits of its function's window (R618, R619). -/
theorem State.fnWin_vector (s : State) (p f v : Nat) : ∃ n, (s.vector p f v).fnWin p f = { s.fnWin p f with pba := n } := by
  unfold State.vector
  dsimp only
  split
  · exact ⟨_, s.fnWin_setFnWin_self p f _⟩
  · exact ⟨(s.fnWin p f).pba, rfl⟩

/-- So each other field that GO, a message register or a doorbell word writes stays. -/
@[simp] theorem State.vector_fnWin (s : State) (p f v : Nat) :
    ((s.vector p f v).fnWin p f).msg = (s.fnWin p f).msg ∧ ((s.vector p f v).fnWin p f).go = (s.fnWin p f).go
      ∧ ((s.vector p f v).fnWin p f).msgLost = (s.fnWin p f).msgLost ∧ ((s.vector p f v).fnWin p f).nochan = (s.fnWin p f).nochan
      ∧ ((s.vector p f v).fnWin p f).dbl = (s.fnWin p f).dbl ∧ ((s.vector p f v).fnWin p f).full = (s.fnWin p f).full
      ∧ ((s.vector p f v).fnWin p f).overrun = (s.fnWin p f).overrun ∧ ((s.vector p f v).fnWin p f).reject = (s.fnWin p f).reject
      ∧ ((s.vector p f v).fnWin p f).lastStatus = (s.fnWin p f).lastStatus ∧ ((s.vector p f v).fnWin p f).tail = (s.fnWin p f).tail := by
  obtain ⟨n, hwin⟩ := s.fnWin_vector p f v
  simp [hwin]

/-- A change of an RS field moves only SEQ of the window (R605). -/
@[simp] theorem State.fnWin_rsFn (s : State) (p f : Nat) : (s.rsFn p f).fnWin p f = { s.fnWin p f with seq := ((s.fnWin p f).seq + 1) % 256 } :=
  s.fnWin_setFnWin_self p f _

@[simp] theorem State.fnWin_setChannel (s : State) (c p f : Nat) (ch : Channel) : (s.setChannel c ch).fnWin p f = s.fnWin p f := rfl

@[simp] theorem State.fnWin_wakeBasecamp (s : State) (p f : Nat) : s.wakeBasecamp.fnWin p f = s.fnWin p f := by simp [State.fnWin]

@[simp] theorem State.channel_wakeBasecamp (s : State) (c : Nat) : s.wakeBasecamp.channel c = s.channel c := by simp [State.channel]

/-! ### The wake of the active set (R598, R692) -/

@[simp] theorem DomEntry.woken_dom (e : DomEntry) : e.woken.dom = e.dom := by
  unfold DomEntry.woken
  split <;> rfl

/-- A wake event acts on the entry of each domain that it names. -/
theorem State.domain_wakeWhere (s : State) (f : Domain → Bool) (d : Domain) :
    (s.wakeWhere f).domain d = if f d then (s.domain d).woken else s.domain d := by
  have hsame : (fun e : DomEntry => decide (e.dom = d)) ∘ (fun e => if f e.dom then e.woken else e) = fun e => decide (e.dom = d) := by
    funext e
    by_cases h : f e.dom <;> simp [h]
  unfold State.domain State.wakeWhere
  dsimp only
  rw [List.find?_map, hsame]
  cases hfind : s.pow.doms.find? (fun e => decide (e.dom = d)) with
  | none => simp [DomEntry.woken]
  | some e =>
    have hdom : e.dom = d := by simpa using List.find?_some hfind
    subst hdom
    split <;> simp_all

/-- Outside bivouac an arrival wakes the MEM and FAB domains, and no basecamp set. -/
theorem State.domain_stir_bc {s : State} (h : s.pow.bivouac = false) (x : Nat) : s.stir.domain (.bc x) = s.domain (.bc x) := by
  simp [State.stir, h, State.wakeDomain, State.domain_wakeWhere]

/-- The domain of the basecamp set whose firmware is active. -/
def State.activeSet (s : State) : DomEntry := s.domain (.bc (b2n s.bci.westActive))

/-- Outside bivouac a GO or doorbell write wakes the active set. -/
theorem State.activeSet_wakeBasecamp {s : State} (h : s.pow.bivouac = false) :
    s.wakeBasecamp.activeSet = s.activeSet.woken := by
  simp [State.activeSet, State.wakeBasecamp, State.wakeDomain, State.domain_wakeWhere, State.domain_stir_bc h]

theorem DomEntry.woken_of_on {e : DomEntry} (h : e.st = .on) : e.woken = e := by
  simp [DomEntry.woken, h]

/-- A domain that sleeps or wakes is not ON at once. -/
theorem DomEntry.woken_st_ne_on {e : DomEntry} (h : e.st = .gated ∨ e.st = .off ∨ e.st = .waking) : e.woken.st ≠ .on := by
  rcases h with h | h | h <;> simp [DomEntry.woken, h]

/-! ### GO and the message registers (R594, R596, R597) -/

theorem exec_mbxMsgWrite {s : State} (h : s.runs = true) (p f n : Nat) (x : Word) : exec (.mbxMsgWrite p f n x) s = .next (s.msgWrite p f n x) :=
  whenUp_of_runs h fun s => .next (s.msgWrite p f n x)

theorem exec_go {s : State} (h : s.runs = true) (p f : Nat) : exec (.go p f) s = .next (s.goWrite p f) :=
  whenUp_of_runs h fun s => .next (s.goWrite p f)

/-- While GO is 0 a message register takes the write. -/
theorem State.msgWrite_of_idle {s : State} {p f n : Nat} (x : Word) (hen : s.fnEnabled p f = true) (hn : n < 16) (hgo : (s.fnWin p f).go = false) :
    s.msgWrite p f n x = s.setFnWin p f { s.fnWin p f with msg := Tab.set (s.fnWin p f).msg n x } := by
  simp [State.msgWrite, hen, hgo, Nat.not_le.mpr hn]

/-- While GO is 1 the write is discarded. -/
theorem State.msgWrite_of_go {s : State} {p f n : Nat} (x : Word) (hen : s.fnEnabled p f = true) (hn : n < 16) (hgo : (s.fnWin p f).go = true) :
    s.msgWrite p f n x = (s.setFnWin p f { s.fnWin p f with msgLost := true }).vector p f 4 := by
  simp [State.msgWrite, hen, hgo, Nat.not_le.mpr hn]

theorem does_mbxMsgWrite_of_idle {s : State} {p f n : Nat} (x : Word) (hruns : s.runs = true) (hen : s.fnEnabled p f = true) (hn : n < 16)
    (hgo : (s.fnWin p f).go = false) :
    Does (.mbxMsgWrite p f n x) s fun t => Tab.getD (t.fnWin p f).msg n 0 = x
      ∧ (∀ k, k ≠ n → Tab.getD (t.fnWin p f).msg k 0 = Tab.getD (s.fnWin p f).msg k 0) ∧ t.home = s.home := by
  have hexec := exec_mbxMsgWrite hruns p f n x
  rw [State.msgWrite_of_idle x hen hn hgo] at hexec
  exact ⟨_, hexec, by simp, fun k hk => by simp [Tab.getD_set_ne _ _ _ hk], by simp⟩

theorem does_mbxMsgWrite_of_go {s : State} {p f n : Nat} (x : Word) (hruns : s.runs = true) (hen : s.fnEnabled p f = true) (hn : n < 16)
    (hgo : (s.fnWin p f).go = true) :
    Does (.mbxMsgWrite p f n x) s fun t => (t.fnWin p f).msg = (s.fnWin p f).msg ∧ (t.fnWin p f).msgLost = true := by
  have hexec := exec_mbxMsgWrite hruns p f n x
  rw [State.msgWrite_of_go x hen hn hgo] at hexec
  exact ⟨_, hexec, by simp⟩

/-- The words of a function's sixteen message registers. -/
def State.msgWords (s : State) (p f : Nat) : List Word := (upto 16).map (fun n => Tab.getD (s.fnWin p f).msg n 0)

/-- The state in which a channel holds the sixteen message registers of its function as its command, with the wake event of R598. -/
def State.handOver (s : State) (p f c : Nat) : State :=
  ((s.setFnWin p f { s.fnWin p f with go := true }).setChannel c
    { s.channel c with busy := some (s.msgWords p f), handed := true, wasOwner := s.isOwnerFn p f }).wakeBasecamp

/-- GO hands the message registers to the channel, and the command they spell waits for firmware (R596). -/
theorem State.goWrite_of_chan {s : State} {p f c : Nat} {i : Instr} (hen : s.fnEnabled p f = true) (hgo : (s.fnWin p f).go = false)
    (hchan : (s.fnWin p f).chan = some c) (hcmd : bciInstr { src := .fn p f, words := s.msgWords p f } = some i) :
    s.goWrite p f = { s.handOver p f c with resume := (s.handOver p f c).resume ++ [{ cmd := i, since := none }] } := by
  unfold State.msgWords at hcmd
  unfold State.goWrite
  simp only [hen, hgo, Bool.not_true, Bool.or_self, Bool.false_eq_true, if_false]
  split
  next hnone => simp [hnone] at hchan
  next d hd =>
    obtain rfl : d = c := Option.some.inj (hd.symm.trans hchan)
    simp only [hcmd]
    rfl

theorem does_go {s : State} {p f c : Nat} {i : Instr} (hruns : s.runs = true) (hen : s.fnEnabled p f = true) (hgo : (s.fnWin p f).go = false)
    (hchan : (s.fnWin p f).chan = some c) (hcmd : bciInstr { src := .fn p f, words := s.msgWords p f } = some i) :
    Does (.go p f) s fun t => (t.fnWin p f).go = true ∧ (t.channel c).busy = some (s.msgWords p f)
      ∧ ∃ a ∈ t.resume, a.cmd = i ∧ a.since = none := by
  have hexec := exec_go hruns p f
  rw [State.goWrite_of_chan hen hgo hchan hcmd] at hexec
  have hwin : ((s.handOver p f c).fnWin p f).go = true := by simp [State.handOver]
  have hbusy : ((s.handOver p f c).channel c).busy = some (s.msgWords p f) := by simp [State.handOver]
  exact ⟨_, hexec, hwin, hbusy, _, List.mem_append_right _ (List.mem_singleton_self _), rfl, rfl⟩

/-- Without a channel GO only reports that there is none (R594). -/
theorem does_go_of_nochan {s : State} {p f : Nat} (hruns : s.runs = true) (hen : s.fnEnabled p f = true) (hgo : (s.fnWin p f).go = false)
    (hchan : (s.fnWin p f).chan = none) : Does (.go p f) s fun t => (t.fnWin p f).go = false ∧ (t.fnWin p f).nochan = true := by
  have hwrite : s.goWrite p f = (s.setFnWin p f { s.fnWin p f with nochan := true }).vector p f 4 := by simp [State.goWrite, hen, hgo, hchan]
  have hexec := exec_go hruns p f
  rw [hwrite] at hexec
  exact ⟨_, hexec, by simp [hgo]⟩

/-- A write of 1 to GO while it is 1 has no effect (R597). -/
theorem exec_go_of_go {s : State} {p f : Nat} (hruns : s.runs = true) (hgo : (s.fnWin p f).go = true) : exec (.go p f) s = .next s := by
  rw [exec_go hruns]
  simp [State.goWrite, hgo]

/-! ### The captured word (R600, R603, R610) -/

/-- A mask that holds a field whole keeps it. -/
theorem fld_and_of_mask {m hi lo : Nat} (v : Nat) (h : ∀ i < hi + 1 - lo, m.testBit (i + lo) = true) : fld (v &&& m) hi lo = fld v hi lo := by
  unfold fld
  refine Nat.eq_of_testBit_eq fun i => ?_
  simp only [Nat.testBit_mod_two_pow, Nat.testBit_div_two_pow, Nat.testBit_and]
  by_cases hlt : i < hi + 1 - lo
  · simp [hlt, h i hlt]
  · simp [hlt]

/-- A function's window with a word captured in its doorbell (R600). -/
def Window.captured (w : Window) (x : Word) (owner : Bool) : Window := { w with full := true, dbl := x &&& 0xFFFFFF0F, dblOwner := owner }

@[simp] theorem Window.captured_fields (w : Window) (x : Word) (owner : Bool) :
    (w.captured x owner).full = true ∧ (w.captured x owner).dblOwner = owner ∧ (w.captured x owner).en = w.en ∧ (w.captured x owner).head = w.head
      ∧ (w.captured x owner).tail = w.tail ∧ (w.captured x owner).lLog2 = w.lLog2 ∧ (w.captured x owner).reject = w.reject :=
  ⟨rfl, rfl, rfl, rfl, rfl, rfl, rfl⟩

@[simp] theorem Window.captured_kind (w : Window) (x : Word) (owner : Bool) : fld (w.captured x owner).dbl.toNat 3 0 = fld x.toNat 3 0 := by
  simp only [Window.captured, BitVec.toNat_and]
  exact fld_and_of_mask _ (by decide)

@[simp] theorem Window.captured_value (w : Window) (x : Word) (owner : Bool) : fld (w.captured x owner).dbl.toNat 31 8 = fld x.toNat 31 8 := by
  simp only [Window.captured, BitVec.toNat_and]
  exact fld_and_of_mask _ (by decide)

theorem State.wordStatus_of_wake {w : Window} (s : State) (hkind : fld w.dbl.toNat 3 0 = 0) : s.wordStatus w = .ok := by
  simp [State.wordStatus, hkind]

theorem State.wordStatus_of_other {w : Window} (s : State) (hkind : fld w.dbl.toNat 3 0 = 1) (howner : w.dblOwner = false) : s.wordStatus w = .state := by
  simp [State.wordStatus, hkind, howner]

/-- A CQ_TAIL word of the owning host, whose queue is enabled, with its value in the range of R610. -/
theorem State.wordStatus_of_owner {s : State} {w : Window} (hkind : fld w.dbl.toNat 3 0 = 1) (howner : w.dblOwner = true) (hen : w.en = true)
    (hfence : s.host.ownerFenced = false) (hroom : (fld w.dbl.toNat 31 8 + 16777216 - w.head) % 16777216 ≤ 2 ^ w.lLog2)
    (hback : (w.tail + 16777216 - w.head) % 16777216 ≤ (fld w.dbl.toNat 31 8 + 16777216 - w.head) % 16777216) : s.wordStatus w = .ok := by
  simp [State.wordStatus, hkind, howner, hen, hfence, hroom, hback]

/-! ### Firmware takes the word (R602, R603) -/

/-- A waiting word is taken: its status is reported, FULL is clear, and only an accepted CQ_TAIL moves TAIL. -/
theorem State.takeWord_fnWin {s : State} {p f : Nat} {st : Status} (hfull : (s.fnWin p f).full = true) (hst : s.wordStatus (s.fnWin p f) = st) :
    ((s.takeWord p f).fnWin p f).full = false ∧ ((s.takeWord p f).fnWin p f).lastStatus = st.code
      ∧ ((s.takeWord p f).fnWin p f).reject = ((s.fnWin p f).reject || decide (st ≠ .ok))
      ∧ ((s.takeWord p f).fnWin p f).tail
        = if fld (s.fnWin p f).dbl.toNat 3 0 = 1 ∧ st = .ok then fld (s.fnWin p f).dbl.toNat 31 8 else (s.fnWin p f).tail := by
  unfold State.takeWord
  simp only [hfull, hst, Bool.true_eq_false, if_false]
  by_cases hok : st = .ok
  · by_cases htail : fld (s.fnWin p f).dbl.toNat 3 0 = 1 <;> simp [hok, htail]
  · simp [hok]

/-! ### The doorbell write (R549, R598, R600, R601) -/

theorem exec_wake {s : State} (h : s.runs = true) (p f : Nat) (x : Word) : exec (.wake p f x) s = .next (s.doorbell p f x) :=
  whenUp_of_runs h fun s => .next (s.doorbell p f x)

theorem exec_cqTail {s : State} (h : s.runs = true) (p f : Nat) (x : Word) : exec (.cqTail p f x) s = .next (s.doorbell p f x) :=
  whenUp_of_runs h fun s => .next (s.doorbell p f x)

/-- Firmware takes a doorbell word at once: no switchover runs, and the active set is ON. -/
def State.FirmwareAwake (s : State) : Prop := s.bci.phase ≠ .switching ∧ s.activeSet.st = .on

/-- A doorbell word waits: a switchover runs, or the active set sleeps or wakes. -/
def State.WordsWait (s : State) : Prop := s.bci.phase = .switching ∨ s.activeSet.st = .gated ∨ s.activeSet.st = .off ∨ s.activeSet.st = .waking

/-- The state in which a doorbell word is captured and the active set has its wake event (R600). -/
def State.ring (s : State) (p f : Nat) (x : Word) : State := (s.setFnWin p f ((s.fnWin p f).captured x (s.isOwnerFn p f))).wakeBasecamp

@[simp] theorem State.fnWin_ring (s : State) (p f : Nat) (x : Word) : (s.ring p f x).fnWin p f = (s.fnWin p f).captured x (s.isOwnerFn p f) := by
  simp [State.ring]

@[simp] theorem State.ring_bci (s : State) (p f : Nat) (x : Word) : (s.ring p f x).bci = s.bci := by simp [State.ring]

@[simp] theorem State.ring_ownerFenced (s : State) (p f : Nat) (x : Word) : (s.ring p f x).host.ownerFenced = s.host.ownerFenced := by simp [State.ring]

theorem State.activeSet_ring {s : State} (h : s.pow.bivouac = false) (p f : Nat) (x : Word) :
    (s.ring p f x).activeSet = s.activeSet.woken :=
  State.activeSet_wakeBasecamp (s := s.setFnWin p f _) h

/-- A word that finds none waiting is captured; firmware takes it at once unless a switchover runs or the active set is not awake. -/
theorem State.doorbell_of_empty {s : State} {p f : Nat} (x : Word) (hen : s.fnEnabled p f = true) (hfull : (s.fnWin p f).full = false)
    (hbiv : s.pow.bivouac = false) :
    s.doorbell p f x = if s.bci.phase = .switching ∨ s.activeSet.woken.st ≠ .on then s.ring p f x
      else (s.ring p f x).takeWord p f := by
  rw [← State.activeSet_ring hbiv p f x, ← State.ring_bci s p f x]
  simp only [State.doorbell, hen, hfull, Bool.not_true, Bool.false_eq_true, if_false]
  rfl

theorem State.doorbell_of_awake {s : State} {p f : Nat} (x : Word) (hen : s.fnEnabled p f = true) (hfull : (s.fnWin p f).full = false)
    (hbiv : s.pow.bivouac = false) (hawake : s.FirmwareAwake) :
    s.doorbell p f x = (s.ring p f x).takeWord p f := by
  obtain ⟨hphase, hon⟩ := hawake
  rw [State.doorbell_of_empty x hen hfull hbiv, if_neg (by simp [hphase, DomEntry.woken_of_on hon, hon])]

/-- In a switchover, and while the active set sleeps or wakes, the word waits (R549, R598). -/
theorem State.doorbell_of_waiting {s : State} {p f : Nat} (x : Word) (hen : s.fnEnabled p f = true) (hfull : (s.fnWin p f).full = false)
    (hbiv : s.pow.bivouac = false) (hwait : s.WordsWait) : s.doorbell p f x = s.ring p f x := by
  rw [State.doorbell_of_empty x hen hfull hbiv, if_pos (hwait.imp_right DomEntry.woken_st_ne_on)]

/-- A further word is discarded (R601). -/
theorem State.doorbell_of_full {s : State} {p f : Nat} (x : Word) (hen : s.fnEnabled p f = true) (hfull : (s.fnWin p f).full = true) :
    s.doorbell p f x = (s.setFnWin p f { s.fnWin p f with overrun := true }).vector p f 4 := by
  simp [State.doorbell, hen, hfull]

/-- What an awake active set leaves of a word that finds none waiting: the window as firmware takes the word from it. -/
theorem State.doorbell_fnWin {s : State} {p f : Nat} {x : Word} {st : Status} (hen : s.fnEnabled p f = true) (hfull : (s.fnWin p f).full = false)
    (hbiv : s.pow.bivouac = false) (hawake : s.FirmwareAwake)
    (hst : (s.ring p f x).wordStatus ((s.fnWin p f).captured x (s.isOwnerFn p f)) = st) :
    ((s.doorbell p f x).fnWin p f).full = false ∧ ((s.doorbell p f x).fnWin p f).lastStatus = st.code
      ∧ ((s.doorbell p f x).fnWin p f).reject = ((s.fnWin p f).reject || decide (st ≠ .ok))
      ∧ ((s.doorbell p f x).fnWin p f).tail = if fld x.toNat 3 0 = 1 ∧ st = .ok then fld x.toNat 31 8 else (s.fnWin p f).tail := by
  rw [State.doorbell_of_awake x hen hfull hbiv hawake]
  have htaken := State.takeWord_fnWin (s := s.ring p f x) (p := p) (f := f) (st := st) (by simp) (by rwa [State.fnWin_ring])
  simpa only [State.fnWin_ring, Window.captured_fields, Window.captured_kind, Window.captured_value] using htaken

section Doorbell

variable {s : State} {p f : Nat} {x : Word}

/-- A WAKE is accepted and does nothing else. -/
theorem does_wake (hruns : s.runs = true) (hen : s.fnEnabled p f = true) (hbiv : s.pow.bivouac = false) (hfull : (s.fnWin p f).full = false)
    (hawake : s.FirmwareAwake) (hkind : fld x.toNat 3 0 = 0) :
    Does (.wake p f x) s fun t => (t.fnWin p f).full = false ∧ (t.fnWin p f).lastStatus = 0 ∧ (t.fnWin p f).tail = (s.fnWin p f).tail := by
  refine ⟨_, exec_wake hruns p f x, ?_⟩
  obtain ⟨hempty, hstatus, -, htail⟩ := State.doorbell_fnWin hen hfull hbiv hawake (State.wordStatus_of_wake _ (by simpa using hkind))
  exact ⟨hempty, hstatus, by simpa [hkind] using htail⟩

/-- A CQ_TAIL of the owning host's PF, within the ring of a queue that has no entry left to take, moves TAIL (R610). -/
theorem does_cqTail_of_owner (hruns : s.runs = true) (hen : s.fnEnabled p 0 = true) (hbiv : s.pow.bivouac = false) (hp : p = s.host.owner)
    (hfull : (s.fnWin p 0).full = false) (hawake : s.FirmwareAwake)
    (hfence : s.host.ownerFenced = false) (hcq : (s.fnWin p 0).en = true) (hkind : fld x.toNat 3 0 = 1) (hdone : (s.fnWin p 0).head = (s.fnWin p 0).tail)
    (hroom : (fld x.toNat 31 8 + 16777216 - (s.fnWin p 0).head) % 16777216 ≤ 2 ^ (s.fnWin p 0).lLog2) :
    Does (.cqTail p 0 x) s fun t => (t.fnWin p 0).tail = fld x.toNat 31 8 ∧ (t.fnWin p 0).full = false ∧ (t.fnWin p 0).lastStatus = 0 := by
  have howner : s.isOwnerFn p 0 = true := by simp [State.isOwnerFn, hp]
  have hst : (s.ring p 0 x).wordStatus ((s.fnWin p 0).captured x (s.isOwnerFn p 0)) = .ok := by
    refine State.wordStatus_of_owner (by simpa using hkind) howner hcq (by simpa using hfence) (by simpa using hroom) ?_
    have hnone : ((s.fnWin p 0).tail + 16777216 - (s.fnWin p 0).head) % 16777216 = 0 := by omega
    simp [hnone]
  refine ⟨_, exec_cqTail hruns p 0 x, ?_⟩
  obtain ⟨hempty, hstatus, -, htail⟩ := State.doorbell_fnWin hen hfull hbiv hawake hst
  exact ⟨by simpa [hkind] using htail, hempty, hstatus⟩

/-- A CQ_TAIL of any other function is rejected (R603, R613). -/
theorem does_cqTail_of_other (hruns : s.runs = true) (hen : s.fnEnabled p f = true) (hbiv : s.pow.bivouac = false) (hother : s.isOwnerFn p f = false)
    (hfull : (s.fnWin p f).full = false) (hawake : s.FirmwareAwake)
    (hkind : fld x.toNat 3 0 = 1) :
    Does (.cqTail p f x) s fun t => (t.fnWin p f).tail = (s.fnWin p f).tail ∧ (t.fnWin p f).reject = true
      ∧ (t.fnWin p f).lastStatus = Status.state.code := by
  refine ⟨_, exec_cqTail hruns p f x, ?_⟩
  obtain ⟨-, hstatus, hreject, htail⟩ := State.doorbell_fnWin hen hfull hbiv hawake (State.wordStatus_of_other _ (by simpa using hkind) hother)
  exact ⟨by simpa using htail, by simpa using hreject, hstatus⟩

theorem does_wake_of_waiting (hruns : s.runs = true) (hen : s.fnEnabled p f = true) (hbiv : s.pow.bivouac = false) (hfull : (s.fnWin p f).full = false)
    (hwait : s.WordsWait) :
    Does (.wake p f x) s fun t => (t.fnWin p f).full = true ∧ (t.fnWin p f).dbl = x &&& 0xFFFFFF0F := by
  have hexec := exec_wake hruns p f x
  rw [State.doorbell_of_waiting x hen hfull hbiv hwait] at hexec
  exact ⟨_, hexec, by simp, by simp [Window.captured]⟩

theorem does_wake_of_full (hruns : s.runs = true) (hen : s.fnEnabled p f = true) (hfull : (s.fnWin p f).full = true) :
    Does (.wake p f x) s fun t => (t.fnWin p f).full = true ∧ (t.fnWin p f).dbl = (s.fnWin p f).dbl ∧ (t.fnWin p f).overrun = true := by
  have hexec := exec_wake hruns p f x
  rw [State.doorbell_of_full x hen hfull] at hexec
  exact ⟨_, hexec, by simp [hfull]⟩

end Doorbell

/-- Settles O20: GO and the message registers by what GO and the channel are, a doorbell word by whether one waits, whether firmware is awake, and its KIND. -/
theorem goAndDoorbells : Obligations.GoAndDoorbells := by
  unfold Obligations.GoAndDoorbells
  refine ⟨fun s p f hruns hen => ⟨?_, ?_, ?_, ?_, ?_⟩, fun s p f w hruns hen hbiv => ⟨?_, ?_, ?_, ?_, ?_⟩⟩
  · exact fun n x hn hgo => does_mbxMsgWrite_of_idle x hruns hen hn hgo
  · exact fun n x hn hgo => does_mbxMsgWrite_of_go x hruns hen hn hgo
  · exact fun c i hgo hchan hcmd => does_go hruns hen hgo hchan hcmd
  · exact does_go_of_nochan hruns hen
  · exact exec_go_of_go hruns
  · exact does_wake hruns hen hbiv
  · rintro rfl hp hfull hawake hfence hcq hkind hdone hroom -
    exact does_cqTail_of_owner hruns hen hbiv hp hfull hawake hfence hcq hkind hdone hroom
  · exact does_cqTail_of_other hruns hen hbiv
  · exact fun hfull _ hwait => does_wake_of_waiting hruns hen hbiv hfull hwait
  · exact does_wake_of_full hruns hen

end Sys2Proof.Machine

/-! PROOF. O19: the controller's own transactions and the frames of the management Ethernet (17). What the end of a transaction's TAG is; then a completion by
whether its generation is the TAG's, a timeout by what is safe to repeat, and a frame by its service. -/

namespace Sys2Proof.Machine

/-- The TAG's transaction has ended and `e` is its entry now: the transaction that has waited longest takes a free TAG (R667). -/
def State.endTag (s : State) (tag : Nat) (e : TagEntry) : State :=
  State.tagFreed { s with lmf.tags := Tab.set s.lmf.tags tag e }

section Transactions
variable {s : State} {tag : Nat} {e : TagEntry} {x : Txn}

/-! ### Completions (R299, R666, R673) -/

/-- A completion of the TAG's generation ends its transaction, or begins its backoff where it is a NACK. -/
theorem exec_lmfCompletion_of_live (hruns : s.runs = true) (hget : Tab.get? s.lmf.tags tag = some e) (hlive : e.live = some x) (st : Status) (data : Bytes) :
    let u := (s.event (lmfUnit (Config.unitOf s.freeCtr % 32)) 0 (32 + data.length) none).endTag tag { e with live := none }
    exec (.lmfCompletion tag e.gen st data true) s
      = .next (if st = .nack then (u.backOff x u.freeVal).freed else (u.txnEnd x st data).settle) := by
  have hentry : Tab.getD s.lmf.tags tag { gen := 0, live := none } = e := by simp [Tab.getD, hget]
  show execLmfCompletion tag e.gen st data true s = _
  unfold execLmfCompletion
  rw [whenUp_of_runs hruns]
  simp only [hentry, if_true, hlive, State.endTag]

/-- A completion of another generation counts at its port, and as a late one. -/
theorem exec_lmfCompletion_of_old {gen : Nat} (hruns : s.runs = true) (hget : Tab.get? s.lmf.tags tag = some e) (hgen : gen ≠ e.gen) (st : Status) (data : Bytes)
    (sealOk : Bool) :
    let v := s.event (lmfUnit (Config.unitOf s.freeCtr % 32)) 0 (32 + data.length) none
    exec (.lmfCompletion tag gen st data sealOk) s
      = .next (State.event { v with lmf.lateCpl := v.lmf.lateCpl + 1 } (lmfUnit (Config.unitOf s.freeCtr % 32)) 6 1 none) := by
  have hentry : Tab.getD s.lmf.tags tag { gen := 0, live := none } = e := by simp [Tab.getD, hget]
  show execLmfCompletion tag gen st data sealOk s = _
  unfold execLmfCompletion
  rw [whenUp_of_runs hruns]
  simp only [hentry, if_neg hgen.symm]

theorem does_lmfCompletion_of_old {gen : Nat} (hruns : s.runs = true) (hget : Tab.get? s.lmf.tags tag = some e) (hgen : gen ≠ e.gen) (st : Status) (data : Bytes)
    (sealOk : Bool) :
    Does (.lmfCompletion tag gen st data sealOk) s fun t => t.lmf.lateCpl = s.lmf.lateCpl + 1 ∧ t.lmf.tags = s.lmf.tags ∧ t.home = s.home :=
  ⟨_, exec_lmfCompletion_of_old hruns hget hgen st data sealOk, by simp⟩

/-! ### Timeouts (R673, R674) -/

/-- At its LIMIT a transaction leaves its TAG with the next generation; what is safe to repeat is sent once more, and the rest ends. -/
theorem exec_transactionTimeout_of_due (hruns : s.runs = true) (hget : Tab.get? s.lmf.tags tag = some e) (hlive : e.live = some x) (hdue : x.limit ≤ s.now) :
    let u := s.endTag tag { gen := (e.gen + 1) % 128, live := none }
    exec (.transactionTimeout tag) s
      = if x.idem = false then .next (u.txnEnd x .outcomeUnknown []).settle
        else if x.tries = 0 then .next (u.issueTxn { x with tries := 1 })
        else .next (u.txnEnd x .paused []).settle := by
  show execTransactionTimeout tag s = _
  unfold execTransactionTimeout
  rw [whenUp_of_runs hruns]
  simp only [hget, hlive, if_neg (not_lt.mpr hdue), State.endTag]

end Transactions

/-! ### Frames of the management Ethernet (R687) -/

theorem exec_mgmtFrame_of_service {s : State} {svc : MgmtService} (hruns : s.runs = true) (m : Nat) (hsvc : svc ≠ .other) :
    exec (.mgmtFrame m svc) s = .next s := by
  show execMgmtFrame m svc s = _
  unfold execMgmtFrame
  rw [whenUp_of_runs hruns]
  cases svc with
  | management | telemetry | ptp => rfl
  | other => exact absurd rfl hsvc

theorem exec_mgmtFrame_other {s : State} (hruns : s.runs = true) (m : Nat) :
    exec (.mgmtFrame m .other) s = .next (State.event { s with lmf.frameDrop := s.lmf.frameDrop + 1 } (m % 2 * 256 + 0x62) 7 1 none) := by
  show execMgmtFrame m .other s = _
  unfold execMgmtFrame
  rw [whenUp_of_runs hruns]

/-- Settles O19: a completion by whether its generation is the TAG's, a timeout by whether the transaction is safe to repeat and was repeated, a frame by its service. -/
theorem transactionsAndFrames : Obligations.TransactionsAndFrames := by
  unfold Obligations.TransactionsAndFrames
  refine ⟨fun s tag e hruns hget => ⟨?_, ?_, ?_⟩, fun s m hruns => ⟨?_, ?_⟩⟩
  · exact fun x st data hlive => ⟨_, exec_lmfCompletion_of_live hruns hget hlive st data, fun hst => if_neg hst, fun hst => if_pos hst⟩
  · exact fun gen st data sealOk hgen => does_lmfCompletion_of_old hruns hget hgen st data sealOk
  · intro x hlive hdue
    have hexec := exec_transactionTimeout_of_due hruns hget hlive hdue
    refine ⟨fun hidem => ?_, fun hidem htries => ?_, fun hidem htries => ?_⟩
    · exact hexec.trans (if_pos hidem)
    · exact hexec.trans ((if_neg (by simp [hidem])).trans (if_pos htries))
    · exact hexec.trans ((if_neg (by simp [hidem])).trans (if_neg htries))
  · exact fun svc hsvc => exec_mgmtFrame_of_service hruns m hsvc
  · exact ⟨_, exec_mgmtFrame_other hruns m, by simp⟩

end Sys2Proof.Machine

/-! PROOF. What a command that writes bytes to the range it names leaves of memory (02, 05, R62, R187, R872): the regions but for their tables, and the bytes of the
published pages. Coding, placement and heat leave both; a write changes the bytes of its page, and the page that it allocates is mapped. -/

namespace Sys2Proof.Machine

/-! ### Memory as a read sees it -/

/-- A region without the table that codes it. -/
def Region.untabled (r : Region) : Region := { r with table := none }

@[simp] theorem Region.untabled_fields (r : Region) :
    r.untabled.mode = r.mode ∧ r.untabled.mirror = r.mirror ∧ (∀ p, r.untabled.handleOf p = r.handleOf p) := ⟨rfl, rfl, fun _ => rfl⟩

/-- The regions, without their tables, and the bytes of each handle's published page. -/
structure Memory where
  layout : Nat → Option Region
  bytes : Nat → Option Mem

/-- The memory of a state. -/
def State.memory (s : State) : Memory :=
  { layout := fun rid => (s.region? rid).map Region.untabled, bytes := fun h => (s.page? (.pub h)).map TierPage.bytes }

/-- How each region is written to: its mode and its mirror partner. -/
def Memory.terms (m : Memory) (rid : Nat) : Option (Mode × Nat) := (m.layout rid).map fun r => (r.mode, r.mirror)

/-- Memory holds bytes at an offset of a region, in the published page that the region's leaf names. -/
def Memory.Holds (m : Memory) (rid off : Nat) (data : Bytes) : Prop :=
  ∃ r h b, m.layout rid = some r ∧ r.handleOf (off / 65536) = some h ∧ m.bytes h = some b ∧ Mem.readN b (off % 65536) data.length = data

theorem State.memory_of_tables {s t : State} (hregions : t.home.regions = s.home.regions) (hpages : t.home.pages = s.home.pages) : t.memory = s.memory := by
  simp only [State.memory, State.region?, State.page?, hregions, hpages]

theorem State.memory_of_home {s t : State} (h : t.home = s.home) : t.memory = s.memory :=
  State.memory_of_tables (congrArg Home.regions h) (congrArg Home.pages h)

theorem State.foldl_memory {α : Type} (f : State → α → State) (h : ∀ s a, (f s a).memory = s.memory) (l : List α) (s : State) :
    (l.foldl f s).memory = s.memory := by
  induction l generalizing s with
  | nil => rfl
  | cons a l ih => rw [List.foldl_cons, ih, h]

/-- A range within one page is one piece. -/
theorem pieces_of_onePage {off n : Nat} (hn : n ≠ 0) (hpage : off / 65536 = (off + n - 1) / 65536) : pieces off n = [(off, n)] := by
  have hone : (off + n - 1) / 65536 + 1 - off / 65536 = 1 := by omega
  have hlo : max off (off / 65536 * 65536) = off := by omega
  have hhi : min (off + n) (off / 65536 * 65536 + 65536) = off + n := by omega
  simp [pieces, pagesOf, hn, hone, upto, hlo, hhi]

/-- What memory holds within one page, the published view shows. -/
theorem State.shows_of_holds {s : State} {rid off : Nat} {data : Bytes} (hdata : data.length ≠ 0) (hpage : off / 65536 = (off + data.length - 1) / 65536)
    (h : s.memory.Holds rid off data) : s.shows rid .pub off data := by
  obtain ⟨r, k, b, hlayout, hhandle, hbytes, hread⟩ := h
  obtain ⟨rg, hrg, rfl⟩ := Option.map_eq_some_iff.mp hlayout
  obtain ⟨pg, hpg, rfl⟩ := Option.map_eq_some_iff.mp hbytes
  have hleaf : rg.handleOf (off / 65536) = some k := hhandle
  refine ⟨rg, hrg, ?_⟩
  simp [State.readRange, pieces_of_onePage hdata hpage, State.viewRef, hleaf, hpg, hread]

/-- No bytes at all, a view of any region shows. -/
theorem State.shows_nil {s : State} {rid : Nat} {x : Mode × Nat} (hterms : s.memory.terms rid = some x) (v : View) (off : Nat) : s.shows rid v off [] := by
  obtain ⟨y, hlayout, -⟩ := Option.map_eq_some_iff.mp hterms
  obtain ⟨rg, hrg, -⟩ := Option.map_eq_some_iff.mp hlayout
  exact ⟨rg, hrg, by simp [State.readRange, pieces_nil_of_zero]⟩

/-! ### Coding, placement and heat leave memory -/

@[simp] theorem State.memEvent_memory (s : State) (layer idx n : Nat) (ref : PageRef) : (s.memEvent layer idx n ref).memory = s.memory := rfl

@[simp] theorem State.strataEvent_memory (s : State) (idx n : Nat) : (s.strataEvent idx n).memory = s.memory := rfl

@[simp] theorem State.sweepTables_memory (s : State) : s.sweepTables.memory = s.memory := rfl

@[simp] theorem State.t2Put_memory (s : State) (im : Image) : (s.t2Put im).memory = s.memory := State.memory_of_home (by simp)

@[simp] theorem State.t2Get_memory (s : State) (ref : PageRef) : (s.t2Get ref).memory = s.memory := State.memory_of_home (by simp)

@[simp] theorem State.encoderRan_memory (s : State) (ref : PageRef) (p : TierPage) (im : Image) : (s.encoderRan ref p im).memory = s.memory :=
  State.memory_of_home (by simp)

/-- A change of a tier page that keeps its bytes. -/
theorem State.modPage_memory {f : TierPage → TierPage} (hf : ∀ p, (f p).bytes = p.bytes) (s : State) (ref : PageRef) :
    (s.modPage ref f).memory = s.memory := by
  have hpub (hd : Handle) : (hd.modify ref f).pub.bytes = hd.pub.bytes := by cases ref <;> simp [Handle.modify, hf]
  simp only [State.memory, State.region?, State.page?, State.modPage_home, Tab.get?_modify, Memory.mk.injEq, true_and]
  funext k
  split <;> simp [Function.comp_def, hpub]

/-- A table that codes a region is no part of its memory. -/
theorem State.memory_of_setTable {s t : State} {rid : Nat} {r : Region} {table : Option Nat} (hrg : s.region? rid = some r)
    (hregions : t.home.regions = Tab.set s.home.regions rid { r with table := table }) (hpages : t.home.pages = s.home.pages) : t.memory = s.memory := by
  have hget : Tab.get? s.home.regions rid = some r := hrg
  simp only [State.memory, State.region?, State.page?, hregions, hpages, Tab.get?_set, Memory.mk.injEq, and_true]
  funext k
  split
  · subst k
    simp [hget, Region.untabled]
  · rfl

theorem State.chooseTable_memory {s : State} {rid : Nat} {r : Region} (hrg : s.region? rid = some r) (bytes : Bytes) :
    (s.chooseTable rid r bytes).1.memory = s.memory := by
  unfold State.chooseTable
  dsimp only
  iterate 3
    rw [apply_ite Prod.fst, apply_ite State.memory]
    refine ite_eq_left_iff.mpr fun _ => ?_
  exact State.memory_of_setTable hrg rfl rfl

theorem State.encodeGroup_memory {place : Image → TierPage → TierPage} (hplace : ∀ im p, (place im p).bytes = p.bytes) (s : State) (rid : Nat)
    (refs : List PageRef) (b : TierPage → Backing) : (s.encodeGroup rid refs b place).memory = s.memory := by
  unfold State.encodeGroup
  split
  · rfl
  rename_i r hrg
  dsimp only
  rw [State.sweepTables_memory, State.foldl_memory, State.chooseTable_memory hrg]
  intro s ref
  split
  · rfl
  · split <;> simp only [State.encoderRan_memory, State.t2Put_memory, State.memEvent_memory] <;> exact State.modPage_memory (hplace _) _ _

@[simp] theorem State.writeBackNow_memory (s : State) (ref : PageRef) : (s.writeBackNow ref).memory = s.memory := by
  unfold State.writeBackNow
  split
  · rw [State.strataEvent_memory, State.encodeGroup_memory]
    exact fun _ _ => rfl
  · rfl

@[simp] theorem State.evict_memory (s : State) (e : PageRef × TierPage) : (s.evict e).memory = s.memory := by
  unfold State.evict
  rw [State.strataEvent_memory, State.modPage_memory]
  · split <;> simp
  · exact fun _ => rfl

@[simp] theorem State.roomT0_memory (s : State) : s.roomT0.memory = s.memory := by
  unfold State.roomT0
  (repeat' split) <;> simp

@[simp] theorem State.fillT0_memory (s : State) (ref : PageRef) : (s.fillT0 ref).memory = s.memory := by
  unfold State.fillT0
  split
  · split
    · rw [State.strataEvent_memory, State.modPage_memory]
      · split <;> simp
      · exact fun _ => rfl
    · rfl
  · rfl

@[simp] theorem State.touch_memory (s : State) (port : Bool) (ref : PageRef) (off n : Nat) : (s.touch port ref off n).memory = s.memory := by
  unfold State.touch
  dsimp only
  split
  · rw [State.modPage_memory, State.modPage_memory]
    all_goals exact fun _ => rfl
  · rw [State.modPage_memory]
    exact fun _ => rfl

@[simp] theorem State.touchRange_memory (s : State) (port : Bool) (rid : Nat) (v : View) (off n : Nat) : (s.touchRange port rid v off n).memory = s.memory := by
  refine State.foldl_memory _ (fun s q => ?_) _ s
  (repeat' split) <;> simp

/-! ### A page that is allocated -/

/-- A page that a write allocates is zero-filled, and a leaf of its region names it (R73). -/
theorem State.allocate_memory (s : State) (rid p : Nat) (r : Region) : ∃ h, (s.allocate rid p r).memory =
    { layout := Function.update s.memory.layout rid (some (Region.untabled { r with entries := Tab.set r.entries p (.leaf h false p 1) }))
      bytes := Function.update s.memory.bytes h (some []) } := by
  obtain ⟨u, hu, hmem⟩ : ∃ u, (if r.policy.place = .t0Only then s.roomT0 else s) = u ∧ u.memory = s.memory := ⟨_, rfl, by split <;> simp⟩
  refine ⟨u.home.nextHandle, ?_⟩
  rw [← hmem]
  unfold State.allocate
  simp only [hu, State.memory, State.region?, State.page?, Memory.mk.injEq]
  constructor
  all_goals
    funext k
    rw [Tab.get?_set, Function.update_apply]
    split <;> rfl

/-- Allocation leaves how each region is written to. -/
@[simp] theorem State.ensurePage_terms (s : State) (rid p : Nat) : (s.ensurePage rid p).memory.terms = s.memory.terms := by
  unfold State.ensurePage
  split
  · rename_i r hrg
    split
    · obtain ⟨h, hmem⟩ := s.allocate_memory rid p r
      funext k
      rw [hmem]
      by_cases hk : k = rid
      · subst hk
        simp [Memory.terms, State.memory, hrg]
      · simp [Memory.terms, hk]
    · rfl
  · rfl

/-- Then the page has a leaf, on a page that the tiers hold. -/
theorem State.ensurePage_held {s : State} {rid off : Nat} {r : Region} (hrg : s.region? rid = some r) (hheld : s.pageHeld r off = true) :
    ∃ x h b, (s.ensurePage rid (off / 65536)).memory.layout rid = some x ∧ x.handleOf (off / 65536) = some h
      ∧ (s.ensurePage rid (off / 65536)).memory.bytes h = some b := by
  unfold State.ensurePage
  simp only [hrg]
  cases hleaf : r.handleOf (off / 65536) with
  | none =>
    obtain ⟨h, hmem⟩ := s.allocate_memory rid (off / 65536) r
    simp only [Option.isNone_none, if_true, hmem]
    refine ⟨_, h, [], Function.update_self _ _ _, ?_, Function.update_self _ _ _⟩
    simp [Region.handleOf, Region.entry, Region.untabled, Entry.handle?]
  | some h =>
    simp only [State.pageHeld, hleaf, State.handle?] at hheld
    obtain ⟨hd, hhd⟩ := Option.isSome_iff_exists.mp hheld
    exact ⟨r.untabled, h, hd.pub.bytes, by simp [State.memory, hrg], by simp [hleaf], by simp [State.memory, State.page?, hhd]⟩

/-! ### A write -/

/-- Of a write into a copy only the bytes that it puts there count. -/
theorem State.putRef_memory (s : State) (ref : PageRef) (off : Nat) (data : Bytes) :
    (s.putRef ref off data).memory = ((s.fillT0 ref).modPage ref fun p => p.put off data).memory := by
  unfold State.putRef
  dsimp only
  (repeat' split) <;> rfl

/-- Bytes put into a copy leave the regions as they are. -/
@[simp] theorem State.putRef_layout (s : State) (ref : PageRef) (off : Nat) (data : Bytes) : (s.putRef ref off data).memory.layout = s.memory.layout := by
  rw [State.putRef_memory, ← State.fillT0_memory s ref]
  rfl

/-- Bytes put into a published page stand in it. -/
theorem State.putRef_bytes {s : State} {h : Nat} {b : Mem} (hb : s.memory.bytes h = some b) (off : Nat) (data : Bytes) :
    (s.putRef (.pub h) off data).memory.bytes h = some (Mem.writeN b off data) := by
  rw [← State.fillT0_memory s (.pub h)] at hb
  obtain ⟨pg, hpg, rfl⟩ := Option.map_eq_some_iff.mp hb
  obtain ⟨hd, hhd, rfl⟩ := Option.map_eq_some_iff.mp hpg
  rw [State.putRef_memory]
  simp [State.memory, State.page?, Tab.get?_modify, refHandle, hhd, Handle.modify, TierPage.put, TierPage.dropTl]

/-- A write outside publish mode leaves how each region is written to. -/
theorem State.write1_terms {s : State} {rid : Nat} {x : Mode × Nat} (hterms : s.memory.terms rid = some x) (hmode : x.1 ≠ .publish) (i : Issuer) (off : Nat)
    (data : Bytes) : (s.write1 rid (.shadowed i) off data).memory.terms = s.memory.terms := by
  have hput (v : State) (ref : PageRef) (n : Nat) : (v.putRef ref n data).memory.terms = v.memory.terms := by
    unfold Memory.terms
    rw [State.putRef_layout]
  unfold State.write1
  dsimp only
  split
  · rfl
  rename_i r hrg
  obtain rfl : (r.mode, r.mirror) = x := by simpa [Memory.terms, State.memory, hrg] using hterms
  split
  · contradiction
  · contradiction
  · (repeat' split) <;> simp only [hput, State.ensurePage_terms]

theorem State.writePieces_terms {s : State} {rid : Nat} {x : Mode × Nat} (hterms : s.memory.terms rid = some x) (hmode : x.1 ≠ .publish) (i : Issuer) (data : Bytes)
    (off : Nat) (l : List (Nat × Nat)) : (s.writePieces rid (.shadowed i) data off l).memory.terms = s.memory.terms := by
  induction l generalizing s with
  | nil => rfl
  | cons e l ih =>
    have hone := State.write1_terms hterms hmode i e.1 ((data.drop (e.1 - off)).take e.2)
    rw [State.writePieces, ih (by rw [hone, hterms]), hone]

/-- One piece written outside publish mode stands in memory. -/
theorem State.write1_holds {s : State} {rid off : Nat} {rg : Region} (hrg : s.region? rid = some rg) (hmode : rg.mode ≠ .publish)
    (hheld : s.pageHeld rg off = true) (i : Issuer) (data : Bytes) : (s.write1 rid (.shadowed i) off data).memory.Holds rid off data := by
  obtain ⟨x, h, b, hlayout, hleaf, hbytes⟩ := State.ensurePage_held hrg hheld
  obtain ⟨r, hr, rfl⟩ := Option.map_eq_some_iff.mp hlayout
  have hwrite : s.write1 rid (.shadowed i) off data = (s.ensurePage rid (off / 65536)).putRef (.pub h) (off % 65536) data := by
    have hr' : r.handleOf (off / 65536) = some h := hleaf
    unfold State.write1
    simp only [hrg]
    split
    · contradiction
    · contradiction
    · simp only [hr, hr']
  rw [hwrite]
  exact ⟨r.untabled, h, _, by rw [State.putRef_layout, hlayout], hleaf, State.putRef_bytes hbytes _ _, Mem.readN_writeN_self _ _ _⟩

/-- A range within one page, written outside publish mode, stands in memory. -/
theorem State.writeRange_holds {s : State} {rid off : Nat} {rg : Region} {data : Bytes} (hrg : s.region? rid = some rg) (hmode : rg.mode ≠ .publish)
    (hheld : s.pageHeld rg off = true) (hdata : data.length ≠ 0) (hpage : off / 65536 = (off + data.length - 1) / 65536) (i : Issuer) :
    (s.writeRange rid (.shadowed i) off data).memory.Holds rid off data := by
  simpa [State.writeRange, pieces_of_onePage hdata hpage, State.writePieces] using State.write1_holds hrg hmode hheld i data

/-! ### The commands that copy -/

/-- The range that a request opens lies in a region of its home. -/
theorem State.region?_of_opens {s : State} {r : BciReq} {i : Issuer} {key off n rid : Nat} {need : Rights} {rg : Region}
    (h : s.opens r i key off n need = some (rid, rg)) : s.region? rid = some rg := by
  unfold State.opens at h
  split at h
  · rename_i hpermit
    split at h <;> cases h
    obtain ⟨hlive, -⟩ := State.permit_some hpermit
    obtain ⟨-, hrg, -⟩ := State.live_some hlive
    exact hrg
  · cases h

/-- An operation on a region that is not mirrored is answered at once (R737). -/
theorem State.answerAfter_of_unmirrored {s : State} {rid : Nat} {x : Mode × Nat} (hterms : s.memory.terms rid = some x) (hmirror : x.2 = 0) (off : Nat)
    (data : Bytes) (log : Option LogNote) (st : Status) (a : Answer) : s.answerAfter rid off data log st a = s.giveAnswer st a := by
  obtain ⟨y, hlayout, rfl⟩ := Option.map_eq_some_iff.mp hterms
  obtain ⟨rg, hrg, rfl⟩ := Option.map_eq_some_iff.mp hlayout
  have hnone : rg.mirror = 0 := hmirror
  simp [State.answerAfter, hrg, hnone]

/-- A command that copies bytes to the range it names, and then changes nothing of memory: what it changes besides holds of the state it answers from. -/
theorem copies_of_copyOut {c : Instr} {s u : State} {r : BciReq} {i : Issuer} {key off : Nat} {data : Bytes} {ws : List Word} {after : State → State}
    {P : State → Prop} (hexec : exec c s = u.copyOut c r i key off data ws after) (hafter : ∀ v, (after v).home = v.home) (hP : ∀ v, P (after v)) :
    Copies c s r i u key off data ws P := by
  intro rid rg hopens hclear hplain
  have hrg := State.region?_of_opens hopens
  rw [State.copyOut, State.onRegion_of_opens hopens] at hexec
  simp only [hclear] at hexec
  generalize hv : (u.writeRange rid (.shadowed i) off data).touchRange false rid (.own i) off data.length = v at hexec
  have hmem : (after v).memory = (u.writeRange rid (.shadowed i) off data).memory := by
    rw [State.memory_of_home (hafter v), ← hv, State.touchRange_memory]
  have hterms (hmode : rg.mode ≠ .publish) : (after v).memory.terms rid = some (rg.mode, rg.mirror) := by
    have hold : u.memory.terms rid = some (rg.mode, rg.mirror) := by simp [Memory.terms, State.memory, hrg]
    rw [hmem, State.writeRange, State.writePieces_terms hold hmode, hold]
  refine ⟨after v, ?_, hP v, fun hmode hpage hheld => ?_⟩
  · rw [hexec]
    split
    · rfl
    · rename_i hmode
      rw [State.answerAfter_of_unmirrored (hterms hmode) (hplain.resolve_left hmode)]
      rfl
  · by_cases hdata : data.length = 0
    · obtain rfl := List.length_eq_zero_iff.mp hdata
      exact State.shows_nil (hterms hmode) .pub off
    · refine State.shows_of_holds hdata hpage ?_
      rw [hmem]
      exact State.writeRange_holds hrg hmode hheld hdata hpage i

end Sys2Proof.Machine

/-! PROOF. O51: event counters, snapshots, freezes, context counters and bandwidth windows (21). What a change of the entries of a range of a table leaves of each
counter, and what the counter units' own event leaves of the counters; then one lemma for each command, by the request that is ready. -/

namespace Sys2Proof.Machine

/-! ### Tables of counters -/

/-- A change of the entries of a range, which leaves the default as it is, is the change of each key of the range. -/
theorem Tab.getD_map_range {α : Type} {g : α → α} {d : α} (hd : g d = d) (t : Tab α) (first n k : Nat) :
    Tab.getD (t.map fun e => if first ≤ e.1 ∧ e.1 < first + n then (e.1, g e.2) else e) k d
      = if first ≤ k ∧ k < first + n then g (Tab.getD t k d) else Tab.getD t k d := by
  induction t with
  | nil => simp [Tab.getD, Tab.get?, hd]
  | cons e t ih =>
    obtain ⟨j, v⟩ := e
    by_cases hkey : j = k
    · subst hkey
      by_cases hrange : first ≤ j ∧ j < first + n <;> simp [Tab.getD, Tab.get?, hrange]
    · by_cases hrange : first ≤ j ∧ j < first + n <;> simpa [Tab.getD, Tab.get?, hrange, hkey] using ih

/-- The entry of a key after a change of every entry. -/
theorem Tab.get?_map_values {α β : Type} (f : α → β) (t : Tab α) (k : Nat) : Tab.get? (t.map fun e => (e.1, f e.2)) k = (Tab.get? t k).map f := by
  induction t with
  | nil => rfl
  | cons e t ih =>
    obtain ⟨j, v⟩ := e
    by_cases hkey : j = k <;> simp [Tab.get?, hkey, ih]

/-- The counters of a range have no WRAP bit once it is cleared (R802). -/
theorem wrap_clearWrap {first n k : Nat} (hk : first ≤ k ∧ k < first + n) (t : Tab EvCounter) :
    (Tab.getD (clearWrap t first n) k EvCounter.fresh).wrap = false :=
  congrArg EvCounter.wrap ((Tab.getD_map_range (g := fun c : EvCounter => { c with wrap := false }) rfl t first n k).trans (if_pos hk))

/-- So for the counters of a context. -/
theorem wrap_clearWrapCtx {first n k : Nat} (hk : first ≤ k ∧ k < first + n) (t : Tab CtxCounter) :
    (Tab.getD (clearWrapCtx t first n) k CtxCounter.fresh).wrap = false :=
  congrArg CtxCounter.wrap ((Tab.getD_map_range (g := fun x : CtxCounter => { x with wrap := false }) rfl t first n k).trans (if_pos hk))

/-- A change of a context's counters, where a context that is FREE has none. -/
theorem State.ctxCtrs_modify {s : State} {c : Nat} {g : Tab CtxCounter → Tab CtxCounter} (hfree : Tab.get? s.bci.contexts c = none → g [] = []) :
    State.ctxCtrs { s with bci.contexts := Tab.modify s.bci.contexts c fun x => { x with ctrs := g x.ctrs } } c = g (s.ctxCtrs c) := by
  unfold State.ctxCtrs
  simp only [Tab.get?_modify, if_true]
  cases hctx : Tab.get? s.bci.contexts c with
  | none => exact (hfree hctx).symm
  | some x => rfl

/-- A copy of every context's counters holds each context's (R803). -/
theorem State.getD_contexts_ctrs (s : State) (c : Nat) : Tab.getD (s.bci.contexts.map fun e => (e.1, e.2.ctrs)) c [] = s.ctxCtrs c := by
  unfold Tab.getD State.ctxCtrs
  rw [Tab.get?_map_values]
  cases Tab.get? s.bci.contexts c <;> rfl

/-! ### The event of the counter units (R811, R816) -/

/-- A trace record changes nothing of the counters. -/
@[simp] theorem State.traceGen_counters (s : State) (die typ slots time : Nat) (body : List Word) :
    (s.traceGen die typ slots time body).obs.snap = s.obs.snap ∧ (s.traceGen die typ slots time body).obs.frozen = s.obs.frozen
      ∧ (s.traceGen die typ slots time body).obs.events = s.obs.events := ⟨rfl, rfl, rfl⟩

/-- Nor does a cairn entry. -/
@[simp] theorem State.cairn_counters (s : State) (hw code ctx payload : Nat) :
    (s.cairn hw code ctx payload).obs.snap = s.obs.snap ∧ (s.cairn hw code ctx payload).obs.frozen = s.obs.frozen
      ∧ (s.cairn hw code ctx payload).obs.events = s.obs.events := by
  unfold State.cairn State.cairnAt
  split
  · exact ⟨rfl, rfl, rfl⟩
  · exact ⟨rfl, rfl, rfl⟩

@[simp] theorem State.event_snap (s : State) (hw idx n : Nat) (ctx : Option Nat) : (s.event hw idx n ctx).obs.snap = s.obs.snap := rfl

@[simp] theorem State.event_frozen (s : State) (hw idx n : Nat) (ctx : Option Nat) : (s.event hw idx n ctx).obs.frozen = s.obs.frozen := rfl

/-- Frozen counters do not count (R804). -/
theorem State.event_events_of_frozen {s : State} (h : s.obs.frozen = true) (hw idx n : Nat) (ctx : Option Nat) :
    (s.event hw idx n ctx).obs.events = s.obs.events := by
  simp [State.event, h]

/-- An event counts on its own counter only. -/
theorem State.event_events_ne {hw idx k : Nat} (hk : k ≠ hw * 8 + idx) (s : State) (n : Nat) (ctx : Option Nat) :
    Tab.get? (s.event hw idx n ctx).obs.events k = Tab.get? s.obs.events k := by
  unfold State.event
  dsimp only
  split
  · rfl
  · exact Tab.get?_set_ne _ _ hk

/-- The counter units' own event leaves the snapshot bank and the freeze as they are. -/
@[simp] theorem State.counterEvent_bank (s : State) (code : Nat) :
    (s.counterEvent code).obs.snap = s.obs.snap ∧ (s.counterEvent code).obs.frozen = s.obs.frozen := by
  simp [State.counterEvent]

theorem State.counterEvent_events_of_frozen {s : State} (h : s.obs.frozen = true) (code : Nat) : (s.counterEvent code).obs.events = s.obs.events := by
  simp [State.counterEvent, State.event_events_of_frozen, h]

theorem State.counterEvent_events_ne {k : Nat} (heast : k ≠ 0x6B * 8 + 1) (hwest : k ≠ 0x16B * 8 + 1) (s : State) (code : Nat) :
    Tab.get? (s.counterEvent code).obs.events k = Tab.get? s.obs.events k := by
  simp [State.counterEvent, State.event_events_ne heast, State.event_events_ne hwest]

/-! ### Reading counters (R801, R802, R827, R828) -/

theorem copies_cntRead_events {s u : State} {r : BciReq} {i : Issuer}
    (hready : s.ready (.cntRead r) { BciRow.f 0x120 6 with minor := some 0, resv := fun r => above r 1 3 || offResv r 5 } r = some (i, u)) (hn : r.w 3 ≠ 0)
    (hsrc : fld (r.w 1) 1 0 < 2) (hpriv : u.privileged r = true) (hrange : r.w 2 + r.w 3 ≤ 4096) :
    Copies (.cntRead r) s r i u (r.w 4) (r.d 5)
      ((upto (r.w 3)).flatMap fun k =>
        let c := Tab.getD (if fld (r.w 1) 1 0 = 0 then u.obs.events else u.obs.snap.events) (r.w 2 + k) EvCounter.fresh
        natLE 8 (c.value + 2 ^ 48 * b2n c.wrap + 2 ^ 49 * b2n u.obs.frozen))
      (one u.obs.snap.seq ++ two u.obs.snap.time)
      fun t => bitAt (r.w 1) 2 = true → fld (r.w 1) 1 0 = 0 → ∀ k, r.w 2 ≤ k ∧ k < r.w 2 + r.w 3 → (Tab.getD t.obs.events k EvCounter.fresh).wrap = false := by
  have hexec : exec (.cntRead r) s = execCntRead r s := rfl
  unfold execCntRead at hexec
  rw [bciServe_of_ready hready, if_neg (by simp [hpriv]), if_neg (by rw [if_pos hsrc]; omega), if_pos hsrc] at hexec
  refine copies_of_copyOut hexec (fun v => ?_) fun v hclear hevents k hk => ?_
  · (repeat' split) <;> rfl
  · simp [hclear, hevents, wrap_clearWrap hk]

theorem copies_cntRead_context {s u : State} {r : BciReq} {i : Issuer} {c : Nat}
    (hready : s.ready (.cntRead r) { BciRow.f 0x120 6 with minor := some 0, resv := fun r => above r 1 3 || offResv r 5 } r = some (i, u)) (hn : r.w 3 ≠ 0)
    (hsrc : 2 ≤ fld (r.w 1) 1 0) (hctx : u.counterCtx r i = some c) (hrange : r.w 2 + r.w 3 ≤ 32) :
    Copies (.cntRead r) s r i u (r.w 4) (r.d 5)
      ((upto (r.w 3)).flatMap fun k =>
        let x := Tab.getD (if fld (r.w 1) 1 0 = 2 then u.ctxCtrs c else Tab.getD u.obs.snap.ctxs c []) (r.w 2 + k) CtxCounter.fresh
        natLE 8 (x.value + 2 ^ 48 * b2n x.wrap + 2 ^ 49 * b2n u.obs.frozen))
      (one u.obs.snap.seq ++ two u.obs.snap.time)
      fun t => bitAt (r.w 1) 2 = true → fld (r.w 1) 1 0 = 2 → ∀ k, r.w 2 ≤ k ∧ k < r.w 2 + r.w 3 → (Tab.getD (t.ctxCtrs c) k CtxCounter.fresh).wrap = false := by
  have hexec : exec (.cntRead r) s = execCntRead r s := rfl
  unfold execCntRead at hexec
  rw [bciServe_of_ready hready, if_neg (by omega), if_neg (by rw [if_neg (by omega)]; omega), if_neg (by omega)] at hexec
  simp only [hctx] at hexec
  refine copies_of_copyOut hexec (fun v => ?_) fun v hclear hown k hk => ?_
  · (repeat' split) <;> rfl
  · simp only [hclear, hown, Bool.not_true, Bool.false_eq_true, if_false, if_true]
    rw [State.ctxCtrs_modify (g := fun t => clearWrapCtx t (r.w 2) (r.w 3)) fun _ => rfl, wrap_clearWrapCtx hk]

/-! ### Modes, resets and events (R790, R794, R797, R801, R828) -/

theorem answers_cntMode {s u : State} {r : BciReq} {i : Issuer}
    (hready : s.ready (.cntMode r) { BciRow.p 0x121 2 with resv := fun r => above r 1 12 || above r 2 1 } r = some (i, u)) :
    Answers (.cntMode r) s r [] fun t => t = { u with obs.events := t.obs.events }
      ∧ Tab.get? t.obs.events (r.w 1) = some { Tab.getD u.obs.events (r.w 1) EvCounter.fresh with edge := decide (r.w 2 = 1) }
      ∧ ∀ k, k ≠ r.w 1 → Tab.get? t.obs.events k = Tab.get? u.obs.events k := by
  have hexec : exec (.cntMode r) s = execCntMode r s := rfl
  unfold execCntMode at hexec
  rw [bciServe_of_ready hready] at hexec
  exact ⟨_, hexec, rfl, Tab.get?_set_self _ _ _, fun k hk => Tab.get?_set_ne _ _ hk⟩

theorem answers_cntReset_events {s u : State} {r : BciReq} {i : Issuer}
    (hready : s.ready (.cntReset r) { BciRow.f 0x122 3 with minor := some 0, resv := fun r => decide (r.w 1 ≠ 0 ∧ r.w 1 ≠ 2) } r = some (i, u))
    (hsrc : r.w 1 = 0) (hpriv : u.privileged r = true) (hrange : r.w 2 + r.w 3 ≤ 4096) :
    Answers (.cntReset r) s r [] fun t => t = { u with obs.events := t.obs.events }
      ∧ ∀ k, Tab.getD t.obs.events k EvCounter.fresh
        = if r.w 2 ≤ k ∧ k < r.w 2 + r.w 3 then { Tab.getD u.obs.events k EvCounter.fresh with value := 0, wrap := false }
          else Tab.getD u.obs.events k EvCounter.fresh := by
  have hexec : exec (.cntReset r) s = execCntReset r s := rfl
  unfold execCntReset at hexec
  rw [bciServe_of_ready hready, if_neg (by simp [hpriv]), if_neg (by rw [if_pos hsrc]; omega), if_pos hsrc] at hexec
  exact ⟨_, hexec, rfl, fun k => Tab.getD_map_range (g := fun c : EvCounter => { c with value := 0, wrap := false }) rfl _ _ _ k⟩

theorem answers_cntReset_context {s u : State} {r : BciReq} {i : Issuer} {c : Nat}
    (hready : s.ready (.cntReset r) { BciRow.f 0x122 3 with minor := some 0, resv := fun r => decide (r.w 1 ≠ 0 ∧ r.w 1 ≠ 2) } r = some (i, u))
    (hsrc : r.w 1 = 2) (hctx : u.counterCtx r i = some c) (hrange : r.w 2 + r.w 3 ≤ 32) :
    Answers (.cntReset r) s r [] fun t => t = { u with bci.contexts := t.bci.contexts }
      ∧ ∀ k, Tab.getD (t.ctxCtrs c) k CtxCounter.fresh
        = if r.w 2 ≤ k ∧ k < r.w 2 + r.w 3 then { Tab.getD (u.ctxCtrs c) k CtxCounter.fresh with value := 0, wrap := false }
          else Tab.getD (u.ctxCtrs c) k CtxCounter.fresh := by
  have hexec : exec (.cntReset r) s = execCntReset r s := rfl
  unfold execCntReset at hexec
  rw [bciServe_of_ready hready, if_neg (by omega), if_neg (by rw [if_neg (by omega)]; omega), if_neg (by omega)] at hexec
  simp only [hctx] at hexec
  refine ⟨_, hexec, rfl, fun k => ?_⟩
  rw [State.ctxCtrs_modify (g := List.map _) fun _ => rfl]
  exact Tab.getD_map_range (g := fun x : CtxCounter => { x with value := 0, wrap := false }) rfl _ _ _ k

/-- A context that may be given work is one that is not FREE. -/
theorem State.get?_contexts_of_ctxOk {s : State} {c : Nat} (h : s.ctxOk c = true) : Tab.get? s.bci.contexts c ≠ none := by
  intro hfree
  simp [State.ctxOk, State.ctxIs, hfree] at h

theorem answers_cntCtxSet {s u : State} {r : BciReq} {i : Issuer} {c : Nat}
    (hready : s.ready (.cntCtxSet r) { BciRow.f 0x125 2 with
      minor := some 0, resv := fun r => above r 1 5 || decide (fld (r.w 2) 15 14 ≠ 0 ∨ fld (r.w 2) 30 28 ≠ 0) || (!bitAt (r.w 2) 31 && decide (fld (r.w 2) 27 16 ≠ 0)) } r = some (i, u))
    (hnamed : bitAt (r.w 2) 31 = true → u.privileged r = true ∧ c = fld (r.w 2) 27 16) (hown : bitAt (r.w 2) 31 = false → u.counterCtx r i = some c)
    (hevent : attributable (fld (r.w 2) 11 0) = true) (hok : u.ctxOk c = true) :
    Answers (.cntCtxSet r) s r [] fun t => t = { u with bci.contexts := t.bci.contexts } ∧ ∃ x, Tab.get? (t.ctxCtrs c) (r.w 1) = some x
      ∧ x.event = fld (r.w 2) 11 0 ∧ x.ros = bitAt (r.w 2) 12 ∧ x.en = bitAt (r.w 2) 13 ∧ x.value = (Tab.getD (u.ctxCtrs c) (r.w 1) CtxCounter.fresh).value := by
  have hctx : (if bitAt (r.w 2) 31 = true then some (fld (r.w 2) 27 16) else u.counterCtx r i) = some c := by
    cases hbit : bitAt (r.w 2) 31 with
    | false => simpa using hown hbit
    | true => simpa using (hnamed hbit).2.symm
  have hpriv : (bitAt (r.w 2) 31 && !u.privileged r) = false := by
    cases hbit : bitAt (r.w 2) 31 with
    | false => rfl
    | true => simp [(hnamed hbit).1]
  have hexec : exec (.cntCtxSet r) s = execCntCtxSet r s := rfl
  unfold execCntCtxSet at hexec
  rw [bciServe_of_ready hready] at hexec
  simp only [hctx, hpriv, hevent, hok, Bool.not_true, Bool.false_eq_true, Bool.true_eq_false, if_false] at hexec
  refine ⟨_, hexec, rfl, ?_⟩
  rw [State.ctxCtrs_modify (g := fun t => Tab.set t (r.w 1) { Tab.getD t (r.w 1) CtxCounter.fresh with
    event := fld (r.w 2) 11 0, ros := bitAt (r.w 2) 12, en := bitAt (r.w 2) 13 }) fun hfree => absurd hfree (State.get?_contexts_of_ctxOk hok)]
  exact ⟨_, Tab.get?_set_self _ _ _, rfl, rfl, rfl, rfl⟩

/-! ### Snapshots and freezes (R803 to R806) -/

theorem answers_cntSnapshot {s u : State} {r : BciReq} {i : Issuer} (hready : s.ready (.cntSnapshot r) (BciRow.p 0x123 0) r = some (i, u)) :
    Answers (.cntSnapshot r) s r (one ((u.obs.snap.seq + 1) % 4294967296) ++ two u.now) fun t =>
      t.obs.snap.seq = (u.obs.snap.seq + 1) % 4294967296 ∧ t.obs.snap.time = u.now ∧ t.obs.snap.events = u.obs.events
        ∧ ∀ c, Tab.getD t.obs.snap.ctxs c [] = u.ctxCtrs c := by
  have hexec : exec (.cntSnapshot r) s = execCntSnapshot r s := rfl
  unfold execCntSnapshot at hexec
  rw [bciServe_of_ready hready] at hexec
  refine ⟨_, hexec, ?_⟩
  dsimp only
  rw [(State.counterEvent_bank _ _).1]
  exact ⟨rfl, rfl, rfl, u.getD_contexts_ctrs⟩

theorem answers_cntFreeze {s u : State} {r : BciReq} {i : Issuer}
    (hready : s.ready (.cntFreeze r) { BciRow.p 0x124 1 with resv := fun r => decide (r.w 1 ≠ 0) } r = some (i, u)) :
    Answers (.cntFreeze r) s r (two u.now) fun t => t.obs.frozen = true ∧ t.obs.events = u.obs.events := by
  have hexec : exec (.cntFreeze r) s = execCntFreeze r s := rfl
  unfold execCntFreeze at hexec
  rw [bciServe_of_ready hready] at hexec
  exact ⟨_, hexec, (State.counterEvent_bank _ _).2, State.counterEvent_events_of_frozen rfl 1⟩

theorem answers_cntUnfreeze {s u : State} {r : BciReq} {i : Issuer}
    (hready : s.ready (.cntUnfreeze r) { BciRow.p 0x124 1 with resv := fun r => decide (r.w 1 ≠ 1) } r = some (i, u)) :
    Answers (.cntUnfreeze r) s r (two u.now) fun t =>
      t.obs.frozen = false ∧ ∀ k, k ≠ 0x6B * 8 + 1 → k ≠ 0x16B * 8 + 1 → Tab.get? t.obs.events k = Tab.get? u.obs.events k := by
  have hexec : exec (.cntUnfreeze r) s = execCntUnfreeze r s := rfl
  unfold execCntUnfreeze at hexec
  rw [bciServe_of_ready hready] at hexec
  exact ⟨_, hexec, (State.counterEvent_bank _ _).2, fun k heast hwest => State.counterEvent_events_ne heast hwest _ 2⟩

/-! ### Bandwidth windows (R807 to R809) -/

theorem copies_bwRead {s u : State} {r : BciReq} {i : Issuer}
    (hready : s.ready (.bwRead r) { BciRow.p 0x126 5 with resv := fun r => offResv r 4 } r = some (i, u)) (hn : r.w 2 ≠ 0) (hports : r.w 1 + r.w 2 ≤ 44) :
    Copies (.bwRead r) s r i u (r.w 3) (r.d 4)
      ((upto (r.w 2)).flatMap fun k => ((Tab.getD u.obs.windows (r.w 1 + k) []).flatMap BwRec.bytes ++ List.replicate 128 0).take 128) [] fun _ => True := by
  have hexec : exec (.bwRead r) s = execBwRead r s := rfl
  unfold execBwRead at hexec
  rw [bciServe_of_ready hready, if_neg (by omega)] at hexec
  exact copies_of_copyOut hexec (fun _ => rfl) fun _ => trivial

/-- The record of a window that closes: FROZEN where the last freeze fell into it (R804, R809). -/
def State.windowRecord (s : State) (p rx tx start len : Nat) (down : Bool) : BwRec :=
  { port := p, frozen := decide (start < s.obs.frozeAt) && decide (s.obs.frozeAt ≤ start + len * 1000), part := down, len := len, start := start, rx := rx, tx := tx }

/-- The end of a window records its bytes and begins the next one (R807, R808). -/
theorem does_bwWindowEnd {s : State} {p start len : Nat} (hruns : s.runs = true) (hp : p < 44) (hwin : Tab.get? s.obs.winStart p = some (start, len))
    (hdue : start + len * 1000 ≤ s.now) (hfrozen : s.obs.frozen = false) (rx tx : Nat) (down : Bool) :
    Does (.bwWindowEnd p rx tx down) s fun t =>
      (∃ b, (Tab.getD t.obs.windows p []).head? = some b ∧ b.port = p ∧ b.rx = rx ∧ b.tx = tx ∧ b.len = len ∧ b.start = start ∧ b.part = down)
        ∧ (∀ k, k ≠ p → Tab.get? t.obs.windows k = Tab.get? s.obs.windows k) ∧ t.obs.bwWin = s.obs.bwPend.getD s.obs.bwWin ∧ t.home = s.home := by
  have hexec : exec (.bwWindowEnd p rx tx down) s = execBwWindowEnd p rx tx down s := rfl
  have hopen (d : Nat × Nat) : Tab.getD s.obs.winStart p d = (start, len) := by simp [Tab.getD, hwin]
  unfold execBwWindowEnd at hexec
  rw [whenUp_of_runs hruns] at hexec
  simp only [hopen, hfrozen] at hexec
  rw [if_neg (by omega), if_neg (by omega)] at hexec
  refine ⟨_, hexec, ⟨s.windowRecord p rx tx start len down, ?_, rfl, rfl, rfl, rfl, rfl, rfl⟩, fun k hk => ?_, rfl, rfl⟩
  · simp [State.windowRecord]
  · simp [Tab.get?_set_ne _ _ hk]

/-- Settles O51: each command by the request that is ready, the end of a window by the window that is open. -/
theorem eventCounters : Obligations.EventCounters := by
  unfold Obligations.EventCounters
  have hinside (a n k : Nat) : (decide (a ≤ k) && decide (k < a + n)) = true ↔ a ≤ k ∧ k < a + n := by simp
  simp only [hinside]
  refine ⟨fun s r i u => ⟨?_, ?_, ?_, ?_, ?_, ?_, ?_, ?_⟩, fun s p rx tx start len down hruns hp hwin hdue hfrozen => ?_⟩
  · exact fun hready hn => ⟨copies_cntRead_events hready hn, fun c => copies_cntRead_context hready hn⟩
  · exact answers_cntMode
  · exact fun hready => ⟨answers_cntReset_events hready, fun c => answers_cntReset_context hready⟩
  · exact answers_cntSnapshot
  · exact answers_cntFreeze
  · exact answers_cntUnfreeze
  · exact fun c hready hnamed hown hevent hok => answers_cntCtxSet hready hnamed hown hevent hok
  · exact copies_bwRead
  · exact does_bwWindowEnd hruns hp hwin hdue hfrozen rx tx down

end Sys2Proof.Machine

/-! PROOF. O10: the test access port (23, R856 to R859). Loading an instruction changes only the port's own two registers, what has been shifted out and the count of
free values; which instruction is then in force, and with which cells, follows from whether it takes effect (R858). Each command is a use of these. -/

namespace Sys2Proof.Machine

/-! ### Loading an instruction -/

/-- `t` differs from `s` in the instruction and the cells of the test access port, in what has been sent out and in the count of free values, and in nothing else. -/
def State.TapOnly (s t : State) : Prop :=
  t = { s with pkg := { s.pkg with tap := t.pkg.tap, cells := t.pkg.cells }, out := t.out, freeCtr := t.freeCtr }

@[simp] theorem State.tapOut_pkg (s : State) (i : TapInstr) : (s.tapOut i).pkg = s.pkg := by
  cases i <;> rfl

theorem State.tapOnly_tapOut (s : State) (i j : TapInstr) (cells : Nat) : s.TapOnly (State.tapOut { s with pkg.tap := j, pkg.cells := cells } i) := by
  cases i <;> rfl

theorem State.tapOnly_tapLoad (s : State) (i : TapInstr) (load : Option Nat) : s.TapOnly (s.tapLoad i load) := by
  unfold State.tapLoad
  split
  · rfl
  · split
    · exact s.tapOnly_tapOut i i _
    · exact s.tapOnly_tapOut .bypass .bypass s.pkg.cells

theorem State.TapOnly.of_freed {s t : State} (h : s.freed.TapOnly t) : s.TapOnly t := h

/-- An instruction that takes effect is in force, with the cells shifted in where it takes any. -/
theorem State.tapLoad_of_acts {s : State} {i : TapInstr} (hup : s.pkg.aonUp = true) (hacts : s.tapActs i = true) (load : Option Nat) :
    s.tapLoad i load = State.tapOut { s with pkg.tap := i, pkg.cells := (load.map (· % 2 ^ 4210)).getD s.pkg.cells } i := by
  unfold State.tapLoad
  rw [if_neg (by simp [hup]), if_pos hacts]
  cases load <;> rfl

/-- An instruction that takes no effect acts as BYPASS (R858). -/
theorem State.tapLoad_of_not_acts {s : State} {i : TapInstr} (hup : s.pkg.aonUp = true) (hacts : s.tapActs i = false) (load : Option Nat) :
    s.tapLoad i load = State.tapOut { s with pkg.tap := .bypass } .bypass := by
  unfold State.tapLoad
  rw [if_neg (by simp [hup]), if_neg (by simp [hacts])]

theorem tapOf_of_unlisted {code : Nat} (h : code = 0 ∨ 7 < code) : tapOf code = .bypass := by
  unfold tapOf
  split
  case h_8 => rfl
  all_goals omega

/-! ### The commands -/

section Commands

variable {s : State} (hup : s.pkg.aonUp = true)
include hup

theorem does_idcode : Does .idcode s fun t => s.TapOnly t ∧ t.pkg.tap = .idcode ∧ t.out = .tdo 0x0A7211CB :: s.out := by
  have hexec : exec .idcode s = .next (s.tapLoad .idcode none) := rfl
  refine ⟨_, hexec, s.tapOnly_tapLoad _ _, ?_⟩
  rw [State.tapLoad_of_acts hup rfl]
  exact ⟨rfl, rfl⟩

theorem does_samplePreload {cells : Nat} (hcells : cells < 2 ^ 4210) :
    Does (.samplePreload cells) s fun t => s.TapOnly t ∧ t.pkg.tap = .sample ∧ t.pkg.cells = cells := by
  have hexec : exec (.samplePreload cells) s = .next (s.tapLoad .sample (some cells)) := rfl
  refine ⟨_, hexec, s.tapOnly_tapLoad _ _, ?_⟩
  rw [State.tapLoad_of_acts hup rfl]
  exact ⟨rfl, Nat.mod_eq_of_lt hcells⟩

theorem does_bypass_of_unlisted {code : Nat} (hcode : code < 256) (hunlisted : code = 0 ∨ 7 < code) :
    Does (.bypass code) s fun t => s.TapOnly t ∧ t.pkg.tap = .bypass ∧ t.out = .tdo 0 :: s.out := by
  have hexec : exec (.bypass code) s = execBypass code s := rfl
  rw [execBypass, if_neg (by omega), tapOf_of_unlisted hunlisted] at hexec
  refine ⟨_, hexec, s.tapOnly_tapLoad _ _, ?_⟩
  rw [State.tapLoad_of_acts hup rfl]
  exact ⟨rfl, rfl⟩

/-- An instruction that drives lands, while PKG_RST_N is low and while it is high (R858). -/
theorem does_landInstr {c : Instr} {i : TapInstr} {load : Option Nat} {cells : Nat} (hexec : exec c s = .next (s.tapLoad i load))
    (hlands : s.tapActs i = !s.pkg.rstN) (hload : i = .extest → load = some cells) (hcells : cells < 2 ^ 4210) :
    (s.pkg.rstN = false → Does c s fun t => s.TapOnly t ∧ t.pkg.tap = i ∧ (i = .extest → t.pkg.cells = cells))
      ∧ (s.pkg.rstN = true → Does c s fun t => s.TapOnly t ∧ t.pkg.tap = .bypass ∧ t.pkg.cells = s.pkg.cells ∧ t.out = .tdo 0 :: s.out) := by
  refine ⟨fun hlow => ⟨_, hexec, s.tapOnly_tapLoad _ _, ?_⟩, fun hhigh => ⟨_, hexec, s.tapOnly_tapLoad _ _, ?_⟩⟩
  · rw [State.tapLoad_of_acts hup (by simp [hlands, hlow]), State.tapOut_pkg]
    refine ⟨rfl, fun hi => ?_⟩
    rw [hload hi]
    exact Nat.mod_eq_of_lt hcells
  · rw [State.tapLoad_of_not_acts hup (by simp [hlands, hhigh])]
    exact ⟨rfl, rfl, rfl⟩

end Commands

/-- A code of the instruction register, listed or not, leaves everything outside the port; of more than 8 bits, after a free value has been taken. -/
theorem does_bypass_only (code : Nat) (s : State) : Does (.bypass code) s s.TapOnly := by
  have hexec : exec (.bypass code) s = execBypass code s := rfl
  unfold execBypass at hexec
  split at hexec
  · exact ⟨_, hexec, (s.freed.tapOnly_tapLoad _ _).of_freed⟩
  · exact ⟨_, hexec, s.tapOnly_tapLoad _ _⟩

/-- Settles O10: each instruction by what loading it does; the five that drive lands by one lemma. -/
theorem testAccessPort : Obligations.TestAccessPort := by
  unfold Obligations.TestAccessPort
  intro s hup only
  refine ⟨does_idcode hup, ⟨_, rfl, rfl, rfl, rfl⟩, fun cells => does_samplePreload hup, fun code => does_bypass_of_unlisted hup,
    fun code => does_bypass_only code s, fun cells hcells ci hci => ?_⟩
  simp only [List.mem_cons, List.not_mem_nil, or_false] at hci
  rcases hci with rfl | rfl | rfl | rfl | rfl
  case inl => exact does_landInstr hup rfl rfl (fun _ => rfl) hcells
  all_goals exact does_landInstr hup rfl rfl (fun h => nomatch h) hcells

end Sys2Proof.Machine

/-! PROOF. O1 to O6: what every command leaves of the queue, the fuses and soundness. The base of a state is what only a few commands write; each operation on the state and
each command is shown to keep it, and the eleven commands that write it are shown to keep soundness. -/

namespace Sys2Proof.Machine

/-- What only the package, the owning-host role, firmware images and fabric time write: the queue, the fuses, the boot store, reset and boot, the role, and the time. -/
structure Base where
  pending : List Instr
  debug : Bool
  revoked : Nat
  svnMin : Nat
  store : Mem
  booted : Bool
  aonUp : Bool
  rstN : Bool
  owner : Nat
  now : Nat

/-- The base of a state. -/
def State.base (s : State) : Base :=
  { pending := s.pending, debug := s.sec.debug, revoked := s.sec.revoked, svnMin := s.sec.svnMin, store := s.pkg.store, booted := s.pkg.booted,
    aonUp := s.pkg.aonUp, rstN := s.pkg.rstN, owner := s.host.owner, now := s.time.now }

theorem State.base_foldl {α : Type} {f : State → α → State} (h : ∀ s a, (f s a).base = s.base) (l : List α) (s : State) :
    (l.foldl f s).base = s.base := by
  induction l generalizing s with
  | nil => rfl
  | cons a l ih => rw [List.foldl_cons, ih, h]

/-- An update keeps the base that keeps each of its parts. -/
theorem State.base_mk {s : State} {home : Home} {strata : Strata} {rope : Rope} {cores : Tab Core} {kernels : List KernelQ} {expert : Expert} {trav : Traverse} {mor : Moraine}
    {bci : Bci} {host : Hosts} {lmf : Lmf} {pow : Power} {time : TimeUnit} {rel : Rel} {sec : Sec} {obs : Obs} {pkg : Package} {out : List Out} {resume : List Again}
    {replay : Option Again} {freeCtr nextId : Nat}
    (hhost : host.owner = s.host.owner) (htime : time.now = s.time.now) (hdebug : sec.debug = s.sec.debug) (hrevoked : sec.revoked = s.sec.revoked) (hsvn : sec.svnMin = s.sec.svnMin)
    (hstore : pkg.store = s.pkg.store) (hbooted : pkg.booted = s.pkg.booted) (haon : pkg.aonUp = s.pkg.aonUp) (hrst : pkg.rstN = s.pkg.rstN) :
    State.base ⟨home, strata, rope, cores, kernels, expert, trav, mor, bci, host, lmf, pow, time, rel, sec, obs, pkg, out, resume, replay, freeCtr, nextId, s.pending⟩ = s.base := by
  simp only [State.base, hhost, htime, hdebug, hrevoked, hsvn, hstore, hbooted, haon, hrst]

@[simp] theorem State.base_emit (s : State) (o : Out) : (s.emit o).base = s.base := by
  rfl

@[simp] theorem State.base_bump (s : State) : (s.bump).base = s.base := by
  rfl

@[simp] theorem State.base_freed (s : State) : (s.freed).base = s.base := by
  rfl

@[simp] theorem State.base_setCore (s : State) (n : Nat) (c : Core) : (s.setCore n c).base = s.base := by
  rfl

@[simp] theorem State.base_setFnWin (s : State) (port : Nat) (fn : Nat) (w : Window) : (s.setFnWin port fn w).base = s.base := by
  rfl

@[simp] theorem State.base_setHport (s : State) (p : Nat) (h : HostPort) : (s.setHport p h).base = s.base := by
  rfl

@[simp] theorem State.base_setLport (s : State) (p : Nat) (l : LPort) : (s.setLport p l).base = s.base := by
  rfl

@[simp] theorem State.base_event (s : State) (hw : Nat) (idx : Nat) (n : Nat) (ctx : Option Nat) : (s.event hw idx n ctx).base = s.base := by
  rfl

@[simp] theorem State.base_startCounters (s : State) (hw : Nat) (ctx : Nat) : (s.startCounters hw ctx).base = s.base := by
  rfl

@[simp] theorem State.base_traceFor (s : State) (selected : Bool) (die : Nat) (typ : Nat) (slots : Nat) (time : Nat) (body : List Word) : (s.traceFor selected die typ slots time body).base = s.base := by
  rfl

@[simp] theorem State.base_traceGen (s : State) (die : Nat) (typ : Nat) (slots : Nat) (time : Nat) (body : List Word) : (s.traceGen die typ slots time body).base = s.base := by
  rfl

@[simp] theorem State.base_cairnAt (s : State) (hw : Nat) (code : Nat) (ctx : Nat) (payload : Nat) (time : Nat) : (s.cairnAt hw code ctx payload time).base = s.base := by
  unfold State.cairnAt
  split <;> simp [↓State.base_mk]

@[simp] theorem State.base_cairn (s : State) (hw : Nat) (code : Nat) (ctx : Nat) (payload : Nat) : (s.cairn hw code ctx payload).base = s.base := by
  simp [State.cairn]

@[simp] theorem State.base_clockGap (s : State) (hw : Nat) (cause : Nat) (start : Nat) (stop : Nat) : (s.clockGap hw cause start stop).base = s.base := by
  simp [State.clockGap]

@[simp] theorem State.base_strataEvent (s : State) (idx : Nat) (n : Nat) : (s.strataEvent idx n).base = s.base := by
  rfl

@[simp] theorem State.base_errorCount (s : State) (hw : Nat) (cls : Nat) : (s.errorCount hw cls).base = s.base := by
  rfl

@[simp] theorem State.base_wakeWhere (s : State) (f : Domain → Bool) : (s.wakeWhere f).base = s.base := by
  rfl

@[simp] theorem State.base_wakeDomain (s : State) (d : Domain) : (s.wakeDomain d).base = s.base := by
  rfl

@[simp] theorem State.base_workStart (s : State) (hw : Nat) (eid : Nat) (ctx : Nat) (obj : Nat) : (s.workStart hw eid ctx obj).base = s.base := by
  simp [State.workStart, ↓State.base_mk, apply_ite State.base, State.base_foldl]

@[simp] theorem State.base_coreStart (s : State) (core : Nat) (ctx : Nat) (obj : Nat) : (s.coreStart core ctx obj).base = s.base := by
  simp [State.coreStart, ↓State.base_mk, apply_ite State.base, State.base_foldl]

@[simp] theorem State.base_workEnd (s : State) (hw : Nat) (ctx : Nat) (st : Status) (exc : Nat) : (s.workEnd hw ctx st exc).base = s.base := by
  simp [State.workEnd]

@[simp] theorem State.base_workResume (s : State) (f : FaultRec) : (s.workResume f).base = s.base := by
  simp [State.workResume, ↓State.base_mk, apply_ite State.base, State.base_foldl]

@[simp] theorem State.base_release (s : State) (f : HoldWhy → Bool) : (s.release f).base = s.base := by
  rfl

@[simp] theorem State.base_setRegion (s : State) (rid : Nat) (r : Region) : (s.setRegion rid r).base = s.base := by
  rfl

@[simp] theorem State.base_setPages (s : State) (t : Tab Handle) : (s.setPages t).base = s.base := by
  rfl

@[simp] theorem State.base_modPage (s : State) (ref : PageRef) (f : TierPage → TierPage) : (s.modPage ref f).base = s.base := by
  rfl

@[simp] theorem State.base_sweepTables (s : State) : (s.sweepTables).base = s.base := by
  rfl

@[simp] theorem State.base_chooseTable (s : State) (rid : Nat) (r : Region) (bytes : Bytes) : (s.chooseTable rid r bytes).1.base = s.base := by
  unfold State.chooseTable
  simp [↓State.base_mk, apply_ite State.base, State.base_foldl]
  (repeat' split) <;> simp [↓State.base_mk, apply_ite State.base, State.base_foldl]

@[simp] theorem State.base_nvmeIo (s : State) (slot : Nat) (op : NvmeOp) (lba : Nat) (n : Nat) : (s.nvmeIo slot op lba n).base = s.base := by
  unfold State.nvmeIo
  (repeat' split) <;> simp [↓State.base_mk]

@[simp] theorem State.base_nvmeAll (s : State) (op : NvmeOp) (lba : Nat) (n : Nat) : (s.nvmeAll op lba n).base = s.base := by
  simp [State.nvmeAll, ↓State.base_mk, apply_ite State.base, State.base_foldl]

@[simp] theorem State.base_stripesOut (s : State) (n : Nat) : (s.stripesOut n).base = s.base := by
  induction n generalizing s with
  | zero => rfl
  | succ n ih =>
    unfold State.stripesOut
    split <;> simp [ih, ↓State.base_mk]

@[simp] theorem State.base_t2Put (s : State) (im : Image) : (s.t2Put im).base = s.base := by
  simp [State.t2Put, ↓State.base_mk]

@[simp] theorem State.base_t2Get (s : State) (ref : PageRef) : (s.t2Get ref).base = s.base := by
  unfold State.t2Get
  split <;> simp

@[simp] theorem State.base_memEvent (s : State) (layer : Nat) (idx : Nat) (n : Nat) (ref : PageRef) : (s.memEvent layer idx n ref).base = s.base := by
  rfl

@[simp] theorem State.base_encoderRan (s : State) (ref : PageRef) (p : TierPage) (im : Image) : (s.encoderRan ref p im).base = s.base := by
  simp [State.encoderRan]

@[simp] theorem State.base_encodeGroup (s : State) (rid : Nat) (refs : List PageRef) (b : TierPage → Backing) (place : Image → TierPage → TierPage) :
    (s.encodeGroup rid refs b place).base = s.base := by
  unfold State.encodeGroup
  split
  · rfl
  · dsimp only
    rw [State.base_sweepTables, State.base_foldl, State.base_chooseTable]
    intro s ref
    (repeat' split) <;> simp [↓State.base_mk]

@[simp] theorem State.base_writeBackNow (s : State) (ref : PageRef) : (s.writeBackNow ref).base = s.base := by
  unfold State.writeBackNow
  split <;> simp

@[simp] theorem State.base_evict (s : State) (e : PageRef × TierPage) : (s.evict e).base = s.base := by
  unfold State.evict
  split <;> simp

@[simp] theorem State.base_roomT0 (s : State) : (s.roomT0).base = s.base := by
  unfold State.roomT0
  (repeat' split) <;> simp

@[simp] theorem State.base_startEvict (s : State) : (s.startEvict).base = s.base := by
  unfold State.startEvict
  split <;> simp

@[simp] theorem State.base_fillT0 (s : State) (ref : PageRef) : (s.fillT0 ref).base = s.base := by
  unfold State.fillT0
  (repeat' split) <;> simp

@[simp] theorem State.base_touch (s : State) (port : Bool) (ref : PageRef) (off : Nat) (n : Nat) : (s.touch port ref off n).base = s.base := by
  unfold State.touch
  simp [↓State.base_mk, apply_ite State.base, State.base_foldl]
  (repeat' split) <;> simp [↓State.base_mk, apply_ite State.base, State.base_foldl]

@[simp] theorem State.base_parkZero (s : State) (rid : Nat) (p : Nat) : (s.parkZero rid p).base = s.base := by
  unfold State.parkZero
  split <;> simp [↓State.base_mk]

@[simp] theorem State.base_allocate (s : State) (rid : Nat) (p : Nat) (r : Region) : (s.allocate rid p r).base = s.base := by
  unfold State.allocate
  split <;> simp [↓State.base_mk]

@[simp] theorem State.base_ensurePage (s : State) (rid : Nat) (p : Nat) : (s.ensurePage rid p).base = s.base := by
  unfold State.ensurePage
  (repeat' split) <;> simp

@[simp] theorem State.base_commit (s : State) : (s.commit).base = s.base := by
  rfl

@[simp] theorem State.base_makeShadow (s : State) (rid : Nat) (p : Nat) (i : Issuer) : (s.makeShadow rid p i).base = s.base := by
  unfold State.makeShadow
  simp [↓State.base_mk, apply_ite State.base, State.base_foldl]
  (repeat' split) <;> simp [↓State.base_mk, apply_ite State.base, State.base_foldl]

@[simp] theorem State.base_dropShadow (s : State) (h : Nat) (eid : Nat) (ctx : Nat) : (s.dropShadow h eid ctx).base = s.base := by
  simp [State.dropShadow, ↓State.base_mk, apply_ite State.base, State.base_foldl]

@[simp] theorem State.base_trimWriters (s : State) : (s.trimWriters).base = s.base := by
  rfl

@[simp] theorem State.base_collect (s : State) (h : Nat) : (s.collect h).base = s.base := by
  unfold State.collect
  (repeat' split) <;> simp

@[simp] theorem State.base_hold (s : State) (h : Nat) (holder : Nat) : (s.hold h holder).base = s.base := by
  rfl

@[simp] theorem State.base_unhold (s : State) (h : Nat) (holder : Nat) : (s.unhold h holder).base = s.base := by
  simp [State.unhold]

@[simp] theorem State.base_holdZero (s : State) (rid : Nat) (p : Nat) (holder : Nat) : (s.holdZero rid p holder).base = s.base := by
  rfl

@[simp] theorem State.base_capturePages (s : State) (holder : Nat) (ps : List (Nat × Nat)) : (s.capturePages holder ps).1.base = s.base := by
  simp [State.capturePages, ↓State.base_mk, apply_ite State.base, State.base_foldl]

@[simp] theorem State.base_capture (s : State) (holder : Nat) (ranges : List (Nat × Nat × Nat)) : (s.capture holder ranges).1.base = s.base := by
  simp [State.capture]

@[simp] theorem State.base_uncapture (s : State) (holder : Nat) (caps : Caps) : (s.uncapture holder caps).base = s.base := by
  unfold State.uncapture
  rw [State.base_foldl, State.base_mk] <;> intros
  all_goals try split
  all_goals simp

@[simp] theorem State.base_recapture (s : State) (holder : Nat) (caps : Caps) : (s.recapture holder caps).1.base = s.base := by
  simp [State.recapture]

@[simp] theorem State.base_overlay (s : State) (holder : Nat) (caps : Caps) : (s.overlay holder caps).base = s.base := by
  refine State.base_foldl (fun s c => ?_) _ _
  (repeat' split) <;> simp

@[simp] theorem State.base_restore (s : State) (old : List (Nat × Nat × Entry)) : (s.restore old).base = s.base := by
  refine State.base_foldl (fun s e => ?_) _ _
  split <;> simp

@[simp] theorem State.base_touchRange (s : State) (port : Bool) (rid : Nat) (v : View) (off n : Nat) : (s.touchRange port rid v off n).base = s.base := by
  refine State.base_foldl (fun s q => ?_) _ _
  (repeat' split) <;> simp

@[simp] theorem State.base_putRef (s : State) (ref : PageRef) (off : Nat) (data : Bytes) : (s.putRef ref off data).base = s.base := by
  simp [State.putRef, ↓State.base_mk, apply_ite State.base, State.base_foldl]

@[simp] theorem State.base_directMap (s : State) (rid p off n : Nat) (f : Bytes → Bytes) : (s.directMap rid p off n f).base = s.base := by
  unfold State.directMap
  dsimp only
  (repeat' split)
  · simp
  · simp
  · rw [State.base_foldl (fun s ref => ?_), State.base_ensurePage]
    (repeat' split) <;> simp

@[simp] theorem State.base_write1 (s : State) (rid : Nat) (w : Way) (off : Nat) (data : Bytes) : (s.write1 rid w off data).base = s.base := by
  unfold State.write1
  simp [↓State.base_mk, apply_ite State.base, State.base_foldl]
  (repeat' split) <;> simp [↓State.base_mk, apply_ite State.base, State.base_foldl]

@[simp] theorem State.base_writePieces (s : State) (rid : Nat) (w : Way) (data : Bytes) (off : Nat) (ps : List (Nat × Nat)) :
    (s.writePieces rid w data off ps).base = s.base := by
  induction ps generalizing s with
  | nil => rfl
  | cons p ps ih => simp [State.writePieces, ih]

@[simp] theorem State.base_writeRange (s : State) (rid : Nat) (w : Way) (off : Nat) (data : Bytes) : (s.writeRange rid w off data).base = s.base := by
  simp [State.writeRange]

@[simp] theorem State.base_poisonLine (s : State) (rid : Nat) (w : Way) (off : Nat) : (s.poisonLine rid w off).base = s.base := by
  unfold State.poisonLine
  simp [↓State.base_mk, apply_ite State.base, State.base_foldl]
  (repeat' split) <;> simp [↓State.base_mk, apply_ite State.base, State.base_foldl]

@[simp] theorem State.base_clearLine (s : State) (rid : Nat) (off : Nat) : (s.clearLine rid off).base = s.base := by
  unfold State.clearLine
  (repeat' split) <;> simp [↓State.base_mk, apply_ite State.base, State.base_foldl]

@[simp] theorem State.base_poisonPage (s : State) (ref : PageRef) : (s.poisonPage ref).base = s.base := by
  rfl

@[simp] theorem State.base_switchPage (s : State) (h : Nat) (eid : Nat) (ctx : Nat) (v : Nat) : (s.switchPage h eid ctx v).base = s.base := by
  unfold State.switchPage
  (repeat' split) <;> simp

@[simp] theorem State.base_trimOlds (s : State) : (s.trimOlds).base = s.base := by
  rfl

@[simp] theorem State.base_vector (s : State) (port : Nat) (fn : Nat) (v : Nat) : (s.vector port fn v).base = s.base := by
  simp [State.vector, ↓State.base_mk, apply_ite State.base, State.base_foldl]

@[simp] theorem State.base_rsFn (s : State) (port : Nat) (fn : Nat) : (s.rsFn port fn).base = s.base := by
  rfl

@[simp] theorem State.base_rsMgmt (s : State) : (s.rsMgmt).base = s.base := by
  rfl

@[simp] theorem State.base_traceDrop (s : State) (die : Nat) (seq : Nat) : (s.traceDrop die seq).base = s.base := by
  rfl

theorem State.base_of_recordIn {s t : State} {rid off : Nat} {data : Bytes} (h : s.recordIn rid off data = some t) : t.base = s.base := by
  unfold State.recordIn at h
  split at h
  · cases h
  · split at h <;> cases h
    simp

theorem State.base_of_recordAt {s t : State} {key off : Nat} {data : Bytes} (h : s.recordAt key off data = some t) : t.base = s.base := by
  unfold State.recordAt at h
  split at h
  · cases h
  · exact State.base_of_recordIn h

theorem State.base_of_recordHeld {s t : State} {caps : Caps} {key off : Nat} {data : Bytes} (h : s.recordHeld caps key off data = some t) : t.base = s.base := by
  unfold State.recordHeld at h
  split at h
  · exact State.base_of_recordIn h
  · exact State.base_of_recordAt h

theorem State.base_of_traceSlots {s t : State} {g : Ring} {slots : Nat} {ws : List Word} {k : Nat} (h : s.traceSlots g slots ws k = some t) : t.base = s.base := by
  induction k generalizing s ws with
  | zero => cases h; rfl
  | succ k ih =>
    unfold State.traceSlots at h
    dsimp only at h
    split at h
    · cases h
    · rename_i u hu
      have hk := ih h
      simpa [↓State.base_mk, State.base_of_recordAt hu] using hk

@[simp] theorem State.base_traceRing (s : State) (die seq : Nat) (ws : List Word) (k : Nat) : (s.traceRing die seq ws k).base = s.base := by
  unfold State.traceRing
  split
  · rfl
  · extract_lets slots s1
    have h1 : s1.base = s.base := by
      dsimp only [s1]
      (repeat' split) <;> simp [↓State.base_mk]
      exact State.base_of_traceSlots (by assumption)
    (repeat' split) <;> simp [h1]
    exact (State.base_of_traceSlots (by assumption)).trans h1

@[simp] theorem State.base_traceFlush (s : State) : (s.traceFlush).base = s.base := by
  simp [State.traceFlush, ↓State.base_mk, apply_ite State.base, State.base_foldl]

@[simp] theorem State.base_setDomain (s : State) (e : DomEntry) : (s.setDomain e).base = s.base := by
  rfl

@[simp] theorem State.base_domainUp (s : State) (d : Domain) : (s.domainUp d).base = s.base := by
  simp [State.domainUp, ↓State.base_mk, apply_ite State.base, State.base_foldl]

@[simp] theorem State.base_bivouacEnd (s : State) : (s.bivouacEnd).base = s.base := by
  unfold State.bivouacEnd
  rw [State.base_foldl State.base_wakeDomain, State.base_mk] <;> rfl

@[simp] theorem State.base_stir (s : State) : (s.stir).base = s.base := by
  unfold State.stir
  split <;> simp

@[simp] theorem State.base_wakeBasecamp (s : State) : (s.wakeBasecamp).base = s.base := by
  simp [State.wakeBasecamp]

@[simp] theorem State.base_setUnit (s : State) (hw : Nat) (u : UnitRec) : (s.setUnit hw u).base = s.base := by
  rfl

@[simp] theorem State.base_healthCount (s : State) (hw : Nat) (cls : Nat) : (s.healthCount hw cls).base = s.base := by
  unfold State.healthCount
  (repeat' split) <;> simp

@[simp] theorem State.base_quarantineWatch (s : State) (hw : Nat) (cls : Nat) : (s.quarantineWatch hw cls).base = s.base := by
  unfold State.quarantineWatch
  split <;> simp

@[simp] theorem State.base_error (s : State) (n : ErrorNote) : (s.error n).base = s.base := by
  simp [State.error, ↓State.base_mk, apply_ite State.base, State.base_foldl]

@[simp] theorem State.base_lostRecord (s : State) (key : Nat) (off : Nat) (ctx : Nat) : (s.lostRecord key off ctx).base = s.base := by
  simp [State.lostRecord]

@[simp] theorem State.base_rsNotice (s : State) (eid : Nat) (ctx : Nat) : (s.rsNotice eid ctx).base = s.base := by
  unfold State.rsNotice
  (repeat' split) <;> simp

@[simp] theorem State.base_notice (s : State) (eid ctx kind : Nat) (aborted : Bool) (st : Status) (src obj deadline : Nat) :
    (s.notice eid ctx kind aborted st src obj deadline).base = s.base := by
  unfold State.notice
  dsimp only
  (repeat' split) <;> simp [↓State.base_mk]
  all_goals exact State.base_of_recordAt (by assumption)

@[simp] theorem State.base_noticeTo (s : State) (who : Option (Nat × Nat)) (kind : Nat) (aborted : Bool) (st : Status) (src : Nat) (obj : Nat) (deadline : Nat) : (s.noticeTo who kind aborted st src obj deadline).base = s.base := by
  unfold State.noticeTo
  split <;> simp

@[simp] theorem State.base_faultWrite (s : State) (f : FaultRec) : (s.faultWrite f).base = s.base := by
  unfold State.faultWrite
  dsimp only
  (repeat' split) <;> simp [↓State.base_mk]
  exact State.base_of_recordAt (by assumption)

@[simp] theorem State.base_faultFlushN (s : State) (n : Nat) : (s.faultFlushN n).base = s.base := by
  induction n generalizing s with
  | zero => rfl
  | succ n ih =>
    unfold State.faultFlushN
    (repeat' split) <;> simp [ih]

@[simp] theorem State.base_faultFlush (s : State) : (s.faultFlush).base = s.base := by
  simp [State.faultFlush]

@[simp] theorem State.base_partner (s : State) (event : Nat) (kind : Nat) (loc : Nat) (width : Nat) (ver : Nat) (eid : Nat) (inc : Nat) : (s.partner event kind loc width ver eid inc).base = s.base := by
  simp [State.partner, ↓State.base_mk, apply_ite State.base, State.base_foldl]

@[simp] theorem State.base_failStop (s : State) (row : Nat) : (s.failStop row).base = s.base := by
  unfold State.failStop
  split <;> simp [↓State.base_mk]

@[simp] theorem State.base_kernelStop (s : State) (n : Nat) (exc : Nat) (st : Status) (engine : Nat) (bundle : Nat) : (s.kernelStop n exc st engine bundle).base = s.base := by
  unfold State.kernelStop
  simp [↓State.base_mk, apply_ite State.base, State.base_foldl]
  (repeat' split) <;> simp [↓State.base_mk, apply_ite State.base, State.base_foldl]

@[simp] theorem State.base_accessFail (s : State) (cmd : Instr) (exc : Nat) (st : Status) : (s.accessFail cmd exc st).base = s.base := by
  unfold State.accessFail
  (repeat' split) <;> simp

theorem State.base_of_faultOn {s t : State} {rid kind page access : Nat} {runTime : Bool} {hw off : Nat} {i : Issuer} {needRoom : Bool} {seq : Nat}
    (h : s.faultOn rid kind page access runTime hw off i needRoom = some (t, seq)) : t.base = s.base := by
  unfold State.faultOn at h
  split at h
  · cases h; rfl
  · split at h <;> cases h
    simp [↓State.base_mk]

@[simp] theorem State.base_kernelFinish (s : State) (k : KernelRun) (flags : BitVec 5) : (s.kernelFinish k flags).base = s.base := by
  unfold State.kernelFinish
  dsimp only
  (repeat' split) <;> simp [↓State.base_mk]
  all_goals exact (State.base_of_recordHeld (by assumption)).trans (State.base_overlay ..)

@[simp] theorem State.base_endSaved (s : State) (n : Nat) (v : Saved) (exc : Nat) (st : Status) : (s.endSaved n v exc st).base = s.base := by
  simp [State.endSaved, ↓State.base_mk, apply_ite State.base, State.base_foldl]

@[simp] theorem State.base_restoreNext (s : State) (n : Nat) : (s.restoreNext n).base = s.base := by
  simp [State.restoreNext, ↓State.base_mk, apply_ite State.base, State.base_foldl]

@[simp] theorem State.base_endQueued (s : State) (k : KernelQ) (exc : Nat) (st : Status) : (s.endQueued k exc st).base = s.base := by
  simp [State.endQueued, ↓State.base_mk]

@[simp] theorem State.base_erasePin (s : State) (id : Nat) : (s.erasePin id).base = s.base := by
  unfold State.erasePin
  split <;> simp [↓State.base_mk]

@[simp] theorem State.base_endPin (s : State) (id : Nat) : (s.endPin id).base = s.base := by
  unfold State.endPin
  split <;> simp [↓State.base_mk]

@[simp] theorem State.base_sweepPins (s : State) : (s.sweepPins).base = s.base := by
  simp [State.sweepPins, ↓State.base_mk, apply_ite State.base, State.base_foldl]

@[simp] theorem State.base_memopFinish (s : State) (id : Nat) (ws : List Word) : (s.memopFinish id ws).base = s.base := by
  unfold State.memopFinish
  dsimp only
  (repeat' split) <;> simp [↓State.base_mk]
  all_goals exact (State.base_of_recordHeld (by assumption)).trans (State.base_overlay ..)

@[simp] theorem State.base_endWork (s : State) (c : Instr) (st : Status) : (s.endWork c st).base = s.base := by
  unfold State.endWork
  split <;> simp [↓State.base_mk]

@[simp] theorem State.base_complete (s : State) (q : LmfReq) (st : Status) (data : Bytes) : (s.complete q st data).base = s.base := by
  rfl

@[simp] theorem State.base_logPut (s : State) (k : Nat) (e : LogEntry) : (s.logPut k e).base = s.base := by
  rfl

@[simp] theorem State.base_logDone (s : State) (k : Nat) (lseq : Nat) (st : Status) (value : Nat) : (s.logDone k lseq st value).base = s.base := by
  rfl

@[simp] theorem State.base_selfLog (s : State) (home : Nat) (ctx : Nat) (st : Status) (value : Nat) : (s.selfLog home ctx st value).1.base = s.base := by
  rfl

@[simp] theorem State.base_holdCmd (s : State) (cmd : Instr) (why : HoldWhy) (limit : Nat) (eid : Nat) (ctx : Nat) : (s.holdCmd cmd why limit eid ctx).base = s.base := by
  rfl

@[simp] theorem State.base_toAgent (s : State) (a : Nat) (op : Nat) (rid : Nat) (ln : Nat) (flag : Nat) (data : Bytes) : (s.toAgent a op rid ln flag data).base = s.base := by
  rfl

@[simp] theorem State.base_setLine (s : State) (rid : Nat) (ln : Nat) (l : Line) : (s.setLine rid ln l).base = s.base := by
  rfl

@[simp] theorem State.base_freeLine (s : State) (rid : Nat) (ln : Nat) : (s.freeLine rid ln).base = s.base := by
  unfold State.freeLine
  (repeat' split) <;> simp [↓State.base_mk]

@[simp] theorem State.base_askLine (s : State) (rid : Nat) (ln : Nat) (req : LineReq) : (s.askLine rid ln req).base = s.base := by
  unfold State.askLine
  (repeat' split) <;> simp [↓State.base_mk, apply_ite State.base, State.base_foldl]

@[simp] theorem State.base_tidyLine (s : State) (rid : Nat) (ln : Nat) : (s.tidyLine rid ln).base = s.base := by
  unfold State.tidyLine
  (repeat' split) <;> simp [↓State.base_mk]

@[simp] theorem State.base_served (s : State) (rid : Nat) (ln : Nat) (eid : Nat) : (s.served rid ln eid).base = s.base := by
  unfold State.served
  (repeat' split) <;> simp

@[simp] theorem State.base_reserve (s : State) (rid : Nat) (ln : Nat) (eid : Nat) (retry : Nat) : (s.reserve rid ln eid retry).base = s.base := by
  simp [State.reserve, ↓State.base_mk, apply_ite State.base, State.base_foldl]

@[simp] theorem State.base_claim (s : State) (cmd : Instr) : (s.claim cmd).base = s.base := by
  simp [State.claim, ↓State.base_mk, apply_ite State.base, State.base_foldl]

@[simp] theorem State.base_takeUp (s : State) (a : Again) : (s.takeUp a).base = s.base := by
  unfold State.takeUp
  (repeat' split) <;> simp [↓State.base_mk, apply_ite State.base, State.base_foldl]

@[simp] theorem State.base_forsake (s : State) (cmd : Instr) : (s.forsake cmd).base = s.base := by
  simp [State.forsake, ↓State.base_mk]

@[simp] theorem State.base_quotaMet (s : State) (st : Status) : (s.quotaMet st).base = s.base := by
  unfold State.quotaMet
  split <;> simp

@[simp] theorem State.base_stalled (s : State) (work : Bool) (hw : Nat) (ctx : Nat) (seq : Nat) : (s.stalled work hw ctx seq).base = s.base := by
  unfold State.stalled
  split <;> simp [↓State.base_mk]

@[simp] theorem State.base_nackOwn (s : State) (rid : Nat) (ln : Nat) (a : HoldAs) : (s.nackOwn rid ln a).base = s.base := by
  simp [State.nackOwn, ↓State.base_mk]

@[simp] theorem State.base_startRoomN (s : State) (n : Nat) : (s.startRoomN n).base = s.base := by
  induction n generalizing s with
  | zero => rfl
  | succ n ih =>
    unfold State.startRoomN
    (repeat' split) <;> simp [ih]

@[simp] theorem State.base_startRoom (s : State) : (s.startRoom).base = s.base := by
  simp [State.startRoom]

@[simp] theorem State.base_holdOn (s : State) (a : HoldAs) (rid off : Nat) (m : Met) : (s.holdOn a rid off m).1.base = s.base := by
  unfold State.holdOn
  (repeat' split) <;> simp
  exact State.base_of_faultOn (by assumption)

@[simp] theorem State.base_issueTxn (s : State) (x : Txn) : (s.issueTxn x).base = s.base := by
  unfold State.issueTxn
  simp [↓State.base_mk, apply_ite State.base, State.base_foldl]
  (repeat' split) <;> simp [↓State.base_mk, apply_ite State.base, State.base_foldl]

@[simp] theorem State.base_tagFreed (s : State) : (s.tagFreed).base = s.base := by
  unfold State.tagFreed
  split <;> simp [↓State.base_mk]

@[simp] theorem State.base_sendTxn (s : State) (what : TxnUse) (ctx : Nat) (eid : Nat) (op : Nat) (key : Nat) (off : Nat) (ckey : Nat) (data : Bytes) (idem : Bool) : (s.sendTxn what ctx eid op key off ckey data idem).base = s.base := by
  simp [State.sendTxn, ↓State.base_mk]

@[simp] theorem State.base_sendRead (s : State) (what : TxnUse) (ctx : Nat) (eid : Nat) (key : Nat) (off : Nat) (n : Nat) : (s.sendRead what ctx eid key off n).base = s.base := by
  simp [State.sendRead]

@[simp] theorem State.base_sendWrite (s : State) (what : TxnUse) (ctx : Nat) (eid : Nat) (key : Nat) (off : Nat) (data : Bytes) : (s.sendWrite what ctx eid key off data).base = s.base := by
  unfold State.sendWrite
  split <;> simp

@[simp] theorem State.base_sendLender (s : State) (what : TxnUse) (e : Extent) (off : Nat) (n : Nat) (data : Option Bytes) : (s.sendLender what e off n data).base = s.base := by
  unfold State.sendLender
  (repeat' split) <;> simp [↓State.base_mk, apply_ite State.base, State.base_foldl]

@[simp] theorem State.base_fetchTL (s : State) (ref : PageRef) (off : Nat) (n : Nat) : (s.fetchTL ref off n).base = s.base := by
  unfold State.fetchTL
  (repeat' split) <;> simp [↓State.base_mk, apply_ite State.base, State.base_foldl]

@[simp] theorem State.base_fetchT2 (s : State) (ref : PageRef) : (s.fetchT2 ref).base = s.base := by
  unfold State.fetchT2
  (repeat' split) <;> simp

@[simp] theorem State.base_readEvent (s : State) (ref : PageRef) (n : Nat) : (s.readEvent ref n).base = s.base := by
  unfold State.readEvent
  (repeat' split) <;> simp

@[simp] theorem State.base_readDone (s : State) (port : Bool) (rid : Nat) (v : View) (off n : Nat) : (s.readDone port rid v off n).base = s.base := by
  unfold State.readDone
  dsimp only
  rw [State.base_touchRange, State.base_foldl]
  intros
  (repeat' split) <;> simp

@[simp] theorem State.base_setChannel (s : State) (n : Nat) (c : Channel) : (s.setChannel n c).base = s.base := by
  rfl

@[simp] theorem State.base_respondFn (s : State) (p : Nat) (f : Nat) (ws : List Word) : (s.respondFn p f ws).base = s.base := by
  simp [State.respondFn]

@[simp] theorem State.base_channelDone (s : State) (c : Nat) (r : BciReq) (ws : List Word) : (s.channelDone c r ws).base = s.base := by
  rfl

@[simp] theorem State.base_respond (s : State) (r : BciReq) (st : Status) (resp : List Word) : (s.respond r st resp).base = s.base := by
  unfold State.respond
  (repeat' split) <;> simp

@[simp] theorem State.base_giveAnswer (s : State) (st : Status) (a : Answer) : (s.giveAnswer st a).base = s.base := by
  cases a <;> simp [State.giveAnswer]

@[simp] theorem State.base_answerAfter (s : State) (rid : Nat) (off : Nat) (data : Bytes) (log : Option LogNote) (st : Status) (a : Answer) : (s.answerAfter rid off data log st a).base = s.base := by
  unfold State.answerAfter
  (repeat' split) <;> simp [↓State.base_mk]

@[simp] theorem State.base_forward (s : State) (rid : Nat) (off : Nat) (data : Bytes) (work : WorkRef) (log : optParam (Option LogNote) none) : (s.forward rid off data work log).base = s.base := by
  unfold State.forward
  (repeat' split) <;> simp [↓State.base_mk]

@[simp] theorem State.base_turnAway (s : State) (c : Instr) (eid : Nat) (ctx : Nat) (st : Status) (a : Answer) : (s.turnAway c eid ctx st a).base = s.base := by
  unfold State.turnAway
  simp [↓State.base_mk, apply_ite State.base, State.base_foldl]
  (repeat' split) <;> simp [↓State.base_mk, apply_ite State.base, State.base_foldl]

@[simp] theorem State.base_turnLmf (s : State) (cmd : Instr) (q : LmfReq) (st : Status) : (s.turnLmf cmd q st).base = s.base := by
  simp [State.turnLmf]

@[simp] theorem State.base_arrived (s : State) (q : LmfReq) (payload : Bool) : (s.arrived q payload).base = s.base := by
  unfold State.arrived
  split <;> simp

/-- What an access met is held, or answered at once. -/
theorem State.base_of_holdOn {s t : State} {a : HoldAs} {rid off : Nat} {m : Met} {o : Option Status} (h : s.holdOn a rid off m = (t, o)) : t.base = s.base := by
  rw [← State.base_holdOn s a rid off m, h]

@[simp] theorem State.base_lmfMet (s : State) (cmd : Instr) (q : LmfReq) (access rid : Nat) (m : Met) : (s.lmfMet cmd q access rid m).base = s.base := by
  unfold State.lmfMet
  split
  · rw [State.base_complete]
    exact State.base_of_holdOn (by assumption)
  · exact State.base_of_holdOn (by assumption)

@[simp] theorem State.base_refuseBci (s : State) (cmd : Instr) (row : BciRow) (r : BciReq) (st : Status) : (s.refuseBci cmd row r st).base = s.base := by
  unfold State.refuseBci
  (repeat' split) <;> simp

@[simp] theorem State.base_giveKey (s : State) (eid : Nat) (rid : Nat) : (s.giveKey eid rid).base = s.base := by
  unfold State.giveKey
  (repeat' split) <;> simp

@[simp] theorem State.base_giveKeyAll (s : State) (rid : Nat) : (s.giveKeyAll rid).base = s.base := by
  unfold State.giveKeyAll
  (repeat' split) <;> simp [↓State.base_mk, apply_ite State.base, State.base_foldl]

@[simp] theorem State.base_addDeadline (s : State) (id : Nat) (at' : Nat) (abort : Bool) (src : Nat) (obj : Nat) (i : Issuer) : (s.addDeadline id at' abort src obj i).base = s.base := by
  rfl

@[simp] theorem State.base_dropDeadline (s : State) (id : Nat) : (s.dropDeadline id).base = s.base := by
  rfl

@[simp] theorem State.base_dueBci (s : State) (cmd : Instr) (r : BciReq) (i : Issuer) (id : Nat) : (s.dueBci cmd r i id).base = s.base := by
  unfold State.dueBci
  split <;> simp

@[simp] theorem State.base_holdBci (s : State) (cmd : Instr) (r : BciReq) (i : Issuer) (why : HoldWhy) (limit : Nat) : (s.holdBci cmd r i why limit).base = s.base := by
  simp [State.holdBci]

@[simp] theorem State.base_bciMet (s : State) (cmd : Instr) (r : BciReq) (i : Issuer) (access rid off : Nat) (m : Met) : (s.bciMet cmd r i access rid off m).1.base = s.base := by
  unfold State.bciMet
  dsimp only
  split
  · rw [State.base_dueBci]
    exact State.base_of_holdOn (by assumption)
  · exact State.base_of_holdOn (by assumption)

theorem State.base_of_bciMet {s t : State} {cmd : Instr} {r : BciReq} {i : Issuer} {access rid off : Nat} {m : Met} {o : Option Status}
    (h : s.bciMet cmd r i access rid off m = (t, o)) : t.base = s.base := by
  rw [← State.base_bciMet s cmd r i access rid off m, h]

@[simp] theorem State.base_bciStop (s : State) (cmd : Instr) (r : BciReq) (i : Issuer) (access rid off : Nat) (m : Met) : (s.bciStop cmd r i access rid off m).base = s.base := by
  unfold State.bciStop
  split
  · exact State.base_of_bciMet (by assumption)
  · rw [State.base_respond]
    exact State.base_of_bciMet (by assumption)

@[simp] theorem State.base_lateNotice (s : State) (cmd : Instr) (r : BciReq) (i : Issuer) : (s.lateNotice cmd r i).base = s.base := by
  unfold State.lateNotice
  (repeat' split) <;> simp

@[simp] theorem State.base_startOp (s : State) (kind : OpKind) (total : Nat) (who : Option (Nat × Nat)) : (s.startOp kind total who).base = s.base := by
  rfl

@[simp] theorem State.base_endOp (s : State) (id : Nat) (state : Nat) (st : Status) : (s.endOp id state st).base = s.base := by
  unfold State.endOp
  (repeat' split) <;> simp [↓State.base_mk]

@[simp] theorem State.base_opProgress (s : State) (id : Nat) (pos : Nat) : (s.opProgress id pos).base = s.base := by
  rfl

@[simp] theorem State.base_cxlError (s : State) (port : Nat) (fn : Nat) (dec : Nat) (ctx : Nat) (st : Status) (key : Nat) (off : Nat) : (s.cxlError port fn dec ctx st key off).base = s.base := by
  simp [State.cxlError]

@[simp] theorem State.base_unbind (s : State) (f : Nat → HostWindow → Bool) : (s.unbind f).base = s.base := by
  rfl

@[simp] theorem State.base_cxlReadFail (s : State) (port : Nat) (hpa : Nat) (st : Status) : (s.cxlReadFail port hpa st).base = s.base := by
  unfold State.cxlReadFail
  split <;> simp

@[simp] theorem State.base_cxlDiscard (s : State) (port : Nat) (hpa : Nat) (st : Status) : (s.cxlDiscard port hpa st).base = s.base := by
  unfold State.cxlDiscard
  split <;> simp

@[simp] theorem State.base_cqReject (s : State) (port : Nat) (st : Status) : (s.cqReject port st).base = s.base := by
  simp [State.cqReject]

@[simp] theorem State.base_endPub (s : State) (p : PubCmd) (st : Status) (resp : List Word) (value : Nat) : (s.endPub p st resp value).base = s.base := by
  simp [State.endPub, ↓State.base_mk]

@[simp] theorem State.base_selfLogged (s : State) (c : Instr) (ctx : Nat) (st : Status) : (s.selfLogged c ctx st).base = s.base := by
  unfold State.selfLogged
  (repeat' split) <;> simp

@[simp] theorem State.base_endCmd (s : State) (c : Instr) (eid : Nat) (ctx : Nat) (st : Status) : (s.endCmd c eid ctx st).base = s.base := by
  unfold State.endCmd
  (repeat' split) <;> simp

@[simp] theorem State.base_endHeld (s : State) (h : Held) (st : Status) : (s.endHeld h st).base = s.base := by
  unfold State.endHeld
  split <;> simp [↓State.base_mk]

@[simp] theorem State.base_endHolds (s : State) (f : Held → Bool) (st : Status) : (s.endHolds f st).base = s.base := by
  simp [State.endHolds, ↓State.base_mk, apply_ite State.base, State.base_foldl]

@[simp] theorem State.base_releaseOne (s : State) (h : Held) : (s.releaseOne h).base = s.base := by
  rfl

@[simp] theorem State.base_bufferFree (s : State) : (s.bufferFree).base = s.base := by
  rfl

@[simp] theorem State.base_cxlHoldOn (s : State) (cmd : Instr) (i : Issuer) (access : Nat) (rid : Nat) (off : Nat) (m : Met) : (s.cxlHoldOn cmd i access rid off m).1.base = s.base := by
  simp [State.cxlHoldOn]

@[simp] theorem State.base_cxlAck (s : State) (port : Nat) : (s.cxlAck port).base = s.base := by
  unfold State.cxlAck
  split <;> simp

@[simp] theorem State.base_withGot (s : State) (cmd : Instr) (got : Bytes) : (s.withGot cmd got).base = s.base := by
  rfl

@[simp] theorem State.base_ungot (t s : State) : (t.ungot s).base = t.base := by
  simp [State.ungot, ↓State.base_mk]

@[simp] theorem State.base_lineWrite (s : State) (rid : Nat) (ln : Nat) (data : Bytes) : (s.lineWrite rid ln data).base = s.base := by
  simp [State.lineWrite]

@[simp] theorem State.base_lineToxic (s : State) (rid : Nat) (ln : Nat) : (s.lineToxic rid ln).base = s.base := by
  simp [State.lineToxic]

@[simp] theorem State.base_lineClean (s : State) (rid : Nat) (ln : Nat) : (s.lineClean rid ln).base = s.base := by
  unfold State.lineClean
  split <;> simp

@[simp] theorem State.base_lineReturn (s : State) (rid : Nat) (ln : Nat) (dirty : Bool) (poison : Bool) (data : Bytes) : (s.lineReturn rid ln dirty poison data).base = s.base := by
  unfold State.lineReturn
  (repeat' split) <;> simp

@[simp] theorem State.base_cohReply (s : State) (q : LmfReq) (op : Nat) (flag : Nat) (data : Bytes) : (s.cohReply q op flag data).base = s.base := by
  rfl

@[simp] theorem State.base_nack (s : State) (rid : Nat) (ln : Nat) (q : LmfReq) (owner : Bool) (reserved : Bool) : (s.nack rid ln q owner reserved).base = s.base := by
  unfold State.nack
  split <;> simp

@[simp] theorem State.base_grantLine (s : State) (rid : Nat) (ln : Nat) (agent : Nat) (st : LineState) : (s.grantLine rid ln agent st).base = s.base := by
  unfold State.grantLine
  simp [↓State.base_mk, apply_ite State.base, State.base_foldl]
  (repeat' split) <;> simp [↓State.base_mk, apply_ite State.base, State.base_foldl]

@[simp] theorem State.base_doWrUnc (s : State) (rid : Nat) (ln : Nat) (q : LmfReq) (data : Bytes) (mask : BitVec 64) : (s.doWrUnc rid ln q data mask).base = s.base := by
  simp [State.doWrUnc]

@[simp] theorem State.base_doRdUnc (s : State) (rid : Nat) (q : LmfReq) : (s.doRdUnc rid q).base = s.base := by
  unfold State.doRdUnc
  split <;> simp

@[simp] theorem State.base_grantData (s : State) (rid : Nat) (ln : Nat) (agent : Nat) (st : LineState) (q : LmfReq) : (s.grantData rid ln agent st q).base = s.base := by
  simp [State.grantData]

@[simp] theorem State.base_lineStable (s : State) (rid : Nat) (ln : Nat) : (s.lineStable rid ln).base = s.base := by
  rfl

@[simp] theorem State.base_servePending (s : State) (rid : Nat) (ln : Nat) : (s.servePending rid ln).base = s.base := by
  unfold State.servePending
  simp [↓State.base_mk, apply_ite State.base, State.base_foldl]
  (repeat' split) <;> simp [↓State.base_mk, apply_ite State.base, State.base_foldl]

@[simp] theorem State.base_poisonPending (s : State) (rid : Nat) (ln : Nat) (req : LineReq) : (s.poisonPending rid ln req).base = s.base := by
  unfold State.poisonPending
  (repeat' split) <;> simp

@[simp] theorem State.base_settleLine (s : State) (rid : Nat) (ln : Nat) : (s.settleLine rid ln).base = s.base := by
  unfold State.settleLine
  simp [↓State.base_mk, apply_ite State.base, State.base_foldl]
  (repeat' split) <;> simp [↓State.base_mk, apply_ite State.base, State.base_foldl]

@[simp] theorem State.base_evictLine (s : State) (rid : Nat) (ln : Nat) (l : Line) : (s.evictLine rid ln l).base = s.base := by
  unfold State.evictLine
  (repeat' split) <;> simp [↓State.base_mk, apply_ite State.base, State.base_foldl]

@[simp] theorem State.base_invalidate (s : State) (rid : Nat) (ln : Nat) (l : Line) (but : Option Nat) (req : LineReq) : (s.invalidate rid ln l but req).base = s.base := by
  simp [State.invalidate, ↓State.base_mk, apply_ite State.base, State.base_foldl]

@[simp] theorem State.base_snoopOwner (s : State) (rid : Nat) (ln : Nat) (l : Line) (op : Nat) (requester : Nat) (req : LineReq) : (s.snoopOwner rid ln l op requester req).base = s.base := by
  rfl

@[simp] theorem State.base_cohRequest (s : State) (rid : Nat) (ln : Nat) (ro : Bool) (k : CohKind) (a : Nat) (isAgent : Bool) (q : LmfReq) : (s.cohRequest rid ln ro k a isAgent q).base = s.base := by
  unfold State.cohRequest
  simp [↓State.base_mk, apply_ite State.base, State.base_foldl]
  (repeat' split) <;> simp [↓State.base_mk, apply_ite State.base, State.base_foldl]

@[simp] theorem State.base_journalExcl (s : State) (rid : Nat) (r : Region) (agent : Nat) (cmd : Instr) (q : LmfReq) : (s.journalExcl rid r agent cmd q).base = s.base := by
  unfold State.journalExcl
  split <;> simp [↓State.base_mk]

@[simp] theorem State.base_cohOwn (s : State) (cmd : Instr) (rid : Nat) (ln : Nat) (ro : Bool) (k : CohKind) (agent : Nat) (q : LmfReq) : (s.cohOwn cmd rid ln ro k agent q).base = s.base := by
  unfold State.cohOwn
  (repeat' split) <;> simp

@[simp] theorem State.base_cohDrop (s : State) (rid : Nat) (ln : Nat) (agent : Nat) (q : LmfReq) (wb : Bool) (poison : Bool) (data : Bytes) : (s.cohDrop rid ln agent q wb poison data).base = s.base := by
  unfold State.cohDrop
  simp [↓State.base_mk, apply_ite State.base, State.base_foldl]
  (repeat' split) <;> simp [↓State.base_mk, apply_ite State.base, State.base_foldl]

@[simp] theorem State.base_revokeLines (s : State) (w : RevokeWait) : (s.revokeLines w).base = s.base := by
  unfold State.revokeLines
  split
  · rfl
  · refine State.base_foldl (fun s e => ?_) _ _
    dsimp only
    (repeat' split) <;> simp

@[simp] theorem State.base_revokeStep (s : State) (w : RevokeWait) : (s.revokeStep w).base = s.base := by
  unfold State.revokeStep
  (repeat' split) <;> simp [↓State.base_mk, apply_ite State.base, State.base_foldl]

@[simp] theorem State.base_settle (s : State) : (s.settle).base = s.base := by
  simp [State.settle, ↓State.base_mk, apply_ite State.base, State.base_foldl]

@[simp] theorem State.base_again (s : State) (a : Again) (more : List Again) : (s.again a more).base = s.base := by
  simp [State.again, ↓State.base_mk]

@[simp] theorem State.base_resumed (s : State) (a : Again) : (s.resumed a).base = s.base := by
  unfold State.resumed
  split <;> simp [↓State.base_mk]

@[simp] theorem State.base_recallAnswered (s : State) (rid : Nat) (agent : Nat) : (s.recallAnswered rid agent).base = s.base := by
  unfold State.recallAnswered
  (repeat' split) <;> simp [↓State.base_mk, apply_ite State.base, State.base_foldl]

@[simp] theorem State.base_backOff (s : State) (x : Txn) (draw : Nat) : (s.backOff x draw).base = s.base := by
  rfl

@[simp] theorem State.base_refuse (r : BciReq) (s : State) (st : Status) : (State.refuse r s st).base = s.base := by
  simp [State.refuse]

@[simp] theorem State.base_respondLog (s : State) (r : BciReq) (i : Issuer) (lseq : Nat) (st : Status) (resp : List Word) (value : Nat) : (s.respondLog r i lseq st resp value).base = s.base := by
  unfold State.respondLog
  simp [↓State.base_mk, apply_ite State.base, State.base_foldl]
  (repeat' split) <;> simp [↓State.base_mk, apply_ite State.base, State.base_foldl]

@[simp] theorem State.base_sendPages (s : State) (p : PubCmd) (rg : Region) (ps : List (Nat × Nat)) : (s.sendPages p rg ps).base = s.base := by
  simp [State.sendPages, ↓State.base_mk, apply_ite State.base, State.base_foldl]

@[simp] theorem State.base_discardPages (s : State) (rid : Nat) (rg : Region) (off : Nat) (n : Nat) (eid : Nat) (ctx : Nat) : (s.discardPages rid rg off n eid ctx).base = s.base := by
  simp [State.discardPages, ↓State.base_mk, apply_ite State.base, State.base_foldl]

@[simp] theorem State.base_copyPinned (s : State) (id srcRid off dst dstOff : Nat) (i : Issuer) (ps : List (Nat × Nat)) :
    (s.copyPinned id srcRid off dst dstOff i ps).1.base = s.base := by
  induction ps generalizing s with
  | nil => rfl
  | cons p ps ih =>
    unfold State.copyPinned
    dsimp only
    (repeat' split) <;> simp [ih]

@[simp] theorem State.base_newCounter (s : State) (rid : Nat) (eid : Nat) (ctx : Nat) : (s.newCounter rid eid ctx).1.base = s.base := by
  rfl

@[simp] theorem State.base_endWait (s : State) (w : Wait) (st : Status) (resp : List Word) : (s.endWait w st resp).base = s.base := by
  unfold State.endWait
  split <;> simp [↓State.base_mk]

@[simp] theorem State.base_freeCounter (s : State) (idx : Nat) : (s.freeCounter idx).base = s.base := by
  unfold State.freeCounter
  (repeat' split) <;> simp [↓State.base_mk, apply_ite State.base, State.base_foldl]

@[simp] theorem State.base_countWrite (s : State) (ckey : Nat) (n : Nat) : (s.countWrite ckey n).base = s.base := by
  rfl

@[simp] theorem State.base_doAtomic (s : State) (port : Bool) (rid : Nat) (off : Nat) (op : Nat) (w : Nat) (a : Nat) (b : Nat) : (s.doAtomic port rid off op w a b).base = s.base := by
  unfold State.doAtomic
  simp [↓State.base_mk, apply_ite State.base, State.base_foldl]
  (repeat' split) <;> simp [↓State.base_mk, apply_ite State.base, State.base_foldl]

@[simp] theorem State.base_nackAtomic (s : State) (rid : Nat) (ln : Nat) (q : LmfReq) (reserved : Bool) : (s.nackAtomic rid ln q reserved).base = s.base := by
  simp [State.nackAtomic]

@[simp] theorem State.base_finishLogged (s : State) (r : BciReq) (i : Issuer) (lseq : Nat) (rid : Nat) (off : Nat) (data : Bytes) (st : Status) (resp : List Word) (value : Nat) : (s.finishLogged r i lseq rid off data st resp value).base = s.base := by
  simp [State.finishLogged]

@[simp] theorem State.base_onCopy (s : State) (rid : Nat) (f : State → State) (h : ∀ s, (f s).base = s.base) : (s.onCopy rid f).base = s.base := by
  unfold State.onCopy
  dsimp only
  (repeat' split) <;> simp [↓State.base_mk, h]

@[simp] theorem State.base_applyNote (s : State) (home rid gen : Nat) (data : Bytes) (log : Option LogNote) (note : JournalNote) :
    (s.applyNote home rid gen data log note).base = s.base := by
  unfold State.applyNote
  cases note with
  | shadow p e c =>
    refine State.base_onCopy _ _ _ fun s => ?_
    dsimp only
    (repeat' split) <;> simp
  | shadowEnd p e c =>
    refine State.base_onCopy _ _ _ fun s => ?_
    split <;> simp
  | version v ps =>
    refine State.base_onCopy _ _ _ fun s => ?_
    extract_lets s1
    have h1 : s1.base = s.base := by
      dsimp only [s1]
      split
      · refine State.base_foldl (fun s p => ?_) _ _
        split <;> simp
      · rfl
    split <;> simpa using h1
  | region b n attr c v =>
    dsimp only
    split <;> simp [↓State.base_mk]
  | _ => simp [↓State.base_mk]

@[simp] theorem State.base_mirrorDone (s : State) (w : MirrorWait) : (s.mirrorDone w).base = s.base := by
  unfold State.mirrorDone
  extract_lets home s1 s2 s3 src s4 s5
  have h3 : s3.base = s.base := by
    have h2 : s2.base = s.base := by simp [s2, s1, home, State.base_foldl, ↓State.base_mk]
    dsimp only [s3]
    split <;> simpa using h2
  have h4 : s4.base = s.base := by
    dsimp only [s4]
    split <;> simpa [↓State.base_mk] using h3
  have h5 : s5.base = s.base := by
    dsimp only [s5]
    split <;> simpa using h4
  (repeat' split) <;> simpa using h5

@[simp] theorem State.base_moRaise (s : State) (id : Nat) (i : Issuer) (g : Nat × Nat × Nat × Nat × Nat) : (s.moRaise id i g).base = s.base := by
  simp [State.moRaise]

@[simp] theorem State.base_introduce (s : State) (rid : Nat) (r : Region) : (s.introduce rid r).base = s.base := by
  simp [State.introduce, ↓State.base_mk, apply_ite State.base, State.base_foldl]

@[simp] theorem State.base_holdTable (s : State) (rid : Nat) : (s.holdTable rid).base = s.base := by
  rfl

@[simp] theorem State.base_destroyLines (s : State) (rid : Nat) : (s.destroyLines rid).base = s.base := by
  refine State.base_foldl (fun s e => ?_) _ _
  dsimp only
  (repeat' split) <;> simp [↓State.base_mk, State.base_foldl]

@[simp] theorem State.base_unbindRings (s : State) (rid : Nat) : (s.unbindRings rid).base = s.base := by
  simp [State.unbindRings, ↓State.base_mk, apply_ite State.base, State.base_foldl]

@[simp] theorem State.base_endRegionOps (s : State) (rid : Nat) (st : Status) : (s.endRegionOps rid st).base = s.base := by
  simp [State.endRegionOps, ↓State.base_mk, apply_ite State.base, State.base_foldl]

@[simp] theorem State.base_abortSaved (s : State) (seq : Nat) (exc : Nat) (st : Status) : (s.abortSaved seq exc st).base = s.base := by
  simp [State.abortSaved, ↓State.base_mk, apply_ite State.base, State.base_foldl]

@[simp] theorem State.base_mapRefs (s : State) (f : PageRef → TierPage → TierPage) : (s.mapRefs f).base = s.base := by
  rfl

@[simp] theorem State.base_kick (s : State) : (s.kick).base = s.base := by
  rfl

@[simp] theorem State.base_applyPolicy (s : State) (rid : Nat) (new : Policy) : (s.applyPolicy rid new).base = s.base := by
  rfl

@[simp] theorem State.base_ssdSync (s : State) : (s.ssdSync).base = s.base := by
  unfold State.ssdSync
  dsimp only
  rw [State.base_foldl, State.base_foldl]
  · intros; simp [↓State.base_mk]
  · intros; (repeat' split) <;> simp [↓State.base_mk]

@[simp] theorem State.base_unmirror (s : State) (rid : Nat) : (s.unmirror rid).base = s.base := by
  simp [State.unmirror, ↓State.base_mk, apply_ite State.base, State.base_foldl]

@[simp] theorem State.base_startMirror (s : State) (rid : Nat) (partner : Nat) (i : Issuer) : (s.startMirror rid partner i).1.base = s.base := by
  unfold State.startMirror
  simp [↓State.base_mk, apply_ite State.base, State.base_foldl]
  (repeat' split) <;> simp [↓State.base_mk, apply_ite State.base, State.base_foldl]

@[simp] theorem State.base_takeOut (s : State) (rid p n : Nat) : (s.takeOut rid p n).1.base = s.base := by
  unfold State.takeOut
  extract_lets s1
  have h1 : s1.base = s.base := by
    refine State.base_foldl (fun s k => ?_) _ _
    split <;> simp
  split <;> simpa using h1

@[simp] theorem State.base_freeHandles (s : State) (rid : Nat) (hs : List (Nat × Nat)) : (s.freeHandles rid hs).base = s.base := by
  refine State.base_foldl (fun s e => ?_) _ _
  dsimp only
  (repeat' split) <;> simp [State.base_foldl]

@[simp] theorem State.base_putPage (s : State) (rid : Nat) (h0 : Nat) (st : Nat) (c : Nat) (ro : Bool) (p : Nat) (page : Option (Region × TierPage)) : (s.putPage rid h0 st c ro p page).base = s.base := by
  unfold State.putPage
  (repeat' split) <;> simp [↓State.base_mk, apply_ite State.base, State.base_foldl]

@[simp] theorem State.base_renumber (s : State) (f : Nat → Nat) : (s.renumber f).base = s.base := by
  rfl

@[simp] theorem State.base_install (s : State) (rid p n c : Nat) (ro : Bool) (src : Nat → Option Nat) : (s.install rid p n c ro src).base = s.base := by
  refine State.base_foldl (fun s b => ?_) _ _
  dsimp only
  rw [State.base_foldl]
  · split <;> simp
  · intros
    (repeat' split) <;> simp

@[simp] theorem State.base_resolveSaved (s : State) (seq : Nat) (abort : Option Status) : (s.resolveSaved seq abort).base = s.base := by
  unfold State.resolveSaved
  (repeat' split) <;> simp [↓State.base_mk, apply_ite State.base, State.base_foldl]

@[simp] theorem State.base_mapPages (s : State) (f : TierPage → TierPage) : (s.mapPages f).base = s.base := by
  rfl

@[simp] theorem State.base_dropTl (s : State) (ext : Nat) : (s.dropTl ext).base = s.base := by
  rfl

@[simp] theorem State.base_setExtent (s : State) (ext : Nat) (f : Extent → Extent) : (s.setExtent ext f).base = s.base := by
  rfl

@[simp] theorem State.base_extentGone (s : State) (ext : Nat) : (s.extentGone ext).base = s.base := by
  unfold State.extentGone
  simp [↓State.base_mk, apply_ite State.base, State.base_foldl]
  (repeat' split) <;> simp [↓State.base_mk, apply_ite State.base, State.base_foldl]

@[simp] theorem State.base_settleExtent (s : State) (ext : Nat) : (s.settleExtent ext).base = s.base := by
  unfold State.settleExtent
  (repeat' split) <;> simp

@[simp] theorem State.base_loseExtent (s : State) (ext : Nat) : (s.loseExtent ext).base = s.base := by
  unfold State.loseExtent
  (repeat' split) <;> simp

@[simp] theorem State.base_loseLender (s : State) (eid : Nat) : (s.loseLender eid).base = s.base := by
  simp [State.loseLender, ↓State.base_mk, apply_ite State.base, State.base_foldl]

@[simp] theorem State.base_tierOps (s : State) : (s.tierOps).base = s.base := by
  unfold State.tierOps
  dsimp only
  rw [State.base_foldl, State.base_kick]
  intros
  (repeat' split) <;> simp

@[simp] theorem State.base_beginDrain (s : State) (k : OpKind) : (s.beginDrain k).base = s.base := by
  unfold State.beginDrain
  split <;> simp

@[simp] theorem State.base_withT0 (s : State) (f : State → State) (h : ∀ s, (f s).base = s.base) : (s.withT0 f).base = s.base := by
  unfold State.withT0
  split <;> simp [h]

@[simp] theorem State.base_sealInto (s : State) (p : PageRef) (m : Move) (ext : Nat) (e : Extent) (im : Image) : (s.sealInto p m ext e im).base = s.base := by
  simp [State.sealInto]

@[simp] theorem State.base_switchMove (s : State) (p : PageRef) (q : TierPage) (m : Move) : (s.switchMove p q m).base = s.base := by
  unfold State.switchMove
  dsimp only
  (repeat' split) <;> try simp

@[simp] theorem State.base_lowSpace (s : State) (n : Nat) : (s.lowSpace n).base = s.base := by
  induction n generalizing s with
  | zero => rfl
  | succ n ih =>
    unfold State.lowSpace
    (repeat' split) <;> simp [ih]

@[simp] theorem State.base_pageError (s : State) (p : PageRef) (cls : Nat) (layer : Nat) (st : Status) (off : Nat) : (s.pageError p cls layer st off).base = s.base := by
  simp [State.pageError]

@[simp] theorem State.base_corrupt (s : State) (p : PageRef) (layer : Nat) (off : Nat) : (s.corrupt p layer off).base = s.base := by
  simp [State.corrupt, ↓State.base_mk, apply_ite State.base, State.base_foldl]

@[simp] theorem State.base_reimage (s : State) (p : PageRef) : (s.reimage p).base = s.base := by
  unfold State.reimage
  (repeat' split) <;> simp

@[simp] theorem State.base_recoveryFailed (s : State) (p : PageRef) : (s.recoveryFailed p).base = s.base := by
  simp [State.recoveryFailed]

@[simp] theorem State.base_unstall (s : State) (n : Nat) : (s.unstall n).base = s.base := by
  simp [State.unstall, ↓State.base_mk, apply_ite State.base, State.base_foldl]

@[simp] theorem State.base_slotDone (s : State) (cmd : Instr) (h : SlotHdr) : (s.slotDone cmd h).base = s.base := by
  simp [State.slotDone]

@[simp] theorem State.base_slotRaise (s : State) (cmd : Instr) (h : SlotHdr) (q : QSlot) (exc : Nat) (st : Status) : (s.slotRaise cmd h q exc st).base = s.base := by
  simp [State.slotRaise]

@[simp] theorem State.base_illegal (s : State) (cmd : Instr) (h : SlotHdr) (q : QSlot) : (s.illegal cmd h q).base = s.base := by
  simp [State.illegal]

@[simp] theorem State.base_modRegs (s : State) (n : Nat) (f : RegFile → RegFile) : (s.modRegs n f).base = s.base := by
  rfl

@[simp] theorem State.base_stick (s : State) (n : Nat) (seq : Nat) (f : FFlags) : (s.stick n seq f).base = s.base := by
  rfl

@[simp] theorem State.base_slotMet (s : State) (cmd : Instr) (h : SlotHdr) (k : KernelRun) (q : QSlot) (access rid off : Nat) (m : Met) :
    (s.slotMet cmd h k q access rid off m).base = s.base := by
  unfold State.slotMet
  dsimp only
  split
  · rw [State.base_slotRaise]
    exact State.base_of_holdOn (by assumption)
  · have h := State.base_of_holdOn ‹_›
    split <;> simpa using h

@[simp] theorem State.base_slotAccess (s : State) (cmd : Instr) (h : SlotHdr) (k : KernelRun) (q : QSlot) (eid key off n : Nat) (need : Rights) (access : Nat)
    {log : Status → State → State} {meet : Nat → Region → State → Met} {body : Nat → Region → State → State} (hlog : ∀ st s, (log st s).base = s.base)
    (hbody : ∀ rid rg s, (body rid rg s).base = s.base) : (s.slotAccess cmd h k q eid key off n need access log meet body).base = s.base := by
  unfold State.slotAccess
  (repeat' split) <;> simp [hlog, hbody]

@[simp] theorem State.base_slotRemote (s : State) (cmd : Instr) (h : SlotHdr) (k : KernelRun) (eid : Nat) (op : Nat) (key : Nat) (off : Nat) (data : Bytes) (idem : Bool) : (s.slotRemote cmd h k eid op key off data idem).base = s.base := by
  simp [State.slotRemote]

@[simp] theorem State.base_slotRead (s : State) (hw : Nat) (k : KernelRun) (rid : Nat) (rg : Region) (off : Nat) (n : Nat) : (s.slotRead hw k rid rg off n).1.base = s.base := by
  simp [State.slotRead]

@[simp] theorem State.base_slotWrite (s : State) (hw : Nat) (n : Nat) (k : KernelRun) (rid : Nat) (rg : Region) (off : Nat) (data : Bytes) : (s.slotWrite hw n k rid rg off data).base = s.base := by
  unfold State.slotWrite
  split <;> simp

@[simp] theorem State.base_setParts (s : State) (n : Nat) (cmd : Instr) (p : Nat × Mem) : (s.setParts n cmd p).base = s.base := by
  rfl

theorem State.base_of_partsRun {s t : State} {hw n : Nat} {k : KernelRun} {rid : Nat} {data : Option (Nat → Nat → Bytes)} {anyway : Bool} {cs : List (Nat × Nat)} {p : Nat × Mem} {x}
    (h : State.partsRun hw n k rid data anyway cs p s = (t, x)) : t.base = s.base := by
  induction cs generalizing p s with
  | nil => cases h; rfl
  | cons c cs ih =>
    unfold State.partsRun at h
    dsimp only at h
    (repeat' split at h)
    all_goals try exact (Prod.mk.inj h).1 ▸ rfl
    all_goals simpa using ih h

@[simp] theorem State.base_slotOwn (s : State) (cmd : Instr) (h : SlotHdr) (k : KernelRun) (q : QSlot) (eid key : Nat) (rs : List (Nat × Nat))
    (data : Option (Nat → Nat → Bytes)) (anyway : Bool) {body : Nat → Mem → State → State} (hbody : ∀ rid m s, (body rid m s).base = s.base) :
    (s.slotOwn cmd h k q eid key rs data anyway body).base = s.base := by
  unfold State.slotOwn
  dsimp only
  (repeat' split) <;> simp [hbody]
  all_goals exact State.base_of_partsRun (by assumption)

@[simp] theorem State.base_slotFar (s : State) (cmd : Instr) (h : SlotHdr) (k : KernelRun) (eid key : Nat) (rs : List (Nat × Nat)) (data : Option (Nat → Nat → Bytes))
    {body : Mem → State → State} (hbody : ∀ m s, (body m s).base = s.base) : (s.slotFar cmd h k eid key rs data body).base = s.base := by
  unfold State.slotFar
  dsimp only
  (repeat' split) <;> simp [hbody]

@[simp] theorem State.base_slotMove (s : State) (cmd : Instr) (h : SlotHdr) (k : KernelRun) (q : QSlot) (eid key : Nat) (rs : List (Nat × Nat)) (data : Option (Nat → Nat → Bytes))
    (anyway : Bool) {body : Nat → Mem → State → State} (hbody : ∀ rid m s, (body rid m s).base = s.base) :
    (s.slotMove cmd h k q eid key rs data anyway body).base = s.base := by
  unfold State.slotMove
  split <;> simp [hbody]

@[simp] theorem State.base_slotReply (s : State) (cmd : Instr) (t : Txn) (st : Status) (data : Bytes) : (s.slotReply cmd t st data).base = s.base := by
  unfold State.slotReply
  (repeat' split) <;> simp

@[simp] theorem State.base_tileWrite (s : State) (n : Nat) (a : Nat) (data : Bytes) : (s.tileWrite n a data).base = s.base := by
  rfl

@[simp] theorem State.base_askCore (s : State) (n : Nat) : (s.askCore n).base = s.base := by
  rfl

@[simp] theorem State.base_miscompute (s : State) (n : Nat) (col : Nat) : (s.miscompute n col).base = s.base := by
  simp [State.miscompute, ↓State.base_mk, apply_ite State.base, State.base_foldl]

@[simp] theorem State.base_modMsg (s : State) (id : Nat) (f : ExpMsg → ExpMsg) : (s.modMsg id f).base = s.base := by
  rfl

@[simp] theorem State.base_entryDeadlines (s : State) (id : Nat) : (s.entryDeadlines id).base = s.base := by
  unfold State.entryDeadlines
  (repeat' split) <;> simp [↓State.base_mk, apply_ite State.base, State.base_foldl]

@[simp] theorem State.base_expRelease (s : State) (id : Nat) : (s.expRelease id).base = s.base := by
  unfold State.expRelease
  simp [↓State.base_mk, apply_ite State.base, State.base_foldl]
  (repeat' split) <;> simp [↓State.base_mk, apply_ite State.base, State.base_foldl]

@[simp] theorem State.base_expSweep (s : State) : (s.expSweep).base = s.base := by
  rfl

@[simp] theorem State.base_addMessage (s : State) (li : Nat) (l : Lane) (slot : Nat) (w : List Word) (es : List ExpEntry) (dIn : Nat) (reject : Option Status) : (s.addMessage li l slot w es dIn reject).base = s.base := by
  simp [State.addMessage, ↓State.base_mk, apply_ite State.base, State.base_foldl]

@[simp] theorem State.base_takeMessage (s : State) (li : Nat) (l : Lane) (rg : Region) (slot : Nat) (w : List Word) : (s.takeMessage li l rg slot w).base = s.base := by
  simp [State.takeMessage, ↓State.base_mk, apply_ite State.base, State.base_foldl]

@[simp] theorem State.base_slotCheck (s : State) (li : Nat) (l : Lane) (slot : Nat) : (s.slotCheck li l slot).base = s.base := by
  unfold State.slotCheck
  (repeat' split) <;> simp [↓State.base_mk, apply_ite State.base, State.base_foldl]

@[simp] theorem State.base_laneCheck (s : State) (ckey : Nat) : (s.laneCheck ckey).base = s.base := by
  unfold State.laneCheck
  (repeat' split) <;> simp [↓State.base_mk, apply_ite State.base, State.base_foldl]

@[simp] theorem State.base_putCounted (s : State) (port : Bool) (rid : Nat) (off : Nat) (ckey : Nat) (data : Bytes) : (s.putCounted port rid off ckey data).base = s.base := by
  simp [State.putCounted]

@[simp] theorem State.base_noteMet (s : State) (cmd : Instr) (i : Issuer) (hw : Nat) (access : Nat) (rid : Nat) (off : Nat) (m : Met) (work : optParam Bool false) : (s.noteMet cmd i hw access rid off m work).base = s.base := by
  unfold State.noteMet
  split <;> simp

@[simp] theorem State.base_noteQueued (s : State) (cmd : Instr) (i : Issuer) (hw : Nat) (rid : Nat) (off : Nat) (m : Met) : (s.noteQueued cmd i hw rid off m).base = s.base := by
  unfold State.noteQueued
  split <;> simp

@[simp] theorem State.base_queueFault (s : State) (cmd : Instr) (i : Issuer) (hw : Nat) (rid : Nat) (off : Nat) (n : Nat) : (s.queueFault cmd i hw rid off n).base = s.base := by
  unfold State.queueFault
  split <;> simp

@[simp] theorem State.base_endEntries (s : State) (pick : ExpMsg → ExpEntry → Bool) (st : Status) : (s.endEntries pick st).base = s.base := by
  simp [State.endEntries, ↓State.base_mk, apply_ite State.base, State.base_foldl]

theorem State.base_of_countedIn {s t : State} {ctx eid rid : Nat} {r : Region} {off ckey : Nat} {data : Bytes} {work : WorkRef}
    (h : s.countedIn ctx eid rid r off ckey data work = .ok t) : t.base = s.base := by
  unfold State.countedIn at h
  dsimp only at h
  (repeat' split at h) <;> cases h
  simp

theorem State.base_of_ownCounted {s t : State} {i : Issuer} {eid key off ckey : Nat} {data : Bytes} {work : WorkRef}
    (h : s.ownCounted i eid key off ckey data work = .ok t) : t.base = s.base := by
  unfold State.ownCounted at h
  split at h
  · cases h
  · exact State.base_of_countedIn h

/-- A fold of steps that may fail keeps the base where each step does. -/
theorem State.base_of_foldl_ok {α ε : Type} {f : State → α → Except ε State} (hf : ∀ s a t, f s a = .ok t → t.base = s.base) {l : List α} {s t : State}
    {g : Except ε State → α → Except ε State} (hg : ∀ acc a, g acc a = acc.bind (fun s => f s a)) (h : l.foldl g (.ok s) = .ok t) : t.base = s.base := by
  induction l generalizing s with
  | nil => cases h; rfl
  | cons a l ih =>
    rw [List.foldl_cons, hg] at h
    cases hfa : f s a with
    | ok u =>
      rw [← hf s a u hfa]
      exact ih (by simpa [Except.bind, hfa] using h)
    | error e =>
      have stuck : ∀ l : List α, l.foldl g (.error e) = .error e := by
        intro l
        induction l with
        | nil => rfl
        | cons b l ih => rw [List.foldl_cons, hg]; exact ih
      simp [Except.bind, hfa, stuck] at h

theorem State.base_of_resultWrite {s t : State} {m : ExpMsg} {what : TxnUse} {ckey off : Nat} {data : Bytes}
    (h : s.resultWrite m what ckey off data = .ok t) : t.base = s.base := by
  unfold State.resultWrite at h
  dsimp only at h
  split at h
  · exact State.base_of_foldl_ok (fun _ _ _ => State.base_of_ownCounted) (fun acc a => by cases acc <;> rfl) h
  · split at h <;> cases h
    exact State.base_foldl (fun s c => by simp) _ _

@[simp] theorem State.base_laneCounters (s : State) (rid ctx n : Nat) : (s.laneCounters rid ctx n).1.base = s.base := by
  induction n generalizing s with
  | zero => rfl
  | succ n ih => simp [State.laneCounters, ih]

@[simp] theorem State.base_laneGone (s : State) : (s.laneGone).base = s.base := by
  refine State.base_foldl (fun s e => ?_) _ _
  (repeat' split) <;> simp [↓State.base_mk]

@[simp] theorem State.base_ssdEnd (s : State) : (s.ssdEnd).base = s.base := by
  simp [State.ssdEnd, ↓State.base_mk]

@[simp] theorem State.base_startCore (s : State) (n : Nat) : (s.startCore n).base = s.base := by
  unfold State.startCore
  simp [↓State.base_mk, apply_ite State.base, State.base_foldl]
  (repeat' split) <;> simp [↓State.base_mk, apply_ite State.base, State.base_foldl]

@[simp] theorem State.base_modEntries (s : State) (ids : List (Nat × Nat)) (f : Nat → ExpEntry → ExpEntry) : (s.modEntries ids f).base = s.base := by
  rfl

@[simp] theorem State.base_batchOuts (s : State) (b : MicroBatch) : (s.batchOuts b).base = s.base := by
  unfold State.batchOuts
  split <;> simp

@[simp] theorem State.base_batchOn (s : State) (core : Nat) (b : MicroBatch) : (s.batchOn core b).base = s.base := by
  simp [State.batchOn, ↓State.base_mk]

@[simp] theorem State.base_batchQueued (s : State) (core : Nat) (b : MicroBatch) (rid : Nat) : (s.batchQueued core b rid).base = s.base := by
  unfold State.batchQueued
  split <;> simp [↓State.base_mk]

@[simp] theorem State.base_resultFail (s : State) (id : Nat) (st : Status) : (s.resultFail id st).base = s.base := by
  unfold State.resultFail
  (repeat' split) <;> simp [↓State.base_mk, apply_ite State.base, State.base_foldl]

@[simp] theorem State.base_expRow (s : State) (id r : Nat) : (s.expRow id r).base = s.base := by
  unfold State.expRow
  dsimp only
  (repeat' split) <;> simp
  exact State.base_of_resultWrite (by assumption)

@[simp] theorem State.base_expRows (s : State) (id : Nat) : (s.expRows id).base = s.base := by
  unfold State.expRows
  (repeat' split) <;> simp [↓State.base_mk, apply_ite State.base, State.base_foldl]

@[simp] theorem State.base_batchOff (s : State) (b : MicroBatch) (st : Status) : (s.batchOff b st).base = s.base := by
  unfold State.batchOff
  split <;> simp [↓State.base_mk]

@[simp] theorem State.base_batchOver (s : State) (b : MicroBatch) (st : Status) : (s.batchOver b st).base = s.base := by
  simp [State.batchOver, ↓State.base_mk, apply_ite State.base, State.base_foldl]

@[simp] theorem State.base_batchResolved (s : State) (b : MicroBatch) : (s.batchResolved b).base = s.base := by
  unfold State.batchResolved
  simp [↓State.base_mk, apply_ite State.base, State.base_foldl]
  (repeat' split) <;> simp [↓State.base_mk, apply_ite State.base, State.base_foldl]

@[simp] theorem State.base_dropMsg (s : State) (id : Nat) : (s.dropMsg id).base = s.base := by
  rfl

@[simp] theorem State.base_expFence (s : State) (eid : Nat) : (s.expFence eid).base = s.base := by
  simp [State.expFence, ↓State.base_mk]

@[simp] theorem State.base_expReset (s : State) (ctx : Nat) : (s.expReset ctx).base = s.base := by
  simp [State.expReset, ↓State.base_mk, apply_ite State.base, State.base_foldl]

@[simp] theorem State.base_modTransfer (s : State) (n : Nat) (id : Nat) (f : Transfer → Transfer) : (s.modTransfer n id f).base = s.base := by
  rfl

@[simp] theorem State.base_dmaSend (s : State) (n : Nat) (ctx : Nat) (t : Transfer) : (s.dmaSend n ctx t).base = s.base := by
  unfold State.dmaSend
  (repeat' split) <;> simp

@[simp] theorem State.base_coreMet (s : State) (cmd : Instr) (n engine : Nat) (k : KernelRun) (access rid off : Nat) (m : Met) (runTime : Bool) :
    (s.coreMet cmd n engine k access rid off m runTime).base = s.base := by
  unfold State.coreMet
  dsimp only
  split
  · simpa using State.base_of_holdOn ‹_›
  · have h := State.base_of_holdOn ‹_›
    split <;> simpa using h

@[simp] theorem State.base_coreAccess (s : State) (cmd : Instr) (n engine : Nat) (k : KernelRun) (eid key off len : Nat) (need : Rights) (access : Nat)
    {meet : Nat → Region → State → Met} {body : Nat → Region → State → State} (hbody : ∀ rid rg s, (body rid rg s).base = s.base) :
    (s.coreAccess cmd n engine k eid key off len need access meet body).base = s.base := by
  unfold State.coreAccess
  (repeat' split) <;> simp [hbody]

@[simp] theorem State.base_dmaOver (s : State) (n : Nat) (id : Nat) : (s.dmaOver n id).base = s.base := by
  unfold State.dmaOver
  simp [↓State.base_mk, apply_ite State.base, State.base_foldl]
  (repeat' split) <;> simp [↓State.base_mk, apply_ite State.base, State.base_foldl]

@[simp] theorem State.base_dmaPart (s : State) (n : Nat) (k : KernelRun) (rid : Nat) (rg : Region) (t : Transfer) (x : Nat × Nat) : (s.dmaPart n k rid rg t x).base = s.base := by
  unfold State.dmaPart
  simp [↓State.base_mk, apply_ite State.base, State.base_foldl]
  (repeat' split) <;> simp [↓State.base_mk, apply_ite State.base, State.base_foldl]

theorem State.base_of_dmaRun {s t : State} {n id : Nat} {k : KernelRun} {rid : Nat} {cs : List (Nat × Nat)} {x} (h : State.dmaRun n id k rid cs s = (t, x)) : t.base = s.base := by
  induction cs generalizing s with
  | nil => cases h; rfl
  | cons c cs ih =>
    unfold State.dmaRun at h
    (repeat' split at h)
    all_goals try exact (Prod.mk.inj h).1 ▸ rfl
    all_goals simpa using ih h

@[simp] theorem State.base_dmaOwn (s : State) (cmd : Instr) (n : Nat) (k : KernelRun) (t : Transfer) : (s.dmaOwn cmd n k t).base = s.base := by
  unfold State.dmaOwn
  dsimp only
  (repeat' split) <;> simp
  all_goals exact (State.base_of_dmaRun (by assumption)).trans (State.base_overlay ..)

@[simp] theorem State.base_dmaReply (s : State) (n : Nat) (id : Nat) (st : Status) (data : Bytes) : (s.dmaReply n id st data).base = s.base := by
  unfold State.dmaReply
  (repeat' split) <;> simp

@[simp] theorem State.base_belayOver (s : State) (n : Nat) (id : Nat) : (s.belayOver n id).base = s.base := by
  rfl

@[simp] theorem State.base_modBelay (s : State) (n : Nat) (id : Nat) (f : Belay → Belay) : (s.modBelay n id f).base = s.base := by
  rfl

@[simp] theorem State.base_belayReply (s : State) (n : Nat) (id : Nat) (st : Status) (data : Bytes) : (s.belayReply n id st data).base = s.base := by
  unfold State.belayReply
  (repeat' split) <;> simp

@[simp] theorem State.base_acquireSweep (s : State) : (s.acquireSweep).base = s.base := by
  refine State.base_foldl (fun s a => ?_) _ _
  dsimp only
  (repeat' split) <;> simp [↓State.base_mk]

@[simp] theorem State.base_domainDown (s : State) (e : DomEntry) : (s.domainDown e).base = s.base := by
  unfold State.domainDown
  (repeat' split) <;> simp

@[simp] theorem State.base_branchTo (cmd : Instr) (h : SlotHdr) (k : KernelRun) (q : QSlot) (target : ℤ) (s : State) : (branchTo cmd h k q target s).base = s.base := by
  unfold branchTo
  (repeat' split) <;> simp

@[simp] theorem State.base_setShard (s : State) (index : Nat) (shard : Nat) (h : Shard) : (s.setShard index shard h).base = s.base := by
  rfl

@[simp] theorem State.base_readsDone (s : State) (rid : Nat) (v : View) (was : Reads) (r : Reads) : (s.readsDone rid v was r).base = s.base := by
  simp [State.readsDone, ↓State.base_mk, apply_ite State.base, State.base_foldl]

@[simp] theorem State.base_registered (s : State) (id : Nat) (shard : Nat) (st : Status) : (s.registered id shard st).base = s.base := by
  unfold State.registered
  (repeat' split) <;> simp [↓State.base_mk, apply_ite State.base, State.base_foldl]

@[simp] theorem State.base_trvSweep (s : State) : (s.trvSweep).base = s.base := by
  simp [State.trvSweep, ↓State.base_mk, apply_ite State.base, State.base_foldl]

@[simp] theorem State.base_modQuery (s : State) (id : Nat) (f : Query → Query) : (s.modQuery id f).base = s.base := by
  rfl

@[simp] theorem State.base_queryDrop (s : State) (id : Nat) (st : optParam Status Status.ok) : (s.queryDrop id st).base = s.base := by
  unfold State.queryDrop
  (repeat' split) <;> simp [↓State.base_mk, apply_ite State.base, State.base_foldl]

@[simp] theorem State.base_blockOwn (s : State) (q : Query) (eid key off ctr : Nat) (data : Bytes) : (s.blockOwn q eid key off ctr data).base = s.base := by
  unfold State.blockOwn
  dsimp only
  split
  · split
    · simp
    · split
      · simp
      · split
        · rw [State.base_queryDrop]
          split <;> simp
        · split <;> simp [State.base_of_holdOn ‹_›]
  · split
    · simp [State.base_of_ownCounted ‹_›]
    · split <;> simp
    · split <;> simp [State.base_of_holdOn ‹_›]

@[simp] theorem State.base_queryWrite (s : State) (id : Nat) : (s.queryWrite id).base = s.base := by
  unfold State.queryWrite
  (repeat' split) <;> simp [↓State.base_mk, apply_ite State.base, State.base_foldl]

@[simp] theorem State.base_blockLost (s : State) (id : Nat) (st : Status) : (s.blockLost id st).base = s.base := by
  unfold State.blockLost
  (repeat' split) <;> simp

@[simp] theorem State.base_queryEnd (s : State) (id : Nat) (st : Status) : (s.queryEnd id st).base = s.base := by
  simp [State.queryEnd]

@[simp] theorem State.base_sendWalks (s : State) (q : Query) (ctx : Nat) (beam : List Nat) : (s.sendWalks q ctx beam).base = s.base := by
  refine State.base_foldl (fun s n => ?_) _ _
  (repeat' split) <;> simp

@[simp] theorem State.base_payloadFill (s : State) (q : Query) : (s.payloadFill q).base = s.base := by
  simp [State.payloadFill, ↓State.base_mk, apply_ite State.base, State.base_foldl]

@[simp] theorem State.base_queryMerge (s : State) (q : Query) : (s.queryMerge q).base = s.base := by
  simp [State.queryMerge, ↓State.base_mk, apply_ite State.base, State.base_foldl]

@[simp] theorem State.base_trvAnswer (s : State) (r : BciReq) (i : Issuer) (index : Nat) (lseq : Nat) (st : Status) (resp : List Word) (value : Nat) : (s.trvAnswer r i index lseq st resp value).base = s.base := by
  unfold State.trvAnswer
  simp [↓State.base_mk, apply_ite State.base, State.base_foldl]
  (repeat' split) <;> simp [↓State.base_mk, apply_ite State.base, State.base_foldl]

@[simp] theorem State.base_mergeStart (s : State) (index : Nat) (shard : Nat) (ix : Index) (h : Shard) (who : Option (Nat × Nat)) : (s.mergeStart index shard ix h who).base = s.base := by
  rfl

@[simp] theorem State.base_trvComplete (s : State) (index : Nat) : (s.trvComplete index).base = s.base := by
  unfold State.trvComplete
  (repeat' split) <;> simp [↓State.base_mk, apply_ite State.base, State.base_foldl]

@[simp] theorem State.base_autoMerge (s : State) (index : Nat) (shard : Nat) : (s.autoMerge index shard).base = s.base := by
  unfold State.autoMerge
  (repeat' split) <;> simp

@[simp] theorem State.base_updateFail (s : State) (u : TrvUpdate) (st : Status) : (s.updateFail u st).base = s.base := by
  simp [State.updateFail, ↓State.base_mk]

@[simp] theorem State.base_modUpdate (s : State) (id : Nat) (f : TrvUpdate → TrvUpdate) : (s.modUpdate id f).base = s.base := by
  rfl

@[simp] theorem State.base_appendOver (s : State) (u : TrvUpdate) (h : Shard) : (s.appendOver u h).base = s.base := by
  simp [State.appendOver]

@[simp] theorem State.base_mergeStop (s : State) (index : Nat) (shard : Nat) (state : Nat) (st : Status) : (s.mergeStop index shard state st).base = s.base := by
  unfold State.mergeStop
  (repeat' split) <;> simp

@[simp] theorem State.base_folded (s : State) (index : Nat) (shard : Nat) (op : Nat) (h : Shard) : (s.folded index shard op h).base = s.base := by
  rfl

@[simp] theorem State.base_foldReply (s : State) (index : Nat) (shard : Nat) (st : Status) : (s.foldReply index shard st).base = s.base := by
  unfold State.foldReply
  (repeat' split) <;> simp

@[simp] theorem State.base_modBatch (s : State) (id : Nat) (f : Batch → Batch) : (s.modBatch id f).base = s.base := by
  rfl

@[simp] theorem State.base_batchFault (s : State) (id : Nat) (i : Issuer) (input : Nat × Nat × Nat) (out : Option (Nat × Nat × Nat)) : (s.batchFault id i input out).base = s.base := by
  unfold State.batchFault
  split <;> simp

@[simp] theorem State.base_batchRefuse (s : State) (ws : List Word) (i : Issuer) (log : Nat) (st : Status) (a : Answer) : (s.batchRefuse ws i log st a).base = s.base := by
  unfold State.batchRefuse
  simp [↓State.base_mk, apply_ite State.base, State.base_foldl]
  (repeat' split) <;> simp [↓State.base_mk, apply_ite State.base, State.base_foldl]

@[simp] theorem State.base_swapDone (s : State) (n : Nat) (t : EmbTable) : (s.swapDone n t).base = s.base := by
  simp [State.swapDone, ↓State.base_mk]

@[simp] theorem State.base_swapSweep (s : State) (id : Nat) : (s.swapSweep id).base = s.base := by
  simp [State.swapSweep, ↓State.base_mk, apply_ite State.base, State.base_foldl]

@[simp] theorem State.base_batchDrop (s : State) (id : Nat) (st : optParam Status Status.ok) : (s.batchDrop id st).base = s.base := by
  unfold State.batchDrop
  (repeat' split) <;> simp [↓State.base_mk, apply_ite State.base, State.base_foldl]

@[simp] theorem State.base_outSend (s : State) (b : Batch) (off : Nat) (data : Bytes) : (s.outSend b off data).base = s.base := by
  simp [State.outSend, ↓State.base_mk, apply_ite State.base, State.base_foldl]

@[simp] theorem State.base_outFailed (s : State) (b : Batch) (st : Status) : (s.outFailed b st).base = s.base := by
  unfold State.outFailed
  split <;> simp

@[simp] theorem State.base_batchStall (s : State) (b : Batch) (i : Issuer) (access : Nat) (rid : Nat) (off : Nat) (m : Met) : (s.batchStall b i access rid off m).base = s.base := by
  unfold State.batchStall
  simp [↓State.base_mk, apply_ite State.base, State.base_foldl]
  (repeat' split) <;> simp [↓State.base_mk, apply_ite State.base, State.base_foldl]

theorem State.base_of_outOwn {s t : State} {b : Batch} {off : Nat} {data : Bytes} (h : s.outOwn b off data = .ok t) : t.base = s.base := by
  unfold State.outOwn at h
  dsimp only at h
  split at h
  · cases h
  · rename_i rid rg _
    (repeat' split at h) <;> cases h
    · simp
    · simp
    · rename_i hfold
      have step : ∀ (s : State) (c : Nat × Nat) (t : State), (match s.region? rid with
          | some rg => s.countedIn b.ctx b.outEid rid rg c.1 (wAt b.words 13) ((data.drop (c.1 - off)).take c.2) (.batch b.id)
          | none => .error (0, .stop .key)) = .ok t → t.base = s.base := by
        intro s c t ht
        split at ht
        · exact State.base_of_countedIn ht
        · cases ht
      rw [State.base_restore, State.base_of_foldl_ok step (fun acc a => by cases acc <;> rfl) hfold, State.base_overlay]

@[simp] theorem State.base_batchBlock (s : State) (id : Nat) : (s.batchBlock id).base = s.base := by
  unfold State.batchBlock
  dsimp only
  (repeat' split) <;> simp
  exact State.base_of_outOwn (by assumption)

@[simp] theorem State.base_batchFinish (s : State) (id : Nat) (st : Status) (counts : List Nat) : (s.batchFinish id st counts).base = s.base := by
  unfold State.batchFinish
  simp [↓State.base_mk, apply_ite State.base, State.base_foldl]
  (repeat' split) <;> simp [↓State.base_mk, apply_ite State.base, State.base_foldl]

@[simp] theorem State.base_scatterRow (s : State) (rid : Nat) (id : Nat) (dim : Nat) (t : RowAdd) : (s.scatterRow rid id dim t).base = s.base := by
  simp [State.scatterRow, ↓State.base_mk, apply_ite State.base, State.base_foldl]

@[simp] theorem State.base_rowsOwn (s : State) (b : Batch) (rs : List (Nat × Bytes)) : (s.rowsOwn b rs).1.base = s.base := by
  induction rs generalizing s with
  | nil => rfl
  | cons x rs ih =>
    unfold State.rowsOwn
    split
    · rw [ih]
      exact State.base_of_outOwn (by assumption)
    · rfl

@[simp] theorem State.base_rowsAdd (s : State) (b : Batch) (me : Issuer) (rs : List RowAdd) (done bad : Nat) : (s.rowsAdd b me rs done bad).1.base = s.base := by
  induction rs generalizing s done bad with
  | nil => rfl
  | cons x rs ih =>
    unfold State.rowsAdd
    dsimp only
    (repeat' split) <;> simp [ih]

/-- A meaning answers a next state with the base `b`. -/
def Keeps (b : Base) (x : Result) : Prop := ∃ t, x = .next t ∧ t.base = b

@[simp] theorem keeps_next {b : Base} {t : State} : Keeps b (.next t) ↔ t.base = b := by simp [Keeps]

theorem State.base_of_queryAccept {s t : State} {ws : List Word} {i : Issuer} (h : s.queryAccept ws i = .ok t) : t.base = s.base := by
  unfold State.queryAccept at h
  dsimp only at h
  (repeat' split at h) <;> cases h
  all_goals simp [↓State.base_mk]

theorem State.base_of_batchAccept {s t : State} {ws : List Word} {i : Issuer} {log : Nat} (h : s.batchAccept ws i log = .ok t) : t.base = s.base := by
  unfold State.batchAccept at h
  dsimp only at h
  (repeat' split at h) <;> cases h
  all_goals simp [↓State.base_mk]

theorem State.base_of_batchAccept_error {s t : State} {ws : List Word} {i : Issuer} {log : Nat} {x : Status × Bool} (h : s.batchAccept ws i log = .error (t, x)) : t.base = s.base := by
  unfold State.batchAccept at h
  dsimp only at h
  (repeat' split at h) <;> cases h
  all_goals simp [↓State.base_mk]

theorem State.base_of_rowsAdd {s t : State} {b : Batch} {me : Issuer} {rs : List RowAdd} {done bad : Nat} {x} (h : s.rowsAdd b me rs done bad = (t, x)) : t.base = s.base := by
  rw [← State.base_rowsAdd s b me rs done bad, h]

@[simp] theorem State.base_batchWrite (s : State) (b : Batch) (mu : Nat) : (s.batchWrite b mu).base = s.base := by
  unfold State.batchWrite
  dsimp only
  (repeat' split) <;> simp [State.base_foldl, State.base_rowsOwn, State.base_rowsAdd]

@[simp] theorem State.base_batchOutFail (s : State) (id : Nat) (st : Status) : (s.batchOutFail id st).base = s.base := by
  rfl

@[simp] theorem State.base_endAborted (s : State) (h : Held) (st : Status) : (s.endAborted h st).base = s.base := by
  unfold State.endAborted
  simp [↓State.base_mk, apply_ite State.base, State.base_foldl]
  (repeat' split) <;> simp [↓State.base_mk, apply_ite State.base, State.base_foldl]

@[simp] theorem State.base_codeFault (s : State) (k : KernelQ) : (s.codeFault k).base = s.base := by
  unfold State.codeFault
  (repeat' split)
  · rfl
  · exact State.base_of_faultOn (by assumption)
  · rfl

@[simp] theorem State.base_codeResolved (s : State) (k : KernelQ) (abort : Option Status) : (s.codeResolved k abort).base = s.base := by
  unfold State.codeResolved
  split <;> simp [↓State.base_mk]

@[simp] theorem State.base_dropShadows (s : State) (who : Nat → Nat → Bool) : (s.dropShadows who).base = s.base := by
  unfold State.dropShadows
  dsimp only
  rw [State.base_mk] <;> try rfl
  refine State.base_foldl (fun s e => State.base_foldl (fun s w => ?_) _ _) _ _
  (repeat' split) <;> simp

@[simp] theorem State.base_retireFaults (s : State) : (s.retireFaults).base = s.base := by
  rfl

@[simp] theorem State.base_endAgains (s : State) (f : Again → Bool) (st : Status) : (s.endAgains f st).base = s.base := by
  simp [State.endAgains, ↓State.base_mk, apply_ite State.base, State.base_foldl]

@[simp] theorem State.base_batchLost (s : State) (b : Batch) (st : Status) : (s.batchLost b st).base = s.base := by
  unfold State.batchLost
  simp [↓State.base_mk, apply_ite State.base, State.base_foldl]
  (repeat' split) <;> simp [↓State.base_mk, apply_ite State.base, State.base_foldl]

@[simp] theorem State.base_endIssuer (s : State) (who : Nat → Nat → Bool) (st : Status) : (s.endIssuer who st).base = s.base := by
  simp [State.endIssuer, State.base_foldl, ↓State.base_mk]

@[simp] theorem State.base_endEngines (s : State) (ctx exc : Nat) (st : Status) : (s.endEngines ctx exc st).base = s.base := by
  simp [State.endEngines, State.base_foldl]

@[simp] theorem State.base_endCounterWaits (s : State) (ctx : Nat) (st : Status) : (s.endCounterWaits ctx st).base = s.base := by
  simp [State.endCounterWaits, ↓State.base_mk, apply_ite State.base, State.base_foldl]

@[simp] theorem State.base_ctxLeave (s : State) (ctx : Nat) (destroy : Bool) : (s.ctxLeave ctx destroy).base = s.base := by
  simp [State.ctxLeave, ↓State.base_mk, apply_ite State.base, State.base_foldl]

@[simp] theorem State.base_endLate (s : State) (id : Nat) : (s.endLate id).base = s.base := by
  unfold State.endLate
  extract_lets s1 s2 s3 s4 s5 s6 s7 s8 s9
  have h2 : s2.base = s.base := by simp [s2, s1, State.base_foldl]
  have h3 : s3.base = s.base := by
    dsimp only [s3]
    split <;> simpa using h2
  have h6 : s6.base = s.base := by
    dsimp only [s6]
    (repeat' split) <;> simpa [s5, s4, State.base_foldl] using h3
  have h7 : s7.base = s.base := by
    dsimp only [s7]
    (repeat' split) <;> simpa using h6
  simp [s9, s8, State.base_foldl, h7]

@[simp] theorem State.base_takeWord (s : State) (p : Nat) (f : Nat) : (s.takeWord p f).base = s.base := by
  simp [State.takeWord, ↓State.base_mk, apply_ite State.base, State.base_foldl]

@[simp] theorem State.base_takeWords (s : State) : (s.takeWords).base = s.base := by
  simp [State.takeWords, ↓State.base_mk, apply_ite State.base, State.base_foldl]

@[simp] theorem State.base_setFails (s : State) : (s.setFails).base = s.base := by
  unfold State.setFails
  split <;> simp [↓State.base_mk]

@[simp] theorem State.base_activateSwitch (s : State) (n : Nat) : (s.activateSwitch n).base = s.base := by
  unfold State.activateSwitch
  simp [↓State.base_mk, apply_ite State.base, State.base_foldl]
  (repeat' split) <;> simp [↓State.base_mk, apply_ite State.base, State.base_foldl]

@[simp] theorem State.base_ropeApply (s : State) (team : Nat) (us : Nat) (ms : List Nat) : (s.ropeApply team us ms).base = s.base := by
  simp [State.ropeApply, ↓State.base_mk, apply_ite State.base, State.base_foldl]

@[simp] theorem State.base_putObject (s : State) (o : JObject) (gone : Bool) : (s.putObject o gone).base = s.base := by
  unfold State.putObject
  simp [↓State.base_mk, apply_ite State.base, State.base_foldl]
  (repeat' split) <;> simp [↓State.base_mk, apply_ite State.base, State.base_foldl]

@[simp] theorem State.base_fenceObjects (s : State) (eid : Nat) (inc : Nat) : (s.fenceObjects eid inc).base = s.base := by
  simp [State.fenceObjects, ↓State.base_mk, apply_ite State.base, State.base_foldl]

@[simp] theorem State.base_loseMirror (s : State) (eid : Nat) : (s.loseMirror eid).base = s.base := by
  simp [State.loseMirror, ↓State.base_mk, apply_ite State.base, State.base_foldl]

@[simp] theorem State.base_poisonRecalled (s : State) (rid : Nat) : (s.poisonRecalled rid).base = s.base := by
  unfold State.poisonRecalled
  (repeat' split) <;> simp [↓State.base_mk, apply_ite State.base, State.base_foldl]

@[simp] theorem State.base_fenceRecalls (s : State) (a : Nat) : (s.fenceRecalls a).base = s.base := by
  refine State.base_foldl (fun s e => ?_) _ _
  (repeat' split) <;> simp

@[simp] theorem State.base_fenceWaiting (s : State) (eid : Nat) : (s.fenceWaiting eid).base = s.base := by
  unfold State.fenceWaiting
  dsimp only
  rw [State.base_foldl (fun s a => State.base_emit s _), State.base_foldl]
  intros
  (repeat' split) <;> simp [↓State.base_mk]

@[simp] theorem State.base_endIncarnation (s : State) (eid : Nat) (inc : Nat) : (s.endIncarnation eid inc).base = s.base := by
  simp [State.endIncarnation, ↓State.base_mk, apply_ite State.base, State.base_foldl]

@[simp] theorem State.base_releaseUnit (s : State) (hw : Nat) : (s.releaseUnit hw).base = s.base := by
  unfold State.releaseUnit
  (repeat' split) <;> simp [↓State.base_mk, apply_ite State.base, State.base_foldl]

@[simp] theorem State.base_sizeT1 (s : State) : (s.sizeT1).base = s.base := by
  rfl

@[simp] theorem State.base_sizeT2 (s : State) : (s.sizeT2).base = s.base := by
  rfl

@[simp] theorem State.base_partRecord (s : State) (p : Part) (loc : Nat) (op : Nat) : (s.partRecord p loc op).base = s.base := by
  simp [State.partRecord]

@[simp] theorem State.base_imagesLost (s : State) (ps : List (PageRef × TierPage)) : (s.imagesLost ps).base = s.base := by
  simp [State.imagesLost, ↓State.base_mk, apply_ite State.base, State.base_foldl]

@[simp] theorem State.base_noSpare (s : State) (p : Part) (loc : Nat) : (s.noSpare p loc).base = s.base := by
  unfold State.noSpare
  (repeat' split) <;> simp [↓State.base_mk, apply_ite State.base, State.base_foldl]

@[simp] theorem State.base_startRebuild (s : State) (p : Part) (loc : Nat) (into : Option Nat) : (s.startRebuild p loc into).base = s.base := by
  unfold State.startRebuild
  (repeat' split) <;> simp [↓State.base_mk, apply_ite State.base, State.base_foldl]

@[simp] theorem State.base_waitRebuild (s : State) (p : Part) (loc : Nat) : (s.waitRebuild p loc).base = s.base := by
  rfl

@[simp] theorem State.base_declareFailed (s : State) (p : Part) (loc : Nat) : (s.declareFailed p loc).base = s.base := by
  unfold State.declareFailed
  simp [↓State.base_mk, apply_ite State.base, State.base_foldl]
  (repeat' split) <;> simp [↓State.base_mk, apply_ite State.base, State.base_foldl]

@[simp] theorem State.base_setHb (s : State) (eid : Nat) (h : HbEntry) : (s.setHb eid h).base = s.base := by
  rfl

@[simp] theorem State.base_adopt (s : State) (rid : Nat) (c : Region) (ctx : Nat) : (s.adopt rid c ctx).base = s.base := by
  rfl

@[simp] theorem State.base_loseShadows (s : State) (rid : Nat) : (s.loseShadows rid).base = s.base := by
  refine State.base_foldl (fun s e => State.base_foldl (fun s w => ?_) _ _) _ _
  simp [↓State.base_mk]

@[simp] theorem State.base_recallRegion (s : State) (rid : Nat) : (s.recallRegion rid).base = s.base := by
  unfold State.recallRegion
  (repeat' split) <;> simp [↓State.base_mk, apply_ite State.base, State.base_foldl]

@[simp] theorem State.base_settleAdopted (s : State) (rid : Nat) (ctx : Nat) (home : Nat) (p : Policy) : (s.settleAdopted rid ctx home p).base = s.base := by
  simp [State.settleAdopted, ↓State.base_mk, apply_ite State.base, State.base_foldl]

@[simp] theorem State.base_counterEvent (s : State) (code : Nat) : (s.counterEvent code).base = s.base := by
  simp [State.counterEvent]

@[simp] theorem State.base_crnCapture (s : State) (w : Word) : (s.crnCapture w).base = s.base := by
  rfl

@[simp] theorem State.base_traceSet (s : State) (r : BciReq) (i : Issuer) (mask : Nat) : (s.traceSet r i mask).base = s.base := by
  simp [State.traceSet, ↓State.base_mk, apply_ite State.base, State.base_foldl]

@[simp] theorem State.base_linkRecord (s : State) (event : Nat) (n : Nat) (width : Nat) (ver : Nat) (eid : Nat) (inc : Nat) : (s.linkRecord event n width ver eid inc).base = s.base := by
  simp [State.linkRecord]

@[simp] theorem State.base_openManager (s : State) : (s.openManager).base = s.base := by
  simp [State.openManager, ↓State.base_mk, apply_ite State.base, State.base_foldl]

@[simp] theorem State.base_linkLost (s : State) (n : Nat) : (s.linkLost n).base = s.base := by
  simp [State.linkLost, ↓State.base_mk, apply_ite State.base, State.base_foldl]

@[simp] theorem State.base_dropEvt (s : State) (n : Nat) : (s.dropEvt n).base = s.base := by
  rfl

@[simp] theorem State.base_agentChannel (s : State) (eid : Nat) : (s.agentChannel eid).base = s.base := by
  simp [State.agentChannel, ↓State.base_mk, apply_ite State.base, State.base_foldl]

@[simp] theorem State.base_dropChannel (s : State) (eid : Nat) : (s.dropChannel eid).base = s.base := by
  rfl

@[simp] theorem State.base_resend (s : State) (x : Txn) : (s.resend x).base = s.base := by
  simp [State.resend]

theorem keeps_execShardWalkEnd (id shard : Nat) (st : Status) (ret : WalkReturns) (s : State) : Keeps s.base (execShardWalkEnd id shard st ret s) := by
  unfold execShardWalkEnd whenUp
  dsimp only
  (repeat' split) <;> simp

@[simp] theorem State.base_txnEnd (s : State) (x : Txn) (st : Status) (data : Bytes) : (s.txnEnd x st data).base = s.base := by
  unfold State.txnEnd
  dsimp only
  (repeat' split) <;> try simp
  exact keeps_next.1 (‹execShardWalkEnd _ _ _ _ s = _› ▸ keeps_execShardWalkEnd ..)

@[simp] theorem State.base_coreWaking (s : State) (d : Domain) : (s.coreWaking d).base = s.base := by
  unfold State.coreWaking
  (repeat' split) <;> simp [↓State.base_mk, apply_ite State.base, State.base_foldl]

@[simp] theorem State.base_coreWoken (s : State) (d : Domain) : (s.coreWoken d).base = s.base := by
  unfold State.coreWoken
  (repeat' split) <;> simp [↓State.base_mk, apply_ite State.base, State.base_foldl]

@[simp] theorem State.base_unknownOp (s : State) (c : Nat) (r : BciReq) : (s.unknownOp c r).base = s.base := by
  unfold State.unknownOp
  (repeat' split) <;> simp [↓State.base_mk, apply_ite State.base, State.base_foldl]

@[simp] theorem State.base_goWrite (s : State) (p : Nat) (f : Nat) : (s.goWrite p f).base = s.base := by
  unfold State.goWrite
  simp [↓State.base_mk, apply_ite State.base, State.base_foldl]
  (repeat' split) <;> simp [↓State.base_mk, apply_ite State.base, State.base_foldl]

@[simp] theorem State.base_msgWrite (s : State) (p : Nat) (f : Nat) (n : Nat) (x : Word) : (s.msgWrite p f n x).base = s.base := by
  simp [State.msgWrite, ↓State.base_mk, apply_ite State.base, State.base_foldl]

@[simp] theorem State.base_doorbell (s : State) (p : Nat) (f : Nat) (x : Word) : (s.doorbell p f x).base = s.base := by
  simp [State.doorbell, ↓State.base_mk, apply_ite State.base, State.base_foldl]

@[simp] theorem State.base_enWrite (s : State) (p : Nat) (on : Bool) : (s.enWrite p on).base = s.base := by
  rfl

@[simp] theorem State.base_headPast (s : State) (p : Nat) : (s.headPast p).base = s.base := by
  rfl

@[simp] theorem State.base_kernelAccept (s : State) (p : Nat) (ws : List Word) : (s.kernelAccept p ws).base = s.base := by
  unfold State.kernelAccept
  dsimp only
  (repeat' split) <;> simp [↓State.base_mk]

@[simp] theorem State.base_queryTake (s : State) (ws : List Word) : (s.queryTake ws).base = s.base := by
  unfold State.queryTake
  dsimp only
  split
  · rename_i t h
    split at h
    · cases h
    · exact State.base_of_queryAccept h
  · simp [↓State.base_mk]

@[simp] theorem State.base_batchTake (s : State) (ws : List Word) : (s.batchTake ws).base = s.base := by
  unfold State.batchTake
  dsimp only
  split
  · rename_i t h
    split at h
    · cases h
    · exact State.base_of_batchAccept h
  · rename_i t st logIt h
    have ht : t.base = s.base := by
      split at h
      · cases h; rfl
      · exact State.base_of_batchAccept_error h
    split <;> simpa [↓State.base_mk] using ht

@[simp] theorem State.base_setDecoder (s : State) (p : Nat) (n : Nat) (d : Decoder) : (s.setDecoder p n d).base = s.base := by
  rfl

@[simp] theorem State.base_clearRead (s : State) (sp : RegSpace) (off : Nat) (ev : Word) : (s.clearRead sp off ev).base = s.base := by
  unfold State.clearRead
  (repeat' split) <;> simp [↓State.base_mk]

@[simp] theorem State.base_vecWrite (s : State) (p : Nat) (f : Nat) (off : Nat) (x : Word) : (s.vecWrite p f off x).base = s.base := by
  simp [State.vecWrite, ↓State.base_mk, apply_ite State.base, State.base_foldl]

@[simp] theorem State.base_fnWrite (s : State) (p : Nat) (f : Nat) (off : Nat) (x : Word) : (s.fnWrite p f off x).base = s.base := by
  unfold State.fnWrite
  (repeat' split) <;> simp [↓State.base_mk, apply_ite State.base, State.base_foldl]

@[simp] theorem State.base_bindWrite (s : State) (p : Nat) (off : Nat) (v : Nat) : (s.bindWrite p off v).base = s.base := by
  unfold State.bindWrite
  (repeat' split) <;> simp [↓State.base_mk, apply_ite State.base, State.base_foldl]

@[simp] theorem State.base_mgmtWrite (s : State) (off : Nat) (x : Word) : (s.mgmtWrite off x).base = s.base := by
  unfold State.mgmtWrite
  split <;> simp [↓State.base_mk]

@[simp] theorem State.base_writeReg (s : State) (sp : RegSpace) (off : Nat) (x : Word) : (s.writeReg sp off x).base = s.base := by
  unfold State.writeReg
  split <;> simp

@[simp] theorem State.base_entryLost (s : State) (p : Nat) : (s.entryLost p).base = s.base := by
  simp [State.entryLost, ↓State.base_mk, apply_ite State.base, State.base_foldl]

@[simp] theorem State.base_fnEnd (s : State) (p : Nat) (f : Nat) : (s.fnEnd p f).base = s.base := by
  unfold State.fnEnd
  simp [↓State.base_mk, apply_ite State.base, State.base_foldl]
  (repeat' split) <;> simp [↓State.base_mk, apply_ite State.base, State.base_foldl]

@[simp] theorem State.base_fnReset (s : State) (p : Nat) (f : Nat) : (s.fnReset p f).base = s.base := by
  simp [State.fnReset]

@[simp] theorem State.base_vfsOff (s : State) (p : Nat) : (s.vfsOff p).base = s.base := by
  unfold State.vfsOff
  dsimp only
  rw [State.base_setHport, State.base_mk, State.base_unbind, State.base_foldl (fun s f => State.base_fnReset s p f)] <;> rfl

@[simp] theorem State.base_portReset (s : State) (p : Nat) : (s.portReset p).base = s.base := by
  simp [State.portReset]

@[simp] theorem State.base_vfOn (s : State) (p : Nat) (f : Nat) : (s.vfOn p f).base = s.base := by
  simp [State.vfOn, ↓State.base_mk, apply_ite State.base, State.base_foldl]

@[simp] theorem State.base_hostLost (s : State) (p : Nat) : (s.hostLost p).base = s.base := by
  simp [State.hostLost, ↓State.base_mk, apply_ite State.base, State.base_foldl]

@[simp] theorem State.base_nvmeAdmin (s : State) (slot : Nat) (op : NvmeOp) (a : Nat) (b : Nat) : (s.nvmeAdmin slot op a b).base = s.base := by
  rfl

@[simp] theorem State.base_driveSetup (s : State) (slot : Nat) : (s.driveSetup slot).base = s.base := by
  simp [State.driveSetup, State.base_foldl]

@[simp] theorem State.base_driveDown (s : State) (slot : Nat) : (s.driveDown slot).base = s.base := by
  simp [State.driveDown, ↓State.base_mk, apply_ite State.base, State.base_foldl]

@[simp] theorem State.base_driveFails (s : State) (slot : Nat) : (s.driveFails slot).base = s.base := by
  unfold State.driveFails
  split <;> simp

@[simp] theorem State.base_askJoin (s : State) : (s.askJoin).base = s.base := by
  unfold State.askJoin
  split <;> simp [↓State.base_mk]

@[simp] theorem State.base_setSpdm (s : State) (e : SpdmPeer) : (s.setSpdm e).base = s.base := by
  rfl

@[simp] theorem State.base_spdmSay (s : State) (p : Peer) (code : Nat) (fields : List Nat) : (s.spdmSay p code fields).base = s.base := by
  rfl

@[simp] theorem State.base_spdmError (s : State) (p : Peer) (e : Nat) : (s.spdmError p e).base = s.base := by
  rfl

@[simp] theorem State.base_sessionUp (s : State) (e : SpdmPeer) : (s.sessionUp e).base = s.base := by
  unfold State.sessionUp
  (repeat' split) <;> simp [↓State.base_mk, apply_ite State.base, State.base_foldl]

@[simp] theorem State.base_bootFails (s : State) : (s.bootFails).base = s.base := by
  rfl

@[simp] theorem State.base_tapOut (s : State) (i : TapInstr) : (s.tapOut i).base = s.base := by
  unfold State.tapOut
  split <;> simp

@[simp] theorem State.base_tapLoad (s : State) (i : TapInstr) (cells : Option Nat) : (s.tapLoad i cells).base = s.base := by
  unfold State.tapLoad
  (repeat' split) <;> simp [↓State.base_mk]

@[simp] theorem State.base_takeAddr (s : State) (target : Nat) (addr : Nat) : (s.takeAddr target addr).base = s.base := by
  unfold State.takeAddr
  split <;> simp [↓State.base_mk]


/-! ### The shared frames of commands -/

theorem keeps_ite {b : Base} {c : Prop} [Decidable c] {x y : Result} (hx : Keeps b x) (hy : Keeps b y) : Keeps b (if c then x else y) := by
  split
  · exact hx
  · exact hy

section
variable {b : Base} {s : State} (hs : s.base = b)
include hs

theorem keeps_whenUp {f : State → Result} (hf : Keeps b (f s)) : Keeps b (whenUp s f) := by
  unfold whenUp
  split
  · exact hf
  · exact keeps_next.2 hs

theorem State.base_of_arrive {t : State} {cmd : Instr} {q : LmfReq} {v3 payload : Bool} (h : s.arrive cmd q v3 payload = .ok t) : t.base = b := by
  rw [(State.arrive_ok h).1, State.base_arrived, hs]

theorem State.base_of_arrive_error {t : State} {cmd : Instr} {q : LmfReq} {v3 payload : Bool} (h : s.arrive cmd q v3 payload = .error t) : t.base = b := by
  unfold State.arrive at h
  dsimp only at h
  (repeat' split at h) <;> cases h
  all_goals simp [hs, ↓State.base_mk]

theorem keeps_serve {cmd : Instr} {q : LmfReq} {need : Rights} {body : Nat → Region → State → Result} (hbody : ∀ rid r, Keeps b (body rid r s)) :
    Keeps b (s.serve cmd q need body) := by
  unfold State.serve
  (repeat' split) <;> simp [hs, hbody]

theorem keeps_onChannel {cmd : Instr} {c : Nat} {row : BciRow} {r : BciReq} {body : Issuer → State → Result} (hbody : ∀ i, Keeps b (body i s)) :
    Keeps b (s.onChannel cmd c row r body) := by
  unfold State.onChannel
  dsimp only
  (repeat' split) <;> simp [hs, hbody]

theorem keeps_bciServe {mk : BciReq → Instr} {row : BciRow} {r : BciReq} {body : BciReq → Issuer → State → Result}
    (hbody : ∀ r i t, t.base = b → Keeps b (body r i t)) : Keeps b (bciServe mk row r s body) := by
  have hon : ∀ (t : State) (cmd : Instr) (c : Nat) (r : BciReq), t.base = b → Keeps b (t.onChannel cmd c row r (body r)) :=
    fun t cmd c r ht => keeps_onChannel ht fun i => hbody r i t ht
  refine keeps_whenUp hs ?_
  cases hsrc : r.src with
  | fn p f =>
    dsimp only
    (repeat' split) <;> try simp [hs, hon]
  | lmfBci q =>
    dsimp only
    split
    · exact keeps_next.2 (State.base_of_arrive_error hs ‹_›)
    · have ht := State.base_of_arrive hs ‹_›
      (repeat' split) <;> try simp [ht, hon]
  | lmf q =>
    dsimp only
    split
    · exact keeps_next.2 (State.base_of_arrive_error hs ‹_›)
    · have ht := State.base_of_arrive hs ‹_›
      (repeat' split) <;> try simp [ht, hbody]
  | mgmt m =>
    dsimp only
    (repeat' split) <;> simp [hs, hbody]

theorem keeps_cohServe {mk : LmfReq → Instr} {q : LmfReq} {agent : Nat} {need : Rights} {payload writes : Bool} {body : LmfReq → Nat → Nat → Bool → State → State}
    (hbody : ∀ q rid ln ro t, (body q rid ln ro t).base = t.base) : Keeps b (cohServe mk q agent need payload writes s body) := by
  refine keeps_whenUp hs ?_
  dsimp only
  split
  · exact keeps_next.2 (State.base_of_arrive_error hs ‹_›)
  · have ht := State.base_of_arrive hs ‹_›
    (repeat' split) <;> simp [ht, hbody]

theorem keeps_snoopServe {q : LmfReq} {agent : Nat} {body : Nat → Nat → Line → State → State} (hbody : ∀ rid ln l t, (body rid ln l t).base = t.base) :
    Keeps b (snoopServe q agent s body) := by
  refine keeps_whenUp hs ?_
  dsimp only
  (repeat' split) <;> simp [hs, hbody, ↓State.base_mk]

section
variable {cmd : Instr} {r : BciReq} {i : Issuer} {need : Rights} {fail : State → Status → State} {body : Nat → Region → State → Result}
  (hfail : ∀ t st, (fail t st).base = t.base) (hbody : ∀ rid rg, Keeps b (body rid rg s))
include hfail hbody

theorem keeps_onRegion {key off n : Nat} : Keeps b (s.onRegion cmd r i key off n need fail body) := by
  unfold State.onRegion
  (repeat' split) <;> simp [hs, hfail, hbody]

theorem keeps_onPages : Keeps b (s.onPages cmd r i need fail body) := by
  unfold State.onPages
  split
  · simp [hs, hfail]
  · refine keeps_onRegion hs hfail fun rid rg => ?_
    split <;> simp [hs, hfail, hbody]

theorem keeps_onKey : Keeps b (s.onKey cmd r i need fail body) := by
  unfold State.onKey
  (repeat' split) <;> simp [hs, hfail, hbody]

end

theorem keeps_once {r : BciReq} {i : Issuer} {lseq n : Nat} {body : State → Result} (hbody : Keeps b (body s)) : Keeps b (s.once r i lseq n body) := by
  unfold State.once
  (repeat' split) <;> simp [hs, hbody]

theorem keeps_named {r : BciReq} {key : Nat} {body : Nat → Region → Result} (hbody : ∀ rid rg, Keeps b (body rid rg)) : Keeps b (s.named r key body) := by
  unfold State.named
  split <;> simp [hs, hbody]

theorem keeps_slotRun {cmd : Instr} {body : SlotHdr → KernelRun → RegFile → QSlot → State → State} (hbody : ∀ h k r q t, (body h k r q t).base = t.base) :
    Keeps b (slotRun cmd s body) := by
  refine keeps_whenUp hs ?_
  dsimp only
  (repeat' split) <;> simp [hs, hbody]

theorem keeps_reading {α : Type} {rid : Nat} {v : View} {was : Reads} {wait : HoldWhy → State} {work : Rd α} {bad : Reads → Nat → Met → State → Result}
    {good : Reads → α → State → Result} (hwait : ∀ why, (wait why).base = b) (hbad : ∀ rd o m t, t.base = b → Keeps b (bad rd o m t))
    (hgood : ∀ rd a t, t.base = b → Keeps b (good rd a t)) : Keeps b (s.reading rid v was wait work bad good) := by
  unfold State.reading
  (repeat' split)
  · exact keeps_next.2 (hwait _)
  · exact hgood _ _ _ (by rw [State.base_readsDone, hs])
  · exact hbad _ _ _ _ (by rw [State.base_readsDone, hs])

theorem keeps_onIndex {α : Type} {i : Issuer} {eid key : Nat} {was : Reads} {wait : HoldWhy → State} {work : Reader → Rd α} {bad : Reads → Nat → Met → State → Result}
    {good : Reads → α → State → Result} (hwait : ∀ why, (wait why).base = b) (hbad : ∀ rd o m t, t.base = b → Keeps b (bad rd o m t))
    (hgood : ∀ rd a t, t.base = b → Keeps b (good rd a t)) : Keeps b (s.onIndex i eid key was wait work bad good) :=
  keeps_reading hs hwait hbad hgood

theorem keeps_copyOut {cmd : Instr} {r : BciReq} {i : Issuer} {key off : Nat} {data : Bytes} {resp : List Word} {after : State → State}
    (hafter : ∀ t, (after t).base = t.base) : Keeps b (s.copyOut cmd r i key off data resp after) := by
  refine keeps_onRegion hs (fun t st => State.base_refuse ..) fun rid rg => ?_
  dsimp only
  (repeat' split) <;> simp [hs, hafter]

theorem keeps_journalStep {cmd : Instr} {r : BciReq} {lseq : Nat} {i : Issuer} {f : State → Nat → Nat → Nat → Option JObject → Except Status (JObject × Bool)} :
    Keeps b (journalStep cmd r lseq i s f) := by
  unfold journalStep
  split
  · simp [hs]
  · refine keeps_once hs (keeps_onKey hs (fun t st => State.base_respondLog ..) fun rid rg => ?_)
    split <;> simp [hs]

theorem keeps_onPtp {mport domain : Nat} {f : State → State} (hf : (f s).base = b) : Keeps b (s.onPtp mport domain f) := by
  refine keeps_whenUp hs ?_
  split <;> simp [hs, hf]

end


theorem keeps_execCxlMemRead (port : Nat) (hpa : Nat) (s : State) : Keeps s.base (execCxlMemRead port hpa s) := by
  unfold execCxlMemRead
  refine keeps_whenUp rfl ?_
  dsimp only
  (repeat' split) <;> simp

theorem keeps_execCxlMemWrite (port : Nat) (hpa : Nat) (data : Bytes) (poison : Bool) (s : State) : Keeps s.base (execCxlMemWrite port hpa data poison s) := by
  unfold execCxlMemWrite
  refine keeps_whenUp rfl ?_
  dsimp only
  (repeat' split) <;> simp [↓State.base_mk]

theorem keeps_execLmfLoad (q0 : LmfReq) (s : State) : Keeps s.base (execLmfLoad q0 s) := by
  unfold execLmfLoad
  refine keeps_whenUp rfl ?_
  dsimp only
  split
  · exact keeps_next.2 (State.base_of_arrive_error rfl ‹_›)
  · have ht := State.base_of_arrive rfl ‹_›
    refine keeps_serve ht fun rid r => ?_
    (repeat' split) <;> simp [ht]

theorem keeps_execLmfStore (q0 : LmfReq) (data : Bytes) (s : State) : Keeps s.base (execLmfStore q0 data s) := by
  unfold execLmfStore
  refine keeps_whenUp rfl ?_
  dsimp only
  split
  · exact keeps_next.2 (State.base_of_arrive_error rfl ‹_›)
  · have ht := State.base_of_arrive rfl ‹_›
    refine keeps_serve ht fun rid r => ?_
    (repeat' split) <;> simp [ht]

theorem keeps_execFaultRecordWrite (seq : Nat) (s : State) : Keeps s.base (execFaultRecordWrite seq s) := by
  unfold execFaultRecordWrite
  refine keeps_whenUp rfl ?_
  (repeat' split) <;> simp

theorem keeps_execFaultHoldExpiry (id : Nat) (s : State) : Keeps s.base (execFaultHoldExpiry id s) := by
  unfold execFaultHoldExpiry
  refine keeps_whenUp rfl ?_
  (repeat' split) <;> simp

theorem keeps_execRdShared (q : LmfReq) (agent : Nat) (s : State) : Keeps s.base (execRdShared q agent s) := by
  unfold execRdShared
  refine keeps_cohServe rfl fun q rid ln ro t => ?_
  simp

theorem keeps_execRdOwn (q : LmfReq) (agent : Nat) (s : State) : Keeps s.base (execRdOwn q agent s) := by
  unfold execRdOwn
  refine keeps_cohServe rfl fun q rid ln ro t => ?_
  simp

theorem keeps_execUpgrade (q : LmfReq) (agent : Nat) (s : State) : Keeps s.base (execUpgrade q agent s) := by
  unfold execUpgrade
  refine keeps_cohServe rfl fun q rid ln ro t => ?_
  simp

theorem keeps_execInvOwn (q : LmfReq) (agent : Nat) (s : State) : Keeps s.base (execInvOwn q agent s) := by
  unfold execInvOwn
  refine keeps_cohServe rfl fun q rid ln ro t => ?_
  simp

theorem keeps_execWbDirty (q : LmfReq) (agent : Nat) (data : Bytes) (poison : Bool) (s : State) : Keeps s.base (execWbDirty q agent data poison s) := by
  unfold execWbDirty
  refine keeps_cohServe rfl fun q rid ln ro t => ?_
  simp

theorem keeps_execEvictClean (q : LmfReq) (agent : Nat) (s : State) : Keeps s.base (execEvictClean q agent s) := by
  unfold execEvictClean
  refine keeps_cohServe rfl fun q rid ln ro t => ?_
  simp

theorem keeps_execRdUnc (q0 : LmfReq) (s : State) : Keeps s.base (execRdUnc q0 s) := by
  unfold execRdUnc
  refine keeps_whenUp rfl ?_
  dsimp only
  split
  · exact keeps_next.2 (State.base_of_arrive_error rfl ‹_›)
  · have ht := State.base_of_arrive rfl ‹_›
    split
    · simp [ht]
    · refine keeps_serve ht fun rid r => ?_
      (repeat' split) <;> simp [ht]

theorem keeps_execWrUnc (q0 : LmfReq) (data : Bytes) (mask : BitVec 64) (s : State) : Keeps s.base (execWrUnc q0 data mask s) := by
  unfold execWrUnc
  refine keeps_whenUp rfl ?_
  dsimp only
  split
  · exact keeps_next.2 (State.base_of_arrive_error rfl ‹_›)
  · have ht := State.base_of_arrive rfl ‹_›
    refine keeps_serve ht fun rid r => ?_
    split
    · split <;> simp [ht]
    · split
      · split <;> simp [ht]
      · simp [ht]
      · simp [ht]

theorem keeps_execAckInv (q : LmfReq) (agent : Nat) (s : State) : Keeps s.base (execAckInv q agent s) := by
  unfold execAckInv
  refine keeps_snoopServe rfl fun rid ln l t => ?_
  dsimp only
  (repeat' split) <;> simp

theorem keeps_execRspFwd (q : LmfReq) (agent : Nat) (dirty : Bool) (poison : Bool) (data : Bytes) (s : State) : Keeps s.base (execRspFwd q agent dirty poison data s) := by
  unfold execRspFwd
  refine keeps_snoopServe rfl fun rid ln l t => ?_
  dsimp only
  (repeat' split) <;> simp

theorem keeps_execRspFlush (q : LmfReq) (agent : Nat) (dirty : Bool) (poison : Bool) (data : Bytes) (s : State) : Keeps s.base (execRspFlush q agent dirty poison data s) := by
  unfold execRspFlush
  refine keeps_snoopServe rfl fun rid ln l t => ?_
  split <;> simp

theorem keeps_execRspNotHeld (q : LmfReq) (agent : Nat) (s : State) : Keeps s.base (execRspNotHeld q agent s) := by
  unfold execRspNotHeld
  refine keeps_snoopServe rfl fun rid ln l t => ?_
  dsimp only
  (repeat' split) <;> simp

theorem keeps_execRecallDone (q : LmfReq) (agent : Nat) (s : State) : Keeps s.base (execRecallDone q agent s) := by
  unfold execRecallDone
  refine keeps_whenUp rfl ?_
  dsimp only
  (repeat' split) <;> simp [↓State.base_mk]

theorem keeps_execHomeTimeout (idx : Nat) (line : Nat) (s : State) : Keeps s.base (execHomeTimeout idx line s) := by
  unfold execHomeTimeout
  refine keeps_whenUp rfl ?_
  dsimp only
  (repeat' split) <;> simp [↓State.base_mk, State.base_foldl, apply_ite State.base]

theorem keeps_execReservationExpiry (idx : Nat) (line : Nat) (s : State) : Keeps s.base (execReservationExpiry idx line s) := by
  unfold execReservationExpiry
  refine keeps_whenUp rfl ?_
  dsimp only
  (repeat' split) <;> simp

theorem keeps_execFenceSweep (s : State) : Keeps s.base (execFenceSweep s) := by
  unfold execFenceSweep
  refine keeps_whenUp rfl ?_
  dsimp only
  (repeat' split) <;> simp [↓State.base_mk, State.base_foldl, apply_ite State.base]

theorem keeps_execNack (id : Nat) (draw : Nat) (s : State) : Keeps s.base (execNack id draw s) := by
  unfold execNack
  refine keeps_whenUp rfl ?_
  dsimp only
  (repeat' split) <;> simp [↓State.base_mk]

theorem keeps_execBackoffExpiry (id : Nat) (s : State) : Keeps s.base (execBackoffExpiry id s) := by
  unfold execBackoffExpiry
  refine keeps_whenUp rfl ?_
  dsimp only
  (repeat' split) <;> simp [↓State.base_mk]

theorem keeps_publishAccept (cmd : Instr) (r : BciReq) (expected : Option Nat) (i : Issuer) (s : State) : Keeps s.base (publishAccept cmd r expected i s) := by
  unfold publishAccept
  refine keeps_once rfl (keeps_onPages rfl (fun t st => State.base_respondLog ..) fun rid rg => ?_)
  dsimp only
  (repeat' split) <;> simp [↓State.base_dueBci, ↓keeps_next, ↓State.base_mk]

theorem keeps_execPublish (r : BciReq) (s : State) : Keeps s.base (execPublish r s) :=
  keeps_bciServe rfl fun _ _ _ hs => hs ▸ keeps_publishAccept ..

theorem keeps_execPublishIf (r : BciReq) (s : State) : Keeps s.base (execPublishIf r s) :=
  keeps_bciServe rfl fun _ _ _ hs => hs ▸ keeps_publishAccept ..

theorem keeps_execPublishSwitch (id : Nat) (s : State) : Keeps s.base (execPublishSwitch id s) := by
  unfold execPublishSwitch
  refine keeps_whenUp rfl ?_
  dsimp only
  (repeat' split) <;> try simp [State.base_foldl]
  all_goals exact State.base_of_holdOn (by assumption)

theorem keeps_execDiscard (r : BciReq) (s : State) : Keeps s.base (execDiscard r s) := by
  unfold execDiscard
  refine keeps_bciServe rfl fun r i s hs => ?_
  refine keeps_onPages hs (by simp) fun rid rg => ?_
  split <;> simp [hs]

theorem keeps_execVersionQuery (r : BciReq) (s : State) : Keeps s.base (execVersionQuery r s) := by
  unfold execVersionQuery
  refine keeps_bciServe rfl fun r i s hs => ?_
  refine keeps_onRegion hs (by simp) fun rid rg => ?_
  simp [hs]

theorem keeps_execVersionPin (r : BciReq) (s : State) : Keeps s.base (execVersionPin r s) := by
  refine keeps_bciServe rfl fun r i s hs => ?_
  refine keeps_onPages hs (fun t st => State.base_refuse ..) fun rid rg => ?_
  dsimp only
  split
  · simp [hs]
  · split
    · simp [hs]
    · rw [keeps_next, State.base_respond, State.base_foldl, State.base_mk, hs] <;> try rfl
      intros
      split <;> simp

theorem keeps_execVersionUnpin (r : BciReq) (s : State) : Keeps s.base (execVersionUnpin r s) := by
  unfold execVersionUnpin
  refine keeps_bciServe rfl fun r i s hs => ?_
  split <;> simp [hs]

theorem State.base_of_copyPinned {s t : State} {id srcRid off dst dstOff : Nat} {i : Issuer} {ps : List (Nat × Nat)} {x}
    (h : s.copyPinned id srcRid off dst dstOff i ps = (t, x)) : t.base = s.base := by
  rw [← State.base_copyPinned s id srcRid off dst dstOff i ps, h]

theorem keeps_execReadAt (r : BciReq) (s : State) : Keeps s.base (execReadAt r s) := by
  unfold execReadAt
  refine keeps_bciServe rfl fun r i s hs => ?_
  dsimp only
  split
  · simp [hs]
  · split
    · simp [hs]
    · split
      · (repeat' split) <;> simp [hs]
      · split
        · simp [hs]
        · refine keeps_onRegion hs (fun t st => State.base_refuse ..) fun dst rg => ?_
          split
          · simp [hs]
          · split
            · simp [State.base_of_copyPinned ‹_›, hs]
            · (repeat' split) <;> simp [State.base_of_copyPinned ‹_›, hs]

theorem keeps_execCounterAlloc (r : BciReq) (s : State) : Keeps s.base (execCounterAlloc r s) := by
  unfold execCounterAlloc
  refine keeps_bciServe rfl fun r i s hs => ?_
  dsimp only
  (repeat' split) <;> simp [hs]

theorem keeps_execCounterFree (r : BciReq) (s : State) : Keeps s.base (execCounterFree r s) := by
  unfold execCounterFree
  refine keeps_bciServe rfl fun r i s hs => ?_
  split <;> simp [hs]

theorem keeps_execCounterReset (r : BciReq) (s : State) : Keeps s.base (execCounterReset r s) := by
  unfold execCounterReset
  refine keeps_bciServe rfl fun r i s hs => ?_
  dsimp only
  (repeat' split) <;> simp [hs, ↓State.base_mk]

theorem keeps_execCounterRead (r : BciReq) (s : State) : Keeps s.base (execCounterRead r s) := by
  unfold execCounterRead
  refine keeps_bciServe rfl fun r i s hs => ?_
  split <;> simp [hs]

theorem keeps_execWaitCount (r : BciReq) (s : State) : Keeps s.base (execWaitCount r s) := by
  unfold execWaitCount
  refine keeps_bciServe rfl fun r i s hs => ?_
  dsimp only
  (repeat' split) <;> simp [hs, ↓State.base_dueBci, ↓keeps_next, ↓State.base_mk]

theorem keeps_execWaitCountWake (id : Nat) (s : State) : Keeps s.base (execWaitCountWake id s) := by
  unfold execWaitCountWake
  refine keeps_whenUp rfl ?_
  (repeat' split) <;> simp

theorem keeps_execAtomic (r : BciReq) (s : State) : Keeps s.base (execAtomic r s) := by
  unfold execAtomic
  refine keeps_bciServe rfl fun r i s hs => ?_
  refine keeps_once hs ?_
  split
  · simp [hs]
  · refine keeps_onRegion hs (fun t st => State.base_respondLog ..) fun rid rg => ?_
    cases hsrc : r.src with
    | lmf q =>
      dsimp only
      split
      · simp [hs]
      · refine keeps_ite (by simp [hs]) ?_
        by_cases hm : rg.mode = .coherent
        · rw [if_pos hm]
          dsimp only
          split
          · simp [hs]
          · split <;> simp [State.base_of_bciMet ‹_›, hs]
        · rw [if_neg hm]
          dsimp only
          split
          · simp [hs]
          · split <;> simp [State.base_of_bciMet ‹_›, hs]
    | _ =>
      dsimp only
      refine keeps_ite (by simp [hs]) ?_
      split
      · simp [hs]
      · split <;> simp [State.base_of_bciMet ‹_›, hs]

theorem keeps_execAtomicStatus (r : BciReq) (s : State) : Keeps s.base (execAtomicStatus r s) := by
  unfold execAtomicStatus
  refine keeps_bciServe rfl fun r i s hs => ?_
  dsimp only
  (repeat' split) <;> simp [hs]

theorem keeps_execClearPoison (r : BciReq) (s : State) : Keeps s.base (execClearPoison r s) := by
  unfold execClearPoison
  refine keeps_bciServe rfl fun r i s hs => ?_
  dsimp only
  split
  · simp [hs]
  · refine keeps_onRegion hs (fun t st => State.base_refuse ..) fun rid rg => ?_
    (repeat' split) <;> simp [hs, State.base_foldl]

theorem keeps_execMirrorUpdate (q0 : LmfReq) (data : Bytes) (log : Option LogNote) (note : Option JournalNote) (s : State) :
    Keeps s.base (execMirrorUpdate q0 data log note s) := by
  unfold execMirrorUpdate
  refine keeps_whenUp rfl ?_
  extract_lets q cmd
  split
  · exact keeps_next.2 (State.base_of_arrive_error rfl ‹_›)
  · have ht := State.base_of_arrive rfl ‹_›
    extract_lets rid sealed s1 s2
    have h1 : s1.base = s.base := by
      dsimp only [s1]
      (repeat' split) <;> simp [ht]
    have h2 : s2.base = s.base := by
      dsimp only [s2]
      split <;> simp [h1]
    split
    · simp [ht, ↓State.base_mk, ↓State.base_complete, ↓State.base_event]
    · simp [h2]

theorem keeps_execMirrorReceipt (id : Nat) (st : Status) (s : State) : Keeps s.base (execMirrorReceipt id st s) := by
  unfold execMirrorReceipt
  refine keeps_whenUp rfl ?_
  (repeat' split) <;> simp

theorem keeps_execMirrorPartnerRead (q0 : LmfReq) (version : Nat) (s : State) : Keeps s.base (execMirrorPartnerRead q0 version s) := by
  unfold execMirrorPartnerRead
  refine keeps_whenUp rfl ?_
  dsimp only
  split
  · exact keeps_next.2 (State.base_of_arrive_error rfl ‹_›)
  · have ht := State.base_of_arrive rfl ‹_›
    (repeat' split) <;> simp [ht]

theorem keeps_moQueue (s : State) (r : BciReq) (ws : List Word) (cmplKey : Nat) (cmplOff : Nat) (i : Issuer) : Keeps s.base (s.moQueue r ws cmplKey cmplOff i) := by
  unfold State.moQueue
  simp [↓State.base_mk, State.base_foldl, apply_ite State.base]
  (repeat' split) <;> simp [↓State.base_mk, State.base_foldl, apply_ite State.base]

theorem keeps_execMemop (r : BciReq) (s : State) : Keeps s.base (execMemop r s) := by
  unfold execMemop
  refine keeps_bciServe rfl fun r i s hs => ?_
  split
  · exact hs ▸ keeps_moQueue ..
  · refine keeps_onRegion hs (fun t st => State.base_refuse ..) fun rid rg => ?_
    split
    · rw [← hs, ← State.base_readDone]
      exact keeps_moQueue ..
    · simp [hs]

theorem keeps_execMemopEnd (id : Nat) (s : State) : Keeps s.base (execMemopEnd id s) := by
  unfold execMemopEnd
  refine keeps_whenUp rfl ?_
  split
  · simp
  · split
    · split <;> simp
    · split
      · simp
      · extract_lets i ws n
        split
        rename_i s1 caps hcaps
        have h1 : s1.base = s.base := by
          split at hcaps
          · rw [← State.base_recapture s id, hcaps]
          · cases hcaps; rfl
        extract_lets hw s2 m src s3 old s4 rd dst a b rm wm stop bytes s5 s6 s7
        have h4 : s4.base = s.base := by
          have h2 : s2.base = s.base := by
            dsimp only [s2]
            split <;> simp [h1]
          rw [State.base_overlay, State.base_mk, h2] <;> rfl
        clear_value stop dst a b
        have h6 : s6.base = s.base := by
          dsimp only [s6]
          split <;> simp [s5, h4]
        have h7 : s7.base = s.base := by
          dsimp only [s7]
          split <;> simp [h6]
        cases stop with
        | some p =>
          obtain ⟨x, rid, off, acc⟩ := p
          dsimp only
          split <;> simp [State.base_of_holdOn ‹_›, h4]
        | none =>
          dsimp only
          generalize moCompute _ _ _ _ = p
          obtain ⟨out, rec⟩ := p
          rcases dst with _ | ⟨rid, r, off⟩
          · simp [h7]
          · dsimp only
            split <;> split <;> simp [h7, ↓State.base_mk]

theorem keeps_execCreate (r : BciReq) (s : State) : Keeps s.base (execCreate r s) := by
  unfold execCreate
  refine keeps_bciServe rfl fun r i s hs => ?_
  dsimp only
  (repeat' split) <;> simp [hs, ↓State.base_mk]

theorem keeps_execDestroy (r : BciReq) (s : State) : Keeps s.base (execDestroy r s) := by
  unfold execDestroy
  refine keeps_bciServe rfl fun r i s hs => ?_
  refine keeps_named hs fun rid rg => ?_
  (repeat' split) <;> simp [hs, ↓State.base_mk, State.base_foldl, apply_ite State.base]

theorem keeps_execRegionDrainEnd (idx : Nat) (s : State) : Keeps s.base (execRegionDrainEnd idx s) := by
  unfold execRegionDrainEnd
  refine keeps_whenUp rfl ?_
  dsimp only
  (repeat' split) <;> simp [↓State.base_mk]

theorem keeps_regionSetPolicy (r : BciReq) (rid : Nat) (rg : Region) (new : Policy) (i : Issuer) (s : State) : Keeps s.base (regionSetPolicy r rid rg new i s) := by
  unfold regionSetPolicy
  simp [↓State.base_mk, State.base_foldl, apply_ite State.base]
  (repeat' split) <;> simp [↓State.base_mk, State.base_foldl, apply_ite State.base]

theorem keeps_execRegionSet (r : BciReq) (s : State) : Keeps s.base (execRegionSet r s) := by
  unfold execRegionSet
  refine keeps_bciServe rfl fun r i s hs => ?_
  refine keeps_named hs fun rid rg => ?_
  split
  · dsimp only
    split
    · exact hs ▸ keeps_regionSetPolicy ..
    · simp [hs]
  all_goals (dsimp only; (repeat' split) <;> simp [hs])

theorem keeps_execGrant (r : BciReq) (s : State) : Keeps s.base (execGrant r s) := by
  unfold execGrant
  refine keeps_bciServe rfl fun r i s hs => ?_
  refine keeps_named hs fun rid rg => ?_
  simp [hs, ↓State.base_mk, State.base_foldl, apply_ite State.base]
  (repeat' split) <;> simp [hs, ↓State.base_mk, State.base_foldl, apply_ite State.base]

theorem keeps_execRevoke (r : BciReq) (s : State) : Keeps s.base (execRevoke r s) := by
  unfold execRevoke
  refine keeps_bciServe rfl fun r i s hs => ?_
  refine keeps_named hs fun rid rg => ?_
  simp [hs, ↓State.base_mk, State.base_foldl, apply_ite State.base]
  (repeat' split) <;> simp [hs, ↓State.base_mk, State.base_foldl, apply_ite State.base]

theorem keeps_mapKeep (r : BciReq) (rid : Nat) (p : Nat) (n : Nat) (rg : Region) (s : State) : Keeps s.base (mapKeep r rid p n rg s) := by
  unfold mapKeep
  simp [↓State.base_mk, State.base_foldl, apply_ite State.base]
  (repeat' split) <;> simp [↓State.base_mk, State.base_foldl, apply_ite State.base]

theorem keeps_execMap (r : BciReq) (s : State) : Keeps s.base (execMap r s) := by
  unfold execMap
  refine keeps_bciServe rfl fun r i s hs => ?_
  dsimp only
  split
  · simp [hs]
  · refine keeps_named hs fun rid rg => ?_
    split
    · simp [hs]
    · split
      · exact hs ▸ keeps_mapKeep ..
      · split
        · simp [hs]
        · split
          · split <;> simp [hs]
          · refine keeps_named hs fun srid srg => ?_
            (repeat' split) <;> simp [hs]

theorem keeps_execUnmap (r : BciReq) (s : State) : Keeps s.base (execUnmap r s) := by
  unfold execUnmap
  refine keeps_bciServe rfl fun r i s hs => ?_
  dsimp only
  split
  · simp [hs]
  · refine keeps_named hs fun rid rg => ?_
    split <;> simp [hs]

theorem keeps_execConvert (r : BciReq) (s : State) : Keeps s.base (execConvert r s) := by
  unfold execConvert
  refine keeps_bciServe rfl fun r i s hs => ?_
  dsimp only
  (repeat' split) <;> simp [hs]

theorem keeps_execFaultRingSet (r : BciReq) (s : State) : Keeps s.base (execFaultRingSet r s) := by
  unfold execFaultRingSet
  refine keeps_bciServe rfl fun r i s hs => ?_
  refine keeps_named hs fun rid rg => ?_
  split <;> simp [hs, ↓State.base_respond, ↓State.base_faultFlush, ↓keeps_next, ↓State.base_mk]

theorem keeps_execTierSet (r : BciReq) (s : State) : Keeps s.base (execTierSet r s) := by
  unfold execTierSet
  refine keeps_bciServe rfl fun r i s hs => ?_
  dsimp only
  (repeat' split) <;> simp [hs, ↓State.base_mk]

theorem keeps_execLendOffer (eid : Nat) (inc : Nat) (ext : Nat) (sizeGiB : Nat) (lkey : Nat) (s : State) : Keeps s.base (execLendOffer eid inc ext sizeGiB lkey s) := by
  unfold execLendOffer
  refine keeps_whenUp rfl ?_
  dsimp only
  (repeat' split) <;> simp [↓State.base_mk]

theorem keeps_execLendRecall (eid : Nat) (inc : Nat) (ext : Nat) (graceUs : Nat) (s : State) : Keeps s.base (execLendRecall eid inc ext graceUs s) := by
  unfold execLendRecall
  refine keeps_whenUp rfl ?_
  (repeat' split) <;> simp

theorem keeps_execLendGraceExpiry (ext : Nat) (s : State) : Keeps s.base (execLendGraceExpiry ext s) := by
  unfold execLendGraceExpiry
  refine keeps_whenUp rfl ?_
  (repeat' split) <;> simp

theorem keeps_execTierDrain (r : BciReq) (s : State) : Keeps s.base (execTierDrain r s) := by
  unfold execTierDrain
  refine keeps_bciServe rfl fun r i s hs => ?_
  dsimp only
  split <;> simp [hs]

theorem keeps_execTierDrainCancel (r : BciReq) (s : State) : Keeps s.base (execTierDrainCancel r s) := by
  unfold execTierDrainCancel
  refine keeps_bciServe rfl fun r i s hs => ?_
  dsimp only
  split <;> simp [hs]

theorem keeps_execPageMoveSwitch (p : PageRef) (s : State) : Keeps s.base (execPageMoveSwitch p s) := by
  unfold execPageMoveSwitch
  refine keeps_whenUp rfl ?_
  (repeat' split) <;> simp

theorem keeps_execSourceRetire (p : PageRef) (s : State) : Keeps s.base (execSourceRetire p s) := by
  unfold execSourceRetire
  refine keeps_whenUp rfl ?_
  (repeat' split) <;> simp

theorem keeps_execT1LowSpaceMove (s : State) : Keeps s.base (execT1LowSpaceMove s) := by
  unfold execT1LowSpaceMove
  refine keeps_whenUp rfl ?_
  split <;> simp

theorem keeps_execHeatSweep (s : State) : Keeps s.base (execHeatSweep s) := by
  unfold execHeatSweep
  refine keeps_whenUp rfl ?_
  simp

theorem keeps_execStripeReclaim (p : PageRef) (s : State) : Keeps s.base (execStripeReclaim p s) := by
  unfold execStripeReclaim
  refine keeps_whenUp rfl ?_
  dsimp only
  (repeat' split) <;> simp [↓State.base_mk]

theorem keeps_execPageGroupEncode (pages : List PageRef) (s : State) : Keeps s.base (execPageGroupEncode pages s) := by
  unfold execPageGroupEncode
  refine keeps_whenUp rfl ?_
  dsimp only
  (repeat' split) <;> simp

theorem keeps_execSlotDecode (p : PageRef) (slot : Nat) (media : Option Bytes) (s : State) : Keeps s.base (execSlotDecode p slot media s) := by
  unfold execSlotDecode
  refine keeps_whenUp rfl ?_
  dsimp only
  (repeat' split) <;> simp

theorem keeps_execPageRecovery (p : PageRef) (src : RecoverySource) (data : Bytes) (s : State) : Keeps s.base (execPageRecovery p src data s) := by
  unfold execPageRecovery
  refine keeps_whenUp rfl ?_
  dsimp only
  (repeat' split) <;> simp

theorem keeps_execScrub (p : PageRef) (line : Nat) (found : ScrubFound) (s : State) : Keeps s.base (execScrub p line found s) := by
  unfold execScrub
  refine keeps_whenUp rfl ?_
  dsimp only
  (repeat' split) <;> simp

theorem keeps_matrixMul (cmd : Instr) (maxRows : Nat) (f : MFmt) (s : State) : Keeps s.base (matrixMul cmd maxRows f s) := by
  unfold matrixMul
  refine keeps_slotRun rfl fun h k r q t => ?_
  dsimp only
  (repeat' split) <;> simp [↓State.base_mk]

theorem keeps_execMma (h : SlotHdr) (f : MFmt) (s : State) : Keeps s.base (execMma h f s) := by
  unfold execMma
  exact keeps_matrixMul ..

theorem keeps_execMmv (h : SlotHdr) (f : MFmt) (s : State) : Keeps s.base (execMmv h f s) := by
  unfold execMmv
  exact keeps_matrixMul ..

theorem keeps_execMload (h : SlotHdr) (f : MFmt) (s : State) : Keeps s.base (execMload h f s) := by
  unfold execMload
  refine keeps_slotRun rfl fun h k r q t => ?_
  dsimp only
  split
  · split
    · simp
    · split
      · simp
      · split
        · simp
        · refine State.base_slotMove _ _ _ _ _ _ _ _ _ _ fun rid m s => ?_
          (repeat' split) <;> simp [State.base_foldl]
  · simp

theorem keeps_execMdrain (h : SlotHdr) (f : MFmt) (s : State) : Keeps s.base (execMdrain h f s) := by
  unfold execMdrain
  refine keeps_slotRun rfl fun h k r q t => ?_
  dsimp only
  (repeat' split) <;> simp

theorem keeps_execMclr (h : SlotHdr) (f : MFmt) (s : State) : Keeps s.base (execMclr h f s) := by
  unfold execMclr
  refine keeps_slotRun rfl fun h k r q t => ?_
  dsimp only
  simp

theorem keeps_execCountedWrite (q0 : LmfReq) (ckey : Nat) (data : Bytes) (s : State) : Keeps s.base (execCountedWrite q0 ckey data s) := by
  unfold execCountedWrite
  refine keeps_whenUp rfl ?_
  dsimp only
  split
  · exact keeps_next.2 (State.base_of_arrive_error rfl ‹_›)
  · have ht := State.base_of_arrive rfl ‹_›
    (repeat' split) <;> try simp [ht]
    all_goals exact (State.base_of_holdOn (by assumption)).trans ht

theorem keeps_execExpertSet (r : BciReq) (s : State) : Keeps s.base (execExpertSet r s) := by
  unfold execExpertSet
  refine keeps_bciServe rfl fun r i s hs => ?_
  refine keeps_onRegion hs (by simp) fun rid rg => ?_
  simp [hs, ↓State.base_mk, State.base_foldl, apply_ite State.base]
  (repeat' split) <;> simp [hs, ↓State.base_mk, State.base_foldl, apply_ite State.base]

theorem keeps_execExpertClear (r : BciReq) (s : State) : Keeps s.base (execExpertClear r s) := by
  unfold execExpertClear
  refine keeps_bciServe rfl fun r i s hs => ?_
  dsimp only
  (repeat' split) <;> simp [hs, ↓State.base_mk]

theorem keeps_execLaneAdd (r : BciReq) (s : State) : Keeps s.base (execLaneAdd r s) := by
  unfold execLaneAdd
  refine keeps_bciServe rfl fun r i s hs => ?_
  refine keeps_named hs fun rid rg => ?_
  split
  · simp [hs]
  · split
    · simp [hs]
    · split
      · simp [hs]
      · refine keeps_onRegion hs (fun t st => State.base_refuse ..) fun out og => ?_
        dsimp only
        split <;> simp [hs, ↓State.base_mk]

theorem keeps_execLaneRemove (r : BciReq) (s : State) : Keeps s.base (execLaneRemove r s) := by
  unfold execLaneRemove
  refine keeps_bciServe rfl fun r i s hs => ?_
  dsimp only
  (repeat' split) <;> simp [hs, ↓State.base_mk, State.base_foldl, apply_ite State.base]

theorem keeps_execExpertPolicySet (r : BciReq) (s : State) : Keeps s.base (execExpertPolicySet r s) := by
  unfold execExpertPolicySet
  refine keeps_bciServe rfl fun r i s hs => ?_
  dsimp only
  (repeat' split) <;> simp [hs, ↓State.base_mk]

theorem keeps_execSsdEnter (r : BciReq) (s : State) : Keeps s.base (execSsdEnter r s) := by
  unfold execSsdEnter
  refine keeps_bciServe rfl fun r i s hs => ?_
  dsimp only
  (repeat' split) <;> simp [hs, ↓State.base_mk, State.base_foldl, apply_ite State.base]

theorem keeps_execSsdExit (r : BciReq) (s : State) : Keeps s.base (execSsdExit r s) := by
  unfold execSsdExit
  refine keeps_bciServe rfl fun r i s hs => ?_
  split <;> simp [hs]

theorem keeps_execMaxWaitExpiry (expert : Nat) (s : State) : Keeps s.base (execMaxWaitExpiry expert s) := by
  unfold execMaxWaitExpiry
  refine keeps_whenUp rfl ?_
  dsimp only
  (repeat' split) <;> simp [↓State.base_mk]

theorem keeps_execMicroBatchDispatch (core : Nat) (s : State) : Keeps s.base (execMicroBatchDispatch core s) := by
  unfold execMicroBatchDispatch
  refine keeps_whenUp rfl ?_
  dsimp only
  (repeat' split) <;> simp [↓State.base_mk, State.base_foldl, apply_ite State.base]

theorem keeps_execMicroBatchEnd (id : Nat) (st : Status) (s : State) : Keeps s.base (execMicroBatchEnd id st s) := by
  unfold execMicroBatchEnd
  refine keeps_whenUp rfl ?_
  dsimp only
  (repeat' split) <;> simp [↓State.base_mk, State.base_foldl, apply_ite State.base]

theorem keeps_execTrailerWrite (id : Nat) (s : State) : Keeps s.base (execTrailerWrite id s) := by
  unfold execTrailerWrite
  refine keeps_whenUp rfl ?_
  dsimp only
  (repeat' split) <;> try simp
  all_goals exact (State.base_of_resultWrite ‹_›).trans (State.base_expRows ..)

theorem keeps_vecOp (cmd : Instr) (w : Nat) (vd : Nat) (s : State) (val : RegFile → Rnd → List (Nat × FFlags)) : Keeps s.base (vecOp cmd w vd s val) := by
  unfold vecOp
  refine keeps_slotRun rfl fun h k r q t => ?_
  dsimp only
  simp

theorem keeps_vecArith (cmd : Instr) (op : Nat) (f : VFmt) (s : State) (fi : ℤ → ℤ → ℤ) (ff : FVal → FVal → FVal × FFlags) : Keeps s.base (vecArith cmd op f s fi ff) := by
  unfold vecArith
  exact keeps_vecOp ..

theorem keeps_execVadd (h : SlotHdr) (f : VFmt) (s : State) : Keeps s.base (execVadd h f s) := by
  unfold execVadd
  exact keeps_vecArith ..

theorem keeps_execVsub (h : SlotHdr) (f : VFmt) (s : State) : Keeps s.base (execVsub h f s) := by
  unfold execVsub
  exact keeps_vecArith ..

theorem keeps_execVmul (h : SlotHdr) (f : VFmt) (s : State) : Keeps s.base (execVmul h f s) := by
  unfold execVmul
  exact keeps_vecArith ..

theorem keeps_execVmin (h : SlotHdr) (f : VFmt) (s : State) : Keeps s.base (execVmin h f s) := by
  unfold execVmin
  exact keeps_vecArith ..

theorem keeps_execVmax (h : SlotHdr) (f : VFmt) (s : State) : Keeps s.base (execVmax h f s) := by
  unfold execVmax
  exact keeps_vecArith ..

theorem keeps_execVfma (h : SlotHdr) (f : VFmt) (s : State) : Keeps s.base (execVfma h f s) := by
  unfold execVfma
  exact keeps_vecOp ..

theorem keeps_vecMap (cmd : Instr) (f : VFmt) (s : State) (g : Nat → Nat) : Keeps s.base (vecMap cmd f s g) := by
  unfold vecMap
  exact keeps_vecOp ..

theorem keeps_execVabs (h : SlotHdr) (f : VFmt) (s : State) : Keeps s.base (execVabs h f s) := by
  unfold execVabs
  exact keeps_vecMap ..

theorem keeps_execVneg (h : SlotHdr) (f : VFmt) (s : State) : Keeps s.base (execVneg h f s) := by
  unfold execVneg
  exact keeps_vecMap ..

theorem keeps_vecBits (cmd : Instr) (f : VFmt) (s : State) (g : Nat → Nat → Nat) : Keeps s.base (vecBits cmd f s g) := by
  unfold vecBits
  exact keeps_vecOp ..

theorem keeps_execVand (h : SlotHdr) (f : VFmt) (s : State) : Keeps s.base (execVand h f s) := by
  unfold execVand
  exact keeps_vecBits ..

theorem keeps_execVor (h : SlotHdr) (f : VFmt) (s : State) : Keeps s.base (execVor h f s) := by
  unfold execVor
  exact keeps_vecBits ..

theorem keeps_execVxor (h : SlotHdr) (f : VFmt) (s : State) : Keeps s.base (execVxor h f s) := by
  unfold execVxor
  exact keeps_vecBits ..

theorem keeps_execVshl (h : SlotHdr) (f : VFmt) (s : State) : Keeps s.base (execVshl h f s) := by
  unfold execVshl
  exact keeps_vecBits ..

theorem keeps_execVshr (h : SlotHdr) (f : VFmt) (s : State) : Keeps s.base (execVshr h f s) := by
  unfold execVshr
  dsimp only
  split
  · exact keeps_slotRun rfl fun h k r q t => State.base_illegal ..
  · exact keeps_vecBits ..

theorem keeps_execVcmp (h : SlotHdr) (f : VFmt) (s : State) : Keeps s.base (execVcmp h f s) := by
  unfold execVcmp
  refine keeps_slotRun rfl fun h k r q t => ?_
  dsimp only
  split <;> simp

theorem keeps_execVsel (h : SlotHdr) (f : VFmt) (s : State) : Keeps s.base (execVsel h f s) := by
  unfold execVsel
  exact keeps_vecOp ..

theorem keeps_execVbcast (h : SlotHdr) (f : VFmt) (s : State) : Keeps s.base (execVbcast h f s) := by
  unfold execVbcast
  exact keeps_vecOp ..

theorem keeps_vcvtPlain (cmd : Instr) (f : VFmt) (s : State) : Keeps s.base (vcvtPlain cmd f s) := by
  unfold vcvtPlain
  refine keeps_slotRun rfl fun h k r q t => ?_
  dsimp only
  split <;> simp

theorem keeps_vcvtToMx (cmd : Instr) (f : VFmt) (x : FFmt) (s : State) : Keeps s.base (vcvtToMx cmd f x s) := by
  unfold vcvtToMx
  refine keeps_slotRun rfl fun h k r q t => ?_
  dsimp only
  split <;> simp

theorem keeps_vcvtFromMx (cmd : Instr) (f : VFmt) (x : FFmt) (s : State) : Keeps s.base (vcvtFromMx cmd f x s) := by
  unfold vcvtFromMx
  refine keeps_slotRun rfl fun h k r q t => ?_
  dsimp only
  (repeat' split) <;> simp

theorem keeps_execVcvt (h : SlotHdr) (f : VFmt) (s : State) : Keeps s.base (execVcvt h f s) := by
  unfold execVcvt
  dsimp only
  split
  · exact keeps_vcvtToMx ..
  · exact keeps_vcvtFromMx ..
  · exact keeps_slotRun rfl fun h k r q t => State.base_illegal ..
  · exact keeps_vcvtPlain ..

theorem keeps_vecFn (cmd : Instr) (f : VFmt) (s : State) (g : BitVec 32 → Nat × FFlags) : Keeps s.base (vecFn cmd f s g) := by
  unfold vecFn
  exact keeps_vecOp ..

theorem keeps_execVexp2 (h : SlotHdr) (f : VFmt) (s : State) : Keeps s.base (execVexp2 h f s) := by
  unfold execVexp2
  exact keeps_vecFn ..

theorem keeps_execVrcp (h : SlotHdr) (f : VFmt) (s : State) : Keeps s.base (execVrcp h f s) := by
  unfold execVrcp
  exact keeps_vecFn ..

theorem keeps_execVrsqrt (h : SlotHdr) (f : VFmt) (s : State) : Keeps s.base (execVrsqrt h f s) := by
  unfold execVrsqrt
  exact keeps_vecFn ..

theorem keeps_execVred (h : SlotHdr) (f : VFmt) (s : State) : Keeps s.base (execVred h f s) := by
  unfold execVred
  dsimp only
  split
  · exact keeps_slotRun rfl fun h k r q t => State.base_illegal ..
  · exact keeps_vecOp ..

theorem keeps_execVld (h : SlotHdr) (f : LFmt) (s : State) : Keeps s.base (execVld h f s) := by
  unfold execVld
  refine keeps_slotRun rfl fun h k r q t => ?_
  dsimp only
  (repeat' split) <;> simp

theorem keeps_execVst (h : SlotHdr) (f : LFmt) (s : State) : Keeps s.base (execVst h f s) := by
  unfold execVst
  refine keeps_slotRun rfl fun h k r q t => ?_
  dsimp only
  (repeat' split) <;> simp [↓State.base_mk, State.base_foldl, apply_ite State.base]

theorem keeps_dmaStart (cmd : Instr) (f : LFmt) (rw : Bool) (s : State) : Keeps s.base (dmaStart cmd f rw s) := by
  unfold dmaStart
  refine keeps_slotRun rfl fun h k r q t => ?_
  dsimp only
  (repeat' split) <;> simp [↓State.base_mk]

theorem keeps_execDmaCopy (h : SlotHdr) (f : LFmt) (s : State) : Keeps s.base (execDmaCopy h f s) := by
  unfold execDmaCopy
  exact keeps_dmaStart ..

theorem keeps_execDmaRw (h : SlotHdr) (f : LFmt) (s : State) : Keeps s.base (execDmaRw h f s) := by
  unfold execDmaRw
  exact keeps_dmaStart ..

theorem keeps_execDmaTransferEnd (core : Nat) (id : Nat) (s : State) : Keeps s.base (execDmaTransferEnd core id s) := by
  unfold execDmaTransferEnd
  refine keeps_whenUp rfl ?_
  dsimp only
  (repeat' split) <;> simp

theorem keeps_belayIssue (cmd : Instr) (f : SFmt) (acq : Bool) (s : State) : Keeps s.base (belayIssue cmd f acq s) := by
  unfold belayIssue
  refine keeps_slotRun rfl fun h k r q t => ?_
  dsimp only
  (repeat' split) <;> simp [↓State.base_mk]

theorem keeps_execBelayRel (h : SlotHdr) (f : SFmt) (s : State) : Keeps s.base (execBelayRel h f s) := by
  unfold execBelayRel
  exact keeps_belayIssue ..

theorem keeps_execBelayAcq (h : SlotHdr) (f : SFmt) (s : State) : Keeps s.base (execBelayAcq h f s) := by
  unfold execBelayAcq
  exact keeps_belayIssue ..

theorem keeps_execBelayRelStore (core : Nat) (id : Nat) (s : State) : Keeps s.base (execBelayRelStore core id s) := by
  unfold execBelayRelStore
  refine keeps_whenUp rfl ?_
  dsimp only
  (repeat' split) <;> simp

theorem keeps_execBelayAcqSatisfied (core : Nat) (id : Nat) (s : State) : Keeps s.base (execBelayAcqSatisfied core id s) := by
  unfold execBelayAcqSatisfied
  refine keeps_whenUp rfl ?_
  dsimp only
  (repeat' split) <;> simp [↓State.base_mk, State.base_foldl, apply_ite State.base]

theorem keeps_execAcquireRetry (core : Nat) (id : Nat) (s : State) : Keeps s.base (execAcquireRetry core id s) := by
  unfold execAcquireRetry
  refine keeps_whenUp rfl ?_
  (repeat' split) <;> simp

theorem keeps_execBelayAccess (q0 : LmfReq) (store : Bool) (value : DWord) (s : State) : Keeps s.base (execBelayAccess q0 store value s) := by
  unfold execBelayAccess
  refine keeps_whenUp rfl ?_
  dsimp only
  split
  · exact keeps_next.2 (State.base_of_arrive_error rfl ‹_›)
  · have ht := State.base_of_arrive rfl ‹_›
    split
    · simp [ht]
    · split
      · refine keeps_serve ht fun rid r => ?_
        split <;> simp [ht]
      · refine keeps_serve ht fun rid r => ?_
        (repeat' split) <;> simp [ht, ↓State.base_mk]

theorem keeps_execBr (h : SlotHdr) (f : CFmt) (s : State) : Keeps s.base (execBr h f s) := by
  unfold execBr
  refine keeps_slotRun rfl fun h k r q t => ?_
  simp

theorem keeps_execBrx (h : SlotHdr) (f : CFmt) (s : State) : Keeps s.base (execBrx h f s) := by
  unfold execBrx
  refine keeps_slotRun rfl fun h k r q t => ?_
  simp

theorem keeps_execWaitcnt (h : SlotHdr) (f : CFmt) (s : State) : Keeps s.base (execWaitcnt h f s) := by
  unfold execWaitcnt
  refine keeps_slotRun rfl fun h k r q t => ?_
  dsimp only
  (repeat' split) <;> simp [↓State.base_mk]

theorem keeps_execWaitcntWake (core : Nat) (s : State) : Keeps s.base (execWaitcntWake core s) := by
  unfold execWaitcntWake
  refine keeps_whenUp rfl ?_
  dsimp only
  (repeat' split) <;> simp [↓State.base_mk]

theorem keeps_execHalt (h : SlotHdr) (f : CFmt) (s : State) : Keeps s.base (execHalt h f s) := by
  unfold execHalt
  refine keeps_slotRun rfl fun h k r q t => ?_
  dsimp only
  split <;> simp

theorem keeps_execKernelDispatch (core : Nat) (s : State) : Keeps s.base (execKernelDispatch core s) := by
  unfold execKernelDispatch
  refine keeps_whenUp rfl ?_
  dsimp only
  (repeat' split) <;> simp [↓State.base_mk]

theorem keeps_execClocksStable (core : Nat) (s : State) : Keeps s.base (execClocksStable core s) := by
  unfold execClocksStable
  refine keeps_whenUp rfl ?_
  dsimp only
  split <;> simp

theorem keeps_execPrepareDone (core : Nat) (s : State) : Keeps s.base (execPrepareDone core s) := by
  unfold execPrepareDone
  refine keeps_whenUp rfl ?_
  dsimp only
  (repeat' split) <;> simp

theorem keeps_execBundleDispatch (core : Nat) (s : State) : Keeps s.base (execBundleDispatch core s) := by
  unfold execBundleDispatch
  refine keeps_whenUp rfl ?_
  dsimp only
  (repeat' split) <;> simp [↓State.base_mk, State.base_foldl, apply_ite State.base]

theorem keeps_execKernelDrainEnd (core : Nat) (s : State) : Keeps s.base (execKernelDrainEnd core s) := by
  unfold execKernelDrainEnd
  refine keeps_whenUp rfl ?_
  dsimp only
  (repeat' split) <;> simp

theorem keeps_execKernelSuspend (core : Nat) (s : State) : Keeps s.base (execKernelSuspend core s) := by
  unfold execKernelSuspend
  refine keeps_whenUp rfl ?_
  dsimp only
  (repeat' split) <;> simp

theorem keeps_execSaveDone (core : Nat) (s : State) : Keeps s.base (execSaveDone core s) := by
  unfold execSaveDone
  refine keeps_whenUp rfl ?_
  dsimp only
  (repeat' split) <;> simp [↓State.base_mk]

theorem keeps_execRestoreDone (core : Nat) (s : State) : Keeps s.base (execRestoreDone core s) := by
  unfold execRestoreDone
  refine keeps_whenUp rfl ?_
  dsimp only
  (repeat' split) <;> simp [↓State.base_mk]

theorem keeps_execIndexCreate (r : BciReq) (s : State) : Keeps s.base (execIndexCreate r s) := by
  unfold execIndexCreate
  refine keeps_bciServe rfl fun r i s hs => ?_
  refine keeps_onRegion hs (fun t st => State.base_refuse ..) fun rid rg => ?_
  split
  · extract_lets ws s1 me
    have h1 : s1.base = _ := (State.base_readDone ..).trans hs
    split
    · simp [h1]
    · split
      · simp [h1]
      · split
        · split
          · simp [h1]
          · split
            · extract_lets tb s2 ds n shards fits far ix src s3 t
              have h2 : s2.base = _ := (State.base_readDone ..).trans h1
              have h3 : t.base = _ := (State.base_foldl (fun _ _ => State.base_setShard ..) _ _).trans ((State.base_mk rfl rfl rfl rfl rfl rfl rfl rfl rfl).trans h2)
              refine keeps_ite (by simp [h2]) (keeps_ite (by simp [h2]) (keeps_ite (by simp [h2]) (keeps_ite (by simp [h3]) ?_)))
              refine keeps_next.2 ((State.base_foldl (fun _ _ => State.base_sendTxn ..) _ _).trans ?_)
              exact (State.base_mk rfl rfl rfl rfl rfl rfl rfl rfl rfl).trans h3
            · simp [h1]
        · simp [h1]
  · simp [hs]

theorem keeps_execShardRegister (q : LmfReq) (index shard : Nat) (words : List Word) (s : State) : Keeps s.base (execShardRegister q index shard words s) := by
  unfold execShardRegister
  refine keeps_whenUp rfl ?_
  dsimp only
  split
  · exact keeps_next.2 (State.base_of_arrive_error rfl ‹_›)
  · have ht := State.base_of_arrive rfl ‹_›
    (repeat' split) <;> simp [ht, ↓State.base_mk]

theorem keeps_execTrvQuery (r : BciReq) (s : State) : Keeps s.base (execTrvQuery r s) := by
  unfold execTrvQuery
  refine keeps_bciServe rfl fun r i s hs => ?_
  dsimp only
  split
  · split
    · simp [hs]
    · split
      · simp [State.base_of_queryAccept ‹_›, hs]
      · simp [hs]
  · refine keeps_onRegion hs (fun t st => State.base_refuse ..) fun rid rg => ?_
    split
    · split
      · simp [State.base_of_queryAccept ‹_›, hs]
      · simp [hs]
    · simp [hs]

theorem keeps_queryRoute (s : State) (q : Query) (ix : Index) : Keeps s.base (s.queryRoute q ix) := by
  refine keeps_onIndex rfl (fun why => State.base_holdCmd ..) (fun rd o m t ht => ?_) (fun rd beam t ht => ?_)
  · split <;> simp [State.base_of_holdOn ‹_›, ht]
  · dsimp only
    split <;> simp [ht]

theorem State.base_of_queryRead {s t : State} {q : Query} {ix : Index} (h : s.queryRead q ix = .ok t) : t.base = s.base := by
  unfold State.queryRead at h
  extract_lets cmd i off n at h
  split at h
  rename_i s1 caps hcaps
  have h1 : s1.base = s.base := by
    split at hcaps
    · rw [← State.base_recapture s q.id q.pages, hcaps]
    · cases hcaps; rfl
  extract_lets s2 old o at h
  have h2 : s2.base = s.base := (State.base_modQuery ..).trans h1
  have h3 : o.base = s.base := (State.base_overlay ..).trans h2
  (repeat' split at h) <;> cases h
  rw [State.base_mk] <;> try rfl
  simp [h3]

theorem State.base_of_queryRead_error {s t : State} {q : Query} {ix : Index} (h : s.queryRead q ix = .error t) : t.base = s.base := by
  unfold State.queryRead at h
  extract_lets cmd i off n at h
  split at h
  rename_i s1 caps hcaps
  have h1 : s1.base = s.base := by
    split at hcaps
    · rw [← State.base_recapture s q.id q.pages, hcaps]
    · cases hcaps; rfl
  extract_lets s2 at h
  have h2 : s2.base = s.base := (State.base_modQuery ..).trans h1
  (repeat' split at h) <;> cases h
  all_goals (try simp [h2])
  all_goals exact (State.base_of_holdOn ‹_›).trans ((State.base_overlay ..).trans h2)

theorem keeps_execQueryStart (id : Nat) (s : State) : Keeps s.base (execQueryStart id s) := by
  unfold execQueryStart
  refine keeps_whenUp rfl ?_
  split
  · simp
  · split
    · simp
    · split
      · split <;> simp
      · split
        · simp
        · split
          · rename_i h
            split at h
            · cases h
            · exact keeps_next.2 (State.base_of_queryRead_error h)
          · rename_i t h
            have ht : t.base = s.base := by
              split at h
              · cases h; rfl
              · exact State.base_of_queryRead h
            split
            · simp [ht]
            · exact ht ▸ keeps_queryRoute ..

theorem keeps_execShardWalk (id shard : Nat) (s : State) : Keeps s.base (execShardWalk id shard s) := by
  unfold execShardWalk
  refine keeps_whenUp rfl ?_
  dsimp only
  split
  · simp
  · split
    · simp
    · split
      · split <;> simp
      · split
        · simp
        · refine keeps_onIndex rfl (fun why => State.base_holdCmd ..) (fun rd o m t ht => ?_) (fun rd x t ht => ?_)
          · split <;> simp [State.base_of_holdOn ‹_›, ht]
          · simp [ht]

theorem keeps_execPayloadFetchEnd (id : Nat) (s : State) : Keeps s.base (execPayloadFetchEnd id s) := by
  unfold execPayloadFetchEnd
  refine keeps_whenUp rfl ?_
  (repeat' split) <;> simp

theorem keeps_trvTake (s : State) (r : BciReq) (i : Issuer) (index : Nat) (ix : Index) (shard : Nat) (item : Nat) (attr : Nat) (lseq : Nat) (ins : Bool) (vec : Bytes) : Keeps s.base (s.trvTake r i index ix shard item attr lseq ins vec) := by
  unfold State.trvTake
  simp [↓State.base_mk, State.base_foldl, apply_ite State.base]
  (repeat' split) <;> simp [↓State.base_mk, State.base_foldl, apply_ite State.base]

theorem keeps_execTrvInsert (r : BciReq) (s : State) : Keeps s.base (execTrvInsert r s) := by
  unfold execTrvInsert
  refine keeps_bciServe rfl fun r i s hs => ?_
  refine keeps_once hs ?_
  split
  · simp [hs]
  · rename_i ix _
    split
    · simp [hs]
    · refine keeps_onRegion hs (fun t st => State.base_trvAnswer ..) fun rid rg => ?_
      extract_lets n route
      have hroute : ∀ (t : State) (vec : Bytes), t.base = s.base → Keeps s.base (route t vec) := by
        intro t vec ht
        refine keeps_onIndex ht (fun why => by simp [ht]) (fun rd o m u hu => ?_) (fun rd beam u hu => ?_)
        · split <;> simp [State.base_of_bciMet ‹_›, hu]
        · split
          · exact hu ▸ keeps_trvTake ..
          · simp [hu]
      rw [← hs]
      refine keeps_ite (hroute _ _ rfl) ?_
      split
      · exact hroute _ _ (State.base_readDone ..)
      · split <;> simp [State.base_of_bciMet ‹_›]

theorem keeps_execTrvDelete (r : BciReq) (s : State) : Keeps s.base (execTrvDelete r s) := by
  unfold execTrvDelete
  refine keeps_bciServe rfl fun r i s hs => ?_
  refine keeps_once hs ?_
  dsimp only
  split
  · simp [hs]
  · split
    · simp [hs]
    · split
      · simp [hs]
      · exact hs ▸ keeps_trvTake ..

theorem State.base_of_putAll {s t : State} {h : Shard} {work : WorkRef} {ws : List (Nat × Bytes)} (hput : s.putAll h work ws = .ok t) : t.base = s.base := by
  unfold State.putAll at hput
  dsimp only at hput
  split at hput <;> cases hput
  exact State.base_foldl (fun s w => by simp) _ _

theorem keeps_execSideListAppend (id : Nat) (s : State) : Keeps s.base (execSideListAppend id s) := by
  unfold execSideListAppend
  refine keeps_whenUp rfl ?_
  dsimp only
  split
  · simp
  · split
    · simp
    · split
      · simp
      · split
        · split <;> simp
        · split
          · split
            · simp
            · split
              · split <;> simp [State.base_of_putAll ‹_›]
              · split <;> simp [State.base_of_holdOn ‹_›]
          · simp

theorem keeps_execTrvMerge (r : BciReq) (s : State) : Keeps s.base (execTrvMerge r s) := by
  unfold execTrvMerge
  refine keeps_bciServe rfl fun r i s hs => ?_
  dsimp only
  (repeat' split) <;> simp [hs]

theorem keeps_execTrvMergeCancel (r : BciReq) (s : State) : Keeps s.base (execTrvMergeCancel r s) := by
  unfold execTrvMergeCancel
  refine keeps_bciServe rfl fun r i s hs => ?_
  (repeat' split) <;> simp [hs]

theorem keeps_execMergeRecord (index shard : Nat) (s : State) : Keeps s.base (execMergeRecord index shard s) := by
  unfold execMergeRecord
  refine keeps_whenUp rfl ?_
  dsimp only
  split
  · simp
  · split
    · simp
    · split
      · simp
      · split
        · simp
        · split
          · split <;> simp
          · refine keeps_onIndex rfl (fun why => State.base_holdCmd ..) (fun rd o m t ht => ?_) (fun rd x t ht => ?_)
            · split <;> simp [State.base_of_holdOn ‹_›, ht]
            · split
              · simp [ht]
              · split
                · split <;> simp [ht]
                · split
                  · split <;> simp [State.base_of_holdOn ‹_›, ht]
                  · simp [State.base_of_putAll ‹_›, ht]

theorem keeps_execRecordRetire (index : Nat) (shard : Nat) (n : Nat) (s : State) : Keeps s.base (execRecordRetire index shard n s) := by
  unfold execRecordRetire
  refine keeps_whenUp rfl ?_
  (repeat' split) <;> simp

theorem keeps_execSlotReclaim (index shard n : Nat) (s : State) : Keeps s.base (execSlotReclaim index shard n s) := by
  unfold execSlotReclaim
  refine keeps_whenUp rfl ?_
  dsimp only
  split
  · simp
  · split
    · simp
    · refine keeps_onIndex rfl (fun why => State.base_holdCmd ..) (fun rd o m t ht => ?_) (fun rd x t ht => ?_)
      · split <;> simp [State.base_of_holdOn ‹_›, ht]
      · split
        · simp [ht]
        · split
          · split <;> simp [State.base_of_holdOn ‹_›, ht]
          · simp [State.base_of_putAll ‹_›, ht]

theorem keeps_execIndexDestroy (r : BciReq) (s : State) : Keeps s.base (execIndexDestroy r s) := by
  unfold execIndexDestroy
  refine keeps_bciServe rfl fun r i s hs => ?_
  dsimp only
  (repeat' split) <;> simp [hs, ↓State.base_mk, State.base_foldl, apply_ite State.base]

theorem keeps_execEmbTableCreate (r : BciReq) (s : State) : Keeps s.base (execEmbTableCreate r s) := by
  unfold execEmbTableCreate
  refine keeps_bciServe rfl fun r i s hs => ?_
  refine keeps_onRegion hs (by simp) fun rid rg => ?_
  simp [hs, ↓State.base_mk, State.base_foldl, apply_ite State.base]
  (repeat' split) <;> simp [hs, ↓State.base_mk, State.base_foldl, apply_ite State.base]

theorem keeps_execMorBatch (r : BciReq) (s : State) : Keeps s.base (execMorBatch r s) := by
  unfold execMorBatch
  refine keeps_bciServe rfl fun r i s hs => ?_
  dsimp only
  split
  · split
    · simp [hs]
    · split
      · simp [State.base_of_batchAccept ‹_›, hs]
      · simp [State.base_of_batchAccept_error ‹_›, hs]
      · simp [State.base_of_batchAccept_error ‹_›, hs]
  · refine keeps_onRegion hs (fun t st => State.base_refuse ..) fun rid rg => ?_
    split
    · split
      · simp [State.base_of_batchAccept ‹_›, hs]
      · simp [State.base_of_batchAccept_error ‹_›, hs]
      · simp [State.base_of_batchAccept_error ‹_›, hs]
    · simp [hs]

theorem keeps_execBatchStart (mu : Nat) (id : Nat) (s : State) : Keeps s.base (execBatchStart mu id s) := by
  unfold execBatchStart
  refine keeps_whenUp rfl ?_
  dsimp only
  (repeat' split) <;> simp

theorem State.base_of_batchInput {s t : State} {b : Batch} (h : s.batchInput b = .ok t) : t.base = s.base := by
  unfold State.batchInput at h
  dsimp only at h
  (repeat' split at h) <;> cases h
  all_goals simp [↓State.base_mk]

theorem State.base_of_batchInput_error {s t : State} {b : Batch} (h : s.batchInput b = .error t) : t.base = s.base := by
  unfold State.batchInput at h
  dsimp only at h
  (repeat' split at h) <;> cases h
  all_goals simp

theorem State.base_of_batchFetch {s t : State} {b : Batch} {mu : Nat} (h : s.batchFetch b mu = .ok t) : t.base = s.base := by
  unfold State.batchFetch at h
  dsimp only at h
  (repeat' split at h) <;> cases h
  all_goals simp [↓State.base_mk]

theorem State.base_of_batchFetch_error {s t : State} {b : Batch} {mu : Nat} (h : s.batchFetch b mu = .error t) : t.base = s.base := by
  unfold State.batchFetch at h
  dsimp only at h
  (repeat' split at h) <;> cases h
  all_goals simp

theorem keeps_execBatchEnd (mu : Nat) (s : State) : Keeps s.base (execBatchEnd mu s) := by
  unfold execBatchEnd
  refine keeps_whenUp rfl ?_
  split
  · simp
  · split
    · simp
    · split
      · exact keeps_next.2 (State.base_of_batchInput_error ‹_›)
      · have ht := State.base_of_batchInput ‹_›
        split
        · simp [ht]
        · split
          · simp [State.base_of_batchFetch_error ‹_›, ht]
          · split <;> simp [State.base_of_batchFetch ‹_›, ht]

theorem keeps_execEmbTableDestroy (r : BciReq) (s : State) : Keeps s.base (execEmbTableDestroy r s) := by
  unfold execEmbTableDestroy
  refine keeps_bciServe rfl fun r i s hs => ?_
  dsimp only
  (repeat' split) <;> simp [hs, ↓State.base_mk, State.base_foldl, apply_ite State.base]

theorem keeps_execEmbSwap (r : BciReq) (s : State) : Keeps s.base (execEmbSwap r s) := by
  unfold execEmbSwap
  refine keeps_bciServe rfl fun r i s hs => ?_
  refine keeps_onRegion hs (by simp) fun rid rg => ?_
  simp [hs, ↓State.base_mk, State.base_foldl, apply_ite State.base]
  (repeat' split) <;> simp [hs, ↓State.base_mk, State.base_foldl, apply_ite State.base]

theorem keeps_faultResolveBody (r : BciReq) (s : State) : Keeps s.base (faultResolveBody r s) := by
  unfold faultResolveBody
  simp [↓State.base_mk, State.base_foldl, apply_ite State.base]
  (repeat' split) <;> simp [↓State.base_mk, State.base_foldl, apply_ite State.base]

theorem keeps_execFaultResolve (r : BciReq) (s : State) : Keeps s.base (execFaultResolve r s) :=
  keeps_bciServe rfl fun _ _ _ hs => hs ▸ keeps_faultResolveBody ..

theorem keeps_execFaultResolveAbort (r : BciReq) (s : State) : Keeps s.base (execFaultResolveAbort r s) :=
  keeps_bciServe rfl fun _ _ _ hs => hs ▸ keeps_faultResolveBody ..

theorem keeps_execCtxResetEnd (ctx : Nat) (s : State) : Keeps s.base (execCtxResetEnd ctx s) := by
  unfold execCtxResetEnd
  refine keeps_whenUp rfl ?_
  dsimp only
  (repeat' split) <;> simp [↓State.base_mk]

theorem keeps_execCtxCreate (r : BciReq) (s : State) : Keeps s.base (execCtxCreate r s) := by
  unfold execCtxCreate
  refine keeps_bciServe rfl fun r i s hs => ?_
  dsimp only
  (repeat' split) <;> simp [hs, ↓State.base_mk]

theorem keeps_execCtxSet (r : BciReq) (s : State) : Keeps s.base (execCtxSet r s) := by
  unfold execCtxSet
  refine keeps_bciServe rfl fun r i s hs => ?_
  dsimp only
  (repeat' split) <;> simp [hs, ↓State.base_mk]

theorem keeps_execCtxReset (r : BciReq) (s : State) : Keeps s.base (execCtxReset r s) := by
  unfold execCtxReset
  refine keeps_bciServe rfl fun r i s hs => ?_
  split <;> simp [hs]

theorem keeps_execCtxDestroy (r : BciReq) (s : State) : Keeps s.base (execCtxDestroy r s) := by
  unfold execCtxDestroy
  refine keeps_bciServe rfl fun r i s hs => ?_
  split <;> simp [hs]

theorem keeps_execHello (r : BciReq) (s : State) : Keeps s.base (execHello r s) := by
  unfold execHello
  refine keeps_bciServe rfl fun r i s hs => ?_
  dsimp only
  (repeat' split) <;> simp [hs]

theorem keeps_execOpStatus (r : BciReq) (s : State) : Keeps s.base (execOpStatus r s) := by
  unfold execOpStatus
  refine keeps_bciServe rfl fun r i s hs => ?_
  dsimp only
  (repeat' split) <;> simp [hs]

theorem keeps_execConfigSet (r : BciReq) (s : State) : Keeps s.base (execConfigSet r s) := by
  unfold execConfigSet
  refine keeps_bciServe rfl fun r i s hs => ?_
  dsimp only
  (repeat' split) <;> simp [hs, ↓State.base_mk]

theorem keeps_execConfigGet (r : BciReq) (s : State) : Keeps s.base (execConfigGet r s) := by
  unfold execConfigGet
  refine keeps_bciServe rfl fun r i s hs => ?_
  split <;> simp [hs]

theorem keeps_execNoticeRingSet (r : BciReq) (s : State) : Keeps s.base (execNoticeRingSet r s) := by
  unfold execNoticeRingSet
  refine keeps_bciServe rfl fun r i s hs => ?_
  dsimp only
  (repeat' split) <;> simp [hs, ↓State.base_mk]

theorem keeps_execDeadlineExpiry (id : Nat) (s : State) : Keeps s.base (execDeadlineExpiry id s) := by
  unfold execDeadlineExpiry
  refine keeps_whenUp rfl ?_
  dsimp only
  (repeat' split) <;> simp

theorem keeps_execWatchdogExpiry (s : State) : Keeps s.base (execWatchdogExpiry s) := by
  unfold execWatchdogExpiry
  refine keeps_whenUp rfl ?_
  simp

theorem keeps_execBasecampEccError (s : State) : Keeps s.base (execBasecampEccError s) := by
  unfold execBasecampEccError
  refine keeps_whenUp rfl ?_
  dsimp only
  simp

theorem keeps_execSwitchoverEnd (s : State) : Keeps s.base (execSwitchoverEnd s) := by
  unfold execSwitchoverEnd
  refine keeps_whenUp rfl ?_
  dsimp only
  (repeat' split) <;> simp [↓State.base_mk]

theorem keeps_execFwStage (r : BciReq) (s : State) : Keeps s.base (execFwStage r s) := by
  unfold execFwStage
  refine keeps_bciServe rfl fun r i s hs => ?_
  split
  · simp [hs]
  · split
    · simp [hs]
    · refine keeps_onRegion hs (fun t st => State.base_refuse ..) fun rid rg => ?_
      dsimp only
      split <;> simp [hs, ↓State.base_mk]

theorem keeps_execFwActivate (r : BciReq) (s : State) : Keeps s.base (execFwActivate r s) := by
  unfold execFwActivate
  refine keeps_bciServe rfl fun r i s hs => ?_
  dsimp only
  (repeat' split) <;> simp [hs, ↓State.base_mk]

theorem keeps_execFwInfo (r : BciReq) (s : State) : Keeps s.base (execFwInfo r s) := by
  unfold execFwInfo
  refine keeps_bciServe rfl fun r i s hs => ?_
  dsimp only
  simp [hs]

theorem keeps_execRopeSet (r : BciReq) (s : State) : Keeps s.base (execRopeSet r s) := by
  unfold execRopeSet
  refine keeps_bciServe rfl fun r i s hs => ?_
  dsimp only
  split
  · simp [hs]
  · refine keeps_onRegion hs (fun t st => State.base_refuse ..) fun rid rg => ?_
    (repeat' split) <;> simp [hs]

theorem keeps_execRopeAgentAdd (r : BciReq) (s : State) : Keeps s.base (execRopeAgentAdd r s) := by
  unfold execRopeAgentAdd
  refine keeps_bciServe rfl fun r i s hs => ?_
  dsimp only
  (repeat' split) <;> simp [hs, ↓State.base_mk]

theorem keeps_execRopeAgentRemove (r : BciReq) (s : State) : Keeps s.base (execRopeAgentRemove r s) := by
  unfold execRopeAgentRemove
  refine keeps_bciServe rfl fun r i s hs => ?_
  dsimp only
  (repeat' split) <;> simp [hs, ↓State.base_mk]

theorem keeps_execFence (r : BciReq) (s : State) : Keeps s.base (execFence r s) := by
  unfold execFence
  refine keeps_bciServe rfl fun r i s hs => ?_
  simp [hs]

theorem keeps_execErrlogRead (r : BciReq) (s : State) : Keeps s.base (execErrlogRead r s) := by
  unfold execErrlogRead
  refine keeps_bciServe rfl fun r i s hs => ?_
  split
  · simp [hs]
  · exact keeps_copyOut hs fun t => rfl

theorem keeps_execHealthRead (r : BciReq) (s : State) : Keeps s.base (execHealthRead r s) := by
  unfold execHealthRead
  refine keeps_bciServe rfl fun r i s hs => ?_
  refine keeps_copyOut hs fun t => ?_
  simp [hs]

theorem keeps_execHealthUpdate (hw : Nat) (tempC : Nat) (volt : Nat) (s : State) : Keeps s.base (execHealthUpdate hw tempC volt s) := by
  unfold execHealthUpdate
  refine keeps_whenUp rfl ?_
  dsimp only
  split <;> simp

theorem keeps_execRelSet (r : BciReq) (s : State) : Keeps s.base (execRelSet r s) := by
  unfold execRelSet
  refine keeps_bciServe rfl fun r i s hs => ?_
  dsimp only
  (repeat' split) <;> simp [hs, ↓State.base_mk]

theorem keeps_execRelGet (r : BciReq) (s : State) : Keeps s.base (execRelGet r s) := by
  unfold execRelGet
  refine keeps_bciServe rfl fun r i s hs => ?_
  split <;> simp [hs]

theorem keeps_execKat (hw : Nat) (res : KatResult) (s : State) : Keeps s.base (execKat hw res s) := by
  unfold execKat
  refine keeps_whenUp rfl ?_
  dsimp only
  (repeat' split) <;> simp

theorem keeps_execQuarantine (r : BciReq) (s : State) : Keeps s.base (execQuarantine r s) := by
  unfold execQuarantine
  refine keeps_bciServe rfl fun r i s hs => ?_
  dsimp only
  simp [hs]

theorem keeps_execQuarantineRelease (r : BciReq) (s : State) : Keeps s.base (execQuarantineRelease r s) := by
  unfold execQuarantineRelease
  refine keeps_bciServe rfl fun r i s hs => ?_
  dsimp only
  (repeat' split) <;> simp [hs, ↓State.base_mk]

theorem keeps_execQuarantineEffect (hw : Nat) (s : State) : Keeps s.base (execQuarantineEffect hw s) := by
  unfold execQuarantineEffect
  refine keeps_whenUp rfl ?_
  dsimp only
  (repeat' split) <;> simp

theorem keeps_execPartFailed (part : Part) (loc : Nat) (s : State) : Keeps s.base (execPartFailed part loc s) := by
  unfold execPartFailed
  refine keeps_whenUp rfl ?_
  split <;> simp

theorem keeps_execSpareSet (r : BciReq) (s : State) : Keeps s.base (execSpareSet r s) := by
  unfold execSpareSet
  refine keeps_bciServe rfl fun r i s hs => ?_
  dsimp only
  (repeat' split) <;> simp [hs, ↓State.base_mk]

theorem keeps_execRebuildStart (r : BciReq) (s : State) : Keeps s.base (execRebuildStart r s) := by
  unfold execRebuildStart
  refine keeps_bciServe rfl fun r i s hs => ?_
  (repeat' split) <;> simp [hs]

theorem keeps_execRebuildEnd (id : Nat) (spareFailed : Bool) (s : State) : Keeps s.base (execRebuildEnd id spareFailed s) := by
  unfold execRebuildEnd
  refine keeps_whenUp rfl ?_
  dsimp only
  split
  · simp
  · split
    · rw [keeps_next, State.base_noSpare, State.base_waitRebuild]
      split <;> split <;> simp [↓State.base_partRecord, ↓State.base_mk]
    · (repeat' split) <;> simp [↓State.base_mk]

theorem keeps_execHeartbeatSend (s : State) : Keeps s.base (execHeartbeatSend s) := by
  unfold execHeartbeatSend
  refine keeps_whenUp rfl ?_
  dsimp only
  (repeat' split) <;> simp [↓State.base_mk, State.base_foldl, apply_ite State.base]

theorem keeps_execHeartbeat (eid : Nat) (inc : Nat) (ftime : Nat) (s : State) : Keeps s.base (execHeartbeat eid inc ftime s) := by
  unfold execHeartbeat
  refine keeps_whenUp rfl ?_
  dsimp only
  (repeat' split) <;> simp

theorem keeps_execSuspect (eid : Nat) (s : State) : Keeps s.base (execSuspect eid s) := by
  unfold execSuspect
  refine keeps_whenUp rfl ?_
  dsimp only
  split <;> simp

theorem keeps_execLeaseExpiry (eid : Nat) (s : State) : Keeps s.base (execLeaseExpiry eid s) := by
  unfold execLeaseExpiry
  refine keeps_whenUp rfl ?_
  dsimp only
  split <;> simp

theorem keeps_execDieLoss (s : State) : Keeps s.base (execDieLoss s) := by
  unfold execDieLoss
  refine keeps_whenUp rfl ?_
  simp

theorem keeps_execTakeover (r : BciReq) (s : State) : Keeps s.base (execTakeover r s) := by
  unfold execTakeover
  refine keeps_bciServe rfl fun r i s hs => ?_
  dsimp only
  (repeat' split) <;> simp [hs, ↓State.base_mk]

theorem keeps_execTakeoverWaitEnd (id : Nat) (s : State) : Keeps s.base (execTakeoverWaitEnd id s) := by
  unfold execTakeoverWaitEnd
  refine keeps_whenUp rfl ?_
  dsimp only
  (repeat' split) <;> simp [↓State.base_mk, State.base_foldl, apply_ite State.base]

theorem keeps_execJournalClaim (r : BciReq) (s : State) : Keeps s.base (execJournalClaim r s) := by
  unfold execJournalClaim
  refine keeps_bciServe rfl fun r i s hs => ?_
  exact keeps_journalStep hs

theorem keeps_execJournalOffer (r : BciReq) (s : State) : Keeps s.base (execJournalOffer r s) := by
  unfold execJournalOffer
  refine keeps_bciServe rfl fun r i s hs => ?_
  exact keeps_journalStep hs

theorem keeps_execJournalAccept (r : BciReq) (s : State) : Keeps s.base (execJournalAccept r s) := by
  unfold execJournalAccept
  refine keeps_bciServe rfl fun r i s hs => ?_
  exact keeps_journalStep hs

theorem keeps_execJournalRelease (r : BciReq) (s : State) : Keeps s.base (execJournalRelease r s) := by
  unfold execJournalRelease
  refine keeps_bciServe rfl fun r i s hs => ?_
  exact keeps_journalStep hs

theorem keeps_execJournalQuery (r : BciReq) (s : State) : Keeps s.base (execJournalQuery r s) := by
  unfold execJournalQuery
  refine keeps_bciServe rfl fun r i s hs => ?_
  refine keeps_onKey hs (by simp) fun rid rg => ?_
  split <;> simp [hs]

theorem keeps_execJournalAssign (r : BciReq) (s : State) : Keeps s.base (execJournalAssign r s) := by
  unfold execJournalAssign
  refine keeps_bciServe rfl fun r i s hs => ?_
  refine keeps_named hs fun rid rg => ?_
  (repeat' split) <;> simp [hs]

theorem keeps_execCntRead (r : BciReq) (s : State) : Keeps s.base (execCntRead r s) := by
  unfold execCntRead
  refine keeps_bciServe rfl fun r i s hs => ?_
  refine keeps_ite (by simp [hs]) (keeps_ite (by simp [hs]) (keeps_ite ?_ ?_))
  · refine keeps_copyOut hs fun t => ?_
    (repeat' split) <;> rfl
  · split
    · simp [hs]
    · refine keeps_copyOut hs fun t => ?_
      (repeat' split) <;> rfl

theorem keeps_execCntMode (r : BciReq) (s : State) : Keeps s.base (execCntMode r s) := by
  unfold execCntMode
  refine keeps_bciServe rfl fun r i s hs => ?_
  dsimp only
  simp [hs, ↓State.base_mk]

theorem keeps_execCntReset (r : BciReq) (s : State) : Keeps s.base (execCntReset r s) := by
  unfold execCntReset
  refine keeps_bciServe rfl fun r i s hs => ?_
  dsimp only
  (repeat' split) <;> simp [hs, ↓State.base_mk]

theorem keeps_execCntSnapshot (r : BciReq) (s : State) : Keeps s.base (execCntSnapshot r s) := by
  unfold execCntSnapshot
  refine keeps_bciServe rfl fun r i s hs => ?_
  dsimp only
  simp [hs, ↓State.base_mk]

theorem keeps_execCntFreeze (r : BciReq) (s : State) : Keeps s.base (execCntFreeze r s) := by
  unfold execCntFreeze
  refine keeps_bciServe rfl fun r i s hs => ?_
  dsimp only
  simp [hs, ↓State.base_mk]

theorem keeps_execCntUnfreeze (r : BciReq) (s : State) : Keeps s.base (execCntUnfreeze r s) := by
  unfold execCntUnfreeze
  refine keeps_bciServe rfl fun r i s hs => ?_
  dsimp only
  simp [hs, ↓State.base_mk]

theorem keeps_execCntCtxSet (r : BciReq) (s : State) : Keeps s.base (execCntCtxSet r s) := by
  unfold execCntCtxSet
  refine keeps_bciServe rfl fun r i s hs => ?_
  dsimp only
  (repeat' split) <;> simp [hs, ↓State.base_mk]

theorem keeps_execBwRead (r : BciReq) (s : State) : Keeps s.base (execBwRead r s) := by
  unfold execBwRead
  refine keeps_bciServe rfl fun r i s hs => ?_
  split
  · simp [hs]
  · exact keeps_copyOut hs fun t => rfl

theorem keeps_execBwWindowEnd (bport : Nat) (rx : Nat) (tx : Nat) (partialDown : Bool) (s : State) : Keeps s.base (execBwWindowEnd bport rx tx partialDown s) := by
  unfold execBwWindowEnd
  refine keeps_whenUp rfl ?_
  dsimp only
  (repeat' split) <;> simp [↓State.base_mk]

theorem keeps_execCrnRead (r : BciReq) (s : State) : Keeps s.base (execCrnRead r s) := by
  unfold execCrnRead
  refine keeps_bciServe rfl fun r i s hs => ?_
  dsimp only
  refine keeps_copyOut hs fun t => ?_
  simp [hs]

theorem keeps_execCrnSelWrite (w : Word) (s : State) : Keeps s.base (execCrnSelWrite w s) := by
  unfold execCrnSelWrite
  split <;> simp

theorem keeps_execTrcSet (r : BciReq) (s : State) : Keeps s.base (execTrcSet r s) := by
  unfold execTrcSet
  refine keeps_bciServe rfl fun r i s hs => ?_
  dsimp only
  split
  · simp [hs]
  · split
    · simp [hs]
    · split
      · simp [hs]
      · refine keeps_onRegion hs (fun t st => State.base_refuse ..) fun rid rg => ?_
        split <;> simp [hs]

theorem keeps_execPartnerRead (r : BciReq) (s : State) : Keeps s.base (execPartnerRead r s) := by
  unfold execPartnerRead
  refine keeps_bciServe rfl fun r i s hs => ?_
  split
  · simp [hs]
  · exact keeps_copyOut hs fun t => rfl

theorem keeps_execLinkAdv (lport : Nat) (eid : Nat) (inc : Nat) (verMask : Nat) (width : Nat) (role : Nat) (s : State) : Keeps s.base (execLinkAdv lport eid inc verMask width role s) := by
  unfold execLinkAdv
  refine keeps_whenUp rfl ?_
  dsimp only
  (repeat' split) <;> simp

theorem keeps_execLinkStepTimeout (lport : Nat) (s : State) : Keeps s.base (execLinkStepTimeout lport s) := by
  unfold execLinkStepTimeout
  refine keeps_whenUp rfl ?_
  dsimp only
  split <;> simp

theorem keeps_execLinkRetryTimer (lport : Nat) (s : State) : Keeps s.base (execLinkRetryTimer lport s) := by
  unfold execLinkRetryTimer
  refine keeps_whenUp rfl ?_
  dsimp only
  split <;> simp

theorem keeps_execLinkDown (lport : Nat) (s : State) : Keeps s.base (execLinkDown lport s) := by
  unfold execLinkDown
  refine keeps_whenUp rfl ?_
  split <;> simp

theorem keeps_execFlitAckTimeout (lport : Nat) (s : State) : Keeps s.base (execFlitAckTimeout lport s) := by
  unfold execFlitAckTimeout
  refine keeps_whenUp rfl ?_
  split <;> simp

theorem keeps_execFlitReplay (lport : Nat) (seq : Nat) (s : State) : Keeps s.base (execFlitReplay lport seq s) := by
  unfold execFlitReplay
  refine keeps_whenUp rfl ?_
  dsimp only
  split <;> simp

theorem keeps_execFlitCrcFailure (lport : Nat) (seq : Nat) (s : State) : Keeps s.base (execFlitCrcFailure lport seq s) := by
  unfold execFlitCrcFailure
  refine keeps_whenUp rfl ?_
  dsimp only
  split <;> simp

theorem keeps_execJoin (fm : Nat) (eid : Nat) (inc : Nat) (ver : Nat) (role : Nat) (lport : Nat) (sealed : Bool) (s : State) : Keeps s.base (execJoin fm eid inc ver role lport sealed s) := by
  unfold execJoin
  refine keeps_whenUp rfl ?_
  dsimp only
  (repeat' split) <;> simp [↓State.base_mk]

theorem keeps_execLeave (fm : Nat) (eid : Nat) (inc : Nat) (sealed : Bool) (s : State) : Keeps s.base (execLeave fm eid inc sealed s) := by
  unfold execLeave
  refine keeps_whenUp rfl ?_
  dsimp only
  (repeat' split) <;> simp [↓State.base_mk]

theorem keeps_execLmfCompletion (tag : Nat) (gen : Nat) (st : Status) (data : Bytes) (sealOk : Bool) (s : State) : Keeps s.base (execLmfCompletion tag gen st data sealOk s) := by
  unfold execLmfCompletion
  refine keeps_whenUp rfl ?_
  dsimp only
  (repeat' split) <;> simp [↓State.base_mk]

theorem keeps_execTransactionTimeout (tag : Nat) (s : State) : Keeps s.base (execTransactionTimeout tag s) := by
  unfold execTransactionTimeout
  refine keeps_whenUp rfl ?_
  dsimp only
  (repeat' split) <;> simp [↓State.base_mk]

theorem keeps_execMgmtFrame (mport : Nat) (svc : MgmtService) (s : State) : Keeps s.base (execMgmtFrame mport svc s) := by
  unfold execMgmtFrame
  refine keeps_whenUp rfl ?_
  dsimp only
  (repeat' split) <;> simp [↓State.base_mk]

theorem keeps_execGateTimeout (d : Domain) (s : State) : Keeps s.base (execGateTimeout d s) := by
  unfold execGateTimeout
  refine keeps_whenUp rfl ?_
  dsimp only
  (repeat' split) <;> simp

theorem keeps_execOffTimeout (d : Domain) (s : State) : Keeps s.base (execOffTimeout d s) := by
  unfold execOffTimeout
  refine keeps_whenUp rfl ?_
  dsimp only
  split <;> simp

theorem keeps_execDomainWake (d : Domain) (s : State) : Keeps s.base (execDomainWake d s) := by
  unfold execDomainWake
  refine keeps_whenUp rfl ?_
  dsimp only
  split <;> simp

theorem keeps_execDomainOn (d : Domain) (s : State) : Keeps s.base (execDomainOn d s) := by
  unfold execDomainOn
  refine keeps_whenUp rfl ?_
  dsimp only
  (repeat' split) <;> simp

theorem keeps_execStretchEpisodeEnd (hw : Nat) (start : Nat) (stop : Nat) (s : State) : Keeps s.base (execStretchEpisodeEnd hw start stop s) := by
  unfold execStretchEpisodeEnd
  refine keeps_whenUp rfl ?_
  dsimp only
  (repeat' split) <;> simp [↓State.base_mk]

theorem keeps_execBivouacEntry (s : State) : Keeps s.base (execBivouacEntry s) := by
  unfold execBivouacEntry
  refine keeps_whenUp rfl ?_
  dsimp only
  (repeat' split) <;> simp [↓State.base_mk]

theorem keeps_execBivouacExit (s : State) : Keeps s.base (execBivouacExit s) := by
  unfold execBivouacExit
  refine keeps_whenUp rfl ?_
  simp

theorem keeps_execPowerWindow (meanW : Nat) (tjE : ℤ) (tjW : ℤ) (s : State) : Keeps s.base (execPowerWindow meanW tjE tjW s) := by
  unfold execPowerWindow
  refine keeps_whenUp rfl ?_
  dsimp only
  simp [↓State.base_mk]

theorem keeps_execGo (port : Nat) (fn : Nat) (s : State) : Keeps s.base (execGo port fn s) := by
  unfold execGo
  refine keeps_whenUp rfl ?_
  simp

theorem keeps_execMbxMsgWrite (port : Nat) (fn : Nat) (n : Nat) (w : Word) (s : State) : Keeps s.base (execMbxMsgWrite port fn n w s) := by
  unfold execMbxMsgWrite
  refine keeps_whenUp rfl ?_
  simp

theorem keeps_execWake (port : Nat) (fn : Nat) (w : Word) (s : State) : Keeps s.base (execWake port fn w s) := by
  unfold execWake
  refine keeps_whenUp rfl ?_
  simp

theorem keeps_execCqTail (port : Nat) (fn : Nat) (w : Word) (s : State) : Keeps s.base (execCqTail port fn w s) := by
  unfold execCqTail
  refine keeps_whenUp rfl ?_
  simp

theorem keeps_execCqEnable (port : Nat) (s : State) : Keeps s.base (execCqEnable port s) := by
  unfold execCqEnable
  refine keeps_whenUp rfl ?_
  simp

theorem keeps_execCqDisable (port : Nat) (s : State) : Keeps s.base (execCqDisable port s) := by
  unfold execCqDisable
  refine keeps_whenUp rfl ?_
  simp

theorem keeps_execCqEnApply (port : Nat) (s : State) : Keeps s.base (execCqEnApply port s) := by
  unfold execCqEnApply
  refine keeps_whenUp rfl ?_
  dsimp only
  (repeat' split) <;> simp

theorem State.base_of_queueRead {s t : State} {p : Nat} {i : Issuer} {key off n : Nat} {ws : List Word} (h : s.queueRead p i key off n = .ok (t, ws)) : t.base = s.base := by
  unfold State.queueRead at h
  dsimp only at h
  (repeat' split at h) <;> cases h
  simp

theorem State.base_of_queueRead_error {s t : State} {p : Nat} {i : Issuer} {key off n : Nat} (h : s.queueRead p i key off n = .error t) : t.base = s.base := by
  unfold State.queueRead at h
  dsimp only at h
  (repeat' split at h) <;> cases h
  all_goals (try simp)
  all_goals exact State.base_of_holdOn (by assumption)

theorem keeps_execCqEntryTake (port : Nat) (s : State) : Keeps s.base (execCqEntryTake port s) := by
  unfold execCqEntryTake
  refine keeps_whenUp rfl ?_
  dsimp only
  split
  · simp
  · split
    · simp
    · split
      · simp
      · split
        · exact keeps_next.2 (State.base_of_queueRead_error ‹_›)
        · have ht := State.base_of_queueRead ‹_›
          split
          · simp [ht]
          · split
            · simp [State.base_of_queueRead_error ‹_›, ht]
            · have hu := (State.base_of_queueRead ‹_›).trans ht
              split <;> simp [hu]

theorem keeps_execReadClear (sp : RegSpace) (off : Nat) (newEvent : Word) (s : State) : Keeps s.base (execReadClear sp off newEvent s) := by
  unfold execReadClear
  split <;> simp

theorem keeps_execRegisterWrite (sp : RegSpace) (off : Nat) (w : Word) (s : State) : Keeps s.base (execRegisterWrite sp off w s) := by
  unfold execRegisterWrite
  split <;> simp

theorem keeps_execFlr (port : Nat) (fn : Nat) (s : State) : Keeps s.base (execFlr port fn s) := by
  unfold execFlr
  refine keeps_whenUp rfl ?_
  (repeat' split) <;> simp

theorem keeps_execVfEnable (port : Nat) (count : Nat) (s : State) : Keeps s.base (execVfEnable port count s) := by
  unfold execVfEnable
  refine keeps_whenUp rfl ?_
  dsimp only
  (repeat' split) <;> simp [↓State.base_mk, State.base_foldl, apply_ite State.base]

theorem keeps_execVfDisable (port : Nat) (s : State) : Keeps s.base (execVfDisable port s) := by
  unfold execVfDisable
  refine keeps_whenUp rfl ?_
  split <;> simp

theorem keeps_execHostLinkLoss (port : Nat) (s : State) : Keeps s.base (execHostLinkLoss port s) := by
  unfold execHostLinkLoss
  refine keeps_whenUp rfl ?_
  simp

theorem keeps_execHostLinkUp (port : Nat) (pcie : Bool) (s : State) : Keeps s.base (execHostLinkUp port pcie s) := by
  unfold execHostLinkUp
  refine keeps_whenUp rfl ?_
  dsimp only
  split <;> simp

theorem keeps_execHptPerst (port : Nat) (s : State) : Keeps s.base (execHptPerst port s) := by
  unfold execHptPerst
  refine keeps_whenUp rfl ?_
  simp

theorem keeps_execHptRefclkLoss (port : Nat) (s : State) : Keeps s.base (execHptRefclkLoss port s) := by
  unfold execHptRefclkLoss
  refine keeps_whenUp rfl ?_
  dsimp only
  simp

theorem keeps_execHdmCommit (port : Nat) (dec : Nat) (hpaBase : Nat) (size : Nat) (ways : Nat) (s : State) : Keeps s.base (execHdmCommit port dec hpaBase size ways s) := by
  unfold execHdmCommit
  refine keeps_whenUp rfl ?_
  dsimp only
  (repeat' split) <;> simp

theorem keeps_execHdmUncommit (port : Nat) (dec : Nat) (s : State) : Keeps s.base (execHdmUncommit port dec s) := by
  unfold execHdmUncommit
  refine keeps_whenUp rfl ?_
  dsimp only
  (repeat' split) <;> simp

theorem keeps_execMemoryDeviceMailbox (port : Nat) (opcode : Nat) (payload : Bytes) (s : State) : Keeps s.base (execMemoryDeviceMailbox port opcode payload s) := by
  unfold execMemoryDeviceMailbox
  refine keeps_whenUp rfl ?_
  split <;> simp

theorem keeps_execDoeRequest (port : Nat) (kind : Nat) (s : State) : Keeps s.base (execDoeRequest port kind s) := by
  unfold execDoeRequest
  refine keeps_whenUp rfl ?_
  split <;> simp

theorem keeps_execDrivePresenceChange (slot : Nat) (present : Bool) (s : State) : Keeps s.base (execDrivePresenceChange slot present s) := by
  unfold execDrivePresenceChange
  refine keeps_whenUp rfl ?_
  dsimp only
  (repeat' split) <;> simp [↓State.base_mk]

theorem keeps_execDriveAdmission (slot : Nat) (capacity : Nat) (formatOk : Bool) (s : State) : Keeps s.base (execDriveAdmission slot capacity formatOk s) := by
  unfold execDriveAdmission
  refine keeps_whenUp rfl ?_
  dsimp only
  (repeat' split) <;> simp [↓State.base_mk]

theorem keeps_execAsyncEvent (slot : Nat) (failure : Bool) (s : State) : Keeps s.base (execAsyncEvent slot failure s) := by
  unfold execAsyncEvent
  refine keeps_whenUp rfl ?_
  dsimp only
  (repeat' split) <;> simp

theorem keeps_execDriveLinkLoss (slot : Nat) (s : State) : Keeps s.base (execDriveLinkLoss slot s) := by
  unfold execDriveLinkLoss
  refine keeps_whenUp rfl ?_
  simp

theorem keeps_execDimmTemp (ch : Nat) (dimm : Nat) (hot : Bool) (s : State) : Keeps s.base (execDimmTemp ch dimm hot s) := by
  unfold execDimmTemp
  refine keeps_whenUp rfl ?_
  dsimp only
  simp [↓State.base_mk]

theorem keeps_execTimeSyncSend (lport : Nat) (s : State) : Keeps s.base (execTimeSyncSend lport s) := by
  unfold execTimeSyncSend
  refine keeps_whenUp rfl ?_
  dsimp only
  (repeat' split) <;> simp [↓State.base_mk]

theorem keeps_execTimeSync (lport : Nat) (seq : Nat) (t1 : Nat) (arrival : Nat) (s : State) : Keeps s.base (execTimeSync lport seq t1 arrival s) := by
  unfold execTimeSync
  refine keeps_whenUp rfl ?_
  dsimp only
  split <;> simp

theorem keeps_execHoldoverEntry (s : State) : Keeps s.base (execHoldoverEntry s) := by
  unfold execHoldoverEntry
  refine keeps_whenUp rfl ?_
  dsimp only
  (repeat' split) <;> simp [↓State.base_mk]

theorem keeps_execPtpFallback (s : State) : Keeps s.base (execPtpFallback s) := by
  unfold execPtpFallback
  refine keeps_whenUp rfl ?_
  dsimp only
  (repeat' split) <;> simp [↓State.base_mk]

theorem keeps_execAnnounce (mport : Nat) (domain : Nat) (steps : Nat) (s : State) : Keeps s.base (execAnnounce mport domain steps s) := by
  unfold execAnnounce
  refine keeps_onPtp rfl ?_
  simp [↓State.base_mk]

theorem keeps_execSync (mport : Nat) (domain : Nat) (seq : Nat) (origin : Nat) (arrival : Nat) (twoStep : Bool) (s : State) : Keeps s.base (execSync mport domain seq origin arrival twoStep s) := by
  unfold execSync
  refine keeps_onPtp rfl ?_
  simp [↓State.base_mk]

theorem keeps_execFollowUp (mport : Nat) (domain : Nat) (seq : Nat) (origin : Nat) (s : State) : Keeps s.base (execFollowUp mport domain seq origin s) := by
  unfold execFollowUp
  refine keeps_onPtp rfl ?_
  (repeat' split) <;> simp [↓State.base_mk]

theorem keeps_execDelayReq (mport : Nat) (domain : Nat) (seq : Nat) (departure : Nat) (s : State) : Keeps s.base (execDelayReq mport domain seq departure s) := by
  unfold execDelayReq
  refine keeps_onPtp rfl ?_
  simp [↓State.base_mk]

theorem keeps_execGetVersion (peer : Peer) (s : State) : Keeps s.base (execGetVersion peer s) := by
  unfold execGetVersion
  refine keeps_whenUp rfl ?_
  dsimp only
  simp

theorem keeps_execGetCapabilities (peer : Peer) (s : State) : Keeps s.base (execGetCapabilities peer s) := by
  unfold execGetCapabilities
  refine keeps_whenUp rfl ?_
  dsimp only
  split <;> simp

theorem keeps_execNegotiateAlgorithms (peer : Peer) (offer : SpdmAlgorithms) (s : State) : Keeps s.base (execNegotiateAlgorithms peer offer s) := by
  unfold execNegotiateAlgorithms
  refine keeps_whenUp rfl ?_
  dsimp only
  split <;> simp

theorem keeps_execGetDigests (peer : Peer) (s : State) : Keeps s.base (execGetDigests peer s) := by
  unfold execGetDigests
  refine keeps_whenUp rfl ?_
  split <;> simp

theorem keeps_execGetCertificate (peer : Peer) (slot : Nat) (s : State) : Keeps s.base (execGetCertificate peer slot s) := by
  unfold execGetCertificate
  refine keeps_whenUp rfl ?_
  (repeat' split) <;> simp

theorem keeps_execChallenge (peer : Peer) (slot : Nat) (s : State) : Keeps s.base (execChallenge peer slot s) := by
  unfold execChallenge
  refine keeps_whenUp rfl ?_
  dsimp only
  (repeat' split) <;> simp

theorem keeps_execGetMeasurements (peer : Peer) (index : Nat) (nonce : Nat) (s : State) : Keeps s.base (execGetMeasurements peer index nonce s) := by
  unfold execGetMeasurements
  refine keeps_whenUp rfl ?_
  dsimp only
  (repeat' split) <;> simp

theorem keeps_execKeyExchange (peer : Peer) (share : Nat) (s : State) : Keeps s.base (execKeyExchange peer share s) := by
  unfold execKeyExchange
  refine keeps_whenUp rfl ?_
  dsimp only
  (repeat' split) <;> simp [↓State.base_mk]

theorem keeps_execFinish (peer : Peer) (mutualAuth : Bool) (anchorOk : Bool) (s : State) : Keeps s.base (execFinish peer mutualAuth anchorOk s) := by
  unfold execFinish
  refine keeps_whenUp rfl ?_
  dsimp only
  (repeat' split) <;> simp

theorem keeps_execKeyExchangeRsp (peer : Peer) (chainOk : Bool) (sigOk : Bool) (mutualAuth : Bool) (s : State) : Keeps s.base (execKeyExchangeRsp peer chainOk sigOk mutualAuth s) := by
  unfold execKeyExchangeRsp
  refine keeps_whenUp rfl ?_
  dsimp only
  (repeat' split) <;> simp [↓State.base_mk]

theorem keeps_execFinishRsp (peer : Peer) (s : State) : Keeps s.base (execFinishRsp peer s) := by
  unfold execFinishRsp
  refine keeps_whenUp rfl ?_
  dsimp only
  split <;> simp

theorem keeps_execSessionEnd (peer : Peer) (s : State) : Keeps s.base (execSessionEnd peer s) := by
  unfold execSessionEnd
  refine keeps_whenUp rfl ?_
  dsimp only
  (repeat' split) <;> simp [↓State.base_mk]

theorem keeps_execTransportKeyRetire (idx : Nat) (s : State) : Keeps s.base (execTransportKeyRetire idx s) := by
  unfold execTransportKeyRetire
  refine keeps_whenUp rfl ?_
  (repeat' split) <;> simp

theorem keeps_execRailPgTimeout (rail : Nat) (die : Nat) (s : State) : Keeps s.base (execRailPgTimeout rail die s) := by
  unfold execRailPgTimeout
  (repeat' split) <;> simp [↓State.base_mk]

theorem keeps_execRailFault (rail : Nat) (die : Nat) (below85 : Bool) (s : State) : Keeps s.base (execRailFault rail die below85 s) := by
  unfold execRailFault
  (repeat' split) <;> simp [↓State.base_mk]

theorem keeps_execRefclkLoss (_die : Nat) (s : State) : Keeps s.base (execRefclkLoss _die s) := by
  unfold execRefclkLoss
  split <;> simp

theorem keeps_execThermtrip (s : State) : Keeps s.base (execThermtrip s) := by
  unfold execThermtrip
  refine keeps_ite (keeps_next.2 ?_) (by simp)
  exact (State.base_emit ..).trans ((State.base_mk (s := s.failStop 7) rfl rfl rfl rfl rfl rfl rfl rfl rfl).trans (State.base_failStop ..))

theorem keeps_execTrst (s : State) : Keeps s.base (execTrst s) := by
  unfold execTrst
  simp [↓State.base_mk]

theorem keeps_execIdcode (s : State) : Keeps s.base (execIdcode s) := by
  unfold execIdcode
  simp

theorem keeps_execSamplePreload (cells : Nat) (s : State) : Keeps s.base (execSamplePreload cells s) := by
  unfold execSamplePreload
  simp

theorem keeps_execExtest (cells : Nat) (s : State) : Keeps s.base (execExtest cells s) := by
  unfold execExtest
  simp

theorem keeps_execClamp (s : State) : Keeps s.base (execClamp s) := by
  unfold execClamp
  simp

theorem keeps_execHighz (s : State) : Keeps s.base (execHighz s) := by
  unfold execHighz
  simp

theorem keeps_execExtestPulse (s : State) : Keeps s.base (execExtestPulse s) := by
  unfold execExtestPulse
  simp

theorem keeps_execExtestTrain (s : State) : Keeps s.base (execExtestTrain s) := by
  unfold execExtestTrain
  simp

theorem keeps_execBypass (code : Nat) (s : State) : Keeps s.base (execBypass code s) := by
  unfold execBypass
  split <;> simp

theorem keeps_execSetdasa (target : Nat) (addr : Nat) (s : State) : Keeps s.base (execSetdasa target addr s) := by
  unfold execSetdasa
  simp

theorem keeps_execEntdaa (target : Nat) (addr : Nat) (s : State) : Keeps s.base (execEntdaa target addr s) := by
  unfold execEntdaa
  simp

theorem keeps_execRegRead (off : Nat) (s : State) : Keeps s.base (execRegRead off s) := by
  unfold execRegRead
  (repeat' split) <;> simp

theorem keeps_execRegWrite (off : Nat) (w : Word) (s : State) : Keeps s.base (execRegWrite off w s) := by
  unfold execRegWrite
  (repeat' split) <;> simp

theorem keeps_execStoreWrite (addr : Nat) (data : Bytes) (s : State) : Keeps s.base (execStoreWrite addr data s) := by
  unfold execStoreWrite
  (repeat' split) <;> simp [↓State.base_mk]

theorem keeps_execStoreRead (addr : Nat) (s : State) : Keeps s.base (execStoreRead addr s) := by
  unfold execStoreRead
  (repeat' split) <;> simp [↓State.base_mk]

theorem keeps_execStoreStatus (s : State) : Keeps s.base (execStoreStatus s) := by
  unfold execStoreStatus
  split <;> simp

theorem keeps_execNop (h : SlotHdr) (s : State) : Keeps s.base (execNop h s) := by
  unfold execNop
  refine keeps_slotRun rfl fun h k r q t => ?_
  simp

theorem keeps_scalarSet (cmd : Instr) (rd : Nat) (s : State) (val : RegFile → BitVec 64) : Keeps s.base (scalarSet cmd rd s val) := by
  unfold scalarSet
  refine keeps_slotRun rfl fun h k r q t => ?_
  simp

theorem keeps_execAdd (h : SlotHdr) (f : SFmt) (s : State) : Keeps s.base (execAdd h f s) := by
  unfold execAdd
  exact keeps_scalarSet ..

theorem keeps_execSub (h : SlotHdr) (f : SFmt) (s : State) : Keeps s.base (execSub h f s) := by
  unfold execSub
  exact keeps_scalarSet ..

theorem keeps_execAddi (h : SlotHdr) (f : SFmt) (s : State) : Keeps s.base (execAddi h f s) := by
  unfold execAddi
  exact keeps_scalarSet ..

theorem keeps_execLi (h : SlotHdr) (f : SFmt) (s : State) : Keeps s.base (execLi h f s) := by
  unfold execLi
  exact keeps_scalarSet ..

theorem keeps_execMul (h : SlotHdr) (f : SFmt) (s : State) : Keeps s.base (execMul h f s) := by
  unfold execMul
  exact keeps_scalarSet ..

theorem keeps_execMulh (h : SlotHdr) (f : SFmt) (s : State) : Keeps s.base (execMulh h f s) := by
  unfold execMulh
  exact keeps_scalarSet ..

theorem keeps_execMulhu (h : SlotHdr) (f : SFmt) (s : State) : Keeps s.base (execMulhu h f s) := by
  unfold execMulhu
  exact keeps_scalarSet ..

theorem keeps_execDiv (h : SlotHdr) (f : SFmt) (s : State) : Keeps s.base (execDiv h f s) := by
  unfold execDiv
  exact keeps_scalarSet ..

theorem keeps_execDivu (h : SlotHdr) (f : SFmt) (s : State) : Keeps s.base (execDivu h f s) := by
  unfold execDivu
  exact keeps_scalarSet ..

theorem keeps_execRem (h : SlotHdr) (f : SFmt) (s : State) : Keeps s.base (execRem h f s) := by
  unfold execRem
  exact keeps_scalarSet ..

theorem keeps_execAnd (h : SlotHdr) (f : SFmt) (s : State) : Keeps s.base (execAnd h f s) := by
  unfold execAnd
  exact keeps_scalarSet ..

theorem keeps_execOr (h : SlotHdr) (f : SFmt) (s : State) : Keeps s.base (execOr h f s) := by
  unfold execOr
  exact keeps_scalarSet ..

theorem keeps_execXor (h : SlotHdr) (f : SFmt) (s : State) : Keeps s.base (execXor h f s) := by
  unfold execXor
  exact keeps_scalarSet ..

theorem keeps_execShl (h : SlotHdr) (f : SFmt) (s : State) : Keeps s.base (execShl h f s) := by
  unfold execShl
  exact keeps_scalarSet ..

theorem keeps_execShr (h : SlotHdr) (f : SFmt) (s : State) : Keeps s.base (execShr h f s) := by
  unfold execShr
  exact keeps_scalarSet ..

theorem keeps_execSra (h : SlotHdr) (f : SFmt) (s : State) : Keeps s.base (execSra h f s) := by
  unfold execSra
  exact keeps_scalarSet ..

theorem keeps_execSlt (h : SlotHdr) (f : SFmt) (s : State) : Keeps s.base (execSlt h f s) := by
  unfold execSlt
  exact keeps_scalarSet ..

theorem keeps_execSltu (h : SlotHdr) (f : SFmt) (s : State) : Keeps s.base (execSltu h f s) := by
  unfold execSltu
  exact keeps_scalarSet ..

theorem keeps_execPcmp (h : SlotHdr) (f : SFmt) (s : State) : Keeps s.base (execPcmp h f s) := by
  unfold execPcmp
  refine keeps_slotRun rfl fun h k r q t => ?_
  split <;> simp

theorem keeps_execPset (h : SlotHdr) (f : SFmt) (s : State) : Keeps s.base (execPset h f s) := by
  unfold execPset
  refine keeps_slotRun rfl fun h k r q t => ?_
  dsimp only
  simp

theorem keeps_scalarFloat (cmd : Instr) (rd : Nat) (s : State) (val : RegFile → FVal × FFlags) : Keeps s.base (scalarFloat cmd rd s val) := by
  unfold scalarFloat
  refine keeps_slotRun rfl fun h k r q t => ?_
  dsimp only
  simp

theorem keeps_execFadd (h : SlotHdr) (f : SFmt) (s : State) : Keeps s.base (execFadd h f s) := by
  unfold execFadd
  exact keeps_scalarFloat ..

theorem keeps_execFmul (h : SlotHdr) (f : SFmt) (s : State) : Keeps s.base (execFmul h f s) := by
  unfold execFmul
  exact keeps_scalarFloat ..

theorem keeps_execFfma (h : SlotHdr) (f : SFmt) (s : State) : Keeps s.base (execFfma h f s) := by
  unfold execFfma
  exact keeps_scalarFloat ..

theorem keeps_execFcvt (h : SlotHdr) (f : SFmt) (s : State) : Keeps s.base (execFcvt h f s) := by
  unfold execFcvt
  refine keeps_slotRun rfl fun h k r q t => ?_
  dsimp only
  split <;> simp

theorem keeps_execLd (h : SlotHdr) (f : SFmt) (s : State) : Keeps s.base (execLd h f s) := by
  unfold execLd
  refine keeps_slotRun rfl fun h k r q t => ?_
  dsimp only
  (repeat' split) <;> simp

theorem keeps_execSt (h : SlotHdr) (f : SFmt) (s : State) : Keeps s.base (execSt h f s) := by
  unfold execSt
  refine keeps_slotRun rfl fun h k r q t => ?_
  dsimp only
  (repeat' split) <;> simp

theorem keeps_execAmo (h : SlotHdr) (f : SFmt) (s : State) : Keeps s.base (execAmo h f s) := by
  unfold execAmo
  refine keeps_slotRun rfl fun h k r q t => ?_
  dsimp only
  (repeat' split) <;> simp

theorem keeps_execSmovs (h : SlotHdr) (f : SFmt) (s : State) : Keeps s.base (execSmovs h f s) := by
  unfold execSmovs
  refine keeps_slotRun rfl fun h k r q t => ?_
  (repeat' split) <;> simp

theorem keeps_execSmovt (h : SlotHdr) (f : SFmt) (s : State) : Keeps s.base (execSmovt h f s) := by
  unfold execSmovt
  refine keeps_slotRun rfl fun h k r q t => ?_
  dsimp only
  (repeat' split) <;> simp

theorem keeps_execMset (h : SlotHdr) (f : SFmt) (s : State) : Keeps s.base (execMset h f s) := by
  unfold execMset
  refine keeps_slotRun rfl fun h k r q t => ?_
  simp

theorem keeps_execMget (h : SlotHdr) (f : SFmt) (s : State) : Keeps s.base (execMget h f s) := by
  unfold execMget
  refine keeps_slotRun rfl fun h k r q t => ?_
  split <;> simp

theorem keeps_execPcvtH2d (h : SlotHdr) (f : SFmt) (s : State) : Keeps s.base (execPcvtH2d h f s) := by
  unfold execPcvtH2d
  refine keeps_slotRun rfl fun h k r q t => ?_
  dsimp only
  (repeat' split) <;> simp

theorem keeps_execPcvtD2h (h : SlotHdr) (f : SFmt) (s : State) : Keeps s.base (execPcvtD2h h f s) := by
  unfold execPcvtD2h
  refine keeps_slotRun rfl fun h k r q t => ?_
  dsimp only
  (repeat' split) <;> simp


/-- Settles O2. -/
theorem resetIsSound : Obligations.ResetIsSound :=
  ⟨reset_store_wf, fun _ => ⟨rfl, rfl⟩, by decide, by decide⟩

/-! ### What every command leaves of the queue, the fuses and soundness -/

/-- Soundness speaks of the base alone. -/
theorem State.Sound.of_base {s t : State} (h : t.base = s.base) (hs : s.Sound) : t.Sound := by
  obtain ⟨hstore, hbooted, howner, hclock⟩ := hs
  simp only [State.base, Base.mk.injEq] at h
  obtain ⟨-, -, -, -, hst, hb, ha, hr, ho, hn⟩ := h
  exact ⟨hst ▸ hstore, by rw [hb, ha, hr]; exact hbooted, ho ▸ howner, hn ▸ hclock⟩

/-- What holds from a state to the one that a command leaves: the queue and the fuses stay, SVN_MIN does not fall, and a sound state stays sound. -/
structure Steady (s t : State) : Prop where
  pending : t.pending = s.pending
  debug : t.sec.debug = s.sec.debug
  revoked : t.sec.revoked = s.sec.revoked
  svnMin : s.sec.svnMin ≤ t.sec.svnMin
  sound : s.Sound → t.Sound

theorem Steady.of_base {s t : State} (h : t.base = s.base) : Steady s t :=
  ⟨congrArg Base.pending h, congrArg Base.debug h, congrArg Base.revoked h, (congrArg Base.svnMin h).ge, State.Sound.of_base h⟩

theorem Steady.refl (s : State) : Steady s s := .of_base rfl

theorem Steady.trans {s t u : State} (h : Steady s t) (h' : Steady t u) : Steady s u :=
  ⟨h'.pending.trans h.pending, (h'.debug).trans h.debug, h'.revoked.trans h.revoked, h.svnMin.trans h'.svnMin, h'.sound ∘ h.sound⟩

/-- A command answers with a next state, and a steady one. -/
def Runs (s : State) (x : Result) : Prop := ∃ t, x = .next t ∧ Steady s t

theorem runs_next {s t : State} (h : Steady s t) : Runs s (.next t) := ⟨t, rfl, h⟩

theorem runs_of_base {s t : State} (h : t.base = s.base) : Runs s (.next t) := runs_next (.of_base h)

theorem Keeps.runs {s : State} {x : Result} (h : Keeps s.base x) : Runs s x :=
  let ⟨t, hx, ht⟩ := h
  ⟨t, hx, .of_base ht⟩

theorem runs_whenUp {s : State} {f : State → Result} (h : Runs s (f s)) : Runs s (whenUp s f) := by
  unfold whenUp
  split
  · exact h
  · exact runs_of_base rfl

/-- An update is steady that keeps the fuses and what a sound state has. -/
theorem steady_mk {s : State} {home : Home} {strata : Strata} {rope : Rope} {cores : Tab Core} {kernels : List KernelQ} {expert : Expert} {trav : Traverse} {mor : Moraine}
    {bci : Bci} {host : Hosts} {lmf : Lmf} {pow : Power} {time : TimeUnit} {rel : Rel} {sec : Sec} {obs : Obs} {pkg : Package} {out : List Out} {resume : List Again}
    {replay : Option Again} {freeCtr nextId : Nat}
    (hdebug : sec.debug = s.sec.debug) (hrevoked : sec.revoked = s.sec.revoked) (hsvn : s.sec.svnMin ≤ sec.svnMin)
    (hstore : Mem.wf s.pkg.store = true → Mem.wf pkg.store = true)
    (hbooted : (s.pkg.booted = true → s.pkg.aonUp = true ∧ s.pkg.rstN = true) → pkg.booted = true → pkg.aonUp = true ∧ pkg.rstN = true)
    (howner : s.host.owner < 4 → host.owner < 4) (hclock : s.time.now < 2 ^ 64 → time.now < 2 ^ 64) :
    Steady s ⟨home, strata, rope, cores, kernels, expert, trav, mor, bci, host, lmf, pow, time, rel, sec, obs, pkg, out, resume, replay, freeCtr, nextId, s.pending⟩ :=
  ⟨rfl, hdebug, hrevoked, hsvn, fun hs => ⟨hstore hs.store, hbooted hs.booted, howner hs.owner, hclock hs.clock⟩⟩

/-- An update of what is not in the base is steady. -/
theorem steady_same {s : State} {home : Home} {strata : Strata} {rope : Rope} {cores : Tab Core} {kernels : List KernelQ} {expert : Expert} {trav : Traverse} {mor : Moraine}
    {bci : Bci} {host : Hosts} {lmf : Lmf} {pow : Power} {time : TimeUnit} {rel : Rel} {sec : Sec} {obs : Obs} {pkg : Package} {out : List Out} {resume : List Again}
    {replay : Option Again} {freeCtr nextId : Nat}
    (hhost : host.owner = s.host.owner) (htime : time.now = s.time.now) (hdebug : sec.debug = s.sec.debug) (hrevoked : sec.revoked = s.sec.revoked) (hsvn : sec.svnMin = s.sec.svnMin)
    (hstore : pkg.store = s.pkg.store) (hbooted : pkg.booted = s.pkg.booted) (haon : pkg.aonUp = s.pkg.aonUp) (hrst : pkg.rstN = s.pkg.rstN) :
    Steady s ⟨home, strata, rope, cores, kernels, expert, trav, mor, bci, host, lmf, pow, time, rel, sec, obs, pkg, out, resume, replay, freeCtr, nextId, s.pending⟩ :=
  .of_base (State.base_mk hhost htime hdebug hrevoked hsvn hstore hbooted haon hrst)

/-! ### Operations that write the base -/

/-- The switch of an activation raises SVN_MIN at most (R774). -/
theorem State.steady_activateDone (s : State) (n : Nat) : Steady s (s.activateDone n) := by
  unfold State.activateDone
  extract_lets bci sec s1 sec' s2
  have h2 : Steady s s2 := by
    dsimp only [s2]
    split
    · split
      · exact steady_mk rfl rfl (Nat.le_max_left ..) id id id id
      · exact steady_same rfl rfl rfl rfl rfl rfl rfl rfl rfl
    · exact steady_same rfl rfl rfl rfl rfl rfl rfl rfl rfl
  split
  · exact h2.trans (.of_base (State.base_endOp ..))
  · exact h2

/-- The owning-host role moves to one of the four ports. -/
theorem State.steady_moveOwner (s : State) {port : Nat} (h : port < 4) : Steady s (s.moveOwner port) := by
  unfold State.moveOwner
  extract_lets old home host s1 s2 s3
  have h1 : Steady s s1 := steady_mk rfl rfl le_rfl id id (fun _ => h) id
  refine h1.trans (.of_base ?_)
  rw [State.base_foldl]
  · dsimp only [s3, s2]
    rw [State.base_faultFlush]
    split <;> simp
  · intro t p
    split <;> simp

/-- An exchange steps fabric time within its 64 bits (R705). -/
theorem State.steady_exchange (s : State) (off : Int) (interval root : Nat) : Steady s (s.exchange off interval root) := by
  have hnow : ∀ c : Bool, s.time.now < 2 ^ 64 → (if c then (s.time.now + off.toNat) % 18446744073709551616 else s.time.now) < 2 ^ 64 := by
    intro c hc
    cases c
    · exact hc
    · exact Nat.mod_lt _ (by decide)
  unfold State.exchange
  dsimp only
  split
  · exact steady_mk rfl rfl le_rfl id id id (hnow _)
  · exact steady_mk rfl rfl le_rfl id id id (hnow _)
  · exact steady_mk rfl rfl le_rfl id id id (hnow _)
  · split
    · refine .trans ?_ (.of_base (State.base_askJoin _))
      exact steady_mk rfl rfl le_rfl id id id (hnow _)
    · exact steady_mk rfl rfl le_rfl id id id (hnow _)

theorem TimeUnit.advance_now_lt (t : TimeUnit) : t.advance.now < 2 ^ 64 := Nat.mod_lt _ (by decide)

theorem State.steady_tick (s : State) : Steady s s.tick := by
  unfold State.tick
  extract_lets s1 s2
  have h1 : s1.base = s.base := by
    dsimp only [s1]
    split
    · rw [State.base_foldl State.base_domainDown, State.base_acquireSweep]
    · rfl
  have h2 : s2.base = s.base := by
    dsimp only [s2]
    split
    · rw [State.base_traceFlush, h1]
    · exact h1
  refine (Steady.of_base h2).trans ?_
  split
  · exact steady_mk rfl rfl le_rfl id id id fun _ => TimeUnit.advance_now_lt _
  · exact .refl _

theorem State.steady_spoilWrite (s : State) : Steady s s.spoilWrite := by
  unfold State.spoilWrite
  split
  · exact .refl s
  · generalize s.freeBytes 256 = bs
    exact steady_mk rfl rfl le_rfl (Mem.wf_writeN _ _) id id id

/-- A wiped package is not booted, and its time and role are those of power-on. -/
theorem State.steady_wiped (s : State) (keep : Bool) : Steady s (s.wiped keep) :=
  steady_mk rfl rfl le_rfl id (fun _ h => nomatch h) (fun _ => resetIsSound.owner) (fun _ => resetIsSound.clock)

/-- A wiped package may gain or lose its AON supply. -/
theorem State.steady_wiped_aon (s : State) (aon : Bool) (tap : TapInstr) : Steady s { s.wiped false with pkg.aonUp := aon, pkg.tap := tap } :=
  steady_mk rfl rfl le_rfl id (fun _ h => nomatch h) (fun _ => resetIsSound.owner) (fun _ => resetIsSound.clock)

/-- A package that has its AON supply and is out of reset may boot (R843). -/
theorem State.steady_boot (s : State) (img : BootImages) (ha : s.pkg.aonUp = true) (hr : s.pkg.rstN = true) : Steady s (s.boot img) := by
  unfold State.boot
  extract_lets ok measure r o other
  split
  · exact steady_mk rfl rfl le_rfl id (fun _ _ => ⟨ha, hr⟩) id id
  · split
    · exact steady_mk rfl rfl le_rfl id (fun _ _ => ⟨ha, hr⟩) id id
    · exact .of_base (State.base_bootFails _)

/-! ### Commands that write the base -/

theorem runs_execStandbySync (s : State) : Runs s (execStandbySync s) := by
  unfold execStandbySync
  refine runs_whenUp ?_
  split
  · exact runs_of_base rfl
  · split
    · exact runs_next (steady_same rfl rfl rfl rfl rfl rfl rfl rfl rfl)
    · split
      · exact runs_next ((s.steady_activateDone _).trans (.of_base (State.base_rsMgmt ..)))
      · split
        · dsimp only
          split
          · refine runs_of_base ((State.base_endOp ..).trans ?_)
            exact State.base_mk rfl rfl rfl rfl rfl rfl rfl rfl rfl
          · exact runs_next (steady_same rfl rfl rfl rfl rfl rfl rfl rfl rfl)
        · refine runs_of_base ((State.base_activateSwitch ..).trans ?_)
          exact State.base_mk rfl rfl rfl rfl rfl rfl rfl rfl rfl

theorem runs_execFwStageEnd (id : Nat) (s : State) : Runs s (execFwStageEnd id s) := by
  unfold execFwStageEnd
  refine runs_whenUp ?_
  split
  · exact runs_of_base rfl
  · dsimp only
    split
    · refine runs_next (.trans ?_ (.of_base (State.base_endOp _ _ _ _)))
      exact steady_mk rfl rfl le_rfl (Mem.wf_writeN _ _) (fun h => h) (fun h => h) (fun h => h)
    · refine runs_of_base ((State.base_endOp _ _ _ _).trans ?_)
      exact State.base_mk rfl rfl rfl rfl rfl rfl rfl rfl rfl

theorem State.lt_of_ownerOk {s : State} {port : Nat} (h : s.ownerOk port = true) : port < 4 := by
  simp only [State.ownerOk, Bool.and_eq_true, decide_eq_true_eq] at h
  exact h.1.1

theorem runs_execOwnerSet (fm port : Nat) (sealed : Bool) (s : State) : Runs s (execOwnerSet fm port sealed s) := by
  unfold execOwnerSet
  refine runs_whenUp ?_
  split
  · exact runs_of_base (State.base_dropEvt ..)
  · cases hp : s.ownerOk port with
    | false => exact runs_of_base (State.base_emit ..)
    | true => exact runs_next ((s.steady_moveOwner (State.lt_of_ownerOk hp)).trans (.of_base (State.base_emit ..)))

theorem runs_execTimeSyncResponse (lport steps seq t1 t2 t3 t4 err root : Nat) (s : State) : Runs s (execTimeSyncResponse lport steps seq t1 t2 t3 t4 err root s) := by
  unfold execTimeSyncResponse
  refine runs_whenUp ?_
  split
  · exact runs_of_base rfl
  · extract_lets time s1 up src s2 off
    have h1 : s1.base = s.base := State.base_mk rfl rfl rfl rfl rfl rfl rfl rfl rfl
    split
    · exact runs_of_base h1
    · refine runs_next (.trans (.of_base ?_) (s2.steady_exchange _ _ _))
      dsimp only [s2]
      split
      · refine Eq.trans ?_ h1
        exact State.base_mk rfl rfl rfl rfl rfl rfl rfl rfl rfl
      · exact h1

theorem runs_execDelayResp (mport domain seq received : Nat) (s : State) : Runs s (execDelayResp mport domain seq received s) := by
  unfold execDelayResp State.onPtp
  refine runs_whenUp ?_
  dsimp only
  split
  · refine runs_next ?_
    split
    · split
      · exact .refl s
      · refine .trans ?_ (State.steady_exchange _ _ _ _)
        exact steady_same rfl rfl rfl rfl rfl rfl rfl rfl rfl
    · exact .refl s
  · exact runs_of_base rfl

theorem runs_execPkgRstAssert (s : State) : Runs s (execPkgRstAssert s) := by
  unfold execPkgRstAssert
  split
  · exact runs_next (s.steady_spoilWrite.trans (State.steady_wiped ..))
  · exact runs_of_base rfl

theorem runs_execAonSupplyLoss (s : State) : Runs s (execAonSupplyLoss s) := by
  unfold execAonSupplyLoss
  split
  · exact runs_next (s.steady_spoilWrite.trans (State.steady_wiped_aon ..))
  · exact runs_of_base rfl

theorem runs_execPowerOn (s : State) : Runs s (execPowerOn s) := by
  unfold execPowerOn
  split
  · exact runs_of_base rfl
  · exact runs_next (State.steady_wiped_aon ..)

theorem runs_execPkgRstRelease (img : BootImages) (s : State) : Runs s (execPkgRstRelease img s) := by
  have hrst : (s.pkg.booted = true → s.pkg.aonUp = true ∧ s.pkg.rstN = true) → s.pkg.booted = true → s.pkg.aonUp = true ∧ true = true :=
    fun h hb => ⟨(h hb).1, rfl⟩
  unfold execPkgRstRelease
  split
  · exact runs_of_base rfl
  · dsimp only
    split
    · exact runs_next (steady_mk rfl rfl le_rfl id hrst id id)
    · refine runs_next (.trans ?_ (.of_base (State.base_bootFails _)))
      exact steady_mk rfl rfl le_rfl id hrst id id

theorem runs_execRailPg (rail : Nat) (img : BootImages) (s : State) : Runs s (execRailPg rail img s) := by
  unfold execRailPg
  split
  · exact runs_of_base rfl
  · rename_i hgo
    have hup : s.pkg.aonUp = true ∧ s.pkg.rstN = true := by simp_all
    dsimp only
    split
    · exact runs_next (steady_same rfl rfl rfl rfl rfl rfl rfl rfl rfl)
    · refine runs_next (.trans ?_ (State.steady_boot _ img hup.1 hup.2))
      exact steady_same rfl rfl rfl rfl rfl rfl rfl rfl rfl

theorem runs_execStoreWriteEnd (ok : Bool) (s : State) : Runs s (execStoreWriteEnd ok s) := by
  unfold execStoreWriteEnd
  split
  · exact runs_of_base rfl
  · split
    · exact runs_next (steady_mk rfl rfl le_rfl (Mem.wf_writeN _ _) id id id)
    · refine runs_next (s.steady_spoilWrite.trans ?_)
      exact steady_same rfl rfl rfl rfl rfl rfl rfl rfl rfl


/-- Every command answers with a next state, and a steady one. -/
theorem exec_runs (c : Instr) (s : State) : Runs s (exec c s) := by
  cases c with
  | cxlMemRead => exact (keeps_execCxlMemRead ..).runs
  | cxlMemWrite => exact (keeps_execCxlMemWrite ..).runs
  | lmfLoad => exact (keeps_execLmfLoad ..).runs
  | lmfStore => exact (keeps_execLmfStore ..).runs
  | countedWrite => exact (keeps_execCountedWrite ..).runs
  | rdShared => exact (keeps_execRdShared ..).runs
  | rdOwn => exact (keeps_execRdOwn ..).runs
  | upgrade => exact (keeps_execUpgrade ..).runs
  | invOwn => exact (keeps_execInvOwn ..).runs
  | wbDirty => exact (keeps_execWbDirty ..).runs
  | evictClean => exact (keeps_execEvictClean ..).runs
  | rdUnc => exact (keeps_execRdUnc ..).runs
  | wrUnc => exact (keeps_execWrUnc ..).runs
  | ackInv => exact (keeps_execAckInv ..).runs
  | rspFwd => exact (keeps_execRspFwd ..).runs
  | rspFlush => exact (keeps_execRspFlush ..).runs
  | rspNotHeld => exact (keeps_execRspNotHeld ..).runs
  | recallDone => exact (keeps_execRecallDone ..).runs
  | publish => exact (keeps_execPublish ..).runs
  | publishSwitch => exact (keeps_execPublishSwitch ..).runs
  | publishIf => exact (keeps_execPublishIf ..).runs
  | discard => exact (keeps_execDiscard ..).runs
  | versionQuery => exact (keeps_execVersionQuery ..).runs
  | versionPin => exact (keeps_execVersionPin ..).runs
  | versionUnpin => exact (keeps_execVersionUnpin ..).runs
  | readAt => exact (keeps_execReadAt ..).runs
  | counterAlloc => exact (keeps_execCounterAlloc ..).runs
  | counterFree => exact (keeps_execCounterFree ..).runs
  | counterReset => exact (keeps_execCounterReset ..).runs
  | counterRead => exact (keeps_execCounterRead ..).runs
  | waitCount => exact (keeps_execWaitCount ..).runs
  | waitCountWake => exact (keeps_execWaitCountWake ..).runs
  | atomic => exact (keeps_execAtomic ..).runs
  | atomicStatus => exact (keeps_execAtomicStatus ..).runs
  | memop => exact (keeps_execMemop ..).runs
  | memopEnd => exact (keeps_execMemopEnd ..).runs
  | clearPoison => exact (keeps_execClearPoison ..).runs
  | mirrorUpdate => exact (keeps_execMirrorUpdate ..).runs
  | faultRingSet => exact (keeps_execFaultRingSet ..).runs
  | faultResolve => exact (keeps_execFaultResolve ..).runs
  | faultResolveAbort => exact (keeps_execFaultResolveAbort ..).runs
  | create => exact (keeps_execCreate ..).runs
  | destroy => exact (keeps_execDestroy ..).runs
  | regionSet => exact (keeps_execRegionSet ..).runs
  | grant => exact (keeps_execGrant ..).runs
  | revoke => exact (keeps_execRevoke ..).runs
  | map => exact (keeps_execMap ..).runs
  | unmap => exact (keeps_execUnmap ..).runs
  | convert => exact (keeps_execConvert ..).runs
  | ctxCreate => exact (keeps_execCtxCreate ..).runs
  | ctxSet => exact (keeps_execCtxSet ..).runs
  | ctxReset => exact (keeps_execCtxReset ..).runs
  | ctxDestroy => exact (keeps_execCtxDestroy ..).runs
  | tierSet => exact (keeps_execTierSet ..).runs
  | tierDrain => exact (keeps_execTierDrain ..).runs
  | tierDrainCancel => exact (keeps_execTierDrainCancel ..).runs
  | expertSet => exact (keeps_execExpertSet ..).runs
  | expertClear => exact (keeps_execExpertClear ..).runs
  | laneAdd => exact (keeps_execLaneAdd ..).runs
  | laneRemove => exact (keeps_execLaneRemove ..).runs
  | expertPolicySet => exact (keeps_execExpertPolicySet ..).runs
  | ssdEnter => exact (keeps_execSsdEnter ..).runs
  | ssdExit => exact (keeps_execSsdExit ..).runs
  | microBatchDispatch => exact (keeps_execMicroBatchDispatch ..).runs
  | trailerWrite => exact (keeps_execTrailerWrite ..).runs
  | indexCreate => exact (keeps_execIndexCreate ..).runs
  | indexDestroy => exact (keeps_execIndexDestroy ..).runs
  | trvQuery => exact (keeps_execTrvQuery ..).runs
  | queryStart => exact (keeps_execQueryStart ..).runs
  | shardWalk => exact (keeps_execShardWalk ..).runs
  | shardWalkEnd => exact (keeps_execShardWalkEnd ..).runs
  | payloadFetchEnd => exact (keeps_execPayloadFetchEnd ..).runs
  | trvInsert => exact (keeps_execTrvInsert ..).runs
  | trvDelete => exact (keeps_execTrvDelete ..).runs
  | sideListAppend => exact (keeps_execSideListAppend ..).runs
  | trvMerge => exact (keeps_execTrvMerge ..).runs
  | trvMergeCancel => exact (keeps_execTrvMergeCancel ..).runs
  | mergeRecord => exact (keeps_execMergeRecord ..).runs
  | embTableCreate => exact (keeps_execEmbTableCreate ..).runs
  | embTableDestroy => exact (keeps_execEmbTableDestroy ..).runs
  | morBatch => exact (keeps_execMorBatch ..).runs
  | batchStart => exact (keeps_execBatchStart ..).runs
  | batchEnd => exact (keeps_execBatchEnd ..).runs
  | embSwap => exact (keeps_execEmbSwap ..).runs
  | ropeSet => exact (keeps_execRopeSet ..).runs
  | ropeAgentAdd => exact (keeps_execRopeAgentAdd ..).runs
  | ropeAgentRemove => exact (keeps_execRopeAgentRemove ..).runs
  | fence => exact (keeps_execFence ..).runs
  | hello => exact (keeps_execHello ..).runs
  | opStatus => exact (keeps_execOpStatus ..).runs
  | configSet => exact (keeps_execConfigSet ..).runs
  | configGet => exact (keeps_execConfigGet ..).runs
  | noticeRingSet => exact (keeps_execNoticeRingSet ..).runs
  | fwStage => exact (keeps_execFwStage ..).runs
  | fwActivate => exact (keeps_execFwActivate ..).runs
  | fwInfo => exact (keeps_execFwInfo ..).runs
  | go => exact (keeps_execGo ..).runs
  | mbxMsgWrite => exact (keeps_execMbxMsgWrite ..).runs
  | wake => exact (keeps_execWake ..).runs
  | cqTail => exact (keeps_execCqTail ..).runs
  | cqEntryTake => exact (keeps_execCqEntryTake ..).runs
  | cqEnable => exact (keeps_execCqEnable ..).runs
  | cqDisable => exact (keeps_execCqDisable ..).runs
  | errlogRead => exact (keeps_execErrlogRead ..).runs
  | healthRead => exact (keeps_execHealthRead ..).runs
  | relSet => exact (keeps_execRelSet ..).runs
  | relGet => exact (keeps_execRelGet ..).runs
  | quarantine => exact (keeps_execQuarantine ..).runs
  | quarantineRelease => exact (keeps_execQuarantineRelease ..).runs
  | spareSet => exact (keeps_execSpareSet ..).runs
  | rebuildStart => exact (keeps_execRebuildStart ..).runs
  | takeover => exact (keeps_execTakeover ..).runs
  | journalClaim => exact (keeps_execJournalClaim ..).runs
  | journalOffer => exact (keeps_execJournalOffer ..).runs
  | journalAccept => exact (keeps_execJournalAccept ..).runs
  | journalRelease => exact (keeps_execJournalRelease ..).runs
  | journalQuery => exact (keeps_execJournalQuery ..).runs
  | journalAssign => exact (keeps_execJournalAssign ..).runs
  | cntRead => exact (keeps_execCntRead ..).runs
  | cntMode => exact (keeps_execCntMode ..).runs
  | cntReset => exact (keeps_execCntReset ..).runs
  | cntSnapshot => exact (keeps_execCntSnapshot ..).runs
  | cntFreeze => exact (keeps_execCntFreeze ..).runs
  | cntUnfreeze => exact (keeps_execCntUnfreeze ..).runs
  | cntCtxSet => exact (keeps_execCntCtxSet ..).runs
  | bwRead => exact (keeps_execBwRead ..).runs
  | crnRead => exact (keeps_execCrnRead ..).runs
  | trcSet => exact (keeps_execTrcSet ..).runs
  | partnerRead => exact (keeps_execPartnerRead ..).runs
  | kernelDispatch => exact (keeps_execKernelDispatch ..).runs
  | bundleDispatch => exact (keeps_execBundleDispatch ..).runs
  | kernelDrainEnd => exact (keeps_execKernelDrainEnd ..).runs
  | dmaTransferEnd => exact (keeps_execDmaTransferEnd ..).runs
  | belayRelStore => exact (keeps_execBelayRelStore ..).runs
  | belayAcqSatisfied => exact (keeps_execBelayAcqSatisfied ..).runs
  | waitcntWake => exact (keeps_execWaitcntWake ..).runs
  | nop => exact (keeps_execNop ..).runs
  | add => exact (keeps_execAdd ..).runs
  | sub => exact (keeps_execSub ..).runs
  | addi => exact (keeps_execAddi ..).runs
  | li => exact (keeps_execLi ..).runs
  | mul => exact (keeps_execMul ..).runs
  | mulh => exact (keeps_execMulh ..).runs
  | mulhu => exact (keeps_execMulhu ..).runs
  | div => exact (keeps_execDiv ..).runs
  | divu => exact (keeps_execDivu ..).runs
  | rem => exact (keeps_execRem ..).runs
  | and => exact (keeps_execAnd ..).runs
  | or => exact (keeps_execOr ..).runs
  | xor => exact (keeps_execXor ..).runs
  | shl => exact (keeps_execShl ..).runs
  | shr => exact (keeps_execShr ..).runs
  | sra => exact (keeps_execSra ..).runs
  | slt => exact (keeps_execSlt ..).runs
  | sltu => exact (keeps_execSltu ..).runs
  | pcmp => exact (keeps_execPcmp ..).runs
  | pset => exact (keeps_execPset ..).runs
  | fadd => exact (keeps_execFadd ..).runs
  | fmul => exact (keeps_execFmul ..).runs
  | ffma => exact (keeps_execFfma ..).runs
  | fcvt => exact (keeps_execFcvt ..).runs
  | ld => exact (keeps_execLd ..).runs
  | st => exact (keeps_execSt ..).runs
  | amo => exact (keeps_execAmo ..).runs
  | smovs => exact (keeps_execSmovs ..).runs
  | smovt => exact (keeps_execSmovt ..).runs
  | mset => exact (keeps_execMset ..).runs
  | mget => exact (keeps_execMget ..).runs
  | pcvtH2d => exact (keeps_execPcvtH2d ..).runs
  | pcvtD2h => exact (keeps_execPcvtD2h ..).runs
  | vadd => exact (keeps_execVadd ..).runs
  | vsub => exact (keeps_execVsub ..).runs
  | vmul => exact (keeps_execVmul ..).runs
  | vfma => exact (keeps_execVfma ..).runs
  | vmin => exact (keeps_execVmin ..).runs
  | vmax => exact (keeps_execVmax ..).runs
  | vabs => exact (keeps_execVabs ..).runs
  | vneg => exact (keeps_execVneg ..).runs
  | vand => exact (keeps_execVand ..).runs
  | vor => exact (keeps_execVor ..).runs
  | vxor => exact (keeps_execVxor ..).runs
  | vshl => exact (keeps_execVshl ..).runs
  | vshr => exact (keeps_execVshr ..).runs
  | vcmp => exact (keeps_execVcmp ..).runs
  | vsel => exact (keeps_execVsel ..).runs
  | vbcast => exact (keeps_execVbcast ..).runs
  | vcvt => exact (keeps_execVcvt ..).runs
  | vexp2 => exact (keeps_execVexp2 ..).runs
  | vrcp => exact (keeps_execVrcp ..).runs
  | vrsqrt => exact (keeps_execVrsqrt ..).runs
  | vred => exact (keeps_execVred ..).runs
  | vld => exact (keeps_execVld ..).runs
  | vst => exact (keeps_execVst ..).runs
  | dmaCopy => exact (keeps_execDmaCopy ..).runs
  | dmaRw => exact (keeps_execDmaRw ..).runs
  | mma => exact (keeps_execMma ..).runs
  | mmv => exact (keeps_execMmv ..).runs
  | mload => exact (keeps_execMload ..).runs
  | mdrain => exact (keeps_execMdrain ..).runs
  | mclr => exact (keeps_execMclr ..).runs
  | br => exact (keeps_execBr ..).runs
  | brx => exact (keeps_execBrx ..).runs
  | waitcnt => exact (keeps_execWaitcnt ..).runs
  | halt => exact (keeps_execHalt ..).runs
  | belayRel => exact (keeps_execBelayRel ..).runs
  | belayAcq => exact (keeps_execBelayAcq ..).runs
  | belayAccess => exact (keeps_execBelayAccess ..).runs
  | fwStageEnd => exact runs_execFwStageEnd ..
  | shardRegister => exact (keeps_execShardRegister ..).runs
  | mirrorPartnerRead => exact (keeps_execMirrorPartnerRead ..).runs
  | faultRecordWrite => exact (keeps_execFaultRecordWrite ..).runs
  | faultHoldExpiry => exact (keeps_execFaultHoldExpiry ..).runs
  | lmfCompletion => exact (keeps_execLmfCompletion ..).runs
  | nack => exact (keeps_execNack ..).runs
  | backoffExpiry => exact (keeps_execBackoffExpiry ..).runs
  | transactionTimeout => exact (keeps_execTransactionTimeout ..).runs
  | homeTimeout => exact (keeps_execHomeTimeout ..).runs
  | reservationExpiry => exact (keeps_execReservationExpiry ..).runs
  | fenceSweep => exact (keeps_execFenceSweep ..).runs
  | mirrorReceipt => exact (keeps_execMirrorReceipt ..).runs
  | regionDrainEnd => exact (keeps_execRegionDrainEnd ..).runs
  | ctxResetEnd => exact (keeps_execCtxResetEnd ..).runs
  | pageMoveSwitch => exact (keeps_execPageMoveSwitch ..).runs
  | sourceRetire => exact (keeps_execSourceRetire ..).runs
  | t1LowSpaceMove => exact (keeps_execT1LowSpaceMove ..).runs
  | heatSweep => exact (keeps_execHeatSweep ..).runs
  | stripeReclaim => exact (keeps_execStripeReclaim ..).runs
  | lendOffer => exact (keeps_execLendOffer ..).runs
  | lendRecall => exact (keeps_execLendRecall ..).runs
  | lendGraceExpiry => exact (keeps_execLendGraceExpiry ..).runs
  | pageGroupEncode => exact (keeps_execPageGroupEncode ..).runs
  | slotDecode => exact (keeps_execSlotDecode ..).runs
  | pageRecovery => exact (keeps_execPageRecovery ..).runs
  | scrub => exact (keeps_execScrub ..).runs
  | maxWaitExpiry => exact (keeps_execMaxWaitExpiry ..).runs
  | microBatchEnd => exact (keeps_execMicroBatchEnd ..).runs
  | recordRetire => exact (keeps_execRecordRetire ..).runs
  | slotReclaim => exact (keeps_execSlotReclaim ..).runs
  | watchdogExpiry => exact (keeps_execWatchdogExpiry ..).runs
  | switchoverEnd => exact (keeps_execSwitchoverEnd ..).runs
  | standbySync => exact runs_execStandbySync ..
  | deadlineExpiry => exact (keeps_execDeadlineExpiry ..).runs
  | cqEnApply => exact (keeps_execCqEnApply ..).runs
  | registerWrite => exact (keeps_execRegisterWrite ..).runs
  | readClear => exact (keeps_execReadClear ..).runs
  | crnSelWrite => exact (keeps_execCrnSelWrite ..).runs
  | quarantineEffect => exact (keeps_execQuarantineEffect ..).runs
  | partFailed => exact (keeps_execPartFailed ..).runs
  | rebuildEnd => exact (keeps_execRebuildEnd ..).runs
  | takeoverWaitEnd => exact (keeps_execTakeoverWaitEnd ..).runs
  | kat => exact (keeps_execKat ..).runs
  | healthUpdate => exact (keeps_execHealthUpdate ..).runs
  | heartbeatSend => exact (keeps_execHeartbeatSend ..).runs
  | heartbeat => exact (keeps_execHeartbeat ..).runs
  | suspect => exact (keeps_execSuspect ..).runs
  | leaseExpiry => exact (keeps_execLeaseExpiry ..).runs
  | dieLoss => exact (keeps_execDieLoss ..).runs
  | bwWindowEnd => exact (keeps_execBwWindowEnd ..).runs
  | powerWindow => exact (keeps_execPowerWindow ..).runs
  | gateTimeout => exact (keeps_execGateTimeout ..).runs
  | offTimeout => exact (keeps_execOffTimeout ..).runs
  | domainWake => exact (keeps_execDomainWake ..).runs
  | domainOn => exact (keeps_execDomainOn ..).runs
  | stretchEpisodeEnd => exact (keeps_execStretchEpisodeEnd ..).runs
  | bivouacEntry => exact (keeps_execBivouacEntry ..).runs
  | bivouacExit => exact (keeps_execBivouacExit ..).runs
  | timeSyncSend => exact (keeps_execTimeSyncSend ..).runs
  | timeSync => exact (keeps_execTimeSync ..).runs
  | timeSyncResponse lport steps seq t1 t2 t3 t4 err root => exact runs_execTimeSyncResponse lport steps seq t1 t2 t3 t4 err root s
  | holdoverEntry => exact (keeps_execHoldoverEntry ..).runs
  | ptpFallback => exact (keeps_execPtpFallback ..).runs
  | announce => exact (keeps_execAnnounce ..).runs
  | sync => exact (keeps_execSync ..).runs
  | followUp => exact (keeps_execFollowUp ..).runs
  | delayResp => exact runs_execDelayResp ..
  | finishRsp => exact (keeps_execFinishRsp ..).runs
  | getVersion => exact (keeps_execGetVersion ..).runs
  | getCapabilities => exact (keeps_execGetCapabilities ..).runs
  | negotiateAlgorithms => exact (keeps_execNegotiateAlgorithms ..).runs
  | getDigests => exact (keeps_execGetDigests ..).runs
  | getCertificate => exact (keeps_execGetCertificate ..).runs
  | challenge => exact (keeps_execChallenge ..).runs
  | getMeasurements => exact (keeps_execGetMeasurements ..).runs
  | keyExchange => exact (keeps_execKeyExchange ..).runs
  | finish => exact (keeps_execFinish ..).runs
  | sessionEnd => exact (keeps_execSessionEnd ..).runs
  | linkAdv => exact (keeps_execLinkAdv ..).runs
  | linkStepTimeout => exact (keeps_execLinkStepTimeout ..).runs
  | linkRetryTimer => exact (keeps_execLinkRetryTimer ..).runs
  | flitReplay => exact (keeps_execFlitReplay ..).runs
  | flitAckTimeout => exact (keeps_execFlitAckTimeout ..).runs
  | linkDown => exact (keeps_execLinkDown ..).runs
  | join => exact (keeps_execJoin ..).runs
  | leave => exact (keeps_execLeave ..).runs
  | ownerSet => exact runs_execOwnerSet ..
  | mgmtFrame => exact (keeps_execMgmtFrame ..).runs
  | hostLinkUp => exact (keeps_execHostLinkUp ..).runs
  | hostLinkLoss => exact (keeps_execHostLinkLoss ..).runs
  | flr => exact (keeps_execFlr ..).runs
  | vfEnable => exact (keeps_execVfEnable ..).runs
  | vfDisable => exact (keeps_execVfDisable ..).runs
  | hdmCommit => exact (keeps_execHdmCommit ..).runs
  | hdmUncommit => exact (keeps_execHdmUncommit ..).runs
  | hptPerst => exact (keeps_execHptPerst ..).runs
  | drivePresenceChange => exact (keeps_execDrivePresenceChange ..).runs
  | driveAdmission => exact (keeps_execDriveAdmission ..).runs
  | asyncEvent => exact (keeps_execAsyncEvent ..).runs
  | dimmTemp => exact (keeps_execDimmTemp ..).runs
  | pkgRstRelease => exact runs_execPkgRstRelease ..
  | pkgRstAssert => exact runs_execPkgRstAssert ..
  | railPg => exact runs_execRailPg ..
  | railPgTimeout => exact (keeps_execRailPgTimeout ..).runs
  | railFault => exact (keeps_execRailFault ..).runs
  | aonSupplyLoss => exact runs_execAonSupplyLoss ..
  | refclkLoss die => exact (keeps_execRefclkLoss die s).runs
  | hptRefclkLoss => exact (keeps_execHptRefclkLoss ..).runs
  | thermtrip => exact (keeps_execThermtrip ..).runs
  | trst => exact (keeps_execTrst ..).runs
  | idcode => exact (keeps_execIdcode ..).runs
  | samplePreload => exact (keeps_execSamplePreload ..).runs
  | extest => exact (keeps_execExtest ..).runs
  | clamp => exact (keeps_execClamp ..).runs
  | highz => exact (keeps_execHighz ..).runs
  | extestPulse => exact (keeps_execExtestPulse ..).runs
  | extestTrain => exact (keeps_execExtestTrain ..).runs
  | bypass => exact (keeps_execBypass ..).runs
  | setdasa => exact (keeps_execSetdasa ..).runs
  | entdaa => exact (keeps_execEntdaa ..).runs
  | regRead => exact (keeps_execRegRead ..).runs
  | regWrite => exact (keeps_execRegWrite ..).runs
  | storeWrite => exact (keeps_execStoreWrite ..).runs
  | storeRead => exact (keeps_execStoreRead ..).runs
  | storeStatus => exact (keeps_execStoreStatus ..).runs
  | clocksStable => exact (keeps_execClocksStable ..).runs
  | prepareDone => exact (keeps_execPrepareDone ..).runs
  | kernelSuspend => exact (keeps_execKernelSuspend ..).runs
  | saveDone => exact (keeps_execSaveDone ..).runs
  | restoreDone => exact (keeps_execRestoreDone ..).runs
  | acquireRetry => exact (keeps_execAcquireRetry ..).runs
  | basecampEccError => exact (keeps_execBasecampEccError ..).runs
  | driveLinkLoss => exact (keeps_execDriveLinkLoss ..).runs
  | powerOn => exact runs_execPowerOn ..
  | storeWriteEnd => exact runs_execStoreWriteEnd ..
  | keyExchangeRsp => exact (keeps_execKeyExchangeRsp ..).runs
  | delayReq => exact (keeps_execDelayReq ..).runs
  | transportKeyRetire => exact (keeps_execTransportKeyRetire ..).runs
  | flitCrcFailure => exact (keeps_execFlitCrcFailure ..).runs
  | memoryDeviceMailbox => exact (keeps_execMemoryDeviceMailbox ..).runs
  | doeRequest => exact (keeps_execDoeRequest ..).runs

theorem exec_steady {c : Instr} {s t : State} (h : exec c s = .next t) : Steady s t := by
  obtain ⟨u, hu, hs⟩ := exec_runs c s
  rw [h] at hu
  cases hu
  exact hs

/-- Settles O6: each command's answer is one of its branches, and every branch is a next state. -/
theorem everyCommandRuns : Obligations.EveryCommandRuns := fun c s =>
  let ⟨t, h, _⟩ := exec_runs c s
  ⟨t, h⟩

/-- Settles O4. -/
theorem execLeavesQueue : Obligations.ExecLeavesQueue := fun _ _ _ h => (exec_steady h).pending

/-- Settles O5. -/
theorem fusesAreKept : Obligations.FusesAreKept := fun _ _ _ h => ⟨(exec_steady h).debug, (exec_steady h).revoked, (exec_steady h).svnMin⟩

/-- Settles O3: a step is a waiting command, a released one performed again, or one cycle of the AON clock, and each is steady but for the queue. -/
theorem stepKeepsSound : Obligations.StepKeepsSound := by
  intro s t hs hstep
  obtain ⟨c, rest, -, h⟩ | ⟨a, more, u, -, -, h, rfl⟩ | ⟨-, -, rfl⟩ := step_cases hstep
  · exact (exec_steady h).sound ⟨hs.store, hs.booted, hs.owner, hs.clock⟩
  · exact .of_base (State.base_resumed u a) ((exec_steady h).sound (.of_base (State.base_again s a more) hs))
  · exact s.steady_tick.sound hs

/-- Settles O1. -/
theorem stepRunsFrontCommand : Obligations.StepRunsFrontCommand := fun _ _ _ => rfl

end Sys2Proof.Machine

/-! PROOF. O7, O8, O9, O11: the package's resets, rails and fail-stop, and the sideband. -/

namespace Sys2Proof.Machine

/-! ### The package: reset, supply and rails -/

/-- Settles O7. -/
theorem packageResets : Obligations.PackageResets := by
  refine ⟨fun s haon hrst hbusy => ?_, fun s haon => ?_, fun s haon => ?_⟩
  · have hspoil : s.spoilWrite = s := by simp [State.spoilWrite, hbusy]
    refine ⟨s.wiped true, ?_, rfl, rfl, rfl, rfl, rfl, rfl, rfl, rfl, rfl, rfl, rfl, rfl, rfl, rfl⟩
    show execPkgRstAssert s = _
    rw [execPkgRstAssert, if_pos (by simp [haon, hrst]), hspoil]
  · have hout : s.spoilWrite.out = s.out := by
      unfold State.spoilWrite
      split <;> rfl
    refine ⟨_, if_pos haon, rfl, rfl, rfl, rfl, rfl, rfl, hout⟩
  · exact ⟨_, if_neg (by simp [haon]), rfl, rfl, rfl, rfl, rfl, rfl, rfl⟩

theorem bitAt_or_self (v n : Nat) : bitAt (v ||| 2 ^ n) n = true := by
  simp [bitAt]

/-- The image of slot 0, where it may run, boots and is measured. -/
theorem State.boot_of_mayRun {s : State} {img : BootImages} (hslot : s.bci.runSlot = 0) (himg : img.slot0 = true) (hmay : s.mayRun 0 = true) :
    (s.boot img).pkg.booted = true ∧ (s.boot img).bci.runSlot = 0 ∧ (s.boot img).bci.standby = true
      ∧ Tab.get? (s.boot img).sec.measured 3 = some (s.imageDigest 0) := by
  unfold State.boot
  dsimp only
  rw [if_pos (by simp [hslot, himg, hmay])]
  exact ⟨rfl, hslot, rfl, by simp [hslot]⟩

/-- Settles O8. -/
theorem railSequence : Obligations.RailSequence := by
  refine ⟨fun s img haon hrst => ?_, fun s rail img haon hrst hfail hhalt hen hpg hrail => ?_, fun s rail die haon hrst hen hpg hrail hdie => ?_⟩
  · show ∃ t, execPkgRstRelease img s = .next t ∧ _
    rw [execPkgRstRelease, if_neg (by simp [haon, hrst])]
    dsimp only
    by_cases himg : (img.aonA || img.aonB) = true
    · exact ⟨_, if_pos himg, rfl, rfl, fun _ => ⟨rfl, rfl⟩, fun h => absurd himg (by simp [h])⟩
    · exact ⟨_, if_neg himg, rfl, rfl, fun h => absurd h himg, fun _ => ⟨rfl, rfl⟩⟩
  · show ∃ t, execRailPg rail img s = .next t ∧ _
    rw [execRailPg, if_neg (by simp [haon, hrst, hfail, hhalt, hen, hpg, hrail])]
    dsimp only
    split
    · exact ⟨_, rfl, bitAt_or_self .., fun _ => ⟨bitAt_or_self .., rfl⟩, fun h => by omega⟩
    · refine ⟨_, rfl, ?_, fun h => by omega, fun _ hslot himg hmay => ?_⟩
      · unfold State.boot
        dsimp only
        (repeat' split) <;> exact bitAt_or_self ..
      · exact State.boot_of_mayRun (s := { s with pkg.railPg := s.pkg.railPg ||| 2 ^ rail }) hslot himg hmay
  · refine ⟨_, if_neg (by simp [haon, hrst, hen, hpg, hrail]), rfl, rfl, rfl, rfl, Nat.mod_eq_of_lt hdie, rfl⟩

/-! ### Fail-stop -/

/-- The first fail-stop of a package: its cause, its record and its interrupt, and every link idle (R745, R746). -/
theorem State.failStop_of_none {s : State} (h : s.rel.failCause = none) (row : Nat) :
    (s.failStop row).rel.failCause = some row ∧ (s.failStop row).failStopPin = true ∧ (s.failStop row).rel.failRecord.isSome = true ∧ (s.failStop row).runs = false
      ∧ (s.failStop row).home = s.home ∧ (∀ e ∈ (s.failStop row).lmf.ports, e.2.st = .down) ∧ (∀ e ∈ (s.failStop row).host.ports, e.2.up = false) := by
  rw [State.failStop, if_neg (by simp [h])]
  refine ⟨rfl, rfl, rfl, rfl, rfl, fun e he => ?_, fun e he => ?_⟩
  · obtain ⟨x, -, rfl⟩ := List.mem_map.1 he
    rfl
  · obtain ⟨x, -, rfl⟩ := List.mem_map.1 he
    rfl

theorem State.failStop_pkg (s : State) (row : Nat) : (s.failStop row).pkg = s.pkg := by
  unfold State.failStop
  split <;> rfl

theorem State.failStop_out {s : State} (h : s.rel.failCause = none) (row : Nat) : (s.failStop row).out = .ibi 1 :: s.out := by
  rw [State.failStop, if_neg (by simp [h])]

theorem State.not_runs_of_stopped {s : State} (h : s.rel.failCause.isSome = true) : ¬ s.runs = true := by
  simp [State.runs, Option.isSome_iff_ne_none.1 h]

/-- Settles O9. -/
theorem failStop : Obligations.FailStop := by
  refine ⟨fun s hlive haon hrst => ⟨fun rail die below hrail hpg => ?_, fun die => ?_, ?_, fun hboot => ?_⟩, fun s hstop => ?_⟩
  · refine ⟨_, if_neg (by simp [haon, hrst, hpg, hrail]), State.failStop_of_none (by exact hlive) 7, State.failStop_out (by exact hlive) 7, ?_⟩
    rw [State.failStop_pkg]
    exact ⟨rfl, rfl⟩
  · exact ⟨_, if_pos (by simp [haon, hrst]), State.failStop_of_none hlive 7, State.failStop_out hlive 7⟩
  · refine ⟨_, if_pos (by simp [haon, hrst]), State.failStop_of_none hlive 7, rfl, ?_⟩
    exact congrArg (Out.ibi 2 :: ·) (State.failStop_out hlive 7)
  · exact ⟨_, if_pos (by simp [State.runs, hlive, hboot]), State.failStop_of_none hlive 1, State.failStop_out hlive 1⟩
  · have hidle := State.not_runs_of_stopped hstop
    exact ⟨fun q => if_neg hidle, fun q d => if_neg hidle, fun q d f => if_neg hidle, fun p a => if_neg hidle, fun p a d x => if_neg hidle, fun r => if_neg hidle, fun r => if_neg hidle,
      fun r => if_neg hidle, fun p f => if_neg hidle, if_neg hidle, fun n => if_neg hidle⟩

/-! ### The sideband and the boot store -/

theorem State.sidebandUp_of_up {s : State} (haon : s.pkg.aonUp = true) (hside : s.pkg.sideband = true) : s.sidebandUp = true := by
  simp [State.sidebandUp, haon, hside]

/-- A virtual target without a dynamic address takes one (R860). -/
theorem State.takeAddr_of_free {s : State} {target addr : Nat} (hup : s.sidebandUp = true) (htarget : target = 0x3A ∨ target = 0x3B) (haddr : addr < 128)
    (hfree : Tab.has s.pkg.dynAddr target = false) : s.takeAddr target addr = { s with pkg.dynAddr := Tab.set s.pkg.dynAddr target addr } :=
  if_pos (by rcases htarget with rfl | rfl <;> simp [hup, haddr, hfree, i3cTargets])

theorem State.storeTakes_iff (s : State) (a : Nat) :
    s.storeTakes a = true ↔ a < 0x00210000 ∨ (0x01000000 ≤ a ∧ a < 0x21000000 ∧ (s.pkg.rstN = false ∨ s.sec.bootFail = true)) := by
  simp [State.storeTakes, and_assoc]

theorem exec_storeWrite_of_free {s : State} {a : Nat} {d : Bytes} (hup : s.sidebandUp = true) (ha : a % 256 = 0) (hd : d.length = 256)
    (hfree : s.pkg.storeBusy = none) :
    exec (.storeWrite a d) s =
      if s.storeTakes a then .next { s with pkg.storeStatus := 1, pkg.storeBusy := some (a, d) } else .next { s with pkg.storeStatus := 2 } := by
  show execStoreWrite a d s = _
  rw [execStoreWrite, if_neg (by simp [hup]), if_neg (by simp [ha, hd, hfree])]

/-- Settles O11. -/
theorem sidebandAndBootStore : Obligations.SidebandAndBootStore := by
  refine ⟨fun s haon hside => ?_, fun s haon hside => ?_⟩
  · have hup := State.sidebandUp_of_up haon hside
    refine ⟨fun target addr htarget haddr hfree => ?_, fun off hoff hlt => ?_, fun off w hoff hlt => ?_, fun off w hoff => ⟨?_, ?_⟩⟩
    · have htake := State.takeAddr_of_free hup htarget haddr hfree
      exact ⟨⟨_, congrArg Host.Outcome.next htake, Tab.get?_set_self ..⟩, ⟨_, congrArg Host.Outcome.next htake, Tab.get?_set_self ..⟩⟩
    · refine ⟨_, ?_, rfl⟩
      show execRegRead off s = _
      rw [execRegRead, if_neg (by simp [hup]), if_neg (by omega)]
      rfl
    · refine ⟨_, ?_, rfl⟩
      show execRegWrite off w s = _
      rw [execRegWrite, if_neg (by simp [hup]), if_neg (by omega)]
      rfl
    · show execRegRead off s = _
      rw [execRegRead, if_neg (by simp [hup]), if_pos (.inl hoff)]
    · show execRegWrite off w s = _
      rw [execRegWrite, if_neg (by simp [hup]), if_pos (.inl hoff)]
  · have hup := State.sidebandUp_of_up haon hside
    refine ⟨fun a d ha hd hfree htakes => ?_, fun a d ha hd hfree htakes => ?_, fun a d hbusy => ?_, fun a d hbusy => ?_, fun a ha hout => ?_, if_pos hup⟩
    · exact ⟨_, (exec_storeWrite_of_free hup ha hd hfree).trans (if_pos ((s.storeTakes_iff a).2 htakes)), rfl, rfl, rfl⟩
    · exact (exec_storeWrite_of_free hup ha hd hfree).trans (if_neg (mt (s.storeTakes_iff a).1 htakes))
    · show execStoreWrite a d s = _
      rw [execStoreWrite, if_neg (by simp [hup]), if_pos (.inr (.inr hbusy))]
    · refine ⟨{ s with pkg.store := Mem.writeN s.pkg.store a d, pkg.storeBusy := none, pkg.storeStatus := 0 }, ?_, rfl, rfl, Mem.readN_writeN_self ..,
        fun b hb => Mem.read_writeN_outside _ _ hb⟩
      show execStoreWriteEnd true s = _
      rw [execStoreWriteEnd, hbusy]
      rfl
    · show execStoreRead a s = _
      rw [execStoreRead, if_neg (by simp [hup]), if_neg (by simpa using ha), if_neg (by omega)]

end Sys2Proof.Machine

/-! PROOF. O13, O15: host windows and fabric time. -/

namespace Sys2Proof.Machine

/-! ### Host windows -/

@[simp] theorem State.decoder_setDecoder_self (s : State) (p n : Nat) (d : Decoder) : (s.setDecoder p n d).decoder p n = d := by
  simp [State.setDecoder, State.decoder]

theorem State.decoder_setDecoder_ne (s : State) (p : Nat) {n m : Nat} (d : Decoder) (hm : m ≠ n) : (s.setDecoder p n d).decoder p m = s.decoder p m := by
  simp [State.setDecoder, State.decoder, Tab.getD_set_ne _ _ _ hm]

theorem State.hport_setDecoder_ne (s : State) {p q : Nat} (n : Nat) (d : Decoder) (hq : q ≠ p) : (s.setDecoder p n d).hport q = s.hport q :=
  s.hport_setHport_ne _ hq

section
variable {s : State} {p n hpa size ways : Nat} (hruns : s.runs = true) (hup : (s.hport p).up = true) (hcxl : (s.hport p).pcie = false)
  (hfree : (s.decoder p n).committed = false)
include hruns hup hcxl hfree

theorem exec_hdmCommit_of_ok {w : HostWindow} (hcheck : s.hdmCheck p n hpa size ways = .ok w) :
    exec (.hdmCommit p n hpa size ways) s = .next (s.setDecoder p n
      { s.decoder p n with committed := true, errNC := false, status := Status.ok.code, hpa := hpa, size := size, ways := ways, win := some w }) := by
  show execHdmCommit p n hpa size ways s = _
  rw [execHdmCommit, whenUp_of_runs hruns, if_neg (by simp [hup, hcxl, hfree]), hcheck]

theorem exec_hdmCommit_of_error {st : Status} (hcheck : s.hdmCheck p n hpa size ways = .error st) :
    exec (.hdmCommit p n hpa size ways) s = .next (s.setDecoder p n { s.decoder p n with errNC := true, status := st.code, win := none }) := by
  show execHdmCommit p n hpa size ways s = _
  rw [execHdmCommit, whenUp_of_runs hruns, if_neg (by simp [hup, hcxl, hfree]), hcheck]

end

/-- Settles O13. -/
theorem hostWindowBindings : Obligations.HostWindowBindings := by
  refine ⟨fun s p n hruns hp hn hup hcxl hfree => ?_, fun s p n hruns hcom => ?_⟩
  · have herr : ∀ {hpa size ways : Nat} {st : Status}, s.hdmCheck p n hpa size ways = .error st → Does (.hdmCommit p n hpa size ways) s fun t =>
        (t.decoder p n).committed = false ∧ (t.decoder p n).errNC = true ∧ (t.decoder p n).status = st.code ∧ (t.decoder p n).win = none := fun hcheck =>
      ⟨_, exec_hdmCommit_of_error hruns hup hcxl hfree hcheck, by simp [hfree]⟩
    have hclash : ∀ {hpa size : Nat}, (∀ e ∈ (s.hport p).decs, e.1 ≠ n → e.2.committed = true → hpa + size ≤ e.2.hpa ∨ e.2.hpa + e.2.size ≤ hpa) →
        ((s.hport p).decs.any fun e => decide (e.1 ≠ n) && e.2.committed && decide (hpa < e.2.hpa + e.2.size) && decide (e.2.hpa < hpa + size)) = false := by
      intro hpa size h
      refine List.any_eq_false.2 fun e he hc => ?_
      simp only [Bool.and_eq_true, decide_eq_true_eq] at hc
      obtain ⟨⟨⟨hne, hcm⟩, h1⟩, h2⟩ := hc
      have := h e he hne hcm
      omega
    refine ⟨fun hpa size rid rg c hhpa hsize hpos hno hfn hctx hdes hlive hlo hhi hmode hfault => ?_, fun hpa size ways hways => ?_,
      fun hpa size hhpa hsize hpos hno hnone => ?_⟩
    · have hcheck : s.hdmCheck p n hpa size 0 = .ok {
          key := (s.decoder p n).keyReg
          rid := rid
          dev := (s.decoder p n).devHi * 4294967296 + (s.decoder p n).devLo
          ctx := c
          fn := (s.decoder p n).fnReg } := by
        simp only [State.hdmCheck, hclash hno, windowUnit, hhpa, hsize, hpos, hfn, hctx, hdes, hlive, Region.inside, hlo, hhi, hmode, hfault]
        simp
      exact ⟨_, exec_hdmCommit_of_ok hruns hup hcxl hfree hcheck, by simp; exact ⟨rfl, rfl⟩⟩
    · exact herr (by simp [State.hdmCheck, hways])
    · refine herr ?_
      simp only [State.hdmCheck, hclash hno, windowUnit, hhpa, hsize, hpos]
      rcases hnone with h | h <;> simp [h]
  · show ∃ t, execHdmUncommit p n s = .next t ∧ _
    rw [execHdmUncommit, whenUp_of_runs hruns, if_neg (by simp [hcom])]
    dsimp only
    split
    · refine ⟨_, rfl, by simp, by simp, fun m hm => ?_, fun q hq => ?_, rfl⟩
      · rw [State.decoder_setDecoder_ne _ _ _ hm, State.decoder, State.hport_setHport_self]
        rfl
      · rw [State.hport_setDecoder_ne _ _ _ hq, State.hport_setHport_ne _ _ hq]
    · exact ⟨_, rfl, by simp, by simp, fun m hm => State.decoder_setDecoder_ne _ _ _ hm, fun q hq => State.hport_setDecoder_ne _ _ _ hq, rfl⟩


/-! ### Fabric time -/

theorem State.foldl_emitted {α : Type} {f : State → α → State} (h : ∀ s a, ∃ o, f s a = { s with out := o }) (l : List α) (s : State) :
    ∃ o, l.foldl f s = { s with out := o } := by
  induction l generalizing s with
  | nil => exact ⟨s.out, rfl⟩
  | cons a l ih =>
    obtain ⟨o, ho⟩ := h s a
    obtain ⟨o', ho'⟩ := ih (f s a)
    exact ⟨o', by rw [List.foldl_cons, ho', ho]⟩

/-- Opening the session with the fabric manager sends messages only. -/
theorem State.openManager_emitted (s : State) : ∃ o, s.openManager = { s with out := o } := by
  unfold State.openManager
  split
  · exact State.foldl_emitted (fun t e => State.foldl_emitted (fun u _ => ⟨_, rfl⟩) _ t) _ s
  · exact ⟨s.out, rfl⟩

/-- A controller asks to join, or opens the session it needs for that (R708). -/
theorem State.askJoin_asked (s : State) : ∃ j o, s.askJoin = { s with sec.joinAsked := j, out := o } := by
  unfold State.askJoin
  split
  · exact ⟨true, _, rfl⟩
  · obtain ⟨o, ho⟩ := s.openManager_emitted
    exact ⟨s.sec.joinAsked, o, ho⟩

@[simp] theorem State.askJoin_time (s : State) : s.askJoin.time = s.time := by
  obtain ⟨j, o, h⟩ := s.askJoin_asked
  rw [h]

@[simp] theorem State.askJoin_home (s : State) : s.askJoin.home = s.home := by
  obtain ⟨j, o, h⟩ := s.askJoin_asked
  rw [h]

theorem State.askJoin_of_timed {s t : State} {time : TimeUnit} {n : Nat} (ht : t = { s with time := time, freeCtr := n }) :
    ∃ time j o n, t.askJoin = { s with time := time, sec.joinAsked := j, out := o, freeCtr := n } := by
  obtain ⟨j, o, h⟩ := t.askJoin_asked
  exact ⟨time, j, o, n, by rw [h, ht]⟩

/-- An exchange changes fabric time, and by it at most that the controller asks to join. -/
theorem State.exchange_frame (s : State) (off : Int) (interval root : Nat) :
    ∃ time j o n, s.exchange off interval root = { s with time := time, sec.joinAsked := j, out := o, freeCtr := n } := by
  unfold State.exchange
  dsimp only
  split
  · exact ⟨_, s.sec.joinAsked, s.out, _, rfl⟩
  · exact ⟨_, s.sec.joinAsked, s.out, _, rfl⟩
  · exact ⟨_, s.sec.joinAsked, s.out, _, rfl⟩
  · split
    · exact State.askJoin_of_timed rfl
    · exact ⟨_, s.sec.joinAsked, s.out, _, rfl⟩

/-- A valid exchange is the last good one, under its source's root (R707). -/
theorem State.exchange_time (s : State) (off : Int) (interval root : Nat) :
    (s.exchange off interval root).time.lastGood = (s.exchange off interval root).time.now ∧ (s.exchange off interval root).time.root = root
      ∧ (s.exchange off interval root).time.everStepped = true := by
  unfold State.exchange
  dsimp only
  split
  · exact ⟨rfl, rfl, rfl⟩
  · exact ⟨rfl, rfl, rfl⟩
  · exact ⟨rfl, rfl, rfl⟩
  · split
    · simp [State.freed]
    · exact ⟨rfl, rfl, rfl⟩

/-- Once fabric time has been stepped an exchange only sets the rate (R713). -/
theorem State.exchange_of_stepped {s : State} (h : s.time.everStepped = true) (off : Int) (interval root : Nat) :
    (s.exchange off interval root).time.now = s.time.now ∧ (s.exchange off interval root).time.rate = rateFor off interval := by
  unfold State.exchange
  simp only [h, Bool.not_true, Bool.false_eq_true, if_false]
  split
  · exact ⟨rfl, rfl⟩
  · exact ⟨rfl, rfl⟩
  · exact ⟨rfl, rfl⟩
  · split
    · simp [State.freed]
    · exact ⟨rfl, rfl⟩

/-- The first exchange steps fabric time forward to the source's (R707, R712). -/
theorem State.exchange_of_unsync {s : State} (hst : s.time.st = .unsync) (h : s.time.everStepped = false) {off : Int} (hlt : s.time.now + off.toNat < 2 ^ 64)
    (interval root : Nat) :
    (s.exchange off interval root).time.st = .locking ∧ (s.exchange off interval root).time.now = s.time.now + off.toNat
      ∧ (s.exchange off interval root).time.stepped = true := by
  have hnow : (s.time.now + off.toNat) % 18446744073709551616 = s.time.now + off.toNat := Nat.mod_eq_of_lt hlt
  unfold State.exchange
  simp [hst, h, State.freed, hnow]

theorem State.exchange_of_holdover {s : State} (hst : s.time.st = .holdover) (off : Int) (interval root : Nat) :
    (s.exchange off interval root).time.st = .locking := by
  unfold State.exchange
  simp [hst]

/-- The sixteenth exchange within 1 µs enters LOCKED (R707). -/
theorem State.exchange_of_locking {s : State} (hst : s.time.st = .locking) (hgood : s.time.good = 15) {off : Int} (hoff : off.natAbs ≤ 1000) (interval root : Nat) :
    (s.exchange off interval root).time.st = .locked := by
  unfold State.exchange
  simp [hst, hgood, hoff]

theorem State.exchange_home (s : State) (off : Int) (interval root : Nat) : (s.exchange off interval root).home = s.home := by
  obtain ⟨time, j, o, n, h⟩ := s.exchange_frame off interval root
  rw [h]

/-- The state in which an answer of the partner at a port, `steps` from the root, has been taken. -/
def State.timeHeard (s : State) (n steps : Nat) : State := { s with time.asked := Tab.erase s.time.asked n, time.adv := Tab.set s.time.adv n steps }

/-- The answer to this controller's own request, from the partner it follows, is a valid exchange (R711). -/
theorem exec_timeSyncResponse {s : State} {n steps seq t1 : Nat} (t2 t3 t4 err root : Nat) (hruns : s.runs = true) (hup : (s.lport n).st = .up) (hsteps : steps < 255)
    (hsource : s.time.source = 0) (hadv : s.time.adv = [(n, steps)]) (hasked : Tab.get? s.time.asked n = some (seq, t1)) :
    exec (.timeSyncResponse n steps seq t1 t2 t3 t4 err root) s =
      .next ((s.timeHeard n steps).exchange ((((t2 : Int) - t1) - ((t4 : Int) - t3)) / 2) 1000000 root) := by
  have hfollowed : (s.timeHeard n steps).time.followed = some (n, steps) := by
    simp [State.timeHeard, TimeUnit.followed, hadv, Tab.set, hsteps]
  have hband : (s.timeHeard n steps).time.inBand = true := by simp [State.timeHeard, TimeUnit.inBand, hsource]
  have hptp : (s.timeHeard n steps).time.onPtp = false := by simp [State.timeHeard, TimeUnit.onPtp, hsource]
  show execTimeSyncResponse n steps seq t1 t2 t3 t4 err root s = _
  rw [execTimeSyncResponse, whenUp_of_runs hruns, if_neg (by simp [hup, hasked])]
  simp only [State.timeHeard] at hfollowed hband hptp ⊢
  simp [hfollowed, hband, hptp]

theorem rateFor_microsecond (off : Int) : rateFor off 1000000 = max (-20000) (min 20000 (off * 100)) := by
  have h : off * 100000000 / ((max 1 1000000 : Nat) : Int) = off * 100 := by
    norm_num
    omega
  rw [rateFor, h]

/-- A PTP message on the port and domain of TIME_CFG is handled (R714). -/
theorem State.onPtp_of_ptp {s : State} (hruns : s.runs = true) (hsource : s.time.source = 1) (f : State → State) :
    s.onPtp s.time.ptpPort s.time.ptpDomain f = .next (f s) := by
  rw [State.onPtp, whenUp_of_runs hruns, if_pos (by simp [TimeUnit.onPtp, hsource])]

/-- Settles O15. -/
theorem timeUnit : Obligations.TimeUnit := by
  refine ⟨fun s n hruns hup => ⟨?_, fun seq t1 arr => ?_, fun steps seq t1 t2 t3 t4 err root hsteps hsource hstepped hadv hasked => ?_⟩,
    ⟨fun s n steps seq t1 t2 t3 t4 err root hruns hup hsteps hsource hadv hasked => ?_, fun s hruns hst hlate => ?_⟩, fun s hruns => ⟨fun hsource => ?_, fun hsource hptp hlate hst => ?_⟩⟩
  · show ∃ t, execTimeSyncSend n s = .next t ∧ _
    rw [execTimeSyncSend, whenUp_of_runs hruns, if_neg (by simp [hup])]
    exact ⟨_, rfl, _, Tab.get?_set_self .., rfl⟩
  · refine ⟨_, ?_, rfl⟩
    show execTimeSync n seq t1 arr s = _
    rw [execTimeSync, whenUp_of_runs hruns, if_neg (by simp [hup])]
  · refine ⟨_, exec_timeSyncResponse t2 t3 t4 err root hruns hup hsteps hsource hadv hasked, ?_⟩
    have hs := State.exchange_of_stepped (s := s.timeHeard n steps) hstepped ((((t2 : Int) - t1) - ((t4 : Int) - t3)) / 2) 1000000 root
    obtain ⟨hgood, hroot, -⟩ := State.exchange_time (s.timeHeard n steps) ((((t2 : Int) - t1) - ((t4 : Int) - t3)) / 2) 1000000 root
    refine ⟨hs.1, hgood.trans hs.1, hroot, hs.2.trans (rateFor_microsecond _), ?_⟩
    rw [State.exchange_home]
    rfl
  · have hexec := exec_timeSyncResponse t2 t3 t4 err root hruns hup hsteps hsource hadv hasked
    refine ⟨fun hst hstepped _ hlt => ⟨_, hexec, ?_⟩, fun hst hgood hoff => ⟨_, hexec, State.exchange_of_locking (s := s.timeHeard n steps) hst hgood hoff _ _⟩,
      fun hst => ⟨_, hexec, State.exchange_of_holdover (s := s.timeHeard n steps) hst _ _ _⟩⟩
    have h := State.exchange_of_unsync (s := s.timeHeard n steps) hst hstepped hlt 1000000 root
    exact ⟨h.1, h.2.1, h.2.2, (State.exchange_time ..).2.2⟩
  · show ∃ t, execHoldoverEntry s = .next t ∧ _
    rw [execHoldoverEntry, whenUp_of_runs hruns, if_pos ⟨hst, hlate⟩]
    exact ⟨_, rfl, rfl, rfl, rfl, by simp [State.errNow, State.now]⟩
  · refine ⟨fun k => ?_, fun seq o a => ?_, fun seq o a => ?_, fun seq o a hsync horigin => ?_, fun seq dep => ?_,
      fun seq n a o dep rec hsync horigin hdelay hst hstepped => ?_⟩
    · show ∃ t, execAnnounce _ _ k s = .next t ∧ _
      rw [execAnnounce, State.onPtp_of_ptp hruns hsource]
      exact ⟨_, rfl, rfl⟩
    · show ∃ t, execSync _ _ seq o a false s = .next t ∧ _
      rw [execSync, State.onPtp_of_ptp hruns hsource]
      exact ⟨_, rfl, rfl, rfl⟩
    · show ∃ t, execSync _ _ seq o a true s = .next t ∧ _
      rw [execSync, State.onPtp_of_ptp hruns hsource]
      exact ⟨_, rfl, rfl, rfl⟩
    · show ∃ t, execFollowUp _ _ seq o s = .next t ∧ _
      rw [execFollowUp, State.onPtp_of_ptp hruns hsource]
      exact ⟨_, rfl, by simp [hsync, horigin]⟩
    · show ∃ t, execDelayReq _ _ seq dep s = .next t ∧ _
      rw [execDelayReq, State.onPtp_of_ptp hruns hsource]
      exact ⟨_, rfl, rfl, rfl⟩
    · show ∃ t, execDelayResp _ _ seq rec s = .next t ∧ _
      rw [execDelayResp, State.onPtp_of_ptp hruns hsource]
      refine ⟨_, rfl, ?_⟩
      simp only [hsync, horigin, hdelay]
      rw [if_neg (by simp)]
      have hs := fun off interval root => State.exchange_of_stepped (s := { s with time.sync := none, time.origin := none, time.delay := none }) hstepped off interval root
      exact ⟨State.exchange_of_holdover (by exact hst) .., (hs _ _ _).1, (State.exchange_time ..).1.trans (hs _ _ _).1⟩
  · show ∃ t, execPtpFallback s = .next t ∧ _
    rw [execPtpFallback, whenUp_of_runs hruns, if_pos ⟨hsource, hptp, hlate⟩]
    exact ⟨_, rfl, rfl, if_neg hst, rfl⟩

end Sys2Proof.Machine

/-! PROOF. O60, O43, O42, O46, O50, O22, O21: frames of events, sessions, contexts, counters, the journal, registers and compute queues. -/

namespace Sys2Proof.Machine

/-! ### Frames of events

Each relation says which part of the machine an event of its family may change. It is reflexive, and each operation that the family uses stays within it. -/

/-- What holds of the state itself and of what `f` makes of it holds after `whenUp`. -/
theorem next_whenUp {P : State → Prop} {s t : State} {f : State → Result} (h : whenUp s f = .next t) (hs : P s) (hf : f s = .next t → P t) : P t := by
  unfold whenUp at h
  split at h
  · exact hf h
  · cases h
    exact hs

/-- Only fabric time's own state changes, and whether the controller asks to join (R708). -/
def OnlyTime (s t : State) : Prop := t = { s with time := t.time, sec := { s.sec with joinAsked := t.sec.joinAsked }, out := t.out, freeCtr := t.freeCtr }

theorem OnlyTime.refl (s : State) : OnlyTime s s := rfl

/-- An event that does nothing unless a condition holds, and then changes fabric time's own state, is within it. -/
theorem OnlyTime.of_ite {s t u v : State} {p : Prop} [Decidable p] (h : (if p then .next u else .next v : Result) = .next t) (hu : OnlyTime s u) (hv : OnlyTime s v) :
    OnlyTime s t := by
  split at h <;> cases h
  · exact hu
  · exact hv

theorem OnlyTime.exchange (s : State) (time : TimeUnit) (off : Int) (interval root : Nat) : OnlyTime s (State.exchange { s with time := time } off interval root) := by
  obtain ⟨time', j, o, n, h⟩ := State.exchange_frame { s with time := time } off interval root
  rw [h]
  rfl

/-- An exchange stays fabric time's own whether or not PTP was left before it (R715). -/
theorem OnlyTime.exchange_ite (s : State) (p : Prop) [Decidable p] (time₁ time₂ : TimeUnit) (off : Int) (interval root : Nat) :
    OnlyTime s (State.exchange (if p then { s with time := time₁ } else { s with time := time₂ }) off interval root) := by
  split
  · exact .exchange s time₁ off interval root
  · exact .exchange s time₂ off interval root

theorem OnlyTime.onPtp {s t : State} {m d : Nat} {f : State → State} (h : s.onPtp m d f = .next t) (hf : OnlyTime s (f s)) : OnlyTime s t := by
  refine next_whenUp h (.refl s) fun h => ?_
  split at h <;> cases h
  · exact hf
  · exact .refl s

theorem onlyTime_timeSyncResponse {s t : State} {n steps seq t1 t2 t3 t4 err root : Nat} (h : execTimeSyncResponse n steps seq t1 t2 t3 t4 err root s = .next t) :
    OnlyTime s t := by
  refine next_whenUp h (.refl s) fun h => ?_
  dsimp only at h
  split at h
  · cases h
    exact .refl s
  · exact .of_ite h rfl (.exchange_ite s _ _ _ _ _ _)

theorem onlyTime_delayResp {s t : State} {m d seq received : Nat} (h : execDelayResp m d seq received s = .next t) : OnlyTime s t := by
  refine .onPtp h ?_
  split
  · split
    · exact .refl s
    · exact .exchange s _ _ _ _
  · exact .refl s

theorem onlyTime_followUp {s t : State} {m d seq origin : Nat} (h : execFollowUp m d seq origin s = .next t) : OnlyTime s t := by
  refine .onPtp h ?_
  split
  · split <;> rfl
  · exact .refl s

/-- The events of the time unit change its own state (R708). -/
theorem onlyTime_of_timeEvent {c : Instr} {s t : State} (hc : timeEvent c = true) (h : exec c s = .next t) : OnlyTime s t := by
  cases c <;> try exact absurd hc Bool.false_ne_true
  case timeSyncSend n => exact next_whenUp (show execTimeSyncSend n s = _ from h) (.refl s) fun h => .of_ite h (.refl s) rfl
  case timeSync n seq t1 a => exact next_whenUp (show execTimeSync n seq t1 a s = _ from h) (.refl s) fun h => .of_ite h (.refl s) rfl
  case timeSyncResponse n k seq t1 t2 t3 t4 err root => exact onlyTime_timeSyncResponse (err := err) h
  case holdoverEntry => exact next_whenUp (show execHoldoverEntry s = _ from h) (.refl s) fun h => .of_ite h rfl (.refl s)
  case ptpFallback => exact next_whenUp (show execPtpFallback s = _ from h) (.refl s) fun h => .of_ite h rfl (.refl s)
  case announce m d n => exact .onPtp (show execAnnounce m d n s = _ from h) rfl
  case sync m d n o a two => exact .onPtp (show execSync m d n o a two s = _ from h) rfl
  case followUp => exact onlyTime_followUp h
  case delayResp => exact onlyTime_delayResp h
  case delayReq m d n x => exact .onPtp (show execDelayReq m d n x s = _ from h) rfl

/-- Only what has been agreed with the SPDM peers changes (R775 to R778). -/
def OnlyPeers (s t : State) : Prop := t = { s with sec := { s.sec with peers := t.sec.peers }, out := t.out, nextId := t.nextId }

theorem OnlyPeers.refl (s : State) : OnlyPeers s s := rfl

/-- A refusal, or an answer, of the responder changes nothing more. -/
theorem OnlyPeers.of_ite {s t u v : State} {p : Prop} [Decidable p] (h : (if p then .next u else .next v : Result) = .next t) (hu : OnlyPeers s u) (hv : OnlyPeers s v) :
    OnlyPeers s t := by
  split at h <;> cases h
  · exact hu
  · exact hv

/-- The requests that are checked twice: for the algorithms, then for the slot or the index. -/
theorem OnlyPeers.of_ite_ite {s t u v w : State} {p q : Prop} [Decidable p] [Decidable q]
    (h : (if p then .next u else if q then .next v else .next w : Result) = .next t) (hu : OnlyPeers s u) (hv : OnlyPeers s v) (hw : OnlyPeers s w) :
    OnlyPeers s t := by
  split at h
  · cases h
    exact hu
  · exact .of_ite h hv hw

theorem onlyPeers_of_spdmRequest {c : Instr} {s t : State} (hc : spdmRequest c = true) (h : exec c s = .next t) : OnlyPeers s t := by
  cases c <;> try exact absurd hc Bool.false_ne_true
  case getVersion p => exact next_whenUp (show execGetVersion p s = _ from h) (.refl s) fun h => by cases h; rfl
  case getCapabilities p => exact next_whenUp (show execGetCapabilities p s = _ from h) (.refl s) fun h => .of_ite h rfl rfl
  case negotiateAlgorithms p o => exact next_whenUp (show execNegotiateAlgorithms p o s = _ from h) (.refl s) fun h => .of_ite h rfl rfl
  case getDigests p => exact next_whenUp (show execGetDigests p s = _ from h) (.refl s) fun h => .of_ite h rfl rfl
  case getCertificate p n => exact next_whenUp (show execGetCertificate p n s = _ from h) (.refl s) fun h => .of_ite_ite h rfl rfl rfl
  case challenge p n => exact next_whenUp (show execChallenge p n s = _ from h) (.refl s) fun h => .of_ite_ite h rfl rfl rfl
  case getMeasurements p n x => exact next_whenUp (show execGetMeasurements p n x s = _ from h) (.refl s) fun h => .of_ite_ite h rfl rfl rfl
  case keyExchange p x => exact next_whenUp (show execKeyExchange p x s = _ from h) (.refl s) fun h => .of_ite h rfl rfl

/-- Only the functions' windows change (R594, R608). -/
def OnlyWindows (s t : State) : Prop := t = { s with host := { s.host with fns := t.host.fns }, out := t.out }

theorem OnlyWindows.refl (s : State) : OnlyWindows s s := rfl

theorem OnlyWindows.vector {s t : State} (h : OnlyWindows s t) (p f v : Nat) : OnlyWindows s (t.vector p f v) := by
  unfold OnlyWindows at h ⊢
  unfold State.vector
  dsimp only
  split <;> (rw [h]; rfl)

theorem onlyWindows_msgWrite (s : State) (p f n : Nat) (x : Word) : OnlyWindows s (s.msgWrite p f n x) := by
  unfold State.msgWrite
  dsimp only
  split
  · exact .refl s
  · split
    · exact .vector (t := s.setFnWin p f _) rfl p f 4
    · rfl

theorem onlyWindows_cqEnApply {s t : State} {p : Nat} (h : execCqEnApply p s = .next t) : OnlyWindows s t := by
  refine next_whenUp h (.refl s) fun h => ?_
  dsimp only at h
  split at h
  · cases h
    exact .refl s
  · (repeat' split at h) <;> cases h
    · exact .refl s
    · rfl
    · rfl
    · rfl
    · refine .vector ?_ p 0 4
      rfl

theorem onlyWindows_of_windowEvent {c : Instr} {s t : State} (hc : windowEvent c = true) (h : exec c s = .next t) : OnlyWindows s t := by
  cases c <;> try exact absurd hc Bool.false_ne_true
  case mbxMsgWrite p f n x => exact next_whenUp (show execMbxMsgWrite p f n x s = _ from h) (.refl s) fun h => by cases h; exact onlyWindows_msgWrite s p f n x
  case cqEnable p => exact next_whenUp (show execCqEnable p s = _ from h) (.refl s) fun h => by cases h; rfl
  case cqDisable p => exact next_whenUp (show execCqDisable p s = _ from h) (.refl s) fun h => by cases h; rfl
  case cqEnApply => exact onlyWindows_cqEnApply h

/-- Only domain `d` changes (R690). -/
def OnlyDomain (d : Domain) (s t : State) : Prop := t = { s with pow := { s.pow with doms := t.pow.doms } } ∧ ∀ e ∈ t.pow.doms, e ∈ s.pow.doms ∨ e.dom = d

theorem OnlyDomain.refl (d : Domain) (s : State) : OnlyDomain d s s := ⟨rfl, fun _ he => .inl he⟩

theorem OnlyDomain.setDomain {d : Domain} {e : DomEntry} (s : State) (hd : e.dom = d) : OnlyDomain d s (s.setDomain e) := by
  refine ⟨rfl, fun x hx => ?_⟩
  obtain ⟨y, hy, rfl⟩ : ∃ y ∈ s.pow.doms, (if y.dom = e.dom then e else y) = x := List.mem_map.mp hx
  split
  · exact .inr hd
  · exact .inl hy

/-- A domain's entry is of that domain. -/
theorem State.domain_dom (s : State) (d : Domain) : (s.domain d).dom = d := by
  unfold State.domain
  cases hf : s.pow.doms.find? (fun e => decide (e.dom = d)) with
  | none => rfl
  | some e => simpa using List.find?_some hf

theorem onlyDomain_gateTimeout {d : Domain} {s t : State} (h : execGateTimeout d s = .next t) : OnlyDomain d s t := by
  refine next_whenUp h (.refl d s) fun h => ?_
  dsimp only at h
  (repeat' split at h) <;> cases h
  · exact .refl d s
  · exact .refl d s
  · exact .setDomain s (s.domain_dom d)

theorem onlyDomain_offTimeout {d : Domain} {s t : State} (h : execOffTimeout d s = .next t) : OnlyDomain d s t := by
  refine next_whenUp h (.refl d s) fun h => ?_
  split at h <;> cases h
  · exact .setDomain s (s.domain_dom d)
  · exact .refl d s

/-- Settles O60: each family of events by its own frame. -/
theorem eventFrames : Obligations.EventFrames := by
  intro c s t h
  refine ⟨fun hc => onlyTime_of_timeEvent hc h, fun hc => onlyPeers_of_spdmRequest hc h, fun hc => onlyWindows_of_windowEvent hc h, ?_⟩
  rintro d (rfl | rfl)
  · exact onlyDomain_gateTimeout h
  · exact onlyDomain_offTimeout h


/-! ### Sessions, configuration and deadlines -/

/-- The RS fields of a request's own function, where it has one, move only that function's window (R605). -/
def State.rsSrc (s : State) (r : BciReq) : State := match r.src with | .fn p f => s.rsFn p f | _ => s

@[simp] theorem State.rsSrc_bci (s : State) (r : BciReq) : (s.rsSrc r).bci = s.bci := by
  unfold State.rsSrc
  split <;> rfl

@[simp] theorem State.rsSrc_home (s : State) (r : BciReq) : (s.rsSrc r).home = s.home := by
  unfold State.rsSrc
  split <;> rfl

/-- HELLO at MAJOR 3 agrees on the lower of the two minor versions (R562, R563). -/
theorem answers_hello {s u : State} {r : BciReq} {i : Issuer} {n : Nat}
    (hready : s.ready (.hello r) { BciRow.f 1 1 with resv := fun r => above r 1 16 } r = some (i, u)) (hchan : u.reqChannel r = some n) (hmajor : fld (r.w 1) 7 0 = 3) :
    ∃ ws, Answers (.hello r) s r ws fun t => (t.channel n).session = some (3, min (fld (r.w 1) 15 8) 4) ∧ (wAt ws 0) = 3 + 256 * min (fld (r.w 1) 15 8) 4 ∧ t.home = u.home := by
  have hexec : exec (.hello r) s = execHello r s := rfl
  unfold execHello at hexec
  rw [bciServe_of_ready hready] at hexec
  simp only [hchan, hmajor] at hexec
  rw [if_neg (by decide)] at hexec
  refine ⟨_, State.rsSrc (u.setChannel n { u.channel n with session := some (3, min (fld (r.w 1) 15 8) 4) }) r, hexec, ?_, ?_, ?_⟩
  · simp [State.channel]
  · have hw : ((BitVec.ofNat 32 (3 + 256 * min (fld (r.w 1) 15 8) 4)).toNat) = 3 + 256 * min (fld (r.w 1) 15 8) 4 := by
      rw [BitVec.toNat_ofNat, Nat.mod_eq_of_lt (by omega)]
    exact hw
  · rw [State.rsSrc_home]
    rfl

/-- OP_STATUS reports an operation to the context that started it (R567). -/
theorem exec_opStatus_of_issuer {s u : State} {r : BciReq} {i : Issuer} {o : LongOp} (hready : s.ready (.opStatus r) { BciRow.f 2 1 with minor := some 0 } r = some (i, u))
    (hop : u.bci.ops.find? (fun o => decide (o.id = r.w 1)) = some o) (hissuer : o.issuer = some (i.eid, i.ctx)) :
    exec (.opStatus r) s = .next (u.respond r .ok o.words) := by
  have hexec : exec (.opStatus r) s = execOpStatus r s := rfl
  unfold execOpStatus at hexec
  rw [bciServe_of_ready hready] at hexec
  rw [hexec]
  simp only [hop, hissuer, decide_true, Bool.or_true, if_true]

/-- CONFIG_SET keeps each of the three times within its limits (R583). -/
theorem answers_configSet {s u : State} {r : BciReq} {i : Issuer} (hready : s.ready (.configSet r) { BciRow.o 3 3 with minor := some 0 } r = some (i, u)) :
    (r.w 1 = 1 → 10000 ≤ r.d 2 → r.d 2 ≤ u.bci.txnTimeout / 2 → Answers (.configSet r) s r [] fun t => t = { u with bci.faultHold := r.d 2 })
    ∧ (r.w 1 = 2 → 2000 ≤ r.d 2 → r.d 2 ≤ 10000000 → Answers (.configSet r) s r [] fun t => t = { u with bci.suspendAfter := r.d 2 })
    ∧ (r.w 1 = 3 → 100000 ≤ r.d 2 → r.d 2 ≤ 1000000000 → 2 * u.bci.faultHold ≤ r.d 2 → Answers (.configSet r) s r [] fun t => t = { u with bci.txnTimeout := r.d 2 }) := by
  have hexec : exec (.configSet r) s = execConfigSet r s := rfl
  unfold execConfigSet at hexec
  rw [bciServe_of_ready hready] at hexec
  refine ⟨fun hid hlo hhi => ?_, fun hid hlo hhi => ?_, fun hid hlo hhi hhold => ?_⟩
  · simp only [hid] at hexec
    rw [if_neg (by omega)] at hexec
    exact ⟨_, hexec, rfl⟩
  · simp only [hid] at hexec
    rw [if_neg (by omega)] at hexec
    exact ⟨_, hexec, rfl⟩
  · simp only [hid] at hexec
    rw [if_neg (by omega), if_neg (by omega)] at hexec
    exact ⟨_, hexec, rfl⟩

theorem exec_configGet {s u : State} {r : BciReq} {i : Issuer} (hready : s.ready (.configGet r) { BciRow.o 4 1 with minor := some 0 } r = some (i, u)) :
    (r.w 1 = 1 → exec (.configGet r) s = .next (u.respond r .ok (two u.bci.faultHold)))
    ∧ (r.w 1 = 2 → exec (.configGet r) s = .next (u.respond r .ok (two u.bci.suspendAfter)))
    ∧ (r.w 1 = 3 → exec (.configGet r) s = .next (u.respond r .ok (two u.bci.txnTimeout))) := by
  have hexec : exec (.configGet r) s = execConfigGet r s := rfl
  unfold execConfigGet at hexec
  rw [bciServe_of_ready hready] at hexec
  rw [hexec]
  refine ⟨fun hid => ?_, fun hid => ?_, fun hid => ?_⟩ <;> simp only [hid]

/-- NOTICE_RING_SET starts an empty ring where the issuer may write it (R579). -/
theorem answers_noticeRingSet {s u : State} {r : BciReq} {i : Issuer} {x : Nat × Region}
    (hready : s.ready (.noticeRingSet r) { BciRow.f 5 4 with minor := some 0, resv := fun r => offResv r 2 } r = some (i, u)) (hlo : 6 ≤ r.w 4) (hhi : r.w 4 ≤ 16)
    (hpermit : u.permit u.lmf.eid (r.w 1) (r.d 2) (32 * 2 ^ r.w 4) needW i = some x) :
    Answers (.noticeRingSet r) s r [] fun t => ∃ g, Tab.get? t.bci.rings (issuerKey i.eid i.ctx) = some g ∧ g.ring = some { key := r.w 1, off := r.d 2, log2 := r.w 4 }
      ∧ g.prod = 0 ∧ g.cons = 0 ∧ t.home = u.home := by
  have hexec : exec (.noticeRingSet r) s = execNoticeRingSet r s := rfl
  unfold execNoticeRingSet at hexec
  rw [bciServe_of_ready hready] at hexec
  simp only [hpermit] at hexec
  rw [if_neg (by omega)] at hexec
  refine ⟨State.rsSrc { u with bci.rings := Tab.set u.bci.rings (issuerKey i.eid i.ctx) _ } r, hexec, ?_⟩
  simp

/-- A deadline that passes without cancelling work is taken away, and its issuer is told (R577, R578). -/
theorem does_deadlineExpiry {s : State} {d : Deadline} (hruns : s.runs = true) (hfind : s.bci.deadlines.find? (fun x => decide (x.id = d.id)) = some d) (hat : d.at' ≤ s.now)
    (hmsg : s.msg? d.id = none) (habort : d.abort = false) : Does (.deadlineExpiry d.id) s fun t => (∀ x ∈ t.bci.deadlines, x.id ≠ d.id) ∧ t.cores = s.cores := by
  have hexec : exec (.deadlineExpiry d.id) s = execDeadlineExpiry d.id s := rfl
  unfold execDeadlineExpiry at hexec
  rw [whenUp_of_runs hruns] at hexec
  simp only [hfind] at hexec
  have hmsg' : ((s.dropDeadline d.id).msg? d.id).isSome = false := by simpa [State.msg?] using hmsg
  rw [if_neg (by omega), hmsg', habort] at hexec
  refine ⟨_, hexec, ?_, by simp⟩
  intro x hx
  have hkeep := congrArg Bci.deadlines ((s.dropDeadline d.id).notice_firmware d.eid d.ctx 1 false .deadline d.src d.obj d.at')
  simp only [Bci.firmware] at hkeep
  simp only [Bool.false_eq_true, if_false] at hx
  rw [hkeep] at hx
  simpa using (List.mem_filter.mp hx).2

/-- Settles O43: one lemma for each command. -/
theorem sessionCommands : Obligations.SessionCommands := by
  intro s r i u
  exact ⟨fun n hready hchan hmajor => answers_hello hready hchan hmajor, fun o hready hop hissuer => exec_opStatus_of_issuer hready hop hissuer, answers_configSet, exec_configGet,
    fun x hready hlo hhi hpermit => answers_noticeRingSet hready hlo hhi hpermit,
    fun d hruns hfind hat hmsg habort => does_deadlineExpiry hruns hfind hat hmsg habort⟩


/-! ### A request that waits at the owner's first function

The counterexamples below let this request run on a machine after reset in which only what the argument turns on has been changed. -/

/-- A BCI request of `ws.length` operand words from function 0 of port 0. -/
def ownerReq (op : Nat) (ws : List Nat) : BciReq :=
  { src := .fn 0 0, words := BitVec.ofNat 32 (op + 512 * ws.length + 65536 + 1048576 * 9) :: ws.map (BitVec.ofNat 32) }

/-- The state with the request in the function's channel, handed to firmware or not yet. -/
def State.atChannel (s : State) (r : BciReq) (handed : Bool) : State :=
  (s.setFnWin 0 0 { s.fnWin 0 0 with go := true }).setChannel 8
    { Channel.fresh (.fn 0 0) with session := some (3, 4), busy := some r.words, handed := handed, wasOwner := true }

/-- What the answer over a function's channel leaves of the contexts. -/
theorem State.respond_contexts {r : BciReq} {p f : Nat} (hsrc : r.src = .fn p f) (s : State) (st : Status) (ws : List Word) : (s.respond r st ws).bci.contexts = s.bci.contexts := by
  unfold State.respond
  simp only [hsrc]
  split
  · split
    · unfold State.respondFn State.vector
      dsimp only
      split <;> rfl
    · rfl
  · rfl

/-! ### CTX_SET of a floor -/

/-- A context with the given floor. -/
def floorCtx (floor : Nat) : Context := { st := .active, lineMode := false, shadowLimit := 100, floor := floor, bind := none, ctrs := [], key := 1 }

/-- CTX_SET of ATTR 3 of context 1 to 3,950,000. -/
def lowerFloor : BciReq := ownerReq 0x11 [1, 3, 3950000]

/-- A machine whose table of contexts is out of order: context 5 stands before context 1, so a write of context 1 adds an entry. -/
def unsortedCtxs : State := { State.reset with bci := { Bci.reset with contexts := [(5, floorCtx 0), (1, floorCtx 4000000)] } }

theorem unsortedCtxs_ready : (unsortedCtxs.atChannel lowerFloor true).ready (.ctxSet lowerFloor) { BciRow.o 0x11 3 with resv := fun r => above r 1 12 } lowerFloor
    = some ({ eid := unsortedCtxs.lmf.eid, ctx := 0, admin := true }, unsortedCtxs.atChannel lowerFloor false) := by
  decide +kernel

/-- The sum of R121 counts the old entry and the new one, passes the limit, and the command is refused. -/
theorem unsortedCtxs_exec : (match exec (.ctxSet lowerFloor) (unsortedCtxs.atChannel lowerFloor true) with
    | .next t => decide (t.bci.contexts = unsortedCtxs.bci.contexts)
    | _ => false) = true := by
  decide +kernel

/-- Refutes O42: the clause of CTX_SET for a floor asks only that the new floor is no more than the old. The state is any state, so its table of contexts may be out
of order; a write then adds an entry beside the old one, R121's sum grows past its limit, and the command is refused with ST_QUOTA. -/
theorem not_contextCommands : ¬ Obligations.ContextCommands := by
  intro holds
  obtain ⟨-, set, -⟩ := holds (unsortedCtxs.atChannel lowerFloor true) lowerFloor _ _
  obtain ⟨-, -, floor⟩ := set (floorCtx 4000000) unsortedCtxs_ready (by decide +kernel) (by decide +kernel)
  obtain ⟨u, hexec, hget, -⟩ := floor (by decide +kernel) (by decide +kernel)
  have hleft := unsortedCtxs_exec
  rw [hexec] at hleft
  have hctxs := of_decide_eq_true hleft
  rw [State.respond_contexts rfl] at hctxs
  rw [hctxs] at hget
  exact absurd hget (by decide +kernel)


/-! ### Counters -/

/-- An answer over a channel leaves the counters and their waits; what waits for the channel is released. -/
theorem State.respond_waits (s : State) (r : BciReq) (st : Status) (ws : List Word) :
    (s.respond r st ws).home.waits = s.home.waits ∧ (s.respond r st ws).home.counters = s.home.counters := by
  unfold State.respond
  dsimp only
  split
  · split
    · split
      · simp [State.respondFn, State.vector, State.channelDone, State.release]
        split <;> simp
      · simp
    · simp
  · split
    · split <;> simp [State.channelDone, State.release]
    · simp
  · simp
  · simp

/-- A wait that ends over a channel is taken away; the counters stay (R231). -/
theorem State.endWait_bci {s : State} {w : Wait} {q : BciReq} (hwho : w.who = .bci q) (st : Status) (ws : List Word) :
    (∀ x ∈ (s.endWait w st ws).home.waits, x.id ≠ w.id) ∧ (s.endWait w st ws).home.counters = s.home.counters := by
  unfold State.endWait
  simp only [hwho]
  rw [(State.respond_waits _ q st ws).1, (State.respond_waits _ q st ws).2]
  exact ⟨fun x hx => by simpa using (List.mem_filter.mp hx).2, rfl⟩

/-- COUNTER_ALLOC takes the lowest free index under its generation (R225, R226). -/
theorem answers_counterAlloc {s u : State} {r : BciReq} {i : Issuer} {rid : Nat} {rg : Region} (hready : s.ready (.counterAlloc r) (BciRow.f 72 1) r = some (i, u))
    (hlive : u.live (u.reqHome r) (r.w 1) = some (rid, rg)) (hroom : u.home.counters.length < 65536) :
    let idx := lowestFree (Tab.keys u.home.counters) 0
    let gen := Tab.getD u.home.ctrGens idx 1
    Answers (.counterAlloc r) s r (one (mkKey idx gen)) fun t =>
      t = { u with home.counters := Tab.set u.home.counters idx { gen := gen, rid := rid, rgen := rg.gen, eid := i.eid, ctx := i.ctx, bytes := 0, pkts := 0 } } := by
  have hexec : exec (.counterAlloc r) s = execCounterAlloc r s := rfl
  unfold execCounterAlloc at hexec
  rw [bciServe_of_ready hready] at hexec
  obtain ⟨-, hregion, -⟩ := State.live_some hlive
  simp only [hlive, State.newCounter, hregion] at hexec
  rw [if_neg (by omega)] at hexec
  exact ⟨_, hexec, rfl⟩

theorem State.counterOf_some {u : State} {key : Nat} {i : Issuer} {c : Counter} (h : u.counterOf key i = some c) : Tab.get? u.home.counters (keyIdx key) = some c := by
  unfold State.counterOf at h
  split at h
  · split at h <;> cases h
    assumption
  · cases h

/-- COUNTER_FREE ends the counter's generation: its key no longer names it (R227). -/
theorem answers_counterFree {s u : State} {r : BciReq} {i : Issuer} {c : Counter} (hc : u.counterOf (r.w 1) i = some c)
    (hready : s.ready (.counterFree r) (BciRow.f 73 1) r = some (i, u)) (hwaits : u.home.waits = []) :
    Answers (.counterFree r) s r [] fun t =>
      Tab.get? t.home.counters (keyIdx (r.w 1)) = none ∧ Tab.get? t.home.ctrGens (keyIdx (r.w 1)) = some (nextGen c.gen) := by
  have hexec : exec (.counterFree r) s = execCounterFree r s := rfl
  unfold execCounterFree at hexec
  rw [bciServe_of_ready hready] at hexec
  simp only [hc, State.freeCounter, State.counterOf_some hc, hwaits, List.filter_nil, List.foldl_nil] at hexec
  exact ⟨_, hexec, by simp⟩

theorem answers_counterReset {s u : State} {r : BciReq} {i : Issuer} {c : Counter} (hc : u.counterOf (r.w 1) i = some c)
    (hready : s.ready (.counterReset r) (BciRow.f 74 1) r = some (i, u)) :
    Answers (.counterReset r) s r [] fun t =>
      Tab.get? t.home.counters (keyIdx (r.w 1)) = some { c with bytes := 0, pkts := 0 } ∧ t = { u with home.counters := t.home.counters } := by
  have hexec : exec (.counterReset r) s = execCounterReset r s := rfl
  unfold execCounterReset at hexec
  rw [bciServe_of_ready hready] at hexec
  simp only [hc] at hexec
  exact ⟨_, hexec, by simp, rfl⟩

theorem exec_counterRead {s u : State} {r : BciReq} {i : Issuer} {c : Counter} (hc : u.counterOf (r.w 1) i = some c)
    (hready : s.ready (.counterRead r) (BciRow.f 75 1) r = some (i, u)) :
    exec (.counterRead r) s = .next (u.respond r .ok (two c.bytes ++ one c.pkts)) := by
  have hexec : exec (.counterRead r) s = execCounterRead r s := rfl
  unfold execCounterRead at hexec
  rw [bciServe_of_ready hready] at hexec
  simp only [hc] at hexec
  exact hexec

/-- The wait that a WAIT_COUNT without a deadline queues. -/
def countWait (u : State) (r : BciReq) (i : Issuer) : Wait :=
  { id := u.nextId, ckey := r.w 1, sel := r.w 5, tBytes := r.d 2, tPkts := r.w 4, who := .bci r, eid := i.eid, ctx := i.ctx }

/-- WAIT_COUNT answers at once where its condition holds, and waits where it does not (R230, R231). -/
theorem exec_waitCount {s u : State} {r : BciReq} {i : Issuer} {c : Counter} (hc : u.counterOf (r.w 1) i = some c)
    (hready : s.ready (.waitCount r) { BciRow.f 76 5 with dl := true, resv := fun r => decide (2 < r.w 5) } r = some (i, u)) (hdl : r.dl = false) :
    ((countWait u r i).holds c = true → exec (.waitCount r) s = .next (u.respond r .ok (two c.bytes ++ one c.pkts)))
    ∧ ((countWait u r i).holds c = false → Does (.waitCount r) s fun t => t = { u with nextId := u.nextId + 1, home.waits := u.home.waits ++ [countWait u r i] }) := by
  have hexec : exec (.waitCount r) s = execWaitCount r s := rfl
  unfold execWaitCount at hexec
  rw [bciServe_of_ready hready] at hexec
  simp only [hc, State.lateNotice, State.lateAbort, State.dueBci, hdl, Bool.false_and, Bool.false_eq_true, if_false] at hexec
  refine ⟨fun hholds => ?_, fun hholds => ?_⟩
  · exact hexec.trans (if_pos hholds)
  · exact ⟨_, hexec.trans (if_neg (Bool.eq_false_iff.mp hholds)), rfl⟩

/-- A wait whose condition holds is answered (R231). -/
theorem does_waitCountWake {s : State} {w : Wait} {c : Counter} {q : BciReq} (hruns : s.runs = true) (hfind : s.home.waits.find? (fun x => decide (x.id = w.id)) = some w)
    (hwho : w.who = .bci q) (hc : Tab.get? s.home.counters (keyIdx w.ckey) = some c) (hholds : w.holds c = true) :
    Does (.waitCountWake w.id) s fun t => (∀ x ∈ t.home.waits, x.id ≠ w.id) ∧ t.home.counters = s.home.counters := by
  have hexec : exec (.waitCountWake w.id) s = execWaitCountWake w.id s := rfl
  unfold execWaitCountWake at hexec
  rw [whenUp_of_runs hruns] at hexec
  simp only [hfind, hwho, hc, hholds, if_true] at hexec
  exact ⟨_, hexec, State.endWait_bci hwho _ _⟩

/-- A count has reached its target where their difference, as a signed number, is not negative (R230). -/
theorem countGe_iff_toInt {w count : Nat} (hw : 0 < w) (hcount : count < 2 ^ w) (target : Nat) :
    countGe count target w = decide (0 ≤ (BitVec.ofNat w count - BitVec.ofNat w target).toInt) := by
  have hdiff : (count + 2 ^ w - target % 2 ^ w) % 2 ^ w = (BitVec.ofNat w count - BitVec.ofNat w target).toNat := by
    have hlt : target % 2 ^ w < 2 ^ w := Nat.mod_lt _ (Nat.two_pow_pos w)
    rw [BitVec.toNat_sub, BitVec.toNat_ofNat, BitVec.toNat_ofNat, Nat.mod_eq_of_lt hcount]
    congr 1
    omega
  have hhalf : 2 ^ w = 2 * 2 ^ (w - 1) := by
    obtain ⟨k, rfl⟩ := Nat.exists_eq_succ_of_ne_zero hw.ne'
    exact Nat.pow_succ'
  rw [countGe, hdiff, BitVec.toInt_eq_toNat_cond]
  have hlt := (BitVec.ofNat w count - BitVec.ofNat w target).isLt
  congr 1
  rw [eq_iff_iff]
  split <;> omega

theorem Wait.holds_eq {w : Wait} {c : Counter} (hbytes : c.bytes < 2 ^ 64) (hpkts : c.pkts < 2 ^ 32) :
    w.holds c = ((decide (w.sel = 1) || decide (0 ≤ (BitVec.ofNat 64 c.bytes - BitVec.ofNat 64 w.tBytes).toInt))
      && (decide (w.sel = 0) || decide (0 ≤ (BitVec.ofNat 32 c.pkts - BitVec.ofNat 32 w.tPkts).toInt))) := by
  rw [Wait.holds, countGe_iff_toInt (by decide) hbytes, countGe_iff_toInt (by decide) hpkts]

/-- Settles O46: one lemma for each command and for the condition of a wait. -/
theorem counterCommands : Obligations.CounterCommands := by
  intro s r i u
  refine ⟨fun rid rg hready hlive hroom => answers_counterAlloc hready hlive hroom, fun c hc => ⟨answers_counterFree hc, answers_counterReset hc, exec_counterRead hc, exec_waitCount hc⟩,
    fun w c q hruns hfind hwho hc hholds => does_waitCountWake hruns hfind hwho hc hholds, ?_⟩
  rintro c sel b p w hbytes hpkts rfl rfl rfl
  exact Wait.holds_eq hbytes hpkts

/-! ### The journal -/

/-- In a region that is not mirrored an answer is given at once. -/
theorem State.answerAfter_of_alone {s : State} {rid : Nat} {rg : Region} (hregion : s.region? rid = some rg) (halone : rg.mirror = 0) (off : Nat) (data : Bytes)
    (log : Option LogNote) (st : Status) (a : Answer) : s.answerAfter rid off data log st a = s.giveAnswer st a := by
  unfold State.answerAfter
  simp only [hregion]
  rw [if_pos halone]

/-- An object found under a region and a name is of that region and name. -/
theorem State.object?_some {s : State} {rid name : Nat} {o : JObject} (h : s.object? rid name = some o) : o.rid = rid ∧ o.name = name := by
  simpa [State.object?] using List.find?_some h

/-- In a region that is not mirrored a journal change takes the next entry number and replaces the object, or removes it (R753). -/
theorem State.putObject_of_alone {s : State} {o : JObject} {rg : Region} (hregion : s.region? o.rid = some rg) (halone : rg.mirror = 0) (gone : Bool) :
    s.putObject o gone = { s with
      rel.entry := (s.rel.entry + 1) % 18446744073709551616
      rel.objects := s.rel.objects.filter (fun x => !(decide (x.rid = o.rid) && decide (x.name = o.name)))
        ++ if gone then [] else [{ o with entry := (s.rel.entry + 1) % 18446744073709551616 }] } := by
  unfold State.putObject
  dsimp only
  have hregion' (objs : List JObject) : State.region? { s.commit with rel.objects := objs } o.rid = some rg := hregion
  simp only [hregion']
  rw [if_pos halone]
  cases gone
  · rfl
  · simp [State.commit]

/-- What is found under the name afterwards. -/
theorem find_object_put (l : List JObject) (o : JObject) (rest : List JObject) :
    (l.filter (fun x => !(decide (x.rid = o.rid) && decide (x.name = o.name))) ++ rest).find? (fun x => decide (x.rid = o.rid) && decide (x.name = o.name))
      = rest.find? (fun x => decide (x.rid = o.rid) && decide (x.name = o.name)) := by
  rw [List.find?_append, List.find?_eq_none.mpr, Option.none_or]
  intro x hx
  simpa [imp_iff_not_or] using (List.mem_filter.mp hx).2

theorem State.object?_putObject {s : State} {o : JObject} {rg : Region} (hregion : s.region? o.rid = some rg) (halone : rg.mirror = 0) :
    (s.putObject o false).object? o.rid o.name = some { o with entry := (s.rel.entry + 1) % 18446744073709551616 } := by
  rw [State.putObject_of_alone hregion halone]
  exact (find_object_put _ o _).trans (by simp)

theorem State.object?_putObject_gone {s : State} {o : JObject} {rg : Region} (hregion : s.region? o.rid = some rg) (halone : rg.mirror = 0) :
    (s.putObject o true).object? o.rid o.name = none := by
  rw [State.putObject_of_alone hregion halone]
  exact (find_object_put _ o _).trans rfl

theorem State.putObject_region {s : State} {o : JObject} {rg : Region} (hregion : s.region? o.rid = some rg) (halone : rg.mirror = 0) (gone : Bool) :
    (s.putObject o gone).region? o.rid = some rg ∧ (s.putObject o gone).rel.entry = (s.rel.entry + 1) % 18446744073709551616 := by
  rw [State.putObject_of_alone hregion halone]
  exact ⟨hregion, rfl⟩

/-- The entry number that the next journal change takes (R753). -/
def State.nextEntry (s : State) : Nat := (s.rel.entry + 1) % 18446744073709551616

/-- A journal command from another endpoint that passes its checks changes the object, and answers the entry number (R753 to R756). -/
theorem journalStep_of_ok {cmd : Instr} {r : BciReq} {lseq : Nat} {i : Issuer} {u : State} {f : State → Nat → Nat → Nat → Option JObject → Except Status (JObject × Bool)}
    {q : LmfReq} {rid : Nat} {rg : Region} {o : JObject} {gone : Bool} (hsrc : r.src = .lmfBci q) (hfresh : u.logFind (u.issuerLog r i) lseq = none)
    (hlive : u.live (u.reqHome r) (r.w 1) = some (rid, rg)) (hrights : (rg.rightsOf i.eid i.ctx).covers needW = true) (hsealed : u.sealed rg i.eid = true)
    (hgate : u.gate rid rg = none) (halone : rg.mirror = 0) (hf : f u rid q.srcEid q.srcInc (u.object? rid (r.d 2)) = .ok (o, gone)) (horid : o.rid = rid) :
    ∃ t : State, journalStep cmd r lseq i u f = .next (t.respond r .ok (two u.nextEntry)) ∧ t.rel = (u.putObject o gone).rel := by
  subst horid
  obtain ⟨-, hregion, -⟩ := State.live_some hlive
  obtain ⟨hregion', hentry⟩ := State.putObject_region hregion halone gone
  unfold journalStep State.once State.onKey
  simp only [journalIssuer, hsrc, hfresh, hlive, hgate, hf]
  rw [if_neg (by simp [hrights, hsealed]), State.answerAfter_of_alone (rg := rg) (by exact hregion') halone]
  rw [State.nextEntry, ← hentry]
  exact ⟨_, rfl, rfl⟩

theorem State.object?_of_rel {s t : State} (h : t.rel = s.rel) (rid name : Nat) : t.object? rid name = s.object? rid name := by
  unfold State.object?
  rw [h]

/-- What the journal clauses ask of the object after a change: its owner, whom it is offered to, and its entry number. -/
def JournalObject (r : BciReq) (u : State) (rid : Nat) (t : State) (st : ObjState) (eid inc toEid toInc : Nat) : Prop :=
  t.object? rid (r.d 2) = some { rid := rid, name := r.d 2, st := st, eid := eid, inc := inc, toEid := toEid, toInc := toInc, entry := u.nextEntry }

section
variable {s u : State} {r : BciReq} {i : Issuer} {rid : Nat} {rg : Region} {q : LmfReq}

/-- A change that keeps the object leaves it with the next entry number. -/
theorem answers_journal_kept {mk : Instr} {lseq : Nat} {f : State → Nat → Nat → Nat → Option JObject → Except Status (JObject × Bool)} {st : ObjState} {eid inc toEid toInc entry : Nat}
    (hexec : exec mk s = journalStep mk r lseq i u f) (hsrc : r.src = .lmfBci q) (hfresh : u.logFind (u.issuerLog r i) lseq = none)
    (hlive : u.live (u.reqHome r) (r.w 1) = some (rid, rg)) (hrights : (rg.rightsOf i.eid i.ctx).covers needW = true) (hsealed : u.sealed rg i.eid = true)
    (hgate : u.gate rid rg = none) (halone : rg.mirror = 0)
    (hf : f u rid q.srcEid q.srcInc (u.object? rid (r.d 2))
      = .ok ({ rid := rid, name := r.d 2, st := st, eid := eid, inc := inc, toEid := toEid, toInc := toInc, entry := entry }, false)) :
    Answers mk s r (two u.nextEntry) fun t => JournalObject r u rid t st eid inc toEid toInc := by
  obtain ⟨t, hstep, hrel⟩ := journalStep_of_ok (cmd := mk) hsrc hfresh hlive hrights hsealed hgate halone hf rfl
  obtain ⟨-, hregion, -⟩ := State.live_some hlive
  refine ⟨t, hexec.trans hstep, ?_⟩
  show t.object? rid (r.d 2) = _
  rw [State.object?_of_rel hrel]
  exact State.object?_putObject (o := ⟨rid, r.d 2, st, eid, inc, toEid, toInc, entry⟩) hregion halone

/-- A change that ends the object leaves none under its name. -/
theorem answers_journal_gone {mk : Instr} {lseq : Nat} {f : State → Nat → Nat → Nat → Option JObject → Except Status (JObject × Bool)} {o : JObject}
    (hexec : exec mk s = journalStep mk r lseq i u f) (hsrc : r.src = .lmfBci q) (hfresh : u.logFind (u.issuerLog r i) lseq = none)
    (hlive : u.live (u.reqHome r) (r.w 1) = some (rid, rg)) (hrights : (rg.rightsOf i.eid i.ctx).covers needW = true) (hsealed : u.sealed rg i.eid = true)
    (hgate : u.gate rid rg = none) (halone : rg.mirror = 0) (ho : u.object? rid (r.d 2) = some o)
    (hf : f u rid q.srcEid q.srcInc (u.object? rid (r.d 2)) = .ok (o, true)) :
    Answers mk s r (two u.nextEntry) fun t => t.object? rid (r.d 2) = none := by
  obtain ⟨horid, honame⟩ := State.object?_some ho
  obtain ⟨t, hstep, hrel⟩ := journalStep_of_ok (cmd := mk) hsrc hfresh hlive hrights hsealed hgate halone hf horid
  obtain ⟨-, hregion, -⟩ := State.live_some hlive
  refine ⟨t, hexec.trans hstep, ?_⟩
  show t.object? rid (r.d 2) = none
  rw [State.object?_of_rel hrel, ← horid, ← honame]
  exact State.object?_putObject_gone (by rw [horid]; exact hregion) halone

theorem exec_journalClaim (h : s.ready (.journalClaim r) { BciRow.f 0x108 4 with minor := some 1 } r = some (i, u)) :
    exec (.journalClaim r) s = journalStep (.journalClaim r) r (r.w 4) i u fun s rid eid inc o =>
      if o.isSome then .error .state
      else if 262144 ≤ (s.rel.objects.filter (fun o => (s.region? o.rid).isSome)).length then .error .quota
      else .ok ({ rid := rid, name := r.d 2, st := .owned, eid := eid, inc := inc, toEid := 0, toInc := 0, entry := 0 }, false) := by
  show execJournalClaim r s = _
  rw [execJournalClaim, bciServe_of_ready h]

/-- JOURNAL_QUERY reports an object to an issuer that may read its region (R756). -/
theorem exec_journalQuery {o : JObject} (hlive : u.live (u.reqHome r) (r.w 1) = some (rid, rg)) (hsealed : u.sealed rg i.eid = true) (hgate : u.gate rid rg = none)
    (hrights : (rg.rightsOf i.eid i.ctx).covers needR = true) (hready : s.ready (.journalQuery r) { BciRow.f 0x10C 3 with minor := some 1 } r = some (i, u))
    (ho : u.object? rid (r.d 2) = some o) :
    exec (.journalQuery r) s = .next (u.respond r .ok ([BitVec.ofNat 32 (match o.st with | .owned => 1 | .offered => 2 | .orphaned => 3), BitVec.ofNat 32 o.eid, BitVec.ofNat 32 o.inc,
          BitVec.ofNat 32 o.toEid, BitVec.ofNat 32 o.toInc] ++ two o.entry)) := by
  show execJournalQuery r s = _
  rw [execJournalQuery, bciServe_of_ready hready]
  unfold State.onKey
  simp only [hlive, hgate, ho]
  exact if_neg (by simp [hrights, hsealed])

/-- JOURNAL_ASSIGN gives an orphaned object an owner (R757). -/
theorem answers_journalAssign {o : JObject} (hlive : u.live (u.reqHome r) (r.w 1) = some (rid, rg))
    (hready : s.ready (.journalAssign r) { BciRow.o 0x10D 5 with minor := some 1, resv := fun r => above r 4 18 } r = some (i, u))
    (ho : u.object? rid (r.d 2) = some o) (horphan : o.st = .orphaned) (halone : rg.mirror = 0) :
    Answers (.journalAssign r) s r (two u.nextEntry) fun t => JournalObject r u rid t .owned (r.w 4) (r.w 5) 0 0 := by
  obtain ⟨rfl, honame⟩ := State.object?_some ho
  obtain ⟨-, hregion, -⟩ := State.live_some hlive
  obtain ⟨hregion', hentry⟩ := State.putObject_region (o := { o with st := .owned, eid := r.w 4, inc := r.w 5, toEid := 0, toInc := 0 }) hregion halone false
  have hexec : exec (.journalAssign r) s = execJournalAssign r s := rfl
  rw [execJournalAssign, bciServe_of_ready hready] at hexec
  unfold State.named at hexec
  simp only [hlive, ho, horphan, if_true] at hexec
  rw [State.answerAfter_of_alone (rg := rg) (by exact hregion') halone, hentry] at hexec
  refine ⟨_, hexec, ?_⟩
  unfold JournalObject
  rw [← honame]
  exact State.object?_putObject (o := { o with st := .owned, eid := r.w 4, inc := r.w 5, toEid := 0, toInc := 0 }) hregion halone

end

/-- Settles O50: each command by what it makes of the object. -/
theorem journalCommands : Obligations.JournalCommands := by
  intro s r i u rid rg hlive
  refine ⟨fun q hsrc hsealed hgate => ⟨fun hrights halone => ⟨fun hready hfresh hnone hroom => ?_, fun o ho => ⟨?_, ?_, ?_⟩⟩, ?_⟩, ?_⟩
  · refine answers_journal_kept (entry := 0) (exec_journalClaim hready) hsrc hfresh hlive hrights hsealed hgate halone ?_
    have hcount := List.length_filter_le (fun o : JObject => (u.region? o.rid).isSome) u.rel.objects
    rw [hnone, if_neg (by decide), if_neg (by omega)]
  · obtain ⟨rfl, honame⟩ := State.object?_some ho
    intro hready hfresh hst heid hinc
    have hexec : exec (.journalOffer r) s = execJournalOffer r s := rfl
    rw [execJournalOffer, bciServe_of_ready hready] at hexec
    refine ⟨fun hto => ?_, fun hto hoffered => ?_⟩
    · refine answers_journal_kept (entry := o.entry) hexec hsrc hfresh hlive hrights hsealed hgate halone ?_
      simp only [ho]
      rw [if_neg (by simp [hst, heid, hinc]), if_neg hto, honame, heid, hinc]
    · refine answers_journal_kept (entry := o.entry) hexec hsrc hfresh hlive hrights hsealed hgate halone ?_
      simp only [ho]
      rw [if_neg (by simp [hst, heid, hinc]), if_pos hto, if_pos hoffered, honame, heid, hinc]
  · obtain ⟨rfl, honame⟩ := State.object?_some ho
    intro hready hfresh hst heid hinc hentry
    have hexec : exec (.journalAccept r) s = execJournalAccept r s := rfl
    rw [execJournalAccept, bciServe_of_ready hready] at hexec
    refine answers_journal_kept (entry := o.entry) hexec hsrc hfresh hlive hrights hsealed hgate halone ?_
    simp only [ho]
    rw [if_neg (by simp [hst, heid, hinc, hentry]), honame]
  · intro hready hfresh hst heid hinc
    have hexec : exec (.journalRelease r) s = execJournalRelease r s := rfl
    rw [execJournalRelease, bciServe_of_ready hready] at hexec
    refine answers_journal_gone hexec hsrc hfresh hlive hrights hsealed hgate halone ho ?_
    simp only [ho]
    rw [if_neg (by simp [hst, heid, hinc])]
  · exact fun hrights hready o ho => exec_journalQuery hlive hsealed hgate hrights hready ho
  · exact fun o hready ho horphan halone => answers_journalAssign hlive hready ho horphan halone


/-! ### Registers -/

theorem b2n_bitAt (v i : Nat) : b2n (bitAt v i) = v / 2 ^ i % 2 := by
  rw [bitAt, Nat.testBit_eq_decide_div_mod_eq]
  rcases Nat.mod_two_eq_zero_or_one (v / 2 ^ i) with h | h <;> simp [h, b2n]

/-- PWR_CFG reads back the 14 bits that it holds. -/
theorem word_pwrCfg (w : Word) :
    word [(fld w.toNat 3 0, 0), (fld w.toNat 7 4, 4), (b2n (bitAt w.toNat 8), 8), (b2n (bitAt w.toNat 9), 9), (fld w.toNat 13 10, 10)] = w &&& 0x00003FFF := by
  apply BitVec.eq_of_toNat_eq
  have hmask : (w &&& 0x00003FFF).toNat = w.toNat % 2 ^ 14 := by
    rw [BitVec.toNat_and]
    exact Nat.and_two_pow_sub_one_eq_mod w.toNat 14
  simp only [hmask, word, List.map_cons, List.map_nil, List.sum_cons, List.sum_nil, b2n_bitAt, fld, BitVec.toNat_ofNat]
  have hlt := w.isLt
  omega

/-- TIME_CFG reads back the 10 bits that it holds. -/
theorem word_timeCfg (w : Word) : word [(fld w.toNat 1 0, 0), (fld w.toNat 2 2, 2), (fld w.toNat 9 3, 3)] = w &&& 0x000003FF := by
  apply BitVec.eq_of_toNat_eq
  have hmask : (w &&& 0x000003FF).toNat = w.toNat % 2 ^ 10 := by
    rw [BitVec.toNat_and]
    exact Nat.and_two_pow_sub_one_eq_mod w.toNat 10
  simp only [hmask, word, List.map_cons, List.map_nil, List.sum_cons, List.sum_nil, fld, BitVec.toNat_ofNat]
  have hlt := w.isLt
  omega

theorem exec_registerWrite {s : State} {sp : RegSpace} (h : s.spaceUp sp = true) (off : Nat) (w : Word) :
    exec (.registerWrite sp off w) s = .next (s.writeReg sp off w) := by
  show execRegisterWrite sp off w s = _
  rw [execRegisterWrite, if_pos h]

theorem exec_readClear {s : State} {sp : RegSpace} (h : s.spaceUp sp = true) (off : Nat) (ev : Word) :
    exec (.readClear sp off ev) s = .next ((s.clearRead sp off ev).emit (.regData (s.readReg sp off))) := by
  show execReadClear sp off ev s = _
  rw [execReadClear, if_pos h]

/-- A write to one of the listed read-only offsets of a function has no effect (R6). -/
theorem State.fnWrite_readOnly (s : State) (p f : Nat) (w : Word) {off : Nat} (hoff : off ∈ [0x044, 0x084, 0x100, 0x104, 0x310]) : s.fnWrite p f off w = s := by
  unfold State.fnWrite
  simp only [List.mem_cons, List.not_mem_nil, or_false] at hoff
  rcases hoff with rfl | rfl | rfl | rfl | rfl <;> simp

/-- CQ_KEY reads back what was written. -/
theorem State.readReg_cqKey (s : State) (p : Nat) (w : Word) : (s.writeReg (.fn p 0) 0x204 w).readReg (.fn p 0) 0x204 = w := by
  have hwin : s.writeReg (.fn p 0) 0x204 w = s.setFnWin p 0 { s.fnWin p 0 with cqKey := w.toNat } := rfl
  rw [hwin]
  show word [(((s.setFnWin p 0 { s.fnWin p 0 with cqKey := w.toNat }).fnWin p 0).cqKey, 0)] = w
  rw [State.fnWin_setFnWin_self]
  simp [word]

/-- Settles O22: the reads by what they clear, the writes by the register they name. -/
theorem registerAccess : Obligations.RegisterAccess := by
  intro s
  refine ⟨fun sp off hup => ?_, fun p f hup => ?_, fun ev hup => ?_, fun p f w hup off hoff => ?_, fun p w hup => ?_, fun w hup => ?_, fun w hup => ?_⟩
  · exact exec_readClear hup off 0
  · refine ⟨_, exec_readClear hup _ _, ?_⟩
    have hwin : ((s.clearRead (.fn p f) 0x084 0).emit (.regData (s.readReg (.fn p f) 0x084))).fnWin p f = { s.fnWin p f with overrun := false, reject := false } :=
      s.fnWin_setFnWin_self p f _
    exact ⟨by rw [hwin], by rw [hwin], by rw [hwin]⟩
  · exact ⟨_, exec_readClear hup _ _, rfl, rfl⟩
  · exact (exec_registerWrite hup off w).trans (congrArg _ (s.fnWrite_readOnly p f w hoff))
  · exact ⟨_, exec_registerWrite hup _ _, s.readReg_cqKey p w⟩
  · exact ⟨_, exec_registerWrite hup _ _, word_pwrCfg w⟩
  · exact ⟨_, exec_registerWrite hup _ _, word_timeCfg w⟩


/-! ### Compute queues -/

@[simp] theorem State.codeFault_kernels (s : State) (k : KernelQ) : (s.codeFault k).kernels = s.kernels := by
  unfold State.codeFault
  split
  · rfl
  · split
    · rename_i h
      obtain ⟨-, -, hkernels, -⟩ := State.faultOn_keeps h
      exact hkernels
    · rfl

/-- A kernel that passes its checks is queued (R607, R611). -/
theorem State.kernelAccept_queues {s : State} {ws : List Word} (p : Nat) (h : s.kernelCheck ws = none) : ∃ k ∈ (s.kernelAccept p ws).kernels, k.words = ws := by
  unfold State.kernelAccept
  simp only [h]
  split
  · exact ⟨_, by rw [State.codeFault_kernels]; exact List.mem_append_right _ (List.mem_singleton_self _), rfl⟩
  · unfold State.addDeadline
    exact ⟨_, by rw [State.codeFault_kernels]; exact List.mem_append_right _ (List.mem_singleton_self _), rfl⟩

/-- A rejected entry, or a ring that may not be enabled, is told by the error vector: of the window only the pending bits and SEQ change further. -/
theorem State.fnWin_rsFn_vector (s : State) (p : Nat) (w : Window) (v : Nat) :
    ∃ n m, ((((s.setFnWin p 0 w).rsFn p 0).vector p 0 v).fnWin p 0) = { w with pba := n, seq := m } := by
  obtain ⟨n, h⟩ := ((s.setFnWin p 0 w).rsFn p 0).fnWin_vector p 0 v
  exact ⟨n, (w.seq + 1) % 256, by rw [h, State.fnWin_rsFn, State.fnWin_setFnWin_self]⟩

theorem exec_cqEnable {s : State} (hruns : s.runs = true) (p : Nat) : exec (.cqEnable p) s = .next (s.enWrite p true) :=
  show execCqEnable p s = _ from whenUp_of_runs hruns _

theorem exec_cqDisable {s : State} (hruns : s.runs = true) (p : Nat) : exec (.cqDisable p) s = .next (s.enWrite p false) :=
  show execCqDisable p s = _ from whenUp_of_runs hruns _

/-- The latched copy of the ring that EN's boundary takes, with both indices at 0 (R609). -/
def Window.latched (w : Window) : Window :=
  { w with enPend := none, lKey := w.cqKey, lOff := w.cqHi % 1048576 * 4294967296 + w.cqLo, lLog2 := w.cqSize % 32, head := 0, tail := 0 }

theorem exec_cqEnApply_off {s : State} {p : Nat} (hruns : s.runs = true) (hidle : (s.fnWin p 0).head = (s.fnWin p 0).tail) (hpend : (s.fnWin p 0).enPend = some false) :
    exec (.cqEnApply p) s = .next (s.setFnWin p 0 { s.fnWin p 0 with en := false, enPend := none }) := by
  show execCqEnApply p s = _
  rw [execCqEnApply, whenUp_of_runs hruns]
  simp only [hpend]
  rw [if_neg (by simp [hidle]), if_pos (by decide)]

theorem exec_cqEnApply_ok {s : State} {p : Nat} (hruns : s.runs = true) (hidle : (s.fnWin p 0).head = (s.fnWin p 0).tail) (hpend : (s.fnWin p 0).enPend = some true)
    (hoff : (s.fnWin p 0).en = false) (hring : s.ringStatus p (s.fnWin p 0).latched = .ok) :
    exec (.cqEnApply p) s = .next ((s.setFnWin p 0 { (s.fnWin p 0).latched with en := true }).rsFn p 0) := by
  show execCqEnApply p s = _
  unfold Window.latched at *
  rw [execCqEnApply, whenUp_of_runs hruns]
  simp only [hpend]
  rw [if_neg (by simp [hidle]), if_neg (by decide), if_neg (by simp [hoff])]
  simp only [hring]

theorem exec_cqEnApply_fails {s : State} {p : Nat} (hruns : s.runs = true) (hidle : (s.fnWin p 0).head = (s.fnWin p 0).tail) (hpend : (s.fnWin p 0).enPend = some true)
    (hoff : (s.fnWin p 0).en = false) (hring : s.ringStatus p (s.fnWin p 0).latched = .notSupported) :
    exec (.cqEnApply p) s = .next (((s.setFnWin p 0 { (s.fnWin p 0).latched with
      errMore := (s.fnWin p 0).errMore || decide ((s.fnWin p 0).errStatus ≠ 0), errStatus := Status.notSupported.code, errIndex := 0 }).rsFn p 0).vector p 0 4) := by
  show execCqEnApply p s = _
  unfold Window.latched at *
  rw [execCqEnApply, whenUp_of_runs hruns]
  simp only [hpend]
  rw [if_neg (by simp [hidle]), if_neg (by decide), if_neg (by simp [hoff])]
  simp only [hring]

/-- While entries are taken the boundary of EN waits (R608). -/
theorem exec_cqEnApply_busy {s : State} {p : Nat} (hruns : s.runs = true) (hbusy : (s.fnWin p 0).head ≠ (s.fnWin p 0).tail) : exec (.cqEnApply p) s = .next s := by
  show execCqEnApply p s = _
  rw [execCqEnApply, whenUp_of_runs hruns]
  dsimp only
  split
  · rfl
  · exact if_pos hbusy

/-- A ring of an allowed size that the bound context may read is in order (R609). -/
theorem State.ringStatus_ok {s : State} {p c : Nat} {x : Nat × Region} (hbound : s.boundCtx p 0 = some c) (hlo : 6 ≤ (s.fnWin p 0).cqSize % 32) (hhi : (s.fnWin p 0).cqSize % 32 ≤ 16)
    (hpermit : s.permit s.lmf.eid (s.fnWin p 0).cqKey ((s.fnWin p 0).cqHi % 1048576 * 4294967296 + (s.fnWin p 0).cqLo) (16 * 2 ^ ((s.fnWin p 0).cqSize % 32)) needR
      { eid := s.lmf.eid, ctx := c, admin := false } = some x) :
    s.ringStatus p (s.fnWin p 0).latched = .ok := by
  unfold State.ringStatus Window.latched
  rw [if_neg (by dsimp only; omega)]
  simp only [State.queueIssuer, hbound, Option.map_some, hpermit, Option.isSome_some, if_true]

section
variable {s u v : State} {p c : Nat} {e ws : List Word}

/-- An entry at HEAD is taken by a queue that is not stopped, for the context bound to the function (R606). -/
theorem exec_cqEntryTake_of_kernel (hruns : s.runs = true) (hhead : (s.fnWin p 0).head ≠ (s.fnWin p 0).tail) (hphase : s.bci.phase ≠ .switching)
    (hheld : ∀ h ∈ s.home.held, h.cmd ≠ .cqEntryTake p) (hbound : s.boundCtx p 0 = some c) (hok : s.ctxOk c = true)
    (hread : s.queueRead p { eid := s.lmf.eid, ctx := c, admin := false } (s.fnWin p 0).lKey ((s.fnWin p 0).lOff + 16 * ((s.fnWin p 0).head % 2 ^ (s.fnWin p 0).lLog2)) 16 = .ok (u, e))
    (htype : wAt e 0 = 1) (hoff : dAt e 2 < 2 ^ 52) (halign : dAt e 2 % 128 = 0)
    (hdesc : u.queueRead p { eid := s.lmf.eid, ctx := c, admin := false } (wAt e 1) (dAt e 2) 128 = .ok (v, ws)) :
    exec (.cqEntryTake p) s = .next ((v.headPast p).kernelAccept p ws) := by
  show execCqEntryTake p s = _
  have hnone : s.home.held.any (fun h => decide (h.cmd = .cqEntryTake p)) = false := by simpa using hheld
  rw [execCqEntryTake, whenUp_of_runs hruns]
  simp only [State.queueIssuer, hbound, Option.map_some, hok, hread, hdesc, htype]
  rw [if_neg (by simp [hhead, hphase, hnone]), if_neg (by decide), if_neg]
  · rfl
  · have hfld : fld 1 3 0 = 1 := rfl
    rw [hfld]
    omega

/-- An entry of no listed TYPE is rejected (R611). -/
theorem exec_cqEntryTake_of_unlisted (hruns : s.runs = true) (hhead : (s.fnWin p 0).head ≠ (s.fnWin p 0).tail) (hphase : s.bci.phase ≠ .switching)
    (hheld : ∀ h ∈ s.home.held, h.cmd ≠ .cqEntryTake p) (hbound : s.boundCtx p 0 = some c) (hok : s.ctxOk c = true)
    (hread : s.queueRead p { eid := s.lmf.eid, ctx := c, admin := false } (s.fnWin p 0).lKey ((s.fnWin p 0).lOff + 16 * ((s.fnWin p 0).head % 2 ^ (s.fnWin p 0).lLog2)) 16 = .ok (u, e))
    (htype : wAt e 0 = 0 ∨ 3 < wAt e 0) : exec (.cqEntryTake p) s = .next (u.cqReject p .notSupported) := by
  show execCqEntryTake p s = _
  have hnone : s.home.held.any (fun h => decide (h.cmd = .cqEntryTake p)) = false := by simpa using hheld
  rw [execCqEntryTake, whenUp_of_runs hruns]
  simp only [State.queueIssuer, hbound, Option.map_some, hok, hread]
  rw [if_neg (by simp [hhead, hphase, hnone]), if_neg (by decide), if_pos]
  unfold fld
  omega

end

/-- Settles O21: EN by the boundary that it meets, an entry by its TYPE. -/
theorem computeQueues : Obligations.ComputeQueues := by
  refine ⟨fun s p hruns => ⟨?_, ?_, fun hidle hpend => ?_, fun hidle hpend hoff c rid rg hbound hlo hhi hpermit => ?_, fun hidle hpend hoff hsize => ?_, exec_cqEnApply_busy hruns⟩,
    fun s p c hruns _ hhead hphase hheld hbound hok => ⟨fun u e v ws hread htype hoff halign hdesc => ?_, fun u e hread htype => ?_⟩⟩
  · refine ⟨_, exec_cqEnable hruns p, ?_⟩
    unfold State.enWrite
    dsimp only
    rw [State.fnWin_setFnWin_self]
    exact ⟨rfl, rfl⟩
  · refine ⟨_, exec_cqDisable hruns p, ?_⟩
    unfold State.enWrite
    dsimp only
    rw [State.fnWin_setFnWin_self]
    exact ⟨rfl, rfl⟩
  · refine ⟨_, exec_cqEnApply_off hruns hidle hpend, ?_⟩
    dsimp only
    rw [State.fnWin_setFnWin_self]
    exact ⟨rfl, rfl⟩
  · refine ⟨_, exec_cqEnApply_ok hruns hidle hpend hoff (State.ringStatus_ok hbound hlo hhi hpermit), ?_⟩
    dsimp only
    rw [State.fnWin_rsFn, State.fnWin_setFnWin_self]
    exact ⟨rfl, rfl, rfl, rfl, rfl, rfl⟩
  · have hring : s.ringStatus p (s.fnWin p 0).latched = .notSupported := if_pos (Or.inl hsize)
    refine ⟨_, exec_cqEnApply_fails hruns hidle hpend hoff hring, ?_⟩
    obtain ⟨n, m, hwin⟩ := State.fnWin_rsFn_vector s p { (s.fnWin p 0).latched with
      errMore := (s.fnWin p 0).errMore || decide ((s.fnWin p 0).errStatus ≠ 0), errStatus := Status.notSupported.code, errIndex := 0 } 4
    dsimp only
    rw [hwin]
    exact ⟨hoff, rfl, rfl⟩
  · have hexec := exec_cqEntryTake_of_kernel hruns hhead hphase hheld hbound hok hread htype hoff halign hdesc
    exact ⟨hexec, fun hcheck => ⟨_, hexec, State.kernelAccept_queues p hcheck⟩⟩
  · exact exec_cqEntryTake_of_unlisted hruns hhead hphase hheld hbound hok hread htype

end Sys2Proof.Machine

/-! PROOF. O16, O17, O18, O39, O14: sessions, power, links, teams, the owner and the parts; what most operations leave of membership, ports, contexts and parts. -/

namespace Sys2Proof.Machine

/-! ### SPDM and secured sessions -/

/-- The entry found for a peer is that peer's. -/
@[simp] theorem State.spdm_peer (s : State) (p : Peer) : (s.spdm p).peer = p := by
  unfold State.spdm
  cases hf : s.sec.peers.find? (fun e => decide (e.peer = p)) with
  | none => rfl
  | some e => simpa using List.find?_some hf

/-- Replacing a peer's entry is what is found for it afterwards. -/
theorem State.spdm_setSpdm (s : State) (e : SpdmPeer) : (s.setSpdm e).spdm e.peer = e := by
  unfold State.spdm State.setSpdm
  dsimp only
  rw [List.find?_append, List.find?_eq_none.mpr, Option.none_or]
  · simp
  · intro x hx
    simpa using (List.mem_filter.mp hx).2

/-- A peer whose entry has no session is in none, once its entry is replaced. -/
theorem State.inSession_setSpdm (s : State) (e : SpdmPeer) : (s.setSpdm e).inSession e.peer = e.session := by
  unfold State.inSession State.setSpdm
  dsimp only
  rw [List.any_append, List.any_eq_false.mpr, Bool.false_or]
  · simp
  · intro x hx
    have hne := (List.mem_filter.mp hx).2
    simp_all

/-- A peer in no session has no session in its entry. -/
theorem State.session_of_inSession {s : State} {p : Peer} (h : s.inSession p = false) : (s.spdm p).session = false := by
  unfold State.spdm
  cases hf : s.sec.peers.find? (fun e => decide (e.peer = p)) with
  | none => rfl
  | some e =>
    have hp := List.find?_some hf
    have hn := List.any_eq_false.mp h e (List.mem_of_find?_eq_some hf)
    simp_all

/-- What the responder says leaves the peers as they are. -/
@[simp] theorem State.spdm_spdmSay (s : State) (q : Peer) (code : Nat) (fields : List Nat) (p : Peer) : (s.spdmSay q code fields).spdm p = s.spdm p := rfl
@[simp] theorem State.inSession_spdmSay (s : State) (q : Peer) (code : Nat) (fields : List Nat) (p : Peer) : (s.spdmSay q code fields).inSession p = s.inSession p := rfl
@[simp] theorem State.spdm_spdmError (s : State) (q : Peer) (n : Nat) (p : Peer) : (s.spdmError q n).spdm p = s.spdm p := rfl
@[simp] theorem State.inSession_spdmError (s : State) (q : Peer) (n : Nat) (p : Peer) : (s.spdmError q n).inSession p = s.inSession p := rfl

section
variable {s : State} {p : Peer} (hruns : s.runs = true)
include hruns

theorem does_getVersion : Does (.getVersion p) s fun t => (t.spdm p).version = true ∧ t.out = .spdm p 0x04 [0x12, 0x13] :: s.out := by
  refine ⟨_, show execGetVersion p s = _ from whenUp_of_runs hruns _, ?_, rfl⟩
  have hspdm := s.spdm_setSpdm { s.spdm p with version := true, caps := false, algs := false, keyed := false }
  rw [s.spdm_peer] at hspdm
  rw [State.spdm_spdmSay, hspdm]

theorem does_getCapabilities (h : (s.spdm p).version = true) : Does (.getCapabilities p) s fun t => (t.spdm p).caps = true := by
  refine ⟨_, (show execGetCapabilities p s = _ from whenUp_of_runs hruns _).trans (if_pos h), ?_⟩
  have hspdm := s.spdm_setSpdm { s.spdm p with caps := true }
  rw [s.spdm_peer] at hspdm
  exact congrArg SpdmPeer.caps hspdm

/-- The responder agrees to the one suite that it has (R776). -/
theorem does_negotiateAlgorithms (h : (s.spdm p).caps = true) :
    Does (.negotiateAlgorithms p { sig4096 := true, sha512 := true, secp384 := true, aesGcm := true }) s fun t => (t.spdm p).algs = true := by
  refine ⟨_, (show execNegotiateAlgorithms p _ s = _ from whenUp_of_runs hruns _).trans (if_pos h), ?_⟩
  have hspdm := s.spdm_setSpdm { s.spdm p with algs := true }
  rw [s.spdm_peer] at hspdm
  exact congrArg SpdmPeer.algs hspdm

/-- Once algorithms are agreed the certificates and the measurements are answered, signed (R776, R777). -/
theorem exec_identity (h : (s.spdm p).algs = true) :
    exec (.getDigests p) s = .next (s.emit (.spdm p 0x01 [Config.digest (s.chain 0), Config.digest (s.chain 1)]))
    ∧ (∀ n, n ≤ 1 → exec (.getCertificate p n) s = .next (s.emit (.spdm p 0x02 (n :: s.chain n))))
    ∧ (∀ n, n ≤ 1 → ∃ body, exec (.challenge p n) s = .next (s.emit (.spdm p 0x03 (body ++ [Config.sign s.sec.aliasKey body]))))
    ∧ (∀ n nonce, 1 ≤ n → n ≤ 6 → exec (.getMeasurements p n nonce) s =
        .next (s.emit (.spdm p 0x60 [s.measurement n, nonce, Config.sign s.sec.aliasKey [s.measurement n, nonce]]))) := by
  refine ⟨?_, fun n hn => ?_, fun n hn => ⟨[n, Config.digest (s.chain n)], ?_⟩, fun n nonce hlo hhi => ?_⟩
  · exact (show execGetDigests p s = _ from whenUp_of_runs hruns _).trans (if_pos h)
  · show execGetCertificate p n s = _
    rw [execGetCertificate, whenUp_of_runs hruns, if_neg (by simp [h]), if_neg (by omega)]
    rfl
  · show execChallenge p n s = _
    rw [execChallenge, whenUp_of_runs hruns, if_neg (by simp [h]), if_neg (by omega)]
    rfl
  · show execGetMeasurements p n nonce s = _
    rw [execGetMeasurements, whenUp_of_runs hruns, if_neg (by simp [h]), if_neg (by omega)]
    dsimp only
    rw [if_neg (by omega), if_neg (by omega)]
    rfl

/-- KEY_EXCHANGE makes the session's key (R778). -/
theorem does_keyExchange (h : (s.spdm p).algs = true) (share : Nat) : Does (.keyExchange p share) s fun t => (t.spdm p).keyed = true ∧ (t.spdm p).key = s.nextId := by
  have hexec : exec (.keyExchange p share) s = execKeyExchange p share s := rfl
  rw [execKeyExchange, whenUp_of_runs hruns, if_neg (by simp [h])] at hexec
  refine ⟨_, hexec, ?_⟩
  have hspdm := s.spdm_setSpdm { s.spdm p with keyed := true, key := s.nextId }
  rw [s.spdm_peer] at hspdm
  exact ⟨congrArg SpdmPeer.keyed hspdm, congrArg SpdmPeer.key hspdm⟩

end

/-- Outside an activation block 4 is block 3 (R777). -/
theorem State.measurement_of_calm {s : State} (h : s.bci.activating = none) : s.measurement 4 = s.measurement 3 := by
  simp [State.measurement, h]

/-- What a session gives of transport keys leaves the peers and the secured endpoints. -/
theorem State.giveKeys_sec (e : Nat) (l : List (Nat × Region)) (s : State) : (l.foldl (fun (s : State) r => s.giveKey e r.1) s).sec = s.sec := by
  induction l generalizing s with
  | nil => rfl
  | cons r l ih =>
    rw [List.foldl_cons, ih]
    unfold State.giveKey
    split
    · split <;> rfl
    · rfl

/-- A session with an LMF endpoint comes up (R780). -/
theorem State.sessionUp_lmf (s : State) {x : SpdmPeer} {e i : Nat} (hp : x.peer = .lmf e i) :
    (s.sessionUp x).inSession (.lmf e i) = true ∧ (e, i) ∈ (s.sessionUp x).sec.secured := by
  have hin := s.inSession_setSpdm { x with keyed := false, session := true }
  unfold State.sessionUp
  simp only [hp] at hin ⊢
  unfold State.inSession at hin ⊢
  rw [State.giveKeys_sec]
  exact ⟨hin, by simp⟩

/-- A management session comes up (R779). -/
theorem State.sessionUp_mgmt (s : State) {x : SpdmPeer} {m : Nat} (hp : x.peer = .mgmt m) : (s.sessionUp x).inSession (.mgmt m) = true := by
  have hin := s.inSession_setSpdm { x with keyed := false, session := true }
  unfold State.sessionUp
  simp only [hp] at hin ⊢
  exact hin

/-- The manager's session comes up, and a controller whose time has been LOCKED then asks to join (R708, R784). -/
theorem State.sessionUp_fm (s : State) {x : SpdmPeer} {e : Nat} (hp : x.peer = .fm e) :
    (s.sessionUp x).sec.fmSession = true ∧ (s.sessionUp x).fmSays e true = true
      ∧ (s.time.everLocked = true → s.lmf.joined = false → (s.sessionUp x).sec.joinAsked = true) := by
  have hin := s.inSession_setSpdm { x with keyed := false, session := true }
  unfold State.sessionUp
  simp only [hp] at hin ⊢
  refine ⟨?_, ?_, fun hlocked hout => ?_⟩
  · obtain ⟨j, o, h⟩ := State.askJoin_asked { s.setSpdm { x with keyed := false, session := true } with sec.fmSession := true }
    simp only [hp] at h
    rw [h]
  · obtain ⟨j, o, h⟩ := State.askJoin_asked { s.setSpdm { x with keyed := false, session := true } with sec.fmSession := true }
    simp only [hp] at h
    rw [h]
    exact hin
  · unfold State.askJoin
    rw [if_pos (by simp [State.setSpdm, hlocked, hout])]
    rfl

section
variable {s : State} (hruns : s.runs = true)
include hruns

theorem exec_finish_mgmt {m : Nat} (hkeyed : (s.spdm (.mgmt m)).keyed = true) :
    exec (.finish (.mgmt m) true true) s = .next ((s.sessionUp (s.spdm (.mgmt m))).spdmSay (.mgmt m) 0x65 []) := by
  show execFinish (.mgmt m) true true s = _
  rw [execFinish, whenUp_of_runs hruns, if_neg (by simp [hkeyed]), if_neg (by simp)]

theorem exec_finish_lmf {e i : Nat} {a b : Bool} (hkeyed : (s.spdm (.lmf e i)).keyed = true) :
    exec (.finish (.lmf e i) a b) s = .next ((s.sessionUp (s.spdm (.lmf e i))).spdmSay (.lmf e i) 0x65 []) := by
  show execFinish (.lmf e i) a b s = _
  unfold execFinish
  rw [whenUp_of_runs hruns, if_neg (by simp [hkeyed]), if_neg (by exact Bool.false_ne_true)]

/-- A FINISH of a management session without mutual authentication opens none (R779). -/
theorem does_finish_refused {m : Nat} (hkeyed : (s.spdm (.mgmt m)).keyed = true) {a b : Bool} (h : (a && b) = false) (hout : s.inSession (.mgmt m) = false) :
    Does (.finish (.mgmt m) a b) s fun t => t.inSession (.mgmt m) = false := by
  have hexec : exec (.finish (.mgmt m) a b) s = execFinish (.mgmt m) a b s := rfl
  rw [execFinish, whenUp_of_runs hruns, if_neg (by simp [hkeyed]), if_pos (by simp [h])] at hexec
  refine ⟨_, hexec, ?_⟩
  have hin := s.inSession_setSpdm { s.spdm (.mgmt m) with keyed := false }
  simp only [State.spdm_peer, State.session_of_inSession hout] at hin
  simpa [State.session_of_inSession hout] using hin

theorem does_keyExchangeRsp_accepted (e : Nat) :
    Does (.keyExchangeRsp (.fm e) true true true) s fun t => (t.spdm (.fm e)).keyed = true ∧ ∃ sig, t.out = .spdm (.fm e) 0xE5 [1, sig] :: s.out := by
  refine ⟨_, show execKeyExchangeRsp (.fm e) true true true s = _ from whenUp_of_runs hruns _, ?_, _, rfl⟩
  have hspdm := s.spdm_setSpdm { s.spdm (.fm e) with version := true, caps := true, algs := true, keyed := true, key := s.nextId }
  rw [s.spdm_peer] at hspdm
  exact congrArg SpdmPeer.keyed hspdm

/-- The manager's session needs its chain, its signature and mutual authentication (R779, R784). -/
theorem does_keyExchangeRsp_refused (e : Nat) {a b c : Bool} (h : (a && b && c) = false) : Does (.keyExchangeRsp (.fm e) a b c) s fun t => (t.spdm (.fm e)).keyed = false := by
  have hexec : exec (.keyExchangeRsp (.fm e) a b c) s = execKeyExchangeRsp (.fm e) a b c s := rfl
  rw [execKeyExchangeRsp, whenUp_of_runs hruns, if_pos (by cases a <;> cases b <;> cases c <;> simp_all)] at hexec
  refine ⟨_, hexec, ?_⟩
  have hspdm := s.spdm_setSpdm { s.spdm (.fm e) with keyed := false }
  rw [s.spdm_peer] at hspdm
  exact congrArg SpdmPeer.keyed hspdm

/-- The end of the manager's session takes its effects back (R787). -/
theorem does_sessionEnd_fm {e : Nat} (honly : ∀ x ∈ s.sec.peers, x.session = true → x.peer = .fm e) :
    Does (.sessionEnd (.fm e)) s fun t => t.sec.fmSession = false ∧ t.fmSays e true = false ∧ t.sec.joinAsked = false := by
  have hnone : (s.sec.peers.filter (fun (x : SpdmPeer) => decide (x.peer ≠ .fm e))).any
      (fun x => x.session && (match x.peer with | .fm _ => true | _ => false)) = false := by
    refine List.any_eq_false.mpr fun x hx => ?_
    obtain ⟨hmem, hne⟩ := List.mem_filter.mp hx
    have hsession : x.session = false := by
      by_contra hs
      simp [honly x hmem (by simpa using hs)] at hne
    simp [hsession]
  have hexec : exec (.sessionEnd (.fm e)) s = execSessionEnd (.fm e) s := rfl
  rw [execSessionEnd, whenUp_of_runs hruns] at hexec
  obtain ⟨t, ht, hfm, hjoin⟩ : ∃ t, exec (.sessionEnd (.fm e)) s = .next t ∧ t.sec.fmSession = false ∧ t.sec.joinAsked = false :=
    ⟨_, hexec, hnone, (congrArg (and s.sec.joinAsked) hnone).trans (Bool.and_false _)⟩
  exact ⟨t, ht, hfm, by simp [State.fmSays, hfm], hjoin⟩

theorem does_sessionEnd_lmf (e i : Nat) : Does (.sessionEnd (.lmf e i)) s fun t => (e, i) ∉ t.sec.secured ∧ t.inSession (.lmf e i) = false := by
  refine ⟨_, show execSessionEnd (.lmf e i) s = _ from whenUp_of_runs hruns _, by simp, ?_⟩
  refine List.any_eq_false.mpr fun x hx => ?_
  have hne := (List.mem_filter.mp hx).2
  simp_all

/-- An old transport key is destroyed once nothing needs it (R786). -/
theorem does_transportKeyRetire {idx key at' : Nat} {rg : Region} (hregion : s.region? idx = some rg) (hold : rg.tkeyOld = some (key, at')) (hlate : at' + s.bci.txnTimeout ≤ s.now)
    (hrevokes : ∀ w ∈ s.home.revokes, w.rid ≠ idx) :
    Does (.transportKeyRetire idx) s fun t =>
      (∃ r, t.region? idx = some r ∧ r.tkeyOld = none ∧ r.tkey = rg.tkey ∧ r.grants = rg.grants) ∧ (∀ k, k ≠ idx → t.region? k = s.region? k) := by
  have hexec : exec (.transportKeyRetire idx) s = execTransportKeyRetire idx s := rfl
  have hnone : s.home.revokes.any (fun w => decide (w.rid = idx)) = false := by simpa using hrevokes
  rw [execTransportKeyRetire, whenUp_of_runs hruns] at hexec
  simp only [hregion, hold] at hexec
  rw [if_neg (by simp [hnone]; omega)] at hexec
  exact ⟨_, hexec, ⟨_, s.region?_setRegion_self idx _, rfl, rfl, rfl⟩, fun k hk => s.region?_setRegion_ne _ hk⟩

end

/-- Settles O16: the responder's requests, the sessions and the key, one lemma each. -/
theorem secureSessions : Obligations.SecureSessions := by
  refine ⟨fun s p hruns => ⟨does_getVersion hruns, does_getCapabilities hruns, does_negotiateAlgorithms hruns, fun halgs => ?_, State.measurement_of_calm⟩,
    fun s hruns => ⟨fun m hkeyed => ⟨⟨_, exec_finish_mgmt hruns hkeyed, ?_⟩, fun a b h hout => does_finish_refused hruns hkeyed h hout⟩,
      fun e i a b hkeyed => ⟨_, exec_finish_lmf hruns hkeyed, ?_⟩, does_keyExchangeRsp_accepted hruns,
      fun e a b c h => does_keyExchangeRsp_refused hruns e h, fun e hkeyed => ⟨_, (show execFinishRsp (.fm e) s = _ from whenUp_of_runs hruns _).trans (if_pos hkeyed), ?_⟩,
      fun e honly => does_sessionEnd_fm hruns honly, does_sessionEnd_lmf hruns⟩,
    fun s idx key at' rg hruns hregion hold hlate hrevokes => does_transportKeyRetire hruns hregion hold hlate hrevokes⟩
  · obtain ⟨hdigests, hcert, hchallenge, hmeasure⟩ := exec_identity hruns halgs
    exact ⟨hdigests, hcert, hchallenge, hmeasure, does_keyExchange hruns halgs⟩
  · exact State.sessionUp_mgmt s (s.spdm_peer _)
  · exact State.sessionUp_lmf s (s.spdm_peer _)
  · exact State.sessionUp_fm s (s.spdm_peer _)


/-! ### Domains, the cap and bivouac -/

/-- A domain that the machine has is replaced by its new entry. -/
theorem State.domain_setDomain {s : State} {d : Domain} {e : DomEntry} (hmem : s.domain d ∈ s.pow.doms) (he : e.dom = d) : (s.setDomain e).domain d = e := by
  subst he
  have hfind : (s.setDomain e).pow.doms.find? (fun x => decide (x.dom = e.dom)) = some e := by
    unfold State.setDomain
    dsimp only
    rw [List.find?_map]
    have hsame : (fun x : DomEntry => decide (x.dom = e.dom)) ∘ (fun x => if x.dom = e.dom then e else x) = fun x => decide (x.dom = e.dom) := by
      funext x
      by_cases h : x.dom = e.dom <;> simp [h]
    rw [hsame]
    cases hf : s.pow.doms.find? (fun x => decide (x.dom = e.dom)) with
    | none => exact absurd (s.domain_dom e.dom) (by simpa using List.find?_eq_none.mp hf _ hmem)
    | some x =>
      have hx := List.find?_some hf
      simp_all
  unfold State.domain
  rw [hfind]
  rfl

section
variable {s : State} {d : Domain} (hruns : s.runs = true)
include hruns

theorem does_gateTimeout (hmem : s.domain d ∈ s.pow.doms) (hon : (s.domain d).st = .on) (hidle : s.domainBusy d = false) (hssd : s.expert.ssd = none)
    (hgate : engineDomain d = false ∨ s.pow.offEn = false ∨ s.pow.gateUs ≤ s.pow.offUs) : Does (.gateTimeout d) s fun t => (t.domain d).st = .entering false := by
  have hexec : exec (.gateTimeout d) s = execGateTimeout d s := rfl
  have hnot : (engineDomain d && s.pow.offEn && decide (s.pow.offUs < s.pow.gateUs)) = false := by
    rcases hgate with h | h | h
    · simp [h]
    · simp [h]
    · simp [Nat.not_lt.mpr h]
  rw [execGateTimeout, whenUp_of_runs hruns, if_neg (by simp [hon, hidle, hssd]), if_neg (by simp [hnot])] at hexec
  exact ⟨_, hexec, congrArg DomEntry.st (State.domain_setDomain (e := { s.domain d with st := .entering false }) hmem (s.domain_dom d))⟩

theorem does_offTimeout (hmem : s.domain d ∈ s.pow.doms) (hon : (s.domain d).st = .on) (hengine : engineDomain d = true) (hoff : s.pow.offEn = true)
    (hidle : s.domainBusy d = false) (hssd : s.expert.ssd = none) : Does (.offTimeout d) s fun t => (t.domain d).st = .entering true := by
  have hexec : exec (.offTimeout d) s = execOffTimeout d s := rfl
  have hmay : s.mayOff d = true := by simp [State.mayOff, hon, hidle]
  rw [execOffTimeout, whenUp_of_runs hruns, if_pos (by simp [hengine, hoff, hmay, hssd])] at hexec
  exact ⟨_, hexec, congrArg DomEntry.st (State.domain_setDomain (e := { s.domain d with st := .entering true }) hmem (s.domain_dom d))⟩

/-- A domain with work stays ON (R690). -/
theorem exec_timeouts_of_busy (hon : (s.domain d).st = .on) (hbusy : s.domainBusy d = true) :
    exec (.gateTimeout d) s = .next s ∧ exec (.offTimeout d) s = .next s := by
  have hmay : s.mayOff d = false := by simp [State.mayOff, hon, hbusy]
  refine ⟨?_, ?_⟩
  · show execGateTimeout d s = _
    rw [execGateTimeout, whenUp_of_runs hruns, if_pos (by simp [hbusy])]
  · show execOffTimeout d s = _
    rw [execOffTimeout, whenUp_of_runs hruns, if_neg (by simp [hmay])]

end

/-- A domain asleep or waking is waking after a wake event (R692). -/
theorem DomEntry.woken_waking {e : DomEntry} (h : e.st = .gated ∨ e.st = .off ∨ e.st = .waking) : e.woken.st = .waking := by
  unfold DomEntry.woken
  rcases h with h | h | h <;> simp [h]

/-- A wake of any domain leaves a domain that sleeps or wakes so, or waking. -/
theorem State.wakeDomain_asleep {s : State} {d : Domain} (x : Domain) (h : (s.domain d).st = .gated ∨ (s.domain d).st = .off ∨ (s.domain d).st = .waking) :
    ((s.wakeDomain x).domain d).st = .gated ∨ ((s.wakeDomain x).domain d).st = .off ∨ ((s.wakeDomain x).domain d).st = .waking := by
  unfold State.wakeDomain
  rw [State.domain_wakeWhere]
  split
  · exact .inr (.inr (DomEntry.woken_waking h))
  · exact h

theorem State.stir_asleep {s : State} {d : Domain} (hbiv : s.pow.bivouac = false) (h : (s.domain d).st = .gated ∨ (s.domain d).st = .off ∨ (s.domain d).st = .waking) :
    (s.stir.domain d).st = .gated ∨ (s.stir.domain d).st = .off ∨ (s.stir.domain d).st = .waking := by
  unfold State.stir
  rw [if_neg (by simp [hbiv])]
  exact State.wakeDomain_asleep _ (State.wakeDomain_asleep _ (State.wakeDomain_asleep _ (State.wakeDomain_asleep _ h)))

@[simp] theorem State.coreWaking_domain (s : State) (d x : Domain) : (s.coreWaking x).domain d = s.domain d := by
  unfold State.coreWaking
  split
  · dsimp only
    split <;> rfl
  · rfl

/-- A wake event starts the wake of a domain that sleeps (R692). -/
theorem does_domainWake {s : State} {d : Domain} (hruns : s.runs = true) (h : (s.domain d).st = .gated ∨ (s.domain d).st = .off) (hbiv : s.pow.bivouac = false) :
    Does (.domainWake d) s fun t => (t.domain d).st = .waking := by
  refine ⟨_, show execDomainWake d s = _ from whenUp_of_runs hruns _, ?_⟩
  have hasleep : (s.domain d).st = .gated ∨ (s.domain d).st = .off ∨ (s.domain d).st = .waking := by tauto
  have hstir : ((if d ∈ bivouacDomains then s.stir else s).domain d).st = .gated ∨ ((if d ∈ bivouacDomains then s.stir else s).domain d).st = .off
      ∨ ((if d ∈ bivouacDomains then s.stir else s).domain d).st = .waking := by
    split
    · exact State.stir_asleep hbiv hasleep
    · exact hasleep
  dsimp only
  rw [State.coreWaking_domain, State.wakeDomain, State.domain_wakeWhere, if_pos (by simp)]
  exact DomEntry.woken_waking hstir

theorem State.foldl_clockGap_pow (l : List Nat) (cause start : Nat) (s : State) : (l.foldl (fun (s : State) hw => s.clockGap hw cause start s.now) s).pow = s.pow := by
  induction l generalizing s with
  | nil => rfl
  | cons a l ih =>
    rw [List.foldl_cons, ih]
    simp [State.clockGap]

/-- A domain that comes up is ON. -/
theorem State.domain_domainUp {s : State} {d : Domain} (hmem : s.domain d ∈ s.pow.doms) : ((s.domainUp d).domain d).st = .on := by
  unfold State.domainUp
  dsimp only
  rw [State.domain_setDomain]
  · split
    · exact hmem
    · have hpow := State.foldl_clockGap_pow (domUnits d) (s.domain d).cause (s.domain d).stop s
      unfold State.domain at hpow hmem ⊢
      rw [hpow]
      exact hmem
  · rfl

@[simp] theorem State.vector_pow (s : State) (p f v : Nat) : (s.vector p f v).pow = s.pow := by
  unfold State.vector
  dsimp only
  split <;> rfl

@[simp] theorem State.takeWord_pow (s : State) (p f : Nat) : (s.takeWord p f).pow = s.pow := by
  unfold State.takeWord
  dsimp only
  split
  · rfl
  · rw [State.vector_pow]
    split
    · split <;> rfl
    · rw [State.vector_pow]
      split <;> rfl

@[simp] theorem State.takeWords_pow (s : State) : s.takeWords.pow = s.pow := by
  unfold State.takeWords
  generalize Tab.keys s.host.fns = l
  induction l generalizing s with
  | nil => rfl
  | cons k l ih => rw [List.foldl_cons, ih, State.takeWord_pow]

/-- A domain other than a core's accepts work at the end of its wake (R693). -/
theorem does_domainOn {s : State} {d : Domain} (hruns : s.runs = true) (hmem : s.domain d ∈ s.pow.doms) (hwaking : (s.domain d).st = .waking) (hcore : ∀ n, d ≠ .core n) :
    Does (.domainOn d) s fun t => (t.domain d).st = .on := by
  refine ⟨_, show execDomainOn d s = _ from whenUp_of_runs hruns _, ?_⟩
  have hwoken : (s.domainUp d).coreWoken d = s.domainUp d := by
    unfold State.coreWoken
    split
    · exact absurd rfl (hcore _)
    · rfl
  dsimp only
  rw [if_pos hwaking, hwoken]
  split
  · unfold State.domain
    rw [State.takeWords_pow]
    exact State.domain_domainUp hmem
  · exact State.domain_domainUp hmem

/-- One more step of stage 1 is what a first stage with steps left gives (R700). -/
theorem getD_stepDown {t : Tab Nat} {rest : List Nat} (h : Tab.getD t 1 0 < 8) : Tab.getD (stepDown (1 :: rest) t) 1 0 = Tab.getD t 1 0 + 1 := by
  unfold stepDown
  have hone : stageSteps 1 = 8 := rfl
  rw [List.find?_cons_of_pos (by simpa [hone] using h)]
  exact Tab.getD_set_self t 1 _ 0

theorem does_powerWindow {s : State} (hruns : s.runs = true) (w : Nat) (e h : Int) : Does (.powerWindow w e h) s fun t =>
     t = { s with pow := t.pow, pkg := { s.pkg with tjE := e, tjW := h, tjPeak := max s.pkg.tjPeak (max e h) } }
       ∧ t.pow.power = w ∧ t.pow.capPend = none ∧ t.pow.capApplied = min 52 (max 12 (s.pow.capPend.getD s.pow.capApplied))
       ∧ (s.pow.capApplied * 25 < w → s.expert.ssd = none → Tab.getD s.pow.steps 1 0 < 8 → Tab.getD t.pow.steps 1 0 = Tab.getD s.pow.steps 1 0 + 1)
       ∧ (w ≤ s.pow.capApplied * 25 → s.pow.capApplied * 25 ≤ w + 25 → t.pow.steps = s.pow.steps)
       ∧ (100 ≤ max e h → Tab.getD s.pow.heatSteps 1 0 < 8 → Tab.getD t.pow.heatSteps 1 0 = Tab.getD s.pow.heatSteps 1 0 + 1)
       ∧ (97 ≤ max e h → max e h < 100 → t.pow.heatSteps = s.pow.heatSteps) := by
  refine ⟨_, show execPowerWindow w e h s = _ from whenUp_of_runs hruns _, rfl, rfl, rfl, rfl, fun hover hssd hroom => ?_, fun hle hge => ?_, fun hhot hroom => ?_, fun hwarm hcool => ?_⟩
  · dsimp only
    rw [if_pos hover, hssd]
    exact getD_stepDown hroom
  · dsimp only
    rw [if_neg (by omega), if_neg (by omega)]
  · dsimp only
    rw [if_pos hhot]
    exact getD_stepDown hroom
  · dsimp only
    rw [if_neg (by omega), if_neg (by omega)]

theorem does_bivouacEntry {s : State} (hruns : s.runs = true) (hquiet : s.quiet = true) (hout : s.pow.bivouac = false) : Does .bivouacEntry s fun t =>
    t.pow.bivouac = true ∧ (∀ e ∈ t.pow.doms, e.dom ∈ bivouacDomains → e.st = .off) ∧ t.home = s.home := by
  have hexec : exec .bivouacEntry s = execBivouacEntry s := rfl
  rw [execBivouacEntry, whenUp_of_runs hruns, if_neg (by simp [hquiet, hout])] at hexec
  refine ⟨_, hexec, rfl, fun e he hdom => ?_, rfl⟩
  obtain ⟨x, -, rfl⟩ := List.mem_map.mp he
  by_cases hx : x.dom ∈ bivouacDomains
  · rw [if_pos hx]
  · rw [if_neg hx] at hdom
    exact absurd hdom hx

theorem does_bivouacExit {s : State} (hruns : s.runs = true) (hin : s.pow.bivouac = true) : Does .bivouacExit s fun t => t.pow.bivouac = false := by
  refine ⟨s.stir, show execBivouacExit s = _ from whenUp_of_runs hruns _, ?_⟩
  rw [State.stir, if_pos hin]
  rfl

/-- Settles O17: each event of the domains, of the power window and of bivouac. -/
theorem powerEvents : Obligations.PowerEvents := by
  refine ⟨fun s d hruns hmem => ⟨fun hon hidle hssd hgate => does_gateTimeout hruns hmem hon hidle hssd hgate, fun hon hengine hoff hidle hssd => does_offTimeout hruns hmem hon hengine hoff hidle hssd,
      fun hon hbusy => exec_timeouts_of_busy hruns hon hbusy, fun h hbiv => does_domainWake hruns h hbiv, fun hwaking hcore => does_domainOn hruns hmem hwaking hcore⟩,
    fun s hw a b hruns => ⟨fun hlong => ?_, fun hshort => ⟨_, ?_, rfl⟩⟩, fun s w e h hruns => does_powerWindow hruns w e h,
    fun s hruns => ⟨fun hquiet hout => does_bivouacEntry hruns hquiet hout, fun hin => does_bivouacExit hruns hin⟩⟩
  · exact (show execStretchEpisodeEnd hw a b s = _ from whenUp_of_runs hruns _).trans (if_pos hlong)
  · exact (show execStretchEpisodeEnd hw a b s = _ from whenUp_of_runs hruns _).trans (if_neg (by omega))


/-- The context without its event counters, which the work of others moves. -/
def Context.own (c : Context) : Context := { c with ctrs := [] }

/-- Each context of a table without its event counters. -/
def ctxsOwn (t : Tab Context) (k : Nat) : Option Context := (Tab.get? t k).map Context.own

/-- Each drive of a table without its count of commands under way. -/
def drivesIdle (t : Tab Drive) (n : Nat) : Drive := { Tab.getD t n Drive.fresh with busy := 0 }

/-- The rebuilds, the failed positions, and the cause of a fail-stop. -/
def Rel.parts (r : Rel) : List Rebuild × List Nat × Option Nat := (r.rebuilds, r.pcFailed, r.failCause)

/-- What only the membership and link events, the commands of contexts, the resets of ports and functions, and the parts' own events write. -/
structure Standing where
  eid : Nat
  inc : Nat
  joined : Bool
  fmEid : Nat
  incs : Tab IncEntry
  ports : Tab LPort
  ctx : Nat → Option Context
  hports : Tab HostPort
  drives : Nat → Drive
  dimms : Tab Dimm
  parts : List Rebuild × List Nat × Option Nat

/-- The standing of a state. -/
def State.standing (s : State) : Standing :=
  { eid := s.lmf.eid, inc := s.lmf.inc, joined := s.lmf.joined, fmEid := s.lmf.fmEid, incs := s.lmf.incs, ports := s.lmf.ports,
    ctx := ctxsOwn s.bci.contexts, hports := s.host.ports, drives := drivesIdle s.strata.drives, dimms := s.strata.dimms,
    parts := s.rel.parts }

/-- Contexts and parts are spoken of through the standing, so that an update of another part need not know where they stand. -/
@[simp] theorem State.ctxsOwn_eq (s : State) : ctxsOwn s.bci.contexts = s.standing.ctx := by simp only [State.standing]

@[simp] theorem State.drivesIdle_eq (s : State) : drivesIdle s.strata.drives = s.standing.drives := by simp only [State.standing]

@[simp] theorem State.dimms_eq (s : State) : s.strata.dimms = s.standing.dimms := by simp only [State.standing]

@[simp] theorem State.parts_eq (s : State) : s.rel.parts = s.standing.parts := by simp only [State.standing]

@[simp] theorem State.parts_mk (s : State) (errors : List ErrorRec) (errSeq : Nat) (params : Tab Nat) (hb : Tab HbEntry) (units : Tab UnitRec) (failRecord : Option ErrorRec)
    (takeovers : List Takeover) (adopted : List Nat) (objects : List JObject) (entry : Nat) :
    Rel.parts ⟨errors, errSeq, params, hb, units, s.rel.failCause, failRecord, takeovers, adopted, objects, entry, s.rel.rebuilds, s.rel.pcFailed⟩ = s.standing.parts := by
  simp only [State.standing, Rel.parts]

theorem State.standing_foldl {α : Type} {f : State → α → State} (h : ∀ s a, (f s a).standing = s.standing) (l : List α) (s : State) :
    (l.foldl f s).standing = s.standing := by
  induction l generalizing s with
  | nil => rfl
  | cons a l ih => rw [List.foldl_cons, ih, h]

/-- An update keeps the standing that keeps each of its parts. -/
theorem State.standing_mk {s : State} {home : Home} {strata : Strata} {rope : Rope} {cores : Tab Core} {kernels : List KernelQ} {expert : Expert} {trav : Traverse} {mor : Moraine}
    {bci : Bci} {host : Hosts} {lmf : Lmf} {pow : Power} {time : TimeUnit} {rel : Rel} {sec : Sec} {obs : Obs} {pkg : Package} {out : List Out} {resume : List Again}
    {replay : Option Again} {freeCtr nextId : Nat}
    (heid : lmf.eid = s.lmf.eid) (hinc : lmf.inc = s.lmf.inc) (hjoined : lmf.joined = s.lmf.joined) (hfm : lmf.fmEid = s.lmf.fmEid) (hincs : lmf.incs = s.lmf.incs)
    (hports : lmf.ports = s.lmf.ports) (hctx : ctxsOwn bci.contexts = s.standing.ctx) (hhost : host.ports = s.host.ports)
    (hdrives : drivesIdle strata.drives = s.standing.drives) (hdimms : strata.dimms = s.standing.dimms) (hparts : rel.parts = s.standing.parts) :
    State.standing ⟨home, strata, rope, cores, kernels, expert, trav, mor, bci, host, lmf, pow, time, rel, sec, obs, pkg, out, resume, replay, freeCtr, nextId, s.pending⟩ = s.standing := by
  simp only [State.standing, heid, hinc, hjoined, hfm, hincs, hports, hhost] at *
  rw [hctx, hdrives, hdimms, hparts]

/-- A change of a context's counters alone. -/
theorem ctxsOwn_modify {t : Tab Context} {k : Nat} {f : Context → Context} (hf : ∀ c, (f c).own = c.own) : ctxsOwn (Tab.modify t k f) = ctxsOwn t := by
  funext j
  unfold ctxsOwn
  rw [Tab.get?_modify]
  split
  · cases Tab.get? t j with
    | none => rfl
    | some c => exact congrArg some (hf c)
  · rfl


@[simp] theorem State.standing_emit (s : State) (o : Out) : (s.emit o).standing = s.standing := by
  rfl

@[simp] theorem State.standing_bump (s : State) : (s.bump).standing = s.standing := by
  rfl

@[simp] theorem State.standing_freed (s : State) : (s.freed).standing = s.standing := by
  rfl

@[simp] theorem State.standing_setCore (s : State) (n : Nat) (c : Core) : (s.setCore n c).standing = s.standing := by
  rfl

@[simp] theorem State.standing_setFnWin (s : State) (port : Nat) (fn : Nat) (w : Window) : (s.setFnWin port fn w).standing = s.standing := by
  rfl





@[simp] theorem State.standing_event (s : State) (hw : Nat) (idx : Nat) (n : Nat) (ctx : Option Nat) : (s.event hw idx n ctx).standing = s.standing := by
  unfold State.event
  refine State.standing_mk rfl rfl rfl rfl rfl rfl ?_ rfl rfl rfl rfl
  dsimp only
  split
  · rfl
  · split
    · rfl
    · exact ctxsOwn_modify fun c => rfl


@[simp] theorem State.standing_startCounters (s : State) (hw : Nat) (ctx : Nat) : (s.startCounters hw ctx).standing = s.standing :=
  State.standing_mk rfl rfl rfl rfl rfl rfl (ctxsOwn_modify fun c => rfl) rfl rfl rfl rfl


@[simp] theorem State.standing_traceFor (s : State) (selected : Bool) (die : Nat) (typ : Nat) (slots : Nat) (time : Nat) (body : List Word) : (s.traceFor selected die typ slots time body).standing = s.standing := by
  rfl

@[simp] theorem State.standing_traceGen (s : State) (die : Nat) (typ : Nat) (slots : Nat) (time : Nat) (body : List Word) : (s.traceGen die typ slots time body).standing = s.standing := by
  rfl

@[simp] theorem State.standing_cairnAt (s : State) (hw : Nat) (code : Nat) (ctx : Nat) (payload : Nat) (time : Nat) : (s.cairnAt hw code ctx payload time).standing = s.standing := by
  unfold State.cairnAt
  split <;> simp [↓State.standing_mk]

@[simp] theorem State.standing_cairn (s : State) (hw : Nat) (code : Nat) (ctx : Nat) (payload : Nat) : (s.cairn hw code ctx payload).standing = s.standing := by
  simp [State.cairn]

@[simp] theorem State.standing_clockGap (s : State) (hw : Nat) (cause : Nat) (start : Nat) (stop : Nat) : (s.clockGap hw cause start stop).standing = s.standing := by
  simp [State.clockGap]

@[simp] theorem State.standing_strataEvent (s : State) (idx : Nat) (n : Nat) : (s.strataEvent idx n).standing = s.standing := by
  rfl

@[simp] theorem State.standing_errorCount (s : State) (hw : Nat) (cls : Nat) : (s.errorCount hw cls).standing = s.standing := by
  rfl

@[simp] theorem State.standing_wakeWhere (s : State) (f : Domain → Bool) : (s.wakeWhere f).standing = s.standing := by
  rfl

@[simp] theorem State.standing_wakeDomain (s : State) (d : Domain) : (s.wakeDomain d).standing = s.standing := by
  rfl

@[simp] theorem State.standing_workStart (s : State) (hw : Nat) (eid : Nat) (ctx : Nat) (obj : Nat) : (s.workStart hw eid ctx obj).standing = s.standing := by
  simp [State.workStart, ↓State.standing_mk, apply_ite State.standing, State.standing_foldl]

@[simp] theorem State.standing_coreStart (s : State) (core : Nat) (ctx : Nat) (obj : Nat) : (s.coreStart core ctx obj).standing = s.standing := by
  simp [State.coreStart, ↓State.standing_mk, apply_ite State.standing, State.standing_foldl]

@[simp] theorem State.standing_workEnd (s : State) (hw : Nat) (ctx : Nat) (st : Status) (exc : Nat) : (s.workEnd hw ctx st exc).standing = s.standing := by
  simp [State.workEnd]

@[simp] theorem State.standing_workResume (s : State) (f : FaultRec) : (s.workResume f).standing = s.standing := by
  simp [State.workResume, ↓State.standing_mk, apply_ite State.standing, State.standing_foldl]

@[simp] theorem State.standing_release (s : State) (f : HoldWhy → Bool) : (s.release f).standing = s.standing := by
  rfl

@[simp] theorem State.standing_setRegion (s : State) (rid : Nat) (r : Region) : (s.setRegion rid r).standing = s.standing := by
  rfl

@[simp] theorem State.standing_setPages (s : State) (t : Tab Handle) : (s.setPages t).standing = s.standing := by
  rfl

@[simp] theorem State.standing_modPage (s : State) (ref : PageRef) (f : TierPage → TierPage) : (s.modPage ref f).standing = s.standing := by
  rfl

@[simp] theorem State.standing_sweepTables (s : State) : (s.sweepTables).standing = s.standing := by
  rfl

@[simp] theorem State.standing_chooseTable (s : State) (rid : Nat) (r : Region) (bytes : Bytes) : (s.chooseTable rid r bytes).1.standing = s.standing := by
  unfold State.chooseTable
  simp [↓State.standing_mk, apply_ite State.standing, State.standing_foldl]
  (repeat' split) <;> simp [↓State.standing_mk, apply_ite State.standing, State.standing_foldl]

/-- A table of drives whose entries have lost their count of commands under way stands as before. -/
theorem drivesIdle_idle (t : Tab Drive) : drivesIdle (t.map fun e => (e.1, { e.2 with busy := 0 })) = drivesIdle t := by
  funext k
  have hget := Tab.get?_map_values (fun d : Drive => { d with busy := 0 }) t k
  unfold drivesIdle Tab.getD
  rw [hget]
  cases Tab.get? t k <;> rfl

/-- A drive's commands move only its count of commands under way. -/
theorem drivesIdle_busy {t : Tab Drive} {n : Nat} {d : Drive} (h : Tab.get? t n = some d) (x : Nat) : drivesIdle (Tab.set t n { d with busy := x }) = drivesIdle t := by
  funext k
  by_cases hk : k = n
  · subst hk
    simp [drivesIdle, Tab.getD, h]
  · simp [drivesIdle, Tab.getD_set_ne _ _ _ hk]

@[simp] theorem State.standing_nvmeIo (s : State) (slot : Nat) (op : NvmeOp) (lba : Nat) (n : Nat) : (s.nvmeIo slot op lba n).standing = s.standing := by
  unfold State.nvmeIo
  split
  · rfl
  rename_i d0 hd
  split
  · rfl
  generalize (decide (nvmeLimit ≤ s.nvmeBusy) || decide (driveLimit ≤ d0.busy)) = full
  dsimp only
  rw [State.standing_emit]
  refine (State.standing_mk (s := s.event _ _ _ none) rfl rfl rfl rfl rfl rfl rfl rfl ?_ ?_ rfl).trans (State.standing_event ..)
  case refine_2 => rfl
  rw [State.standing_event]
  cases full
  · exact drivesIdle_busy hd _
  · have hget := Tab.get?_map_values (fun d : Drive => { d with busy := 0 }) s.strata.drives slot
    rw [hd] at hget
    exact (drivesIdle_busy hget _).trans (drivesIdle_idle _)


@[simp] theorem State.standing_nvmeAll (s : State) (op : NvmeOp) (lba : Nat) (n : Nat) : (s.nvmeAll op lba n).standing = s.standing := by
  simp [State.nvmeAll, ↓State.standing_mk, apply_ite State.standing, State.standing_foldl]

@[simp] theorem State.standing_stripesOut (s : State) (n : Nat) : (s.stripesOut n).standing = s.standing := by
  induction n generalizing s with
  | zero => rfl
  | succ n ih =>
    unfold State.stripesOut
    split <;> simp [ih, ↓State.standing_mk]

@[simp] theorem State.standing_t2Put (s : State) (im : Image) : (s.t2Put im).standing = s.standing := by
  simp [State.t2Put, ↓State.standing_mk]

@[simp] theorem State.standing_t2Get (s : State) (ref : PageRef) : (s.t2Get ref).standing = s.standing := by
  unfold State.t2Get
  split <;> simp

@[simp] theorem State.standing_memEvent (s : State) (layer : Nat) (idx : Nat) (n : Nat) (ref : PageRef) : (s.memEvent layer idx n ref).standing = s.standing := by
  rfl

@[simp] theorem State.standing_encoderRan (s : State) (ref : PageRef) (p : TierPage) (im : Image) : (s.encoderRan ref p im).standing = s.standing := by
  simp [State.encoderRan]

@[simp] theorem State.standing_encodeGroup (s : State) (rid : Nat) (refs : List PageRef) (b : TierPage → Backing) (place : Image → TierPage → TierPage) :
    (s.encodeGroup rid refs b place).standing = s.standing := by
  unfold State.encodeGroup
  split
  · rfl
  · dsimp only
    rw [State.standing_sweepTables, State.standing_foldl, State.standing_chooseTable]
    intro s ref
    (repeat' split) <;> simp [↓State.standing_mk]

@[simp] theorem State.standing_writeBackNow (s : State) (ref : PageRef) : (s.writeBackNow ref).standing = s.standing := by
  unfold State.writeBackNow
  split <;> simp

@[simp] theorem State.standing_evict (s : State) (e : PageRef × TierPage) : (s.evict e).standing = s.standing := by
  unfold State.evict
  split <;> simp

@[simp] theorem State.standing_roomT0 (s : State) : (s.roomT0).standing = s.standing := by
  unfold State.roomT0
  (repeat' split) <;> simp

@[simp] theorem State.standing_startEvict (s : State) : (s.startEvict).standing = s.standing := by
  unfold State.startEvict
  split <;> simp

@[simp] theorem State.standing_fillT0 (s : State) (ref : PageRef) : (s.fillT0 ref).standing = s.standing := by
  unfold State.fillT0
  (repeat' split) <;> simp

@[simp] theorem State.standing_touch (s : State) (port : Bool) (ref : PageRef) (off : Nat) (n : Nat) : (s.touch port ref off n).standing = s.standing := by
  unfold State.touch
  simp [↓State.standing_mk, apply_ite State.standing, State.standing_foldl]
  (repeat' split) <;> simp [↓State.standing_mk, apply_ite State.standing, State.standing_foldl]

@[simp] theorem State.standing_parkZero (s : State) (rid : Nat) (p : Nat) : (s.parkZero rid p).standing = s.standing := by
  unfold State.parkZero
  split <;> simp [↓State.standing_mk]

@[simp] theorem State.standing_allocate (s : State) (rid : Nat) (p : Nat) (r : Region) : (s.allocate rid p r).standing = s.standing := by
  unfold State.allocate
  split <;> simp [↓State.standing_mk]

@[simp] theorem State.standing_ensurePage (s : State) (rid : Nat) (p : Nat) : (s.ensurePage rid p).standing = s.standing := by
  unfold State.ensurePage
  (repeat' split) <;> simp

@[simp] theorem State.standing_commit (s : State) : (s.commit).standing = s.standing := by
  rfl

@[simp] theorem State.standing_makeShadow (s : State) (rid : Nat) (p : Nat) (i : Issuer) : (s.makeShadow rid p i).standing = s.standing := by
  unfold State.makeShadow
  simp [↓State.standing_mk, apply_ite State.standing, State.standing_foldl]
  (repeat' split) <;> simp [↓State.standing_mk, apply_ite State.standing, State.standing_foldl]

@[simp] theorem State.standing_dropShadow (s : State) (h : Nat) (eid : Nat) (ctx : Nat) : (s.dropShadow h eid ctx).standing = s.standing := by
  simp [State.dropShadow, ↓State.standing_mk, apply_ite State.standing, State.standing_foldl]

@[simp] theorem State.standing_trimWriters (s : State) : (s.trimWriters).standing = s.standing := by
  rfl

@[simp] theorem State.standing_collect (s : State) (h : Nat) : (s.collect h).standing = s.standing := by
  unfold State.collect
  (repeat' split) <;> simp

@[simp] theorem State.standing_hold (s : State) (h : Nat) (holder : Nat) : (s.hold h holder).standing = s.standing := by
  rfl

@[simp] theorem State.standing_unhold (s : State) (h : Nat) (holder : Nat) : (s.unhold h holder).standing = s.standing := by
  simp [State.unhold]

@[simp] theorem State.standing_holdZero (s : State) (rid : Nat) (p : Nat) (holder : Nat) : (s.holdZero rid p holder).standing = s.standing := by
  rfl

@[simp] theorem State.standing_capturePages (s : State) (holder : Nat) (ps : List (Nat × Nat)) : (s.capturePages holder ps).1.standing = s.standing := by
  simp [State.capturePages, ↓State.standing_mk, apply_ite State.standing, State.standing_foldl]

@[simp] theorem State.standing_capture (s : State) (holder : Nat) (ranges : List (Nat × Nat × Nat)) : (s.capture holder ranges).1.standing = s.standing := by
  simp [State.capture]

@[simp] theorem State.standing_uncapture (s : State) (holder : Nat) (caps : Caps) : (s.uncapture holder caps).standing = s.standing := by
  unfold State.uncapture
  rw [State.standing_foldl, State.standing_mk] <;> intros
  all_goals try split
  all_goals simp

@[simp] theorem State.standing_recapture (s : State) (holder : Nat) (caps : Caps) : (s.recapture holder caps).1.standing = s.standing := by
  simp [State.recapture]

@[simp] theorem State.standing_overlay (s : State) (holder : Nat) (caps : Caps) : (s.overlay holder caps).standing = s.standing := by
  refine State.standing_foldl (fun s c => ?_) _ _
  (repeat' split) <;> simp

@[simp] theorem State.standing_restore (s : State) (old : List (Nat × Nat × Entry)) : (s.restore old).standing = s.standing := by
  refine State.standing_foldl (fun s e => ?_) _ _
  split <;> simp

@[simp] theorem State.standing_touchRange (s : State) (port : Bool) (rid : Nat) (v : View) (off n : Nat) : (s.touchRange port rid v off n).standing = s.standing := by
  refine State.standing_foldl (fun s q => ?_) _ _
  (repeat' split) <;> simp

@[simp] theorem State.standing_putRef (s : State) (ref : PageRef) (off : Nat) (data : Bytes) : (s.putRef ref off data).standing = s.standing := by
  simp [State.putRef, ↓State.standing_mk, apply_ite State.standing, State.standing_foldl]

@[simp] theorem State.standing_directMap (s : State) (rid p off n : Nat) (f : Bytes → Bytes) : (s.directMap rid p off n f).standing = s.standing := by
  unfold State.directMap
  dsimp only
  (repeat' split)
  · simp
  · simp
  · rw [State.standing_foldl (fun s ref => ?_), State.standing_ensurePage]
    (repeat' split) <;> simp

@[simp] theorem State.standing_write1 (s : State) (rid : Nat) (w : Way) (off : Nat) (data : Bytes) : (s.write1 rid w off data).standing = s.standing := by
  unfold State.write1
  simp [↓State.standing_mk, apply_ite State.standing, State.standing_foldl]
  (repeat' split) <;> simp [↓State.standing_mk, apply_ite State.standing, State.standing_foldl]

@[simp] theorem State.standing_writePieces (s : State) (rid : Nat) (w : Way) (data : Bytes) (off : Nat) (ps : List (Nat × Nat)) :
    (s.writePieces rid w data off ps).standing = s.standing := by
  induction ps generalizing s with
  | nil => rfl
  | cons p ps ih => simp [State.writePieces, ih]

@[simp] theorem State.standing_writeRange (s : State) (rid : Nat) (w : Way) (off : Nat) (data : Bytes) : (s.writeRange rid w off data).standing = s.standing := by
  simp [State.writeRange]

@[simp] theorem State.standing_poisonLine (s : State) (rid : Nat) (w : Way) (off : Nat) : (s.poisonLine rid w off).standing = s.standing := by
  unfold State.poisonLine
  simp [↓State.standing_mk, apply_ite State.standing, State.standing_foldl]
  (repeat' split) <;> simp [↓State.standing_mk, apply_ite State.standing, State.standing_foldl]

@[simp] theorem State.standing_clearLine (s : State) (rid : Nat) (off : Nat) : (s.clearLine rid off).standing = s.standing := by
  unfold State.clearLine
  (repeat' split) <;> simp [↓State.standing_mk, apply_ite State.standing, State.standing_foldl]

@[simp] theorem State.standing_poisonPage (s : State) (ref : PageRef) : (s.poisonPage ref).standing = s.standing := by
  rfl

@[simp] theorem State.standing_switchPage (s : State) (h : Nat) (eid : Nat) (ctx : Nat) (v : Nat) : (s.switchPage h eid ctx v).standing = s.standing := by
  unfold State.switchPage
  (repeat' split) <;> simp

@[simp] theorem State.standing_trimOlds (s : State) : (s.trimOlds).standing = s.standing := by
  rfl

@[simp] theorem State.standing_vector (s : State) (port : Nat) (fn : Nat) (v : Nat) : (s.vector port fn v).standing = s.standing := by
  simp [State.vector, ↓State.standing_mk, apply_ite State.standing, State.standing_foldl]

@[simp] theorem State.standing_rsFn (s : State) (port : Nat) (fn : Nat) : (s.rsFn port fn).standing = s.standing := by
  rfl

@[simp] theorem State.standing_rsMgmt (s : State) : (s.rsMgmt).standing = s.standing := by
  rfl

@[simp] theorem State.standing_traceDrop (s : State) (die : Nat) (seq : Nat) : (s.traceDrop die seq).standing = s.standing := by
  rfl

theorem State.standing_of_recordIn {s t : State} {rid off : Nat} {data : Bytes} (h : s.recordIn rid off data = some t) : t.standing = s.standing := by
  unfold State.recordIn at h
  split at h
  · cases h
  · split at h <;> cases h
    simp

theorem State.standing_of_recordAt {s t : State} {key off : Nat} {data : Bytes} (h : s.recordAt key off data = some t) : t.standing = s.standing := by
  unfold State.recordAt at h
  split at h
  · cases h
  · exact State.standing_of_recordIn h

theorem State.standing_of_recordHeld {s t : State} {caps : Caps} {key off : Nat} {data : Bytes} (h : s.recordHeld caps key off data = some t) : t.standing = s.standing := by
  unfold State.recordHeld at h
  split at h
  · exact State.standing_of_recordIn h
  · exact State.standing_of_recordAt h

theorem State.standing_of_traceSlots {s t : State} {g : Ring} {slots : Nat} {ws : List Word} {k : Nat} (h : s.traceSlots g slots ws k = some t) : t.standing = s.standing := by
  induction k generalizing s ws with
  | zero => cases h; rfl
  | succ k ih =>
    unfold State.traceSlots at h
    dsimp only at h
    split at h
    · cases h
    · rename_i u hu
      have hk := ih h
      simpa [↓State.standing_mk, State.standing_of_recordAt hu] using hk

@[simp] theorem State.standing_traceRing (s : State) (die seq : Nat) (ws : List Word) (k : Nat) : (s.traceRing die seq ws k).standing = s.standing := by
  unfold State.traceRing
  split
  · rfl
  · extract_lets slots s1
    have h1 : s1.standing = s.standing := by
      dsimp only [s1]
      (repeat' split) <;> simp [↓State.standing_mk]
      exact State.standing_of_traceSlots (by assumption)
    (repeat' split) <;> simp [h1]
    exact (State.standing_of_traceSlots (by assumption)).trans h1

@[simp] theorem State.standing_traceFlush (s : State) : (s.traceFlush).standing = s.standing := by
  simp [State.traceFlush, ↓State.standing_mk, apply_ite State.standing, State.standing_foldl]

@[simp] theorem State.standing_setDomain (s : State) (e : DomEntry) : (s.setDomain e).standing = s.standing := by
  rfl

@[simp] theorem State.standing_domainUp (s : State) (d : Domain) : (s.domainUp d).standing = s.standing := by
  simp [State.domainUp, ↓State.standing_mk, apply_ite State.standing, State.standing_foldl]

@[simp] theorem State.standing_bivouacEnd (s : State) : (s.bivouacEnd).standing = s.standing := by
  unfold State.bivouacEnd
  rw [State.standing_foldl State.standing_wakeDomain, State.standing_mk] <;> rfl

@[simp] theorem State.standing_stir (s : State) : (s.stir).standing = s.standing := by
  unfold State.stir
  split <;> simp

@[simp] theorem State.standing_wakeBasecamp (s : State) : (s.wakeBasecamp).standing = s.standing := by
  simp [State.wakeBasecamp]

@[simp] theorem State.standing_setUnit (s : State) (hw : Nat) (u : UnitRec) : (s.setUnit hw u).standing = s.standing := by
  rfl

@[simp] theorem State.standing_healthCount (s : State) (hw : Nat) (cls : Nat) : (s.healthCount hw cls).standing = s.standing := by
  unfold State.healthCount
  (repeat' split) <;> simp

@[simp] theorem State.standing_quarantineWatch (s : State) (hw : Nat) (cls : Nat) : (s.quarantineWatch hw cls).standing = s.standing := by
  unfold State.quarantineWatch
  split <;> simp

@[simp] theorem State.standing_error (s : State) (n : ErrorNote) : (s.error n).standing = s.standing := by
  unfold State.error
  dsimp only
  split
  · refine (State.standing_mk (s := (s.healthCount n.hw n.cls).errorCount n.hw n.cls) rfl rfl rfl rfl rfl rfl rfl rfl rfl rfl rfl).trans ?_
    simp
  · rw [State.standing_emit, State.standing_traceGen, State.standing_cairn]
    refine (State.standing_mk (s := ((s.healthCount n.hw n.cls).errorCount n.hw n.cls).quarantineWatch n.hw n.cls) rfl rfl rfl rfl rfl rfl rfl rfl rfl rfl rfl).trans ?_
    simp


@[simp] theorem State.standing_lostRecord (s : State) (key : Nat) (off : Nat) (ctx : Nat) : (s.lostRecord key off ctx).standing = s.standing := by
  simp [State.lostRecord]

@[simp] theorem State.standing_rsNotice (s : State) (eid : Nat) (ctx : Nat) : (s.rsNotice eid ctx).standing = s.standing := by
  unfold State.rsNotice
  (repeat' split) <;> simp

@[simp] theorem State.standing_notice (s : State) (eid ctx kind : Nat) (aborted : Bool) (st : Status) (src obj deadline : Nat) :
    (s.notice eid ctx kind aborted st src obj deadline).standing = s.standing := by
  unfold State.notice
  dsimp only
  (repeat' split) <;> simp [↓State.standing_mk]
  all_goals exact State.standing_of_recordAt (by assumption)

@[simp] theorem State.standing_noticeTo (s : State) (who : Option (Nat × Nat)) (kind : Nat) (aborted : Bool) (st : Status) (src : Nat) (obj : Nat) (deadline : Nat) : (s.noticeTo who kind aborted st src obj deadline).standing = s.standing := by
  unfold State.noticeTo
  split <;> simp

@[simp] theorem State.standing_faultWrite (s : State) (f : FaultRec) : (s.faultWrite f).standing = s.standing := by
  unfold State.faultWrite
  dsimp only
  (repeat' split) <;> simp [↓State.standing_mk]
  exact State.standing_of_recordAt (by assumption)

@[simp] theorem State.standing_faultFlushN (s : State) (n : Nat) : (s.faultFlushN n).standing = s.standing := by
  induction n generalizing s with
  | zero => rfl
  | succ n ih =>
    unfold State.faultFlushN
    (repeat' split) <;> simp [ih]

@[simp] theorem State.standing_faultFlush (s : State) : (s.faultFlush).standing = s.standing := by
  simp [State.faultFlush]

@[simp] theorem State.standing_partner (s : State) (event : Nat) (kind : Nat) (loc : Nat) (width : Nat) (ver : Nat) (eid : Nat) (inc : Nat) : (s.partner event kind loc width ver eid inc).standing = s.standing := by
  simp [State.partner, ↓State.standing_mk, apply_ite State.standing, State.standing_foldl]



@[simp] theorem State.standing_kernelStop (s : State) (n : Nat) (exc : Nat) (st : Status) (engine : Nat) (bundle : Nat) : (s.kernelStop n exc st engine bundle).standing = s.standing := by
  unfold State.kernelStop
  simp [↓State.standing_mk, apply_ite State.standing, State.standing_foldl]
  (repeat' split) <;> simp [↓State.standing_mk, apply_ite State.standing, State.standing_foldl]

@[simp] theorem State.standing_accessFail (s : State) (cmd : Instr) (exc : Nat) (st : Status) : (s.accessFail cmd exc st).standing = s.standing := by
  unfold State.accessFail
  (repeat' split) <;> simp

theorem State.standing_of_faultOn {s t : State} {rid kind page access : Nat} {runTime : Bool} {hw off : Nat} {i : Issuer} {needRoom : Bool} {seq : Nat}
    (h : s.faultOn rid kind page access runTime hw off i needRoom = some (t, seq)) : t.standing = s.standing := by
  unfold State.faultOn at h
  split at h
  · cases h; rfl
  · split at h <;> cases h
    simp [↓State.standing_mk]

@[simp] theorem State.standing_kernelFinish (s : State) (k : KernelRun) (flags : BitVec 5) : (s.kernelFinish k flags).standing = s.standing := by
  unfold State.kernelFinish
  dsimp only
  (repeat' split) <;> simp [↓State.standing_mk]
  all_goals exact (State.standing_of_recordHeld (by assumption)).trans (State.standing_overlay ..)

@[simp] theorem State.standing_endSaved (s : State) (n : Nat) (v : Saved) (exc : Nat) (st : Status) : (s.endSaved n v exc st).standing = s.standing := by
  simp [State.endSaved, ↓State.standing_mk, apply_ite State.standing, State.standing_foldl]

@[simp] theorem State.standing_restoreNext (s : State) (n : Nat) : (s.restoreNext n).standing = s.standing := by
  simp [State.restoreNext, ↓State.standing_mk, apply_ite State.standing, State.standing_foldl]

@[simp] theorem State.standing_endQueued (s : State) (k : KernelQ) (exc : Nat) (st : Status) : (s.endQueued k exc st).standing = s.standing := by
  simp [State.endQueued, ↓State.standing_mk]

@[simp] theorem State.standing_erasePin (s : State) (id : Nat) : (s.erasePin id).standing = s.standing := by
  unfold State.erasePin
  split <;> simp [↓State.standing_mk]

@[simp] theorem State.standing_endPin (s : State) (id : Nat) : (s.endPin id).standing = s.standing := by
  unfold State.endPin
  split <;> simp [↓State.standing_mk]

@[simp] theorem State.standing_sweepPins (s : State) : (s.sweepPins).standing = s.standing := by
  simp [State.sweepPins, ↓State.standing_mk, apply_ite State.standing, State.standing_foldl]

@[simp] theorem State.standing_memopFinish (s : State) (id : Nat) (ws : List Word) : (s.memopFinish id ws).standing = s.standing := by
  unfold State.memopFinish
  dsimp only
  (repeat' split) <;> simp [↓State.standing_mk]
  all_goals exact (State.standing_of_recordHeld (by assumption)).trans (State.standing_overlay ..)

@[simp] theorem State.standing_endWork (s : State) (c : Instr) (st : Status) : (s.endWork c st).standing = s.standing := by
  unfold State.endWork
  split <;> simp [↓State.standing_mk]

@[simp] theorem State.standing_complete (s : State) (q : LmfReq) (st : Status) (data : Bytes) : (s.complete q st data).standing = s.standing := by
  rfl

@[simp] theorem State.standing_logPut (s : State) (k : Nat) (e : LogEntry) : (s.logPut k e).standing = s.standing := by
  rfl

@[simp] theorem State.standing_logDone (s : State) (k : Nat) (lseq : Nat) (st : Status) (value : Nat) : (s.logDone k lseq st value).standing = s.standing := by
  rfl

@[simp] theorem State.standing_selfLog (s : State) (home : Nat) (ctx : Nat) (st : Status) (value : Nat) : (s.selfLog home ctx st value).1.standing = s.standing := by
  rfl

@[simp] theorem State.standing_holdCmd (s : State) (cmd : Instr) (why : HoldWhy) (limit : Nat) (eid : Nat) (ctx : Nat) : (s.holdCmd cmd why limit eid ctx).standing = s.standing := by
  rfl

@[simp] theorem State.standing_toAgent (s : State) (a : Nat) (op : Nat) (rid : Nat) (ln : Nat) (flag : Nat) (data : Bytes) : (s.toAgent a op rid ln flag data).standing = s.standing := by
  rfl

@[simp] theorem State.standing_setLine (s : State) (rid : Nat) (ln : Nat) (l : Line) : (s.setLine rid ln l).standing = s.standing := by
  rfl

@[simp] theorem State.standing_freeLine (s : State) (rid : Nat) (ln : Nat) : (s.freeLine rid ln).standing = s.standing := by
  unfold State.freeLine
  (repeat' split) <;> simp [↓State.standing_mk]

@[simp] theorem State.standing_askLine (s : State) (rid : Nat) (ln : Nat) (req : LineReq) : (s.askLine rid ln req).standing = s.standing := by
  unfold State.askLine
  (repeat' split) <;> simp [↓State.standing_mk, apply_ite State.standing, State.standing_foldl]

@[simp] theorem State.standing_tidyLine (s : State) (rid : Nat) (ln : Nat) : (s.tidyLine rid ln).standing = s.standing := by
  unfold State.tidyLine
  (repeat' split) <;> simp [↓State.standing_mk]

@[simp] theorem State.standing_served (s : State) (rid : Nat) (ln : Nat) (eid : Nat) : (s.served rid ln eid).standing = s.standing := by
  unfold State.served
  (repeat' split) <;> simp

@[simp] theorem State.standing_reserve (s : State) (rid : Nat) (ln : Nat) (eid : Nat) (retry : Nat) : (s.reserve rid ln eid retry).standing = s.standing := by
  simp [State.reserve, ↓State.standing_mk, apply_ite State.standing, State.standing_foldl]

@[simp] theorem State.standing_claim (s : State) (cmd : Instr) : (s.claim cmd).standing = s.standing := by
  simp [State.claim, ↓State.standing_mk, apply_ite State.standing, State.standing_foldl]

@[simp] theorem State.standing_takeUp (s : State) (a : Again) : (s.takeUp a).standing = s.standing := by
  unfold State.takeUp
  (repeat' split) <;> simp [↓State.standing_mk, apply_ite State.standing, State.standing_foldl]

@[simp] theorem State.standing_forsake (s : State) (cmd : Instr) : (s.forsake cmd).standing = s.standing := by
  simp [State.forsake, ↓State.standing_mk]

@[simp] theorem State.standing_quotaMet (s : State) (st : Status) : (s.quotaMet st).standing = s.standing := by
  unfold State.quotaMet
  split <;> simp

@[simp] theorem State.standing_stalled (s : State) (work : Bool) (hw : Nat) (ctx : Nat) (seq : Nat) : (s.stalled work hw ctx seq).standing = s.standing := by
  unfold State.stalled
  split <;> simp [↓State.standing_mk]

@[simp] theorem State.standing_nackOwn (s : State) (rid : Nat) (ln : Nat) (a : HoldAs) : (s.nackOwn rid ln a).standing = s.standing := by
  simp [State.nackOwn, ↓State.standing_mk]

@[simp] theorem State.standing_startRoomN (s : State) (n : Nat) : (s.startRoomN n).standing = s.standing := by
  induction n generalizing s with
  | zero => rfl
  | succ n ih =>
    unfold State.startRoomN
    (repeat' split) <;> simp [ih]

@[simp] theorem State.standing_startRoom (s : State) : (s.startRoom).standing = s.standing := by
  simp [State.startRoom]

@[simp] theorem State.standing_holdOn (s : State) (a : HoldAs) (rid off : Nat) (m : Met) : (s.holdOn a rid off m).1.standing = s.standing := by
  unfold State.holdOn
  (repeat' split) <;> simp
  exact State.standing_of_faultOn (by assumption)

@[simp] theorem State.standing_issueTxn (s : State) (x : Txn) : (s.issueTxn x).standing = s.standing := by
  unfold State.issueTxn
  simp [↓State.standing_mk, apply_ite State.standing, State.standing_foldl]
  (repeat' split) <;> simp [↓State.standing_mk, apply_ite State.standing, State.standing_foldl]

@[simp] theorem State.standing_tagFreed (s : State) : (s.tagFreed).standing = s.standing := by
  unfold State.tagFreed
  split <;> simp [↓State.standing_mk]

@[simp] theorem State.standing_sendTxn (s : State) (what : TxnUse) (ctx : Nat) (eid : Nat) (op : Nat) (key : Nat) (off : Nat) (ckey : Nat) (data : Bytes) (idem : Bool) : (s.sendTxn what ctx eid op key off ckey data idem).standing = s.standing := by
  simp [State.sendTxn, ↓State.standing_mk]

@[simp] theorem State.standing_sendRead (s : State) (what : TxnUse) (ctx : Nat) (eid : Nat) (key : Nat) (off : Nat) (n : Nat) : (s.sendRead what ctx eid key off n).standing = s.standing := by
  simp [State.sendRead]

@[simp] theorem State.standing_sendWrite (s : State) (what : TxnUse) (ctx : Nat) (eid : Nat) (key : Nat) (off : Nat) (data : Bytes) : (s.sendWrite what ctx eid key off data).standing = s.standing := by
  unfold State.sendWrite
  split <;> simp

@[simp] theorem State.standing_sendLender (s : State) (what : TxnUse) (e : Extent) (off : Nat) (n : Nat) (data : Option Bytes) : (s.sendLender what e off n data).standing = s.standing := by
  unfold State.sendLender
  (repeat' split) <;> simp [↓State.standing_mk, apply_ite State.standing, State.standing_foldl]

@[simp] theorem State.standing_fetchTL (s : State) (ref : PageRef) (off : Nat) (n : Nat) : (s.fetchTL ref off n).standing = s.standing := by
  unfold State.fetchTL
  (repeat' split) <;> simp [↓State.standing_mk, apply_ite State.standing, State.standing_foldl]

@[simp] theorem State.standing_fetchT2 (s : State) (ref : PageRef) : (s.fetchT2 ref).standing = s.standing := by
  unfold State.fetchT2
  (repeat' split) <;> simp

@[simp] theorem State.standing_readEvent (s : State) (ref : PageRef) (n : Nat) : (s.readEvent ref n).standing = s.standing := by
  unfold State.readEvent
  (repeat' split) <;> simp

@[simp] theorem State.standing_readDone (s : State) (port : Bool) (rid : Nat) (v : View) (off n : Nat) : (s.readDone port rid v off n).standing = s.standing := by
  unfold State.readDone
  dsimp only
  rw [State.standing_touchRange, State.standing_foldl]
  intros
  (repeat' split) <;> simp

@[simp] theorem State.standing_setChannel (s : State) (n : Nat) (c : Channel) : (s.setChannel n c).standing = s.standing := by
  rfl

@[simp] theorem State.standing_respondFn (s : State) (p : Nat) (f : Nat) (ws : List Word) : (s.respondFn p f ws).standing = s.standing := by
  simp [State.respondFn]

@[simp] theorem State.standing_channelDone (s : State) (c : Nat) (r : BciReq) (ws : List Word) : (s.channelDone c r ws).standing = s.standing := by
  rfl

@[simp] theorem State.standing_respond (s : State) (r : BciReq) (st : Status) (resp : List Word) : (s.respond r st resp).standing = s.standing := by
  unfold State.respond
  (repeat' split) <;> simp

@[simp] theorem State.standing_giveAnswer (s : State) (st : Status) (a : Answer) : (s.giveAnswer st a).standing = s.standing := by
  cases a <;> simp [State.giveAnswer]

@[simp] theorem State.standing_answerAfter (s : State) (rid : Nat) (off : Nat) (data : Bytes) (log : Option LogNote) (st : Status) (a : Answer) : (s.answerAfter rid off data log st a).standing = s.standing := by
  unfold State.answerAfter
  (repeat' split) <;> simp [↓State.standing_mk]

@[simp] theorem State.standing_forward (s : State) (rid : Nat) (off : Nat) (data : Bytes) (work : WorkRef) (log : optParam (Option LogNote) none) : (s.forward rid off data work log).standing = s.standing := by
  unfold State.forward
  (repeat' split) <;> simp [↓State.standing_mk]

@[simp] theorem State.standing_turnAway (s : State) (c : Instr) (eid : Nat) (ctx : Nat) (st : Status) (a : Answer) : (s.turnAway c eid ctx st a).standing = s.standing := by
  unfold State.turnAway
  simp [↓State.standing_mk, apply_ite State.standing, State.standing_foldl]
  (repeat' split) <;> simp [↓State.standing_mk, apply_ite State.standing, State.standing_foldl]

@[simp] theorem State.standing_turnLmf (s : State) (cmd : Instr) (q : LmfReq) (st : Status) : (s.turnLmf cmd q st).standing = s.standing := by
  simp [State.turnLmf]

@[simp] theorem State.standing_arrived (s : State) (q : LmfReq) (payload : Bool) : (s.arrived q payload).standing = s.standing := by
  unfold State.arrived
  split <;> simp

theorem State.standing_of_holdOn {s t : State} {a : HoldAs} {rid off : Nat} {m : Met} {o : Option Status} (h : s.holdOn a rid off m = (t, o)) : t.standing = s.standing := by
  rw [← State.standing_holdOn s a rid off m, h]

@[simp] theorem State.standing_lmfMet (s : State) (cmd : Instr) (q : LmfReq) (access rid : Nat) (m : Met) : (s.lmfMet cmd q access rid m).standing = s.standing := by
  unfold State.lmfMet
  split
  · rw [State.standing_complete]
    exact State.standing_of_holdOn (by assumption)
  · exact State.standing_of_holdOn (by assumption)

@[simp] theorem State.standing_refuseBci (s : State) (cmd : Instr) (row : BciRow) (r : BciReq) (st : Status) : (s.refuseBci cmd row r st).standing = s.standing := by
  unfold State.refuseBci
  (repeat' split) <;> simp

@[simp] theorem State.standing_giveKey (s : State) (eid : Nat) (rid : Nat) : (s.giveKey eid rid).standing = s.standing := by
  unfold State.giveKey
  (repeat' split) <;> simp

@[simp] theorem State.standing_giveKeyAll (s : State) (rid : Nat) : (s.giveKeyAll rid).standing = s.standing := by
  unfold State.giveKeyAll
  (repeat' split) <;> simp [↓State.standing_mk, apply_ite State.standing, State.standing_foldl]

@[simp] theorem State.standing_addDeadline (s : State) (id : Nat) (at' : Nat) (abort : Bool) (src : Nat) (obj : Nat) (i : Issuer) : (s.addDeadline id at' abort src obj i).standing = s.standing := by
  rfl

@[simp] theorem State.standing_dropDeadline (s : State) (id : Nat) : (s.dropDeadline id).standing = s.standing := by
  rfl

@[simp] theorem State.standing_dueBci (s : State) (cmd : Instr) (r : BciReq) (i : Issuer) (id : Nat) : (s.dueBci cmd r i id).standing = s.standing := by
  unfold State.dueBci
  split <;> simp

@[simp] theorem State.standing_holdBci (s : State) (cmd : Instr) (r : BciReq) (i : Issuer) (why : HoldWhy) (limit : Nat) : (s.holdBci cmd r i why limit).standing = s.standing := by
  simp [State.holdBci]

@[simp] theorem State.standing_bciMet (s : State) (cmd : Instr) (r : BciReq) (i : Issuer) (access rid off : Nat) (m : Met) : (s.bciMet cmd r i access rid off m).1.standing = s.standing := by
  unfold State.bciMet
  dsimp only
  split
  · rw [State.standing_dueBci]
    exact State.standing_of_holdOn (by assumption)
  · exact State.standing_of_holdOn (by assumption)

theorem State.standing_of_bciMet {s t : State} {cmd : Instr} {r : BciReq} {i : Issuer} {access rid off : Nat} {m : Met} {o : Option Status}
    (h : s.bciMet cmd r i access rid off m = (t, o)) : t.standing = s.standing := by
  rw [← State.standing_bciMet s cmd r i access rid off m, h]

@[simp] theorem State.standing_bciStop (s : State) (cmd : Instr) (r : BciReq) (i : Issuer) (access rid off : Nat) (m : Met) : (s.bciStop cmd r i access rid off m).standing = s.standing := by
  unfold State.bciStop
  split
  · exact State.standing_of_bciMet (by assumption)
  · rw [State.standing_respond]
    exact State.standing_of_bciMet (by assumption)

@[simp] theorem State.standing_lateNotice (s : State) (cmd : Instr) (r : BciReq) (i : Issuer) : (s.lateNotice cmd r i).standing = s.standing := by
  unfold State.lateNotice
  (repeat' split) <;> simp

@[simp] theorem State.standing_startOp (s : State) (kind : OpKind) (total : Nat) (who : Option (Nat × Nat)) : (s.startOp kind total who).standing = s.standing := by
  rfl

@[simp] theorem State.standing_endOp (s : State) (id : Nat) (state : Nat) (st : Status) : (s.endOp id state st).standing = s.standing := by
  unfold State.endOp
  (repeat' split) <;> simp [↓State.standing_mk]

@[simp] theorem State.standing_opProgress (s : State) (id : Nat) (pos : Nat) : (s.opProgress id pos).standing = s.standing := by
  rfl

@[simp] theorem State.standing_cxlError (s : State) (port : Nat) (fn : Nat) (dec : Nat) (ctx : Nat) (st : Status) (key : Nat) (off : Nat) : (s.cxlError port fn dec ctx st key off).standing = s.standing := by
  simp [State.cxlError]



@[simp] theorem State.standing_cxlReadFail (s : State) (port : Nat) (hpa : Nat) (st : Status) : (s.cxlReadFail port hpa st).standing = s.standing := by
  unfold State.cxlReadFail
  split <;> simp

@[simp] theorem State.standing_cxlDiscard (s : State) (port : Nat) (hpa : Nat) (st : Status) : (s.cxlDiscard port hpa st).standing = s.standing := by
  unfold State.cxlDiscard
  split <;> simp

@[simp] theorem State.standing_cqReject (s : State) (port : Nat) (st : Status) : (s.cqReject port st).standing = s.standing := by
  simp [State.cqReject]

@[simp] theorem State.standing_endPub (s : State) (p : PubCmd) (st : Status) (resp : List Word) (value : Nat) : (s.endPub p st resp value).standing = s.standing := by
  simp [State.endPub, ↓State.standing_mk]

@[simp] theorem State.standing_selfLogged (s : State) (c : Instr) (ctx : Nat) (st : Status) : (s.selfLogged c ctx st).standing = s.standing := by
  unfold State.selfLogged
  (repeat' split) <;> simp

@[simp] theorem State.standing_endCmd (s : State) (c : Instr) (eid : Nat) (ctx : Nat) (st : Status) : (s.endCmd c eid ctx st).standing = s.standing := by
  unfold State.endCmd
  (repeat' split) <;> simp

@[simp] theorem State.standing_endHeld (s : State) (h : Held) (st : Status) : (s.endHeld h st).standing = s.standing := by
  unfold State.endHeld
  split <;> simp [↓State.standing_mk]

@[simp] theorem State.standing_endHolds (s : State) (f : Held → Bool) (st : Status) : (s.endHolds f st).standing = s.standing := by
  simp [State.endHolds, ↓State.standing_mk, apply_ite State.standing, State.standing_foldl]

@[simp] theorem State.standing_releaseOne (s : State) (h : Held) : (s.releaseOne h).standing = s.standing := by
  rfl

@[simp] theorem State.standing_bufferFree (s : State) : (s.bufferFree).standing = s.standing := by
  rfl

@[simp] theorem State.standing_cxlHoldOn (s : State) (cmd : Instr) (i : Issuer) (access : Nat) (rid : Nat) (off : Nat) (m : Met) : (s.cxlHoldOn cmd i access rid off m).1.standing = s.standing := by
  simp [State.cxlHoldOn]

@[simp] theorem State.standing_cxlAck (s : State) (port : Nat) : (s.cxlAck port).standing = s.standing := by
  unfold State.cxlAck
  split <;> simp

@[simp] theorem State.standing_withGot (s : State) (cmd : Instr) (got : Bytes) : (s.withGot cmd got).standing = s.standing := by
  rfl

@[simp] theorem State.standing_ungot (t s : State) : (t.ungot s).standing = t.standing := by
  simp [State.ungot, ↓State.standing_mk]

@[simp] theorem State.standing_lineWrite (s : State) (rid : Nat) (ln : Nat) (data : Bytes) : (s.lineWrite rid ln data).standing = s.standing := by
  simp [State.lineWrite]

@[simp] theorem State.standing_lineToxic (s : State) (rid : Nat) (ln : Nat) : (s.lineToxic rid ln).standing = s.standing := by
  simp [State.lineToxic]

@[simp] theorem State.standing_lineClean (s : State) (rid : Nat) (ln : Nat) : (s.lineClean rid ln).standing = s.standing := by
  unfold State.lineClean
  split <;> simp

@[simp] theorem State.standing_lineReturn (s : State) (rid : Nat) (ln : Nat) (dirty : Bool) (poison : Bool) (data : Bytes) : (s.lineReturn rid ln dirty poison data).standing = s.standing := by
  unfold State.lineReturn
  (repeat' split) <;> simp

@[simp] theorem State.standing_cohReply (s : State) (q : LmfReq) (op : Nat) (flag : Nat) (data : Bytes) : (s.cohReply q op flag data).standing = s.standing := by
  rfl

@[simp] theorem State.standing_nack (s : State) (rid : Nat) (ln : Nat) (q : LmfReq) (owner : Bool) (reserved : Bool) : (s.nack rid ln q owner reserved).standing = s.standing := by
  unfold State.nack
  split <;> simp

@[simp] theorem State.standing_grantLine (s : State) (rid : Nat) (ln : Nat) (agent : Nat) (st : LineState) : (s.grantLine rid ln agent st).standing = s.standing := by
  unfold State.grantLine
  simp [↓State.standing_mk, apply_ite State.standing, State.standing_foldl]
  (repeat' split) <;> simp [↓State.standing_mk, apply_ite State.standing, State.standing_foldl]

@[simp] theorem State.standing_doWrUnc (s : State) (rid : Nat) (ln : Nat) (q : LmfReq) (data : Bytes) (mask : BitVec 64) : (s.doWrUnc rid ln q data mask).standing = s.standing := by
  simp [State.doWrUnc]

@[simp] theorem State.standing_doRdUnc (s : State) (rid : Nat) (q : LmfReq) : (s.doRdUnc rid q).standing = s.standing := by
  unfold State.doRdUnc
  split <;> simp

@[simp] theorem State.standing_grantData (s : State) (rid : Nat) (ln : Nat) (agent : Nat) (st : LineState) (q : LmfReq) : (s.grantData rid ln agent st q).standing = s.standing := by
  simp [State.grantData]

@[simp] theorem State.standing_lineStable (s : State) (rid : Nat) (ln : Nat) : (s.lineStable rid ln).standing = s.standing := by
  rfl

@[simp] theorem State.standing_servePending (s : State) (rid : Nat) (ln : Nat) : (s.servePending rid ln).standing = s.standing := by
  unfold State.servePending
  simp [↓State.standing_mk, apply_ite State.standing, State.standing_foldl]
  (repeat' split) <;> simp [↓State.standing_mk, apply_ite State.standing, State.standing_foldl]

@[simp] theorem State.standing_poisonPending (s : State) (rid : Nat) (ln : Nat) (req : LineReq) : (s.poisonPending rid ln req).standing = s.standing := by
  unfold State.poisonPending
  (repeat' split) <;> simp

@[simp] theorem State.standing_settleLine (s : State) (rid : Nat) (ln : Nat) : (s.settleLine rid ln).standing = s.standing := by
  unfold State.settleLine
  simp [↓State.standing_mk, apply_ite State.standing, State.standing_foldl]
  (repeat' split) <;> simp [↓State.standing_mk, apply_ite State.standing, State.standing_foldl]

@[simp] theorem State.standing_evictLine (s : State) (rid : Nat) (ln : Nat) (l : Line) : (s.evictLine rid ln l).standing = s.standing := by
  unfold State.evictLine
  (repeat' split) <;> simp [↓State.standing_mk, apply_ite State.standing, State.standing_foldl]

@[simp] theorem State.standing_invalidate (s : State) (rid : Nat) (ln : Nat) (l : Line) (but : Option Nat) (req : LineReq) : (s.invalidate rid ln l but req).standing = s.standing := by
  simp [State.invalidate, ↓State.standing_mk, apply_ite State.standing, State.standing_foldl]

@[simp] theorem State.standing_snoopOwner (s : State) (rid : Nat) (ln : Nat) (l : Line) (op : Nat) (requester : Nat) (req : LineReq) : (s.snoopOwner rid ln l op requester req).standing = s.standing := by
  rfl

@[simp] theorem State.standing_cohRequest (s : State) (rid : Nat) (ln : Nat) (ro : Bool) (k : CohKind) (a : Nat) (isAgent : Bool) (q : LmfReq) : (s.cohRequest rid ln ro k a isAgent q).standing = s.standing := by
  unfold State.cohRequest
  simp [↓State.standing_mk, apply_ite State.standing, State.standing_foldl]
  (repeat' split) <;> simp [↓State.standing_mk, apply_ite State.standing, State.standing_foldl]

@[simp] theorem State.standing_journalExcl (s : State) (rid : Nat) (r : Region) (agent : Nat) (cmd : Instr) (q : LmfReq) : (s.journalExcl rid r agent cmd q).standing = s.standing := by
  unfold State.journalExcl
  split <;> simp [↓State.standing_mk]

@[simp] theorem State.standing_cohOwn (s : State) (cmd : Instr) (rid : Nat) (ln : Nat) (ro : Bool) (k : CohKind) (agent : Nat) (q : LmfReq) : (s.cohOwn cmd rid ln ro k agent q).standing = s.standing := by
  unfold State.cohOwn
  (repeat' split) <;> simp

@[simp] theorem State.standing_cohDrop (s : State) (rid : Nat) (ln : Nat) (agent : Nat) (q : LmfReq) (wb : Bool) (poison : Bool) (data : Bytes) : (s.cohDrop rid ln agent q wb poison data).standing = s.standing := by
  unfold State.cohDrop
  simp [↓State.standing_mk, apply_ite State.standing, State.standing_foldl]
  (repeat' split) <;> simp [↓State.standing_mk, apply_ite State.standing, State.standing_foldl]

@[simp] theorem State.standing_revokeLines (s : State) (w : RevokeWait) : (s.revokeLines w).standing = s.standing := by
  unfold State.revokeLines
  split
  · rfl
  · refine State.standing_foldl (fun s e => ?_) _ _
    dsimp only
    (repeat' split) <;> simp

@[simp] theorem State.standing_revokeStep (s : State) (w : RevokeWait) : (s.revokeStep w).standing = s.standing := by
  unfold State.revokeStep
  (repeat' split) <;> simp [↓State.standing_mk, apply_ite State.standing, State.standing_foldl]

@[simp] theorem State.standing_settle (s : State) : (s.settle).standing = s.standing := by
  simp [State.settle, ↓State.standing_mk, apply_ite State.standing, State.standing_foldl]

@[simp] theorem State.standing_again (s : State) (a : Again) (more : List Again) : (s.again a more).standing = s.standing := by
  simp [State.again, ↓State.standing_mk]

@[simp] theorem State.standing_resumed (s : State) (a : Again) : (s.resumed a).standing = s.standing := by
  unfold State.resumed
  split <;> simp [↓State.standing_mk]

@[simp] theorem State.standing_recallAnswered (s : State) (rid : Nat) (agent : Nat) : (s.recallAnswered rid agent).standing = s.standing := by
  unfold State.recallAnswered
  (repeat' split) <;> simp [↓State.standing_mk, apply_ite State.standing, State.standing_foldl]

@[simp] theorem State.standing_backOff (s : State) (x : Txn) (draw : Nat) : (s.backOff x draw).standing = s.standing := by
  rfl

@[simp] theorem State.standing_refuse (r : BciReq) (s : State) (st : Status) : (State.refuse r s st).standing = s.standing := by
  simp [State.refuse]

@[simp] theorem State.standing_respondLog (s : State) (r : BciReq) (i : Issuer) (lseq : Nat) (st : Status) (resp : List Word) (value : Nat) : (s.respondLog r i lseq st resp value).standing = s.standing := by
  unfold State.respondLog
  simp [↓State.standing_mk, apply_ite State.standing, State.standing_foldl]
  (repeat' split) <;> simp [↓State.standing_mk, apply_ite State.standing, State.standing_foldl]

@[simp] theorem State.standing_sendPages (s : State) (p : PubCmd) (rg : Region) (ps : List (Nat × Nat)) : (s.sendPages p rg ps).standing = s.standing := by
  simp [State.sendPages, ↓State.standing_mk, apply_ite State.standing, State.standing_foldl]

@[simp] theorem State.standing_discardPages (s : State) (rid : Nat) (rg : Region) (off : Nat) (n : Nat) (eid : Nat) (ctx : Nat) : (s.discardPages rid rg off n eid ctx).standing = s.standing := by
  simp [State.discardPages, ↓State.standing_mk, apply_ite State.standing, State.standing_foldl]

@[simp] theorem State.standing_copyPinned (s : State) (id srcRid off dst dstOff : Nat) (i : Issuer) (ps : List (Nat × Nat)) :
    (s.copyPinned id srcRid off dst dstOff i ps).1.standing = s.standing := by
  induction ps generalizing s with
  | nil => rfl
  | cons p ps ih =>
    unfold State.copyPinned
    dsimp only
    (repeat' split) <;> simp [ih]

@[simp] theorem State.standing_newCounter (s : State) (rid : Nat) (eid : Nat) (ctx : Nat) : (s.newCounter rid eid ctx).1.standing = s.standing := by
  rfl

@[simp] theorem State.standing_endWait (s : State) (w : Wait) (st : Status) (resp : List Word) : (s.endWait w st resp).standing = s.standing := by
  unfold State.endWait
  split <;> simp [↓State.standing_mk]

@[simp] theorem State.standing_freeCounter (s : State) (idx : Nat) : (s.freeCounter idx).standing = s.standing := by
  unfold State.freeCounter
  (repeat' split) <;> simp [↓State.standing_mk, apply_ite State.standing, State.standing_foldl]

@[simp] theorem State.standing_countWrite (s : State) (ckey : Nat) (n : Nat) : (s.countWrite ckey n).standing = s.standing := by
  rfl

@[simp] theorem State.standing_doAtomic (s : State) (port : Bool) (rid : Nat) (off : Nat) (op : Nat) (w : Nat) (a : Nat) (b : Nat) : (s.doAtomic port rid off op w a b).standing = s.standing := by
  unfold State.doAtomic
  simp [↓State.standing_mk, apply_ite State.standing, State.standing_foldl]
  (repeat' split) <;> simp [↓State.standing_mk, apply_ite State.standing, State.standing_foldl]

@[simp] theorem State.standing_nackAtomic (s : State) (rid : Nat) (ln : Nat) (q : LmfReq) (reserved : Bool) : (s.nackAtomic rid ln q reserved).standing = s.standing := by
  simp [State.nackAtomic]

@[simp] theorem State.standing_finishLogged (s : State) (r : BciReq) (i : Issuer) (lseq : Nat) (rid : Nat) (off : Nat) (data : Bytes) (st : Status) (resp : List Word) (value : Nat) : (s.finishLogged r i lseq rid off data st resp value).standing = s.standing := by
  simp [State.finishLogged]

@[simp] theorem State.standing_onCopy (s : State) (rid : Nat) (f : State → State) (h : ∀ s, (f s).standing = s.standing) : (s.onCopy rid f).standing = s.standing := by
  unfold State.onCopy
  dsimp only
  (repeat' split) <;> simp [↓State.standing_mk, h]

@[simp] theorem State.standing_applyNote (s : State) (home rid gen : Nat) (data : Bytes) (log : Option LogNote) (note : JournalNote) :
    (s.applyNote home rid gen data log note).standing = s.standing := by
  unfold State.applyNote
  cases note with
  | shadow p e c =>
    refine State.standing_onCopy _ _ _ fun s => ?_
    dsimp only
    (repeat' split) <;> simp
  | shadowEnd p e c =>
    refine State.standing_onCopy _ _ _ fun s => ?_
    split <;> simp
  | version v ps =>
    refine State.standing_onCopy _ _ _ fun s => ?_
    extract_lets s1
    have h1 : s1.standing = s.standing := by
      dsimp only [s1]
      split
      · refine State.standing_foldl (fun s p => ?_) _ _
        split <;> simp
      · rfl
    split <;> simpa using h1
  | region b n attr c v =>
    dsimp only
    split <;> simp [↓State.standing_mk]
  | _ => simp [↓State.standing_mk]

@[simp] theorem State.standing_mirrorDone (s : State) (w : MirrorWait) : (s.mirrorDone w).standing = s.standing := by
  unfold State.mirrorDone
  extract_lets home s1 s2 s3 src s4 s5
  have h3 : s3.standing = s.standing := by
    have h2 : s2.standing = s.standing := by simp [s2, s1, home, State.standing_foldl, ↓State.standing_mk]
    dsimp only [s3]
    split <;> simpa using h2
  have h4 : s4.standing = s.standing := by
    dsimp only [s4]
    split <;> simpa [↓State.standing_mk] using h3
  have h5 : s5.standing = s.standing := by
    dsimp only [s5]
    split <;> simpa using h4
  (repeat' split) <;> simpa using h5

@[simp] theorem State.standing_moRaise (s : State) (id : Nat) (i : Issuer) (g : Nat × Nat × Nat × Nat × Nat) : (s.moRaise id i g).standing = s.standing := by
  simp [State.moRaise]

@[simp] theorem State.standing_introduce (s : State) (rid : Nat) (r : Region) : (s.introduce rid r).standing = s.standing := by
  simp [State.introduce, ↓State.standing_mk, apply_ite State.standing, State.standing_foldl]

@[simp] theorem State.standing_holdTable (s : State) (rid : Nat) : (s.holdTable rid).standing = s.standing := by
  rfl

@[simp] theorem State.standing_destroyLines (s : State) (rid : Nat) : (s.destroyLines rid).standing = s.standing := by
  refine State.standing_foldl (fun s e => ?_) _ _
  dsimp only
  (repeat' split) <;> simp [↓State.standing_mk, State.standing_foldl]

@[simp] theorem State.standing_unbindRings (s : State) (rid : Nat) : (s.unbindRings rid).standing = s.standing := by
  simp [State.unbindRings, ↓State.standing_mk, apply_ite State.standing, State.standing_foldl]

@[simp] theorem State.standing_endRegionOps (s : State) (rid : Nat) (st : Status) : (s.endRegionOps rid st).standing = s.standing := by
  simp [State.endRegionOps, ↓State.standing_mk, apply_ite State.standing, State.standing_foldl]

@[simp] theorem State.standing_abortSaved (s : State) (seq : Nat) (exc : Nat) (st : Status) : (s.abortSaved seq exc st).standing = s.standing := by
  simp [State.abortSaved, ↓State.standing_mk, apply_ite State.standing, State.standing_foldl]

@[simp] theorem State.standing_mapRefs (s : State) (f : PageRef → TierPage → TierPage) : (s.mapRefs f).standing = s.standing := by
  rfl

@[simp] theorem State.standing_kick (s : State) : (s.kick).standing = s.standing := by
  rfl

@[simp] theorem State.standing_applyPolicy (s : State) (rid : Nat) (new : Policy) : (s.applyPolicy rid new).standing = s.standing := by
  rfl

@[simp] theorem State.standing_ssdSync (s : State) : (s.ssdSync).standing = s.standing := by
  unfold State.ssdSync
  dsimp only
  rw [State.standing_foldl, State.standing_foldl]
  · intros; simp [↓State.standing_mk]
  · intros; (repeat' split) <;> simp [↓State.standing_mk]

@[simp] theorem State.standing_unmirror (s : State) (rid : Nat) : (s.unmirror rid).standing = s.standing := by
  simp [State.unmirror, ↓State.standing_mk, apply_ite State.standing, State.standing_foldl]

@[simp] theorem State.standing_startMirror (s : State) (rid : Nat) (partner : Nat) (i : Issuer) : (s.startMirror rid partner i).1.standing = s.standing := by
  unfold State.startMirror
  simp [↓State.standing_mk, apply_ite State.standing, State.standing_foldl]
  (repeat' split) <;> simp [↓State.standing_mk, apply_ite State.standing, State.standing_foldl]

@[simp] theorem State.standing_takeOut (s : State) (rid p n : Nat) : (s.takeOut rid p n).1.standing = s.standing := by
  unfold State.takeOut
  extract_lets s1
  have h1 : s1.standing = s.standing := by
    refine State.standing_foldl (fun s k => ?_) _ _
    split <;> simp
  split <;> simpa using h1

@[simp] theorem State.standing_freeHandles (s : State) (rid : Nat) (hs : List (Nat × Nat)) : (s.freeHandles rid hs).standing = s.standing := by
  refine State.standing_foldl (fun s e => ?_) _ _
  dsimp only
  (repeat' split) <;> simp [State.standing_foldl]

@[simp] theorem State.standing_putPage (s : State) (rid : Nat) (h0 : Nat) (st : Nat) (c : Nat) (ro : Bool) (p : Nat) (page : Option (Region × TierPage)) : (s.putPage rid h0 st c ro p page).standing = s.standing := by
  unfold State.putPage
  (repeat' split) <;> simp [↓State.standing_mk, apply_ite State.standing, State.standing_foldl]

@[simp] theorem State.standing_renumber (s : State) (f : Nat → Nat) : (s.renumber f).standing = s.standing := by
  rfl

@[simp] theorem State.standing_install (s : State) (rid p n c : Nat) (ro : Bool) (src : Nat → Option Nat) : (s.install rid p n c ro src).standing = s.standing := by
  refine State.standing_foldl (fun s b => ?_) _ _
  dsimp only
  rw [State.standing_foldl]
  · split <;> simp
  · intros
    (repeat' split) <;> simp

@[simp] theorem State.standing_resolveSaved (s : State) (seq : Nat) (abort : Option Status) : (s.resolveSaved seq abort).standing = s.standing := by
  unfold State.resolveSaved
  (repeat' split) <;> simp [↓State.standing_mk, apply_ite State.standing, State.standing_foldl]

@[simp] theorem State.standing_mapPages (s : State) (f : TierPage → TierPage) : (s.mapPages f).standing = s.standing := by
  rfl

@[simp] theorem State.standing_dropTl (s : State) (ext : Nat) : (s.dropTl ext).standing = s.standing := by
  rfl

@[simp] theorem State.standing_setExtent (s : State) (ext : Nat) (f : Extent → Extent) : (s.setExtent ext f).standing = s.standing := by
  rfl

@[simp] theorem State.standing_extentGone (s : State) (ext : Nat) : (s.extentGone ext).standing = s.standing := by
  unfold State.extentGone
  simp [↓State.standing_mk, apply_ite State.standing, State.standing_foldl]
  (repeat' split) <;> simp [↓State.standing_mk, apply_ite State.standing, State.standing_foldl]

@[simp] theorem State.standing_settleExtent (s : State) (ext : Nat) : (s.settleExtent ext).standing = s.standing := by
  unfold State.settleExtent
  (repeat' split) <;> simp

@[simp] theorem State.standing_loseExtent (s : State) (ext : Nat) : (s.loseExtent ext).standing = s.standing := by
  unfold State.loseExtent
  (repeat' split) <;> simp

@[simp] theorem State.standing_loseLender (s : State) (eid : Nat) : (s.loseLender eid).standing = s.standing := by
  simp [State.loseLender, ↓State.standing_mk, apply_ite State.standing, State.standing_foldl]

@[simp] theorem State.standing_tierOps (s : State) : (s.tierOps).standing = s.standing := by
  unfold State.tierOps
  dsimp only
  rw [State.standing_foldl, State.standing_kick]
  intros
  (repeat' split) <;> simp

@[simp] theorem State.standing_beginDrain (s : State) (k : OpKind) : (s.beginDrain k).standing = s.standing := by
  unfold State.beginDrain
  split <;> simp

@[simp] theorem State.standing_withT0 (s : State) (f : State → State) (h : ∀ s, (f s).standing = s.standing) : (s.withT0 f).standing = s.standing := by
  unfold State.withT0
  split <;> simp [h]

@[simp] theorem State.standing_sealInto (s : State) (p : PageRef) (m : Move) (ext : Nat) (e : Extent) (im : Image) : (s.sealInto p m ext e im).standing = s.standing := by
  simp [State.sealInto]

@[simp] theorem State.standing_switchMove (s : State) (p : PageRef) (q : TierPage) (m : Move) : (s.switchMove p q m).standing = s.standing := by
  unfold State.switchMove
  dsimp only
  (repeat' split) <;> try simp

@[simp] theorem State.standing_lowSpace (s : State) (n : Nat) : (s.lowSpace n).standing = s.standing := by
  induction n generalizing s with
  | zero => rfl
  | succ n ih =>
    unfold State.lowSpace
    (repeat' split) <;> simp [ih]

@[simp] theorem State.standing_pageError (s : State) (p : PageRef) (cls : Nat) (layer : Nat) (st : Status) (off : Nat) : (s.pageError p cls layer st off).standing = s.standing := by
  simp [State.pageError]

@[simp] theorem State.standing_corrupt (s : State) (p : PageRef) (layer : Nat) (off : Nat) : (s.corrupt p layer off).standing = s.standing := by
  simp [State.corrupt, ↓State.standing_mk, apply_ite State.standing, State.standing_foldl]

@[simp] theorem State.standing_reimage (s : State) (p : PageRef) : (s.reimage p).standing = s.standing := by
  unfold State.reimage
  (repeat' split) <;> simp

@[simp] theorem State.standing_recoveryFailed (s : State) (p : PageRef) : (s.recoveryFailed p).standing = s.standing := by
  simp [State.recoveryFailed]

@[simp] theorem State.standing_unstall (s : State) (n : Nat) : (s.unstall n).standing = s.standing := by
  simp [State.unstall, ↓State.standing_mk, apply_ite State.standing, State.standing_foldl]

@[simp] theorem State.standing_slotDone (s : State) (cmd : Instr) (h : SlotHdr) : (s.slotDone cmd h).standing = s.standing := by
  simp [State.slotDone]

@[simp] theorem State.standing_slotRaise (s : State) (cmd : Instr) (h : SlotHdr) (q : QSlot) (exc : Nat) (st : Status) : (s.slotRaise cmd h q exc st).standing = s.standing := by
  simp [State.slotRaise]

@[simp] theorem State.standing_illegal (s : State) (cmd : Instr) (h : SlotHdr) (q : QSlot) : (s.illegal cmd h q).standing = s.standing := by
  simp [State.illegal]

@[simp] theorem State.standing_modRegs (s : State) (n : Nat) (f : RegFile → RegFile) : (s.modRegs n f).standing = s.standing := by
  rfl

@[simp] theorem State.standing_stick (s : State) (n : Nat) (seq : Nat) (f : FFlags) : (s.stick n seq f).standing = s.standing := by
  rfl

@[simp] theorem State.standing_slotMet (s : State) (cmd : Instr) (h : SlotHdr) (k : KernelRun) (q : QSlot) (access rid off : Nat) (m : Met) :
    (s.slotMet cmd h k q access rid off m).standing = s.standing := by
  unfold State.slotMet
  dsimp only
  split
  · rw [State.standing_slotRaise]
    exact State.standing_of_holdOn (by assumption)
  · have h := State.standing_of_holdOn ‹_›
    split <;> simpa using h

@[simp] theorem State.standing_slotAccess (s : State) (cmd : Instr) (h : SlotHdr) (k : KernelRun) (q : QSlot) (eid key off n : Nat) (need : Rights) (access : Nat)
    {log : Status → State → State} {meet : Nat → Region → State → Met} {body : Nat → Region → State → State} (hlog : ∀ st s, (log st s).standing = s.standing)
    (hbody : ∀ rid rg s, (body rid rg s).standing = s.standing) : (s.slotAccess cmd h k q eid key off n need access log meet body).standing = s.standing := by
  unfold State.slotAccess
  (repeat' split) <;> simp [hlog, hbody]

@[simp] theorem State.standing_slotRemote (s : State) (cmd : Instr) (h : SlotHdr) (k : KernelRun) (eid : Nat) (op : Nat) (key : Nat) (off : Nat) (data : Bytes) (idem : Bool) : (s.slotRemote cmd h k eid op key off data idem).standing = s.standing := by
  simp [State.slotRemote]

@[simp] theorem State.standing_slotRead (s : State) (hw : Nat) (k : KernelRun) (rid : Nat) (rg : Region) (off : Nat) (n : Nat) : (s.slotRead hw k rid rg off n).1.standing = s.standing := by
  simp [State.slotRead]

@[simp] theorem State.standing_slotWrite (s : State) (hw : Nat) (n : Nat) (k : KernelRun) (rid : Nat) (rg : Region) (off : Nat) (data : Bytes) : (s.slotWrite hw n k rid rg off data).standing = s.standing := by
  unfold State.slotWrite
  split <;> simp

@[simp] theorem State.standing_setParts (s : State) (n : Nat) (cmd : Instr) (p : Nat × Mem) : (s.setParts n cmd p).standing = s.standing := by
  rfl

theorem State.standing_of_partsRun {s t : State} {hw n : Nat} {k : KernelRun} {rid : Nat} {data : Option (Nat → Nat → Bytes)} {anyway : Bool} {cs : List (Nat × Nat)} {p : Nat × Mem} {x}
    (h : State.partsRun hw n k rid data anyway cs p s = (t, x)) : t.standing = s.standing := by
  induction cs generalizing p s with
  | nil => cases h; rfl
  | cons c cs ih =>
    unfold State.partsRun at h
    dsimp only at h
    (repeat' split at h)
    all_goals try exact (Prod.mk.inj h).1 ▸ rfl
    all_goals simpa using ih h

@[simp] theorem State.standing_slotOwn (s : State) (cmd : Instr) (h : SlotHdr) (k : KernelRun) (q : QSlot) (eid key : Nat) (rs : List (Nat × Nat))
    (data : Option (Nat → Nat → Bytes)) (anyway : Bool) {body : Nat → Mem → State → State} (hbody : ∀ rid m s, (body rid m s).standing = s.standing) :
    (s.slotOwn cmd h k q eid key rs data anyway body).standing = s.standing := by
  unfold State.slotOwn
  dsimp only
  (repeat' split) <;> simp [hbody]
  all_goals exact State.standing_of_partsRun (by assumption)

@[simp] theorem State.standing_slotFar (s : State) (cmd : Instr) (h : SlotHdr) (k : KernelRun) (eid key : Nat) (rs : List (Nat × Nat)) (data : Option (Nat → Nat → Bytes))
    {body : Mem → State → State} (hbody : ∀ m s, (body m s).standing = s.standing) : (s.slotFar cmd h k eid key rs data body).standing = s.standing := by
  unfold State.slotFar
  dsimp only
  (repeat' split) <;> simp [hbody]

@[simp] theorem State.standing_slotMove (s : State) (cmd : Instr) (h : SlotHdr) (k : KernelRun) (q : QSlot) (eid key : Nat) (rs : List (Nat × Nat)) (data : Option (Nat → Nat → Bytes))
    (anyway : Bool) {body : Nat → Mem → State → State} (hbody : ∀ rid m s, (body rid m s).standing = s.standing) :
    (s.slotMove cmd h k q eid key rs data anyway body).standing = s.standing := by
  unfold State.slotMove
  split <;> simp [hbody]

@[simp] theorem State.standing_slotReply (s : State) (cmd : Instr) (t : Txn) (st : Status) (data : Bytes) : (s.slotReply cmd t st data).standing = s.standing := by
  unfold State.slotReply
  (repeat' split) <;> simp

@[simp] theorem State.standing_tileWrite (s : State) (n : Nat) (a : Nat) (data : Bytes) : (s.tileWrite n a data).standing = s.standing := by
  rfl

@[simp] theorem State.standing_askCore (s : State) (n : Nat) : (s.askCore n).standing = s.standing := by
  rfl

@[simp] theorem State.standing_miscompute (s : State) (n : Nat) (col : Nat) : (s.miscompute n col).standing = s.standing := by
  simp [State.miscompute, ↓State.standing_mk, apply_ite State.standing, State.standing_foldl]

@[simp] theorem State.standing_modMsg (s : State) (id : Nat) (f : ExpMsg → ExpMsg) : (s.modMsg id f).standing = s.standing := by
  rfl

@[simp] theorem State.standing_entryDeadlines (s : State) (id : Nat) : (s.entryDeadlines id).standing = s.standing := by
  unfold State.entryDeadlines
  (repeat' split) <;> simp [↓State.standing_mk, apply_ite State.standing, State.standing_foldl]

@[simp] theorem State.standing_expRelease (s : State) (id : Nat) : (s.expRelease id).standing = s.standing := by
  unfold State.expRelease
  simp [↓State.standing_mk, apply_ite State.standing, State.standing_foldl]
  (repeat' split) <;> simp [↓State.standing_mk, apply_ite State.standing, State.standing_foldl]

@[simp] theorem State.standing_expSweep (s : State) : (s.expSweep).standing = s.standing := by
  rfl

@[simp] theorem State.standing_addMessage (s : State) (li : Nat) (l : Lane) (slot : Nat) (w : List Word) (es : List ExpEntry) (dIn : Nat) (reject : Option Status) : (s.addMessage li l slot w es dIn reject).standing = s.standing := by
  simp [State.addMessage, ↓State.standing_mk, apply_ite State.standing, State.standing_foldl]

@[simp] theorem State.standing_takeMessage (s : State) (li : Nat) (l : Lane) (rg : Region) (slot : Nat) (w : List Word) : (s.takeMessage li l rg slot w).standing = s.standing := by
  simp [State.takeMessage, ↓State.standing_mk, apply_ite State.standing, State.standing_foldl]

@[simp] theorem State.standing_slotCheck (s : State) (li : Nat) (l : Lane) (slot : Nat) : (s.slotCheck li l slot).standing = s.standing := by
  unfold State.slotCheck
  (repeat' split) <;> simp [↓State.standing_mk, apply_ite State.standing, State.standing_foldl]

@[simp] theorem State.standing_laneCheck (s : State) (ckey : Nat) : (s.laneCheck ckey).standing = s.standing := by
  unfold State.laneCheck
  (repeat' split) <;> simp [↓State.standing_mk, apply_ite State.standing, State.standing_foldl]

@[simp] theorem State.standing_putCounted (s : State) (port : Bool) (rid : Nat) (off : Nat) (ckey : Nat) (data : Bytes) : (s.putCounted port rid off ckey data).standing = s.standing := by
  simp [State.putCounted]

@[simp] theorem State.standing_noteMet (s : State) (cmd : Instr) (i : Issuer) (hw : Nat) (access : Nat) (rid : Nat) (off : Nat) (m : Met) (work : optParam Bool false) : (s.noteMet cmd i hw access rid off m work).standing = s.standing := by
  unfold State.noteMet
  split <;> simp

@[simp] theorem State.standing_noteQueued (s : State) (cmd : Instr) (i : Issuer) (hw : Nat) (rid : Nat) (off : Nat) (m : Met) : (s.noteQueued cmd i hw rid off m).standing = s.standing := by
  unfold State.noteQueued
  split <;> simp

@[simp] theorem State.standing_queueFault (s : State) (cmd : Instr) (i : Issuer) (hw : Nat) (rid : Nat) (off : Nat) (n : Nat) : (s.queueFault cmd i hw rid off n).standing = s.standing := by
  unfold State.queueFault
  split <;> simp

@[simp] theorem State.standing_endEntries (s : State) (pick : ExpMsg → ExpEntry → Bool) (st : Status) : (s.endEntries pick st).standing = s.standing := by
  simp [State.endEntries, ↓State.standing_mk, apply_ite State.standing, State.standing_foldl]

theorem State.standing_of_countedIn {s t : State} {ctx eid rid : Nat} {r : Region} {off ckey : Nat} {data : Bytes} {work : WorkRef}
    (h : s.countedIn ctx eid rid r off ckey data work = .ok t) : t.standing = s.standing := by
  unfold State.countedIn at h
  dsimp only at h
  (repeat' split at h) <;> cases h
  simp

theorem State.standing_of_ownCounted {s t : State} {i : Issuer} {eid key off ckey : Nat} {data : Bytes} {work : WorkRef}
    (h : s.ownCounted i eid key off ckey data work = .ok t) : t.standing = s.standing := by
  unfold State.ownCounted at h
  split at h
  · cases h
  · exact State.standing_of_countedIn h

theorem State.standing_of_foldl_ok {α ε : Type} {f : State → α → Except ε State} (hf : ∀ s a t, f s a = .ok t → t.standing = s.standing) {l : List α} {s t : State}
    {g : Except ε State → α → Except ε State} (hg : ∀ acc a, g acc a = acc.bind (fun s => f s a)) (h : l.foldl g (.ok s) = .ok t) : t.standing = s.standing := by
  induction l generalizing s with
  | nil => cases h; rfl
  | cons a l ih =>
    rw [List.foldl_cons, hg] at h
    cases hfa : f s a with
    | ok u =>
      rw [← hf s a u hfa]
      exact ih (by simpa [Except.bind, hfa] using h)
    | error e =>
      have stuck : ∀ l : List α, l.foldl g (.error e) = .error e := by
        intro l
        induction l with
        | nil => rfl
        | cons b l ih => rw [List.foldl_cons, hg]; exact ih
      simp [Except.bind, hfa, stuck] at h

theorem State.standing_of_resultWrite {s t : State} {m : ExpMsg} {what : TxnUse} {ckey off : Nat} {data : Bytes}
    (h : s.resultWrite m what ckey off data = .ok t) : t.standing = s.standing := by
  unfold State.resultWrite at h
  dsimp only at h
  split at h
  · exact State.standing_of_foldl_ok (fun _ _ _ => State.standing_of_ownCounted) (fun acc a => by cases acc <;> rfl) h
  · split at h <;> cases h
    exact State.standing_foldl (fun s c => by simp) _ _

@[simp] theorem State.standing_laneCounters (s : State) (rid ctx n : Nat) : (s.laneCounters rid ctx n).1.standing = s.standing := by
  induction n generalizing s with
  | zero => rfl
  | succ n ih => simp [State.laneCounters, ih]

@[simp] theorem State.standing_laneGone (s : State) : (s.laneGone).standing = s.standing := by
  refine State.standing_foldl (fun s e => ?_) _ _
  (repeat' split) <;> simp [↓State.standing_mk]

@[simp] theorem State.standing_ssdEnd (s : State) : (s.ssdEnd).standing = s.standing := by
  simp [State.ssdEnd, ↓State.standing_mk]

@[simp] theorem State.standing_startCore (s : State) (n : Nat) : (s.startCore n).standing = s.standing := by
  unfold State.startCore
  simp [↓State.standing_mk, apply_ite State.standing, State.standing_foldl]
  (repeat' split) <;> simp [↓State.standing_mk, apply_ite State.standing, State.standing_foldl]

@[simp] theorem State.standing_modEntries (s : State) (ids : List (Nat × Nat)) (f : Nat → ExpEntry → ExpEntry) : (s.modEntries ids f).standing = s.standing := by
  rfl

@[simp] theorem State.standing_batchOuts (s : State) (b : MicroBatch) : (s.batchOuts b).standing = s.standing := by
  unfold State.batchOuts
  split <;> simp

@[simp] theorem State.standing_batchOn (s : State) (core : Nat) (b : MicroBatch) : (s.batchOn core b).standing = s.standing := by
  simp [State.batchOn, ↓State.standing_mk]

@[simp] theorem State.standing_batchQueued (s : State) (core : Nat) (b : MicroBatch) (rid : Nat) : (s.batchQueued core b rid).standing = s.standing := by
  unfold State.batchQueued
  split <;> simp [↓State.standing_mk]

@[simp] theorem State.standing_resultFail (s : State) (id : Nat) (st : Status) : (s.resultFail id st).standing = s.standing := by
  unfold State.resultFail
  (repeat' split) <;> simp [↓State.standing_mk, apply_ite State.standing, State.standing_foldl]

@[simp] theorem State.standing_expRow (s : State) (id r : Nat) : (s.expRow id r).standing = s.standing := by
  unfold State.expRow
  dsimp only
  (repeat' split) <;> simp
  exact State.standing_of_resultWrite (by assumption)

@[simp] theorem State.standing_expRows (s : State) (id : Nat) : (s.expRows id).standing = s.standing := by
  unfold State.expRows
  (repeat' split) <;> simp [↓State.standing_mk, apply_ite State.standing, State.standing_foldl]

@[simp] theorem State.standing_batchOff (s : State) (b : MicroBatch) (st : Status) : (s.batchOff b st).standing = s.standing := by
  unfold State.batchOff
  split <;> simp [↓State.standing_mk]

@[simp] theorem State.standing_batchOver (s : State) (b : MicroBatch) (st : Status) : (s.batchOver b st).standing = s.standing := by
  simp [State.batchOver, ↓State.standing_mk, apply_ite State.standing, State.standing_foldl]

@[simp] theorem State.standing_batchResolved (s : State) (b : MicroBatch) : (s.batchResolved b).standing = s.standing := by
  unfold State.batchResolved
  simp [↓State.standing_mk, apply_ite State.standing, State.standing_foldl]
  (repeat' split) <;> simp [↓State.standing_mk, apply_ite State.standing, State.standing_foldl]

@[simp] theorem State.standing_dropMsg (s : State) (id : Nat) : (s.dropMsg id).standing = s.standing := by
  rfl

@[simp] theorem State.standing_expFence (s : State) (eid : Nat) : (s.expFence eid).standing = s.standing := by
  simp [State.expFence, ↓State.standing_mk]

@[simp] theorem State.standing_expReset (s : State) (ctx : Nat) : (s.expReset ctx).standing = s.standing := by
  simp [State.expReset, ↓State.standing_mk, apply_ite State.standing, State.standing_foldl]

@[simp] theorem State.standing_modTransfer (s : State) (n : Nat) (id : Nat) (f : Transfer → Transfer) : (s.modTransfer n id f).standing = s.standing := by
  rfl

@[simp] theorem State.standing_dmaSend (s : State) (n : Nat) (ctx : Nat) (t : Transfer) : (s.dmaSend n ctx t).standing = s.standing := by
  unfold State.dmaSend
  (repeat' split) <;> simp

@[simp] theorem State.standing_coreMet (s : State) (cmd : Instr) (n engine : Nat) (k : KernelRun) (access rid off : Nat) (m : Met) (runTime : Bool) :
    (s.coreMet cmd n engine k access rid off m runTime).standing = s.standing := by
  unfold State.coreMet
  dsimp only
  split
  · simpa using State.standing_of_holdOn ‹_›
  · have h := State.standing_of_holdOn ‹_›
    split <;> simpa using h

@[simp] theorem State.standing_coreAccess (s : State) (cmd : Instr) (n engine : Nat) (k : KernelRun) (eid key off len : Nat) (need : Rights) (access : Nat)
    {meet : Nat → Region → State → Met} {body : Nat → Region → State → State} (hbody : ∀ rid rg s, (body rid rg s).standing = s.standing) :
    (s.coreAccess cmd n engine k eid key off len need access meet body).standing = s.standing := by
  unfold State.coreAccess
  (repeat' split) <;> simp [hbody]

@[simp] theorem State.standing_dmaOver (s : State) (n : Nat) (id : Nat) : (s.dmaOver n id).standing = s.standing := by
  unfold State.dmaOver
  simp [↓State.standing_mk, apply_ite State.standing, State.standing_foldl]
  (repeat' split) <;> simp [↓State.standing_mk, apply_ite State.standing, State.standing_foldl]

@[simp] theorem State.standing_dmaPart (s : State) (n : Nat) (k : KernelRun) (rid : Nat) (rg : Region) (t : Transfer) (x : Nat × Nat) : (s.dmaPart n k rid rg t x).standing = s.standing := by
  unfold State.dmaPart
  simp [↓State.standing_mk, apply_ite State.standing, State.standing_foldl]
  (repeat' split) <;> simp [↓State.standing_mk, apply_ite State.standing, State.standing_foldl]

theorem State.standing_of_dmaRun {s t : State} {n id : Nat} {k : KernelRun} {rid : Nat} {cs : List (Nat × Nat)} {x} (h : State.dmaRun n id k rid cs s = (t, x)) : t.standing = s.standing := by
  induction cs generalizing s with
  | nil => cases h; rfl
  | cons c cs ih =>
    unfold State.dmaRun at h
    (repeat' split at h)
    all_goals try exact (Prod.mk.inj h).1 ▸ rfl
    all_goals simpa using ih h

@[simp] theorem State.standing_dmaOwn (s : State) (cmd : Instr) (n : Nat) (k : KernelRun) (t : Transfer) : (s.dmaOwn cmd n k t).standing = s.standing := by
  unfold State.dmaOwn
  dsimp only
  (repeat' split) <;> simp
  all_goals exact (State.standing_of_dmaRun (by assumption)).trans (State.standing_overlay ..)

@[simp] theorem State.standing_dmaReply (s : State) (n : Nat) (id : Nat) (st : Status) (data : Bytes) : (s.dmaReply n id st data).standing = s.standing := by
  unfold State.dmaReply
  (repeat' split) <;> simp

@[simp] theorem State.standing_belayOver (s : State) (n : Nat) (id : Nat) : (s.belayOver n id).standing = s.standing := by
  rfl

@[simp] theorem State.standing_modBelay (s : State) (n : Nat) (id : Nat) (f : Belay → Belay) : (s.modBelay n id f).standing = s.standing := by
  rfl

@[simp] theorem State.standing_belayReply (s : State) (n : Nat) (id : Nat) (st : Status) (data : Bytes) : (s.belayReply n id st data).standing = s.standing := by
  unfold State.belayReply
  (repeat' split) <;> simp

@[simp] theorem State.standing_acquireSweep (s : State) : (s.acquireSweep).standing = s.standing := by
  refine State.standing_foldl (fun s a => ?_) _ _
  dsimp only
  (repeat' split) <;> simp [↓State.standing_mk]

@[simp] theorem State.standing_domainDown (s : State) (e : DomEntry) : (s.domainDown e).standing = s.standing := by
  unfold State.domainDown
  (repeat' split) <;> simp

@[simp] theorem State.standing_branchTo (cmd : Instr) (h : SlotHdr) (k : KernelRun) (q : QSlot) (target : ℤ) (s : State) : (branchTo cmd h k q target s).standing = s.standing := by
  unfold branchTo
  (repeat' split) <;> simp

@[simp] theorem State.standing_setShard (s : State) (index : Nat) (shard : Nat) (h : Shard) : (s.setShard index shard h).standing = s.standing := by
  rfl

@[simp] theorem State.standing_readsDone (s : State) (rid : Nat) (v : View) (was : Reads) (r : Reads) : (s.readsDone rid v was r).standing = s.standing := by
  simp [State.readsDone, ↓State.standing_mk, apply_ite State.standing, State.standing_foldl]

@[simp] theorem State.standing_registered (s : State) (id : Nat) (shard : Nat) (st : Status) : (s.registered id shard st).standing = s.standing := by
  unfold State.registered
  (repeat' split) <;> simp [↓State.standing_mk, apply_ite State.standing, State.standing_foldl]

@[simp] theorem State.standing_trvSweep (s : State) : (s.trvSweep).standing = s.standing := by
  simp [State.trvSweep, ↓State.standing_mk, apply_ite State.standing, State.standing_foldl]

@[simp] theorem State.standing_modQuery (s : State) (id : Nat) (f : Query → Query) : (s.modQuery id f).standing = s.standing := by
  rfl

@[simp] theorem State.standing_queryDrop (s : State) (id : Nat) (st : optParam Status Status.ok) : (s.queryDrop id st).standing = s.standing := by
  unfold State.queryDrop
  (repeat' split) <;> simp [↓State.standing_mk, apply_ite State.standing, State.standing_foldl]

@[simp] theorem State.standing_blockOwn (s : State) (q : Query) (eid key off ctr : Nat) (data : Bytes) : (s.blockOwn q eid key off ctr data).standing = s.standing := by
  unfold State.blockOwn
  dsimp only
  split
  · split
    · simp
    · split
      · simp
      · split
        · rw [State.standing_queryDrop]
          split <;> simp
        · split <;> simp [State.standing_of_holdOn ‹_›]
  · split
    · simp [State.standing_of_ownCounted ‹_›]
    · split <;> simp
    · split <;> simp [State.standing_of_holdOn ‹_›]

@[simp] theorem State.standing_queryWrite (s : State) (id : Nat) : (s.queryWrite id).standing = s.standing := by
  unfold State.queryWrite
  (repeat' split) <;> simp [↓State.standing_mk, apply_ite State.standing, State.standing_foldl]

@[simp] theorem State.standing_blockLost (s : State) (id : Nat) (st : Status) : (s.blockLost id st).standing = s.standing := by
  unfold State.blockLost
  (repeat' split) <;> simp

@[simp] theorem State.standing_queryEnd (s : State) (id : Nat) (st : Status) : (s.queryEnd id st).standing = s.standing := by
  simp [State.queryEnd]

@[simp] theorem State.standing_sendWalks (s : State) (q : Query) (ctx : Nat) (beam : List Nat) : (s.sendWalks q ctx beam).standing = s.standing := by
  refine State.standing_foldl (fun s n => ?_) _ _
  (repeat' split) <;> simp

@[simp] theorem State.standing_payloadFill (s : State) (q : Query) : (s.payloadFill q).standing = s.standing := by
  simp [State.payloadFill, ↓State.standing_mk, apply_ite State.standing, State.standing_foldl]

@[simp] theorem State.standing_queryMerge (s : State) (q : Query) : (s.queryMerge q).standing = s.standing := by
  simp [State.queryMerge, ↓State.standing_mk, apply_ite State.standing, State.standing_foldl]

@[simp] theorem State.standing_trvAnswer (s : State) (r : BciReq) (i : Issuer) (index : Nat) (lseq : Nat) (st : Status) (resp : List Word) (value : Nat) : (s.trvAnswer r i index lseq st resp value).standing = s.standing := by
  unfold State.trvAnswer
  simp [↓State.standing_mk, apply_ite State.standing, State.standing_foldl]
  (repeat' split) <;> simp [↓State.standing_mk, apply_ite State.standing, State.standing_foldl]

@[simp] theorem State.standing_mergeStart (s : State) (index : Nat) (shard : Nat) (ix : Index) (h : Shard) (who : Option (Nat × Nat)) : (s.mergeStart index shard ix h who).standing = s.standing := by
  rfl

@[simp] theorem State.standing_trvComplete (s : State) (index : Nat) : (s.trvComplete index).standing = s.standing := by
  unfold State.trvComplete
  (repeat' split) <;> simp [↓State.standing_mk, apply_ite State.standing, State.standing_foldl]

@[simp] theorem State.standing_autoMerge (s : State) (index : Nat) (shard : Nat) : (s.autoMerge index shard).standing = s.standing := by
  unfold State.autoMerge
  (repeat' split) <;> simp

@[simp] theorem State.standing_updateFail (s : State) (u : TrvUpdate) (st : Status) : (s.updateFail u st).standing = s.standing := by
  simp [State.updateFail, ↓State.standing_mk]

@[simp] theorem State.standing_modUpdate (s : State) (id : Nat) (f : TrvUpdate → TrvUpdate) : (s.modUpdate id f).standing = s.standing := by
  rfl

@[simp] theorem State.standing_appendOver (s : State) (u : TrvUpdate) (h : Shard) : (s.appendOver u h).standing = s.standing := by
  simp [State.appendOver]

@[simp] theorem State.standing_mergeStop (s : State) (index : Nat) (shard : Nat) (state : Nat) (st : Status) : (s.mergeStop index shard state st).standing = s.standing := by
  unfold State.mergeStop
  (repeat' split) <;> simp

@[simp] theorem State.standing_folded (s : State) (index : Nat) (shard : Nat) (op : Nat) (h : Shard) : (s.folded index shard op h).standing = s.standing := by
  rfl

@[simp] theorem State.standing_foldReply (s : State) (index : Nat) (shard : Nat) (st : Status) : (s.foldReply index shard st).standing = s.standing := by
  unfold State.foldReply
  (repeat' split) <;> simp

@[simp] theorem State.standing_modBatch (s : State) (id : Nat) (f : Batch → Batch) : (s.modBatch id f).standing = s.standing := by
  rfl

@[simp] theorem State.standing_batchFault (s : State) (id : Nat) (i : Issuer) (input : Nat × Nat × Nat) (out : Option (Nat × Nat × Nat)) : (s.batchFault id i input out).standing = s.standing := by
  unfold State.batchFault
  split <;> simp

@[simp] theorem State.standing_batchRefuse (s : State) (ws : List Word) (i : Issuer) (log : Nat) (st : Status) (a : Answer) : (s.batchRefuse ws i log st a).standing = s.standing := by
  unfold State.batchRefuse
  simp [↓State.standing_mk, apply_ite State.standing, State.standing_foldl]
  (repeat' split) <;> simp [↓State.standing_mk, apply_ite State.standing, State.standing_foldl]

@[simp] theorem State.standing_swapDone (s : State) (n : Nat) (t : EmbTable) : (s.swapDone n t).standing = s.standing := by
  simp [State.swapDone, ↓State.standing_mk]

@[simp] theorem State.standing_swapSweep (s : State) (id : Nat) : (s.swapSweep id).standing = s.standing := by
  simp [State.swapSweep, ↓State.standing_mk, apply_ite State.standing, State.standing_foldl]

@[simp] theorem State.standing_batchDrop (s : State) (id : Nat) (st : optParam Status Status.ok) : (s.batchDrop id st).standing = s.standing := by
  unfold State.batchDrop
  (repeat' split) <;> simp [↓State.standing_mk, apply_ite State.standing, State.standing_foldl]

@[simp] theorem State.standing_outSend (s : State) (b : Batch) (off : Nat) (data : Bytes) : (s.outSend b off data).standing = s.standing := by
  simp [State.outSend, ↓State.standing_mk, apply_ite State.standing, State.standing_foldl]

@[simp] theorem State.standing_outFailed (s : State) (b : Batch) (st : Status) : (s.outFailed b st).standing = s.standing := by
  unfold State.outFailed
  split <;> simp

@[simp] theorem State.standing_batchStall (s : State) (b : Batch) (i : Issuer) (access : Nat) (rid : Nat) (off : Nat) (m : Met) : (s.batchStall b i access rid off m).standing = s.standing := by
  unfold State.batchStall
  simp [↓State.standing_mk, apply_ite State.standing, State.standing_foldl]
  (repeat' split) <;> simp [↓State.standing_mk, apply_ite State.standing, State.standing_foldl]

theorem State.standing_of_outOwn {s t : State} {b : Batch} {off : Nat} {data : Bytes} (h : s.outOwn b off data = .ok t) : t.standing = s.standing := by
  unfold State.outOwn at h
  dsimp only at h
  split at h
  · cases h
  · rename_i rid rg _
    (repeat' split at h) <;> cases h
    · simp
    · simp
    · rename_i hfold
      have step : ∀ (s : State) (c : Nat × Nat) (t : State), (match s.region? rid with
          | some rg => s.countedIn b.ctx b.outEid rid rg c.1 (wAt b.words 13) ((data.drop (c.1 - off)).take c.2) (.batch b.id)
          | none => .error (0, .stop .key)) = .ok t → t.standing = s.standing := by
        intro s c t ht
        split at ht
        · exact State.standing_of_countedIn ht
        · cases ht
      rw [State.standing_restore, State.standing_of_foldl_ok step (fun acc a => by cases acc <;> rfl) hfold, State.standing_overlay]

@[simp] theorem State.standing_batchBlock (s : State) (id : Nat) : (s.batchBlock id).standing = s.standing := by
  unfold State.batchBlock
  dsimp only
  (repeat' split) <;> simp
  exact State.standing_of_outOwn (by assumption)

@[simp] theorem State.standing_batchFinish (s : State) (id : Nat) (st : Status) (counts : List Nat) : (s.batchFinish id st counts).standing = s.standing := by
  unfold State.batchFinish
  simp [↓State.standing_mk, apply_ite State.standing, State.standing_foldl]
  (repeat' split) <;> simp [↓State.standing_mk, apply_ite State.standing, State.standing_foldl]

@[simp] theorem State.standing_scatterRow (s : State) (rid : Nat) (id : Nat) (dim : Nat) (t : RowAdd) : (s.scatterRow rid id dim t).standing = s.standing := by
  simp [State.scatterRow, ↓State.standing_mk, apply_ite State.standing, State.standing_foldl]

@[simp] theorem State.standing_rowsOwn (s : State) (b : Batch) (rs : List (Nat × Bytes)) : (s.rowsOwn b rs).1.standing = s.standing := by
  induction rs generalizing s with
  | nil => rfl
  | cons x rs ih =>
    unfold State.rowsOwn
    split
    · rw [ih]
      exact State.standing_of_outOwn (by assumption)
    · rfl

@[simp] theorem State.standing_rowsAdd (s : State) (b : Batch) (me : Issuer) (rs : List RowAdd) (done bad : Nat) : (s.rowsAdd b me rs done bad).1.standing = s.standing := by
  induction rs generalizing s done bad with
  | nil => rfl
  | cons x rs ih =>
    unfold State.rowsAdd
    dsimp only
    (repeat' split) <;> simp [ih]

theorem State.standing_of_queryAccept {s t : State} {ws : List Word} {i : Issuer} (h : s.queryAccept ws i = .ok t) : t.standing = s.standing := by
  unfold State.queryAccept at h
  dsimp only at h
  (repeat' split at h) <;> cases h
  all_goals simp [↓State.standing_mk]

theorem State.standing_of_batchAccept {s t : State} {ws : List Word} {i : Issuer} {log : Nat} (h : s.batchAccept ws i log = .ok t) : t.standing = s.standing := by
  unfold State.batchAccept at h
  dsimp only at h
  (repeat' split at h) <;> cases h
  all_goals simp [↓State.standing_mk]

theorem State.standing_of_batchAccept_error {s t : State} {ws : List Word} {i : Issuer} {log : Nat} {x : Status × Bool} (h : s.batchAccept ws i log = .error (t, x)) : t.standing = s.standing := by
  unfold State.batchAccept at h
  dsimp only at h
  (repeat' split at h) <;> cases h
  all_goals simp [↓State.standing_mk]

theorem State.standing_of_rowsAdd {s t : State} {b : Batch} {me : Issuer} {rs : List RowAdd} {done bad : Nat} {x} (h : s.rowsAdd b me rs done bad = (t, x)) : t.standing = s.standing := by
  rw [← State.standing_rowsAdd s b me rs done bad, h]

@[simp] theorem State.standing_batchWrite (s : State) (b : Batch) (mu : Nat) : (s.batchWrite b mu).standing = s.standing := by
  unfold State.batchWrite
  dsimp only
  (repeat' split) <;> simp [State.standing_foldl, State.standing_rowsOwn, State.standing_rowsAdd]

@[simp] theorem State.standing_batchOutFail (s : State) (id : Nat) (st : Status) : (s.batchOutFail id st).standing = s.standing := by
  rfl

@[simp] theorem State.standing_endAborted (s : State) (h : Held) (st : Status) : (s.endAborted h st).standing = s.standing := by
  unfold State.endAborted
  simp [↓State.standing_mk, apply_ite State.standing, State.standing_foldl]
  (repeat' split) <;> simp [↓State.standing_mk, apply_ite State.standing, State.standing_foldl]

@[simp] theorem State.standing_codeFault (s : State) (k : KernelQ) : (s.codeFault k).standing = s.standing := by
  unfold State.codeFault
  (repeat' split)
  · rfl
  · exact State.standing_of_faultOn (by assumption)
  · rfl

@[simp] theorem State.standing_codeResolved (s : State) (k : KernelQ) (abort : Option Status) : (s.codeResolved k abort).standing = s.standing := by
  unfold State.codeResolved
  split <;> simp [↓State.standing_mk]

@[simp] theorem State.standing_dropShadows (s : State) (who : Nat → Nat → Bool) : (s.dropShadows who).standing = s.standing := by
  unfold State.dropShadows
  dsimp only
  rw [State.standing_mk] <;> try rfl
  refine State.standing_foldl (fun s e => State.standing_foldl (fun s w => ?_) _ _) _ _
  (repeat' split) <;> simp

@[simp] theorem State.standing_retireFaults (s : State) : (s.retireFaults).standing = s.standing := by
  rfl

@[simp] theorem State.standing_endAgains (s : State) (f : Again → Bool) (st : Status) : (s.endAgains f st).standing = s.standing := by
  simp [State.endAgains, ↓State.standing_mk, apply_ite State.standing, State.standing_foldl]

@[simp] theorem State.standing_batchLost (s : State) (b : Batch) (st : Status) : (s.batchLost b st).standing = s.standing := by
  unfold State.batchLost
  simp [↓State.standing_mk, apply_ite State.standing, State.standing_foldl]
  (repeat' split) <;> simp [↓State.standing_mk, apply_ite State.standing, State.standing_foldl]

@[simp] theorem State.standing_endIssuer (s : State) (who : Nat → Nat → Bool) (st : Status) : (s.endIssuer who st).standing = s.standing := by
  simp [State.endIssuer, State.standing_foldl, ↓State.standing_mk]

@[simp] theorem State.standing_endEngines (s : State) (ctx exc : Nat) (st : Status) : (s.endEngines ctx exc st).standing = s.standing := by
  simp [State.endEngines, State.standing_foldl]

@[simp] theorem State.standing_endCounterWaits (s : State) (ctx : Nat) (st : Status) : (s.endCounterWaits ctx st).standing = s.standing := by
  simp [State.endCounterWaits, ↓State.standing_mk, apply_ite State.standing, State.standing_foldl]



@[simp] theorem State.standing_endLate (s : State) (id : Nat) : (s.endLate id).standing = s.standing := by
  unfold State.endLate
  extract_lets s1 s2 s3 s4 s5 s6 s7 s8 s9
  have h2 : s2.standing = s.standing := by simp [s2, s1, State.standing_foldl]
  have h3 : s3.standing = s.standing := by
    dsimp only [s3]
    split <;> simpa using h2
  have h6 : s6.standing = s.standing := by
    dsimp only [s6]
    (repeat' split) <;> simpa [s5, s4, State.standing_foldl] using h3
  have h7 : s7.standing = s.standing := by
    dsimp only [s7]
    (repeat' split) <;> simpa using h6
  simp [s9, s8, State.standing_foldl, h7]

@[simp] theorem State.standing_takeWord (s : State) (p : Nat) (f : Nat) : (s.takeWord p f).standing = s.standing := by
  simp [State.takeWord, ↓State.standing_mk, apply_ite State.standing, State.standing_foldl]

@[simp] theorem State.standing_takeWords (s : State) : (s.takeWords).standing = s.standing := by
  simp [State.takeWords, ↓State.standing_mk, apply_ite State.standing, State.standing_foldl]



@[simp] theorem State.standing_activateSwitch (s : State) (n : Nat) : (s.activateSwitch n).standing = s.standing := by
  unfold State.activateSwitch
  simp [↓State.standing_mk, apply_ite State.standing, State.standing_foldl]
  (repeat' split) <;> simp [↓State.standing_mk, apply_ite State.standing, State.standing_foldl]

@[simp] theorem State.standing_ropeApply (s : State) (team : Nat) (us : Nat) (ms : List Nat) : (s.ropeApply team us ms).standing = s.standing := by
  simp [State.ropeApply, ↓State.standing_mk, apply_ite State.standing, State.standing_foldl]

@[simp] theorem State.standing_putObject (s : State) (o : JObject) (gone : Bool) : (s.putObject o gone).standing = s.standing := by
  unfold State.putObject
  simp [↓State.standing_mk, apply_ite State.standing, State.standing_foldl]
  (repeat' split) <;> simp [↓State.standing_mk, apply_ite State.standing, State.standing_foldl]

@[simp] theorem State.standing_fenceObjects (s : State) (eid : Nat) (inc : Nat) : (s.fenceObjects eid inc).standing = s.standing := by
  simp [State.fenceObjects, ↓State.standing_mk, apply_ite State.standing, State.standing_foldl]

@[simp] theorem State.standing_loseMirror (s : State) (eid : Nat) : (s.loseMirror eid).standing = s.standing := by
  simp [State.loseMirror, ↓State.standing_mk, apply_ite State.standing, State.standing_foldl]

@[simp] theorem State.standing_poisonRecalled (s : State) (rid : Nat) : (s.poisonRecalled rid).standing = s.standing := by
  unfold State.poisonRecalled
  (repeat' split) <;> simp [↓State.standing_mk, apply_ite State.standing, State.standing_foldl]

@[simp] theorem State.standing_fenceRecalls (s : State) (a : Nat) : (s.fenceRecalls a).standing = s.standing := by
  refine State.standing_foldl (fun s e => ?_) _ _
  (repeat' split) <;> simp

@[simp] theorem State.standing_fenceWaiting (s : State) (eid : Nat) : (s.fenceWaiting eid).standing = s.standing := by
  unfold State.fenceWaiting
  dsimp only
  rw [State.standing_foldl (fun s a => State.standing_emit s _), State.standing_foldl]
  intros
  (repeat' split) <;> simp [↓State.standing_mk]



@[simp] theorem State.standing_releaseUnit (s : State) (hw : Nat) : (s.releaseUnit hw).standing = s.standing := by
  unfold State.releaseUnit
  (repeat' split) <;> simp [↓State.standing_mk, apply_ite State.standing, State.standing_foldl]

@[simp] theorem State.standing_sizeT1 (s : State) : (s.sizeT1).standing = s.standing := by
  rfl

@[simp] theorem State.standing_sizeT2 (s : State) : (s.sizeT2).standing = s.standing := by
  rfl

@[simp] theorem State.standing_partRecord (s : State) (p : Part) (loc : Nat) (op : Nat) : (s.partRecord p loc op).standing = s.standing := by
  simp [State.partRecord]

@[simp] theorem State.standing_imagesLost (s : State) (ps : List (PageRef × TierPage)) : (s.imagesLost ps).standing = s.standing := by
  simp [State.imagesLost, ↓State.standing_mk, apply_ite State.standing, State.standing_foldl]

theorem State.standing_noSpare_drive (s : State) (loc : Nat) : (s.noSpare .drive loc).standing = s.standing := by
  unfold State.noSpare
  dsimp only
  split <;> simp








@[simp] theorem State.standing_setHb (s : State) (eid : Nat) (h : HbEntry) : (s.setHb eid h).standing = s.standing := by
  rfl

@[simp] theorem State.standing_adopt (s : State) (rid : Nat) (c : Region) (ctx : Nat) : (s.adopt rid c ctx).standing = s.standing := by
  rfl

@[simp] theorem State.standing_loseShadows (s : State) (rid : Nat) : (s.loseShadows rid).standing = s.standing := by
  refine State.standing_foldl (fun s e => State.standing_foldl (fun s w => ?_) _ _) _ _
  simp [↓State.standing_mk]

@[simp] theorem State.standing_recallRegion (s : State) (rid : Nat) : (s.recallRegion rid).standing = s.standing := by
  unfold State.recallRegion
  (repeat' split) <;> simp [↓State.standing_mk, apply_ite State.standing, State.standing_foldl]

@[simp] theorem State.standing_settleAdopted (s : State) (rid : Nat) (ctx : Nat) (home : Nat) (p : Policy) : (s.settleAdopted rid ctx home p).standing = s.standing := by
  simp [State.settleAdopted, ↓State.standing_mk, apply_ite State.standing, State.standing_foldl]

@[simp] theorem State.standing_counterEvent (s : State) (code : Nat) : (s.counterEvent code).standing = s.standing := by
  simp [State.counterEvent]

@[simp] theorem State.standing_crnCapture (s : State) (w : Word) : (s.crnCapture w).standing = s.standing := by
  rfl

@[simp] theorem State.standing_traceSet (s : State) (r : BciReq) (i : Issuer) (mask : Nat) : (s.traceSet r i mask).standing = s.standing := by
  simp [State.traceSet, ↓State.standing_mk, apply_ite State.standing, State.standing_foldl]

@[simp] theorem State.standing_linkRecord (s : State) (event : Nat) (n : Nat) (width : Nat) (ver : Nat) (eid : Nat) (inc : Nat) : (s.linkRecord event n width ver eid inc).standing = s.standing := by
  simp [State.linkRecord]

@[simp] theorem State.standing_openManager (s : State) : (s.openManager).standing = s.standing := by
  simp [State.openManager, ↓State.standing_mk, apply_ite State.standing, State.standing_foldl]



@[simp] theorem State.standing_dropEvt (s : State) (n : Nat) : (s.dropEvt n).standing = s.standing := by
  rfl

@[simp] theorem State.standing_agentChannel (s : State) (eid : Nat) : (s.agentChannel eid).standing = s.standing := by
  simp [State.agentChannel, ↓State.standing_mk, apply_ite State.standing, State.standing_foldl]

@[simp] theorem State.standing_dropChannel (s : State) (eid : Nat) : (s.dropChannel eid).standing = s.standing := by
  rfl

@[simp] theorem State.standing_resend (s : State) (x : Txn) : (s.resend x).standing = s.standing := by
  simp [State.resend]

theorem State.standing_of_execShardWalkEnd {id shard : Nat} {st : Status} {ret : WalkReturns} {s t : State} (h : execShardWalkEnd id shard st ret s = .next t) :
    t.standing = s.standing := by
  unfold execShardWalkEnd whenUp at h
  dsimp only at h
  (repeat' split at h) <;> cases h
  all_goals simp

@[simp] theorem State.standing_txnEnd (s : State) (x : Txn) (st : Status) (data : Bytes) : (s.txnEnd x st data).standing = s.standing := by
  unfold State.txnEnd
  dsimp only
  (repeat' split) <;> try simp
  exact State.standing_of_execShardWalkEnd (by assumption)


@[simp] theorem State.standing_coreWaking (s : State) (d : Domain) : (s.coreWaking d).standing = s.standing := by
  unfold State.coreWaking
  (repeat' split) <;> simp [↓State.standing_mk, apply_ite State.standing, State.standing_foldl]

@[simp] theorem State.standing_coreWoken (s : State) (d : Domain) : (s.coreWoken d).standing = s.standing := by
  unfold State.coreWoken
  (repeat' split) <;> simp [↓State.standing_mk, apply_ite State.standing, State.standing_foldl]

@[simp] theorem State.standing_unknownOp (s : State) (c : Nat) (r : BciReq) : (s.unknownOp c r).standing = s.standing := by
  unfold State.unknownOp
  (repeat' split) <;> simp [↓State.standing_mk, apply_ite State.standing, State.standing_foldl]

@[simp] theorem State.standing_goWrite (s : State) (p : Nat) (f : Nat) : (s.goWrite p f).standing = s.standing := by
  unfold State.goWrite
  simp [↓State.standing_mk, apply_ite State.standing, State.standing_foldl]
  (repeat' split) <;> simp [↓State.standing_mk, apply_ite State.standing, State.standing_foldl]

@[simp] theorem State.standing_msgWrite (s : State) (p : Nat) (f : Nat) (n : Nat) (x : Word) : (s.msgWrite p f n x).standing = s.standing := by
  simp [State.msgWrite, ↓State.standing_mk, apply_ite State.standing, State.standing_foldl]

@[simp] theorem State.standing_doorbell (s : State) (p : Nat) (f : Nat) (x : Word) : (s.doorbell p f x).standing = s.standing := by
  simp [State.doorbell, ↓State.standing_mk, apply_ite State.standing, State.standing_foldl]

@[simp] theorem State.standing_enWrite (s : State) (p : Nat) (on : Bool) : (s.enWrite p on).standing = s.standing := by
  rfl

@[simp] theorem State.standing_headPast (s : State) (p : Nat) : (s.headPast p).standing = s.standing := by
  rfl

@[simp] theorem State.standing_kernelAccept (s : State) (p : Nat) (ws : List Word) : (s.kernelAccept p ws).standing = s.standing := by
  unfold State.kernelAccept
  dsimp only
  (repeat' split) <;> simp [↓State.standing_mk]

@[simp] theorem State.standing_queryTake (s : State) (ws : List Word) : (s.queryTake ws).standing = s.standing := by
  unfold State.queryTake
  dsimp only
  split
  · rename_i t h
    split at h
    · cases h
    · exact State.standing_of_queryAccept h
  · simp [↓State.standing_mk]

@[simp] theorem State.standing_batchTake (s : State) (ws : List Word) : (s.batchTake ws).standing = s.standing := by
  unfold State.batchTake
  dsimp only
  split
  · rename_i t h
    split at h
    · cases h
    · exact State.standing_of_batchAccept h
  · rename_i t st logIt h
    have ht : t.standing = s.standing := by
      split at h
      · cases h; rfl
      · exact State.standing_of_batchAccept_error h
    split <;> simpa [↓State.standing_mk] using ht



@[simp] theorem State.standing_clearRead (s : State) (sp : RegSpace) (off : Nat) (ev : Word) : (s.clearRead sp off ev).standing = s.standing := by
  unfold State.clearRead
  (repeat' split) <;> simp [↓State.standing_mk]

@[simp] theorem State.standing_vecWrite (s : State) (p : Nat) (f : Nat) (off : Nat) (x : Word) : (s.vecWrite p f off x).standing = s.standing := by
  simp [State.vecWrite, ↓State.standing_mk, apply_ite State.standing, State.standing_foldl]

@[simp] theorem State.standing_fnWrite (s : State) (p : Nat) (f : Nat) (off : Nat) (x : Word) : (s.fnWrite p f off x).standing = s.standing := by
  unfold State.fnWrite
  (repeat' split) <;> simp [↓State.standing_mk, apply_ite State.standing, State.standing_foldl]



@[simp] theorem State.standing_mgmtWrite (s : State) (off : Nat) (x : Word) : (s.mgmtWrite off x).standing = s.standing := by
  unfold State.mgmtWrite
  split <;> simp [↓State.standing_mk]



@[simp] theorem State.standing_entryLost (s : State) (p : Nat) : (s.entryLost p).standing = s.standing := by
  simp [State.entryLost, ↓State.standing_mk, apply_ite State.standing, State.standing_foldl]









@[simp] theorem State.standing_vfOn (s : State) (p : Nat) (f : Nat) : (s.vfOn p f).standing = s.standing := by
  simp [State.vfOn, ↓State.standing_mk, apply_ite State.standing, State.standing_foldl]



@[simp] theorem State.standing_nvmeAdmin (s : State) (slot : Nat) (op : NvmeOp) (a : Nat) (b : Nat) : (s.nvmeAdmin slot op a b).standing = s.standing := by
  rfl

@[simp] theorem State.standing_driveSetup (s : State) (slot : Nat) : (s.driveSetup slot).standing = s.standing := by
  simp [State.driveSetup, State.standing_foldl]

@[simp] theorem State.standing_driveDown (s : State) (slot : Nat) : (s.driveDown slot).standing = s.standing := by
  simp [State.driveDown, ↓State.standing_mk, apply_ite State.standing, State.standing_foldl]



@[simp] theorem State.standing_askJoin (s : State) : (s.askJoin).standing = s.standing := by
  unfold State.askJoin
  split <;> simp [↓State.standing_mk]

@[simp] theorem State.standing_setSpdm (s : State) (e : SpdmPeer) : (s.setSpdm e).standing = s.standing := by
  rfl

@[simp] theorem State.standing_spdmSay (s : State) (p : Peer) (code : Nat) (fields : List Nat) : (s.spdmSay p code fields).standing = s.standing := by
  rfl

@[simp] theorem State.standing_spdmError (s : State) (p : Peer) (e : Nat) : (s.spdmError p e).standing = s.standing := by
  rfl

@[simp] theorem State.standing_sessionUp (s : State) (e : SpdmPeer) : (s.sessionUp e).standing = s.standing := by
  unfold State.sessionUp
  (repeat' split) <;> simp [↓State.standing_mk, apply_ite State.standing, State.standing_foldl]

@[simp] theorem State.standing_bootFails (s : State) : (s.bootFails).standing = s.standing := by
  rfl

@[simp] theorem State.standing_tapOut (s : State) (i : TapInstr) : (s.tapOut i).standing = s.standing := by
  unfold State.tapOut
  split <;> simp

@[simp] theorem State.standing_tapLoad (s : State) (i : TapInstr) (cells : Option Nat) : (s.tapLoad i cells).standing = s.standing := by
  unfold State.tapLoad
  (repeat' split) <;> simp [↓State.standing_mk]

@[simp] theorem State.standing_takeAddr (s : State) (target : Nat) (addr : Nat) : (s.takeAddr target addr).standing = s.standing := by
  unfold State.takeAddr
  split <;> simp [↓State.standing_mk]

theorem State.standing_of_arrive {s t : State} {cmd : Instr} {q : LmfReq} {v3 payload : Bool} (h : s.arrive cmd q v3 payload = .ok t) : t.standing = s.standing := by
  rw [(State.arrive_ok h).1, State.standing_arrived]


theorem State.standing_of_arrive_error {s t : State} {cmd : Instr} {q : LmfReq} {v3 payload : Bool} (h : s.arrive cmd q v3 payload = .error t) : t.standing = s.standing := by
  unfold State.arrive at h
  dsimp only at h
  (repeat' split at h) <;> cases h
  all_goals simp [↓State.standing_mk]


theorem State.standing_of_copyPinned {s t : State} {id srcRid off dst dstOff : Nat} {i : Issuer} {ps : List (Nat × Nat)} {x}
    (h : s.copyPinned id srcRid off dst dstOff i ps = (t, x)) : t.standing = s.standing := by
  rw [← State.standing_copyPinned s id srcRid off dst dstOff i ps, h]

theorem State.standing_of_queryRead {s t : State} {q : Query} {ix : Index} (h : s.queryRead q ix = .ok t) : t.standing = s.standing := by
  unfold State.queryRead at h
  extract_lets cmd i off n at h
  split at h
  rename_i s1 caps hcaps
  have h1 : s1.standing = s.standing := by
    split at hcaps
    · rw [← State.standing_recapture s q.id q.pages, hcaps]
    · cases hcaps; rfl
  extract_lets s2 old o at h
  have h2 : s2.standing = s.standing := (State.standing_modQuery ..).trans h1
  have h3 : o.standing = s.standing := (State.standing_overlay ..).trans h2
  (repeat' split at h) <;> cases h
  rw [State.standing_mk] <;> try rfl
  simp [h3]

theorem State.standing_of_queryRead_error {s t : State} {q : Query} {ix : Index} (h : s.queryRead q ix = .error t) : t.standing = s.standing := by
  unfold State.queryRead at h
  extract_lets cmd i off n at h
  split at h
  rename_i s1 caps hcaps
  have h1 : s1.standing = s.standing := by
    split at hcaps
    · rw [← State.standing_recapture s q.id q.pages, hcaps]
    · cases hcaps; rfl
  extract_lets s2 at h
  have h2 : s2.standing = s.standing := (State.standing_modQuery ..).trans h1
  (repeat' split at h) <;> cases h
  all_goals (try simp [h2])
  all_goals exact (State.standing_of_holdOn ‹_›).trans ((State.standing_overlay ..).trans h2)

theorem State.standing_of_putAll {s t : State} {h : Shard} {work : WorkRef} {ws : List (Nat × Bytes)} (hput : s.putAll h work ws = .ok t) : t.standing = s.standing := by
  unfold State.putAll at hput
  dsimp only at hput
  split at hput <;> cases hput
  exact State.standing_foldl (fun s w => by simp) _ _

theorem State.standing_of_batchInput {s t : State} {b : Batch} (h : s.batchInput b = .ok t) : t.standing = s.standing := by
  unfold State.batchInput at h
  dsimp only at h
  (repeat' split at h) <;> cases h
  all_goals simp [↓State.standing_mk]

theorem State.standing_of_batchInput_error {s t : State} {b : Batch} (h : s.batchInput b = .error t) : t.standing = s.standing := by
  unfold State.batchInput at h
  dsimp only at h
  (repeat' split at h) <;> cases h
  all_goals simp

theorem State.standing_of_batchFetch {s t : State} {b : Batch} {mu : Nat} (h : s.batchFetch b mu = .ok t) : t.standing = s.standing := by
  unfold State.batchFetch at h
  dsimp only at h
  (repeat' split at h) <;> cases h
  all_goals simp [↓State.standing_mk]

theorem State.standing_of_batchFetch_error {s t : State} {b : Batch} {mu : Nat} (h : s.batchFetch b mu = .error t) : t.standing = s.standing := by
  unfold State.batchFetch at h
  dsimp only at h
  (repeat' split at h) <;> cases h
  all_goals simp

theorem State.standing_of_queueRead {s t : State} {p : Nat} {i : Issuer} {key off n : Nat} {ws : List Word} (h : s.queueRead p i key off n = .ok (t, ws)) : t.standing = s.standing := by
  unfold State.queueRead at h
  dsimp only at h
  (repeat' split at h) <;> cases h
  simp

theorem State.standing_of_queueRead_error {s t : State} {p : Nat} {i : Issuer} {key off n : Nat} (h : s.queueRead p i key off n = .error t) : t.standing = s.standing := by
  unfold State.queueRead at h
  dsimp only at h
  (repeat' split at h) <;> cases h
  all_goals (try simp)
  all_goals exact State.standing_of_holdOn (by assumption)


/-! ### Links and membership -/

/-- A port is as it was where the standing is. -/
theorem State.lport_of_standing {s t : State} (h : t.standing = s.standing) (n : Nat) : t.lport n = s.lport n := by
  unfold State.lport
  rw [show t.lmf.ports = s.lmf.ports from congrArg Standing.ports h]

theorem State.incs_of_standing {s t : State} (h : t.standing = s.standing) : t.lmf.incs = s.lmf.incs := congrArg Standing.incs h

section
variable {s : State} {n : Nat} (hruns : s.runs = true)
include hruns

/-- A link comes up at the version that both sides have (R649, R650). -/
theorem does_linkAdv_up {eid inc mask width role v : Nat} (hdown : (s.lport n).st = .down) (hwidth : width = 2 ∨ width = 4) (hver : linkVersion mask = some v) :
    Does (.linkAdv n eid inc mask width role) s fun t => t.lport n
      = { st := .up, width := width, ver := v, eid := eid, inc := inc, role := role, replay := [], retryAt := 0, rxNext := 0 } := by
  have hexec : exec (.linkAdv n eid inc mask width role) s = execLinkAdv n eid inc mask width role s := rfl
  rw [execLinkAdv, whenUp_of_runs hruns] at hexec
  simp only [hdown, hver] at hexec
  rw [if_neg (by simp; omega)] at hexec
  refine ⟨_, hexec, ?_⟩
  dsimp only
  rw [State.lport_of_standing ((State.standing_openManager _).trans (State.standing_linkRecord ..)), State.lport_setLport_self]

theorem does_linkAdv_refused {eid inc mask width role : Nat} (hdown : (s.lport n).st = .down) (hwidth : width = 2 ∨ width = 4) (hver : linkVersion mask = none) :
    Does (.linkAdv n eid inc mask width role) s fun t => (t.lport n).st = .retry := by
  have hexec : exec (.linkAdv n eid inc mask width role) s = execLinkAdv n eid inc mask width role s := rfl
  rw [execLinkAdv, whenUp_of_runs hruns] at hexec
  simp only [hdown, hver] at hexec
  rw [if_neg (by simp; omega)] at hexec
  refine ⟨_, hexec, ?_⟩
  dsimp only
  rw [State.lport_of_standing (State.standing_linkRecord ..), State.lport_setLport_self]

theorem does_linkStepTimeout (hdown : (s.lport n).st = .down) :
    Does (.linkStepTimeout n) s fun t => (t.lport n).st = .retry ∧ (t.lport n).retryAt = s.now + 1000000000 := by
  have hexec : exec (.linkStepTimeout n) s = execLinkStepTimeout n s := rfl
  rw [execLinkStepTimeout, whenUp_of_runs hruns] at hexec
  simp only [hdown] at hexec
  refine ⟨_, hexec, ?_⟩
  dsimp only
  rw [State.lport_of_standing (State.standing_linkRecord ..), State.lport_setLport_self]
  exact ⟨rfl, rfl⟩

theorem does_linkRetryTimer (hst : (s.lport n).st = .retry) (hat : (s.lport n).retryAt ≤ s.now) : Does (.linkRetryTimer n) s fun t => (t.lport n).st = .step 1 := by
  refine ⟨_, (show execLinkRetryTimer n s = _ from whenUp_of_runs hruns _).trans (if_pos ⟨hst, hat⟩), ?_⟩
  dsimp only
  rw [State.lport_setLport_self]

omit hruns in
/-- A lost link starts its next attempt and changes no incarnation (R671, R672). -/
theorem State.linkLost_lport (s : State) (n : Nat) :
    ((s.linkLost n).lport n).st = .step 1 ∧ ((s.linkLost n).lport n).replay = [] ∧ (s.linkLost n).lmf.incs = s.lmf.incs := by
  unfold State.linkLost
  dsimp only
  have hfold (l : List Nat) (t : State) : (l.foldl State.loseLender t).standing = t.standing := State.standing_foldl State.standing_loseLender l t
  rw [State.lport_of_standing ((hfold _ _).trans (State.standing_linkRecord ..)), State.incs_of_standing ((hfold _ _).trans (State.standing_linkRecord ..)),
    State.lport_setLport_self]
  exact ⟨rfl, rfl, rfl⟩

theorem exec_linkDown (hup : (s.lport n).st = .up) : exec (.linkDown n) s = .next (s.linkLost n) ∧ exec (.flitAckTimeout n) s = .next (s.linkLost n) :=
  ⟨(show execLinkDown n s = _ from whenUp_of_runs hruns _).trans (if_pos hup), (show execFlitAckTimeout n s = _ from whenUp_of_runs hruns _).trans (if_pos hup)⟩

theorem does_flitReplay (hup : (s.lport n).st = .up) (seq : Nat) : Does (.flitReplay n seq) s fun t => seq ∈ (t.lport n).replay ∧ t.out = .flit n 1 seq :: s.out := by
  have hexec : exec (.flitReplay n seq) s = execFlitReplay n seq s := rfl
  rw [execFlitReplay, whenUp_of_runs hruns, if_neg (by simp [hup])] at hexec
  refine ⟨_, hexec, ?_, rfl⟩
  rw [State.lport_of_standing ((State.standing_emit _ _).trans (State.standing_event ..)), State.lport_setLport_self]
  simp

theorem does_flitCrcFailure (hup : (s.lport n).st = .up) (seq : Nat) : Does (.flitCrcFailure n seq) s fun t => (t.lport n).rxNext = seq ∧ t.out = .flit n 0 seq :: s.out := by
  have hexec : exec (.flitCrcFailure n seq) s = execFlitCrcFailure n seq s := rfl
  rw [execFlitCrcFailure, whenUp_of_runs hruns, if_neg (by simp [hup])] at hexec
  refine ⟨_, hexec, ?_, rfl⟩
  rw [State.lport_of_standing ((State.standing_emit _ _).trans (State.standing_event ..)), State.lport_setLport_self]

end

/-- The end of another endpoint's incarnation marks it fenced, and changes no other endpoint's (R679, R734). -/
theorem State.standing_endIncarnation {s : State} {eid inc : Nat} {e : IncEntry} (hother : eid ≠ s.lmf.eid) (he : Tab.get? s.lmf.incs eid = some e) (hinc : e.inc ≤ inc) :
    (s.endIncarnation eid inc).standing
      = { s.standing with incs := Tab.set s.lmf.incs eid { e with fenced := some (match e.fenced with | some n => max n inc | none => inc) } } := by
  have heid (t : State) : (t.fenceWaiting eid).lmf.eid = t.lmf.eid := congrArg Standing.eid (State.standing_fenceWaiting t eid)
  unfold State.endIncarnation
  simp [heid, Tab.getD, he, Nat.not_lt.mpr hinc, hother, ↓State.standing_mk, State.standing_foldl]
  rfl

/-- The partner history leaves the membership as it is. -/
theorem State.partner_member (s : State) (event kind loc width ver eid inc : Nat) :
    (s.partner event kind loc width ver eid inc).lmf.incs = s.lmf.incs ∧ (s.partner event kind loc width ver eid inc).lmf.joined = s.lmf.joined
      ∧ (s.partner event kind loc width ver eid inc).lmf.eid = s.lmf.eid ∧ (s.partner event kind loc width ver eid inc).lmf.inc = s.lmf.inc
      ∧ (s.partner event kind loc width ver eid inc).lmf.fmEid = s.lmf.fmEid := by
  have h := State.standing_partner s event kind loc width ver eid inc
  exact ⟨congrArg Standing.incs h, congrArg Standing.joined h, congrArg Standing.eid h, congrArg Standing.inc h, congrArg Standing.fmEid h⟩

section
variable {s : State} {fm : Nat} (hruns : s.runs = true) (hsays : s.fmSays fm true = true)
include hruns hsays

/-- The controller's own JOIN gives it its EID and its incarnation (R677). -/
theorem does_join_own {eid inc ver role n : Nat} (hout : s.lmf.joined = false) (hasked : s.sec.joinAsked = true) : Does (.join fm eid inc ver role n true) s fun t =>
    t.lmf.joined = true ∧ t.lmf.eid = eid ∧ t.lmf.inc = inc ∧ t.lmf.fmEid = fm := by
  have hexec : exec (.join fm eid inc ver role n true) s = execJoin fm eid inc ver role n true s := rfl
  rw [execJoin, whenUp_of_runs hruns, if_neg (by simp [hsays, hout])] at hexec
  simp only [hout, hasked] at hexec
  refine ⟨_, hexec, ?_⟩
  obtain ⟨-, hjoined, heid, hinc, hfm⟩ := State.partner_member
    { s with
      lmf.eid := eid
      lmf.inc := inc
      lmf.joined := true
      lmf.fmEid := fm
      lmf.incs := Tab.set s.lmf.incs eid { inc := inc, ver := if (s.lport n).ver = 0 then ver else min (s.lport n).ver ver, joined := true, fenced := none }
      sec.joinAsked := false } 5 1 0 0 (if (s.lport n).ver = 0 then ver else min (s.lport n).ver ver) eid inc
  exact ⟨hjoined, heid, hinc, hfm⟩

/-- Another endpoint's JOIN makes its entry (R677). -/
theorem does_join_other {eid inc ver role n : Nat} (hin : s.lmf.joined = true) (hfm : fm = s.lmf.fmEid) (hother : eid ≠ s.lmf.eid) (hnew : Tab.get? s.lmf.incs eid = none)
    (hver : (s.lport n).ver = 0) : Does (.join fm eid inc ver role n true) s fun t => Tab.get? t.lmf.incs eid = some { inc := inc, ver := ver, joined := true, fenced := none } := by
  have hexec : exec (.join fm eid inc ver role n true) s = execJoin fm eid inc ver role n true s := rfl
  rw [execJoin, whenUp_of_runs hruns, if_neg (by rw [hsays, hin]; simp [hfm])] at hexec
  simp only [hin, hnew, hver, hother, if_false, if_true, Bool.not_true, Bool.false_eq_true] at hexec
  refine ⟨_, hexec, ?_⟩
  dsimp only
  rw [State.incs_of_standing ((State.standing_release ..).trans (State.standing_partner ..))]
  split
  · rw [State.incs_of_standing (State.standing_agentChannel ..)]
    exact Tab.get?_set_self ..
  · exact Tab.get?_set_self ..

/-- LEAVE ends another endpoint's membership (R679). -/
theorem does_leave_other {eid inc : Nat} {e : IncEntry} (hin : s.lmf.joined = true) (hfm : fm = s.lmf.fmEid) (hother : eid ≠ s.lmf.eid) (he : Tab.get? s.lmf.incs eid = some e)
    (hmember : e.joined = true) (hinc : e.inc ≤ inc) : Does (.leave fm eid inc true) s fun t => ∃ x, Tab.get? t.lmf.incs eid = some x ∧ x.joined = false := by
  have hexec : exec (.leave fm eid inc true) s = execLeave fm eid inc true s := rfl
  rw [execLeave, whenUp_of_runs hruns, if_neg (by rw [hsays, hin]; simp [hfm])] at hexec
  simp only [he] at hexec
  rw [if_neg (by simp [hmember]; omega), if_neg hother] at hexec
  refine ⟨_, hexec, ?_⟩
  dsimp only
  have hincs : ((s.endIncarnation eid inc).dropChannel eid).lmf.incs = _ := congrArg Standing.incs (State.standing_endIncarnation hother he hinc)
  rw [(State.partner_member ..).1, hincs, Tab.get?_modify, if_pos rfl, Tab.get?_set_self]
  exact ⟨_, rfl, rfl⟩

omit hsays in
/-- A copy of JOIN or LEAVE outside the session is discarded and counted (R681, R682). -/
theorem exec_join_unsealed (eid inc ver role n : Nat) :
    exec (.join fm eid inc ver role n false) s = .next (s.dropEvt n) ∧ exec (.leave fm eid inc false) s = .next (s.dropEvt 0) := by
  refine ⟨?_, ?_⟩
  · exact (show execJoin fm eid inc ver role n false s = _ from whenUp_of_runs hruns _).trans (if_pos (by simp [State.fmSays]))
  · exact (show execLeave fm eid inc false s = _ from whenUp_of_runs hruns _).trans (if_pos (by simp [State.fmSays]))

end

/-! ### The source a link gives -/

/-- The source of a request is what its link gives it, where that is up and not a router's (R52, R661). -/
theorem State.sourced_srcEid (s : State) (q : LmfReq) :
    (s.sourced q).srcEid = if s.replayOf = none ∧ (s.lport q.port).st = .up ∧ (s.lport q.port).role ≠ 3 then (s.lport q.port).eid else q.srcEid := by
  unfold State.sourced
  simp only [Bool.and_eq_true, decide_eq_true_eq, Option.isNone_iff_eq_none, and_assoc]
  split <;> rfl

/-- A request under the source that its link gives is taken as it is. -/
theorem State.sourced_sourced (s : State) (q : LmfReq) : s.sourced (s.sourced q) = s.sourced q := by
  by_cases h : (s.replayOf.isNone && decide ((s.lport q.port).st = .up) && decide ((s.lport q.port).role ≠ 3)) = true
  · have hq : s.sourced q = { q with srcEid := (s.lport q.port).eid } := if_pos h
    rw [hq]
    exact if_pos h
  · have hq : s.sourced q = q := if_neg h
    rw [hq, hq]

/-- So a coherent request runs under its sourced form as it does itself, -/
theorem cohServe_sourced (mk : LmfReq → Instr) (q : LmfReq) (agent : Nat) (need : Rights) (payload writes : Bool) (s : State) (body : LmfReq → Nat → Nat → Bool → State → State) :
    cohServe mk q agent need payload writes s body = cohServe mk (s.sourced q) agent need payload writes s body := by
  unfold cohServe whenUp
  dsimp only
  rw [State.sourced_sourced]

/-- and so does a coherent response. -/
theorem snoopServe_sourced (q : LmfReq) (agent : Nat) (s : State) (body : Nat → Nat → Line → State → State) :
    snoopServe q agent s body = snoopServe (s.sourced q) agent s body := by
  unfold snoopServe whenUp
  dsimp only
  rw [State.sourced_sourced]

section
variable (s : State) (q : LmfReq)

theorem exec_lmfLoad_sourced : exec (.lmfLoad q) s = exec (.lmfLoad (s.sourced q)) s := by
  show execLmfLoad q s = execLmfLoad (s.sourced q) s
  unfold execLmfLoad whenUp
  dsimp only
  rw [State.sourced_sourced]

theorem exec_lmfStore_sourced (d : Bytes) : exec (.lmfStore q d) s = exec (.lmfStore (s.sourced q) d) s := by
  show execLmfStore q d s = execLmfStore (s.sourced q) d s
  unfold execLmfStore whenUp
  dsimp only
  rw [State.sourced_sourced]

theorem exec_countedWrite_sourced (k : Nat) (d : Bytes) : exec (.countedWrite q k d) s = exec (.countedWrite (s.sourced q) k d) s := by
  show execCountedWrite q k d s = execCountedWrite (s.sourced q) k d s
  unfold execCountedWrite whenUp
  dsimp only
  rw [State.sourced_sourced]

theorem exec_recallDone_sourced (a : Nat) : exec (.recallDone q a) s = exec (.recallDone (s.sourced q) a) s := by
  show execRecallDone q a s = execRecallDone (s.sourced q) a s
  unfold execRecallDone whenUp
  dsimp only
  rw [State.sourced_sourced]

theorem exec_rdUnc_sourced : exec (.rdUnc q) s = exec (.rdUnc (s.sourced q)) s := by
  show execRdUnc q s = execRdUnc (s.sourced q) s
  unfold execRdUnc whenUp
  dsimp only
  rw [State.sourced_sourced]

theorem exec_wrUnc_sourced (d : Bytes) (m : BitVec 64) : exec (.wrUnc q d m) s = exec (.wrUnc (s.sourced q) d m) s := by
  show execWrUnc q d m s = execWrUnc (s.sourced q) d m s
  unfold execWrUnc whenUp
  dsimp only
  rw [State.sourced_sourced]

theorem exec_belayAccess_sourced (store : Bool) (v : DWord) : exec (.belayAccess q store v) s = exec (.belayAccess (s.sourced q) store v) s := by
  show execBelayAccess q store v s = execBelayAccess (s.sourced q) store v s
  unfold execBelayAccess whenUp
  dsimp only
  rw [State.sourced_sourced]

theorem exec_mirrorPartnerRead_sourced (v : Nat) : exec (.mirrorPartnerRead q v) s = exec (.mirrorPartnerRead (s.sourced q) v) s := by
  show execMirrorPartnerRead q v s = execMirrorPartnerRead (s.sourced q) v s
  unfold execMirrorPartnerRead whenUp
  dsimp only
  rw [State.sourced_sourced]

theorem exec_mirrorUpdate_sourced (d : Bytes) (p : Option LogNote) (n : Option JournalNote) :
    exec (.mirrorUpdate q d p n) s = exec (.mirrorUpdate (s.sourced q) d p n) s := by
  show execMirrorUpdate q d p n s = execMirrorUpdate (s.sourced q) d p n s
  unfold execMirrorUpdate whenUp
  dsimp only
  rw [State.sourced_sourced]

theorem exec_shardRegister_sourced (a b : Nat) (ws : List Word) : exec (.shardRegister q a b ws) s = exec (.shardRegister (s.sourced q) a b ws) s := by
  show execShardRegister q a b ws s = execShardRegister (s.sourced q) a b ws s
  unfold execShardRegister whenUp
  dsimp only
  rw [State.sourced_sourced]

end

/-- Settles O18: the link's events by what they leave of the port, JOIN and LEAVE by what they leave of the membership, and each LMF request by its source. -/
theorem linksAndMembership : Obligations.LinksAndMembership := by
  refine ⟨fun s n hruns _ => ⟨fun eid inc mask width role hdown hwidth => ⟨fun h3 => ?_, fun h3 h2 => ?_, fun h3 h2 => ?_⟩, does_linkStepTimeout hruns, does_linkRetryTimer hruns, fun hup =>
      ⟨⟨_, (exec_linkDown hruns hup).1, s.linkLost_lport n⟩, ⟨_, (exec_linkDown hruns hup).2, s.linkLost_lport n⟩, does_flitReplay hruns hup, does_flitCrcFailure hruns hup⟩⟩,
    fun s fm hruns hsays => ⟨fun eid inc ver role n hout hasked => does_join_own hruns hsays hout hasked,
      fun eid inc ver role n hin hfm hother hnew hver => does_join_other hruns hsays hin hfm hother hnew hver,
      fun eid inc e hin hfm hother he hmember hinc => does_leave_other hruns hsays hin hfm hother he hmember hinc,
      fun eid inc ver role n => ⟨_, (exec_join_unsealed (fm := fm) hruns eid inc ver role n).1, rfl, rfl⟩,
      fun eid inc => ⟨_, (exec_join_unsealed (fm := fm) hruns eid inc 0 0 0).2, rfl, rfl⟩⟩,
    fun s q => ⟨s.sourced_srcEid q, s.sourced_sourced q, exec_lmfLoad_sourced s q, exec_lmfStore_sourced s q, exec_countedWrite_sourced s q,
      fun a => ⟨show execRdShared q a s = _ from cohServe_sourced .., show execRdOwn q a s = _ from cohServe_sourced .., show execUpgrade q a s = _ from cohServe_sourced ..,
        show execInvOwn q a s = _ from cohServe_sourced .., show execEvictClean q a s = _ from cohServe_sourced .., show execAckInv q a s = _ from snoopServe_sourced ..,
        show execRspNotHeld q a s = _ from snoopServe_sourced .., exec_recallDone_sourced s q a⟩,
      exec_rdUnc_sourced s q, exec_wrUnc_sourced s q, fun a d p => show execWbDirty q a d p s = _ from cohServe_sourced ..,
      fun a dirty poison d => ⟨show execRspFwd q a dirty poison d s = _ from snoopServe_sourced .., show execRspFlush q a dirty poison d s = _ from snoopServe_sourced ..⟩,
      fun acq v => exec_belayAccess_sourced s q acq v, exec_mirrorPartnerRead_sourced s q, exec_mirrorUpdate_sourced s q, exec_shardRegister_sourced s q⟩⟩
  · obtain ⟨t, hexec, hport⟩ := does_linkAdv_up (eid := eid) (inc := inc) (role := role) hruns hdown hwidth (show linkVersion mask = some 3 from if_pos h3)
    exact ⟨t, hexec, by rw [hport], by rw [hport], by rw [hport], by rw [hport], by rw [hport], by rw [hport]⟩
  · obtain ⟨t, hexec, hport⟩ := does_linkAdv_up (eid := eid) (inc := inc) (role := role) hruns hdown hwidth (show linkVersion mask = some 2 by simp [linkVersion, h3, h2])
    exact ⟨t, hexec, by rw [hport], by rw [hport]⟩
  · exact does_linkAdv_refused hruns hdown hwidth (by simp [linkVersion, h3, h2])


/-! ### Whether the home has a coherent region

Reading a range moves pages between tiers, which may choose a region's table anew; no region's mode changes by it. -/

theorem State.hasCoherent_of_regions {s t : State} (h : t.home.regions = s.home.regions) : t.hasCoherent = s.hasCoherent := by
  unfold State.hasCoherent
  rw [h]

theorem State.foldl_hasCoherent {α : Type} (f : State → α → State) (h : ∀ s a, (f s a).hasCoherent = s.hasCoherent) (l : List α) (s : State) :
    (l.foldl f s).hasCoherent = s.hasCoherent := by
  induction l generalizing s with
  | nil => rfl
  | cons a l ih => rw [List.foldl_cons, ih, h]

/-- An entry written over one of the same mode leaves whether a table has a coherent region. -/
theorem any_coherent_set {t : Tab Region} {k : Nat} {r r' : Region} (hget : Tab.get? t k = some r) (hmode : r'.mode = r.mode) :
    (Tab.set t k r').any (fun e => decide (e.2.mode = .coherent)) = t.any (fun e => decide (e.2.mode = .coherent)) := by
  induction t with
  | nil => cases hget
  | cons e t ih =>
    obtain ⟨j, w⟩ := e
    simp only [Tab.get?] at hget
    simp only [Tab.set]
    split
    · by_cases hj : j = k
      · omega
      · rw [if_neg hj] at hget
        have hmem := Tab.get?_mem hget
        simp only [List.any_cons, hmode]
        cases hc : decide (r.mode = .coherent)
        · rfl
        · have hany : t.any (fun e => decide (e.2.mode = .coherent)) = true := List.any_eq_true.mpr ⟨_, hmem, hc⟩
          simp [hany]
    · split
      · rename_i hj
        rw [if_pos hj] at hget
        cases hget
        simp [hmode]
      · rename_i hj
        rw [if_neg hj] at hget
        simp [ih hget]

theorem State.chooseTable_hasCoherent {s : State} {rid : Nat} {r : Region} (hrg : s.region? rid = some r) (bytes : Bytes) :
    (s.chooseTable rid r bytes).1.hasCoherent = s.hasCoherent := by
  unfold State.chooseTable
  dsimp only
  iterate 3
    rw [apply_ite Prod.fst, apply_ite State.hasCoherent]
    refine ite_eq_left_iff.mpr fun _ => ?_
  exact any_coherent_set hrg rfl

@[simp] theorem State.modPage_hasCoherent (s : State) (ref : PageRef) (f : TierPage → TierPage) : (s.modPage ref f).hasCoherent = s.hasCoherent :=
  State.hasCoherent_of_regions (by simp)

@[simp] theorem State.encoderRan_hasCoherent (s : State) (ref : PageRef) (p : TierPage) (im : Image) : (s.encoderRan ref p im).hasCoherent = s.hasCoherent :=
  State.hasCoherent_of_regions (by simp [State.encoderRan])

@[simp] theorem State.t2Put_hasCoherent (s : State) (im : Image) : (s.t2Put im).hasCoherent = s.hasCoherent := State.hasCoherent_of_regions (by simp)

@[simp] theorem State.t2Get_hasCoherent (s : State) (ref : PageRef) : (s.t2Get ref).hasCoherent = s.hasCoherent := State.hasCoherent_of_regions (by simp)

@[simp] theorem State.strataEvent_hasCoherent (s : State) (idx n : Nat) : (s.strataEvent idx n).hasCoherent = s.hasCoherent := rfl

@[simp] theorem State.memEvent_hasCoherent (s : State) (layer idx n : Nat) (ref : PageRef) : (s.memEvent layer idx n ref).hasCoherent = s.hasCoherent := rfl

@[simp] theorem State.encodeGroup_hasCoherent (s : State) (rid : Nat) (refs : List PageRef) (b : TierPage → Backing) (place : Image → TierPage → TierPage) :
    (s.encodeGroup rid refs b place).hasCoherent = s.hasCoherent := by
  unfold State.encodeGroup
  split
  · rfl
  rename_i r hrg
  dsimp only
  have hswept (t : State) : t.sweepTables.hasCoherent = t.hasCoherent := rfl
  rw [hswept, State.foldl_hasCoherent, State.chooseTable_hasCoherent hrg]
  intro s ref
  split
  · rfl
  · split <;> (simp only [State.encoderRan_hasCoherent, State.t2Put_hasCoherent, State.memEvent_hasCoherent, State.modPage_hasCoherent]; rfl)

@[simp] theorem State.writeBackNow_hasCoherent (s : State) (ref : PageRef) : (s.writeBackNow ref).hasCoherent = s.hasCoherent := by
  unfold State.writeBackNow
  split <;> simp

@[simp] theorem State.evict_hasCoherent (s : State) (e : PageRef × TierPage) : (s.evict e).hasCoherent = s.hasCoherent := by
  unfold State.evict
  split <;> simp

@[simp] theorem State.roomT0_hasCoherent (s : State) : s.roomT0.hasCoherent = s.hasCoherent := by
  unfold State.roomT0
  (repeat' split) <;> simp

@[simp] theorem State.fillT0_hasCoherent (s : State) (ref : PageRef) : (s.fillT0 ref).hasCoherent = s.hasCoherent := by
  unfold State.fillT0
  (repeat' split) <;> simp

@[simp] theorem State.touch_hasCoherent (s : State) (port : Bool) (ref : PageRef) (off n : Nat) : (s.touch port ref off n).hasCoherent = s.hasCoherent := by
  unfold State.touch
  dsimp only
  split <;> simp

@[simp] theorem State.touchRange_hasCoherent (s : State) (port : Bool) (rid : Nat) (v : View) (off n : Nat) : (s.touchRange port rid v off n).hasCoherent = s.hasCoherent := by
  refine State.foldl_hasCoherent _ (fun s q => ?_) _ s
  (repeat' split) <;> simp

@[simp] theorem State.fetchT2_hasCoherent (s : State) (ref : PageRef) : (s.fetchT2 ref).hasCoherent = s.hasCoherent := by
  unfold State.fetchT2
  (repeat' split) <;> simp

@[simp] theorem State.readEvent_hasCoherent (s : State) (ref : PageRef) (n : Nat) : (s.readEvent ref n).hasCoherent = s.hasCoherent := by
  unfold State.readEvent
  (repeat' split) <;> simp

@[simp] theorem State.fetchTL_hasCoherent (s : State) (ref : PageRef) (off n : Nat) : (s.fetchTL ref off n).hasCoherent = s.hasCoherent := by
  have hsend (t : State) (w : TxnUse) (e : Extent) (o k : Nat) (d : Option Bytes) : (t.sendLender w e o k d).hasCoherent = t.hasCoherent := by
    refine State.foldl_hasCoherent _ (fun v q => ?_) _ t
    split <;> exact State.hasCoherent_of_regions (by simp)
  unfold State.fetchTL
  (repeat' split)
  all_goals try rfl
  rw [State.foldl_hasCoherent, hsend]
  exact fun t q => hsend ..

@[simp] theorem State.readDone_hasCoherent (s : State) (port : Bool) (rid : Nat) (v : View) (off n : Nat) : (s.readDone port rid v off n).hasCoherent = s.hasCoherent := by
  unfold State.readDone
  rw [State.touchRange_hasCoherent]
  refine State.foldl_hasCoherent _ (fun s q => ?_) _ s
  (repeat' split) <;> simp

/-! ### Teams and fences -/

section
variable {s u : State} {r : BciReq} {i : Issuer}

/-- ROPE_SET sets a team that the controller is of (R271, R272). -/
theorem answers_ropeSet {rid : Nat} {rg : Region}
    (hready : s.ready (.ropeSet r) { BciRow.o 0x60 6 with minor := some 0, v3 := true, resv := fun r => above r 1 16 || offResv r 5 } r = some (i, u))
    (hn : 1 ≤ r.w 2) (hn' : r.w 2 ≤ 16) (ht : 10 ≤ r.w 3) (ht' : r.w 3 ≤ 1000000) (hopens : u.opens r i (r.w 4) (r.d 5) (4 * r.w 2) needR = some (rid, rg))
    (hclear : u.meetRead rid rg (.own i) (r.d 5) (4 * r.w 2) = .clear) (hms : ∀ e ∈ eidsOf (u.readRange rg (.own i) (r.d 5) (4 * r.w 2)), e < 262144)
    (hown : u.lmf.eid ∈ eidsOf (u.readRange rg (.own i) (r.d 5) (4 * r.w 2))) (hcoh : u.hasCoherent = false) :
    Answers (.ropeSet r) s r [] fun t => t.rope.team = r.w 1 ∧ t.rope.timeoutUs = r.w 3 ∧ t.rope.members = eidsOf (u.readRange rg (.own i) (r.d 5) (4 * r.w 2)) := by
  have hexec : exec (.ropeSet r) s = execRopeSet r s := rfl
  rw [execRopeSet, bciServe_of_ready hready] at hexec
  dsimp only at hexec
  rw [if_neg (by omega), State.onRegion_of_opens hopens] at hexec
  generalize hlist : eidsOf (u.readRange rg (.own i) (r.d 5) (4 * r.w 2)) = ms at *
  have hlow : ms.any (fun e => decide (262144 ≤ e)) = false := List.any_eq_false.mpr fun e he => by simpa using hms e he
  have heid : (u.readDone false rid (.own i) (r.d 5) (4 * r.w 2)).lmf.eid = u.lmf.eid := congrArg Standing.eid (State.standing_readDone ..)
  simp only [hclear, hlow, State.readDone_hasCoherent, hcoh, Bool.and_false] at hexec
  refine ⟨_, hexec, ?_⟩
  unfold State.ropeApply
  dsimp only
  have hmem (v : State) (hv : v.lmf = (u.readDone false rid (.own i) (r.d 5) (4 * r.w 2)).lmf) : ms.contains v.lmf.eid = true := by
    rw [hv, heid]
    exact List.contains_iff_mem.mpr hown
  rw [if_pos]
  · exact ⟨rfl, rfl, rfl⟩
  · apply hmem
    split <;> rfl

theorem answers_ropeAgentAdd
    (hready : s.ready (.ropeAgentAdd r) { BciRow.o 0x61 3 with minor := some 0, v3 := true, resv := fun r => above r 1 6 || above r 2 18 } r = some (i, u))
    (hver : 3 ≤ u.verOf (r.w 2)) (hmember : u.isMember = true) (hfree : Tab.has u.rope.agents (r.w 1) = false) (hnew : u.agentIdx (r.w 2) = none) :
    Answers (.ropeAgentAdd r) s r [] fun t => Tab.get? t.rope.agents (r.w 1) = some { eid := r.w 2, inc := r.w 3 } ∧ t = { u with rope.agents := t.rope.agents } := by
  have hexec : exec (.ropeAgentAdd r) s = execRopeAgentAdd r s := rfl
  rw [execRopeAgentAdd, bciServe_of_ready hready, if_neg (by omega), if_neg (by simp [hmember, hfree, hnew])] at hexec
  exact ⟨_, hexec, Tab.get?_set_self .., rfl⟩

theorem answers_ropeAgentRemove {x : Agent}
    (hready : s.ready (.ropeAgentRemove r) { BciRow.o 0x62 1 with minor := some 0, v3 := true, resv := fun r => above r 1 6 } r = some (i, u))
    (hx : Tab.get? u.rope.agents (r.w 1) = some x) (hfree : u.agentHolds (r.w 1) = false) :
    Answers (.ropeAgentRemove r) s r [] fun t => Tab.get? t.rope.agents (r.w 1) = none ∧ x ∉ t.rope.fencedAgents := by
  have hexec : exec (.ropeAgentRemove r) s = execRopeAgentRemove r s := rfl
  rw [execRopeAgentRemove, bciServe_of_ready hready] at hexec
  simp only [hx] at hexec
  rw [if_neg (by simp [hfree])] at hexec
  exact ⟨_, hexec, Tab.get?_erase_self .., by simp⟩

/-- FENCE of another endpoint's incarnation marks it fenced (R734). -/
theorem answers_fence {e : IncEntry} (hready : s.ready (.fence r) { BciRow.o 0x63 2 with minor := some 0, resv := fun r => above r 1 18 } r = some (i, u))
    (hother : r.w 1 ≠ u.lmf.eid) (he : Tab.get? u.lmf.incs (r.w 1) = some e) (hinc : e.inc ≤ r.w 2) (hfree : e.fenced = none) :
    Answers (.fence r) s r [] fun t => ∃ y, Tab.get? t.lmf.incs (r.w 1) = some y ∧ y.fenced = some (r.w 2) := by
  have hexec : exec (.fence r) s = execFence r s := rfl
  rw [execFence, bciServe_of_ready hready] at hexec
  have hincs : (u.endIncarnation (r.w 1) (r.w 2)).lmf.incs = _ := congrArg Standing.incs (State.standing_endIncarnation hother he hinc)
  refine ⟨_, hexec, _, by rw [hincs]; exact Tab.get?_set_self .., ?_⟩
  simp [hfree]

end

/-- Settles O39: one lemma for each command. -/
theorem teamsAndFences : Obligations.TeamsAndFences := by
  intro s r i u
  exact ⟨fun rid rg hready hn hn' ht ht' hopens hclear hms hown hcoh => answers_ropeSet hready hn hn' ht ht' hopens hclear hms hown hcoh,
    fun hready hver hmember hfree hnew => answers_ropeAgentAdd hready hver hmember hfree hnew, fun x hready hx hfree => answers_ropeAgentRemove hready hx hfree,
    fun e hready hother he hinc hfree => answers_fence hready hother he hinc hfree⟩


/-! ### The owner, the mailbox, and the parts -/

theorem State.drive_of_standing {s t : State} (h : t.standing = s.standing) (n : Nat) : ({ t.drive n with busy := 0 } : Drive) = { s.drive n with busy := 0 } :=
  congrFun (congrArg Standing.drives h) n

theorem State.failed_of_standing {s t : State} (h : t.standing = s.standing) (n : Nat) : (t.drive n).failed = (s.drive n).failed :=
  show ({ t.drive n with busy := 0 } : Drive).failed = ({ s.drive n with busy := 0 } : Drive).failed from congrArg Drive.failed (State.drive_of_standing h n)

/-- What OWNER_SET does to the role (R634, R635). -/
theorem State.moveOwner_owner (s : State) (p : Nat) : (s.moveOwner p).host.owner = p ∧ (s.moveOwner p).lmf.joined = s.lmf.joined := by
  have hrole : (s.moveOwner p).base.owner = p := by
    unfold State.moveOwner
    dsimp only
    rw [State.base_foldl fun t q => by split <;> simp, State.base_faultFlush]
    split
    · rfl
    · simp only [State.base_rsFn]
      rfl
  have hstanding : (s.moveOwner p).standing = s.standing := by
    unfold State.moveOwner
    dsimp only
    rw [State.standing_foldl fun t q => by split <;> simp, State.standing_faultFlush]
    split
    · rfl
    · simp only [State.standing_rsFn]
      rfl
  exact ⟨hrole, congrArg Standing.joined hstanding⟩

section
variable {s : State} (hruns : s.runs = true)
include hruns

theorem does_ownerSet_moves {fm p : Nat} (hsays : s.fmSays fm true = true) (hfm : fm = s.lmf.fmEid) (hin : s.lmf.joined = true) (hok : s.ownerOk p = true) :
    Does (.ownerSet fm p true) s fun t => t.host.owner = p ∧ t.lmf.joined = true := by
  have hexec : exec (.ownerSet fm p true) s = execOwnerSet fm p true s := rfl
  rw [execOwnerSet, whenUp_of_runs hruns, if_neg (by rw [hsays, hin]; simp [hfm]), if_neg (by simp [hok])] at hexec
  obtain ⟨howner, hjoined⟩ := s.moveOwner_owner p
  exact ⟨_, hexec, howner, hjoined.trans hin⟩

theorem does_ownerSet_refuses {fm p : Nat} (hsays : s.fmSays fm true = true) (hfm : fm = s.lmf.fmEid) (hin : s.lmf.joined = true) (hok : s.ownerOk p = false) :
    Does (.ownerSet fm p true) s fun t => t = s.emit (.evt fm 4 [p, Status.state.code]) ∧ t.host.owner = s.host.owner := by
  have hexec : exec (.ownerSet fm p true) s = execOwnerSet fm p true s := rfl
  rw [execOwnerSet, whenUp_of_runs hruns, if_neg (by rw [hsays, hin]; simp [hfm]), if_pos (by simp [hok])] at hexec
  exact ⟨_, hexec, rfl, rfl⟩

theorem does_ownerSet_unsealed (fm p : Nat) : Does (.ownerSet fm p false) s fun t => t.host.owner = s.host.owner ∧ t.lmf.evtDrop = s.lmf.evtDrop + 1 :=
  ⟨_, (show execOwnerSet fm p false s = _ from whenUp_of_runs hruns _).trans (if_pos (by simp [State.fmSays])), rfl, rfl⟩

theorem exec_memoryDeviceMailbox (p op : Nat) (bs : Bytes) :
    (op ∈ [0x4000, 0x0400, 0x0401, 0x0100, 0x0101] → exec (.memoryDeviceMailbox p op bs) s = .next (s.emit (.doe p [0, op] (Config.cxlMailbox op bs))))
    ∧ (op ∉ [0x4000, 0x0400, 0x0401, 0x0100, 0x0101] → exec (.memoryDeviceMailbox p op bs) s = .next (s.emit (.doe p [0x15, op] []))) :=
  ⟨fun h => (show execMemoryDeviceMailbox p op bs s = _ from whenUp_of_runs hruns _).trans (if_pos h),
    fun h => (show execMemoryDeviceMailbox p op bs s = _ from whenUp_of_runs hruns _).trans (if_neg h)⟩

end

/-- A list of entries of five words each is read entry by entry. -/
theorem getElem?_flatMap_five {α : Type} {f : α → List Nat} (hf : ∀ a, (f a).length = 5) (l : List α) {k j : Nat} (hk : k < l.length) (hj : j < 5) :
    (l.flatMap f)[5 * k + j]? = (f l[k])[j]? := by
  induction l generalizing k with
  | nil => cases hk
  | cons a l ih =>
    rw [List.flatMap_cons]
    cases k with
    | zero => rw [List.getElem?_append_left (by rw [hf]; omega)]; simp
    | succ k =>
      rw [List.getElem?_append_right (by rw [hf]; omega), hf, show 5 * (k + 1) + j - 5 = 5 * k + j by omega, ih (by simpa using hk)]
      rfl

/-- CDAT reports one entry of 650 ns and 128 GB/s for each committed decoder (R623). -/
theorem State.cdat_entries (s : State) (p : Nat) :
    (s.cdat p).length = 5 * ((s.hport p).decs.filter (fun e => e.2.committed)).length
      ∧ ∀ k < ((s.hport p).decs.filter (fun e => e.2.committed)).length, (s.cdat p)[5 * k + 3]? = some 650 ∧ (s.cdat p)[5 * k + 4]? = some 128 := by
  unfold State.cdat
  generalize (s.hport p).decs.filter (fun e => e.2.committed) = l
  refine ⟨?_, fun k hk => ⟨?_, ?_⟩⟩
  · rw [List.length_flatMap]
    simp [Nat.mul_comm]
  · rw [getElem?_flatMap_five (fun _ => rfl) l hk (by decide)]
    rfl
  · rw [getElem?_flatMap_five (fun _ => rfl) l hk (by decide)]
    rfl

theorem exec_doeRequest {s : State} (hruns : s.runs = true) (p : Nat) :
    exec (.doeRequest p 0) s = .next (s.emit (.doe p [0, 0, 1, 2, 3] [])) ∧ exec (.doeRequest p 1) s = .next (s.emit (.doe p (1 :: s.cdat p) [])) :=
  ⟨show execDoeRequest p 0 s = _ from whenUp_of_runs hruns _, show execDoeRequest p 1 s = _ from whenUp_of_runs hruns _⟩

/-! ### Drives and DIMMs -/

/-- A rebuild that starts, or waits, leaves the drives. -/
theorem State.drives_startRebuild (s : State) (loc : Nat) (into : Option Nat) : (s.startRebuild .drive loc into).standing.drives = s.standing.drives := by
  unfold State.startRebuild
  have h := State.standing_startOp s (.rebuild .drive loc) (s.drive loc).capacity (s.attributed { eid := s.lmf.eid, ctx := 0, admin := true })
  exact (congrArg Standing.drives h :)

theorem State.drives_waitRebuild (s : State) (p : Part) (loc : Nat) : (s.waitRebuild p loc).standing.drives = s.standing.drives := rfl

/-- A drive that is declared failed is failed (R724). -/
theorem State.declareFailed_drive (s : State) (n : Nat) : ((s.declareFailed .drive n).drive n).failed = true := by
  suffices h : ((s.declareFailed .drive n).standing.drives n).failed = true from h
  let d : Drive := { s.drive n with failed := true, spare := false, admitted := !(s.drive n).spare, queues := 0, busy := 0 }
  have hset : ((State.standing { s with strata.drives := Tab.set s.strata.drives n d }).drives n).failed = true := by
    show (drivesIdle (Tab.set s.strata.drives n d) n).failed = true
    rw [drivesIdle, Tab.getD_set_self]
  unfold State.declareFailed
  dsimp only
  split
  · rw [State.standing_partRecord]
    exact hset
  · split
    · rw [State.standing_partRecord, State.drives_startRebuild]
      exact hset
    · rw [State.standing_noSpare_drive, State.standing_partRecord, State.drives_waitRebuild]
      exact hset

section
variable {s : State} {n : Nat} (hruns : s.runs = true)
include hruns

theorem does_drivePresence_inserted (hn : n < 12) (hout : s.strata.present.contains n = false) :
    Does (.drivePresenceChange n true) s fun t => t.strata.present.contains n = true ∧ t.strata.drives = s.strata.drives := by
  have hexec : exec (.drivePresenceChange n true) s = execDrivePresenceChange n true s := rfl
  rw [execDrivePresenceChange, whenUp_of_runs hruns, if_pos rfl, if_neg (by simpa [hn] using hout)] at hexec
  exact ⟨_, hexec, by simp, rfl⟩

theorem does_drivePresence_removed (hin : s.strata.present.contains n = true) (hadm : (s.drive n).admitted = false) :
    Does (.drivePresenceChange n false) s fun t => t.strata.present.contains n = false ∧ t.strata.drives = s.strata.drives := by
  have hexec : exec (.drivePresenceChange n false) s = execDrivePresenceChange n false s := rfl
  have hdown (v : State) (hv : v.strata.drives = s.strata.drives) : v.partUp .drive n = false := by
    have hdrive : v.drive n = s.drive n := by unfold State.drive; rw [hv]
    simp [State.partUp, hdrive, hadm]
  rw [execDrivePresenceChange, whenUp_of_runs hruns, if_neg Bool.false_ne_true, if_neg (by simpa using hin)] at hexec
  dsimp only at hexec
  rw [hadm, if_neg Bool.false_ne_true, if_neg (by simp [hdown])] at hexec
  exact ⟨_, hexec, by simp, rfl⟩

/-- A drive with the format of R103 is admitted under a new incarnation. -/
theorem does_driveAdmission {cap : Nat} (hin : s.strata.present.contains n = true) (hboot : s.pkg.bootAt + 100000 ≤ s.now) (hadm : (s.drive n).admitted = false)
    (hrebuild : s.rebuildOf .drive n = none) (hroom : s.rawT2 n + cap ≤ rawLimit) : Does (.driveAdmission n cap true) s fun t =>
      (t.drive n).admitted = true ∧ (t.drive n).inc = (s.drive n).inc + 1 ∧ (t.drive n).capacity = cap ∧ (t.drive n).failed = false := by
  have hexec : exec (.driveAdmission n cap true) s = execDriveAdmission n cap true s := rfl
  have hperst : s.drvPerst = false := by simp [State.drvPerst]; omega
  have hroom' : ((s.nvmeAdmin n .identify 1 0).nvmeAdmin n .identify 0 1).rawT2 n = s.rawT2 n := rfl
  have hrebuild' : ((s.nvmeAdmin n .identify 1 0).nvmeAdmin n .identify 0 1).rebuildOf .drive n = none := hrebuild
  rw [execDriveAdmission, whenUp_of_runs hruns, if_neg (by simp [hperst, hadm]; simpa using hin)] at hexec
  dsimp only at hexec
  rw [if_neg (by rw [hroom']; simp; omega)] at hexec
  simp only [hrebuild'] at hexec
  refine ⟨_, hexec, ?_⟩
  simp [State.drive, State.sizeT2]

/-- One without it is not. -/
theorem does_driveAdmission_refused (cap : Nat) (hin : s.strata.present.contains n = true) (hboot : s.pkg.bootAt + 100000 ≤ s.now)
    (hadm : (s.drive n).admitted = false ∨ (s.drive n).failed = true) :
    Does (.driveAdmission n cap false) s fun t => t = { s with out := t.out } ∧ t.out = .nvme n 0 .identify 0 1 :: .nvme n 0 .identify 1 0 :: s.out := by
  have hexec : exec (.driveAdmission n cap false) s = execDriveAdmission n cap false s := rfl
  have hperst : s.drvPerst = false := by simp [State.drvPerst]; omega
  have hfree : ((s.drive n).admitted && !(s.drive n).failed) = false := by rcases hadm with h | h <;> simp [h]
  rw [execDriveAdmission, whenUp_of_runs hruns, if_neg (by rw [hin, hperst, hfree]; decide)] at hexec
  dsimp only at hexec
  rw [if_pos (by rfl)] at hexec
  exact ⟨_, hexec, rfl, rfl⟩

theorem exec_driveAdmission_absent (cap : Nat) (f : Bool) (hout : s.strata.present.contains n = false) : exec (.driveAdmission n cap f) s = .next s :=
  (show execDriveAdmission n cap f s = _ from whenUp_of_runs hruns _).trans (if_pos (by rw [hout]; rfl))

theorem does_asyncEvent_failure (hup : s.partUp .drive n = true) (hqueues : (s.drive n).queues ≠ 0) : Does (.asyncEvent n true) s fun t => (t.drive n).failed = true := by
  have hexec : exec (.asyncEvent n true) s = execAsyncEvent n true s := rfl
  obtain ⟨⟨hn, hadm⟩, hgood⟩ : (n < 12 ∧ (s.drive n).admitted = true) ∧ (s.drive n).failed = false := by simpa [State.partUp] using hup
  have hdown : ((s.nvmeAdmin n .getLogPage 2 0).driveDown n).standing = s.standing := (State.standing_driveDown ..).trans (State.standing_nvmeAdmin ..)
  have hup' : ((s.nvmeAdmin n .getLogPage 2 0).driveDown n).partUp .drive n = true := by
    have hdrive := State.drive_of_standing hdown n
    have hadm' : (((s.nvmeAdmin n .getLogPage 2 0).driveDown n).drive n).admitted = true := by simpa [hadm] using congrArg Drive.admitted hdrive
    simp [State.partUp, hn, hadm', State.failed_of_standing hdown, hgood]
  rw [execAsyncEvent, whenUp_of_runs hruns, if_neg (by simp [hadm, hqueues])] at hexec
  dsimp only at hexec
  rw [if_pos rfl, State.driveFails, if_pos hup'] at hexec
  exact ⟨_, hexec, State.declareFailed_drive ..⟩

theorem does_driveLinkLoss (hup : s.partUp .drive n = true) : Does (.driveLinkLoss n) s fun t => (t.drive n).failed = true := by
  have hexec : exec (.driveLinkLoss n) s = execDriveLinkLoss n s := rfl
  rw [execDriveLinkLoss, whenUp_of_runs hruns, State.driveFails, if_pos hup] at hexec
  exact ⟨_, hexec, State.declareFailed_drive ..⟩

theorem does_asyncEvent_other (hadm : (s.drive n).admitted = true) (hqueues : (s.drive n).queues ≠ 0) :
    Does (.asyncEvent n false) s fun t => t = { s with out := t.out } ∧ t.out = .nvme n 0 .asyncEvent 0 0 :: .nvme n 0 .getLogPage 2 0 :: s.out := by
  have hexec : exec (.asyncEvent n false) s = execAsyncEvent n false s := rfl
  rw [execAsyncEvent, whenUp_of_runs hruns, if_neg (by simp [hadm, hqueues])] at hexec
  exact ⟨_, hexec.trans (if_neg Bool.false_ne_true), rfl, rfl⟩

theorem does_dimmTemp (ch dimm : Nat) (hot : Bool) : Does (.dimmTemp ch dimm hot) s fun t =>
    (t.dimm (ch + 16 * dimm)).hot = hot ∧ (t.dimm (ch + 16 * dimm)).failed = (s.dimm (ch + 16 * dimm)).failed
      ∧ t = { s with strata := { s.strata with dimms := t.strata.dimms } } := by
  refine ⟨_, show execDimmTemp ch dimm hot s = _ from whenUp_of_runs hruns _, ?_, ?_, rfl⟩
  · simp [State.dimm]
  · simp [State.dimm]

end

/-- Settles O14: OWNER_SET by what it meets, the mailbox and DOE by the request, the parts' events one lemma each. -/
theorem ownerMailboxAndParts : Obligations.OwnerMailboxAndParts := by
  refine ⟨fun s fm p hruns hsays hfm hin => ⟨does_ownerSet_moves hruns hsays hfm hin, does_ownerSet_refuses hruns hsays hfm hin, does_ownerSet_unsealed hruns fm p⟩,
    fun s p hruns => ⟨fun op bs => (exec_memoryDeviceMailbox hruns p op bs).1, fun op bs => (exec_memoryDeviceMailbox hruns p op bs).2, (exec_doeRequest hruns p).1,
      s.cdat p, (exec_doeRequest hruns p).2, s.cdat_entries p⟩,
    fun s n hruns hn => ⟨does_drivePresence_inserted hruns hn, does_drivePresence_removed hruns,
      fun cap hin hboot hadm hrebuild hroom => does_driveAdmission hruns hin hboot hadm hrebuild hroom, does_driveAdmission_refused hruns, exec_driveAdmission_absent hruns,
      fun hup => ⟨does_asyncEvent_failure hruns hup, does_driveLinkLoss hruns hup⟩, does_asyncEvent_other hruns, does_dimmTemp hruns⟩⟩

end Sys2Proof.Machine

/-! PROOF. O23, O24, O26, O28, O32: slots of the Slaica core. What a slot's body and its end leave; then the scalar, vector and control instructions. -/

namespace Sys2Proof.Machine

/-! ### Slots: a slot that goes runs its body, and its end takes it out of its queue (R350 to R354) -/

theorem Tab.set_set {α : Type} (t : Tab α) (k : Nat) (v w : α) : Tab.set (Tab.set t k v) k w = Tab.set t k w := by
  induction t with
  | nil => simp [Tab.set]
  | cons e t ih =>
    obtain ⟨j, u⟩ := e
    by_cases hlt : k < j
    · simp [Tab.set, hlt]
    · by_cases heq : j = k
      · simp [Tab.set, heq]
      · simp [Tab.set, hlt, heq, ih]

@[simp] theorem State.setCore_setCore (s : State) (n : Nat) (c d : Core) : (s.setCore n c).setCore n d = s.setCore n d := by
  simp [State.setCore, Tab.set_set]

@[simp] theorem State.modRegs_setCore (s : State) (n : Nat) (c : Core) (f : RegFile → RegFile) : (s.setCore n c).modRegs n f = s.setCore n { c with regs := f c.regs } := by
  simp [State.modRegs]

theorem State.stick_setCore (s : State) (n seq : Nat) (c : Core) (f : FFlags) : ∃ qs, (s.setCore n c).stick n seq f = s.setCore n { c with flags := c.flags ||| f.bits, queues := qs }
    ∧ ∀ e, (Tab.getD qs e []).length = (Tab.getD c.queues e []).length := by
  refine ⟨_, by rw [State.stick, State.core_setCore_self, State.setCore_setCore], fun e => ?_⟩
  rw [Tab.getD, Tab.getD, Tab.get?_map_values]
  cases Tab.get? c.queues e <;> simp

theorem Core.save_queue_length (c : Core) (q : QSlot) (e : Nat) : (Tab.getD (c.save q).queues e []).length = (Tab.getD c.queues e []).length := by
  unfold Core.save
  dsimp only
  rw [Tab.getD, Tab.getD, Tab.get?_map_values]
  cases Tab.get? c.queues e <;> simp

theorem Core.pop_queue_length (c : Core) (e : Nat) (h : Tab.getD c.queues e [] ≠ []) : (Tab.getD (c.pop e).queues e []).length + 1 = (Tab.getD c.queues e []).length := by
  unfold Core.pop Tab.modify
  unfold Tab.getD at h ⊢
  cases hq : Tab.get? c.queues e with
  | none => simp [hq] at h
  | some l =>
    cases l with
    | nil => simp [hq] at h
    | cons a l => simp

/-- The slot's end changes its core only: its place in the queue, its parts, and, where it had stalled the core, the core's running. -/
theorem State.slotDone_setCore (s : State) (c : Core) (cmd : Instr) (h : SlotHdr) :
    ∃ st kr, (s.setCore h.core c).slotDone cmd h = s.setCore h.core { c.pop (engineOf cmd) with st := st, kernel := kr } := by
  unfold State.slotDone State.unstall
  simp only [State.core_setCore_self, State.setCore_setCore]
  split
  · exact ⟨_, _, rfl⟩
  · exact ⟨_, _, rfl⟩

section
variable {s : State} {cmd : Instr} {h : SlotHdr} {k : KernelRun} {q : QSlot} {r : RegFile}

theorem State.slotGo_elim (hgo : s.slotGo cmd = some (h, k, q, r)) :
    s.runs = true ∧ s.slotBusy cmd = false ∧ s.slotOf cmd = some (h, s.core h.core, k, q) ∧ r = mergeRegs q.regs (s.core h.core).regs := by
  unfold State.slotGo at hgo
  split at hgo
  next hcond =>
    simp only [Bool.and_eq_true, Bool.not_eq_true'] at hcond
    obtain ⟨hruns, hbusy⟩ := hcond
    split at hgo
    next h' c' k' q' hslot =>
      injection hgo with hgo
      simp only [Prod.mk.injEq] at hgo
      obtain ⟨rfl, rfl, rfl, rfl⟩ := hgo
      have hc : c' = s.core h'.core := by
        unfold State.slotOf at hslot
        split at hslot
        · exact absurd hslot (by simp)
        · dsimp only at hslot
          split at hslot
          · simp only [Option.ite_none_right_eq_some, Option.some.injEq, Prod.mk.injEq] at hslot
            obtain ⟨-, hh, hc, -⟩ := hslot
            rw [← hc, hh]
          · exact absurd hslot (by simp)
      exact ⟨hruns, hbusy, by rw [hslot, hc], by rw [hc]⟩
    · exact absurd hgo (by simp)
  · exact absurd hgo (by simp)

theorem State.slotOf_elim {c : Core} (hslot : s.slotOf cmd = some (h, c, k, q)) : hdrOf cmd = some h ∧ c.kernel = some k ∧ Tab.getD c.queues (engineOf cmd) [] ≠ [] := by
  unfold State.slotOf at hslot
  split at hslot
  · exact absurd hslot (by simp)
  next h' hh =>
    dsimp only at hslot
    split at hslot
    next hk hq =>
      simp only [Option.ite_none_right_eq_some, Option.some.injEq, Prod.mk.injEq] at hslot
      obtain ⟨-, rfl, rfl, rfl, rfl⟩ := hslot
      exact ⟨hh, hk, by rw [hq]; simp⟩
    · exact absurd hslot (by simp)

/-- The state a slot's body starts from: the queue keeps what later results replace. -/
def State.slotSaved (s : State) (h : SlotHdr) (q : QSlot) : State := s.setCore h.core ((s.core h.core).save q)

/-- VLD and VST: they belong to a vector engine whatever their slot. -/
def isVectorAccess : Instr → Bool
  | .vld _ _ => true
  | .vst _ _ => true
  | _ => false

/-- The orders: a predicate disables them whatever their slot. -/
def isBelay : Instr → Bool
  | .belayRel _ _ => true
  | .belayAcq _ _ => true
  | _ => false

/-- A slot that goes runs its body unless its predicate disables it as a whole. -/
theorem slotRun_of_go (hgo : s.slotGo cmd = some (h, k, q, r)) (body : SlotHdr → KernelRun → RegFile → QSlot → State → State) :
    slotRun cmd s body = .next (if (!(isVectorAccess cmd || decide (h.slot = 2 ∨ h.slot = 3)) || isBelay cmd) && !performed h r then s.slotDone cmd h
      else body h k r q (s.slotSaved h q)) := by
  obtain ⟨hruns, hbusy, hslot, rfl⟩ := State.slotGo_elim hgo
  unfold slotRun
  rw [whenUp_of_runs hruns, hslot]
  dsimp only
  rw [hbusy, apply_ite Host.Outcome.next]
  cases cmd <;> rfl

/-- A slot whose predicate holds runs its body. -/
theorem slotRun_of_performed (hgo : s.slotGo cmd = some (h, k, q, r)) (hp : performed h r = true) (body : SlotHdr → KernelRun → RegFile → QSlot → State → State) :
    slotRun cmd s body = .next (body h k r q (s.slotSaved h q)) := by
  rw [slotRun_of_go hgo, hp]
  simp

/-- A slot of a vector engine runs its body whatever its predicate holds: predication acts on its elements. -/
theorem slotRun_of_vector (hgo : s.slotGo cmd = some (h, k, q, r)) (hv : isVectorAccess cmd = true ∨ h.slot = 2 ∨ h.slot = 3) (hb : isBelay cmd = false)
    (body : SlotHdr → KernelRun → RegFile → QSlot → State → State) : slotRun cmd s body = .next (body h k r q (s.slotSaved h q)) := by
  rw [slotRun_of_go hgo, hb]
  rcases hv with hv | hv <;> simp [hv]

/-- A slot of another engine that predication disables only leaves its queue. -/
theorem slotRun_of_disabled (hgo : s.slotGo cmd = some (h, k, q, r)) (hs : ¬(h.slot = 2 ∨ h.slot = 3)) (hv : isVectorAccess cmd = false) (hp : performed h r = false)
    (body : SlotHdr → KernelRun → RegFile → QSlot → State → State) : slotRun cmd s body = .next (s.slotDone cmd h) := by
  rw [slotRun_of_go hgo, hv, hp]
  simp [hs]

end


/-! ### What a slot that is over leaves -/

section
variable {s t : State} {cmd : Instr} {h : SlotHdr} {k : KernelRun} {q : QSlot} {r : RegFile}

theorem XWritten.of_regs {n d : Nat} {v : BitVec 64} (hregs : (t.core n).regs = (s.core n).regs.xw d v) : XWritten n d v s t := by
  refine ⟨?_, ?_, fun m hm => by rw [hregs, RegFile.xr_xw_ne _ _ hm]⟩
  · rw [hregs, RegFile.xw]
    split <;> rfl
  · rw [hregs]
    split
    next hd => simp [RegFile.xr, hd]
    next hd => exact RegFile.xr_xw_self _ _ hd

theorem PWritten.of_regs {n d : Nat} {v : BitVec 4096} (hregs : (t.core n).regs = (s.core n).regs.pw d v) : PWritten n d v s t := by
  refine ⟨?_, ?_, fun m hm => by rw [hregs, RegFile.pr_pw_ne _ _ hm]⟩
  · rw [hregs, RegFile.pw]
    split <;> rfl
  · rw [hregs]
    split
    next hd => simp [RegFile.pr, hd]
    next hd => exact RegFile.pr_pw_self _ _ hd

theorem VWritten.of_regs {n d : Nat} {v : BitVec 32768} (hregs : (t.core n).regs = (s.core n).regs.vw d v) : VWritten n d v s t :=
  ⟨by rw [hregs]; rfl, by rw [hregs, RegFile.vr_vw_self], fun m hm => by rw [hregs, RegFile.vr_vw_ne _ _ hm]⟩

/-- The end of a slot whose body set its core to `c`: what it leaves of the core's registers and status, and of everything else. -/
theorem State.slotDone_leaves (s : State) (c : Core) (cmd : Instr) (h : SlotHdr) :
    let t := (s.setCore h.core c).slotDone cmd h
    (t.core h.core).regs = c.regs ∧ (t.core h.core).flags = c.flags ∧ (t.core h.core).frm = c.frm ∧ t = { s with cores := t.cores } ∧ ∀ m, m ≠ h.core → t.core m = s.core m := by
  obtain ⟨st, kr, ht⟩ := s.slotDone_setCore c cmd h
  dsimp only
  rw [ht]
  simp only [State.core_setCore_self]
  exact ⟨rfl, rfl, rfl, rfl, fun m hm => State.core_setCore_ne _ _ hm⟩

/-- A slot whose body changed of its core at most registers, flags and the saved values of its queues is over. -/
theorem SlotOver.of_slotDone {c : Core} (hgo : s.slotGo cmd = some (h, k, q, r))
    (hc : c = { s.core h.core with kernel := c.kernel, queues := c.queues, flags := c.flags, regs := c.regs })
    (hq : (Tab.getD c.queues (engineOf cmd) []).length = (Tab.getD (s.core h.core).queues (engineOf cmd) []).length) :
    SlotOver cmd h.core s ((s.setCore h.core c).slotDone cmd h) := by
  obtain ⟨-, -, hslot, -⟩ := State.slotGo_elim hgo
  obtain ⟨-, -, hne⟩ := State.slotOf_elim hslot
  obtain ⟨-, -, -, hcores, hothers⟩ := s.slotDone_leaves c cmd h
  obtain ⟨st, kr, ht⟩ := s.slotDone_setCore c cmd h
  refine ⟨hcores, hothers, ?_, ?_⟩
  · rw [ht, State.core_setCore_self]
    have hne' : Tab.getD c.queues (engineOf cmd) [] ≠ [] := fun h0 => hne (List.length_eq_zero_iff.mp (by rw [← hq, h0]; rfl))
    exact (Core.pop_queue_length c _ hne').trans hq
  · rw [ht, State.core_setCore_self, hc]
    rfl

/-- The body that writes registers, and perhaps sticks flags, then ends its slot. -/
theorem SlotOver.of_modRegs (hgo : s.slotGo cmd = some (h, k, q, r)) (g : RegFile → RegFile) :
    let t := ((s.slotSaved h q).modRegs h.core g).slotDone cmd h
    SlotOver cmd h.core s t ∧ (t.core h.core).regs = g (s.core h.core).regs ∧ (t.core h.core).flags = (s.core h.core).flags := by
  dsimp only
  rw [State.slotSaved, State.modRegs_setCore]
  obtain ⟨hregs, hflags, -⟩ := s.slotDone_leaves { (s.core h.core).save q with regs := g ((s.core h.core).save q).regs } cmd h
  exact ⟨SlotOver.of_slotDone hgo rfl (Core.save_queue_length _ _ _), hregs, hflags⟩

theorem SlotOver.of_stick (hgo : s.slotGo cmd = some (h, k, q, r)) (g : RegFile → RegFile) (f : FFlags) :
    let t := (((s.slotSaved h q).modRegs h.core g).stick h.core q.seq f).slotDone cmd h
    SlotOver cmd h.core s t ∧ (t.core h.core).regs = g (s.core h.core).regs ∧ (t.core h.core).flags = (s.core h.core).flags ||| f.bits := by
  dsimp only
  rw [State.slotSaved, State.modRegs_setCore]
  obtain ⟨qs, hstick, hlen⟩ := s.stick_setCore h.core q.seq { (s.core h.core).save q with regs := g ((s.core h.core).save q).regs } f
  rw [hstick]
  obtain ⟨hregs, hflags, -⟩ := s.slotDone_leaves { (s.core h.core).save q with regs := g ((s.core h.core).save q).regs, flags := (s.core h.core).flags ||| f.bits, queues := qs } cmd h
  exact ⟨SlotOver.of_slotDone hgo rfl ((hlen _).trans (Core.save_queue_length _ _ _)), hregs, hflags⟩

/-- A slot that does nothing but leave its queue, from the state its body starts from. -/
theorem SlotOver.of_saved (hgo : s.slotGo cmd = some (h, k, q, r)) :
    let t := (s.slotSaved h q).slotDone cmd h
    SlotOver cmd h.core s t ∧ (t.core h.core).regs = (s.core h.core).regs ∧ (t.core h.core).flags = (s.core h.core).flags := by
  obtain ⟨hregs, hflags, -⟩ := s.slotDone_leaves ((s.core h.core).save q) cmd h
  exact ⟨SlotOver.of_slotDone hgo rfl (Core.save_queue_length _ _ _), hregs, hflags⟩

/-- A slot that predication disables as a whole leaves its queue and nothing else. -/
theorem SlotOver.of_disabled (hgo : s.slotGo cmd = some (h, k, q, r)) :
    let t := s.slotDone cmd h
    SlotOver cmd h.core s t ∧ (t.core h.core).regs = (s.core h.core).regs ∧ (t.core h.core).flags = (s.core h.core).flags := by
  have hsame : s.slotDone cmd h = (s.setCore h.core (s.core h.core)).slotDone cmd h := by
    simp [State.slotDone]
  dsimp only
  rw [hsame]
  obtain ⟨hregs, hflags, -⟩ := s.slotDone_leaves (s.core h.core) cmd h
  exact ⟨SlotOver.of_slotDone hgo rfl rfl, hregs, hflags⟩

end

/-! ### The scalar integer instructions (R356, R393) -/

theorem mulHigh_signed (a b : BitVec 64) : BitVec.ofInt 64 (a.toInt * b.toInt / 18446744073709551616) = ((a.signExtend 128 * b.signExtend 128) >>> 64).truncate 64 := by
  rw [BitVec.signExtend, BitVec.signExtend, ← BitVec.ofInt_mul]
  generalize a.toInt * b.toInt = p
  apply BitVec.eq_of_toNat_eq
  simp only [BitVec.toNat_setWidth, BitVec.toNat_ushiftRight, BitVec.toNat_ofInt, Nat.shiftRight_eq_div_pow]
  omega

theorem mulHigh_unsigned (a b : BitVec 64) : BitVec.ofNat 64 (a.toNat * b.toNat / 18446744073709551616) = ((a.zeroExtend 128 * b.zeroExtend 128) >>> 64).truncate 64 := by
  have hprod : a.toNat * b.toNat < 2 ^ 128 := by
    calc a.toNat * b.toNat < 2 ^ 64 * 2 ^ 64 := Nat.mul_lt_mul'' a.isLt b.isLt
      _ = 2 ^ 128 := rfl
  apply BitVec.eq_of_toNat_eq
  rw [BitVec.toNat_setWidth, BitVec.toNat_ushiftRight, BitVec.toNat_mul, BitVec.toNat_setWidth, BitVec.toNat_setWidth, Nat.mod_eq_of_lt (by omega : a.toNat < 2 ^ 128),
    Nat.mod_eq_of_lt (by omega : b.toNat < 2 ^ 128), Nat.mod_eq_of_lt hprod, Nat.shiftRight_eq_div_pow]
  rfl

/-- A scalar integer instruction is the write of its listed result. -/
theorem exec_of_aluResult {cmd : Instr} {r : RegFile} {d : Nat} {v : BitVec 64} (s : State) (hv : aluResult r cmd = some (d, v)) :
    isVectorAccess cmd = false ∧ ∃ val : RegFile → BitVec 64, exec cmd s = scalarSet cmd d s val ∧ val r = v := by
  unfold aluResult at hv
  split at hv
  case h_19 => exact absurd hv (by simp)
  all_goals
    injection hv with hv
    injection hv with hd hv
    subst hd hv
  next h f => have hexec : exec (.add h f) s = execAdd h f s := rfl; exact ⟨rfl, _, hexec, rfl⟩
  next h f => have hexec : exec (.sub h f) s = execSub h f s := rfl; exact ⟨rfl, _, hexec, rfl⟩
  next h f => have hexec : exec (.addi h f) s = execAddi h f s := rfl; exact ⟨rfl, _, hexec, rfl⟩
  next h f => have hexec : exec (.li h f) s = execLi h f s := rfl; exact ⟨rfl, _, hexec, rfl⟩
  next h f => have hexec : exec (.mul h f) s = execMul h f s := rfl; exact ⟨rfl, _, hexec, rfl⟩
  next h f => have hexec : exec (.mulh h f) s = execMulh h f s := rfl; exact ⟨rfl, _, hexec, mulHigh_signed _ _⟩
  next h f => have hexec : exec (.mulhu h f) s = execMulhu h f s := rfl; exact ⟨rfl, _, hexec, mulHigh_unsigned _ _⟩
  next h f => have hexec : exec (.div h f) s = execDiv h f s := rfl; exact ⟨rfl, _, hexec, rfl⟩
  next h f => have hexec : exec (.divu h f) s = execDivu h f s := rfl; exact ⟨rfl, _, hexec, rfl⟩
  next h f => have hexec : exec (.rem h f) s = execRem h f s := rfl; exact ⟨rfl, _, hexec, rfl⟩
  next h f => have hexec : exec (.and h f) s = execAnd h f s := rfl; exact ⟨rfl, _, hexec, rfl⟩
  next h f => have hexec : exec (.or h f) s = execOr h f s := rfl; exact ⟨rfl, _, hexec, rfl⟩
  next h f => have hexec : exec (.xor h f) s = execXor h f s := rfl; exact ⟨rfl, _, hexec, rfl⟩
  next h f => have hexec : exec (.shl h f) s = execShl h f s := rfl; exact ⟨rfl, _, hexec, rfl⟩
  next h f => have hexec : exec (.shr h f) s = execShr h f s := rfl; exact ⟨rfl, _, hexec, rfl⟩
  next h f => have hexec : exec (.sra h f) s = execSra h f s := rfl; exact ⟨rfl, _, hexec, rfl⟩
  next h f => have hexec : exec (.slt h f) s = execSlt h f s := rfl; exact ⟨rfl, _, hexec, by simp [BitVec.slt]⟩
  next h f => have hexec : exec (.sltu h f) s = execSltu h f s := rfl; exact ⟨rfl, _, hexec, by simp [BitVec.ult]⟩

theorem scalarSlot_run {s : State} {cmd : Instr} {h : SlotHdr} {k : KernelRun} {q : QSlot} {r : RegFile} {d : Nat} {v : BitVec 64} (hgo : s.slotGo cmd = some (h, k, q, r))
    (hp : performed h r = true) (hv : aluResult r cmd = some (d, v)) : Does cmd s fun t =>
      SlotOver cmd h.core s t ∧ XWritten h.core d v s t ∧ (t.core h.core).flags = (s.core h.core).flags := by
  obtain ⟨-, val, hexec, rfl⟩ := exec_of_aluResult s hv
  rw [scalarSet, slotRun_of_performed hgo hp] at hexec
  obtain ⟨hover, hregs, hflags⟩ := SlotOver.of_modRegs hgo fun g => g.xw d (val r)
  exact ⟨_, hexec, hover, .of_regs hregs, hflags⟩

/-- Settles O23: an integer instruction by the result it writes; NOP and disabled slots by the end of their slot. -/
theorem scalarArithmetic : Obligations.ScalarArithmetic := by
  unfold Obligations.ScalarArithmetic
  refine ⟨fun s cmd h k q r d v hgo hp hv => scalarSlot_run hgo hp hv, fun s h k q r => ⟨fun hgo => ?_, fun cmd d v hgo hp hs hv => ?_, fun f hgo hp hs => ?_, fun f hgo hp hs => ?_⟩⟩
  · have hexec : exec (.nop h) s = execNop h s := rfl
    rw [execNop, slotRun_of_go hgo, apply_ite Host.Outcome.next] at hexec
    split at hexec
    · exact ⟨_, hexec, SlotOver.of_disabled hgo⟩
    · exact ⟨_, hexec, SlotOver.of_saved hgo⟩
  · obtain ⟨hva, val, hexec, -⟩ := exec_of_aluResult s hv
    rw [scalarSet, slotRun_of_disabled hgo (by omega) hva hp] at hexec
    exact ⟨_, hexec, SlotOver.of_disabled hgo⟩
  · have hexec : exec (.mma h f) s = execMma h f s := rfl
    rw [execMma, matrixMul, slotRun_of_disabled hgo (by omega) rfl hp] at hexec
    exact ⟨_, hexec, SlotOver.of_disabled hgo⟩
  · have hexec : exec (.br h f) s = execBr h f s := rfl
    rw [execBr, slotRun_of_disabled hgo (by omega) rfl hp] at hexec
    exact ⟨_, hexec, SlotOver.of_disabled hgo⟩


/-! ### Predicates, FP32, status registers, descriptors and address conversions -/

section
variable {s : State} {h : SlotHdr} {k : KernelRun} {q : QSlot} {r : RegFile} {f : SFmt}

theorem cond64_eq (sub : Nat) (a b : BitVec 64) : sub ≤ 5 → cond64 sub a b = some (match sub with
    | 0 => decide (a = b) | 1 => decide (a ≠ b) | 2 => decide (a.toInt < b.toInt) | 3 => decide (b.toInt ≤ a.toInt)
    | 4 => decide (a.toNat < b.toNat) | _ => decide (b.toNat ≤ a.toNat)) := by
  intro hsub
  have hnot : ∀ {p q : Prop} [Decidable p] [Decidable q], (¬ p ↔ q) → (!decide p) = decide q := fun h => by rw [← decide_not, decide_eq_decide, h]
  unfold cond64
  interval_cases sub
  · rfl
  · rfl
  · rfl
  · exact congrArg some (hnot not_lt)
  · rfl
  · exact congrArg some (hnot not_lt)

theorem getLsbD_onesBelow (n i : Nat) (hi : i < 4096) : (BitVec.ofNat 4096 (2 ^ n - 1)).getLsbD i = decide (i < n) := by
  rw [BitVec.getLsbD_ofNat, Nat.testBit_two_pow_sub_one]
  simp [hi]

theorem elemBytes_cases (t : Nat) : elemBytes t = 1 ∨ elemBytes t = 2 ∨ elemBytes t = 4 ∨ elemBytes t = 8 := by
  unfold elemBytes
  split <;> simp

theorem pcmp_run (hgo : s.slotGo (.pcmp h f) = some (h, k, q, r)) (hp : performed h r = true) {b : Bool} (hb : cond64 f.sub (r.xr f.ra) (r.xr f.rb) = some b) :
    Does (.pcmp h f) s fun t => SlotOver (.pcmp h f) h.core s t ∧ PWritten h.core f.rd (if b then BitVec.allOnes 4096 else 0) s t ∧ (t.core h.core).flags = (s.core h.core).flags := by
  have hexec : exec (.pcmp h f) s = execPcmp h f s := rfl
  rw [execPcmp, slotRun_of_performed hgo hp, hb] at hexec
  obtain ⟨hover, hregs, hflags⟩ := SlotOver.of_modRegs hgo fun g => g.pw f.rd (if b then BitVec.allOnes 4096 else 0)
  exact ⟨_, hexec, hover, .of_regs hregs, hflags⟩

theorem pset_run (hgo : s.slotGo (.pset h f) = some (h, k, q, r)) (hp : performed h r = true) :
    Does (.pset h f) s fun t => ∃ v : BitVec 4096, SlotOver (.pset h f) h.core s t ∧ PWritten h.core f.rd v s t
      ∧ (∀ i < 4096, v.getLsbD i = decide (i < (r.xr f.ra).toNat * elemBytes f.type)) ∧ (t.core h.core).flags = (s.core h.core).flags := by
  have hexec : exec (.pset h f) s = execPset h f s := rfl
  rw [execPset, slotRun_of_performed hgo hp] at hexec
  obtain ⟨hover, hregs, hflags⟩ := SlotOver.of_modRegs hgo fun g => g.pw f.rd (BitVec.ofNat 4096 (2 ^ (min (r.xr f.ra).toNat (4096 / elemBytes f.type) * elemBytes f.type) - 1))
  refine ⟨_, hexec, _, hover, .of_regs hregs, fun i hi => ?_, hflags⟩
  rw [getLsbD_onesBelow _ _ hi, decide_eq_decide]
  rcases elemBytes_cases f.type with hw | hw | hw | hw <;> rw [hw] <;> omega

theorem float_run {cmd : Instr} {d : Nat} {x : FVal × FFlags} (hgo : s.slotGo cmd = some (h, k, q, r)) (hp : performed h r = true) (hx : floatResult r cmd = some (d, x)) :
    Does cmd s fun t => SlotOver cmd h.core s t ∧ XWritten h.core d (BitVec.ofNat 64 (fp32.finish (s.slotRnd h q) x).1) s t
      ∧ (t.core h.core).flags = (s.core h.core).flags ||| (fp32.finish (s.slotRnd h q) x).2.bits := by
  have hval : ∃ val, exec cmd s = scalarFloat cmd d s val ∧ val r = x := by
    unfold floatResult at hx
    split at hx
    case h_4 => exact absurd hx (by simp)
    all_goals
      injection hx with hx
      injection hx with hd hx
      subst hd hx
    next h f =>
      have hexec : exec (.fadd h f) s = execFadd h f s := rfl
      exact ⟨_, hexec, rfl⟩
    next h f =>
      have hexec : exec (.fmul h f) s = execFmul h f s := rfl
      exact ⟨_, hexec, rfl⟩
    next h f =>
      have hexec : exec (.ffma h f) s = execFfma h f s := rfl
      exact ⟨_, hexec, rfl⟩
  obtain ⟨val, hexec, rfl⟩ := hval
  rw [scalarFloat, slotRun_of_performed hgo hp, State.slotSaved, State.core_setCore_self] at hexec
  obtain ⟨hover, hregs, hflags⟩ := SlotOver.of_stick hgo (fun g => g.xw d (BitVec.ofNat 64 (fp32.finish (s.slotRnd h q) (val r)).1)) (fp32.finish (s.slotRnd h q) (val r)).2
  exact ⟨_, hexec, hover, .of_regs hregs, hflags⟩

theorem fcvt_run (hgo : s.slotGo (.fcvt h f) = some (h, k, q, r)) (hp : performed h r = true) (hsub : f.sub ≤ 8) :
    let x := convElem f.type f.sub (s.slotRnd h q) ((r.xr f.ra).toNat % 2 ^ (8 * elemBytes f.type))
    Does (.fcvt h f) s fun t => SlotOver (.fcvt h f) h.core s t ∧ XWritten h.core f.rd (extend f.sub x.1) s t ∧ (t.core h.core).flags = (s.core h.core).flags ||| x.2.bits := by
  have hexec : exec (.fcvt h f) s = execFcvt h f s := rfl
  rw [execFcvt, slotRun_of_performed hgo hp, if_neg (by omega), State.slotSaved, State.core_setCore_self] at hexec
  obtain ⟨hover, hregs, hflags⟩ := SlotOver.of_stick hgo (fun g => g.xw f.rd (extend f.sub (convElem f.type f.sub (s.slotRnd h q) ((r.xr f.ra).toNat % 2 ^ (8 * elemBytes f.type))).1))
    (convElem f.type f.sub (s.slotRnd h q) ((r.xr f.ra).toNat % 2 ^ (8 * elemBytes f.type))).2
  exact ⟨_, hexec, hover, .of_regs hregs, hflags⟩

/-- The state a body starts from shows the same status registers. -/
theorem State.statusReg_slotSaved (s : State) (h : SlotHdr) (k : KernelRun) (q : QSlot) (num : Nat) : (s.slotSaved h q).statusReg h.core k q num = s.statusReg h.core k q num := by
  unfold State.statusReg
  simp only [State.slotSaved, State.core_setCore_self]
  rfl

theorem smovs_run (hgo : s.slotGo (.smovs h f) = some (h, k, q, r)) (hp : performed h r = true) (hnum : f.imm.toNat % 256 ≠ 4) {v : BitVec 64}
    (hv : s.statusReg h.core k q (f.imm.toNat % 256) = some v) : Does (.smovs h f) s fun t =>
      SlotOver (.smovs h f) h.core s t ∧ XWritten h.core f.rd v s t ∧ (t.core h.core).flags = (s.core h.core).flags := by
  have hexec : exec (.smovs h f) s = execSmovs h f s := rfl
  rw [execSmovs, slotRun_of_performed hgo hp, State.statusReg_slotSaved, hv] at hexec
  dsimp only at hexec
  rw [if_neg hnum] at hexec
  obtain ⟨hover, hregs, hflags⟩ := SlotOver.of_modRegs hgo fun g => g.xw f.rd v
  exact ⟨_, hexec, hover, .of_regs hregs, hflags⟩

theorem smovs_counter_run (hgo : s.slotGo (.smovs h f) = some (h, k, q, r)) (hp : performed h r = true) (hnum : f.imm.toNat % 256 = 4) : Does (.smovs h f) s fun t =>
    ∃ v, XWritten h.core f.rd v s t ∧ (t.core h.core).flags = (s.core h.core).flags ∧ t.home = s.home := by
  have hexec : exec (.smovs h f) s = execSmovs h f s := rfl
  rw [execSmovs, slotRun_of_performed hgo hp, State.statusReg_slotSaved, hnum] at hexec
  have hfreed : ((s.slotSaved h q).freed.modRegs h.core fun g => g.xw f.rd (BitVec.ofNat 64 s.freeVal))
      = s.freed.setCore h.core { (s.core h.core).save q with regs := (s.core h.core).regs.xw f.rd (BitVec.ofNat 64 s.freeVal) } := by
    show (s.freed.setCore h.core ((s.core h.core).save q)).modRegs h.core _ = _
    rw [State.modRegs_setCore]
    rfl
  have hstatus : s.statusReg h.core k q 4 = some (BitVec.ofNat 64 s.freeVal) := rfl
  rw [hstatus] at hexec
  dsimp only at hexec
  rw [if_pos rfl, hfreed] at hexec
  obtain ⟨hregs, hflags, -, hcores, -⟩ := s.freed.slotDone_leaves { (s.core h.core).save q with regs := (s.core h.core).regs.xw f.rd (BitVec.ofNat 64 s.freeVal) } (.smovs h f) h
  exact ⟨_, hexec, _, .of_regs hregs, hflags, by rw [hcores]; rfl⟩

theorem smovt_flags_run (hgo : s.slotGo (.smovt h f) = some (h, k, q, r)) (hp : performed h r = true) (hnum : f.imm.toNat % 256 = 5) : Does (.smovt h f) s fun t =>
    SlotOver (.smovt h f) h.core s t ∧ (t.core h.core).flags = (r.xr f.ra).truncate 5 ∧ (t.core h.core).regs = (s.core h.core).regs := by
  have hexec : exec (.smovt h f) s = execSmovt h f s := rfl
  rw [execSmovt, slotRun_of_performed hgo hp, hnum] at hexec
  simp only [State.slotSaved, State.core_setCore_self, State.setCore_setCore] at hexec
  obtain ⟨hregs, hflags, -⟩ := s.slotDone_leaves { (s.core h.core).save q with flags := (r.xr f.ra).truncate 5 } (.smovt h f) h
  exact ⟨_, hexec, SlotOver.of_slotDone hgo rfl (Core.save_queue_length _ _ _), hflags, hregs⟩

theorem smovt_round_run (hgo : s.slotGo (.smovt h f) = some (h, k, q, r)) (hp : performed h r = true) (hnum : f.imm.toNat % 256 = 6) (hmode : (r.xr f.ra).toNat % 4 < 2) :
    Does (.smovt h f) s fun t => (t.core h.core).frm = (r.xr f.ra).truncate 2 ∧ (t.core h.core).flags = (s.core h.core).flags ∧ (t.core h.core).regs = (s.core h.core).regs := by
  have hexec : exec (.smovt h f) s = execSmovt h f s := rfl
  rw [execSmovt, slotRun_of_performed hgo hp, hnum] at hexec
  simp only [State.slotSaved, State.core_setCore_self, State.setCore_setCore, if_pos hmode] at hexec
  obtain ⟨hregs, hflags, hfrm, -⟩ := s.slotDone_leaves { (s.core h.core).save q with frm := (r.xr f.ra).truncate 2 } (.smovt h f) h
  exact ⟨_, hexec, hfrm, hflags, hregs⟩

theorem mset_run (hgo : s.slotGo (.mset h f) = some (h, k, q, r)) (hp : performed h r = true) : Does (.mset h f) s fun t => SlotOver (.mset h f) h.core s t
    ∧ (t.core h.core).regs = { (s.core h.core).regs with m := (t.core h.core).regs.m } ∧ (t.core h.core).regs.mr f.rd = tileBits (r.xr f.rb ++ r.xr f.ra)
    ∧ ∀ j, j % 16 ≠ f.rd % 16 → (t.core h.core).regs.mr j = (s.core h.core).regs.mr j := by
  have hexec : exec (.mset h f) s = execMset h f s := rfl
  rw [execMset, slotRun_of_performed hgo hp] at hexec
  obtain ⟨hover, hregs, -⟩ := SlotOver.of_modRegs hgo fun g => g.mw f.rd (tileBits (r.xr f.rb ++ r.xr f.ra))
  refine ⟨_, hexec, hover, ?_⟩
  rw [hregs]
  exact ⟨rfl, RegFile.mr_mw_self _ _ _, fun j hj => RegFile.mr_mw_ne _ _ hj⟩

theorem mget_run (hgo : s.slotGo (.mget h f) = some (h, k, q, r)) (hp : performed h r = true) (hsub : f.sub ≤ 1) : Does (.mget h f) s fun t => SlotOver (.mget h f) h.core s t
    ∧ XWritten h.core f.rd (if f.sub = 0 then (r.mr f.ra).truncate 64 else ((r.mr f.ra) >>> 64).truncate 64) s t := by
  have hexec : exec (.mget h f) s = execMget h f s := rfl
  rw [execMget, slotRun_of_performed hgo hp, if_neg (by omega)] at hexec
  obtain ⟨hover, hregs, -⟩ := SlotOver.of_modRegs hgo fun g => g.xw f.rd (BitVec.extractLsb' (64 * f.sub) 64 (r.mr f.ra))
  have hpart : BitVec.extractLsb' (64 * f.sub) 64 (r.mr f.ra) = if f.sub = 0 then (r.mr f.ra).truncate 64 else ((r.mr f.ra) >>> 64).truncate 64 := by
    generalize f.sub = n at hsub
    apply BitVec.eq_of_toNat_eq
    interval_cases n <;> simp [BitVec.extractLsb', Nat.shiftRight_eq_div_pow]
  exact ⟨_, hexec, hover, hpart ▸ .of_regs hregs⟩

theorem RegFile.reads_of_pair (g : RegFile) {rd rc : Nat} (heven : rd % 2 = 0) (lo hi : BitVec 64) (p : BitVec 4096) :
    (((g.xw rd lo).xw (rd + 1) hi).pw rc p).xr (rd + 1) = hi ∧ (rd % 32 ≠ 0 → (((g.xw rd lo).xw (rd + 1) hi).pw rc p).xr rd = lo)
      ∧ (rc % 16 ≠ 0 → (((g.xw rd lo).xw (rd + 1) hi).pw rc p).pr rc = p) := by
  have hpw : ∀ (g : RegFile) m, (g.pw rc p).xr m = g.xr m := fun g m => by
    rw [RegFile.pw]
    split <;> rfl
  refine ⟨by rw [hpw, RegFile.xr_xw_self _ _ (by omega)], fun hrd => ?_, fun hrc => RegFile.pr_pw_self _ _ hrc⟩
  rw [hpw, RegFile.xr_xw_ne _ _ (by omega), RegFile.xr_xw_self _ _ hrd]

theorem RegFile.reads_of_single (g : RegFile) {rd rc : Nat} (v : BitVec 64) (p : BitVec 4096) :
    (rd % 32 ≠ 0 → ((g.xw rd v).pw rc p).xr rd = v) ∧ (rc % 16 ≠ 0 → ((g.xw rd v).pw rc p).pr rc = p) := by
  refine ⟨fun hrd => ?_, fun hrc => RegFile.pr_pw_self _ _ hrc⟩
  have hpw : ((g.xw rd v).pw rc p).xr rd = (g.xw rd v).xr rd := by
    rw [RegFile.pw]
    split <;> rfl
  rw [hpw, RegFile.xr_xw_self _ _ hrd]

theorem pcvtH2d_run (hgo : s.slotGo (.pcvtH2d h f) = some (h, k, q, r)) (hp : performed h r = true) (hrd : f.rd % 2 = 0) (hsub : f.sub = 0) :
    let found := s.h2d (fld f.imm.toNat 1 0) (fld f.imm.toNat 9 2) (some (kernelCtx k.words)) (r.xr f.ra).toNat
    Does (.pcvtH2d h f) s fun t => SlotOver (.pcvtH2d h f) h.core s t
      ∧ (t.core h.core).regs.xr (f.rd + 1) = (match found with | some x => BitVec.ofNat 64 (s.lmf.eid + 4294967296 * x.2) | none => 0)
      ∧ (f.rd % 32 ≠ 0 → (t.core h.core).regs.xr f.rd = (match found with | some x => BitVec.ofNat 64 x.1 | none => 0))
      ∧ (f.rc % 16 ≠ 0 → (t.core h.core).regs.pr f.rc = if found.isSome then BitVec.allOnes 4096 else 0) := by
  have hexec : exec (.pcvtH2d h f) s = execPcvtH2d h f s := rfl
  have hsame : (s.slotSaved h q).h2d (fld f.imm.toNat 1 0) (fld f.imm.toNat 9 2) (some (kernelCtx k.words)) (r.xr f.ra).toNat
      = s.h2d (fld f.imm.toNat 1 0) (fld f.imm.toNat 9 2) (some (kernelCtx k.words)) (r.xr f.ra).toNat := rfl
  intro found
  rw [execPcvtH2d, slotRun_of_performed hgo hp] at hexec
  dsimp only at hexec
  rw [if_neg (by omega), hsame] at hexec
  subst found
  generalize s.h2d _ _ _ _ = found at hexec ⊢
  cases found with
  | none =>
    obtain ⟨hover, hregs, -⟩ := SlotOver.of_modRegs hgo fun g => ((g.xw f.rd 0).xw (f.rd + 1) 0).pw f.rc 0
    exact ⟨_, hexec, hover, hregs ▸ RegFile.reads_of_pair _ hrd 0 0 0⟩
  | some x =>
    obtain ⟨off, key⟩ := x
    obtain ⟨hover, hregs, -⟩ := SlotOver.of_modRegs hgo fun g =>
      ((g.xw f.rd (BitVec.ofNat 64 off)).xw (f.rd + 1) (BitVec.ofNat 64 (s.lmf.eid + 4294967296 * key))).pw f.rc (BitVec.allOnes 4096)
    exact ⟨_, hexec, hover, hregs ▸ RegFile.reads_of_pair _ hrd _ _ _⟩

theorem pcvtD2h_run (hgo : s.slotGo (.pcvtD2h h f) = some (h, k, q, r)) (hp : performed h r = true) {eid key off : Nat} (hpair : memPair r f.ra 0 = some (eid, key, off)) :
    let found := if eid = s.lmf.eid then s.d2h (fld f.imm.toNat 1 0) (fld f.imm.toNat 9 2) (some (kernelCtx k.words)) off else none
    Does (.pcvtD2h h f) s fun t => SlotOver (.pcvtD2h h f) h.core s t
      ∧ (f.rd % 32 ≠ 0 → (t.core h.core).regs.xr f.rd = (match found with | some a => BitVec.ofNat 64 a | none => 0))
      ∧ (f.rc % 16 ≠ 0 → (t.core h.core).regs.pr f.rc = if found.isSome then BitVec.allOnes 4096 else 0) := by
  have hexec : exec (.pcvtD2h h f) s = execPcvtD2h h f s := rfl
  have hsame : (if eid = (s.slotSaved h q).lmf.eid then (s.slotSaved h q).d2h (fld f.imm.toNat 1 0) (fld f.imm.toNat 9 2) (some (kernelCtx k.words)) off else none)
      = if eid = s.lmf.eid then s.d2h (fld f.imm.toNat 1 0) (fld f.imm.toNat 9 2) (some (kernelCtx k.words)) off else none := rfl
  intro found
  rw [execPcvtD2h, slotRun_of_performed hgo hp, hpair] at hexec
  dsimp only at hexec
  rw [hsame] at hexec
  subst found
  generalize (if eid = s.lmf.eid then _ else _) = found at hexec ⊢
  cases found with
  | none =>
    obtain ⟨hover, hregs, -⟩ := SlotOver.of_modRegs hgo fun g => (g.xw f.rd 0).pw f.rc 0
    exact ⟨_, hexec, hover, hregs ▸ RegFile.reads_of_single _ _ _⟩
  | some a =>
    obtain ⟨hover, hregs, -⟩ := SlotOver.of_modRegs hgo fun g => (g.xw f.rd (BitVec.ofNat 64 a)).pw f.rc (BitVec.allOnes 4096)
    exact ⟨_, hexec, hover, hregs ▸ RegFile.reads_of_single _ _ _⟩

end

/-- Settles O24: one lemma for each instruction. -/
theorem scalarSpecials : Obligations.ScalarSpecials := by
  unfold Obligations.ScalarSpecials
  intro s h k q r f hp
  exact ⟨fun hgo hsub => pcmp_run hgo hp (cond64_eq _ _ _ hsub), fun hgo => pset_run hgo hp, fun cmd d x hgo hx => float_run hgo hp hx, fun hgo hsub => fcvt_run hgo hp hsub,
    fun v hgo hnum hv => smovs_run hgo hp hnum hv, fun hgo hnum => smovs_counter_run hgo hp hnum, fun hgo hnum => smovt_flags_run hgo hp hnum,
    fun hgo hnum hmode => smovt_round_run hgo hp hnum hmode, fun hgo => mset_run hgo hp, fun hgo hsub => mget_run hgo hp hsub,
    fun hgo hrd hsub => pcvtH2d_run hgo hp hrd hsub, fun eid key off hgo hpair => pcvtD2h_run hgo hp hpair⟩


/-! ### Elements of vector registers -/

theorem getElem?_splitBits (w : Nat) {n i : Nat} (v : Nat) (hi : i < n) : (splitBits w n v)[i]? = some (v / 2 ^ (w * i) % 2 ^ w) := by
  induction n generalizing i v with
  | zero => omega
  | succ n ih =>
    cases i with
    | zero => simp [splitBits]
    | succ i => rw [splitBits, List.getElem?_cons_succ, ih _ (by omega), Nat.div_div_eq_div_mul, ← pow_add, Nat.mul_succ, Nat.add_comm w]

theorem length_splitBits (w n v : Nat) : (splitBits w n v).length = n := by
  induction n generalizing v with
  | zero => rfl
  | succ n ih => simp [splitBits, ih]

theorem packBits_lt (w : Nat) (es : List Nat) : packBits w es < 2 ^ (w * es.length) := by
  induction es with
  | nil => simp [packBits]
  | cons e es ih =>
    rw [packBits, List.length_cons, Nat.mul_succ, pow_add, Nat.mul_comm _ (2 ^ w)]
    calc e % 2 ^ w + 2 ^ w * packBits w es < 2 ^ w + 2 ^ w * packBits w es := Nat.add_lt_add_right (Nat.mod_lt _ (Nat.two_pow_pos w)) _
      _ = 2 ^ w * (packBits w es + 1) := by rw [Nat.mul_succ, Nat.add_comm]
      _ ≤ 2 ^ w * 2 ^ (w * es.length) := Nat.mul_le_mul_left _ ih

theorem packBits_lane (w : Nat) (es : List Nat) (i : Nat) : packBits w es / 2 ^ (w * i) % 2 ^ w = es[i]?.getD 0 % 2 ^ w := by
  induction es generalizing i with
  | nil => simp [packBits]
  | cons e es ih =>
    cases i with
    | zero => simp [packBits, Nat.add_mul_mod_self_left]
    | succ i =>
      rw [packBits, List.getElem?_cons_succ, ← ih i, Nat.mul_succ, Nat.add_comm (w * i), pow_add, ← Nat.div_div_eq_div_mul, Nat.add_mul_div_left _ _ (Nat.two_pow_pos w),
        Nat.div_eq_of_lt (Nat.mod_lt _ (Nat.two_pow_pos w)), Nat.zero_add]

theorem vLane_vPack {w i : Nat} {es : List Nat} (hlen : 8 * w * es.length ≤ 32768) : vLane w i (vPack w es) = es[i]?.getD 0 % 2 ^ (8 * w) := by
  have hlt : packBits (8 * w) es < 2 ^ 32768 := (packBits_lt _ es).trans_le (Nat.pow_le_pow_right (by omega) hlen)
  rw [vLane, vPack, BitVec.toNat_ofNat, Nat.mod_eq_of_lt hlt, packBits_lane]

theorem getElem?_vElems {w i : Nat} (v : BitVec 32768) (hi : i < 4096 / w) : (vElems w v)[i]? = some (vLane w i v) := getElem?_splitBits _ _ hi

theorem length_vElems (w : Nat) (v : BitVec 32768) : (vElems w v).length = 4096 / w := length_splitBits _ _ _

theorem vLane_lt (w i : Nat) (v : BitVec 32768) : vLane w i v < 2 ^ (8 * w) := Nat.mod_lt _ (Nat.two_pow_pos _)

/-- An operation bit by bit acts on each element. -/
theorem vLane_and (w i : Nat) (a b : BitVec 32768) : vLane w i (a &&& b) = vLane w i a &&& vLane w i b := by
  simp only [vLane, BitVec.toNat_and, ← Nat.shiftRight_eq_div_pow, Nat.shiftRight_and_distrib, Nat.and_mod_two_pow]

theorem vLane_or (w i : Nat) (a b : BitVec 32768) : vLane w i (a ||| b) = vLane w i a ||| vLane w i b := by
  simp only [vLane, BitVec.toNat_or, ← Nat.shiftRight_eq_div_pow, Nat.shiftRight_or_distrib, Nat.or_mod_two_pow]

theorem vLane_xor (w i : Nat) (a b : BitVec 32768) : vLane w i (a ^^^ b) = vLane w i a ^^^ vLane w i b := by
  simp only [vLane, BitVec.toNat_xor, ← Nat.shiftRight_eq_div_pow, Nat.shiftRight_xor_distrib, Nat.xor_mod_two_pow]

/-- The predicate bit of an element is the first of its bytes' bits (R353). -/
theorem getElem?_enabled {h : SlotHdr} {r : RegFile} {w i : Nat} (hw : 0 < w) (hi : i < 4096 / w) : (enabled h r w)[i]? = some (laneOn h r w i) := by
  rw [enabled, List.getElem?_map, getElem?_splitBits _ _ hi]
  have hbit : bitAt ((r.pr h.pred).toNat / 2 ^ (w * i) % 2 ^ w) 0 = (r.pr h.pred).getLsbD (w * i) := by
    rw [bitAt, Nat.testBit_mod_two_pow, Nat.testBit_div_two_pow, Nat.zero_add]
    simp [hw, BitVec.getLsbD]
  rw [Option.map_some, hbit, laneOn]

theorem length_enabled (h : SlotHdr) (r : RegFile) (w : Nat) : (enabled h r w).length = 4096 / w := by
  rw [enabled, List.length_map, length_splitBits]

theorem getElem?_mergeLanes {on : List Bool} {old new : List Nat} {i x y : Nat} {b : Bool} (hb : on[i]? = some b) (hx : old[i]? = some x) (hy : new[i]? = some y) :
    (mergeLanes on old new)[i]? = some (if b then y else x) := by
  rw [mergeLanes, List.getElem?_zipWith, hb, List.zip, List.getElem?_zipWith, hx, hy]

theorem length_mergeLanes_le (on : List Bool) (old new : List Nat) : (mergeLanes on old new).length ≤ on.length := by
  simp only [mergeLanes, List.length_zipWith]
  exact Nat.min_le_left _ _

/-- The register a vector instruction leaves: each enabled element new, each other as it was. -/
theorem vLane_merged {h : SlotHdr} {r : RegFile} {w i x : Nat} {old : BitVec 32768} {new : List Nat} (hw : 0 < w) (hi : i < 4096 / w) (hx : new[i]? = some x) :
    vLane w i (vPack w (mergeLanes (enabled h r w) (vElems w old) new)) = if laneOn h r w i then x % 2 ^ (8 * w) else vLane w i old := by
  have hlen : 8 * w * (mergeLanes (enabled h r w) (vElems w old) new).length ≤ 32768 := by
    have hle := length_mergeLanes_le (enabled h r w) (vElems w old) new
    rw [length_enabled] at hle
    calc 8 * w * (mergeLanes (enabled h r w) (vElems w old) new).length ≤ 8 * w * (4096 / w) := Nat.mul_le_mul_left _ hle
      _ = 8 * (w * (4096 / w)) := Nat.mul_assoc _ _ _
      _ ≤ 8 * 4096 := Nat.mul_le_mul_left _ (Nat.mul_div_le _ _)
  rw [vLane_vPack hlen, getElem?_mergeLanes (getElem?_enabled hw hi) (getElem?_vElems old hi) hx]
  cases laneOn h r w i
  · exact Nat.mod_eq_of_lt (vLane_lt w i old)
  · rfl

/-! ### The vector instructions that work element by element (R353, R354, R400, R401) -/

theorem flags_and_stuck (a b : BitVec 5) : a &&& (a ||| b) = a := by
  ext i
  simp
  tauto

section
variable {s : State} {cmd : Instr} {h : SlotHdr} {k : KernelRun} {q : QSlot} {r : RegFile}

/-- An instruction that computes a list of elements writes those that are enabled. -/
theorem vecOp_run {w d : Nat} {val : RegFile → Rnd → List (Nat × FFlags)} {x : Nat → Nat} (hgo : s.slotGo cmd = some (h, k, q, r)) (hs : h.slot = 2 ∨ h.slot = 3)
    (hb : isBelay cmd = false) (hw : 0 < w) (hexec : exec cmd s = vecOp cmd w d s val)
    (hx : ∀ i < 4096 / w, ((val r (s.slotRnd h q)).map Prod.fst)[i]? = some (x i)) : Does cmd s fun t =>
      ∃ v, SlotOver cmd h.core s t ∧ VWritten h.core d v s t ∧ (s.core h.core).flags &&& (t.core h.core).flags = (s.core h.core).flags
        ∧ ∀ i < 4096 / w, vLane w i v = if laneOn h r w i then x i % 2 ^ (8 * w) else vLane w i (r.vr d) := by
  rw [vecOp, slotRun_of_vector hgo (.inr hs) hb, State.slotSaved, State.core_setCore_self] at hexec
  obtain ⟨hover, hregs, hflags⟩ := SlotOver.of_stick hgo
    (fun g => g.vw d (vPack w (mergeLanes (enabled h r w) (vElems w (r.vr d)) ((val r (s.slotRnd h q)).map Prod.fst))))
    (laneFlags (enabled h r w) ((val r (s.slotRnd h q)).map Prod.snd))
  exact ⟨_, hexec, _, hover, .of_regs hregs, (congrArg _ hflags).trans (flags_and_stuck _ _), fun i hi => vLane_merged hw hi (hx i hi)⟩

theorem elemBytes_pos (t : Nat) : 0 < elemBytes t := by
  rcases elemBytes_cases t with hw | hw | hw | hw <;> omega


theorem getElem?_zipWith_vElems {β : Type} (g : Nat → Nat → β) {w i : Nat} (a b : BitVec 32768) (hi : i < 4096 / w) :
    (List.zipWith g (vElems w a) (vElems w b))[i]? = some (g (vLane w i a) (vLane w i b)) := by
  rw [List.getElem?_zipWith, getElem?_vElems a hi, getElem?_vElems b hi]

theorem getElem?_map_vElems {β : Type} (g : Nat → β) {w i : Nat} (a : BitVec 32768) (hi : i < 4096 / w) : ((vElems w a).map g)[i]? = some (g (vLane w i a)) := by
  rw [List.getElem?_map, getElem?_vElems a hi, Option.map_some]

/-- What an element-by-element instruction has to show: the list it computes holds each element's listed result. -/
def LanesComputed (cmd : Instr) (s : State) (r : RegFile) (m : Rnd) (w d : Nat) (x : Nat → Nat) : Prop :=
  isBelay cmd = false ∧ 0 < w ∧ ∃ val : RegFile → Rnd → List (Nat × FFlags), exec cmd s = vecOp cmd w d s val ∧ ∀ i < 4096 / w, ((val r m).map Prod.fst)[i]? = some (x i)

variable {w d : Nat} {x : Nat → Nat} {m : Rnd} {f : VFmt}

theorem LanesComputed.of_list {t d' : Nat} {y : Nat → Nat} {val : RegFile → Rnd → List (Nat × FFlags)} (hb : isBelay cmd = false) (hexec : exec cmd s = vecOp cmd (elemBytes t) d' s val)
    (hx : ∀ i, some (elemBytes t, d', y i) = some (w, d, x i)) (hval : ∀ i < 4096 / elemBytes t, ((val r m).map Prod.fst)[i]? = some (y i)) : LanesComputed cmd s r m w d x := by
  obtain ⟨hw, hd, -⟩ : elemBytes t = w ∧ d' = d ∧ y 0 = x 0 := by simpa using hx 0
  have hy : ∀ i, y i = x i := fun i => by
    have h := hx i
    simp only [Option.some.injEq, Prod.mk.injEq] at h
    exact h.2.2
  subst hw hd
  exact ⟨hb, elemBytes_pos t, val, hexec, fun i hi => by rw [hval i hi, hy i]⟩

theorem LanesComputed.of_arith {op : Nat} {fi : Int → Int → Int} {ff : FVal → FVal → FVal × FFlags} (hb : isBelay cmd = false) (hexec : exec cmd s = vecArith cmd op f s fi ff)
    (hx : ∀ i, some (elemBytes f.type, f.vd, (arith2 op f.type fi ff m (vLane (elemBytes f.type) i (r.vr f.va)) (vLane (elemBytes f.type) i (r.vr f.vb))).1) = some (w, d, x i)) :
    LanesComputed cmd s r m w d x := by
  rw [vecArith] at hexec
  refine .of_list hb hexec hx fun i hi => ?_
  rw [List.getElem?_map, getElem?_zipWith_vElems _ _ _ hi, Option.map_some]

theorem LanesComputed.of_bits {g : Nat → Nat → Nat} (hb : isBelay cmd = false) (hexec : exec cmd s = vecBits cmd f s g)
    (hx : ∀ i, some (elemBytes f.type, f.vd, g (vLane (elemBytes f.type) i (r.vr f.va)) (vLane (elemBytes f.type) i (r.vr f.vb))) = some (w, d, x i)) : LanesComputed cmd s r m w d x := by
  rw [vecBits] at hexec
  refine .of_list hb hexec hx fun i hi => ?_
  rw [List.getElem?_map, getElem?_zipWith_vElems _ _ _ hi, Option.map_some]

theorem LanesComputed.of_map {g : Nat → Nat} (hb : isBelay cmd = false) (hexec : exec cmd s = vecMap cmd f s g)
    (hx : ∀ i, some (elemBytes f.type, f.vd, g (vLane (elemBytes f.type) i (r.vr f.va))) = some (w, d, x i)) : LanesComputed cmd s r m w d x := by
  rw [vecMap] at hexec
  refine .of_list hb hexec hx fun i hi => ?_
  rw [List.getElem?_map, getElem?_map_vElems _ _ hi, Option.map_some]

theorem LanesComputed.of_fn {g : BitVec 32 → Nat × FFlags} (hb : isBelay cmd = false) (hexec : exec cmd s = vecFn cmd f s g)
    (hx : ∀ i, some (elemBytes f.type, f.vd, fnLane f.type m g (vLane (elemBytes f.type) i (r.vr f.va))) = some (w, d, x i)) : LanesComputed cmd s r m w d x := by
  rw [vecFn] at hexec
  refine .of_list hb hexec hx fun i hi => ?_
  rw [List.getElem?_map, getElem?_map_vElems _ _ hi, Option.map_some, fnLane]
  split <;> rfl

theorem LanesComputed.vfma {h : SlotHdr} (hx : ∀ i, laneResult h r m i (.vfma h f) = some (w, d, x i)) : LanesComputed (.vfma h f) s r m w d x := by
  have hexec : exec (.vfma h f) s = execVfma h f s := rfl
  rw [execVfma] at hexec
  refine .of_list rfl hexec hx fun i hi => ?_
  rw [List.getElem?_map, List.getElem?_zipWith, getElem?_vElems _ hi, List.zip, getElem?_zipWith_vElems _ _ _ hi]
  rfl

theorem LanesComputed.vsel {h : SlotHdr} (hx : ∀ i, laneResult h r m i (.vsel h f) = some (w, d, x i)) : LanesComputed (.vsel h f) s r m w d x := by
  have hexec : exec (.vsel h f) s = execVsel h f s := rfl
  rw [execVsel] at hexec
  refine .of_list rfl hexec hx fun i hi => ?_
  have hbit : bitAt ((r.pr f.pd).toNat / 2 ^ (elemBytes f.type * i) % 2 ^ elemBytes f.type) 0 = (r.pr f.pd).getLsbD (elemBytes f.type * i) := by
    rw [bitAt, Nat.testBit_mod_two_pow, Nat.testBit_div_two_pow, Nat.zero_add]
    simp [elemBytes_pos, BitVec.getLsbD]
  rw [List.getElem?_map, List.getElem?_zipWith, getElem?_splitBits _ _ hi, List.zip, getElem?_zipWith_vElems _ _ _ hi]
  dsimp only [Option.map_some]
  rw [hbit]

theorem LanesComputed.vbcast {h : SlotHdr} (hx : ∀ i, laneResult h r m i (.vbcast h f) = some (w, d, x i)) : LanesComputed (.vbcast h f) s r m w d x := by
  have hexec : exec (.vbcast h f) s = execVbcast h f s := rfl
  rw [execVbcast] at hexec
  refine .of_list rfl hexec hx fun i hi => ?_
  rw [List.getElem?_map, List.getElem?_replicate, if_pos hi, Option.map_some]

theorem LanesComputed.vshr {h : SlotHdr} (hx : ∀ i, laneResult h r m i (.vshr h f) = some (w, d, x i)) : LanesComputed (.vshr h f) s r m w d x := by
  have hexec : exec (.vshr h f) s = execVshr h f s := rfl
  rw [execVshr] at hexec
  have hsub : f.sub = 0 ∨ f.sub = 1 := by
    have h0 := hx 0
    simp only [laneResult] at h0
    split at h0
    next h => exact .inl h
    · split at h0
      next h => exact .inr h
      · exact absurd h0 (by simp)
  rw [if_neg (by omega)] at hexec
  refine .of_bits rfl hexec fun i => ?_
  rw [← hx i]
  simp only [laneResult]
  rcases hsub with hsub | hsub <;> rw [hsub] <;> rfl

theorem LanesComputed.of_laneResult {h : SlotHdr} : ∀ cmd, (∀ i, laneResult h r m i cmd = some (w, d, x i)) → LanesComputed cmd s r m w d x := by
  intro cmd hx
  have h0 := hx 0
  revert hx
  unfold laneResult at h0
  split at h0 <;> intro hx
  next h f =>
    have hexec : exec (.vadd h f) s = execVadd h f s := rfl
    exact .of_arith rfl hexec hx
  next h f =>
    have hexec : exec (.vsub h f) s = execVsub h f s := rfl
    exact .of_arith rfl hexec hx
  next h f =>
    have hexec : exec (.vmul h f) s = execVmul h f s := rfl
    exact .of_arith rfl hexec hx
  next h f =>
    have hexec : exec (.vmin h f) s = execVmin h f s := rfl
    exact .of_arith rfl hexec hx
  next h f =>
    have hexec : exec (.vmax h f) s = execVmax h f s := rfl
    exact .of_arith rfl hexec hx
  next h f => exact .vfma hx
  next h f =>
    have hexec : exec (.vand h f) s = execVand h f s := rfl
    exact .of_bits rfl hexec fun i => by rw [← vLane_and]; exact hx i
  next h f =>
    have hexec : exec (.vor h f) s = execVor h f s := rfl
    exact .of_bits rfl hexec fun i => by rw [← vLane_or]; exact hx i
  next h f =>
    have hexec : exec (.vxor h f) s = execVxor h f s := rfl
    exact .of_bits rfl hexec fun i => by rw [← vLane_xor]; exact hx i
  next h f =>
    have hexec : exec (.vabs h f) s = execVabs h f s := rfl
    exact .of_map rfl hexec hx
  next h f =>
    have hexec : exec (.vneg h f) s = execVneg h f s := rfl
    exact .of_map rfl hexec hx
  next h f =>
    have hexec : exec (.vshl h f) s = execVshl h f s := rfl
    exact .of_bits rfl hexec hx
  next h f => exact .vshr hx
  next h f => exact .vsel hx
  next h f => exact .vbcast hx
  next h f =>
    have hexec : exec (.vexp2 h f) s = execVexp2 h f s := rfl
    exact .of_fn rfl hexec hx
  next h f =>
    have hexec : exec (.vrcp h f) s = execVrcp h f s := rfl
    exact .of_fn rfl hexec hx
  next h f =>
    have hexec : exec (.vrsqrt h f) s = execVrsqrt h f s := rfl
    exact .of_fn rfl hexec hx
  · exact absurd h0 (by simp)

end

/-- Settles O26: each instruction computes the list of its elements' results, and the enabled ones are written. -/
theorem vectorLanes : Obligations.VectorLanes := by
  unfold Obligations.VectorLanes
  intro s cmd h k q r w d x hgo hs hx
  obtain ⟨hb, hw, val, hexec, hval⟩ := LanesComputed.of_laneResult (s := s) cmd hx
  exact vecOp_run hgo hs hb hw hexec hval


/-! ### What a read leaves of the cores -/

theorem State.cores_foldl {α : Type} {f : State → α → State} (h : ∀ s a, (f s a).cores = s.cores) (l : List α) (s : State) : (l.foldl f s).cores = s.cores :=
  State.foldl_cores f h l s

@[simp] theorem State.cores_emit (s : State) (o : Out) : (s.emit o).cores = s.cores := by
  rfl

@[simp] theorem State.cores_event (s : State) (hw : Nat) (idx : Nat) (n : Nat) (ctx : Option Nat) : (s.event hw idx n ctx).cores = s.cores := by
  rfl

@[simp] theorem State.cores_setPages (s : State) (t : Tab Handle) : (s.setPages t).cores = s.cores := by
  rfl

@[simp] theorem State.cores_modPage (s : State) (ref : PageRef) (f : TierPage → TierPage) : (s.modPage ref f).cores = s.cores := by
  rfl

@[simp] theorem State.cores_nvmeIo (s : State) (slot : Nat) (op : NvmeOp) (lba : Nat) (n : Nat) : (s.nvmeIo slot op lba n).cores = s.cores := by
  unfold State.nvmeIo
  (repeat' split) <;> simp 

@[simp] theorem State.cores_t2Get (s : State) (ref : PageRef) : (s.t2Get ref).cores = s.cores := by
  unfold State.t2Get
  split <;> simp

@[simp] theorem State.cores_memEvent (s : State) (layer : Nat) (idx : Nat) (n : Nat) (ref : PageRef) : (s.memEvent layer idx n ref).cores = s.cores := by
  rfl

@[simp] theorem State.cores_touch (s : State) (port : Bool) (ref : PageRef) (off : Nat) (n : Nat) : (s.touch port ref off n).cores = s.cores := by
  unfold State.touch
  simp [apply_ite State.cores, State.cores_foldl]
  (repeat' split) <;> simp [apply_ite State.cores, State.cores_foldl]

@[simp] theorem State.cores_touchRange (s : State) (port : Bool) (rid : Nat) (v : View) (off n : Nat) : (s.touchRange port rid v off n).cores = s.cores := by
  refine State.cores_foldl (fun s q => ?_) _ _
  (repeat' split) <;> simp

@[simp] theorem State.cores_issueTxn (s : State) (x : Txn) : (s.issueTxn x).cores = s.cores := by
  unfold State.issueTxn
  simp [apply_ite State.cores, State.cores_foldl]
  (repeat' split) <;> simp [apply_ite State.cores, State.cores_foldl]

@[simp] theorem State.cores_sendTxn (s : State) (what : TxnUse) (ctx : Nat) (eid : Nat) (op : Nat) (key : Nat) (off : Nat) (ckey : Nat) (data : Bytes) (idem : Bool) : (s.sendTxn what ctx eid op key off ckey data idem).cores = s.cores := by
  simp [State.sendTxn]

@[simp] theorem State.cores_sendLender (s : State) (what : TxnUse) (e : Extent) (off : Nat) (n : Nat) (data : Option Bytes) : (s.sendLender what e off n data).cores = s.cores := by
  unfold State.sendLender
  (repeat' split) <;> simp [apply_ite State.cores, State.cores_foldl]

@[simp] theorem State.cores_fetchTL (s : State) (ref : PageRef) (off : Nat) (n : Nat) : (s.fetchTL ref off n).cores = s.cores := by
  unfold State.fetchTL
  (repeat' split) <;> simp [apply_ite State.cores, State.cores_foldl]

@[simp] theorem State.cores_fetchT2 (s : State) (ref : PageRef) : (s.fetchT2 ref).cores = s.cores := by
  unfold State.fetchT2
  (repeat' split) <;> simp

@[simp] theorem State.cores_readEvent (s : State) (ref : PageRef) (n : Nat) : (s.readEvent ref n).cores = s.cores := by
  unfold State.readEvent
  (repeat' split) <;> simp

@[simp] theorem State.cores_readDone (s : State) (port : Bool) (rid : Nat) (v : View) (off n : Nat) : (s.readDone port rid v off n).cores = s.cores := by
  unfold State.readDone
  dsimp only
  rw [State.cores_touchRange, State.cores_foldl]
  intros
  (repeat' split) <;> simp


/-! ### The runs of bytes that predication enables -/

/-- A byte lies in one of the runs. -/
def InRuns (rs : List (Nat × Nat)) (y : Nat) : Prop := ∃ x ∈ rs, x.1 ≤ y ∧ y < x.1 + x.2

theorem inRuns_cons (o n : Nat) (rs : List (Nat × Nat)) (y : Nat) : InRuns ((o, n) :: rs) y ↔ (o ≤ y ∧ y < o + n) ∨ InRuns rs y := by
  simp [InRuns]

/-- A byte lies in the runs exactly if its element is enabled. -/
theorem inRuns_runsOf {w : Nat} (hw : 0 < w) (on : List Bool) (b y : Nat) : InRuns (runsOf w on b) y ↔ b ≤ y ∧ on[(y - b) / w]? = some true := by
  induction on generalizing b with
  | nil => simp [runsOf, InRuns]
  | cons e on ih =>
    have hshift : (b ≤ y ∧ (e :: on)[(y - b) / w]? = some true) ↔ (b ≤ y ∧ y < b + w ∧ e = true) ∨ InRuns (runsOf w on (b + w)) y := by
      rw [ih]
      by_cases h1 : b + w ≤ y
      · rw [show y - b = y - (b + w) + w by omega, Nat.add_div_right _ hw, List.getElem?_cons_succ]
        simp [h1, show b ≤ y by omega, show ¬ y < b + w by omega]
      · by_cases h2 : b ≤ y
        · rw [Nat.div_eq_of_lt (by omega : y - b < w), List.getElem?_cons_zero]
          simp [h1, h2, show y < b + w by omega]
        · simp [h1, h2]
    rw [hshift]
    cases e with
    | false => rw [runsOf]; simp
    | true =>
      rw [runsOf, eq_self, and_true]
      split
      next o n rest heq =>
        rw [heq, inRuns_cons, ← or_assoc]
        split
        next ho =>
          rw [inRuns_cons]
          refine or_congr_left ?_
          omega
        · rw [inRuns_cons, inRuns_cons, ← or_assoc]
      next heq =>
        rw [heq, inRuns_cons]

theorem runsOf_within {w : Nat} (on : List Bool) (b : Nat) : ∀ x ∈ runsOf w on b, b ≤ x.1 ∧ x.1 + x.2 ≤ b + w * on.length := by
  induction on generalizing b with
  | nil => simp [runsOf]
  | cons e on ih =>
    have hlen : b + w * (e :: on).length = b + w + w * on.length := by rw [List.length_cons, Nat.mul_succ]; omega
    have hrest : ∀ x ∈ runsOf w on (b + w), b ≤ x.1 ∧ x.1 + x.2 ≤ b + w + w * on.length := fun x hx => by
      have h := ih (b + w) x hx
      omega
    rw [hlen]
    cases e with
    | false => rw [runsOf]; exact hrest
    | true =>
      rw [runsOf]
      split
      next o n rest heq =>
        rw [heq] at hrest
        have hfirst := hrest _ List.mem_cons_self
        have hothers := fun x hx => hrest x (List.mem_cons_of_mem _ hx)
        split
        · intro x hx
          rcases List.mem_cons.mp hx with rfl | hx
          · dsimp only at hfirst ⊢
            omega
          · exact hothers x hx
        · intro x hx
          rcases List.mem_cons.mp hx with rfl | hx
          · dsimp only
            omega
          · exact hrest x hx
      · intro x hx
        rw [List.mem_singleton.mp hx]
        dsimp only
        omega

theorem runsOf_all (w n b : Nat) : runsOf w (List.replicate (n + 1) true) b = [(b, (n + 1) * w)] := by
  induction n generalizing b with
  | zero => simp [runsOf]
  | succ n ih =>
    rw [List.replicate_succ, runsOf, ih]
    simp only [if_pos]
    rw [Nat.succ_mul (n + 1)]

/-- Bytes written run by run, each run holding what `g` says at its place: the bytes of the runs hold it, and no other changes. -/
theorem Mem.read_foldl_runs (base : Nat) {data : Nat × Nat → Bytes} {g : Nat → Byte} (rs : List (Nat × Nat)) (m : Mem)
    (hdata : ∀ x ∈ rs, (data x).length = x.2 ∧ ∀ j < x.2, (data x)[j]? = some (g (x.1 + j))) (y : Nat) :
    (InRuns rs y → Mem.read (rs.foldl (fun m x => Mem.writeN m (base + x.1) (data x)) m) (base + y) = g y)
      ∧ (¬ InRuns rs y → Mem.read (rs.foldl (fun m x => Mem.writeN m (base + x.1) (data x)) m) (base + y) = Mem.read m (base + y)) := by
  induction rs generalizing m with
  | nil => simp [InRuns]
  | cons x rs ih =>
    obtain ⟨o, n⟩ := x
    obtain ⟨hlen, hget⟩ := hdata _ List.mem_cons_self
    obtain ⟨hin, hout⟩ := ih (Mem.writeN m (base + o) (data (o, n))) fun x hx => hdata x (List.mem_cons_of_mem _ hx)
    have hwrite : Mem.read (Mem.writeN m (base + o) (data (o, n))) (base + y) = if o ≤ y ∧ y < o + n then g y else Mem.read m (base + y) := by
      rw [Mem.read_writeN, hlen]
      by_cases hy : o ≤ y ∧ y < o + n
      · rw [if_pos (by omega), if_pos hy, List.getD_eq_getElem?_getD, hget _ (by omega)]
        rw [show o + (base + y - (base + o)) = y by omega]
        rfl
      · rw [if_neg (by omega), if_neg hy]
    rw [inRuns_cons, List.foldl_cons]
    by_cases hrest : InRuns rs y
    · exact ⟨fun _ => hin hrest, fun h => absurd (.inr hrest) h⟩
    · rw [hout hrest, hwrite]
      refine ⟨fun h => if_pos (h.resolve_right hrest), fun h => if_neg fun hy => h (.inl hy)⟩

theorem Mem.read_foldl_below {base : Nat} {data : Nat × Nat → Bytes} (rs : List (Nat × Nat)) (m : Mem) {z : Nat} (hz : ∀ x ∈ rs, z < base + x.1 ∨ base + x.1 + (data x).length ≤ z) :
    Mem.read (rs.foldl (fun m x => Mem.writeN m (base + x.1) (data x)) m) z = Mem.read m z := by
  induction rs generalizing m with
  | nil => rfl
  | cons x rs ih => rw [List.foldl_cons, ih _ fun y hy => hz y (List.mem_cons_of_mem _ hy), Mem.read_writeN_outside _ _ (hz x List.mem_cons_self)]

/-! ### Bytes of a vector register -/

theorem leNat_eq_packBits (bs : Bytes) : leNat bs = packBits 8 (bs.map BitVec.toNat) := by
  induction bs with
  | nil => rfl
  | cons b bs ih =>
    rw [leNat, ih, List.map_cons, packBits, Nat.mod_eq_of_lt b.isLt]
    rfl

/-- Byte `b` of a register made of bytes. -/
theorem vLane_leNat {bs : Bytes} (hlen : bs.length = 4096) (b : Nat) : vLane 1 b (BitVec.ofNat 32768 (leNat bs)) = (bs[b]?.map BitVec.toNat).getD 0 := by
  have hpack := vLane_vPack (w := 1) (i := b) (es := bs.map BitVec.toNat) (by simp [hlen])
  rw [leNat_eq_packBits]
  refine hpack.trans ?_
  rw [List.getElem?_map]
  cases bs[b]? with
  | none => rfl
  | some x => exact Nat.mod_eq_of_lt x.isLt

theorem getElem?_natLE {n b : Nat} (v : Nat) (hb : b < n) : (natLE n v)[b]? = some (BitVec.ofNat 8 (v / 2 ^ (8 * b))) := by
  induction n generalizing b v with
  | zero => omega
  | succ n ih =>
    cases b with
    | zero => simp [natLE]
    | succ b => rw [natLE, List.getElem?_cons_succ, ih _ (by omega), Nat.div_div_eq_div_mul, show 256 = 2 ^ 8 from rfl, ← pow_add, Nat.mul_succ, Nat.add_comm 8]

/-- The bytes of a register laid out in a memory from 0. -/
theorem read_registerBytes (v : BitVec 32768) {b : Nat} (hb : b < 4096) : (Mem.read (Mem.writeN [] 0 (natLE 4096 v.toNat)) b).toNat = vLane 1 b v := by
  rw [Mem.read_writeN, if_pos (by simp [hb]), List.getD_eq_getElem?_getD, Nat.sub_zero, getElem?_natLE _ hb, Option.getD_some, BitVec.toNat_ofNat]
  rfl

/-- A register whose runs take the bytes `got` holds there. -/
theorem vLane_fillRuns (rs : List (Nat × Nat)) (old : BitVec 32768) (got : Mem) {b : Nat} (hb : b < 4096) :
    (InRuns rs b → vLane 1 b (fillRuns rs old got) = (Mem.read got b).toNat) ∧ (¬ InRuns rs b → vLane 1 b (fillRuns rs old got) = vLane 1 b old) := by
  have hlane : vLane 1 b (fillRuns rs old got)
      = (Mem.read (rs.foldl (fun m x => Mem.writeN m x.1 (Mem.readN got x.1 x.2)) (Mem.writeN [] 0 (natLE 4096 old.toNat))) b).toNat := by
    unfold fillRuns Mem.leRead
    rw [vLane_leNat (Mem.readN_length _ _ _), Mem.readN_get _ _ _ _ hb, Nat.zero_add]
    rfl
  have hruns := Mem.read_foldl_runs 0 (data := fun x => Mem.readN got x.1 x.2) (g := Mem.read got) rs (Mem.writeN [] 0 (natLE 4096 old.toNat))
    (fun x _ => ⟨Mem.readN_length _ _ _, fun j hj => Mem.readN_get _ _ _ _ hj⟩) b
  simp only [Nat.zero_add] at hruns
  obtain ⟨hin, hout⟩ := hruns
  exact ⟨fun h => by rw [hlane, hin h], fun h => by rw [hlane, hout h, read_registerBytes _ hb]⟩

/-- What `rebase` holds of the bytes of the runs. -/
theorem read_rebase (rs : List (Nat × Nat)) (base : Nat) (got : Mem) {y : Nat} (hy : InRuns rs y) : Mem.read (rebase rs base got) y = Mem.read got (base + y) := by
  have hruns := Mem.read_foldl_runs 0 (data := fun x => Mem.readN got (base + x.1) x.2) (g := fun y => Mem.read got (base + y)) rs []
    (fun x _ => ⟨Mem.readN_length _ _ _, fun j hj => by rw [Mem.readN_get _ _ _ _ hj, Nat.add_assoc]⟩) y
  simp only [Nat.zero_add] at hruns
  exact hruns.1 hy


/-! ### Vector loads and stores (R353, R354, R387 to R389, R405) -/

section
variable {s : State} {h : SlotHdr} {k : KernelRun} {q : QSlot} {r : RegFile} {f : LFmt}

/-- The runs of an access. -/
def accessRuns (h : SlotHdr) (r : RegFile) (w : Nat) : List (Nat × Nat) := runsOf w (enabled h r w) 0

theorem mul_div_elemBytes (t : Nat) : elemBytes t * (4096 / elemBytes t) = 4096 := by
  rcases elemBytes_cases t with hw | hw | hw | hw <;> rw [hw]

theorem inRuns_access (t : Nat) {b : Nat} (hb : b < 4096) : InRuns (accessRuns h r (elemBytes t)) b ↔ laneOn h r (elemBytes t) (b / elemBytes t) = true := by
  have hlane : b / elemBytes t < 4096 / elemBytes t := by
    rw [Nat.div_lt_iff_lt_mul (elemBytes_pos t), Nat.mul_comm, mul_div_elemBytes]
    exact hb
  rw [accessRuns, inRuns_runsOf (elemBytes_pos t), Nat.sub_zero, getElem?_enabled (elemBytes_pos t) hlane]
  simp

theorem accessRuns_within (t : Nat) : ∀ x ∈ accessRuns h r (elemBytes t), x.1 + x.2 ≤ 4096 := fun x hx => by
  have hle := (runsOf_within _ _ x hx).2
  rwa [length_enabled, mul_div_elemBytes, Nat.zero_add] at hle

theorem runsOf_pos {w : Nat} (hw : 0 < w) (on : List Bool) (b : Nat) : ∀ x ∈ runsOf w on b, 0 < x.2 := by
  induction on generalizing b with
  | nil => simp [runsOf]
  | cons e on ih =>
    cases e with
    | false => rw [runsOf]; exact ih _
    | true =>
      rw [runsOf]
      split
      next o n rest heq =>
        have hrest := ih (b + w)
        rw [heq] at hrest
        split
        · intro x hx
          rcases List.mem_cons.mp hx with rfl | hx
          · exact Nat.add_pos_right _ hw
          · exact hrest x (List.mem_cons_of_mem _ hx)
        · intro x hx
          rcases List.mem_cons.mp hx with rfl | hx
          · exact hw
          · exact hrest x hx
      · intro x hx
        rw [List.mem_singleton.mp hx]
        exact hw

/-- There is nothing to move exactly if no element takes part. -/
theorem accessRuns_eq_nil (t : Nat) : accessRuns h r (elemBytes t) = [] ↔ ∀ b < 4096, laneOn h r (elemBytes t) (b / elemBytes t) = false := by
  refine ⟨fun hnil b hb => ?_, fun hoff => ?_⟩
  · rw [← Bool.not_eq_true, ← inRuns_access t hb, hnil]
    simp [InRuns]
  · refine List.eq_nil_iff_forall_not_mem.mpr fun x hx => ?_
    have hpos := runsOf_pos (elemBytes_pos t) _ _ x hx
    have hwithin := accessRuns_within t x hx
    have hon := (inRuns_access t (b := x.1) (by omega)).mp ⟨x, hx, Nat.le_refl _, by omega⟩
    rw [hoff x.1 (by omega)] at hon
    exact absurd hon (by simp)

/-- With P0 and no negation every element takes part, in one run. -/
theorem accessRuns_whole (t : Nat) (hpred : h.pred = 0) (hneg : h.pneg = false) : accessRuns h r (elemBytes t) = [(0, 4096)] := by
  have hon : enabled h r (elemBytes t) = List.replicate (4096 / elemBytes t) true := by
    refine List.ext_getElem? fun i => ?_
    by_cases hi : i < 4096 / elemBytes t
    · have hbit : elemBytes t * i < 4096 := by
        rw [← mul_div_elemBytes t]
        exact Nat.mul_lt_mul_of_pos_left hi (elemBytes_pos t)
      rw [getElem?_enabled (elemBytes_pos t) hi, List.getElem?_replicate, if_pos hi, laneOn, hpred, hneg, RegFile.pr_zero, BitVec.getLsbD_allOnes, decide_eq_true hbit]
      rfl
    · rw [List.getElem?_eq_none (by rw [length_enabled]; omega), List.getElem?_eq_none (by rw [List.length_replicate]; omega)]
  rw [accessRuns, hon]
  obtain ⟨n, hn⟩ : ∃ n, 4096 / elemBytes t = n + 1 := Nat.exists_eq_succ_of_ne_zero (by rcases elemBytes_cases t with hw | hw | hw | hw <;> rw [hw] <;> decide)
  rw [hn, runsOf_all, ← hn, Nat.mul_comm, mul_div_elemBytes]

theorem vld_tile_none (hgo : s.slotGo (.vld h f) = some (h, k, q, r)) (hon : accessRuns h r (elemBytes f.type) = []) (htile : f.sub = 1) :
    Does (.vld h f) s fun t => SlotOver (.vld h f) h.core s t ∧ (t.core h.core).regs = (s.core h.core).regs := by
  have hexec : exec (.vld h f) s = execVld h f s := rfl
  rw [execVld, slotRun_of_vector hgo (.inl rfl) rfl] at hexec
  dsimp only at hexec
  rw [← accessRuns, if_neg (by omega), if_pos htile, if_pos hon] at hexec
  obtain ⟨hover, hregs, -⟩ := SlotOver.of_saved hgo
  exact ⟨_, hexec, hover, hregs⟩

theorem vst_tile_none (hgo : s.slotGo (.vst h f) = some (h, k, q, r)) (hon : accessRuns h r (elemBytes f.type) = []) (htile : f.sub = 1) :
    Does (.vst h f) s fun t => SlotOver (.vst h f) h.core s t ∧ (t.core h.core).regs = (s.core h.core).regs := by
  have hexec : exec (.vst h f) s = execVst h f s := rfl
  rw [execVst, slotRun_of_vector hgo (.inl rfl) rfl] at hexec
  dsimp only at hexec
  rw [← accessRuns, if_neg (by omega), if_pos htile, hon] at hexec
  obtain ⟨hover, hregs, -⟩ := SlotOver.of_saved hgo
  exact ⟨_, hexec, hover, hregs⟩

theorem accessRuns_tileOk {t a : Nat} (hin : a + 4096 ≤ tsUsed k.words) : (accessRuns h r (elemBytes t)).all (fun x => tileOk k (a + x.1) x.2) = true := by
  refine List.all_eq_true.mpr fun x hx => decide_eq_true ?_
  have hwithin := accessRuns_within t x hx
  omega

/-- A load from the tile store takes each enabled byte from its place. -/
theorem vld_tile (hgo : s.slotGo (.vld h f) = some (h, k, q, r)) (htile : f.sub = 1) (hon : accessRuns h r (elemBytes f.type) ≠ []) (hin : tileAddr r f.ra f.imm + 4096 ≤ tsUsed k.words) :
    Does (.vld h f) s fun t => ∃ v, SlotOver (.vld h f) h.core s t ∧ VWritten h.core f.vd v s t
      ∧ ∀ b < 4096, vLane 1 b v = if laneOn h r (elemBytes f.type) (b / elemBytes f.type) then leNat (s.tileRead h.core (tileAddr r f.ra f.imm + b) 1) else vLane 1 b (r.vr f.vd) := by
  have hexec : exec (.vld h f) s = execVld h f s := rfl
  rw [execVld, slotRun_of_vector hgo (.inl rfl) rfl] at hexec
  dsimp only at hexec
  rw [← accessRuns, if_neg (by omega), if_pos htile, if_neg hon, if_pos (accessRuns_tileOk hin), State.slotSaved, State.core_setCore_self] at hexec
  obtain ⟨hover, hregs, -⟩ := SlotOver.of_modRegs hgo fun g =>
    g.vw f.vd (fillRuns (accessRuns h r (elemBytes f.type)) (r.vr f.vd) (rebase (accessRuns h r (elemBytes f.type)) (tileAddr r f.ra f.imm) (s.core h.core).tile))
  refine ⟨_, hexec, _, hover, .of_regs hregs, fun b hb => ?_⟩
  obtain ⟨hin, hout⟩ := vLane_fillRuns (accessRuns h r (elemBytes f.type)) (r.vr f.vd) (rebase (accessRuns h r (elemBytes f.type)) (tileAddr r f.ra f.imm) (s.core h.core).tile) hb
  rw [inRuns_access f.type hb] at hin hout
  split
  next h1 =>
    rw [hin h1, read_rebase _ _ _ ((inRuns_access f.type hb).mpr h1)]
    simp [State.tileRead, Mem.readN, leNat]
  next h1 => exact hout h1

theorem State.tileWrite_foldl (s : State) (c : Core) (n : Nat) (a : Nat) (data : Nat × Nat → Bytes) (rs : List (Nat × Nat)) :
    rs.foldl (fun (s : State) x => s.tileWrite n (a + x.1) (data x)) (s.setCore n c) = s.setCore n { c with tile := rs.foldl (fun m x => Mem.writeN m (a + x.1) (data x)) c.tile } := by
  induction rs generalizing c with
  | nil => rfl
  | cons x rs ih =>
    rw [List.foldl_cons, State.tileWrite, State.core_setCore_self, State.setCore_setCore, ih]
    rfl

/-- A store to the tile store puts each enabled byte in its place. -/
theorem vst_tile (hgo : s.slotGo (.vst h f) = some (h, k, q, r)) (htile : f.sub = 1) (hin : tileAddr r f.ra f.imm + 4096 ≤ tsUsed k.words) :
    let a := tileAddr r f.ra f.imm
    Does (.vst h f) s fun t => t = { s with cores := t.cores } ∧ (t.core h.core).regs = (s.core h.core).regs
      ∧ (∀ b < 4096, leNat (t.tileRead h.core (a + b) 1)
          = if laneOn h r (elemBytes f.type) (b / elemBytes f.type) then vLane 1 b (r.vr f.vd) else leNat (s.tileRead h.core (a + b) 1))
      ∧ ∀ b, b < a ∨ a + 4096 ≤ b → Mem.read (t.core h.core).tile b = Mem.read (s.core h.core).tile b := by
  intro a
  have hexec : exec (.vst h f) s = execVst h f s := rfl
  rw [execVst, slotRun_of_vector hgo (.inl rfl) rfl] at hexec
  dsimp only at hexec
  rw [← accessRuns, if_neg (by omega), if_pos htile, if_pos (accessRuns_tileOk hin), State.slotSaved, State.tileWrite_foldl] at hexec
  obtain ⟨st, kr, ht⟩ := s.slotDone_setCore { (s.core h.core).save q with
    tile := (accessRuns h r (elemBytes f.type)).foldl (fun m x => Mem.writeN m (a + x.1) (Mem.readN (Mem.writeN [] 0 (natLE 4096 (r.vr f.vd).toNat)) x.1 x.2)) (s.core h.core).tile }
    (.vst h f) h
  have hexec : exec (.vst h f) s = .next _ := hexec.trans (congrArg Host.Outcome.next ht)
  refine ⟨_, hexec, rfl, by rw [State.core_setCore_self]; rfl, fun b hb => ?_, fun z hz => ?_⟩
  · rw [State.tileRead, State.core_setCore_self]
    obtain ⟨hruns, hout⟩ := Mem.read_foldl_runs a (data := fun x => Mem.readN (Mem.writeN [] 0 (natLE 4096 (r.vr f.vd).toNat)) x.1 x.2)
      (accessRuns h r (elemBytes f.type)) (s.core h.core).tile (fun x _ => ⟨Mem.readN_length _ _ _, fun j hj => Mem.readN_get _ _ _ _ hj⟩) b
    rw [inRuns_access f.type hb] at hruns hout
    rw [Mem.readN, Mem.readN, leNat, leNat, Nat.mul_zero, Nat.add_zero]
    split
    next h1 => exact (congrArg BitVec.toNat (hruns h1)).trans (read_registerBytes _ hb)
    next h1 =>
      rw [State.tileRead, Mem.readN, Mem.readN, leNat, leNat, Nat.mul_zero, Nat.add_zero]
      exact congrArg BitVec.toNat (hout h1)
  · rw [State.core_setCore_self]
    refine Mem.read_foldl_below _ _ fun x hx => ?_
    have hwithin := accessRuns_within f.type x hx
    rw [Mem.readN_length]
    omega

/-! ### Accesses of this controller's memory -/

section
variable {eid key o rid : Nat} {rg : Region}

theorem State.region?_of_permit {u : State} {n : Nat} {need : Rights} {i : Issuer} (hpermit : u.permit eid key o n need i = some (rid, rg)) :
    u.region? rid = some rg ∧ rg.inside o n = true := by
  obtain ⟨hlive, hlo, hhi, -⟩ := State.permit_some hpermit
  obtain ⟨-, hregion, -⟩ := State.live_some hlive
  exact ⟨hregion, by simp [Region.inside, hlo, hhi]⟩

/-- A read of one range in one piece, where nothing stops it. -/
theorem State.slotMove_read {n : Nat} (u : State) (cmd : Instr) (body : Nat → Mem → State → State) (hown : u.isOwn eid = true)
    (hpermit : u.permit eid key o n needR (u.kernelIssuer k) = some (rid, rg)) (hgate : u.gate rid rg = none) (hmode : rg.mode ≠ .coherent) (hparts : u.slotParts h.core cmd = (0, []))
    (hmet : u.meetRead rid rg (u.kernelView k rid o n) o n = .clear) :
    u.slotMove cmd h k q eid key [(o, n)] none false body
      = body rid (Mem.writeN [] o (u.slotRead (coreUnit h.core (engineOf cmd)) k rid rg o n).2) (u.slotRead (coreUnit h.core (engineOf cmd)) k rid rg o n).1 := by
  obtain ⟨hregion, hinside⟩ := State.region?_of_permit hpermit
  have hpart : u.partMet k rid rg false false (o, n) = .clear := by
    rw [State.partMet, if_neg (by simp), hmet]
  rw [State.slotMove, if_pos hown, State.slotOwn]
  simp only [Option.isSome_none, Bool.false_eq_true, if_false, hpermit, List.all_cons, List.all_nil, Bool.and_true, hinside, Bool.not_true, hgate, decide_eq_false hmode, List.find?_cons, hpart,
    ne_eq, not_true_eq_false, decide_false, List.find?_nil, hparts, List.drop_zero, State.partsRun, hregion]

/-- A write of one range in one piece, where nothing stops it. -/
theorem State.slotMove_write {n : Nat} (u : State) (cmd : Instr) (data : Nat → Nat → Bytes) (body : Nat → Mem → State → State) (hown : u.isOwn eid = true)
    (hpermit : u.permit eid key o n needW (u.kernelIssuer k) = some (rid, rg)) (hgate : u.gate rid rg = none) (hmode : rg.mode ≠ .coherent) (hparts : u.slotParts h.core cmd = (0, []))
    (hmet : u.meetWrite rid rg (.shadowed (u.kernelIssuer k)) o n = .clear) :
    u.slotMove cmd h k q eid key [(o, n)] (some data) false body = body rid [] (u.slotWrite (coreUnit h.core (engineOf cmd)) h.core k rid rg o (data o n)) := by
  obtain ⟨hregion, hinside⟩ := State.region?_of_permit hpermit
  have hpart : u.partMet k rid rg true false (o, n) = .clear := by
    rw [State.partMet, if_pos rfl, hmet]
  rw [State.slotMove, if_pos hown, State.slotOwn]
  simp only [Option.isSome_some, if_true, hpermit, List.all_cons, List.all_nil, Bool.and_true, hinside, Bool.not_true, hgate, decide_eq_false hmode, List.find?_cons, hpart,
    ne_eq, not_true_eq_false, decide_false, List.find?_nil, hparts, List.drop_zero, State.partsRun, hregion, Bool.false_eq_true, if_false]

end

theorem pieces_of_twoPages {off n : Nat} (hpage : (off + n - 1) / 65536 = off / 65536 + 1) :
    pieces off n = [(off, (off / 65536 + 1) * 65536 - off), ((off / 65536 + 1) * 65536, off + n - (off / 65536 + 1) * 65536)] := by
  have hn : n ≠ 0 := by omega
  have htwo : (off + n - 1) / 65536 + 1 - off / 65536 = 2 := by omega
  rw [pieces, pagesOf, if_neg hn, htwo]
  simp only [upto, List.range_succ, List.range_zero, List.nil_append, List.cons_append, List.map_cons, List.map_nil, List.cons.injEq, Prod.mk.injEq, and_true]
  omega

/-- A register's worth of bytes is read whole. -/
theorem State.length_readRange_register (s : State) (rg : Region) (v : View) (o : Nat) : (s.readRange rg v o 4096).length = 4096 := by
  have hpiece : ∀ q : Nat × Nat, (match s.viewRef rg (q.1 / 65536) v with
      | none => List.replicate q.2 0
      | some ref => match s.page? ref with
        | some pg => Mem.readN pg.bytes (q.1 % 65536) q.2
        | none => List.replicate q.2 0).length = q.2 := fun q => by
    split
    · exact List.length_replicate
    · split
      · exact Mem.readN_length _ _ _
      · exact List.length_replicate
  have hsum : (s.readRange rg v o 4096).length = ((pieces o 4096).map Prod.snd).sum := by
    rw [State.readRange, List.length_flatMap]
    exact congrArg List.sum (List.map_congr_left fun q _ => hpiece q)
  rw [hsum]
  by_cases hpage : o / 65536 = (o + 4096 - 1) / 65536
  · rw [pieces_of_onePage (by omega) hpage]
    rfl
  · rw [pieces_of_twoPages (by omega)]
    simp only [List.map_cons, List.map_nil, List.sum_cons, List.sum_nil]
    omega

/-- A register filled whole takes the bytes read. -/
theorem fillRuns_whole (old : BitVec 32768) (o : Nat) {bs : Bytes} (hlen : bs.length = 4096) :
    fillRuns [(0, 4096)] old (rebase [(0, 4096)] o (Mem.writeN [] o bs)) = BitVec.ofNat 32768 (leNat bs) := by
  have hread : ∀ m a, Mem.readN (Mem.writeN m a bs) a 4096 = bs := fun m a => hlen ▸ Mem.readN_writeN_self m a bs
  unfold fillRuns rebase Mem.leRead
  simp only [List.foldl_cons, List.foldl_nil, Nat.add_zero, hread]

/-- A whole register is read from this controller's memory where nothing stops it. -/
theorem vld_memory {eid key o rid : Nat} {rg : Region} (hgo : s.slotGo (.vld h f) = some (h, k, q, r)) (hsub : f.sub = 0) (hpred : h.pred = 0) (hneg : h.pneg = false)
    (hpair : memPair r f.ra f.imm = some (eid, key, o)) (halign : o % elemBytes f.type = 0) (hown : s.isOwn eid = true) (hgate : s.gate rid rg = none) (hmode : rg.mode ≠ .coherent)
    (hparts : s.slotParts h.core (.vld h f) = (0, [])) (hpermit : s.permit eid key o 4096 needR (s.kernelIssuer k) = some (rid, rg))
    (hmet : (s.slotSaved h q).meetRead rid rg (s.kernelView k rid o 4096) o 4096 = .clear) :
    Does (.vld h f) s fun t => VWritten h.core f.vd (BitVec.ofNat 32768 (leNat (s.readRange rg (s.kernelView k rid o 4096) o 4096))) s t := by
  have hexec : exec (.vld h f) s = execVld h f s := rfl
  have hsaved : (s.slotSaved h q).slotParts h.core (.vld h f) = (0, []) := by
    rw [← hparts, State.slotParts, State.slotSaved, State.core_setCore_self]
    rfl
  rw [execVld, slotRun_of_vector hgo (.inl rfl) rfl] at hexec
  dsimp only at hexec
  rw [← accessRuns, accessRuns_whole f.type hpred hneg, if_neg (by omega), if_neg (by omega), hpair] at hexec
  dsimp only at hexec
  rw [if_neg (by simp), if_neg (by omega), List.map_singleton, Nat.add_zero,
    State.slotMove_read (s.slotSaved h q) (.vld h f) _ hown hpermit hgate hmode hsaved hmet] at hexec
  have hcores : ((s.slotSaved h q).slotRead (coreUnit h.core (engineOf (.vld h f))) k rid rg o 4096).1.core h.core = (s.core h.core).save q := by
    rw [State.slotRead, State.core, State.cores_event, State.cores_readDone, ← State.core, State.slotSaved, State.core_setCore_self]
  rw [State.modRegs, hcores] at hexec
  obtain ⟨hregs, -⟩ := State.slotDone_leaves _ _ (.vld h f) h
  refine ⟨_, hexec, .of_regs (hregs.trans ?_)⟩
  exact congrArg (RegFile.vw (s.core h.core).regs f.vd) (fillRuns_whole (r.vr f.vd) o (State.length_readRange_register s rg (s.kernelView k rid o 4096) o))

/-- A whole register is written to this controller's memory where nothing stops it. -/
theorem vst_memory {eid key o rid : Nat} {rg : Region} (hgo : s.slotGo (.vst h f) = some (h, k, q, r)) (hsub : f.sub = 0) (hpred : h.pred = 0) (hneg : h.pneg = false)
    (hpair : memPair r f.ra f.imm = some (eid, key, o)) (halign : o % elemBytes f.type = 0) (hown : s.isOwn eid = true) (hgate : s.gate rid rg = none) (hmode : rg.mode ≠ .coherent)
    (hparts : s.slotParts h.core (.vst h f) = (0, [])) (hpermit : s.permit eid key o 4096 needW (s.kernelIssuer k) = some (rid, rg))
    (hmet : (s.slotSaved h q).meetWrite rid rg (.shadowed (s.kernelIssuer k)) o 4096 = .clear) :
    exec (.vst h f) s = .next (((s.slotSaved h q).slotWrite (coreUnit h.core (engineOf (.vst h f))) h.core k rid rg o (natLE 4096 (r.vr f.vd).toNat)).slotDone (.vst h f) h) := by
  have hexec : exec (.vst h f) s = execVst h f s := rfl
  have hsaved : (s.slotSaved h q).slotParts h.core (.vst h f) = (0, []) := by
    rw [← hparts, State.slotParts, State.slotSaved, State.core_setCore_self]
    rfl
  have hdata : Mem.readN (Mem.writeN [] 0 (natLE 4096 (r.vr f.vd).toNat)) 0 4096 = natLE 4096 (r.vr f.vd).toNat := by
    have h := Mem.readN_writeN_self [] 0 (natLE 4096 (r.vr f.vd).toNat)
    rwa [natLE_length] at h
  rw [execVst, slotRun_of_vector hgo (.inl rfl) rfl] at hexec
  dsimp only at hexec
  rw [← accessRuns, accessRuns_whole f.type hpred hneg, if_neg (by omega), if_neg (by omega), hpair] at hexec
  dsimp only at hexec
  rw [if_neg (by simp), if_neg (by omega), List.map_singleton, Nat.add_zero,
    State.slotMove_write (s.slotSaved h q) (.vst h f) _ _ hown hpermit hgate hmode hsaved hmet, Nat.sub_self, hdata] at hexec
  exact hexec

end

/-- Settles O28: the accesses of the tile store by the bytes of their runs, those of memory as one piece. -/
theorem vectorMemory : Obligations.VectorMemory := by
  unfold Obligations.VectorMemory
  intro s h k q r f
  refine ⟨fun cmd hcmd hgo hnone htile => ?_, fun hgo hsome htile hin => ?_, fun hgo htile hin => vst_tile hgo htile hin,
    fun eid key o rid rg hsub hpred hneg hpair halign hown hgate => ⟨fun hgo hmode hparts hpermit hmet => ?_, fun hgo hmode hparts hpermit hmet => ?_⟩⟩
  · have hon := (accessRuns_eq_nil f.type).mpr hnone
    simp only [List.mem_cons, List.not_mem_nil, or_false] at hcmd
    obtain rfl | rfl := hcmd
    · exact vld_tile_none hgo hon htile
    · exact vst_tile_none hgo hon htile
  · exact vld_tile hgo htile (fun hnil => hsome ((accessRuns_eq_nil f.type).mp hnil)) hin
  · exact vld_memory hgo hsub hpred hneg hpair halign hown hgate hmode hparts hpermit hmet
  · exact vst_memory hgo hsub hpred hneg hpair halign hown hgate hmode hparts hpermit hmet


/-! ### Control (R352, R374, R419 to R422) -/

section
variable {s : State} {h : SlotHdr} {k : KernelRun} {q : QSlot} {r : RegFile} {f : CFmt}

/-- The end of a slot of a core that is not stalled takes the slot out of its queue, and does nothing else. -/
theorem State.slotDone_of_not_stalled (s : State) {c : Core} (cmd : Instr) (h : SlotHdr) (hst : c.st ≠ .stalled) :
    (s.setCore h.core c).slotDone cmd h = s.setCore h.core (c.pop (engineOf cmd)) := by
  unfold State.slotDone State.unstall
  simp only [State.core_setCore_self, State.setCore_setCore]
  rw [if_neg (by simp [Core.pop, hst])]

theorem branchTo_run {cmd : Instr} {target : Int} (hk : (s.core h.core).kernel = some k) (hst : (s.core h.core).st = .running) (halign : target % 128 = 0) (hlo : 0 ≤ target)
    (hhi : target < wAt k.words 5) :
    let t := branchTo cmd h k q target (s.slotSaved h q)
    ∃ x, (t.core h.core).kernel = some x ∧ (x.pos : Int) = target ∧ (t.core h.core).regs = (s.core h.core).regs ∧ t = { s with cores := t.cores } := by
  dsimp only
  rw [branchTo, if_neg (by omega), if_neg (by omega), State.slotSaved]
  dsimp only
  rw [State.core_setCore_self, State.setCore_setCore, State.slotDone_of_not_stalled]
  · rw [State.core_setCore_self]
    refine ⟨{ k with pos := target.toNat }, ?_, Int.toNat_of_nonneg hlo, rfl, rfl⟩
    show Option.map _ (s.core h.core).kernel = _
    rw [hk]
    rfl
  · show (s.core h.core).st ≠ _
    rw [hst]
    decide

theorem waitcnt_run (hgo : s.slotGo (.waitcnt h f) = some (h, k, q, r)) (hp : performed h r = true) (hsub : f.sub ≤ 2) {ctr : Counter}
    (hctr : s.counterOf ((r.xr f.ra).toNat % 2 ^ 32) (s.kernelIssuer k) = some ctr) :
    let w : Wait := { id := s.nextId, ckey := (r.xr f.ra).toNat % 2 ^ 32, sel := f.sub, tBytes := (r.xr f.rb).toNat, tPkts := (r.xr f.rc).toNat, who := .core h.core, eid := s.lmf.eid,
                      ctx := kernelCtx k.words }
    (w.holds ctr = true → Does (.waitcnt h f) s fun t => SlotOver (.waitcnt h f) h.core s t ∧ (t.core h.core).waitId = (s.core h.core).waitId)
      ∧ (w.holds ctr = false → Does (.waitcnt h f) s fun t => (t.core h.core).waitId = some s.nextId ∧ w ∈ t.home.waits ∧ t.home.counters = s.home.counters) := by
  intro w
  have hexec : exec (.waitcnt h f) s = execWaitcnt h f s := rfl
  have hctr' : (s.slotSaved h q).counterOf ((r.xr f.ra).toNat % 4294967296) ((s.slotSaved h q).kernelIssuer k) = some ctr := hctr
  rw [execWaitcnt, slotRun_of_performed hgo hp] at hexec
  dsimp only at hexec
  rw [if_neg (by omega), hctr'] at hexec
  dsimp only at hexec
  refine ⟨fun hholds => ?_, fun hholds => ?_⟩
  · have hexec : exec (.waitcnt h f) s = .next _ := hexec.trans (congrArg Host.Outcome.next (if_pos hholds))
    obtain ⟨hover, -⟩ := SlotOver.of_saved hgo
    obtain ⟨-, -, -, hcore⟩ := id hover
    have hwait := congrArg Core.waitId hcore
    exact ⟨_, hexec, hover, hwait⟩
  · have hexec : exec (.waitcnt h f) s = .next _ := hexec.trans (congrArg Host.Outcome.next (if_neg (ne_true_of_eq_false hholds)))
    rw [State.slotSaved, State.core_setCore_self, State.setCore_setCore] at hexec
    obtain ⟨st, kr, ht⟩ := ({ s with nextId := s.nextId + 1, home.waits := s.home.waits ++ [w] } : State).slotDone_setCore { (s.core h.core).save q with waitId := some s.nextId } (.waitcnt h f) h
    have hexec : exec (.waitcnt h f) s = .next _ := hexec.trans (congrArg Host.Outcome.next ht)
    exact ⟨_, hexec, by rw [State.core_setCore_self]; rfl, List.mem_append_right _ List.mem_cons_self, rfl⟩

theorem halt_run (hgo : s.slotGo (.halt h f) = some (h, k, q, r)) (hp : performed h r = true) (hst : (s.core h.core).st = .running) :
    Does (.halt h f) s fun t => (t.core h.core).st = .draining ∧ (t.core h.core).regs = (s.core h.core).regs ∧ t = { s with cores := t.cores } := by
  have hexec : exec (.halt h f) s = execHalt h f s := rfl
  rw [execHalt, slotRun_of_performed hgo hp] at hexec
  dsimp only at hexec
  rw [State.slotSaved, State.core_setCore_self, State.setCore_setCore, if_neg, State.slotDone_of_not_stalled] at hexec
  · refine ⟨_, hexec, ?_⟩
    dsimp only
    rw [State.core_setCore_self]
    exact ⟨rfl, rfl, rfl⟩
  · dsimp only
    decide
  · show ¬(s.core h.core).st = _
    rw [hst]
    decide

theorem waitcntWake_run {c : Nat} {w : Wait} {ctr : Counter} (hruns : s.runs = true) (hid : (s.core c).waitId = some w.id)
    (hw : s.home.waits.find? (fun x => decide (x.id = w.id)) = some w) (hctr : Tab.get? s.home.counters (keyIdx w.ckey) = some ctr) :
    (w.holds ctr = true → Does (.waitcntWake c) s fun t => (t.core c).waitId = none ∧ (∀ x ∈ t.home.waits, x.id ≠ w.id) ∧ t.home.counters = s.home.counters)
      ∧ (w.holds ctr = false → exec (.waitcntWake c) s = .next s) := by
  have hexec : exec (.waitcntWake c) s = execWaitcntWake c s := rfl
  rw [execWaitcntWake, whenUp_of_runs hruns] at hexec
  dsimp only at hexec
  rw [hid] at hexec
  dsimp only at hexec
  rw [hw] at hexec
  dsimp only at hexec
  rw [hctr] at hexec
  dsimp only at hexec
  refine ⟨fun hholds => ?_, fun hholds => hexec.trans (if_neg (by rw [hholds]; decide))⟩
  rw [if_pos hholds] at hexec
  refine ⟨_, hexec, ?_, fun x hx => of_decide_eq_true (List.mem_filter.mp hx).2, rfl⟩
  show ((s.setCore c _).core c).waitId = none
  rw [State.core_setCore_self]

end

/-- Settles O32: branches by where they go, WAITCNT and its wake by the condition. -/
theorem controlFlow : Obligations.ControlFlow := by
  unfold Obligations.ControlFlow
  refine ⟨fun s h k q r f hp hk hst => ⟨fun hgo halign hlo hhi => ?_, fun hgo halign hhi => ?_, fun ctr hgo hsub hctr => waitcnt_run hgo hp hsub hctr, fun hgo => halt_run hgo hp hst⟩,
    fun s c w ctr hruns hid hw hctr => waitcntWake_run hruns hid hw hctr⟩
  · have hexec : exec (.br h f) s = execBr h f s := rfl
    rw [execBr, slotRun_of_performed hgo hp] at hexec
    exact ⟨_, hexec, branchTo_run hk hst halign hlo hhi⟩
  · have hexec : exec (.brx h f) s = execBrx h f s := rfl
    rw [execBrx, slotRun_of_performed hgo hp] at hexec
    exact ⟨_, hexec, branchTo_run hk hst (by omega) (by omega) (by omega)⟩

end Sys2Proof.Machine

/-! PROOF. O29, O30: transfers and orders of the Slaica core. What reads, writes, captures and transactions leave of the cores; then the events of a transfer and of an order. -/

namespace Sys2Proof.Machine

/-! ### What a write, a capture and a transaction leave of the cores -/

@[simp] theorem State.cores_traceFor (s : State) (selected : Bool) (die : Nat) (typ : Nat) (slots : Nat) (time : Nat) (body : List Word) : (s.traceFor selected die typ slots time body).cores = s.cores := by
  rfl

@[simp] theorem State.cores_cairnAt (s : State) (hw : Nat) (code : Nat) (ctx : Nat) (payload : Nat) (time : Nat) : (s.cairnAt hw code ctx payload time).cores = s.cores := by
  unfold State.cairnAt
  split <;> simp 

@[simp] theorem State.cores_cairn (s : State) (hw : Nat) (code : Nat) (ctx : Nat) (payload : Nat) : (s.cairn hw code ctx payload).cores = s.cores := by
  simp [State.cairn]

@[simp] theorem State.cores_strataEvent (s : State) (idx : Nat) (n : Nat) : (s.strataEvent idx n).cores = s.cores := by
  rfl

@[simp] theorem State.cores_workEnd (s : State) (hw : Nat) (ctx : Nat) (st : Status) (exc : Nat) : (s.workEnd hw ctx st exc).cores = s.cores := by
  simp [State.workEnd]

@[simp] theorem State.cores_release (s : State) (f : HoldWhy → Bool) : (s.release f).cores = s.cores := by
  rfl

@[simp] theorem State.cores_sweepTables (s : State) : (s.sweepTables).cores = s.cores := by
  rfl

@[simp] theorem State.cores_chooseTable (s : State) (rid : Nat) (r : Region) (bytes : Bytes) : (s.chooseTable rid r bytes).1.cores = s.cores := by
  unfold State.chooseTable
  simp [apply_ite State.cores, State.cores_foldl]
  (repeat' split) <;> simp [apply_ite State.cores, State.cores_foldl]

@[simp] theorem State.cores_nvmeAll (s : State) (op : NvmeOp) (lba : Nat) (n : Nat) : (s.nvmeAll op lba n).cores = s.cores := by
  simp [State.nvmeAll, apply_ite State.cores, State.cores_foldl]

@[simp] theorem State.cores_stripesOut (s : State) (n : Nat) : (s.stripesOut n).cores = s.cores := by
  induction n generalizing s with
  | zero => rfl
  | succ n ih =>
    unfold State.stripesOut
    split <;> simp [ih]

@[simp] theorem State.cores_t2Put (s : State) (im : Image) : (s.t2Put im).cores = s.cores := by
  simp [State.t2Put]

@[simp] theorem State.cores_encoderRan (s : State) (ref : PageRef) (p : TierPage) (im : Image) : (s.encoderRan ref p im).cores = s.cores := by
  simp [State.encoderRan]

@[simp] theorem State.cores_encodeGroup (s : State) (rid : Nat) (refs : List PageRef) (b : TierPage → Backing) (place : Image → TierPage → TierPage) :
    (s.encodeGroup rid refs b place).cores = s.cores := by
  unfold State.encodeGroup
  split
  · rfl
  · dsimp only
    rw [State.cores_sweepTables, State.cores_foldl, State.cores_chooseTable]
    intro s ref
    (repeat' split) <;> simp 

@[simp] theorem State.cores_writeBackNow (s : State) (ref : PageRef) : (s.writeBackNow ref).cores = s.cores := by
  unfold State.writeBackNow
  split <;> simp

@[simp] theorem State.cores_evict (s : State) (e : PageRef × TierPage) : (s.evict e).cores = s.cores := by
  unfold State.evict
  split <;> simp

@[simp] theorem State.cores_roomT0 (s : State) : (s.roomT0).cores = s.cores := by
  unfold State.roomT0
  (repeat' split) <;> simp

@[simp] theorem State.cores_fillT0 (s : State) (ref : PageRef) : (s.fillT0 ref).cores = s.cores := by
  unfold State.fillT0
  (repeat' split) <;> simp

@[simp] theorem State.cores_allocate (s : State) (rid : Nat) (p : Nat) (r : Region) : (s.allocate rid p r).cores = s.cores := by
  unfold State.allocate
  split <;> simp 

@[simp] theorem State.cores_ensurePage (s : State) (rid : Nat) (p : Nat) : (s.ensurePage rid p).cores = s.cores := by
  unfold State.ensurePage
  (repeat' split) <;> simp

@[simp] theorem State.cores_commit (s : State) : (s.commit).cores = s.cores := by
  rfl

@[simp] theorem State.cores_makeShadow (s : State) (rid : Nat) (p : Nat) (i : Issuer) : (s.makeShadow rid p i).cores = s.cores := by
  unfold State.makeShadow
  simp [apply_ite State.cores, State.cores_foldl]
  (repeat' split) <;> simp [apply_ite State.cores, State.cores_foldl]

@[simp] theorem State.cores_trimWriters (s : State) : (s.trimWriters).cores = s.cores := by
  rfl

@[simp] theorem State.cores_collect (s : State) (h : Nat) : (s.collect h).cores = s.cores := by
  unfold State.collect
  (repeat' split) <;> simp

@[simp] theorem State.cores_hold (s : State) (h : Nat) (holder : Nat) : (s.hold h holder).cores = s.cores := by
  rfl

@[simp] theorem State.cores_unhold (s : State) (h : Nat) (holder : Nat) : (s.unhold h holder).cores = s.cores := by
  simp [State.unhold]

@[simp] theorem State.cores_holdZero (s : State) (rid : Nat) (p : Nat) (holder : Nat) : (s.holdZero rid p holder).cores = s.cores := by
  rfl

@[simp] theorem State.cores_capturePages (s : State) (holder : Nat) (ps : List (Nat × Nat)) : (s.capturePages holder ps).1.cores = s.cores := by
  simp [State.capturePages, apply_ite State.cores, State.cores_foldl]

@[simp] theorem State.cores_capture (s : State) (holder : Nat) (ranges : List (Nat × Nat × Nat)) : (s.capture holder ranges).1.cores = s.cores := by
  simp [State.capture]

@[simp] theorem State.cores_uncapture (s : State) (holder : Nat) (caps : Caps) : (s.uncapture holder caps).cores = s.cores := by
  unfold State.uncapture
  rw [State.cores_foldl] <;> intros
  all_goals try split
  all_goals simp

@[simp] theorem State.cores_putRef (s : State) (ref : PageRef) (off : Nat) (data : Bytes) : (s.putRef ref off data).cores = s.cores := by
  simp [State.putRef, apply_ite State.cores, State.cores_foldl]

@[simp] theorem State.cores_directMap (s : State) (rid p off n : Nat) (f : Bytes → Bytes) : (s.directMap rid p off n f).cores = s.cores := by
  unfold State.directMap
  dsimp only
  (repeat' split)
  · simp
  · simp
  · rw [State.cores_foldl (fun s ref => ?_), State.cores_ensurePage]
    (repeat' split) <;> simp

@[simp] theorem State.cores_write1 (s : State) (rid : Nat) (w : Way) (off : Nat) (data : Bytes) : (s.write1 rid w off data).cores = s.cores := by
  unfold State.write1
  simp [apply_ite State.cores, State.cores_foldl]
  (repeat' split) <;> simp [apply_ite State.cores, State.cores_foldl]

@[simp] theorem State.cores_writePieces (s : State) (rid : Nat) (w : Way) (data : Bytes) (off : Nat) (ps : List (Nat × Nat)) :
    (s.writePieces rid w data off ps).cores = s.cores := by
  induction ps generalizing s with
  | nil => rfl
  | cons p ps ih => simp [State.writePieces, ih]

@[simp] theorem State.cores_writeRange (s : State) (rid : Nat) (w : Way) (off : Nat) (data : Bytes) : (s.writeRange rid w off data).cores = s.cores := by
  simp [State.writeRange]

@[simp] theorem State.cores_setLine (s : State) (rid : Nat) (ln : Nat) (l : Line) : (s.setLine rid ln l).cores = s.cores := by
  rfl

@[simp] theorem State.cores_freeLine (s : State) (rid : Nat) (ln : Nat) : (s.freeLine rid ln).cores = s.cores := by
  unfold State.freeLine
  (repeat' split) <;> simp 

@[simp] theorem State.cores_tidyLine (s : State) (rid : Nat) (ln : Nat) : (s.tidyLine rid ln).cores = s.cores := by
  unfold State.tidyLine
  (repeat' split) <;> simp 

@[simp] theorem State.cores_served (s : State) (rid : Nat) (ln : Nat) (eid : Nat) : (s.served rid ln eid).cores = s.cores := by
  unfold State.served
  (repeat' split) <;> simp

@[simp] theorem State.cores_claim (s : State) (cmd : Instr) : (s.claim cmd).cores = s.cores := by
  simp [State.claim, apply_ite State.cores, State.cores_foldl]

@[simp] theorem State.cores_takeUp (s : State) (a : Again) : (s.takeUp a).cores = s.cores := by
  unfold State.takeUp
  (repeat' split) <;> simp [apply_ite State.cores, State.cores_foldl]

@[simp] theorem State.cores_sendRead (s : State) (what : TxnUse) (ctx : Nat) (eid : Nat) (key : Nat) (off : Nat) (n : Nat) : (s.sendRead what ctx eid key off n).cores = s.cores := by
  simp [State.sendRead]

@[simp] theorem State.cores_sendWrite (s : State) (what : TxnUse) (ctx : Nat) (eid : Nat) (key : Nat) (off : Nat) (data : Bytes) : (s.sendWrite what ctx eid key off data).cores = s.cores := by
  unfold State.sendWrite
  split <;> simp

@[simp] theorem State.cores_forward (s : State) (rid : Nat) (off : Nat) (data : Bytes) (work : WorkRef) (log : optParam (Option LogNote) none) : (s.forward rid off data work log).cores = s.cores := by
  unfold State.forward
  (repeat' split) <;> simp 

@[simp] theorem State.cores_again (s : State) (a : Again) (more : List Again) : (s.again a more).cores = s.cores := by
  simp [State.again]

@[simp] theorem State.cores_slotWrite (s : State) (hw : Nat) (n : Nat) (k : KernelRun) (rid : Nat) (rg : Region) (off : Nat) (data : Bytes) : (s.slotWrite hw n k rid rg off data).cores = s.cores := by
  unfold State.slotWrite
  split <;> simp

@[simp] theorem State.cores_dmaSend (s : State) (n : Nat) (ctx : Nat) (t : Transfer) : (s.dmaSend n ctx t).cores = s.cores := by
  unfold State.dmaSend
  (repeat' split) <;> simp


/-! ### DMA transfers: the transfer's entry in its core -/

/-- The end of a slot leaves its core's registers, transfers and orders, and everything outside the cores. -/
theorem State.slotDone_core (s : State) (cmd : Instr) (h : SlotHdr) :
    let t := s.slotDone cmd h
    (t.core h.core).regs = (s.core h.core).regs ∧ (t.core h.core).transfers = (s.core h.core).transfers ∧ (t.core h.core).belays = (s.core h.core).belays
      ∧ t = { s with cores := t.cores } := by
  unfold State.slotDone State.unstall
  dsimp only
  rw [State.core_setCore_self]
  split
  · rw [State.setCore_setCore, State.core_setCore_self]
    exact ⟨rfl, rfl, rfl, rfl⟩
  · rw [State.core_setCore_self]
    exact ⟨rfl, rfl, rfl, rfl⟩

/-- The end of a core's stall leaves its transfers, registers and tile store, the other cores, and everything outside the cores. -/
theorem State.unstall_core (s : State) (n : Nat) :
    let t := s.unstall n
    (t.core n).regs = (s.core n).regs ∧ (t.core n).transfers = (s.core n).transfers ∧ t = { s with cores := t.cores } := by
  unfold State.unstall
  dsimp only
  split
  · rw [State.core_setCore_self]
    exact ⟨rfl, rfl, rfl⟩
  · exact ⟨rfl, rfl, rfl⟩

section
variable {s : State} {c : Nat} {x : Transfer}

theorem Transfer.find?_map {l : List Transfer} {f : Transfer → Transfer} (hx : l.find? (fun t => decide (t.id = x.id)) = some x) (hf : (f x).id = x.id) :
    (l.map fun t => if t.id = x.id then f t else t).find? (fun t => decide (t.id = x.id)) = some (f x) := by
  induction l with
  | nil => exact absurd hx (by simp)
  | cons a l ih =>
    rw [List.find?_cons] at hx
    rw [List.map_cons, List.find?_cons]
    by_cases ha : a.id = x.id
    · rw [if_pos ha]
      simp only [ha, decide_true] at hx
      obtain rfl : a = x := Option.some.inj hx
      simp [hf]
    · simp only [ha, decide_false] at hx
      rw [if_neg ha]
      simp only [ha, decide_false]
      exact ih hx

theorem State.transfer?_modTransfer (hx : (s.core c).transfer? x.id = some x) {f : Transfer → Transfer} (hf : (f x).id = x.id) : ((s.modTransfer c x.id f).core c).transfer? x.id = some (f x) := by
  rw [State.modTransfer, State.core_setCore_self]
  exact Transfer.find?_map hx hf

theorem State.dmaOver_core (s : State) (n id : Nat) :
    let t := s.dmaOver n id
    (t.core n).transfer? id = none ∧ (t.core n).regs = (s.core n).regs ∧ (t.core n).tile = (s.core n).tile ∧ ∀ m, m ≠ n → t.core m = s.core m := by
  have hcores : (s.dmaOver n id).cores = (s.setCore n { s.core n with transfers := (s.core n).transfers.filter (fun (t : Transfer) => decide (t.id ≠ id)) }).cores := by
    unfold State.dmaOver
    dsimp only
    split
    · rw [State.cores_uncapture]
    · rfl
  have hcore : ∀ m, (s.dmaOver n id).core m = (s.setCore n { s.core n with transfers := (s.core n).transfers.filter (fun (t : Transfer) => decide (t.id ≠ id)) }).core m := fun m => by
    rw [State.core, hcores]
    rfl
  dsimp only
  rw [hcore n, State.core_setCore_self]
  refine ⟨?_, rfl, rfl, fun m hm => by rw [hcore m, State.core_setCore_ne _ _ hm]⟩
  rw [Core.transfer?, List.find?_eq_none]
  intro t ht
  have hid := of_decide_eq_true (List.mem_filter.mp ht).2
  simpa using hid

/-- DMA_TRANSFER_END of a transfer that nothing holds back, and that is not replayed. -/
theorem execDmaTransferEnd_of_free {kr : KernelRun} (hruns : s.runs = true) (hreplay : s.replay = none) (hx : (s.core c).transfer? x.id = some x) (hk : (s.core c).kernel = some kr)
    (hbehind : (s.core c).dmaBehind x = false) (hheld : ∀ e ∈ s.home.held, e.cmd ≠ .dmaTransferEnd c x.id) (hlive : s.txnLive (fun w => decide (w = .dma c x.id)) = false) :
    exec (.dmaTransferEnd c x.id) s = .next (if x.pos < x.len then
        (if x.inTile then
          (if x.sent then (s.tileWrite c x.dst (Mem.readN x.buf 0 x.len)).dmaOver c x.id
          else (s.modTransfer c x.id (fun t => { t with buf := Mem.writeN [] 0 (s.tileRead c t.src t.len), pos := t.len })).unstall c)
        else if s.dmaFar x then (s.dmaSend c (kernelCtx kr.words) x).unstall c
        else s.dmaOwn (.dmaTransferEnd c x.id) c kr x)
      else if x.sent then s.dmaOver c x.id
      else (if s.dmaFar { x with sent := true, pos := 0 } then (s.modTransfer c x.id (fun _ => { x with sent := true, pos := 0 })).dmaSend c (kernelCtx kr.words) { x with sent := true, pos := 0 }
        else s.modTransfer c x.id (fun _ => { x with sent := true, pos := 0 }))) := by
  have hexec : exec (.dmaTransferEnd c x.id) s = execDmaTransferEnd c x.id s := rfl
  have hnone : s.home.held.any (fun h => decide (h.cmd = .dmaTransferEnd c x.id)) = false := by
    rw [List.any_eq_false]
    intro e he
    simpa using hheld e he
  rw [execDmaTransferEnd, whenUp_of_runs hruns] at hexec
  dsimp only at hexec
  rw [hx, hk] at hexec
  dsimp only at hexec
  rw [hnone, hlive, hbehind, hreplay] at hexec
  refine hexec.trans ?_
  simp only [Bool.or_self, Bool.false_eq_true, if_false, Option.map_none, apply_ite Host.Outcome.next]
  rfl

/-- What one event of a transfer finds where it starts: the transfer, its kernel, and nothing that holds it back. -/
structure DmaReady (s : State) (c : Nat) (x : Transfer) (kr : KernelRun) : Prop where
  runs : s.runs = true
  replay : s.replay = none
  transfer : (s.core c).transfer? x.id = some x
  kernel : (s.core c).kernel = some kr
  behind : (s.core c).dmaBehind x = false
  held : ∀ e ∈ s.home.held, e.cmd ≠ .dmaTransferEnd c x.id
  live : s.txnLive (fun w => decide (w = .dma c x.id)) = false

variable {kr : KernelRun}

theorem DmaReady.exec_of_pending (hr : DmaReady s c x kr) (hpos : x.pos < x.len) :
    exec (.dmaTransferEnd c x.id) s = .next (if x.inTile then
          (if x.sent then (s.tileWrite c x.dst (Mem.readN x.buf 0 x.len)).dmaOver c x.id
          else (s.modTransfer c x.id (fun t => { t with buf := Mem.writeN [] 0 (s.tileRead c t.src t.len), pos := t.len })).unstall c)
        else if s.dmaFar x then (s.dmaSend c (kernelCtx kr.words) x).unstall c
        else s.dmaOwn (.dmaTransferEnd c x.id) c kr x) :=
  (execDmaTransferEnd_of_free hr.runs hr.replay hr.transfer hr.kernel hr.behind hr.held hr.live).trans (congrArg Host.Outcome.next (if_pos hpos))

/-- The transfer reads the tile store at once. -/
theorem DmaReady.read_tile (hr : DmaReady s c x kr) (hsent : x.sent = false) (htile : x.srcTile = true) (hpos : x.pos < x.len) : Does (.dmaTransferEnd c x.id) s fun t =>
    t = { s with cores := t.cores } ∧ ∃ y, (t.core c).transfer? x.id = some y ∧ y.pos = x.len ∧ Mem.readN y.buf 0 x.len = s.tileRead c x.src x.len := by
  have hexec := hr.exec_of_pending hpos
  rw [if_pos (by rw [Transfer.inTile, hsent, htile]; rfl), if_neg (by rw [hsent]; decide)] at hexec
  obtain ⟨-, htransfers, hcores⟩ := (s.modTransfer c x.id (fun t => { t with buf := Mem.writeN [] 0 (s.tileRead c t.src t.len), pos := t.len })).unstall_core c
  refine ⟨_, hexec, by rw [hcores]; rfl, { x with buf := Mem.writeN [] 0 (s.tileRead c x.src x.len), pos := x.len }, ?_, rfl, ?_⟩
  · rw [Core.transfer?, htransfers]
    exact State.transfer?_modTransfer hr.transfer rfl
  · have h := Mem.readN_writeN_self [] 0 (s.tileRead c x.src x.len)
    rwa [State.tileRead, Mem.readN_length] at h

/-- A transfer that has read what it moves goes on to write it. -/
theorem DmaReady.turn (hr : DmaReady s c x kr) (hsent : x.sent = false) (hpos : x.pos = x.len) (htile : x.dstTile = true) : Does (.dmaTransferEnd c x.id) s fun t =>
    t = { s with cores := t.cores } ∧ (t.core c).transfer? x.id = some { x with sent := true, pos := 0 } := by
  have hexec := execDmaTransferEnd_of_free hr.runs hr.replay hr.transfer hr.kernel hr.behind hr.held hr.live
  rw [if_neg (by omega), if_neg (by rw [hsent]; decide), if_neg (by simp [State.dmaFar, Transfer.inTile, htile])] at hexec
  exact ⟨_, hexec, rfl, State.transfer?_modTransfer hr.transfer rfl⟩

/-- The transfer writes the tile store at once, and is over. -/
theorem DmaReady.write_tile (hr : DmaReady s c x kr) (hsent : x.sent = true) (htile : x.dstTile = true) (hpos : x.pos < x.len) : Does (.dmaTransferEnd c x.id) s fun t =>
    t.tileRead c x.dst x.len = Mem.readN x.buf 0 x.len ∧ (t.core c).transfer? x.id = none ∧ (t.core c).regs = (s.core c).regs ∧ ∀ m, m ≠ c → t.core m = s.core m := by
  have hexec := hr.exec_of_pending hpos
  rw [if_pos (by rw [Transfer.inTile, hsent, htile]; rfl), if_pos hsent] at hexec
  obtain ⟨hover, hregs, hmem, hothers⟩ := (s.tileWrite c x.dst (Mem.readN x.buf 0 x.len)).dmaOver_core c x.id
  refine ⟨_, hexec, ?_, hover, hregs.trans ?_, fun m hm => (hothers m hm).trans (State.core_setCore_ne _ _ hm)⟩
  · rw [State.tileRead, hmem, State.tileWrite, State.core_setCore_self]
    have h := Mem.readN_writeN_self (s.core c).tile x.dst (Mem.readN x.buf 0 x.len)
    rwa [Mem.readN_length] at h
  · rw [State.tileWrite, State.core_setCore_self]

theorem DmaReady.over (hr : DmaReady s c x kr) (hsent : x.sent = true) (hpos : x.pos = x.len) : Does (.dmaTransferEnd c x.id) s fun t =>
    (t.core c).transfer? x.id = none ∧ (t.core c).regs = (s.core c).regs := by
  have hexec := execDmaTransferEnd_of_free hr.runs hr.replay hr.transfer hr.kernel hr.behind hr.held hr.live
  rw [if_neg (by omega), if_pos hsent] at hexec
  obtain ⟨hover, hregs, -⟩ := s.dmaOver_core c x.id
  exact ⟨_, hexec, hover, hregs⟩

/-! ### DMA transfers: what moves to and from this controller's memory -/

/-- Where no page is remapped the pages the transfer was queued with are the region's own. -/
theorem State.overlay_of_not_remapped {holder : Nat} {caps : Caps} (h : s.remapped holder caps = []) : s.overlay holder caps = s := by
  induction caps with
  | nil => rfl
  | cons e caps ih =>
    unfold State.remapped at h ih
    rw [List.filterMap_cons] at h
    have hone : s.overlay holder [e] = s := by
      unfold State.overlay
      rw [List.foldl_cons, List.foldl_nil]
      split
      next r hd hr hh =>
        rw [hr, hh] at h
        dsimp only at h
        split
        next hne => rw [if_pos hne] at h; exact absurd h (by simp)
        · rfl
      · rfl
    have hcons : s.overlay holder (e :: caps) = (s.overlay holder [e]).overlay holder caps := rfl
    rw [hcons, hone]
    refine ih ?_
    split at h
    · exact h
    · exact absurd h (by simp)

theorem blocks_of_inBlock {off n : Nat} (hn : 0 < n) (hin : inBlock off n = true) : blocks off n = [(off, n)] := by
  have hle : off % 4096 + n ≤ 4096 := of_decide_eq_true hin
  have hone : (off + n - 1) / 4096 + 1 - off / 4096 = 1 := by omega
  rw [blocks, if_neg (by omega), hone]
  simp only [upto, List.range_one, List.map_cons, List.map_nil, List.cons.injEq, Prod.mk.injEq, and_true]
  omega

/-- A transfer's part in this controller's memory, in one piece and with no page remapped. -/
theorem State.dmaOwn_of_piece {key base rid : Nat} {rg : Region} {cmd : Instr} {t : Transfer} {eid : Nat} (hside : t.side = (eid, key, base)) (hrid : capsRegion t.pages key (base + t.pos) = some rid)
    (hrg : s.region? rid = some rg) (hgate : s.gate rid rg = none) (hmap : s.remapped t.id t.pages = []) (hmode : rg.mode ≠ .coherent) (hpos : t.pos = 0) (hlen : 0 < t.len)
    (hin : inBlock base t.len = true) (hx : (s.core c).transfer? t.id = some t) (hmet : s.dmaMet kr rid rg t (base, t.len) = .clear) :
    s.dmaOwn cmd c kr t = (s.dmaPart c kr rid rg t (base, t.len)).unstall c := by
  unfold State.dmaOwn
  rw [hside]
  dsimp only
  rw [hrid]
  dsimp only
  rw [hrg]
  dsimp only
  rw [hgate, hmap, State.overlay_of_not_remapped hmap, hpos, Nat.add_zero, Nat.sub_zero, if_neg (fun h => hmode h.1), blocks_of_inBlock hlen hin]
  dsimp only [State.dmaRun]
  rw [hx, hrg]
  dsimp only
  rw [hmet]
  rfl

theorem onePage_of_inBlock {off n : Nat} (hn : 0 < n) (hin : inBlock off n = true) : off / 65536 = (off + n - 1) / 65536 := by
  have hle : off % 4096 + n ≤ 4096 := of_decide_eq_true hin
  omega

theorem State.length_readRange_onePage {off n : Nat} (s : State) (rg : Region) (v : View) (hn : n ≠ 0) (hpage : off / 65536 = (off + n - 1) / 65536) : (s.readRange rg v off n).length = n := by
  rw [State.readRange, pieces_of_onePage hn hpage, List.flatMap_cons, List.flatMap_nil, List.append_nil]
  split
  · exact List.length_replicate
  · split
    · exact Mem.readN_length _ _ _
    · exact List.length_replicate

/-- A change of a transfer where the cores are as before, and then the end of the stall. -/
theorem State.transfer?_after {u : State} (hcores : u.cores = s.cores) (hx : (s.core c).transfer? x.id = some x) {f : Transfer → Transfer} (hf : (f x).id = x.id) :
    (((u.modTransfer c x.id f).unstall c).core c).transfer? x.id = some (f x) ∧ ((u.modTransfer c x.id f).unstall c).home = u.home := by
  obtain ⟨-, htransfers, hrest⟩ := (u.modTransfer c x.id f).unstall_core c
  have hx' : (u.core c).transfer? x.id = some x := by rw [State.core, hcores]; exact hx
  refine ⟨?_, by rw [hrest]; rfl⟩
  rw [Core.transfer?, htransfers]
  exact State.transfer?_modTransfer hx' hf

/-- A transfer reads this controller's memory as its kernel sees it. -/
theorem DmaReady.read_memory {rid : Nat} {rg : Region} (hr : DmaReady s c x kr) (hrg : s.region? rid = some rg) (hgate : s.gate rid rg = none) (hmap : s.remapped x.id x.pages = [])
    (hmode : rg.mode ≠ .coherent) (hpos : x.pos = 0) (hlen : 0 < x.len) (hsent : x.sent = false) (htile : x.srcTile = false) (hown : s.isOwn x.srcEid = true)
    (hrid : capsRegion x.pages x.srcKey x.src = some rid) (hin : inBlock x.src x.len = true) (hmet : s.meetRead rid rg (s.kernelView kr rid x.src x.len) x.src x.len = .clear) :
    Does (.dmaTransferEnd c x.id) s fun t => ∃ y, (t.core c).transfer? x.id = some y ∧ y.pos = x.len
      ∧ Mem.readN y.buf 0 x.len = s.readRange rg (s.kernelView kr rid x.src x.len) x.src x.len := by
  have hside : x.side = (x.srcEid, x.srcKey, x.src) := by rw [Transfer.side, hsent]; rfl
  have hintile : x.inTile = false := by rw [Transfer.inTile, hsent]; exact htile
  have hmet' : s.dmaMet kr rid rg x (x.src, x.len) = .clear := by
    have hpart : s.partMet kr rid rg false false (x.src, x.len) = .clear := by rw [State.partMet, if_neg (by decide), hmet]
    rw [State.dmaMet, hsent]
    exact hpart
  have hexec := hr.exec_of_pending (by omega)
  rw [if_neg (by rw [hintile]; decide), if_neg (by simp [State.dmaFar, hside, hown]),
    State.dmaOwn_of_piece hside (by rw [hpos, Nat.add_zero]; exact hrid) hrg hgate hmap hmode hpos hlen hin hr.transfer hmet'] at hexec
  rw [State.dmaPart, hsent] at hexec
  have hcores : (s.slotRead (coreUnit c 3) kr rid rg x.src x.len).1.cores = s.cores := by
    rw [State.slotRead, State.cores_event, State.cores_readDone]
  have hlenread := s.length_readRange_onePage rg (s.kernelView kr rid x.src x.len) (by omega) (onePage_of_inBlock hlen hin)
  refine ⟨_, hexec, _, (State.transfer?_after hcores hr.transfer rfl).1, by rw [hpos, Nat.zero_add], ?_⟩
  rw [hpos]
  have h := Mem.readN_writeN_self x.buf 0 (s.readRange rg (s.kernelView kr rid x.src x.len) x.src x.len)
  rwa [hlenread] at h

theorem State.slotWrite_memory {rid off hw n : Nat} {rg : Region} (hrg : s.region? rid = some rg) (hmode : rg.mode ≠ .publish) (hmirror : rg.mirror = 0) (data : Bytes) :
    (s.slotWrite hw n kr rid rg off data).memory = (s.writeRange rid (.shadowed (s.kernelIssuer kr)) off data).memory := by
  have hterms : s.memory.terms rid = some (rg.mode, rg.mirror) := by simp [Memory.terms, State.memory, hrg]
  have hmem : (((s.writeRange rid (.shadowed (s.kernelIssuer kr)) off data).touchRange false rid (.own (s.kernelIssuer kr)) off data.length).event hw 4 data.length
      (some (s.kernelIssuer kr).ctx)).memory = (s.writeRange rid (.shadowed (s.kernelIssuer kr)) off data).memory := by
    rw [← State.touchRange_memory (s.writeRange rid (.shadowed (s.kernelIssuer kr)) off data) false rid (.own (s.kernelIssuer kr)) off data.length]
    exact State.memory_of_home rfl
  rw [State.slotWrite, if_neg hmode, ← hmem]
  generalize (State.event _ _ _ _ _) = v at hmem ⊢
  have hkept : v.memory.terms rid = some (rg.mode, rg.mirror) := by
    rw [hmem, State.writeRange, State.writePieces_terms hterms hmode, hterms]
  obtain ⟨y, hlayout, hy⟩ := Option.map_eq_some_iff.mp hkept
  obtain ⟨r, hr, rfl⟩ := Option.map_eq_some_iff.mp hlayout
  have hnone : r.mirror = 0 := (congrArg Prod.snd hy).trans hmirror
  rw [State.forward, hr]
  exact congrArg State.memory (if_pos hnone)

/-- A transfer writes this controller's memory. -/
theorem DmaReady.write_memory {rid : Nat} {rg : Region} (hr : DmaReady s c x kr) (hrg : s.region? rid = some rg) (hgate : s.gate rid rg = none) (hmap : s.remapped x.id x.pages = [])
    (hmode : rg.mode ≠ .coherent) (hpos : x.pos = 0) (hlen : 0 < x.len) (hsent : x.sent = true) (htile : x.dstTile = false) (hown : s.isOwn x.dstEid = true) (hckey : x.ckey = none)
    (hrid : capsRegion x.pages x.dstKey x.dst = some rid) (hin : inBlock x.dst x.len = true) (hplain : rg.mode ≠ .publish) (hmirror : rg.mirror = 0)
    (hmet : s.meetWrite rid rg (.shadowed (s.kernelIssuer kr)) x.dst x.len = .clear) : Does (.dmaTransferEnd c x.id) s fun t =>
      (∃ y, (t.core c).transfer? x.id = some y ∧ y.pos = x.len) ∧ (s.pageHeld rg x.dst = true → t.shows rid .pub x.dst (Mem.readN x.buf 0 x.len)) := by
  have hside : x.side = (x.dstEid, x.dstKey, x.dst) := by rw [Transfer.side, hsent]; rfl
  have hintile : x.inTile = false := by rw [Transfer.inTile, hsent]; exact htile
  have hmet' : s.dmaMet kr rid rg x (x.dst, x.len) = .clear := by
    have hpart : s.partMet kr rid rg true false (x.dst, x.len) = .clear := by rw [State.partMet, if_pos rfl, hmet]
    rw [State.dmaMet, hsent, hckey]
    exact hpart
  have hexec := hr.exec_of_pending (by omega)
  rw [if_neg (by rw [hintile]; decide), if_neg (by simp [State.dmaFar, hside, hown]),
    State.dmaOwn_of_piece hside (by rw [hpos, Nat.add_zero]; exact hrid) hrg hgate hmap hmode hpos hlen hin hr.transfer hmet'] at hexec
  rw [State.dmaPart, hsent] at hexec
  rw [if_neg (by decide)] at hexec
  dsimp only at hexec
  rw [hckey, hpos] at hexec
  dsimp only at hexec
  have hcores : (s.slotWrite (coreUnit c 3) c kr rid rg x.dst (Mem.readN x.buf 0 x.len)).cores = s.cores := State.cores_slotWrite _ _ _ _ _ _ _ _
  obtain ⟨htransfer, hhome⟩ := State.transfer?_after (f := fun t => { t with pos := t.pos + x.len }) hcores hr.transfer rfl
  refine ⟨_, hexec, ⟨_, htransfer, by dsimp only; omega⟩, fun hheld => ?_⟩
  have hdata : (Mem.readN x.buf 0 x.len).length ≠ 0 := by rw [Mem.readN_length]; omega
  have hpage : x.dst / 65536 = (x.dst + (Mem.readN x.buf 0 x.len).length - 1) / 65536 := by rw [Mem.readN_length]; exact onePage_of_inBlock hlen hin
  refine State.shows_of_holds hdata hpage ?_
  rw [State.memory_of_home hhome, State.slotWrite_memory hrg hplain hmirror]
  exact State.writeRange_holds hrg hplain hheld hdata hpage _

end

/-! ### The start of a transfer (R405 to R409) -/

theorem State.absentIn_of_regions {s t : State} (hregions : t.home.regions = s.home.regions) (rid off n : Nat) : t.absentIn rid off n = s.absentIn rid off n := by
  simp only [State.absentIn, State.region?, hregions]

theorem State.capturePages_regions (s : State) (holder : Nat) (ps : List (Nat × Nat)) : (s.capturePages holder ps).1.home.regions = s.home.regions := by
  unfold State.capturePages
  dsimp only
  generalize List.map _ ps = caps
  induction caps generalizing s with
  | nil => rfl
  | cons e caps ih =>
    rw [List.foldl_cons, ih]
    split <;> rfl

/-- The ends of a transfer: in the tile store within TS_USED, or the pair that its operands name. -/
def transferEnd (k : KernelRun) (len : Nat) (tile : Bool) (pair : Option (Nat × Nat × Nat)) (x : Nat × Nat × Nat) : Prop :=
  if tile then x.2.2 + len ≤ tsUsed k.words else pair = some x

/-- Each end in this controller's memory is permitted, with no page absent. -/
def EndPermitted (s : State) (k : KernelRun) (len : Nat) (need : Rights) (x : Nat × Nat × Nat) : Prop :=
  ∃ rid rg, s.permit x.1 x.2.1 x.2.2 len need (s.kernelIssuer k) = some (rid, rg) ∧ s.absentIn rid x.2.2 len = none

section
variable {s : State} {h : SlotHdr} {k : KernelRun} {q : QSlot} {r : RegFile} {f : LFmt} {a b : Nat × Nat × Nat}

/-- The ranges of a transfer whose ends are permitted: all found, no page of them absent; none where both ends are in the tile store. -/
theorem State.dmaRanges_of_permitted {t : Transfer} (hsrc : t.srcTile = false → s.isOwn t.srcEid = true → EndPermitted s k t.len needR (t.srcEid, t.srcKey, t.src))
    (hdst : t.dstTile = false → s.isOwn t.dstEid = true → EndPermitted s k t.len needW (t.dstEid, t.dstKey, t.dst)) :
    ∃ rs, s.dmaRanges (s.kernelIssuer k) t = rs.map some ∧ (∀ x ∈ rs, s.absentIn x.1 x.2.1 t.len = none) ∧ (t.srcTile = true → t.dstTile = true → rs = []) := by
  have hone : ∀ (tile : Bool) (need : Rights) (x : Nat × Nat × Nat) (w : Bool), (tile = false → s.isOwn x.1 = true → EndPermitted s k t.len need x) →
      ∃ rs, (if tile || !s.isOwn x.1 then [] else [(s.permit x.1 x.2.1 x.2.2 t.len need (s.kernelIssuer k)).map (fun y => (y.1, x.2.2, w))]) = List.map some rs
        ∧ (∀ y ∈ rs, s.absentIn y.1 y.2.1 t.len = none) ∧ (tile = true → rs = []) := by
    intro tile need x w hperm
    by_cases hcond : (tile || !s.isOwn x.1) = true
    · exact ⟨[], if_pos hcond, by simp, fun _ => rfl⟩
    · simp only [Bool.or_eq_true, Bool.not_eq_true', not_or, Bool.not_eq_true, Bool.not_eq_false] at hcond
      obtain ⟨htile, hown⟩ := hcond
      obtain ⟨rid, rg, hpermit, habsent⟩ := hperm htile hown
      refine ⟨[(rid, x.2.2, w)], ?_, ?_, fun h => by rw [htile] at h; cases h⟩
      · rw [if_neg (by simp [htile, hown]), hpermit]
        rfl
      · intro y hy
        rw [List.mem_singleton.mp hy]
        exact habsent
  obtain ⟨rs1, h1, habs1, htile1⟩ := hone t.srcTile needR (t.srcEid, t.srcKey, t.src) false hsrc
  obtain ⟨rs2, h2, habs2, htile2⟩ := hone t.dstTile needW (t.dstEid, t.dstKey, t.dst) true hdst
  refine ⟨rs1 ++ rs2, ?_, fun x hx => (List.mem_append.mp hx).elim (habs1 x) (habs2 x), fun ht1 ht2 => by rw [htile1 ht1, htile2 ht2]; rfl⟩
  rw [List.map_append, ← h1, ← h2]
  rfl

/-- The transfer that a slot starts, before its pages are captured. -/
def newTransfer (id bundle : Nat) (r : RegFile) (f : LFmt) (rw : Bool) (a b : Nat × Nat × Nat) : Transfer :=
  { id := id, bundle := bundle, srcTile := bitAt f.sub 0, srcEid := a.1, srcKey := a.2.1, src := a.2.2, dstTile := bitAt f.sub 1, dstEid := b.1, dstKey := b.2.1, dst := b.2.2,
    len := (r.xr f.rc).toNat, ckey := if rw then some ((r.xr f.re).toNat % 4294967296) else none, buf := [], pos := 0, sent := false }

theorem State.cores_of_dmaSend (s : State) (p : Prop) [Decidable p] (n ctx : Nat) (t : Transfer) : (if p then s.dmaSend n ctx t else s).cores = s.cores := by
  split
  · exact State.cores_dmaSend _ _ _ _
  · rfl

theorem dmaStart_run {cmd : Instr} {rw : Bool} (hgo : s.slotGo cmd = some (h, k, q, r)) (hp : performed h r = true) (hsub : f.sub ≤ 3) (hrw : rw = true → f.sub < 2)
    (hlen : (r.xr f.rc).toNat ≠ 0) (hlen' : (r.xr f.rc).toNat < 2 ^ 32) (hroom : (s.core h.core).transfers.length < 64)
    (ha : transferEnd k (r.xr f.rc).toNat (bitAt f.sub 0) (memPair r f.rb 0) a) (ha' : bitAt f.sub 0 = true → a = (0, 0, (r.xr f.rb).toNat))
    (hb : transferEnd k (r.xr f.rc).toNat (bitAt f.sub 1) (memPair r f.ra f.imm) b) (hb' : bitAt f.sub 1 = true → b = (0, 0, tileAddr r f.ra f.imm))
    (hsrc : bitAt f.sub 0 = false → s.isOwn a.1 = true → EndPermitted s k (r.xr f.rc).toNat needR a)
    (hdst : bitAt f.sub 1 = false → s.isOwn b.1 = true → EndPermitted s k (r.xr f.rc).toNat needW b)
    (hexec : exec cmd s = dmaStart cmd f rw s) : Does cmd s fun t =>
      ∃ x, (t.core h.core).transfers = (s.core h.core).transfers ++ [x] ∧ x.id = s.nextId ∧ x.len = (r.xr f.rc).toNat
        ∧ x.ckey = (if rw then some ((r.xr f.re).toNat % 4294967296) else none)
        ∧ x.srcTile = bitAt f.sub 0 ∧ x.src = a.2.2 ∧ x.dstTile = bitAt f.sub 1 ∧ x.dst = b.2.2 ∧ x.pos = 0 ∧ x.sent = false ∧ (t.core h.core).regs = (s.core h.core).regs
        ∧ (bitAt f.sub 0 = true → bitAt f.sub 1 = true → t.home.regions = s.home.regions ∧ t.home.pages = s.home.pages) := by
  have hfirst : (if bitAt f.sub 0 then some (0, 0, (r.xr f.rb).toNat) else memPair r f.rb 0) = some a := by
    split
    next htile => rw [ha' htile]
    next htile => rwa [transferEnd, if_neg htile] at ha
  have hsecond : (if bitAt f.sub 1 then some (0, 0, tileAddr r f.ra f.imm) else memPair r f.ra f.imm) = some b := by
    split
    next htile => rw [hb' htile]
    next htile => rwa [transferEnd, if_neg htile] at hb
  have hin : ∀ (tile : Bool) (pair : Option (Nat × Nat × Nat)) (x : Nat × Nat × Nat), transferEnd k (r.xr f.rc).toNat tile pair x →
      (tile && !tileOk k x.2.2 (r.xr f.rc).toNat) = false := by
    intro tile pair x hx
    cases tile with
    | false => rfl
    | true =>
      rw [transferEnd, if_pos rfl] at hx
      simp [tileOk, hx]
  have hlegal : ¬(3 < f.sub ∨ (rw = true ∧ bitAt f.sub 1 = true) ∨ (r.xr f.rc).toNat = 0 ∨ 4294967295 < (r.xr f.rc).toNat) := by
    rintro (h3 | ⟨hrw', hbit⟩ | h0 | hbig)
    · omega
    · have hlt := hrw hrw'
      rw [bitAt] at hbit
      generalize f.sub = n at hlt hbit
      interval_cases n <;> exact absurd hbit (by decide)
    · exact hlen h0
    · omega
  rw [dmaStart, slotRun_of_performed hgo hp] at hexec
  dsimp only at hexec
  rw [if_neg hlegal, hfirst, hsecond] at hexec
  dsimp only at hexec
  obtain ⟨rs, hranges, habsent, htiles⟩ := State.dmaRanges_of_permitted (s := s) (k := k) (t := newTransfer s.nextId q.bundle r f rw a b) hsrc hdst
  have hsaved : (s.slotSaved h q).dmaRanges ((s.slotSaved h q).kernelIssuer k) (newTransfer (s.slotSaved h q).nextId q.bundle r f rw a b) = rs.map some := hranges
  unfold newTransfer at hsaved
  have hroom' : ¬ 64 ≤ ((s.slotSaved h q).core h.core).transfers.length := by
    rw [State.slotSaved, State.core_setCore_self]
    exact Nat.not_le.mpr hroom
  have hnone : (rs.map some).any Option.isNone = false := by
    rw [List.any_eq_false]
    intro y hy
    obtain ⟨z, -, rfl⟩ := List.mem_map.mp hy
    simp
  have hall : (rs.map some).filterMap id = rs := by
    rw [List.filterMap_map]
    exact List.filterMap_some
  rw [hin _ _ _ ha, hin _ _ _ hb, if_neg (by decide), if_neg hroom', hsaved, hnone, if_neg (by decide), hall] at hexec
  generalize hcap : State.capture _ _ (rs.map _) = cap at hexec
  have hregions : cap.1.home.regions = s.home.regions := by rw [← hcap]; exact State.capturePages_regions _ _ _
  have hpages : rs = [] → cap.1.home.pages = s.home.pages := by
    rintro rfl
    rw [← hcap]
    rfl
  have hfind : ∀ u : State, u.home.regions = s.home.regions →
      rs.findSome? (fun x => (u.absentIn x.1 x.2.1 (r.xr f.rc).toNat).map fun p => (x, p)) = none := fun u hu =>
    List.findSome?_eq_none_iff.mpr fun x hx => by
      rw [State.absentIn_of_regions hu, show s.absentIn x.1 x.2.1 (r.xr f.rc).toNat = none from habsent x hx, Option.map_none]
  generalize hw : cap.1.setCore h.core _ = w at hexec
  have hhome : w.home = cap.1.home := by rw [← hw]; rfl
  have hcore : (w.core h.core).transfers = (s.core h.core).transfers ++ [{ newTransfer s.nextId q.bundle r f rw a b with pages := cap.2 }] ∧ (w.core h.core).regs = (s.core h.core).regs := by
    rw [← hw, State.core_setCore_self, State.slotSaved, State.core_setCore_self]
    exact ⟨rfl, rfl⟩
  rw [hfind _ (by rw [hhome, hregions])] at hexec
  dsimp only at hexec
  obtain ⟨u, hexec, hcores, hlocal⟩ : ∃ u, exec cmd s = .next (u.slotDone cmd h) ∧ u.cores = w.cores ∧ (bitAt f.sub 0 = true → u = w) :=
    ⟨_, hexec, State.cores_of_dmaSend _ _ _ _ _, fun h1 => if_neg (by simp [State.dmaFar, Transfer.inTile, h1])⟩
  have hsame : u.core h.core = w.core h.core := by
    rw [State.core, hcores]
    rfl
  obtain ⟨hregs, htransfers, -, hrest⟩ := u.slotDone_core cmd h
  rw [hsame] at hregs htransfers
  refine ⟨_, hexec, _, htransfers.trans hcore.1, rfl, rfl, rfl, rfl, rfl, rfl, rfl, rfl, rfl, hregs.trans hcore.2, fun h1 h2 => ?_⟩
  rw [hrest, hlocal h1]
  exact ⟨(congrArg Home.regions hhome).trans hregions, (congrArg Home.pages hhome).trans (hpages (htiles h1 h2))⟩

end

/-- Settles O29: the start by the ranges of its ends, each event of a transfer by where it stands. -/
theorem dmaTransfers : Obligations.DmaTransfers := by
  unfold Obligations.DmaTransfers
  intro s h k q r f
  refine ⟨fun hp hsub hlen hlen' hroom a b ha ha' hb hb' hsrc hdst => ⟨fun hgo => ?_, fun hgo hrw => ?_⟩, fun c x kr hruns hreplay hx hk hbehind hheld hlive => ?_⟩
  · exact dmaStart_run hgo hp hsub (fun h => absurd h (by decide)) hlen hlen' hroom ha ha' hb hb' hsrc hdst rfl
  · exact dmaStart_run hgo hp hsub (fun _ => hrw) hlen hlen' hroom ha ha' hb hb' hsrc hdst rfl
  · have hr : DmaReady s c x kr := ⟨hruns, hreplay, hx, hk, hbehind, hheld, hlive⟩
    exact ⟨fun hsent htile hpos => hr.read_tile hsent htile hpos, fun hsent hpos htile => hr.turn hsent hpos htile, fun hsent htile hpos => hr.write_tile hsent htile hpos,
      fun hsent hpos => hr.over hsent hpos, fun rid rg hrg hgate hmap hmode hpos hlen =>
      ⟨fun hsent htile hown hrid hin hmet => hr.read_memory hrg hgate hmap hmode hpos hlen hsent htile hown hrid hin hmet,
        fun hsent htile hown hckey hrid hin hplain hmirror hmet => hr.write_memory hrg hgate hmap hmode hpos hlen hsent htile hown hckey hrid hin hplain hmirror hmet⟩⟩


/-! ### What a request's arrival and a read leave of the waiting acquires -/

theorem State.acquires_foldl {α : Type} {f : State → α → State} (h : ∀ s a, (f s a).home.acquires = s.home.acquires) (l : List α) (s : State) :
    (l.foldl f s).home.acquires = s.home.acquires := by
  induction l generalizing s with
  | nil => rfl
  | cons a l ih => rw [List.foldl_cons, ih, h]

@[simp] theorem State.acquires_emit (s : State) (o : Out) : (s.emit o).home.acquires = s.home.acquires := by
  rfl

@[simp] theorem State.acquires_event (s : State) (hw : Nat) (idx : Nat) (n : Nat) (ctx : Option Nat) : (s.event hw idx n ctx).home.acquires = s.home.acquires := by
  rfl

@[simp] theorem State.acquires_wakeWhere (s : State) (f : Domain → Bool) : (s.wakeWhere f).home.acquires = s.home.acquires := by
  rfl

@[simp] theorem State.acquires_wakeDomain (s : State) (d : Domain) : (s.wakeDomain d).home.acquires = s.home.acquires := by
  rfl

@[simp] theorem State.acquires_setPages (s : State) (t : Tab Handle) : (s.setPages t).home.acquires = s.home.acquires := by
  rfl

@[simp] theorem State.acquires_modPage (s : State) (ref : PageRef) (f : TierPage → TierPage) : (s.modPage ref f).home.acquires = s.home.acquires := by
  rfl

@[simp] theorem State.acquires_nvmeIo (s : State) (slot : Nat) (op : NvmeOp) (lba : Nat) (n : Nat) : (s.nvmeIo slot op lba n).home.acquires = s.home.acquires := by
  unfold State.nvmeIo
  (repeat' split) <;> simp 

@[simp] theorem State.acquires_t2Get (s : State) (ref : PageRef) : (s.t2Get ref).home.acquires = s.home.acquires := by
  unfold State.t2Get
  split <;> simp

@[simp] theorem State.acquires_memEvent (s : State) (layer : Nat) (idx : Nat) (n : Nat) (ref : PageRef) : (s.memEvent layer idx n ref).home.acquires = s.home.acquires := by
  rfl

@[simp] theorem State.acquires_touch (s : State) (port : Bool) (ref : PageRef) (off : Nat) (n : Nat) : (s.touch port ref off n).home.acquires = s.home.acquires := by
  unfold State.touch
  simp [apply_ite (fun t : State => t.home.acquires), State.acquires_foldl]
  (repeat' split) <;> simp [apply_ite (fun t : State => t.home.acquires), State.acquires_foldl]

@[simp] theorem State.acquires_touchRange (s : State) (port : Bool) (rid : Nat) (v : View) (off n : Nat) : (s.touchRange port rid v off n).home.acquires = s.home.acquires := by
  refine State.acquires_foldl (fun s q => ?_) _ _
  (repeat' split) <;> simp

@[simp] theorem State.acquires_bivouacEnd (s : State) : (s.bivouacEnd).home.acquires = s.home.acquires := by
  unfold State.bivouacEnd
  rw [State.acquires_foldl State.acquires_wakeDomain] <;> rfl

@[simp] theorem State.acquires_stir (s : State) : (s.stir).home.acquires = s.home.acquires := by
  unfold State.stir
  split <;> simp

@[simp] theorem State.acquires_issueTxn (s : State) (x : Txn) : (s.issueTxn x).home.acquires = s.home.acquires := by
  unfold State.issueTxn
  simp [apply_ite (fun t : State => t.home.acquires), State.acquires_foldl]
  (repeat' split) <;> simp [apply_ite (fun t : State => t.home.acquires), State.acquires_foldl]

@[simp] theorem State.acquires_sendTxn (s : State) (what : TxnUse) (ctx : Nat) (eid : Nat) (op : Nat) (key : Nat) (off : Nat) (ckey : Nat) (data : Bytes) (idem : Bool) : (s.sendTxn what ctx eid op key off ckey data idem).home.acquires = s.home.acquires := by
  simp [State.sendTxn]

@[simp] theorem State.acquires_sendLender (s : State) (what : TxnUse) (e : Extent) (off : Nat) (n : Nat) (data : Option Bytes) : (s.sendLender what e off n data).home.acquires = s.home.acquires := by
  unfold State.sendLender
  (repeat' split) <;> simp [apply_ite (fun t : State => t.home.acquires), State.acquires_foldl]

@[simp] theorem State.acquires_fetchTL (s : State) (ref : PageRef) (off : Nat) (n : Nat) : (s.fetchTL ref off n).home.acquires = s.home.acquires := by
  unfold State.fetchTL
  (repeat' split) <;> simp [apply_ite (fun t : State => t.home.acquires), State.acquires_foldl]

@[simp] theorem State.acquires_fetchT2 (s : State) (ref : PageRef) : (s.fetchT2 ref).home.acquires = s.home.acquires := by
  unfold State.fetchT2
  (repeat' split) <;> simp

@[simp] theorem State.acquires_readEvent (s : State) (ref : PageRef) (n : Nat) : (s.readEvent ref n).home.acquires = s.home.acquires := by
  unfold State.readEvent
  (repeat' split) <;> simp

@[simp] theorem State.acquires_readDone (s : State) (port : Bool) (rid : Nat) (v : View) (off n : Nat) : (s.readDone port rid v off n).home.acquires = s.home.acquires := by
  unfold State.readDone
  dsimp only
  rw [State.acquires_touchRange, State.acquires_foldl]
  intros
  (repeat' split) <;> simp

@[simp] theorem State.acquires_arrived (s : State) (q : LmfReq) (payload : Bool) : (s.arrived q payload).home.acquires = s.home.acquires := by
  unfold State.arrived
  split <;> simp

/-! ### What a read leaves of the adopted endpoints -/

theorem State.adopted_foldl {α : Type} {f : State → α → State} (h : ∀ s a, (f s a).rel.adopted = s.rel.adopted) (l : List α) (s : State) :
    (l.foldl f s).rel.adopted = s.rel.adopted := by
  induction l generalizing s with
  | nil => rfl
  | cons a l ih => rw [List.foldl_cons, ih, h]

@[simp] theorem State.adopted_emit (s : State) (o : Out) : (s.emit o).rel.adopted = s.rel.adopted := by
  rfl

@[simp] theorem State.adopted_event (s : State) (hw : Nat) (idx : Nat) (n : Nat) (ctx : Option Nat) : (s.event hw idx n ctx).rel.adopted = s.rel.adopted := by
  rfl

@[simp] theorem State.adopted_setPages (s : State) (t : Tab Handle) : (s.setPages t).rel.adopted = s.rel.adopted := by
  rfl

@[simp] theorem State.adopted_modPage (s : State) (ref : PageRef) (f : TierPage → TierPage) : (s.modPage ref f).rel.adopted = s.rel.adopted := by
  rfl

@[simp] theorem State.adopted_nvmeIo (s : State) (slot : Nat) (op : NvmeOp) (lba : Nat) (n : Nat) : (s.nvmeIo slot op lba n).rel.adopted = s.rel.adopted := by
  unfold State.nvmeIo
  (repeat' split) <;> simp 

@[simp] theorem State.adopted_t2Get (s : State) (ref : PageRef) : (s.t2Get ref).rel.adopted = s.rel.adopted := by
  unfold State.t2Get
  split <;> simp

@[simp] theorem State.adopted_memEvent (s : State) (layer : Nat) (idx : Nat) (n : Nat) (ref : PageRef) : (s.memEvent layer idx n ref).rel.adopted = s.rel.adopted := by
  rfl

@[simp] theorem State.adopted_touch (s : State) (port : Bool) (ref : PageRef) (off : Nat) (n : Nat) : (s.touch port ref off n).rel.adopted = s.rel.adopted := by
  unfold State.touch
  simp [apply_ite (fun t : State => t.rel.adopted), State.adopted_foldl]
  (repeat' split) <;> simp [apply_ite (fun t : State => t.rel.adopted), State.adopted_foldl]

@[simp] theorem State.adopted_touchRange (s : State) (port : Bool) (rid : Nat) (v : View) (off n : Nat) : (s.touchRange port rid v off n).rel.adopted = s.rel.adopted := by
  refine State.adopted_foldl (fun s q => ?_) _ _
  (repeat' split) <;> simp

@[simp] theorem State.adopted_issueTxn (s : State) (x : Txn) : (s.issueTxn x).rel.adopted = s.rel.adopted := by
  unfold State.issueTxn
  simp [apply_ite (fun t : State => t.rel.adopted), State.adopted_foldl]
  (repeat' split) <;> simp [apply_ite (fun t : State => t.rel.adopted), State.adopted_foldl]

@[simp] theorem State.adopted_sendTxn (s : State) (what : TxnUse) (ctx : Nat) (eid : Nat) (op : Nat) (key : Nat) (off : Nat) (ckey : Nat) (data : Bytes) (idem : Bool) : (s.sendTxn what ctx eid op key off ckey data idem).rel.adopted = s.rel.adopted := by
  simp [State.sendTxn]

@[simp] theorem State.adopted_sendLender (s : State) (what : TxnUse) (e : Extent) (off : Nat) (n : Nat) (data : Option Bytes) : (s.sendLender what e off n data).rel.adopted = s.rel.adopted := by
  unfold State.sendLender
  (repeat' split) <;> simp [apply_ite (fun t : State => t.rel.adopted), State.adopted_foldl]

@[simp] theorem State.adopted_fetchTL (s : State) (ref : PageRef) (off : Nat) (n : Nat) : (s.fetchTL ref off n).rel.adopted = s.rel.adopted := by
  unfold State.fetchTL
  (repeat' split) <;> simp [apply_ite (fun t : State => t.rel.adopted), State.adopted_foldl]

@[simp] theorem State.adopted_fetchT2 (s : State) (ref : PageRef) : (s.fetchT2 ref).rel.adopted = s.rel.adopted := by
  unfold State.fetchT2
  (repeat' split) <;> simp

@[simp] theorem State.adopted_readEvent (s : State) (ref : PageRef) (n : Nat) : (s.readEvent ref n).rel.adopted = s.rel.adopted := by
  unfold State.readEvent
  (repeat' split) <;> simp

@[simp] theorem State.adopted_readDone (s : State) (port : Bool) (rid : Nat) (v : View) (off n : Nat) : (s.readDone port rid v off n).rel.adopted = s.rel.adopted := by
  unfold State.readDone
  dsimp only
  rw [State.adopted_touchRange, State.adopted_foldl]
  intros
  (repeat' split) <;> simp

/-! ### The orders (R321, R326 to R331, R423 to R427) -/

section
variable {s : State} {h : SlotHdr} {k : KernelRun} {q : QSlot} {r : RegFile} {f : SFmt}

theorem belayIssue_run {cmd : Instr} {acq : Bool} (hgo : s.slotGo cmd = some (h, k, q, r)) (hp : performed h r = true) (hlo : 8 ≤ f.sub) (hhi : f.sub ≤ 12)
    (halign : tileAddr r f.ra f.imm % 8 = 0) (hok : tileOk k (tileAddr r f.ra f.imm) 8 = true) (hexec : exec cmd s = belayIssue cmd f acq s) : Does cmd s fun t =>
      ∃ b, (t.core h.core).belays = (s.core h.core).belays ++ [b] ∧ b.acq = acq ∧ b.addr = tileAddr r f.ra f.imm ∧ b.tile = true ∧ b.value = r.xr f.rb ∧ b.id = s.nextId
        ∧ t.home = s.home := by
  have htile : bitAt f.sub 3 = true := by
    rw [bitAt]
    generalize f.sub = n at hlo hhi
    interval_cases n <;> rfl
  rw [belayIssue, slotRun_of_performed hgo hp] at hexec
  dsimp only at hexec
  rw [htile, if_pos rfl] at hexec
  dsimp only at hexec
  rw [if_neg (by omega), if_neg (by omega), hok, if_neg (by decide), if_neg (by simp), State.slotSaved, State.core_setCore_self, State.setCore_setCore] at hexec
  simp only [Bool.not_true, Bool.false_and, Bool.and_false, Bool.false_eq_true, if_false] at hexec
  obtain ⟨-, -, hbelays, hrest⟩ := State.slotDone_core _ cmd h
  refine ⟨_, hexec, { id := s.nextId, bundle := q.bundle, acq := acq, engine := engineOf cmd, scope := f.sub % 8, tile := true, addr := tileAddr r f.ra f.imm, eid := 0, key := 0, value := r.xr f.rb, retryAt := 0, satisfied := false }, hbelays.trans ?_, rfl, rfl, rfl, rfl, rfl, by rw [hrest]; rfl⟩
  show ((s.setCore h.core _).core h.core).belays = _
  rw [State.core_setCore_self]
  rfl

end

section
variable {s : State} {c : Nat} {b : Belay} {k : KernelRun}

theorem held_none {cmd : Instr} (hheld : ∀ e ∈ s.home.held, e.cmd ≠ cmd) : s.home.held.any (fun h => decide (h.cmd = cmd)) = false := by
  rw [List.any_eq_false]
  intro e he
  simpa using hheld e he

theorem State.belay?_belayOver (s : State) (n id : Nat) : ((s.belayOver n id).core n).belay? id = none := by
  rw [State.belayOver, State.core_setCore_self, Core.belay?, List.find?_eq_none]
  intro b hb
  have hid := of_decide_eq_true (List.mem_filter.mp hb).2
  simpa using hid

theorem Belay.find?_map {l : List Belay} {f : Belay → Belay} {x : Belay} (hx : l.find? (fun t => decide (t.id = x.id)) = some x) (hf : (f x).id = x.id) :
    (l.map fun t => if t.id = x.id then f t else t).find? (fun t => decide (t.id = x.id)) = some (f x) := by
  induction l with
  | nil => exact absurd hx (by simp)
  | cons a l ih =>
    rw [List.find?_cons] at hx
    rw [List.map_cons, List.find?_cons]
    by_cases ha : a.id = x.id
    · rw [if_pos ha]
      simp only [ha, decide_true] at hx
      obtain rfl : a = x := Option.some.inj hx
      simp [hf]
    · simp only [ha, decide_false] at hx
      rw [if_neg ha]
      simp only [ha, decide_false]
      exact ih hx

/-- A release to the tile store stores its value, once it is ready. -/
theorem belayRelStore_run (hruns : s.runs = true) (hb : (s.core c).belay? b.id = some b) (hk : (s.core c).kernel = some k) (hacq : b.acq = false) (htile : b.tile = true)
    (hsat : b.satisfied = false) (hready : s.relReady c b = true) (hheld : ∀ e ∈ s.home.held, e.cmd ≠ .belayRelStore c b.id) : Does (.belayRelStore c b.id) s fun t =>
      t = { s with cores := t.cores } ∧ t.tileRead c b.addr 8 = natLE 8 b.value.toNat ∧ (t.core c).belay? b.id = none := by
  have hexec : exec (.belayRelStore c b.id) s = execBelayRelStore c b.id s := rfl
  rw [execBelayRelStore, whenUp_of_runs hruns] at hexec
  dsimp only at hexec
  rw [hb, hk] at hexec
  dsimp only at hexec
  rw [hacq, hsat, hready, held_none hheld, if_neg (by decide), if_pos htile] at hexec
  refine ⟨_, hexec, rfl, ?_, State.belay?_belayOver _ _ _⟩
  rw [State.tileRead, State.belayOver, State.core_setCore_self, State.tileWrite, State.core_setCore_self]
  have h := Mem.readN_writeN_self (s.core c).tile b.addr (natLE 8 b.value.toNat)
  rwa [natLE_length] at h

theorem belayRelStore_waits (hruns : s.runs = true) (hb : (s.core c).belay? b.id = some b) (hk : (s.core c).kernel = some k) (hready : s.relReady c b = false) :
    exec (.belayRelStore c b.id) s = .next s := by
  have hexec : exec (.belayRelStore c b.id) s = execBelayRelStore c b.id s := rfl
  rw [execBelayRelStore, whenUp_of_runs hruns] at hexec
  dsimp only at hexec
  rw [hb, hk] at hexec
  dsimp only at hexec
  exact hexec.trans (if_pos (by rw [hready]; simp))

theorem belayOk_iff (w t : DWord) : belayOk w t = true ↔ 0 ≤ (w - t).toInt := by
  rw [belayOk, Bool.not_eq_true', BitVec.msb_eq_toInt, decide_eq_false_iff_not, not_lt]

theorem belayAcqSatisfied_tile (hruns : s.runs = true) (hb : (s.core c).belay? b.id = some b) (hk : (s.core c).kernel = some k) (hacq : b.acq = true) (htile : b.tile = true)
    (hheld : ∀ e ∈ s.home.held, e.cmd ≠ .belayAcqSatisfied c b.id) :
    let d : Int := (BitVec.ofNat 64 (leNat (s.tileRead c b.addr 8)) - b.value).toInt
    (0 ≤ d → Does (.belayAcqSatisfied c b.id) s fun t => t = { s with cores := t.cores } ∧ (t.core c).belay? b.id = none)
      ∧ (d < 0 → exec (.belayAcqSatisfied c b.id) s = .next s) := by
  have hexec : exec (.belayAcqSatisfied c b.id) s = execBelayAcqSatisfied c b.id s := rfl
  rw [execBelayAcqSatisfied, whenUp_of_runs hruns] at hexec
  dsimp only at hexec
  rw [hb, hk] at hexec
  dsimp only at hexec
  rw [hacq, held_none hheld, if_neg (by decide), if_pos htile] at hexec
  refine ⟨fun hd => ?_, fun hd => hexec.trans (if_neg fun hok => ?_)⟩
  · exact ⟨_, hexec.trans (if_pos ((belayOk_iff _ _).mpr hd)), rfl, State.belay?_belayOver _ _ _⟩
  · have hge := (belayOk_iff _ _).mp hok
    exact absurd hge (not_le.mpr hd)

theorem acquireRetry_run (hruns : s.runs = true) (hb : (s.core c).belay? b.id = some b) (hk : (s.core c).kernel = some k) (hacq : b.acq = true) (hown : s.isOwn b.eid = true)
    (hretry : b.retryAt ≠ 0) (hnow : b.retryAt ≤ s.now) (hfull : s.acquiresFull = false) : Does (.acquireRetry c b.id) s fun t =>
      t = { s with cores := t.cores } ∧ ∃ x, (t.core c).belay? b.id = some x ∧ x.retryAt = 0 := by
  have hexec : exec (.acquireRetry c b.id) s = execAcquireRetry c b.id s := rfl
  rw [execAcquireRetry, whenUp_of_runs hruns, hb, hk] at hexec
  dsimp only at hexec
  rw [if_neg (by simp [hacq, hretry, hnow]), if_pos hown, hfull] at hexec
  refine ⟨_, hexec, rfl, { b with retryAt := 0 }, ?_, rfl⟩
  rw [State.modBelay, State.core_setCore_self]
  exact Belay.find?_map hb rfl

end

section
variable {s u : State} {q : LmfReq} {v : DWord} {rid : Nat} {rg : Region}

/-- Outside publish mode a piece is written alike whatever the way. -/
theorem State.write1_direct {off : Nat} {data : Bytes} (hrg : s.region? rid = some rg) (hmode : rg.mode ≠ .publish) (i : Issuer) :
    s.write1 rid .direct off data = s.write1 rid (.shadowed i) off data := by
  unfold State.write1
  dsimp only
  rw [hrg]
  dsimp only
  generalize rg.mode = m at hmode
  cases m
  case publish => exact absurd rfl hmode
  all_goals rfl

/-- A release from another controller's engine that reaches its word. -/
theorem execBelayAccess_of_store (halign : q.offset % 8 = 0) (hlen : q.len = 8) (haccess : s.accesses (.belayAccess q true v) q false true needW = some (u, rid, rg))
    (hmet : u.meetWrite rid rg .direct q.offset 8 = .clear) : exec (.belayAccess q true v) s
      = .next (((u.writeRange rid .direct q.offset (natLE 8 v.toNat)).touchRange true rid .pub q.offset 8).answerAfter rid q.offset (natLE 8 v.toNat) none .ok (.lmf q [])) := by
  obtain ⟨htaken, hmax, hblock, hpermit, hgate⟩ := State.accesses_some haccess
  obtain ⟨hruns, hsourced, harrive⟩ := State.taken_some htaken
  have hexec : exec (.belayAccess q true v) s = execBelayAccess q true v s := rfl
  have hq : ({ q with len := 8 } : LmfReq) = q := by rw [← hlen]
  rw [execBelayAccess, whenUp_of_runs hruns] at hexec
  dsimp only at hexec
  rw [hsourced, harrive] at hexec
  dsimp only at hexec
  rw [if_neg (by omega), hq, if_pos rfl, State.serve_eq hmax hblock hpermit hgate, hmet] at hexec
  exact hexec

/-- An acquire from another controller's engine that reaches its word. -/
theorem execBelayAccess_of_load (halign : q.offset % 8 = 0) (hlen : q.len = 8) (haccess : s.accesses (.belayAccess q false v) q false false needR = some (u, rid, rg))
    (hmet : u.meetRead rid rg .pub q.offset 8 = .clear) : exec (.belayAccess q false v) s
      = if belayOk (BitVec.ofNat 64 (leNat (u.readRange rg .pub q.offset 8))) v || (u.readDone true rid .pub q.offset 8).acquiresFull then
          .next ((u.readDone true rid .pub q.offset 8).complete q .ok (u.readRange rg .pub q.offset 8))
        else .next { u.readDone true rid .pub q.offset 8 with home.acquires := (u.readDone true rid .pub q.offset 8).home.acquires
          ++ [{ eid := q.srcEid, tag := q.tag, gen := q.gen, rid := rid, key := q.key, off := q.offset, target := v, limit := (u.readDone true rid .pub q.offset 8).limitOf q }] } := by
  obtain ⟨htaken, hmax, hblock, hpermit, hgate⟩ := State.accesses_some haccess
  obtain ⟨hruns, hsourced, harrive⟩ := State.taken_some htaken
  have hexec : exec (.belayAccess q false v) s = execBelayAccess q false v s := rfl
  have hq : ({ q with len := 8 } : LmfReq) = q := by rw [← hlen]
  rw [execBelayAccess, whenUp_of_runs hruns] at hexec
  dsimp only at hexec
  rw [hsourced, harrive] at hexec
  dsimp only at hexec
  rw [if_neg (by omega), hq, if_neg (by decide), State.serve_eq hmax hblock hpermit hgate, hmet] at hexec
  exact hexec

/-- The word a release has written is seen, and its issuer is answered. -/
theorem belayAccess_store (halign : q.offset % 8 = 0) (hlen : q.len = 8) (haccess : s.accesses (.belayAccess q true v) q false true needW = some (u, rid, rg))
    (hmet : u.meetWrite rid rg .direct q.offset 8 = .clear) (hmirror : rg.mirror = 0) (hmode : rg.mode ≠ .publish) (hheld : u.pageHeld rg q.offset = true) :
    Completes (.belayAccess q true v) s q .ok [] fun t => t.shows rid .pub q.offset (natLE 8 v.toNat) := by
  obtain ⟨-, -, -, hpermit, -⟩ := State.accesses_some haccess
  obtain ⟨hrg, -⟩ := State.region?_of_permit hpermit
  have hexec := execBelayAccess_of_store halign hlen haccess hmet
  have hdata : (natLE 8 v.toNat).length ≠ 0 := by rw [natLE_length]; decide
  have hpage : q.offset / 65536 = (q.offset + (natLE 8 v.toNat).length - 1) / 65536 := by rw [natLE_length]; omega
  have hi : Issuer := { eid := 0, ctx := 0, admin := false }
  have hwrite : u.writeRange rid .direct q.offset (natLE 8 v.toNat) = u.writeRange rid (.shadowed hi) q.offset (natLE 8 v.toNat) := by
    rw [State.writeRange, State.writeRange, pieces_of_onePage hdata hpage, State.writePieces, State.writePieces, State.write1_direct hrg hmode hi]
    rfl
  have hmem : ((u.writeRange rid .direct q.offset (natLE 8 v.toNat)).touchRange true rid .pub q.offset 8).memory = (u.writeRange rid (.shadowed hi) q.offset (natLE 8 v.toNat)).memory := by
    rw [State.touchRange_memory, hwrite]
  have hterms : ((u.writeRange rid .direct q.offset (natLE 8 v.toNat)).touchRange true rid .pub q.offset 8).memory.terms rid = some (rg.mode, rg.mirror) := by
    have hold : u.memory.terms rid = some (rg.mode, rg.mirror) := by simp [Memory.terms, State.memory, hrg]
    rw [hmem, State.writeRange, State.writePieces_terms hold hmode, hold]
  rw [State.answerAfter_of_unmirrored hterms hmirror] at hexec
  refine ⟨_, hexec, State.shows_of_holds hdata hpage ?_⟩
  rw [hmem]
  exact State.writeRange_holds hrg hmode hheld hdata hpage hi

/-- An acquire whose word satisfies it is answered with the word; another waits, where there is room. -/
theorem belayAccess_load (halign : q.offset % 8 = 0) (hlen : q.len = 8) (haccess : s.accesses (.belayAccess q false v) q false false needR = some (u, rid, rg))
    (hmet : u.meetRead rid rg .pub q.offset 8 = .clear) :
    let w := u.readRange rg .pub q.offset 8
    (0 ≤ (BitVec.ofNat 64 (leNat w) - v).toInt → Completes (.belayAccess q false v) s q .ok w fun t => t.home.acquires = s.home.acquires)
      ∧ ((BitVec.ofNat 64 (leNat w) - v).toInt < 0 → u.acquiresFull = false → Does (.belayAccess q false v) s fun t => t.home.acquires.length = s.home.acquires.length + 1) := by
  have hexec := execBelayAccess_of_load halign hlen haccess hmet
  obtain ⟨htaken, -⟩ := State.accesses_some haccess
  obtain ⟨-, -, harrive⟩ := State.taken_some htaken
  have hacq : (u.readDone true rid .pub q.offset 8).home.acquires = s.home.acquires := by
    rw [State.acquires_readDone, (State.arrive_ok harrive).1, State.acquires_arrived]
  refine ⟨fun hd => ⟨_, hexec.trans (if_pos ?_), hacq⟩, fun hd hfull => ⟨_, hexec.trans (if_neg ?_), ?_⟩⟩
  · rw [(belayOk_iff _ _).mpr hd]
    rfl
  · have hbad : belayOk (BitVec.ofNat 64 (leNat (u.readRange rg .pub q.offset 8))) v = false := by
      rw [← Bool.not_eq_true, belayOk_iff]
      exact not_le.mpr hd
    have hroom : (u.readDone true rid .pub q.offset 8).acquiresFull = false := by
      have hown : ∀ eid, (u.readDone true rid .pub q.offset 8).isOwn eid = u.isOwn eid := fun eid => by
        rw [State.isOwn, State.adopted_readDone, show (u.readDone true rid .pub q.offset 8).lmf.eid = u.lmf.eid from congrArg Standing.eid (State.standing_readDone u true rid .pub q.offset 8)]
        rfl
      rw [← hfull, State.acquiresFull, State.acquires_readDone, State.ownAcquires, State.cores_readDone]
      simp only [hown]
      rfl
    rw [hbad, hroom]
    decide
  · show (_ ++ [_]).length = _
    rw [List.length_append, hacq]
    rfl

end

/-- Settles O30: the slots, the events of an order, and the requests of other controllers' engines, one lemma each. -/
theorem belayOrders : Obligations.BelayOrders := by
  unfold Obligations.BelayOrders
  refine ⟨fun s h k q r f hp hlo hhi halign hok => ⟨fun hgo => belayIssue_run hgo hp hlo hhi halign hok rfl, fun hgo => belayIssue_run hgo hp hlo hhi halign hok rfl⟩,
    fun s c b k hruns hreplay hb hk => ⟨fun hacq htile hsat hready hheld => belayRelStore_run hruns hb hk hacq htile hsat hready hheld, fun hacq hready => belayRelStore_waits hruns hb hk hready,
      fun hacq htile hheld => belayAcqSatisfied_tile hruns hb hk hacq htile hheld, fun hacq hown hretry hnow hfull => acquireRetry_run hruns hb hk hacq hown hretry hnow hfull⟩,
    fun s q v u rid rg halign hlen => ⟨fun haccess hmet hmirror hmode hheld => belayAccess_store halign hlen haccess hmet hmirror hmode hheld,
      fun haccess hmet => belayAccess_load halign hlen haccess hmet⟩⟩

end Sys2Proof.Machine

/-! PROOF. O34: loads and stores, host accesses, fault records and expired holds (02, 05, 16). -/

namespace Sys2Proof.Machine

/-! ### What a write leaves of the fault records, what an answer leaves of the waiting commands, and what a write leaves of the command under way -/

theorem State.faults_foldl {α : Type} {f : State → α → State} (h : ∀ s a, (f s a).home.faults = s.home.faults) (l : List α) (s : State) :
    (l.foldl f s).home.faults = s.home.faults := by
  induction l generalizing s with
  | nil => rfl
  | cons a l ih => rw [List.foldl_cons, ih, h]

theorem State.replay_foldl {α : Type} {f : State → α → State} (h : ∀ s a, (f s a).replay = s.replay) (l : List α) (s : State) : (l.foldl f s).replay = s.replay := by
  induction l generalizing s with
  | nil => rfl
  | cons a l ih => rw [List.foldl_cons, ih, h]

@[simp] theorem State.faults_emit (s : State) (o : Out) : (s.emit o).home.faults = s.home.faults := by
  rfl

@[simp] theorem State.faults_setFnWin (s : State) (port : Nat) (fn : Nat) (w : Window) : (s.setFnWin port fn w).home.faults = s.home.faults := by
  rfl

@[simp] theorem State.faults_event (s : State) (hw : Nat) (idx : Nat) (n : Nat) (ctx : Option Nat) : (s.event hw idx n ctx).home.faults = s.home.faults := by
  rfl

@[simp] theorem State.faults_traceFor (s : State) (selected : Bool) (die : Nat) (typ : Nat) (slots : Nat) (time : Nat) (body : List Word) : (s.traceFor selected die typ slots time body).home.faults = s.home.faults := by
  rfl

@[simp] theorem State.faults_cairnAt (s : State) (hw : Nat) (code : Nat) (ctx : Nat) (payload : Nat) (time : Nat) : (s.cairnAt hw code ctx payload time).home.faults = s.home.faults := by
  unfold State.cairnAt
  split <;> simp 

@[simp] theorem State.faults_cairn (s : State) (hw : Nat) (code : Nat) (ctx : Nat) (payload : Nat) : (s.cairn hw code ctx payload).home.faults = s.home.faults := by
  simp [State.cairn]

@[simp] theorem State.faults_strataEvent (s : State) (idx : Nat) (n : Nat) : (s.strataEvent idx n).home.faults = s.home.faults := by
  rfl

@[simp] theorem State.faults_workEnd (s : State) (hw : Nat) (ctx : Nat) (st : Status) (exc : Nat) : (s.workEnd hw ctx st exc).home.faults = s.home.faults := by
  simp [State.workEnd]

@[simp] theorem State.faults_release (s : State) (f : HoldWhy → Bool) : (s.release f).home.faults = s.home.faults := by
  rfl

@[simp] theorem State.faults_setPages (s : State) (t : Tab Handle) : (s.setPages t).home.faults = s.home.faults := by
  rfl

@[simp] theorem State.faults_modPage (s : State) (ref : PageRef) (f : TierPage → TierPage) : (s.modPage ref f).home.faults = s.home.faults := by
  rfl

@[simp] theorem State.faults_sweepTables (s : State) : (s.sweepTables).home.faults = s.home.faults := by
  rfl

@[simp] theorem State.faults_chooseTable (s : State) (rid : Nat) (r : Region) (bytes : Bytes) : (s.chooseTable rid r bytes).1.home.faults = s.home.faults := by
  unfold State.chooseTable
  simp [apply_ite (fun t : State => t.home.faults), State.faults_foldl]
  (repeat' split) <;> simp [apply_ite (fun t : State => t.home.faults), State.faults_foldl]

@[simp] theorem State.faults_nvmeIo (s : State) (slot : Nat) (op : NvmeOp) (lba : Nat) (n : Nat) : (s.nvmeIo slot op lba n).home.faults = s.home.faults := by
  unfold State.nvmeIo
  (repeat' split) <;> simp 

@[simp] theorem State.faults_nvmeAll (s : State) (op : NvmeOp) (lba : Nat) (n : Nat) : (s.nvmeAll op lba n).home.faults = s.home.faults := by
  simp [State.nvmeAll, apply_ite (fun t : State => t.home.faults), State.faults_foldl]

@[simp] theorem State.faults_stripesOut (s : State) (n : Nat) : (s.stripesOut n).home.faults = s.home.faults := by
  induction n generalizing s with
  | zero => rfl
  | succ n ih =>
    unfold State.stripesOut
    split <;> simp [ih]

@[simp] theorem State.faults_t2Put (s : State) (im : Image) : (s.t2Put im).home.faults = s.home.faults := by
  simp [State.t2Put]

@[simp] theorem State.faults_t2Get (s : State) (ref : PageRef) : (s.t2Get ref).home.faults = s.home.faults := by
  unfold State.t2Get
  split <;> simp

@[simp] theorem State.faults_memEvent (s : State) (layer : Nat) (idx : Nat) (n : Nat) (ref : PageRef) : (s.memEvent layer idx n ref).home.faults = s.home.faults := by
  rfl

@[simp] theorem State.faults_encoderRan (s : State) (ref : PageRef) (p : TierPage) (im : Image) : (s.encoderRan ref p im).home.faults = s.home.faults := by
  simp [State.encoderRan]

@[simp] theorem State.faults_encodeGroup (s : State) (rid : Nat) (refs : List PageRef) (b : TierPage → Backing) (place : Image → TierPage → TierPage) :
    (s.encodeGroup rid refs b place).home.faults = s.home.faults := by
  unfold State.encodeGroup
  split
  · rfl
  · dsimp only
    rw [State.faults_sweepTables, State.faults_foldl, State.faults_chooseTable]
    intro s ref
    (repeat' split) <;> simp 

@[simp] theorem State.faults_writeBackNow (s : State) (ref : PageRef) : (s.writeBackNow ref).home.faults = s.home.faults := by
  unfold State.writeBackNow
  split <;> simp

@[simp] theorem State.faults_evict (s : State) (e : PageRef × TierPage) : (s.evict e).home.faults = s.home.faults := by
  unfold State.evict
  split <;> simp

@[simp] theorem State.faults_roomT0 (s : State) : (s.roomT0).home.faults = s.home.faults := by
  unfold State.roomT0
  (repeat' split) <;> simp

@[simp] theorem State.faults_fillT0 (s : State) (ref : PageRef) : (s.fillT0 ref).home.faults = s.home.faults := by
  unfold State.fillT0
  (repeat' split) <;> simp

@[simp] theorem State.faults_allocate (s : State) (rid : Nat) (p : Nat) (r : Region) : (s.allocate rid p r).home.faults = s.home.faults := by
  unfold State.allocate
  split <;> simp 

@[simp] theorem State.faults_ensurePage (s : State) (rid : Nat) (p : Nat) : (s.ensurePage rid p).home.faults = s.home.faults := by
  unfold State.ensurePage
  (repeat' split) <;> simp

@[simp] theorem State.faults_commit (s : State) : (s.commit).home.faults = s.home.faults := by
  rfl

@[simp] theorem State.faults_makeShadow (s : State) (rid : Nat) (p : Nat) (i : Issuer) : (s.makeShadow rid p i).home.faults = s.home.faults := by
  unfold State.makeShadow
  simp [apply_ite (fun t : State => t.home.faults), State.faults_foldl]
  (repeat' split) <;> simp [apply_ite (fun t : State => t.home.faults), State.faults_foldl]

@[simp] theorem State.faults_putRef (s : State) (ref : PageRef) (off : Nat) (data : Bytes) : (s.putRef ref off data).home.faults = s.home.faults := by
  simp [State.putRef, apply_ite (fun t : State => t.home.faults), State.faults_foldl]

@[simp] theorem State.faults_directMap (s : State) (rid p off n : Nat) (f : Bytes → Bytes) : (s.directMap rid p off n f).home.faults = s.home.faults := by
  unfold State.directMap
  dsimp only
  (repeat' split)
  · simp
  · simp
  · rw [State.faults_foldl (fun s ref => ?_), State.faults_ensurePage]
    (repeat' split) <;> simp

@[simp] theorem State.faults_write1 (s : State) (rid : Nat) (w : Way) (off : Nat) (data : Bytes) : (s.write1 rid w off data).home.faults = s.home.faults := by
  unfold State.write1
  simp [apply_ite (fun t : State => t.home.faults), State.faults_foldl]
  (repeat' split) <;> simp [apply_ite (fun t : State => t.home.faults), State.faults_foldl]

@[simp] theorem State.faults_writePieces (s : State) (rid : Nat) (w : Way) (data : Bytes) (off : Nat) (ps : List (Nat × Nat)) :
    (s.writePieces rid w data off ps).home.faults = s.home.faults := by
  induction ps generalizing s with
  | nil => rfl
  | cons p ps ih => simp [State.writePieces, ih]

@[simp] theorem State.faults_writeRange (s : State) (rid : Nat) (w : Way) (off : Nat) (data : Bytes) : (s.writeRange rid w off data).home.faults = s.home.faults := by
  simp [State.writeRange]

@[simp] theorem State.faults_vector (s : State) (port : Nat) (fn : Nat) (v : Nat) : (s.vector port fn v).home.faults = s.home.faults := by
  simp [State.vector, apply_ite (fun t : State => t.home.faults), State.faults_foldl]

@[simp] theorem State.faults_rsFn (s : State) (port : Nat) (fn : Nat) : (s.rsFn port fn).home.faults = s.home.faults := by
  rfl

@[simp] theorem State.faults_setLine (s : State) (rid : Nat) (ln : Nat) (l : Line) : (s.setLine rid ln l).home.faults = s.home.faults := by
  rfl

@[simp] theorem State.faults_freeLine (s : State) (rid : Nat) (ln : Nat) : (s.freeLine rid ln).home.faults = s.home.faults := by
  unfold State.freeLine
  (repeat' split) <;> simp 

@[simp] theorem State.faults_tidyLine (s : State) (rid : Nat) (ln : Nat) : (s.tidyLine rid ln).home.faults = s.home.faults := by
  unfold State.tidyLine
  (repeat' split) <;> simp 

@[simp] theorem State.faults_served (s : State) (rid : Nat) (ln : Nat) (eid : Nat) : (s.served rid ln eid).home.faults = s.home.faults := by
  unfold State.served
  (repeat' split) <;> simp

@[simp] theorem State.faults_claim (s : State) (cmd : Instr) : (s.claim cmd).home.faults = s.home.faults := by
  simp [State.claim, apply_ite (fun t : State => t.home.faults), State.faults_foldl]

@[simp] theorem State.faults_takeUp (s : State) (a : Again) : (s.takeUp a).home.faults = s.home.faults := by
  unfold State.takeUp
  (repeat' split) <;> simp [apply_ite (fun t : State => t.home.faults), State.faults_foldl]

@[simp] theorem State.faults_again (s : State) (a : Again) (more : List Again) : (s.again a more).home.faults = s.home.faults := by
  simp [State.again]

@[simp] theorem State.replay_emit (s : State) (o : Out) : (s.emit o).replay = s.replay := by
  rfl

@[simp] theorem State.replay_event (s : State) (hw : Nat) (idx : Nat) (n : Nat) (ctx : Option Nat) : (s.event hw idx n ctx).replay = s.replay := by
  rfl

@[simp] theorem State.replay_traceFor (s : State) (selected : Bool) (die : Nat) (typ : Nat) (slots : Nat) (time : Nat) (body : List Word) : (s.traceFor selected die typ slots time body).replay = s.replay := by
  rfl

@[simp] theorem State.replay_cairnAt (s : State) (hw : Nat) (code : Nat) (ctx : Nat) (payload : Nat) (time : Nat) : (s.cairnAt hw code ctx payload time).replay = s.replay := by
  unfold State.cairnAt
  split <;> simp 

@[simp] theorem State.replay_cairn (s : State) (hw : Nat) (code : Nat) (ctx : Nat) (payload : Nat) : (s.cairn hw code ctx payload).replay = s.replay := by
  simp [State.cairn]

@[simp] theorem State.replay_strataEvent (s : State) (idx : Nat) (n : Nat) : (s.strataEvent idx n).replay = s.replay := by
  rfl

@[simp] theorem State.replay_wakeWhere (s : State) (f : Domain → Bool) : (s.wakeWhere f).replay = s.replay := by
  rfl

@[simp] theorem State.replay_wakeDomain (s : State) (d : Domain) : (s.wakeDomain d).replay = s.replay := by
  rfl

@[simp] theorem State.replay_workEnd (s : State) (hw : Nat) (ctx : Nat) (st : Status) (exc : Nat) : (s.workEnd hw ctx st exc).replay = s.replay := by
  simp [State.workEnd]

@[simp] theorem State.replay_release (s : State) (f : HoldWhy → Bool) : (s.release f).replay = s.replay := by
  rfl

@[simp] theorem State.replay_setPages (s : State) (t : Tab Handle) : (s.setPages t).replay = s.replay := by
  rfl

@[simp] theorem State.replay_modPage (s : State) (ref : PageRef) (f : TierPage → TierPage) : (s.modPage ref f).replay = s.replay := by
  rfl

@[simp] theorem State.replay_sweepTables (s : State) : (s.sweepTables).replay = s.replay := by
  rfl

@[simp] theorem State.replay_chooseTable (s : State) (rid : Nat) (r : Region) (bytes : Bytes) : (s.chooseTable rid r bytes).1.replay = s.replay := by
  unfold State.chooseTable
  simp [apply_ite State.replay, State.replay_foldl]
  (repeat' split) <;> simp [apply_ite State.replay, State.replay_foldl]

@[simp] theorem State.replay_nvmeIo (s : State) (slot : Nat) (op : NvmeOp) (lba : Nat) (n : Nat) : (s.nvmeIo slot op lba n).replay = s.replay := by
  unfold State.nvmeIo
  (repeat' split) <;> simp 

@[simp] theorem State.replay_nvmeAll (s : State) (op : NvmeOp) (lba : Nat) (n : Nat) : (s.nvmeAll op lba n).replay = s.replay := by
  simp [State.nvmeAll, apply_ite State.replay, State.replay_foldl]

@[simp] theorem State.replay_stripesOut (s : State) (n : Nat) : (s.stripesOut n).replay = s.replay := by
  induction n generalizing s with
  | zero => rfl
  | succ n ih =>
    unfold State.stripesOut
    split <;> simp [ih]

@[simp] theorem State.replay_t2Put (s : State) (im : Image) : (s.t2Put im).replay = s.replay := by
  simp [State.t2Put]

@[simp] theorem State.replay_t2Get (s : State) (ref : PageRef) : (s.t2Get ref).replay = s.replay := by
  unfold State.t2Get
  split <;> simp

@[simp] theorem State.replay_memEvent (s : State) (layer : Nat) (idx : Nat) (n : Nat) (ref : PageRef) : (s.memEvent layer idx n ref).replay = s.replay := by
  rfl

@[simp] theorem State.replay_encoderRan (s : State) (ref : PageRef) (p : TierPage) (im : Image) : (s.encoderRan ref p im).replay = s.replay := by
  simp [State.encoderRan]

@[simp] theorem State.replay_encodeGroup (s : State) (rid : Nat) (refs : List PageRef) (b : TierPage → Backing) (place : Image → TierPage → TierPage) :
    (s.encodeGroup rid refs b place).replay = s.replay := by
  unfold State.encodeGroup
  split
  · rfl
  · dsimp only
    rw [State.replay_sweepTables, State.replay_foldl, State.replay_chooseTable]
    intro s ref
    (repeat' split) <;> simp 

@[simp] theorem State.replay_writeBackNow (s : State) (ref : PageRef) : (s.writeBackNow ref).replay = s.replay := by
  unfold State.writeBackNow
  split <;> simp

@[simp] theorem State.replay_evict (s : State) (e : PageRef × TierPage) : (s.evict e).replay = s.replay := by
  unfold State.evict
  split <;> simp

@[simp] theorem State.replay_roomT0 (s : State) : (s.roomT0).replay = s.replay := by
  unfold State.roomT0
  (repeat' split) <;> simp

@[simp] theorem State.replay_fillT0 (s : State) (ref : PageRef) : (s.fillT0 ref).replay = s.replay := by
  unfold State.fillT0
  (repeat' split) <;> simp

@[simp] theorem State.replay_touch (s : State) (port : Bool) (ref : PageRef) (off : Nat) (n : Nat) : (s.touch port ref off n).replay = s.replay := by
  unfold State.touch
  simp [apply_ite State.replay, State.replay_foldl]
  (repeat' split) <;> simp [apply_ite State.replay, State.replay_foldl]

@[simp] theorem State.replay_allocate (s : State) (rid : Nat) (p : Nat) (r : Region) : (s.allocate rid p r).replay = s.replay := by
  unfold State.allocate
  split <;> simp 

@[simp] theorem State.replay_ensurePage (s : State) (rid : Nat) (p : Nat) : (s.ensurePage rid p).replay = s.replay := by
  unfold State.ensurePage
  (repeat' split) <;> simp

@[simp] theorem State.replay_commit (s : State) : (s.commit).replay = s.replay := by
  rfl

@[simp] theorem State.replay_makeShadow (s : State) (rid : Nat) (p : Nat) (i : Issuer) : (s.makeShadow rid p i).replay = s.replay := by
  unfold State.makeShadow
  simp [apply_ite State.replay, State.replay_foldl]
  (repeat' split) <;> simp [apply_ite State.replay, State.replay_foldl]

@[simp] theorem State.replay_touchRange (s : State) (port : Bool) (rid : Nat) (v : View) (off n : Nat) : (s.touchRange port rid v off n).replay = s.replay := by
  refine State.replay_foldl (fun s q => ?_) _ _
  (repeat' split) <;> simp

@[simp] theorem State.replay_putRef (s : State) (ref : PageRef) (off : Nat) (data : Bytes) : (s.putRef ref off data).replay = s.replay := by
  simp [State.putRef, apply_ite State.replay, State.replay_foldl]

@[simp] theorem State.replay_directMap (s : State) (rid p off n : Nat) (f : Bytes → Bytes) : (s.directMap rid p off n f).replay = s.replay := by
  unfold State.directMap
  dsimp only
  (repeat' split)
  · simp
  · simp
  · rw [State.replay_foldl (fun s ref => ?_), State.replay_ensurePage]
    (repeat' split) <;> simp

@[simp] theorem State.replay_write1 (s : State) (rid : Nat) (w : Way) (off : Nat) (data : Bytes) : (s.write1 rid w off data).replay = s.replay := by
  unfold State.write1
  simp [apply_ite State.replay, State.replay_foldl]
  (repeat' split) <;> simp [apply_ite State.replay, State.replay_foldl]

@[simp] theorem State.replay_writePieces (s : State) (rid : Nat) (w : Way) (data : Bytes) (off : Nat) (ps : List (Nat × Nat)) :
    (s.writePieces rid w data off ps).replay = s.replay := by
  induction ps generalizing s with
  | nil => rfl
  | cons p ps ih => simp [State.writePieces, ih]

@[simp] theorem State.replay_writeRange (s : State) (rid : Nat) (w : Way) (off : Nat) (data : Bytes) : (s.writeRange rid w off data).replay = s.replay := by
  simp [State.writeRange]

@[simp] theorem State.replay_bivouacEnd (s : State) : (s.bivouacEnd).replay = s.replay := by
  unfold State.bivouacEnd
  rw [State.replay_foldl State.replay_wakeDomain] <;> rfl

@[simp] theorem State.replay_stir (s : State) : (s.stir).replay = s.replay := by
  unfold State.stir
  split <;> simp

theorem State.held_foldl {α : Type} {f : State → α → State} (h : ∀ s a, (f s a).home.held = s.home.held) (l : List α) (s : State) :
    (l.foldl f s).home.held = s.home.held := by
  induction l generalizing s with
  | nil => rfl
  | cons a l ih => rw [List.foldl_cons, ih, h]

@[simp] theorem State.held_emit (s : State) (o : Out) : (s.emit o).home.held = s.home.held := by
  rfl

@[simp] theorem State.held_event (s : State) (hw : Nat) (idx : Nat) (n : Nat) (ctx : Option Nat) : (s.event hw idx n ctx).home.held = s.home.held := by
  rfl

@[simp] theorem State.held_complete (s : State) (q : LmfReq) (st : Status) (data : Bytes) : (s.complete q st data).home.held = s.home.held := by
  rfl

@[simp] theorem State.held_setLine (s : State) (rid : Nat) (ln : Nat) (l : Line) : (s.setLine rid ln l).home.held = s.home.held := by
  rfl

@[simp] theorem State.held_freeLine (s : State) (rid : Nat) (ln : Nat) : (s.freeLine rid ln).home.held = s.home.held := by
  unfold State.freeLine
  (repeat' split) <;> simp 

@[simp] theorem State.held_claim (s : State) (cmd : Instr) : (s.claim cmd).home.held = s.home.held := by
  simp [State.claim, apply_ite (fun t : State => t.home.held), State.held_foldl]

@[simp] theorem State.held_forsake (s : State) (cmd : Instr) : (s.forsake cmd).home.held = s.home.held := by
  simp [State.forsake]

/-! ### Loads and stores (R62, R88, R95, R188 to R190, R628 to R631, R875) -/

section
variable {s u : State} {q : LmfReq} {d : Bytes} {rid : Nat} {rg : Region}

theorem lmfLoad_run (haccess : s.accesses (.lmfLoad q) q false false needR = some (u, rid, rg)) (hmet : u.meetRead rid rg (.own (LmfIssuer q)) q.offset q.len = .clear) :
    Completes (.lmfLoad q) s q .ok (u.gotSoFar ++ u.readRange rg (.own (LmfIssuer q)) q.offset q.len) fun _ => True := by
  obtain ⟨htaken, hmax, hblock, hpermit, hgate⟩ := State.accesses_some haccess
  obtain ⟨hruns, hsourced, harrive⟩ := State.taken_some htaken
  have hexec : exec (.lmfLoad q) s = execLmfLoad q s := rfl
  rw [execLmfLoad, whenUp_of_runs hruns] at hexec
  dsimp only at hexec
  rw [hsourced, harrive] at hexec
  dsimp only at hexec
  rw [State.serve_eq hmax hblock hpermit hgate, hmet] at hexec
  exact ⟨_, hexec, trivial⟩

/-- A store that its range takes writes the range, then answers. -/
theorem execLmfStore_of_accesses (hlen : d.length = q.len) (haccess : s.accesses (.lmfStore q d) q false true needW = some (u, rid, rg))
    (hmet : u.meetWrite rid rg (.shadowed (LmfIssuer q)) q.offset q.len = .clear) : exec (.lmfStore q d) s
      = .next (if rg.mode = .publish then ((u.writeRange rid (.shadowed (LmfIssuer q)) q.offset d).touchRange true rid (.own (LmfIssuer q)) q.offset d.length).complete q .ok []
        else ((u.writeRange rid (.shadowed (LmfIssuer q)) q.offset d).touchRange true rid (.own (LmfIssuer q)) q.offset d.length).answerAfter rid q.offset d none .ok (.lmf q [])) := by
  obtain ⟨htaken, hmax, hblock, hpermit, hgate⟩ := State.accesses_some haccess
  obtain ⟨hruns, hsourced, harrive⟩ := State.taken_some htaken
  have hexec : exec (.lmfStore q d) s = execLmfStore q d s := rfl
  have htake : d.take q.len = d := by rw [← hlen, List.take_length]
  rw [execLmfStore, whenUp_of_runs hruns] at hexec
  dsimp only at hexec
  rw [hsourced, htake, harrive] at hexec
  dsimp only at hexec
  rw [State.serve_eq hmax hblock hpermit hgate, hlen, hmet] at hexec
  dsimp only at hexec
  rw [hexec, hlen, apply_ite Host.Outcome.next]

/-- After a write of a range within one page outside publish mode, in a region without a partner, the bytes are seen, and the issuer is answered at once. -/
theorem State.written_shows {v : State} {off : Nat} {i : Issuer} (hrg : u.region? rid = some rg) (hmode : rg.mode ≠ .publish) (hmirror : rg.mirror = 0)
    (hpage : d.length ≠ 0 → off / 65536 = (off + d.length - 1) / 65536) (hheld : u.pageHeld rg off = true) (hmem : v.memory = (u.writeRange rid (.shadowed i) off d).memory) :
    v.shows rid .pub off d ∧ ∀ data log st a, v.answerAfter rid off data log st a = v.giveAnswer st a := by
  have hterms : v.memory.terms rid = some (rg.mode, rg.mirror) := by
    have hold : u.memory.terms rid = some (rg.mode, rg.mirror) := by simp [Memory.terms, State.memory, hrg]
    rw [hmem, State.writeRange, State.writePieces_terms hold hmode, hold]
  refine ⟨?_, fun data log st a => State.answerAfter_of_unmirrored hterms hmirror _ _ _ _ _⟩
  by_cases hdata : d.length = 0
  · obtain rfl := List.length_eq_zero_iff.mp hdata
    exact State.shows_nil hterms _ _
  · refine State.shows_of_holds hdata (hpage hdata) ?_
    rw [hmem]
    exact State.writeRange_holds hrg hmode hheld hdata (hpage hdata) i

theorem lmfStore_run (hlen : d.length = q.len) (haccess : s.accesses (.lmfStore q d) q false true needW = some (u, rid, rg)) (hmode : rg.mode ≠ .publish) (hmirror : rg.mirror = 0)
    (hmet : u.meetWrite rid rg (.shadowed (LmfIssuer q)) q.offset q.len = .clear) (hheld : u.pageHeld rg q.offset = true) :
    Completes (.lmfStore q d) s q .ok [] fun t => t.shows rid .pub q.offset d := by
  obtain ⟨-, -, hblock, hpermit, -⟩ := State.accesses_some haccess
  obtain ⟨hrg, -⟩ := State.region?_of_permit hpermit
  have hexec := execLmfStore_of_accesses hlen haccess hmet
  obtain ⟨hshows, hanswer⟩ := State.written_shows hrg hmode hmirror (fun hd => onePage_of_inBlock (by omega) (by rw [hlen]; exact hblock)) hheld
    (State.touchRange_memory (u.writeRange rid (.shadowed (LmfIssuer q)) q.offset d) true rid (.own (LmfIssuer q)) q.offset d.length)
  rw [if_neg hmode, hanswer] at hexec
  exact ⟨_, hexec, hshows⟩

theorem lmfStore_publish (hlen : d.length = q.len) (haccess : s.accesses (.lmfStore q d) q false true needW = some (u, rid, rg)) (hmode : rg.mode = .publish)
    (hmet : u.meetWrite rid rg (.shadowed (LmfIssuer q)) q.offset q.len = .clear) : Completes (.lmfStore q d) s q .ok [] fun _ => True := by
  have hexec := execLmfStore_of_accesses hlen haccess hmet
  rw [if_pos hmode] at hexec
  exact ⟨_, hexec, trivial⟩

end

section
variable {s : State} {p hpa n off rid : Nat} {w : HostWindow} {rg : Region}

theorem cxlMemRead_run (hruns : s.runs = true) (hwindow : s.stir.windowAt p hpa = some (n, w, off)) (hctx : s.stir.ctxIs w.ctx .resetting = false) (hgate : s.stir.gate rid rg = none)
    (hpermit : s.stir.permit s.stir.lmf.eid w.key (off - off % 64) 64 needR (s.stir.windowIssuer w) = some (rid, rg))
    (hmet : s.stir.meetRead rid rg (.own (s.stir.windowIssuer w)) (off - off % 64) 64 = .clear) : Does (.cxlMemRead p hpa) s fun t =>
      t.out.head? = some (.cxlData p (s.stir.readRange rg (.own (s.stir.windowIssuer w)) (off - off % 64) 64) false) := by
  have hexec : exec (.cxlMemRead p hpa) s = execCxlMemRead p hpa s := rfl
  rw [execCxlMemRead, whenUp_of_runs hruns] at hexec
  dsimp only at hexec
  rw [hwindow] at hexec
  dsimp only at hexec
  rw [hctx, if_neg (by decide), hpermit] at hexec
  dsimp only at hexec
  rw [hgate] at hexec
  dsimp only at hexec
  rw [hmet] at hexec
  exact ⟨_, hexec, rfl⟩

theorem cxlMemWrite_run {d : Bytes} (hruns : s.runs = true) (hwindow : s.stir.windowAt p hpa = some (n, w, off)) (hctx : s.stir.ctxIs w.ctx .resetting = false) (hgate : s.stir.gate rid rg = none)
    (hlen : d.length ≤ 64 - hpa % 64) (hreplay : s.replayOf = none) (hqueued : s.stir.lineQueued p hpa = false)
    (hpermit : s.stir.permit s.stir.lmf.eid w.key off d.length needW (s.stir.windowIssuer w) = some (rid, rg)) (hmode : rg.mode ≠ .publish) (hmirror : rg.mirror = 0)
    (hmet : s.stir.meetWrite rid rg (.shadowed (s.stir.windowIssuer w)) off d.length = .clear) (hpage : off / 65536 = (off + d.length - 1) / 65536) (hheld : s.stir.pageHeld rg off = true) :
    Does (.cxlMemWrite p hpa d false) s fun t => t.out.head? = some (.cxlDone p) ∧ t.shows rid .pub off d := by
  obtain ⟨hrg, -⟩ := State.region?_of_permit hpermit
  have hexec : exec (.cxlMemWrite p hpa d false) s = execCxlMemWrite p hpa d false s := rfl
  have htake : d.take (64 - hpa % 64) = d := List.take_of_length_le hlen
  rw [execCxlMemWrite, whenUp_of_runs hruns] at hexec
  dsimp only at hexec
  rw [htake, hqueued, if_neg (by decide), hwindow] at hexec
  dsimp only at hexec
  rw [hctx, if_neg (by decide), hpermit] at hexec
  dsimp only at hexec
  rw [hgate] at hexec
  dsimp only at hexec
  rw [if_neg (by decide), hmet] at hexec
  dsimp only at hexec
  have hmem : (((s.stir.writeRange rid (.shadowed (s.stir.windowIssuer w)) off d).touchRange true rid (.own (s.stir.windowIssuer w)) off d.length).event (hostUnit p) 0 d.length none).memory
      = (s.stir.writeRange rid (.shadowed (s.stir.windowIssuer w)) off d).memory := by
    rw [← State.touchRange_memory (s.stir.writeRange rid (.shadowed (s.stir.windowIssuer w)) off d) true rid (.own (s.stir.windowIssuer w)) off d.length]
    exact State.memory_of_home rfl
  obtain ⟨hshows, hanswer⟩ := State.written_shows hrg hmode hmirror (fun _ => hpage) hheld hmem
  have hplain : (((s.stir.writeRange rid (.shadowed (s.stir.windowIssuer w)) off d).touchRange true rid (.own (s.stir.windowIssuer w)) off d.length).event (hostUnit p) 0 d.length none).replayOf = none := by
    rw [State.replayOf, State.replay_event, State.replay_touchRange, State.replay_writeRange, State.replay_stir]
    exact hreplay
  rw [if_neg (by decide), if_neg hmode, hplain, hanswer] at hexec
  exact ⟨_, hexec, rfl, hshows⟩

end

section
variable {s : State}

theorem faultRecordWrite_run {f : FaultRec} {g : Ring} {v : State} (hruns : s.runs = true) (hf : s.home.faults.find? (fun x => !x.written) = some f) (hroom : s.faultRoom = true)
    (hring : Tab.get? s.home.faultRings s.host.owner = some g)
    (hrecord : s.recordAt g.key (g.off + 32 * ((s.fnWin s.host.owner 0).faultProd % 8192)) (bytesOf f.words) = some v) :
    Does (.faultRecordWrite f.seq) s fun t => ∃ x ∈ t.home.faults, x.seq = f.seq ∧ x.written = true := by
  have hexec : exec (.faultRecordWrite f.seq) s = execFaultRecordWrite f.seq s := rfl
  rw [execFaultRecordWrite, whenUp_of_runs hruns, hf] at hexec
  dsimp only at hexec
  rw [if_pos ⟨rfl, hroom⟩, State.faultWrite, hring] at hexec
  dsimp only at hexec
  rw [hrecord] at hexec
  dsimp only at hexec
  have hfaults : v.home.faults = s.home.faults := by
    unfold State.recordAt State.recordIn at hrecord
    (repeat' split at hrecord) <;> cases hrecord
    exact State.faults_writeRange _ _ _ _ _
  refine ⟨_, hexec, { f with written := true }, ?_, rfl, rfl⟩
  rw [State.faults_vector, State.faults_rsFn, State.faults_setFnWin, hfaults]
  exact List.mem_map.mpr ⟨f, List.mem_of_find?_eq_some hf, if_pos rfl⟩

theorem faultHoldExpiry_run {h : Held} {q : LmfReq} (hruns : s.runs = true) (hh : s.home.held.find? (fun x => decide (x.id = h.id)) = some h) (hcmd : h.cmd = .lmfLoad q)
    (hlimit : h.limit ≠ 0) (hnow : h.limit ≤ s.now) :
    Does (.faultHoldExpiry h.id) s fun t => (∀ x ∈ t.home.held, x.id ≠ h.id) ∧ .cpl q.srcEid q.tag q.gen .paused [] ∈ t.out := by
  have hexec : exec (.faultHoldExpiry h.id) s = execFaultHoldExpiry h.id s := rfl
  rw [execFaultHoldExpiry, whenUp_of_runs hruns, hh] at hexec
  dsimp only at hexec
  rw [if_pos ⟨hlimit, hnow⟩] at hexec
  obtain ⟨u, hu, hheld⟩ : ∃ u : State, s.endHeld h .paused = u.complete q .paused [] ∧ u.home.held = s.home.held.filter (fun (x : Held) => decide (x.id ≠ h.id)) := by
    unfold State.endHeld
    rw [hcmd]
    refine ⟨_, rfl, ?_⟩
    split
    · rw [State.held_forsake]; rfl
    · rfl
  rw [hu] at hexec
  refine ⟨_, hexec, fun x hx => ?_, List.mem_cons_self⟩
  have hx' : x ∈ u.home.held := (List.mem_filter.mp hx).1
  rw [hheld] at hx'
  exact of_decide_eq_true (List.mem_filter.mp hx').2

end

/-- Settles O34: loads and stores of the LMF and of hosts, a fault record and a hold, one lemma each. -/
theorem loadsAndStores : Obligations.LoadsAndStores := by
  unfold Obligations.LoadsAndStores
  intro s
  refine ⟨fun q u rid rg haccess hmet => lmfLoad_run haccess hmet, fun q d u rid rg hlen haccess hmode hmirror hmet hheld => lmfStore_run hlen haccess hmode hmirror hmet hheld,
    fun q d u rid rg hlen haccess hmode hmet => lmfStore_publish hlen haccess hmode hmet, fun p hpa hruns n w off rid rg hwindow hctx hgate => ⟨fun hpermit hmet => ?_, ?_⟩,
    fun f g v hruns hf hroom hring hrecord => faultRecordWrite_run hruns hf hroom hring hrecord, fun h q hruns hh hcmd hlimit hnow => faultHoldExpiry_run hruns hh hcmd hlimit hnow⟩
  · exact cxlMemRead_run hruns hwindow hctx hgate hpermit hmet
  · intro d hlen hreplay hqueued hpermit hmode hmirror hmet hpage hheld
    exact cxlMemWrite_run hruns hwindow hctx hgate hlen hreplay hqueued hpermit hmode hmirror hmet hpage hheld

end Sys2Proof.Machine

/-! PROOF. O47: the error store, health records, parameters, known-answer tests and quarantine (19). What an error leaves of the error store and of the units' records is said once. -/

namespace Sys2Proof.Machine

/-! ### What memory, events and cairns leave of the error store and of the units' records -/

/-- The error store and the units' health records (R758, R767). -/
def State.health (s : State) : List ErrorRec × Tab UnitRec := (s.rel.errors, s.rel.units)

theorem State.health_foldl {α : Type} {f : State → α → State} (h : ∀ s a, (f s a).health = s.health) (l : List α) (s : State) : (l.foldl f s).health = s.health := by
  induction l generalizing s with
  | nil => rfl
  | cons a l ih => rw [List.foldl_cons, ih, h]

/-- An update that leaves the reliability unit leaves both. -/
@[simp] theorem State.health_mk (s : State) (home : Home) (strata : Strata) (rope : Rope) (cores : Tab Core) (kernels : List KernelQ) (expert : Expert) (trav : Traverse) (mor : Moraine)
    (bci : Bci) (host : Hosts) (lmf : Lmf) (pow : Power) (time : TimeUnit) (sec : Sec) (obs : Obs) (pkg : Package) (out : List Out) (resume : List Again)
    (replay : Option Again) (freeCtr nextId : Nat) (pending : List Instr) :
    State.health ⟨home, strata, rope, cores, kernels, expert, trav, mor, bci, host, lmf, pow, time, s.rel, sec, obs, pkg, out, resume, replay, freeCtr, nextId, pending⟩ = s.health := rfl

@[simp] theorem State.health_emit (s : State) (o : Out) : (s.emit o).health = s.health := by
  rfl

@[simp] theorem State.health_event (s : State) (hw : Nat) (idx : Nat) (n : Nat) (ctx : Option Nat) : (s.event hw idx n ctx).health = s.health := by
  rfl

@[simp] theorem State.health_traceFor (s : State) (selected : Bool) (die : Nat) (typ : Nat) (slots : Nat) (time : Nat) (body : List Word) : (s.traceFor selected die typ slots time body).health = s.health := by
  rfl

@[simp] theorem State.health_traceGen (s : State) (die : Nat) (typ : Nat) (slots : Nat) (time : Nat) (body : List Word) : (s.traceGen die typ slots time body).health = s.health := by
  rfl

@[simp] theorem State.health_cairnAt (s : State) (hw : Nat) (code : Nat) (ctx : Nat) (payload : Nat) (time : Nat) : (s.cairnAt hw code ctx payload time).health = s.health := by
  unfold State.cairnAt
  split <;> simp 

@[simp] theorem State.health_cairn (s : State) (hw : Nat) (code : Nat) (ctx : Nat) (payload : Nat) : (s.cairn hw code ctx payload).health = s.health := by
  simp [State.cairn]

@[simp] theorem State.health_strataEvent (s : State) (idx : Nat) (n : Nat) : (s.strataEvent idx n).health = s.health := by
  rfl

@[simp] theorem State.health_errorCount (s : State) (hw : Nat) (cls : Nat) : (s.errorCount hw cls).health = s.health := by
  rfl

@[simp] theorem State.health_workEnd (s : State) (hw : Nat) (ctx : Nat) (st : Status) (exc : Nat) : (s.workEnd hw ctx st exc).health = s.health := by
  simp [State.workEnd]

@[simp] theorem State.health_release (s : State) (f : HoldWhy → Bool) : (s.release f).health = s.health := by
  rfl

@[simp] theorem State.health_setPages (s : State) (t : Tab Handle) : (s.setPages t).health = s.health := by
  rfl

@[simp] theorem State.health_modPage (s : State) (ref : PageRef) (f : TierPage → TierPage) : (s.modPage ref f).health = s.health := by
  rfl

@[simp] theorem State.health_sweepTables (s : State) : (s.sweepTables).health = s.health := by
  rfl

@[simp] theorem State.health_chooseTable (s : State) (rid : Nat) (r : Region) (bytes : Bytes) : (s.chooseTable rid r bytes).1.health = s.health := by
  unfold State.chooseTable
  simp [apply_ite State.health, State.health_foldl]
  (repeat' split) <;> simp [apply_ite State.health, State.health_foldl]

@[simp] theorem State.health_nvmeIo (s : State) (slot : Nat) (op : NvmeOp) (lba : Nat) (n : Nat) : (s.nvmeIo slot op lba n).health = s.health := by
  unfold State.nvmeIo
  (repeat' split) <;> simp 

@[simp] theorem State.health_nvmeAll (s : State) (op : NvmeOp) (lba : Nat) (n : Nat) : (s.nvmeAll op lba n).health = s.health := by
  simp [State.nvmeAll, apply_ite State.health, State.health_foldl]

@[simp] theorem State.health_stripesOut (s : State) (n : Nat) : (s.stripesOut n).health = s.health := by
  induction n generalizing s with
  | zero => rfl
  | succ n ih =>
    unfold State.stripesOut
    split <;> simp [ih]

@[simp] theorem State.health_t2Put (s : State) (im : Image) : (s.t2Put im).health = s.health := by
  simp [State.t2Put]

@[simp] theorem State.health_t2Get (s : State) (ref : PageRef) : (s.t2Get ref).health = s.health := by
  unfold State.t2Get
  split <;> simp

@[simp] theorem State.health_memEvent (s : State) (layer : Nat) (idx : Nat) (n : Nat) (ref : PageRef) : (s.memEvent layer idx n ref).health = s.health := by
  rfl

@[simp] theorem State.health_encoderRan (s : State) (ref : PageRef) (p : TierPage) (im : Image) : (s.encoderRan ref p im).health = s.health := by
  simp [State.encoderRan]

@[simp] theorem State.health_encodeGroup (s : State) (rid : Nat) (refs : List PageRef) (b : TierPage → Backing) (place : Image → TierPage → TierPage) :
    (s.encodeGroup rid refs b place).health = s.health := by
  unfold State.encodeGroup
  split
  · rfl
  · dsimp only
    rw [State.health_sweepTables, State.health_foldl, State.health_chooseTable]
    intro s ref
    (repeat' split) <;> simp 

@[simp] theorem State.health_writeBackNow (s : State) (ref : PageRef) : (s.writeBackNow ref).health = s.health := by
  unfold State.writeBackNow
  split <;> simp

@[simp] theorem State.health_evict (s : State) (e : PageRef × TierPage) : (s.evict e).health = s.health := by
  unfold State.evict
  split <;> simp

@[simp] theorem State.health_roomT0 (s : State) : (s.roomT0).health = s.health := by
  unfold State.roomT0
  (repeat' split) <;> simp

@[simp] theorem State.health_fillT0 (s : State) (ref : PageRef) : (s.fillT0 ref).health = s.health := by
  unfold State.fillT0
  (repeat' split) <;> simp

@[simp] theorem State.health_touch (s : State) (port : Bool) (ref : PageRef) (off : Nat) (n : Nat) : (s.touch port ref off n).health = s.health := by
  unfold State.touch
  simp [apply_ite State.health, State.health_foldl]
  (repeat' split) <;> simp [apply_ite State.health, State.health_foldl]

@[simp] theorem State.health_allocate (s : State) (rid : Nat) (p : Nat) (r : Region) : (s.allocate rid p r).health = s.health := by
  unfold State.allocate
  split <;> simp 

@[simp] theorem State.health_ensurePage (s : State) (rid : Nat) (p : Nat) : (s.ensurePage rid p).health = s.health := by
  unfold State.ensurePage
  (repeat' split) <;> simp

@[simp] theorem State.health_commit (s : State) : (s.commit).health = s.health := by
  rfl

@[simp] theorem State.health_makeShadow (s : State) (rid : Nat) (p : Nat) (i : Issuer) : (s.makeShadow rid p i).health = s.health := by
  unfold State.makeShadow
  simp [apply_ite State.health, State.health_foldl]
  (repeat' split) <;> simp [apply_ite State.health, State.health_foldl]

@[simp] theorem State.health_touchRange (s : State) (port : Bool) (rid : Nat) (v : View) (off n : Nat) : (s.touchRange port rid v off n).health = s.health := by
  refine State.health_foldl (fun s q => ?_) _ _
  (repeat' split) <;> simp

@[simp] theorem State.health_putRef (s : State) (ref : PageRef) (off : Nat) (data : Bytes) : (s.putRef ref off data).health = s.health := by
  simp [State.putRef, apply_ite State.health, State.health_foldl]

@[simp] theorem State.health_directMap (s : State) (rid p off n : Nat) (f : Bytes → Bytes) : (s.directMap rid p off n f).health = s.health := by
  unfold State.directMap
  dsimp only
  (repeat' split)
  · simp
  · simp
  · rw [State.health_foldl (fun s ref => ?_), State.health_ensurePage]
    (repeat' split) <;> simp

@[simp] theorem State.health_write1 (s : State) (rid : Nat) (w : Way) (off : Nat) (data : Bytes) : (s.write1 rid w off data).health = s.health := by
  unfold State.write1
  simp [apply_ite State.health, State.health_foldl]
  (repeat' split) <;> simp [apply_ite State.health, State.health_foldl]

@[simp] theorem State.health_writePieces (s : State) (rid : Nat) (w : Way) (data : Bytes) (off : Nat) (ps : List (Nat × Nat)) :
    (s.writePieces rid w data off ps).health = s.health := by
  induction ps generalizing s with
  | nil => rfl
  | cons p ps ih => simp [State.writePieces, ih]

@[simp] theorem State.health_writeRange (s : State) (rid : Nat) (w : Way) (off : Nat) (data : Bytes) : (s.writeRange rid w off data).health = s.health := by
  simp [State.writeRange]

@[simp] theorem State.health_setLine (s : State) (rid : Nat) (ln : Nat) (l : Line) : (s.setLine rid ln l).health = s.health := by
  rfl

@[simp] theorem State.health_freeLine (s : State) (rid : Nat) (ln : Nat) : (s.freeLine rid ln).health = s.health := by
  unfold State.freeLine
  (repeat' split) <;> simp 

@[simp] theorem State.health_tidyLine (s : State) (rid : Nat) (ln : Nat) : (s.tidyLine rid ln).health = s.health := by
  unfold State.tidyLine
  (repeat' split) <;> simp 

@[simp] theorem State.health_served (s : State) (rid : Nat) (ln : Nat) (eid : Nat) : (s.served rid ln eid).health = s.health := by
  unfold State.served
  (repeat' split) <;> simp

@[simp] theorem State.health_claim (s : State) (cmd : Instr) : (s.claim cmd).health = s.health := by
  simp [State.claim, apply_ite State.health, State.health_foldl]

@[simp] theorem State.health_takeUp (s : State) (a : Again) : (s.takeUp a).health = s.health := by
  unfold State.takeUp
  (repeat' split) <;> simp [apply_ite State.health, State.health_foldl]

@[simp] theorem State.health_again (s : State) (a : Again) (more : List Again) : (s.again a more).health = s.health := by
  simp [State.again]


theorem State.errors_of_health {s t : State} (h : s.health = t.health) : s.rel.errors = t.rel.errors := congrArg Prod.fst h

theorem State.unit_of_units {s t : State} (h : s.rel.units = t.rel.units) (hw : Nat) : s.unit hw = t.unit hw := by
  rw [State.unit, State.unit, h]

theorem State.unit_of_health {s t : State} (h : s.health = t.health) (hw : Nat) : s.unit hw = t.unit hw :=
  State.unit_of_units (congrArg Prod.snd h) hw

/-! ### What an error record changes (R758 to R764) -/

/-- What a known-answer test and a quarantine ask of a unit's record. -/
def UnitRec.service (u : UnitRec) : Bool × Nat := (u.quarantined, u.lastKat)

@[simp] theorem State.unit_setCore (s : State) (n : Nat) (c : Core) (hw : Nat) : (s.setCore n c).unit hw = s.unit hw := rfl

/-- A change of one unit's record is a change of no other; a view of the records that it keeps stays. -/
theorem State.unit_setUnit_view {α : Type} (f : UnitRec → α) (s : State) {hw : Nat} {u : UnitRec} (h : f u = f (s.unit hw)) (k : Nat) :
    f ((s.setUnit hw u).unit k) = f (s.unit k) := by
  by_cases hk : k = hw
  · rw [hk, State.unit_setUnit_self, h]
  · rw [State.unit_setUnit_ne s u hk]

/-- A health count changes the bins of a unit's record alone (R766). -/
theorem State.unit_healthCount {α : Type} (f : UnitRec → α) (hf : ∀ (u : UnitRec) (bins : Tab HealthBin), f { u with bins := bins } = f u) (s : State) (hw cls k : Nat) :
    f ((s.healthCount hw cls).unit k) = f (s.unit k) := by
  unfold State.healthCount
  dsimp only
  by_cases hcls : 1 ≤ cls ∧ cls ≤ 6
  · rw [if_pos hcls]
    refine State.unit_setUnit_view f s ?_ k
    rw [hf]
  · rw [if_neg hcls]

theorem State.service_quarantineWatch (s : State) (hw cls k : Nat) : ((s.quarantineWatch hw cls).unit k).service = (s.unit k).service := by
  unfold State.quarantineWatch
  by_cases hcls : 3 ≤ cls ∧ cls ≤ 6
  · rw [if_pos hcls]
    refine State.unit_setUnit_view UnitRec.service s ?_ k
    rfl
  · rw [if_neg hcls]

/-- An error of another class than those R764 counts asks for no quarantine. -/
theorem State.quarantineWatch_of_uncounted (s : State) (hw : Nat) {cls : Nat} (h : ¬ (3 ≤ cls ∧ cls ≤ 6)) : s.quarantineWatch hw cls = s := if_neg h

@[simp] theorem State.errors_healthCount (s : State) (hw cls : Nat) : (s.healthCount hw cls).rel.errors = s.rel.errors := by
  unfold State.healthCount
  dsimp only
  by_cases hcls : 1 ≤ cls ∧ cls ≤ 6
  · rw [if_pos hcls]
    rfl
  · rw [if_neg hcls]

@[simp] theorem State.errors_quarantineWatch (s : State) (hw cls : Nat) : (s.quarantineWatch hw cls).rel.errors = s.rel.errors := by
  unfold State.quarantineWatch
  by_cases hcls : 3 ≤ cls ∧ cls ≤ 6
  · rw [if_pos hcls]
    rfl
  · rw [if_neg hcls]

/-- What an error counts before its record. -/
def State.errorCounted (s : State) (n : ErrorNote) : State := (s.healthCount n.hw n.cls).errorCount n.hw n.cls

theorem State.unit_errorCounted (s : State) (n : ErrorNote) (k : Nat) : (s.errorCounted n).unit k = (s.healthCount n.hw n.cls).unit k :=
  State.unit_of_health (State.health_errorCount _ _ _) k

@[simp] theorem State.errors_errorCounted (s : State) (n : ErrorNote) : (s.errorCounted n).rel.errors = s.rel.errors :=
  (State.errors_of_health (State.health_errorCount _ _ _)).trans (State.errors_healthCount s n.hw n.cls)

/-- The record of an error of this unit, class and place. -/
def ErrorNote.recordedBy (n : ErrorNote) (e : ErrorRec) : Prop := e.hw = n.hw ∧ e.cls = n.cls ∧ e.loc = n.loc

/-- The record that an error of the last millisecond makes of one it meets (R758). -/
def ErrorNote.recur (n : ErrorNote) (now : Nat) (e : ErrorRec) : ErrorRec :=
  if e.hw = n.hw ∧ e.cls = n.cls ∧ e.loc = n.loc ∧ now ≤ e.time + 1000000 then { e with count := e.count + 1 } else e

/-- The new record of an error. -/
def State.newRecord (s : State) (n : ErrorNote) : ErrorRec :=
  { seq := s.rel.errSeq, cls := n.cls, layer := n.layer, st := n.st, hw := n.hw, loc := n.loc, ctx := n.ctx, key := n.key, off := n.off,
    eid := n.eid, sig := s.freeCtr, count := 1, aux := n.aux, agents := n.agents, time := s.now }

/-- The error store with a new record (R758). -/
def State.storeRecord (s : State) (n : ErrorNote) : State :=
  { s with freeCtr := s.freeCtr + 1, rel.errors := (s.newRecord n :: s.rel.errors).take 16384, rel.errSeq := (s.rel.errSeq + 1) % 4294967296 }

theorem State.error_eq (s : State) (n : ErrorNote) :
    s.error n =
      if (s.errorCounted n).rel.errors.any (fun e => decide (e.hw = n.hw ∧ e.cls = n.cls ∧ e.loc = n.loc ∧ (s.errorCounted n).now ≤ e.time + 1000000)) then
        { s.errorCounted n with rel.errors := (s.errorCounted n).rel.errors.map (n.recur (s.errorCounted n).now) }
      else
        let t := (s.errorCounted n).quarantineWatch n.hw n.cls
        let c := (t.storeRecord n).cairn n.hw 32 n.ctx t.rel.errSeq
        (c.traceGen (n.hw / 256) 5 3 c.now (t.newRecord n).words).emit
          (.mgmt 0 1 ((t.newRecord n).words.map BitVec.toNat)) := by
  unfold State.error
  change _ = _
  have hcounted : (s.healthCount n.hw n.cls).errorCount n.hw n.cls = s.errorCounted n := rfl
  rw [hcounted]
  generalize s.errorCounted n = v
  refine congrArg₂ (ite _) rfl ?_
  dsimp only
  generalize v.quarantineWatch n.hw n.cls = w
  rfl

/-- What an error leaves of the error store and of the units' records. -/
theorem State.health_error (s : State) (n : ErrorNote) :
    (s.error n).health =
      if (s.errorCounted n).rel.errors.any (fun e => decide (e.hw = n.hw ∧ e.cls = n.cls ∧ e.loc = n.loc ∧ (s.errorCounted n).now ≤ e.time + 1000000)) then
        (s.rel.errors.map (n.recur (s.errorCounted n).now), (s.errorCounted n).rel.units)
      else
        let t := (s.errorCounted n).quarantineWatch n.hw n.cls
        ((t.newRecord n :: s.rel.errors).take 16384, t.rel.units) := by
  rw [State.error_eq, apply_ite State.health]
  refine congrArg₂ (ite _) ?_ ?_
  · rw [← State.errors_errorCounted s n]
    rfl
  · rw [State.health_emit, State.health_traceGen, State.health_cairn, ← State.errors_errorCounted s n, ← State.errors_quarantineWatch _ n.hw n.cls]
    rfl

/-- An error is in the error store (R758). -/
theorem State.error_recorded (s : State) (n : ErrorNote) : ∃ e ∈ (s.error n).rel.errors, n.recordedBy e := by
  have hhealth := s.health_error n
  split at hhealth
  · rename_i hmeets
    obtain ⟨x, hx, hmatch⟩ := List.any_eq_true.mp hmeets
    have hsame := of_decide_eq_true hmatch
    have herrors : (s.error n).rel.errors = s.rel.errors.map (n.recur (s.errorCounted n).now) := congrArg Prod.fst hhealth
    rw [State.errors_errorCounted] at hx
    refine ⟨n.recur (s.errorCounted n).now x, ?_, ?_⟩
    · rw [herrors]
      exact List.mem_map_of_mem hx
    · rw [ErrorNote.recur, if_pos hsame]
      exact ⟨hsame.1, hsame.2.1, hsame.2.2.1⟩
  · have herrors : (s.error n).rel.errors = _ := congrArg Prod.fst hhealth
    refine ⟨((s.errorCounted n).quarantineWatch n.hw n.cls).newRecord n, ?_, rfl, rfl, rfl⟩
    rw [herrors]
    exact List.mem_cons_self

theorem State.error_recorded_of (s : State) {n : ErrorNote} {hw cls : Nat} (hhw : n.hw = hw) (hcls : n.cls = cls) :
    ∃ e ∈ (s.error n).rel.errors, e.hw = hw ∧ e.cls = cls := by
  obtain ⟨e, he, heHw, heCls, -⟩ := s.error_recorded n
  exact ⟨e, he, heHw.trans hhw, heCls.trans hcls⟩

/-- The first error makes a record of its own layer (R758). -/
theorem State.error_first {s : State} (h : s.rel.errors = []) (n : ErrorNote) : ∃ e ∈ (s.error n).rel.errors, n.recordedBy e ∧ e.layer = n.layer := by
  have hhealth := s.health_error n
  rw [State.errors_errorCounted, h, if_neg (by simp)] at hhealth
  have herrors : (s.error n).rel.errors = _ := congrArg Prod.fst hhealth
  refine ⟨((s.errorCounted n).quarantineWatch n.hw n.cls).newRecord n, ?_, ⟨rfl, rfl, rfl⟩, rfl⟩
  rw [herrors]
  exact List.mem_cons_self

/-- An error leaves what a test and a quarantine ask of each unit's record. -/
theorem State.service_error (s : State) (n : ErrorNote) (k : Nat) : ((s.error n).unit k).service = (s.unit k).service := by
  have hcounted : ((s.errorCounted n).unit k).service = (s.unit k).service := by
    rw [State.unit_errorCounted, State.unit_healthCount UnitRec.service (fun _ _ => rfl)]
  have hhealth := s.health_error n
  split at hhealth
  · rw [State.unit_of_units (t := s.errorCounted n) (congrArg Prod.snd hhealth), hcounted]
  · rw [State.unit_of_units (t := (s.errorCounted n).quarantineWatch n.hw n.cls) (congrArg Prod.snd hhealth), State.service_quarantineWatch, hcounted]

/-- An error of another class than those R764 counts asks for no quarantine. -/
theorem State.asked_error (s : State) {n : ErrorNote} (h : ¬ (3 ≤ n.cls ∧ n.cls ≤ 6)) (k : Nat) : ((s.error n).unit k).asked = (s.unit k).asked := by
  have hcounted : ((s.errorCounted n).unit k).asked = (s.unit k).asked := by
    rw [State.unit_errorCounted, State.unit_healthCount UnitRec.asked (fun _ _ => rfl)]
  have hhealth := s.health_error n
  rw [State.quarantineWatch_of_uncounted _ _ h] at hhealth
  rw [State.unit_of_units (t := s.errorCounted n) ?_, hcounted]
  split at hhealth <;> exact congrArg Prod.snd hhealth

@[simp] theorem State.cores_error (s : State) (n : ErrorNote) : (s.error n).cores = s.cores := by
  simp

/-! ### The commands -/

/-- A command that copies bytes to the range it names, and then changes nothing: what holds of the state with the bytes written, whatever its memory, holds of the
one it answers from. -/
theorem copies_of_written {c : Instr} {s u : State} {r : BciReq} {i : Issuer} {key off : Nat} {data : Bytes} {ws : List Word} {P : State → Prop}
    (hexec : exec c s = u.copyOut c r i key off data ws id)
    (hP : ∀ rid home, P { (u.writeRange rid (.shadowed i) off data).touchRange false rid (.own i) off data.length with home := home }) :
    Copies c s r i u key off data ws P := by
  intro rid rg hopens hclear hplain
  refine copies_of_copyOut (after := fun v => { (u.writeRange rid (.shadowed i) off data).touchRange false rid (.own i) off data.length with home := v.home })
    (hexec.trans ?_) (fun _ => rfl) (fun v => hP rid v.home) rid rg hopens hclear hplain
  simp only [State.copyOut, State.onRegion_of_opens hopens, hclear, id]

/-- A copy-out of bytes leaves the error store and the units' records (R758, R767). -/
theorem health_of_copyOut {c : Instr} {s u : State} {r : BciReq} {i : Issuer} {key off : Nat} {data : Bytes} {ws : List Word}
    (hexec : exec c s = u.copyOut c r i key off data ws id) : Copies c s r i u key off data ws fun t => t.rel.errors = u.rel.errors ∧ t.rel.units = u.rel.units := by
  refine copies_of_written hexec fun rid home => ?_
  have hhealth : ((u.writeRange rid (.shadowed i) off data).touchRange false rid (.own i) off data.length).health = u.health := by
    rw [State.health_touchRange, State.health_writeRange]
  exact ⟨congrArg Prod.fst hhealth, congrArg Prod.snd hhealth⟩

/-- ERRLOG_READ and HEALTH_READ write what the store holds (R758, R767). -/
theorem errlogRead_copies {s : State} {r : BciReq} {i : Issuer} {u : State}
    (hready : s.ready (.errlogRead r) { BciRow.o 0x100 5 with minor := some 0, resv := fun r => offResv r 4 } r = some (i, u)) (hlow : 1 ≤ r.w 2) (hhigh : r.w 2 ≤ 1024) :
    let e := fromSeq ErrorRec.seq u.rel.errors u.rel.errSeq (r.w 1) (r.w 2)
    Copies (.errlogRead r) s r i u (r.w 3) (r.d 4) (e.1.flatMap (fun x => bytesOf x.words)) [BitVec.ofNat 32 e.1.length, BitVec.ofNat 32 e.2.1, BitVec.ofNat 32 e.2.2]
      fun t => t.rel.errors = u.rel.errors ∧ t.rel.units = u.rel.units := by
  have hexec : exec (.errlogRead r) s = execErrlogRead r s := rfl
  rw [execErrlogRead, bciServe_of_ready hready, if_neg (by omega)] at hexec
  exact health_of_copyOut hexec

theorem healthRead_copies {s : State} {r : BciReq} {i : Issuer} {u : State}
    (hready : s.ready (.healthRead r) { BciRow.o 0x101 4 with minor := some 0, resv := fun r => above r 1 9 || offResv r 3 } r = some (i, u)) :
    Copies (.healthRead r) s r i u (r.w 2) (r.d 3) ((u.unit (r.w 1)).bytes (r.w 1)) [] fun t => t.rel.errors = u.rel.errors ∧ t.rel.units = u.rel.units := by
  have hexec : exec (.healthRead r) s = execHealthRead r s := rfl
  rw [execHealthRead, bciServe_of_ready hready] at hexec
  exact health_of_copyOut hexec

/-- REL_SET stores a value in range (R765). -/
theorem relSet_answers {s : State} {r : BciReq} {i : Issuer} {u : State} {lo hi : Nat}
    (hready : s.ready (.relSet r) { BciRow.o 0x102 3 with minor := some 0 } r = some (i, u)) (hrange : relRange (r.w 1) = some (lo, hi)) (hlo : lo ≤ r.d 2)
    (hhi : r.d 2 ≤ hi) (hthree : r.w 1 = 3 → 2 * u.param 1 ≤ r.d 2) (hone : r.w 1 = 1 → 2 * r.d 2 ≤ u.param 3) :
    Answers (.relSet r) s r [] fun t => t = { u with rel.params := t.rel.params } ∧ t.param (r.w 1) = r.d 2 ∧ ∀ k, k ≠ r.w 1 → t.param k = u.param k := by
  have hexec : exec (.relSet r) s = execRelSet r s := rfl
  rw [execRelSet, bciServe_of_ready hready] at hexec
  simp only [hrange] at hexec
  rw [if_neg (by omega), if_neg (by omega)] at hexec
  exact ⟨_, hexec, rfl, Tab.getD_set_self _ _ _ _, fun k hk => Tab.getD_set_ne _ _ _ hk⟩

/-- A parameter's number is one that has a range (R765). -/
theorem relRange_of_number {p : Nat} (hlow : 1 ≤ p) (hhigh : p ≤ 10) : ∃ x, relRange p = some x := by
  interval_cases p <;> exact ⟨_, rfl⟩

/-- REL_GET answers a parameter (R765). -/
theorem relGet_answers {s : State} {r : BciReq} {i : Issuer} {u : State} (hready : s.ready (.relGet r) { BciRow.o 0x103 1 with minor := some 0 } r = some (i, u))
    (hlow : 1 ≤ r.w 1) (hhigh : r.w 1 ≤ 10) : exec (.relGet r) s = .next (u.respond r .ok (two (u.param (r.w 1)))) := by
  have hexec : exec (.relGet r) s = execRelGet r s := rfl
  obtain ⟨x, hrange⟩ := relRange_of_number hlow hhigh
  rw [execRelGet, bciServe_of_ready hready] at hexec
  simp only [hrange] at hexec
  exact hexec

/-- QUARANTINE asks for it (R762). -/
theorem quarantine_answers {s : State} {r : BciReq} {i : Issuer} {u : State}
    (hready : s.ready (.quarantine r) { BciRow.o 0x104 2 with minor := some 0, resv := fun r => above r 1 9 || decide (r.w 2 ≠ 0) } r = some (i, u)) :
    Answers (.quarantine r) s r [] fun t => t = { u with rel.units := t.rel.units } ∧ (∀ k, k ≠ r.w 1 → t.unit k = u.unit k)
      ∧ t.unit (r.w 1) = { u.unit (r.w 1) with asked := (u.unit (r.w 1)).asked || !(u.unit (r.w 1)).quarantined } := by
  have hexec : exec (.quarantine r) s = execQuarantine r s := rfl
  rw [execQuarantine, bciServe_of_ready hready] at hexec
  exact ⟨_, hexec, rfl, fun k hk => State.unit_setUnit_ne u _ hk, State.unit_setUnit_self u _ _⟩

/-- The release of a unit takes it back to service and no longer asks for its quarantine (R763). -/
theorem State.unit_releaseUnit (s : State) (hw : Nat) :
    (s.releaseUnit hw).unit hw = { s.unit hw with quarantined := false, asked := false, errTimes := [] } := by
  unfold State.releaseUnit
  dsimp only
  generalize hset : s.setUnit hw { s.unit hw with quarantined := false, asked := false, errTimes := [] } = v
  have hcairn : (if (s.unit hw).quarantined = true then v.cairn hw 0x21 0 1 else v).rel.units = v.rel.units := by
    split
    · exact congrArg Prod.snd (State.health_cairn v hw 0x21 0 1)
    · rfl
  rw [State.unit_of_units (t := v), ← hset, State.unit_setUnit_self]
  generalize (if (s.unit hw).quarantined = true then v.cairn hw 0x21 0 1 else v) = w at hcairn ⊢
  rw [← hcairn]
  (repeat' split) <;> rfl

/-- QUARANTINE with release (R763): a unit whose test fails stays as it was. -/
theorem quarantineRelease_answers {s : State} {r : BciReq} {i : Issuer} {u : State}
    (hready : s.ready (.quarantineRelease r) { BciRow.o 0x104 2 with minor := some 0, resv := fun r => above r 1 9 || decide (r.w 2 ≠ 1) } r = some (i, u)) :
    if hasKat (r.w 1) && Config.freeBit u.freeCtr then
      ∃ v : State, exec (.quarantineRelease r) s = .next (v.respond r .corrupt []) ∧ (v.unit (r.w 1)).quarantined = (u.unit (r.w 1)).quarantined
    else Answers (.quarantineRelease r) s r [] fun t => (t.unit (r.w 1)).quarantined = false ∧ (t.unit (r.w 1)).asked = false := by
  have hexec : exec (.quarantineRelease r) s = execQuarantineRelease r s := rfl
  rw [execQuarantineRelease, bciServe_of_ready hready] at hexec
  dsimp only at hexec
  split
  · rename_i hfails
    rw [if_pos hfails] at hexec
    refine ⟨_, hexec, (congrArg Prod.fst (State.service_error _ _ (r.w 1))).trans ?_⟩
    rw [State.unit_of_health (State.health_cairn _ _ _ _ _), State.unit_setUnit_self]
    rfl
  · rename_i hpasses
    rw [if_neg hpasses] at hexec
    exact ⟨_, hexec, by rw [State.unit_releaseUnit], by rw [State.unit_releaseUnit]⟩

/-- HEALTH_UPDATE counts 10 s of ON time with its voltage (R766). -/
theorem healthUpdate_does {s : State} {hw : Nat} (hruns : s.runs = true) (hhw : hw < 512) (tempC volt : Nat) (hdue : (s.unit hw).onSince + 10000000000 ≤ s.now) :
    Does (.healthUpdate hw tempC volt) s fun t =>
      let b := Tab.getD (s.unit hw).bins (binOf (tempC : Int)) HealthBin.fresh
      t = { s with rel.units := t.rel.units } ∧ (t.unit hw).onSince = s.now ∧ (∀ k, k ≠ hw → t.unit k = s.unit k)
        ∧ ∃ x, Tab.get? (t.unit hw).bins (binOf (tempC : Int)) = some x ∧ x.onMs = b.onMs + 10000 ∧ x.ce = b.ce ∧ x.ue = b.ue
          ∧ (b.onMs = 0 → x.vmin = volt ∧ x.vmax = volt) ∧ (b.onMs ≠ 0 → x.vmin = min b.vmin volt ∧ x.vmax = max b.vmax volt) := by
  have hexec : exec (.healthUpdate hw tempC volt) s = execHealthUpdate hw tempC volt s := rfl
  rw [execHealthUpdate, whenUp_of_runs hruns] at hexec
  dsimp only at hexec
  rw [if_neg (by omega)] at hexec
  refine ⟨_, hexec, rfl, ?_, fun k hk => State.unit_setUnit_ne s _ hk, ?_⟩
  · rw [State.unit_setUnit_self]
  · rw [State.unit_setUnit_self]
    refine ⟨_, Tab.get?_set_self _ _ _, rfl, rfl, rfl, fun h => ?_, fun h => ?_⟩
    · exact ⟨if_pos h, if_pos h⟩
    · exact ⟨if_neg h, if_neg h⟩

/-- The known-answer test of an idle unit (R763, R764). -/
theorem kat_does {s : State} {hw : Nat} (hruns : s.runs = true) (hhw : hw < 512) (hkat : hasKat hw = true) (hin : (s.unit hw).quarantined = false)
    (hidle : s.unitIdle hw = true) (hdue : (s.unit hw).lastKat + s.param 9 * 1000000 ≤ s.now) :
    exec (.kat hw .yielded) s = .next s ∧ Does (.kat hw .pass) s (fun t => (t.unit hw).lastKat = s.now ∧ t.rel.errors = s.rel.errors)
      ∧ Does (.kat hw .fail) s fun t => (t.unit hw).lastKat = s.now ∧ ∃ e ∈ t.rel.errors, e.hw = hw ∧ e.cls = 6 := by
  have hexec (res : KatResult) : exec (.kat hw res) s = execKat hw res s := rfl
  have hready : ¬ (512 ≤ hw ∨ hasKat hw = false ∨ (s.unit hw).quarantined = true ∨ s.unitIdle hw = false ∨ s.now < (s.unit hw).lastKat + s.param 9 * 1000000) := by
    simp only [hkat, hin, hidle]
    simp
    omega
  simp only [execKat, whenUp_of_runs hruns, if_neg hready] at hexec
  refine ⟨hexec .yielded, ⟨_, hexec .pass, ?_, ?_⟩, ⟨_, hexec .fail, ?_, State.error_recorded_of _ rfl rfl⟩⟩
  · rw [State.unit_of_health (State.health_cairn _ _ _ _ _), State.unit_setUnit_self]
  · exact (State.errors_of_health (State.health_cairn _ _ _ _ _)).trans rfl
  · refine (congrArg Prod.snd (State.service_error _ _ hw)).trans ?_
    rw [State.unit_of_health (State.health_cairn _ _ _ _ _), State.unit_setUnit_self]
    rfl

/-- A unit whose quarantine is asked for leaves service once idle (R762). -/
theorem quarantineEffect_does {s : State} {hw : Nat} (hruns : s.runs = true) (hhw : hw < 512) (hasked : (s.unit hw).asked = true) (hidle : s.unitIdle hw = true) :
    Does (.quarantineEffect hw) s fun t => (t.unit hw).quarantined = true ∧ (t.unit hw).asked = false
      ∧ (∃ e ∈ t.rel.errors, e.hw = hw ∧ e.cls = 10) ∧ ∀ n, unitCore hw = some n → (t.core n).st = .quarantined := by
  have hexec : exec (.quarantineEffect hw) s = execQuarantineEffect hw s := rfl
  rw [execQuarantineEffect, whenUp_of_runs hruns] at hexec
  dsimp only at hexec
  rw [if_neg (by simp [hasked, hidle]; omega)] at hexec
  refine ⟨_, hexec, ?_, ?_, State.error_recorded_of _ rfl rfl, fun n hn => ?_⟩
  · refine (congrArg Prod.fst (State.service_error _ _ hw)).trans ?_
    rw [State.unit_of_health (State.health_cairn _ _ _ _ _)]
    split <;> simp [UnitRec.service]
  · rw [State.asked_error _ (by simp [ErrorNote.of]), State.unit_of_health (State.health_cairn _ _ _ _ _)]
    split <;> simp
  · simp [State.core, hn]

/-- Settles O47: each command by the request that is ready, each event by the state it meets; an error leaves what they ask of the units' records. -/
theorem healthAndQuarantine : Obligations.HealthAndQuarantine := by
  unfold Obligations.HealthAndQuarantine
  refine ⟨fun s r i u => ⟨fun hready hlow hhigh => errlogRead_copies hready hlow hhigh, healthRead_copies, fun lo hi => relSet_answers, relGet_answers, quarantine_answers,
    quarantineRelease_answers⟩, fun s hw hruns hhw => ⟨healthUpdate_does hruns hhw, kat_does hruns hhw, quarantineEffect_does hruns hhw⟩⟩

end Sys2Proof.Machine

/-! PROOF. O48: failed parts, spares and rebuilds (19, 03). -/

namespace Sys2Proof.Machine

/-! ### What the failure of a part leaves of the error store, of the rebuilds and of the parts (R724 to R731) -/

theorem State.rebuilds_of_standing {s t : State} (h : s.standing = t.standing) : s.rel.rebuilds = t.rel.rebuilds :=
  congrArg (fun x : Standing => x.parts.1) h

theorem State.pcFailed_of_standing {s t : State} (h : s.standing = t.standing) : s.rel.pcFailed = t.rel.pcFailed :=
  congrArg (fun x : Standing => x.parts.2.1) h

theorem State.dimm_of_standing {s t : State} (h : s.standing = t.standing) (n : Nat) : s.dimm n = t.dimm n := by
  have hdimms : s.strata.dimms = t.strata.dimms := congrArg Standing.dimms h
  rw [State.dimm, State.dimm, hdimms]

theorem State.spare_of_standing {s t : State} (h : t.standing = s.standing) (n : Nat) : (t.drive n).spare = (s.drive n).spare :=
  show ({ t.drive n with busy := 0 } : Drive).spare = ({ s.drive n with busy := 0 } : Drive).spare from congrArg Drive.spare (State.drive_of_standing h n)

theorem State.admitted_of_standing {s t : State} (h : t.standing = s.standing) (n : Nat) : (t.drive n).admitted = (s.drive n).admitted :=
  show ({ t.drive n with busy := 0 } : Drive).admitted = ({ s.drive n with busy := 0 } : Drive).admitted from congrArg Drive.admitted (State.drive_of_standing h n)

/-- A rebuild takes its place among the rebuilds (R726). -/
theorem State.rel_startRebuild (s : State) (p : Part) (loc : Nat) (into : Option Nat) :
    (s.startRebuild p loc into).rel = { s.rel with rebuilds := s.rel.rebuilds.filter (fun (x : Rebuild) => !(decide (x.part = p) && decide (x.loc = loc)))
      ++ [{ op := s.bci.nextOp, part := p, loc := loc, running := true, into := into }] } := by
  cases p with
  | pseudoChannel =>
    unfold State.startRebuild
    exact (State.foldl_rel _ (by exact fun _ _ => rfl) _ _).trans rfl
  | dimm => rfl
  | drive => rfl

theorem State.rel_imagesLost (s : State) (ps : List (PageRef × TierPage)) : (s.imagesLost ps).rel = s.rel := by
  unfold State.imagesLost
  exact State.foldl_rel _ (by exact fun _ _ => rfl) _ _

@[simp] theorem State.errors_failStop (s : State) (row : Nat) : (s.failStop row).rel.errors = s.rel.errors := by
  unfold State.failStop
  split <;> rfl

@[simp] theorem State.rebuilds_failStop (s : State) (row : Nat) : (s.failStop row).rel.rebuilds = s.rel.rebuilds := by
  unfold State.failStop
  split <;> rfl

@[simp] theorem State.strata_failStop (s : State) (row : Nat) : (s.failStop row).strata = s.strata := by
  unfold State.failStop
  split <;> rfl

/-- What the error store, the rebuilds, the DIMMs and the drives are. -/
def State.partBook (s : State) : List ErrorRec × List Rebuild × (Nat → Dimm) × (Nat → Drive) :=
  (s.rel.errors, s.rel.rebuilds, s.dimm, fun n => { s.drive n with busy := 0 })

theorem State.partBook_imagesLost (s : State) (ps : List (PageRef × TierPage)) : (s.imagesLost ps).partBook = s.partBook := by
  have hstanding := s.standing_imagesLost ps
  simp only [State.partBook, State.rel_imagesLost, Prod.mk.injEq, true_and]
  exact ⟨funext (State.dimm_of_standing hstanding), funext (State.drive_of_standing hstanding)⟩

theorem State.partBook_failStop (s : State) (row : Nat) : (s.failStop row).partBook = s.partBook := by
  simp only [State.partBook, State.errors_failStop, State.rebuilds_failStop, State.drive, State.strata_failStop]
  rw [show (s.failStop row).dimm = s.dimm from funext fun n => by rw [State.dimm, State.dimm, State.strata_failStop]]

/-- A part without a spare loses images, or the package stops; the books stay (R729, R730). -/
theorem State.partBook_noSpare (s : State) (p : Part) (loc : Nat) : (s.noSpare p loc).partBook = s.partBook := by
  have hlost (ps) := s.partBook_imagesLost ps
  cases p with
  | pseudoChannel => rfl
  | dimm =>
    have hsize : ((s.imagesLost (s.pagesAt 2 loc)).sizeT1).partBook = s.partBook := hlost _
    simp only [State.noSpare]
    split
    · rw [State.partBook_failStop, hsize]
    · exact hsize
  | drive =>
    simp only [State.noSpare]
    split
    · exact hlost _
    · rfl

/-- The record of a failed part (R758). -/
theorem State.partRecord_recorded {s : State} (h : s.rel.errors = []) (p : Part) (loc op : Nat) :
    ∃ e ∈ (s.partRecord p loc op).rel.errors, e.cls = 7 ∧ e.loc = loc ∧ e.layer = (partUnit p loc).1 ∧ e.hw = (partUnit p loc).2 := by
  obtain ⟨e, he, ⟨hhw, hcls, hloc⟩, hlayer⟩ := State.error_first h { ErrorNote.of 7 .ok (partUnit p loc).2 with layer := (partUnit p loc).1, loc := loc, aux := op }
  exact ⟨e, he, hcls, hloc, hlayer, hhw⟩

/-- What is said of a part that has failed: its record, and its rebuild. -/
def State.partNoted (t : State) (p : Part) (loc : Nat) (run : Bool) (n : Option Nat) : Prop :=
  (∃ e ∈ t.rel.errors, e.cls = 7 ∧ e.loc = loc ∧ e.layer = (partUnit p loc).1 ∧ e.hw = (partUnit p loc).2)
    ∧ ∃ b ∈ t.rel.rebuilds, b.part = p ∧ b.loc = loc ∧ b.running = run ∧ b.into = n

/-- A rebuild that starts with its record (R726, R758). -/
theorem State.partNoted_started {s : State} (h : s.rel.errors = []) (p : Part) (loc op : Nat) (into : Option Nat) :
    ((s.startRebuild p loc into).partRecord p loc op).partNoted p loc true into := by
  have hrel := s.rel_startRebuild p loc into
  refine ⟨State.partRecord_recorded (by rw [hrel]; exact h) p loc op, { op := s.bci.nextOp, part := p, loc := loc, running := true, into := into }, ?_, rfl, rfl, rfl, rfl⟩
  · rw [State.rebuilds_of_standing (State.standing_partRecord ..), hrel]
    exact List.mem_append_right _ (List.mem_singleton_self _)

/-- A rebuild that waits for a spare, with its record (R729, R730, R758). -/
theorem State.partNoted_waits {s : State} (h : s.rel.errors = []) (p : Part) (loc : Nat) :
    (((s.waitRebuild p loc).partRecord p loc 0).noSpare p loc).partNoted p loc false none := by
  have hbook := ((s.waitRebuild p loc).partRecord p loc 0).partBook_noSpare p loc
  have herrors := congrArg Prod.fst hbook
  have hrebuilds := congrArg (fun x => x.2.1) hbook
  dsimp only [State.partBook] at herrors hrebuilds
  rw [State.partNoted, herrors, hrebuilds]
  refine ⟨State.partRecord_recorded (s := s.waitRebuild p loc) h p loc 0, { op := 0, part := p, loc := loc, running := false, into := none }, ?_, rfl, rfl, rfl, rfl⟩
  · rw [State.rebuilds_of_standing (State.standing_partRecord ..)]
    exact List.mem_append_right _ (List.mem_singleton_self _)

/-- A failed part starts a rebuild into its spare, or waits for one (R726 to R730). -/
def State.failPart (v : State) (p : Part) (loc op : Nat) : State :=
  match v.spareFor p with
  | some n => (v.startRebuild p loc (some n)).partRecord p loc op
  | none => ((v.waitRebuild p loc).partRecord p loc 0).noSpare p loc

/-- A failed part has its record and its rebuild, which runs where a spare is ready. -/
theorem State.partNoted_failPart {v : State} (h : v.rel.errors = []) (p : Part) (loc op : Nat) :
    (v.failPart p loc op).partNoted p loc (v.spareFor p).isSome (v.spareFor p) := by
  unfold State.failPart
  cases v.spareFor p with
  | some n => exact State.partNoted_started h p loc op (some n)
  | none => exact State.partNoted_waits h p loc

theorem State.partBook_partRecord (s : State) (p : Part) (loc op n : Nat) :
    (s.partRecord p loc op).dimm n = s.dimm n ∧ ((s.partRecord p loc op).drive n).failed = (s.drive n).failed :=
  ⟨State.dimm_of_standing (State.standing_partRecord ..) n, State.failed_of_standing (State.standing_partRecord ..) n⟩

/-- It leaves the DIMMs, and the drives as failed as they were. -/
theorem State.parts_failPart (v : State) {p : Part} (hp : p ≠ .pseudoChannel) (loc op n : Nat) :
    (v.failPart p loc op).dimm n = v.dimm n ∧ ((v.failPart p loc op).drive n).failed = (v.drive n).failed := by
  have hstart (x : Option Nat) : (v.startRebuild p loc x).strata.dimms = v.strata.dimms ∧ (v.startRebuild p loc x).strata.drives = v.strata.drives := by
    cases p with
    | pseudoChannel => exact absurd rfl hp
    | dimm => exact ⟨rfl, rfl⟩
    | drive => exact ⟨rfl, rfl⟩
  unfold State.failPart
  cases v.spareFor p with
  | some m =>
    obtain ⟨hdimms, hdrives⟩ := hstart (some m)
    obtain ⟨hd, hf⟩ := (v.startRebuild p loc (some m)).partBook_partRecord p loc op n
    refine ⟨hd.trans ?_, hf.trans ?_⟩
    · rw [State.dimm, State.dimm, hdimms]
    · rw [State.drive, State.drive, hdrives]
  | none =>
    have hbook := ((v.waitRebuild p loc).partRecord p loc 0).partBook_noSpare p loc
    obtain ⟨hd, hf⟩ := (v.waitRebuild p loc).partBook_partRecord p loc 0 n
    have hdrive : ({ (((v.waitRebuild p loc).partRecord p loc 0).noSpare p loc).drive n with busy := 0 } : Drive)
        = { ((v.waitRebuild p loc).partRecord p loc 0).drive n with busy := 0 } := congrFun (congrArg (fun x => x.2.2.2) hbook) n
    exact ⟨(congrFun (congrArg (fun x => x.2.2.1) hbook) n).trans hd, Eq.trans (b := (((v.waitRebuild p loc).partRecord p loc 0).drive n).failed) (by have h := congrArg Drive.failed hdrive; exact h) hf⟩

theorem State.declareFailed_dimm {s : State} {loc : Nat} (h : (s.dimm loc).spare = false) :
    s.declareFailed .dimm loc = State.failPart { s with strata.dimms := Tab.set s.strata.dimms loc { s.dimm loc with failed := true, spare := false } } .dimm loc s.bci.nextOp := by
  unfold State.declareFailed State.failPart
  dsimp only
  rw [if_neg (by simp [h])] <;> rfl

theorem State.declareFailed_driveOwn {s : State} {loc : Nat} (h : (s.drive loc).spare = false) :
    s.declareFailed .drive loc =
      State.failPart { s with strata.drives := Tab.set s.strata.drives loc { s.drive loc with failed := true, spare := false, admitted := true, queues := 0, busy := 0 } }
        .drive loc s.bci.nextOp := by
  unfold State.declareFailed State.failPart
  dsimp only
  rw [if_neg (by simp [h])]
  simp only [h, Bool.not_false] <;> rfl

/-! ### The commands and events -/

section
variable {s : State} {loc : Nat} (hruns : s.runs = true)
include hruns

/-- The first failure at a position of the pseudo-channels is rebuilt in place (R724, R726). -/
theorem partFailed_pseudoChannel_first (hloc : loc < 256) (hfirst : ∀ x ∈ s.rel.pcFailed, x % 8 ≠ loc % 8) (herrors : s.rel.errors = []) :
    Does (.partFailed .pseudoChannel loc) s fun t => loc ∈ t.rel.pcFailed ∧ t.partNoted .pseudoChannel loc true none := by
  have hexec : exec (.partFailed .pseudoChannel loc) s = execPartFailed .pseudoChannel loc s := rfl
  have hup : s.partUp .pseudoChannel loc = true := decide_eq_true hloc
  have hnone : ¬ s.rel.pcFailed.any (fun x => decide (x % 8 = loc % 8)) = true := by simpa using hfirst
  rw [execPartFailed, whenUp_of_runs hruns, if_pos hup, State.declareFailed, if_neg hnone] at hexec
  obtain ⟨v, hexec, hpc, hv⟩ : ∃ v : State, exec (.partFailed .pseudoChannel loc) s = .next ((v.startRebuild .pseudoChannel loc none).partRecord .pseudoChannel loc s.bci.nextOp)
      ∧ v.rel.pcFailed = loc :: s.rel.pcFailed ∧ v.rel.errors = [] := ⟨_, hexec, rfl, herrors⟩
  refine ⟨_, hexec, ?_, State.partNoted_started hv _ _ _ _⟩
  rw [State.pcFailed_of_standing (State.standing_partRecord ..), State.rel_startRebuild, hpc]
  exact List.mem_cons_self

/-- The second failure at a position is fail-stop (R725, R745). -/
theorem partFailed_pseudoChannel_second {x : Nat} (hx : x ∈ s.rel.pcFailed) (hloc : loc < 256) (hsame : x % 8 = loc % 8) (hcause : s.rel.failCause = none) :
    Does (.partFailed .pseudoChannel loc) s fun t => t.rel.failCause = some 4 := by
  have hexec : exec (.partFailed .pseudoChannel loc) s = execPartFailed .pseudoChannel loc s := rfl
  have hup : s.partUp .pseudoChannel loc = true := decide_eq_true hloc
  have hsome : s.rel.pcFailed.any (fun x => decide (x % 8 = loc % 8)) = true := List.any_eq_true.mpr ⟨x, hx, decide_eq_true hsame⟩
  rw [execPartFailed, whenUp_of_runs hruns, if_pos hup, State.declareFailed, if_pos hsome] at hexec
  refine ⟨_, hexec, State.failStop_failCause ?_ 4⟩
  have hkept : (s.partRecord .pseudoChannel loc 0).rel.failCause = s.rel.failCause := congrArg (fun x : Standing => x.parts.2.2) (State.standing_partRecord ..)
  rw [hkept, hcause]

/-- A DIMM that fails is rebuilt into the spare, or waits for one (R727, R729). -/
theorem partFailed_dimm (hup : s.partUp .dimm loc = true) (hspare : (s.dimm loc).spare = false) (herrors : s.rel.errors = []) :
    let v := { s with strata.dimms := Tab.set s.strata.dimms loc { s.dimm loc with failed := true, spare := false } }
    Does (.partFailed .dimm loc) s fun t => (t.dimm loc).failed = true ∧ t.partNoted .dimm loc (v.spareFor .dimm).isSome (v.spareFor .dimm) := by
  intro v
  have hexec : exec (.partFailed .dimm loc) s = execPartFailed .dimm loc s := rfl
  have hv : (v.dimm loc).failed = true := by simp [v, State.dimm]
  rw [execPartFailed, whenUp_of_runs hruns, if_pos hup, State.declareFailed_dimm hspare] at hexec
  refine ⟨_, hexec, ?_, State.partNoted_failPart (v := v) herrors _ _ _⟩
  rw [(State.parts_failPart _ (by decide) _ _ _).1]
  exact hv

/-- A drive that fails is rebuilt into the spare, or waits for one (R728, R730). -/
theorem partFailed_drive (hup : s.partUp .drive loc = true) (hspare : (s.drive loc).spare = false) (herrors : s.rel.errors = []) :
    let v := { s with strata.drives := Tab.set s.strata.drives loc { s.drive loc with failed := true, spare := false, admitted := true, queues := 0, busy := 0 } }
    Does (.partFailed .drive loc) s fun t => (t.drive loc).failed = true ∧ t.partNoted .drive loc (v.spareFor .drive).isSome (v.spareFor .drive) := by
  intro v
  have hexec : exec (.partFailed .drive loc) s = execPartFailed .drive loc s := rfl
  have hv : (v.drive loc).failed = true := by simp [v, State.drive]
  rw [execPartFailed, whenUp_of_runs hruns, if_pos hup, State.declareFailed_driveOwn hspare] at hexec
  refine ⟨_, hexec, ?_, State.partNoted_failPart (v := v) herrors _ _ _⟩
  rw [(State.parts_failPart _ (by decide) _ _ _).2]
  exact hv

theorem partFailed_down {p : Part} (hup : s.partUp p loc = false) : exec (.partFailed p loc) s = .next s := by
  have hexec : exec (.partFailed p loc) s = execPartFailed p loc s := rfl
  rw [hexec, execPartFailed, whenUp_of_runs hruns, if_neg (by simp [hup])]

end

/-- No rebuild goes into this part. -/
theorem rebuildInto_none {bs : List Rebuild} {p : Part} {n : Nat} (h : ∀ b ∈ bs, b.part = p → b.into ≠ some n) :
    bs.any (fun b => decide (b.part = p) && decide (b.into = some n)) = false := by
  simpa using h

/-- No other part of its kind is the spare. -/
theorem otherSpare_none {α : Type} {t : Tab α} {spare : α → Bool} {n : Nat} (h : ∀ e ∈ t, spare e.2 = true → e.1 = n) :
    t.any (fun e => spare e.2 && decide (e.1 ≠ n)) = false := by
  rw [List.any_eq_false]
  intro e he
  simpa using h e he

/-- SPARE_SET of a DIMM (R731). -/
theorem spareSet_dimm {s : State} {r : BciReq} {i : Issuer} {u : State}
    (hready : s.ready (.spareSet r) { BciRow.o 0x105 3 with minor := some 0, resv := fun r => above r 3 1 } r = some (i, u)) (hone : r.w 1 = 1)
    (hn : r.w 2 < 16 * u.strata.dimmsPer) :
    let n := r.w 2
    let on := decide (r.w 3 = 1)
    let t := State.sizeT1 { u with strata.dimms := Tab.set u.strata.dimms n { u.dimm n with spare := on } }
    (on = true → (u.dimm n).failed = false ∧ (∀ e ∈ u.strata.dimms, e.2.spare = true → e.1 = n) ∧ t.overfull = false) →
    (on = false → ∀ b ∈ u.rel.rebuilds, b.part = .dimm → b.into ≠ some n) → exec (.spareSet r) s = .next (t.respond r .ok []) := by
  intro n on t hon hoff
  have hexec : exec (.spareSet r) s = execSpareSet r s := rfl
  rw [execSpareSet, bciServe_of_ready hready] at hexec
  simp only [hone] at hexec
  rw [if_neg (by omega)] at hexec
  have hfits : (on && ((u.dimm n).failed || u.strata.dimms.any (fun e => e.2.spare && decide (e.1 ≠ n)) || t.overfull)) = false := by
    cases h : on with
    | false => rfl
    | true =>
      obtain ⟨hfailed, hother, hfull⟩ := hon h
      rw [hfailed, hfull, otherSpare_none (spare := Dimm.spare) hother]
      rfl
  have hfree : (!on && u.rel.rebuilds.any (fun b => decide (b.part = .dimm) && decide (b.into = some n))) = false := by
    cases h : on with
    | false => rw [rebuildInto_none (hoff h)]; rfl
    | true => rfl
  rw [if_neg (Bool.eq_false_iff.mp hfits), if_neg (Bool.eq_false_iff.mp hfree)] at hexec
  exact hexec

/-- SPARE_SET of a drive (R731). -/
theorem spareSet_drive {s : State} {r : BciReq} {i : Issuer} {u : State}
    (hready : s.ready (.spareSet r) { BciRow.o 0x105 3 with minor := some 0, resv := fun r => above r 3 1 } r = some (i, u)) (htwo : r.w 1 = 2)
    (hn : r.w 2 < 12) (hadmitted : (u.drive (r.w 2)).admitted = true) (hfailed : (u.drive (r.w 2)).failed = false) :
    let n := r.w 2
    let on := decide (r.w 3 = 1)
    let t := State.sizeT2 { u with strata.drives := Tab.set u.strata.drives n { u.drive n with spare := on } }
    (on = true → (∀ e ∈ u.strata.drives, e.2.spare = true → e.1 = n) ∧ t.t2Bytes ≤ t.t2Cap) →
    (on = false → ∀ b ∈ u.rel.rebuilds, b.part = .drive → b.into ≠ some n) → exec (.spareSet r) s = .next (t.respond r .ok []) := by
  intro n on t hon hoff
  have hexec : exec (.spareSet r) s = execSpareSet r s := rfl
  rw [execSpareSet, bciServe_of_ready hready] at hexec
  simp only [htwo] at hexec
  rw [if_neg (by omega), if_neg (by simp [hadmitted, hfailed])] at hexec
  have hfits : (on && (u.strata.drives.any (fun e => e.2.spare && decide (e.1 ≠ n)) || decide (t.t2Cap < t.t2Bytes))) = false := by
    cases h : on with
    | false => rfl
    | true =>
      obtain ⟨hother, hroom⟩ := hon h
      rw [otherSpare_none (spare := Drive.spare) hother, decide_eq_false (Nat.not_lt.mpr hroom)]
      rfl
  have hfree : (!on && u.rel.rebuilds.any (fun b => decide (b.part = .drive) && decide (b.into = some n))) = false := by
    cases h : on with
    | false => rw [rebuildInto_none (hoff h)]; rfl
    | true => rfl
  rw [if_neg (Bool.eq_false_iff.mp hfits), if_neg (Bool.eq_false_iff.mp hfree)] at hexec
  exact hexec

/-- REBUILD_START starts a rebuild that waits (R726). -/
theorem rebuildStart_answers {s : State} {r : BciReq} {i : Issuer} {u : State} {p : Part} {b : Rebuild} {n : Nat}
    (hready : s.ready (.rebuildStart r) { BciRow.o 0x106 2 with minor := some 0, resv := fun r => above r 2 16 } r = some (i, u)) (hp : partOf (r.w 1) = some p)
    (hb : u.rebuildOf p (r.w 2) = some b) (hwaits : b.running = false) (hn : u.spareFor p = some n) :
    Answers (.rebuildStart r) s r (one u.bci.nextOp) fun t =>
      ∃ x ∈ t.rel.rebuilds, x.op = u.bci.nextOp ∧ x.part = p ∧ x.loc = r.w 2 ∧ x.running = true ∧ x.into = some n := by
  have hexec : exec (.rebuildStart r) s = execRebuildStart r s := rfl
  rw [execRebuildStart, bciServe_of_ready hready] at hexec
  simp only [hp, hb, hn] at hexec
  rw [if_neg (by simp [hwaits])] at hexec
  refine ⟨_, hexec, { op := u.bci.nextOp, part := p, loc := r.w 2, running := true, into := some n }, ?_, rfl, rfl, rfl, rfl, rfl⟩
  rw [State.rel_startRebuild]
  exact List.mem_append_right _ (List.mem_singleton_self _)

/-- The end of a rebuild puts the spare in the part's place (R728). -/
def State.spareTakes (s : State) (b : Rebuild) : State :=
  match b.part, b.into with
  | .dimm, some n => State.sizeT1 { s with strata.dimms := Tab.set s.strata.dimms n { s.dimm n with spare := false } }
  | .drive, some n =>
    if n = b.loc then { s with strata.drives := Tab.set s.strata.drives n { s.drive n with failed := false } }
    else
      State.sizeT2 { s with
        strata.drives := Tab.set (Tab.set s.strata.drives n { s.drive n with spare := false }) b.loc { s.drive b.loc with admitted := false } }
  | _, _ => s

theorem State.rel_spareTakes (s : State) (b : Rebuild) : (s.spareTakes b).rel = s.rel := by
  unfold State.spareTakes
  (repeat' split) <;> rfl

theorem State.dimm_spareTakes (s : State) {b : Rebuild} {n : Nat} (hinto : b.into = some n) (hpart : b.part = .dimm) : ((s.spareTakes b).dimm n).spare = false := by
  simp [State.spareTakes, hinto, hpart, State.sizeT1, State.dimm]

theorem State.drive_spareTakes (s : State) {b : Rebuild} {n : Nat} (hinto : b.into = some n) (hpart : b.part = .drive) (hn : n ≠ b.loc) :
    ((s.spareTakes b).drive n).spare = false ∧ ((s.spareTakes b).drive b.loc).admitted = false := by
  simp [State.spareTakes, hinto, hpart, hn, State.sizeT2, State.drive, Tab.getD_set_ne]

/-- A spare that fails while it is rebuilt into (R729). -/
def State.spareFails (s : State) (b : Rebuild) : State :=
  match b.part, b.into with
  | .dimm, some n => { s with strata.dimms := Tab.set s.strata.dimms n { s.dimm n with failed := true, spare := false } }
  | .drive, some n => { s with strata.drives := Tab.set s.strata.drives n { s.drive n with failed := true, spare := false, admitted := decide (n = b.loc) } }
  | _, _ => s

theorem State.dimm_spareFails (s : State) {b : Rebuild} {n : Nat} (hinto : b.into = some n) (hpart : b.part = .dimm) : ((s.spareFails b).dimm n).failed = true := by
  simp [State.spareFails, hinto, hpart, State.dimm]

theorem State.drive_spareFails (s : State) {b : Rebuild} {n : Nat} (hinto : b.into = some n) (hpart : b.part = .drive) : ((s.spareFails b).drive n).failed = true := by
  simp [State.spareFails, hinto, hpart, State.drive]

section
variable {s : State} {id : Nat} {b : Rebuild} (hruns : s.runs = true) (hfind : s.rel.rebuilds.find? (fun x => decide (x.op = id) && x.running) = some b)
include hruns hfind

/-- The end of a rebuild takes it away, with the spare in the part's place (R728). -/
theorem rebuildEnd_done : Does (.rebuildEnd id false) s fun t => (∀ x ∈ t.rel.rebuilds, x.op ≠ id) ∧ ∀ n, b.into = some n →
    (b.part = .dimm → (t.dimm n).spare = false) ∧ (b.part = .drive → n ≠ b.loc → (t.drive n).spare = false ∧ (t.drive b.loc).admitted = false) := by
  have hexec : exec (.rebuildEnd id false) s = execRebuildEnd id false s := rfl
  rw [execRebuildEnd, whenUp_of_runs hruns] at hexec
  simp only [hfind] at hexec
  rw [if_neg (by decide)] at hexec
  obtain ⟨v, hexec, hv⟩ : ∃ v : State, exec (.rebuildEnd id false) s = .next ((v.spareTakes b).endOp id 1 .ok) ∧ v.rel.rebuilds = s.rel.rebuilds.filter (fun x => decide (x.op ≠ id)) :=
    ⟨_, hexec, rfl⟩
  have hstanding : ((v.spareTakes b).endOp id 1 .ok).standing = (v.spareTakes b).standing := State.standing_endOp ..
  refine ⟨_, hexec, ?_, fun n hinto => ⟨fun hpart => ?_, fun hpart hn => ?_⟩⟩
  · rw [State.rebuilds_of_standing hstanding, State.rel_spareTakes, hv]
    intro x hx
    exact of_decide_eq_true (List.mem_filter.mp hx).2
  · rw [State.dimm_of_standing hstanding]
    exact v.dimm_spareTakes hinto hpart
  · obtain ⟨hspare, hadmitted⟩ := v.drive_spareTakes hinto hpart hn
    exact ⟨(State.spare_of_standing hstanding n).trans hspare, (State.admitted_of_standing hstanding b.loc).trans hadmitted⟩

/-- A spare that fails leaves the rebuild waiting (R729). -/
theorem rebuildEnd_spareFailed : Does (.rebuildEnd id true) s fun t => (∃ x ∈ t.rel.rebuilds, x.part = b.part ∧ x.loc = b.loc ∧ x.running = false)
    ∧ ∀ n, b.into = some n → (b.part = .dimm → (t.dimm n).failed = true) ∧ (b.part = .drive → (t.drive n).failed = true) := by
  have hexec : exec (.rebuildEnd id true) s = execRebuildEnd id true s := rfl
  rw [execRebuildEnd, whenUp_of_runs hruns] at hexec
  simp only [hfind, if_true] at hexec
  obtain ⟨v, hexec⟩ : ∃ v : State, exec (.rebuildEnd id true) s =
      .next (((match b.into with | some n => (v.spareFails b).partRecord b.part n 0 | none => v.spareFails b).waitRebuild b.part b.loc).noSpare b.part b.loc) := ⟨_, hexec⟩
  obtain ⟨w, hw⟩ : ∃ w : State, w = match b.into with | some n => (v.spareFails b).partRecord b.part n 0 | none => v.spareFails b := ⟨_, rfl⟩
  rw [← hw] at hexec
  have hbook := (w.waitRebuild b.part b.loc).partBook_noSpare b.part b.loc
  have hrebuilds : ((w.waitRebuild b.part b.loc).noSpare b.part b.loc).rel.rebuilds = (w.waitRebuild b.part b.loc).rel.rebuilds := congrArg (fun x => x.2.1) hbook
  have hdimm (n : Nat) : ((w.waitRebuild b.part b.loc).noSpare b.part b.loc).dimm n = w.dimm n := congrFun (congrArg (fun x => x.2.2.1) hbook) n
  have hdrive (n : Nat) : (((w.waitRebuild b.part b.loc).noSpare b.part b.loc).drive n).failed = (w.drive n).failed :=
    congrArg (fun x => (x.2.2.2 n).failed) hbook
  refine ⟨_, hexec, ⟨{ op := 0, part := b.part, loc := b.loc, running := false, into := none }, ?_, rfl, rfl, rfl⟩, fun n hinto => ?_⟩
  · rw [hrebuilds]
    exact List.mem_append_right _ (List.mem_singleton_self _)
  · simp only [hinto] at hw
    obtain ⟨hd, hf⟩ := (v.spareFails b).partBook_partRecord b.part n 0 n
    rw [hdimm, hdrive, hw, hd, hf]
    exact ⟨v.dimm_spareFails hinto, v.drive_spareFails hinto⟩

end

/-- Settles O48: the failure of a part, SPARE_SET, REBUILD_START and the end of a rebuild, one lemma each. -/
theorem partsAndSpares : Obligations.PartsAndSpares := by
  unfold Obligations.PartsAndSpares
  refine ⟨fun s loc hruns => ⟨partFailed_pseudoChannel_first hruns, fun x hx => partFailed_pseudoChannel_second hruns hx, partFailed_dimm hruns, partFailed_drive hruns, partFailed_down hruns⟩,
    fun s r i u => ⟨fun hready => ⟨spareSet_dimm hready, spareSet_drive hready⟩, fun p b n => rebuildStart_answers⟩,
    fun s id b hruns hfind => ⟨rebuildEnd_done hruns hfind, rebuildEnd_spareFailed hruns hfind⟩⟩

end Sys2Proof.Machine

/-! PROOF. O49: heartbeats, leases, SUSPECT and takeover (19). What a takeover's steps leave of the copies and of the regions' holders, then one lemma for each command. -/

namespace Sys2Proof.Machine

/-! ### What a takeover's steps leave of the copies and of the regions' holders -/

/-- A region's mirror partner and creator. -/
def Region.holders (g : Region) : Nat × Nat := (g.mirror, g.creator)

/-- The partner and the creator of each region, the copies, and what has been taken over. -/
structure Titles where
  holders : Nat → Option (Nat × Nat)
  copies : Tab Region
  takeovers : List Takeover
  adopted : List Nat

/-- The holders of a table of regions. -/
def holdersIn (t : Tab Region) (rid : Nat) : Option (Nat × Nat) := (Tab.get? t rid).map Region.holders

/-- What a takeover changes (R748 to R752). -/
def State.titles (s : State) : Titles :=
  { holders := holdersIn s.home.regions, copies := s.home.copies, takeovers := s.rel.takeovers, adopted := s.rel.adopted }

theorem State.titles_foldl {α : Type} {f : State → α → State} (h : ∀ s a, (f s a).titles = s.titles) (l : List α) (s : State) : (l.foldl f s).titles = s.titles := by
  induction l generalizing s with
  | nil => rfl
  | cons a l ih => rw [List.foldl_cons, ih, h]

/-- An update keeps the titles that keeps each of their parts. -/
theorem State.titles_mk {s : State} {home : Home} {strata : Strata} {rope : Rope} {cores : Tab Core} {kernels : List KernelQ} {expert : Expert} {trav : Traverse} {mor : Moraine}
    {bci : Bci} {host : Hosts} {lmf : Lmf} {pow : Power} {time : TimeUnit} {rel : Rel} {sec : Sec} {obs : Obs} {pkg : Package} {out : List Out} {resume : List Again}
    {replay : Option Again} {freeCtr nextId : Nat}
    (hregions : holdersIn home.regions = holdersIn s.home.regions) (hcopies : home.copies = s.home.copies) (htakeovers : rel.takeovers = s.rel.takeovers)
    (hadopted : rel.adopted = s.rel.adopted) :
    State.titles ⟨home, strata, rope, cores, kernels, expert, trav, mor, bci, host, lmf, pow, time, rel, sec, obs, pkg, out, resume, replay, freeCtr, nextId, s.pending⟩ = s.titles := by
  simp only [State.titles, hregions, hcopies, htakeovers, hadopted]

@[simp] theorem State.titles_emit (s : State) (o : Out) : (s.emit o).titles = s.titles := by
  rfl

@[simp] theorem State.titles_setFnWin (s : State) (port : Nat) (fn : Nat) (w : Window) : (s.setFnWin port fn w).titles = s.titles := by
  rfl

@[simp] theorem State.titles_event (s : State) (hw : Nat) (idx : Nat) (n : Nat) (ctx : Option Nat) : (s.event hw idx n ctx).titles = s.titles := by
  rfl

@[simp] theorem State.titles_traceFor (s : State) (selected : Bool) (die : Nat) (typ : Nat) (slots : Nat) (time : Nat) (body : List Word) : (s.traceFor selected die typ slots time body).titles = s.titles := by
  rfl

@[simp] theorem State.titles_traceGen (s : State) (die : Nat) (typ : Nat) (slots : Nat) (time : Nat) (body : List Word) : (s.traceGen die typ slots time body).titles = s.titles := by
  rfl

@[simp] theorem State.titles_cairnAt (s : State) (hw : Nat) (code : Nat) (ctx : Nat) (payload : Nat) (time : Nat) : (s.cairnAt hw code ctx payload time).titles = s.titles := by
  unfold State.cairnAt
  split <;> simp [↓State.titles_mk] 

@[simp] theorem State.titles_cairn (s : State) (hw : Nat) (code : Nat) (ctx : Nat) (payload : Nat) : (s.cairn hw code ctx payload).titles = s.titles := by
  simp [↓State.titles_mk, State.cairn]

@[simp] theorem State.titles_strataEvent (s : State) (idx : Nat) (n : Nat) : (s.strataEvent idx n).titles = s.titles := by
  rfl

@[simp] theorem State.titles_errorCount (s : State) (hw : Nat) (cls : Nat) : (s.errorCount hw cls).titles = s.titles := by
  rfl

@[simp] theorem State.titles_workEnd (s : State) (hw : Nat) (ctx : Nat) (st : Status) (exc : Nat) : (s.workEnd hw ctx st exc).titles = s.titles := by
  simp [↓State.titles_mk, State.workEnd]

@[simp] theorem State.titles_release (s : State) (f : HoldWhy → Bool) : (s.release f).titles = s.titles := by
  rfl

@[simp] theorem State.titles_setPages (s : State) (t : Tab Handle) : (s.setPages t).titles = s.titles := by
  rfl

@[simp] theorem State.titles_modPage (s : State) (ref : PageRef) (f : TierPage → TierPage) : (s.modPage ref f).titles = s.titles := by
  rfl

@[simp] theorem State.titles_sweepTables (s : State) : (s.sweepTables).titles = s.titles := by
  rfl

/-- A region that keeps its partner and its creator leaves the table's holders. -/
theorem holdersIn_set {t : Tab Region} {rid : Nat} {r r' : Region} (hrg : Tab.get? t rid = some r) (hholders : r'.holders = r.holders) :
    holdersIn (Tab.set t rid r') = holdersIn t := by
  funext k
  rw [holdersIn, holdersIn, Tab.get?_set]
  split
  · subst k
    rw [hrg, Option.map_some, Option.map_some, hholders]
  · rfl

theorem State.titles_chooseTable {s : State} {rid : Nat} {r : Region} (hrg : s.region? rid = some r) (bytes : Bytes) :
    (s.chooseTable rid r bytes).1.titles = s.titles := by
  unfold State.chooseTable
  dsimp only
  iterate 3
    rw [apply_ite Prod.fst, apply_ite State.titles]
    refine ite_eq_left_iff.mpr fun _ => ?_
  rw [State.titles_event]
  exact State.titles_mk (holdersIn_set hrg rfl) rfl rfl rfl

@[simp] theorem State.titles_nvmeIo (s : State) (slot : Nat) (op : NvmeOp) (lba : Nat) (n : Nat) : (s.nvmeIo slot op lba n).titles = s.titles := by
  unfold State.nvmeIo
  (repeat' split) <;> simp [↓State.titles_mk] 

@[simp] theorem State.titles_nvmeAll (s : State) (op : NvmeOp) (lba : Nat) (n : Nat) : (s.nvmeAll op lba n).titles = s.titles := by
  simp [↓State.titles_mk, State.nvmeAll, apply_ite State.titles, State.titles_foldl]

@[simp] theorem State.titles_stripesOut (s : State) (n : Nat) : (s.stripesOut n).titles = s.titles := by
  induction n generalizing s with
  | zero => rfl
  | succ n ih =>
    unfold State.stripesOut
    split <;> simp [↓State.titles_mk, ih]

@[simp] theorem State.titles_t2Put (s : State) (im : Image) : (s.t2Put im).titles = s.titles := by
  simp [↓State.titles_mk, State.t2Put]

@[simp] theorem State.titles_t2Get (s : State) (ref : PageRef) : (s.t2Get ref).titles = s.titles := by
  unfold State.t2Get
  split <;> simp [↓State.titles_mk]

@[simp] theorem State.titles_memEvent (s : State) (layer : Nat) (idx : Nat) (n : Nat) (ref : PageRef) : (s.memEvent layer idx n ref).titles = s.titles := by
  rfl

@[simp] theorem State.titles_encoderRan (s : State) (ref : PageRef) (p : TierPage) (im : Image) : (s.encoderRan ref p im).titles = s.titles := by
  simp [↓State.titles_mk, State.encoderRan]

@[simp] theorem State.titles_encodeGroup (s : State) (rid : Nat) (refs : List PageRef) (b : TierPage → Backing) (place : Image → TierPage → TierPage) :
    (s.encodeGroup rid refs b place).titles = s.titles := by
  unfold State.encodeGroup
  split
  · rfl
  · rename_i r hrg
    dsimp only
    rw [State.titles_sweepTables, State.titles_foldl, State.titles_chooseTable hrg]
    intro s ref
    (repeat' split) <;> simp [↓State.titles_mk]

@[simp] theorem State.titles_writeBackNow (s : State) (ref : PageRef) : (s.writeBackNow ref).titles = s.titles := by
  unfold State.writeBackNow
  split <;> simp [↓State.titles_mk]

@[simp] theorem State.titles_evict (s : State) (e : PageRef × TierPage) : (s.evict e).titles = s.titles := by
  unfold State.evict
  split <;> simp [↓State.titles_mk]

@[simp] theorem State.titles_roomT0 (s : State) : (s.roomT0).titles = s.titles := by
  unfold State.roomT0
  (repeat' split) <;> simp [↓State.titles_mk]

@[simp] theorem State.titles_fillT0 (s : State) (ref : PageRef) : (s.fillT0 ref).titles = s.titles := by
  unfold State.fillT0
  (repeat' split) <;> simp [↓State.titles_mk]

theorem State.titles_allocate {s : State} {rid : Nat} {r : Region} (hrg : s.region? rid = some r) (p : Nat) : (s.allocate rid p r).titles = s.titles := by
  have hroom : (if r.policy.place = .t0Only then s.roomT0 else s).titles = s.titles := by
    rw [apply_ite State.titles, State.titles_roomT0, ite_self]
  unfold State.allocate
  dsimp only
  generalize (if r.policy.place = .t0Only then s.roomT0 else s) = u at hroom ⊢
  have hu : holdersIn u.home.regions = holdersIn s.home.regions := congrArg Titles.holders hroom
  refine (State.titles_mk (s := u) ?_ (by rfl) (by rfl) (by rfl)).trans hroom
  funext k
  rw [hu, holdersIn, Tab.get?_set]
  split
  · subst k
    rw [holdersIn, show Tab.get? s.home.regions rid = some r from hrg]
    rfl
  · exact congrFun hu k

@[simp] theorem State.titles_ensurePage (s : State) (rid : Nat) (p : Nat) : (s.ensurePage rid p).titles = s.titles := by
  unfold State.ensurePage
  split
  · rename_i r hrg
    split
    · exact State.titles_allocate hrg p
    · rfl
  · rfl

@[simp] theorem State.titles_commit (s : State) : (s.commit).titles = s.titles := by
  rfl

@[simp] theorem State.titles_makeShadow (s : State) (rid : Nat) (p : Nat) (i : Issuer) : (s.makeShadow rid p i).titles = s.titles := by
  rw [← State.titles_ensurePage s rid p]
  unfold State.makeShadow
  dsimp only
  generalize s.ensurePage rid p = u
  split
  · rfl
  · split
    · rfl
    · split
      · rfl
      · rw [apply_ite State.titles]
        refine ite_eq_left_iff.mpr fun _ => ?_
        rw [apply_ite State.titles, State.titles_emit, ite_self, State.titles_commit]
        rename_i _ r _ _ _ _ _ hd _ _
        have hroom (P : Prop) [Decidable P] : (if P then u.roomT0 else u).titles = u.titles := by rw [apply_ite State.titles, State.titles_roomT0, ite_self]
        exact (State.titles_mk (s := if (if u.newBacking r = .none ∨ hd.pub.t0 = .dirty then T0Copy.dirty else .none) = .dirty then u.roomT0 else u) (by rfl) (by rfl) (by rfl) (by rfl)).trans (hroom _)

@[simp] theorem State.titles_dropShadow (s : State) (h : Nat) (eid : Nat) (ctx : Nat) : (s.dropShadow h eid ctx).titles = s.titles := by
  simp [↓State.titles_mk, State.dropShadow, apply_ite State.titles, State.titles_foldl]

@[simp] theorem State.titles_putRef (s : State) (ref : PageRef) (off : Nat) (data : Bytes) : (s.putRef ref off data).titles = s.titles := by
  simp [↓State.titles_mk, State.putRef, apply_ite State.titles, State.titles_foldl]

@[simp] theorem State.titles_directMap (s : State) (rid p off n : Nat) (f : Bytes → Bytes) : (s.directMap rid p off n f).titles = s.titles := by
  unfold State.directMap
  dsimp only
  (repeat' split)
  · simp [↓State.titles_mk]
  · simp [↓State.titles_mk]
  · rw [State.titles_foldl (fun s ref => ?_), State.titles_ensurePage]
    (repeat' split) <;> simp [↓State.titles_mk]

@[simp] theorem State.titles_write1 (s : State) (rid : Nat) (w : Way) (off : Nat) (data : Bytes) : (s.write1 rid w off data).titles = s.titles := by
  unfold State.write1
  simp [↓State.titles_mk, apply_ite State.titles, State.titles_foldl]
  (repeat' split) <;> simp [↓State.titles_mk, apply_ite State.titles, State.titles_foldl]

@[simp] theorem State.titles_writePieces (s : State) (rid : Nat) (w : Way) (data : Bytes) (off : Nat) (ps : List (Nat × Nat)) :
    (s.writePieces rid w data off ps).titles = s.titles := by
  induction ps generalizing s with
  | nil => rfl
  | cons p ps ih => simp [↓State.titles_mk, State.writePieces, ih]

@[simp] theorem State.titles_writeRange (s : State) (rid : Nat) (w : Way) (off : Nat) (data : Bytes) : (s.writeRange rid w off data).titles = s.titles := by
  simp [↓State.titles_mk, State.writeRange]

@[simp] theorem State.titles_poisonLine (s : State) (rid : Nat) (w : Way) (off : Nat) : (s.poisonLine rid w off).titles = s.titles := by
  unfold State.poisonLine
  simp [↓State.titles_mk, apply_ite State.titles, State.titles_foldl]
  (repeat' split) <;> simp [↓State.titles_mk, apply_ite State.titles, State.titles_foldl]

@[simp] theorem State.titles_vector (s : State) (port : Nat) (fn : Nat) (v : Nat) : (s.vector port fn v).titles = s.titles := by
  simp [↓State.titles_mk, State.vector, apply_ite State.titles, State.titles_foldl]

@[simp] theorem State.titles_rsFn (s : State) (port : Nat) (fn : Nat) : (s.rsFn port fn).titles = s.titles := by
  rfl

theorem State.titles_of_recordIn {s t : State} {rid off : Nat} {data : Bytes} (h : s.recordIn rid off data = some t) : t.titles = s.titles := by
  unfold State.recordIn at h
  split at h
  · cases h
  · split at h <;> cases h
    simp [↓State.titles_mk]

theorem State.titles_of_recordAt {s t : State} {key off : Nat} {data : Bytes} (h : s.recordAt key off data = some t) : t.titles = s.titles := by
  unfold State.recordAt at h
  split at h
  · cases h
  · exact State.titles_of_recordIn h

@[simp] theorem State.titles_setUnit (s : State) (hw : Nat) (u : UnitRec) : (s.setUnit hw u).titles = s.titles := by
  rfl

@[simp] theorem State.titles_healthCount (s : State) (hw : Nat) (cls : Nat) : (s.healthCount hw cls).titles = s.titles := by
  unfold State.healthCount
  (repeat' split) <;> simp [↓State.titles_mk]

@[simp] theorem State.titles_quarantineWatch (s : State) (hw : Nat) (cls : Nat) : (s.quarantineWatch hw cls).titles = s.titles := by
  unfold State.quarantineWatch
  split <;> simp [↓State.titles_mk]

@[simp] theorem State.titles_errorCounted (s : State) (n : ErrorNote) : (s.errorCounted n).titles = s.titles := by
  simp [State.errorCounted]

@[simp] theorem State.titles_error (s : State) (n : ErrorNote) : (s.error n).titles = s.titles := by
  rw [State.error_eq]
  split
  · exact (State.titles_mk rfl rfl rfl rfl).trans (s.titles_errorCounted n)
  · rw [State.titles_emit, State.titles_traceGen, State.titles_cairn]
    refine (State.titles_mk rfl rfl rfl rfl).trans ?_
    rw [State.titles_quarantineWatch, State.titles_errorCounted]

@[simp] theorem State.titles_lostRecord (s : State) (key : Nat) (off : Nat) (ctx : Nat) : (s.lostRecord key off ctx).titles = s.titles := by
  simp [↓State.titles_mk, State.lostRecord]

@[simp] theorem State.titles_rsNotice (s : State) (eid : Nat) (ctx : Nat) : (s.rsNotice eid ctx).titles = s.titles := by
  unfold State.rsNotice
  (repeat' split) <;> simp [↓State.titles_mk]

@[simp] theorem State.titles_notice (s : State) (eid ctx kind : Nat) (aborted : Bool) (st : Status) (src obj deadline : Nat) :
    (s.notice eid ctx kind aborted st src obj deadline).titles = s.titles := by
  unfold State.notice
  dsimp only
  (repeat' split) <;> simp [↓State.titles_mk] 
  all_goals exact State.titles_of_recordAt (by assumption)

@[simp] theorem State.titles_noticeTo (s : State) (who : Option (Nat × Nat)) (kind : Nat) (aborted : Bool) (st : Status) (src : Nat) (obj : Nat) (deadline : Nat) : (s.noticeTo who kind aborted st src obj deadline).titles = s.titles := by
  unfold State.noticeTo
  split <;> simp [↓State.titles_mk]

@[simp] theorem State.titles_toAgent (s : State) (a : Nat) (op : Nat) (rid : Nat) (ln : Nat) (flag : Nat) (data : Bytes) : (s.toAgent a op rid ln flag data).titles = s.titles := by
  rfl

@[simp] theorem State.titles_setLine (s : State) (rid : Nat) (ln : Nat) (l : Line) : (s.setLine rid ln l).titles = s.titles := by
  rfl

@[simp] theorem State.titles_freeLine (s : State) (rid : Nat) (ln : Nat) : (s.freeLine rid ln).titles = s.titles := by
  unfold State.freeLine
  (repeat' split) <;> simp [↓State.titles_mk] 

@[simp] theorem State.titles_tidyLine (s : State) (rid : Nat) (ln : Nat) : (s.tidyLine rid ln).titles = s.titles := by
  unfold State.tidyLine
  (repeat' split) <;> simp [↓State.titles_mk] 

@[simp] theorem State.titles_served (s : State) (rid : Nat) (ln : Nat) (eid : Nat) : (s.served rid ln eid).titles = s.titles := by
  unfold State.served
  (repeat' split) <;> simp [↓State.titles_mk]

@[simp] theorem State.titles_claim (s : State) (cmd : Instr) : (s.claim cmd).titles = s.titles := by
  simp [↓State.titles_mk, State.claim, apply_ite State.titles, State.titles_foldl]

@[simp] theorem State.titles_takeUp (s : State) (a : Again) : (s.takeUp a).titles = s.titles := by
  unfold State.takeUp
  (repeat' split) <;> simp [↓State.titles_mk, apply_ite State.titles, State.titles_foldl]

@[simp] theorem State.titles_endOp (s : State) (id : Nat) (state : Nat) (st : Status) : (s.endOp id state st).titles = s.titles := by
  unfold State.endOp
  (repeat' split) <;> simp [↓State.titles_mk] 

@[simp] theorem State.titles_opProgress (s : State) (id : Nat) (pos : Nat) : (s.opProgress id pos).titles = s.titles := by
  rfl

@[simp] theorem State.titles_lineToxic (s : State) (rid : Nat) (ln : Nat) : (s.lineToxic rid ln).titles = s.titles := by
  simp [↓State.titles_mk, State.lineToxic]

@[simp] theorem State.titles_again (s : State) (a : Again) (more : List Again) : (s.again a more).titles = s.titles := by
  simp [↓State.titles_mk, State.again]

@[simp] theorem State.titles_mapRefs (s : State) (f : PageRef → TierPage → TierPage) : (s.mapRefs f).titles = s.titles := by
  rfl

@[simp] theorem State.titles_kick (s : State) : (s.kick).titles = s.titles := by
  rfl

@[simp] theorem State.titles_applyPolicy (s : State) (rid : Nat) (new : Policy) : (s.applyPolicy rid new).titles = s.titles := by
  unfold State.applyPolicy
  dsimp only
  rw [State.titles_kick, State.titles_mapRefs]
  refine State.titles_mk ?_ rfl rfl rfl
  funext k
  rw [holdersIn, holdersIn, Tab.get?_modify]
  split
  · rw [Option.map_map]
    rfl
  · rfl

@[simp] theorem State.titles_mapPages (s : State) (f : TierPage → TierPage) : (s.mapPages f).titles = s.titles := by
  rfl

@[simp] theorem State.titles_dropTl (s : State) (ext : Nat) : (s.dropTl ext).titles = s.titles := by
  rfl

@[simp] theorem State.titles_poisonRecalled (s : State) (rid : Nat) : (s.poisonRecalled rid).titles = s.titles := by
  unfold State.poisonRecalled
  (repeat' split) <;> simp [↓State.titles_mk, apply_ite State.titles, State.titles_foldl]

@[simp] theorem State.titles_loseShadows (s : State) (rid : Nat) : (s.loseShadows rid).titles = s.titles := by
  refine State.titles_foldl (fun s e => State.titles_foldl (fun s w => ?_) _ _) _ _
  simp [↓State.titles_mk] 

@[simp] theorem State.titles_recallRegion (s : State) (rid : Nat) : (s.recallRegion rid).titles = s.titles := by
  unfold State.recallRegion
  (repeat' split) <;> simp [↓State.titles_mk, apply_ite State.titles, State.titles_foldl]

@[simp] theorem State.titles_settleAdopted (s : State) (rid : Nat) (ctx : Nat) (home : Nat) (p : Policy) : (s.settleAdopted rid ctx home p).titles = s.titles := by
  simp [↓State.titles_mk, State.settleAdopted, apply_ite State.titles, State.titles_foldl]


/-! ### Heartbeats and leases (R739 to R741, R748) -/

@[simp] theorem State.hbOf_setHb_self (s : State) (eid : Nat) (h : HbEntry) : (s.setHb eid h).hbOf eid = h := Tab.getD_set_self _ _ _ _

theorem State.hbOf_setHb_ne (s : State) {eid k : Nat} (h : HbEntry) (hk : k ≠ eid) : (s.setHb eid h).hbOf k = s.hbOf k := Tab.getD_set_ne _ _ _ hk

theorem State.hbOf_of_hb {s t : State} (h : t.rel.hb = s.rel.hb) (eid : Nat) : t.hbOf eid = s.hbOf eid := by
  rw [State.hbOf, State.hbOf, h]

@[simp] theorem State.hb_cairn (s : State) (hw code ctx payload : Nat) : (s.cairn hw code ctx payload).rel.hb = s.rel.hb := by
  unfold State.cairn State.cairnAt
  split <;> rfl

@[simp] theorem State.hb_errorCounted (s : State) (n : ErrorNote) : (s.errorCounted n).rel.hb = s.rel.hb := by
  change (s.healthCount n.hw n.cls).rel.hb = s.rel.hb
  unfold State.healthCount
  dsimp only
  split
  · split <;> rfl
  · rfl

@[simp] theorem State.hb_error (s : State) (n : ErrorNote) : (s.error n).rel.hb = s.rel.hb := by
  rw [State.error_eq]
  split
  · exact s.hb_errorCounted n
  · have hwatch : ((s.errorCounted n).quarantineWatch n.hw n.cls).rel.hb = (s.errorCounted n).rel.hb := by
      unfold State.quarantineWatch
      split <;> rfl
    exact (State.hb_cairn _ _ _ _ _).trans (hwatch.trans (s.hb_errorCounted n))

/-- HEARTBEAT to each endpoint of a list. -/
def State.beat (s : State) (now : Nat) (pay : List Nat) (e : Nat) : State := (s.setHb e { s.hbOf e with sentAt := now }).emit (.evt e 8 pay)

/-- Each endpoint of the list has been sent HEARTBEAT, and nothing but the detector's records has changed. -/
theorem State.beats_sent (now : Nat) (pay : List Nat) (l : List Nat) (s : State) :
    (l.foldl (fun s e => s.beat now pay e) s).home = s.home ∧ (l.foldl (fun s e => s.beat now pay e) s).lmf = s.lmf
      ∧ (l.foldl (fun s e => s.beat now pay e) s).time = s.time ∧ (∀ o ∈ s.out, o ∈ (l.foldl (fun s e => s.beat now pay e) s).out)
      ∧ ∀ e, e ∈ l ∨ (s.hbOf e).sentAt = now → ((l.foldl (fun s e => s.beat now pay e) s).hbOf e).sentAt = now
        ∧ (e ∈ l → .evt e 8 pay ∈ (l.foldl (fun s e => s.beat now pay e) s).out) := by
  induction l generalizing s with
  | nil => exact ⟨rfl, rfl, rfl, fun _ h => h, fun e h => ⟨h.resolve_left List.not_mem_nil, fun h => absurd h List.not_mem_nil⟩⟩
  | cons a l ih =>
    rw [List.foldl_cons]
    obtain ⟨hhome, hlmf, htime, hout, hsent⟩ := ih (s.beat now pay a)
    have hself : ((s.beat now pay a).hbOf a).sentAt = now := congrArg HbEntry.sentAt (s.hbOf_setHb_self a _)
    refine ⟨hhome, hlmf, htime, fun o ho => hout o (List.mem_cons_of_mem _ ho), fun e he => ?_⟩
    by_cases hea : e = a
    · subst hea
      exact ⟨(hsent e (.inr hself)).1, fun _ => hout _ List.mem_cons_self⟩
    · have hkept : (s.beat now pay a).hbOf e = s.hbOf e := s.hbOf_setHb_ne _ hea
      have hin : e ∈ a :: l ↔ e ∈ l := by simp [hea]
      rw [hin] at he ⊢
      exact hsent e (by rwa [hkept])

/-- HEARTBEAT's words do not change while it is sent. -/
theorem State.beats_eq (l : List Nat) (s : State) :
    l.foldl (fun (s : State) e => (s.setHb e { s.hbOf e with sentAt := s.now + 1 }).emit (.evt e 8 [s.lmf.inc, s.now, b2n (decide (5000 < s.errNow))])) s
      = l.foldl (fun u e => u.beat (s.now + 1) [s.lmf.inc, s.now, b2n (decide (5000 < s.errNow))] e) s := by
  induction l generalizing s with
  | nil => rfl
  | cons a l ih => exact ih (s.beat (s.now + 1) [s.lmf.inc, s.now, b2n (decide (5000 < s.errNow))] a)

section
variable {s : State} (hruns : s.runs = true)
include hruns

/-- HEARTBEAT goes to every endpoint that expects it (R739). -/
theorem heartbeatSend_does (hjoined : s.lmf.joined = true) (hdue : (s.hbOf s.lmf.eid).sentAt = 0 ∨ (s.hbOf s.lmf.eid).sentAt + s.param 1 * 1000 ≤ s.now + 1) :
    Does .heartbeatSend s fun t => (t.hbOf s.lmf.eid).sentAt = s.now + 1
      ∧ (∀ e ∈ s.hbTargets, (t.hbOf e).sentAt = s.now + 1 ∧ .evt e 8 [s.lmf.inc, s.now, b2n (decide (5000 < s.errNow))] ∈ t.out) ∧ t.home = s.home := by
  have hexec : exec .heartbeatSend s = execHeartbeatSend s := rfl
  rw [execHeartbeatSend, whenUp_of_runs hruns] at hexec
  dsimp only at hexec
  rw [if_neg (by simp [hjoined]; omega), State.beats_eq] at hexec
  obtain ⟨hhome, hlmf, htime, -, hsent⟩ := State.beats_sent (s.now + 1) [s.lmf.inc, s.now, b2n (decide (5000 < s.errNow))] s.hbTargets s
  generalize s.hbTargets.foldl (fun u e => u.beat (s.now + 1) [s.lmf.inc, s.now, b2n (decide (5000 < s.errNow))] e) s = u at hexec hhome hlmf htime hsent
  rw [hlmf, show u.now = s.now from congrArg TimeUnit.now htime] at hexec
  refine ⟨_, hexec, ?_, fun e he => ⟨?_, (hsent e (.inl he)).2 he⟩, hhome⟩
  · rw [State.hbOf_setHb_self]
  · by_cases heid : e = s.lmf.eid
    · rw [heid, State.hbOf_setHb_self]
    · rw [State.hbOf_setHb_ne _ _ heid]
      exact (hsent e (.inl he)).1

/-- A heartbeat that arrives ends SUSPECT and extends a partner's lease (R740, R741). -/
theorem heartbeat_does {eid inc ftime : Nat} (hjudge : s.judge eid inc = .current) :
    Does (.heartbeat eid inc ftime) s fun t => (t.hbOf eid).last = s.now ∧ (t.hbOf eid).suspect = false
      ∧ (s.home.regions.any (fun e => decide (e.2.mirror = eid)) = true → (t.hbOf eid).leaseEnd = max (s.hbOf eid).leaseEnd (ftime + s.param 3 * 1000))
      ∧ (∀ h ∈ t.home.held, h.why ≠ .lease eid) ∧ ∀ k, k ≠ eid → t.hbOf k = s.hbOf k := by
  have hexec : exec (.heartbeat eid inc ftime) s = execHeartbeat eid inc ftime s := rfl
  rw [execHeartbeat, whenUp_of_runs hruns] at hexec
  simp only [hjudge] at hexec
  obtain ⟨u, hu, hhb⟩ : ∃ u : State, exec (.heartbeat eid inc ftime) s = .next (u.release (fun w => decide (w = .lease eid)))
      ∧ u.rel.hb = (s.setHb eid { s.hbOf eid with last := s.now, suspect := false, leaseEnd := if s.home.regions.any (fun e => decide (e.2.mirror = eid)) then max (s.hbOf eid).leaseEnd (ftime + s.param 3 * 1000) else (s.hbOf eid).leaseEnd }).rel.hb := by
    refine ⟨_, hexec, ?_⟩
    split
    · exact State.hb_error _ _
    · rfl
  have hhb (k : Nat) := State.hbOf_of_hb (show (u.release (fun w => decide (w = .lease eid))).rel.hb = _ from hhb) k
  refine ⟨_, hu, ?_, ?_, fun hpartner => ?_, fun h hheld => ?_, fun k hk => ?_⟩
  · rw [hhb, State.hbOf_setHb_self]
  · rw [hhb, State.hbOf_setHb_self]
  · rw [hhb, State.hbOf_setHb_self]
    exact if_pos hpartner
  · simpa using (List.mem_filter.mp hheld).2
  · rw [hhb, State.hbOf_setHb_ne _ _ hk]

theorem heartbeat_other {eid inc ftime : Nat} (hjudge : s.judge eid inc ≠ .current) : exec (.heartbeat eid inc ftime) s = .next s := by
  have hexec : exec (.heartbeat eid inc ftime) s = execHeartbeat eid inc ftime s := rfl
  rw [hexec, execHeartbeat, whenUp_of_runs hruns]
  dsimp only
  split
  · contradiction
  · rfl

/-- A silent endpoint becomes SUSPECT (R741). -/
theorem suspect_does {eid : Nat} (hnot : (s.hbOf eid).suspect = false) (hwatched : eid ∈ s.hbWatched) (hsilent : (s.hbOf eid).last + s.param 2 * s.param 1 * 1000 ≤ s.now) :
    Does (.suspect eid) s fun t => (t.hbOf eid).suspect = true ∧ ∃ e ∈ t.rel.errors, e.cls = 8 ∧ e.hw = anyUnit s.freeCtr := by
  have hexec : exec (.suspect eid) s = execSuspect eid s := rfl
  have hcontains : s.hbWatched.contains eid = true := List.contains_iff_mem.mpr hwatched
  rw [execSuspect, whenUp_of_runs hruns] at hexec
  dsimp only at hexec
  rw [if_neg (by simp [hnot, hwatched]; omega)] at hexec
  obtain ⟨e, he, hhw, hcls⟩ := State.error_recorded_of (s.setHb eid { s.hbOf eid with suspect := true })
    (n := { ErrorNote.of 8 .ok (anyUnit s.freeCtr) with eid := eid }) rfl rfl
  refine ⟨_, hexec, ?_, e, he, hcls, hhw⟩
  rw [State.hbOf_of_hb (State.hb_error _ _), State.hbOf_setHb_self]

theorem leaseExpiry_ends {eid : Nat} (hlease : (s.hbOf eid).leaseEnd ≠ 0) (hend : (s.hbOf eid).leaseEnd ≤ s.now) :
    exec (.leaseExpiry eid) s = .next (s.setHb eid { s.hbOf eid with leaseEnd := 0 }) := by
  have hexec : exec (.leaseExpiry eid) s = execLeaseExpiry eid s := rfl
  rw [hexec, execLeaseExpiry, whenUp_of_runs hruns]
  dsimp only
  rw [if_neg (by simp [hlease]; omega)]

end

/-! ### Takeover (R748 to R752) -/

/-- An adopted copy is a region of the context, without a partner (R750). -/
theorem State.titles_adopts (ctx : Nat) (l : List (Nat × Region)) (s : State) :
    (l.foldl (fun (s : State) e => s.adopt e.1 e.2 ctx) s).titles =
      { s.titles with
        holders := fun k => if k ∈ l.map Prod.fst then some (0, ctx) else s.titles.holders k
        copies := (l.map Prod.fst).foldl Tab.erase s.home.copies } := by
  induction l generalizing s with
  | nil => rfl
  | cons e l ih =>
    rw [List.foldl_cons, ih]
    simp only [State.titles, State.adopt, List.map_cons, List.foldl_cons, Titles.mk.injEq, and_true]
    funext k
    rw [holdersIn, Tab.get?_set]
    by_cases hk : k = e.1
    · simp [hk, Region.holders]
    · have hin : k ∈ l.map Prod.fst ↔ k ∈ e.1 :: l.map Prod.fst := by rw [List.mem_cons, or_iff_right hk]
      rw [if_neg hk]
      exact if_congr hin rfl rfl

/-- What is erased from a table is not in it, nor is what was not in it. -/
theorem Tab.get?_foldl_erase {α : Type} (ks : List Nat) (t : Tab α) {k : Nat} (h : k ∈ ks ∨ Tab.get? t k = none) : Tab.get? (ks.foldl Tab.erase t) k = none := by
  induction ks generalizing t with
  | nil => exact h.resolve_left List.not_mem_nil
  | cons j ks ih =>
    rw [List.foldl_cons]
    refine ih (Tab.erase t j) ?_
    rw [Tab.get?_erase]
    rcases h with h | h
    · rcases List.mem_cons.mp h with rfl | h
      · exact .inr (if_pos rfl)
      · exact .inl h
    · exact .inr (by rw [h, ite_self])

/-- The copies that are not complete are erased (R751). -/
theorem State.titles_loses (l : List (Nat × Region)) (s : State) :
    (l.foldl (fun (s : State) e => { s with home.copies := Tab.erase s.home.copies e.1 }) s).titles =
      { s.titles with copies := (l.map Prod.fst).foldl Tab.erase s.home.copies } := by
  induction l generalizing s with
  | nil => rfl
  | cons e l ih => rw [List.foldl_cons, ih]; rfl

section
variable {s : State}

/-- The steps of a takeover after its wait (R748 to R752). -/
theorem takeoverWaitEnd_titles (hruns : s.runs = true) {x : Takeover} (hfind : s.rel.takeovers.find? (fun y => decide (y.id = x.id) && !y.adopted) = some x) (hend : x.waitEnd ≤ s.now) :
    Does (.takeoverWaitEnd x.id) s fun t => t.titles =
      { holders := fun k => if k ∈ (s.home.copies.filter (fun e => decide (e.2.mirror = x.eid) && e.2.mirrorDone)).map Prod.fst then some (0, x.ctx) else holdersIn s.home.regions k
        copies := ((s.home.copies.filter (fun e => decide (e.2.mirror = x.eid) && !e.2.mirrorDone)).map Prod.fst).foldl Tab.erase
          (((s.home.copies.filter (fun e => decide (e.2.mirror = x.eid) && e.2.mirrorDone)).map Prod.fst).foldl Tab.erase s.home.copies)
        takeovers := s.rel.takeovers.map (fun (y : Takeover) => if y.id = x.id then { y with adopted := true } else y)
        adopted := if s.rel.adopted.contains x.eid then s.rel.adopted else s.rel.adopted ++ [x.eid] } := by
  have hexec : exec (.takeoverWaitEnd x.id) s = execTakeoverWaitEnd x.id s := rfl
  rw [execTakeoverWaitEnd, whenUp_of_runs hruns] at hexec
  simp only [hfind] at hexec
  rw [if_neg (by omega)] at hexec
  refine ⟨_, hexec, ?_⟩
  dsimp only
  rw [State.titles_release, State.titles_endOp, State.titles_opProgress, State.titles_foldl (by simp), State.titles_foldl (by simp), State.titles_foldl (by simp),
    State.titles_loses]
  have hadopts := State.titles_adopts x.ctx (s.home.copies.filter (fun e => decide (e.2.mirror = x.eid) && e.2.mirrorDone)) { s with
    rel.takeovers := s.rel.takeovers.map (fun (y : Takeover) => if y.id = x.id then { y with adopted := true } else y)
    rel.adopted := if s.rel.adopted.contains x.eid then s.rel.adopted else s.rel.adopted ++ [x.eid] }
  have hcopies := congrArg Titles.copies hadopts
  dsimp only [State.titles] at hcopies
  rw [hadopts, hcopies]
  rfl

/-- TAKEOVER adopts the complete copies and loses the others, once the last lease has ended (R748 to R752). -/
theorem takeoverWaitEnd_does (hruns : s.runs = true) {x : Takeover} (hfind : s.rel.takeovers.find? (fun y => decide (y.id = x.id) && !y.adopted) = some x) (hend : x.waitEnd ≤ s.now) :
    Does (.takeoverWaitEnd x.id) s fun t => x.eid ∈ t.rel.adopted ∧ (∀ y ∈ t.rel.takeovers, y.id = x.id → y.adopted = true)
      ∧ ∀ e ∈ s.home.copies, e.2.mirror = x.eid → Tab.get? t.home.copies e.1 = none
        ∧ (e.2.mirrorDone = true → ∃ g, t.region? e.1 = some g ∧ g.mirror = 0 ∧ g.creator = x.ctx) := by
  obtain ⟨t, hexec, htitles⟩ := takeoverWaitEnd_titles hruns hfind hend
  have hholders : holdersIn t.home.regions = _ := congrArg Titles.holders htitles
  have hcopies : t.home.copies = _ := congrArg Titles.copies htitles
  have htakeovers : t.rel.takeovers = _ := congrArg Titles.takeovers htitles
  have hadopted : t.rel.adopted = _ := congrArg Titles.adopted htitles
  dsimp only at hholders hcopies htakeovers hadopted
  refine ⟨t, hexec, ?_, fun y hy hid => ?_, fun e he hmirror => ⟨?_, fun hdone => ?_⟩⟩
  · rw [hadopted]
    split
    · exact List.contains_iff_mem.mp ‹_›
    · exact List.mem_append_right _ (List.mem_singleton_self _)
  · rw [htakeovers] at hy
    obtain ⟨z, -, rfl⟩ := List.mem_map.mp hy
    split at hid
    · rw [if_pos ‹_›]
    · contradiction
  · rw [hcopies]
    cases hdone : e.2.mirrorDone with
    | true =>
      refine Tab.get?_foldl_erase _ _ (.inr (Tab.get?_foldl_erase _ _ (.inl (List.mem_map_of_mem (f := Prod.fst) (List.mem_filter.mpr ⟨he, ?_⟩)))))
      simp [hmirror, hdone]
    | false =>
      refine Tab.get?_foldl_erase _ _ (.inl (List.mem_map_of_mem (f := Prod.fst) (List.mem_filter.mpr ⟨he, ?_⟩)))
      simp [hmirror, hdone]
  · have hin : e.1 ∈ (s.home.copies.filter (fun e => decide (e.2.mirror = x.eid) && e.2.mirrorDone)).map Prod.fst :=
      List.mem_map_of_mem (List.mem_filter.mpr ⟨he, by simp [hmirror, hdone]⟩)
    have hheld : (t.region? e.1).map Region.holders = some (0, x.ctx) := (congrFun hholders e.1).trans (if_pos hin)
    obtain ⟨g, hg, hholds⟩ := Option.map_eq_some_iff.mp hheld
    exact ⟨g, hg, congrArg Prod.fst hholds, congrArg Prod.snd hholds⟩

/-- TAKEOVER of a fenced endpoint waits for its last lease (R748, R749). -/
theorem takeover_answers {r : BciReq} {i : Issuer} {u : State} {e : IncEntry} {n : Nat}
    (hready : s.ready (.takeover r) { BciRow.o 0x107 3 with minor := some 0, resv := fun r => above r 1 18 || above r 3 12 } r = some (i, u))
    (hinc : Tab.get? u.lmf.incs (r.w 1) = some e) (hfenced : e.fenced = some n) (hle : r.w 2 ≤ n) (hctx : u.ctxOk (r.w 3) = true) :
    Answers (.takeover r) s r (one u.bci.nextOp) fun t =>
      (∃ x ∈ t.rel.takeovers, x.id = u.bci.nextOp ∧ x.eid = r.w 1 ∧ x.inc = r.w 2 ∧ x.ctx = r.w 3 ∧ x.adopted = false) ∧ t.home = u.home := by
  have hexec : exec (.takeover r) s = execTakeover r s := rfl
  rw [execTakeover, bciServe_of_ready hready] at hexec
  simp only [hinc, hfenced, hctx] at hexec
  rw [if_neg (by simp [hle])] at hexec
  exact ⟨_, hexec, ⟨_, List.mem_append_right _ (List.mem_singleton_self _), rfl, rfl, rfl, rfl, rfl⟩, rfl⟩

end

/-- Settles O49: heartbeats and leases by the state they meet; a takeover by the titles its steps leave. -/
theorem heartbeatsAndTakeover : Obligations.HeartbeatsAndTakeover := by
  unfold Obligations.HeartbeatsAndTakeover
  exact ⟨fun s hruns => ⟨heartbeatSend_does hruns, fun eid inc ftime => heartbeat_does hruns, fun eid inc ftime => heartbeat_other hruns, fun eid => suspect_does hruns,
    fun eid => leaseExpiry_ends hruns, fun x => takeoverWaitEnd_does hruns⟩, fun s r i u e n => takeover_answers⟩

end Sys2Proof.Machine

/-! PROOF. O52: cairn rings, the partner history and traces (21, 17). -/

namespace Sys2Proof.Machine

/-- CRN_READ writes the entries of a unit's ring (R827). -/
theorem crnRead_copies {s : State} {r : BciReq} {i : Issuer} {u : State}
    (hready : s.ready (.crnRead r) { BciRow.p 0x127 4 with resv := fun r => above r 1 9 || offResv r 3 } r = some (i, u)) :
    Copies (.crnRead r) s r i u (r.w 2) (r.d 3) (((Tab.getD u.obs.cairns (r.w 1) []).flatMap (fun (c : Cairn) => bytesOf c.words) ++ List.replicate 1024 0).take 1024)
      (one (Tab.getD u.obs.writes (r.w 1) 0)) fun _ => True := by
  have hexec : exec (.crnRead r) s = execCrnRead r s := rfl
  rw [execCrnRead, bciServe_of_ready hready] at hexec
  exact copies_of_copyOut hexec (fun _ => rfl) fun _ => trivial

/-- PARTNER_READ writes the entries of the history (R684). -/
theorem partnerRead_copies {s : State} {r : BciReq} {i : Issuer} {u : State}
    (hready : s.ready (.partnerRead r) { BciRow.p 0x129 5 with resv := fun r => offResv r 4 } r = some (i, u)) (hlow : 1 ≤ r.w 2) (hhigh : r.w 2 ≤ 1024) :
    let e := fromSeq PartnerRec.seq u.lmf.history u.lmf.partnerSeq (r.w 1) (r.w 2)
    Copies (.partnerRead r) s r i u (r.w 3) (r.d 4) (e.1.flatMap (fun x => bytesOf x.words)) [BitVec.ofNat 32 e.1.length, BitVec.ofNat 32 e.2.1] fun _ => True := by
  have hexec : exec (.partnerRead r) s = execPartnerRead r s := rfl
  rw [execPartnerRead, bciServe_of_ready hready, if_neg (by omega)] at hexec
  exact copies_of_copyOut hexec (fun _ => rfl) fun _ => trivial

@[simp] theorem State.trace_rsMgmt (s : State) : s.rsMgmt.obs.trace = s.obs.trace := rfl

/-- Nothing is flushed where nothing waits (R818). -/
theorem State.traceFlush_of_empty {s : State} (h : s.obs.trace.queue = []) : s.traceFlush.home = s.home := by
  rw [State.traceFlush, h, List.foldl_nil]

/-- What TRC_SET sets for a destination other than none (R811). -/
theorem State.trace_traceSet (s : State) (r : BciReq) (i : Issuer) (mask : Nat) (hdest : fld (r.w 1) 1 0 ≠ 0) :
    let t := (s.traceSet r i mask).obs.trace
    t.dest = fld (r.w 1) 1 0 ∧ t.types = r.w 6 ∧ t.mask = mask ∧ t.eid = i.eid ∧ t.ctx = i.ctx
      ∧ (bitAt (fld (r.w 1) 1 0) 0 = true → t.ring = some { key := r.w 2, off := r.d 3, log2 := r.w 5 }) := by
  unfold State.traceSet
  dsimp only
  rw [if_neg hdest]
  refine ⟨rfl, rfl, rfl, rfl, rfl, fun hring => ?_⟩
  by_cases hsame : s.traceFlush.obs.trace.ring = some { key := r.w 2, off := r.d 3, log2 := r.w 5 }
  · rw [if_neg (by simp [hsame])]
    exact hsame
  · rw [if_pos (by simp [hring, hsame])]

section
variable {s : State} {r : BciReq} {i : Issuer} {u : State}
  (hready : s.ready (.trcSet r) { BciRow.p 0x128 9 with resv := fun r => above r 1 2 || offResv r 3 || decide (r.w 6 ≠ r.w 6 / 2 % 64 * 2) || offResv r 8 } r = some (i, u))
include hready

/-- TRC_SET without a destination ends tracing once what waits is out (R811). -/
theorem trcSet_ends (hdest : fld (r.w 1) 1 0 = 0) : Answers (.trcSet r) s r [] fun t =>
    t.obs.trace = { u.traceFlush.obs.trace with dest := 0 } ∧ t.home = u.traceFlush.home ∧ (u.obs.trace.queue = [] → t.home = u.home) := by
  have hexec : exec (.trcSet r) s = execTrcSet r s := rfl
  rw [execTrcSet, bciServe_of_ready hready] at hexec
  dsimp only at hexec
  rw [if_pos hdest] at hexec
  have hset : u.traceSet r i 0 = { u.traceFlush with obs.trace := { u.traceFlush.obs.trace with dest := 0 } } := by
    unfold State.traceSet
    exact if_pos hdest
  refine ⟨_, hexec, ?_, ?_, fun hempty => ?_⟩
  · rw [State.trace_rsMgmt, hset]
  · rw [State.rsMgmt_home, hset]
  · rw [State.rsMgmt_home, hset]
    exact State.traceFlush_of_empty hempty

/-- TRC_SET sets where records go and which are kept (R811). -/
theorem trcSet_sets {rid : Nat} {rg : Region} (hdest : fld (r.w 1) 1 0 ≠ 0)
    (hring : bitAt (fld (r.w 1) 1 0) 0 = true → 12 ≤ r.w 5 ∧ r.w 5 ≤ 24 ∧ ∃ x g, u.permit u.lmf.eid (r.w 2) (r.d 3) (32 * 2 ^ r.w 5) needW i = some (x, g) ∧ g.mode ≠ .coherent)
    (hopens : u.opens r i (r.w 7) (r.d 8) 64 needR = some (rid, rg)) (hclear : u.meetRead rid rg (.own i) (r.d 8) 64 = .clear) :
    Answers (.trcSet r) s r [] fun t => t.obs.trace.dest = fld (r.w 1) 1 0 ∧ t.obs.trace.types = r.w 6 ∧ t.obs.trace.mask = leNat (u.readRange rg (.own i) (r.d 8) 64)
      ∧ t.obs.trace.eid = i.eid ∧ t.obs.trace.ctx = i.ctx ∧ (bitAt (fld (r.w 1) 1 0) 0 = true → t.obs.trace.ring = some { key := r.w 2, off := r.d 3, log2 := r.w 5 }) := by
  have hexec : exec (.trcSet r) s = execTrcSet r s := rfl
  rw [execTrcSet, bciServe_of_ready hready] at hexec
  dsimp only at hexec
  rw [if_neg hdest] at hexec
  cases hbit : bitAt (fld (r.w 1) 1 0) 0 with
  | false =>
    simp only [hbit, State.onRegion_of_opens hopens, hclear, Bool.false_and, Bool.false_eq_true, if_false] at hexec
    have hset := State.trace_traceSet (u.readDone false rid (.own i) (r.d 8) 64) r i (leNat (u.readRange rg (.own i) (r.d 8) 64)) hdest
    rw [hbit] at hset
    exact ⟨_, hexec, hset⟩
  | true =>
    obtain ⟨hlow, hhigh, x, g, hpermit, hmode⟩ := hring hbit
    have hmode : ringMode g.mode = true := by cases h : g.mode <;> simp_all [ringMode]
    have hsize : (decide (r.w 5 < 12) || decide (24 < r.w 5)) = false := by simp; omega
    simp only [hbit, hsize, hpermit, hmode, State.onRegion_of_opens hopens, hclear, Bool.and_false, Bool.false_eq_true, if_false, if_true] at hexec
    have hset := State.trace_traceSet (u.readDone false rid (.own i) (r.d 8) 64) r i (leNat (u.readRange rg (.own i) (r.d 8) 64)) hdest
    rw [hbit] at hset
    exact ⟨_, hexec, hset⟩

end

/-- CRN_SEL captures the entry it names (R815). -/
theorem crnSelWrite_does {s : State} (hup : s.pkg.aonUp = true) (w : Word) : Does (.crnSelWrite w) s fun t =>
    t.obs.crnSel = w.toNat % 32768 ∧ t.obs.crnWrites = Tab.getD s.obs.writes (fld w.toNat 8 0) 0 % 65536
      ∧ (∀ c, (Tab.getD s.obs.cairns (fld w.toNat 8 0) [])[fld w.toNat 14 9]? = some c → t.obs.crnData = two c.time ++ [BitVec.ofNat 32 (c.code + 65536 * c.ctx), BitVec.ofNat 32 c.payload])
      ∧ t = { s with obs := t.obs } := by
  have hexec : exec (.crnSelWrite w) s = execCrnSelWrite w s := rfl
  rw [execCrnSelWrite, if_neg (by simp [hup])] at hexec
  refine ⟨_, hexec, rfl, rfl, fun c hc => ?_, rfl⟩
  simp only [State.crnCapture, hc]
  rfl

/-- Settles O52: cairn rings and the partner history are copied out; TRC_SET by its destination. -/
theorem cairnsAndTraces : Obligations.CairnsAndTraces := by
  unfold Obligations.CairnsAndTraces
  exact ⟨fun s r i u => ⟨crnRead_copies, partnerRead_copies, fun hready => ⟨trcSet_ends hready, fun rid rg hdest hring => trcSet_sets hready hdest hring⟩⟩,
    fun s w hup => crnSelWrite_does hup w⟩

end Sys2Proof.Machine

/-! PROOF. O54: moves, coding, recovery and scrub of pages (3, 4), refuted at a recovery whose notice allocates a handle in use. -/

namespace Sys2Proof.Machine

/-! ### A page that a notice allocates anew -/

/-- A page whose recovery finds no source: no layer holds it. -/
def lostPage : TierPage :=
  { bytes := [], poison := [], recovering := true, backing := .none, t0 := .none, tl := none, heat := 0, stamp := 0, touch := 0, charge := 0, move := none, image := none }

/-- An unshared region of one page, which nothing has been written to, for a ring of notices. -/
def ringRegion : Region :=
  { gen := 1, draining := false, base := 0, size := 65536, mode := .priv, policy := { place := .auto, lent := false }, talus := false, encrypt := false, mirror := 0,
    mirrorDone := false, absentFault := false, absent0 := false, creator := 0, version := 0, grants := [], entries := [], excl := [], table := none, tkey := 0, tkeyOld := none,
    dkey := 0 }

/-- A drain of T0 for context 1 of endpoint 7, with no page left to write back. -/
def emptyDrain : LongOp :=
  { id := 1, kind := .drainT0, st := 0, status := .ok, bp := 0, hw := 0, pos := 0, total := 0, start := 0, fin := 0, admin := false, issuer := some (7, 1) }

/-- A machine whose next handle is the handle of a page in use, with a drain that ends at the next event, and its issuer's notice ring in a page without a handle. -/
def handleTaken : State :=
  { State.reset with
    home := { State.reset.home with
      regions := [(0, ringRegion)], nextHandle := 4
      pages := [(4, { rid := 5, pageNo := 0, mapped := true, ver := 0, pub := lostPage, shadows := [], olds := [], refs := [] })] }
    bci := { State.reset.bci with
      ops := [emptyDrain]
      rings := [(issuerKey 7 1, { ring := some { key := mkKey 0 1, off := 0, log2 := 4 }, prod := 0, cons := 0, seq := 0, dropped := 0, count := 0 })] } }

/-- The notice of the drain's end takes the page's handle, and the page is all zeros instead of poisoned. -/
theorem handleTaken_exec : (match exec (.pageRecovery (.pub 4) .none []) handleTaken with
    | .next t => decide ((t.page? (.pub 4)).map TierPage.poison = some [])
    | _ => false) = true := by
  decide +kernel

/-- Refutes O54: the clause of a recovery without a source asks that the page ends poisoned. The state is any state, so its next handle may be one in use; the end of
a drain then writes its notice to a page that has no handle yet, which takes the handle of the page that was poisoned. -/
theorem not_pageEvents : ¬ Obligations.PageEvents := by
  unfold Obligations.PageEvents
  intro h
  obtain ⟨-, -, -, -, hrecovery, -⟩ := h handleTaken (.pub 4) lostPage (by decide +kernel) (by decide +kernel)
  obtain ⟨-, hnone⟩ := hrecovery rfl
  obtain ⟨t, hexec, y, hy, -, hpoison⟩ := hnone (by decide) (by decide +kernel) rfl
  have hrun := handleTaken_exec
  rw [hexec] at hrun
  have hempty := of_decide_eq_true hrun
  rw [hy, Option.map_some, hpoison, Option.some_inj] at hempty
  exact absurd (congrArg List.length hempty) (by decide +kernel)

end Sys2Proof.Machine

/-! PROOF. O53: the commands of the tiers and of the lent tier (3, 4). -/

namespace Sys2Proof.Machine

/-! ### The pages of the machine under a change of every page -/

/-- What a change of every page leaves at each page is the change's result there. -/
theorem State.mem_mapPages {s : State} {f : TierPage → TierPage} {e : PageRef × TierPage} (h : e ∈ (s.mapPages f).allPages) :
    ∃ p, (e.1, p) ∈ s.allPages ∧ e.2 = f p := by
  simp only [State.allPages, State.mapPages, State.mapRefs, State.setPages, List.mem_flatMap, List.mem_map, List.mem_cons, List.mem_append] at h ⊢
  obtain ⟨_, ⟨d, hd, rfl⟩, h⟩ := h
  rcases h with rfl | ⟨w, hw, rfl⟩ | ⟨o, ho, rfl⟩
  · exact ⟨d.2.pub, ⟨d, hd, .inl rfl⟩, rfl⟩
  · obtain ⟨w', hw', rfl⟩ := List.mem_map.1 hw
    exact ⟨w'.page, ⟨d, hd, .inr (.inl ⟨w', hw', rfl⟩)⟩, rfl⟩
  · obtain ⟨o', ho', rfl⟩ := List.mem_map.1 ho
    exact ⟨o'.2, ⟨d, hd, .inr (.inr ⟨o', ho', rfl⟩)⟩, rfl⟩

/-- A property of the change's results holds at every page after it. -/
theorem State.forall_mapPages {s : State} {f : TierPage → TierPage} {P : TierPage → Prop} (h : ∀ p, P (f p)) : ∀ e ∈ (s.mapPages f).allPages, P e.2 := by
  intro e he
  obtain ⟨p, -, hp⟩ := State.mem_mapPages he
  exact hp ▸ h p

/-- The pages are the home's alone. -/
theorem State.allPages_of_home {s t : State} (h : t.home.pages = s.home.pages) : t.allPages = s.allPages := by
  simp only [State.allPages, h]

theorem State.tl_dropTl (s : State) (ext : Nat) : ∀ e ∈ (s.dropTl ext).allPages, e.2.tl ≠ some ext := by
  refine State.forall_mapPages (P := fun p => p.tl ≠ some ext) fun p => ?_
  by_cases h : p.tl = some ext <;> simp [h, TierPage.dropTl]

/-- A change that keeps what a search asks for is made on what the search finds. -/
theorem List.find?_map_of_keeps {α : Type} {q : α → Bool} {g : α → α} (hq : ∀ a, q (g a) = q a) (l : List α) : (l.map g).find? q = (l.find? q).map g := by
  rw [List.find?_map]
  exact congrArg (fun p => (l.find? p).map g) (funext hq)

theorem shadow_modify (l : List Shadow) (e c e' c' : Nat) (f : TierPage → TierPage) :
    ((l.map fun w => if w.eid = e ∧ w.ctx = c then { w with page := f w.page } else w).find? fun w => decide (w.eid = e' ∧ w.ctx = c')).map Shadow.page
      = ((l.find? fun w => decide (w.eid = e' ∧ w.ctx = c')).map Shadow.page).map (fun p => if e = e' ∧ c = c' then f p else p) := by
  rw [List.find?_map_of_keeps (fun w => by split <;> rfl)]
  cases h : l.find? fun w => decide (w.eid = e' ∧ w.ctx = c') with
  | none => rfl
  | some w =>
    have hw := List.find?_some h
    simp only [decide_eq_true_eq] at hw
    obtain ⟨rfl, rfl⟩ := hw
    by_cases hw : w.eid = e ∧ w.ctx = c
    · simp [hw]
    · have hw' : ¬(e = w.eid ∧ c = w.ctx) := fun h => hw ⟨h.1.symm, h.2.symm⟩
      simp [hw, hw']

theorem old_modify (l : List (Nat × TierPage)) (v v' : Nat) (f : TierPage → TierPage) :
    ((l.map fun o => if o.1 = v then (o.1, f o.2) else o).find? fun o => decide (o.1 = v')).map Prod.snd
      = ((l.find? fun o => decide (o.1 = v')).map Prod.snd).map (fun p => if v = v' then f p else p) := by
  rw [List.find?_map_of_keeps (fun o => by split <;> rfl)]
  cases h : l.find? fun o => decide (o.1 = v') with
  | none => rfl
  | some o =>
    have ho := List.find?_some h
    simp only [decide_eq_true_eq] at ho
    subst ho
    by_cases ho : o.1 = v
    · simp [ho]
    · simp [ho, Ne.symm ho]

/-- The page of a handle that a reference names. -/
def Handle.pageAt (d : Handle) : PageRef → Option TierPage
  | .pub _ => some d.pub
  | .shadow _ e c => (d.shadows.find? fun w => decide (w.eid = e ∧ w.ctx = c)).map Shadow.page
  | .old _ v => (d.olds.find? fun o => decide (o.1 = v)).map Prod.snd

theorem State.page?_eq (s : State) (r : PageRef) : s.page? r = (Tab.get? s.home.pages (refHandle r)).bind (fun d => d.pageAt r) := by
  cases r with
  | pub h => exact Option.map_eq_bind
  | shadow h e c => simp only [State.page?, refHandle]; cases Tab.get? s.home.pages h <;> rfl
  | old h v => simp only [State.page?, refHandle]; cases Tab.get? s.home.pages h <;> rfl

theorem Handle.pageAt_modify (d : Handle) {ref r : PageRef} (h : refHandle r = refHandle ref) (f : TierPage → TierPage) :
    (d.modify ref f).pageAt r = (d.pageAt r).map (fun p => if ref = r then f p else p) := by
  cases ref <;> cases r <;> cases h
  case shadow.shadow => simpa [Handle.modify, Handle.pageAt] using shadow_modify ..
  case old.old => simpa [Handle.modify, Handle.pageAt] using old_modify ..
  all_goals simp [Handle.modify, Handle.pageAt, Function.comp_def]

/-- A change of one page is seen at that page alone. -/
theorem State.page?_modPage (s : State) (ref r : PageRef) (f : TierPage → TierPage) :
    (s.modPage ref f).page? r = (s.page? r).map (fun p => if ref = r then f p else p) := by
  simp only [State.page?_eq, State.modPage_home, Tab.get?_modify]
  cases Tab.get? s.home.pages (refHandle r) with
  | none => simp
  | some d =>
    by_cases hk : refHandle r = refHandle ref
    · simpa [hk] using d.pageAt_modify hk f
    · have hne : ref ≠ r := fun h => hk (h ▸ rfl)
      simp [hk, hne]


/-! ### What the end of a long operation leaves of the lent tier -/

/-- The message to an endpoint that its extent is given back (R683, R173). -/
def Out.isRecall : Out → Bool
  | .evt _ 7 _ => true
  | _ => false


theorem Trace.send_recalls (t : Trace) (up : Bool) (die seq now : Nat) (ws : List Word) : (t.send up die seq now ws).2.filter Out.isRecall = [] := by
  unfold Trace.send
  split
  · rfl
  · split
    · cases Tab.get? t.xloss die <;> rfl
    · rfl

theorem Trace.record_recalls (t : Trace) (selected up bivouac : Bool) (now die typ slots time : Nat) (body : List Word) :
    (t.record selected up bivouac now die typ slots time body).2.filter Out.isRecall = [] := by
  unfold Trace.record
  split
  · rfl
  · dsimp only
    split
    · exact Trace.send_recalls ..
    · rfl

/-- The lent extents, and the messages sent that give one back. -/
def State.lent (s : State) : Tab Extent × List Out := (s.strata.extents, s.out.filter Out.isRecall)

theorem State.lent_foldl {α : Type} {f : State → α → State} (h : ∀ s a, (f s a).lent = s.lent) (l : List α) (s : State) : (l.foldl f s).lent = s.lent := by
  induction l generalizing s with
  | nil => rfl
  | cons a l ih => rw [List.foldl_cons, ih, h]

/-- An update keeps the lent tier that keeps its extents and sends no such message. -/
theorem State.lent_mk {s : State} {home : Home} {strata : Strata} {rope : Rope} {cores : Tab Core} {kernels : List KernelQ} {expert : Expert} {trav : Traverse} {mor : Moraine}
    {bci : Bci} {host : Hosts} {lmf : Lmf} {pow : Power} {time : TimeUnit} {rel : Rel} {sec : Sec} {obs : Obs} {pkg : Package} {out : List Out} {resume : List Again}
    {replay : Option Again} {freeCtr nextId : Nat} (hextents : strata.extents = s.strata.extents) (hout : out.filter Out.isRecall = s.out.filter Out.isRecall) :
    State.lent ⟨home, strata, rope, cores, kernels, expert, trav, mor, bci, host, lmf, pow, time, rel, sec, obs, pkg, out, resume, replay, freeCtr, nextId, s.pending⟩ = s.lent := by
  simp only [State.lent, hextents, hout]

@[simp] theorem State.lent_emit_nvme (s : State) (slot queue : Nat) (op : NvmeOp) (a b : Nat) : (s.emit (Out.nvme slot queue op a b)).lent = s.lent := rfl
@[simp] theorem State.lent_emit_msix (s : State) (port fn vec addr data : Nat) : (s.emit (Out.msix port fn vec addr data)).lent = s.lent := rfl
@[simp] theorem State.lent_emit_notice (s : State) (eid ctx seq : Nat) : (s.emit (Out.notice eid ctx seq)).lent = s.lent := rfl
@[simp] theorem State.lent_emit_journal (s : State) (eid key : Nat) (note : JournalNote) : (s.emit (.journal eid key note)).lent = s.lent := rfl
@[simp] theorem State.lent_emit_mgmt (s : State) (mport kind : Nat) (fields : List Nat) : (s.emit (Out.mgmt mport kind fields)).lent = s.lent := rfl

@[simp] theorem State.lent_setFnWin (s : State) (port : Nat) (fn : Nat) (w : Window) : (s.setFnWin port fn w).lent = s.lent := by
  rfl

@[simp] theorem State.lent_event (s : State) (hw : Nat) (idx : Nat) (n : Nat) (ctx : Option Nat) : (s.event hw idx n ctx).lent = s.lent := by
  rfl

@[simp] theorem State.lent_traceFor (s : State) (selected : Bool) (die : Nat) (typ : Nat) (slots : Nat) (time : Nat) (body : List Word) : (s.traceFor selected die typ slots time body).lent = s.lent := by
  simp [State.traceFor, State.lent, Trace.record_recalls]

@[simp] theorem State.lent_traceGen (s : State) (die : Nat) (typ : Nat) (slots : Nat) (time : Nat) (body : List Word) : (s.traceGen die typ slots time body).lent = s.lent := by
  simp [State.traceGen]

@[simp] theorem State.lent_cairnAt (s : State) (hw : Nat) (code : Nat) (ctx : Nat) (payload : Nat) (time : Nat) : (s.cairnAt hw code ctx payload time).lent = s.lent := by
  unfold State.cairnAt
  split <;> simp [↓State.lent_mk] 

@[simp] theorem State.lent_cairn (s : State) (hw : Nat) (code : Nat) (ctx : Nat) (payload : Nat) : (s.cairn hw code ctx payload).lent = s.lent := by
  simp [↓State.lent_mk, State.cairn]

@[simp] theorem State.lent_strataEvent (s : State) (idx : Nat) (n : Nat) : (s.strataEvent idx n).lent = s.lent := by
  rfl

@[simp] theorem State.lent_errorCount (s : State) (hw : Nat) (cls : Nat) : (s.errorCount hw cls).lent = s.lent := by
  rfl

@[simp] theorem State.lent_workEnd (s : State) (hw : Nat) (ctx : Nat) (st : Status) (exc : Nat) : (s.workEnd hw ctx st exc).lent = s.lent := by
  simp [↓State.lent_mk, State.workEnd]

@[simp] theorem State.lent_release (s : State) (f : HoldWhy → Bool) : (s.release f).lent = s.lent := by
  rfl

@[simp] theorem State.lent_setPages (s : State) (t : Tab Handle) : (s.setPages t).lent = s.lent := by
  rfl

@[simp] theorem State.lent_modPage (s : State) (ref : PageRef) (f : TierPage → TierPage) : (s.modPage ref f).lent = s.lent := by
  rfl

@[simp] theorem State.lent_sweepTables (s : State) : (s.sweepTables).lent = s.lent := by
  rfl

@[simp] theorem State.lent_chooseTable (s : State) (rid : Nat) (r : Region) (bytes : Bytes) : (s.chooseTable rid r bytes).1.lent = s.lent := by
  unfold State.chooseTable
  simp [↓State.lent_mk, apply_ite State.lent, State.lent_foldl]
  (repeat' split) <;> simp [↓State.lent_mk, apply_ite State.lent, State.lent_foldl]

@[simp] theorem State.lent_nvmeIo (s : State) (slot : Nat) (op : NvmeOp) (lba : Nat) (n : Nat) : (s.nvmeIo slot op lba n).lent = s.lent := by
  unfold State.nvmeIo
  (repeat' split) <;> simp [↓State.lent_mk] 

@[simp] theorem State.lent_nvmeAll (s : State) (op : NvmeOp) (lba : Nat) (n : Nat) : (s.nvmeAll op lba n).lent = s.lent := by
  simp [↓State.lent_mk, State.nvmeAll, apply_ite State.lent, State.lent_foldl]

@[simp] theorem State.lent_stripesOut (s : State) (n : Nat) : (s.stripesOut n).lent = s.lent := by
  induction n generalizing s with
  | zero => rfl
  | succ n ih =>
    unfold State.stripesOut
    split <;> simp [↓State.lent_mk, ih]

@[simp] theorem State.lent_t2Put (s : State) (im : Image) : (s.t2Put im).lent = s.lent := by
  simp [↓State.lent_mk, State.t2Put]

@[simp] theorem State.lent_t2Get (s : State) (ref : PageRef) : (s.t2Get ref).lent = s.lent := by
  unfold State.t2Get
  split <;> simp [↓State.lent_mk]

@[simp] theorem State.lent_memEvent (s : State) (layer : Nat) (idx : Nat) (n : Nat) (ref : PageRef) : (s.memEvent layer idx n ref).lent = s.lent := by
  rfl

@[simp] theorem State.lent_encoderRan (s : State) (ref : PageRef) (p : TierPage) (im : Image) : (s.encoderRan ref p im).lent = s.lent := by
  simp [↓State.lent_mk, State.encoderRan]

@[simp] theorem State.lent_encodeGroup (s : State) (rid : Nat) (refs : List PageRef) (b : TierPage → Backing) (place : Image → TierPage → TierPage) :
    (s.encodeGroup rid refs b place).lent = s.lent := by
  unfold State.encodeGroup
  split
  · rfl
  · dsimp only
    rw [State.lent_sweepTables, State.lent_foldl, State.lent_chooseTable]
    intro s ref
    (repeat' split) <;> simp [↓State.lent_mk] 

@[simp] theorem State.lent_writeBackNow (s : State) (ref : PageRef) : (s.writeBackNow ref).lent = s.lent := by
  unfold State.writeBackNow
  split <;> simp [↓State.lent_mk]

@[simp] theorem State.lent_evict (s : State) (e : PageRef × TierPage) : (s.evict e).lent = s.lent := by
  unfold State.evict
  split <;> simp [↓State.lent_mk]

@[simp] theorem State.lent_roomT0 (s : State) : (s.roomT0).lent = s.lent := by
  unfold State.roomT0
  (repeat' split) <;> simp [↓State.lent_mk]

@[simp] theorem State.lent_fillT0 (s : State) (ref : PageRef) : (s.fillT0 ref).lent = s.lent := by
  unfold State.fillT0
  (repeat' split) <;> simp [↓State.lent_mk]

@[simp] theorem State.lent_allocate (s : State) (rid : Nat) (p : Nat) (r : Region) : (s.allocate rid p r).lent = s.lent := by
  unfold State.allocate
  split <;> simp [↓State.lent_mk] 

@[simp] theorem State.lent_ensurePage (s : State) (rid : Nat) (p : Nat) : (s.ensurePage rid p).lent = s.lent := by
  unfold State.ensurePage
  (repeat' split) <;> simp [↓State.lent_mk]

@[simp] theorem State.lent_commit (s : State) : (s.commit).lent = s.lent := by
  rfl

@[simp] theorem State.lent_makeShadow (s : State) (rid : Nat) (p : Nat) (i : Issuer) : (s.makeShadow rid p i).lent = s.lent := by
  rw [← State.lent_ensurePage s rid p]
  unfold State.makeShadow
  dsimp only
  generalize s.ensurePage rid p = u
  split
  · rfl
  · split
    · rfl
    · split
      · rfl
      · rw [apply_ite State.lent]
        refine ite_eq_left_iff.mpr fun _ => ?_
        rw [apply_ite State.lent, State.lent_emit_journal, ite_self, State.lent_commit]
        rename_i _ r _ _ _ _ _ hd _ _
        have hroom (P : Prop) [Decidable P] : (if P then u.roomT0 else u).lent = u.lent := by rw [apply_ite State.lent, State.lent_roomT0, ite_self]
        exact (State.lent_mk (s := if (if u.newBacking r = .none ∨ hd.pub.t0 = .dirty then T0Copy.dirty else .none) = .dirty then u.roomT0 else u) (by rfl) (by rfl)).trans (hroom _)

@[simp] theorem State.lent_putRef (s : State) (ref : PageRef) (off : Nat) (data : Bytes) : (s.putRef ref off data).lent = s.lent := by
  simp [↓State.lent_mk, State.putRef, apply_ite State.lent, State.lent_foldl]

@[simp] theorem State.lent_directMap (s : State) (rid p off n : Nat) (f : Bytes → Bytes) : (s.directMap rid p off n f).lent = s.lent := by
  unfold State.directMap
  dsimp only
  (repeat' split)
  · simp [↓State.lent_mk]
  · simp [↓State.lent_mk]
  · rw [State.lent_foldl (fun s ref => ?_), State.lent_ensurePage]
    (repeat' split) <;> simp [↓State.lent_mk]

@[simp] theorem State.lent_write1 (s : State) (rid : Nat) (w : Way) (off : Nat) (data : Bytes) : (s.write1 rid w off data).lent = s.lent := by
  unfold State.write1
  simp [↓State.lent_mk, apply_ite State.lent, State.lent_foldl]
  (repeat' split) <;> simp [↓State.lent_mk, apply_ite State.lent, State.lent_foldl]

@[simp] theorem State.lent_writePieces (s : State) (rid : Nat) (w : Way) (data : Bytes) (off : Nat) (ps : List (Nat × Nat)) :
    (s.writePieces rid w data off ps).lent = s.lent := by
  induction ps generalizing s with
  | nil => rfl
  | cons p ps ih => simp [↓State.lent_mk, State.writePieces, ih]

@[simp] theorem State.lent_writeRange (s : State) (rid : Nat) (w : Way) (off : Nat) (data : Bytes) : (s.writeRange rid w off data).lent = s.lent := by
  simp [↓State.lent_mk, State.writeRange]

@[simp] theorem State.lent_vector (s : State) (port : Nat) (fn : Nat) (v : Nat) : (s.vector port fn v).lent = s.lent := by
  simp [↓State.lent_mk, State.vector, apply_ite State.lent, State.lent_foldl]

@[simp] theorem State.lent_rsFn (s : State) (port : Nat) (fn : Nat) : (s.rsFn port fn).lent = s.lent := by
  rfl

theorem State.lent_of_recordIn {s t : State} {rid off : Nat} {data : Bytes} (h : s.recordIn rid off data = some t) : t.lent = s.lent := by
  unfold State.recordIn at h
  split at h
  · cases h
  · split at h <;> cases h
    simp [↓State.lent_mk]

theorem State.lent_of_recordAt {s t : State} {key off : Nat} {data : Bytes} (h : s.recordAt key off data = some t) : t.lent = s.lent := by
  unfold State.recordAt at h
  split at h
  · cases h
  · exact State.lent_of_recordIn h

@[simp] theorem State.lent_setUnit (s : State) (hw : Nat) (u : UnitRec) : (s.setUnit hw u).lent = s.lent := by
  rfl

@[simp] theorem State.lent_healthCount (s : State) (hw : Nat) (cls : Nat) : (s.healthCount hw cls).lent = s.lent := by
  unfold State.healthCount
  (repeat' split) <;> simp [↓State.lent_mk]

@[simp] theorem State.lent_quarantineWatch (s : State) (hw : Nat) (cls : Nat) : (s.quarantineWatch hw cls).lent = s.lent := by
  unfold State.quarantineWatch
  split <;> simp [↓State.lent_mk]

@[simp] theorem State.lent_error (s : State) (n : ErrorNote) : (s.error n).lent = s.lent := by
  simp [↓State.lent_mk, State.error, apply_ite State.lent, State.lent_foldl]

@[simp] theorem State.lent_lostRecord (s : State) (key : Nat) (off : Nat) (ctx : Nat) : (s.lostRecord key off ctx).lent = s.lent := by
  simp [↓State.lent_mk, State.lostRecord]

@[simp] theorem State.lent_rsNotice (s : State) (eid : Nat) (ctx : Nat) : (s.rsNotice eid ctx).lent = s.lent := by
  unfold State.rsNotice
  (repeat' split) <;> simp [↓State.lent_mk]

@[simp] theorem State.lent_notice (s : State) (eid ctx kind : Nat) (aborted : Bool) (st : Status) (src obj deadline : Nat) :
    (s.notice eid ctx kind aborted st src obj deadline).lent = s.lent := by
  unfold State.notice
  dsimp only
  (repeat' split) <;> simp [↓State.lent_mk] 
  all_goals exact State.lent_of_recordAt (by assumption)

@[simp] theorem State.lent_noticeTo (s : State) (who : Option (Nat × Nat)) (kind : Nat) (aborted : Bool) (st : Status) (src : Nat) (obj : Nat) (deadline : Nat) : (s.noticeTo who kind aborted st src obj deadline).lent = s.lent := by
  unfold State.noticeTo
  split <;> simp [↓State.lent_mk]

@[simp] theorem State.lent_setLine (s : State) (rid : Nat) (ln : Nat) (l : Line) : (s.setLine rid ln l).lent = s.lent := by
  rfl

@[simp] theorem State.lent_freeLine (s : State) (rid : Nat) (ln : Nat) : (s.freeLine rid ln).lent = s.lent := by
  unfold State.freeLine
  (repeat' split) <;> simp [↓State.lent_mk] 

@[simp] theorem State.lent_tidyLine (s : State) (rid : Nat) (ln : Nat) : (s.tidyLine rid ln).lent = s.lent := by
  unfold State.tidyLine
  (repeat' split) <;> simp [↓State.lent_mk] 

@[simp] theorem State.lent_served (s : State) (rid : Nat) (ln : Nat) (eid : Nat) : (s.served rid ln eid).lent = s.lent := by
  unfold State.served
  (repeat' split) <;> simp [↓State.lent_mk]

@[simp] theorem State.lent_claim (s : State) (cmd : Instr) : (s.claim cmd).lent = s.lent := by
  simp [↓State.lent_mk, State.claim, apply_ite State.lent, State.lent_foldl]

@[simp] theorem State.lent_takeUp (s : State) (a : Again) : (s.takeUp a).lent = s.lent := by
  unfold State.takeUp
  (repeat' split) <;> simp [↓State.lent_mk, apply_ite State.lent, State.lent_foldl]

@[simp] theorem State.lent_endOp (s : State) (id : Nat) (state : Nat) (st : Status) : (s.endOp id state st).lent = s.lent := by
  unfold State.endOp
  (repeat' split) <;> simp [↓State.lent_mk] 

@[simp] theorem State.lent_again (s : State) (a : Again) (more : List Again) : (s.again a more).lent = s.lent := by
  simp [↓State.lent_mk, State.again]


/-! ### TIER_SET (R172) and the drains (R143 to R145) -/

theorem tierSet_does {s u : State} {r : BciReq} {i : Issuer} (hready : s.ready (.tierSet r) { BciRow.o 48 3 with minor := some 0 } r = some (i, u))
    (hlow : 10 ≤ r.w 1) (hhigh : r.w 1 ≤ 1000000) (hp0 : fld (r.w 2) 7 0 ≠ 0) (hp1 : fld (r.w 2) 15 8 ≠ 0) (hport : fld (r.w 2) 19 16 ≠ 0) (hengine : fld (r.w 2) 23 20 ≠ 0)
    (hres : fld (r.w 2) 31 24 = 0) (hres' : fld (r.w 3) 31 16 = 0) : Answers (.tierSet r) s r [] fun t =>
      t = { u with strata := t.strata } ∧ t.strata.promoteT0 = fld (r.w 2) 7 0 ∧ t.strata.promoteT1 = fld (r.w 2) 15 8 ∧ t.strata.incPort = fld (r.w 2) 19 16
        ∧ t.strata.incEngine = fld (r.w 2) 23 20 ∧ t.strata.minAge = fld (r.w 3) 15 0
        ∧ (r.w 1 ≠ u.halfLifeNs / 1000000 → t.strata.nextHalfLife = some (r.w 1, (u.now / (r.w 1 * 1000000) + 1) * (r.w 1 * 1000000))) := by
  have hexec : exec (.tierSet r) s = execTierSet r s := rfl
  rw [execTierSet, bciServe_of_ready hready] at hexec
  dsimp only at hexec
  rw [if_neg (by omega)] at hexec
  exact ⟨_, hexec, rfl, rfl, rfl, rfl, rfl, rfl, fun h => if_neg h⟩

@[simp] theorem State.beginDrain_bci (s : State) (k : OpKind) : (s.beginDrain k).bci = s.bci := by
  unfold State.beginDrain
  split <;> rfl

/-- An operation that starts is the one of its kind that runs. -/
theorem State.opOf_startOp (s : State) (k : OpKind) (n : Nat) (who : Option (Nat × Nat)) : ((s.startOp k n who).opOf k).isSome = true := by
  simp [State.opOf, State.startOp]

/-- The machine when a drain has begun. -/
def State.draining (u : State) (k : OpKind) (i : Issuer) : State := (u.startOp k (u.drainTotal k) (u.attributed i)).beginDrain k

theorem State.opOf_draining (u : State) (k : OpKind) (i : Issuer) : ((u.draining k i).opOf k).isSome = true := by
  have h := u.opOf_startOp k (u.drainTotal k) (u.attributed i)
  rwa [State.opOf, ← State.beginDrain_bci _ k] at h

/-- A drain that nothing refuses begins. -/
theorem tierDrain_exec {s u : State} {r : BciReq} {i : Issuer}
    (hready : s.ready (.tierDrain r) { BciRow.o 49 2 with minor := some 0, resv := fun r => decide (2 < r.w 1) } r = some (i, u)) (hop : u.opOf (drainKind r) = none)
    (hok : drainKind r = .drainT0 ∨ (drainKind r = .drainT1 ∧ u.hasPinT1 = false ∧ u.strata.t2Pages ≠ 0 ∧ u.t2Lacks = false)
      ∨ ∃ x e, drainKind r = .drainTL x ∧ Tab.get? u.strata.extents x = some e ∧ e.st = .active) :
    exec (.tierDrain r) s = .next (((u.draining (drainKind r) i).respond r .ok (one u.bci.nextOp)).tierOps) := by
  have hexec : exec (.tierDrain r) s = execTierDrain r s := rfl
  rw [execTierDrain, bciServe_of_ready hready] at hexec
  dsimp only at hexec
  rw [hexec, hop, Option.isSome_none, if_neg Bool.false_ne_true]
  rcases hok with hk | ⟨hk, hpin, hpages, hroom⟩ | ⟨x, e, hk, hext, hst⟩
  · simp only [hk]; rfl
  · simp only [hk, hpin, hpages, hroom]; rfl
  · simp only [hk, hext, hst]; rfl

theorem drainKind_of_w {r : BciReq} : (r.w 1 = 0 → drainKind r = .drainT0) ∧ (r.w 1 = 1 → drainKind r = .drainTL (r.w 2)) ∧ (r.w 1 = 2 → drainKind r = .drainT1) := by
  unfold drainKind
  exact ⟨fun h => by simp only [h], fun h => by simp only [h], fun h => by simp only [h]⟩

theorem tierDrain_does {s u : State} {r : BciReq} {i : Issuer}
    (hready : s.ready (.tierDrain r) { BciRow.o 49 2 with minor := some 0, resv := fun r => decide (2 < r.w 1) } r = some (i, u)) (hop : u.opOf (drainKind r) = none) :
    let begun (P : State → Prop) : Prop := ∃ v : State, exec (.tierDrain r) s = .next ((v.respond r .ok (one u.bci.nextOp)).tierOps) ∧ (v.opOf (drainKind r)).isSome = true ∧ P v
    (r.w 1 = 0 → begun fun v => ∀ e ∈ v.allPages, e.2.due = decide (e.2.t0 = .dirty ∧ e.2.backing ≠ .none))
    ∧ (∀ e, r.w 1 = 1 → Tab.get? u.strata.extents (r.w 2) = some e → e.st = .active → begun fun v =>
        (∃ x, Tab.get? v.strata.extents (r.w 2) = some x ∧ x.st = .recalling) ∧ ∀ p ∈ v.allPages, p.2.tl ≠ some (r.w 2))
    ∧ (r.w 1 = 2 → u.hasPinT1 = false → u.strata.t2Pages ≠ 0 → u.t2Lacks = false → begun fun v =>
        v.drainingT1 = true ∧ ∀ e ∈ v.allPages, ∀ m, e.2.move = some m → m.retiring = false → m.kind ≠ .toT1) := by
  intro begun
  obtain ⟨hk0, hk1, hk2⟩ := drainKind_of_w (r := r)
  refine ⟨fun hw => ?_, fun e hw hext hst => ?_, fun hw hpin hpages hroom => ?_⟩
  · refine ⟨_, tierDrain_exec hready hop (.inl (hk0 hw)), State.opOf_draining .., ?_⟩
    rw [hk0 hw]
    exact State.forall_mapPages (P := fun p => p.due = decide (p.t0 = .dirty ∧ p.backing ≠ .none)) fun p => rfl
  · refine ⟨_, tierDrain_exec hready hop (.inr (.inr ⟨_, e, hk1 hw, hext, hst⟩)), State.opOf_draining .., ?_⟩
    rw [hk1 hw]
    refine ⟨⟨{ e with st := .recalling, graceEnd := u.now + 10000000000 }, ?_, rfl⟩, State.tl_dropTl _ _⟩
    show Tab.get? (Tab.modify u.strata.extents _ _) _ = _
    rw [Tab.get?_modify, if_pos rfl, hext]
    rfl
  · refine ⟨_, tierDrain_exec hready hop (.inr (.inl ⟨hk2 hw, hpin, hpages, hroom⟩)), State.opOf_draining .., ?_, ?_⟩
    · rw [hk2 hw]
      simp [State.drainingT1, State.draining, State.startOp]
    · rw [hk2 hw]
      refine State.forall_mapPages (P := fun p => ∀ m, p.move = some m → m.retiring = false → m.kind ≠ .toT1) fun p m hm hr => ?_
      have hkept := (Option.filter_eq_some_iff.1 hm).2
      simpa [hr] using hkept

/-- Where no issuer has a notice ring, a notice leaves the home as it is. -/
theorem State.noticeTo_home {s : State} (hrings : s.bci.rings = []) (who : Option (Nat × Nat)) (kind : Nat) (aborted : Bool) (st : Status) (src obj deadline : Nat) :
    (s.noticeTo who kind aborted st src obj deadline).home = s.home := by
  cases who with
  | none => rfl
  | some w =>
    obtain ⟨eid, ctx⟩ := w
    simp only [State.noticeTo, State.notice, hrings]
    rfl

theorem State.endOp_home {s : State} (hrings : s.bci.rings = []) (id n : Nat) (st : Status) : (s.endOp id n st).home = s.home := by
  unfold State.endOp
  split
  · rfl
  · split
    · rfl
    · dsimp only
      rw [State.noticeTo_home]
      exact hrings

theorem tierDrainCancel_does {s u : State} {r : BciReq} {i : Issuer} {o : LongOp}
    (hready : s.ready (.tierDrainCancel r) { BciRow.o 50 2 with minor := some 0, resv := fun r => decide (2 < r.w 1) } r = some (i, u))
    (hop : u.opOf (drainKind r) = some o) (hrings : u.bci.rings = []) :
    Answers (.tierDrainCancel r) s r [] fun t => ∀ e ∈ t.allPages, ∀ m, e.2.move = some m → m.retiring = false →
      (r.w 1 = 0 → m.kind = .writeBack → m.evict = true) ∧ (r.w 1 = 2 → m.kind ≠ .toT2) := by
  have hexec : exec (.tierDrainCancel r) s = execTierDrainCancel r s := rfl
  rw [execTierDrainCancel, bciServe_of_ready hready] at hexec
  dsimp only at hexec
  rw [hop] at hexec
  refine ⟨_, hexec, ?_⟩
  dsimp only
  rw [State.allPages_of_home (congrArg Home.pages (State.endOp_home ?_ ..))]
  · refine State.forall_mapPages (P := fun p => ∀ m, p.move = some m → m.retiring = false → (r.w 1 = 0 → m.kind = .writeBack → m.evict = true) ∧ (r.w 1 = 2 → m.kind ≠ .toT2))
      fun p m hm hr => ?_
    have hkept := (Option.filter_eq_some_iff.1 hm).2
    refine ⟨fun hw hkind => ?_, fun hw hkind => ?_⟩
    · simpa [drainKind_of_w.1 hw, hr, hkind] using hkept
    · simp [drainKind_of_w.2.2 hw, hr, hkind] at hkept
  · exact hrings


/-! ### The lent tier (R127 to R133, R173) -/

theorem lendOffer_does {s : State} (hruns : s.runs = true) {eid inc ext gib : Nat} (lkey : Nat) (hcur : s.judge eid inc = .current) (hver : 3 ≤ s.verOf eid)
    (hgone : ∀ e, Tab.get? s.strata.extents ext = some e → e.st = .gone) (hgib : gib ≠ 0) : Does (.lendOffer eid inc ext gib lkey) s fun t =>
      (∃ e, Tab.get? t.strata.extents ext = some e ∧ e.eid = eid ∧ e.inc = inc ∧ e.gib = gib ∧ e.lkey = lkey ∧ e.st = .active ∧ e.sealNext = 0) ∧ t.home = s.home := by
  have hexec : exec (.lendOffer eid inc ext gib lkey) s = execLendOffer eid inc ext gib lkey s := rfl
  rw [execLendOffer, whenUp_of_runs hruns] at hexec
  dsimp only at hexec
  have hopen : (match Tab.get? s.strata.extents ext with | some e => decide (e.st = .gone) | none => true) = true := by
    split
    · next e he => exact decide_eq_true (hgone e he)
    · rfl
  rw [if_pos (by simp only [hcur, hver, hgib, decide_true, Bool.true_and, ne_eq, not_false_eq_true, Bool.and_true]; exact hopen)] at hexec
  exact ⟨_, hexec, ⟨_, Tab.get?_set_self .., rfl, rfl, rfl, rfl, rfl, rfl⟩, rfl⟩

theorem lendRecall_does {s : State} (hruns : s.runs = true) {ext graceUs : Nat} {e : Extent} (hext : Tab.get? s.strata.extents ext = some e) (hst : e.st = .active)
    (hlow : 1000 ≤ graceUs) (hhigh : graceUs ≤ 10000000) : Does (.lendRecall e.eid e.inc ext graceUs) s fun t =>
      Tab.get? t.strata.extents ext = some { e with st := .recalling, graceEnd := s.now + graceUs * 1000 } ∧ ∀ p ∈ t.allPages, p.2.tl ≠ some ext := by
  have hexec : exec (.lendRecall e.eid e.inc ext graceUs) s = execLendRecall e.eid e.inc ext graceUs s := rfl
  rw [execLendRecall, whenUp_of_runs hruns, hext] at hexec
  dsimp only at hexec
  rw [if_pos ⟨rfl, rfl, hst, hlow, hhigh⟩] at hexec
  refine ⟨_, hexec, ?_, State.tl_dropTl _ _⟩
  show Tab.get? (Tab.modify s.strata.extents _ _) _ = _
  rw [Tab.get?_modify, if_pos rfl, hext]
  rfl

/-- An extent that is given back is GONE, and the messages sent stay. -/
theorem State.lent_extentGone (s : State) (ext : Nat) :
    (s.extentGone ext).lent = (Tab.modify s.strata.extents ext (fun e => { e with st := .gone, key := 0 }), s.out.filter Out.isRecall) := by
  unfold State.extentGone
  dsimp only
  split
  · rw [State.lent_endOp]
    rfl
  · rfl

theorem lendGraceExpiry_does {s : State} (hruns : s.runs = true) {ext : Nat} {e : Extent} (hext : Tab.get? s.strata.extents ext = some e) (hst : e.st = .recalling)
    (hend : s.tlCopies ext = 0 ∨ e.graceEnd ≤ s.now) : Does (.lendGraceExpiry ext) s fun t =>
      (∃ x, Tab.get? t.strata.extents ext = some x ∧ x.st = .gone) ∧ .evt e.eid 7 [ext] ∈ t.out := by
  have hexec : exec (.lendGraceExpiry ext) s = execLendGraceExpiry ext s := rfl
  rw [execLendGraceExpiry, whenUp_of_runs hruns, hext] at hexec
  dsimp only at hexec
  rw [if_pos ⟨hst, hend⟩] at hexec
  refine ⟨_, hexec, ?_⟩
  have hlent := State.lent_extentGone ((s.dropTl ext).emit (.evt e.eid 7 [ext])) ext
  rw [State.lent, Prod.mk.injEq] at hlent
  obtain ⟨hextents, hout⟩ := hlent
  refine ⟨⟨{ e with st := .gone, key := 0 }, ?_, rfl⟩, List.mem_of_mem_filter (p := Out.isRecall) ?_⟩
  · rw [hextents]
    show Tab.get? (Tab.modify s.strata.extents _ _) _ = _
    rw [Tab.get?_modify, if_pos rfl, hext]
    rfl
  · rw [hout]
    exact List.mem_cons_self

/-! ### Low space in T1 (R119, R120) -/

/-- The oldest page of a fold is one of the list's. -/
theorem foldl_oldest_mem (l : List (PageRef × TierPage)) {b : Option (PageRef × TierPage)} {e : PageRef × TierPage}
    (h : l.foldl (fun b e => match b with | none => some e | some x => if olderPage e x then some e else some x) b = some e) : e ∈ l ∨ b = some e := by
  induction l generalizing b with
  | nil => exact .inr h
  | cons a l ih =>
    rw [List.foldl_cons] at h
    rcases ih h with h | h
    · exact .inl (List.mem_cons_of_mem _ h)
    · cases b with
      | none => exact .inl (Option.some.inj h ▸ List.mem_cons_self)
      | some x =>
        dsimp only at h
        split at h
        · exact .inl (Option.some.inj h ▸ List.mem_cons_self)
        · exact .inr h

theorem State.oldestT1_some {s : State} {e : PageRef × TierPage} (h : s.oldestT1 = some e) : e ∈ s.allPages ∧ e.2.backing = .t1 ∧ e.2.move = none := by
  rcases foldl_oldest_mem _ h with h | h
  · obtain ⟨hmem, hp⟩ := List.mem_filter.1 h
    simp only [Bool.and_eq_true, decide_eq_true_eq] at hp
    exact ⟨hmem, hp.1.1, hp.1.2⟩
  · cases h

/-- A page that moves keeps its move while others begin theirs. -/
theorem State.move_lowSpace {n : Nat} {s : State} {r : PageRef} {m : Move} (h : (s.page? r).bind TierPage.move = some m) :
    ((s.lowSpace n).page? r).bind TierPage.move = some m := by
  induction n generalizing s with
  | zero => exact h
  | succ n ih =>
    unfold State.lowSpace
    split
    · split
      · refine ih ?_
        rw [State.page?_modPage]
        obtain ⟨q, hq, hm⟩ := Option.bind_eq_some_iff.1 h
        rw [hq, Option.map_some, Option.bind_some]
        split
        · rw [TierPage.start, if_neg (by simp [hm]), hm]
        · exact hm
      · exact h
    · exact h

theorem t1LowSpaceMove_does {s : State} (hruns : s.runs = true) {e : PageRef × TierPage} (hlow : s.t1Free * 100 < s.t1Cap * 2) (hpages : s.strata.t2Pages ≠ 0)
    (hold : s.oldestT1 = some e) (hpage : s.page? e.1 = some e.2) (hcoming : s.t1Coming * 100 < s.t1Cap * 4) :
    Does .t1LowSpaceMove s fun t => (t.page? e.1).bind TierPage.move = some { kind := .toT2, retiring := false } := by
  have hexec : exec .t1LowSpaceMove s = execT1LowSpaceMove s := rfl
  rw [execT1LowSpaceMove, whenUp_of_runs hruns, if_pos ⟨hlow, hpages⟩] at hexec
  refine ⟨_, hexec, ?_⟩
  obtain ⟨hmem, hback, hmove⟩ := State.oldestT1_some hold
  have hused : 0 < s.t1Used := List.length_pos_of_mem (List.mem_filter.2 ⟨hmem, decide_eq_true hback⟩)
  obtain ⟨n, hn⟩ := Nat.exists_eq_succ_of_ne_zero hused.ne'
  rw [hn, State.lowSpace, if_pos hcoming, hold]
  refine State.move_lowSpace ?_
  rw [State.page?_modPage, hpage, Option.map_some, if_pos rfl, Option.bind_some, TierPage.start, if_pos hmove]

theorem t1LowSpaceMove_idle {s : State} (hruns : s.runs = true) (h : s.t1Cap * 2 ≤ s.t1Free * 100) : exec .t1LowSpaceMove s = .next s := by
  have hexec : exec .t1LowSpaceMove s = execT1LowSpaceMove s := rfl
  rw [execT1LowSpaceMove, whenUp_of_runs hruns, if_neg (by omega)] at hexec
  exact hexec

/-! ### The heat sweep and the reclaim of a stripe (R118, R106) -/

theorem heatSweep_does {s : State} (hruns : s.runs = true) :
    Does .heatSweep s fun t => t = { s with home := { s.home with pages := t.home.pages } } ∧ ∀ e ∈ t.allPages, (t.period % 65536 + 65536 - e.2.stamp) % 65536 < 8 := by
  have hexec : exec .heatSweep s = execHeatSweep s := rfl
  rw [execHeatSweep, whenUp_of_runs hruns] at hexec
  refine ⟨_, hexec, rfl, ?_⟩
  refine State.forall_mapPages (P := fun p => (s.period % 65536 + 65536 - p.stamp) % 65536 < 8) fun p => ?_
  split
  · dsimp only
    omega
  · omega

@[simp] theorem State.nvmeIo_strata (s : State) (slot : Nat) (op : NvmeOp) (lba n : Nat) :
    (s.nvmeIo slot op lba n).strata.reclaimed = s.strata.reclaimed ∧ (s.nvmeIo slot op lba n).strata.t2Written = s.strata.t2Written := by
  unfold State.nvmeIo
  split
  · exact ⟨rfl, rfl⟩
  · dsimp only
    split <;> exact ⟨rfl, rfl⟩

/-- Commands to every drive leave the counts of stripes and of written bytes. -/
@[simp] theorem State.nvmeAll_strata (s : State) (op : NvmeOp) (lba n : Nat) :
    (s.nvmeAll op lba n).strata.reclaimed = s.strata.reclaimed ∧ (s.nvmeAll op lba n).strata.t2Written = s.strata.t2Written := by
  unfold State.nvmeAll
  generalize s.group.filter (fun e => !e.2.failed) = l
  induction l generalizing s with
  | nil => exact ⟨rfl, rfl⟩
  | cons e l ih =>
    obtain ⟨hr, hw⟩ := ih (s.nvmeIo e.1 op lba n)
    obtain ⟨hr', hw'⟩ := State.nvmeIo_strata s e.1 op lba n
    exact ⟨hr.trans hr', hw.trans hw'⟩

theorem stripeReclaim_does {s : State} (hruns : s.runs = true) {p : PageRef} (hpage : s.page? p = none) (hpages : s.strata.t2Pages ≠ 0) :
    Does (.stripeReclaim p) s fun t => t.strata.reclaimed = s.strata.reclaimed + 1 ∧ t.strata.t2Written = s.t2Live ∧ t.home = s.home := by
  have hexec : exec (.stripeReclaim p) s = execStripeReclaim p s := rfl
  rw [execStripeReclaim, whenUp_of_runs hruns, hpage] at hexec
  dsimp only at hexec
  rw [if_neg (by simpa using hpages)] at hexec
  refine ⟨_, hexec, ?_⟩
  simp

theorem stripeReclaim_idle {s : State} (hruns : s.runs = true) {p : PageRef} {q : TierPage} (hpage : s.page? p = some q) (hback : q.backing = .t2) :
    exec (.stripeReclaim p) s = .next s := by
  have hexec : exec (.stripeReclaim p) s = execStripeReclaim p s := rfl
  rw [execStripeReclaim, whenUp_of_runs hruns, hpage] at hexec
  dsimp only at hexec
  rw [hback, decide_eq_true rfl, Bool.true_or, Bool.true_or, if_pos rfl] at hexec
  exact hexec

/-- Settles O53: each command of the tiers and of the lent tier under the premises the statement gives it. -/
theorem tierCommands : Obligations.TierCommands := by
  unfold Obligations.TierCommands
  refine ⟨fun s r i u => ⟨fun h h1 h2 h3 h4 h5 h6 h7 h8 => tierSet_does h h1 h2 h3 h4 h5 h6 h7 h8, fun h hop => tierDrain_does h hop,
    fun o h hop hrings => tierDrainCancel_does h hop hrings⟩, fun s hruns => ⟨fun eid inc ext gib lkey hcur hver hgone hgib => lendOffer_does hruns lkey hcur hver hgone hgib,
    fun ext graceUs e hext hst hlow hhigh => lendRecall_does hruns hext hst hlow hhigh, fun ext e hext hst hend => lendGraceExpiry_does hruns hext hst hend,
    ⟨fun e hlow hpages hold hpage hcoming => t1LowSpaceMove_does hruns hlow hpages hold hpage hcoming, t1LowSpaceMove_idle hruns⟩, heatSweep_does hruns,
    fun p => ⟨fun hpage hpages => stripeReclaim_does hruns hpage hpages, fun q hpage hback => stripeReclaim_idle hruns hpage hback⟩⟩⟩

end Sys2Proof.Machine

/-! PROOF. O37 and O38: coherent requests, answers, recalls, timers and backoff (7). -/

namespace Sys2Proof.Machine

/-! ### A caching request that meets no bar (R274, R285) -/

/-- What `caches` answers with is a request's machine, region and entry: the table's body runs on them. -/
theorem cohServe_of_caches {mk : LmfReq → Instr} {q : LmfReq} {a : Nat} {need : Rights} {payload writes : Bool} {s u : State} {rid : Nat} {rg : Region}
    {body : LmfReq → Nat → Nat → Bool → State → State} (h : s.caches (mk q) q a need payload writes = some (u, rid, rg)) :
    cohServe mk q a need payload writes s body = .next (body q rid (q.offset / 64) (rg.entry (q.offset / 65536)).isRo u) ∧ u.region? rid = some rg ∧ rg.mode = .coherent := by
  unfold State.caches at h
  split at h
  · cases h
  · rename_i v htaken
    split at h
    · cases h
    · rename_i rid' rg' hpermit
      dsimp only at h
      obtain ⟨hbars, heq⟩ := Option.ite_none_right_eq_some.1 h
      obtain ⟨rfl, rfl, rfl⟩ : v = u ∧ rid' = rid ∧ rg' = rg := by simpa using heq
      simp only [Bool.and_eq_true, decide_eq_true_eq, Bool.not_eq_true', Bool.and_eq_false_imp] at hbars
      obtain ⟨⟨⟨⟨⟨hagent, hmode⟩, hgate⟩, hfault⟩, hwrites⟩, hrecovering⟩ := hbars
      obtain ⟨hruns, hsourced, harrive⟩ := State.taken_some htaken
      obtain ⟨-, hrg, -, -, -⟩ := State.live_some (State.permit_some hpermit).1
      refine ⟨?_, hrg, hmode⟩
      unfold cohServe
      rw [whenUp_of_runs hruns]
      dsimp only
      rw [hsourced, harrive]
      dsimp only
      rw [hagent, Bool.not_true, if_neg Bool.false_ne_true, hpermit]
      dsimp only
      rw [if_neg (not_not_intro hmode), hgate]
      dsimp only
      have hro : ¬((rg'.entry (q.offset / 65536)).isRo && writes) = true := by
        intro hro
        rw [Bool.and_eq_true] at hro
        exact absurd hro.2 (by simp [hwrites hro.1])
      rw [if_neg hfault, if_neg hro]
      split
      · rename_i ref href
        rw [if_neg]
        rw [href, Option.bind_some] at hrecovering
        intro hrec
        split at hrec
        · rename_i pg hpg
          rw [hpg] at hrecovering
          exact absurd hrec (by simpa using hrecovering)
        · cases hrec
      · rfl

/-- With no bit of the partner's to wait for, the table handles the request (R295). -/
theorem State.cohOwn_eq {s : State} {rid a : Nat} {rg : Region} (hrg : s.region? rid = some rg) (hown : rg.mirror = 0 ∨ a ∈ rg.excl) (cmd : Instr) (ln : Nat) (ro : Bool) (k : CohKind)
    (q : LmfReq) : s.cohOwn cmd rid ln ro k a q = s.cohRequest rid ln ro k a true q := by
  rw [State.cohOwn, hrg]
  dsimp only
  rw [if_neg]
  rintro ⟨hm, hx, -⟩
  rcases hown with h | h
  · exact hm h
  · exact hx h

/-! ### A calm line (R312) -/

/-- A line that is neither poisoned nor reserved, with no fence and no revoke to settle, and a set that is not full. -/
theorem State.lineCalm_iff {s : State} {rid ln : Nat} : s.lineCalm rid ln = true ↔
    s.rope.fencedAgents = [] ∧ s.home.revokes = [] ∧ s.linePoisoned rid ln = false ∧ (s.lineD rid ln).resv = [] ∧ s.rope.lines.length < 16 := by
  simp [State.lineCalm, and_assoc]

theorem State.settleLine_none {s : State} {rid ln : Nat} (h : s.line? rid ln = none) : s.settleLine rid ln = s := by
  rw [State.settleLine, h]

/-- Without a fenced agent, settling a line that an agent holds stores it again. -/
theorem State.settleLine_held {s : State} {rid ln : Nat} {l : Line} (hf : s.rope.fencedAgents = []) (h : s.line? rid ln = some l)
    (hheld : (l.st = .s ∧ l.sharers ≠ []) ∨ l.st = .e ∨ l.st = .m) : s.settleLine rid ln = s.setLine rid ln l := by
  have hidx : s.fencedIdx = [] := by simp [State.fencedIdx, hf]
  have hresv : { l with resv := l.resv.filter (fun e => decide (e ∉ ([] : List Agent).map Agent.eid)) } = l := by simp
  have hsharers : l.sharers.filter (fun a => decide (a ∉ ([] : List Nat))) = l.sharers := by simp
  rw [State.settleLine, h]
  dsimp only
  rw [hidx, hf]
  rcases hheld with ⟨hst, hne⟩ | hst | hst
  · simp only [hst, hsharers, if_neg hne]
    simp [hst.symm]
  · simp only [hst, List.not_mem_nil, if_false]
    simp [hst.symm]
  · simp only [hst, List.not_mem_nil, if_false]
    simp [hst.symm]

@[simp] theorem State.line?_setLine (s : State) (rid ln : Nat) (l : Line) : (s.setLine rid ln l).line? rid ln = some l := Tab.get?_set_self ..

@[simp] theorem State.lineD_setLine (s : State) (rid ln : Nat) (l : Line) : (s.setLine rid ln l).lineD rid ln = l := by
  rw [State.lineD, State.line?_setLine, Option.getD_some]

theorem State.line?_of_rope {s t : State} (h : t.rope = s.rope) (rid ln : Nat) : t.line? rid ln = s.line? rid ln := by
  rw [State.line?, State.line?, h]

theorem State.lineD_of_line {s : State} {rid ln : Nat} {l : Line} (h : s.line? rid ln = some l) : s.lineD rid ln = l := by
  rw [State.lineD, h, Option.getD_some]

theorem State.linePoisoned_of_home {s t : State} (h : t.home = s.home) (rid ln : Nat) : t.linePoisoned rid ln = s.linePoisoned rid ln := by
  simp only [State.linePoisoned, State.region?, State.viewRef, State.page?, State.handle?, h]

theorem State.lineData_of_home {s t : State} (h : t.home = s.home) (rid ln : Nat) : t.lineData rid ln = s.lineData rid ln := by
  simp only [State.lineData, State.readRange, State.region?, State.viewRef, State.page?, State.handle?, h]


/-! ### Grants (R291, R294) -/

/-- A line as a grant leaves it. -/
def Line.grantedTo (l : Line) (a : Nat) (st : LineState) (count now : Nat) : Line :=
  { l with
    st := st, owner := (if st = .s then 0 else a), sharers := if st = .s then (if a ∈ l.sharers then l.sharers else l.sharers ++ [a]) else [], awaited := [], req := .none,
    snoop := 0, wbSeen := false, armed := 0, granted := count, resvSince := now }

/-- The line of a grant names its agent. -/
theorem Line.grantedTo_owned (l : Line) (a : Nat) (st : LineState) (count now : Nat) :
    let x := l.grantedTo a st count now
    x.st = st ∧ (if st = .s then a ∈ x.sharers else x.owner = a) := by
  refine ⟨rfl, ?_⟩
  by_cases hs : st = .s
  · by_cases ha : a ∈ l.sharers
    · simp [Line.grantedTo, hs, ha]
    · simp [Line.grantedTo, hs, ha]
  · simp [Line.grantedTo, hs]

theorem State.line?_grantLine (s : State) (rid ln a : Nat) (st : LineState) :
    (s.grantLine rid ln a st).line? rid ln = some ((s.lineD rid ln).grantedTo a st s.rope.grantCount s.now) := by
  have hrope : (s.grantLine rid ln a st).rope.lines = Tab.set s.rope.lines (lineKey rid ln) ((s.lineD rid ln).grantedTo a st s.rope.grantCount s.now) := by
    unfold State.grantLine
    dsimp only
    split
    · split <;> rfl
    · rfl
  rw [State.line?, hrope, Tab.get?_set_self]

/-- A line without reservations stays as it is when a request of it has been served. -/
theorem State.served_of_unreserved {s : State} {rid ln : Nat} (h : (s.lineD rid ln).resv = []) (eid : Nat) : s.served rid ln eid = s := by
  unfold State.served
  split
  · rename_i l hl
    rw [State.lineD_of_line hl] at h
    rw [if_neg (by simp [h])]
  · rfl

theorem State.tidyLine_none {s : State} {rid ln : Nat} (h : s.line? rid ln = none) : s.tidyLine rid ln = s := by
  rw [State.tidyLine, h]

@[simp] theorem State.cohReply_keeps (s : State) (q : LmfReq) (op flag : Nat) (data : Bytes) :
    (s.cohReply q op flag data).home = s.home ∧ (s.cohReply q op flag data).rope = s.rope := ⟨rfl, rfl⟩

theorem State.mem_cohReply (s : State) (q : LmfReq) (op flag : Nat) (data : Bytes) : .coh q.srcEid op q.tag q.gen q.key q.offset flag data ∈ (s.cohReply q op flag data).out :=
  List.mem_cons_self

/-- An unreserved line's grant with data: the agent has the line, and is sent what it reads. -/
theorem State.grantData_granted {s : State} {rid ln : Nat} (hresv : (s.lineD rid ln).resv = []) (a : Nat) (st : LineState) (q : LmfReq) :
    let t := s.grantData rid ln a st q
    (∃ l, t.line? rid ln = some l ∧ l.st = st ∧ (if st = .s then a ∈ l.sharers else l.owner = a))
      ∧ .coh q.srcEid (match st with | .s => 64 | .e => 65 | _ => 66) q.tag q.gen q.key q.offset 0 (s.lineData rid ln) ∈ t.out := by
  refine ⟨⟨(s.lineD rid ln).grantedTo a st s.rope.grantCount s.now, ?_, Line.grantedTo_owned ..⟩, State.mem_cohReply ..⟩
  have hline := s.line?_grantLine rid ln a st
  have hserved : (s.grantLine rid ln a st).served rid ln q.srcEid = s.grantLine rid ln a st := State.served_of_unreserved (by rw [State.lineD_of_line hline]; exact hresv) _
  rw [← hline]
  refine State.line?_of_rope ?_ ..
  unfold State.grantData
  rw [hserved, (State.cohReply_keeps ..).2]
  simp

/-- A grant of M without data. -/
theorem State.grantOwn_granted {s : State} {rid ln : Nat} (hresv : (s.lineD rid ln).resv = []) (a : Nat) (q : LmfReq) :
    let t := ((s.grantLine rid ln a .m).served rid ln q.srcEid).cohReply q 67 0 []
    (∃ l, t.line? rid ln = some l ∧ l.st = .m ∧ (if LineState.m = .s then a ∈ l.sharers else l.owner = a)) ∧ .coh q.srcEid 67 q.tag q.gen q.key q.offset 0 [] ∈ t.out := by
  refine ⟨⟨(s.lineD rid ln).grantedTo a .m s.rope.grantCount s.now, ?_, Line.grantedTo_owned ..⟩, State.mem_cohReply ..⟩
  have hline := s.line?_grantLine rid ln a .m
  have hserved : (s.grantLine rid ln a .m).served rid ln q.srcEid = s.grantLine rid ln a .m := State.served_of_unreserved (by rw [State.lineD_of_line hline]; exact hresv) _
  rw [hserved, ← hline]
  rfl

/-! ### A request for a line that no agent holds -/

/-- The machine when a request has been counted at the line's slice (R796). -/
def State.asked (s : State) (ln : Nat) : State := s.event (dirUnit ln) 0 1 none

theorem State.asked_def (s : State) (ln : Nat) : s.asked ln = s.event (dirUnit ln) 0 1 none := rfl
@[simp] theorem State.asked_home (s : State) (ln : Nat) : (s.asked ln).home = s.home := by simp [State.asked]
@[simp] theorem State.asked_rope (s : State) (ln : Nat) : (s.asked ln).rope = s.rope := by simp [State.asked]

theorem State.setFull_none {s : State} (h : s.rope.lines.length < 16) (ln : Nat) : s.setFull ln = none := by
  rw [State.setFull, if_pos]
  exact (List.length_filter_le ..).trans_lt h

section Idle

variable {s : State} {rid ln : Nat} (hcalm : s.lineCalm rid ln = true) (hline : s.line? rid ln = none)
include hcalm hline

theorem State.asked_idle : (s.asked ln).lineD rid ln = Line.idle ∧ (s.asked ln).linePoisoned rid ln = false ∧ (s.asked ln).line? rid ln = none ∧ (s.asked ln).setFull ln = none := by
  obtain ⟨-, -, hpoison, -, hfew⟩ := State.lineCalm_iff.1 hcalm
  have hl : (s.asked ln).line? rid ln = none := (State.line?_of_rope (State.asked_rope ..) ..).trans hline
  refine ⟨?_, ?_, hl, State.setFull_none ?_ _⟩
  · rw [State.lineD, hl, Option.getD_none]
  · rw [State.linePoisoned_of_home (State.asked_home ..), hpoison]
  · rwa [State.asked_rope]

theorem State.cohRequest_rdShared (ro : Bool) (a : Nat) (q : LmfReq) :
    s.cohRequest rid ln ro .rdShared a true q = (s.asked ln).grantData rid ln a (if ro then .s else .e) q := by
  obtain ⟨hidle, hpoison, -, hfull⟩ := State.asked_idle hcalm hline
  rw [State.cohRequest, State.settleLine_none hline]
  simp only [← State.asked_def, hidle, hpoison, hfull]
  rfl

theorem State.cohRequest_rdOwn (ro : Bool) (a : Nat) (q : LmfReq) : s.cohRequest rid ln ro .rdOwn a true q = (s.asked ln).grantData rid ln a .m q := by
  obtain ⟨hidle, hpoison, -, hfull⟩ := State.asked_idle hcalm hline
  rw [State.cohRequest, State.settleLine_none hline]
  simp only [← State.asked_def, hidle, hpoison, hfull]
  rfl

theorem State.cohRequest_invOwn (ro : Bool) (a : Nat) (q : LmfReq) :
    s.cohRequest rid ln ro .invOwn a true q = (((s.asked ln).grantLine rid ln a .m).served rid ln q.srcEid).cohReply q 67 0 [] := by
  obtain ⟨hidle, hpoison, -, hfull⟩ := State.asked_idle hcalm hline
  have hclean : (s.asked ln).lineClean rid ln = s.asked ln := by rw [State.lineClean, hpoison, if_neg Bool.false_ne_true]
  rw [State.cohRequest, State.settleLine_none hline]
  simp only [← State.asked_def, hidle, hpoison, hfull]
  exact congrArg (fun t => ((t.grantLine rid ln a .m).served rid ln q.srcEid).cohReply q 67 0 []) hclean

theorem State.cohRequest_rdUnc (ro : Bool) (a : Nat) (isAgent : Bool) (q : LmfReq) : s.cohRequest rid ln ro .rdUnc a isAgent q = (s.asked ln).doRdUnc rid q := by
  obtain ⟨hidle, hpoison, hnone, -⟩ := State.asked_idle hcalm hline
  have hserved : ((s.asked ln).served rid ln q.srcEid).tidyLine rid ln = s.asked ln := by
    rw [State.served_of_unreserved (by rw [hidle]; rfl), State.tidyLine_none hnone]
  rw [State.cohRequest, State.settleLine_none hline]
  simp only [← State.asked_def, hidle, hpoison]
  simp [Line.idle, hserved]

end Idle


/-! ### A request for a line that agents hold -/

section Held

variable {s : State} {rid ln : Nat} {l : Line} (hcalm : s.lineCalm rid ln = true) (hline : s.line? rid ln = some l)
include hcalm hline

theorem State.resv_of_calm : l.resv = [] := by
  obtain ⟨-, -, -, hresv, -⟩ := State.lineCalm_iff.1 hcalm
  rwa [State.lineD_of_line hline] at hresv

/-- Settling a calm line that agents hold leaves the home and the line. -/
theorem State.settled_held (hheld : (l.st = .s ∧ l.sharers ≠ []) ∨ l.st = .e ∨ l.st = .m) :
    s.settleLine rid ln = s.setLine rid ln l ∧ ((s.setLine rid ln l).asked ln).lineD rid ln = l ∧ ((s.setLine rid ln l).asked ln).linePoisoned rid ln = false := by
  obtain ⟨hf, -, hpoison, -, -⟩ := State.lineCalm_iff.1 hcalm
  refine ⟨State.settleLine_held hf hline hheld, ?_, ?_⟩
  · rw [State.lineD, State.line?_of_rope (State.asked_rope ..), ← State.lineD, State.lineD_setLine]
  · rw [State.linePoisoned_of_home (State.asked_home ..)]
    exact (State.linePoisoned_of_home (s := s) rfl ..).trans hpoison

theorem State.cohRequest_upgrade {a : Nat} (hst : l.st = .s) (hsharers : l.sharers = [a]) (ro : Bool) (q : LmfReq) :
    s.cohRequest rid ln ro .upgrade a true q = ((s.setLine rid ln l).asked ln).invalidate rid ln l (some a) (.upgrade a q) := by
  obtain ⟨hsettle, hl, hpoison⟩ := State.settled_held hcalm hline (.inl ⟨hst, by simp [hsharers]⟩)
  have hresv := State.resv_of_calm hcalm hline
  rw [State.cohRequest, hsettle]
  simp only [← State.asked_def, hl, hpoison, hst, hsharers, hresv]
  simp [CohKind.pend]

theorem State.cohRequest_shared {a : Nat} (hst : l.st = .m) (howner : l.owner ≠ a) (ro : Bool) (q : LmfReq) :
    s.cohRequest rid ln ro .rdShared a true q = ((s.setLine rid ln l).asked ln).snoopOwner rid ln l 48 a (.shared a q) := by
  obtain ⟨hsettle, hl, hpoison⟩ := State.settled_held hcalm hline (.inr (.inr hst))
  have hresv := State.resv_of_calm hcalm hline
  rw [State.cohRequest, hsettle]
  simp only [← State.asked_def, hl, hpoison, hst, howner, hresv]
  simp

end Held

/-- The only sharer's upgrade waits for no other, and is granted at once. -/
theorem State.invalidate_only {s : State} {rid ln a : Nat} {l : Line} (hpoison : s.linePoisoned rid ln = false) (hsharers : l.sharers = [a]) (hresv : l.resv = []) (q : LmfReq) :
    let t := s.invalidate rid ln l (some a) (.upgrade a q)
    (∃ x, t.line? rid ln = some x ∧ x.st = .m ∧ (if LineState.m = .s then a ∈ x.sharers else x.owner = a)) ∧ .coh q.srcEid 67 q.tag q.gen q.key q.offset 0 [] ∈ t.out := by
  let x : Line := { l with st := .invWait, awaited := [], req := .upgrade a q, snoop := 50, wbSeen := false, armed := s.now }
  have hset : s.invalidate rid ln l (some a) (.upgrade a q) = (s.setLine rid ln x).servePending rid ln := by
    simp [State.invalidate, hsharers, x]
  have hfree : (s.setLine rid ln x).freeLine rid ln = { s.setLine rid ln x with rope.lines := Tab.erase (s.setLine rid ln x).rope.lines (lineKey rid ln) } := by
    rw [State.freeLine, State.line?_setLine]
    exact if_pos hresv
  have hpoison' : (s.setLine rid ln x).linePoisoned rid ln = false := (State.linePoisoned_of_home rfl ..).trans hpoison
  have hserve : (s.setLine rid ln x).servePending rid ln = (((((s.setLine rid ln x).freeLine rid ln).grantLine rid ln a .m).served rid ln q.srcEid).cohReply q 67 0 []).lineStable rid ln := by
    unfold State.servePending
    simp only [State.lineD_setLine, hpoison']
    rfl
  intro t
  have ht : t = (((((s.setLine rid ln x).freeLine rid ln).grantLine rid ln a .m).served rid ln q.srcEid).cohReply q 67 0 []).lineStable rid ln := hset.trans hserve
  have hidle : ((s.setLine rid ln x).freeLine rid ln).lineD rid ln = Line.idle := by
    rw [hfree, State.lineD, State.line?]
    simp
  rw [ht]
  exact State.grantOwn_granted (by rw [hidle]; rfl) a q

theorem State.snoopOwner_sent (s : State) (rid ln : Nat) (l : Line) (op a : Nat) (req : LineReq) :
    let t := s.snoopOwner rid ln l op a req
    (∃ x, t.line? rid ln = some x ∧ x.st = .fwdWait ∧ x.awaited = [l.owner]) ∧ .coh (s.agentEid l.owner) op 0 0 (s.keyOf rid) (ln * 64) a [] ∈ t.out := by
  refine ⟨⟨_, State.line?_setLine .., rfl, rfl⟩, ?_⟩
  exact List.mem_cons_self

/-! ### The return of a line -/

/-- In a region without a partner an answer is given at once, whatever has been written. -/
theorem State.answerAfter_of_titles {s t v : State} {rid : Nat} {rg : Region} (hrg : s.region? rid = some rg) (hmirror : rg.mirror = 0) (ht : t.titles = s.titles)
    (hv : v.memory = t.memory) (off : Nat) (data : Bytes) (log : Option LogNote) (st : Status) (a : Answer) : v.answerAfter rid off data log st a = v.giveAnswer st a := by
  have hkeep : holdersIn t.home.regions = holdersIn s.home.regions := congrArg Titles.holders ht
  have hholders : holdersIn t.home.regions rid = some rg.holders := by
    rw [hkeep, holdersIn, show Tab.get? s.home.regions rid = some rg from hrg]
    rfl
  obtain ⟨r, hr, hrs⟩ := Option.map_eq_some_iff.1 hholders
  have hterms : v.memory.terms rid = some (r.mode, r.mirror) := by
    rw [hv]
    simp [Memory.terms, State.memory, State.region?, hr]
  exact State.answerAfter_of_unmirrored hterms ((congrArg Prod.fst hrs).trans hmirror) ..

theorem State.freeLine_unreserved {s : State} {rid ln : Nat} {l : Line} (hline : s.line? rid ln = some l) (hresv : l.resv = []) : (s.freeLine rid ln).line? rid ln = none := by
  rw [State.freeLine, hline]
  dsimp only
  rw [if_pos hresv, State.line?, Tab.get?_erase_self]

@[simp] theorem State.lineWrite_rope (s : State) (rid ln : Nat) (data : Bytes) : (s.lineWrite rid ln data).rope = s.rope := by simp [State.lineWrite]

@[simp] theorem State.lineStable_keeps (s : State) (rid ln : Nat) :
    (s.lineStable rid ln).rope = s.rope ∧ (s.lineStable rid ln).home = { s.home with held := s.home.held.filter (fun h => !decide (h.why = .line rid ln)) } ∧ (s.lineStable rid ln).out = s.out :=
  ⟨rfl, rfl, rfl⟩

section Drop

variable {s : State} {rid ln a : Nat} {l : Line} (hcalm : s.lineCalm rid ln = true) (hline : s.line? rid ln = some l) (howner : l.owner = a)
include hcalm hline howner

/-- A clean line's owner gives it up. -/
theorem State.cohDrop_clean (hst : l.st = .e) (q : LmfReq) :
    s.cohDrop rid ln a q false false [] = (((s.setLine rid ln l).freeLine rid ln).lineStable rid ln).cohReply q 69 0 [] := by
  have hresv := State.resv_of_calm hcalm hline
  rw [State.cohDrop, (State.settled_held hcalm hline (.inr (.inl hst))).1]
  simp only [State.lineD_setLine, hst, howner, hresv]
  simp [State.lineReturn]

/-- A dirty line's owner returns its data and gives it up. -/
theorem State.cohDrop_dirty (hst : l.st = .m) (q : LmfReq) (d : Bytes) :
    s.cohDrop rid ln a q true false d
      = (((((s.setLine rid ln l).lineWrite rid ln d).freeLine rid ln).lineStable rid ln).touchRange true rid .pub (ln * 64) 64).answerAfter rid (ln * 64) d none .ok (.coh q 69 0) := by
  have hresv := State.resv_of_calm hcalm hline
  rw [State.cohDrop, (State.settled_held hcalm hline (.inr (.inr hst))).1]
  simp only [State.lineD_setLine, hst, howner, hresv]
  simp [State.lineReturn]

end Drop


/-! ### Coherent requests at a calm line (R291, R294, R309) -/

section CalmLine

variable {s u : State} {q : LmfReq} {a rid : Nat} {rg : Region}

/-- The line that a request names. -/
def askedLine (q : LmfReq) : Nat := q.offset / 64

/-- The agent holds the line in a state: among the sharers in S, alone in E and M. -/
def State.owned (t : State) (rid ln a : Nat) (st : LineState) : Prop := ∃ l, t.line? rid ln = some l ∧ l.st = st ∧ (if st = .s then a ∈ l.sharers else l.owner = a)

/-- The requester is sent a coherence answer. -/
def State.sentTo (t : State) (q : LmfReq) (op : Nat) (data : Bytes) : Prop := .coh q.srcEid op q.tag q.gen q.key q.offset 0 data ∈ t.out

theorem State.lineData_asked (u : State) (rid ln ln' : Nat) : (u.asked ln').lineData rid ln = u.lineData rid ln := State.lineData_of_home (State.asked_home ..) ..

section Idle

variable (hcalm : u.lineCalm rid (askedLine q) = true) (hline : u.line? rid (askedLine q) = none) (hown : rg.mirror = 0 ∨ a ∈ rg.excl)
include hcalm hline

theorem State.resv_asked : ((u.asked (askedLine q)).lineD rid (askedLine q)).resv = [] := by
  rw [(State.asked_idle hcalm hline).1]
  rfl

include hown

theorem rdShared_idle (h : s.caches (.rdShared q a) q a needR false false = some (u, rid, rg)) :
    Does (.rdShared q a) s fun t => if (rg.entry (q.offset / 65536)).isRo then t.owned rid (askedLine q) a .s ∧ t.sentTo q 64 (u.lineData rid (askedLine q))
      else t.owned rid (askedLine q) a .e ∧ t.sentTo q 65 (u.lineData rid (askedLine q)) := by
  have hexec : exec (.rdShared q a) s = execRdShared q a s := rfl
  obtain ⟨hserve, hrg, -⟩ := cohServe_of_caches (mk := fun q => .rdShared q a) h (body := fun q rid ln ro s => s.cohOwn (.rdShared q a) rid ln ro .rdShared a q)
  rw [execRdShared, hserve, State.cohOwn_eq hrg hown] at hexec
  change exec _ s = .next (u.cohRequest rid (askedLine q) _ .rdShared a true q) at hexec
  rw [State.cohRequest_rdShared hcalm hline] at hexec
  have hgrant := State.grantData_granted (State.resv_asked hcalm hline) a
  refine ⟨_, hexec, ?_⟩
  rw [← State.lineData_asked u rid (askedLine q) (askedLine q)]
  dsimp only
  by_cases hro : (rg.entry (q.offset / 65536)).isRo = true
  · rw [if_pos hro, if_pos hro]
    exact hgrant .s q
  · rw [if_neg hro, if_neg hro]
    exact hgrant .e q

theorem rdOwn_idle (h : s.caches (.rdOwn q a) q a needW false true = some (u, rid, rg)) :
    Does (.rdOwn q a) s fun t => t.owned rid (askedLine q) a .m ∧ t.sentTo q 66 (u.lineData rid (askedLine q)) := by
  have hexec : exec (.rdOwn q a) s = execRdOwn q a s := rfl
  obtain ⟨hserve, hrg, -⟩ := cohServe_of_caches (mk := fun q => .rdOwn q a) h (body := fun q rid ln ro s => s.cohOwn (.rdOwn q a) rid ln ro .rdOwn a q)
  rw [execRdOwn, hserve, State.cohOwn_eq hrg hown] at hexec
  change exec _ s = .next (u.cohRequest rid (askedLine q) _ .rdOwn a true q) at hexec
  rw [State.cohRequest_rdOwn hcalm hline] at hexec
  refine ⟨_, hexec, ?_⟩
  rw [← State.lineData_asked u rid (askedLine q) (askedLine q)]
  exact State.grantData_granted (State.resv_asked hcalm hline) a .m q

theorem invOwn_idle (h : s.caches (.invOwn q a) q a needW false true = some (u, rid, rg)) :
    Does (.invOwn q a) s fun t => t.owned rid (askedLine q) a .m ∧ t.sentTo q 67 [] := by
  have hexec : exec (.invOwn q a) s = execInvOwn q a s := rfl
  obtain ⟨hserve, hrg, -⟩ := cohServe_of_caches (mk := fun q => .invOwn q a) h (body := fun q rid ln ro s => s.cohOwn (.invOwn q a) rid ln ro .invOwn a q)
  rw [execInvOwn, hserve, State.cohOwn_eq hrg hown] at hexec
  change exec _ s = .next (u.cohRequest rid (askedLine q) _ .invOwn a true q) at hexec
  rw [State.cohRequest_invOwn hcalm hline] at hexec
  exact ⟨_, hexec, State.grantOwn_granted (State.resv_asked hcalm hline) a q⟩

end Idle

theorem rdUnc_idle (hcalm : u.lineCalm rid (askedLine q) = true) (hline : u.line? rid (askedLine q) = none) (h : s.accesses (.rdUnc q) q true false needR = some (u, rid, rg))
    (hmode : rg.mode = .coherent) (hlen : 0 < q.len) (hin : q.offset % 64 + q.len ≤ 64) (hmet : u.meetRead1 rid rg .pub q.offset q.len = .clear) :
    Does (.rdUnc q) s fun t => t.line? rid (askedLine q) = none ∧ t.sentTo q 68 (u.readRange rg .pub q.offset q.len) := by
  obtain ⟨htaken, hmax, hblock, hpermit, hgate⟩ := State.accesses_some h
  obtain ⟨hruns, hsourced, harrive⟩ := State.taken_some htaken
  obtain ⟨hrg, -⟩ := State.region?_of_permit hpermit
  have hexec : exec (.rdUnc q) s = execRdUnc q s := rfl
  rw [execRdUnc, whenUp_of_runs hruns] at hexec
  dsimp only at hexec
  rw [hsourced, harrive] at hexec
  dsimp only at hexec
  rw [if_neg (by omega), State.serve_eq hmax hblock hpermit hgate, if_pos hmode, hmet] at hexec
  change exec _ s = .next (u.cohRequest rid (askedLine q) _ .rdUnc _ _ q) at hexec
  rw [State.cohRequest_rdUnc hcalm hline] at hexec
  have hrg' : (u.asked (askedLine q)).region? rid = some rg := by rw [State.region?, State.asked_home]; exact hrg
  have hread : (u.asked (askedLine q)).readRange rg .pub q.offset q.len = u.readRange rg .pub q.offset q.len := by
    simp only [State.readRange, State.viewRef, State.page?, State.handle?, State.asked_home]
  rw [State.doRdUnc, hrg'] at hexec
  dsimp only at hexec
  rw [hread] at hexec
  refine ⟨_, hexec, ?_, State.mem_cohReply ..⟩
  rw [State.line?_of_rope (s := u) ?_, hline]
  rw [(State.cohReply_keeps ..).2]
  simp

/-- An uncached write of a whole line to a region outside coherent mode. -/
theorem wrUnc_plain {d : Bytes} (h : s.accesses (.wrUnc q d (BitVec.allOnes 64)) q true true needW = some (u, rid, rg)) (halign : q.offset % 64 = 0) (hlen : q.len = 64)
    (hmode : rg.mode ≠ .coherent) (hmirror : rg.mirror = 0) (hmet : u.meetWrite rid rg (.shadowed (LmfIssuer q)) q.offset 64 = .clear) :
    Does (.wrUnc q d (BitVec.allOnes 64)) s fun t => t.sentTo q 69 [] := by
  obtain ⟨htaken, hmax, hblock, hpermit, hgate⟩ := State.accesses_some h
  obtain ⟨hruns, hsourced, harrive⟩ := State.taken_some htaken
  obtain ⟨hrg, -⟩ := State.region?_of_permit hpermit
  have hline : q.offset / 64 * 64 = q.offset := by omega
  have hq : { q with offset := q.offset / 64 * 64, len := 64 } = q := by rw [hline, ← hlen]
  have hexec : exec (.wrUnc q d (BitVec.allOnes 64)) s = execWrUnc q d (BitVec.allOnes 64) s := rfl
  rw [execWrUnc, whenUp_of_runs hruns] at hexec
  dsimp only at hexec
  rw [hsourced, harrive] at hexec
  dsimp only at hexec
  rw [hq, State.serve_eq hmax hblock hpermit hgate, if_neg hmode, hline, hmet] at hexec
  simp only [ne_eq, not_true_eq_false, if_false] at hexec
  by_cases hpub : rg.mode = .publish
  · rw [if_pos hpub] at hexec
    exact ⟨_, hexec, State.mem_cohReply ..⟩
  · rw [if_neg hpub, State.answerAfter_of_titles hrg hmirror (State.titles_writeRange ..) (State.touchRange_memory ..)] at hexec
    exact ⟨_, hexec, List.mem_cons_self⟩

section Held

variable {l : Line} (hcalm : u.lineCalm rid (askedLine q) = true) (hline : u.line? rid (askedLine q) = some l)
include hcalm hline

theorem upgrade_only (hown : rg.mirror = 0 ∨ a ∈ rg.excl) (hst : l.st = .s) (hsharers : l.sharers = [a]) (h : s.caches (.upgrade q a) q a needW false true = some (u, rid, rg)) :
    Does (.upgrade q a) s fun t => t.owned rid (askedLine q) a .m ∧ t.sentTo q 67 [] := by
  have hexec : exec (.upgrade q a) s = execUpgrade q a s := rfl
  obtain ⟨hserve, hrg, -⟩ := cohServe_of_caches (mk := fun q => .upgrade q a) h (body := fun q rid ln ro s => s.cohOwn (.upgrade q a) rid ln ro .upgrade a q)
  rw [execUpgrade, hserve, State.cohOwn_eq hrg hown] at hexec
  change exec _ s = .next (u.cohRequest rid (askedLine q) _ .upgrade a true q) at hexec
  rw [State.cohRequest_upgrade hcalm hline hst hsharers] at hexec
  exact ⟨_, hexec, State.invalidate_only (State.settled_held hcalm hline (.inl ⟨hst, by simp [hsharers]⟩)).2.2 hsharers (State.resv_of_calm hcalm hline) q⟩

theorem rdShared_owned (hown : rg.mirror = 0 ∨ a ∈ rg.excl) (hst : l.st = .m) (howner : l.owner ≠ a) (h : s.caches (.rdShared q a) q a needR false false = some (u, rid, rg)) :
    Does (.rdShared q a) s fun t => (∃ x, t.line? rid (askedLine q) = some x ∧ x.st = .fwdWait ∧ x.awaited = [l.owner])
      ∧ .coh (u.agentEid l.owner) 48 0 0 (u.keyOf rid) ((askedLine q) * 64) a [] ∈ t.out := by
  have hexec : exec (.rdShared q a) s = execRdShared q a s := rfl
  obtain ⟨hserve, hrg, -⟩ := cohServe_of_caches (mk := fun q => .rdShared q a) h (body := fun q rid ln ro s => s.cohOwn (.rdShared q a) rid ln ro .rdShared a q)
  rw [execRdShared, hserve, State.cohOwn_eq hrg hown] at hexec
  change exec _ s = .next (u.cohRequest rid (askedLine q) _ .rdShared a true q) at hexec
  rw [State.cohRequest_shared hcalm hline hst howner] at hexec
  exact ⟨_, hexec, State.snoopOwner_sent ..⟩

theorem evictClean_owner (howner : l.owner = a) (hst : l.st = .e) (h : s.caches (.evictClean q a) q a needW false false = some (u, rid, rg)) :
    Does (.evictClean q a) s fun t => t.line? rid (askedLine q) = none ∧ t.sentTo q 69 [] := by
  have hexec : exec (.evictClean q a) s = execEvictClean q a s := rfl
  obtain ⟨hserve, hrg, -⟩ := cohServe_of_caches (mk := fun q => .evictClean q a) h (body := fun q rid ln _ s => s.cohDrop rid ln a q false false [])
  rw [execEvictClean, hserve] at hexec
  change exec _ s = .next (u.cohDrop rid (askedLine q) a q false false []) at hexec
  rw [State.cohDrop_clean hcalm hline howner hst] at hexec
  exact ⟨_, hexec, State.freeLine_unreserved (State.line?_setLine ..) (State.resv_of_calm hcalm hline), State.mem_cohReply ..⟩

theorem wbDirty_owner {d : Bytes} (howner : l.owner = a) (hmirror : rg.mirror = 0) (hst : l.st = .m) (h : s.caches (.wbDirty q a d false) q a needW true false = some (u, rid, rg)) :
    Does (.wbDirty q a d false) s fun t => t.line? rid (askedLine q) = none ∧ t.sentTo q 69 [] := by
  have hexec : exec (.wbDirty q a d false) s = execWbDirty q a d false s := rfl
  obtain ⟨hserve, hrg, -⟩ := cohServe_of_caches (mk := fun q => .wbDirty q a d false) h (body := fun q rid ln _ s => s.cohDrop rid ln a q true false d)
  rw [execWbDirty, hserve] at hexec
  change exec _ s = .next (u.cohDrop rid (askedLine q) a q true false d) at hexec
  rw [State.cohDrop_dirty hcalm hline howner hst] at hexec
  have hline' : ((u.setLine rid (askedLine q) l).lineWrite rid (askedLine q) d).line? rid (askedLine q) = some l := (State.line?_of_rope (s := u.setLine rid (askedLine q) l) (by simp) ..).trans (State.line?_setLine ..)
  rw [State.answerAfter_of_titles (s := u) (t := (u.setLine rid (askedLine q) l).lineWrite rid (askedLine q) d) hrg hmirror (State.titles_writeRange ..)] at hexec
  · refine ⟨_, hexec, ?_, List.mem_cons_self⟩
    rw [State.giveAnswer, State.line?_of_rope (s := ((u.setLine rid (askedLine q) l).lineWrite rid (askedLine q) d).freeLine rid (askedLine q)) (by simp)]
    exact State.freeLine_unreserved hline' (State.resv_of_calm hcalm hline)
  · rw [State.touchRange_memory]
    exact State.memory_of_tables (by simp) (by simp)

end Held

end CalmLine

/-- Settles O37: each request at a calm line under the premises the statement gives it. -/
theorem coherentGrants : Obligations.CoherentGrants := by
  unfold Obligations.CoherentGrants
  intro s q a u rid rg ln hcalm hown sent owned
  exact ⟨fun hline => ⟨fun h => rdShared_idle hcalm hline hown h, fun h => rdOwn_idle hcalm hline hown h, fun h => invOwn_idle hcalm hline hown h,
      fun h hmode hlen hin hmet => rdUnc_idle hcalm hline h hmode hlen hin hmet⟩,
    fun l hline hst hsharers h => upgrade_only hcalm hline hown hst hsharers h, fun l hline hst howner h => rdShared_owned hcalm hline hown hst howner h,
    fun d _ h halign hlen hmode hmirror hmet => wrUnc_plain h halign hlen hmode hmirror hmet,
    fun l hline howner hmirror _ => ⟨fun d hst h => wbDirty_owner hcalm hline howner hmirror hst h, fun hst h => evictClean_owner hcalm hline howner hst h⟩⟩


/-! ### The revokes that wait, while lines are read, written and granted -/

theorem State.revokes_foldl {α : Type} {f : State → α → State} (h : ∀ s a, (f s a).home.revokes = s.home.revokes) (l : List α) (s : State) : (l.foldl f s).home.revokes = s.home.revokes := by
  induction l generalizing s with
  | nil => rfl
  | cons a l ih => rw [List.foldl_cons, ih, h]

@[simp] theorem State.revokes_emit (s : State) (o : Out) : (s.emit o).home.revokes = s.home.revokes := by
  rfl

@[simp] theorem State.revokes_event (s : State) (hw : Nat) (idx : Nat) (n : Nat) (ctx : Option Nat) : (s.event hw idx n ctx).home.revokes = s.home.revokes := by
  rfl

@[simp] theorem State.revokes_traceFor (s : State) (selected : Bool) (die : Nat) (typ : Nat) (slots : Nat) (time : Nat) (body : List Word) : (s.traceFor selected die typ slots time body).home.revokes = s.home.revokes := by
  rfl

@[simp] theorem State.revokes_traceGen (s : State) (die : Nat) (typ : Nat) (slots : Nat) (time : Nat) (body : List Word) : (s.traceGen die typ slots time body).home.revokes = s.home.revokes := by
  rfl

@[simp] theorem State.revokes_cairnAt (s : State) (hw : Nat) (code : Nat) (ctx : Nat) (payload : Nat) (time : Nat) : (s.cairnAt hw code ctx payload time).home.revokes = s.home.revokes := by
  unfold State.cairnAt
  split <;> simp 

@[simp] theorem State.revokes_cairn (s : State) (hw : Nat) (code : Nat) (ctx : Nat) (payload : Nat) : (s.cairn hw code ctx payload).home.revokes = s.home.revokes := by
  simp [State.cairn]

@[simp] theorem State.revokes_strataEvent (s : State) (idx : Nat) (n : Nat) : (s.strataEvent idx n).home.revokes = s.home.revokes := by
  rfl

@[simp] theorem State.revokes_errorCount (s : State) (hw : Nat) (cls : Nat) : (s.errorCount hw cls).home.revokes = s.home.revokes := by
  rfl

@[simp] theorem State.revokes_workEnd (s : State) (hw : Nat) (ctx : Nat) (st : Status) (exc : Nat) : (s.workEnd hw ctx st exc).home.revokes = s.home.revokes := by
  simp [State.workEnd]

@[simp] theorem State.revokes_release (s : State) (f : HoldWhy → Bool) : (s.release f).home.revokes = s.home.revokes := by
  rfl

@[simp] theorem State.revokes_setRegion (s : State) (rid : Nat) (r : Region) : (s.setRegion rid r).home.revokes = s.home.revokes := by
  rfl

@[simp] theorem State.revokes_setPages (s : State) (t : Tab Handle) : (s.setPages t).home.revokes = s.home.revokes := by
  rfl

@[simp] theorem State.revokes_modPage (s : State) (ref : PageRef) (f : TierPage → TierPage) : (s.modPage ref f).home.revokes = s.home.revokes := by
  rfl

@[simp] theorem State.revokes_sweepTables (s : State) : (s.sweepTables).home.revokes = s.home.revokes := by
  rfl

@[simp] theorem State.revokes_chooseTable (s : State) (rid : Nat) (r : Region) (bytes : Bytes) : (s.chooseTable rid r bytes).1.home.revokes = s.home.revokes := by
  unfold State.chooseTable
  simp [apply_ite (fun t : State => t.home.revokes), State.revokes_foldl]
  (repeat' split) <;> simp [apply_ite (fun t : State => t.home.revokes), State.revokes_foldl]

@[simp] theorem State.revokes_nvmeIo (s : State) (slot : Nat) (op : NvmeOp) (lba : Nat) (n : Nat) : (s.nvmeIo slot op lba n).home.revokes = s.home.revokes := by
  unfold State.nvmeIo
  (repeat' split) <;> simp 

@[simp] theorem State.revokes_nvmeAll (s : State) (op : NvmeOp) (lba : Nat) (n : Nat) : (s.nvmeAll op lba n).home.revokes = s.home.revokes := by
  simp [State.nvmeAll, apply_ite (fun t : State => t.home.revokes), State.revokes_foldl]

@[simp] theorem State.revokes_stripesOut (s : State) (n : Nat) : (s.stripesOut n).home.revokes = s.home.revokes := by
  induction n generalizing s with
  | zero => rfl
  | succ n ih =>
    unfold State.stripesOut
    split <;> simp [ih]

@[simp] theorem State.revokes_t2Put (s : State) (im : Image) : (s.t2Put im).home.revokes = s.home.revokes := by
  simp [State.t2Put]

@[simp] theorem State.revokes_t2Get (s : State) (ref : PageRef) : (s.t2Get ref).home.revokes = s.home.revokes := by
  unfold State.t2Get
  split <;> simp

@[simp] theorem State.revokes_memEvent (s : State) (layer : Nat) (idx : Nat) (n : Nat) (ref : PageRef) : (s.memEvent layer idx n ref).home.revokes = s.home.revokes := by
  rfl

@[simp] theorem State.revokes_encoderRan (s : State) (ref : PageRef) (p : TierPage) (im : Image) : (s.encoderRan ref p im).home.revokes = s.home.revokes := by
  simp [State.encoderRan]

@[simp] theorem State.revokes_encodeGroup (s : State) (rid : Nat) (refs : List PageRef) (b : TierPage → Backing) (place : Image → TierPage → TierPage) :
    (s.encodeGroup rid refs b place).home.revokes = s.home.revokes := by
  unfold State.encodeGroup
  split
  · rfl
  · dsimp only
    rw [State.revokes_sweepTables, State.revokes_foldl, State.revokes_chooseTable]
    intro s ref
    (repeat' split) <;> simp 

@[simp] theorem State.revokes_writeBackNow (s : State) (ref : PageRef) : (s.writeBackNow ref).home.revokes = s.home.revokes := by
  unfold State.writeBackNow
  split <;> simp

@[simp] theorem State.revokes_evict (s : State) (e : PageRef × TierPage) : (s.evict e).home.revokes = s.home.revokes := by
  unfold State.evict
  split <;> simp

@[simp] theorem State.revokes_roomT0 (s : State) : (s.roomT0).home.revokes = s.home.revokes := by
  unfold State.roomT0
  (repeat' split) <;> simp

@[simp] theorem State.revokes_fillT0 (s : State) (ref : PageRef) : (s.fillT0 ref).home.revokes = s.home.revokes := by
  unfold State.fillT0
  (repeat' split) <;> simp

@[simp] theorem State.revokes_touch (s : State) (port : Bool) (ref : PageRef) (off : Nat) (n : Nat) : (s.touch port ref off n).home.revokes = s.home.revokes := by
  unfold State.touch
  simp [apply_ite (fun t : State => t.home.revokes), State.revokes_foldl]
  (repeat' split) <;> simp [apply_ite (fun t : State => t.home.revokes), State.revokes_foldl]

@[simp] theorem State.revokes_allocate (s : State) (rid : Nat) (p : Nat) (r : Region) : (s.allocate rid p r).home.revokes = s.home.revokes := by
  unfold State.allocate
  split <;> simp 

@[simp] theorem State.revokes_ensurePage (s : State) (rid : Nat) (p : Nat) : (s.ensurePage rid p).home.revokes = s.home.revokes := by
  unfold State.ensurePage
  (repeat' split) <;> simp

@[simp] theorem State.revokes_commit (s : State) : (s.commit).home.revokes = s.home.revokes := by
  rfl

@[simp] theorem State.revokes_makeShadow (s : State) (rid : Nat) (p : Nat) (i : Issuer) : (s.makeShadow rid p i).home.revokes = s.home.revokes := by
  unfold State.makeShadow
  simp [apply_ite (fun t : State => t.home.revokes), State.revokes_foldl]
  (repeat' split) <;> simp [apply_ite (fun t : State => t.home.revokes), State.revokes_foldl]

@[simp] theorem State.revokes_touchRange (s : State) (port : Bool) (rid : Nat) (v : View) (off n : Nat) : (s.touchRange port rid v off n).home.revokes = s.home.revokes := by
  refine State.revokes_foldl (fun s q => ?_) _ _
  (repeat' split) <;> simp

@[simp] theorem State.revokes_putRef (s : State) (ref : PageRef) (off : Nat) (data : Bytes) : (s.putRef ref off data).home.revokes = s.home.revokes := by
  simp [State.putRef, apply_ite (fun t : State => t.home.revokes), State.revokes_foldl]

@[simp] theorem State.revokes_directMap (s : State) (rid p off n : Nat) (f : Bytes → Bytes) : (s.directMap rid p off n f).home.revokes = s.home.revokes := by
  unfold State.directMap
  dsimp only
  (repeat' split)
  · simp
  · simp
  · rw [State.revokes_foldl (fun s ref => ?_), State.revokes_ensurePage]
    (repeat' split) <;> simp

@[simp] theorem State.revokes_write1 (s : State) (rid : Nat) (w : Way) (off : Nat) (data : Bytes) : (s.write1 rid w off data).home.revokes = s.home.revokes := by
  unfold State.write1
  simp [apply_ite (fun t : State => t.home.revokes), State.revokes_foldl]
  (repeat' split) <;> simp [apply_ite (fun t : State => t.home.revokes), State.revokes_foldl]

@[simp] theorem State.revokes_writePieces (s : State) (rid : Nat) (w : Way) (data : Bytes) (off : Nat) (ps : List (Nat × Nat)) :
    (s.writePieces rid w data off ps).home.revokes = s.home.revokes := by
  induction ps generalizing s with
  | nil => rfl
  | cons p ps ih => simp [State.writePieces, ih]

@[simp] theorem State.revokes_writeRange (s : State) (rid : Nat) (w : Way) (off : Nat) (data : Bytes) : (s.writeRange rid w off data).home.revokes = s.home.revokes := by
  simp [State.writeRange]

@[simp] theorem State.revokes_poisonLine (s : State) (rid : Nat) (w : Way) (off : Nat) : (s.poisonLine rid w off).home.revokes = s.home.revokes := by
  unfold State.poisonLine
  simp [apply_ite (fun t : State => t.home.revokes), State.revokes_foldl]
  (repeat' split) <;> simp [apply_ite (fun t : State => t.home.revokes), State.revokes_foldl]

@[simp] theorem State.revokes_setUnit (s : State) (hw : Nat) (u : UnitRec) : (s.setUnit hw u).home.revokes = s.home.revokes := by
  rfl

@[simp] theorem State.revokes_healthCount (s : State) (hw : Nat) (cls : Nat) : (s.healthCount hw cls).home.revokes = s.home.revokes := by
  unfold State.healthCount
  (repeat' split) <;> simp

@[simp] theorem State.revokes_quarantineWatch (s : State) (hw : Nat) (cls : Nat) : (s.quarantineWatch hw cls).home.revokes = s.home.revokes := by
  unfold State.quarantineWatch
  split <;> simp

@[simp] theorem State.revokes_error (s : State) (n : ErrorNote) : (s.error n).home.revokes = s.home.revokes := by
  simp [State.error, apply_ite (fun t : State => t.home.revokes), State.revokes_foldl]

@[simp] theorem State.revokes_setLine (s : State) (rid : Nat) (ln : Nat) (l : Line) : (s.setLine rid ln l).home.revokes = s.home.revokes := by
  rfl

@[simp] theorem State.revokes_freeLine (s : State) (rid : Nat) (ln : Nat) : (s.freeLine rid ln).home.revokes = s.home.revokes := by
  unfold State.freeLine
  (repeat' split) <;> simp 

@[simp] theorem State.revokes_tidyLine (s : State) (rid : Nat) (ln : Nat) : (s.tidyLine rid ln).home.revokes = s.home.revokes := by
  unfold State.tidyLine
  (repeat' split) <;> simp 

@[simp] theorem State.revokes_served (s : State) (rid : Nat) (ln : Nat) (eid : Nat) : (s.served rid ln eid).home.revokes = s.home.revokes := by
  unfold State.served
  (repeat' split) <;> simp

@[simp] theorem State.revokes_claim (s : State) (cmd : Instr) : (s.claim cmd).home.revokes = s.home.revokes := by
  simp [State.claim, apply_ite (fun t : State => t.home.revokes), State.revokes_foldl]

@[simp] theorem State.revokes_takeUp (s : State) (a : Again) : (s.takeUp a).home.revokes = s.home.revokes := by
  unfold State.takeUp
  (repeat' split) <;> simp [apply_ite (fun t : State => t.home.revokes), State.revokes_foldl]

@[simp] theorem State.revokes_issueTxn (s : State) (x : Txn) : (s.issueTxn x).home.revokes = s.home.revokes := by
  unfold State.issueTxn
  simp [apply_ite (fun t : State => t.home.revokes), State.revokes_foldl]
  (repeat' split) <;> simp [apply_ite (fun t : State => t.home.revokes), State.revokes_foldl]

@[simp] theorem State.revokes_sendTxn (s : State) (what : TxnUse) (ctx : Nat) (eid : Nat) (op : Nat) (key : Nat) (off : Nat) (ckey : Nat) (data : Bytes) (idem : Bool) : (s.sendTxn what ctx eid op key off ckey data idem).home.revokes = s.home.revokes := by
  simp [State.sendTxn]

@[simp] theorem State.revokes_sendLender (s : State) (what : TxnUse) (e : Extent) (off : Nat) (n : Nat) (data : Option Bytes) : (s.sendLender what e off n data).home.revokes = s.home.revokes := by
  unfold State.sendLender
  (repeat' split) <;> simp [apply_ite (fun t : State => t.home.revokes), State.revokes_foldl]

@[simp] theorem State.revokes_fetchTL (s : State) (ref : PageRef) (off : Nat) (n : Nat) : (s.fetchTL ref off n).home.revokes = s.home.revokes := by
  unfold State.fetchTL
  (repeat' split) <;> simp [apply_ite (fun t : State => t.home.revokes), State.revokes_foldl]

@[simp] theorem State.revokes_fetchT2 (s : State) (ref : PageRef) : (s.fetchT2 ref).home.revokes = s.home.revokes := by
  unfold State.fetchT2
  (repeat' split) <;> simp

@[simp] theorem State.revokes_readEvent (s : State) (ref : PageRef) (n : Nat) : (s.readEvent ref n).home.revokes = s.home.revokes := by
  unfold State.readEvent
  (repeat' split) <;> simp

@[simp] theorem State.revokes_readDone (s : State) (port : Bool) (rid : Nat) (v : View) (off n : Nat) : (s.readDone port rid v off n).home.revokes = s.home.revokes := by
  unfold State.readDone
  dsimp only
  rw [State.revokes_touchRange, State.revokes_foldl]
  intros
  (repeat' split) <;> simp

@[simp] theorem State.revokes_lineToxic (s : State) (rid : Nat) (ln : Nat) : (s.lineToxic rid ln).home.revokes = s.home.revokes := by
  simp [State.lineToxic]

@[simp] theorem State.revokes_grantLine (s : State) (rid : Nat) (ln : Nat) (agent : Nat) (st : LineState) : (s.grantLine rid ln agent st).home.revokes = s.home.revokes := by
  unfold State.grantLine
  simp [apply_ite (fun t : State => t.home.revokes), State.revokes_foldl]
  (repeat' split) <;> simp [apply_ite (fun t : State => t.home.revokes), State.revokes_foldl]

@[simp] theorem State.revokes_lineStable (s : State) (rid : Nat) (ln : Nat) : (s.lineStable rid ln).home.revokes = s.home.revokes := by
  rfl

@[simp] theorem State.revokes_again (s : State) (a : Again) (more : List Again) : (s.again a more).home.revokes = s.home.revokes := by
  simp [State.again]

@[simp] theorem State.revokes_mapRefs (s : State) (f : PageRef → TierPage → TierPage) : (s.mapRefs f).home.revokes = s.home.revokes := by
  rfl

@[simp] theorem State.revokes_mapPages (s : State) (f : TierPage → TierPage) : (s.mapPages f).home.revokes = s.home.revokes := by
  rfl

@[simp] theorem State.revokes_dropTl (s : State) (ext : Nat) : (s.dropTl ext).home.revokes = s.home.revokes := by
  rfl


/-! ### What settling leaves of the sweep and of the cores -/

theorem State.sweepLeft_foldl {α : Type} {f : State → α → State} (h : ∀ s a, (f s a).rope.sweepLeft = s.rope.sweepLeft) (l : List α) (s : State) : (l.foldl f s).rope.sweepLeft = s.rope.sweepLeft := by
  induction l generalizing s with
  | nil => rfl
  | cons a l ih => rw [List.foldl_cons, ih, h]

@[simp] theorem State.sweepLeft_emit (s : State) (o : Out) : (s.emit o).rope.sweepLeft = s.rope.sweepLeft := by
  rfl

@[simp] theorem State.sweepLeft_setFnWin (s : State) (port : Nat) (fn : Nat) (w : Window) : (s.setFnWin port fn w).rope.sweepLeft = s.rope.sweepLeft := by
  rfl

@[simp] theorem State.sweepLeft_event (s : State) (hw : Nat) (idx : Nat) (n : Nat) (ctx : Option Nat) : (s.event hw idx n ctx).rope.sweepLeft = s.rope.sweepLeft := by
  rfl

@[simp] theorem State.sweepLeft_release (s : State) (f : HoldWhy → Bool) : (s.release f).rope.sweepLeft = s.rope.sweepLeft := by
  rfl

@[simp] theorem State.sweepLeft_setRegion (s : State) (rid : Nat) (r : Region) : (s.setRegion rid r).rope.sweepLeft = s.rope.sweepLeft := by
  rfl

@[simp] theorem State.sweepLeft_commit (s : State) : (s.commit).rope.sweepLeft = s.rope.sweepLeft := by
  rfl

@[simp] theorem State.sweepLeft_vector (s : State) (port : Nat) (fn : Nat) (v : Nat) : (s.vector port fn v).rope.sweepLeft = s.rope.sweepLeft := by
  simp [State.vector, apply_ite (fun t : State => t.rope.sweepLeft), State.sweepLeft_foldl]

@[simp] theorem State.sweepLeft_complete (s : State) (q : LmfReq) (st : Status) (data : Bytes) : (s.complete q st data).rope.sweepLeft = s.rope.sweepLeft := by
  rfl

@[simp] theorem State.sweepLeft_toAgent (s : State) (a : Nat) (op : Nat) (rid : Nat) (ln : Nat) (flag : Nat) (data : Bytes) : (s.toAgent a op rid ln flag data).rope.sweepLeft = s.rope.sweepLeft := by
  rfl

@[simp] theorem State.sweepLeft_setLine (s : State) (rid : Nat) (ln : Nat) (l : Line) : (s.setLine rid ln l).rope.sweepLeft = s.rope.sweepLeft := by
  rfl

@[simp] theorem State.sweepLeft_freeLine (s : State) (rid : Nat) (ln : Nat) : (s.freeLine rid ln).rope.sweepLeft = s.rope.sweepLeft := by
  unfold State.freeLine
  (repeat' split) <;> simp 

@[simp] theorem State.sweepLeft_askLine (s : State) (rid : Nat) (ln : Nat) (req : LineReq) : (s.askLine rid ln req).rope.sweepLeft = s.rope.sweepLeft := by
  unfold State.askLine
  (repeat' split) <;> simp [apply_ite (fun t : State => t.rope.sweepLeft), State.sweepLeft_foldl]

@[simp] theorem State.sweepLeft_tidyLine (s : State) (rid : Nat) (ln : Nat) : (s.tidyLine rid ln).rope.sweepLeft = s.rope.sweepLeft := by
  unfold State.tidyLine
  (repeat' split) <;> simp 

@[simp] theorem State.sweepLeft_served (s : State) (rid : Nat) (ln : Nat) (eid : Nat) : (s.served rid ln eid).rope.sweepLeft = s.rope.sweepLeft := by
  unfold State.served
  (repeat' split) <;> simp

@[simp] theorem State.sweepLeft_claim (s : State) (cmd : Instr) : (s.claim cmd).rope.sweepLeft = s.rope.sweepLeft := by
  simp [State.claim, apply_ite (fun t : State => t.rope.sweepLeft), State.sweepLeft_foldl]

@[simp] theorem State.sweepLeft_takeUp (s : State) (a : Again) : (s.takeUp a).rope.sweepLeft = s.rope.sweepLeft := by
  unfold State.takeUp
  (repeat' split) <;> simp [apply_ite (fun t : State => t.rope.sweepLeft), State.sweepLeft_foldl]

@[simp] theorem State.sweepLeft_setChannel (s : State) (n : Nat) (c : Channel) : (s.setChannel n c).rope.sweepLeft = s.rope.sweepLeft := by
  rfl

@[simp] theorem State.sweepLeft_respondFn (s : State) (p : Nat) (f : Nat) (ws : List Word) : (s.respondFn p f ws).rope.sweepLeft = s.rope.sweepLeft := by
  simp [State.respondFn]

@[simp] theorem State.sweepLeft_channelDone (s : State) (c : Nat) (r : BciReq) (ws : List Word) : (s.channelDone c r ws).rope.sweepLeft = s.rope.sweepLeft := by
  rfl

@[simp] theorem State.sweepLeft_respond (s : State) (r : BciReq) (st : Status) (resp : List Word) : (s.respond r st resp).rope.sweepLeft = s.rope.sweepLeft := by
  unfold State.respond
  (repeat' split) <;> simp

@[simp] theorem State.sweepLeft_giveKey (s : State) (eid : Nat) (rid : Nat) : (s.giveKey eid rid).rope.sweepLeft = s.rope.sweepLeft := by
  unfold State.giveKey
  (repeat' split) <;> simp

@[simp] theorem State.sweepLeft_giveKeyAll (s : State) (rid : Nat) : (s.giveKeyAll rid).rope.sweepLeft = s.rope.sweepLeft := by
  unfold State.giveKeyAll
  (repeat' split) <;> simp [apply_ite (fun t : State => t.rope.sweepLeft), State.sweepLeft_foldl]

@[simp] theorem State.sweepLeft_revokeLines (s : State) (w : RevokeWait) : (s.revokeLines w).rope.sweepLeft = s.rope.sweepLeft := by
  unfold State.revokeLines
  split
  · rfl
  · refine State.sweepLeft_foldl (fun s e => ?_) _ _
    dsimp only
    (repeat' split) <;> simp

@[simp] theorem State.sweepLeft_revokeStep (s : State) (w : RevokeWait) : (s.revokeStep w).rope.sweepLeft = s.rope.sweepLeft := by
  unfold State.revokeStep
  (repeat' split) <;> simp [apply_ite (fun t : State => t.rope.sweepLeft), State.sweepLeft_foldl]

@[simp] theorem State.sweepLeft_settle (s : State) : (s.settle).rope.sweepLeft = s.rope.sweepLeft := by
  simp [State.settle, apply_ite (fun t : State => t.rope.sweepLeft), State.sweepLeft_foldl]

@[simp] theorem State.sweepLeft_again (s : State) (a : Again) (more : List Again) : (s.again a more).rope.sweepLeft = s.rope.sweepLeft := by
  simp [State.again]


@[simp] theorem State.cores_setFnWin (s : State) (port : Nat) (fn : Nat) (w : Window) : (s.setFnWin port fn w).cores = s.cores := by
  rfl

@[simp] theorem State.cores_setRegion (s : State) (rid : Nat) (r : Region) : (s.setRegion rid r).cores = s.cores := by
  rfl

@[simp] theorem State.cores_poisonLine (s : State) (rid : Nat) (w : Way) (off : Nat) : (s.poisonLine rid w off).cores = s.cores := by
  unfold State.poisonLine
  simp [apply_ite State.cores, State.cores_foldl]
  (repeat' split) <;> simp [apply_ite State.cores, State.cores_foldl]

@[simp] theorem State.cores_vector (s : State) (port : Nat) (fn : Nat) (v : Nat) : (s.vector port fn v).cores = s.cores := by
  simp [State.vector, apply_ite State.cores, State.cores_foldl]

@[simp] theorem State.cores_rsFn (s : State) (port : Nat) (fn : Nat) : (s.rsFn port fn).cores = s.cores := by
  rfl

@[simp] theorem State.cores_complete (s : State) (q : LmfReq) (st : Status) (data : Bytes) : (s.complete q st data).cores = s.cores := by
  rfl

@[simp] theorem State.cores_logPut (s : State) (k : Nat) (e : LogEntry) : (s.logPut k e).cores = s.cores := by
  rfl

@[simp] theorem State.cores_logDone (s : State) (k : Nat) (lseq : Nat) (st : Status) (value : Nat) : (s.logDone k lseq st value).cores = s.cores := by
  rfl

@[simp] theorem State.cores_selfLog (s : State) (home : Nat) (ctx : Nat) (st : Status) (value : Nat) : (s.selfLog home ctx st value).1.cores = s.cores := by
  rfl

@[simp] theorem State.cores_toAgent (s : State) (a : Nat) (op : Nat) (rid : Nat) (ln : Nat) (flag : Nat) (data : Bytes) : (s.toAgent a op rid ln flag data).cores = s.cores := by
  rfl

@[simp] theorem State.cores_askLine (s : State) (rid : Nat) (ln : Nat) (req : LineReq) : (s.askLine rid ln req).cores = s.cores := by
  unfold State.askLine
  (repeat' split) <;> simp [apply_ite State.cores, State.cores_foldl]

@[simp] theorem State.cores_forsake (s : State) (cmd : Instr) : (s.forsake cmd).cores = s.cores := by
  simp [State.forsake]

@[simp] theorem State.cores_setChannel (s : State) (n : Nat) (c : Channel) : (s.setChannel n c).cores = s.cores := by
  rfl

@[simp] theorem State.cores_respondFn (s : State) (p : Nat) (f : Nat) (ws : List Word) : (s.respondFn p f ws).cores = s.cores := by
  simp [State.respondFn]

@[simp] theorem State.cores_channelDone (s : State) (c : Nat) (r : BciReq) (ws : List Word) : (s.channelDone c r ws).cores = s.cores := by
  rfl

@[simp] theorem State.cores_respond (s : State) (r : BciReq) (st : Status) (resp : List Word) : (s.respond r st resp).cores = s.cores := by
  unfold State.respond
  (repeat' split) <;> simp

@[simp] theorem State.cores_giveAnswer (s : State) (st : Status) (a : Answer) : (s.giveAnswer st a).cores = s.cores := by
  cases a <;> simp [State.giveAnswer]

@[simp] theorem State.cores_answerAfter (s : State) (rid : Nat) (off : Nat) (data : Bytes) (log : Option LogNote) (st : Status) (a : Answer) : (s.answerAfter rid off data log st a).cores = s.cores := by
  unfold State.answerAfter
  (repeat' split) <;> simp 

@[simp] theorem State.cores_turnAway (s : State) (c : Instr) (eid : Nat) (ctx : Nat) (st : Status) (a : Answer) : (s.turnAway c eid ctx st a).cores = s.cores := by
  unfold State.turnAway
  simp [apply_ite State.cores, State.cores_foldl]
  (repeat' split) <;> simp [apply_ite State.cores, State.cores_foldl]

@[simp] theorem State.cores_giveKey (s : State) (eid : Nat) (rid : Nat) : (s.giveKey eid rid).cores = s.cores := by
  unfold State.giveKey
  (repeat' split) <;> simp

@[simp] theorem State.cores_giveKeyAll (s : State) (rid : Nat) : (s.giveKeyAll rid).cores = s.cores := by
  unfold State.giveKeyAll
  (repeat' split) <;> simp [apply_ite State.cores, State.cores_foldl]

@[simp] theorem State.cores_dropDeadline (s : State) (id : Nat) : (s.dropDeadline id).cores = s.cores := by
  rfl

@[simp] theorem State.cores_lineWrite (s : State) (rid : Nat) (ln : Nat) (data : Bytes) : (s.lineWrite rid ln data).cores = s.cores := by
  simp [State.lineWrite]

@[simp] theorem State.cores_lineToxic (s : State) (rid : Nat) (ln : Nat) : (s.lineToxic rid ln).cores = s.cores := by
  simp [State.lineToxic]

@[simp] theorem State.cores_lineClean (s : State) (rid : Nat) (ln : Nat) : (s.lineClean rid ln).cores = s.cores := by
  unfold State.lineClean
  split <;> simp

@[simp] theorem State.cores_cohReply (s : State) (q : LmfReq) (op : Nat) (flag : Nat) (data : Bytes) : (s.cohReply q op flag data).cores = s.cores := by
  rfl

@[simp] theorem State.cores_grantLine (s : State) (rid : Nat) (ln : Nat) (agent : Nat) (st : LineState) : (s.grantLine rid ln agent st).cores = s.cores := by
  unfold State.grantLine
  simp [apply_ite State.cores, State.cores_foldl]
  (repeat' split) <;> simp [apply_ite State.cores, State.cores_foldl]

@[simp] theorem State.cores_doWrUnc (s : State) (rid : Nat) (ln : Nat) (q : LmfReq) (data : Bytes) (mask : BitVec 64) : (s.doWrUnc rid ln q data mask).cores = s.cores := by
  simp [State.doWrUnc]

@[simp] theorem State.cores_doRdUnc (s : State) (rid : Nat) (q : LmfReq) : (s.doRdUnc rid q).cores = s.cores := by
  unfold State.doRdUnc
  split <;> simp

@[simp] theorem State.cores_grantData (s : State) (rid : Nat) (ln : Nat) (agent : Nat) (st : LineState) (q : LmfReq) : (s.grantData rid ln agent st q).cores = s.cores := by
  simp [State.grantData]

@[simp] theorem State.cores_lineStable (s : State) (rid : Nat) (ln : Nat) : (s.lineStable rid ln).cores = s.cores := by
  rfl

@[simp] theorem State.cores_servePending (s : State) (rid : Nat) (ln : Nat) : (s.servePending rid ln).cores = s.cores := by
  unfold State.servePending
  simp [apply_ite State.cores, State.cores_foldl]
  (repeat' split) <;> simp [apply_ite State.cores, State.cores_foldl]

/-- The end of a held request of a mailbox or of another endpoint touches no core. -/
theorem State.cores_endCmd_request {c : Instr} (h : ((bciOf c).isSome || (reqOf c).isSome) = true) (s : State) (eid ctx : Nat) (st : Status) : (s.endCmd c eid ctx st).cores = s.cores := by
  unfold State.endCmd
  split
  case h_6 =>
    split
    · exact State.cores_turnAway ..
    · split
      · exact State.cores_turnAway ..
      · simp_all
  all_goals simp [bciOf, reqOf] at h

theorem State.cores_endHeld_request {h : Held} (hc : ((bciOf h.cmd).isSome || (reqOf h.cmd).isSome) = true) (s : State) (st : Status) : (s.endHeld h st).cores = s.cores := by
  unfold State.endHeld
  rw [State.cores_endCmd_request hc]
  split <;> simp

@[simp] theorem State.cores_poisonPending (s : State) (rid ln : Nat) (req : LineReq) : (s.poisonPending rid ln req).cores = s.cores := by
  unfold State.poisonPending
  split
  case h_9 c =>
    split
    · next hc =>
      unfold State.endHolds
      have hall : ∀ h ∈ s.home.held.filter (fun h => decide (h.cmd = c) && decide (h.why = .line rid ln)), h.cmd = c := fun h hh => by
        have := (List.mem_filter.1 hh).2
        simp only [Bool.and_eq_true, decide_eq_true_eq] at this
        exact this.1
      generalize s.home.held.filter _ = hs at hall
      induction hs generalizing s with
      | nil => rfl
      | cons h hs ih =>
        rw [List.foldl_cons, ih, State.cores_endHeld_request (by rw [hall h List.mem_cons_self]; exact hc)]
        exact fun x hx => hall x (List.mem_cons_of_mem _ hx)
    · rfl
  all_goals rfl

@[simp] theorem State.cores_settleLine (s : State) (rid : Nat) (ln : Nat) : (s.settleLine rid ln).cores = s.cores := by
  unfold State.settleLine
  simp [apply_ite State.cores, State.cores_foldl]
  (repeat' split) <;> simp [apply_ite State.cores, State.cores_foldl]

@[simp] theorem State.cores_revokeLines (s : State) (w : RevokeWait) : (s.revokeLines w).cores = s.cores := by
  unfold State.revokeLines
  split
  · rfl
  · refine State.cores_foldl (fun s e => ?_) _ _
    dsimp only
    (repeat' split) <;> simp

@[simp] theorem State.cores_revokeStep (s : State) (w : RevokeWait) : (s.revokeStep w).cores = s.cores := by
  unfold State.revokeStep
  (repeat' split) <;> simp [apply_ite State.cores, State.cores_foldl]

@[simp] theorem State.cores_settle (s : State) : (s.settle).cores = s.cores := by
  simp [State.settle, apply_ite State.cores, State.cores_foldl]




/-! ### An answer to a snoop (R289, R291) -/

/-- Where no revoke waits, there is nothing to settle. -/
theorem State.settle_of_revokes {s : State} (h : s.home.revokes = []) : s.settle = s := by
  rw [State.settle, h]
  rfl

/-- Without a fenced agent, settling a line that waits for answers stores it again. -/
theorem State.settleLine_snooped {s : State} {rid ln : Nat} {l : Line} (hf : s.rope.fencedAgents = []) (h : s.line? rid ln = some l)
    (hsnoop : (l.st = .invWait ∧ l.snoop = 50 ∧ l.awaited ≠ []) ∨ (l.st = .fwdWait ∧ l.snoop ≠ 50)) : s.settleLine rid ln = s.setLine rid ln l := by
  have hidx : s.fencedIdx = [] := by simp [State.fencedIdx, hf]
  rw [State.settleLine, h]
  dsimp only
  rw [hidx, hf]
  rcases hsnoop with ⟨hst, h50, hne⟩ | ⟨hst, h50⟩
  · simp [hst, h50, hne]
    simp [hst.symm, h50.symm]
  · simp [hst, h50]
    simp [hst.symm]

section Snoop

variable {s : State} {q : LmfReq} {a : Nat} {l : Line} (hans : s.answersSnoop q a = true) (hline : s.line? (s.ridOf q.dstEid q.key) (q.offset / 64) = some l)

include hans hline

/-- The awaited agent's answer runs on the line, and nothing else is settled. -/
theorem snoopServe_answers (hsnoop : (l.st = .invWait ∧ l.snoop = 50) ∨ (l.st = .fwdWait ∧ l.snoop ≠ 50)) (body : Nat → Nat → Line → State → State) :
    snoopServe q a s body = .next (body (s.ridOf q.dstEid q.key) (q.offset / 64) l (s.setLine (s.ridOf q.dstEid q.key) (q.offset / 64) l)).settle := by
  simp only [State.answersSnoop, Bool.and_eq_true, decide_eq_true_eq] at hans
  obtain ⟨⟨⟨⟨⟨⟨hruns, hsourced⟩, hcur⟩, hagent⟩, hf⟩, hrevokes⟩, hawaited⟩ := hans
  rw [State.lineD_of_line hline] at hawaited
  have hsettle := State.settleLine_snooped hf hline (hsnoop.imp_left fun h => ⟨h.1, h.2, List.ne_nil_of_mem hawaited⟩)
  unfold snoopServe
  rw [whenUp_of_runs hruns]
  dsimp only
  rw [hsourced, hcur]
  dsimp only
  rw [hsettle, State.lineD_setLine]
  refine if_pos ?_
  rw [Bool.and_eq_true, decide_eq_true_eq]
  exact ⟨hagent, hawaited⟩

omit hline in
theorem State.revokes_of_answersSnoop : s.home.revokes = [] := by
  simp only [State.answersSnoop, Bool.and_eq_true, decide_eq_true_eq] at hans
  exact hans.1.2

end Snoop

/-- A line that is freed without reservations is idle. -/
theorem State.lineD_freeLine {s : State} {rid ln : Nat} {l : Line} (hline : s.line? rid ln = some l) (hresv : l.resv = []) : (s.freeLine rid ln).lineD rid ln = Line.idle := by
  rw [State.lineD, State.freeLine_unreserved hline hresv, Option.getD_none]

section Pending

variable {s : State} {rid ln : Nat} {l : Line} (hline : s.line? rid ln = some l) (hresv : l.resv = []) (hpoison : s.linePoisoned rid ln = false)
include hline hresv hpoison

/-- The request for ownership that waited is granted M with the line's data (R291). -/
theorem State.servePending_own {b : Nat} {x : LmfReq} (hreq : l.req = .own b x) :
    let t := s.servePending rid ln
    (∃ y, t.line? rid ln = some y ∧ y.st = .m ∧ y.owner = b) ∧ .coh x.srcEid 66 x.tag x.gen x.key x.offset 0 (s.lineData rid ln) ∈ t.out ∧ t.home.revokes = s.home.revokes := by
  have hserve : s.servePending rid ln = ((s.freeLine rid ln).grantData rid ln b .m x).lineStable rid ln := by
    rw [State.servePending, State.lineD_of_line hline]
    simp only [hreq, hpoison]
    rfl
  have hgrant := State.grantData_granted (s := s.freeLine rid ln) (by rw [State.lineD_freeLine hline hresv]; rfl) b .m x
  rw [State.lineData_of_home (s := s) (by simp)] at hgrant
  intro t
  rw [show t = _ from hserve]
  exact ⟨hgrant.1, hgrant.2, by simp [State.lineStable, State.grantData]⟩

/-- The uncached read that waited is answered, and the line is free (R291). -/
theorem State.servePending_rdUnc {x : LmfReq} {rg : Region} (hreq : l.req = .rdUnc x) (hrg : s.region? rid = some rg) :
    let t := s.servePending rid ln
    t.line? rid ln = none ∧ .coh x.srcEid 68 x.tag x.gen x.key x.offset 0 (s.readRange rg .pub x.offset x.len) ∈ t.out ∧ t.home.revokes = s.home.revokes := by
  have hserve : s.servePending rid ln = ((s.freeLine rid ln).doRdUnc rid x).lineStable rid ln := by
    rw [State.servePending, State.lineD_of_line hline]
    simp only [hreq, hpoison, State.served_of_unreserved (s := s.freeLine rid ln) (by rw [State.lineD_freeLine hline hresv]; rfl)]
    rfl
  have hhome : (s.freeLine rid ln).home = s.home := by simp
  have hread : (s.freeLine rid ln).readRange rg .pub x.offset x.len = s.readRange rg .pub x.offset x.len := by
    simp only [State.readRange, State.viewRef, State.page?, State.handle?, hhome]
  have hdo : (s.freeLine rid ln).doRdUnc rid x = ((s.freeLine rid ln).readDone true rid .pub x.offset x.len).cohReply x 68 0 (s.readRange rg .pub x.offset x.len) := by
    rw [State.doRdUnc, State.region?, hhome, show Tab.get? s.home.regions rid = some rg from hrg, ← hread]
  intro t
  rw [show t = _ from hserve, hdo]
  refine ⟨?_, State.mem_cohReply .., by simp [State.lineStable]⟩
  rw [State.line?_of_rope (s := s.freeLine rid ln) (by simp)]
  exact State.freeLine_unreserved hline hresv

end Pending

section Answers

variable {s : State} {q : LmfReq} {a : Nat} {l : Line} (hline : s.line? (s.ridOf q.dstEid q.key) (q.offset / 64) = some l) (hresv : l.resv = [])
  (hans : s.answersSnoop q a = true)
include hline hresv hans

theorem ackInv_last (hpoison : s.linePoisoned (s.ridOf q.dstEid q.key) (q.offset / 64) = false) {b : Nat} {x : LmfReq} (hst : l.st = .invWait) (h50 : l.snoop = 50)
    (hawaited : l.awaited = [a]) (hreq : l.req = .own b x) : Does (.ackInv q a) s fun t =>
      (∃ y, t.line? (s.ridOf q.dstEid q.key) (q.offset / 64) = some y ∧ y.st = .m ∧ y.owner = b)
        ∧ .coh x.srcEid 66 x.tag x.gen x.key x.offset 0 (s.lineData (s.ridOf q.dstEid q.key) (q.offset / 64)) ∈ t.out := by
  have hexec : exec (.ackInv q a) s = execAckInv q a s := rfl
  rw [execAckInv, snoopServe_answers hans hline (.inl ⟨hst, h50⟩)] at hexec
  dsimp only at hexec
  have hleft : l.awaited.filter (fun b => decide (b ≠ a)) = [] := by simp [hawaited]
  rw [if_neg (not_not_intro h50), hleft, if_pos rfl] at hexec
  generalize s.ridOf q.dstEid q.key = rid at *
  generalize hu : (s.setLine rid (q.offset / 64) l).setLine rid (q.offset / 64) { l with awaited := [], sharers := l.sharers.filter (fun b => decide (b ≠ a)) } = u at hexec
  have hhome : u.home = s.home := by rw [← hu]; rfl
  have hpending := State.servePending_own (s := u) (rid := rid) (ln := q.offset / 64) (by rw [← hu]; exact State.line?_setLine ..) (by exact hresv)
    ((State.linePoisoned_of_home hhome ..).trans hpoison) (by exact hreq)
  rw [State.lineData_of_home hhome] at hpending
  obtain ⟨hown, hsent, hrevokes⟩ := hpending
  rw [State.settle_of_revokes (by rw [hrevokes, hhome]; exact State.revokes_of_answersSnoop hans)] at hexec
  exact ⟨_, hexec, hown, hsent⟩

/-- The owner has forwarded a shared line: both share it. -/
theorem rspFwd_shared {b : Nat} {x : LmfReq} (hst : l.st = .fwdWait) (h48 : l.snoop = 48) (hreq : l.req = .shared b x) (hab : a ≠ b) : Does (.rspFwd q a false false []) s fun t =>
      ∃ y, t.line? (s.ridOf q.dstEid q.key) (q.offset / 64) = some y ∧ y.st = .s ∧ y.sharers = [a, b] := by
  have hexec : exec (.rspFwd q a false false []) s = execRspFwd q a false false [] s := rfl
  rw [execRspFwd, snoopServe_answers hans hline (.inr ⟨hst, by simp [h48]⟩)] at hexec
  dsimp only at hexec
  rw [if_pos h48, hreq] at hexec
  simp only [State.lineReturn, Bool.false_eq_true, if_false] at hexec
  generalize s.ridOf q.dstEid q.key = rid at *
  generalize hu : (s.setLine rid (q.offset / 64) l).setLine rid (q.offset / 64) _ = u at hexec
  have hgrant := State.line?_grantLine u rid (q.offset / 64) b .s
  have hl : u.lineD rid (q.offset / 64) = { l with st := .s, sharers := [a], owner := 0, awaited := [], req := .none, snoop := 0, armed := 0, resvSince := s.now } := by
    rw [← hu, State.lineD_setLine]
    rfl
  have hserved : (u.grantLine rid (q.offset / 64) b .s).served rid (q.offset / 64) x.srcEid = u.grantLine rid (q.offset / 64) b .s :=
    State.served_of_unreserved (by rw [State.lineD_of_line hgrant, hl]; exact hresv) _
  rw [hserved, State.settle_of_revokes (by rw [← hu]; simpa [State.lineStable] using State.revokes_of_answersSnoop hans)] at hexec
  refine ⟨_, hexec, _, hgrant, rfl, ?_⟩
  rw [hl]
  simp [Line.grantedTo, Ne.symm hab]

/-- The owner has forwarded a line with its ownership. -/
theorem rspFwd_own {b : Nat} {x : LmfReq} (hst : l.st = .fwdWait) (h49 : l.snoop = 49) (hreq : l.req = .own b x) : Does (.rspFwd q a false false []) s fun t =>
      ∃ y, t.line? (s.ridOf q.dstEid q.key) (q.offset / 64) = some y ∧ y.st = .m ∧ y.owner = b := by
  have hexec : exec (.rspFwd q a false false []) s = execRspFwd q a false false [] s := rfl
  rw [execRspFwd, snoopServe_answers hans hline (.inr ⟨hst, by simp [h49]⟩)] at hexec
  dsimp only at hexec
  rw [if_neg (by simp [h49]), if_pos h49, hreq] at hexec
  simp only [Bool.false_eq_true, if_false] at hexec
  generalize s.ridOf q.dstEid q.key = rid at *
  generalize hu : s.setLine rid (q.offset / 64) l = u at hexec
  have hgrant := State.line?_grantLine u rid (q.offset / 64) b .m
  have hl : u.lineD rid (q.offset / 64) = l := by rw [← hu, State.lineD_setLine]
  have hserved : (u.grantLine rid (q.offset / 64) b .m).served rid (q.offset / 64) x.srcEid = u.grantLine rid (q.offset / 64) b .m :=
    State.served_of_unreserved (by rw [State.lineD_of_line hgrant, hl]; exact hresv) _
  rw [hserved, State.settle_of_revokes (by rw [← hu]; simpa [State.lineStable] using State.revokes_of_answersSnoop hans)] at hexec
  exact ⟨_, hexec, _, hgrant, rfl, rfl⟩

theorem rspFlush_clean (hpoison : s.linePoisoned (s.ridOf q.dstEid q.key) (q.offset / 64) = false) {x : LmfReq} {rg : Region} (hst : l.st = .fwdWait) (h51 : l.snoop = 51)
    (hreq : l.req = .rdUnc x) (hrg : s.region? (s.ridOf q.dstEid q.key) = some rg) : Does (.rspFlush q a false false []) s fun t =>
      t.line? (s.ridOf q.dstEid q.key) (q.offset / 64) = none ∧ .coh x.srcEid 68 x.tag x.gen x.key x.offset 0 (s.readRange rg .pub x.offset x.len) ∈ t.out := by
  have hexec : exec (.rspFlush q a false false []) s = execRspFlush q a false false [] s := rfl
  rw [execRspFlush, snoopServe_answers hans hline (.inr ⟨hst, by simp [h51]⟩)] at hexec
  rw [if_pos h51] at hexec
  simp only [State.lineReturn, Bool.false_eq_true, if_false] at hexec
  generalize s.ridOf q.dstEid q.key = rid at *
  generalize hu : (s.setLine rid (q.offset / 64) l).setLine rid (q.offset / 64) { l with awaited := [] } = u at hexec
  have hhome : u.home = s.home := by rw [← hu]; rfl
  have hpending := State.servePending_rdUnc (s := u) (rid := rid) (ln := q.offset / 64) (by rw [← hu]; exact State.line?_setLine ..) (by exact hresv)
    ((State.linePoisoned_of_home hhome ..).trans hpoison) (by exact hreq) (by rw [State.region?, hhome]; exact hrg)
  have hread : u.readRange rg .pub x.offset x.len = s.readRange rg .pub x.offset x.len := by simp only [State.readRange, State.viewRef, State.page?, State.handle?, hhome]
  rw [hread] at hpending
  obtain ⟨hfree, hsent, hrevokes⟩ := hpending
  rw [State.settle_of_revokes (by rw [hrevokes, hhome]; exact State.revokes_of_answersSnoop hans)] at hexec
  exact ⟨_, hexec, hfree, hsent⟩

omit hresv in
theorem rspNotHeld_waits (hst : l.st = .fwdWait) (h50 : l.snoop ≠ 50) (hwb : l.wbSeen = false) : Does (.rspNotHeld q a) s fun t =>
      ∃ y, t.line? (s.ridOf q.dstEid q.key) (q.offset / 64) = some y ∧ y.awaited = [] ∧ y.req = l.req := by
  have hexec : exec (.rspNotHeld q a) s = execRspNotHeld q a s := rfl
  rw [execRspNotHeld, snoopServe_answers hans hline (.inr ⟨hst, h50⟩)] at hexec
  dsimp only at hexec
  rw [if_neg h50, hwb, if_neg Bool.false_ne_true, State.settle_of_revokes (by exact State.revokes_of_answersSnoop (s := s) hans)] at hexec
  exact ⟨_, hexec, _, State.line?_setLine .., rfl, rfl⟩

end Answers


/-! ### Recalls and timers (R298, R306, R313) -/

theorem recallDone_last {s : State} {q : LmfReq} {a : Nat} (hruns : s.runs = true) (hsourced : s.sourced q = q) (hcur : s.judge q.srcEid q.srcInc = .current)
    (hagent : s.agentOk a q = true) (hrecall : Tab.get? s.rope.recalls (s.ridOf q.dstEid q.key) = some [a]) : Does (.recallDone q a) s fun t =>
      Tab.get? t.rope.recalls (s.ridOf q.dstEid q.key) = none ∧ t.home.regions = s.home.regions := by
  have hexec : exec (.recallDone q a) s = execRecallDone q a s := rfl
  rw [execRecallDone, whenUp_of_runs hruns] at hexec
  dsimp only at hexec
  rw [hsourced, hcur] at hexec
  dsimp only at hexec
  rw [if_pos hagent, State.recallAnswered, hrecall] at hexec
  dsimp only at hexec
  rw [if_pos (by simp)] at hexec
  exact ⟨_, hexec, Tab.get?_erase_self .., rfl⟩

@[simp] theorem State.lineToxic_rope (s : State) (rid ln : Nat) : (s.lineToxic rid ln).rope = s.rope := by simp [State.lineToxic]

/-- An error of each of a list, and what it leaves. -/
theorem State.errors_keep (l : List Nat) (f : State → Nat → ErrorNote) (s : State) :
    (l.foldl (fun (s : State) a => s.error (f s a)) s).rope = s.rope ∧ (l.foldl (fun (s : State) a => s.error (f s a)) s).home.revokes = s.home.revokes := by
  induction l generalizing s with
  | nil => exact ⟨rfl, rfl⟩
  | cons a l ih =>
    obtain ⟨hrope, hrevokes⟩ := ih (s.error (f s a))
    rw [List.foldl_cons, hrope, hrevokes]
    simp

/-- A line whose owner has not answered within the home's limit, with no request, is freed (R313). -/
theorem homeTimeout_frees {s : State} {idx line : Nat} {rg : Region} (hruns : s.runs = true) (hrg : s.region? idx = some rg) (hdrain : rg.draining = false) (hrevokes : s.home.revokes = [])
    (hst : (s.lineD idx line).st = .fwdWait) (hawaited : (s.lineD idx line).awaited ≠ []) (hresv : (s.lineD idx line).resv = []) (hreq : (s.lineD idx line).req = .none)
    (hlate : (s.lineD idx line).armed + s.rope.timeoutUs * 1000 ≤ s.now) : Does (.homeTimeout idx line) s fun t => t.line? idx line = none := by
  have hexec : exec (.homeTimeout idx line) s = execHomeTimeout idx line s := rfl
  rw [execHomeTimeout, whenUp_of_runs hruns] at hexec
  dsimp only at hexec
  rw [hst, if_pos (by simp [hawaited, hlate]), hrg] at hexec
  dsimp only at hexec
  simp only [hdrain, Bool.false_eq_true, if_false, hreq] at hexec
  have hfree : ((s.lineToxic idx line).freeLine idx line).line? idx line = none := by
    cases hl : s.line? idx line with
    | none => rw [State.lineD, hl] at hst; cases hst
    | some l =>
      rw [State.lineD_of_line hl] at hresv
      exact State.freeLine_unreserved ((State.line?_of_rope (State.lineToxic_rope ..) ..).trans hl) hresv
  generalize hu : ((((((s.lineToxic idx line).freeLine idx line).event (dirUnit line) 4 1 none).poisonPending idx line .none).lineStable idx line).error _) = u at hexec
  have hrope : u.rope = ((s.lineToxic idx line).freeLine idx line).rope := by
    rw [← hu]
    simp [State.poisonPending, State.lineStable]
  have hwaits : u.home.revokes = [] := by
    rw [← hu, ← hrevokes]
    simp [State.poisonPending, State.lineStable]
  obtain ⟨hkeep, hkeep'⟩ := State.errors_keep (s.lineD idx line).awaited
    (fun s a => { ErrorNote.of 8 .poison (anyUnit s.freeCtr) with key := s.keyOf idx, off := line * 64, eid := s.agentEid a }) u
  rw [State.settle_of_revokes (hkeep'.trans hwaits)] at hexec
  exact ⟨_, hexec, (State.line?_of_rope (hkeep.trans hrope) ..).trans hfree⟩

theorem reservationExpiry_passes {s : State} {idx line : Nat} {l : Line} (hruns : s.runs = true) (hline : s.line? idx line = some l) (hst : l.st = .s) (hmore : 2 ≤ l.resv.length)
    (hlate : l.resvSince + 60000 ≤ s.now) : Does (.reservationExpiry idx line) s fun t => t.line? idx line = some { l with resv := l.resv.tail, resvSince := s.now } := by
  have hexec : exec (.reservationExpiry idx line) s = execReservationExpiry idx line s := rfl
  have hne : l.resv ≠ [] := fun h => by simp [h] at hmore
  rw [execReservationExpiry, whenUp_of_runs hruns, hline] at hexec
  dsimp only at hexec
  rw [hst, if_pos (by simp [hne, hlate]), State.tidyLine, State.line?_setLine] at hexec
  dsimp only at hexec
  rw [if_neg (by simp)] at hexec
  exact ⟨_, hexec, (State.line?_setLine ..).trans (by rw [hst])⟩

theorem fenceSweep_ends {s : State} (hruns : s.runs = true) : Does .fenceSweep s fun t => t.rope.sweepLeft = 0 ∧ t.cores = s.cores := by
  have hexec : exec .fenceSweep s = execFenceSweep s := rfl
  rw [execFenceSweep, whenUp_of_runs hruns] at hexec
  refine ⟨_, hexec, ?_, ?_⟩
  · rw [State.sweepLeft_settle]
  · rw [State.cores_settle]
    exact State.cores_foldl (fun s e => State.cores_settleLine s _ _) _ _

/-! ### NACKs and backoff (R301 to R303, R317, R318) -/

/-- The wait of a backoff is between the step of its retry and twice that (R317). -/
theorem nack_backs {s : State} {id draw : Nat} {e : TagEntry} {x : Txn} (hruns : s.runs = true) (htag : Tab.get? s.lmf.tags id = some e) (hlive : e.live = some x)
    (hready : ∀ b ∈ s.lmf.backoffs, b.2.2 ≠ 0) : Does (.nack id draw) s fun t =>
      (∃ y at', Tab.get? t.lmf.backoffs s.nextId = some (y, at') ∧ y.retry = x.retry + 1 ∧ s.now + min (100 * 2 ^ x.retry) 25600 ≤ at'
        ∧ at' ≤ s.now + 2 * min (100 * 2 ^ x.retry) 25600) ∧ t.home = s.home := by
  have hexec : exec (.nack id draw) s = execNack id draw s := rfl
  rw [execNack, whenUp_of_runs hruns, htag] at hexec
  dsimp only at hexec
  rw [hlive] at hexec
  dsimp only at hexec
  have hstep : 100 ≤ min (100 * 2 ^ x.retry) 25600 := le_min (Nat.le_mul_of_pos_right _ (Nat.two_pow_pos _)) (by norm_num)
  generalize hb : min (100 * 2 ^ x.retry) 25600 = b at hstep ⊢
  have hdraw : draw % (b + 1) ≤ b := Nat.lt_succ_iff.1 (Nat.mod_lt _ (Nat.succ_pos b))
  have hoff (u : State) : u.backOff x draw = { u with lmf.backoffs := Tab.set u.lmf.backoffs u.nextId ({ x with retry := x.retry + 1 }, u.now + b + draw % (b + 1)), nextId := u.nextId + 1 } := by
    rw [State.backOff, Nat.add_sub_cancel, hb]
  rw [hoff, State.tagFreed, List.find?_eq_none.2] at hexec
  · exact ⟨_, hexec, ⟨_, _, Tab.get?_set_self .., rfl, Nat.le_add_right .., by show s.now + b + draw % (b + 1) ≤ _; omega⟩, rfl⟩
  · intro w hw
    rcases Tab.mem_set hw with rfl | hw
    · have hpos : s.now + b + draw % (b + 1) ≠ 0 := by omega
      exact fun h => hpos (of_decide_eq_true h)
    · simpa using hready w hw

theorem backoffExpiry_own {s : State} {id t rid ln : Nat} {h : Held} (hruns : s.runs = true) (hnone : Tab.get? s.lmf.backoffs id = none)
    (hheld : s.home.held.find? (fun h => decide (h.id = id)) = some h) (hwhy : h.why = .nacked rid ln t) (hdue : t ≤ s.now) : exec (.backoffExpiry id) s = .next (s.releaseOne h) := by
  have hexec : exec (.backoffExpiry id) s = execBackoffExpiry id s := rfl
  rw [execBackoffExpiry, whenUp_of_runs hruns, hnone] at hexec
  dsimp only at hexec
  rw [hheld] at hexec
  dsimp only at hexec
  rw [hwhy] at hexec
  dsimp only at hexec
  rw [hexec, if_pos hdue]

theorem lowestFree_le (l : List Nat) (n : Nat) : lowestFree l n ≤ n + l.length := by
  induction l generalizing n with
  | nil => exact Nat.le_refl n
  | cons k l ih =>
    have h0 := ih n
    have h1 := ih (n + 1)
    unfold lowestFree
    rw [List.length_cons]
    split
    · omega
    · split <;> omega

/-- With a tag free, a request goes out under it (R317). -/
theorem State.issueTxn_tagged {s : State} (hroom : (s.lmf.tags.filter (fun e => e.2.live.isSome)).length < 131072) (x : Txn) :
    (s.issueTxn x).lmf.backoffs = s.lmf.backoffs ∧ (∃ tag e, Tab.get? (s.issueTxn x).lmf.tags tag = some e ∧ (e.live.map Txn.what) = some x.what) ∧ (s.issueTxn x).home = s.home := by
  have htag := lowestFree_le ((s.lmf.tags.filter (fun e => e.2.live.isSome)).map Prod.fst) 0
  rw [List.length_map] at htag
  unfold State.issueTxn
  dsimp only
  rw [if_neg (by omega)]
  split
  · exact ⟨rfl, ⟨_, _, Tab.get?_set_self .., rfl⟩, rfl⟩
  · exact ⟨rfl, ⟨_, _, Tab.get?_set_self .., rfl⟩, rfl⟩

theorem backoffExpiry_sends {s : State} {id at' : Nat} {x : Txn} (hruns : s.runs = true) (hbackoff : Tab.get? s.lmf.backoffs id = some (x, at')) (hdue : at' ≤ s.now)
    (hroom : (s.lmf.tags.filter (fun e => e.2.live.isSome)).length < 131072) : Does (.backoffExpiry id) s fun t =>
      Tab.get? t.lmf.backoffs id = none ∧ (∃ tag e, Tab.get? t.lmf.tags tag = some e ∧ (e.live.map Txn.what) = some x.what) ∧ t.home = s.home := by
  have hexec : exec (.backoffExpiry id) s = execBackoffExpiry id s := rfl
  rw [execBackoffExpiry, whenUp_of_runs hruns, hbackoff] at hexec
  dsimp only at hexec
  rw [if_pos hdue] at hexec
  obtain ⟨hkeep, htagged, hhome⟩ := State.issueTxn_tagged (s := { s with lmf.backoffs := Tab.erase s.lmf.backoffs id }) hroom x
  refine ⟨_, hexec, ?_, htagged, hhome⟩
  rw [hkeep]
  exact Tab.get?_erase_self ..

/-- Settles O38: each answer, timer and backoff under the premises the statement gives it. -/
theorem coherentReturns : Obligations.CoherentReturns := by
  unfold Obligations.CoherentReturns
  intro s q a hruns rid ln
  exact ⟨fun l hline hresv hpoison hans => ⟨fun b x hst h50 hawaited hreq => ackInv_last hline hresv hans hpoison hst h50 hawaited hreq,
      fun b x hst h48 hreq hab => rspFwd_shared hline hresv hans hst h48 hreq hab, fun b x hst h49 hreq => rspFwd_own hline hresv hans hst h49 hreq,
      fun x rg hst h51 hreq hrg => rspFlush_clean hline hresv hans hpoison hst h51 hreq hrg, fun hst h50 hwb => rspNotHeld_waits hline hans hst h50 hwb⟩,
    fun hsourced hcur hagent hrecall => recallDone_last hruns hsourced hcur hagent hrecall,
    fun idx line rg hrg hdrain hrevokes hst hawaited hresv hreq hlate => homeTimeout_frees hruns hrg hdrain hrevokes hst hawaited hresv hreq hlate,
    fun idx line l hline hst hmore hlate => reservationExpiry_passes hruns hline hst hmore hlate, fenceSweep_ends hruns,
    fun id draw e x htag hlive hready => nack_backs hruns htag hlive hready, fun id h t hnone hheld hwhy hdue => backoffExpiry_own hruns hnone hheld hwhy hdue,
    fun id x at' hbackoff hdue hroom => backoffExpiry_sends hruns hbackoff hdue hroom⟩

end Sys2Proof.Machine

/-! PROOF. O12: resets of functions and ports, host links and VF Enable (16). -/

namespace Sys2Proof.Machine

/-! ### The contexts while a function's commands end (R639) -/

theorem State.contexts_foldl {α : Type} {f : State → α → State} (h : ∀ s a, (f s a).bci.contexts = s.bci.contexts) (l : List α) (s : State) :
    (l.foldl f s).bci.contexts = s.bci.contexts := by
  induction l generalizing s with
  | nil => rfl
  | cons a l ih => rw [List.foldl_cons, ih, h]

@[simp] theorem State.contexts_emit (s : State) (o : Out) : (s.emit o).bci.contexts = s.bci.contexts := by
  rfl

@[simp] theorem State.contexts_setFnWin (s : State) (port : Nat) (fn : Nat) (w : Window) : (s.setFnWin port fn w).bci.contexts = s.bci.contexts := by
  rfl

@[simp] theorem State.contexts_release (s : State) (f : HoldWhy → Bool) : (s.release f).bci.contexts = s.bci.contexts := by
  rfl

@[simp] theorem State.contexts_vector (s : State) (port : Nat) (fn : Nat) (v : Nat) : (s.vector port fn v).bci.contexts = s.bci.contexts := by
  simp [State.vector, apply_ite (fun t : State => t.bci.contexts), State.contexts_foldl]

@[simp] theorem State.contexts_complete (s : State) (q : LmfReq) (st : Status) (data : Bytes) : (s.complete q st data).bci.contexts = s.bci.contexts := by
  rfl

@[simp] theorem State.contexts_logPut (s : State) (k : Nat) (e : LogEntry) : (s.logPut k e).bci.contexts = s.bci.contexts := by
  rfl

@[simp] theorem State.contexts_logDone (s : State) (k : Nat) (lseq : Nat) (st : Status) (value : Nat) : (s.logDone k lseq st value).bci.contexts = s.bci.contexts := by
  rfl

@[simp] theorem State.contexts_setLine (s : State) (rid : Nat) (ln : Nat) (l : Line) : (s.setLine rid ln l).bci.contexts = s.bci.contexts := by
  rfl

@[simp] theorem State.contexts_freeLine (s : State) (rid : Nat) (ln : Nat) : (s.freeLine rid ln).bci.contexts = s.bci.contexts := by
  unfold State.freeLine
  (repeat' split) <;> simp 

@[simp] theorem State.contexts_tidyLine (s : State) (rid : Nat) (ln : Nat) : (s.tidyLine rid ln).bci.contexts = s.bci.contexts := by
  unfold State.tidyLine
  (repeat' split) <;> simp 

@[simp] theorem State.contexts_served (s : State) (rid : Nat) (ln : Nat) (eid : Nat) : (s.served rid ln eid).bci.contexts = s.bci.contexts := by
  unfold State.served
  (repeat' split) <;> simp

@[simp] theorem State.contexts_claim (s : State) (cmd : Instr) : (s.claim cmd).bci.contexts = s.bci.contexts := by
  simp [State.claim, apply_ite (fun t : State => t.bci.contexts), State.contexts_foldl]

@[simp] theorem State.contexts_takeUp (s : State) (a : Again) : (s.takeUp a).bci.contexts = s.bci.contexts := by
  unfold State.takeUp
  (repeat' split) <;> simp [apply_ite (fun t : State => t.bci.contexts), State.contexts_foldl]

@[simp] theorem State.contexts_forsake (s : State) (cmd : Instr) : (s.forsake cmd).bci.contexts = s.bci.contexts := by
  simp [State.forsake]

@[simp] theorem State.contexts_setChannel (s : State) (n : Nat) (c : Channel) : (s.setChannel n c).bci.contexts = s.bci.contexts := by
  rfl

@[simp] theorem State.contexts_respondFn (s : State) (p : Nat) (f : Nat) (ws : List Word) : (s.respondFn p f ws).bci.contexts = s.bci.contexts := by
  simp [State.respondFn]

@[simp] theorem State.contexts_channelDone (s : State) (c : Nat) (r : BciReq) (ws : List Word) : (s.channelDone c r ws).bci.contexts = s.bci.contexts := by
  rfl

@[simp] theorem State.contexts_respond (s : State) (r : BciReq) (st : Status) (resp : List Word) : (s.respond r st resp).bci.contexts = s.bci.contexts := by
  unfold State.respond
  (repeat' split) <;> simp

@[simp] theorem State.contexts_giveAnswer (s : State) (st : Status) (a : Answer) : (s.giveAnswer st a).bci.contexts = s.bci.contexts := by
  cases a <;> simp [State.giveAnswer]

@[simp] theorem State.contexts_answerAfter (s : State) (rid : Nat) (off : Nat) (data : Bytes) (log : Option LogNote) (st : Status) (a : Answer) : (s.answerAfter rid off data log st a).bci.contexts = s.bci.contexts := by
  unfold State.answerAfter
  (repeat' split) <;> simp 

@[simp] theorem State.contexts_turnAway (s : State) (c : Instr) (eid : Nat) (ctx : Nat) (st : Status) (a : Answer) : (s.turnAway c eid ctx st a).bci.contexts = s.bci.contexts := by
  unfold State.turnAway
  simp [apply_ite (fun t : State => t.bci.contexts), State.contexts_foldl]
  (repeat' split) <;> simp [apply_ite (fun t : State => t.bci.contexts), State.contexts_foldl]

@[simp] theorem State.contexts_dropDeadline (s : State) (id : Nat) : (s.dropDeadline id).bci.contexts = s.bci.contexts := by
  rfl

@[simp] theorem State.contexts_again (s : State) (a : Again) (more : List Again) : (s.again a more).bci.contexts = s.bci.contexts := by
  simp [State.again]


/-- The end of a command of a function's mailbox leaves the contexts. -/
theorem State.contexts_endCmd_fn {c : Instr} {p f : Nat} (h : ofFn p f c = true) (s : State) (eid ctx : Nat) (st : Status) :
    (s.endCmd c eid ctx st).bci.contexts = s.bci.contexts := by
  unfold State.endCmd
  split
  case h_6 =>
    split
    · exact State.contexts_turnAway ..
    · next hnone => simp [ofFn, hnone] at h
  all_goals simp [ofFn, bciOf] at h

theorem State.contexts_endHolds_fn (s : State) (p f : Nat) (st : Status) : (s.endHolds (fun h => ofFn p f h.cmd) st).bci.contexts = s.bci.contexts := by
  unfold State.endHolds
  have hall : ∀ h ∈ s.home.held.filter (fun h => ofFn p f h.cmd), ofFn p f h.cmd = true := fun h hh => (List.mem_filter.1 hh).2
  generalize s.home.held.filter _ = hs at hall
  induction hs generalizing s with
  | nil => rfl
  | cons h hs ih =>
    have hone : (s.endHeld h st).bci.contexts = s.bci.contexts := by
      unfold State.endHeld
      rw [State.contexts_endCmd_fn (hall h List.mem_cons_self)]
      split <;> simp
    rw [List.foldl_cons, ih _ fun x hx => hall x (List.mem_cons_of_mem _ hx), hone]

theorem State.contexts_endAgains_fn (s : State) (p f : Nat) (st : Status) : (s.endAgains (fun a => ofFn p f a.cmd) st).bci.contexts = s.bci.contexts := by
  unfold State.endAgains
  have hall : ∀ a ∈ s.resume.filter (fun a => ofFn p f a.cmd), ofFn p f a.cmd = true := fun a ha => (List.mem_filter.1 ha).2
  generalize s.resume.filter (fun a => ofFn p f a.cmd) = as at hall
  suffices h : ∀ u : State, (as.foldl (fun (s : State) a => (s.endCmd a.cmd (s.againIssuer a).1 (s.againIssuer a).2 st).dropDeadline a.id) u).bci.contexts = u.bci.contexts from h _
  induction as with
  | nil => exact fun _ => rfl
  | cons a as ih =>
    intro u
    rw [List.foldl_cons, ih fun x hx => hall x (List.mem_cons_of_mem _ hx), State.contexts_dropDeadline, State.contexts_endCmd_fn (hall a List.mem_cons_self)]


/-! ### Host ports (R620, R638 to R644) -/

theorem State.hport_of_standing {s t : State} (h : t.standing = s.standing) (p : Nat) : t.hport p = s.hport p :=
  congrArg (fun x => Tab.getD (Standing.hports x) p HostPort.reset) h

theorem State.hports_of_standing {s t : State} (h : t.standing = s.standing) : t.host.ports = s.host.ports := congrArg Standing.hports h

theorem State.ctxIs_iff {s : State} {ctx : Nat} {st : CtxState} : s.ctxIs ctx st = true ↔ ∃ c, s.standing.ctx ctx = some c ∧ c.st = st := by
  simp only [State.ctxIs, State.standing, ctxsOwn]
  cases Tab.get? s.bci.contexts ctx <;> simp [Context.own]

/-- The machine when a context's reset has begun. -/
def State.resetCtx (s : State) (ctx : Nat) : State :=
  { s with nextId := s.nextId + 1, bci.contexts := Tab.modify s.bci.contexts ctx fun c => { c with st := .resetting, key := s.nextId } }

/-- The end of a context's work. -/
def State.endCtxWork (s : State) (ctx : Nat) : State :=
  ((s.endEngines ctx 10 .functionReset).endIssuer (fun e c => decide (e = (s.endEngines ctx 10 .functionReset).lmf.eid ∧ c = ctx)) .functionReset).endCounterWaits ctx .functionReset

theorem State.standing_endCtxWork (s : State) (ctx : Nat) : (s.endCtxWork ctx).standing = s.standing := by
  rw [State.endCtxWork, State.standing_endCounterWaits, State.standing_endIssuer, State.standing_endEngines]

theorem State.ctxLeave_active {s : State} {ctx : Nat} (h : s.ctxIs ctx .active = true) : s.ctxLeave ctx false = (s.resetCtx ctx).endCtxWork ctx := by
  rw [State.ctxLeave, h, Bool.not_true, if_neg Bool.false_ne_true]
  simp only [Bool.false_eq_true, if_false]
  rw [State.endCtxWork, State.resetCtx]

theorem State.ctxLeave_idle {s : State} {ctx : Nat} (h : s.ctxIs ctx .active = false) : s.ctxLeave ctx false = s := by
  rw [State.ctxLeave, h, Bool.not_false, if_pos rfl]

theorem State.ctxIs_resetCtx {s : State} {ctx : Nat} (h : s.ctxIs ctx .active = true) : (s.resetCtx ctx).ctxIs ctx .resetting = true := by
  unfold State.ctxIs at h ⊢
  rw [State.resetCtx]
  dsimp only
  rw [Tab.get?_modify, if_pos rfl]
  split at h
  · next c hc =>
    rw [hc]
    rfl
  · cases h

/-- The context of a reset function is RESETTING. -/
theorem State.ctxIs_ctxLeave {s : State} {ctx : Nat} (h : s.ctxIs ctx .active = true) : (s.ctxLeave ctx false).ctxIs ctx .resetting = true := by
  rw [State.ctxLeave_active h, State.ctxIs_iff, State.standing_endCtxWork, ← State.ctxIs_iff]
  exact State.ctxIs_resetCtx h

theorem State.ctxLeave_hports (s : State) (ctx : Nat) : (s.ctxLeave ctx false).host.ports = s.host.ports := by
  cases h : s.ctxIs ctx .active with
  | false => rw [State.ctxLeave_idle h]
  | true =>
    rw [State.ctxLeave_active h]
    exact (State.hports_of_standing (State.standing_endCtxWork ..)).trans (by rw [State.resetCtx])

/-- The channel of a function after the function's end: no session, no command. -/
def State.chanEnded (s : State) (p f : Nat) : State :=
  match (s.fnWin p f).chan with
  | some c => s.setChannel c { s.channel c with session := none, lastSeq := none, busy := none, handed := false, wasOwner := false }
  | none => s

/-- The end of a function's own commands. -/
def State.fnQuiet (s : State) (p f : Nat) : State :=
  (((if f = 0 then (s.chanEnded p f).entryLost p else s.chanEnded p f).endHolds (fun h => ofFn p f h.cmd) .functionReset).endAgains (fun a => ofFn p f a.cmd) .functionReset).retireFaults

theorem State.fnEnd_eq (s : State) (p f : Nat) :
    s.fnEnd p f = match (s.fnQuiet p f).boundCtx p f with | some c => (s.fnQuiet p f).ctxLeave c false | none => s.fnQuiet p f := rfl

theorem State.chanEnded_keeps (s : State) (p f : Nat) : (s.chanEnded p f).standing = s.standing ∧ (s.chanEnded p f).bci.contexts = s.bci.contexts := by
  unfold State.chanEnded
  split
  · exact ⟨State.standing_setChannel .., rfl⟩
  · exact ⟨rfl, rfl⟩

theorem State.standing_fnQuiet (s : State) (p f : Nat) : (s.fnQuiet p f).standing = s.standing := by
  rw [State.fnQuiet, State.standing_retireFaults, State.standing_endAgains, State.standing_endHolds]
  split
  · rw [State.standing_entryLost, (s.chanEnded_keeps p f).1]
  · exact (s.chanEnded_keeps p f).1

/-- The end of a VF's commands leaves the contexts. -/
theorem State.contexts_fnQuiet (s : State) (p : Nat) {f : Nat} (hf : f ≠ 0) : (s.fnQuiet p f).bci.contexts = s.bci.contexts := by
  have hholds := State.contexts_endHolds_fn (s.chanEnded p f) p f .functionReset
  rw [State.fnQuiet, if_neg hf]
  exact (State.contexts_endAgains_fn ..).trans (hholds.trans (s.chanEnded_keeps p f).2)

/-- What the end of a function's work leaves of the host ports. -/
theorem State.fnEnd_hports (s : State) (p f : Nat) : (s.fnEnd p f).host.ports = s.host.ports := by
  have hquiet : (s.fnQuiet p f).host.ports = s.host.ports := congrArg Standing.hports (s.standing_fnQuiet p f)
  rw [State.fnEnd_eq]
  split
  · exact (State.ctxLeave_hports ..).trans hquiet
  · exact hquiet

@[simp] theorem State.fnReset_hports (s : State) (p f : Nat) : (s.fnReset p f).host.ports = s.host.ports := by
  rw [State.fnReset]
  exact (congrArg Standing.hports (State.standing_rsFn _ p f)).trans (s.fnEnd_hports p f)

/-- A function's registers as a reset leaves them (R620). -/
def Window.isCleared (w : Window) : Prop :=
  w.msg = [] ∧ w.go = false ∧ w.msgLost = false ∧ w.nochan = false ∧ w.overrun = false ∧ w.reject = false ∧ w.full = false ∧ w.en = false
    ∧ w.enPend = none ∧ w.head = 0 ∧ w.tail = 0 ∧ w.errStatus = 0 ∧ w.errIndex = 0 ∧ w.errMore = false

theorem State.fnWin_fnReset (s : State) (p f : Nat) : (s.fnReset p f).fnWin p f = { ((s.fnEnd p f).fnWin p f).cleared with seq := (((s.fnEnd p f).fnWin p f).seq + 1) % 256 } := by
  rw [State.fnReset, State.rsFn]
  dsimp only
  rw [State.fnWin_setFnWin_self, State.fnWin_setFnWin_self]
  rfl

theorem State.isCleared_fnReset (s : State) (p f : Nat) : ((s.fnReset p f).fnWin p f).isCleared := by
  rw [State.fnWin_fnReset]
  exact ⟨rfl, rfl, rfl, rfl, rfl, rfl, rfl, rfl, rfl, rfl, rfl, rfl, rfl, rfl⟩

/-! ### Windows of a host port -/

theorem Tab.get?_map_keyed {α β : Type} (g : Nat → α → β) (t : Tab α) (k : Nat) : Tab.get? (t.map fun e => (e.1, g e.1 e.2)) k = (Tab.get? t k).map (g k) := by
  induction t with
  | nil => rfl
  | cons e t ih =>
    obtain ⟨j, v⟩ := e
    by_cases h : j = k
    · simp [Tab.get?, h]
    · simpa [Tab.get?, h] using ih

/-- A port after an unbind of the windows that a test names. -/
def HostPort.unbindIf (h : HostPort) (f : HostWindow → Bool) (now : Nat) : HostPort :=
  let gone := h.decs.filterMap (fun d => match d.2.win with
    | some w => if f w then some ({ at' := now, dec := d.1, hpa := d.2.hpa, size := d.2.size, win := w } : Unbound) else none
    | none => none)
  { h with
    decs := h.decs.map (fun d => match d.2.win with | some w => if f w then (d.1, { d.2 with win := none }) else d | none => d)
    unbound := gone ++ h.unbound }

theorem State.unbind_hports (s : State) (f : Nat → HostWindow → Bool) : (s.unbind f).host.ports = s.host.ports.map fun e => (e.1, e.2.unbindIf (f e.1) s.now) := rfl

theorem HostPort.win_unbindIf (h : HostPort) (f : HostWindow → Bool) (now : Nat) : ∀ e ∈ (h.unbindIf f now).decs, ∀ w, e.2.win = some w → f w = false := by
  intro e he w hw
  obtain ⟨d, -, rfl⟩ := List.mem_map.1 he
  split at hw
  · next w' hd =>
    split at hw
    · cases hw
    · next hf =>
      rw [hd] at hw
      cases hw
      simpa using hf
  · next hd =>
    rw [hd] at hw
    cases hw

/-- After an unbind, each window left is one that it does not name, and the VFs stay. -/
theorem State.hport_unbind (s : State) (f : Nat → HostWindow → Bool) (p : Nat) :
    (∀ e ∈ ((s.unbind f).hport p).decs, ∀ w, e.2.win = some w → f p w = false) ∧ ((s.unbind f).hport p).vfs = (s.hport p).vfs := by
  unfold State.hport Tab.getD
  rw [State.unbind_hports, Tab.get?_map_keyed fun q (h : HostPort) => h.unbindIf (f q) s.now]
  cases Tab.get? s.host.ports p with
  | none => exact ⟨fun e he => absurd he List.not_mem_nil, rfl⟩
  | some h => exact ⟨h.win_unbindIf (f p) s.now, rfl⟩

/-- The machine when every VF of a port has been reset and its windows are unbound. -/
def State.vfsReset (s : State) (p : Nat) : State :=
  (((upto (s.hport p).vfs).map (fun k => k + 1)).foldl (fun (s : State) f => s.fnReset p f) s).unbind (fun port w => decide (port = p) && decide (w.fn ≠ 0))

theorem State.vfsOff_hport (s : State) (p : Nat) : (s.vfsOff p).hport p = { (s.vfsReset p).hport p with vfs := 0 } := by
  unfold State.vfsOff State.vfsReset
  dsimp only
  rw [State.hport_setHport_self]
  rfl

theorem State.hport_vfsOff (s : State) (p : Nat) :
    ((s.vfsOff p).hport p).vfs = 0 ∧ ∀ e ∈ ((s.vfsOff p).hport p).decs, ∀ w, e.2.win = some w → w.fn = 0 := by
  rw [State.vfsOff_hport]
  refine ⟨rfl, fun e he w hw => ?_⟩
  simpa using (State.hport_unbind _ _ p).1 e he w hw

/-- No VF and no window (R644). -/
def HostPort.unboundAll (h : HostPort) : Prop := h.vfs = 0 ∧ ∀ e ∈ h.decs, e.2.win = none

/-- The machine when a port's functions have been reset and its windows are unbound. -/
def State.fnsReset (s : State) (p : Nat) : State := ((s.vfsOff p).fnReset p 0).unbind (fun port _ => decide (port = p))

theorem State.portReset_eq (s : State) (p : Nat) : s.portReset p = (s.fnsReset p).setHport p
    { (s.fnsReset p).hport p with decs := ((s.fnsReset p).hport p).decs.map fun (e : Nat × Decoder) => (e.1, { e.2 with committed := false, errNC := false, status := 0 }) } := rfl

theorem State.hport_fnsReset (s : State) (p : Nat) : ((s.fnsReset p).hport p).unboundAll := by
  obtain ⟨hwin, hvfs⟩ := State.hport_unbind ((s.vfsOff p).fnReset p 0) (fun port _ => decide (port = p)) p
  refine ⟨?_, fun e he => Option.eq_none_iff_forall_ne_some.2 fun w hw => by simpa using hwin e he w hw⟩
  rw [State.fnsReset, hvfs, State.hport, State.fnReset_hports]
  exact (s.hport_vfsOff p).1

theorem HostPort.unboundAll_uncommitted {h : HostPort} (hh : h.unboundAll) :
    ({ h with decs := h.decs.map fun (e : Nat × Decoder) => (e.1, { e.2 with committed := false, errNC := false, status := 0 }) } : HostPort).unboundAll := by
  refine ⟨hh.1, fun e he => ?_⟩
  obtain ⟨d, hd, rfl⟩ := List.mem_map.1 he
  exact hh.2 d hd

theorem State.hport_portReset (s : State) (p : Nat) : ((s.portReset p).hport p).unboundAll ∧ ((s.portReset p).fnWin p 0).isCleared := by
  have hfns : (s.portReset p).host.fns = ((s.vfsOff p).fnReset p 0).host.fns := by rw [State.portReset_eq, State.setHport, State.fnsReset, State.unbind]
  refine ⟨?_, ?_⟩
  · have hreset := s.hport_fnsReset p
    rw [State.portReset_eq, State.hport_setHport_self]
    generalize (s.fnsReset p).hport p = h at hreset
    exact HostPort.unboundAll_uncommitted hreset
  · rw [State.fnWin, hfns, ← State.fnWin]
    exact State.isCleared_fnReset ..

/-! ### Resets of functions and ports -/

theorem flr_cleared {s : State} {p f : Nat} (hruns : s.runs = true) (hfn : s.fnEnabled p f = true) : Does (.flr p f) s fun t => (t.fnWin p f).isCleared ∧ (f = 0 → (t.hport p).vfs = 0) := by
  have hexec : exec (.flr p f) s = execFlr p f s := rfl
  rw [execFlr, whenUp_of_runs hruns, hfn, Bool.not_true, if_neg Bool.false_ne_true] at hexec
  by_cases hf : f = 0
  · subst hf
    rw [if_pos rfl] at hexec
    refine ⟨_, hexec, State.isCleared_fnReset .., fun _ => ?_⟩
    rw [State.hport, State.fnReset_hports]
    exact (s.hport_vfsOff p).1
  · rw [if_neg hf] at hexec
    exact ⟨_, hexec, State.isCleared_fnReset .., fun h => absurd h hf⟩

section Vf

variable {s : State} {p f : Nat} (hruns : s.runs = true) (hfn : s.fnEnabled p f = true) (hf : f ≠ 0)
include hruns hfn hf

/-- FLR of a VF resets the VF alone. -/
theorem exec_flr_vf : exec (.flr p f) s = .next (s.fnReset p f) := by
  have hexec : exec (.flr p f) s = execFlr p f s := rfl
  rwa [execFlr, whenUp_of_runs hruns, hfn, Bool.not_true, if_neg Bool.false_ne_true, if_neg hf] at hexec

theorem flr_context {c : Nat} (hctx : s.boundCtx p f = some c) (hactive : s.ctxIs c .active = true) : Does (.flr p f) s fun t => t.ctxIs c .resetting = true := by
  refine ⟨_, exec_flr_vf hruns hfn hf, ?_⟩
  have hkeep := s.contexts_fnQuiet p hf
  have hend : (s.fnEnd p f).ctxIs c .resetting = true := by
    rw [State.fnEnd_eq, State.boundCtx, hkeep, ← State.boundCtx, hctx]
    exact State.ctxIs_ctxLeave (by rwa [State.ctxIs, hkeep])
  rw [State.fnReset]
  refine State.ctxIs_iff.2 ?_
  rw [State.standing_rsFn, State.standing_setFnWin]
  exact State.ctxIs_iff.1 hend

theorem flr_free {c : Nat} (hctx : s.boundCtx p f = none) (hchan : (s.fnWin p f).chan = some c) (hheld : s.home.held = []) (hresume : s.resume = []) : Does (.flr p f) s fun t =>
    (t.channel c).session = none ∧ (t.channel c).busy = none ∧ (t.fnWin p f).chan = some c ∧ (t.fnWin p f).cqKey = (s.fnWin p f).cqKey
      ∧ t.home.regions = s.home.regions ∧ t.bci.contexts = s.bci.contexts ∧ t.host.ports = s.host.ports ∧ t.host.owner = s.host.owner := by
  refine ⟨_, exec_flr_vf hruns hfn hf, ?_⟩
  have hended : s.chanEnded p f = s.setChannel c { s.channel c with session := none, lastSeq := none, busy := none, handed := false, wasOwner := false } := by
    rw [State.chanEnded, hchan]
  have hholds : (s.chanEnded p f).endHolds (fun h => ofFn p f h.cmd) .functionReset = s.chanEnded p f := by
    rw [State.endHolds, hended, show (s.setChannel c _).home.held = [] from hheld]
    rfl
  have hagains : (s.chanEnded p f).endAgains (fun a => ofFn p f a.cmd) .functionReset = { s.chanEnded p f with resume := [] } := by
    rw [State.endAgains, hended, show (s.setChannel c _).resume = [] from hresume]
    rfl
  have hquiet : s.fnQuiet p f = ({ s.chanEnded p f with resume := [] } : State).retireFaults := by rw [State.fnQuiet, if_neg hf, hholds, hagains]
  have hend : s.fnEnd p f = ({ s.chanEnded p f with resume := [] } : State).retireFaults := by
    rw [State.fnEnd_eq, State.boundCtx, s.contexts_fnQuiet p hf, ← State.boundCtx, hctx, hquiet]
  rw [hended] at hend
  dsimp only
  rw [State.fnWin_fnReset, State.fnReset, hend]
  exact ⟨congrArg Channel.session (State.channel_setChannel_self s c _), congrArg Channel.busy (State.channel_setChannel_self s c _), hchan, rfl, rfl, rfl, rfl, rfl⟩

end Vf

theorem vfDisable_does {s : State} {p : Nat} (hruns : s.runs = true) (hvfs : (s.hport p).vfs ≠ 0) :
    Does (.vfDisable p) s fun t => (t.hport p).vfs = 0 ∧ ∀ e ∈ (t.hport p).decs, ∀ w, e.2.win = some w → w.fn = 0 := by
  have hexec : exec (.vfDisable p) s = execVfDisable p s := rfl
  rw [execVfDisable, whenUp_of_runs hruns, if_neg hvfs] at hexec
  exact ⟨_, hexec, State.hport_vfsOff ..⟩

theorem hptPerst_does {s : State} {p : Nat} (hruns : s.runs = true) : Does (.hptPerst p) s fun t => (t.fnWin p 0).isCleared ∧ (t.hport p).unboundAll := by
  have hexec : exec (.hptPerst p) s = execHptPerst p s := rfl
  rw [execHptPerst, whenUp_of_runs hruns] at hexec
  exact ⟨_, hexec, (s.hport_portReset p).2, (s.hport_portReset p).1⟩

theorem State.hostLost_eq {s : State} {p : Nat} (hup : (s.hport p).up = true) :
    ∃ u : State, s.hostLost p = (u.portReset p).setHport p { (u.portReset p).hport p with up := false } := by
  refine ⟨s.partner 0xB 2 p 0 0 0 (s.hport p).inc, ?_⟩
  rw [State.hostLost, hup, Bool.not_true, if_neg Bool.false_ne_true]

theorem HostPort.unboundAll_down {h : HostPort} (hh : h.unboundAll) : ({ h with up := false } : HostPort).unboundAll := hh

theorem State.hport_hostLost {s : State} {p : Nat} (hup : (s.hport p).up = true) : ((s.hostLost p).hport p).unboundAll ∧ ((s.hostLost p).hport p).up = false := by
  obtain ⟨u, hu⟩ := State.hostLost_eq hup
  rw [hu, State.hport_setHport_self]
  have hreset := (u.hport_portReset p).1
  generalize (u.portReset p).hport p = h at hreset
  exact ⟨HostPort.unboundAll_down hreset, rfl⟩

theorem hostLinkLoss_does {s : State} {p : Nat} (hruns : s.runs = true) (hup : (s.hport p).up = true) :
    Does (.hostLinkLoss p) s fun t => (t.hport p).unboundAll ∧ (t.hport p).up = false := by
  have hexec : exec (.hostLinkLoss p) s = execHostLinkLoss p s := rfl
  rw [execHostLinkLoss, whenUp_of_runs hruns] at hexec
  exact ⟨_, hexec, State.hport_hostLost hup⟩

theorem hptRefclkLoss_does {s : State} {p : Nat} (hruns : s.runs = true) (hup : (s.hport p).up = true) :
    Does (.hptRefclkLoss p) s fun t => (t.hport p).unboundAll ∧ (t.hport p).up = false ∧ (t.hport p).refclk = false := by
  have hexec : exec (.hptRefclkLoss p) s = execHptRefclkLoss p s := rfl
  rw [execHptRefclkLoss, whenUp_of_runs hruns] at hexec
  refine ⟨_, hexec, ?_⟩
  dsimp only
  rw [State.hport_setHport_self]
  exact ⟨(State.hport_hostLost hup).1, (State.hport_hostLost hup).2, rfl⟩

theorem hostLinkUp_does {s : State} {p : Nat} (hruns : s.runs = true) (hdown : (s.hport p).up = false) (pcie : Bool) : Does (.hostLinkUp p pcie) s fun t =>
    (t.hport p).up = true ∧ (t.hport p).pcie = pcie ∧ (t.hport p).inc = (s.hport p).inc + 1 ∧ (t.hport p).vfs = 0 := by
  have hexec : exec (.hostLinkUp p pcie) s = execHostLinkUp p pcie s := rfl
  rw [execHostLinkUp, whenUp_of_runs hruns] at hexec
  dsimp only at hexec
  rw [hdown, if_neg Bool.false_ne_true] at hexec
  refine ⟨_, hexec, ?_⟩
  dsimp only
  rw [State.hport_setHport_self]
  refine ⟨rfl, rfl, rfl, ?_⟩
  rw [(State.hport_unbind _ _ p).2]
  exact (State.hport_vfsOff ..).1

/-! ### VF Enable (R592, R593) -/

theorem State.vfOn_keeps (s : State) (p f : Nat) : (s.vfOn p f).host.ports = s.host.ports ∧ (s.vfOn p f).bci.contexts = s.bci.contexts ∧ (s.vfOn p f).home = s.home := by
  unfold State.vfOn
  dsimp only
  split <;> exact ⟨rfl, rfl, rfl⟩

theorem State.vfOns_keep (p : Nat) (fs : List Nat) (s : State) :
    (fs.foldl (fun s f => s.vfOn p f) s).host.ports = s.host.ports ∧ (fs.foldl (fun s f => s.vfOn p f) s).bci.contexts = s.bci.contexts
      ∧ (fs.foldl (fun s f => s.vfOn p f) s).home = s.home := by
  induction fs generalizing s with
  | nil => exact ⟨rfl, rfl, rfl⟩
  | cons f fs ih =>
    obtain ⟨hports, hctx, hhome⟩ := ih (s.vfOn p f)
    obtain ⟨hports', hctx', hhome'⟩ := s.vfOn_keeps p f
    exact ⟨hports.trans hports', hctx.trans hctx', hhome.trans hhome'⟩

theorem exec_vfEnable {s : State} {p count : Nat} (hruns : s.runs = true) (hup : (s.hport p).up = true) (hvfs : (s.hport p).vfs = 0) (hcount : 0 < count) :
    exec (.vfEnable p count) s = .next (((upto count).map (fun k => k + 1)).foldl (fun (s : State) f => s.vfOn p f) (s.setHport p { s.hport p with vfs := count })) := by
  have hexec : exec (.vfEnable p count) s = execVfEnable p count s := rfl
  rw [execVfEnable, whenUp_of_runs hruns] at hexec
  dsimp only at hexec
  rwa [if_neg (by simp [hup, hvfs]; omega)] at hexec

theorem vfEnable_does {s : State} {p count : Nat} (hruns : s.runs = true) (hup : (s.hport p).up = true) (hvfs : (s.hport p).vfs = 0) (hcount : 0 < count) :
    Does (.vfEnable p count) s fun t => (t.hport p).vfs = count ∧ t.bci.contexts = s.bci.contexts ∧ t.home = s.home := by
  refine ⟨_, exec_vfEnable hruns hup hvfs hcount, ?_⟩
  obtain ⟨hports, hctx, hhome⟩ := State.vfOns_keep p ((upto count).map (fun k => k + 1)) (s.setHport p { s.hport p with vfs := count })
  refine ⟨?_, hctx, hhome⟩
  rw [State.hport, hports, ← State.hport, State.hport_setHport_self]

theorem vfEnable_one {s : State} {p : Nat} (hruns : s.runs = true) (hup : (s.hport p).up = true) (hvfs : (s.hport p).vfs = 0)
    (hroom : lowestFree ((Tab.keys s.bci.channels).filter (fun k => decide (12 ≤ k))) 12 < 1024) :
    let n := lowestFree ((Tab.keys s.bci.channels).filter (fun k => decide (12 ≤ k))) 12
    Does (.vfEnable p 1) s fun t => (t.hport p).vfs = 1 ∧ (t.fnWin p 1).chan = some n ∧ t.channel n = Channel.fresh (.fn p 1) ∧ t.bci.contexts = s.bci.contexts := by
  intro n
  have hexec := exec_vfEnable hruns hup hvfs (count := 1) Nat.one_pos
  have hone : ((upto 1).map (fun k => k + 1)) = [1] := rfl
  rw [hone, List.foldl_cons, List.foldl_nil, State.vfOn] at hexec
  dsimp only at hexec
  rw [if_pos (by exact hroom)] at hexec
  refine ⟨_, hexec, ?_, ?_, State.channel_setChannel_self .., rfl⟩
  · exact congrArg HostPort.vfs (State.hport_setHport_self s p _)
  · exact congrArg Window.chan (State.fnWin_setFnWin_self _ p 1 _)

/-- Settles O12: each event of a function or a host link under the premises the statement gives it. -/
theorem functionsAndHostLinks : Obligations.FunctionsAndHostLinks := by
  unfold Obligations.FunctionsAndHostLinks
  exact ⟨fun s p hruns _ => ⟨fun f hfn => flr_cleared hruns hfn, fun f c hfn hf hctx hactive => flr_context hruns hfn hf hctx hactive,
      fun f c hfn hf hctx hchan hheld hresume => flr_free hruns hfn hf hctx hchan hheld hresume, vfDisable_does hruns, hptPerst_does hruns, hostLinkLoss_does hruns,
      hptRefclkLoss_does hruns⟩,
    fun s p hruns _ => ⟨fun pcie hdown => hostLinkUp_does hruns hdown pcie, vfEnable_one hruns, fun count hup hvfs hcount => vfEnable_does hruns hup hvfs hcount⟩⟩

end Sys2Proof.Machine

/-! PROOF. O58: embedding tables, batches and swaps (13), refuted at two batches of one number whose issuers see different bytes. -/

namespace Sys2Proof.Machine

/-! ### Two batches of one number, whose issuers see different bytes -/

/-- A page of T1 that reads zero. -/
def zeroPage : TierPage :=
  { bytes := [], poison := [], recovering := false, backing := .t1, t0 := .none, tl := none, heat := 0, stamp := 0, touch := 0, charge := 0, move := none, image := none }

/-- The shadow page of context 2, whose first byte is 1. -/
def shadowOfTwo : Shadow :=
  { eid := 7, ctx := 2, base := 0, widx := 0, page := { zeroPage with bytes := [(0, 1)] } }

/-- The page of the batches' input, with the shadow page of context 2. -/
def sharedInput : Handle :=
  { rid := 1, pageNo := 0, mapped := true, ver := 0, pub := zeroPage, shadows := [shadowOfTwo], olds := [], refs := [] }

/-- A batch of context `ctx` with 64 bytes of input at the start of region 1, which it has not read. -/
def inputBatch (ctx : Nat) (running : Option Nat) : Batch :=
  { id := 1, words := [0, 0, 0, 0, 0, 0, BitVec.ofNat 32 (mkKey 1 1)], eid := 7, ctx := ctx, log := 0, running := running, start := 1, table := [], tgen := 0, pages := [(1, 0, 5)], final := none,
    counts := [], blockSent := false }

/-- A machine with two batches of number 1, of contexts 1 and 2, where context 2 has a shadow page of the page of their input, and where the region of their table is being recalled. -/
def twinBatches : State :=
  { State.reset with
    home := { State.reset.home with
      regions := [(0, ringRegion), (1, { ringRegion with mode := .publish, entries := [(0, .leaf 4 false 0 1)] })], nextHandle := 5
      pages := [(4, sharedInput)] }
    rope := { State.reset.rope with recalls := [(0, [0])] }
    mor := { State.reset.mor with batches := [inputBatch 1 (some 0), inputBatch 2 none] } }

/-- The first byte of input that each batch holds after a step. -/
def firstInputs : Result → List (Option Byte)
  | .next t => t.mor.batches.map (fun y => y.input.bind (fun x => x.2.head?))
  | _ => []

/-- Each batch has what its own issuer sees (13), and the recall then stops the first of them. -/
theorem twinBatches_exec : firstInputs (exec (.batchEnd 0) twinBatches) = [some 0, some 1] := by
  decide +kernel

/-- Refutes O58: the clause of a batch whose input is read gives every batch of its number the bytes that its own issuer sees. The state is any state, so another batch may
have the number and another issuer, with a shadow page of the input: its input then begins with 1, where the clause says 0. -/
theorem not_embeddingCommands : ¬ Obligations.EmbeddingCommands := by
  unfold Obligations.EmbeddingCommands
  intro h
  obtain ⟨-, hend⟩ := (h.2 twinBatches (inputBatch 1 (some 0)) 0 (by decide +kernel) (by decide))
  obtain ⟨hreads, -⟩ := hend (by decide +kernel) (by decide +kernel) rfl rfl rfl
  have hsame := hreads 1 { ringRegion with mode := .publish, entries := [(0, .leaf 4 false 0 1)] } rfl (by decide +kernel) (by decide +kernel) (by decide +kernel) (by decide +kernel)
  have hinputs := twinBatches_exec
  rw [hsame] at hinputs
  exact absurd hinputs (by decide +kernel)

end Sys2Proof.Machine

/-! PROOF. O57: updates of an index, merges, and the index's end (12). -/

namespace Sys2Proof.Machine

/-! ### What leaves the indexes, the shards and the queries -/

@[simp] theorem State.trav_countWrite (s : State) (ckey : Nat) (n : Nat) : (s.countWrite ckey n).trav = s.trav := by
  rfl

@[simp] theorem State.trav_modMsg (s : State) (id : Nat) (f : ExpMsg → ExpMsg) : (s.modMsg id f).trav = s.trav := by
  rfl

@[simp] theorem State.trav_entryDeadlines (s : State) (id : Nat) : (s.entryDeadlines id).trav = s.trav := by
  unfold State.entryDeadlines
  (repeat' split) <;> simp [apply_ite State.trav, State.foldl_trav]

@[simp] theorem State.trav_expRelease (s : State) (id : Nat) : (s.expRelease id).trav = s.trav := by
  unfold State.expRelease
  simp [apply_ite State.trav, State.foldl_trav]
  (repeat' split) <;> simp [apply_ite State.trav, State.foldl_trav]

@[simp] theorem State.trav_addMessage (s : State) (li : Nat) (l : Lane) (slot : Nat) (w : List Word) (es : List ExpEntry) (dIn : Nat) (reject : Option Status) : (s.addMessage li l slot w es dIn reject).trav = s.trav := by
  simp [State.addMessage, apply_ite State.trav, State.foldl_trav]

@[simp] theorem State.trav_takeMessage (s : State) (li : Nat) (l : Lane) (rg : Region) (slot : Nat) (w : List Word) : (s.takeMessage li l rg slot w).trav = s.trav := by
  simp [State.takeMessage, apply_ite State.trav, State.foldl_trav]

@[simp] theorem State.trav_slotCheck (s : State) (li : Nat) (l : Lane) (slot : Nat) : (s.slotCheck li l slot).trav = s.trav := by
  unfold State.slotCheck
  (repeat' split) <;> simp [apply_ite State.trav, State.foldl_trav]

@[simp] theorem State.trav_laneCheck (s : State) (ckey : Nat) : (s.laneCheck ckey).trav = s.trav := by
  unfold State.laneCheck
  (repeat' split) <;> simp [apply_ite State.trav, State.foldl_trav]

@[simp] theorem State.trav_putCounted (s : State) (port : Bool) (rid : Nat) (off : Nat) (ckey : Nat) (data : Bytes) : (s.putCounted port rid off ckey data).trav = s.trav := by
  simp [State.putCounted]

theorem State.trav_of_countedIn {s t : State} {ctx eid rid : Nat} {r : Region} {off ckey : Nat} {data : Bytes} {work : WorkRef}
    (h : s.countedIn ctx eid rid r off ckey data work = .ok t) : t.trav = s.trav := by
  unfold State.countedIn at h
  dsimp only at h
  (repeat' split at h) <;> cases h
  simp

theorem State.trav_of_ownCounted {s t : State} {i : Issuer} {eid key off ckey : Nat} {data : Bytes} {work : WorkRef}
    (h : s.ownCounted i eid key off ckey data work = .ok t) : t.trav = s.trav := by
  unfold State.ownCounted at h
  split at h
  · cases h
  · exact State.trav_of_countedIn h



/-! ### What ends an index's work leaves of the indexes and the updates (12) -/

theorem State.eid_of_standing {s t : State} (h : t.standing = s.standing) : t.lmf.eid = s.lmf.eid := congrArg Standing.eid h

/-- A shard is what the shards hold under this endpoint's key. -/
theorem State.shard?_of_shards {s t : State} (hshards : t.trav.shards = s.trav.shards) (hst : t.standing = s.standing) (index shard : Nat) : t.shard? index shard = s.shard? index shard := by
  simp only [State.shard?, hshards, State.eid_of_standing hst]

theorem State.shard?_setShard (s : State) (index shard : Nat) (h : Shard) : (s.setShard index shard h).shard? index shard = some h := Tab.get?_set_self ..

@[simp] theorem State.trav_trvAnswer (s : State) (r : BciReq) (i : Issuer) (index lseq : Nat) (st : Status) (resp : List Word) (value : Nat) :
    (s.trvAnswer r i index lseq st resp value).trav = s.trav := by
  unfold State.trvAnswer
  dsimp only
  split <;> simp [State.logPut]

@[simp] theorem State.trav_readsDone (s : State) (rid : Nat) (v : View) (was r : Reads) : (s.readsDone rid v was r).trav = s.trav := by
  unfold State.readsDone
  exact State.foldl_trav _ (fun s x => by simp) _ _

/-- The end of a merge leaves everything of Traverse but its shard. -/
theorem State.trav_mergeStop (s : State) (index shard state : Nat) (st : Status) :
    (s.mergeStop index shard state st).trav = { s.trav with shards := (s.mergeStop index shard state st).trav.shards } := by
  unfold State.mergeStop
  split
  · rfl
  · split
    · rfl
    · simp [State.setShard]

/-- The merge of a shard that has one ends (R498). -/
theorem State.shard?_mergeStop {s : State} {index shard op : Nat} {h : Shard} (hshard : s.shard? index shard = some h) (hmerge : h.merge = some op) (state : Nat) (st : Status) :
    (s.mergeStop index shard state st).shard? index shard = some { h with merge := none } := by
  have hstop : s.mergeStop index shard state st = (s.setShard index shard { h with merge := none }).endOp op state st := by
    unfold State.mergeStop
    rw [hshard]
    dsimp only
    rw [hmerge]
  rw [hstop, State.shard?_of_shards (s := s.setShard index shard { h with merge := none }) (by simp) (by simp)]
  exact State.shard?_setShard ..

/-- Nothing of the updates changes, and an index only ends. -/
def State.Prunes (s t : State) : Prop := t.trav.updates = s.trav.updates ∧ ∀ n, t.index? n = s.index? n ∨ t.index? n = none

theorem State.Prunes.trans {s t u : State} (h : s.Prunes t) (h' : t.Prunes u) : s.Prunes u := by
  obtain ⟨hupdates, hindex⟩ := h
  obtain ⟨hupdates', hindex'⟩ := h'
  refine ⟨hupdates'.trans hupdates, fun n => ?_⟩
  rcases hindex' n with hn | hn
  · rw [hn]
    exact hindex n
  · exact .inr hn

theorem State.Prunes.of_tables {s t : State} (hupdates : t.trav.updates = s.trav.updates) (hindexes : t.trav.indexes = s.trav.indexes) : s.Prunes t :=
  ⟨hupdates, fun n => .inl (by simp only [State.index?, hindexes])⟩

theorem State.Prunes.of_trav {s t : State} (h : t.trav = s.trav) : s.Prunes t := .of_tables (by rw [h]) (by rw [h])

theorem State.prunes_foldl {α : Type} {f : State → α → State} (h : ∀ (s : State) a, s.Prunes (f s a)) (l : List α) (s : State) : s.Prunes (l.foldl f s) := by
  induction l generalizing s with
  | nil => exact .of_trav rfl
  | cons a l ih => exact (h s a).trans (ih _)

/-- An index ends, with its shards. -/
def State.dropIndex (s : State) (e : Nat × Index) : State :=
  { s with trav.indexes := Tab.erase s.trav.indexes e.1, trav.shards := s.trav.shards.filter (fun h => decide (h.1 / 4096 ≠ s.lmf.eid * 256 + e.1)) }

theorem State.trvSweep_eq (s : State) :
    s.trvSweep = (s.trav.indexes.filter (fun e => e.2.destroying && !s.trav.queries.any (fun q => decide (fld (wAt q.words 2) 7 0 = e.1)))).foldl State.dropIndex s := rfl

theorem State.prunes_trvSweep (s : State) : s.Prunes s.trvSweep := by
  rw [State.trvSweep_eq]
  refine State.prunes_foldl (f := State.dropIndex) (fun s e => ⟨rfl, fun n => ?_⟩) _ s
  simp only [State.index?, State.dropIndex]
  rw [Tab.get?_erase]
  split
  · exact .inr rfl
  · exact .inl rfl

theorem State.indexes_foldl_dropIndex (l : List (Nat × Index)) (s : State) : (l.foldl State.dropIndex s).trav.indexes = (l.map Prod.fst).foldl Tab.erase s.trav.indexes := by
  induction l generalizing s with
  | nil => rfl
  | cons e l ih => exact ih _

/-- An index that is being destroyed, and has no query, ends (R505). -/
theorem State.index?_trvSweep {s : State} {n : Nat} {ix : Index} (hix : s.index? n = some ix) (hdestroying : ix.destroying = true) (hnone : ∀ q ∈ s.trav.queries, q.ix ≠ n) :
    s.trvSweep.index? n = none := by
  rw [State.trvSweep_eq, State.index?, State.indexes_foldl_dropIndex]
  refine Tab.get?_foldl_erase _ _ (.inl (List.mem_map.2 ⟨(n, ix), List.mem_filter.2 ⟨Tab.get?_mem hix, ?_⟩, rfl⟩))
  have hidle : s.trav.queries.any (fun q => decide (fld (wAt q.words 2) 7 0 = n)) = false := by simpa [Query.ix] using hnone
  simp [hdestroying, hidle]

theorem State.prunes_queryDrop (s : State) (id : Nat) (st : Status) : s.Prunes (s.queryDrop id st) := by
  unfold State.queryDrop
  split
  · exact .of_trav rfl
  · next q hq =>
    dsimp only
    refine State.Prunes.trans (.of_tables ?_ ?_) (State.prunes_trvSweep _) <;> simp [apply_ite State.trav, State.foldl_trav, State.dropDeadline]

theorem State.trav_of_holdOn {s t : State} {a : HoldAs} {rid off : Nat} {m : Met} {o : Option Status} (h : s.holdOn a rid off m = (t, o)) : t.trav = s.trav := by
  have hfirst : (s.holdOn a rid off m).1.trav = s.trav := by simp
  rwa [h] at hfirst

theorem State.prunes_holdOn_queryDrop {s t : State} {a : HoldAs} {rid off : Nat} {m : Met} {o : Option Status} (h : s.holdOn a rid off m = (t, o)) (id : Nat) : s.Prunes (t.queryDrop id) :=
  State.Prunes.trans (.of_trav (State.trav_of_holdOn h)) (State.prunes_queryDrop ..)

theorem State.prunes_blockOwn (s : State) (q : Query) (eid key off ctr : Nat) (data : Bytes) : s.Prunes (s.blockOwn q eid key off ctr data) := by
  unfold State.blockOwn
  dsimp only
  split
  · split
    · exact State.prunes_queryDrop ..
    · split
      · exact .of_trav rfl
      · split
        · refine State.Prunes.trans (.of_trav ?_) (State.prunes_queryDrop ..)
          simp [apply_ite State.trav]
        · split
          · next h => exact State.prunes_holdOn_queryDrop h _
          · next h => exact .of_trav (State.trav_of_holdOn h)
  · split
    · next h => exact State.Prunes.trans (.of_trav (State.trav_of_ownCounted h)) (State.prunes_queryDrop ..)
    · split
      · exact .of_trav rfl
      · exact .of_trav rfl
    · split
      · next h => exact State.Prunes.trans (.of_trav (by rw [← State.trav_of_holdOn h]; simp)) (State.prunes_queryDrop ..)
      · next h => exact .of_trav (State.trav_of_holdOn h)

theorem State.prunes_queryWrite (s : State) (id : Nat) : s.Prunes (s.queryWrite id) := by
  unfold State.queryWrite
  split
  · exact .of_trav rfl
  · split
    · exact .of_trav rfl
    · dsimp only
      split
      · exact .of_trav rfl
      · split
        · exact State.prunes_blockOwn ..
        · split
          · split
            · exact .of_trav rfl
            · exact State.Prunes.trans (.of_trav (State.foldl_trav _ (fun s c => by simp) _ _)) (.of_tables rfl rfl)
          · split
            · exact .of_trav rfl
            · exact State.Prunes.trans (.of_trav (State.foldl_trav _ (fun s c => by simp) _ _)) (.of_tables rfl rfl)

theorem State.prunes_queryEnd (s : State) (id : Nat) (st : Status) : s.Prunes (s.queryEnd id st) :=
  State.Prunes.trans (.of_tables rfl rfl) (State.prunes_queryWrite ..)


/-! ### The commands of an index (R491 to R505) -/

section Commands

variable {s u : State} {r : BciReq} {i : Issuer} {ix : Index} (hix : u.index? (r.w 1) = some ix) (hlive : ix.destroying = false) (hwaits : ix.waits = none)

/-- The shard's side list has room for one more update (R493). -/
def State.SideRoom (v : State) (index n : Nat) : Prop := ∀ h, v.shard? index n = some h → h.tail - h.head + (v.waitingUpdates index n).length < h.slCap

/-- The update the machine has taken, under the index's next epoch (R492). -/
def State.Took (t : State) (r : BciReq) (ix : Index) (n item attr : Nat) (ins : Bool) (vec : Bytes) : Prop :=
  (∃ y ∈ t.trav.updates, y.r = r ∧ y.index = r.w 1 ∧ y.shard = n ∧ y.epoch = ix.epoch + 1 ∧ y.ins = ins ∧ y.item = item ∧ y.attr = attr ∧ y.vec = vec ∧ y.appended = false)
    ∧ t.index? (r.w 1) = some { ix with epoch := ix.epoch + 1 }

theorem State.trvTake_took {v w : State} {n : Nat} (hroom : v.SideRoom (r.w 1) n) (htrav : w.trav = v.trav) (heid : w.lmf.eid = v.lmf.eid) (i : Issuer) (item attr lseq : Nat) (ins : Bool)
    (vec : Bytes) : ∃ t, w.trvTake r i (r.w 1) ix n item attr lseq ins vec = .next t ∧ t.Took r ix n item attr ins vec := by
  have hshard : w.shard? (r.w 1) n = v.shard? (r.w 1) n := by simp only [State.shard?, htrav, heid]
  have hwaiting : w.waitingUpdates (r.w 1) n = v.waitingUpdates (r.w 1) n := by simp only [State.waitingUpdates, htrav]
  unfold State.trvTake
  dsimp only
  refine ⟨_, if_neg ?_, ⟨_, List.mem_append_right _ (List.mem_singleton_self _), rfl, rfl, rfl, rfl, rfl, rfl, rfl, rfl, rfl⟩, Tab.get?_set_self ..⟩
  rw [hshard, hwaiting]
  split
  · next h hh => simpa using hroom h hh
  · exact Bool.false_ne_true

include hix hlive hwaits

/-- A delete is taken under the next epoch (R491). -/
theorem trvDelete_does {x : Nat × Region} (hpermit : u.permit u.lmf.eid (wAt ix.words 4) (dAt ix.words 5) 64 needW i = some x)
    (hready : s.ready (.trvDelete r) { BciRow.f 0x84 5 with minor := some 0, resv := fun r => above r 1 8 || above r 4 12 } r = some (i, u)) (hnew : u.logFind (u.issuerLog r i) (r.w 5) = none)
    (hshard : r.w 4 < ixShards ix.words) (hroom : u.SideRoom (r.w 1) (r.w 4)) : Does (.trvDelete r) s fun t => t.Took r ix (r.w 4) (r.d 2) 0 false [] := by
  have hexec : exec (.trvDelete r) s = execTrvDelete r s := rfl
  rw [execTrvDelete, bciServe_of_ready hready] at hexec
  dsimp only at hexec
  rw [State.once, hnew] at hexec
  dsimp only at hexec
  rw [hix] at hexec
  dsimp only at hexec
  rw [if_neg (by simp [hlive, hwaits, hpermit]), if_neg (by omega)] at hexec
  obtain ⟨t, ht, htook⟩ := State.trvTake_took (w := u) (ix := ix) hroom rfl rfl i (r.d 2) 0 (r.w 5) false []
  exact ⟨t, hexec.trans ht, htook⟩

/-- An insert is routed to the first shard of the route's beam, and taken under the next epoch (R491). -/
theorem trvInsert_does {x : Nat × Region} {rid n : Nat} {rg : Region} {rest : List Nat} {rr : Reads} {v : State} {vec : Bytes}
    (hpermit : u.permit u.lmf.eid (wAt ix.words 4) (dAt ix.words 5) 64 needW i = some x)
    (hready : s.ready (.trvInsert r) { BciRow.f 0x83 9 with minor := some 0, resv := fun r => above r 1 8 || offResv r 7 } r = some (i, u))
    (hnew : u.logFind (u.issuerLog r i) (r.w 9) = none) (hgot : u.gotSoFar = []) (hopens : u.opens r i (r.w 6) (r.d 7) (vecBytes ix.words) needR = some (rid, rg))
    (hclear : u.meetRead rid rg (.own i) (r.d 7) (vecBytes ix.words) = .clear) (hvec : vec = slotBytesOf ix.words (u.readRange rg (.own i) (r.d 7) (vecBytes ix.words)))
    (hv : v = u.readDone false rid (.own i) (r.d 7) (vecBytes ix.words)) (hgate : v.gateOf (v.ridOf v.lmf.eid (wAt ix.words 4)) = none)
    (hroute : runRd (routeVec ix.words vec 1 (v.usedReader v.lmf.eid (wAt ix.words 4) needE (v.ixIssuer (ixCtx ix.words)) (.own (v.ixIssuer (ixCtx ix.words))))) Reads.none = (.ok (n :: rest), rr))
    (hroom : v.SideRoom (r.w 1) n) : Does (.trvInsert r) s fun t => t.Took r ix n (r.d 2) (r.d 4) true vec := by
  have hexec : exec (.trvInsert r) s = execTrvInsert r s := rfl
  rw [execTrvInsert, bciServe_of_ready hready] at hexec
  dsimp only at hexec
  rw [State.once, hnew] at hexec
  dsimp only at hexec
  rw [hix] at hexec
  dsimp only at hexec
  rw [if_neg (by simp [hlive, hwaits, hpermit]), State.onRegion_of_opens hopens, if_neg (not_not_intro hgot), hclear] at hexec
  dsimp only at hexec
  rw [← hvec, ← hv, State.onIndex, State.reading, hgate] at hexec
  dsimp only at hexec
  rw [hroute] at hexec
  obtain ⟨t, ht, htook⟩ := State.trvTake_took (w := v.readsDone (v.ridOf v.lmf.eid (wAt ix.words 4)) (.own (v.ixIssuer (ixCtx ix.words))) Reads.none rr) (ix := ix) hroom (by simp)
    (State.eid_of_standing (State.standing_readsDone ..)) i (r.d 2) (r.d 4) (r.w 9) true vec
  exact ⟨t, hexec.trans ht, htook⟩

/-- A merge of the shard's records up to the applied epoch starts (R496). -/
theorem trvMerge_does {h : Shard} (hready : s.ready (.trvMerge r) { BciRow.o 0x85 2 with minor := some 0, resv := fun r => above r 1 8 || above r 2 12 } r = some (i, u))
    (hshard : u.shard? (r.w 1) (r.w 2) = some h) (hmerge : h.merge = none) : Answers (.trvMerge r) s r (one u.bci.nextOp) fun t =>
      t.shard? (r.w 1) (r.w 2) = some { h with merge := some u.bci.nextOp, mergeTo := ix.applied } ∧ t.home = u.home := by
  have hexec : exec (.trvMerge r) s = execTrvMerge r s := rfl
  rw [execTrvMerge, bciServe_of_ready hready] at hexec
  rw [hix, hshard] at hexec
  dsimp only at hexec
  rw [if_neg (by simp [hlive, hwaits]), if_neg (by simp [hmerge])] at hexec
  exact ⟨_, hexec, State.shard?_setShard .., rfl⟩

omit hix hlive hwaits in
/-- The merge of a shard is cancelled (R497). -/
theorem trvMergeCancel_does {h : Shard} {op : Nat} (hready : s.ready (.trvMergeCancel r) { BciRow.o 0x86 2 with minor := some 4, resv := fun r => above r 1 8 || above r 2 12 } r = some (i, u))
    (hshard : u.shard? (r.w 1) (r.w 2) = some h) (hmerge : h.merge = some op) :
    Answers (.trvMergeCancel r) s r [] fun t => t.shard? (r.w 1) (r.w 2) = some { h with merge := none } := by
  have hexec : exec (.trvMergeCancel r) s = execTrvMergeCancel r s := rfl
  rw [execTrvMergeCancel, bciServe_of_ready hready] at hexec
  rw [hshard] at hexec
  dsimp only at hexec
  rw [if_neg (by simp [hmerge])] at hexec
  exact ⟨_, hexec, State.shard?_mergeStop hshard hmerge ..⟩

omit hix hlive hwaits in
/-- The ends of merges leave everything of Traverse but the shards. -/
theorem State.trav_foldl_mergeStop (l : List Nat) (s : State) (index state : Nat) (st : Status) :
    (l.foldl (fun (s : State) n => s.mergeStop index n state st) s).trav = { s.trav with shards := (l.foldl (fun (s : State) n => s.mergeStop index n state st) s).trav.shards } := by
  induction l generalizing s with
  | nil => rfl
  | cons n l ih =>
    rw [List.foldl_cons, ih, State.trav_mergeStop]

/-- INDEX_DESTROY ends the updates that wait; the index ends with its last query (R505). -/
theorem indexDestroy_does (hready : s.ready (.indexDestroy r) { BciRow.o 0x81 1 with minor := some 0, resv := fun r => above r 1 8 } r = some (i, u)) :
    Answers (.indexDestroy r) s r [] fun t => (∀ x ∈ t.trav.updates, x.index ≠ r.w 1)
      ∧ ((∀ q ∈ u.trav.queries, q.ix ≠ r.w 1) → t.index? (r.w 1) = none) ∧ ∀ y, t.index? (r.w 1) = some y → y.destroying = true := by
  have hexec : exec (.indexDestroy r) s = execIndexDestroy r s := rfl
  rw [execIndexDestroy, bciServe_of_ready hready] at hexec
  dsimp only at hexec
  rw [hix] at hexec
  dsimp only at hexec
  rw [if_neg (by simp [hlive, hwaits])] at hexec
  refine ⟨_, hexec, ?_⟩
  have hstop := State.trav_foldl_mergeStop (upto (ixShards ix.words)) { u with trav.indexes := Tab.set u.trav.indexes (r.w 1) { ix with destroying := true } } (r.w 1) 2 .ok
  generalize (upto (ixShards ix.words)).foldl _ _ = v at hstop ⊢
  generalize v.trav.updates.filter (fun u => decide (u.index = r.w 1)) = ended
  have hanswers := State.foldl_trav (fun (s : State) (x : TrvUpdate) => s.trvAnswer x.r { eid := x.eid, ctx := x.ctx, admin := false } x.index x.lseq .key [] 0) (fun s x => by simp) ended
    { v with trav.updates := v.trav.updates.filter (fun (x : TrvUpdate) => decide (x.index ≠ r.w 1)) }
  generalize ended.foldl _ _ = w at hanswers ⊢
  have hindex : w.index? (r.w 1) = some { ix with destroying := true } := by
    rw [State.index?, hanswers, hstop]
    exact Tab.get?_set_self ..
  have hqueries : w.trav.queries = u.trav.queries := by rw [hanswers, hstop]
  have hends := State.prunes_foldl (f := fun (s : State) (q : Query) => s.queryEnd q.id .key) (fun s q => State.prunes_queryEnd ..)
    (w.trav.queries.filter (fun q => decide (q.ix = r.w 1) && !q.started && q.final.isNone)) w
  refine ⟨?_, fun hnone => ?_, fun y hy => ?_⟩
  · rw [(hends.trans (State.prunes_trvSweep _)).1, hanswers]
    exact fun x hx => by simpa using (List.mem_filter.1 hx).2
  · have hnone : ∀ q ∈ w.trav.queries, q.ix ≠ r.w 1 := by rwa [hqueries]
    rw [List.filter_eq_nil_iff.2 (fun q hq => by simp [hnone q hq])]
    exact State.index?_trvSweep hindex rfl hnone
  · rcases (hends.trans (State.prunes_trvSweep _)).2 (r.w 1) with h | h
    · rw [h, hindex] at hy
      cases hy
      rfl
    · rw [h] at hy
      cases hy

end Commands


/-! ### The side lists and the graph (R493 to R504) -/

theorem State.trav_of_putAll {s v : State} {h : Shard} {work : WorkRef} {ws : List (Nat × Bytes)} (hput : s.putAll h work ws = .ok v) : v.trav = s.trav := by
  unfold State.putAll at hput
  dsimp only at hput
  split at hput
  · cases hput
  · cases hput
    exact State.foldl_trav _ (fun s w => by simp) _ _

theorem State.isHeld_of_nothing {s : State} (hheld : s.home.held = []) (cmd : Instr) : s.isHeld cmd = false := by
  rw [State.isHeld, hheld]
  rfl

theorem State.shards_trvComplete (s : State) (index : Nat) : (s.trvComplete index).trav.shards = s.trav.shards := by
  unfold State.trvComplete
  split
  · rfl
  · dsimp only
    rw [State.foldl_trav _ (fun s u => by simp)]

/-- A merge that starts by itself leaves the side list (R496). -/
theorem State.shard?_autoMerge {s : State} {index shard : Nat} {h : Shard} (hshard : s.shard? index shard = some h) :
    ∃ y, (s.autoMerge index shard).shard? index shard = some y ∧ y.tail = h.tail ∧ y.head = h.head := by
  unfold State.autoMerge
  rw [hshard]
  split
  · next ix k _ hk =>
    cases hk
    split
    · exact ⟨_, State.shard?_setShard .., rfl, rfl⟩
    · exact ⟨h, hshard, rfl, rfl⟩
  · exact ⟨h, hshard, rfl, rfl⟩

/-- The record is in the side list, whose tail passes it (R493). -/
theorem State.shard?_appendOver (s : State) (x : TrvUpdate) (h : Shard) :
    ∃ y, (s.appendOver x h).shard? x.index x.shard = some y ∧ y.tail = h.tail + 1 ∧ y.head = h.head := by
  unfold State.appendOver
  dsimp only
  refine State.shard?_autoMerge (h := { h with tail := h.tail + 1 }) ?_
  rw [State.shard?_of_shards (State.shards_trvComplete ..) (by simp)]
  exact State.shard?_setShard ..

theorem foldl_min_of_le {l : List Nat} {n : Nat} (h : ∀ k ∈ l, n ≤ k) : l.foldl min n = n := by
  induction l with
  | nil => rfl
  | cons k l ih =>
    obtain ⟨hk, hl⟩ := List.forall_mem_cons.1 h
    rw [List.foldl_cons, min_eq_left hk]
    exact ih hl

section Append

variable {s : State} {x : TrvUpdate} {h : Shard} (hruns : s.runs = true) (hshard : s.shard? x.index x.shard = some h) (hheld : s.home.held = [])
  (hfind : s.trav.updates.find? (fun y => decide (y.id = x.id)) = some x) (hopen : x.appended = false) (hfirst : ∀ y ∈ s.waitingUpdates x.index x.shard, x.epoch ≤ y.epoch)
include hruns hshard hheld hfind hopen hfirst

/-- The first update of the shard that waits goes on. -/
theorem exec_sideListAppend : exec (.sideListAppend x.id) s =
    if x.written then
      if s.mirroring (.batch x.id) || s.txnLive (fun w => decide (w = .append x.id)) then .next s else .next (s.appendOver x h)
    else if s.isOwn h.home then
      match s.gateOf (s.ridOf h.home h.key) with
      | some why => .next (s.holdCmd (.sideListAppend x.id) why 0 (s.ixIssuer h.ictx).eid (s.ixIssuer h.ictx).ctx)
      | none =>
        match s.putAll h (.batch x.id) [(h.sideAt h.tail, x.record h)] with
        | .ok s => .next (if s.mirroring (.batch x.id) then s.modUpdate x.id (fun u => { u with written := true }) else s.appendOver x h)
        | .error (o, m) =>
          match s.holdOn (s.travHold (.sideListAppend x.id) (s.ixIssuer h.ictx) 4 true) (s.ridOf h.home h.key) o m with
          | (s, some st) => .next (s.updateFail x st)
          | (s, none) => .next s
    else .next ((s.modUpdate x.id (fun u => { u with written := true })).sendTxn (.append x.id) h.ictx h.home opAppend h.key (h.sideAt h.tail) 0 (x.record h) true) := by
  have hexec : exec (.sideListAppend x.id) s = execSideListAppend x.id s := rfl
  rw [execSideListAppend, whenUp_of_runs hruns] at hexec
  dsimp only at hexec
  rw [hfind] at hexec
  dsimp only at hexec
  rw [hshard] at hexec
  dsimp only at hexec
  have hmin : ((s.waitingUpdates x.index x.shard).map TrvUpdate.epoch).foldl min x.epoch = x.epoch := by
    refine foldl_min_of_le fun k hk => ?_
    obtain ⟨y, hy, rfl⟩ := List.mem_map.1 hk
    exact hfirst y hy
  rw [if_neg (by simp [hopen, hmin, State.isHeld_of_nothing hheld])] at hexec
  exact hexec

/-- This home writes the record in its own memory. -/
theorem sideListAppend_writes {v : State} (hwritten : x.written = false) (hown : s.isOwn h.home = true) (hgate : s.gateOf (s.ridOf h.home h.key) = none)
    (hput : s.putAll h (.batch x.id) [(h.sideAt h.tail, x.record h)] = .ok v) (hmirror : v.mirroring (.batch x.id) = false) :
    Does (.sideListAppend x.id) s fun t => ∃ y, t.shard? x.index x.shard = some y ∧ y.tail = h.tail + 1 ∧ y.head = h.head := by
  have hexec := exec_sideListAppend hruns hshard hheld hfind hopen hfirst
  rw [hwritten, if_neg Bool.false_ne_true, if_pos hown, hgate] at hexec
  dsimp only at hexec
  rw [hput] at hexec
  dsimp only at hexec
  rw [hmirror, if_neg Bool.false_ne_true] at hexec
  exact ⟨_, hexec, State.shard?_appendOver v x h⟩

/-- Another shard home is sent the record. -/
theorem sideListAppend_sends (hwritten : x.written = false) (hown : s.isOwn h.home = false) :
    Does (.sideListAppend x.id) s fun t => ∃ y ∈ t.trav.updates, y.id = x.id ∧ y.written = true := by
  have hexec := exec_sideListAppend hruns hshard hheld hfind hopen hfirst
  rw [hwritten, if_neg Bool.false_ne_true, hown, if_neg Bool.false_ne_true] at hexec
  refine ⟨_, hexec, { x with written := true }, ?_, rfl, rfl⟩
  simp only [State.sendTxn_keeps]
  exact List.mem_map.2 ⟨x, List.mem_of_find?_eq_some hfind, if_pos rfl⟩

/-- The record that was written elsewhere is in the side list. -/
theorem sideListAppend_ends (hwritten : x.written = true) (hmirror : s.mirroring (.batch x.id) = false) (htxn : s.txnLive (fun w => decide (w = .append x.id)) = false) :
    Does (.sideListAppend x.id) s fun t => ∃ y, t.shard? x.index x.shard = some y ∧ y.tail = h.tail + 1 ∧ y.head = h.head := by
  have hexec := exec_sideListAppend hruns hshard hheld hfind hopen hfirst
  rw [if_pos hwritten, if_neg (by simp [hmirror, htxn])] at hexec
  exact ⟨_, hexec, State.shard?_appendOver s x h⟩

end Append

section Merge

variable {s : State} {index shard op : Nat} {h : Shard} (hruns : s.runs = true) (hshard : s.shard? index shard = some h) (hheld : s.home.held = []) (hmerge : h.merge = some op)

/-- The shard after a record is folded: the record is linked (R500). -/
theorem State.shard?_folded (s : State) (index shard op : Nat) (h : Shard) :
    (s.folded index shard op h).shard? index shard = some { h with linkTimes := Tab.set h.linkTimes (h.head + h.linkTimes.length) s.trav.startCount } := by
  unfold State.folded
  dsimp only
  refine (State.shard?_of_shards (s := s.setShard index shard { h with linkTimes := Tab.set h.linkTimes (h.head + h.linkTimes.length) s.trav.startCount }) rfl ?_ ..).trans ?_
  · simp
  · exact State.shard?_setShard ..

include hruns hshard hheld hmerge

/-- The merge ends when no record is left. -/
theorem mergeRecord_empty (hdone : h.tail ≤ h.head + h.linkTimes.length) : Does (.mergeRecord index shard) s fun t => t.shard? index shard = some { h with merge := none } := by
  have hexec : exec (.mergeRecord index shard) s = execMergeRecord index shard s := rfl
  rw [execMergeRecord, whenUp_of_runs hruns] at hexec
  dsimp only at hexec
  rw [hshard] at hexec
  dsimp only at hexec
  rw [hmerge] at hexec
  dsimp only at hexec
  rw [State.isHeld_of_nothing hheld, if_neg Bool.false_ne_true, if_pos hdone] at hexec
  exact ⟨_, hexec, State.shard?_mergeStop hshard hmerge ..⟩

/-- Another shard home is asked to fold the record. -/
theorem mergeRecord_asks (hmore : h.head + h.linkTimes.length < h.tail) (hown : s.isOwn h.home = false) (htxn : s.txnLive (fun w => decide (w = .fold index shard)) = false) :
    exec (.mergeRecord index shard) s =
      .next (s.sendTxn (.fold index shard) h.ictx h.home opFold h.key (h.sideAt (h.head + h.linkTimes.length)) 0 (natLE 8 h.mergeTo) true) := by
  have hexec : exec (.mergeRecord index shard) s = execMergeRecord index shard s := rfl
  rw [execMergeRecord, whenUp_of_runs hruns] at hexec
  dsimp only at hexec
  rw [hshard] at hexec
  dsimp only at hexec
  rw [hmerge] at hexec
  dsimp only at hexec
  rwa [State.isHeld_of_nothing hheld, if_neg Bool.false_ne_true, if_neg (by omega), if_pos (by simp [hown]), if_neg (by simp [htxn])] at hexec

variable {rr : Reads} (hmore : h.head + h.linkTimes.length < h.tail) (hown : s.isOwn h.home = true) (hgate : s.gateOf (s.ridOf h.home h.key) = none)
include hmore hown hgate

/-- The merge ends at a record past its epoch (R498). -/
theorem mergeRecord_past (hfold : runRd (foldRecord h (s.usable h).head? (h.head + h.linkTimes.length) (s.usedReader h.home h.key needE (s.ixIssuer h.ictx) (.own (s.ixIssuer h.ictx)))) Reads.none = (.ok none, rr)) :
    Does (.mergeRecord index shard) s fun t => t.shard? index shard = some { h with merge := none } := by
  have hexec : exec (.mergeRecord index shard) s = execMergeRecord index shard s := rfl
  rw [execMergeRecord, whenUp_of_runs hruns] at hexec
  dsimp only at hexec
  rw [hshard] at hexec
  dsimp only at hexec
  rw [hmerge] at hexec
  dsimp only at hexec
  rw [State.isHeld_of_nothing hheld, if_neg Bool.false_ne_true, if_neg (by omega), if_neg (by simp [hown]), State.onIndex, State.reading, hgate] at hexec
  dsimp only at hexec
  rw [hfold] at hexec
  refine ⟨_, hexec, State.shard?_mergeStop ?_ hmerge ..⟩
  rw [State.shard?_of_shards (by simp) (State.standing_readsDone ..)]
  exact hshard

/-- A record is folded into the graph (R499, R500). -/
theorem mergeRecord_folds {x : SideRec} {ws : List (Nat × Bytes)} {v : State}
    (hfold : runRd (foldRecord h (s.usable h).head? (h.head + h.linkTimes.length) (s.usedReader h.home h.key needE (s.ixIssuer h.ictx) (.own (s.ixIssuer h.ictx)))) Reads.none = (.ok (some (x, ws)), rr))
    (hslot : x.op = 1 → (s.usable h).head? ≠ none) (hput : (s.readsDone (s.ridOf h.home h.key) (.own (s.ixIssuer h.ictx)) Reads.none rr).putAll h (.batch 0) ws = .ok v) :
    Does (.mergeRecord index shard) s fun t => ∃ y, t.shard? index shard = some y ∧ y.merge = some op ∧ Tab.has y.linkTimes (h.head + h.linkTimes.length) = true ∧ y.tail = h.tail
      ∧ ∀ slot, x.op = 1 → (s.usable h).head? = some slot → y.count = max h.count (slot + 1) ∧ slot ∉ y.freeSlots.map Prod.fst := by
  have hexec : exec (.mergeRecord index shard) s = execMergeRecord index shard s := rfl
  rw [execMergeRecord, whenUp_of_runs hruns] at hexec
  dsimp only at hexec
  rw [hshard] at hexec
  dsimp only at hexec
  rw [hmerge] at hexec
  dsimp only at hexec
  rw [State.isHeld_of_nothing hheld, if_neg Bool.false_ne_true, if_neg (by omega), if_neg (by simp [hown]), State.onIndex, State.reading, hgate] at hexec
  dsimp only at hexec
  rw [hfold] at hexec
  dsimp only at hexec
  rw [if_neg (fun hnone => hslot hnone.1 hnone.2), hput] at hexec
  refine ⟨_, hexec, ?_⟩
  split
  · next slot _ hhead =>
    refine ⟨_, State.shard?_folded .., rfl, Tab.has_set_self .., rfl, fun k _ hk => ?_⟩
    rw [hhead] at hk
    cases hk
    exact ⟨rfl, by simp⟩
  · next hother => exact ⟨_, State.shard?_folded .., hmerge, Tab.has_set_self .., rfl, fun slot hop hhead => absurd hhead (hother slot hop)⟩

end Merge

section Slots

variable {s : State} {index shard n : Nat} {h : Shard} (hruns : s.runs = true) (hshard : s.shard? index shard = some h)
include hruns hshard

/-- A linked record retires once no query that began before the link is left (R501). -/
theorem recordRetire_does {k : Nat} (hlink : Tab.get? h.linkTimes h.head = some k) (hdone : ∀ q ∈ s.trav.queries, q.ix = index → q.started = true → k ≤ q.startNo) :
    exec (.recordRetire index shard h.head) s = .next (s.setShard index shard { h with head := h.head + 1, linkTimes := Tab.erase h.linkTimes h.head }) := by
  have hexec : exec (.recordRetire index shard h.head) s = execRecordRetire index shard h.head s := rfl
  rw [execRecordRetire, whenUp_of_runs hruns] at hexec
  rw [hshard] at hexec
  dsimp only at hexec
  rw [hlink] at hexec
  dsimp only at hexec
  have hidle : s.trav.queries.any (fun q => decide (q.ix = index) && q.started && decide (q.startNo < k)) = false := by
    simpa using hdone
  rwa [if_pos ⟨rfl, hidle⟩] at hexec

/-- The slot of a deleted vector is free once its edges are unlinked (R503, R504). -/
theorem slotReclaim_does {op del : Nat} {ws : List (Nat × Bytes)} {v : State} {rr : Reads} (hheld : s.home.held = []) (hmerge : h.merge = some op) (hin : n < h.count)
    (hused : n ∉ h.freeSlots.map Prod.fst) (hentry : n ≠ h.entry) (hown : s.isOwn h.home = true) (hgate : s.gateOf (s.ridOf h.home h.key) = none)
    (hread : runRd (reclaimSlot h n (s.usedReader h.home h.key needE (s.ixIssuer h.ictx) (.own (s.ixIssuer h.ictx)))) Reads.none = (.ok (del, ws), rr)) (hdel : del ≠ 2 ^ 64 - 1)
    (hdone : ∀ q ∈ s.trav.queries, q.ix = index → q.started = true → del ≤ q.epoch)
    (hput : (s.readsDone (s.ridOf h.home h.key) (.own (s.ixIssuer h.ictx)) Reads.none rr).putAll h (.batch 0) ws = .ok v) :
    Does (.slotReclaim index shard n) s fun t => t.shard? index shard = some { h with freeSlots := h.freeSlots ++ [(n, v.walking index shard)] } := by
  have hexec : exec (.slotReclaim index shard n) s = execSlotReclaim index shard n s := rfl
  rw [execSlotReclaim, whenUp_of_runs hruns] at hexec
  dsimp only at hexec
  rw [hshard] at hexec
  dsimp only at hexec
  rw [if_neg (by simpa [hmerge, State.isHeld_of_nothing hheld, hown, hentry, hin] using hused), State.onIndex, State.reading, hgate] at hexec
  dsimp only at hexec
  rw [hread] at hexec
  dsimp only at hexec
  rw [if_neg (by simpa using ⟨hdel, hdone⟩), hput] at hexec
  exact ⟨_, hexec, State.shard?_setShard ..⟩

end Slots


/-- Settles O57: the commands of an index; the side list's append; a merge by whether a record is left, and whose; retirement and reclaim. -/
theorem indexUpdates : Obligations.IndexUpdates := by
  unfold Obligations.IndexUpdates
  refine ⟨fun s r i u ix hix => ⟨fun hlive hwaits x hpermit => ⟨fun rid rg n rest rr hready hnew hgot hopens hclear hgate hroute hroom => ?insert, fun hready hnew hshard hroom => ?delete⟩,
      fun h hready hshard hlive hwaits hmerge => trvMerge_does hix hlive hwaits hready hshard hmerge, fun h op hready hshard hmerge => trvMergeCancel_does hready hshard hmerge,
      fun hready hlive hwaits => indexDestroy_does hix hlive hwaits hready⟩,
    fun s index shard h hruns hshard hlines hheld => ⟨fun x hfind hindex hsh hopen hfirst => ?append, fun op hmerge => ⟨fun hdone => ?empty, fun hmore hown htxn => ?asks,
        fun x slot ws v rr hmore hown hgate hslot hfold hop hput => ?insertFold, fun x ws v rr hmore hown hgate hfold hop hput => ?deleteFold, fun rr hmore hown hgate hfold => ?past⟩,
      fun k hlink hdone => recordRetire_does hruns hshard hlink hdone, fun n op del ws v rr hmerge hin hused hentry hown hgate hread hdel hdone hput =>
        slotReclaim_does hruns hshard hheld hmerge hin hused hentry hown hgate hread hdel hdone hput⟩⟩
  case insert => exact trvInsert_does hix hlive hwaits hpermit hready hnew hgot hopens hclear rfl rfl hgate hroute hroom
  case delete => exact trvDelete_does hix hlive hwaits hpermit hready hnew hshard hroom
  case append =>
    subst hindex hsh
    exact ⟨fun v hwritten hown hgate hput hmirror => sideListAppend_writes hruns hshard hheld hfind hopen hfirst hwritten hown hgate hput hmirror,
      fun hwritten hown => sideListAppend_sends hruns hshard hheld hfind hopen hfirst hwritten hown,
      fun hwritten hmirror htxn => sideListAppend_ends hruns hshard hheld hfind hopen hfirst hwritten hmirror htxn⟩
  case empty => exact mergeRecord_empty hruns hshard hheld hmerge hdone
  case asks => exact mergeRecord_asks hruns hshard hheld hmerge hmore hown htxn
  case insertFold =>
    rw [← hslot] at hfold
    obtain ⟨t, hexec, y, hy, hrest, hlinked, htail, htaken⟩ := mergeRecord_folds hruns hshard hheld hmerge hmore hown hgate hfold (by simp [hslot]) hput
    exact ⟨t, hexec, ⟨y, hy, hrest, hlinked, htail⟩, y, hy, htaken slot hop hslot⟩
  case deleteFold =>
    obtain ⟨t, hexec, y, hy, hrest, hlinked, htail, -⟩ := mergeRecord_folds hruns hshard hheld hmerge hmore hown hgate hfold (fun h => absurd h hop) hput
    exact ⟨t, hexec, y, hy, hrest, hlinked, htail⟩
  case past => exact mergeRecord_past hruns hshard hheld hmerge hmore hown hgate hfold

end Sys2Proof.Machine

/-! PROOF. O56: indexes, queries, walks, their merge and the result block (12). -/

namespace Sys2Proof.Machine

/-! ### Reads leave the regions, and what depends on them -/

theorem State.touchRange_regions (s : State) (port : Bool) (rid : Nat) (v : View) (off n : Nat) : (s.touchRange port rid v off n).home.regions = s.home.regions := by
  unfold State.touchRange
  generalize pieces off n = ps
  induction ps generalizing s with
  | nil => rfl
  | cons q ps ih =>
    rw [List.foldl_cons, ih]
    split
    · rfl
    · split
      · unfold State.touch
        dsimp only
        split <;> rfl
      · rfl

theorem State.readDone_regions (s : State) (port : Bool) (rid : Nat) (v : View) (off n : Nat) : (s.readDone port rid v off n).home.regions = s.home.regions := by
  unfold State.readDone
  dsimp only
  rw [State.touchRange_regions]
  generalize pieces off n = ps
  induction ps generalizing s with
  | nil => rfl
  | cons q ps ih =>
    rw [List.foldl_cons, ih]
    split
    · rfl
    · split
      · simp
      · rfl

theorem State.live_of_regions {s t : State} (hregions : t.home.regions = s.home.regions) (heid : t.lmf.eid = s.lmf.eid) (eid key : Nat) : t.live eid key = s.live eid key := by
  simp only [State.live, State.region?, State.ridOf, hregions, heid]

theorem State.permit_of_regions {s t : State} (hregions : t.home.regions = s.home.regions) (heid : t.lmf.eid = s.lmf.eid) (hsec : t.sec = s.sec) (home key off n : Nat) (need : Rights)
    (i : Issuer) : t.permit home key off n need i = s.permit home key off n need i := by
  simp only [State.permit, State.sealed, State.live_of_regions hregions heid, heid, hsec] <;> rfl

/-- Whether a shard fits depends on the regions, this endpoint and the sessions alone. -/
theorem State.shardFits_of_regions {s t : State} (hregions : t.home.regions = s.home.regions) (heid : t.lmf.eid = s.lmf.eid) (hsec : t.sec = s.sec) (eid : Nat) (h : Shard) (i : Issuer) :
    t.shardFits eid h i = s.shardFits eid h i := by
  simp only [State.shardFits, State.permit_of_regions hregions heid hsec, State.live_of_regions hregions heid] <;> rfl

/-! ### The shards of a new index -/

theorem shKey_inj {home index n m : Nat} (h : shKey home index n = shKey home index m) : n = m := by
  unfold shKey at h
  omega

theorem State.index?_foldl_setShard (l : List Shard) (n : Nat) (s : State) : (l.foldl (fun (s : State) h => s.setShard n h.shard h) s).trav.indexes = s.trav.indexes := by
  induction l generalizing s with
  | nil => rfl
  | cons h l ih => exact ih _

/-- Each shard of a list without two of one number is the shard of its number. -/
theorem State.shard?_foldl_setShard {l : List Shard} (hnodup : (l.map Shard.shard).Nodup) (n : Nat) (s : State) :
    (∀ h ∈ l, (l.foldl (fun (s : State) h => s.setShard n h.shard h) s).shard? n h.shard = some h)
      ∧ ∀ k, k ∉ l.map Shard.shard → (l.foldl (fun (s : State) h => s.setShard n h.shard h) s).shard? n k = s.shard? n k := by
  induction l generalizing s with
  | nil => exact ⟨fun h hh => absurd hh List.not_mem_nil, fun k _ => rfl⟩
  | cons g l ih =>
    rw [List.map_cons, List.nodup_cons] at hnodup
    obtain ⟨hnew, hnodup⟩ := hnodup
    obtain ⟨hin, hout⟩ := ih hnodup (s.setShard n g.shard g)
    refine ⟨List.forall_mem_cons.2 ⟨?_, hin⟩, fun k hk => ?_⟩
    · rw [List.foldl_cons, hout _ hnew]
      exact State.shard?_setShard ..
    · rw [List.map_cons, List.mem_cons, not_or] at hk
      rw [List.foldl_cons, hout k hk.2]
      exact Tab.get?_set_ne _ _ (fun h => hk.1 (shKey_inj h))

section IndexCreate

variable {s u v : State} {r : BciReq} {i me : Issuer} {rid tid xid n : Nat} {rg tree table : Region} {ws : List Word} {tb : Bytes} {d : Nat → List Word}

/-- The shards of an index, from its descriptor table. -/
def State.shardsOf (v : State) (ws : List Word) (n : Nat) (d : Nat → List Word) : List Shard :=
  (upto (ixShards ws)).map (fun k => shardOf ws n k (v.ridOf (wAt (d k) 0) (wAt (d k) 1)) (d k))

theorem zipIdx_map_upto {α : Type} (d : Nat → α) (n : Nat) : ((upto n).map d).zipIdx = (upto n).map (fun k => (d k, k)) := by
  refine List.ext_getElem (by simp [upto]) fun k _ _ => ?_
  simp [upto]

/-- An index is made with the shards its table describes (R465 to R468). -/
theorem indexCreate_does (hready : s.ready (.indexCreate r) { BciRow.o 0x80 3 with minor := some 0, resv := fun r => offResv r 2 } r = some (i, u))
    (hopens : u.opens r i (r.w 1) (r.d 2) 128 needR = some (rid, rg)) (hclear : u.meetRead rid rg (.own i) (r.d 2) 128 = .clear)
    (hws : ws = wordsOf (u.readRange rg (.own i) (r.d 2) 128)) (hv : v = u.readDone false rid (.own i) (r.d 2) 128) (hme : me = v.ixIssuer (ixCtx ws))
    (htb : tb = v.readRange table (.own me) (dAt ws 8) (64 * ixShards ws)) (hd : d = fun n => wordsOf ((tb.drop (64 * n)).take 64)) (hn : n = lowestFree (Tab.keys v.trav.indexes) 0)
    (hok : indexOk ws = true) (hctx : v.ctxOk (ixCtx ws) = true) (htree : v.permit v.lmf.eid (wAt ws 4) (dAt ws 5) 64 needEW me = some (tid, tree)) (htreeMode : tree.mode ≠ .coherent)
    (htable : v.permit v.lmf.eid (wAt ws 7) (dAt ws 8) (64 * ixShards ws) needEW me = some (xid, table)) (htableMode : table.mode ≠ .coherent)
    (htableClear : v.meetRead xid table (.own me) (dAt ws 8) (64 * ixShards ws) = .clear) (hfree : n < 256) (hroom : v.trav.shards.length + ixShards ws ≤ 4096)
    (hshards : ∀ k < ixShards ws, shardOk (d k) = true ∧ v.isOwn (wAt (d k) 0) = true ∧
      v.shardFits (wAt (d k) 0) (shardOf ws n k (v.ridOf (wAt (d k) 0) (wAt (d k) 1)) (d k)) me = some true) :
    Answers (.indexCreate r) s r (one n) fun t => t.index? n = some { words := ws, epoch := 0, applied := 0, destroying := false }
      ∧ ∀ k < ixShards ws, t.shard? n k = some (shardOf ws n k (v.ridOf (wAt (d k) 0) (wAt (d k) 1)) (d k)) := by
  have hexec : exec (.indexCreate r) s = execIndexCreate r s := rfl
  rw [execIndexCreate, bciServe_of_ready hready] at hexec
  dsimp only at hexec
  rw [State.onRegion_of_opens hopens, hclear] at hexec
  dsimp only at hexec
  rw [← hws, ← hv, ← hme, hok, Bool.not_true, if_neg Bool.false_ne_true, hctx, Bool.not_true, if_neg Bool.false_ne_true, htree, htable] at hexec
  dsimp only at hexec
  rw [if_neg (by simp [htreeMode, htableMode]), htableClear] at hexec
  dsimp only at hexec
  rw [← htb] at hexec
  have hdone : ∀ w, w = v.readDone false xid (.own me) (dAt ws 8) (64 * ixShards ws) → w.trav = v.trav ∧ w.home.regions = v.home.regions ∧ w.lmf.eid = v.lmf.eid ∧ w.sec = v.sec ∧ w.rel = v.rel := by
    rintro w rfl
    exact ⟨by simp, State.readDone_regions .., State.eid_of_standing (State.standing_readDone ..), by simp, by simp⟩
  generalize v.readDone false xid (.own me) (dAt ws 8) (64 * ixShards ws) = w at hdone hexec
  obtain ⟨htrav, hregions, heid, hsec, hrel⟩ := hdone w rfl
  have hlist : (((upto (ixShards ws)).map d).zipIdx).map (fun p => shardOf ws n p.2 (w.ridOf (wAt p.1 0) (wAt p.1 1)) p.1) = v.shardsOf ws n d := by
    rw [zipIdx_map_upto, List.map_map]
    simp only [State.shardsOf, State.ridOf, heid]
    rfl
  rw [← hd, htrav, ← hn, hlist] at hexec
  have hown : ∀ h ∈ v.shardsOf ws n d, w.isOwn h.home = true := by
    intro h hh
    obtain ⟨k, hk, rfl⟩ := List.mem_map.1 hh
    have hmine := (hshards k (List.mem_range.1 hk)).2.1
    rw [State.isOwn, ← heid, ← hrel] at hmine
    exact hmine
  have hfits : ∀ x ∈ (v.shardsOf ws n d).map (fun h => w.shardFits h.home h me), x = some true := by
    intro x hx
    obtain ⟨h, hh, rfl⟩ := List.mem_map.1 hx
    obtain ⟨k, hk, rfl⟩ := List.mem_map.1 hh
    rw [State.shardFits_of_regions hregions heid hsec]
    exact (hshards k (List.mem_range.1 hk)).2.2
  have hall : ((upto (ixShards ws)).map d).all shardOk = true := by
    simpa [upto] using fun k hk => (hshards k hk).1
  have hfar : (v.shardsOf ws n d).filter (fun h => !w.isOwn h.home) = [] := List.filter_eq_nil_iff.2 fun h hh => by simp [hown h hh]
  have hnever : ∀ x, x ≠ some true → ((v.shardsOf ws n d).map (fun h => w.shardFits h.home h me)).contains x = false := fun x hx =>
    Bool.eq_false_iff.2 fun hc => hx (hfits x (List.contains_iff_mem.1 hc))
  rw [List.filter_eq_self.2 hown, hall, hnever (some false) (by decide), hnever none (by decide), hfar, if_neg (by decide), if_neg Bool.false_ne_true,
    if_neg (by rw [State.shardsOf, List.length_map, upto, List.length_range]; omega), if_pos rfl, if_pos rfl] at hexec
  have hnodup : ((v.shardsOf ws n d).map Shard.shard).Nodup := by
    rw [State.shardsOf, List.map_map]
    exact (List.map_id (upto (ixShards ws))).symm ▸ List.nodup_range
  obtain ⟨hin, -⟩ := State.shard?_foldl_setShard hnodup n
    { w with trav := { v.trav with indexes := Tab.set v.trav.indexes n { words := ws, epoch := 0, applied := 0, destroying := false } } }
  refine ⟨_, hexec, ?_, fun k hk => hin _ (List.mem_map.2 ⟨k, List.mem_range.2 hk, rfl⟩)⟩
  rw [State.index?, State.index?_foldl_setShard]
  exact Tab.get?_set_self ..

end IndexCreate


/-! ### The merge of the returns keeps one entry for each ITEM (R486) -/

/-- What the merge does with one more entry. -/
def mergeStep (acc : List Hit) (h : Hit) : List Hit :=
  match acc.find? (fun x => decide (x.item = h.item)) with
  | none => h :: acc
  | some x => if dkey h.dist < dkey x.dist ∨ (dkey h.dist = dkey x.dist ∧ h.shard < x.shard) then h :: acc.filter (fun y => decide (y.item ≠ h.item)) else acc

theorem mergeHits_eq (hs : List Hit) : mergeHits hs = hs.foldl mergeStep [] := rfl

/-- The entries of `l` are merged in `acc`. -/
def Merged (l acc : List Hit) : Prop :=
  (acc.map Hit.item).Nodup ∧ (∀ h ∈ acc, h ∈ l) ∧ ∀ h ∈ l, ∃ x ∈ acc, x.item = h.item ∧ dkey x.dist ≤ dkey h.dist

theorem Merged.step {l acc : List Hit} (hm : Merged l acc) (h : Hit) : Merged (l ++ [h]) (mergeStep acc h) := by
  obtain ⟨hnodup, hsub, hbest⟩ := hm
  have hold : ∀ y ∈ acc, y ∈ l ++ [h] := fun y hy => List.mem_append_left _ (hsub y hy)
  unfold mergeStep
  split
  · next hnone =>
    have hnew : ∀ y ∈ acc, y.item ≠ h.item := by simpa using hnone
    refine ⟨?_, List.forall_mem_cons.2 ⟨by simp, hold⟩, ?_⟩
    · rw [List.map_cons, List.nodup_cons]
      exact ⟨fun hin => by
        obtain ⟨y, hy, hitem⟩ := List.mem_map.1 hin
        exact hnew y hy hitem, hnodup⟩
    · refine List.forall_mem_append.2 ⟨fun g hg => ?_, by simp⟩
      obtain ⟨x, hx, hrest⟩ := hbest g hg
      exact ⟨x, List.mem_cons_of_mem _ hx, hrest⟩
  · next x hfind =>
    have hx : x ∈ acc := List.mem_of_find?_eq_some hfind
    have hitem : x.item = h.item := by simpa using List.find?_some hfind
    have hsame : ∀ y ∈ acc, y.item = h.item → y = x := fun y hy hyi => List.inj_on_of_nodup_map hnodup hy hx (hyi.trans hitem.symm)
    split
    · next hbetter =>
      have hle : dkey h.dist ≤ dkey x.dist := by omega
      refine ⟨?_, List.forall_mem_cons.2 ⟨by simp, fun y hy => hold y (List.mem_filter.1 hy).1⟩, ?_⟩
      · rw [List.map_cons, List.nodup_cons]
        exact ⟨by simp, hnodup.sublist (List.filter_sublist.map _)⟩
      · refine List.forall_mem_append.2 ⟨fun g hg => ?_, by simp⟩
        obtain ⟨y, hy, hyi, hyd⟩ := hbest g hg
        by_cases hyh : y.item = h.item
        · exact ⟨h, List.mem_cons_self, hyh ▸ hyi, hle.trans (hsame y hy hyh ▸ hyd)⟩
        · exact ⟨y, List.mem_cons_of_mem _ (List.mem_filter.2 ⟨hy, by simpa using hyh⟩), hyi, hyd⟩
    · next hworse =>
      refine ⟨hnodup, hold, List.forall_mem_append.2 ⟨hbest, fun g hg => ?_⟩⟩
      obtain rfl := List.mem_singleton.1 hg
      exact ⟨x, hx, hitem, by omega⟩

theorem Merged.foldl {l acc : List Hit} (hm : Merged l acc) (hs : List Hit) : Merged (l ++ hs) (hs.foldl mergeStep acc) := by
  induction hs generalizing l acc with
  | nil => rwa [List.append_nil]
  | cons h hs ih =>
    have hrest := ih (hm.step h)
    rwa [List.append_assoc] at hrest

theorem merged_mergeHits (hs : List Hit) : Merged hs (mergeHits hs) :=
  Merged.foldl (l := []) (acc := []) ⟨List.nodup_nil, fun h hh => absurd hh List.not_mem_nil, fun h hh => absurd hh List.not_mem_nil⟩ hs

/-! ### A query is accepted (R469 to R473) -/

@[simp] theorem State.trav_queueFault (s : State) (cmd : Instr) (i : Issuer) (hw rid off n : Nat) : (s.queueFault cmd i hw rid off n).trav = s.trav := by
  unfold State.queueFault State.noteQueued
  split
  · split
    · rfl
    · simp
  · rfl

section TrvQuery

variable {s u v : State} {r : BciReq} {i : Issuer} {ws : List Word} {ix : Index}

/-- The words of a query that comes in an LMF packet, or of the descriptor its command names, and the machine that has read them. -/
def QuerySource (r : BciReq) (i : Issuer) (u v : State) (ws : List Word) : Prop :=
  match r.src with
  | .lmf _ => wAt r.words 2 = i.ctx ∧ v = u ∧ ws = ((r.words.drop 1).take 22 ++ List.replicate 32 0).take 32
  | _ => ∃ did dg, u.opens r i (r.w 1) (r.d 2) 128 needR = some (did, dg) ∧ u.meetRead did dg (.own i) (r.d 2) 128 = .clear
      ∧ v = u.readDone false did (.own i) (r.d 2) 128 ∧ ws = (wordsOf (u.readRange dg (.own i) (r.d 2) 128) ++ List.replicate 32 0).take 32

/-- TRV_QUERY answers OK when the words it has are accepted. -/
theorem execTrvQuery_of_source
    (hready : s.ready (.trvQuery r) { BciRow.f 0x82 3 with minor := some 0, resv := fun r => (match r.src with | .lmf _ => false | _ => offResv r 2) } r = some (i, u))
    (hsource : QuerySource r i u v ws) : ∃ raw, ws = (raw ++ List.replicate 32 0).take 32 ∧
      ∀ t, v.queryAccept raw i = .ok t → exec (.trvQuery r) s = .next (t.respond r .ok []) := by
  have hexec : execTrvQuery r s = _ := bciServe_of_ready hready
  change exec (.trvQuery r) s = _ at hexec
  dsimp only at hexec
  unfold QuerySource at hsource
  split at hsource
  · next q hsrc =>
    obtain ⟨hctx, rfl, rfl⟩ := hsource
    refine ⟨_, rfl, fun t ht => ?_⟩
    rw [hexec]
    split
    · rw [if_neg (not_not_intro hctx), ht]
    · next h => exact absurd hsrc (h q)
  · next hsrc =>
    obtain ⟨did, dg, hopens, hmet, rfl, rfl⟩ := hsource
    refine ⟨_, rfl, fun t ht => ?_⟩
    rw [hexec]
    split
    · next q hq => exact absurd hq (hsrc q)
    · rw [State.onRegion_of_opens hopens, hmet]
      dsimp only
      rw [ht]

/-- The query waits for an engine. -/
theorem State.queryAccept_queued {raw : List Word} {x : Nat × Region} {rid : Nat} {rg : Region} (hws : ws = (raw ++ List.replicate 32 0).take 32) (hok : queryOk ws = true)
    (hix : v.index? (fld (wAt ws 2) 7 0) = some ix) (hlive : ix.destroying = false) (hwaits : ix.waits = none) (htype : bitAt (wAt ws 0) 12 = true ∨ ixType ix.words ≠ 5)
    (htree : v.permit v.lmf.eid (wAt ix.words 4) (dAt ix.words 5) 64 needE i = some x)
    (hvec : v.permit v.lmf.eid (wAt ws 4) (dAt ws 5) (queryVecBytes ix.words ws) needR i = some (rid, rg))
    (hfetch : bitAt (wAt ws 0) 11 = true → (v.permit v.lmf.eid (wAt ws 16) (dAt ws 17) 0 needE i).isSome = true) : ∃ t, v.queryAccept raw i = .ok t ∧
      ∃ q ∈ t.trav.queries, q.id = v.nextId ∧ q.words = ws ∧ q.eid = i.eid ∧ q.ctx = i.ctx ∧ q.started = false ∧ q.final = none := by
  have hpayload : (bitAt (wAt ws 0) 11 && (v.permit v.lmf.eid (wAt ws 16) (dAt ws 17) 0 needE i).isNone) = false := by
    cases hbit : bitAt (wAt ws 0) 11 with
    | false => rfl
    | true => simpa using hfetch hbit
  unfold State.queryAccept
  dsimp only
  rw [← hws, hok, Bool.not_true, if_neg Bool.false_ne_true, hix]
  dsimp only
  rw [if_neg (by simp [hlive, hwaits]), if_neg (by rintro ⟨hbit, h5⟩; simp [hbit, h5] at htype), htree, hvec]
  dsimp only
  rw [hpayload, if_neg Bool.false_ne_true]
  refine ⟨_, rfl, ?_⟩
  simp only [apply_ite State.trav, State.addDeadline, ite_self, State.trav_queueFault]
  exact ⟨_, List.mem_append_right _ (List.mem_singleton_self _), rfl, rfl, rfl, rfl, rfl, rfl⟩

theorem trvQuery_does {x : Nat × Region} {rid : Nat} {rg : Region}
    (hready : s.ready (.trvQuery r) { BciRow.f 0x82 3 with minor := some 0, resv := fun r => (match r.src with | .lmf _ => false | _ => offResv r 2) } r = some (i, u))
    (hsource : QuerySource r i u v ws) (hok : queryOk ws = true)
    (hix : v.index? (fld (wAt ws 2) 7 0) = some ix) (hlive : ix.destroying = false) (hwaits : ix.waits = none) (htype : bitAt (wAt ws 0) 12 = true ∨ ixType ix.words ≠ 5)
    (htree : v.permit v.lmf.eid (wAt ix.words 4) (dAt ix.words 5) 64 needE i = some x)
    (hvec : v.permit v.lmf.eid (wAt ws 4) (dAt ws 5) (queryVecBytes ix.words ws) needR i = some (rid, rg))
    (hfetch : bitAt (wAt ws 0) 11 = true → (v.permit v.lmf.eid (wAt ws 16) (dAt ws 17) 0 needE i).isSome = true) : Answers (.trvQuery r) s r [] fun t =>
      ∃ q ∈ t.trav.queries, q.id = v.nextId ∧ q.words = ws ∧ q.eid = i.eid ∧ q.ctx = i.ctx ∧ q.started = false ∧ q.final = none := by
  obtain ⟨raw, hws, hexec⟩ := execTrvQuery_of_source hready hsource
  obtain ⟨t, ht, hq⟩ := State.queryAccept_queued hws hok hix hlive hwaits htype htree hvec hfetch
  exact ⟨t, hexec t ht, hq⟩

end TrvQuery

/-- The source that a request's link gives it does not depend on the request's key. -/
theorem State.sourced_of_key {s : State} {q : LmfReq} {k : Nat} (h : s.sourced { q with key := k } = { q with key := k }) : s.sourced q = q := by
  unfold State.sourced at h ⊢
  split at h
  · next hlink =>
    have heid : (s.lport q.port).eid = q.srcEid := congrArg LmfReq.srcEid h
    rw [if_pos hlink, heid]
  · next hlink => exact if_neg hlink

/-- A shard home takes a shard of another endpoint's index (R467). -/
theorem shardRegister_does {s u : State} {q : LmfReq} {index shard : Nat} {words : List Word} (htaken : s.taken (.shardRegister q index shard words) { q with key := 0 } true true = some u)
    (hok : indexOk (words.take 32) = true) (hshard : shardOk ((words.drop 32).take 16) = true)
    (hfits : u.shardFits q.dstEid (shardOf (words.take 32) index shard (u.ridOf q.dstEid (wAt ((words.drop 32).take 16) 1)) ((words.drop 32).take 16)) (LmfIssuer q) = some true)
    (hroom : u.trav.shards.length < 4096) : Completes (.shardRegister q index shard words) s q .ok [] fun t => t = { u with trav.shards := t.trav.shards }
      ∧ Tab.get? t.trav.shards (shKey q.srcEid index shard) = some (shardOf (words.take 32) index shard (u.ridOf q.dstEid (wAt ((words.drop 32).take 16) 1)) ((words.drop 32).take 16)) := by
  obtain ⟨hruns, hsourced, harrive⟩ := State.taken_some htaken
  have hsourced := State.sourced_of_key hsourced
  have hexec : exec (.shardRegister q index shard words) s = execShardRegister q index shard words s := rfl
  rw [execShardRegister, whenUp_of_runs hruns] at hexec
  dsimp only at hexec
  rw [hsourced, harrive] at hexec
  dsimp only at hexec
  rw [hok, hshard, if_neg (by decide), hfits] at hexec
  dsimp only at hexec
  rw [if_neg (by omega)] at hexec
  exact ⟨_, hexec, rfl, Tab.get?_set_self ..⟩


/-! ### A query starts (R473 to R478) -/

theorem State.query?_modQuery {s : State} {id : Nat} {f : Query → Query} {q : Query} (hid : ∀ y, (f y).id = y.id) (hq : s.query? id = some q) : (s.modQuery id f).query? id = some (f q) := by
  have hsame : (fun y : Query => decide (y.id = id)) ∘ (fun y => if y.id = id then f y else y) = fun y => decide (y.id = id) := by
    funext y
    dsimp only [Function.comp_apply]
    split
    · rw [hid]
    · rfl
  have hmine : q.id = id := by simpa using List.find?_some hq
  unfold State.query? at hq ⊢
  unfold State.modQuery
  rw [List.find?_map, hsame, hq, Option.map_some, if_pos hmine]

theorem State.query?_of_trav {s t : State} (h : t.trav = s.trav) (id : Nat) : t.query? id = s.query? id := by
  simp only [State.query?, h]

theorem State.mem_of_query? {s : State} {id : Nat} {q : Query} (h : s.query? id = some q) : q ∈ s.trav.queries := List.mem_of_find?_eq_some h

theorem State.queryBehind_of_nothing {s : State} (hheld : s.home.held = []) (q : Query) : s.queryBehind q = false := by
  simp [State.queryBehind, hheld]

theorem State.gateOf_modQuery (s : State) (id : Nat) (f : Query → Query) (rid : Nat) : (s.modQuery id f).gateOf rid = s.gateOf rid := rfl

theorem State.region?_modQuery (s : State) (id : Nat) (f : Query → Query) (rid : Nat) : (s.modQuery id f).region? rid = s.region? rid := rfl

theorem State.meetRead_modQuery (s : State) (id : Nat) (f : Query → Query) (rid : Nat) (rg : Region) (v : View) (off n : Nat) :
    (s.modQuery id f).meetRead rid rg v off n = s.meetRead rid rg v off n := rfl

theorem State.readRange_modQuery (s : State) (id : Nat) (f : Query → Query) (rg : Region) (v : View) (off n : Nat) : (s.modQuery id f).readRange rg v off n = s.readRange rg v off n := rfl

/-- What a query's work sees of its pages does not depend on the queries. -/
theorem State.overlay_modQuery (s : State) (id : Nat) (f : Query → Query) (holder : Nat) (caps : Caps) : (s.modQuery id f).overlay holder caps = (s.overlay holder caps).modQuery id f := by
  unfold State.overlay
  induction caps generalizing s with
  | nil => rfl
  | cons c caps ih =>
    rw [List.foldl_cons, List.foldl_cons, ← ih]
    congr 1
    have hregion : (s.modQuery id f).region? c.1 = s.region? c.1 := rfl
    have hhandle : (s.modQuery id f).capHandle holder c = s.capHandle holder c := rfl
    rw [hregion, hhandle]
    split
    · split <;> rfl
    · rfl

@[simp] theorem State.trav_sendWalks (s : State) (q : Query) (ctx : Nat) (beam : List Nat) : (s.sendWalks q ctx beam).trav = s.trav := by
  unfold State.sendWalks
  refine State.foldl_trav _ (fun s n => ?_) _ _
  split
  · split <;> simp
  · rfl

section QueryStart

variable {s v : State} {q : Query} {ix : Index} {rid : Nat} {rg : Region} {o : State} {vec : Bytes}

/-- A query that has read its vector is started at the applied epoch (R473, R474). -/
theorem State.query?_of_queryRead (hq : s.query? q.id = some q) (hreplay : s.replay = none) (ho : o = s.overlay q.id q.pages)
    (hvec : vec = slotBytesOf ix.words (queryElems ix.words q.words (o.readRange rg (.own q.issuer) (dAt q.words 5) (queryVecBytes ix.words q.words))))
    (hcap : capsRegion q.pages (wAt q.words 4) (dAt q.words 5) = some rid) (hgate : s.gateOf rid = none) (hrg : o.region? rid = some rg)
    (hclear : o.meetRead rid rg (.own q.issuer) (dAt q.words 5) (queryVecBytes ix.words q.words) = .clear) (hread : s.queryRead q ix = .ok v) :
    ∃ x, v.query? q.id = some x ∧ x.id = q.id ∧ x.words = q.words ∧ x.reads = q.reads ∧ x.started = true ∧ x.epoch = ix.applied ∧ x.startTime = s.now ∧ x.vec = vec := by
  unfold State.queryRead at hread
  rw [hreplay, Option.map_none] at hread
  dsimp only at hread
  rw [hcap] at hread
  dsimp only at hread
  rw [State.gateOf_modQuery, hgate, State.overlay_modQuery, ← ho] at hread
  dsimp only at hread
  rw [State.region?_modQuery, hrg] at hread
  dsimp only at hread
  rw [State.meetRead_modQuery, hclear] at hread
  dsimp only at hread
  rw [State.readRange_modQuery] at hread
  cases hread
  have hpages : (s.modQuery q.id (fun x => { x with pages := q.pages })).query? q.id = some { q with pages := q.pages } := State.query?_modQuery (fun _ => rfl) hq
  refine ⟨_, State.query?_modQuery (s := State.event (State.workStart (State.restore (State.readDone (o.modQuery q.id (fun x => { x with pages := q.pages })) ..) _) ..) ..) (fun _ => rfl)
    ((State.query?_of_trav ?_ _).trans hpages), rfl, rfl, rfl, rfl, rfl, ?_, ?_⟩
  · simp [ho, State.modQuery]
  · simp [ho, State.modQuery, State.now]
  · exact hvec.symm

/-- The query's start takes the applied epoch, its vector and its shards (R473 to R478). -/
theorem queryStart_does {beam : List Nat} {rr : Reads} {me : Issuer} (hruns : s.runs = true) (hq : s.query? q.id = some q) (hix : s.index? q.ix = some ix) (hin : s.noneInService 0x46 2 = false)
    (hstarted : q.started = false) (hfinal : q.final = none) (hbeam : q.beam = []) (hreads : q.reads = []) (hheld : s.home.held = []) (hreplay : s.replay = none) (ho : o = s.overlay q.id q.pages)
    (hvec : vec = slotBytesOf ix.words (queryElems ix.words q.words (o.readRange rg (.own q.issuer) (dAt q.words 5) (queryVecBytes ix.words q.words)))) (hme : me = s.ixIssuer (ixCtx ix.words))
    (hcap : capsRegion q.pages (wAt q.words 4) (dAt q.words 5) = some rid) (hgate : s.gateOf rid = none) (hrg : o.region? rid = some rg)
    (hclear : o.meetRead rid rg (.own q.issuer) (dAt q.words 5) (queryVecBytes ix.words q.words) = .clear) (hread : s.queryRead q ix = .ok v)
    (htree : v.gateOf (v.ridOf v.lmf.eid (wAt ix.words 4)) = none)
    (hroute : runRd (routeVec ix.words vec (fld (wAt q.words 3) 27 22 + 1) (v.usedReader v.lmf.eid (wAt ix.words 4) needE me (.own me))) Reads.none = (.ok beam, rr)) (hnonempty : beam ≠ []) :
    Does (.queryStart q.id) s fun t => ∃ x ∈ t.trav.queries, x.id = q.id ∧ x.started = true ∧ x.epoch = ix.applied ∧ x.startTime = s.now ∧ x.vec = vec ∧ x.beam = beam ∧ x.left = beam := by
  obtain ⟨x, hx, hid, hwords, hxreads, hxstarted, hepoch, htime, hxvec⟩ := State.query?_of_queryRead hq hreplay ho hvec hcap hgate hrg hclear hread
  have hexec : exec (.queryStart q.id) s = execQueryStart q.id s := rfl
  rw [execQueryStart, whenUp_of_runs hruns] at hexec
  rw [hq] at hexec
  dsimp only at hexec
  rw [hix] at hexec
  dsimp only at hexec
  rw [hfinal, Option.isSome_none, if_neg Bool.false_ne_true, if_neg (by simp [hin, hbeam, State.queryBehind_of_nothing hheld, State.isHeld_of_nothing hheld]), hstarted, if_neg Bool.false_ne_true,
    hread] at hexec
  dsimp only at hexec
  rw [hx] at hexec
  have hissuer : v.ixIssuer (ixCtx ix.words) = me := by
    rw [hme, State.ixIssuer, State.ixIssuer, State.eid_of_standing (State.standing_of_queryRead hread)]
  have hnone : Tab.getD x.reads 4096 Reads.none = Reads.none := by
    rw [hxreads, hreads]
    rfl
  dsimp only at hexec
  rw [State.queryRoute, hissuer, hnone, hwords, hxvec, State.onIndex, State.reading, htree] at hexec
  dsimp only at hexec
  rw [hroute] at hexec
  dsimp only at hexec
  rw [if_neg hnonempty] at hexec
  have hv : (v.readsDone (v.ridOf v.lmf.eid (wAt ix.words 4)) (.own me) Reads.none rr).query? x.id = some x := by
    rw [State.query?_of_trav (State.trav_readsDone ..), hid]
    exact hx
  refine ⟨_, hexec, { x with beam := beam, left := beam, reads := Tab.erase x.reads 4096 }, ?_, hid, hxstarted, hepoch, htime, hxvec, rfl, rfl⟩
  rw [State.trav_sendWalks]
  exact State.mem_of_query? (State.query?_modQuery (f := fun q => { q with beam := beam, left := beam, reads := Tab.erase q.reads 4096 }) (fun _ => rfl) hv)

end QueryStart

/-! ### Its walks return, and its result block is written (R478 to R490) -/

/-- After a write of a range within one page outside publish mode, the bytes are seen. -/
theorem State.shows_of_write {u v : State} {rid off : Nat} {rg : Region} {d : Bytes} {i : Issuer} (hrg : u.region? rid = some rg) (hmode : rg.mode ≠ .publish)
    (hpage : d.length ≠ 0 → off / 65536 = (off + d.length - 1) / 65536) (hheld : u.pageHeld rg off = true) (hmem : v.memory = (u.writeRange rid (.shadowed i) off d).memory) :
    v.shows rid .pub off d := by
  by_cases hdata : d.length = 0
  · obtain rfl := List.length_eq_zero_iff.mp hdata
    have hterms : v.memory.terms rid = some (rg.mode, rg.mirror) := by
      rw [hmem, State.writeRange_nil]
      simp [Memory.terms, State.memory, hrg]
    exact State.shows_nil hterms _ _
  · refine State.shows_of_holds hdata (hpage hdata) ?_
    rw [hmem]
    exact State.writeRange_holds hrg hmode hheld hdata (hpage hdata) i

section Walks

variable {s : State} {q : Query} {shard : Nat} (hruns : s.runs = true) (hq : s.query? q.id = some q)
include hruns hq

/-- A walk of a shard of this home returns what the shard shows (R480). -/
theorem shardWalk_does {h : Shard} {hs : List Hit} {ev sk ex : Nat} {rr : Reads} (hshard : s.shard? q.ix shard = some h) (hown : s.isOwn h.home = true) (hin : s.noneInService 0x46 2 = false)
    (hleft : shard ∈ q.left) (hback : Tab.get? q.back shard = none) (hfinal : q.final = none) (hreads : q.reads = []) (hheld : s.home.held = []) (hgate : s.gateOf (s.ridOf h.home h.key) = none)
    (hwalk : runRd (shardReturns h (s.usedReader h.home h.key needE (s.ixIssuer h.ictx) (.own (s.ixIssuer h.ictx))) q.skip q.prefetch q.vec q.l q.epoch) Reads.none = (.ok (hs, ev, sk, ex), rr)) :
    Does (.shardWalk q.id shard) s fun t =>
      ∃ x ∈ t.trav.queries, x.id = q.id ∧ Tab.get? x.back shard = some (.ok, hs) ∧ x.evals = q.evals + ev ∧ x.skips = q.skips + sk ∧ x.left = q.left := by
  have hexec : exec (.shardWalk q.id shard) s = execShardWalk q.id shard s := rfl
  rw [execShardWalk, whenUp_of_runs hruns] at hexec
  dsimp only at hexec
  rw [hq] at hexec
  dsimp only at hexec
  rw [hshard] at hexec
  dsimp only at hexec
  have hnone : Tab.getD q.reads shard Reads.none = Reads.none := by
    rw [hreads]
    rfl
  rw [hfinal, Option.isSome_none, if_neg Bool.false_ne_true,
    if_neg (by simp [hin, hleft, Tab.has, hback, hown, State.queryBehind_of_nothing hheld, State.isHeld_of_nothing hheld]), hnone, State.onIndex, State.reading, hgate] at hexec
  dsimp only at hexec
  rw [hwalk] at hexec
  refine ⟨_, hexec, _, State.mem_of_query? (State.query?_modQuery (fun _ => rfl) ((State.query?_of_trav ?_ _).trans hq)), rfl, Tab.get?_set_self .., rfl, rfl, rfl⟩
  simp

/-- The query after the end of a walk, by its status and its hits. -/
def Query.returned (q : Query) (shard : Nat) (e k : Nat) (st : Status) (hs : List Hit) : Query :=
  { q with
    left := q.left.filter (fun n => decide (n ≠ shard)), back := Tab.erase q.back shard, hits := if st = .ok then q.hits ++ hs else q.hits
    evals := q.evals + (if (Tab.get? q.back shard).isSome then 0 else e), skips := q.skips + (if (Tab.get? q.back shard).isSome then 0 else k)
    fails := if st = .ok then q.fails else q.fails + 1 }

/-- The end of a walk takes its returns, and the last one merges them (R482, R486). -/
theorem shardWalkEnd_does {a : Status} {l : List Hit} {e k : Nat} {st : Status} {hs : List Hit} (hleft : shard ∈ q.left) (hfinal : q.final = none)
    (hgot : (Tab.get? q.back shard).getD (a, l) = (st, hs)) (hst : st = .ok ∨ q.partialOk = true)
    (hreturned : (Tab.get? q.back shard).isSome = true ∨ ∀ h, s.shard? q.ix shard = some h → s.isOwn h.home = false) :
    exec (.shardWalkEnd q.id shard a { hits := l, evals := e, skips := k }) s =
      .next (if (q.returned shard e k st hs).left = [] then (s.modQuery q.id (fun _ => q.returned shard e k st hs)).queryMerge (q.returned shard e k st hs)
        else s.modQuery q.id (fun _ => q.returned shard e k st hs)) := by
  have hexec : exec (.shardWalkEnd q.id shard a { hits := l, evals := e, skips := k }) s = execShardWalkEnd q.id shard a { hits := l, evals := e, skips := k } s := rfl
  rw [execShardWalkEnd, whenUp_of_runs hruns] at hexec
  dsimp only at hexec
  rw [hq] at hexec
  dsimp only at hexec
  rw [hgot] at hexec
  have hfree : ∀ mine : Bool, (mine && (Tab.get? q.back shard).isNone) = false →
      ¬(!q.left.contains shard || q.final.isSome || (mine && (Tab.get? q.back shard).isNone)) = true := by
    intro mine hmine
    rw [hmine]
    simp [hleft, hfinal]
  rcases hshard : s.shard? q.ix shard with _ | h
  on_goal 1 =>
    rw [hshard] at hexec
    dsimp only at hexec
    rw [if_neg (hfree false rfl)] at hexec
  on_goal 2 =>
    rw [hshard] at hexec
    dsimp only at hexec
    rw [if_neg (hfree _ (by
      rcases hreturned with hsome | hfar
      · rw [Option.isNone_eq_false_iff.2 hsome, Bool.and_false]
      · rw [hfar h hshard, Bool.false_and]))] at hexec
  all_goals
    rw [if_neg (by rintro ⟨hbad, hall⟩; simp [hall, hbad] at hst)] at hexec
    rw [hexec]
    unfold Query.returned
    cases (Tab.get? q.back shard).isSome <;> rfl

omit hruns hq in
theorem State.uncapture_nil (s : State) (holder : Nat) : (s.uncapture holder []).home = { s.home with zeroCaps := s.home.zeroCaps.filter (fun (e : Nat × Nat × Nat) => decide (e.2.2 ≠ holder)) } := rfl

omit hruns hq in
theorem State.home_trvSweep (s : State) : s.trvSweep.home = s.home := by
  rw [State.trvSweep_eq]
  exact State.foldl_home State.dropIndex (fun s e => rfl) _ _

omit hruns hq in
theorem State.queries_trvSweep (s : State) : s.trvSweep.trav.queries = s.trav.queries := by
  rw [State.trvSweep_eq]
  generalize s.trav.indexes.filter _ = l
  induction l generalizing s with
  | nil => rfl
  | cons e l ih => exact ih _

omit hruns hq in
/-- A query that ends leaves its home, and memory stays (R490). -/
theorem State.queryDrop_ends {u : State} (hq : u.query? q.id = some q) (hpages : q.pages = []) :
    (∀ x ∈ (u.queryDrop q.id).trav.queries, x.id ≠ q.id) ∧ (u.queryDrop q.id).memory = u.memory := by
  unfold State.queryDrop
  rw [hq]
  dsimp only
  rw [hpages]
  constructor
  · rw [State.queries_trvSweep]
    exact fun x hx => by simpa using (List.mem_filter.1 hx).2
  · have hforsaken := State.foldl_home (fun (s : State) (h : Held) => s.forsake h.cmd) (fun s h => by simp) (u.home.held.filter (fun h => ofQuery q.id h.cmd)) u
    have hcaps := State.uncapture_nil ((u.home.held.filter (fun h => ofQuery q.id h.cmd)).foldl (fun (s : State) (h : Held) => s.forsake h.cmd) u) q.id
    refine State.memory_of_tables ?_ ?_ <;> simp [State.home_trvSweep, apply_ite State.home, State.dropDeadline, hcaps, hforsaken]

omit hruns hq in
theorem State.forward_memory (s : State) (rid off : Nat) (data : Bytes) (work : WorkRef) : (s.forward rid off data work).memory = s.memory := by
  unfold State.forward
  split
  · rfl
  · split <;> rfl

/-- The result block is written, and the query ends (R489, R490). -/
theorem payloadFetchEnd_does {st : Status} {rid : Nat} {rg : Region} {off : Nat} {data : Bytes} (hfinal : q.final = some st) (hlacks : s.payloadLacks q = []) (hheld : s.home.held = [])
    (hown : s.isOwn (fld (wAt q.words 10) 17 0) = true) (hctr : wAt q.words 11 = 0) (hpages : q.pages = []) (hoff : off = dAt q.words 8)
    (hdata : data = resultBlock q st s.now) (hpermit : s.permit (fld (wAt q.words 10) 17 0) (wAt q.words 7) off data.length needW q.issuer = some (rid, rg)) (hgate : s.gate rid rg = none)
    (hclear : s.meetWrite rid rg (.shadowed q.issuer) off data.length = .clear) : Does (.payloadFetchEnd q.id) s fun t => (∀ x ∈ t.trav.queries, x.id ≠ q.id)
      ∧ (rg.mode ≠ .publish → off / 65536 = (off + data.length - 1) / 65536 → s.pageHeld rg off = true → t.shows rid .pub off data) := by
  have hexec : exec (.payloadFetchEnd q.id) s = execPayloadFetchEnd q.id s := rfl
  rw [execPayloadFetchEnd, whenUp_of_runs hruns] at hexec
  rw [hq] at hexec
  dsimp only at hexec
  rw [if_neg (by simp [hfinal]), if_pos hlacks, State.queryWrite, hq] at hexec
  dsimp only at hexec
  rw [hfinal] at hexec
  dsimp only at hexec
  rw [State.isHeld_of_nothing hheld, if_neg Bool.false_ne_true, if_pos hown, ← hdata, ← hoff, hctr, State.blockOwn, if_pos rfl, hpermit] at hexec
  dsimp only at hexec
  rw [hgate] at hexec
  dsimp only at hexec
  rw [hclear] at hexec
  dsimp only at hexec
  generalize hwrite : (s.writeRange rid (.shadowed q.issuer) off data).touchRange false rid (.own q.issuer) off data.length = w at hexec
  have htrav : (if rg.mode = .publish then w else w.forward rid off data (.batch q.id)).trav = s.trav := by
    split <;> simp [← hwrite]
  have hmem : (if rg.mode = .publish then w else w.forward rid off data (.batch q.id)).memory = (s.writeRange rid (.shadowed q.issuer) off data).memory := by
    split
    · rw [← hwrite, State.touchRange_memory]
    · rw [State.forward_memory, ← hwrite, State.touchRange_memory]
  obtain ⟨hgone, hkept⟩ := State.queryDrop_ends ((State.query?_of_trav htrav _).trans hq) hpages
  exact ⟨_, hexec, hgone, fun hmode hpage hpageHeld => State.shows_of_write (State.region?_of_permit hpermit).1 hmode (fun _ => hpage) hpageHeld (hkept.trans hmem)⟩

end Walks


/-- Settles O56: the commands of indexes and queries; a query's start, its walks, their end and its result; the merge of hits by one invariant. -/
theorem queryCommands : Obligations.QueryCommands := by
  unfold Obligations.QueryCommands
  refine ⟨fun s r i u => ⟨fun rid rg tid tree xid table hready hopens hclear => ?create, fun v ws ix x rid rg hready hsource hok hix hlive hwaits htype htree hvec hfetch => ?query⟩,
    fun s q index shard words u htaken => ?register, fun s q hruns hq => ⟨fun ix rid rg v beam rr => ?start, fun shard h hs ev sk ex rr => ?walk, fun shard a l e k st hs => ?walkEnd,
      fun st rid rg => ?result⟩, fun hs => merged_mergeHits hs⟩
  case create =>
    intro ws v me tb d n hok hctx htree htreeMode htable htableMode htableClear hfree hroom hshards
    exact indexCreate_does hready hopens hclear rfl rfl rfl rfl rfl rfl hok hctx htree htreeMode htable htableMode htableClear hfree hroom hshards
  case query => exact trvQuery_does hready hsource hok hix hlive hwaits htype htree hvec hfetch
  case register => exact fun hok hshard hfits hroom => shardRegister_does htaken hok hshard hfits hroom
  case start =>
    intro hix hin hstarted hfinal hbeam hreads hheld hreplay o off n vec me hcap hgate hrg hclear hread htree hroute hnonempty
    exact queryStart_does hruns hq hix hin hstarted hfinal hbeam hreads hheld hreplay rfl rfl rfl hcap hgate hrg hclear hread htree hroute hnonempty
  case walk =>
    intro hshard hown hin hleft hback hfinal hreads hheld hgate me hwalk
    exact shardWalk_does hruns hq hshard hown hin hleft hback hfinal hreads hheld hgate hwalk
  case walkEnd => exact fun hleft hfinal hgot hst hreturned => shardWalkEnd_does hruns hq hleft hfinal hgot hst hreturned
  case result =>
    intro hfinal hlacks hheld hlines hown hctr hpages off data hpermit hgate hclear
    exact payloadFetchEnd_does hruns hq hfinal hlacks hheld hown hctr hpages rfl rfl hpermit hgate hclear

end Sys2Proof.Machine

/-! PROOF. O55: counted writes, experts, lanes, SSD mode and micro-batches (11). -/

namespace Sys2Proof.Machine

/-! ### A write of every version of a page (R223) -/

/-- A change of a writer's shadow page leaves the published pages. -/
theorem State.modPage_shadow_memory (s : State) (h e c : Nat) (f : TierPage → TierPage) : (s.modPage (.shadow h e c) f).memory = s.memory := by
  unfold State.memory
  congr 1
  funext k
  simp only [State.page?, State.modPage, State.setPages, refHandle, Tab.get?_modify]
  split
  · next hk =>
    subst hk
    cases Tab.get? s.home.pages k <;> rfl
  · rfl

theorem State.putRef_shadow_memory (s : State) (h e c off : Nat) (data : Bytes) : (s.putRef (.shadow h e c) off data).memory = s.memory := by
  rw [State.putRef_memory, State.modPage_shadow_memory, State.fillT0_memory]

/-- What a direct write does with one version of the page. -/
def State.directStep (off n : Nat) (f : Bytes → Bytes) (s : State) (ref : PageRef) : State :=
  match s.page? ref with
  | none => s
  | some pg => if pg.partPoison off n then s else s.putRef ref off (f (Mem.readN pg.bytes off n))

theorem State.directStep_shadow_memory (off n : Nat) (f : Bytes → Bytes) (s : State) (h e c : Nat) : (State.directStep off n f s (.shadow h e c)).memory = s.memory := by
  unfold State.directStep
  split
  · rfl
  · split
    · rfl
    · exact State.putRef_shadow_memory ..

theorem State.directStep_layout (off n : Nat) (f : Bytes → Bytes) (s : State) (ref : PageRef) : (State.directStep off n f s ref).memory.layout = s.memory.layout := by
  unfold State.directStep
  split
  · rfl
  · split
    · rfl
    · exact State.putRef_layout ..

theorem State.foldl_directStep_layout (off n : Nat) (f : Bytes → Bytes) (l : List PageRef) (s : State) : (l.foldl (State.directStep off n f) s).memory.layout = s.memory.layout := by
  induction l generalizing s with
  | nil => rfl
  | cons ref l ih => rw [List.foldl_cons, ih, State.directStep_layout]

theorem State.directMap_eq {s u : State} {rid p h off n : Nat} {r : Region} {f : Bytes → Bytes} (hu : s.ensurePage rid p = u) (hrg : u.region? rid = some r) (hleaf : r.handleOf p = some h) :
    s.directMap rid p off n f = (u.directRefs h).foldl (State.directStep off n f) u := by
  unfold State.directMap
  dsimp only
  rw [hu, hrg]
  dsimp only
  rw [hleaf]
  rfl

/-- A direct write leaves how each region is written to. -/
theorem State.directMap_terms (s : State) (rid p off n : Nat) (f : Bytes → Bytes) : (s.directMap rid p off n f).memory.terms = s.memory.terms := by
  have hterms := State.ensurePage_terms s rid p
  cases hrg : (s.ensurePage rid p).region? rid with
  | none =>
    unfold State.directMap
    dsimp only
    rw [hrg, hterms]
  | some r =>
    cases hleaf : r.handleOf p with
    | none =>
      unfold State.directMap
      dsimp only
      rw [hrg]
      dsimp only
      rw [hleaf, hterms]
    | some h =>
      rw [State.directMap_eq rfl hrg hleaf, ← hterms]
      unfold Memory.terms
      rw [State.foldl_directStep_layout]

theorem State.write1_direct_terms (s : State) (rid off : Nat) (data : Bytes) : (s.write1 rid .direct off data).memory.terms = s.memory.terms := by
  cases hrg : s.region? rid with
  | none =>
    unfold State.write1
    dsimp only
    rw [hrg]
  | some rg =>
    by_cases hmode : rg.mode = .publish
    · unfold State.write1
      dsimp only
      rw [hrg]
      dsimp only
      rw [hmode]
      exact State.directMap_terms ..
    · rw [State.write1_direct hrg hmode ⟨0, 0, false⟩]
      exact State.write1_terms (x := (rg.mode, rg.mirror)) (by simp [Memory.terms, State.memory, hrg]) hmode _ _ _

theorem State.writeRange_direct_terms (s : State) (rid off : Nat) (data : Bytes) : (s.writeRange rid .direct off data).memory.terms = s.memory.terms := by
  unfold State.writeRange
  generalize pieces off data.length = l
  induction l generalizing s with
  | nil => rfl
  | cons q l ih => rw [State.writePieces, ih, State.write1_direct_terms]

/-- Nothing stops a piece of a range that meets nothing. -/
theorem State.meetWrite1_of_clear {s : State} {rid off n : Nat} {rg : Region} {w : Way} (hn : n ≠ 0) (hpage : off / 65536 = (off + n - 1) / 65536) (h : s.meetWrite rid rg w off n = .clear) :
    s.meetWrite1 rid rg w off n = .clear := by
  unfold State.meetWrite at h
  rw [pieces_of_onePage hn hpage] at h
  cases hone : s.meetWrite1 rid rg w off n <;> simp [Met.first, hone] at h ⊢

/-- No line of the page is poisoned in part where a direct write meets nothing. -/
theorem State.ensurePage_whole {s : State} {rid off n h : Nat} {rg r : Region} {pg : TierPage} (hrg : s.region? rid = some rg) (hclear : s.meetWrite1 rid rg .direct off n = .clear)
    (hr : (s.ensurePage rid (off / 65536)).region? rid = some r) (hleaf : r.handleOf (off / 65536) = some h) (hpg : (s.ensurePage rid (off / 65536)).page? (.pub h) = some pg) :
    pg.partPoison (off % 65536) n = false := by
  unfold State.ensurePage at hr hpg
  rw [hrg] at hr hpg
  dsimp only at hr hpg
  cases hold : rg.handleOf (off / 65536) with
  | some k =>
    rw [hold, Option.isNone_some, if_neg Bool.false_ne_true] at hr hpg
    rw [hrg] at hr
    cases hr
    rw [hold] at hleaf
    cases hleaf
    unfold State.meetWrite1 at hclear
    dsimp only at hclear
    rw [hold, Option.map_some] at hclear
    dsimp only at hclear
    rw [hpg] at hclear
    dsimp only at hclear
    by_contra hpart
    rw [Bool.not_eq_false] at hpart
    rw [hpart, if_pos rfl] at hclear
    (repeat' split at hclear) <;> cases hclear
  | none =>
    rw [hold, Option.isNone_none, if_pos rfl] at hr hpg
    unfold State.allocate at hr hpg
    simp only [State.region?, Tab.get?_set_self, Option.some.injEq] at hr
    subst hr
    simp only [Region.handleOf, Region.entry, Tab.getD_set_self, Entry.handle?, Option.some.injEq] at hleaf
    subst hleaf
    simp only [State.page?, Nat.sub_self, Nat.add_zero, Tab.get?_set_self, Option.map_some, Option.some.injEq] at hpg
    subst hpg
    rfl

/-- A piece written to every version of its page stands in memory. -/
theorem State.write1_direct_holds {s : State} {rid off : Nat} {rg : Region} {data : Bytes} (hrg : s.region? rid = some rg) (hheld : s.pageHeld rg off = true)
    (hclear : s.meetWrite1 rid rg .direct off data.length = .clear) : (s.write1 rid .direct off data).memory.Holds rid off data := by
  by_cases hmode : rg.mode = .publish
  · obtain ⟨x, h, b, hlayout, hleaf, hbytes⟩ := State.ensurePage_held hrg hheld
    obtain ⟨r, hr, rfl⟩ := Option.map_eq_some_iff.mp hlayout
    obtain ⟨pg, hpg, rfl⟩ := Option.map_eq_some_iff.mp hbytes
    have hwhole := State.ensurePage_whole hrg hclear hr hleaf hpg
    have hmap : s.write1 rid .direct off data = s.directMap rid (off / 65536) (off % 65536) data.length (fun _ => data) := by
      unfold State.write1
      dsimp only
      rw [hrg]
      dsimp only
      rw [hmode]
    obtain ⟨hd, hhd, -⟩ := Option.map_eq_some_iff.mp hpg
    have hrefs : (s.ensurePage rid (off / 65536)).directRefs h = .pub h :: hd.shadows.map (fun w => .shadow h w.eid w.ctx) := by
      unfold State.directRefs State.handle?
      rw [hhd]
    have hfirst : State.directStep (off % 65536) data.length (fun _ => data) (s.ensurePage rid (off / 65536)) (.pub h)
        = (s.ensurePage rid (off / 65536)).putRef (.pub h) (off % 65536) data := by
      unfold State.directStep
      rw [hpg]
      dsimp only
      rw [hwhole, if_neg Bool.false_ne_true]
    rw [hmap, State.directMap_eq rfl hr hleaf, hrefs, List.foldl_cons, hfirst]
    have hrest : ∀ (l : List Shadow) (u : State), ((l.map (fun w => PageRef.shadow h w.eid w.ctx)).foldl (State.directStep (off % 65536) data.length (fun _ => data)) u).memory = u.memory := by
      intro l
      induction l with
      | nil => exact fun u => rfl
      | cons w l ih => exact fun u => (ih _).trans (State.directStep_shadow_memory ..)
    rw [hrest]
    exact ⟨r.untabled, h, _, by rw [State.putRef_layout, hlayout], hleaf, State.putRef_bytes hbytes _ _, Mem.readN_writeN_self _ _ _⟩
  · rw [State.write1_direct hrg hmode ⟨0, 0, false⟩]
    exact State.write1_holds hrg hmode hheld _ _

/-- A range within one page, written to every version of it, is seen, and the region is as before. -/
theorem State.writeRange_direct_shows {u v : State} {rid off : Nat} {rg : Region} {d : Bytes} (hrg : u.region? rid = some rg) (hclear : d.length ≠ 0 → u.meetWrite1 rid rg .direct off d.length = .clear)
    (hpage : d.length ≠ 0 → off / 65536 = (off + d.length - 1) / 65536) (hheld : u.pageHeld rg off = true) (hmem : v.memory = (u.writeRange rid .direct off d).memory) :
    v.shows rid .pub off d := by
  by_cases hdata : d.length = 0
  · obtain rfl := List.length_eq_zero_iff.mp hdata
    have hterms : v.memory.terms rid = some (rg.mode, rg.mirror) := by
      rw [hmem, State.writeRange_nil]
      simp [Memory.terms, State.memory, hrg]
    exact State.shows_nil hterms _ _
  · refine State.shows_of_holds hdata (hpage hdata) ?_
    rw [hmem]
    simpa [State.writeRange, pieces_of_onePage hdata (hpage hdata), State.writePieces] using
      State.write1_direct_holds hrg hheld (hclear hdata)

/-- In a region that is not mirrored the issuer of a direct write is answered at once (R737). -/
theorem State.answerAfter_writeRange_direct {u v : State} {rid off : Nat} {rg : Region} {d : Bytes} (hrg : u.region? rid = some rg) (hmirror : rg.mirror = 0)
    (hmem : v.memory = (u.writeRange rid .direct off d).memory) (o : Nat) (data : Bytes) (log : Option LogNote) (st : Status) (a : Answer) :
    v.answerAfter rid o data log st a = v.giveAnswer st a := by
  refine State.answerAfter_of_unmirrored (x := (rg.mode, rg.mirror)) ?_ hmirror ..
  rw [hmem, State.writeRange_direct_terms]
  simp [Memory.terms, State.memory, hrg]


/-! ### Writes and reads leave the counters -/

theorem State.counters_foldl {α : Type} {f : State → α → State} (h : ∀ s a, (f s a).home.counters = s.home.counters) (l : List α) (s : State) : (l.foldl f s).home.counters = s.home.counters := by
  induction l generalizing s with
  | nil => rfl
  | cons a l ih => rw [List.foldl_cons, ih, h]

@[simp] theorem State.counters_release (s : State) (f : HoldWhy → Bool) : (s.release f).home.counters = s.home.counters := by
  rfl

@[simp] theorem State.counters_setPages (s : State) (t : Tab Handle) : (s.setPages t).home.counters = s.home.counters := by
  rfl

@[simp] theorem State.counters_modPage (s : State) (ref : PageRef) (f : TierPage → TierPage) : (s.modPage ref f).home.counters = s.home.counters := by
  rfl

@[simp] theorem State.counters_sweepTables (s : State) : (s.sweepTables).home.counters = s.home.counters := by
  rfl

@[simp] theorem State.counters_chooseTable (s : State) (rid : Nat) (r : Region) (bytes : Bytes) : (s.chooseTable rid r bytes).1.home.counters = s.home.counters := by
  unfold State.chooseTable
  simp [apply_ite (fun t : State => t.home.counters), State.counters_foldl]
  (repeat' split) <;> simp [apply_ite (fun t : State => t.home.counters), State.counters_foldl]

@[simp] theorem State.counters_encodeGroup (s : State) (rid : Nat) (refs : List PageRef) (b : TierPage → Backing) (place : Image → TierPage → TierPage) :
    (s.encodeGroup rid refs b place).home.counters = s.home.counters := by
  unfold State.encodeGroup
  split
  · rfl
  · dsimp only
    rw [State.counters_sweepTables, State.counters_foldl, State.counters_chooseTable]
    intro s ref
    (repeat' split) <;> simp 

@[simp] theorem State.counters_writeBackNow (s : State) (ref : PageRef) : (s.writeBackNow ref).home.counters = s.home.counters := by
  unfold State.writeBackNow
  split <;> simp

@[simp] theorem State.counters_evict (s : State) (e : PageRef × TierPage) : (s.evict e).home.counters = s.home.counters := by
  unfold State.evict
  split <;> simp

@[simp] theorem State.counters_roomT0 (s : State) : (s.roomT0).home.counters = s.home.counters := by
  unfold State.roomT0
  (repeat' split) <;> simp

@[simp] theorem State.counters_fillT0 (s : State) (ref : PageRef) : (s.fillT0 ref).home.counters = s.home.counters := by
  unfold State.fillT0
  (repeat' split) <;> simp

@[simp] theorem State.counters_touch (s : State) (port : Bool) (ref : PageRef) (off : Nat) (n : Nat) : (s.touch port ref off n).home.counters = s.home.counters := by
  unfold State.touch
  simp [apply_ite (fun t : State => t.home.counters), State.counters_foldl]
  (repeat' split) <;> simp [apply_ite (fun t : State => t.home.counters), State.counters_foldl]

@[simp] theorem State.counters_allocate (s : State) (rid : Nat) (p : Nat) (r : Region) : (s.allocate rid p r).home.counters = s.home.counters := by
  unfold State.allocate
  split <;> simp 

@[simp] theorem State.counters_ensurePage (s : State) (rid : Nat) (p : Nat) : (s.ensurePage rid p).home.counters = s.home.counters := by
  unfold State.ensurePage
  (repeat' split) <;> simp

@[simp] theorem State.counters_commit (s : State) : (s.commit).home.counters = s.home.counters := by
  rfl

@[simp] theorem State.counters_makeShadow (s : State) (rid : Nat) (p : Nat) (i : Issuer) : (s.makeShadow rid p i).home.counters = s.home.counters := by
  unfold State.makeShadow
  simp [apply_ite (fun t : State => t.home.counters), State.counters_foldl]
  (repeat' split) <;> simp [apply_ite (fun t : State => t.home.counters), State.counters_foldl]

@[simp] theorem State.counters_touchRange (s : State) (port : Bool) (rid : Nat) (v : View) (off n : Nat) : (s.touchRange port rid v off n).home.counters = s.home.counters := by
  refine State.counters_foldl (fun s q => ?_) _ _
  (repeat' split) <;> simp

@[simp] theorem State.counters_putRef (s : State) (ref : PageRef) (off : Nat) (data : Bytes) : (s.putRef ref off data).home.counters = s.home.counters := by
  simp [State.putRef, apply_ite (fun t : State => t.home.counters), State.counters_foldl]

@[simp] theorem State.counters_directMap (s : State) (rid p off n : Nat) (f : Bytes → Bytes) : (s.directMap rid p off n f).home.counters = s.home.counters := by
  unfold State.directMap
  dsimp only
  (repeat' split)
  · simp
  · simp
  · rw [State.counters_foldl (fun s ref => ?_), State.counters_ensurePage]
    (repeat' split) <;> simp

@[simp] theorem State.counters_write1 (s : State) (rid : Nat) (w : Way) (off : Nat) (data : Bytes) : (s.write1 rid w off data).home.counters = s.home.counters := by
  unfold State.write1
  simp [apply_ite (fun t : State => t.home.counters), State.counters_foldl]
  (repeat' split) <;> simp [apply_ite (fun t : State => t.home.counters), State.counters_foldl]

@[simp] theorem State.counters_writePieces (s : State) (rid : Nat) (w : Way) (data : Bytes) (off : Nat) (ps : List (Nat × Nat)) :
    (s.writePieces rid w data off ps).home.counters = s.home.counters := by
  induction ps generalizing s with
  | nil => rfl
  | cons p ps ih => simp [State.writePieces, ih]

@[simp] theorem State.counters_writeRange (s : State) (rid : Nat) (w : Way) (off : Nat) (data : Bytes) : (s.writeRange rid w off data).home.counters = s.home.counters := by
  simp [State.writeRange]

/-! ### A counted write (R223, R228 to R230) -/

/-- Without lanes a counted write asks none for its slot. -/
theorem State.laneCheck_of_none {s : State} (h : s.expert.lanes = []) (ckey : Nat) : s.laneCheck ckey = s := by
  unfold State.laneCheck
  rw [h]
  rfl

/-- An operation of the log is found in it. -/
theorem State.logFind_logDone (s : State) (k lseq : Nat) (st : Status) (value : Nat) :
    (s.logDone k lseq st value).logFind k lseq = some { lseq := lseq, tomb := false, st := st, value := value, time := s.now } := by
  simp [State.logDone, State.logPut, State.logFind, State.logOf]

theorem countedWrite_does {s u : State} {q : LmfReq} {ck : Nat} {d : Bytes} {rid : Nat} {rg : Region} {c : Counter} (hlen : d.length = q.len)
    (haccess : s.accesses (.countedWrite q ck d) q false true needW = some (u, rid, rg)) (hnew : u.logFind (u.logKey q.dstEid q.srcEid q.ctx) q.lseq = none)
    (hcounter : Tab.get? u.home.counters (keyIdx ck) = some c) (hgen : c.gen = keyGen ck) (hrid : c.rid = rid) (hrgen : c.rgen = rg.gen) (hrg : u.region? rid = some rg) (hmirror : rg.mirror = 0)
    (hclear : u.meetWrite rid rg .direct q.offset q.len = .clear) (hlanes : u.expert.lanes = []) : Completes (.countedWrite q ck d) s q .ok [] fun t => (u.pageHeld rg q.offset = true → t.shows rid .pub q.offset d)
      ∧ Tab.get? t.home.counters (keyIdx ck) = some { c with bytes := (c.bytes + q.len) % 2 ^ 64, pkts := (c.pkts + 1) % 2 ^ 32 }
      ∧ ∃ e, t.logFind (u.logKey q.dstEid q.srcEid q.ctx) q.lseq = some e ∧ e.st = .ok ∧ e.tomb = false := by
  obtain ⟨htaken, hmax, hblock, hpermit, hgate⟩ := State.accesses_some haccess
  obtain ⟨hruns, hsourced, harrive⟩ := State.taken_some htaken
  have hexec : exec (.countedWrite q ck d) s = execCountedWrite q ck d s := rfl
  have htake : d.take q.len = d := by rw [← hlen, List.take_length]
  have hfor : u.counterFor ck rid = true := by simp [State.counterFor, hcounter, hrg, hgen, hrid, hrgen]
  rw [execCountedWrite, whenUp_of_runs hruns] at hexec
  dsimp only at hexec
  rw [hsourced, htake, harrive] at hexec
  dsimp only at hexec
  rw [hnew] at hexec
  dsimp only at hexec
  rw [if_neg (by simp [hblock]; omega), hpermit] at hexec
  dsimp only at hexec
  rw [hfor, Bool.not_true, if_neg Bool.false_ne_true, hgate, hlen, hclear] at hexec
  dsimp only at hexec
  have hput : u.putCounted true rid q.offset ck d = ((u.writeRange rid .direct q.offset d).touchRange true rid .pub q.offset d.length).countWrite ck d.length :=
    State.laneCheck_of_none (by simp [State.countWrite, hlanes]) ck
  have hmem : ((u.putCounted true rid q.offset ck d).logDone (u.logKey q.dstEid q.srcEid q.ctx) q.lseq .ok 0).memory = (u.writeRange rid .direct q.offset d).memory := by
    rw [hput, ← State.touchRange_memory (u.writeRange rid .direct q.offset d) true rid .pub q.offset d.length]
    exact State.memory_of_tables rfl rfl
  have hkey : (u.putCounted true rid q.offset ck d).logKey q.dstEid q.srcEid q.ctx = u.logKey q.dstEid q.srcEid q.ctx := by
    rw [hput]
    simp [State.logKey, State.countWrite]
  rw [hkey, State.answerAfter_writeRange_direct hrg hmirror hmem] at hexec
  have hpage : d.length ≠ 0 → q.offset / 65536 = (q.offset + d.length - 1) / 65536 := by
    have hfits : q.offset % 4096 + q.len ≤ 4096 := by simpa [inBlock] using hblock
    omega
  have hpiece : d.length ≠ 0 → u.meetWrite1 rid rg .direct q.offset d.length = .clear := fun hd => State.meetWrite1_of_clear hd (hpage hd) (hlen ▸ hclear)
  refine ⟨_, hexec, fun hheld => State.writeRange_direct_shows hrg hpiece hpage hheld hmem, ?_, _, State.logFind_logDone .., rfl, rfl⟩
  · rw [hput]
    simp [State.logDone, State.logPut, State.countWrite, Tab.get?_modify, hcounter, hlen]


/-! ### Policies, SSD mode and the domains (R445 to R453) -/

@[simp] theorem State.expert_applyPolicy (s : State) (rid : Nat) (new : Policy) : (s.applyPolicy rid new).expert = s.expert := rfl

/-- SSD mode's policies leave everything of the experts but what is held. -/
theorem State.expert_ssdSync (s : State) : s.ssdSync.expert = { s.expert with ssdHeld := s.ssdSync.expert.ssdHeld } := by
  have hfold : ∀ {α : Type} (f : State → α → State), (∀ s a, (f s a).expert = { s.expert with ssdHeld := (f s a).expert.ssdHeld }) → ∀ (l : List α) (s : State),
      (l.foldl f s).expert = { s.expert with ssdHeld := (l.foldl f s).expert.ssdHeld } := by
    intro α f hf l
    induction l with
    | nil => exact fun s => rfl
    | cons a l ih =>
      intro s
      rw [List.foldl_cons, ih, hf]
  unfold State.ssdSync
  dsimp only
  rw [hfold _ (fun s rid => ?_), hfold _ (fun s e => ?_)]
  · rw [State.expert_applyPolicy]
  · split
    · rfl
    · split
      · rw [State.expert_applyPolicy]
      · rfl

/-- Without SSD mode no region is held for it. -/
theorem State.ssdSync_of_none {s : State} (hssd : s.expert.ssd = none) (hheld : s.expert.ssdHeld = []) : s.ssdSync = s := by
  unfold State.ssdSync
  dsimp only
  rw [hssd, hheld]
  rfl

theorem State.ssdHeld_ssdEnd (s : State) : s.ssdEnd.expert.ssd = none ∧ s.ssdEnd.expert.ssdHeld = [] := by
  refine ⟨by rw [State.ssdEnd, State.expert_ssdSync], ?_⟩
  have hfold : ∀ (l : List (Nat × Policy)) (s : State),
      (l.foldl (fun (s : State) e => State.applyPolicy { s with expert.ssdHeld := Tab.erase s.expert.ssdHeld e.1 } e.1 e.2) s).expert.ssdHeld = (l.map Prod.fst).foldl Tab.erase s.expert.ssdHeld := by
    intro l
    induction l with
    | nil => exact fun s => rfl
    | cons e l ih =>
      intro s
      rw [List.foldl_cons, ih, State.expert_applyPolicy]
      rfl
  have hmem : ∀ (ks : List Nat) (t : Tab Policy), ∀ e ∈ ks.foldl Tab.erase t, e ∈ t ∧ e.1 ∉ ks := by
    intro ks
    induction ks with
    | nil => exact fun t e he => ⟨he, List.not_mem_nil⟩
    | cons k ks ih =>
      intro t e he
      obtain ⟨hin, hout⟩ := ih _ e he
      obtain ⟨hin, hne⟩ := Tab.mem_erase hin
      exact ⟨hin, by simp [hne, hout]⟩
  unfold State.ssdEnd State.ssdSync
  dsimp only
  rw [List.foldl_nil, hfold]
  refine List.eq_nil_iff_forall_not_mem.2 fun e he => ?_
  obtain ⟨hin, hout⟩ := hmem _ _ e he
  exact hout (List.mem_map.2 ⟨e, by simpa using hin, rfl⟩)

theorem State.doms_wakeDomain (s : State) (d : Domain) : (s.wakeDomain d).pow.doms.map DomEntry.dom = s.pow.doms.map DomEntry.dom := by
  unfold State.wakeDomain State.wakeWhere
  rw [List.map_map]
  refine List.map_congr_left fun e _ => ?_
  rw [Function.comp_apply]
  split
  · unfold DomEntry.woken
    (repeat' split) <;> rfl
  · rfl

theorem State.doms_foldl_wakeDomain (l : List Domain) (s : State) : (l.foldl State.wakeDomain s).pow.doms.map DomEntry.dom = s.pow.doms.map DomEntry.dom := by
  induction l generalizing s with
  | nil => rfl
  | cons d l ih => rw [List.foldl_cons, ih, State.doms_wakeDomain]

theorem State.doms_stir (s : State) : s.stir.pow.doms.map DomEntry.dom = s.pow.doms.map DomEntry.dom := by
  unfold State.stir State.bivouacEnd
  split
  · rw [State.doms_foldl_wakeDomain]
  · rw [State.doms_foldl_wakeDomain]

theorem State.doms_domainUp (s : State) (d : Domain) : (s.domainUp d).pow.doms = s.pow.doms.map (fun e => if e.dom = d then { dom := d, st := .on, stop := 0, cause := 0 } else e) := by
  unfold State.domainUp
  dsimp only
  rw [State.setDomain_pow]
  dsimp only
  split
  · rfl
  · rw [State.foldl_pow _ (fun s hw => by simp)]

/-- Each domain that is brought up is ON, and stays ON. -/
theorem State.domainsUp (l : List Domain) (s : State) : ∀ e ∈ (l.foldl State.domainUp s).pow.doms, e.st = .on ∨ (e ∈ s.pow.doms ∧ e.dom ∉ l) := by
  induction l generalizing s with
  | nil => exact fun e he => .inr ⟨he, List.not_mem_nil⟩
  | cons d l ih =>
    intro e he
    rcases ih _ e he with hon | ⟨hin, hout⟩
    · exact .inl hon
    · rw [State.doms_domainUp] at hin
      obtain ⟨x, hx, rfl⟩ := List.mem_map.1 hin
      by_cases hdom : x.dom = d
      · rw [if_pos hdom]
        exact .inl rfl
      · rw [if_neg hdom] at hout ⊢
        exact .inr ⟨hx, by simp [hdom, hout]⟩

/-! ### The commands of experts -/

section Experts

variable {s u : State} {r : BciReq} {i : Issuer}

theorem expertPolicySet_does (hready : s.ready (.expertPolicySet r) { BciRow.o 0x74 1 with minor := some 2 } r = some (i, u)) (hle : r.w 1 ≤ 10000000) :
    exec (.expertPolicySet r) s = .next (State.respond { u with expert.dlMargin := r.w 1 } r .ok []) := by
  have hexec : exec (.expertPolicySet r) s = execExpertPolicySet r s := rfl
  rw [execExpertPolicySet, bciServe_of_ready hready] at hexec
  dsimp only at hexec
  rwa [if_neg (by omega)] at hexec

/-- An expert's weights depend on the regions, this endpoint and the sessions. -/
theorem State.weightsOf_of_regions {s t : State} (hregions : t.home.regions = s.home.regions) (heid : t.lmf.eid = s.lmf.eid) (hsec : t.sec = s.sec) (d : List Word) : t.weightsOf d = s.weightsOf d := by
  simp only [State.weightsOf, State.expertIssuer, State.permit_of_regions hregions heid hsec, heid] <;> rfl

/-- EXPERT_SET sets up a descriptor (R433). -/
theorem expertSet_does {rid : Nat} {rg : Region} {d : List Word} (hready : s.ready (.expertSet r) { BciRow.o 0x70 3 with minor := some 2, resv := fun r => offResv r 2 } r = some (i, u))
    (hopens : u.opens r i (r.w 1) (r.d 2) 128 needR = some (rid, rg)) (hclear : u.meetRead rid rg (.own i) (r.d 2) 128 = .clear) (hssd : u.expert.ssd = none) (hheld : u.expert.ssdHeld = [])
    (hd : d = wordsOf (u.readRange rg (.own i) (r.d 2) 128)) (hok : descriptorOk d = true) (hctx : u.ctxOk (dsCtx d) = true) (hweights : (u.weightsOf d).isSome = true) :
    Answers (.expertSet r) s r [] fun t => t.expertOf (fld (wAt d 1) 15 0) = some d ∧ ∀ e, e ≠ fld (wAt d 1) 15 0 → t.expertOf e = u.expertOf e := by
  have hexec : exec (.expertSet r) s = execExpertSet r s := rfl
  rw [execExpertSet, bciServe_of_ready hready] at hexec
  dsimp only at hexec
  rw [State.onRegion_of_opens hopens, hclear] at hexec
  dsimp only at hexec
  have hdone : ∀ w, w = u.readDone false rid (.own i) (r.d 2) 128 → w.expert = u.expert ∧ w.home.regions = u.home.regions ∧ w.lmf.eid = u.lmf.eid ∧ w.sec = u.sec ∧ w.bci = u.bci := by
    rintro w rfl
    exact ⟨by simp, State.readDone_regions .., State.eid_of_standing (State.standing_readDone ..), by simp, by simp⟩
  generalize u.readDone false rid (.own i) (r.d 2) 128 = w at hdone hexec
  obtain ⟨hexpert, hregions, heid, hsec, hbci⟩ := hdone w rfl
  have hctx : w.ctxOk (dsCtx d) = true := by
    rw [← hctx]
    simp only [State.ctxOk, State.ctxIs, hbci]
  have hweights : (w.weightsOf d).isNone = false := by
    rw [State.weightsOf_of_regions hregions heid hsec]
    exact Option.isNone_eq_false_iff.2 hweights
  have hsync : State.ssdSync { w with expert.descs := Tab.set w.expert.descs (fld (wAt d 1) 15 0) d } = { w with expert.descs := Tab.set w.expert.descs (fld (wAt d 1) 15 0) d } :=
    State.ssdSync_of_none (by rw [hexpert]; exact hssd) (by rw [hexpert]; exact hheld)
  rw [← hd, hok, Bool.not_true, if_neg Bool.false_ne_true, hctx, Bool.not_true, if_neg Bool.false_ne_true, hweights, if_neg Bool.false_ne_true, hsync,
    if_neg (fun h => absurd h.2 (Nat.lt_irrefl _))] at hexec
  refine ⟨_, hexec, Tab.get?_set_self .., fun e he => ?_⟩
  simp only [State.expertOf, hexpert]
  exact Tab.get?_set_ne _ _ he

/-- SSD_ENTER begins the mode, with every domain ON (R445). -/
theorem ssdEnter_does {v : State} (hready : s.ready (.ssdEnter r) { BciRow.o 0x75 1 with minor := some 3, resv := fun r => above r 1 12 } r = some (i, u)) (hssd : u.expert.ssd = none)
    (hctx : u.ctxOk (r.w 1) = true) (hv : v = State.ssdSync { u with expert.ssd := some (r.w 1) }) (hfits : v.r121 ≤ r121Limit ∨ v.r121 ≤ u.r121) :
    Answers (.ssdEnter r) s r [] fun t => t.expert.ssd = some (r.w 1) ∧ ∀ e ∈ t.pow.doms, e.st = .on := by
  have hexec : exec (.ssdEnter r) s = execSsdEnter r s := rfl
  rw [execSsdEnter, bciServe_of_ready hready] at hexec
  dsimp only at hexec
  rw [if_neg (by simp [hssd, hctx]), ← hv, if_neg (by omega)] at hexec
  refine ⟨_, hexec, ?_, fun e he => ?_⟩
  · have hkept := State.foldl_expert State.domainUp (fun s d => by simp) (v.pow.doms.map DomEntry.dom) v.stir
    have hstir : v.stir.expert = v.expert := by simp
    have hsync : v.expert.ssd = some (r.w 1) := by rw [hv, State.expert_ssdSync]
    dsimp only
    rw [hkept, hstir, hsync]
  · rcases State.domainsUp _ _ e he with hon | ⟨hin, hout⟩
    · exact hon
    · rw [← State.doms_stir] at hout
      exact absurd (List.mem_map.2 ⟨e, hin, rfl⟩) hout

theorem ssdExit_does (hready : s.ready (.ssdExit r) { BciRow.o 0x76 0 with minor := some 3 } r = some (i, u)) (hssd : u.expert.ssd.isSome = true) :
    Answers (.ssdExit r) s r [] fun t => t.expert.ssd = none ∧ t.expert.ssdHeld = [] := by
  have hexec : exec (.ssdExit r) s = execSsdExit r s := rfl
  rw [execSsdExit, bciServe_of_ready hready] at hexec
  rw [if_neg (by rw [Option.isNone_eq_false_iff.2 hssd]; decide)] at hexec
  exact ⟨_, hexec, State.ssdHeld_ssdEnd u⟩

end Experts


/-! ### Messages that are released (R437, R439) -/

/-- Each message of `t` is one of `s`, but for whether it is released. -/
def State.ReleasedFrom (s t : State) : Prop :=
  t.expert.descs = s.expert.descs ∧ t.expert.batches = s.expert.batches ∧ ∀ m ∈ t.expert.msgs, ∃ x ∈ s.expert.msgs, m.id = x.id ∧ m.lane = x.lane ∧ m.entries = x.entries

theorem State.ReleasedFrom.refl (s : State) : s.ReleasedFrom s := ⟨rfl, rfl, fun m hm => ⟨m, hm, rfl, rfl, rfl⟩⟩

theorem State.ReleasedFrom.trans {s t u : State} (h : s.ReleasedFrom t) (h' : t.ReleasedFrom u) : s.ReleasedFrom u := by
  obtain ⟨hdescs, hbatches, hmsgs⟩ := h
  obtain ⟨hdescs', hbatches', hmsgs'⟩ := h'
  refine ⟨hdescs'.trans hdescs, hbatches'.trans hbatches, fun m hm => ?_⟩
  obtain ⟨x, hx, hid, hlane, hentries⟩ := hmsgs' m hm
  obtain ⟨y, hy, hid', hlane', hentries'⟩ := hmsgs x hx
  exact ⟨y, hy, hid.trans hid', hlane.trans hlane', hentries.trans hentries'⟩

theorem State.releasedFrom_modMsg (s : State) (id : Nat) : s.ReleasedFrom (s.modMsg id (fun m => { m with released := true })) := by
  refine ⟨rfl, rfl, fun m hm => ?_⟩
  obtain ⟨x, hx, rfl⟩ := List.mem_map.1 hm
  split <;> exact ⟨x, hx, rfl, rfl, rfl⟩

/-- A release marks its message, and frees its slot. -/
theorem State.releasedFrom_expRelease (s : State) (id : Nat) : s.ReleasedFrom (s.expRelease id) := by
  unfold State.expRelease
  split
  · exact .refl s
  · dsimp only
    split
    · exact .refl s
    · split
      · exact s.releasedFrom_modMsg id
      · exact s.releasedFrom_modMsg id

theorem State.releasedFrom_foldl (l : List Nat) (s : State) : s.ReleasedFrom (l.foldl State.expRelease s) := by
  induction l generalizing s with
  | nil => exact .refl s
  | cons id l ih => exact (s.releasedFrom_expRelease id).trans (ih _)

/-- What an entry that is picked becomes. -/
def ExpEntry.endedBy (pick : ExpEntry → Bool) (st : Status) (e : ExpEntry) : ExpEntry := if e.st = EntState.queued ∧ pick e = true then { e with st := .done st } else e

theorem ExpEntry.endedBy_expert (pick : ExpEntry → Bool) (st : Status) (e : ExpEntry) : (e.endedBy pick st).expert = e.expert := by
  unfold ExpEntry.endedBy
  split <;> rfl

theorem ExpEntry.endedBy_picked {pick : ExpEntry → Bool} {e : ExpEntry} (h : pick e = true) (st : Status) : (e.endedBy pick st).st ≠ .queued := by
  unfold ExpEntry.endedBy
  split
  · exact fun hst => EntState.noConfusion hst
  · next hne => exact fun hst => hne ⟨hst, h⟩

/-- The entries that are picked end, where they are queued (R442). -/
theorem State.mem_endEntries {s : State} {pick : ExpMsg → ExpEntry → Bool} {st : Status} {m : ExpMsg} (hm : m ∈ (s.endEntries pick st).expert.msgs) :
    ∃ x ∈ s.expert.msgs, m.lane = x.lane ∧ m.entries = x.entries.map (ExpEntry.endedBy (pick x) st) := by
  obtain ⟨-, -, hmsgs⟩ := State.releasedFrom_foldl ((s.expert.msgs.map (fun (m : ExpMsg) => { m with entries := m.entries.map (ExpEntry.endedBy (pick m) st) })).map ExpMsg.id)
    { s with expert.msgs := s.expert.msgs.map (fun (m : ExpMsg) => { m with entries := m.entries.map (ExpEntry.endedBy (pick m) st) }) }
  obtain ⟨y, hy, -, hlane, hentries⟩ := hmsgs m hm
  obtain ⟨x, hx, rfl⟩ := List.mem_map.1 hy
  exact ⟨x, hx, hlane, hentries⟩

theorem State.descs_endEntries (s : State) (pick : ExpMsg → ExpEntry → Bool) (st : Status) : (s.endEntries pick st).expert.descs = s.expert.descs :=
  (State.releasedFrom_foldl _ _).1

section Clear

variable {s u : State} {r : BciReq} {i : Issuer}

/-- EXPERT_CLEAR takes the descriptor away, and the entries of the expert that are queued end (R434). -/
theorem expertClear_does (hready : s.ready (.expertClear r) { BciRow.o 0x71 1 with minor := some 2, resv := fun r => above r 1 16 } r = some (i, u))
    (hexpert : (u.expertOf (r.w 1)).isSome = true) : Answers (.expertClear r) s r [] fun t =>
      t.expertOf (r.w 1) = none ∧ ∀ m ∈ t.expert.msgs, ∀ e ∈ m.entries, e.expert = r.w 1 → e.st ≠ .queued := by
  have hexec : exec (.expertClear r) s = execExpertClear r s := rfl
  rw [execExpertClear, bciServe_of_ready hready] at hexec
  dsimp only at hexec
  rw [if_neg (by rw [Option.isNone_eq_false_iff.2 hexpert]; decide)] at hexec
  refine ⟨_, hexec, ?_, ?_⟩
  · rw [State.expertOf, State.expert_ssdSync]
    dsimp only
    rw [State.descs_endEntries]
    exact Tab.get?_erase_self ..
  · rw [State.expert_ssdSync]
    intro m hm e he hexp
    obtain ⟨x, -, -, hentries⟩ := State.mem_endEntries hm
    rw [hentries] at he
    obtain ⟨y, -, rfl⟩ := List.mem_map.1 he
    rw [ExpEntry.endedBy_expert] at hexp
    exact ExpEntry.endedBy_picked (by simpa using hexp) _

/-! ### A lane ends (R435) -/

/-- No lane is being removed, and the lane is there. -/
def State.LaneStands (s : State) (n : Nat) : Prop := (∀ e ∈ s.expert.lanes, e.2.removing = none) ∧ ∃ l, Tab.get? s.expert.lanes n = some l

theorem State.LaneStands.set {s t : State} {n k : Nat} {l : Lane} (h : s.LaneStands n) (hl : l.removing = none) (ht : t.expert.lanes = Tab.set s.expert.lanes k l) : t.LaneStands n := by
  obtain ⟨hnone, x, hx⟩ := h
  refine ⟨fun e he => ?_, ?_⟩
  · rw [ht] at he
    rcases Tab.mem_set he with rfl | he
    · exact hl
    · exact hnone e he
  · rw [ht, Tab.get?_set]
    split
    · exact ⟨l, rfl⟩
    · exact ⟨x, hx⟩

theorem State.LaneStands.expRelease {s : State} {n : Nat} (h : s.LaneStands n) (id : Nat) : (s.expRelease id).LaneStands n := by
  unfold State.expRelease
  split
  · exact h
  · dsimp only
    split
    · exact h
    · split
      · exact h
      · next l hl =>
        have hstays : l.removing = none := h.1 _ (Tab.get?_mem hl)
        refine State.LaneStands.set h ?_ rfl
        exact hstays

theorem State.LaneStands.foldl {s : State} {n : Nat} (h : s.LaneStands n) (l : List Nat) : (l.foldl State.expRelease s).LaneStands n := by
  induction l generalizing s with
  | nil => exact h
  | cons id l ih => exact ih (h.expRelease id)

theorem State.LaneStands.endEntries {s : State} {n : Nat} (h : s.LaneStands n) (pick : ExpMsg → ExpEntry → Bool) (st : Status) : (s.endEntries pick st).LaneStands n := by
  unfold State.endEntries
  refine State.LaneStands.foldl ?_ _
  exact h

@[simp] theorem State.expert_freeCounter (s : State) (idx : Nat) : (s.freeCounter idx).expert = s.expert := by
  unfold State.freeCounter
  split
  · rfl
  · dsimp only
    refine State.foldl_expert _ (fun s w => ?_) _ _
    unfold State.endWait
    dsimp only
    split <;> simp

/-- What the sweep of lanes does with one lane. -/
def State.laneStep (s : State) (e : Nat × Lane) : State :=
  match e.2.removing with
  | some r => if s.laneBusy e.1 then s else State.respond { s with expert.lanes := Tab.erase s.expert.lanes e.1 } r .ok []
  | none => s

theorem State.laneGone_eq (s : State) : s.laneGone = s.expert.lanes.foldl State.laneStep s := rfl

theorem State.foldl_laneStep_of_none {l : List (Nat × Lane)} (h : ∀ e ∈ l, e.2.removing = none) (s : State) : l.foldl State.laneStep s = s := by
  induction l generalizing s with
  | nil => rfl
  | cons e l ih =>
    obtain ⟨he, hl⟩ := List.forall_mem_cons.1 h
    have hstep : s.laneStep e = s := by
      unfold State.laneStep
      rw [he]
    rw [List.foldl_cons, hstep]
    exact ih hl s

/-- Where one lane alone is being removed, the sweep is that lane's. -/
theorem State.foldl_laneStep_set {t : Tab Lane} (h : ∀ e ∈ t, e.2.removing = none) (n : Nat) (v : Lane) (s : State) : (Tab.set t n v).foldl State.laneStep s = s.laneStep (n, v) := by
  induction t generalizing s with
  | nil => rfl
  | cons e t ih =>
    obtain ⟨j, w⟩ := e
    obtain ⟨he, ht⟩ := List.forall_mem_cons.1 h
    have hstep : ∀ s : State, s.laneStep (j, w) = s := by
      intro s
      unfold State.laneStep
      rw [he]
    simp only [Tab.set]
    split
    · rw [List.foldl_cons, List.foldl_cons, State.foldl_laneStep_of_none ht, hstep]
    · split
      · rw [List.foldl_cons, State.foldl_laneStep_of_none ht]
      · rw [List.foldl_cons, hstep, ih ht]

/-- LANE_REMOVE ends the entries of the lane that are queued, and the lane goes once none is being run (R435). -/
theorem laneRemove_does (hready : s.ready (.laneRemove r) { BciRow.o 0x73 1 with minor := some 2, resv := fun r => above r 1 12 } r = some (i, u)) (hlane : Tab.has u.expert.lanes (r.w 1) = true)
    (hnone : ∀ e ∈ u.expert.lanes, e.2.removing = none) (hidle : u.laneBusy (r.w 1) = false) : Answers (.laneRemove r) s r [] fun t =>
      Tab.get? t.expert.lanes (r.w 1) = none ∧ ∀ m ∈ t.expert.msgs, m.lane = r.w 1 → ∀ e ∈ m.entries, e.st ≠ .queued := by
  have hexec : exec (.laneRemove r) s = execLaneRemove r s := rfl
  rw [execLaneRemove, bciServe_of_ready hready] at hexec
  dsimp only at hexec
  obtain ⟨l, hl⟩ := Option.isSome_iff_exists.1 hlane
  rw [hl] at hexec
  dsimp only at hexec
  rw [if_neg (by rw [show l.removing = none from hnone _ (Tab.get?_mem hl)]; decide)] at hexec
  have hstands : (u.endEntries (fun m _ => decide (m.lane = r.w 1)) .key).LaneStands (r.w 1) := State.LaneStands.endEntries ⟨hnone, l, hl⟩ _ _
  have hmsgs : ∀ m ∈ (u.endEntries (fun m _ => decide (m.lane = r.w 1)) .key).expert.msgs, m.lane = r.w 1 → ∀ e ∈ m.entries, e.st ≠ .queued ∧ ∀ b, e.st ≠ .copied b := by
    intro m hm hmine e he
    obtain ⟨x, hx, hxlane, hentries⟩ := State.mem_endEntries hm
    rw [hentries] at he
    obtain ⟨y, hy, rfl⟩ := List.mem_map.1 he
    have hxmine : x.lane = r.w 1 := hxlane.symm.trans hmine
    refine ⟨ExpEntry.endedBy_picked (by simpa using hxmine) _, fun b hb => ?_⟩
    unfold ExpEntry.endedBy at hb
    split at hb
    · exact EntState.noConfusion hb
    · have hbusy : u.laneBusy (r.w 1) = true := List.any_eq_true.2 ⟨x, hx, by rw [Bool.and_eq_true]; exact ⟨by simpa using hxmine, List.any_eq_true.2 ⟨y, hy, by rw [hb]⟩⟩⟩
      exact absurd hbusy (by rw [hidle]; decide)
  generalize u.endEntries (fun m _ => decide (m.lane = r.w 1)) .key = v at hexec hstands hmsgs
  have hfree := State.foldl_expert (fun (s : State) k => s.freeCounter (keyIdx k)) (fun s k => by simp) l.ckeys v
  generalize l.ckeys.foldl (fun (s : State) k => s.freeCounter (keyIdx k)) v = w at hexec hfree
  obtain ⟨hvnone, x, hx⟩ := hstands
  have hmodify : Tab.modify w.expert.lanes (r.w 1) (fun x => { x with removing := some r }) = Tab.set v.expert.lanes (r.w 1) { x with removing := some r } := by
    rw [hfree, Tab.modify, hx]
  rw [hmodify, State.laneGone_eq] at hexec
  dsimp only at hexec
  rw [State.foldl_laneStep_set hvnone, State.laneStep] at hexec
  dsimp only at hexec
  rw [if_neg ?busy] at hexec
  case busy =>
    intro hbusy
    obtain ⟨m, hm, hbusy⟩ := List.any_eq_true.1 hbusy
    rw [Bool.and_eq_true] at hbusy
    obtain ⟨hmine, hany⟩ := hbusy
    obtain ⟨e, he, hcopied⟩ := List.any_eq_true.1 hany
    rw [hfree] at hm
    have hnever := (hmsgs m hm (by simpa using hmine) e he).2
    split at hcopied
    · next b hb => exact hnever b hb
    · exact Bool.false_ne_true hcopied
  refine ⟨_, hexec, Tab.get?_erase_self .., fun m hm hmine e he => ?_⟩
  dsimp only at hm
  rw [hfree] at hm
  exact (hmsgs m hm hmine e he).1

end Clear


/-! ### A lane begins (R435, R436) -/

/-- The counters of a lane's slots change the counters alone. -/
theorem State.laneCounters_eq (s : State) (rid ctx n : Nat) :
    (s.laneCounters rid ctx n).1 = { s with home.counters := (s.laneCounters rid ctx n).1.home.counters } ∧ (s.laneCounters rid ctx n).2.length = n := by
  induction n generalizing s with
  | zero => exact ⟨rfl, rfl⟩
  | succ n ih =>
    obtain ⟨hstate, hlength⟩ := ih (s.newCounter rid s.lmf.eid ctx).1
    refine ⟨?_, congrArg (· + 1) hlength⟩
    rw [State.laneCounters]
    exact hstate

theorem length_flatMap_natLE (ks : List Nat) : (ks.flatMap (natLE 4)).length = 4 * ks.length := by
  induction ks with
  | nil => rfl
  | cons k ks ih => rw [List.flatMap_cons, List.length_append, natLE_length, ih, List.length_cons, Nat.mul_succ, Nat.add_comm]

theorem laneAdd_does {s u : State} {r : BciReq} {i : Issuer} {rid out slots units li : Nat} {rg og : Region} (hslots : slots = fld (r.w 2) 6 0) (hunits : units = fld (r.w 2) 18 8)
    (hli : li = lowestFree (Tab.keys u.expert.lanes) 0) (hready : s.ready (.laneAdd r) { BciRow.o 0x72 7 with
      minor := some 2, resv := fun r => bitAt (r.w 2) 7 || above r 2 19 || above r 3 18 || decide (fld (r.w 4) 15 12 ≠ 0) || above r 4 28 || offResv r 6 } r = some (i, u))
    (hlive : u.live (u.reqHome r) (r.w 1) = some (rid, rg)) (hlow : 1 ≤ slots) (hhigh : slots ≤ 64) (hunit : 1 ≤ units) (hmost : units ≤ 1024) (hsize : slots * (units * 65536) = rg.size)
    (hctx : u.ctxOk (fld (r.w 4) 27 16) = true) (hfree : ∀ e ∈ u.expert.lanes, e.2.rid ≠ rid) (hroom : u.expert.lanes.length < 4096) (hcounters : u.home.counters.length + slots ≤ 65536)
    (hopens : u.opens r i (r.w 5) (r.d 6) (4 * slots) needW = some (out, og)) (hclear : u.meetWrite out og .direct (r.d 6) (4 * slots) = .clear) (hmirror : og.mirror = 0) :
    Answers (.laneAdd r) s r (one li) fun t => ∃ l, Tab.get? t.expert.lanes li = some l ∧ l.rid = rid ∧ l.slots = slots ∧ l.slotBytes = units * 65536 ∧ l.eid = r.w 3 ∧ l.sctx = fld (r.w 4) 11 0
      ∧ l.ctx = fld (r.w 4) 27 16 ∧ l.ckeys.length = slots ∧ l.nextSeq = upto slots ∧ l.removing = none
      ∧ (r.d 6 / 65536 = (r.d 6 + 4 * slots - 1) / 65536 → u.pageHeld og (r.d 6) = true → t.shows out .pub (r.d 6) (l.ckeys.flatMap (natLE 4))) := by
  have hexec : exec (.laneAdd r) s = execLaneAdd r s := rfl
  rw [execLaneAdd, bciServe_of_ready hready] at hexec
  dsimp only at hexec
  have hunused : u.expert.lanes.any (fun e => decide (e.2.rid = rid)) = false := by simpa using hfree
  rw [← hslots, ← hunits, State.named, hlive] at hexec
  dsimp only at hexec
  rw [if_neg (by omega), if_neg (by simp [hctx, hunused]), if_neg (by omega), State.onRegion_of_opens hopens, hclear] at hexec
  dsimp only at hexec
  obtain ⟨hstate, hlength⟩ := State.laneCounters_eq u rid (fld (r.w 4) 27 16) slots
  generalize (u.laneCounters rid (fld (r.w 4) 27 16) slots).2 = ks at hexec hlength
  generalize (u.laneCounters rid (fld (r.w 4) 27 16) slots).1.home.counters = cs at hstate
  rw [hstate] at hexec
  have hrg := State.region?_of_opens hopens
  have hdata : (ks.flatMap (natLE 4)).length = 4 * slots := by rw [length_flatMap_natLE, hlength]
  dsimp only at hexec
  rw [← hli] at hexec
  generalize hw : ({ u with home.counters := cs, expert.lanes := _ } : State) = w at hexec
  have hwrg : w.region? out = some og := by
    rw [← hrg, ← hw]
    rfl
  rw [State.answerAfter_writeRange_direct hwrg hmirror rfl] at hexec
  let l : Lane :=
    { key := r.w 1, rid := rid, slots := slots, slotBytes := units * 65536, eid := r.w 3, sctx := fld (r.w 4) 11 0, ctx := fld (r.w 4) 27 16, ckeys := ks,
      nextSeq := upto slots, busy := List.replicate slots false, removing := none }
  refine ⟨_, hexec, l, ?_, rfl, rfl, rfl, rfl, rfl, rfl, hlength, rfl, rfl, fun hpage hheld => State.writeRange_direct_shows hwrg (fun hd => ?_) (fun _ => by rw [hdata]; exact hpage) ?_ rfl⟩
  · simp only [State.writeRange_keeps, ← hw]
    exact Tab.get?_set_self ..
  · rw [← State.meetWrite1_of_clear (by omega) hpage hclear, ← hdata, ← hw]
    rfl
  · rw [← hheld, ← hw]
    rfl


/-! ### A ready expert gets a core (R438 to R441) -/

/-- An expert whose oldest entry has waited long enough is ready (R438). -/
theorem maxWaitExpiry_does {s : State} {e : Nat} {d : List Word} (hruns : s.runs = true) (hexpert : s.expertOf e = some d) (hdue : s.expertDue e d = true) (hnew : e ∉ s.expert.ready) :
    exec (.maxWaitExpiry e) s = .next { s with expert.ready := s.expert.ready ++ [e] } := by
  have hexec : exec (.maxWaitExpiry e) s = execMaxWaitExpiry e s := rfl
  rw [execMaxWaitExpiry, whenUp_of_runs hruns] at hexec
  rw [hexpert] at hexec
  dsimp only at hexec
  rwa [if_pos (by simpa [hdue] using hnew)] at hexec

/-- A message before its deadline keeps its entries. -/
theorem State.entryDeadlines_early {s : State} (h : ∀ m ∈ s.expert.msgs, s.now < hdDeadline m.words) (id : Nat) : s.entryDeadlines id = s := by
  unfold State.entryDeadlines
  split
  · rfl
  · next m hm => exact if_pos (h m (List.mem_of_find?_eq_some hm))

/-- A message that is released, or has an entry queued, stays as it is. -/
theorem State.expRelease_waits {s : State} (h : ∀ m ∈ s.expert.msgs, m.released = true ∨ ∃ y ∈ m.entries, y.st = .queued) (id : Nat) : s.expRelease id = s := by
  unfold State.expRelease
  split
  · rfl
  · next m hm =>
    refine if_pos ?_
    rcases h m (List.mem_of_find?_eq_some hm) with hreleased | ⟨y, hy, hqueued⟩
    · rw [hreleased, Bool.true_or]
    · rw [Bool.or_eq_true]
      exact .inr (List.any_eq_true.2 ⟨y, hy, by rw [hqueued]⟩)

/-- A capture of pages leaves the experts, the cores and the regions. -/
theorem State.capture_leaves (s : State) (holder : Nat) (ranges : List (Nat × Nat × Nat)) :
    (s.capture holder ranges).1.expert = s.expert ∧ (s.capture holder ranges).1.cores = s.cores ∧ (s.capture holder ranges).1.home.regions = s.home.regions := by
  unfold State.capture State.capturePages
  dsimp only
  generalize List.map _ _ = caps
  induction caps generalizing s with
  | nil => exact ⟨rfl, rfl, rfl⟩
  | cons c caps ih =>
    rw [List.foldl_cons]
    obtain ⟨hexpert, hcores, hregions⟩ := ih (if c.2.2 = 0 then s.holdZero c.1 c.2.1 holder else s.hold (c.2.2 - 1) holder)
    rw [hexpert, hcores, hregions]
    split <;> exact ⟨rfl, rfl, rfl⟩

/-- An entry of a message after some entries are changed. -/
theorem State.entry_modEntries {s : State} {ids : List (Nat × Nat)} {f : Nat → ExpEntry → ExpEntry} {m : ExpMsg} {k : Nat} {y : ExpEntry} (hm : m ∈ (s.modEntries ids f).expert.msgs)
    (hy : m.entries[k]? = some y) (hin : (m.id, k) ∈ ids) : ∃ z ∈ s.expert.msgs, z.id = m.id ∧ ∃ x, y = f m.id x := by
  obtain ⟨z, hz, rfl⟩ := List.mem_map.1 hm
  refine ⟨z, hz, rfl, ?_⟩
  dsimp only at hy hin
  rw [List.getElem?_map, Option.map_eq_some_iff] at hy
  obtain ⟨⟨x, j⟩, hx, rfl⟩ := hy
  rw [List.getElem?_zipIdx, Option.map_eq_some_iff] at hx
  obtain ⟨w, hw, hpair⟩ := hx
  obtain ⟨rfl, rfl⟩ := Prod.mk.inj hpair
  rw [Nat.zero_add]
  exact ⟨w, if_pos hin⟩

/-- A core that is started prepares, or wakes first. -/
theorem State.st_startCore (s : State) (n : Nat) : ((s.startCore n).core n).st = (if (s.core n).st = .idle then .preparing else .waking) := by
  have hwake : ∀ (u : State) (d : Domain), (u.wakeDomain d).core n = u.core n := fun u d => rfl
  unfold State.startCore
  dsimp only
  split
  · next h => rw [hwake, State.core_setCore_self, if_pos h]
  · next h => rw [hwake, State.core_setCore_self, if_neg h]

theorem State.st_batchOn (s : State) (core : Nat) (b : MicroBatch) : ((s.batchOn core b).core core).st = (if (s.core core).st = .idle then .preparing else .waking) := by
  unfold State.batchOn
  dsimp only
  rw [State.st_startCore, State.core_setCore_self]

/-- A batch on its core leaves the messages, and the other batches. -/
theorem State.expert_batchOn (s : State) (core : Nat) (b : MicroBatch) : (s.batchOn core b).expert =
    { s.expert with batches := s.expert.batches.map (fun (x : MicroBatch) => if x.id = b.id then { x with core := core, place := .core } else x) } := by
  have hstart : ∀ u : State, (u.startCore core).expert = u.expert := by
    intro u
    unfold State.startCore
    dsimp only
    split <;> rfl
  unfold State.batchOn
  dsimp only
  rw [hstart, State.setCore]
  simp

theorem State.cores_expRelease (l : List Nat) (s : State) : (l.foldl State.expRelease s).cores = s.cores := by
  refine State.foldl_cores _ (fun s id => ?_) _ _
  unfold State.expRelease
  split
  · rfl
  · dsimp only
    split
    · rfl
    · split <;> rfl

section Dispatch

variable {s : State} {core e : Nat} {d : List Word} {x : Nat × Region} (hruns : s.runs = true)
  (hmsgs : ∀ m ∈ s.expert.msgs, s.now < hdDeadline m.words ∧ (m.released = true ∨ ∃ y ∈ m.entries, y.st = .queued)) (hfree : s.coreFree core = true) (hphase : s.bci.phase ≠ .switching)
  (hchoose : chooseExpert s.readyExperts = some (e, d)) (hbetter : s.betterCore core (dsCtx d) e = false) (hplace : ∀ b ∈ s.expert.batches, b.place ≠ .ready) (hweights : s.weightsOf d = some x)
include hruns hmsgs hfree hphase hchoose hbetter hplace hweights

/-- The members of the expert's next batch, by deadline. -/
def State.nextMembers (s : State) (e : Nat) (d : List Word) : List (Nat × Nat) := ((byDeadline (s.expertQueue e)).take (dsMax d)).map (fun q => (q.msg, q.idx))

/-- What copying does with an entry of a message. -/
def State.copyEntry (s : State) (id m : Nat) (x : ExpEntry) : ExpEntry :=
  match s.msg? m with
  | none => x
  | some q => { x with st := .copied id, input := s.activation q x.row }

omit hruns hmsgs hfree hphase hchoose hbetter hplace hweights in
theorem State.copyEntry_copied {v : State} {q : ExpMsg} {m : Nat} (hq : q ∈ v.expert.msgs) (hid : q.id = m) (id : Nat) (y : ExpEntry) : (v.copyEntry id m y).st = .copied id := by
  unfold State.copyEntry
  split
  · next hnone => exact absurd (List.find?_eq_none.1 hnone q hq) (by simp [hid])
  · rfl

/-- The expert's entries are copied for a batch (R440). -/
def State.batchTaken (v : State) (b : MicroBatch) : State :=
  let s' := v.modEntries b.members (v.copyEntry b.id)
  let s' :=
    { s' with
      nextId := b.id + 1
      expert.batches := s'.expert.batches ++ [b]
      expert.msgs := s'.expert.msgs.map (fun (m : ExpMsg) => if m.first = 0 ∧ b.members.any (fun x => decide (x.1 = m.id)) = true then { m with first := v.now } else m) }
  { s' with expert.ready := s'.expert.ready.filter (fun x => decide (x ≠ b.expert) || s'.expertDue b.expert b.desc) }

theorem exec_microBatchDispatch {v : State} {b : MicroBatch} (hv : v = (s.capture s.nextId ((dsMatrices d).map (fun y => (x.1, y.1, y.2)))).1)
    (hb : b = { id := s.nextId, expert := e, desc := d, core := core, members := s.nextMembers e d, pages := (s.capture s.nextId ((dsMatrices d).map (fun y => (x.1, y.1, y.2)))).2 }) :
    exec (.microBatchDispatch core) s = .next (((v.batchTaken b).expert.msgs.map ExpMsg.id).foldl State.expRelease ((v.batchTaken b).batchQueued core b x.1)) := by
  have hexec : exec (.microBatchDispatch core) s = execMicroBatchDispatch core s := rfl
  rw [execMicroBatchDispatch, whenUp_of_runs hruns] at hexec
  dsimp only at hexec
  have hready : ∀ p : MicroBatch → Bool, (∀ b ∈ s.expert.batches, p b = false) → s.expert.batches.find? p = none := fun p hp =>
    List.find?_eq_none.2 fun b hb => by rw [hp b hb]; decide
  rw [List.foldl_fixed' (State.entryDeadlines_early fun m hm => (hmsgs m hm).1), List.foldl_fixed' (State.expRelease_waits fun m hm => (hmsgs m hm).2),
    if_neg (by simp [hfree, hphase]), hready] at hexec
  rotate_left
  · exact fun b hb => by simp [hplace b hb]
  dsimp only at hexec
  rw [hchoose] at hexec
  dsimp only at hexec
  rw [hbetter, if_neg Bool.false_ne_true, hweights] at hexec
  dsimp only at hexec
  rw [← hv] at hexec
  subst hb
  exact hexec

/-- A ready expert gets a core for its entries (R438 to R441). -/
theorem microBatchDispatch_does (habsent : s.weightsAbsent d x.1 = none) : Does (.microBatchDispatch core) s fun t =>
    (∃ b ∈ t.expert.batches, b.id = s.nextId ∧ b.expert = e ∧ b.desc = d ∧ b.core = core ∧ b.members = s.nextMembers e d
      ∧ ∀ m ∈ t.expert.msgs, ∀ k y, m.entries[k]? = some y → (m.id, k) ∈ b.members → y.st = .copied b.id)
    ∧ (t.core core).st = (if (s.core core).st = .idle then .preparing else .waking) := by
  obtain ⟨hexpert, hcores, hregions⟩ := s.capture_leaves s.nextId ((dsMatrices d).map (fun y => (x.1, y.1, y.2)))
  have hexec := exec_microBatchDispatch hruns hmsgs hfree hphase hchoose hbetter hplace hweights rfl rfl
  generalize (s.capture s.nextId ((dsMatrices d).map (fun y => (x.1, y.1, y.2)))).1 = v at hexec hexpert hcores hregions
  generalize hb : ({ id := s.nextId, expert := e, desc := d, core := core, members := s.nextMembers e d, pages := (s.capture s.nextId ((dsMatrices d).map (fun y => (x.1, y.1, y.2)))).2 } :
    MicroBatch) = b at hexec
  have hid : b.id = s.nextId := by rw [← hb]
  have hmembers : b.members = s.nextMembers e d := by rw [← hb]
  have hnone : (v.batchTaken b).weightsAbsent b.desc x.1 = none := by
    rw [← habsent, ← hb]
    simp only [State.weightsAbsent, State.absentIn, State.region?, ← hregions]
    rfl
  rw [State.batchQueued, hnone] at hexec
  obtain ⟨-, hbatches, hreleased⟩ := State.releasedFrom_foldl ((v.batchTaken b).expert.msgs.map ExpMsg.id) ((v.batchTaken b).batchOn core b)
  refine ⟨_, hexec, ⟨{ b with core := core, place := .core }, ?_, hid, by rw [← hb], by rw [← hb], rfl, hmembers, fun m hm k y hy hin => ?_⟩, ?_⟩
  · rw [hbatches, State.expert_batchOn]
    exact List.mem_map.2 ⟨b, List.mem_append_right _ (List.mem_singleton_self b), if_pos rfl⟩
  · obtain ⟨z, hz, hzid, -, hentries⟩ := hreleased m hm
    rw [State.expert_batchOn] at hz
    obtain ⟨w, hw, rfl⟩ := List.mem_map.1 hz
    have hkept : m.id = w.id ∧ m.entries = w.entries := by
      split at hzid
      · next hfirst => exact ⟨hzid, by rw [hentries, if_pos hfirst]⟩
      · next hfirst => exact ⟨hzid, by rw [hentries, if_neg hfirst]⟩
    rw [hkept.2] at hy
    rw [hkept.1] at hin
    obtain ⟨q, hq, hqid, y', rfl⟩ := State.entry_modEntries hw hy hin
    exact State.copyEntry_copied hq hqid b.id y'
  · rw [State.core, State.cores_expRelease]
    exact (State.st_batchOn ..).trans (by rw [State.core, State.core, ← hcores]; rfl)

end Dispatch


/-! ### Numbers only rise (log 2) -/

theorem State.nextId_foldl {α : Type} {f : State → α → State} (h : ∀ (s : State) a, s.nextId ≤ (f s a).nextId) (l : List α) (s : State) : s.nextId ≤ (l.foldl f s).nextId := by
  induction l generalizing s with
  | nil => exact Nat.le_refl _
  | cons a l ih => exact (h s a).trans (ih _)

theorem State.nextId_issueTxn (s : State) (x : Txn) : s.nextId ≤ (s.issueTxn x).nextId := by
  unfold State.issueTxn
  dsimp only
  split
  · exact Nat.le_succ _
  · split
    · simp [State.emit]
    · exact Nat.le_refl _

theorem State.nextId_sendTxn (s : State) (what : TxnUse) (ctx eid op key off ckey : Nat) (data : Bytes) (idem : Bool) : s.nextId ≤ (s.sendTxn what ctx eid op key off ckey data idem).nextId := by
  unfold State.sendTxn
  dsimp only
  refine Nat.le_trans ?_ (State.nextId_issueTxn _ _)
  split <;> exact Nat.le_refl _

theorem State.nextId_sendLender (s : State) (what : TxnUse) (e : Extent) (off n : Nat) (data : Option Bytes) : s.nextId ≤ (s.sendLender what e off n data).nextId := by
  refine State.nextId_foldl (fun s q => ?_) _ _
  split <;> exact State.nextId_sendTxn ..

theorem State.nextId_fetchTL (s : State) (ref : PageRef) (off n : Nat) : s.nextId ≤ (s.fetchTL ref off n).nextId := by
  unfold State.fetchTL
  split
  · exact Nat.le_refl _
  · split
    · split
      · split
        · exact (State.nextId_sendLender ..).trans (State.nextId_foldl (fun s q => State.nextId_sendLender ..) _ _)
        · exact Nat.le_refl _
      · exact Nat.le_refl _
    · exact Nat.le_refl _

theorem State.nextId_readDone (s : State) (port : Bool) (rid : Nat) (v : View) (off n : Nat) : s.nextId ≤ (s.readDone port rid v off n).nextId := by
  unfold State.readDone
  simp only [State.touchRange_keeps]
  refine State.nextId_foldl (fun s q => ?_) _ _
  split
  · exact Nat.le_refl _
  · split
    · simpa using State.nextId_fetchTL ..
    · exact Nat.le_refl _

theorem State.nextId_forward (s : State) (rid off : Nat) (data : Bytes) (work : WorkRef) (log : Option LogNote) : s.nextId ≤ (s.forward rid off data work log).nextId := by
  unfold State.forward
  split
  · exact Nat.le_refl _
  · split
    · exact Nat.le_refl _
    · exact Nat.le_succ _

theorem State.nextId_nackOwn (s : State) (rid ln : Nat) (a : HoldAs) : (s.nackOwn rid ln a).nextId = s.nextId + 1 := by
  simp [State.nackOwn, State.holdCmd, State.freed]

theorem State.nextId_holdOn (s : State) (a : HoldAs) (rid off : Nat) (m : Met) : s.nextId ≤ (s.holdOn a rid off m).1.nextId := by
  have hhold : ∀ (u : State) (cmd : Instr) (why : HoldWhy) (limit eid ctx : Nat), u.nextId = s.nextId → s.nextId ≤ (u.holdCmd cmd why limit eid ctx).nextId := by
    intro u cmd why limit eid ctx hu
    rw [← hu]
    exact Nat.le_succ _
  unfold State.holdOn
  split
  · exact Nat.le_refl _
  · simp
  · split
    · next t seq hfault => exact hhold _ _ _ _ _ _ (by simp [State.faultOn_keeps hfault])
    · exact Nat.le_refl _
  · exact hhold _ _ _ _ _ _ rfl
  · split
    · exact (State.nextId_nackOwn ..).symm ▸ Nat.le_succ _
    · exact hhold _ _ _ _ _ _ (by simp)
  · exact hhold _ _ _ _ _ _ (by simp)


/-! ### The messages that a machine keeps while others come (R437) -/

/-- `t` has the batches of `s`, and each of its messages has the entries of one of `s` or a number that `s` has not given. -/
def State.Grows (s t : State) : Prop :=
  s.nextId ≤ t.nextId ∧ t.expert.batches = s.expert.batches ∧ ∀ m ∈ t.expert.msgs, s.nextId ≤ m.id ∨ ∃ x ∈ s.expert.msgs, m.id = x.id ∧ m.entries = x.entries

theorem State.Grows.of_kept {s t : State} (hid : s.nextId ≤ t.nextId) (hbatches : t.expert.batches = s.expert.batches)
    (hmsgs : ∀ m ∈ t.expert.msgs, ∃ x ∈ s.expert.msgs, m.id = x.id ∧ m.entries = x.entries) : s.Grows t :=
  ⟨hid, hbatches, fun m hm => .inr (hmsgs m hm)⟩

theorem State.Grows.of_expert {s t : State} (hid : s.nextId ≤ t.nextId) (hexpert : t.expert = s.expert) : s.Grows t :=
  .of_kept hid (by rw [hexpert]) fun m hm => ⟨m, hexpert ▸ hm, rfl, rfl⟩

theorem State.Grows.refl (s : State) : s.Grows s := .of_expert (Nat.le_refl _) rfl

theorem State.Grows.trans {s t u : State} (h : s.Grows t) (h' : t.Grows u) : s.Grows u := by
  obtain ⟨hid, hbatches, hmsgs⟩ := h
  obtain ⟨hid', hbatches', hmsgs'⟩ := h'
  refine ⟨hid.trans hid', hbatches'.trans hbatches, fun m hm => ?_⟩
  rcases hmsgs' m hm with hnew | ⟨x, hx, hmx, hentries⟩
  · exact .inl (hid.trans hnew)
  · rcases hmsgs x hx with hnew | ⟨y, hy, hxy, hentries'⟩
    · exact .inl (hmx ▸ hnew)
    · exact .inr ⟨y, hy, hmx.trans hxy, hentries.trans hentries'⟩

theorem State.Grows.foldl {α : Type} {f : State → α → State} (h : ∀ (s : State) a, s.Grows (f s a)) (l : List α) (s : State) : s.Grows (l.foldl f s) := by
  induction l generalizing s with
  | nil => exact .refl s
  | cons a l ih => exact (h s a).trans (ih _)

theorem State.grows_modMsg (s : State) (id : Nat) {f : ExpMsg → ExpMsg} (hf : ∀ m, (f m).id = m.id ∧ (f m).entries = m.entries) : s.Grows (s.modMsg id f) := by
  refine .of_kept (Nat.le_refl _) rfl fun m hm => ?_
  obtain ⟨x, hx, rfl⟩ := List.mem_map.1 hm
  refine ⟨x, hx, ?_⟩
  split
  · exact hf x
  · exact ⟨rfl, rfl⟩

theorem State.nextId_expRelease (s : State) (id : Nat) : (s.expRelease id).nextId = s.nextId := by
  unfold State.expRelease
  split
  · rfl
  · dsimp only
    split
    · rfl
    · split <;> rfl

theorem State.grows_expRelease (s : State) (id : Nat) : s.Grows (s.expRelease id) := by
  obtain ⟨-, hbatches, hmsgs⟩ := s.releasedFrom_expRelease id
  refine .of_kept (Nat.le_of_eq (s.nextId_expRelease id).symm) hbatches fun m hm => ?_
  obtain ⟨x, hx, hid, -, hentries⟩ := hmsgs m hm
  exact ⟨x, hx, hid, hentries⟩

/-- A deadline changes its message, and gives no number. -/
theorem State.entryDeadlines_leaves (s : State) (id : Nat) : (s.entryDeadlines id).nextId = s.nextId ∧ (s.entryDeadlines id).expert.batches = s.expert.batches
    ∧ ∀ m ∈ (s.entryDeadlines id).expert.msgs, m.id = id ∨ m ∈ s.expert.msgs := by
  unfold State.entryDeadlines
  split
  · exact ⟨rfl, rfl, fun m hm => .inr hm⟩
  · next m hm =>
    split
    · exact ⟨rfl, rfl, fun m hm => .inr hm⟩
    · dsimp only
      have hkept : ∀ late : List ExpEntry, (late.foldl (fun (s : State) e => s.notice m.eid m.sctx 1 (hdAbort m.words && decide (e.st = .queued)) .deadline 5 (wAt m.words 1) (dAt m.words 12)) s).nextId = s.nextId
          ∧ (late.foldl (fun (s : State) e => s.notice m.eid m.sctx 1 (hdAbort m.words && decide (e.st = .queued)) .deadline 5 (wAt m.words 1) (dAt m.words 12)) s).expert = s.expert := fun late =>
        ⟨State.foldl_nextId _ (fun s e => by simp) late s, State.foldl_expert _ (fun s e => by simp) late s⟩
      refine ⟨(hkept _).1, (congrArg Expert.batches (hkept _).2 : (List.foldl _ s _).expert.batches = s.expert.batches), fun x hx => ?_⟩
      obtain ⟨y, hy, rfl⟩ := List.mem_map.1 hx
      rw [(hkept _).2] at hy
      split
      · next hid => exact .inl hid
      · exact .inr hy

/-! ### A message that comes has a new number -/

theorem State.grows_deadlines {s v : State} (hnext : v.nextId = s.nextId + 1) (hbatches : v.expert.batches = s.expert.batches) (hmsgs : ∀ m ∈ v.expert.msgs, m.id = s.nextId ∨ m ∈ s.expert.msgs) :
    s.Grows (v.entryDeadlines s.nextId) := by
  obtain ⟨hid, hbatches', hmsgs'⟩ := v.entryDeadlines_leaves s.nextId
  refine ⟨?_, hbatches'.trans hbatches, fun m hm => ?_⟩
  · rw [hid, hnext]
    exact Nat.le_succ _
  · rcases hmsgs' m hm with hnew | hm
    · exact .inl (Nat.le_of_eq hnew.symm)
    · rcases hmsgs m hm with hnew | hold
      · exact .inl (Nat.le_of_eq hnew.symm)
      · exact .inr ⟨m, hold, rfl, rfl⟩

theorem State.grows_addMessage (s : State) (li : Nat) (l : Lane) (slot : Nat) (w : List Word) (es : List ExpEntry) (dIn : Nat) (reject : Option Status) :
    s.Grows (s.addMessage li l slot w es dIn reject) := by
  have hmsgs : ∀ x : ExpMsg, x.id = s.nextId → ∀ m ∈ s.expert.msgs ++ [x], m.id = s.nextId ∨ m ∈ s.expert.msgs := by
    intro x hx m hm
    rcases List.mem_append.1 hm with hold | hnew
    · exact .inr hold
    · exact .inl (List.mem_singleton.1 hnew ▸ hx)
  unfold State.addMessage
  dsimp only
  refine State.Grows.trans ?_ (State.grows_expRelease ..)
  split <;> exact State.grows_deadlines rfl rfl (hmsgs _ rfl)

theorem State.grows_takeMessage (s : State) (li : Nat) (l : Lane) (rg : Region) (slot : Nat) (w : List Word) : s.Grows (s.takeMessage li l rg slot w) := by
  unfold State.takeMessage
  dsimp only
  (repeat' split) <;> exact State.grows_addMessage ..

theorem State.grows_slotCheck (s : State) (li : Nat) (l : Lane) (slot : Nat) : s.Grows (s.slotCheck li l slot) := by
  unfold State.slotCheck
  split
  · dsimp only
    split
    · exact .refl s
    · split
      · split
        · exact State.grows_addMessage ..
        · split
          · exact State.grows_takeMessage ..
          · exact .refl s
      · split
        · exact .refl s
        · exact State.grows_addMessage ..
  · exact .refl s

theorem State.grows_laneCheck (s : State) (ckey : Nat) : s.Grows (s.laneCheck ckey) := by
  unfold State.laneCheck
  split
  · exact .refl s
  · dsimp only
    split
    · exact .refl s
    · exact State.grows_slotCheck ..

theorem State.grows_putCounted (s : State) (port : Bool) (rid off ckey : Nat) (data : Bytes) : s.Grows (s.putCounted port rid off ckey data) := by
  unfold State.putCounted
  refine State.Grows.trans (.of_expert (Nat.le_of_eq ?_) ?_) (State.grows_laneCheck ..) <;> simp [State.countWrite]

theorem State.grows_countedIn {s t : State} {ctx eid rid : Nat} {r : Region} {off ckey : Nat} {data : Bytes} {work : WorkRef} (h : s.countedIn ctx eid rid r off ckey data work = .ok t) : s.Grows t := by
  unfold State.countedIn at h
  split at h
  · cases h
  · split at h
    · cases h
    · split at h
      · cases h
        refine (s.grows_putCounted false rid off ckey data).trans (.of_expert ?_ (by simp))
        exact (Nat.le_of_eq (by simp)).trans (State.nextId_forward ..)
      · cases h

theorem State.grows_ownCounted {s t : State} {i : Issuer} {eid key off ckey : Nat} {data : Bytes} {work : WorkRef} (h : s.ownCounted i eid key off ckey data work = .ok t) : s.Grows t := by
  unfold State.ownCounted at h
  split at h
  · cases h
  · exact State.grows_countedIn h

/-- What holds at first, and is kept by each step that does not fail, holds at the end of a fold that does not fail. -/
theorem State.of_foldl_ok {α ε : Type} {f : State → α → Except ε State} {P : State → Prop} (hf : ∀ s a t, P s → f s a = .ok t → P t) {l : List α} {s t : State} {g : Except ε State → α → Except ε State}
    (hg : ∀ acc a, g acc a = acc.bind (fun s => f s a)) (hs : P s) (h : l.foldl g (.ok s) = .ok t) : P t := by
  have hstuck : ∀ (l : List α) (e : ε), l.foldl g (.error e) = .error e := fun l e => List.foldl_fixed' (fun a => hg (.error e) a) l
  induction l generalizing s with
  | nil =>
    cases h
    exact hs
  | cons a l ih =>
    rw [List.foldl_cons, hg, Except.bind] at h
    cases hfa : f s a with
    | ok u =>
      rw [hfa] at h
      exact ih (hf s a u hs hfa) h
    | error e =>
      rw [hfa, hstuck] at h
      cases h

theorem State.grows_sendTxn (s : State) (what : TxnUse) (ctx eid op key off ckey : Nat) (data : Bytes) (idem : Bool) : s.Grows (s.sendTxn what ctx eid op key off ckey data idem) :=
  .of_expert (State.nextId_sendTxn ..) (by simp)

theorem State.grows_resultWrite {s t : State} {m : ExpMsg} {what : TxnUse} {ckey off : Nat} {data : Bytes} (h : s.resultWrite m what ckey off data = .ok t) : s.Grows t := by
  unfold State.resultWrite at h
  dsimp only at h
  split at h
  · exact State.of_foldl_ok (P := s.Grows) (fun _ _ _ hs hwrite => hs.trans (State.grows_ownCounted hwrite)) (fun acc a => by cases acc <;> rfl) (.refl s) h
  · split at h
    · cases h
      exact State.Grows.foldl (fun s c => State.grows_sendTxn ..) _ _
    · cases h

/-! ### The rows of a message that ends, and what it leaves (R444 to R447) -/

theorem State.grows_expSweep (s : State) : s.Grows s.expSweep :=
  .of_kept (Nat.le_refl _) rfl fun m hm => ⟨m, (List.mem_filter.1 hm).1, rfl, rfl⟩

theorem State.grows_resultFail (s : State) (id : Nat) (st : Status) : s.Grows (s.resultFail id st) := by
  unfold State.resultFail
  split
  · exact .refl s
  · split
    · exact .refl s
    · dsimp only
      refine State.Grows.trans ?_ (State.grows_expSweep _)
      refine (s.grows_modMsg id (f := fun m => { m with dead := true }) fun m => ⟨rfl, rfl⟩).trans ?_
      split <;> exact .of_expert (Nat.le_of_eq (by simp)) (by simp)

theorem State.grows_noteMet (s : State) (cmd : Instr) (i : Issuer) (hw access rid off : Nat) (m : Met) (work : Bool) : s.Grows (s.noteMet cmd i hw access rid off m work) := by
  unfold State.noteMet
  split
  · exact .refl s
  · exact .of_expert (State.nextId_holdOn ..) (by simp)

theorem State.grows_expRow (s : State) (id r : Nat) : s.Grows (s.expRow id r) := by
  have hmark : ∀ u : State, u.Grows (u.modMsg id (fun m => { m with rowsDone := r :: m.rowsDone })) := fun u => u.grows_modMsg id fun m => ⟨rfl, rfl⟩
  unfold State.expRow
  split
  · exact .refl s
  · dsimp only
    split
    · exact .refl s
    · split
      · exact hmark s
      · split
        · next hwrite => exact (State.grows_resultWrite hwrite).trans (hmark _)
        · exact .refl s
        · exact State.grows_resultFail ..
        · exact State.grows_noteMet ..

theorem State.grows_expRows (s : State) (id : Nat) : s.Grows (s.expRows id) := by
  unfold State.expRows
  split
  · exact .refl s
  · split
    · exact .refl s
    · exact State.Grows.foldl (fun s r => s.grows_expRow id r) _ _

theorem State.grows_laneGone (s : State) : s.Grows s.laneGone := by
  rw [State.laneGone_eq]
  refine State.Grows.foldl (fun s e => ?_) _ _
  unfold State.laneStep
  split
  · split
    · exact .refl s
    · refine .of_kept ?_ ?_ ?_
      · simp
      · simp
      · simp
        exact fun m hm => ⟨m, hm, rfl, rfl⟩
  · exact .refl s


/-! ### What comes with a write leaves the homes that this controller has taken over (R752) -/

@[simp] theorem State.adopted_setFnWin (s : State) (port : Nat) (fn : Nat) (w : Window) : (s.setFnWin port fn w).rel.adopted = s.rel.adopted := by
  rfl

@[simp] theorem State.adopted_traceFor (s : State) (selected : Bool) (die : Nat) (typ : Nat) (slots : Nat) (time : Nat) (body : List Word) : (s.traceFor selected die typ slots time body).rel.adopted = s.rel.adopted := by
  rfl

@[simp] theorem State.adopted_traceGen (s : State) (die : Nat) (typ : Nat) (slots : Nat) (time : Nat) (body : List Word) : (s.traceGen die typ slots time body).rel.adopted = s.rel.adopted := by
  rfl

@[simp] theorem State.adopted_cairnAt (s : State) (hw : Nat) (code : Nat) (ctx : Nat) (payload : Nat) (time : Nat) : (s.cairnAt hw code ctx payload time).rel.adopted = s.rel.adopted := by
  unfold State.cairnAt
  split <;> simp 

@[simp] theorem State.adopted_cairn (s : State) (hw : Nat) (code : Nat) (ctx : Nat) (payload : Nat) : (s.cairn hw code ctx payload).rel.adopted = s.rel.adopted := by
  simp [State.cairn]

@[simp] theorem State.adopted_strataEvent (s : State) (idx : Nat) (n : Nat) : (s.strataEvent idx n).rel.adopted = s.rel.adopted := by
  rfl

@[simp] theorem State.adopted_errorCount (s : State) (hw : Nat) (cls : Nat) : (s.errorCount hw cls).rel.adopted = s.rel.adopted := by
  rfl

@[simp] theorem State.adopted_sweepTables (s : State) : (s.sweepTables).rel.adopted = s.rel.adopted := by
  rfl

@[simp] theorem State.adopted_chooseTable (s : State) (rid : Nat) (r : Region) (bytes : Bytes) : (s.chooseTable rid r bytes).1.rel.adopted = s.rel.adopted := by
  unfold State.chooseTable
  simp [apply_ite (fun t : State => t.rel.adopted), State.adopted_foldl]
  (repeat' split) <;> simp [apply_ite (fun t : State => t.rel.adopted), State.adopted_foldl]

@[simp] theorem State.adopted_nvmeAll (s : State) (op : NvmeOp) (lba : Nat) (n : Nat) : (s.nvmeAll op lba n).rel.adopted = s.rel.adopted := by
  simp [State.nvmeAll, apply_ite (fun t : State => t.rel.adopted), State.adopted_foldl]

@[simp] theorem State.adopted_stripesOut (s : State) (n : Nat) : (s.stripesOut n).rel.adopted = s.rel.adopted := by
  induction n generalizing s with
  | zero => rfl
  | succ n ih =>
    unfold State.stripesOut
    split <;> simp [ih]

@[simp] theorem State.adopted_t2Put (s : State) (im : Image) : (s.t2Put im).rel.adopted = s.rel.adopted := by
  simp [State.t2Put]

@[simp] theorem State.adopted_encoderRan (s : State) (ref : PageRef) (p : TierPage) (im : Image) : (s.encoderRan ref p im).rel.adopted = s.rel.adopted := by
  simp [State.encoderRan]

@[simp] theorem State.adopted_encodeGroup (s : State) (rid : Nat) (refs : List PageRef) (b : TierPage → Backing) (place : Image → TierPage → TierPage) :
    (s.encodeGroup rid refs b place).rel.adopted = s.rel.adopted := by
  unfold State.encodeGroup
  split
  · rfl
  · dsimp only
    rw [State.adopted_sweepTables, State.adopted_foldl, State.adopted_chooseTable]
    intro s ref
    (repeat' split) <;> simp 

@[simp] theorem State.adopted_writeBackNow (s : State) (ref : PageRef) : (s.writeBackNow ref).rel.adopted = s.rel.adopted := by
  unfold State.writeBackNow
  split <;> simp

@[simp] theorem State.adopted_evict (s : State) (e : PageRef × TierPage) : (s.evict e).rel.adopted = s.rel.adopted := by
  unfold State.evict
  split <;> simp

@[simp] theorem State.adopted_roomT0 (s : State) : (s.roomT0).rel.adopted = s.rel.adopted := by
  unfold State.roomT0
  (repeat' split) <;> simp

@[simp] theorem State.adopted_fillT0 (s : State) (ref : PageRef) : (s.fillT0 ref).rel.adopted = s.rel.adopted := by
  unfold State.fillT0
  (repeat' split) <;> simp

@[simp] theorem State.adopted_allocate (s : State) (rid : Nat) (p : Nat) (r : Region) : (s.allocate rid p r).rel.adopted = s.rel.adopted := by
  unfold State.allocate
  split <;> simp 

@[simp] theorem State.adopted_ensurePage (s : State) (rid : Nat) (p : Nat) : (s.ensurePage rid p).rel.adopted = s.rel.adopted := by
  unfold State.ensurePage
  (repeat' split) <;> simp

@[simp] theorem State.adopted_commit (s : State) : (s.commit).rel.adopted = s.rel.adopted := by
  rfl

@[simp] theorem State.adopted_makeShadow (s : State) (rid : Nat) (p : Nat) (i : Issuer) : (s.makeShadow rid p i).rel.adopted = s.rel.adopted := by
  unfold State.makeShadow
  simp [apply_ite (fun t : State => t.rel.adopted), State.adopted_foldl]
  (repeat' split) <;> simp [apply_ite (fun t : State => t.rel.adopted), State.adopted_foldl]

@[simp] theorem State.adopted_putRef (s : State) (ref : PageRef) (off : Nat) (data : Bytes) : (s.putRef ref off data).rel.adopted = s.rel.adopted := by
  simp [State.putRef, apply_ite (fun t : State => t.rel.adopted), State.adopted_foldl]

@[simp] theorem State.adopted_directMap (s : State) (rid p off n : Nat) (f : Bytes → Bytes) : (s.directMap rid p off n f).rel.adopted = s.rel.adopted := by
  unfold State.directMap
  dsimp only
  (repeat' split)
  · simp
  · simp
  · rw [State.adopted_foldl (fun s ref => ?_), State.adopted_ensurePage]
    (repeat' split) <;> simp

@[simp] theorem State.adopted_write1 (s : State) (rid : Nat) (w : Way) (off : Nat) (data : Bytes) : (s.write1 rid w off data).rel.adopted = s.rel.adopted := by
  unfold State.write1
  simp [apply_ite (fun t : State => t.rel.adopted), State.adopted_foldl]
  (repeat' split) <;> simp [apply_ite (fun t : State => t.rel.adopted), State.adopted_foldl]

@[simp] theorem State.adopted_writePieces (s : State) (rid : Nat) (w : Way) (data : Bytes) (off : Nat) (ps : List (Nat × Nat)) :
    (s.writePieces rid w data off ps).rel.adopted = s.rel.adopted := by
  induction ps generalizing s with
  | nil => rfl
  | cons p ps ih => simp [State.writePieces, ih]

@[simp] theorem State.adopted_writeRange (s : State) (rid : Nat) (w : Way) (off : Nat) (data : Bytes) : (s.writeRange rid w off data).rel.adopted = s.rel.adopted := by
  simp [State.writeRange]

@[simp] theorem State.adopted_vector (s : State) (port : Nat) (fn : Nat) (v : Nat) : (s.vector port fn v).rel.adopted = s.rel.adopted := by
  simp [State.vector, apply_ite (fun t : State => t.rel.adopted), State.adopted_foldl]

@[simp] theorem State.adopted_rsFn (s : State) (port : Nat) (fn : Nat) : (s.rsFn port fn).rel.adopted = s.rel.adopted := by
  rfl

theorem State.adopted_of_recordIn {s t : State} {rid off : Nat} {data : Bytes} (h : s.recordIn rid off data = some t) : t.rel.adopted = s.rel.adopted := by
  unfold State.recordIn at h
  split at h
  · cases h
  · split at h <;> cases h
    simp

theorem State.adopted_of_recordAt {s t : State} {key off : Nat} {data : Bytes} (h : s.recordAt key off data = some t) : t.rel.adopted = s.rel.adopted := by
  unfold State.recordAt at h
  split at h
  · cases h
  · exact State.adopted_of_recordIn h

@[simp] theorem State.adopted_setUnit (s : State) (hw : Nat) (u : UnitRec) : (s.setUnit hw u).rel.adopted = s.rel.adopted := by
  rfl

@[simp] theorem State.adopted_healthCount (s : State) (hw : Nat) (cls : Nat) : (s.healthCount hw cls).rel.adopted = s.rel.adopted := by
  unfold State.healthCount
  (repeat' split) <;> simp

@[simp] theorem State.adopted_quarantineWatch (s : State) (hw : Nat) (cls : Nat) : (s.quarantineWatch hw cls).rel.adopted = s.rel.adopted := by
  unfold State.quarantineWatch
  split <;> simp

@[simp] theorem State.adopted_error (s : State) (n : ErrorNote) : (s.error n).rel.adopted = s.rel.adopted := by
  simp [State.error, apply_ite (fun t : State => t.rel.adopted), State.adopted_foldl]

@[simp] theorem State.adopted_lostRecord (s : State) (key : Nat) (off : Nat) (ctx : Nat) : (s.lostRecord key off ctx).rel.adopted = s.rel.adopted := by
  simp [State.lostRecord]

@[simp] theorem State.adopted_rsNotice (s : State) (eid : Nat) (ctx : Nat) : (s.rsNotice eid ctx).rel.adopted = s.rel.adopted := by
  unfold State.rsNotice
  (repeat' split) <;> simp

@[simp] theorem State.adopted_notice (s : State) (eid ctx kind : Nat) (aborted : Bool) (st : Status) (src obj deadline : Nat) :
    (s.notice eid ctx kind aborted st src obj deadline).rel.adopted = s.rel.adopted := by
  unfold State.notice
  dsimp only
  (repeat' split) <;> simp 
  all_goals exact State.adopted_of_recordAt (by assumption)

@[simp] theorem State.adopted_logPut (s : State) (k : Nat) (e : LogEntry) : (s.logPut k e).rel.adopted = s.rel.adopted := by
  rfl

@[simp] theorem State.adopted_logDone (s : State) (k : Nat) (lseq : Nat) (st : Status) (value : Nat) : (s.logDone k lseq st value).rel.adopted = s.rel.adopted := by
  rfl

@[simp] theorem State.adopted_selfLog (s : State) (home : Nat) (ctx : Nat) (st : Status) (value : Nat) : (s.selfLog home ctx st value).1.rel.adopted = s.rel.adopted := by
  rfl

@[simp] theorem State.adopted_forward (s : State) (rid : Nat) (off : Nat) (data : Bytes) (work : WorkRef) (log : optParam (Option LogNote) none) : (s.forward rid off data work log).rel.adopted = s.rel.adopted := by
  unfold State.forward
  (repeat' split) <;> simp 

@[simp] theorem State.adopted_addDeadline (s : State) (id : Nat) (at' : Nat) (abort : Bool) (src : Nat) (obj : Nat) (i : Issuer) : (s.addDeadline id at' abort src obj i).rel.adopted = s.rel.adopted := by
  rfl

@[simp] theorem State.adopted_countWrite (s : State) (ckey : Nat) (n : Nat) : (s.countWrite ckey n).rel.adopted = s.rel.adopted := by
  rfl

@[simp] theorem State.adopted_modMsg (s : State) (id : Nat) (f : ExpMsg → ExpMsg) : (s.modMsg id f).rel.adopted = s.rel.adopted := by
  rfl

@[simp] theorem State.adopted_entryDeadlines (s : State) (id : Nat) : (s.entryDeadlines id).rel.adopted = s.rel.adopted := by
  unfold State.entryDeadlines
  (repeat' split) <;> simp [apply_ite (fun t : State => t.rel.adopted), State.adopted_foldl]

@[simp] theorem State.adopted_expRelease (s : State) (id : Nat) : (s.expRelease id).rel.adopted = s.rel.adopted := by
  unfold State.expRelease
  simp [apply_ite (fun t : State => t.rel.adopted), State.adopted_foldl]
  (repeat' split) <;> simp [apply_ite (fun t : State => t.rel.adopted), State.adopted_foldl]

@[simp] theorem State.adopted_addMessage (s : State) (li : Nat) (l : Lane) (slot : Nat) (w : List Word) (es : List ExpEntry) (dIn : Nat) (reject : Option Status) : (s.addMessage li l slot w es dIn reject).rel.adopted = s.rel.adopted := by
  simp [State.addMessage, apply_ite (fun t : State => t.rel.adopted), State.adopted_foldl]

@[simp] theorem State.adopted_takeMessage (s : State) (li : Nat) (l : Lane) (rg : Region) (slot : Nat) (w : List Word) : (s.takeMessage li l rg slot w).rel.adopted = s.rel.adopted := by
  simp [State.takeMessage, apply_ite (fun t : State => t.rel.adopted), State.adopted_foldl]

@[simp] theorem State.adopted_slotCheck (s : State) (li : Nat) (l : Lane) (slot : Nat) : (s.slotCheck li l slot).rel.adopted = s.rel.adopted := by
  unfold State.slotCheck
  (repeat' split) <;> simp [apply_ite (fun t : State => t.rel.adopted), State.adopted_foldl]

@[simp] theorem State.adopted_laneCheck (s : State) (ckey : Nat) : (s.laneCheck ckey).rel.adopted = s.rel.adopted := by
  unfold State.laneCheck
  (repeat' split) <;> simp [apply_ite (fun t : State => t.rel.adopted), State.adopted_foldl]

@[simp] theorem State.adopted_putCounted (s : State) (port : Bool) (rid : Nat) (off : Nat) (ckey : Nat) (data : Bytes) : (s.putCounted port rid off ckey data).rel.adopted = s.rel.adopted := by
  simp [State.putCounted]

theorem State.adopted_of_countedIn {s t : State} {ctx eid rid : Nat} {r : Region} {off ckey : Nat} {data : Bytes} {work : WorkRef}
    (h : s.countedIn ctx eid rid r off ckey data work = .ok t) : t.rel.adopted = s.rel.adopted := by
  unfold State.countedIn at h
  dsimp only at h
  (repeat' split at h) <;> cases h
  simp

theorem State.adopted_of_ownCounted {s t : State} {i : Issuer} {eid key off ckey : Nat} {data : Bytes} {work : WorkRef}
    (h : s.ownCounted i eid key off ckey data work = .ok t) : t.rel.adopted = s.rel.adopted := by
  unfold State.ownCounted at h
  split at h
  · cases h
  · exact State.adopted_of_countedIn h

/-- A write of a result leaves which endpoints are this controller's own. -/
theorem State.isOwn_of_resultWrite {s t : State} {m : ExpMsg} {what : TxnUse} {ckey off : Nat} {data : Bytes} (h : s.resultWrite m what ckey off data = .ok t) (eid : Nat) : t.isOwn eid = s.isOwn eid := by
  have hadopted : t.rel.adopted = s.rel.adopted := by
    unfold State.resultWrite at h
    dsimp only at h
    split at h
    · exact State.of_foldl_ok (P := fun u => u.rel.adopted = s.rel.adopted) (fun _ _ _ hs hwrite => (State.adopted_of_ownCounted hwrite).trans hs) (fun acc a => by cases acc <;> rfl) rfl h
    · split at h <;> cases h
      exact State.adopted_foldl (fun s c => by simp) _ _
  rw [State.isOwn, State.isOwn, hadopted, State.eid_of_standing (State.standing_of_resultWrite h)]


/-! ### A batch ends (R441 to R443) -/

theorem State.nextId_deadlines (l : List Nat) (s : State) : (l.foldl State.entryDeadlines s).nextId = s.nextId :=
  State.foldl_nextId _ (fun s id => (s.entryDeadlines_leaves id).1) l s

theorem State.batchOff_keeps (s : State) (b : MicroBatch) (st : Status) : (s.batchOff b st).nextId = s.nextId ∧ (s.batchOff b st).expert = s.expert := by
  unfold State.batchOff
  split <;> exact ⟨rfl, rfl⟩

/-- The batch's entries have its status, and the batch goes. -/
def State.batchDone (v : State) (b : MicroBatch) (st : Status) : State :=
  let s := (v.modEntries b.members (fun _ e => { e with st := .done st })).batchOff b st
  { s with expert.batches := s.expert.batches.filter (fun (x : MicroBatch) => decide (x.id ≠ b.id))
           home.held := s.home.held.filter (fun (h : Held) => match h.cmd with | .microBatchEnd id _ => decide (id ≠ b.id) | _ => true) }

theorem State.batchDone_expert (v : State) (b : MicroBatch) (st : Status) : (v.batchDone b st).nextId = v.nextId ∧ (∀ x ∈ (v.batchDone b st).expert.batches, x.id ≠ b.id)
    ∧ (v.batchDone b st).expert.msgs = (v.modEntries b.members (fun _ e => { e with st := .done st })).expert.msgs := by
  obtain ⟨hid, hexpert⟩ := (v.modEntries b.members (fun _ e => { e with st := .done st })).batchOff_keeps b st
  exact ⟨hid, fun x hx => by simpa using (List.mem_filter.1 hx).2, (congrArg Expert.msgs hexpert : ((v.modEntries b.members _).batchOff b st).expert.msgs = _)⟩

/-- What follows the end of a batch only adds messages, and keeps the entries of those that are there. -/
theorem State.grows_rest (v : State) (mids : List Nat) (core : Nat) : v.Grows ((mids.foldl State.expRows (mids.foldl State.expRelease v)).expSweep.laneGone.restoreNext core) := by
  have hrows : v.Grows (mids.foldl State.expRows (mids.foldl State.expRelease v)) := (State.Grows.foldl State.grows_expRelease mids v).trans (State.Grows.foldl State.grows_expRows mids _)
  exact ((hrows.trans (State.grows_expSweep _)).trans (State.grows_laneGone _)).trans (.of_expert (Nat.le_of_eq (by simp)) (by simp))

/-- At the end of a batch its members have its status. -/
theorem State.batchOver_ends {v : State} {b : MicroBatch} (hmembers : ∀ x ∈ b.members, x.1 < v.nextId) (st : Status) : (∀ x ∈ (v.batchOver b st).expert.batches, x.id ≠ b.id)
    ∧ ∀ m ∈ (v.batchOver b st).expert.msgs, ∀ k y, m.entries[k]? = some y → (m.id, k) ∈ b.members → y.st = .done st := by
  have hfrom : ∃ w : State, w.nextId = v.nextId ∧ (w.batchDone b st).Grows (v.batchOver b st) := by
    refine ⟨_, ?_, State.grows_rest _ (b.members.map Prod.fst).dedup b.core⟩
    rw [State.nextId_deadlines]
    split <;> simp
  obtain ⟨w, hw, -, hbatches, hmsgs⟩ := hfrom
  obtain ⟨hid, hgone, hentries⟩ := w.batchDone_expert b st
  refine ⟨fun x hx => hgone x (hbatches ▸ hx), fun m hm k y hy hin => ?_⟩
  rcases hmsgs m hm with hnew | ⟨x, hx, hmx, hsame⟩
  · rw [hid, hw] at hnew
    exact absurd (hmembers _ hin) (Nat.not_lt.2 hnew)
  · rw [hentries] at hx
    rw [hsame] at hy
    rw [hmx] at hin
    obtain ⟨-, -, -, z, rfl⟩ := State.entry_modEntries hx hy hin
    rfl

theorem State.nextId_batchOuts (s : State) (b : MicroBatch) : (s.batchOuts b).nextId = s.nextId := by
  unfold State.batchOuts
  split <;> rfl

/-- MICRO_BATCH_END gives the batch's entries its status (R443). -/
theorem microBatchEnd_does {s : State} {b : MicroBatch} {st : Status} (hruns : s.runs = true) (hfind : s.expert.batches.find? (fun x => decide (x.id = b.id)) = some b) (hfail : b.fail = none)
    (hplace : b.place = .core) (hrunning : (s.core b.core).st = .running) (hmembers : ∀ x ∈ b.members, x.1 < s.nextId) (hheld : ∀ h ∈ s.home.held, ∀ st, h.cmd ≠ .microBatchEnd b.id st)
    (hclear : ((s.overlay b.id b.pages).meetWeights b.desc).2.2 = .clear) : Does (.microBatchEnd b.id st) s fun t =>
      (∀ x ∈ t.expert.batches, x.id ≠ b.id) ∧ ∀ m ∈ t.expert.msgs, ∀ k y, m.entries[k]? = some y → (m.id, k) ∈ b.members → y.st = .done st := by
  have hexec : exec (.microBatchEnd b.id st) s = execMicroBatchEnd b.id st s := rfl
  rw [execMicroBatchEnd, whenUp_of_runs hruns] at hexec
  dsimp only at hexec
  rw [hfind] at hexec
  dsimp only at hexec
  rw [hfail] at hexec
  dsimp only at hexec
  rw [if_neg (by rw [hplace]; decide), if_neg] at hexec
  rotate_left
  · rintro (hready | hcore | hany)
    · rw [hplace] at hready
      exact absurd hready (by decide)
    · exact hcore hrunning
    · obtain ⟨h, hh, hcmd⟩ := List.any_eq_true.1 hany
      split at hcmd
      · next x st' heq => exact hheld h hh st' (by rw [heq, of_decide_eq_true hcmd])
      · exact Bool.false_ne_true hcmd
  rw [hclear] at hexec
  dsimp only at hexec
  refine ⟨_, hexec, State.batchOver_ends (fun x hx => (hmembers x hx).trans_le ?_) st⟩
  simp only [State.restore_keeps]
  have hreads : s.nextId ≤ ((dsMatrices b.desc).foldl (fun (u : State) x => u.readDone false ((s.overlay b.id b.pages).meetWeights b.desc).1 (.own (s.expertIssuer b.desc)) x.1 x.2) (s.overlay b.id b.pages)).nextId :=
    (Nat.le_of_eq (by simp)).trans (State.nextId_foldl (fun u x => State.nextId_readDone ..) _ _)
  split
  · rw [State.nextId_batchOuts]
    exact hreads
  · exact hreads

/-! ### The trailer of a message (R446, R447) -/

/-- Rows that are written are not written again. -/
theorem State.expRows_written {s : State} {m : ExpMsg} (hm : s.msg? m.id = some m) (hrows : ∀ r < m.nRes, r ∈ m.rowsDone) : s.expRows m.id = s := by
  unfold State.expRows
  rw [hm]
  dsimp only
  split
  · rfl
  · have hrow : ∀ r ∈ upto m.nRes, s.expRow m.id r = s := by
      intro r hr
      unfold State.expRow
      rw [hm]
      dsimp only
      refine if_pos ?_
      rw [List.contains_iff_mem.2 (hrows r (by simpa [upto] using hr)), Bool.or_true, Bool.true_or]
    generalize upto m.nRes = l at hrow
    induction l with
    | nil => rfl
    | cons r l ih =>
      obtain ⟨hr, hl⟩ := List.forall_mem_cons.1 hrow
      rw [List.foldl_cons, hr]
      exact ih hl

/-- TRAILER_WRITE of a message whose rows are written writes its trailer, which ends a message of this controller (R446, R447). -/
theorem trailerWrite_does {s v : State} {m : ExpMsg} (hruns : s.runs = true) (hm : s.msg? m.id = some m) (hlive : m.dead = false) (hsent : m.trailerSent = false) (hended : m.ended = true)
    (hreleased : m.released = true) (hrows : ∀ r < m.nRes, r ∈ m.rowsDone) (hcount : m.nRes ≤ m.rowsDone.length) (htxn : s.txnLive (fun w => decide (w = .expertRow m.id)) = false)
    (hmirror : s.mirroring (.batch m.id) = false)
    (hwrite : s.resultWrite m (.trailer m.id) (wAt m.words 10) (dAt m.words 6 + m.nRes * rowStride m.dIn (hdOut m.words)) (trailerBytes m s.now) = .ok v) :
    exec (.trailerWrite m.id) s = .next (if v.isOwn (hdEid m.words) = true then v.dropMsg m.id else v.modMsg m.id (fun x => { x with trailerSent := true })) := by
  have hexec : exec (.trailerWrite m.id) s = execTrailerWrite m.id s := rfl
  rw [execTrailerWrite, whenUp_of_runs hruns] at hexec
  dsimp only at hexec
  rw [State.expRows_written hm hrows, hm] at hexec
  dsimp only at hexec
  rw [if_neg (by simp [hlive, hsent, hended, hreleased, hcount, htxn, hmirror]), hwrite] at hexec
  rw [hexec]
  dsimp only
  split <;> rfl


/-- Settles O55: counted writes, the commands of experts, lanes and SSD mode, and a batch from its dispatch to its end and trailer. -/
theorem tokenBatches : Obligations.TokenBatches := by
  unfold Obligations.TokenBatches
  refine ⟨fun s q ck d u rid rg c hlen haccess hnew hcounter hgen hrid hrgen hrg hmirror hclear hlanes =>
      countedWrite_does hlen haccess hnew hcounter hgen hrid hrgen hrg hmirror hclear hlanes,
    fun s r i u => ⟨fun rid rg hready hopens hclear hssd hheld => expertSet_does hready hopens hclear hssd hheld rfl, expertClear_does, fun rid rg out og => ?laneAdd, laneRemove_does,
      expertPolicySet_does, fun hready hssd hctx => ssdEnter_does hready hssd hctx rfl, ssdExit_does⟩,
    fun s hruns => ⟨fun e d => maxWaitExpiry_does hruns, fun core e d x => microBatchDispatch_does hruns, fun b st => microBatchEnd_does hruns, fun m v => ?trailer⟩⟩
  case laneAdd =>
    intro hready slots units li hlive hlow hhigh hunit hmost hsize hctx hfree hroom hcounters hopens hclear hmirror
    exact laneAdd_does rfl rfl rfl hready hlive hlow hhigh hunit hmost hsize hctx hfree hroom hcounters hopens hclear hmirror
  case trailer =>
    intro hm hlive hsent hended hreleased hrows hcount _ htxn hmirror hwrite
    have hexec := trailerWrite_does hruns hm hlive hsent hended hreleased hrows hcount htxn hmirror hwrite
    rw [State.isOwn_of_resultWrite hwrite] at hexec
    exact ⟨fun hown => by rw [hexec, if_pos hown], fun hother => by rw [hexec, if_neg (by rw [hother]; decide)]⟩

end Sys2Proof.Machine
